-- ==== Sys2Proof/Word.lean ====
section
/-!
DEFINITION. Word.lean: the word types of the PZ-816 (00_scope, "Units and notation": bit 0 is the least
significant bit; registers are 32-bit words, refusal codes 16 bits, encoder positions 48 bits).
-/

namespace Sys2Proof

/-- A byte of host memory, of the store, of a scratchpad or of a message. -/
abbrev Byte := BitVec 8

/-- A BAR0 register word (R351). -/
abbrev Word := BitVec 32

/-- A refusal or outcome code (R8); 0x0000 is success. -/
abbrev Code := BitVec 16

/-- An encoder position, modulo 2^48 (R102). -/
abbrev Pos := BitVec 48

/-- A 16-byte link word: byte i in bits 8i+7..8i. -/
abbrev LinkWord := BitVec 128

/-- A 64-byte submission descriptor, byte i in bits 8i+7..8i (Table Host-5). -/
abbrev Desc := BitVec 512

end Sys2Proof
end

