-- ==== Sys2Proof/Syntax.lean ====
section
/-!
DEFINITION. Syntax.lean: the commands of the PZ-816, one constructor of `Instr` per row of
spec/opcode_table.json, and the plain data that a command brings from outside the package.
A row of the table gives a name, a rule and a summary and no bits; the operands are what the rule
lets the outside world choose: register values, words received, data read from host memory, results of
analogue parts (log entry 1).
-/

namespace Sys2Proof

/-- The four withy ports (03_withy, Table Withy-10). -/
inductive Port where
  | n | e | s | w
  deriving DecidableEq, Repr

/-- The two groups of switched rails (Table Power-1). -/
inductive RailGroup where
  | a | b
  deriving DecidableEq, Repr

/-- The three PLLs of Table Time-1 that lock to the reference. -/
inductive Pll where
  | core | pix | link
  deriving DecidableEq, Repr

/-- The reference source that fails (R29). -/
inductive RefSource where
  | refXi | tree
  deriving DecidableEq, Repr

/-- Who writes a register: host software, the weave, or the steward (R110, R130, R308). -/
inductive Writer where
  | host | weave | steward
  deriving DecidableEq, Repr

/-- What SFDP discovery finds in the flash (R322). -/
structure Sfdp where
  /-- the SFDP signature, a 4 KiB erase and a density of at least 16 MiB were found -/
  usable   : Bool
  log2Size : BitVec 8
  addr4    : Bool
  /-- 0 single, 1 dual, 2 quad -/
  io       : BitVec 2
  deriving DecidableEq, Repr

/-- Results of the start-up self-test (Table Images-9); a code of 0 is a pass. -/
structure SelfTest where
  /-- bits 4c+3..4c: array patterns passed in core c -/
  arraysOk : BitVec 64
  /-- bit c: the vector unit of core c passed -/
  vectorOk : BitVec 16
  /-- bit c: the spindle path of core c passed -/
  spindleOk : BitVec 16
  /-- bits 12c+11..12c: scratchpad segment march of core c -/
  segsOk   : BitVec 192
  /-- bit p: serdes loopback of port p -/
  portsOk  : BitVec 4
  /-- bits 4p+3..4p: lanes locked of port p -/
  portLanes : BitVec 16
  storeCode : Code
  pixCode   : Code
  wfeCode   : Code
  pcieCode  : Code
  stewardOk : Bool
  durationUs : BitVec 32
  deriving DecidableEq, Repr

/-- A message in the whisper format (Table Withy-5); byte i of the payload in bits 8i+7..8i. -/
structure WhisperMsg where
  type    : BitVec 8
  len     : BitVec 8
  payload : LinkWord
  crcOk   : Bool
  deriving DecidableEq, Repr

/-- A loose message (03_withy, "Loose messages and credits"): header fields and payload bytes. -/
structure Loose where
  type    : BitVec 8
  dst     : BitVec 8
  src     : BitVec 8
  seq     : BitVec 32
  addr    : BitVec 48
  code    : Code
  cls1    : Bool
  payload : List Byte
  /-- poison marks of the payload's bytes, the first first; bytes beyond the list carry none (R165, R273) -/
  poison  : List Bool
  deriving DecidableEq, Repr

/-- A link frame as received whole (Table Withy-3): CHECK and tag verdicts, service words, payload. CTRL words and static
words are the payloads on the lanes, as the peer's scrambler left them (R46). -/
structure LinkFrame where
  /-- F of the FRAME word -/
  frame     : BitVec 64
  sender    : BitVec 8
  principal : BitVec 8
  hops      : BitVec 8
  credit0   : BitVec 8
  credit1   : BitVec 8
  ack       : BitVec 64
  nak       : Bool
  /-- service words 2 to 5, as on the lanes -/
  ctrl      : List LinkWord
  checkOk   : Bool
  tagOk     : Bool
  /-- the lane of each block with an invalid header (Table Withy-1) -/
  headerErrs : List (Fin 4)
  /-- types of the control blocks at other positions, descrambled (Table Withy-2) -/
  otherTypes : List Byte
  /-- the frame carried at least one static slot -/
  hasStatic : Bool
  /-- static words received: word position, and word as on its lane (R48) -/
  statics   : List (Nat × LinkWord)
  loose     : List Loose
  /-- the peer has begun the resend that a NAK of this package asked for (R56) -/
  resend    : Bool
  deriving DecidableEq, Repr

/-- A line read from host memory: the bytes, or a read that failed (R71, R72). -/
inductive HostRead where
  | ok (bytes : List Byte)
  | failed
  deriving DecidableEq, Repr

/-- The descriptors that a fetch returned, or a failed read (R72). -/
inductive FetchResult where
  | ok (descs : List Desc)
  | failed
  deriving DecidableEq, Repr

/-- The wire format of an element in a scratchpad access (Table Scratch-2). -/
inductive SpPort where
  | f0 | f1 | f2 | f3 | d | s | v | xi | xo | g | r
  deriving DecidableEq, Repr

/-- Bits of a scratchpad row that stand flipped when an access reads it (R164, R165): positions 0 to 4,095 are the row's data
bits, bit b of byte o at 8o + b; those from 4,096 on its check bits, eight for each SECDED codeword, one for each ACT
word. -/
structure SpUpset where
  row  : BitVec 11
  bits : List Nat
  deriving DecidableEq, Repr

/-- Bytes that a scratchpad access, a request of the R port or a loose message moves, each with the poison mark of its
chunk (R273). -/
abbrev Marked := List (Byte × Bool)

/-- How an access through a circular region is addressed (R163). -/
structure RegionRef where
  region  : Fin 32
  rel     : Nat
  /-- rows that ADVANCE moves the pointer by; 0 without ADVANCE -/
  advance : Nat
  /-- rows by which an access of another quarter advances the other pointer in this c-cycle (Table Scratch-7) -/
  coAdvance : Nat
  deriving DecidableEq, Repr

/-- A scratchpad access issued by a local engine in a slot of its port (Tables Scratch-2, -3). -/
structure SpAccess where
  port   : SpPort
  /-- the c-cycle of the slot, counted from the first beat of the weave -/
  cycle  : Nat
  offset : BitVec 20
  /-- written bytes; an empty list reads -/
  data   : List Byte
  region : Option RegionRef
  /-- the quarter, in PARTITION mode (R160) -/
  quarter : Option (Fin 4)
  /-- device address at the other end of a DMA access, ports XI and XO (Table Scratch-3) -/
  peer   : Option (BitVec 48)
  /-- the written data come from a poisoned chunk (R273) -/
  bad    : Bool
  /-- upsets in the rows that the access reads -/
  upsets : List SpUpset
  deriving DecidableEq, Repr

/-- Requests queued at the R port (R158). -/
inductive RKind where
  | row | rowMasked (mask : BitVec 32) | column (transpose : Bool) (esize : Nat)
  deriving DecidableEq, Repr

/-- Who issued a request of the R port (R168, R170). -/
inductive RIssuer where
  | remote (pkg : BitVec 6) | core (n : Fin 16) | steward
  deriving DecidableEq, Repr

/-- One request of the R queue. -/
structure RReq where
  issuer : RIssuer
  kind   : RKind
  offset : BitVec 20
  write  : Bool
  /-- bytes to read -/
  len    : Nat
  data   : Marked
  deriving DecidableEq, Repr

/-- A drain instruction (R184). -/
structure DrainInstr where
  array  : Fin 4
  first  : Nat
  count  : Nat
  /-- 0 INT32, 1 FP32, 2 BF16, 3 INT8Q -/
  format : Fin 4
  qset   : Fin 8
  offset : BitVec 20
  /-- the c-cycle of its D slot, counted from the first beat of the weave -/
  cycle  : Nat
  deriving DecidableEq, Repr

/-- The adapter passes of one request over one adaptable projection in a step (R242): the model's projection, the core and
array whose drain entries hold W x from `first` on, one entry for each output row from `row` on, `count` of them, with the
request's column, and its K inputs. -/
structure AdapterPass where
  proj  : Nat
  core  : Fin 16
  array : Fin 4
  first : Nat
  row   : Nat
  count : Nat
  col   : Fin 32
  x     : List Byte
  deriving DecidableEq, Repr

/-- A spindle dot-product instruction (R186); format 0 is INT8. -/
structure SdotInstr where
  offset : BitVec 20
  idx    : Nat
  init   : Bool
  sgnW   : Bool
  sgnX   : Bool
  format : Nat
  /-- the c-cycle of its S slot, counted from the first beat of the weave -/
  cycle  : Nat
  upsets : List SpUpset
  deriving DecidableEq, Repr

/-- A deviation of one pass result, from a timing error that escaped or a LOWBIT low field (R207-R209),
or from a fault of the array (R188): array, step (or row, in OS), column of the array, and the value added modulo
2^32. -/
structure PassError where
  array : Fin 4
  step : Nat
  col  : Nat
  err  : Word
  deriving DecidableEq, Repr

/-- A Plait transfer (R219-R227). -/
structure PlaitXfer where
  /-- device address of the stream header -/
  stream    : BitVec 48
  /-- scratchpad offset of the first raw row -/
  offset    : BitVec 20
  /-- raw bytes to move -/
  rawLen    : Nat
  /-- 0 STORED, 1 ZRX, 2 BPL, 3 DKV; above 3 reserved -/
  codec     : BitVec 8
  /-- the number of sub-streams S of an encode -/
  subs      : Nat
  /-- the transfer has a row schedule (R225); otherwise a knot or the serving layer started it (R226) -/
  isStatic  : Bool
  sealing   : Bool
  /-- the raw row that an XI slot of the schedule found absent from the smoothing queue, if one did (R225) -/
  underrun  : Option Nat
  knot      : Option (BitVec 17)
  /-- bytes of a decoded stream that lies in host memory or in the store of a remote package (R226) -/
  ext       : List Byte
  /-- upsets in the rows that an encode reads (R165) -/
  upsets    : List SpUpset
  deriving DecidableEq, Repr

/-- The width class a weave declares for an array (R190). -/
inductive WidthClass where
  | unused | w31 | w32 | reserved
  deriving DecidableEq, Repr

/-- One place of a step (Table Phases-4): kind 1 PREFILL, 2 DECODE, 3 CHUNK. -/
structure PlaceDecl where
  pkg    : BitVec 6
  /-- the owner that dispatches to the place -/
  owner  : BitVec 6
  kind   : Fin 4
  index  : BitVec 8
  tokens : Nat
  gather : Nat
  /-- window of the place, in c-cycles from the step's start -/
  winStart : Nat
  winEnd   : Nat
  deriving DecidableEq, Repr

/-- A barrier input of the weave: comparator, edge, owner (R17, R149). -/
structure BarrierDecl where
  cmp    : Fin 2
  rising : Bool
  owner  : BitVec 6
  deriving DecidableEq, Repr

/-- One member's placement in an alternate (R26, R190, R156, R162). -/
structure Placement where
  pkg     : BitVec 6
  reduced : Bool
  /-- class of array a of core c at index 4c + a -/
  classes : List WidthClass
  /-- MODE of core c: PARTITION (R161); where a list of a placement names no core, the image leaves its registers -/
  modes   : List Bool
  /-- wheel table of core c: 16 codes of 4 bits, slot k in bits 4k+3..4k -/
  wheels  : List (BitVec 64)
  /-- the wheel tables of the quarters of core c (R160) -/
  qwheels : List (List (BitVec 64))
  segEn   : List (BitVec 12)
  /-- PLAIT_PROTi as the image sets it: BASE and LIMIT words of range i (R228) -/
  prots   : List (Word × Word)
  /-- transfers of the image that name a codec: store address and length of what they read or write there, and whether
  they also ask for sealing (R227) -/
  plaits  : List (Nat × Nat × Bool)
  /-- region set of core c: entries base, length, kind -/
  regions : List (List (BitVec 11 × BitVec 11 × BitVec 2))
  convs   : List (Nat × Desc)
  deriving DecidableEq, Repr

/-- One alternate of a weave (R281, 17_power "Thermal alternates"). -/
structure Alternate where
  members  : BitVec 64
  cool     : BitVec 64
  owners   : List BarrierDecl
  places   : List Placement
  deriving DecidableEq, Repr

/-- What a slot of a frame carries (R49). -/
inductive SlotKind where
  | staticLocal (stream : Nat)
  | staticFwd (ingress : Port)
  | loose
  | idle
  deriving DecidableEq, Repr

/-- The slot table of one egress port (R49): L entries, each with the kinds of slots 1 to 7. -/
structure PortDecl where
  pkg   : BitVec 6
  port  : Port
  table : List (List SlotKind)
  deriving DecidableEq, Repr

/-- A local stream of a package (R49): reports to an owner, or orders to a package (R247). -/
structure StreamDecl where
  pkg    : BitVec 6
  stream : Nat
  order  : Bool
  dst    : BitVec 6
  deriving DecidableEq, Repr

/-- Where the static words of one position end (R49): the ingress port and position, in entry `entry` of every
`period` frames, and the scratchpad place that takes them. -/
structure DeliveryDecl where
  pkg    : BitVec 6
  port   : Port
  pos    : Nat
  entry  : Nat
  period : Nat
  core   : Fin 16
  offset : BitVec 20
  deriving DecidableEq, Repr

/-- What a weave image declares (Table Images-10 and the chapters that decide its sections). -/
structure WeaveDecl where
  weaveId      : Word
  modelId      : Word
  stewardGen   : BitVec 8
  loadBeats    : BitVec 8
  length       : Nat
  mult         : BitVec 8
  spread       : BitVec 2
  mode         : BitVec 2
  restartBeats : BitVec 8
  beatLen      : BitVec 22
  stepLen      : Nat
  readyBase    : BitVec 17
  alternates   : List Alternate
  /-- pool of package p in bits 2p+1..2p (R18): 0 prefill, 1 decode, 2 shared, 3 reserved -/
  pools        : BitVec 128
  reportEnd    : Nat
  orderEnd     : Nat
  /-- c-cycles of the report and of the order slots, and the delivery of the last order slot -/
  reportSlots  : List Nat
  orderSlots   : List Nat
  lastOrderDelivered : Nat
  places       : List PlaceDecl
  kvLayers     : Nat
  kvWidth      : Nat
  promptLen    : List (BitVec 12)
  eos          : BitVec 12
  mshift       : BitVec 4
  maxRank      : BitVec 3
  /-- N_j and K_j of each adaptable projection (Table Requests-4) -/
  projections  : List (Nat × Nat)
  knotLo       : BitVec 17
  knotHi       : BitVec 17
  homes        : List (BitVec 6 × BitVec 6)
  topoKind     : BitVec 2
  topoRows     : BitVec 3
  topoCols     : BitVec 3
  /-- egress of destination n at index n, dateline in bit 3 -/
  routes       : List (BitVec 4)
  ports        : List PortDecl
  streams      : List StreamDecl
  deliveries   : List DeliveryDecl
  /-- store address of the frame buffer of setup n at index n (R89; log entry 38) -/
  frameBufs    : List (BitVec 48)
  deriving DecidableEq, Repr

/-- A weave image as the principal reads it: its declarations and the verdicts over its bytes (R335). -/
structure WeaveImage where
  /-- the header, the length and the CRC follow Table Images-10 -/
  formatOk : Bool
  /-- the ECDSA P-256 signature verifies under the key whose hash the fuses hold -/
  sigOk    : Bool
  /-- SHA-256 of the key that signed -/
  keyHash  : BitVec 256
  decl     : WeaveDecl
  deriving DecidableEq, Repr

/-- A detected fault (Table Faults-4). -/
structure FaultReport where
  code     : Code
  /-- 0 CORRECTED, 1 NOTICE, 2 WEAVE, 3 PACKAGE -/
  cls      : Fin 4
  unitKind : BitVec 8
  unitIdx  : BitVec 8
  detail   : BitVec 64
  deriving DecidableEq, Repr

/-- The result of an array replay (Table Arrays-9). -/
inductive ReplayResult where
  | pass
  | oneColumn (col : BitVec 5)
  | many
  deriving DecidableEq, Repr

/-- What recovery finds on the package (R278): replays of implicated arrays, entries and crops that fail
their checks, and the check of the weave image copy. -/
structure Recovery where
  replays   : List (Fin 16 × Fin 4 × ReplayResult)
  badEntries : List (BitVec 12)
  /-- ended requests whose tokens fail the label-entry CRC (Table Faults-3) -/
  badTokens : List (BitVec 12)
  badCrops  : List (BitVec 9)
  /-- crops of other packages that these found bad: package and slot (R119) -/
  badAway   : List (BitVec 6 × BitVec 9)
  imageOk   : Bool
  fault     : Bool
  deriving DecidableEq, Repr

/-- A layout of one profile point in belt coordinates (R121): parcel, face, and coordinates. -/
structure ProfilePoint where
  parcel : Word
  face   : BitVec 2
  /-- along, in half counts -/
  x2     : Int
  /-- across and height, in 1/64 mm -/
  y      : Int
  z      : Int
  deriving DecidableEq, Repr

/-- The analogue outcome of one fuse command (R310): which copies of which bits ended as asked. -/
structure FuseOutcome where
  /-- the greatest number of attempts that any one bit copy needed -/
  pulses : BitVec 4
  /-- per copy, bits that still read 0 at the normal margin after the attempts -/
  stuck  : BitVec 96
  /-- per copy, bits that fail the strict margin -/
  weak   : BitVec 96
  deriving DecidableEq, Repr

/-- A WIN or host-forwarded memory request. -/
structure RemoteReq where
  src   : BitVec 6
  addr  : BitVec 48
  len   : Nat
  data  : Marked
  deriving DecidableEq, Repr

/-- What the owner of a crop's parcel tells of its hold, where another package cut the crop (R119): nothing that ends it,
the belt time of its record's commit, or that no record can come and every request made from it has ended. -/
inductive CropFate where
  | held
  | committed (ns : BitVec 64)
  | over
  deriving DecidableEq, Repr

/-- A crop cut by another package and handed over to this owner (R118): slot, maximum length less 1, and its header
(Table Regions-3). -/
structure HandedCrop where
  slot   : BitVec 9
  maxM1  : BitVec 8
  header : Desc
  deriving DecidableEq, Repr

/-- What an owner sees of another package's pools at a boundary: unreserved key-value pages, free park pages. -/
structure PoolView where
  pkg      : BitVec 6
  kvFree   : Nat
  parkFree : Nat
  deriving DecidableEq, Repr

/-- A write that reaches the MSI-X structures: a word of BAR2 (Table Host-2), or MSI-X Enable and Function Mask of the
Message Control word in configuration space (R82). -/
inductive MsixWrite where
  | bar2 (off : BitVec 14) (val : Word) (be : BitVec 4)
  | control (enable funcMask : Bool)
  deriving DecidableEq, Repr

/-- An answer of a stake to a forwarded descriptor (R77). -/
inductive FwdAnswer where
  | busy
  /-- in flight there, and not yet started -/
  | taken
  | started
  | done (status : Code) (result : Word)
  deriving DecidableEq, Repr

/-- One integration of a slice of the weigh front end (R132, R133): the net balance packets of its 5 MHz periods, each with
the p-cycle at which it was counted from the start of the integration; the residue converter's codes at its start and end;
a modulator overload. -/
structure Integration where
  packets  : List (Nat × Int)
  resStart : BitVec 12
  resEnd   : BitVec 12
  overload : Bool
  deriving DecidableEq, Repr

/-- The commands of the PZ-816, one constructor per row of spec/opcode_table.json, in the table's order. -/
inductive Instr where
  /-- COLD_START (R321) -/
  | coldStart (pkgId : BitVec 6) (anchorEn : Bool)
  /-- STRAP_RESAMPLE (R341) -/
  | strapResample (pkgId : BitVec 6) (anchorEn : Bool)
  /-- PGOOD_RISE (R287) -/
  | pgoodRise (group : RailGroup)
  /-- RAIL_TIMEOUT (R287) -/
  | railTimeout (group : RailGroup)
  /-- FAULT_BEACON (R306) -/
  | faultBeacon
  /-- PLL_LOCK (R28) -/
  | pllLock (plls : BitVec 3) (sfdp : Sfdp)
  /-- IMAGE_VERIFY_DONE (R324) -/
  | imageVerifyDone
  /-- SELFTEST_DONE (R24) -/
  | selftestDone (result : SelfTest)
  /-- CAL_LOAD_DONE (R330) -/
  | calLoadDone
  /-- PERST_ASSERT (R321) -/
  | perstAssert
  /-- BOOT_REBOOT (R321); the four bits of the BOOT_CMD write -/
  | bootReboot (bits : BitVec 4)
  /-- BOOT_RAISE_FLOOR (R325) -/
  | bootRaiseFloor (bits : BitVec 4)
  /-- BOOT_LOAD (R335) -/
  | bootLoad (bits : BitVec 4)
  /-- BOOT_STOP (R339) -/
  | bootStop (bits : BitVec 4)
  /-- PAIR_OVERRIDE (R327) -/
  | pairOverride
  /-- REGISTER_WRITE (R357) -/
  | registerWrite (src : Writer) (off : BitVec 20) (val : Word) (be : BitVec 4)
  /-- LO_STAGE_WRITE (R356) -/
  | loStageWrite (src : Writer) (off : BitVec 20) (val : Word) (be : BitVec 4)
  /-- RC_FIELD_READ (R6) -/
  | rcFieldRead (bar2 : Bool) (off : BitVec 20)
  /-- CLK_APPLY (R44) -/
  | clkApply
  /-- PLL_RELOCK (R44) -/
  | pllRelock
  /-- PLL_RELOCK_DONE (R44) -/
  | pllRelockDone
  /-- PLL_LOCK_LOSS (R29) -/
  | pllLockLoss (pll : Pll)
  /-- REF_FAIL (R29) -/
  | refFail (src : RefSource)
  /-- ACLK_MEASURE (R30): reference periods counted in 2,048 a-ticks -/
  | aclkMeasure (refPeriods : BitVec 32)
  /-- TIME_NOW_LO_READ (R37) -/
  | timeNowLoRead
  /-- TIME_BEAT_NUM_LO_READ (R40) -/
  | timeBeatNumLoRead
  /-- TIME_BEAT_STAMP_LO_READ (R40) -/
  | timeBeatStampLoRead
  /-- TIME_SET (R36) -/
  | timeSet
  /-- TIME_STEP_APPLY (R36) -/
  | timeStepApply
  /-- TIME_BEAT_LEN_WRITE (R39) -/
  | timeBeatLenWrite (val : Word) (be : BitVec 4)
  /-- TIME_BEAT_EPOCH_WRITE (R39) -/
  | timeBeatEpochWrite (val : Word) (be : BitVec 4)
  /-- BEAT_VALUES_APPLY (R39) -/
  | beatValuesApply
  /-- BEAT_START (R40) -/
  | beatStart
  /-- ALIGN_ACHIEVED (R35): measured offset in 1/256 ns -/
  | alignAchieved (offset : BitVec 16)
  /-- ALIGN_LOSS (R35) -/
  | alignLoss (offset : BitVec 16)
  /-- WHISPER_TIME_TX (R37) -/
  | whisperTimeTx
  /-- WHISPER_TIME (R51) -/
  | whisperTime (port : Port) (msg : WhisperMsg)
  /-- WHISPER_WAKE (R51) -/
  | whisperWake (port : Port) (msg : WhisperMsg)
  /-- WHISPER_SLEEP (R290) -/
  | whisperSleep (port : Port) (msg : WhisperMsg)
  /-- WHISPER_PRESENCE (R306) -/
  | whisperPresence (port : Port) (msg : WhisperMsg)
  /-- PORT_ENABLE (R50) -/
  | portEnable (port : Port)
  /-- PORT_DISABLE (R50) -/
  | portDisable (port : Port)
  /-- TRAINING_COMPLETE (R50): lanes locked, one-way delay, peer package -/
  | trainingComplete (port : Port) (lanes : BitVec 4) (d : BitVec 8) (peer : BitVec 6)
  /-- TRAIN_RETRY (R50) -/
  | trainRetry (port : Port)
  /-- LANE_FAILURE (R50): whether the frame carried static words -/
  | laneFailure (port : Port) (lane : Fin 4) (hasStatic : Bool)
  /-- RETRAIN (R50) -/
  | retrain (port : Port)
  /-- REKEY (R58) -/
  | rekey (port : Port)
  /-- COUNTER_WRAP (R58) -/
  | counterWrap (port : Port)
  /-- KEYX (R57) -/
  | keyx (port : Port) (word : LinkWord)
  /-- KEY_EXCHANGE_DONE (R57): certificate and signature verdict -/
  | keyExchangeDone (port : Port) (ok : Bool)
  /-- CRYPT_MODE_WRITE (R58) -/
  | cryptModeWrite (val : Word) (be : BitVec 4)
  /-- LINK_FRAME (R56) -/
  | linkFrame (port : Port) (f : LinkFrame)
  /-- LOOSE_FORWARD (R55) -/
  | looseForward (port : Port)
  /-- HOST_FWD_REQ (R68): the message, and what host memory returns when it asks for a read -/
  | hostFwdReq (msg : Loose) (data : HostRead)
  /-- HOST_FWD_RSP (R68) -/
  | hostFwdRsp (msg : Loose)
  /-- HOST_FWD_TIMEOUT (R68): the descriptor whose access timed out -/
  | hostFwdTimeout (id : Nat)
  /-- WIN_WRITE (R62) -/
  | winWrite (req : RemoteReq)
  /-- WIN_READ (R62) -/
  | winRead (req : RemoteReq)
  /-- WIN_RESP (R62) -/
  | winResp (msg : Loose)
  /-- WIN_NAK (R62) -/
  | winNak (msg : Loose)
  /-- WIN_CTL_WRITE (R61) -/
  | winCtlWrite (win : Fin 32) (val : Word) (be : BitVec 4)
  /-- HALT (R275) -/
  | halt (port : Port) (word : LinkWord)
  /-- RESUME (R280) -/
  | resume (port : Port) (word : LinkWord)
  /-- KNOT (R83) -/
  | knot (word : LinkWord)
  /-- JOIN (R52): the word, its hops, the joiner's serial and lifecycle, and path authentication -/
  | join (port : Port) (word : LinkWord) (hops : BitVec 8) (serial : BitVec 64) (develop : Bool) (authOk : Bool)
  /-- JOIN_REPLY (R52) -/
  | joinReply (port : Port) (word : LinkWord) (mode : BitVec 2) (mult : BitVec 6) (spread : BitVec 2)
  /-- PRESENCE (R52) -/
  | presence (port : Port) (word : LinkWord)
  /-- PRESENCE_FLOOD (R52) -/
  | presenceFlood
  /-- PRINCIPAL_CLAIM (R16) -/
  | principalClaim
  /-- JOIN_RETRY (R52) -/
  | joinRetry
  /-- JOIN_SWITCH (R34): the principal's belt time -/
  | joinSwitch (belt : BitVec 80)
  /-- TIME_STEP_WORD (R36) -/
  | timeStepWord (port : Port) (word : LinkWord)
  /-- TIME_BEAT_WORD (R39) -/
  | timeBeatWord (port : Port) (word : LinkWord)
  /-- TIME_CLOCK_WORD (R33) -/
  | timeClockWord (port : Port) (word : LinkWord)
  /-- FWD_READ (R63) -/
  | fwdRead
  /-- FWD_WRITE (R63) -/
  | fwdWrite
  /-- FWD_RESPONSE (R63) -/
  | fwdResponse (code : Code) (data : Word)
  /-- FWD_TIMEOUT (R63) -/
  | fwdTimeout
  /-- FLR (R66) -/
  | flr
  /-- BME_CLEAR (R67) -/
  | bmeClear
  /-- BME_SET (R67) -/
  | bmeSet
  /-- RING_ENABLE (R73) -/
  | ringEnable (ring : Fin 64) (val : Word) (be : BitVec 4)
  /-- RING_DISABLE (R72) -/
  | ringDisable (ring : Fin 64) (val : Word) (be : BitVec 4)
  /-- DOORBELL_POLL (R70) -/
  | doorbellPoll
  /-- DOORBELL_READ_DONE (R71) -/
  | doorbellReadDone (ring : Fin 64) (result : HostRead)
  /-- DESCRIPTOR_FETCH (R72) -/
  | descriptorFetch (ring : Fin 64)
  /-- DESCRIPTOR_FETCH_DONE (R72) -/
  | descriptorFetchDone (ring : Fin 64) (result : FetchResult)
  /-- DESCRIPTOR_START (R76): the descriptor in flight by its number -/
  | descriptorStart (id : Nat)
  /-- KNOT_WAIT_TIMEOUT (R75) -/
  | knotWaitTimeout (id : Nat)
  /-- FORWARD_RESEND (R77) -/
  | forwardResend (id : Nat)
  /-- NOP (R74) -/
  | nop (id : Nat)
  /-- IDENTITY (R74): public key and certificate of the identity engine -/
  | identity (id : Nat)
  /-- STATUS (R286) -/
  | status (id : Nat)
  /-- SELFTEST (R74) -/
  | selftest (id : Nat)
  /-- FLASH_ERASE (R331) -/
  | flashErase (id : Nat)
  /-- FLASH_WRITE (R332): source bytes, and bytes that read back wrong -/
  | flashWrite (id : Nat) (src : List Byte) (badPage : Option Nat)
  /-- IMAGE_COMMIT (R333) -/
  | imageCommit (id : Nat) (readBackOk : Bool) (fuse : FuseOutcome)
  /-- KNOT_SET (R84) -/
  | knotSet (id : Nat)
  /-- KNOT_READ (R83) -/
  | knotRead (id : Nat)
  /-- MIRROR (R85) -/
  | mirror (id : Nat)
  /-- WEAVE_LOAD (R335) -/
  | weaveLoad (id : Nat)
  /-- GRAMMAR_LOAD (R263): the table read from host memory -/
  | grammarLoad (id : Nat) (table : List Byte)
  /-- ADAPTER_LOAD (R241): the sealed blob -/
  | adapterLoad (id : Nat) (blob : List Byte)
  /-- TENANT_CFG (R239) -/
  | tenantCfg (id : Nat)
  /-- REGION_REQ (R128): crops of remote packages as read through windows, by label -/
  | regionReq (id : Nat) (crops : List (Nat × List Byte))
  /-- DEFERRED_ENTRY_POST (R80) -/
  | deferredEntryPost
  /-- STAKE_EVENT_SEND (R81) -/
  | stakeEventSend
  /-- COALESCE_TIMEOUT (R82) -/
  | coalesceTimeout (ring : Fin 64)
  /-- KNOT_SIGNAL (R83): local engine, knot, amount, remote destination if any -/
  | knotSignal (knot : BitVec 17) (amount : BitVec 16) (dst : Option (BitVec 6))
  /-- MIRROR_WRITE (R85) -/
  | mirrorWrite (knot : BitVec 17)
  /-- REC_RING_ENABLE (R87) -/
  | recRingEnable (val : Word) (be : BitVec 4)
  /-- REC_RING_DISABLE (R87) -/
  | recRingDisable (val : Word) (be : BitVec 4)
  /-- RECORD_WRITE (R86) -/
  | recordWrite
  /-- LINGER_EXPIRY (R232) -/
  | lingerExpiry (req : BitVec 12)
  /-- FIELD_INPUT_EDGE (R100): an input, and its level as this p-cycle samples it -/
  | fieldInputEdge (input : Fin 8) (level : Bool)
  /-- EVQ_POP (R101) -/
  | evqPop
  /-- ENCODER_EDGE (R102): new levels of A and B sampled in this p-cycle; none where a sampled edge only falls due -/
  | encoderEdge (sample : Option (Bool × Bool))
  /-- Z_PULSE (R103): a rising edge of Z is sampled in this p-cycle; false where a sampled edge only falls due -/
  | zPulse (sample : Bool)
  /-- ENC_LOSS (R102) -/
  | encLoss
  /-- ENC_SIGNAL_RETURN (R102) -/
  | encSignalReturn
  /-- ARM_AT (R103) -/
  | armAt (src : Writer)
  /-- ARM_Z (R103) -/
  | armZ (src : Writer)
  /-- PRESET_LOAD (R103) -/
  | presetLoad
  /-- SNAP (R109): the oldest SNAP write that waits becomes a trigger in this p-cycle -/
  | snap
  /-- DARK_CAPTURE (R97) -/
  | darkCapture (src : Writer)
  /-- DARK_CAPTURE_DONE (R97): sums of the 16 frames at 1 ms and at 10 ms, pixel by pixel -/
  | darkCaptureDone (sums : List (Nat × Nat))
  /-- INTEGRATION_START (R90) -/
  | integrationStart
  /-- INTEGRATION_END (R90) -/
  | integrationEnd
  /-- READOUT_END (R91): raw pixels, rows in order, each with its 32 shielded pixels' sum -/
  | readoutEnd (rows : List (Nat × List (BitVec 12)))
  /-- STROBE_START (R107) -/
  | strobeStart (strobe : Fin 4)
  /-- STROBE_END (R107) -/
  | strobeEnd (strobe : Fin 4)
  /-- SYNC_PULSE_START (R108) -/
  | syncPulseStart (sync : Fin 2)
  /-- SYNC_PULSE_END (R108) -/
  | syncPulseEnd (sync : Fin 2)
  /-- BELT_SECOND (R108) -/
  | beltSecond
  /-- FIELD_ENC_POS_LO_READ (R102) -/
  | fieldEncPosLoRead
  /-- REGION_LIST (R112): the entries as written by the detection network; each names its frame -/
  | regionList (entries : List (BitVec 256))
  /-- CROP_CUT (R116): the oldest matched region; where another package owns the parcel, that owner
  and the parcel's id -/
  | cropCut (parcel : Option (BitVec 6 × Word))
  /-- CROP_DONE (R118) -/
  | cropDone (slot : BitVec 9)
  /-- CROP_HOLD_EXPIRY (R119): the slot, and what the owner tells where that is another package -/
  | cropHoldExpiry (slot : BitVec 9) (fate : CropFate)
  /-- RULE_WRITE (R115) -/
  | ruleWrite
  /-- RULE_SWAP (R115) -/
  | ruleSwap
  /-- RULE_READ (R115) -/
  | ruleRead
  /-- SWAP_APPLY (R115) -/
  | swapApply
  /-- PROFILE_EXTRACT (R120): the setup and window of the stored frame, the parcel and its barrier position -/
  | profileExtract (setup : BitVec 2) (window : Fin 8) (parcel : Word) (barrierPos : Pos)
  /-- PROFILE_FUSE (R123) -/
  | profileFuse (points : List ProfilePoint)
  /-- BOX_FIT (R124) -/
  | boxFit (parcel : Word)
  /-- RECORD_ASSEMBLY (R126) -/
  | recordAssembly (parcel : Word)
  /-- DIAG_CAPTURE (R129) -/
  | diagCapture (setup : BitVec 2)
  /-- DIAG_WRITE (R129) -/
  | diagWrite
  /-- CORE_HOST_WRITE (R127): the core that issues it, or the steward -/
  | coreHostWrite (core : Option (Fin 16)) (addr : BitVec 48)
  /-- WFE_ENABLE (R131): a write of WFE_CTL that sets EN -/
  | wfeEnable (val : Word) (be : BitVec 4)
  /-- REF_SETTLED_TIMER (R135): p-cycles for which the excitation sense has lain within 5 % of 5.0 V; none where it does not -/
  | refSettledTimer (sense : Option Nat)
  /-- EXC_TRIP (R135) -/
  | excTrip
  /-- COMPARATOR_CHANGE (R140): the comparator and its input in µV in this p-cycle -/
  | comparatorChange (cmp : Fin 2) (microvolts : Nat)
  /-- START_A (R139) -/
  | startA
  /-- START_B (R139) -/
  | startB
  /-- STOP_A (R141) -/
  | stopA
  /-- STOP_B (R141) -/
  | stopB
  /-- RUN_START (R139): the converter, false A, true B -/
  | runStart (conv : Bool)
  /-- RESULT_WRITE (R138): converter, and the integrations that ended since its previous result or, for the first, since the
  entry's blank -/
  | resultWrite (conv : Bool) (ints : List Integration)
  /-- ROTATION_DUE (R144) -/
  | rotationDue
  /-- ROTATION_HANDOVER (R144) -/
  | rotationHandover
  /-- CALIBRATION_DONE (R145): the integrations of SHORT and REF for each gain converted -/
  | calibrationDone (ints : List (Fin 8 × Integration × Integration))
  /-- SP_ROW (R154) -/
  | spRow (core : Fin 16) (acc : SpAccess)
  /-- SP_ROW_MASKED (R154) -/
  | spRowMasked (core : Fin 16) (acc : SpAccess) (mask : BitVec 32)
  /-- SP_COLUMN (R155) -/
  | spColumn (core : Fin 16) (acc : SpAccess) (transpose : Bool) (esize : Nat)
  /-- SP_NARROW (R159) -/
  | spNarrow (core : Fin 16) (acc : SpAccess) (len : Nat)
  /-- R_SLOT_SERVE (R158): the c-cycle of the slot, counted from the first beat of the weave, and the upsets that a read
  finds -/
  | rSlotServe (core : Fin 16) (cycle : Nat) (upsets : List SpUpset)
  /-- G_WRITEBACK (R159): a G slot at which the gather buffer has work: its c-cycle, and the upsets that a read finds -/
  | gWriteback (core : Fin 16) (cycle : Nat) (upsets : List SpUpset)
  /-- CE_WRITEBACK (R166): the c-cycle of the idle slot, and the upsets that the read finds -/
  | ceWriteback (core : Fin 16) (cycle : Nat) (upsets : List SpUpset)
  /-- PASS (R178): instruction, c-cycle of issue, deviations of its results, timing detections by array (R207) -/
  | pass (core : Fin 16) (word : BitVec 64) (cycle : Nat) (errs : List PassError) (dets : List (Fin 4 × Nat))
  /-- FEED_ROWQ (R176): the issuing array, and the gang of its pass if BCAST is set -/
  | feedRowq (core : Fin 16) (array : Fin 4) (bcast : Option (Fin 4)) (offset : BitVec 20) (column : Bool) (cycle : Nat)
      (upsets : List SpUpset)
  /-- FEED_COLQ (R176) -/
  | feedColq (core : Fin 16) (array : Fin 4) (bcast : Option (Fin 4)) (offset : BitVec 20) (column : Bool) (cycle : Nat)
      (upsets : List SpUpset)
  /-- FEED_LOAD (R176) -/
  | feedLoad (core : Fin 16) (array : Fin 4) (bcast : Option (Fin 4)) (n : Fin 4) (bf16 : Bool) (offset : BitVec 20)
      (column : Bool) (cycle : Nat) (upsets : List SpUpset)
  /-- DRAIN (R184) -/
  | drain (core : Fin 16) (ins : DrainInstr)
  /-- QLOAD (R185) -/
  | qload (core : Fin 16) (p : Fin 2) (offset : BitVec 20) (cycle : Nat) (upsets : List SpUpset)
  /-- XLOAD (R186) -/
  | xload (core : Fin 16) (offset : BitVec 20) (format : Nat) (cycle : Nat) (upsets : List SpUpset)
  /-- SDOT (R186) -/
  | sdot (core : Fin 16) (instr : SdotInstr)
  /-- SOUT (R186) -/
  | sout (core : Fin 16) (p : Nat) (offset : BitVec 20) (format : Nat) (cycle : Nat)
  /-- APXSET (R217) -/
  | apxset (core : Fin 16) (k : BitVec 4)
  /-- CHECKSUM_VERDICT (R188): differences of the column and row checks of the last CHK pass -/
  | checksumVerdict (core : Fin 16) (array : Fin 4)
  /-- TALLY_VERDICT (R215) -/
  | tallyVerdict (core : Fin 16) (array : Fin 4)
  /-- CONV_EXECUTE (R197): the descriptor, the c-cycle from which the next rounds of four chains run and how many, and
  upsets in the rows read -/
  | convExecute (core : Fin 16) (desc : Desc) (cycle rounds : Nat) (upsets : List SpUpset)
  /-- RESAMPLE_EXECUTE (R201) -/
  | resampleExecute (core : Fin 16) (desc : Desc) (upsets : List SpUpset)
  /-- PLAIT_DECODE (R225) -/
  | plaitDecode (core : Fin 16) (x : PlaitXfer)
  /-- PLAIT_ENCODE (R227) -/
  | plaitEncode (core : Fin 16) (x : PlaitXfer)
  /-- STEP_BOUNDARY (R233): crops that other packages hand over, and the state of their pools -/
  | stepBoundary (crops : List HandedCrop) (views : List PoolView)
  /-- PLACE_REPORT (R247): the word; whether every check taken passed and one was taken (R267); the device address of the
  request's page list -/
  | placeReport (word : LinkWord) (checkOk : Bool) (list : BitVec 48)
  /-- ORDER_CHUNK (R248): order word, owner, the request's entry, contents of the pages written, in ordinal order, and the
  adapter passes of the step (R242) -/
  | orderChunk (word : LinkWord) (owner : BitVec 6) (entry : Desc) (pages : List (List Byte)) (adapters : List AdapterPass)
  /-- ORDER_DECODE (R265): order word, owner, entry, tokens read from the owner's store (R270), 4,096 logits, pages, adapter
  passes -/
  | orderDecode (word : LinkWord) (owner : BitVec 6) (entry : Desc) (tokens : List (BitVec 12))
      (logits : List (BitVec 32)) (pages : List (List Byte)) (adapters : List AdapterPass)
  /-- ORDER_SHIP (R252): at the holder, and at the destination, which thereby knows the transfer number -/
  | orderShip (word : LinkWord) (owner : BitVec 6) (entry : Desc)
  /-- ORDER_PARK_STORE (R256) -/
  | orderParkStore (word : LinkWord) (owner : BitVec 6)
  /-- ORDER_PARK_HOST (R257) -/
  | orderParkHost (word : LinkWord) (owner : BitVec 6)
  /-- ORDER_UNPARK (R260): host-slot bytes when the copy lies in host memory -/
  | orderUnpark (word : LinkWord) (owner : BitVec 6) (entry : Desc) (slot : List Byte)
  /-- ORDER_DROP (R246) -/
  | orderDrop (word : LinkWord) (owner : BitVec 6)
  /-- KV_SHIP_LIST (R253) -/
  | kvShipList (msg : Loose)
  /-- KV_SHIP_PAGES (R253) -/
  | kvShipPages (msg : Loose)
  /-- KV_SHIP_END (R254) -/
  | kvShipEnd (msg : Loose)
  /-- KV_SHIP_ACK (R254) -/
  | kvShipAck (msg : Loose)
  /-- KV_SHIP_NAK (R253) -/
  | kvShipNak (msg : Loose)
  /-- PARK_COPY_DONE (R255): the owner and the request -/
  | parkCopyDone (owner : BitVec 6) (req : BitVec 12)
  /-- HOST_PARK_MOVE (R257): the holder, and its free park pages where it is another package -/
  | hostParkMove (holder : BitVec 6) (parkFree : Nat)
  /-- NEW_KEY (R258) -/
  | newKey
  /-- REQ_READ (R229) -/
  | reqRead
  /-- SERVE_STEP_NUM_LO_READ (R245) -/
  | serveStepNumLoRead
  /-- LOCAL_FAULT (R277) -/
  | localFault (f : FaultReport)
  /-- RECOVERY_DONE (R278) -/
  | recoveryDone (r : Recovery)
  /-- WATCHDOG_EXPIRY (R274) -/
  | watchdogExpiry
  /-- RAIL_FAULT (R344) -/
  | railFault
  /-- PACKAGE_FATAL (R274) -/
  | packageFatal
  /-- FAULT_CLEAR (R285) -/
  | faultClear
  /-- WEAVE_IMAGE_READ_DONE (R335) -/
  | weaveImageReadDone (img : WeaveImage)
  /-- WEAVE_MEMBER_CHECK_DONE (R336): the image as received with the verdict of its CRC, and the start beat S -/
  | weaveMemberCheckDone (img : WeaveImage) (start : BitVec 64)
  /-- PWR_ENTER_DOZE (R289) -/
  | pwrEnterDoze
  /-- PWR_ENTER_SLUMBER (R289) -/
  | pwrEnterSlumber
  /-- POWER_ENTRY_COMPLETE (R289) -/
  | powerEntryComplete
  /-- PCIE_WAKE (R292) -/
  | pcieWake
  /-- WAKE_TIMER (R292) -/
  | wakeTimer
  /-- FIELD_INPUT_WAKE (R292) -/
  | fieldInputWake (input : Fin 8) (level : Bool)
  /-- WAKE_COMPLETE (R293) -/
  | wakeComplete (result : SelfTest)
  /-- DOZE_WAKE_COMPLETE (R295) -/
  | dozeWakeComplete
  /-- SENSOR_SAMPLE (R296): sensors P0-P3 and L0-L7, in 0.1 degree -/
  | sensorSample (p : List (BitVec 16)) (l : List (BitVec 16))
  /-- THERMAL_ALTERNATE (R299) -/
  | thermalAlternate
  /-- THERMAL_TRIP (R298) -/
  | thermalTrip
  /-- THERMAL_RETURN (R300) -/
  | thermalReturn
  /-- FUSE_READ (R303) -/
  | fuseRead (src : Writer) (word : BitVec 9)
  /-- FUSE_PROGRAM (R309) -/
  | fuseProgram (src : Writer) (word : BitVec 9) (vioOk : Bool)
  /-- FUSE_VERIFY (R311) -/
  | fuseVerify (src : Writer) (word : BitVec 9)
  /-- FUSE_REPAIR (R312) -/
  | fuseRepair (src : Writer) (word : BitVec 9) (vioOk : Bool)
  /-- FUSE_ADVANCE (R314) -/
  | fuseAdvance (src : Writer) (word : BitVec 9) (vioOk : Bool)
  /-- FUSE_CTR_SET (R318) -/
  | fuseCtrSet (src : Writer) (word : BitVec 9) (vioOk : Bool)
  /-- FUSE_CTR_READ (R318) -/
  | fuseCtrRead (src : Writer) (word : BitVec 9)
  /-- FUSE_CMD_DONE (R310): outcome of the pulses, word by word in the command's order -/
  | fuseCmdDone (outcome : List FuseOutcome)
  /-- BSCAN_INSTRUCTION (R350) -/
  | bscanInstruction (ir : BitVec 4)
  /-- TEST_LOGIC_RESET (R350) -/
  | testLogicReset
  /-- FORWARDED_DESCRIPTOR (R77): forwarding anchor, its number for the descriptor, its wait limit in ms -/
  | forwardedDescriptor (anchor : BitVec 6) (num : Nat) (desc : Desc) (limitMs : BitVec 16)
  /-- FORWARDED_DESCRIPTOR_ANSWER (R77) -/
  | forwardedDescriptorAnswer (id : Nat) (answer : FwdAnswer)
  /-- FORWARDED_ACCESS (R63): origin, offset, and data when it is a write -/
  | forwardedAccess (origin : BitVec 6) (off : BitVec 20) (write : Option Word)
  /-- VECTOR_UNMASK (R65, R67, R82): a write of BAR2 or of the MSI-X Message Control word -/
  | vectorUnmask (write : MsixWrite)
  /-- RESET_N_ASSERT (R321) -/
  | resetNAssert
  deriving DecidableEq, Repr

end Sys2Proof
end

