-- ==== Sys2Proof/Machine/Bits.lean ====
section
/-!
DEFINITION. Bits.lean: bit fields, little-endian bytes (00_scope, "Units and notation"), signed values,
rounding, and the check codes that several chapters use (CRC-32C and the CRC-8 of R317).
-/

namespace Sys2Proof.Machine

/-- Element `n` of a list, or `d`. -/
def nthD {α : Type} (d : α) : List α → Nat → α
  | [], _ => d
  | a :: _, 0 => a
  | _ :: l, n + 1 => nthD d l n

/-- Field [lo+len-1:lo] of a bit vector. -/
def bits {n : Nat} (w : BitVec n) (lo len : Nat) : Nat := w.toNat >>> lo % 2 ^ len

/-- `w` with field [lo+len-1:lo] set to the low bits of `v`. -/
def putBits {n : Nat} (w : BitVec n) (lo len v : Nat) : BitVec n :=
  (w &&& ~~~(BitVec.ofNat n ((2 ^ len - 1) <<< lo))) ||| BitVec.ofNat n ((v % 2 ^ len) <<< lo)

/-- Bit `i` of a natural number. -/
def nbit (v i : Nat) : Bool := v >>> i % 2 == 1

/-- The low `n` bytes of `v`, little-endian. -/
def leBytes : Nat → Nat → List Byte
  | 0, _ => []
  | n + 1, v => BitVec.ofNat 8 v :: leBytes n (v / 256)

/-- The number that bytes give, little-endian. -/
def ofLe : List Byte → Nat
  | [] => 0
  | b :: l => b.toNat + 256 * ofLe l

/-- Bytes `lo` to `lo + n - 1` of a byte string as a little-endian number. -/
def leAt (l : List Byte) (lo n : Nat) : Nat := ofLe ((l.drop lo).take n)

/-- A 16-byte link word from its bytes' little-endian value. -/
def linkWord (v : Nat) : LinkWord := BitVec.ofNat 128 v

/-- The signed value of the low `n` bits of `v`. -/
def signed (n v : Nat) : Int := (BitVec.ofNat n v).toInt

/-- The two's-complement code of `v` in `n` bits. -/
def codeOf (n : Nat) (v : Int) : Nat := (BitVec.ofInt n v).toNat

/-- `v` held to the range [lo, hi]. -/
def clampI (lo hi v : Int) : Int := max lo (min hi v)

/-- The quotient of `a` by a positive `b`, to nearest, ties to even. -/
def rne (a : Int) (b : Nat) : Int :=
  let q := a / b
  let r := a % b
  if 2 * r < b then q else if 2 * r > b then q + 1 else if q % 2 = 0 then q else q + 1

/-- The quotient of `a` by a positive `b`, to nearest, ties away from zero. -/
def rna (a : Int) (b : Nat) : Int :=
  if 0 ≤ a then (2 * a + b) / (2 * b) else -((2 * -a + b) / (2 * b))

/-- The quotient rounded up. -/
def ceilDiv (a b : Nat) : Nat := (a + b - 1) / b

/-- One bit of the reflected CRC-32C (polynomial 0x82F6_3B78). -/
def crcBit (c : Word) : Word := if c.getLsbD 0 then (c >>> 1) ^^^ 0x82F63B78 else c >>> 1

/-- One byte of CRC-32C. -/
def crcByte (c : Word) (b : Byte) : Word :=
  crcBit (crcBit (crcBit (crcBit (crcBit (crcBit (crcBit (crcBit (c ^^^ b.setWidth 32))))))))

/-- CRC-32C (Castagnoli) of a byte string. -/
def crc32c (l : List Byte) : Word := ~~~(l.foldl crcByte 0xFFFFFFFF)

/-- One bit of the CRC-8 of R317 (polynomial 0x07, most significant bit first). -/
def crc8Bit (c : Byte) : Byte := if c.getLsbD 7 then (c <<< 1) ^^^ 0x07 else c <<< 1

/-- CRC-8 of one byte, initial value 0 (R317). -/
def crc8 (b : Byte) : Byte :=
  crc8Bit (crc8Bit (crc8Bit (crc8Bit (crc8Bit (crc8Bit (crc8Bit (crc8Bit b)))))))

/-- Set bits of a number below position `n`. -/
def popCount : Nat → Nat → Nat
  | 0, _ => 0
  | n + 1, v => v % 2 + popCount n (v / 2)

/-- The highest set position below `n` plus one; 0 if none is set. -/
def topBit : Nat → Nat → Nat
  | 0, _ => 0
  | n + 1, v => if nbit v n then n + 1 else topBit n v

end Sys2Proof.Machine
end

