-- ==== Sys2Proof/Machine/Fp.lean ====
section
/-!
DEFINITION. Fp.lean: the fp32 and bf16 arithmetic of R173 and R184: subnormals flushed to zero with their sign, round to
nearest even, one canonical NaN.
-/

namespace Sys2Proof.Machine

/-- The canonical NaN. -/
def fpNaN : Word := 0x7FC00000

/-- A NaN, an infinity. -/
def fpIsNaN (w : Word) : Bool := bits w 23 8 == 255 && bits w 0 23 != 0
def fpIsInf (w : Word) : Bool := bits w 23 8 == 255 && bits w 0 23 == 0

/-- A signed zero. -/
def fpZero (neg : Bool) : Word := if neg then 0x80000000 else 0

/-- Magnitude of a finite value in units of 2^-149; a subnormal is zero. -/
def fpMag (w : Word) : Nat := if bits w 23 8 = 0 then 0 else (bits w 0 23 + 2 ^ 23) <<< (bits w 23 8 - 1)

/-- A finite value in units of 2^-149. -/
def fpVal (w : Word) : Int := if w.getLsbD 31 then -(fpMag w : Int) else fpMag w

/-- Round a magnitude in units of 2^-149 to nearest even; a subnormal result is flushed, an overflow is an infinity. -/
def fpRound (neg : Bool) (m : Nat) : Word :=
  if m < 2 ^ 23 then fpZero neg
  else
    let sh := Nat.log2 m - 23
    let q := (rne m (2 ^ sh)).toNat
    let e := if q = 2 ^ 24 then sh + 2 else sh + 1
    let f := if q = 2 ^ 24 then 0 else q - 2 ^ 23
    if 255 ≤ e then fpZero neg ||| 0x7F800000 else fpZero neg ||| BitVec.ofNat 32 (e * 2 ^ 23 + f)

/-- Addition (R173). -/
def fpAdd (a b : Word) : Word :=
  if fpIsNaN a || fpIsNaN b then fpNaN
  else if fpIsInf a then (if fpIsInf b && a != b then fpNaN else a)
  else if fpIsInf b then b
  else
    let v := fpVal a + fpVal b
    if v = 0 then fpZero (fpMag a == 0 && fpMag b == 0 && a.getLsbD 31 && b.getLsbD 31)
    else fpRound (decide (v < 0)) v.natAbs

/-- fp32 of a bf16 value. -/
def bf16Up (h : BitVec 16) : Word := h.setWidth 32 <<< 16

/-- Product of two bf16 values, exact in fp32 (R173). -/
def bf16Mul (a b : BitVec 16) : Word :=
  let x := bf16Up a
  let y := bf16Up b
  let neg := a.getLsbD 15 != b.getLsbD 15
  if fpIsNaN x || fpIsNaN y then fpNaN
  else if fpIsInf x || fpIsInf y then
    (if fpMag x = 0 ∨ fpMag y = 0 then fpNaN else fpZero neg ||| 0x7F800000)
  else if fpMag x = 0 ∨ fpMag y = 0 then fpZero neg
  else
    let m := (bits a 0 7 + 128) * (bits b 0 7 + 128)
    let e := bits a 7 8 + bits b 7 8
    if e < 119 then fpZero neg else fpRound neg (m <<< (e - 119))

/-- A value times k / 256, rounded to nearest even (R202). -/
def fpScale (w : Word) (k : Nat) : Word :=
  if fpIsNaN w || (fpIsInf w && k == 0) then fpNaN
  else if fpIsInf w then w
  else
    let m := fpMag w * k
    let neg := w.getLsbD 31
    if m < 2 ^ 31 then fpZero neg
    else
      let sh := Nat.log2 m - 23
      fpRound neg ((rne m (2 ^ sh)).toNat <<< (sh - 8))

/-- bf16 of an fp32 value, to nearest even (R185). -/
def bf16Down (w : Word) : BitVec 16 :=
  if fpIsNaN w then 0x7FC0
  else if bits w 23 8 = 0 then (if w.getLsbD 31 then 0x8000 else 0)
  else BitVec.ofNat 16 ((w.toNat + 0x7FFF + bits w 16 1) / 65536)

end Sys2Proof.Machine
end

