-- ==== Sys2Proof/Config.lean ====
section
/-!
DEFINITION. Config.lean: what the spec names and does not compute for the package: published algorithms it refers to,
values that an analogue part decides inside a step, and values it leaves to the moment. Each is an opaque constant:
nothing can be proved of its values (log entry 14; each constant names its own).
-/

namespace Sys2Proof.Config

/-- Which bits of a fuse copy stand programmed when a reset cuts a command short (R312), by the free-value counter
and the copy's number; log entry 10. -/
opaque fusePartial : Nat → Nat → Word

/-- Which bits of that copy then fail the strict margin; log entry 10. -/
opaque fusePartialWeak : Nat → Nat → Word

/-- ECDSA P-256 over SHA-256 (FIPS 186-4) under the Baora image key: the signature, r then s, over the digest of the
signed bytes passes (R324); log entry 11. -/
opaque imageSigOk : List Byte → List Byte → Bool

/-- The park keys drawn from the on-die random source (R258): draw and byte; log entry 12. -/
opaque parkKey : Nat → Nat → Byte

/-- The identity engine's public key and its certificate, by identity serial (Table Images-8): 64 bytes each;
log entry 13. -/
opaque idKey : BitVec 64 → Nat → Byte

/-- The content of a key-exchange word that this package sends: port, session epoch and part (R57); log entry 13. -/
opaque keyxContent : Nat → Nat → Nat → Nat

/-- The sequence number of a commit record written while no slot is booted (R333), by the free-value counter; log
entry 28. -/
opaque commitSeq : Nat → Word

/-- The upstream port that the principal names in a JOIN_REPLY (Table Withy-9), by joiner and hops; log entry 27. -/
opaque treePort : Nat → Nat → Nat

/-- A flash byte of a page or sector whose read-back failed (R332, R333), by the free-value counter and the byte's
index; log entry 32. -/
opaque flashBad : Nat → Nat → Byte

/-- An AES-256 key of a link session (R57): port, session epoch, direction, and the KEYX words received; log entry 13. -/
opaque linkKey : Nat → Nat → Nat → List LinkWord → Nat

/-- Which free slot of the crop ring a region takes (R117), by the free-value counter; log entry 38. -/
opaque cropPick : Nat → Nat

/-- Whether the stored scale of a crop is rounded up where the exact value lies between two codes (R116), by numerator and
denominator; log entry 38. -/
opaque cropScaleUp : Nat → Nat → Bool

/-- The centroid of a column whose highest pixel equals THRESH (R120), in 1/64 row, by the row; log entry 37. -/
opaque flatCentroid : Nat → Nat

/-- Whether a side of a fitted box that is no whole number of 0.01 mm is rounded up (R124), by its projection and the
squared length of the direction, in 1/320 mm; log entry 40. -/
opaque boxSideUp : Nat → Nat → Bool

/-- Whether the yaw of a box that lies between two codes of 0.001 degree is rounded up (R124), by the direction of its
length side; log entry 40. -/
opaque boxYawUp : Int → Int → Bool

/-- The mean of a row's 32 shielded pixels where it is no whole number (R94), by their sum; log entry 36. -/
opaque blackMean : Nat → Int

/-- Column gain and offset applied to a value (Table Pix-3), by the column's entry of the table; log entry 36. -/
opaque columnCorr : Nat → Int → Int

/-- Per-pixel gain applied to a value (Table Pix-3), by the pixel's entry; log entry 36. -/
opaque prnuCorr : Nat → Int → Int

/-- A pixel is on the defect list (Table Pix-3), by the list's bytes, the row and the column; log entry 36. -/
opaque defective : List Byte → Nat → Nat → Bool

/-- The value that replaces a defective pixel where the mean of its good neighbours is no whole number or there is none
(Table Pix-3); log entry 36. -/
opaque defectMean : List Int → Int

/-- RATE of a pixel whose mean at 10 ms lies below its mean at 1 ms (R97), by the sums' difference; log entry 36. -/
opaque darkRate : Int → Byte

/-- Whether a gain coefficient that is no whole number is rounded up (R145), by numerator and denominator; log entry
39. -/
opaque gcUp : Int → Int → Bool

/-- Whether a raw count that is no whole number once scaled to the integration length is rounded up (R133), by the count and
the length in p-cycles; log entry 39. -/
opaque rawUp : Int → Nat → Bool

/-- What the residues give a result of order 2 or more, by the order and the residue differences of its integrations (R133,
R142); the meaning holds it to what weights up to 1 can give; log entry 39. -/
opaque residueTerm : Nat → List Int → Int

/-- What a SECDED codeword with three or more flipped bits shows (R164), by the protection kind and the flipped positions:
nothing, a correction, or an uncorrectable error, modulo 3; log entry 68. -/
opaque eccBeyond : Nat → List Nat → Nat

/-- Whether CORE_APX_TALLY_MEAN is rounded up where the mean is no whole number of 1/16 LSB (R214), by the sum and the
number of results; log entry 41. -/
opaque tallyUp : Nat → Nat → Bool

/-- Deviation of a frequency-domain result from the direct one before requantisation (R200), by descriptor, input and
weight bytes, the filter spectra, and output position; the meaning holds it to the bound of R200; log entry 42. -/
opaque freqDev : BitVec 512 → List Byte → List Byte → List Byte → Nat → Int

/-- Bytes of the filter spectra that a descriptor's SPEC_OFS names (R200), whose layout the spec does not give; log entry
42. -/
opaque specSize : BitVec 512 → Nat

/-- A byte of a row of a compressed block that failed a check before its CRC, as the poisoned row shows it (R224), by the
free-value counter and the byte's index; log entry 43. -/
opaque plaitBad : Nat → Nat → Byte

/-- Which of the free pages of a pool, or of the free runs, an allocation takes, by the free-value counter and an index;
log entry 44. -/
opaque pagePick : Nat → Nat → Nat

/-- The token chosen, and its margin, where the mask allows none (R266): by the free-value counter and 0 or 1; log entry
45. -/
opaque noToken : Nat → Nat → Nat

/-- Centre and size fields of a label entry's region from the crop centre and the fused map (R126), whose arithmetic the spec
does not give: by the crop header, the fused top map, left face and right face, the parcel's barrier position,
ROI_VIEW_OFS, and the field 0 to 3; log entry 46. -/
opaque labelRegion : BitVec 512 → List (Int × Int × Int × Nat) → List (Int × Int) → List (Int × Int) → BitVec 48 → Int →
  Nat → Nat

end Sys2Proof.Config
end

