-- ==== Sys2Proof/Machine/Codes.lean ====
section
/-!
DEFINITION. Codes.lean: the refusal and outcome codes, Table Index-3 (R352): each row assigns consecutive values
to the codes it lists, in order.
-/

namespace Sys2Proof.Machine

/-! Fuses -/

def eFuseBusy : Code := 0x0101
def eFuseOp : Code := 0x0102
def eFuseReserved : Code := 0x0103
def eFuseLocked : Code := 0x0104
def eFuseRunning : Code := 0x0105
def eFuseLifecycle : Code := 0x0106
def eFuseConditions : Code := 0x0107
def eFuseNotBlank : Code := 0x0108
def eFuseConflict : Code := 0x0109
def eFuseCounterFull : Code := 0x010A
def eFuseCounterGap : Code := 0x010B
def eFuseMarginal : Code := 0x010C
def eFuseWeak : Code := 0x010D
def eFuseProgramFail : Code := 0x010E
def eFuseRegion : Code := 0x010F
def eFuseBeacon : Code := 0x0110
def ePatchDup : Code := 0x0111

/-! Basket -/

def eWeavePools : Code := 0x0201
def eWeaveOwner : Code := 0x0202
def eWeaveLevel : Code := 0x0203

/-! Time -/

def eWeaveClock : Code := 0x0204

/-! Withy -/

def eWeaveLink : Code := 0x0205

/-! Arrays -/

def eWidthClass : Code := 0x0206

/-! Faults; the COOL rule in Power -/

def eWeaveAlternates : Code := 0x0207
def eRestartBudget : Code := 0x0208

/-! Images -/

def eBootNoImage : Code := 0x0209
def eBootImage : Code := 0x020A
def eBootHash : Code := 0x020B
def eBootSignature : Code := 0x020C
def eBootRollback : Code := 0x020D
def eBootUntested : Code := 0x020E
def eBootOverride : Code := 0x020F
def eBootKind : Code := 0x0210
def eBootBusy : Code := 0x0211
def eBootArea : Code := 0x0212
def eBootCal : Code := 0x0213
def eFlashSfdp : Code := 0x0214
def eFlashRange : Code := 0x0215
def eFlashActive : Code := 0x0216
def eFlashProtected : Code := 0x0217
def eFlashNotErased : Code := 0x0218
def eFlashVerify : Code := 0x0219
def eWeaveTarget : Code := 0x021A
def eWeaveBusy : Code := 0x021B
def eWeaveFormat : Code := 0x021C
def eWeaveId : Code := 0x021D
def eWeaveSignature : Code := 0x021E
def eWeaveKey : Code := 0x021F
def eWeaveGeneration : Code := 0x0220
def eWeaveNoAlternate : Code := 0x0221
def eWeaveSwitch : Code := 0x0222

/-! Basket -/

def eServiceLevel : Code := 0x0301

/-! Host -/

def eDescReserved : Code := 0x0302
def eDescOpcode : Code := 0x0303
def eDescTarget : Code := 0x0304
def eDescNoWeave : Code := 0x0305
def eDescRestart : Code := 0x0306
def eKnotTimeout : Code := 0x0307
def eKnotOwned : Code := 0x0308
def eDbRange : Code := 0x0309
def eDbOverrun : Code := 0x030A
def eHostRead : Code := 0x030B
def eRingSize : Code := 0x030C
def eRingActive : Code := 0x030D
def eRingDraining : Code := 0x030E
def eRingError : Code := 0x030F
def ePollRange : Code := 0x0310
def eRecCfg : Code := 0x0311
def eHostStake : Code := 0x0312
def eRecLost : Code := 0x0313
def eDescBody : Code := 0x0314

/-! Withy; E_JOIN_ANCHORS also Basket -/

def eLinkCode : Code := 0x0401
def eLinkTooLong : Code := 0x0402
def eLinkWidth : Code := 0x0403
def ePortCfg : Code := 0x0404
def eJoinBasket : Code := 0x0405
def eJoinDuplicate : Code := 0x0406
def eJoinAnchors : Code := 0x0407
def eJoinDepth : Code := 0x0408
def eJoinGeneration : Code := 0x0409
def eJoinOverride : Code := 0x040A
def eLinkAuth : Code := 0x040B
def eCryptMode : Code := 0x040C
def eCryptRequired : Code := 0x040D
def eWithyRunning : Code := 0x040E
def eRouteNone : Code := 0x040F
def eFwdTimeout : Code := 0x0410
def eFwdOutsider : Code := 0x0411

/-! Withy -/

def eAddrHole : Code := 0x0501
def eWinClosed : Code := 0x0502
def eWinSource : Code := 0x0503
def eWinPerm : Code := 0x0504
def eWinSize : Code := 0x0505
def eWinAlign : Code := 0x0506
def eWinTarget : Code := 0x0507
def eWinOpen : Code := 0x0508

/-! Pix -/

def eExpRange : Code := 0x0601
def ePixWindow : Code := 0x0602
def ePixGain : Code := 0x0603
def ePixDarkBase : Code := 0x0604
def ePixRunning : Code := 0x0605
def eDarkBusy : Code := 0x0606
def ePixLevel : Code := 0x0607

/-! Pix -/

def eFieldRunning : Code := 0x0701
def eMatchDir : Code := 0x0702
def eEncAtPast : Code := 0x0703
def eSlewCode : Code := 0x0704
def eStbMode : Code := 0x0705
def eStbWidth : Code := 0x0706
def eSyncSrc : Code := 0x0707
def eEncQuad : Code := 0x0708
def eEncLoss : Code := 0x0709

/-! Regions -/

def eRegionEntry : Code := 0x0801
def eRuleField : Code := 0x0802
def eRuleSwap : Code := 0x0803
def eCropFull : Code := 0x0804
def eCropCrc : Code := 0x0805
def eCropGeom : Code := 0x0806
def eCropBase : Code := 0x0807
def eRoiRunning : Code := 0x0808
def eEgressPath : Code := 0x0809
def eRegionOwner : Code := 0x080A
def eRegionPending : Code := 0x080B
def eRegionIndex : Code := 0x080C
def eRegionGone : Code := 0x080D
def eRegionDenied : Code := 0x080E
def eRegionLen : Code := 0x080F
def eEgressFuse : Code := 0x0810
def eEgressLifecycle : Code := 0x0811
def eDiagBusy : Code := 0x0812

/-! Weigh -/

def eWfeMains : Code := 0x0901
def eWfeBusy : Code := 0x0902
def eWfeEntry : Code := 0x0903
def eWfeSrc : Code := 0x0904
def eWfeRef : Code := 0x0905
def eWfeTie : Code := 0x0906
def eWfeExcOff : Code := 0x0907
def eWfeWeight : Code := 0x0908
def eWfeXchkLimit : Code := 0x0909
def eWfeXchk : Code := 0x090A
def eWfeOpen : Code := 0x090B
def eWfeCal : Code := 0x090C
def eWfeExc : Code := 0x090D
def eWfeIntruded : Code := 0x090E
def eWfeWqLost : Code := 0x090F

/-! Scratch -/

def eSpAlign : Code := 0x0A01
def eSpRange : Code := 0x0A02
def eSpWheel : Code := 0x0A03
def eSpPartition : Code := 0x0A04
def eSpRegion : Code := 0x0A05
def eSpOverrun : Code := 0x0A06
def eSpUnderrun : Code := 0x0A07
def eSpEcc : Code := 0x0A08
def eSpSegOff : Code := 0x0A09
def eSpRunning : Code := 0x0A0A

/-! Arrays -/

def ePassOp : Code := 0x0A0B
def ePassFormat : Code := 0x0A0C
def ePassGang : Code := 0x0A0D
def ePassField : Code := 0x0A0E
def ePassWidth : Code := 0x0A0F
def eArrayBad : Code := 0x0A10
def ePassMode : Code := 0x0A11
def ePassBusy : Code := 0x0A12
def ePassShadow : Code := 0x0A13
def eFeedOverflow : Code := 0x0A14
def eFeedShadow : Code := 0x0A15
def eArrayDrain : Code := 0x0A16
def eDrainField : Code := 0x0A17
def eSpindleField : Code := 0x0A18
def eArrayChecksum : Code := 0x0A19
def eCoreRunning : Code := 0x0A1A

/-! Conv -/

def eConvField : Code := 0x0A1B
def eResampleMode : Code := 0x0A1C
def eConvPad : Code := 0x0A1D
def eConvEmpty : Code := 0x0A1E
def eResampleSize : Code := 0x0A1F
def eConvShape : Code := 0x0A20
def eConvPlace : Code := 0x0A21
def eConvWidth : Code := 0x0A22
def eConvPath : Code := 0x0A23

/-! Approx -/

def eApxVstep : Code := 0x0A24
def eApxK : Code := 0x0A25
def eApxSample : Code := 0x0A26
def eApxRunning : Code := 0x0A27
def eApxBound : Code := 0x0A28
def eApxExactDet : Code := 0x0A29

/-! Plait -/

def ePlaitProtected : Code := 0x0B01
def ePlaitCodec : Code := 0x0B02
def ePlaitStream : Code := 0x0B03
def ePlaitHeader : Code := 0x0B04
def ePlaitSeq : Code := 0x0B05
def ePlaitCode : Code := 0x0B06
def ePlaitCrc : Code := 0x0B07
def ePlaitUnderrun : Code := 0x0B08
def ePlaitRunning : Code := 0x0B09
def ePlaitProtRange : Code := 0x0B0A

/-! Requests -/

def eReqTableFull : Code := 0x0C01
def eReqMismatch : Code := 0x0C02
def eReqPending : Code := 0x0C03
def eReqFinal : Code := 0x0C04
def eReqState : Code := 0x0C05
def eReqHost : Code := 0x0C06
def eReqDeadline : Code := 0x0C07
def eTenantWeight : Code := 0x0C08
def eAdpFormat : Code := 0x0C09
def eAdpTenant : Code := 0x0C0A
def eAdpModel : Code := 0x0C0B
def eAdpRank : Code := 0x0C0C
def eAdpPool : Code := 0x0C0D
def eAdpKey : Code := 0x0C0E
def eAdpSpace : Code := 0x0C0F
def eAdpAuth : Code := 0x0C10
def eServeRunning : Code := 0x0C11
def eServeRange : Code := 0x0C12

/-! Phases -/

def eStepPeriod : Code := 0x0C13
def eStepLayout : Code := 0x0C14
def eKvGeometry : Code := 0x0C15
def eKvSeq : Code := 0x0C16
def eKvShipCrc : Code := 0x0C17
def eKvList : Code := 0x0C18
def eKvPage : Code := 0x0C19
def eKvShip : Code := 0x0C1A
def eParkNoPages : Code := 0x0C1B
def eParkHostFull : Code := 0x0C1C
def eParkSlot : Code := 0x0C1D
def eNonceExhausted : Code := 0x0C1E
def eParkTtl : Code := 0x0C1F
def eParkAuth : Code := 0x0C20
def eParkBusy : Code := 0x0C21
def eKvPool : Code := 0x0C22
def eParkCfg : Code := 0x0C23

/-! Tokens -/

def eGrmFormat : Code := 0x0C24
def eGrmCrc : Code := 0x0C25
def eGrmDead : Code := 0x0C26
def eGrmPool : Code := 0x0C27
def eGrmBusy : Code := 0x0C28
def eGrmSpace : Code := 0x0C29
def eGrmAbsent : Code := 0x0C2A

/-! Faults -/

def ePoison : Code := 0x0D01
def eRestartEntry : Code := 0x0D02
def eRestartImage : Code := 0x0D03
def eRestartNoPlacement : Code := 0x0D04
def eRestartStorm : Code := 0x0D05
def eOwnerLost : Code := 0x0D06
def eFaultWatchdog : Code := 0x0D07
def eFaultRail : Code := 0x0D08
def eFaultRunning : Code := 0x0D09

/-! Power -/

def eThermLimit : Code := 0x0E01
def eThermWarn : Code := 0x0E02
def eThermAlternate : Code := 0x0E03
def eThermNoAlternate : Code := 0x0E04
def eThermReturn : Code := 0x0E05
def eThermTrip : Code := 0x0E06

/-! Elec -/

def eIdStrap : Code := 0x0F01
def eIdBscan : Code := 0x0F02

/-! Time -/

def eCclkMult : Code := 0x1001
def eCclkTrim : Code := 0x1002
def eClkBusy : Code := 0x1003
def eClkNotPrincipal : Code := 0x1004

/-! Time -/

def eTimeRunning : Code := 0x1101
def eTimeNotPrincipal : Code := 0x1102
def eBeatRange : Code := 0x1103
def eBeatEpoch : Code := 0x1104
def eTimeSetAlign : Code := 0x1105
def eTimeBackward : Code := 0x1106
def eTimePending : Code := 0x1107

/-! Power -/

def ePwrRunning : Code := 0x1201
def ePwrStateCode : Code := 0x1202
def ePwrBusy : Code := 0x1203
def ePwrNoWake : Code := 0x1204
def ePwrWakePast : Code := 0x1205
def ePwrRailTimeout : Code := 0x1206

/-- Every code that the package reports (R352). -/
def codeRanges : List (Nat × Nat) := [
  (0x0101, 0x0111), (0x0201, 0x0203), (0x0204, 0x0204), (0x0205, 0x0205), (0x0206, 0x0206), (0x0207, 0x0208), (0x0209, 0x0222), (0x0301, 0x0301), (0x0302, 0x0314), (0x0401, 0x0411), (0x0501, 0x0508), (0x0601, 0x0607), (0x0701, 0x0709), (0x0801, 0x0812), (0x0901, 0x090F), (0x0A01, 0x0A0A), (0x0A0B, 0x0A1A), (0x0A1B, 0x0A23), (0x0A24, 0x0A29), (0x0B01, 0x0B0A), (0x0C01, 0x0C12), (0x0C13, 0x0C23), (0x0C24, 0x0C2A), (0x0D01, 0x0D09), (0x0E01, 0x0E06), (0x0F01, 0x0F02), (0x1001, 0x1004), (0x1101, 0x1107), (0x1201, 0x1206)]

/-- `c` is a code of Table Index-3. -/
def legalCode (c : Code) : Bool := codeRanges.any (fun r => r.1 ≤ c.toNat && c.toNat ≤ r.2)

/-- The block that decides a code (R8): its high byte. -/
def codeBlock (c : Code) : Nat := c.toNat / 256

end Sys2Proof.Machine
end

