-- ==== Sys2Proof/Machine/State.lean ====
section
/-!
DEFINITION. State.lean: the state of one PZ-816 package as plain data, and the state after reset.
Registers whose only home is their word stand in `regs` (BAR0 words that differ from their reset value);
state that engines share stands in named fields, and the register view of it is computed on a read.
Sparse maps are lists of (key, value) pairs with rising keys and no entry equal to the default.
-/

namespace Sys2Proof.Machine

/-- A sparse map: keys strictly rising, no entry equal to the map's default (Machine/Sparse.lean). -/
abbrev SMap (α : Type) := List (Nat × α)

/-- The reasons for which the block stops. No meaning raises one: R1 gives every input a named outcome. -/
inductive Fault where
  /-- raised by no command; safe -/
  | none
  deriving DecidableEq, Repr

/-- The reasons for which a command has no meaning in the model. -/
inductive Refusal where
  /-- raised by exec's arm of a command that has no meaning yet; safe (the model stops) -/
  | notModelled (mnemonic : String)
  deriving DecidableEq, Repr

/-- The balls the package drives (20_electrical, Table Elec-1). -/
inductive Ball where
  | railenA | railenB | fault | stb (k : Fin 4) | sync (j : Fin 2)
  deriving DecidableEq, Repr

/-- What the package sends, in the order in which it sends it (log entry 2). -/
inductive Out where
  /-- a memory write on PCIe; no request sets Relaxed Ordering, ID-Based Ordering or No Snoop (R64) -/
  | hostWrite (addr : BitVec 64) (bytes : List Byte)
  /-- a read request on PCIe -/
  | hostRead (addr : BitVec 64) (len : Nat)
  /-- an MSI-X message: the data of the vector's table entry, written to its address (R82) -/
  | msix (vec : Nat)
  /-- a CTRL word in the service slot of a port (Table Withy-9): its position, 2 to 5, and the payload that its lane
  carries (R46) -/
  | ctrl (port : Port) (pos : Nat) (w : LinkWord)
  /-- a CREDIT word: credits returned by class, ACK and NAK (Table Withy-3) -/
  | credit (port : Port) (c0 c1 : Nat) (ack : BitVec 64) (nak : Bool)
  /-- a static word of frame F in its slot position, as its lane carries it (R46, R48) -/
  | static (port : Port) (frame : Nat) (pos : Nat) (w : LinkWord)
  /-- a loose message leaving through a port -/
  | loose (port : Port) (m : Loose)
  /-- a message of this package to itself (R54, LOCAL) -/
  | message (m : Loose)
  /-- a whisper message (Table Withy-5) -/
  | whisper (port : Port) (m : WhisperMsg)
  /-- the value a register read returns -/
  | readData (off : Nat) (v : Word)
  /-- a level driven on a ball -/
  | ball (b : Ball) (level : Bool)
  /-- data a scratchpad read delivers to its port, with the poison mark (R165) -/
  | spData (core : Nat) (data : Marked)
  /-- the code that an engine receives for an access it issued (R170) -/
  | issuerCode (code : Code)
  /-- data that an engine receives for an access it issued (R62) -/
  | issuerData (data : Marked)
  /-- a place report word handed to its static stream (R247) -/
  | report (owner : BitVec 6) (w : LinkWord)
  /-- an order word handed to its static stream (R247) -/
  | order (pkg : BitVec 6) (w : LinkWord)
  /-- a descriptor forwarded to its executing stake, under the anchor's number for it (R77) -/
  | fwdDesc (pkg : BitVec 6) (num : Nat) (d : Desc) (limitMs : BitVec 16)
  /-- a stake's answer to a forwarded descriptor (R77) -/
  | fwdAnswer (anchor : BitVec 6) (num : Nat) (a : FwdAnswer)
  /-- a forwarded register access, and its response (R63) -/
  | fwdAccess (pkg : BitVec 6) (off : BitVec 20) (wr : Option Word)
  | fwdResponse (pkg : BitVec 6) (code : Code) (data : Word)
  /-- the start of the read of a weave image (R335): host bus address and length -/
  | imageRead (addr : BitVec 64) (len : Nat)
  /-- the image flooded to the joined packages, with its start beat (R336) -/
  | imageSend (weaveId : Word) (startBeat : BitVec 64)
  /-- a profile point sent to the owner in a static slot (R123) -/
  | profile (p : ProfilePoint)
  /-- a complete crop of another owner's parcel, handed to that owner (R118) -/
  | crop (owner : BitVec 6) (c : HandedCrop)
  /-- the header, with the request index assigned, of a crop that another package cut (Table Regions-3) -/
  | cropIndex (pkg : BitVec 6) (slot : BitVec 9) (header : BitVec 512)
  deriving DecidableEq, Repr

/-- Relaxed Ordering, ID-Based Ordering and No Snoop of what goes out on PCIe: every request clears them; none for what is
no PCIe request (R64). -/
def Out.attributes : Out → Option (Bool × Bool × Bool)
  | .hostWrite .. => some (false, false, false)
  | .hostRead .. => some (false, false, false)
  | .msix .. => some (false, false, false)
  | .imageRead .. => some (false, false, false)
  | _ => none

/-- Where the package stands between reset, Run and sleep (R321, R306, R298, R350, R289). -/
inductive Phase where
  /-- RESET_N low -/
  | inReset
  /-- enables raised, power-good awaited -/
  | rails
  /-- fuses sensed, PLLs locking -/
  | locking
  /-- images being read and verified -/
  | imaging
  /-- steward started, self-test running -/
  | selfTest
  | run
  /-- held in reset with FAULT pattern n (R306) -/
  | heldFuse (n : BitVec 2)
  /-- held by TRIP (R298) -/
  | heldTrip
  /-- held by a pin-taking scan instruction (R350) -/
  | heldScan
  /-- package-fatal: domains in reset before the self-test (R274) -/
  | fatal
  | enteringDoze | enteringSlumber
  | doze | slumber
  /-- waking from Slumber, and from Doze -/
  | waking | dozeWaking
  deriving DecidableEq, Repr

/-- Lifecycle states (Table Scope-4). -/
inductive Lifecycle where
  | blank | develop | field | fieldLocked | retired
  deriving DecidableEq, Repr

/-- Sleep, wake and start-up state (17_power, 19_images). -/
structure PowerState where
  phase     : Phase
  pgoodA    : Bool
  pgoodB    : Bool
  railA     : Bool
  railB     : Bool
  /-- first and second strap sample: PKG_ID in bits 5..0, ANCHOR_EN in bit 6 -/
  strap1    : BitVec 7
  strap2    : BitVec 7
  /-- belt time (ns) of the wake latch -/
  latchNs   : Nat
  /-- a rail timeout waits for the next wake to report it (R287) -/
  timeoutRec : Bool
  /-- the second strap sample has been taken (R341) -/
  resampled : Bool
  /-- the scan instruction register (R350) -/
  ir        : BitVec 4
  deriving DecidableEq, Repr

/-- Belt time, beats and clocks (02_time). Belt time is in units of 2^-16 ns. -/
structure TimeState where
  belt      : BitVec 80
  /-- p-cycle edges since reset -/
  pcyc      : Nat
  /-- alignment correction still to be slewed in, in 2^-16 ns (R34) -/
  slew      : Int
  /-- correction taken in since reset or the last step: how far the p-cycle edges lie off multiples of 2.5 ns (R358) -/
  corr      : Int
  /-- cclk runs: from the lock of the core PLL to a relock or a sleep (R40, R44) -/
  cclk      : Bool
  shadow    : BitVec 80
  numHi     : Word
  stampHi   : Word
  beatNum   : BitVec 64
  beatStamp : BitVec 64
  /-- beat length and epoch in effect -/
  beatLen   : BitVec 22
  epoch     : BitVec 64
  /-- MULT and SPREAD applied -/
  mult      : BitVec 6
  spread    : BitVec 2
  /-- sum of the steps that belt time has taken, in 2^-16 ns: belt time less it counts time on without a break -/
  stepped   : Int
  /-- T and TIME_SET of an accepted SET -/
  pendStep  : Option (BitVec 64 × BitVec 64)
  /-- boundary, B and epoch of the accepted values that wait, in the order of their acceptance (R39) -/
  pendBeats : List (BitVec 64 × BitVec 22 × BitVec 64)
  /-- boundary, MULT and SPREAD of an accepted APPLY or CLOCK word -/
  pendClock : Option (BitVec 64 × BitVec 6 × BitVec 2)
  relocking : Bool
  /-- a-ticks counted while the PLLs are stopped, and the belt time and count at the last whisper TIME of this sleep
  (R30) -/
  aticks    : Nat
  lastWhisper : Option (Nat × Nat)
  /-- staged _LO words with their BAR0 offsets, newest first (R356) -/
  staged    : List (Nat × Word)
  deriving DecidableEq, Repr

/-- Port states (Table Withy-4). -/
inductive PortState where
  | off | whisper | train | linked | woven | rekey
  deriving DecidableEq, Repr

/-- One withy port (03_withy). -/
structure LinkPort where
  state    : PortState
  /-- width code: 0 x1, 1 x2, 2 x4 -/
  width    : BitVec 2
  lanes    : BitVec 4
  d        : BitVec 6
  peer     : BitVec 6
  epoch    : BitVec 26
  ctr      : BitVec 64
  /-- a retry of training is due 10 ms after a report (R50) -/
  retry    : Bool
  /-- AES-256 keys of the current session, sent and received direction (R57) -/
  keys     : Option (BitVec 256 × BitVec 256)
  /-- authentication of the peer failed: service slot only (R57) -/
  authBad  : Bool
  /-- belt time (ns) of the last SLEEP message heard (R290) -/
  sleepNs  : Option Nat
  credits0 : Nat
  credits1 : Nat
  /-- the peer's FRAME words name a principal: it belongs to a basket (Table Withy-3) -/
  peerIn   : Bool
  /-- frames received in this session (R34) -/
  rxCtr    : BitVec 64
  /-- last frame of this session whose loose slots were accepted in order, and whether NAK is being sent (R56) -/
  lastGood : BitVec 64
  naking   : Bool
  /-- loose messages sent and not yet acknowledged, with the session's number of their frame (R34, R56) -/
  unacked  : List (BitVec 64 × Loose)
  /-- header errors of the last 1 ms: lane and belt time (ns) (R50) -/
  hdrErrs  : List (Fin 4 × Nat)
  /-- loose messages stored whole at this ingress (R55) -/
  stored   : List Loose
  /-- KEYX words received in the exchange in progress (R57) -/
  keyxIn   : List LinkWord
  /-- CTRL words waiting for this egress, in order of leaving (R59) -/
  ctrlq    : List LinkWord
  deriving DecidableEq, Repr

/-- A joined package, on the principal (R52). -/
structure Member where
  pkg    : BitVec 6
  /-- identity serial; unknown for a package taken over with the basket (R16) -/
  serial : Option (BitVec 64)
  anchor : Bool
  hops   : BitVec 8
  deriving DecidableEq, Repr

/-- A package of the basket heard by PRESENCE: its role, and the time (ns, without steps) of the last word (R16). -/
structure Heard where
  anchor : Bool
  atNs   : Nat
  deriving DecidableEq, Repr

/-- Membership, flooding memory, forwarded register access (03_withy). -/
structure BasketState where
  pn         : LinkPort
  pe         : LinkPort
  ps         : LinkPort
  pw         : LinkPort
  joined     : Bool
  outsider   : Bool
  principal  : BitVec 6
  isPrincipal : Bool
  hops       : BitVec 8
  upstream   : Port
  members    : List Member
  /-- an accepted join waits for the switch at this boundary, a belt time in ns (R28, R34) -/
  joinAt     : Option Nat
  /-- time (ns, without steps) at which a lower-numbered anchor was last heard -/
  lowerHeardNs : Nat
  /-- packages of this basket heard by PRESENCE -/
  heard      : SMap (Option Heard)
  /-- port through which a package was heard: the route along the time tree; 5 NONE (R54) -/
  tree       : SMap (BitVec 3)
  wakeSeq    : BitVec 8
  /-- kept WAKE sequence per origin (R51) -/
  wakeKept   : SMap (Option (BitVec 8))
  lastHalt   : Option (BitVec 16)
  lastResume : Option (BitVec 16 × BitVec 32)
  lastTime   : Option LinkWord
  /-- the forwarded register access in progress: target, offset, data when a write (R63) -/
  fwd        : Option (BitVec 6 × BitVec 20 × Option Word)
  /-- belt time (ns) at which it was sent -/
  fwdNs      : Nat
  /-- sequence number of the next loose message -/
  looseSeq   : BitVec 32
  /-- loose messages that wait for credits of their egress, in order (R55) -/
  outbox     : List Loose
  /-- knot signals whose engine stalls on a full CTRL queue: destination, knot, amount, in order (R59) -/
  stalled    : List (BitVec 6 × Nat × Nat)
  /-- words of each local static stream that wait for their slots (R49) -/
  streams    : SMap (List LinkWord)
  deriving DecidableEq, Repr

/-- Ring pair states (Table Host-4). -/
inductive RingState where
  | disabled | active | draining | error
  deriving DecidableEq, Repr

/-- One ring pair (R69-R73, R82). -/
structure Ring where
  state   : RingState
  fetch   : BitVec 17
  write   : BitVec 17
  phase   : Bool
  /-- SQ_TAIL and CQ_HEAD as last accepted -/
  tail    : BitVec 17
  head    : BitVec 17
  /-- failed doorbell reads in a row -/
  fails   : Nat
  /-- descriptors of a fetch read that has been issued -/
  asked   : Nat
  /-- entries written since the vector last fired, and the belt time (2^-16 ns) of the first of them -/
  unsig   : Nat
  unsigAt : Option Nat
  deriving DecidableEq, Repr

/-- Where a descriptor in flight came from (R77). -/
inductive Origin where
  | ring (i : Fin 64)
  | anchor (pkg : BitVec 6) (num : Nat)
  deriving DecidableEq, Repr

/-- How far a descriptor in flight has come (R75-R77). -/
inductive FlightState where
  /-- fetched, not started -/
  | fetched
  /-- waits on its knot; the belt time (ns) at which the limit ends, if there is one -/
  | knotWait (limit : Option Nat)
  /-- its knot wait was satisfied (R83) -/
  | ready
  /-- judged and accepted: its work may be done -/
  | started
  /-- sent to the executing stake at this time (ns), not yet answered (R63) -/
  | forwarded (sentNs : Nat)
  /-- in flight at the executing stake, not yet started there -/
  | taken
  /-- answered busy: belt time (ns) of the resend -/
  | busy (resendAt : Nat)
  /-- started at the executing stake -/
  | remote
  /-- work done; the responses to its forwarded host writes are awaited: the messages' sequence numbers, the
  outcome, and the time (ns) of sending (R68) -/
  | waitRsp (seqs : List (BitVec 32)) (status : Code) (result : Word) (sentNs : Nat)
  /-- the responses to its forwarded host reads are awaited: sequence numbers, with the data once they are here, and the
  time (ns) of sending (R68) -/
  | waitData (parts : List (BitVec 32 × Option (List Byte))) (sentNs : Nat)
  /-- the data of its forwarded host reads are here -/
  | gotData (bytes : List Byte)
  /-- a host command accepted and pending at the owner (R236a) -/
  | pendingCmd
  /-- a weave load in progress -/
  | loading
  deriving DecidableEq, Repr

/-- One descriptor in flight. -/
structure Flight where
  id      : Nat
  origin  : Origin
  desc    : Desc
  sqHead  : BitVec 17
  st      : FlightState
  /-- wait limit of the fetching anchor, in ms (R75) -/
  limitMs : BitVec 16
  deriving DecidableEq, Repr

/-- An entry that waits for a free place (R80): its 32 bytes without the phase. -/
inductive Waiting where
  | record (body : BitVec 256)
  | event (body : BitVec 256)
  | tokens (body : BitVec 256)
  deriving DecidableEq, Repr

/-- One parcel record of the record engine: bytes 0x000 to 0xFF7 (R86, R87). -/
structure Rec where
  parcel : Word
  body   : List Byte
  /-- carries REC_HELD and counts toward the 256 held -/
  held   : Bool
  /-- a poisoned chunk reached the record (R273) -/
  poisoned : Bool
  deriving DecidableEq, Repr

/-- Host attachment (04_host). -/
structure HostState where
  bme       : Bool
  rings     : SMap Ring
  flights   : List Flight
  nextId    : Nat
  waiting   : List Waiting
  /-- events a stake holds (R81), and those it dropped -/
  heldEv    : List (BitVec 256)
  evDropped : Nat
  /-- mask bits of the MSI-X table, pending bits, and the other words of the table by word index (Table Host-2) -/
  vecMask   : BitVec 72
  vecPend   : BitVec 72
  vecTable  : SMap Word
  /-- MSI-X Enable and Function Mask of the Message Control word -/
  msixOn    : Bool
  funcMask  : Bool
  /-- host page of each mirrored knot page (R85), and mirrored knots changed since their last write -/
  mirrors   : SMap (Option (BitVec 64))
  dirty     : List Nat
  recPos    : BitVec 13
  recLap    : BitVec 16
  recHead   : BitVec 13
  records   : List Rec
  deriving DecidableEq, Repr

/-- One field event (R101): source 0-7 INn, 8 Z. -/
structure FieldEvent where
  src    : BitVec 4
  rising : Bool
  valid  : Bool
  stamp  : BitVec 80
  pos    : Pos
  deriving DecidableEq, Repr

/-- An encoder edge on its way from its sampling edge to the position register (R102): the p-cycle and the stamp of the
sampling edge, new levels of A and B, a rising edge of Z. -/
structure EncEdge where
  sampled : Nat
  stamp   : BitVec 80
  ab      : Option (Bool × Bool)
  z       : Bool
  deriving DecidableEq, Repr

/-- A strobe or sync output (R107, R108): pending starts, in order, and the end of the width, in p-cycles. -/
structure Strobe where
  starts : List Nat
  endAt  : Option Nat
  deriving DecidableEq, Repr

/-- Field inputs, encoder, matches, strobes, syncs (05_pixels). -/
structure FieldState where
  pos     : Pos
  posHi   : BitVec 16
  /-- levels of A and B as the position register has them -/
  a       : Bool
  b       : Bool
  /-- sampled edges on their way to the position register, oldest first -/
  encq    : List EncEdge
  armAt   : Option Nat
  armZ    : Bool
  /-- filtered levels, and levels as last sampled -/
  levels  : BitVec 8
  raw     : BitVec 8
  /-- inputs that hold a new level: the p-cycle and the stamp of the sampling edge that began the run (R100) -/
  runs    : SMap (Option (Nat × BitVec 80))
  evq     : List FieldEvent
  latch   : FieldEvent
  /-- units whose COUNT holds 0 by a write: they repeat (R104) -/
  repeating : BitVec 16
  strobes : SMap Strobe
  syncs   : SMap Strobe
  /-- levels due on IN_COPY sync outputs: p-cycle, output, input, level (R108) -/
  copyDue : List (Nat × Fin 2 × Nat × Bool)
  deriving DecidableEq, Repr

/-- An accepted exposure with the values it was accepted under (R91). -/
structure Exposure where
  /-- p-cycle of integration start -/
  startAt : Nat
  /-- length of integration and of readout, in p-cycles -/
  lenP    : Nat
  readP   : Nat
  setup   : BitVec 2
  source  : BitVec 8
  mode    : Word
  len     : BitVec 20
  /-- frame sequence number (Table Pix-2) -/
  seq     : Word
  /-- windows read, as (X, Y) words by window -/
  windows : List (Nat × Word × Word)
  deriving DecidableEq, Repr

/-- A frame: the header of Table Pix-2 and what its region and profile engines use. -/
structure Frame where
  exp    : Exposure
  stamp  : BitVec 80
  pos    : Pos
  posEnd : Pos
  band   : BitVec 3
  hot    : Bool
  /-- dark band used, and flags NO_DARK and DARK_FALLBACK -/
  darkBand : BitVec 3
  noDark   : Bool
  fallback : Bool
  deriving DecidableEq, Repr

/-- The trigger decided in a p-cycle, with what stood before it, for sources that coincide with it (R105). -/
structure TrigNow where
  pcyc    : Nat
  src     : Nat
  /-- exposures and readout end before the decision -/
  pend    : List Exposure
  readEnd : Nat
  /-- strobe starts that it set: strobe, p-cycle -/
  strobes : List (Nat × Nat)
  /-- 0 accepted, 1 counted in PIX_TRIG_BUSY, 2 in PIX_TRIG_MISSED, 3 dropped with the counter full -/
  counted : Fin 4
  deriving DecidableEq, Repr

/-- The pixel die (05_pixels). -/
structure PixState where
  /-- exposures accepted and not yet integrating -/
  pend    : List Exposure
  /-- the frames being integrated, and the one being read out -/
  cur     : List Frame
  reading : Option Frame
  /-- p-cycle in which the readout of the last accepted frame ends -/
  readEnd : Nat
  /-- current temperature band, and T at or above 70 degrees (R95) -/
  band    : BitVec 3
  hot     : Bool
  /-- a dark capture runs, for this band (R97) -/
  darkBusy : Bool
  darkBand : BitVec 3
  trigNow : Option TrigNow
  /-- SNAP writes that wait for their trigger: p-cycle of arrival, setup (R109) -/
  snaps   : List (Nat × BitVec 2)
  /-- PIX and FIELD registers as they stood before the writes of a p-cycle (R91, R100, R102) -/
  oldAt   : Option Nat
  oldRegs : SMap Word
  /-- the corrected frame in the frame buffer of each setup (R89) -/
  stored  : SMap (Option Frame)
  deriving DecidableEq, Repr

/-- A region matched to a rule, waiting for its crop (R113, R114). -/
structure Matched where
  frame  : Frame
  entry  : BitVec 256
  rule   : BitVec 16
  tenant : BitVec 12
  prio   : BitVec 3
  grammar : BitVec 8
  maxM1  : BitVec 8
  egress : Bool
  multi  : Bool
  deriving DecidableEq, Repr

/-- A crop slot in use (R117-R119). -/
structure Crop where
  /-- owner of the parcel, and its id -/
  owner  : BitVec 6
  parcel : Word
  m      : Matched
  w      : Nat
  h      : Nat
  scale  : BitVec 16
  crc    : Word
  done   : Bool
  /-- the commit of its parcel's record, where this package owns the parcel (ns) -/
  commitNs : Option Nat
  deriving DecidableEq, Repr

/-- Fitted box (R124): units of Table Host-9. -/
structure Dims where
  length : Word
  width  : Word
  height : Word
  yaw    : Word
  atNs   : BitVec 64
  deriving DecidableEq, Repr

/-- A weight result with its flags (R149): OVER, UNSETTLED, OPEN, XCHK, STALE, ABORTED, INTRUDED in bits 0-6. -/
structure Weight where
  value   : Word
  flags   : BitVec 7
  startNs : BitVec 64
  /-- start of the run of B whose codes it took (R148, R150) -/
  runB    : Option (BitVec 64)
  startPos : Pos
  endNs   : BitVec 64
  /-- comparator whose change started the run, if one did -/
  cmp     : Option (Fin 2)
  chan    : BitVec 4
  deriving DecidableEq, Repr

/-- A parcel of an owner (R17, R122-R126). -/
structure Parcel where
  id         : Word
  cmp        : Fin 2
  barrierNs  : BitVec 64
  barrierPos : Pos
  clearPos   : Option Pos
  restart    : Bool
  multi      : Bool
  overlap    : Bool
  /-- top map: cell (along in 4 counts, across in mm), sum of z in 1/64 mm, count -/
  top        : List (Int × Int × Int × Nat)
  left       : List (Int × Int)
  right      : List (Int × Int)
  bottom     : List (Int × Int)
  dims       : Option Dims
  weight     : Option Weight
  committed  : Bool
  /-- the record was discarded (R87) -/
  lost       : Bool
  /-- parcel's labels as written: cutting package and crop slot, in label order -/
  labels     : List (BitVec 8 × BitVec 9)
  deriving DecidableEq, Repr

/-- Regions, crops, parcels, egress (06_regions). -/
structure RoiState where
  bank0   : SMap (BitVec 128)
  bank1   : SMap (BitVec 128)
  /-- the active bank is bank 1 -/
  active1 : Bool
  swap    : Bool
  matched : List Matched
  crops   : SMap (Option Crop)
  handed  : List (BitVec 9)
  parcels : List Parcel
  nextId  : Word
  /-- a diagnostic capture waits for a frame of this setup, and the frame accepted for it (R129) -/
  diag    : Option (BitVec 2)
  diagSeq : Option Word
  diagUsed : Bool
  deriving DecidableEq, Repr

/-- One converter of the weigh front end (R137-R141). -/
structure Conv where
  running : Bool
  entry   : Nat
  /-- p-cycle of the run's first integration, and of the start of the entry; the entry begins with a blank -/
  runAt   : Nat
  entryAt : Nat
  blank   : Bool
  /-- results of the entry so far in this pass, sum of their codes, OR of their flags -/
  done    : Nat
  sum     : Int
  flags   : BitVec 6
  /-- the pass of the run, from 0 (R137, R148) -/
  pass    : Nat
  /-- integrations of the entry that later results still weight (R142) -/
  hist    : List Integration
  /-- STOP was written: the run ends in the next p-cycle (R141) -/
  stopping : Bool
  /-- a start event taken: p-cycle of the first integration -/
  startAt : Option Nat
  startNs : BitVec 64
  startPos : Pos
  cmp     : Option (Fin 2)
  intruded : Bool
  /-- results of the weight entry that wait for the other converter: pass, index, code, p-cycle of the end (R147) -/
  wres    : List (Nat × Nat × Int × Nat)
  deriving DecidableEq, Repr

/-- Weigh front end (07_weigh). -/
structure WfeState where
  a        : Conv
  b        : Conv
  /-- slices serving as A, B and elf -/
  sliceA   : Fin 3
  sliceB   : Fin 3
  sliceE   : Fin 3
  /-- belt time (ns) of each slice's last successful calibration -/
  calNs    : SMap (Option Nat)
  rotWait  : Bool
  rotCnt   : BitVec 16
  calBusy  : Bool
  /-- p-cycle at which the calibration began; p-cycle from which the calibrated elf slice has been parked (R144) -/
  calAt    : Nat
  elfReady : Option Nat
  calFail  : BitVec 3
  settled  : Bool
  /-- p-cycle at which REF_SETTLED last changed (R135, R152) -/
  settledAt : Nat
  excOver  : Bool
  wq       : List Weight
  /-- each comparator's output, its filtered level, and the run of a new level: p-cycle and belt time of its start (R140) -/
  cmpOut   : BitVec 2
  cmpLevel : BitVec 2
  cmpRuns  : SMap (Option (Nat × Nat))
  /-- open-wire entries that have ended: converter, channel, first and last p-cycle (R143) -/
  owcs     : List (Bool × Nat × Nat × Nat)
  deriving DecidableEq, Repr

/-- A drain-buffer entry (R183): 32 values, fp32 or int32, valid. -/
structure DrainEntry where
  vals  : List Word
  fp    : Bool
  valid : Bool
  poisoned : Bool
  /-- SEQ of the passes with checksums on whose results it holds and whose verdict is still to come (R188) -/
  seqs  : List Word
  deriving DecidableEq, Repr

/-- What the verdicts need of a finished pass on one array (R188, R213-R215). -/
structure PassRec where
  word   : BitVec 64
  seq    : Word
  /-- execution mode: 0 EXACT, 1 REPLAY, 2 LOWBIT -/
  mode   : Fin 3
  k      : BitVec 4
  /-- exact results and produced results, by result (or row) and column -/
  exact  : List (List Word)
  made   : List (List Word)
  /-- the sum step's results as the row check compares them (Table Arrays-8) -/
  sums   : List (List Word)
  /-- column that the tally compares (R213) -/
  tcol   : Nat
  deriving DecidableEq, Repr

/-- A pass that streams its steps through an array or gang (R177, R180). -/
structure PassRun where
  word   : BitVec 64
  /-- array, or upper left array of the gang -/
  base   : Nat
  /-- c-cycle at which the next step is due, steps entered so far -/
  due    : Nat
  step   : Nat
  /-- deviations of the results -/
  errs   : List PassError
  /-- per array: number, SEQ, mode, k, and the column of the tally if the pass is sampled -/
  info   : List (Nat × Word × Fin 3 × BitVec 4 × Option Nat)
  /-- checksums on -/
  chk    : Bool
  /-- results of the gang so far, exact and produced -/
  exact  : List (List Word)
  made   : List (List Word)
  bad    : Bool
  deriving DecidableEq, Repr

/-- A result on its way to a drain buffer (R181, R183): the c-cycle in which it stands there. -/
structure Landing where
  cycle  : Nat
  array  : Nat
  entry  : Nat
  vals   : List Word
  fp     : Bool
  add    : Bool
  bad    : Bool
  /-- SEQ of its pass on that array, if checksums are on -/
  seq    : Option Word
  deriving DecidableEq, Repr

/-- One matrix array (09_arrays); a Bool beside a value is its poison mark (R273). -/
structure ArrayState where
  rowq   : SMap (List (Byte × Bool))
  colq   : SMap (List (Byte × Bool))
  /-- shadow and active stationary values, at 32i + j -/
  shadow : SMap (BitVec 16 × Bool)
  loaded : BitVec 4
  active : SMap (BitVec 16 × Bool)
  /-- OS accumulators at 32i + j, their exact values, and whether the last pass kept them -/
  acc    : SMap (Word × Bool)
  accX   : SMap Word
  kept   : Bool
  drain  : SMap DrainEntry
  /-- c-cycle from which a shadow load is accepted (R180) -/
  frontEnd : Nat
  /-- c-cycles of the last step and of the last result of the previous pass; its gang -/
  lastStep : Nat
  lastDone : Nat
  issued : Bool
  gang   : BitVec 2
  /-- candidate passes counted (R213) -/
  cand   : Nat
  /-- finished passes whose checksum verdict, or tally verdict, is still to come -/
  chkq   : List PassRec
  tallyq : List PassRec
  /-- drained results whose verdict is still to come: SEQ of the passes, device address and bytes (R188) -/
  drained : List (List Word × Nat × Nat)
  /-- fronts of its passes, the latest first: the c-cycle in which each reached row 0, and whether its pass runs on VARR
  (R206) -/
  fronts : List (Nat × Bool)
  /-- window buffer (R198): up to 8 scratchpad rows by number, the oldest first -/
  win    : List (Nat × Marked)
  deriving DecidableEq, Repr

/-- One core (08_scratchpad, 09_arrays, 11_approximate). -/
structure CoreState where
  arrays : SMap ArrayState
  /-- passes that stream, and results on their way -/
  runs   : List PassRun
  landings : List Landing
  /-- gather buffer (R159): tag (block number), bytes, written bytes, whether the others were read for the write-back, the
  c-cycle of the last NARROW write, and a NARROW access that waits, with its length -/
  gTag   : Option Nat
  gBuf   : Marked
  gDirty : BitVec 64
  gFresh : Bool
  gLast  : Nat
  gWait  : Option (SpAccess × Nat)
  rq     : List RReq
  /-- the last slot of the wheel, or of quarter q, in which an access was made, plus 1 (R157): key q, or 4 in SHARED mode -/
  used   : SMap Nat
  /-- rows that engines of this core have read through R ports, by core × 2,048 + row (R158) -/
  fetched : SMap Marked
  /-- writes that wait for a place in the R queue of a core, and the knot of the transfer that made them (R158, R226) -/
  outq   : List (Nat × RReq)
  outKnot : Option (BitVec 17)
  /-- belt time (ns) at which the zero fill of the core ends (R167) -/
  fillEnd : Nat
  /-- the convolution descriptor in progress, and the rounds of four chains that it has made (R197, R203) -/
  conv   : Option (Desc × Nat)
  /-- requantisation words: set q, column j at 32q + j -/
  qsets  : SMap Word
  /-- spindle vector register, and whether it came from a poisoned row -/
  xvec   : List Byte
  xbad   : Bool
  sacc   : SMap (Word × Bool)
  /-- beat number up to whose end passes are forced to EXACT (R215), 0 for none -/
  forcedTo : Nat
  /-- escapes counted since the current beat started -/
  escBeat : Nat
  /-- steps before and after the change while VARR slews (R205) -/
  oldStep : BitVec 5
  exactDetBeat : Option Nat
  /-- the scratchpad runs in PARTITION mode since the last load (R161) -/
  part   : Bool
  deriving DecidableEq, Repr

/-- Request states (Table Requests-2). -/
inductive ReqSt where
  | free | queued | prefill | shipping | decode | paused | parked | done | cancelled | faulted
  deriving DecidableEq, Repr

/-- A parked copy of a request's cache (R255-R260). -/
structure Parked where
  /-- sealed in host memory, otherwise in the store tier of `holder` -/
  host   : Bool
  holder : BitVec 6
  slot   : Nat
  pages  : Nat
  genLen : Nat
  atNs   : Nat
  deriving DecidableEq, Repr

/-- A request of the table (Table Requests-1) and what the owner keeps with it until release (R232). -/
structure Req where
  st       : ReqSt
  resumeTo : ReqSt
  prio     : BitVec 3
  admitted : Bool
  hold     : Bool
  dlPaused : Bool
  restarted : Bool
  pendCmd  : Bool
  tenant   : BitVec 12
  grammar  : BitVec 8
  adGen    : BitVec 8
  promptLen : Nat
  encoded  : Nat
  genLen   : Nat
  maxLen   : Nat
  last     : Code
  parcel   : Word
  deadline : Nat
  seq      : Word
  tag      : Nat
  cutPkg   : BitVec 8
  prePkg   : BitVec 8
  decPkg   : BitVec 8
  kvPkg    : BitVec 8
  slot     : BitVec 9
  kvPages  : Nat
  listAddr : BitVec 48
  charged  : Nat
  /-- order of creation, for the tenant queue -/
  born     : Nat
  tokens   : List (BitVec 12)
  posted   : Nat
  gap      : Bool
  minMargin : BitVec 16
  lastMargin : BitVec 16
  stop     : BitVec 8
  checkOk  : Bool
  multi    : Bool
  rule     : BitVec 16
  finalOnly : Bool
  /-- step number at which it was paused -/
  pausedAt : BitVec 64
  endNs    : Nat
  parkedCopy : Option Parked
  /-- index of the place it holds in the weave's list -/
  place    : Option Nat
  /-- the deadline is an encoder position (R230) -/
  dlPos    : Bool
  /-- the adapter generation has been given (R242) -/
  adGiven  : Bool
  /-- a park copy has been ordered (R255); a transfer was NAKed and is to be ordered again (R253) -/
  parkOrd  : Bool
  reship   : Bool
  /-- the code that cancels it at the next boundary; 0 for none (R256, R260) -/
  fail     : Code
  /-- its final batch has been posted (R261) -/
  finalDone : Bool
  /-- header of its crop (Table Regions-3) -/
  crop     : Desc
  deriving DecidableEq, Repr

/-- A tenant on an owner and its adapter slot on a package (R234, R235, R239, R241). -/
structure Tenant where
  weight  : BitVec 8
  budget  : Word
  spent   : Nat
  finish  : Nat
  gen     : BitVec 8
  rank    : BitVec 3
  /-- adapter generation waiting for the next step boundary -/
  pendGen : Option (BitVec 8 × BitVec 3)
  /-- request that stands at the head of its queue with its start tag formed (R234) -/
  head    : Option Nat
  deriving DecidableEq, Repr

/-- A TENANT_CFG accepted, waiting for the next step boundary (R239). -/
structure TenantCmd where
  flight : Nat
  tenant : BitVec 12
  weight : BitVec 8
  budget : Word
  deriving DecidableEq, Repr

/-- An opened adapter in the pool: tenant, generation, rank code, first page, pages. -/
structure AdapterRun where
  tenant : BitVec 12
  gen    : BitVec 8
  rank   : BitVec 3
  first  : Nat
  pages  : Nat
  deriving DecidableEq, Repr

/-- A grammar table in the pool (R263, R264). -/
structure GrammarTab where
  id    : BitVec 8
  gen   : BitVec 8
  /-- 0 pending, 1 current, 2 older -/
  role  : Fin 3
  len   : Nat
  first : Nat
  pages : Nat
  deriving DecidableEq, Repr

/-- A store-tier park copy in the park pool (R256): first page of its list, pages of the list, pages by ordinal. -/
structure ParkCopy where
  first  : Nat
  listPages : Nat
  pages  : List Nat
  genLen : Nat
  held   : Nat
  deriving DecidableEq, Repr

/-- What a package that prefills, decodes or holds keeps of one request (R248-R257, R264-R270). -/
structure Ctx where
  owner  : BitVec 6
  req    : BitVec 12
  tenant : BitVec 12
  adGen  : BitVec 8
  parcel : Word
  promptLen : Nat
  maxLen : Nat
  grammar : BitVec 8
  genLen : Nat
  /-- the first decode step, or the replay, has latched a grammar table of this generation -/
  started : Bool
  grmGen : BitVec 8
  auto   : Nat
  u0     : Nat
  u1     : Nat
  taken  : Bool
  failed : Bool
  /-- it has reported STOP -/
  stopped : Bool
  /-- tokens held; first page of the page list, its pages; pages by ordinal, and pages reserved and not yet used -/
  held   : Nat
  listFirst : Nat
  listPages : Nat
  pages  : List Nat
  spare  : List Nat
  /-- transfer expected, the host slot that it feeds, bytes received of LIST and PAGES with their poison marks, PAGES
  coded -/
  expect : Option Word
  sealTo : Option Nat
  listIn : List Byte
  listBad : List Bool
  pagesIn : List Byte
  pagesBad : List Bool
  coded  : Bool
  /-- transfer sent and not yet acknowledged, and whether it carries the park copy -/
  sent   : Option (Word × Bool)
  copy   : Option ParkCopy
  /-- a store-tier copy being made -/
  making : Option ParkCopy
  deriving DecidableEq, Repr

/-- A host command accepted at the owner (R236a): 0 cancel, 1 pause, 2 resume. -/
structure HostCmd where
  flight : Nat
  kind   : Fin 3
  req    : BitVec 12
  deriving DecidableEq, Repr

/-- The serving layer (13_requests, 14_phases, 15_tokens). -/
structure ServeState where
  reqs     : SMap Req
  tenants  : SMap Tenant
  vtime    : Nat
  nextSeq  : Word
  /-- number of the budget window at the last boundary -/
  window   : Option Nat
  born     : Nat
  stepNum  : BitVec 64
  stepHi   : Word
  /-- place reports of the step: word, check flag, list address -/
  reports  : List (LinkWord × Bool × BitVec 48)
  cmds     : List HostCmd
  cfgs     : List TenantCmd
  adapters : List AdapterRun
  grammars : List GrammarTab
  ctxs     : List Ctx
  /-- DROP orders due at the next boundary: package and request -/
  drops    : List (BitVec 6 × BitVec 12)
  /-- host park slots in use: slot and request -/
  hostSlots : SMap (Option (BitVec 12))
  parkEpoch : BitVec 26
  /-- which draw of the random source the park key is -/
  parkKey  : Nat
  parkCtr  : BitVec 64
  exhausted : Bool
  nextXfer : Word
  /-- fates due at the next boundary: 0 none, 1 restart, 2 switch, 3 switch to another model (R247, R338) -/
  fates    : Fin 4
  deriving DecidableEq, Repr

/-- A HALT in effect (R275). -/
structure HaltInfo where
  num    : BitVec 15
  beat   : BitVec 32
  origin : BitVec 6
  cls    : BitVec 8
  deriving DecidableEq, Repr

/-- Where the package stands in a restart (FAULT_STATUS.PHASE). -/
inductive RestartPhase where
  | running | stopped | recovering | ready | idle
  deriving DecidableEq, Repr

/-- Faults and the restart (16_faults). -/
structure FaultState where
  lastNum  : BitVec 15
  phase    : RestartPhase
  halt     : Option HaltInfo
  /-- beat number (64 bits) at which the weave resumes, and the chosen alternate -/
  resume   : Option (BitVec 8 × BitVec 32)
  excluded : Bool
  judged   : Bool
  stopNs   : Nat
  /-- restart numbers with the belt time (ns) at which each was first seen (R284) -/
  recent   : List (BitVec 15 × Nat)
  log      : List (BitVec 256)
  /-- arrays implicated by checksum faults: 4c + a, and the physical column if localised (R188, R191) -/
  implicated : List (Nat × Option (BitVec 5))
  deriving DecidableEq, Repr

/-- A weave load in progress (R335-R338). -/
structure Load where
  /-- the declarations, once the image is here and the first checks have passed -/
  decl   : Option WeaveDecl
  /-- this package is the principal that executes the load -/
  lead   : Bool
  /-- the read of the image has been issued (R67, R335) -/
  asked  : Bool
  /-- the load waits, unjudged, for a step, beat values or a relock that was accepted before it (R355, Table Time-6) -/
  waits  : Bool
  /-- the descriptor that asked for it; none for BOOT_CMD.LOAD -/
  flight : Option Nat
  /-- host bus address, length and weave id of the request -/
  addr   : BitVec 64
  len    : Nat
  id     : Word
  /-- this package's own verdict: bit 15 and bits 14..0 -/
  pass   : BitVec 16
  /-- beat number S -/
  startBeat : BitVec 64
  /-- alternate that RESUME carried; 0xFF none -/
  alt    : Option (BitVec 8)
  deriving DecidableEq, Repr

/-- The running weave (00_scope, 19_images). -/
structure WeaveState where
  run      : Option WeaveDecl
  alt      : BitVec 8
  /-- this package takes part in the weave -/
  member   : Bool
  /-- the placement that the loader took for this package in the running alternate (R190) -/
  placed   : Option Placement
  load     : Option Load
  /-- a weave ends at the end of the beat with this number (R339) -/
  stopBeat : Option (BitVec 64)
  /-- beat number of the weave's first beat -/
  firstBeat : BitVec 64
  /-- the image area that holds the running weave is area 1 -/
  area1    : Bool
  /-- model id of the last weave that ran (R338) -/
  model    : Option Word
  deriving DecidableEq, Repr

/-- Throttle (17_power). -/
structure ThermState where
  stage    : BitVec 2
  altSeen  : Nat
  tripSeen : Nat
  sampled  : Bool
  normalNs : Option Nat
  noAlt    : Bool
  deriving DecidableEq, Repr

/-- A fuse command that runs (R308): op, word, data, and the words it programs with their final values. -/
structure FuseCmd where
  op     : BitVec 4
  word   : BitVec 9
  data   : Word
  steward : Bool
  plan   : List (Nat × Word)
  deriving DecidableEq, Repr

/-- Fuse array (18_fuses): copy c of word w at 3w + c; bits that fail the strict margin; shadow. -/
structure FuseState where
  copies : SMap Word
  weak   : SMap Word
  shadow : SMap Word
  cmd    : Option FuseCmd
  deriving DecidableEq, Repr

/-- Boot and pairing (19_images). -/
structure BootState where
  sfdp      : Sfdp
  /-- candidate slots still to be tried, first first -/
  order     : List Bool
  /-- the images of the slot have been verified, or the ROM serves (R323) -/
  verified  : Bool
  stewardVer : BitVec 16
  stewardIf : BitVec 8
  withyVer  : BitVec 16
  withyIf   : BitVec 8
  secVer    : Nat
  /-- both tables hold the running combination (R326) -/
  paired    : Bool
  /-- E_BOOT_UNTESTED waits for the host interface (R326) -/
  untestedDue : Bool
  /-- E_PATCH_DUP waits for the host interface (R320) -/
  dupDue    : Bool
  /-- results of the last self-test (Table Images-9) and belt time (ns) at its end -/
  test      : SelfTest
  testNs    : Nat
  /-- patch generation (R320) -/
  patchGen  : BitVec 8
  /-- bit n: core n had EN set at the last weave load (R192) -/
  coresIn   : BitVec 16
  serving   : Bool
  deriving DecidableEq, Repr

/-- The state of one package. -/
structure State where
  /-- commands waiting, first in, first out -/
  pending : List Instr
  /-- BAR0 words that differ from their reset value, by byte offset -/
  regs    : SMap Word
  /-- registers with RC or W1C fields that hardware has set in this cycle: offset, the word before the first set, and
  what these sets make of a word whose RC and W1C fields are clear (R5, R6) -/
  sets    : List (Nat × Word × Word)
  out     : List Out
  /-- counter that makes free values fresh (log entry 4) -/
  freeCtr : Nat
  power   : PowerState
  time    : TimeState
  basket  : BasketState
  host    : HostState
  field   : FieldState
  pix     : PixState
  roi     : RoiState
  wfe     : WfeState
  cores   : SMap CoreState
  knots   : SMap Word
  /-- bytes of the store and of the scratchpads, by device address -/
  mem     : SMap Byte
  /-- poisoned 16-byte chunks, by address div 16 (R273) -/
  poison  : SMap Bool
  serve   : ServeState
  fault   : FaultState
  weave   : WeaveState
  therm   : ThermState
  fuse    : FuseState
  flash   : SMap Byte
  boot    : BootState
  deriving DecidableEq, Repr

def LinkPort.reset : LinkPort where
  state := .off
  width := 0
  lanes := 0
  d := 0
  peer := 0
  epoch := 0
  ctr := 0
  retry := false
  keys := none
  authBad := false
  sleepNs := none
  credits0 := 16
  credits1 := 16
  peerIn := false
  rxCtr := 0
  lastGood := 0
  naking := false
  unacked := []
  hdrErrs := []
  stored := []
  keyxIn := []
  ctrlq := []

def Ring.reset : Ring where
  state := .disabled
  fetch := 0
  write := 0
  phase := false
  tail := 0
  head := 0
  fails := 0
  asked := 0
  unsig := 0
  unsigAt := none

def FieldEvent.reset : FieldEvent := ⟨0, false, false, 0, 0⟩

def Strobe.reset : Strobe := ⟨[], none⟩

def Conv.reset : Conv where
  running := false
  entry := 0
  runAt := 0
  entryAt := 0
  blank := false
  done := 0
  sum := 0
  flags := 0
  pass := 0
  hist := []
  stopping := false
  startAt := none
  startNs := 0
  startPos := 0
  cmp := none
  intruded := false
  wres := []

def ArrayState.reset : ArrayState where
  rowq := []
  colq := []
  shadow := []
  loaded := 0
  active := []
  acc := []
  accX := []
  kept := false
  drain := []
  frontEnd := 0
  lastStep := 0
  lastDone := 0
  issued := false
  gang := 0
  cand := 0
  chkq := []
  tallyq := []
  drained := []
  fronts := []
  win := []

def DrainEntry.reset : DrainEntry := ⟨[], false, false, false, []⟩

def CoreState.reset : CoreState where
  arrays := []
  runs := []
  landings := []
  gTag := none
  gBuf := []
  gDirty := 0
  gFresh := false
  gLast := 0
  gWait := none
  rq := []
  used := []
  fetched := []
  outq := []
  outKnot := none
  fillEnd := 0
  conv := none
  qsets := []
  xvec := []
  xbad := false
  sacc := []
  forcedTo := 0
  escBeat := 0
  oldStep := 0
  exactDetBeat := none
  part := false

def Req.reset : Req where
  st := .free
  resumeTo := .free
  prio := 0
  admitted := false
  hold := false
  dlPaused := false
  restarted := false
  pendCmd := false
  tenant := 0
  grammar := 0
  adGen := 0
  promptLen := 0
  encoded := 0
  genLen := 0
  maxLen := 0
  last := 0
  parcel := 0
  deadline := 0
  seq := 0
  tag := 0
  cutPkg := 0xFF
  prePkg := 0xFF
  decPkg := 0xFF
  kvPkg := 0xFF
  slot := 0
  kvPages := 0
  listAddr := 0
  charged := 0
  born := 0
  tokens := []
  posted := 0
  gap := false
  minMargin := 0xFFFF
  lastMargin := 0
  stop := 0
  checkOk := false
  multi := false
  rule := 0xFFFF
  finalOnly := false
  pausedAt := 0
  endNs := 0
  parkedCopy := none
  place := none
  dlPos := false
  adGiven := false
  parkOrd := false
  reship := false
  fail := 0
  finalDone := false
  crop := 0

def Tenant.reset : Tenant where
  weight := 1
  budget := 0xFFFFFFFF
  spent := 0
  finish := 0
  gen := 0
  rank := 0
  pendGen := none
  head := none

def Sfdp.reset : Sfdp := ⟨false, 0, false, 0⟩

def SelfTest.reset : SelfTest where
  arraysOk := 0
  vectorOk := 0
  spindleOk := 0
  segsOk := 0
  portsOk := 0
  portLanes := 0
  storeCode := 0
  pixCode := 0
  wfeCode := 0
  pcieCode := 0
  stewardOk := false
  durationUs := 0

/-- Power state with RESET_N low. -/
def PowerState.reset : PowerState where
  phase := .inReset
  pgoodA := false
  pgoodB := false
  railA := false
  railB := false
  strap1 := 0
  strap2 := 0
  latchNs := 0
  timeoutRec := false
  resampled := false
  ir := 0xF

/-- Clocks and belt time at the reset values of Tables Time-4 and Time-5. -/
def TimeState.reset : TimeState where
  belt := 0
  pcyc := 0
  slew := 0
  corr := 0
  cclk := false
  shadow := 0
  numHi := 0
  stampHi := 0
  beatNum := 0
  beatStamp := 0
  beatLen := 1200000
  epoch := 0
  mult := 48
  spread := 1
  stepped := 0
  pendStep := none
  pendBeats := []
  pendClock := none
  relocking := false
  aticks := 0
  lastWhisper := none
  staged := []

/-- An outsider with every port OFF (Table Withy-10). -/
def BasketState.reset : BasketState where
  pn := LinkPort.reset
  pe := LinkPort.reset
  ps := LinkPort.reset
  pw := LinkPort.reset
  joined := false
  outsider := true
  principal := 0
  isPrincipal := false
  hops := 0
  upstream := .n
  members := []
  joinAt := none
  lowerHeardNs := 0
  heard := []
  tree := []
  wakeSeq := 0
  wakeKept := []
  lastHalt := none
  lastResume := none
  lastTime := none
  fwd := none
  fwdNs := 0
  looseSeq := 0
  outbox := []
  stalled := []
  streams := []

def HostState.reset : HostState where
  bme := false
  rings := []
  flights := []
  nextId := 0
  waiting := []
  heldEv := []
  evDropped := 0
  vecMask := BitVec.allOnes 72
  vecPend := 0
  vecTable := []
  msixOn := false
  funcMask := false
  mirrors := []
  dirty := []
  recPos := 0
  recLap := 1
  recHead := 0
  records := []

def FieldState.reset : FieldState where
  pos := 0
  posHi := 0
  a := false
  b := false
  encq := []
  armAt := none
  armZ := false
  levels := 0
  raw := 0
  runs := []
  evq := []
  latch := FieldEvent.reset
  repeating := 0xFFFF
  strobes := []
  syncs := []
  copyDue := []

def PixState.reset : PixState where
  pend := []
  cur := []
  reading := none
  readEnd := 0
  band := 0
  hot := false
  darkBusy := false
  darkBand := 0
  trigNow := none
  snaps := []
  oldAt := none
  oldRegs := []
  stored := []

def RoiState.reset : RoiState where
  bank0 := []
  bank1 := []
  active1 := false
  swap := false
  matched := []
  crops := []
  handed := []
  parcels := []
  nextId := 0
  diag := none
  diagSeq := none
  diagUsed := false

def WfeState.reset : WfeState where
  a := Conv.reset
  b := Conv.reset
  sliceA := 0
  sliceB := 1
  sliceE := 2
  calNs := []
  rotWait := false
  rotCnt := 0
  calBusy := false
  calAt := 0
  elfReady := none
  calFail := 0
  settled := false
  settledAt := 0
  excOver := false
  wq := []
  cmpOut := 0
  cmpLevel := 0
  cmpRuns := []
  owcs := []

def ServeState.reset : ServeState where
  reqs := []
  tenants := []
  vtime := 0
  nextSeq := 0
  window := none
  born := 0
  stepNum := 0
  stepHi := 0
  reports := []
  cmds := []
  cfgs := []
  adapters := []
  grammars := []
  ctxs := []
  drops := []
  hostSlots := []
  parkEpoch := 0
  parkKey := 0
  parkCtr := 0
  exhausted := false
  nextXfer := 0
  fates := 0

def FaultState.reset : FaultState where
  lastNum := 0
  phase := .running
  halt := none
  resume := none
  excluded := false
  judged := false
  stopNs := 0
  recent := []
  log := []
  implicated := []

def WeaveState.reset : WeaveState where
  run := none
  alt := 0xFF
  member := false
  placed := none
  load := none
  stopBeat := none
  firstBeat := 0
  area1 := false
  model := none

def ThermState.reset : ThermState where
  stage := 0
  altSeen := 0
  tripSeen := 0
  sampled := false
  normalNs := none
  noAlt := false

/-- Fuses of a package with serial, vendor and trims all zero: the CRC words 15 and 95 are blown so that the
identity and trim regions pass (log entry 8); every other fuse is blank, so the lifecycle is BLANK. -/
def FuseState.reset : FuseState where
  copies := [(45, 0x84FBECEE), (46, 0x84FBECEE), (47, 0x84FBECEE),
    (285, 0x67E65321), (286, 0x67E65321), (287, 0x67E65321)]
  weak := []
  shadow := []
  cmd := none

def BootState.reset : BootState where
  sfdp := Sfdp.reset
  order := []
  verified := false
  stewardVer := 0
  stewardIf := 0
  withyVer := 0
  withyIf := 0
  secVer := 0
  paired := false
  untestedDue := false
  dupDue := false
  test := SelfTest.reset
  testNs := 0
  patchGen := 0
  coresIn := 0xFFFF
  serving := false

/-- The package with RESET_N low: registers at their reset values, belt time 0, no basket, no weave. -/
def State.reset : State where
  pending := []
  regs := []
  sets := []
  out := []
  freeCtr := 0
  power := PowerState.reset
  time := TimeState.reset
  basket := BasketState.reset
  host := HostState.reset
  field := FieldState.reset
  pix := PixState.reset
  roi := RoiState.reset
  wfe := WfeState.reset
  cores := []
  knots := []
  mem := []
  poison := []
  serve := ServeState.reset
  fault := FaultState.reset
  weave := WeaveState.reset
  therm := ThermState.reset
  fuse := FuseState.reset
  flash := []
  boot := BootState.reset

end Sys2Proof.Machine
end

