-- ==== Sys2Proof/Machine/LineCode.lean ====
section
/-!
DEFINITION. LineCode.lean: the scrambler of the 130-bit line code (R46) and the lanes that carry a word position
(03_withy, "Frames and slots").
-/

namespace Sys2Proof.Machine

/-- Seed of lane `n` at the first block of a frame (R46). -/
def scrSeed (lane : Nat) : BitVec 31 := 0x7FFFFF00 ^^^ BitVec.ofNat 31 lane

/-- The output bit s[30] XOR s[27] (R46). -/
def scrOut (s : BitVec 31) : Bool := s.getLsbD 30 ^^ s.getLsbD 27

/-- The state after one payload bit: the output bit is shifted into s[0] (R46). -/
def scrNext (s : BitVec 31) : BitVec 31 := (s <<< 1) ||| (if scrOut s then 1 else 0)

/-- The state after `n` payload bits. -/
def scrSkip : Nat → BitVec 31 → BitVec 31
  | 0, s => s
  | n + 1, s => scrSkip n (scrNext s)

/-- The next `n` output bits, the first in bit 0. -/
def scrBits : Nat → BitVec 31 → Nat
  | 0, _ => 0
  | n + 1, s => (scrOut s).toNat + 2 * scrBits n (scrNext s)

/-- What the scrambler of a lane puts onto the payload of block `b` of a frame; bit 0 of byte 0 comes first. -/
def scrWord (lane b : Nat) : LinkWord := BitVec.ofNat 128 (scrBits 128 (scrSkip (128 * b) (scrSeed lane)))

/-- The lanes in use at a trained width: all four; 0-1, or else 2-3; or the lowest that locks (03_withy). -/
def LinkPort.usedLanes (x : LinkPort) : List Nat :=
  if x.width = 2 then [0, 1, 2, 3]
  else if x.width = 1 then (if bits x.lanes 0 2 = 3 then [0, 1] else [2, 3])
  else [((List.range 4).find? (fun i => x.lanes.getLsbD i)).getD 0]

/-- Lane of word position `w`: w mod the width. -/
def LinkPort.laneOf (x : LinkPort) (w : Nat) : Nat := nthD 0 x.usedLanes (w % x.usedLanes.length)

/-- Word positions of a frame at a trained width: 64, 32 or 16. -/
def LinkPort.positions (x : LinkPort) : Nat := 16 * x.usedLanes.length

/-- The payload that a lane carries for a word in position `w`, and the word that such a payload gives back: scrambling
is its own inverse (R46). -/
def LinkPort.scramble (x : LinkPort) (w : Nat) (v : LinkWord) : LinkWord :=
  v ^^^ scrWord (x.laneOf w) (w / x.usedLanes.length)

end Sys2Proof.Machine
end

