-- ==== Sys2Proof/Machine/Operands.lean ====
section
/-!
DEFINITION. Operands.lean: the fields of the forms that commands and memory carry: submission descriptors
(Table Host-5, Host-6), CTRL words (Table Withy-9), whisper payloads (Table Withy-5), order and report words.
-/

namespace Sys2Proof.Machine

/-- `n` bytes of a descriptor from byte `lo`, little-endian. -/
def descNum (d : Desc) (lo n : Nat) : Nat := bits d (8 * lo) (8 * n)

/-- OPCODE, byte 0. -/
def dOp (d : Desc) : Nat := descNum d 0 1
/-- IRQ, byte 1 bit 0. -/
def dIrq (d : Desc) : Bool := d.getLsbD 8
/-- FENCE, byte 1 bit 1. -/
def dFence (d : Desc) : Bool := d.getLsbD 9
/-- TARGET, byte 2. -/
def dTarget (d : Desc) : Nat := descNum d 2 1
/-- TAG, bytes 4-7. -/
def dTag (d : Desc) : Nat := descNum d 4 4
/-- WAIT_KNOT, bytes 8-11 bits [16:0]. -/
def dWaitKnot (d : Desc) : Nat := bits d 64 17
/-- WAIT_EN, bytes 8-11 bit 31. -/
def dWaitEn (d : Desc) : Bool := d.getLsbD 95
/-- WAIT_THRESHOLD, bytes 12-15. -/
def dWaitThr (d : Desc) : Nat := descNum d 12 4
/-- SIGNAL_KNOT, bytes 16-19 bits [16:0]. -/
def dSigKnot (d : Desc) : Nat := bits d 128 17
/-- SIGNAL_EN, bytes 16-19 bit 31. -/
def dSigEn (d : Desc) : Bool := d.getLsbD 159
/-- SIGNAL_AMOUNT, bytes 20-21. -/
def dSigAmount (d : Desc) : Nat := descNum d 20 2
/-- The 64-bit address of bytes 24-31. -/
def dAddr (d : Desc) : Nat := descNum d 24 8

/-- The bits that Table Host-5 names in the header, bytes 0-23. -/
def descHeaderMask : Nat :=
  0xFF + 0x03 * 2 ^ 8 + 0xFF * 2 ^ 16 + 0xFFFFFFFF * 2 ^ 32 + 0x8001FFFF * 2 ^ 64 + 0xFFFFFFFF * 2 ^ 96
    + 0x8001FFFF * 2 ^ 128 + 0xFFFF * 2 ^ 160

/-- `n` whole bytes from byte `lo`, as a mask. -/
def bytesMask (lo n : Nat) : Nat := (2 ^ (8 * n) - 1) * 2 ^ (8 * lo)

/-- The bits that Table Host-6 names in the body of an opcode; none for an opcode absent from the table.
The bits of a named field that its width leaves out (knot [16:0] in bytes 32-35, tenant and request [11:0] in
bytes 36-37, bit 0 ENABLE of byte 33) are reserved. -/
def descBodyMask (op : Nat) : Option Nat :=
  match op with
  | 0x00 => some 0
  | 0x01 => some (bytesMask 24 8)
  | 0x02 => some (bytesMask 24 8)
  | 0x03 => some (bytesMask 24 8)
  | 0x04 => some (bytesMask 32 8)
  | 0x05 => some (bytesMask 24 16)
  | 0x06 => some (bytesMask 32 2)
  | 0x10 => some (0x1FFFF * 2 ^ 256 + bytesMask 36 4)
  | 0x11 => some (0x1FFFF * 2 ^ 256)
  | 0x12 => some (bytesMask 24 9 + 1 * 2 ^ 264)
  | 0x20 => some (bytesMask 24 16)
  | 0x21 => some (bytesMask 24 13)
  | 0x22 => some (bytesMask 24 12 + 0xFFF * 2 ^ 288 + bytesMask 40 12)
  | 0x23 => some (0xFFF * 2 ^ 288 + bytesMask 38 1 + bytesMask 40 4)
  | 0x30 => some (bytesMask 24 18)
  | 0x31 => some (0xFFF * 2 ^ 288 + bytesMask 40 4)
  | 0x32 => some (0xFFF * 2 ^ 288 + bytesMask 40 4)
  | 0x33 => some (0xFFF * 2 ^ 288 + bytesMask 40 4)
  | _ => none

/-- Thumbling service (Table Host-6): opcodes 0x00 to 0x06. -/
def opThumbling (op : Nat) : Bool := op ≤ 6

/-! CTRL words. -/

/-- Byte `i` of a link word. -/
def lwByte (w : LinkWord) (i : Nat) : Nat := bits w (8 * i) 8

/-- Bytes `lo` to `lo + n - 1` of a link word. -/
def lwNum (w : LinkWord) (lo n : Nat) : Nat := bits w (8 * lo) (8 * n)

/-- A CTRL word: byte 0 the block type 0x5A, byte 1 the subtype, bytes 2-15 the content. -/
def ctrlWord (sub content : Nat) : LinkWord := linkWord (0x5A + sub * 2 ^ 8 + content * 2 ^ 16)

/-- Subtype of a CTRL word. -/
def ctrlSub (w : LinkWord) : Nat := lwByte w 1

/-- HALT: origin, class, restart number field, beat number. -/
def haltWord (origin cls num beat : Nat) : LinkWord :=
  ctrlWord 1 (origin + cls * 2 ^ 8 + num * 2 ^ 16 + beat % 2 ^ 32 * 2 ^ 32)

/-- Restart-number field of a HALT or RESUME word, bytes 4-5. -/
def haltNum (w : LinkWord) : Nat := lwNum w 4 2
/-- Class or alternate byte of a HALT or RESUME word. -/
def haltCls (w : LinkWord) : Nat := lwByte w 3
/-- Beat of a HALT or RESUME word, low 32 bits. -/
def haltBeat (w : LinkWord) : Nat := lwNum w 6 4
/-- Origin of a HALT word. -/
def haltOrigin (w : LinkWord) : Nat := lwByte w 2 % 64

/-- RESUME: a HALT word with bit 15 of the number set (R275); byte 3 is 0x80 plus the alternate, or 0xFF. -/
def resumeWord (origin num : Nat) (alt : Option Nat) (beat : Nat) : LinkWord :=
  haltWord origin (match alt with | some a => 0x80 + a | none => 0xFF) (0x8000 + num % 0x8000) beat

/-- KNOT: source, destination, knot, amount. -/
def knotWord (src dst knot amount : Nat) : LinkWord :=
  ctrlWord 2 (src + dst * 2 ^ 8 + knot % 2 ^ 17 * 2 ^ 16 + amount % 2 ^ 16 * 2 ^ 40)

/-- JOIN: package, role, generation tuple, basket id. -/
def joinWord (pkg role tuple basket : Nat) : LinkWord :=
  ctrlWord 3 (pkg + role * 2 ^ 8 + tuple * 2 ^ 16 + basket * 2 ^ 80)

/-- JOIN_REPLY: package, code, hops, upstream port. -/
def joinReplyWord (pkg code hops port : Nat) : LinkWord :=
  ctrlWord 4 (pkg + code * 2 ^ 8 + hops * 2 ^ 24 + port * 2 ^ 32)

/-- KEYX: part index and content (R57). -/
def keyxWord (part content : Nat) : LinkWord := ctrlWord 5 (part + content * 2 ^ 8)

/-- PRESENCE: package, role, basket id, generation tuple. -/
def presenceWord (pkg role basket tuple : Nat) : LinkWord :=
  ctrlWord 6 (pkg + role * 2 ^ 8 + basket * 2 ^ 16 + tuple * 2 ^ 48)

/-- TIME of kind STEP: T / 32,000 low 32 bits, TIME_SET / 32,000. -/
def stepWord (t set : Nat) : LinkWord :=
  ctrlWord 7 (1 + t / 32000 % 2 ^ 32 * 2 ^ 8 + set / 32000 % 2 ^ 56 * 2 ^ 40)

/-- TIME of kind BEAT: B, epoch / 32,000, boundary / 32,000 low 24 bits. -/
def beatWord (b epoch boundary : Nat) : LinkWord :=
  ctrlWord 7 (2 + b % 2 ^ 24 * 2 ^ 8 + epoch / 32000 % 2 ^ 56 * 2 ^ 32 + boundary / 32000 % 2 ^ 24 * 2 ^ 88)

/-- TIME of kind CLOCK: MULT, SPREAD, boundary / 32,000 low 24 bits. -/
def clockWord (mult spread boundary : Nat) : LinkWord :=
  ctrlWord 7 (3 + mult % 2 ^ 6 * 2 ^ 8 + spread % 4 * 2 ^ 16 + boundary / 32000 % 2 ^ 24 * 2 ^ 24)

/-- Priority of a CTRL word at an egress, 0 first (R59). -/
def ctrlPriority (w : LinkWord) : Nat :=
  match ctrlSub w with
  | 1 => 0
  | 7 => 1
  | 5 => 2
  | 3 => 3
  | 4 => 3
  | 2 => 4
  | 6 => 5
  | _ => 6

/-- The whole number nearest ahead of `now` that agrees with `low` in its low `n` bits (Table Withy-9). -/
def nearestAhead (now low n : Nat) : Nat :=
  let base := now / 2 ^ n * 2 ^ n + low % 2 ^ n
  if now < base then base else base + 2 ^ n

/-- A whisper message with its payload as a little-endian number. -/
def whisperMsg (type len payload : Nat) : WhisperMsg :=
  ⟨BitVec.ofNat 8 type, BitVec.ofNat 8 len, linkWord payload, true⟩

/-- The port with a number (0 N, 1 E, 2 S, 3 W). -/
def portOf (n : Nat) : Option Port :=
  match n with
  | 0 => some .n
  | 1 => some .e
  | 2 => some .s
  | 3 => some .w
  | _ => none

/-- Number of a port. -/
def portNum : Port → Nat
  | .n => 0
  | .e => 1
  | .s => 2
  | .w => 3

/-- The four ports in order. -/
def allPorts : List Port := [.n, .e, .s, .w]

end Sys2Proof.Machine
end

