-- ==== Sys2Proof/Machine/Sparse.lean ====
section
/-!
DEFINITION. Sparse.lean: the operations on sparse maps (keys strictly rising, no entry equal to the default)
and on plain lists that every unit shares.
-/

namespace Sys2Proof.Machine

/-- What a sparse map holds at a key. -/
def smGet {α : Type} (d : α) : SMap α → Nat → α
  | [], _ => d
  | (j, w) :: m, k => if k < j then d else if k = j then w else smGet d m k

/-- A sparse map with one key set; setting the default removes the entry. -/
def smSet {α : Type} [DecidableEq α] (d : α) : SMap α → Nat → α → SMap α
  | [], k, v => if v = d then [] else [(k, v)]
  | (j, w) :: m, k, v =>
    if k < j then (if v = d then (j, w) :: m else (k, v) :: (j, w) :: m)
    else if k = j then (if v = d then m else (k, v) :: m)
    else (j, w) :: smSet d m k v

/-- The canonical form: keys strictly rising, no entry equal to the default of its key. -/
def smWf {α : Type} [DecidableEq α] (d : Nat → α) : SMap α → Bool
  | [] => true
  | [(k, v)] => decide (v ≠ d k)
  | (k, v) :: (j, w) :: m => decide (v ≠ d k) && decide (k < j) && smWf d ((j, w) :: m)

/-- A sparse map with consecutive keys from `k` set. -/
def smSetAll {α : Type} [DecidableEq α] (d : α) (m : SMap α) (k : Nat) : List α → SMap α
  | [] => m
  | v :: vs => smSetAll d (smSet d m k v) (k + 1) vs

/-- Consecutive values from key `k`. -/
def smGetAll {α : Type} (d : α) (m : SMap α) (k : Nat) : Nat → List α
  | 0 => []
  | n + 1 => smGet d m k :: smGetAll d m (k + 1) n

/-- The first element of a list that satisfies `p` is replaced by its image. -/
def updFirst {α : Type} (p : α → Bool) (f : α → α) : List α → List α
  | [] => []
  | a :: l => if p a then f a :: l else a :: updFirst p f l

end Sys2Proof.Machine
end

