-- ==== Sys2Proof/Machine/Regs.lean ====
section
/-!
DEFINITION. Regs.lean: the BAR0 map (Table Index-1) and the register tables of every chapter: the offset of
each register under its own name, and per register its writable (RW), W1C, RC and WO bits and its reset value.
Bits outside every mask are RO or reserved (R3, R7).
-/

namespace Sys2Proof.Machine

/-- One register, or `count` registers `stride` bytes apart, at BAR0 offset `base`. -/
structure RegRow where
  base   : Nat
  count  : Nat
  stride : Nat
  rw     : Nat
  w1c    : Nat
  rc     : Nat
  wo     : Nat
  rst    : Nat
  deriving DecidableEq, Repr

/-- Table Index-4. -/
def idRows : List RegRow := [
  ⟨0x00000, 1, 4, 0x0, 0x0, 0x0, 0x0, 0x0⟩,
  ⟨0x00004, 1, 4, 0x0, 0x0, 0x0, 0x0, 0x0⟩,
  ⟨0x00008, 1, 4, 0x0, 0x0, 0x0, 0x0, 0x0⟩,
  ⟨0x0000C, 1, 4, 0x0, 0x0, 0x0, 0x0, 0x300⟩,
  ⟨0x00010, 1, 4, 0x0, 0x0, 0x0, 0x0, 0x0⟩,
  ⟨0x00014, 1, 4, 0x0, 0x0, 0xFFFF, 0x0, 0x0⟩]

/-- Table Time-4. -/
def clkRows : List RegRow := [
  ⟨0x01000, 1, 4, 0x33F, 0x0, 0x0, 0x0, 0x130⟩,
  ⟨0x01004, 1, 4, 0x0, 0x0, 0x0, 0x1, 0x0⟩,
  ⟨0x01008, 1, 4, 0x0, 0x0, 0x0, 0x0, 0x0⟩,
  ⟨0x0100C, 1, 4, 0x0, 0x0, 0xFFFF, 0x0, 0x0⟩,
  ⟨0x01010, 1, 4, 0x0, 0x0, 0x0, 0x0, 0x0⟩,
  ⟨0x01014, 1, 4, 0x0, 0x0, 0xFFFF, 0x0, 0x0⟩]

/-- Table Time-5. -/
def timeRows : List RegRow := [
  ⟨0x02000, 1, 4, 0x0, 0x0, 0x0, 0x0, 0x0⟩,
  ⟨0x02004, 1, 4, 0x0, 0x0, 0x0, 0x0, 0x0⟩,
  ⟨0x02008, 1, 4, 0x0, 0x0, 0x0, 0x0, 0x0⟩,
  ⟨0x02010, 1, 4, 0xFFFFFFFF, 0x0, 0x0, 0x0, 0x0⟩,
  ⟨0x02014, 1, 4, 0xFFFFFFFF, 0x0, 0x0, 0x0, 0x0⟩,
  ⟨0x02018, 1, 4, 0x0, 0x0, 0x0, 0x1, 0x0⟩,
  ⟨0x02020, 1, 4, 0x3FFFFF, 0x0, 0x0, 0x0, 0x124F80⟩,
  ⟨0x02028, 1, 4, 0xFFFFFFFF, 0x0, 0x0, 0x0, 0x0⟩,
  ⟨0x0202C, 1, 4, 0xFFFFFFFF, 0x0, 0x0, 0x0, 0x0⟩,
  ⟨0x02030, 1, 4, 0x0, 0x0, 0x0, 0x0, 0x0⟩,
  ⟨0x02034, 1, 4, 0x0, 0x0, 0x0, 0x0, 0x0⟩,
  ⟨0x02038, 1, 4, 0x0, 0x0, 0x0, 0x0, 0x0⟩,
  ⟨0x0203C, 1, 4, 0x0, 0x0, 0x0, 0x0, 0x0⟩,
  ⟨0x02040, 1, 4, 0x0, 0x0, 0x0, 0x0, 0x0⟩,
  ⟨0x02044, 1, 4, 0x0, 0x0, 0xFFFF, 0x0, 0x0⟩,
  ⟨0x02048, 1, 4, 0x0, 0x0, 0x0, 0x0, 0x1E84800⟩]

/-- Table Power-7. -/
def pwrRows : List RegRow := [
  ⟨0x03000, 1, 4, 0x0, 0x0, 0x0, 0x3, 0x0⟩,
  ⟨0x03004, 1, 4, 0x0, 0x0, 0x0, 0x0, 0x0⟩,
  ⟨0x03008, 1, 4, 0x1FF, 0x0, 0x0, 0x0, 0x3⟩,
  ⟨0x0300C, 1, 4, 0xFFFFFFFF, 0x0, 0x0, 0x0, 0x0⟩,
  ⟨0x03010, 1, 4, 0xFFFFFFFF, 0x0, 0x0, 0x0, 0x0⟩,
  ⟨0x03014, 1, 4, 0xFFFFFFFF, 0x0, 0x0, 0x0, 0x0⟩,
  ⟨0x03018, 1, 4, 0xFFFFFFFF, 0x0, 0x0, 0x0, 0x0⟩,
  ⟨0x0301C, 1, 4, 0x0, 0x0, 0xFFFF, 0x0, 0x0⟩,
  ⟨0x03020, 1, 4, 0x0, 0x0, 0x0, 0x0, 0x0⟩,
  ⟨0x03024, 1, 4, 0x0, 0x0, 0x0, 0x0, 0x0⟩]

/-- Table Fuses-7. -/
def fuseRows : List RegRow := [
  ⟨0x04000, 1, 4, 0x0, 0x0, 0x0, 0x1FF000F, 0x0⟩,
  ⟨0x04004, 1, 4, 0xFFFFFFFF, 0x0, 0x0, 0x0, 0x0⟩,
  ⟨0x04008, 1, 4, 0x0, 0x0, 0x0, 0x0, 0x0⟩,
  ⟨0x0400C, 1, 4, 0x0, 0x0, 0x0, 0x0, 0x0⟩,
  ⟨0x04010, 1, 4, 0x0, 0x0, 0x0, 0x0, 0x0⟩,
  ⟨0x04014, 1, 4, 0x0, 0x0, 0xFFFF, 0x0, 0x0⟩,
  ⟨0x04018, 1, 4, 0x0, 0x0, 0x0, 0x0, 0x0⟩,
  ⟨0x0401C, 1, 4, 0x0, 0x0, 0x0, 0x0, 0x0⟩,
  ⟨0x04020, 1, 4, 0x0, 0x0, 0x0, 0x0, 0x0⟩]

/-- Table Images-11. -/
def bootRows : List RegRow := [
  ⟨0x05000, 1, 4, 0x0, 0x0, 0x0, 0x0, 0x0⟩,
  ⟨0x05004, 1, 4, 0x1, 0x0, 0x0, 0x0, 0x0⟩,
  ⟨0x05008, 1, 4, 0x0, 0x0, 0x0, 0xF, 0x0⟩,
  ⟨0x0500C, 1, 4, 0x0, 0x0, 0xFFFF, 0x0, 0x0⟩,
  ⟨0x05010, 1, 4, 0x0, 0x0, 0x0, 0x0, 0x0⟩,
  ⟨0x05014, 1, 4, 0x0, 0x0, 0x0, 0x0, 0x0⟩,
  ⟨0x05018, 1, 4, 0x0, 0x0, 0x0, 0x0, 0x0⟩,
  ⟨0x0501C, 1, 4, 0x0, 0x0, 0x0, 0x0, 0x0⟩,
  ⟨0x05020, 1, 4, 0x0, 0x0, 0x0, 0x0, 0x0⟩,
  ⟨0x05024, 1, 4, 0x0, 0x0, 0x0, 0x0, 0x0⟩,
  ⟨0x05030, 1, 4, 0x0, 0x0, 0x0, 0x0, 0x0⟩,
  ⟨0x05034, 1, 4, 0x0, 0x0, 0x0, 0x0, 0x0⟩,
  ⟨0x05038, 1, 4, 0xFFFFFFC0, 0x0, 0x0, 0x0, 0x0⟩,
  ⟨0x0503C, 1, 4, 0xFFFFFFFF, 0x0, 0x0, 0x0, 0x0⟩,
  ⟨0x05040, 1, 4, 0x7FFFFFF, 0x0, 0x0, 0x0, 0x0⟩,
  ⟨0x05044, 1, 4, 0xFFFFFFFF, 0x0, 0x0, 0x0, 0x0⟩]

/-- Table Host-11. -/
def hostRows : List RegRow := [
  ⟨0x06000, 1, 4, 0x1, 0x0, 0x0, 0x0, 0x0⟩,
  ⟨0x06004, 1, 4, 0xFF, 0x0, 0x0, 0x0, 0x4⟩,
  ⟨0x06008, 1, 4, 0xFFFFF000, 0x0, 0x0, 0x0, 0x0⟩,
  ⟨0x0600C, 1, 4, 0xFFFFFFFF, 0x0, 0x0, 0x0, 0x0⟩,
  ⟨0x06010, 1, 4, 0xFFFFF000, 0x0, 0x0, 0x0, 0x0⟩,
  ⟨0x06014, 1, 4, 0xFFFFFFFF, 0x0, 0x0, 0x0, 0x0⟩,
  ⟨0x06018, 1, 4, 0x13F0F, 0x0, 0x0, 0x0, 0x4⟩,
  ⟨0x0601C, 1, 4, 0x13F, 0x0, 0x0, 0x0, 0x0⟩,
  ⟨0x06020, 1, 4, 0xFFFF, 0x0, 0x0, 0x0, 0x0⟩,
  ⟨0x06024, 1, 4, 0x0, 0x0, 0x0, 0x0, 0x0⟩,
  ⟨0x06028, 1, 4, 0x0, 0x0, 0xFFFF, 0x0, 0x0⟩,
  ⟨0x0602C, 1, 4, 0x0, 0x0, 0xFFFF, 0x0, 0x0⟩,
  ⟨0x06030, 1, 4, 0x0, 0x0, 0xFFFF, 0x0, 0x0⟩,
  ⟨0x06034, 1, 4, 0x0, 0x0, 0xFFFF, 0x0, 0x0⟩,
  ⟨0x06100, 64, 32, 0xFFFFF000, 0x0, 0x0, 0x0, 0x0⟩,
  ⟨0x06104, 64, 32, 0xFFFFFFFF, 0x0, 0x0, 0x0, 0x0⟩,
  ⟨0x06108, 64, 32, 0xFFFFF000, 0x0, 0x0, 0x0, 0x0⟩,
  ⟨0x0610C, 64, 32, 0xFFFFFFFF, 0x0, 0x0, 0x0, 0x0⟩,
  ⟨0x06110, 64, 32, 0xFFF31F1F, 0x0, 0x0, 0x0, 0x404⟩,
  ⟨0x06114, 64, 32, 0x0, 0x0, 0x0, 0x0, 0x0⟩,
  ⟨0x06118, 64, 32, 0x0, 0x0, 0x0, 0x0, 0x0⟩,
  ⟨0x0611C, 64, 32, 0x0, 0x0, 0x0, 0x0, 0x0⟩]

/-- Table Withy-10. -/
def withyRows : List RegRow := [
  ⟨0x08000, 1, 4, 0x0, 0x0, 0x0, 0x0, 0x0⟩,
  ⟨0x08004, 1, 4, 0x0, 0x0, 0x0, 0x0, 0x0⟩,
  ⟨0x08008, 1, 4, 0x1, 0x0, 0x0, 0x0, 0x0⟩,
  ⟨0x0800C, 1, 4, 0x0, 0x0, 0x0, 0x0, 0x0⟩,
  ⟨0x08010, 1, 4, 0x3, 0x0, 0x0, 0x0, 0x0⟩,
  ⟨0x08014, 1, 4, 0x0, 0x0, 0x0, 0xFF, 0x0⟩,
  ⟨0x08018, 1, 4, 0x0, 0x0, 0x0, 0x0, 0x0⟩,
  ⟨0x0801C, 1, 4, 0x0, 0x0, 0xFFFF, 0x0, 0x0⟩,
  ⟨0x08040, 4, 32, 0xF, 0x0, 0x0, 0x0, 0x3⟩,
  ⟨0x08044, 4, 32, 0x0, 0x0, 0x0, 0x0, 0x0⟩,
  ⟨0x08048, 4, 32, 0x0, 0x0, 0xFFFFFFFF, 0x0, 0x0⟩,
  ⟨0x0804C, 4, 32, 0x0, 0x0, 0xFFFF, 0x0, 0x0⟩,
  ⟨0x08050, 4, 32, 0x0, 0x0, 0x0, 0x0, 0x0⟩,
  ⟨0x08054, 4, 32, 0x0, 0x0, 0x0, 0x0, 0x0⟩,
  ⟨0x08058, 4, 32, 0x0, 0x0, 0x0, 0x0, 0x0⟩,
  ⟨0x08100, 64, 4, 0x0, 0x0, 0x0, 0x0, 0x0⟩,
  ⟨0x08200, 1, 4, 0x3F, 0x0, 0x0, 0x0, 0x0⟩,
  ⟨0x08204, 1, 4, 0xFFFFC, 0x0, 0x0, 0x0, 0x0⟩,
  ⟨0x08208, 1, 4, 0xFFFFFFFF, 0x0, 0x0, 0x0, 0x0⟩,
  ⟨0x0820C, 1, 4, 0x0, 0x0, 0x0, 0x3, 0x0⟩,
  ⟨0x08210, 1, 4, 0x0, 0x0, 0x0, 0x0, 0x0⟩]

/-- Table Withy-11. -/
def winRows : List RegRow := [
  ⟨0x0A000, 32, 32, 0xFFFFF000, 0x0, 0x0, 0x0, 0x0⟩,
  ⟨0x0A004, 32, 32, 0xFFFF, 0x0, 0x0, 0x0, 0x0⟩,
  ⟨0x0A008, 32, 32, 0x1F, 0x0, 0x0, 0x0, 0xC⟩,
  ⟨0x0A00C, 32, 32, 0xFFFFFFFF, 0x0, 0x0, 0x0, 0x0⟩,
  ⟨0x0A010, 32, 32, 0xFFFFFFFF, 0x0, 0x0, 0x0, 0x0⟩,
  ⟨0x0A014, 32, 32, 0x7, 0x0, 0x0, 0x0, 0x0⟩,
  ⟨0x0A018, 32, 32, 0x0, 0x0, 0xFFFFFFFF, 0x0, 0x0⟩,
  ⟨0x0A400, 1, 4, 0x0, 0x0, 0xFFFF, 0x0, 0x0⟩,
  ⟨0x0A404, 1, 4, 0x0, 0x0, 0xFFFFFFFF, 0x0, 0x0⟩]

/-- Table Pix-9. -/
def pixRows : List RegRow := [
  ⟨0x0C000, 1, 4, 0xFFF0001, 0x0, 0x0, 0x0, 0x400000⟩,
  ⟨0x0C004, 1, 4, 0x0, 0x0, 0x0, 0x131, 0x0⟩,
  ⟨0x0C008, 1, 4, 0x0, 0x0, 0x0, 0x0, 0x0⟩,
  ⟨0x0C00C, 1, 4, 0x0, 0x0, 0xFFFF, 0x0, 0x0⟩,
  ⟨0x0C010, 1, 4, 0x0, 0x0, 0xFFFFFFFF, 0x0, 0x0⟩,
  ⟨0x0C014, 1, 4, 0x0, 0x0, 0xFFFFFFFF, 0x0, 0x0⟩,
  ⟨0x0C018, 1, 4, 0x0, 0x0, 0x0, 0x0, 0x0⟩,
  ⟨0x0C020, 1, 4, 0xF8000000, 0x0, 0x0, 0x0, 0x0⟩,
  ⟨0x0C024, 1, 4, 0xFFFF, 0x0, 0x0, 0x0, 0x0⟩,
  ⟨0x0C040, 4, 16, 0x1F3FF01, 0x0, 0x0, 0x0, 0x1F00000⟩,
  ⟨0x0C044, 4, 16, 0xFFFFF, 0x0, 0x0, 0x0, 0xC8⟩,
  ⟨0x0C048, 4, 16, 0xFFFF, 0x0, 0x0, 0x0, 0x0⟩,
  ⟨0x0C100, 8, 8, 0x1FF00FF, 0x0, 0x0, 0x0, 0x1000000⟩,
  ⟨0x0C104, 8, 8, 0xFFF07FF, 0x0, 0x0, 0x0, 0x8000000⟩]

/-- Table Pix-10. -/
def fieldRows : List RegRow := [
  ⟨0x0D000, 8, 4, 0x3F33FF07, 0x0, 0x0, 0x0, 0x0⟩,
  ⟨0x0D020, 1, 4, 0x0, 0x0, 0x0, 0x0, 0x0⟩,
  ⟨0x0D024, 1, 4, 0x0, 0x0, 0x11F, 0x0, 0x0⟩,
  ⟨0x0D028, 1, 4, 0x0, 0x0, 0x0, 0x0, 0x0⟩,
  ⟨0x0D02C, 1, 4, 0x0, 0x0, 0x0, 0x0, 0x0⟩,
  ⟨0x0D030, 1, 4, 0x0, 0x0, 0x0, 0x0, 0x0⟩,
  ⟨0x0D034, 1, 4, 0x0, 0x0, 0x0, 0x0, 0x0⟩,
  ⟨0x0D038, 1, 4, 0x0, 0x0, 0x0, 0x0, 0x0⟩,
  ⟨0x0D03C, 1, 4, 0x0, 0x0, 0xFFFF, 0x0, 0x0⟩,
  ⟨0x0D040, 1, 4, 0xFF, 0x0, 0x0, 0x0, 0x0⟩,
  ⟨0x0D044, 1, 4, 0x0, 0x0, 0x0, 0x0, 0x0⟩,
  ⟨0x0D048, 1, 4, 0x0, 0x0, 0x0, 0x0, 0x0⟩,
  ⟨0x0D04C, 1, 4, 0xFFFFFFFF, 0x0, 0x0, 0x0, 0x0⟩,
  ⟨0x0D050, 1, 4, 0xFFFF, 0x0, 0x0, 0x0, 0x0⟩,
  ⟨0x0D054, 1, 4, 0xFFFFFFFF, 0x0, 0x0, 0x0, 0x0⟩,
  ⟨0x0D058, 1, 4, 0xFFFFFFFF, 0x0, 0x0, 0x0, 0x0⟩,
  ⟨0x0D05C, 1, 4, 0x0, 0x0, 0x0, 0x3, 0x0⟩,
  ⟨0x0D060, 1, 4, 0x0, 0x0, 0xFFFF, 0x0, 0x0⟩,
  ⟨0x0D064, 1, 4, 0x0, 0x0, 0xFFFF, 0x0, 0x0⟩,
  ⟨0x0D100, 16, 16, 0xFFFFFFFF, 0x0, 0x0, 0x0, 0x0⟩,
  ⟨0x0D104, 16, 16, 0xFFFF, 0x0, 0x0, 0x0, 0x0⟩,
  ⟨0x0D108, 16, 16, 0xFFFF7F3F, 0x0, 0x0, 0x0, 0x0⟩,
  ⟨0x0D10C, 16, 16, 0xFFFF, 0x0, 0x0, 0x0, 0x0⟩,
  ⟨0x0D200, 4, 8, 0xFFFF003F, 0x0, 0x0, 0x0, 0x10⟩,
  ⟨0x0D204, 4, 8, 0x3FFFFF, 0x0, 0x0, 0x0, 0x1⟩,
  ⟨0x0D240, 2, 4, 0xFFFF073F, 0x0, 0x0, 0x0, 0x10010⟩]

/-- Table Regions-6. -/
def roiRows : List RegRow := [
  ⟨0x0E000, 1, 4, 0x37, 0x0, 0x0, 0x0, 0x0⟩,
  ⟨0x0E004, 1, 4, 0xFFFF7FFF, 0x0, 0x0, 0x0, 0x0⟩,
  ⟨0x0E008, 1, 4, 0xFFF00000, 0x0, 0x0, 0x0, 0x0⟩,
  ⟨0x0E00C, 1, 4, 0xFFFF, 0x0, 0x0, 0x0, 0x0⟩,
  ⟨0x0E010, 1, 4, 0xFFFF000F, 0x0, 0x0, 0x0, 0x4⟩,
  ⟨0x0E014, 1, 4, 0xFFFF, 0x0, 0x0, 0x0, 0xC8⟩,
  ⟨0x0E018, 1, 4, 0xFFFFFFFF, 0x0, 0x0, 0x0, 0x0⟩,
  ⟨0x0E01C, 1, 4, 0xF0FFF, 0x0, 0x0, 0x0, 0x100⟩,
  ⟨0x0E020, 8, 4, 0x71F3F, 0x0, 0x0, 0x0, 0x40410⟩,
  ⟨0x0E040, 1, 4, 0xFFFFFFC0, 0x0, 0x0, 0x0, 0x0⟩,
  ⟨0x0E044, 1, 4, 0xFFFF, 0x0, 0x0, 0x0, 0x0⟩,
  ⟨0x0E060, 1, 4, 0xFF, 0x0, 0x0, 0x0, 0x0⟩,
  ⟨0x0E064, 1, 4, 0xFFFFFFFF, 0x0, 0x0, 0x0, 0x0⟩,
  ⟨0x0E068, 1, 4, 0xFFFFFFFF, 0x0, 0x0, 0x0, 0x0⟩,
  ⟨0x0E06C, 1, 4, 0xFFFFFFFF, 0x0, 0x0, 0x0, 0x0⟩,
  ⟨0x0E070, 1, 4, 0xFFFFFFFF, 0x0, 0x0, 0x0, 0x0⟩,
  ⟨0x0E074, 1, 4, 0x0, 0x0, 0x0, 0x7, 0x0⟩,
  ⟨0x0E078, 1, 4, 0x0, 0x0, 0x0, 0x0, 0x0⟩,
  ⟨0x0E080, 1, 4, 0x0, 0x0, 0xFFFF, 0x0, 0x0⟩,
  ⟨0x0E084, 1, 4, 0x0, 0x0, 0xFFFFFFFF, 0x0, 0x0⟩,
  ⟨0x0E088, 1, 4, 0x0, 0x0, 0xFFFFFFFF, 0x0, 0x0⟩,
  ⟨0x0E08C, 1, 4, 0x0, 0x0, 0xFFFFFFFF, 0x0, 0x0⟩,
  ⟨0x0E090, 1, 4, 0x0, 0x0, 0xFFFFFFFF, 0x0, 0x0⟩,
  ⟨0x0E094, 1, 4, 0x0, 0x0, 0xFFFFFFFF, 0x0, 0x0⟩,
  ⟨0x0E0A0, 1, 4, 0xFFFFFFC0, 0x0, 0x0, 0x0, 0x0⟩,
  ⟨0x0E0A4, 1, 4, 0xFFFFFFFF, 0x0, 0x0, 0x0, 0x0⟩,
  ⟨0x0E0A8, 1, 4, 0x0, 0x0, 0x0, 0x31, 0x0⟩,
  ⟨0x0E0AC, 1, 4, 0x0, 0x0, 0x0, 0x0, 0x0⟩]

/-- Table Weigh-9. -/
def wfeRows : List RegRow := [
  ⟨0x10000, 1, 4, 0x1F, 0x0, 0x0, 0x0, 0x10⟩,
  ⟨0x10004, 1, 4, 0x3FFFFF, 0x0, 0x0, 0x0, 0x1E8480⟩,
  ⟨0x10008, 1, 4, 0x0, 0x0, 0x0, 0xF, 0x0⟩,
  ⟨0x1000C, 1, 4, 0x0, 0x0, 0x0, 0x0, 0x240⟩,
  ⟨0x10010, 1, 4, 0x0, 0x0, 0xFFFF, 0x0, 0x0⟩,
  ⟨0x10014, 1, 4, 0xFF00FF, 0x0, 0x0, 0x0, 0x0⟩,
  ⟨0x10018, 1, 4, 0x3FFF3FFF, 0x0, 0x0, 0x0, 0x7D007D⟩,
  ⟨0x1001C, 1, 4, 0x0, 0x0, 0xFFFF, 0x0, 0x0⟩,
  ⟨0x10020, 1, 4, 0xFFFFFF01, 0x0, 0x0, 0x0, 0x100000⟩,
  ⟨0x10024, 1, 4, 0x0, 0x10000, 0xFFFF, 0x0, 0x0⟩,
  ⟨0x10028, 1, 4, 0x0, 0x0, 0x0, 0x0, 0x0⟩,
  ⟨0x1002C, 1, 4, 0xF1, 0x0, 0x0, 0x0, 0x0⟩,
  ⟨0x10030, 1, 4, 0xFFFFFFFF, 0x0, 0x0, 0x0, 0x0⟩,
  ⟨0x10034, 1, 4, 0xFFFFFFFF, 0x0, 0x0, 0x0, 0x0⟩,
  ⟨0x10038, 1, 4, 0x7FFFFFFF, 0x0, 0x0, 0x0, 0x78000000⟩,
  ⟨0x1003C, 1, 4, 0x0, 0xFF, 0x0, 0x0, 0x0⟩,
  ⟨0x10040, 2, 32, 0x0, 0x0, 0x3, 0x0, 0x0⟩,
  ⟨0x10044, 2, 32, 0x0, 0x0, 0x0, 0x0, 0x0⟩,
  ⟨0x10048, 2, 32, 0x0, 0x0, 0x0, 0x0, 0x0⟩,
  ⟨0x1004C, 2, 32, 0x0, 0x0, 0x0, 0x0, 0x0⟩,
  ⟨0x10050, 2, 32, 0x0, 0x0, 0x0, 0x0, 0x0⟩,
  ⟨0x10080, 1, 4, 0x0, 0x0, 0x0, 0x0, 0x0⟩,
  ⟨0x10084, 1, 4, 0x0, 0x0, 0x0, 0x0, 0x0⟩,
  ⟨0x10088, 1, 4, 0x0, 0x0, 0x0, 0x0, 0x0⟩,
  ⟨0x1008C, 1, 4, 0x0, 0x0, 0x0, 0x0, 0x0⟩,
  ⟨0x10090, 1, 4, 0x0, 0x0, 0xFFFF, 0x0, 0x0⟩,
  ⟨0x10100, 32, 4, 0xFFFFFF, 0x0, 0x0, 0x0, 0x0⟩,
  ⟨0x10180, 8, 4, 0x3, 0x0, 0x0, 0x0, 0x0⟩,
  ⟨0x10200, 24, 8, 0x0, 0x0, 0x0, 0x0, 0x0⟩,
  ⟨0x10204, 24, 8, 0x0, 0x0, 0x0, 0x0, 0x40000000⟩,
  ⟨0x10400, 32, 32, 0x0, 0x0, 0x0, 0x0, 0x0⟩,
  ⟨0x10404, 32, 32, 0x0, 0x0, 0x0, 0x0, 0x0⟩,
  ⟨0x10408, 32, 32, 0x0, 0x0, 0x0, 0x0, 0x0⟩,
  ⟨0x1040C, 32, 32, 0x0, 0x0, 0x0, 0x0, 0x0⟩]

/-- Table Plait-5. -/
def plaitRows : List RegRow := [
  ⟨0x30000, 1, 4, 0x1, 0x0, 0x0, 0x0, 0x1⟩,
  ⟨0x30008, 1, 4, 0x0, 0x0, 0xFFFF, 0x0, 0x0⟩,
  ⟨0x30010, 1, 4, 0x0, 0x0, 0xFFFFFFFF, 0x0, 0x0⟩,
  ⟨0x30014, 1, 4, 0x0, 0x0, 0xFFFFFFFF, 0x0, 0x0⟩,
  ⟨0x30018, 1, 4, 0x0, 0x0, 0xFFFFFFFF, 0x0, 0x0⟩,
  ⟨0x3001C, 1, 4, 0x0, 0x0, 0xFFFF, 0x0, 0x0⟩,
  ⟨0x30040, 4, 8, 0xFFFFF001, 0x0, 0x0, 0x0, 0x0⟩,
  ⟨0x30044, 4, 8, 0xFFFFF000, 0x0, 0x0, 0x0, 0x0⟩]

/-- Tables Requests-7, Phases-10 and Tokens-6. -/
def serveRows : List RegRow := [
  ⟨0x38000, 1, 4, 0x3, 0x0, 0x0, 0x0, 0x0⟩,
  ⟨0x38004, 1, 4, 0xFFFFFFFF, 0x0, 0x0, 0x0, 0x0⟩,
  ⟨0x38008, 1, 4, 0xFFFFFFF, 0x0, 0x0, 0x0, 0x214001E⟩,
  ⟨0x3800C, 1, 4, 0xFFFF, 0x0, 0x0, 0x0, 0x3E8⟩,
  ⟨0x38010, 1, 4, 0x1FF, 0x0, 0x0, 0x0, 0x20⟩,
  ⟨0x38014, 1, 4, 0xFFFF, 0x0, 0x0, 0x0, 0x2710⟩,
  ⟨0x38018, 1, 4, 0x0, 0x0, 0xFFFF, 0x0, 0x0⟩,
  ⟨0x3801C, 1, 4, 0x0, 0x0, 0x0, 0x0, 0x1000⟩,
  ⟨0x38020, 1, 4, 0x0, 0x0, 0x0, 0x0, 0x0⟩,
  ⟨0x38024, 1, 4, 0x0, 0x0, 0xFFFFFFFF, 0x0, 0x0⟩,
  ⟨0x38030, 1, 4, 0xFFFFF000, 0x0, 0x0, 0x0, 0x0⟩,
  ⟨0x38034, 1, 4, 0xFFFF, 0x0, 0x0, 0x0, 0x0⟩,
  ⟨0x38038, 1, 4, 0xFFFFF, 0x0, 0x0, 0x0, 0x0⟩,
  ⟨0x3803C, 1, 4, 0x0, 0x0, 0x0, 0x0, 0x0⟩,
  ⟨0x38100, 1, 4, 0xFFF, 0x0, 0x0, 0x0, 0x0⟩,
  ⟨0x38104, 1, 4, 0x0, 0x0, 0x0, 0x1, 0x0⟩,
  ⟨0x38110, 16, 4, 0x0, 0x0, 0x0, 0x0, 0x0⟩,
  ⟨0x38180, 1, 4, 0xFFF, 0x0, 0x0, 0x0, 0x0⟩,
  ⟨0x38184, 1, 4, 0x0, 0x0, 0x0, 0x0, 0x1⟩,
  ⟨0x38188, 1, 4, 0x0, 0x0, 0x0, 0x0, 0xFFFFFFFF⟩,
  ⟨0x3818C, 1, 4, 0x0, 0x0, 0x0, 0x0, 0x0⟩,
  ⟨0x38040, 1, 4, 0x0, 0x0, 0x0, 0x0, 0x0⟩,
  ⟨0x38044, 1, 4, 0x0, 0x0, 0x0, 0x0, 0x0⟩,
  ⟨0x38048, 1, 4, 0x0, 0x0, 0x0, 0x0, 0x0⟩,
  ⟨0x3804C, 1, 4, 0x0, 0x0, 0x0, 0x0, 0x0⟩,
  ⟨0x38050, 1, 4, 0x1, 0x0, 0x0, 0x0, 0x0⟩,
  ⟨0x38054, 1, 4, 0x0, 0x0, 0xFFFF, 0x0, 0x0⟩,
  ⟨0x38058, 1, 4, 0xFFFFF000, 0x0, 0x0, 0x0, 0x0⟩,
  ⟨0x3805C, 1, 4, 0xFFFF, 0x0, 0x0, 0x0, 0x0⟩,
  ⟨0x38060, 1, 4, 0xFFFFF, 0x0, 0x0, 0x0, 0x0⟩,
  ⟨0x38064, 1, 4, 0x0, 0x0, 0x0, 0x0, 0x0⟩,
  ⟨0x38068, 1, 4, 0xFFFF03FF, 0x0, 0x0, 0x0, 0x27100000⟩,
  ⟨0x3806C, 1, 4, 0xFFFFFFFF, 0x0, 0x0, 0x0, 0x0⟩,
  ⟨0x38070, 1, 4, 0xFFFFF000, 0x0, 0x0, 0x0, 0x0⟩,
  ⟨0x38074, 1, 4, 0xFFFF, 0x0, 0x0, 0x0, 0x0⟩,
  ⟨0x38078, 1, 4, 0xFFFFF, 0x0, 0x0, 0x0, 0x0⟩,
  ⟨0x38080, 1, 4, 0xFFFFF000, 0x0, 0x0, 0x0, 0x0⟩,
  ⟨0x38084, 1, 4, 0xFFFFFFFF, 0x0, 0x0, 0x0, 0x0⟩,
  ⟨0x38088, 1, 4, 0xFFF000F, 0x0, 0x0, 0x0, 0x8⟩,
  ⟨0x3808C, 1, 4, 0x0, 0x0, 0x0, 0x1, 0x0⟩,
  ⟨0x38090, 1, 4, 0x0, 0x0, 0x0, 0x0, 0x0⟩,
  ⟨0x38094, 1, 4, 0x0, 0x0, 0x0, 0x0, 0x0⟩,
  ⟨0x38098, 1, 4, 0x0, 0x0, 0x0, 0x0, 0x0⟩,
  ⟨0x380A0, 1, 4, 0xFFFFF000, 0x0, 0x0, 0x0, 0x0⟩,
  ⟨0x380A4, 1, 4, 0xFFFF, 0x0, 0x0, 0x0, 0x0⟩,
  ⟨0x380A8, 1, 4, 0xFFFFF, 0x0, 0x0, 0x0, 0x0⟩,
  ⟨0x380AC, 1, 4, 0x0, 0x0, 0x0, 0x0, 0x0⟩,
  ⟨0x380B0, 1, 4, 0xFF, 0x0, 0x0, 0x0, 0x0⟩,
  ⟨0x380B4, 1, 4, 0x0, 0x0, 0x0, 0x0, 0x0⟩]

/-- Table Faults-5. -/
def faultRows : List RegRow := [
  ⟨0x40000, 1, 4, 0xFF, 0x0, 0x0, 0x0, 0x8⟩,
  ⟨0x40004, 1, 4, 0x0, 0x0, 0x0, 0x0, 0xFF00⟩,
  ⟨0x40008, 1, 4, 0x0, 0x0, 0xFFFF, 0x0, 0x0⟩,
  ⟨0x4000C, 1, 4, 0x0, 0x0, 0x0, 0x0, 0x0⟩,
  ⟨0x40010, 1, 4, 0x0, 0x0, 0x0, 0x0, 0x0⟩,
  ⟨0x40014, 1, 4, 0xF, 0x0, 0x0, 0x0, 0x0⟩,
  ⟨0x40018, 1, 4, 0x0, 0x0, 0x0, 0x1, 0x0⟩,
  ⟨0x40020, 8, 4, 0x0, 0x0, 0x0, 0x0, 0x0⟩]

/-- Table Power-8. -/
def thermRows : List RegRow := [
  ⟨0x48000, 1, 4, 0xFF01, 0x0, 0x0, 0x0, 0x3C00⟩,
  ⟨0x48004, 1, 4, 0xFFFFFF, 0x0, 0x0, 0x0, 0x78695F⟩,
  ⟨0x48008, 1, 4, 0xFFFFFF, 0x0, 0x0, 0x0, 0x5A4441⟩,
  ⟨0x4800C, 1, 4, 0x0, 0x0, 0x0, 0x0, 0x0⟩,
  ⟨0x48010, 1, 4, 0x0, 0x0, 0xFFFF, 0x0, 0x0⟩,
  ⟨0x48014, 1, 4, 0x0, 0x0, 0x0, 0x0, 0x0⟩,
  ⟨0x48018, 1, 4, 0x0, 0x0, 0xFFFF, 0x0, 0x0⟩,
  ⟨0x48020, 4, 4, 0x0, 0x0, 0x0, 0x0, 0x0⟩,
  ⟨0x48030, 8, 4, 0x0, 0x0, 0x0, 0x0, 0x0⟩]

/-- Tables Arrays-10, Approx-4 and Scratch-5, by offset in the core. -/
def coreRows : List RegRow := [
  ⟨0x00800, 1, 4, 0xFFF0001, 0x0, 0x0, 0x0, 0x0⟩,
  ⟨0x00804, 1, 4, 0x0, 0x0, 0x0, 0x0, 0x0⟩,
  ⟨0x00810, 1, 4, 0xFFFFFFFF, 0x0, 0x0, 0x0, 0x0⟩,
  ⟨0x00814, 1, 4, 0xFFFFFFFF, 0x0, 0x0, 0x0, 0xB0000000⟩,
  ⟨0x00820, 4, 8, 0xFFFFFFFF, 0x0, 0x0, 0x0, 0x0⟩,
  ⟨0x00824, 4, 8, 0xFFFFFFFF, 0x0, 0x0, 0x0, 0xB0000000⟩,
  ⟨0x00840, 1, 4, 0x0, 0x0, 0xFFFF, 0x0, 0x0⟩,
  ⟨0x00844, 1, 4, 0x0, 0x0, 0xFFFFFFFF, 0x0, 0x0⟩,
  ⟨0x00848, 1, 4, 0x0, 0x0, 0x0, 0x0, 0x0⟩,
  ⟨0x0084C, 1, 4, 0x0, 0x0, 0x0, 0x0, 0x0⟩,
  ⟨0x00900, 32, 16, 0xB7FF07FF, 0x0, 0x0, 0x0, 0x0⟩,
  ⟨0x00904, 32, 16, 0x0, 0x0, 0x0, 0x0, 0x0⟩,
  ⟨0x00908, 32, 16, 0x0, 0x0, 0x0, 0x0, 0x0⟩,
  ⟨0x00000, 1, 4, 0x1, 0x0, 0x0, 0x0, 0x1⟩,
  ⟨0x00004, 1, 4, 0x0, 0x0, 0x0, 0x0, 0x40⟩,
  ⟨0x00008, 1, 4, 0x0, 0x0, 0xFFFF, 0x0, 0x0⟩,
  ⟨0x00010, 4, 16, 0x0, 0x0, 0x0, 0x0, 0x0⟩,
  ⟨0x00014, 4, 16, 0x0, 0x0, 0xFFFF, 0x0, 0x0⟩,
  ⟨0x00018, 4, 16, 0x0, 0x0, 0x0, 0x0, 0x0⟩,
  ⟨0x0001C, 4, 16, 0x0, 0x0, 0xFFFFFFFF, 0x0, 0x0⟩,
  ⟨0x00050, 1, 4, 0x0, 0x0, 0x0, 0x0, 0x0⟩,
  ⟨0x00100, 1, 4, 0xF1F0F1F, 0x0, 0x0, 0x0, 0x80000⟩,
  ⟨0x00104, 1, 4, 0x1F, 0x0, 0x0, 0x0, 0x11⟩,
  ⟨0x00108, 1, 4, 0x0, 0x0, 0x0, 0x0, 0x0⟩,
  ⟨0x0010C, 1, 4, 0xFFFF, 0x0, 0x0, 0x0, 0x8000⟩,
  ⟨0x00110, 1, 4, 0x0, 0x0, 0x0, 0x0, 0x0⟩,
  ⟨0x00114, 1, 4, 0x0, 0x0, 0xFFFFFFFF, 0x0, 0x0⟩,
  ⟨0x00118, 1, 4, 0x0, 0x0, 0x0, 0x0, 0x0⟩,
  ⟨0x0011C, 1, 4, 0x0, 0x0, 0x0, 0x0, 0x0⟩,
  ⟨0x00120, 1, 4, 0x0, 0x0, 0x0, 0x0, 0x0⟩,
  ⟨0x00124, 1, 4, 0x0, 0x0, 0x0, 0x0, 0x0⟩,
  ⟨0x00128, 1, 4, 0x0, 0x0, 0x0, 0x0, 0x0⟩,
  ⟨0x0012C, 1, 4, 0x0, 0x0, 0xFFFFFFFF, 0x0, 0x0⟩,
  ⟨0x00130, 1, 4, 0x0, 0x0, 0xFFFF, 0x0, 0x0⟩,
  ⟨0x00134, 1, 4, 0xFFFF, 0x0, 0x0, 0x0, 0x0⟩,
  ⟨0x00140, 40, 4, 0x0, 0x0, 0x0, 0x0, 0x0⟩]

/-- The rows of the block that claims offset `off` (Table Index-1), with the offset that the rows use: relative
to the core for CORE n, absolute for the others. -/
def blockOf (off : Nat) : List RegRow × Nat :=
  if off < 0x1000 then (idRows, off)
  else if off < 0x2000 then (clkRows, off)
  else if off < 0x3000 then (timeRows, off)
  else if off < 0x4000 then (pwrRows, off)
  else if off < 0x5000 then (fuseRows, off)
  else if off < 0x6000 then (bootRows, off)
  else if off < 0x7000 then (hostRows, off)
  else if off < 0x8000 then ([], off)
  else if off < 0x9000 then (withyRows, off)
  else if off < 0xA000 then ([], off)
  else if off < 0xB000 then (winRows, off)
  else if off < 0xC000 then ([], off)
  else if off < 0xD000 then (pixRows, off)
  else if off < 0xE000 then (fieldRows, off)
  else if off < 0xF000 then (roiRows, off)
  else if off < 0x10000 then ([], off)
  else if off < 0x11000 then (wfeRows, off)
  else if off < 0x20000 then ([], off)
  else if off < 0x30000 then (coreRows, off % 0x1000)
  else if off < 0x31000 then (plaitRows, off)
  else if off < 0x38000 then ([], off)
  else if off < 0x39000 then (serveRows, off)
  else if off < 0x40000 then ([], off)
  else if off < 0x41000 then (faultRows, off)
  else if off < 0x48000 then ([], off)
  else if off < 0x49000 then (thermRows, off)
  else ([], off)

/-- Row `r` holds the register at `off`. -/
def RegRow.holds (r : RegRow) (off : Nat) : Bool :=
  r.base ≤ off && (off - r.base) % r.stride == 0 && (off - r.base) / r.stride < r.count

/-- The register row that claims `off`; none for an unclaimed offset (R7, R351). -/
def regRow (off : Nat) : Option RegRow :=
  let (rows, o) := blockOf off
  rows.find? (fun r => r.holds o)

/-- The reset value of the register at `off`; zero for an unclaimed offset. -/
def resetVal (off : Nat) : Word :=
  match regRow off with
  | some r => BitVec.ofNat 32 r.rst
  | none => 0

/-- The stored word of the register at `off`. -/
def State.reg (s : State) (off : Nat) : Word := smGet (resetVal off) s.regs off

/-- `s` with the stored word of the register at `off` set. -/
def State.setReg (s : State) (off : Nat) (w : Word) : State :=
  { s with regs := smSet (resetVal off) s.regs off w }

/-- Field [lo+len-1:lo] of the stored word at `off`. -/
def State.fld (s : State) (off lo len : Nat) : Nat := (s.reg off).toNat >>> lo % 2 ^ len

/-- Bit `i` of the stored word at `off`. -/
def State.flag (s : State) (off i : Nat) : Bool := (s.reg off).getLsbD i

/-- `s` with field [lo+len-1:lo] of the register at `off` set to `v`. -/
def State.setFld (s : State) (off lo len v : Nat) : State := s.setReg off (putBits (s.reg off) lo len v)

/-- `s` with bit `i` of the register at `off` set to `b`. -/
def State.setFlag (s : State) (off i : Nat) (b : Bool) : State := s.setFld off i 1 b.toNat

/-- RC and W1C bits of the register at `off`. -/
def onceMask (off : Nat) : Word :=
  match regRow off with
  | some r => BitVec.ofNat 32 (r.rc ||| r.w1c)
  | none => 0

/-- What hardware sets of this cycle did to the register at `off`: the word before them, and what they make of a clear
word (R5, R6). -/
def State.setNow (s : State) (off : Nat) : Option (Word × Word) :=
  (s.sets.find? (fun p => p.1 == off)).map (fun p => p.2)

/-- The record of this cycle's sets of a register is dropped. -/
def State.dropSets (s : State) (off : Nat) : State := { s with sets := s.sets.filter (fun p => p.1 != off) }

/-- Hardware sets fields of the register at `off`, as `f` gives: the set stands in the register, and is kept apart for a
read or a clear of the same cycle (R5, R6). -/
def State.hwSet (s : State) (off : Nat) (f : Word → Word) : State :=
  let old := s.reg off
  let kept := match s.setNow off with
    | some (b, x) => (b, f x)
    | none => (old, f (old &&& ~~~(onceMask off)))
  let t := (s.setReg off (f old)).dropSets off
  { t with sets := (off, kept) :: t.sets }

/-- A counter of `len` bits at bit `lo` of the register at `off` counts `n` more and saturates. -/
def State.bumpAt (s : State) (off lo len n : Nat) : State :=
  s.hwSet off (fun w => putBits w lo len (min (bits w lo len + n) (2 ^ len - 1)))

/-- A counter of `len` bits at the foot of the register at `off` counts `n` more and saturates. -/
def State.bumpSat (s : State) (off len n : Nat) : State := s.bumpAt off 0 len n

namespace Reg


/-! Table Time-4. -/

def clkCoreCfg : Nat := 0x01000
def clkCmd : Nat := 0x01004
def clkStatus : Nat := 0x01008
def clkErr : Nat := 0x0100C
def clkAclkPpm : Nat := 0x01010
def clkLossCnt : Nat := 0x01014

/-! Table Time-5. -/

def timeNowLo : Nat := 0x02000
def timeNowHi : Nat := 0x02004
def timeNowFrac : Nat := 0x02008
def timeSetLo : Nat := 0x02010
def timeSetHi : Nat := 0x02014
def timeCmd : Nat := 0x02018
def timeBeatLen : Nat := 0x02020
def timeBeatEpochLo : Nat := 0x02028
def timeBeatEpochHi : Nat := 0x0202C
def timeBeatNumLo : Nat := 0x02030
def timeBeatNumHi : Nat := 0x02034
def timeBeatStampLo : Nat := 0x02038
def timeBeatStampHi : Nat := 0x0203C
def timeAlign : Nat := 0x02040
def timeErr : Nat := 0x02044
def timeAonInc : Nat := 0x02048

/-! Table Withy-10. -/

def withyId : Nat := 0x08000
def withyBasket : Nat := 0x08004
def withyJoinCfg : Nat := 0x08008
def withyJoinStatus : Nat := 0x0800C
def withyCrypt : Nat := 0x08010
def withyCmd : Nat := 0x08014
def withyTopo : Nat := 0x08018
def withyErr : Nat := 0x0801C
def withyPCfg (i : Nat) : Nat := 0x08040 + i * 0x20
def withyPStatus (i : Nat) : Nat := 0x08044 + i * 0x20
def withyPErrcnt (i : Nat) : Nat := 0x08048 + i * 0x20
def withyPReplay (i : Nat) : Nat := 0x0804C + i * 0x20
def withyPEpoch (i : Nat) : Nat := 0x08050 + i * 0x20
def withyPCtrLo (i : Nat) : Nat := 0x08054 + i * 0x20
def withyPCtrHi (i : Nat) : Nat := 0x08058 + i * 0x20
def withyRoute (i : Nat) : Nat := 0x08100 + i * 0x4
def withyFwdTgt : Nat := 0x08200
def withyFwdOfs : Nat := 0x08204
def withyFwdData : Nat := 0x08208
def withyFwdCmd : Nat := 0x0820C
def withyFwdStatus : Nat := 0x08210

/-! Table Withy-11. -/

def winBaseLo (i : Nat) : Nat := 0x0A000 + i * 0x20
def winBaseHi (i : Nat) : Nat := 0x0A004 + i * 0x20
def winSize (i : Nat) : Nat := 0x0A008 + i * 0x20
def winSrcLo (i : Nat) : Nat := 0x0A00C + i * 0x20
def winSrcHi (i : Nat) : Nat := 0x0A010 + i * 0x20
def winCtl (i : Nat) : Nat := 0x0A014 + i * 0x20
def winHits (i : Nat) : Nat := 0x0A018 + i * 0x20
def winErr : Nat := 0x0A400
def winRefused : Nat := 0x0A404

/-! Table Host-11. -/

def hostCtl : Nat := 0x06000
def hostPoll : Nat := 0x06004
def hostDbBaseLo : Nat := 0x06008
def hostDbBaseHi : Nat := 0x0600C
def hostRecBaseLo : Nat := 0x06010
def hostRecBaseHi : Nat := 0x06014
def hostRecCfg : Nat := 0x06018
def hostEvtCfg : Nat := 0x0601C
def hostWaitLimit : Nat := 0x06020
def hostStatus : Nat := 0x06024
def hostErr : Nat := 0x06028
def hostRecLost : Nat := 0x0602C
def hostDbFails : Nat := 0x06030
def hostEvtLost : Nat := 0x06034
def hostRingSqLo (i : Nat) : Nat := 0x06100 + i * 0x20
def hostRingSqHi (i : Nat) : Nat := 0x06104 + i * 0x20
def hostRingCqLo (i : Nat) : Nat := 0x06108 + i * 0x20
def hostRingCqHi (i : Nat) : Nat := 0x0610C + i * 0x20
def hostRingCfg (i : Nat) : Nat := 0x06110 + i * 0x20
def hostRingStatus (i : Nat) : Nat := 0x06114 + i * 0x20
def hostRingSqpos (i : Nat) : Nat := 0x06118 + i * 0x20
def hostRingCqpos (i : Nat) : Nat := 0x0611C + i * 0x20

/-! Table Pix-9. -/

def pixCtl : Nat := 0x0C000
def pixCmd : Nat := 0x0C004
def pixStatus : Nat := 0x0C008
def pixErr : Nat := 0x0C00C
def pixTrigBusy : Nat := 0x0C010
def pixTrigMissed : Nat := 0x0C014
def pixFrames : Nat := 0x0C018
def pixDarkBaseLo : Nat := 0x0C020
def pixDarkBaseHi : Nat := 0x0C024
def pixSMode (i : Nat) : Nat := 0x0C040 + i * 0x10
def pixSExp (i : Nat) : Nat := 0x0C044 + i * 0x10
def pixSDelay (i : Nat) : Nat := 0x0C048 + i * 0x10
def pixWX (i : Nat) : Nat := 0x0C100 + i * 0x8
def pixWY (i : Nat) : Nat := 0x0C104 + i * 0x8

/-! Table Pix-10. -/

def fieldInCfg (i : Nat) : Nat := 0x0D000 + i * 0x4
def fieldInState : Nat := 0x0D020
def fieldEvqInfo : Nat := 0x0D024
def fieldEvqTimeLo : Nat := 0x0D028
def fieldEvqTimeHi : Nat := 0x0D02C
def fieldEvqTimeFrac : Nat := 0x0D030
def fieldEvqPosLo : Nat := 0x0D034
def fieldEvqPosHi : Nat := 0x0D038
def fieldEvqLost : Nat := 0x0D03C
def fieldEncCfg : Nat := 0x0D040
def fieldEncPosLo : Nat := 0x0D044
def fieldEncPosHi : Nat := 0x0D048
def fieldEncPresetLo : Nat := 0x0D04C
def fieldEncPresetHi : Nat := 0x0D050
def fieldEncAtLo : Nat := 0x0D054
def fieldEncAtHi : Nat := 0x0D058
def fieldEncCmd : Nat := 0x0D05C
def fieldEncErr : Nat := 0x0D060
def fieldErr : Nat := 0x0D064
def fieldMatchLo (i : Nat) : Nat := 0x0D100 + i * 0x10
def fieldMatchHi (i : Nat) : Nat := 0x0D104 + i * 0x10
def fieldMatchCfg (i : Nat) : Nat := 0x0D108 + i * 0x10
def fieldMatchCnt (i : Nat) : Nat := 0x0D10C + i * 0x10
def fieldStbCfg (i : Nat) : Nat := 0x0D200 + i * 0x8
def fieldStbWidth (i : Nat) : Nat := 0x0D204 + i * 0x8
def fieldSyncCfg (i : Nat) : Nat := 0x0D240 + i * 0x4

/-! Table Regions-6. -/

def roiCtl : Nat := 0x0E000
def roiDefault : Nat := 0x0E004
def roiCropBaseLo : Nat := 0x0E008
def roiCropBaseHi : Nat := 0x0E00C
def roiCropCfg : Nat := 0x0E010
def roiMargin : Nat := 0x0E014
def roiViewOfs : Nat := 0x0E018
def roiProfCfg : Nat := 0x0E01C
def roiClass (i : Nat) : Nat := 0x0E020 + i * 0x4
def roiTriBaseLo : Nat := 0x0E040
def roiTriBaseHi : Nat := 0x0E044
def roiRuleSel : Nat := 0x0E060
def roiRuleData0 : Nat := 0x0E064
def roiRuleData1 : Nat := 0x0E068
def roiRuleData2 : Nat := 0x0E06C
def roiRuleData3 : Nat := 0x0E070
def roiRuleCmd : Nat := 0x0E074
def roiRuleStatus : Nat := 0x0E078
def roiErr : Nat := 0x0E080
def roiUnmatched : Nat := 0x0E084
def roiCropFullCnt : Nat := 0x0E088
def roiEntryBad : Nat := 0x0E08C
def roiLabelDrop : Nat := 0x0E090
def roiMultipeak : Nat := 0x0E094
def roiDiagBufLo : Nat := 0x0E0A0
def roiDiagBufHi : Nat := 0x0E0A4
def roiDiagCmd : Nat := 0x0E0A8
def roiStatus : Nat := 0x0E0AC

/-! Table Weigh-9. -/

def wfeCtl : Nat := 0x10000
def wfeMains : Nat := 0x10004
def wfeCmd : Nat := 0x10008
def wfeStatus : Nat := 0x1000C
def wfeErr : Nat := 0x10010
def wfeSeqCfg : Nat := 0x10014
def wfeCmpCfg : Nat := 0x10018
def wfeStartLost : Nat := 0x1001C
def wfeXchk : Nat := 0x10020
def wfeXchkCnt : Nat := 0x10024
def wfeXchkLast : Nat := 0x10028
def wfeWeightCfg : Nat := 0x1002C
def wfeZero : Nat := 0x10030
def wfeSpan : Nat := 0x10034
def wfeOwLimit : Nat := 0x10038
def wfeOpen : Nat := 0x1003C
def wfeCmpEvt (i : Nat) : Nat := 0x10040 + i * 0x20
def wfeCmpTimeLo (i : Nat) : Nat := 0x10044 + i * 0x20
def wfeCmpTimeHi (i : Nat) : Nat := 0x10048 + i * 0x20
def wfeCmpPosLo (i : Nat) : Nat := 0x1004C + i * 0x20
def wfeCmpPosHi (i : Nat) : Nat := 0x10050 + i * 0x20
def wfeLastWeight : Nat := 0x10080
def wfeLastFlags : Nat := 0x10084
def wfeLastTimeLo : Nat := 0x10088
def wfeLastTimeHi : Nat := 0x1008C
def wfeWqLost : Nat := 0x10090
def wfeEntry (i : Nat) : Nat := 0x10100 + i * 0x4
def wfeChCfg (i : Nat) : Nat := 0x10180 + i * 0x4
def wfeSGOfs (i : Nat) : Nat := 0x10200 + i * 0x8
def wfeSGGc (i : Nat) : Nat := 0x10204 + i * 0x8
def wfeRes (i : Nat) : Nat := 0x10400 + i * 0x20
def wfeRstat (i : Nat) : Nat := 0x10404 + i * 0x20
def wfeRtimeLo (i : Nat) : Nat := 0x10408 + i * 0x20
def wfeRtimeHi (i : Nat) : Nat := 0x1040C + i * 0x20

/-! Table Scratch-5. -/

def coreSpCfg (n : Nat) : Nat := 0x20800 + n * 0x1000
def coreSpStatus (n : Nat) : Nat := 0x20804 + n * 0x1000
def coreSpWheelLo (n : Nat) : Nat := 0x20810 + n * 0x1000
def coreSpWheelHi (n : Nat) : Nat := 0x20814 + n * 0x1000
def coreSpQwheelLo (n i : Nat) : Nat := 0x20820 + n * 0x1000 + i * 0x8
def coreSpQwheelHi (n i : Nat) : Nat := 0x20824 + n * 0x1000 + i * 0x8
def coreSpErr (n : Nat) : Nat := 0x20840 + n * 0x1000
def coreSpCe (n : Nat) : Nat := 0x20844 + n * 0x1000
def coreSpCeAddr (n : Nat) : Nat := 0x20848 + n * 0x1000
def coreSpUeAddr (n : Nat) : Nat := 0x2084C + n * 0x1000
def coreSpRgnCfg (n i : Nat) : Nat := 0x20900 + n * 0x1000 + i * 0x10
def coreSpRgnHead (n i : Nat) : Nat := 0x20904 + n * 0x1000 + i * 0x10
def coreSpRgnTail (n i : Nat) : Nat := 0x20908 + n * 0x1000 + i * 0x10

/-! Table Arrays-10. -/

def coreCtl (n : Nat) : Nat := 0x20000 + n * 0x1000
def coreStatus (n : Nat) : Nat := 0x20004 + n * 0x1000
def coreErr (n : Nat) : Nat := 0x20008 + n * 0x1000
def coreArrayStatus (n i : Nat) : Nat := 0x20010 + n * 0x1000 + i * 0x10
def coreArrayChkCnt (n i : Nat) : Nat := 0x20014 + n * 0x1000 + i * 0x10
def coreArraySeq (n i : Nat) : Nat := 0x20018 + n * 0x1000 + i * 0x10
def coreArrayBubbles (n i : Nat) : Nat := 0x2001C + n * 0x1000 + i * 0x10
def coreFaultPass (n : Nat) : Nat := 0x20050 + n * 0x1000

/-! Table Approx-4. -/

def coreApxCfg (n : Nat) : Nat := 0x20100 + n * 0x1000
def coreApxCap (n : Nat) : Nat := 0x20104 + n * 0x1000
def coreApxStatus (n : Nat) : Nat := 0x20108 + n * 0x1000
def coreApxEbound (n : Nat) : Nat := 0x2010C + n * 0x1000
def coreApxTallyCnt (n : Nat) : Nat := 0x20110 + n * 0x1000
def coreApxTallyEsc (n : Nat) : Nat := 0x20114 + n * 0x1000
def coreApxTallyLast (n : Nat) : Nat := 0x20118 + n * 0x1000
def coreApxTallyMean (n : Nat) : Nat := 0x2011C + n * 0x1000
def coreApxNExact (n : Nat) : Nat := 0x20120 + n * 0x1000
def coreApxNReplay (n : Nat) : Nat := 0x20124 + n * 0x1000
def coreApxNLowbit (n : Nat) : Nat := 0x20128 + n * 0x1000
def coreApxReplays (n : Nat) : Nat := 0x2012C + n * 0x1000
def coreApxForces (n : Nat) : Nat := 0x20130 + n * 0x1000
def coreApxPhase (n : Nat) : Nat := 0x20134 + n * 0x1000
def coreApxPmt (n i : Nat) : Nat := 0x20140 + n * 0x1000 + i * 0x4

/-! Table Plait-5. -/

def plaitCtl : Nat := 0x30000
def plaitErr : Nat := 0x30008
def plaitBlkDec : Nat := 0x30010
def plaitBlkEnc : Nat := 0x30014
def plaitStored : Nat := 0x30018
def plaitFail : Nat := 0x3001C
def plaitProtBase (i : Nat) : Nat := 0x30040 + i * 0x8
def plaitProtLimit (i : Nat) : Nat := 0x30044 + i * 0x8

/-! Table Requests-7. -/

def serveCtl : Nat := 0x38000
def serveDlOfs : Nat := 0x38004
def serveDlCfg : Nat := 0x38008
def serveWindow : Nat := 0x3800C
def serveAdmit : Nat := 0x38010
def serveLinger : Nat := 0x38014
def serveErr : Nat := 0x38018
def serveStatus : Nat := 0x3801C
def serveSeq : Nat := 0x38020
def serveDropped : Nat := 0x38024
def serveAdpPoolLo : Nat := 0x38030
def serveAdpPoolHi : Nat := 0x38034
def serveAdpPoolSize : Nat := 0x38038
def serveAdpStatus : Nat := 0x3803C
def serveReqSel : Nat := 0x38100
def serveReqCmd : Nat := 0x38104
def serveReqData (i : Nat) : Nat := 0x38110 + i * 0x4
def serveTenSel : Nat := 0x38180
def serveTenCfg : Nat := 0x38184
def serveTenBudget : Nat := 0x38188
def serveTenSpent : Nat := 0x3818C

/-! Table Phases-10. -/

def serveStep : Nat := 0x38040
def serveStepNs : Nat := 0x38044
def serveStepNumLo : Nat := 0x38048
def serveStepNumHi : Nat := 0x3804C
def serveStream : Nat := 0x38050
def serveKvReship : Nat := 0x38054
def serveKvPoolLo : Nat := 0x38058
def serveKvPoolHi : Nat := 0x3805C
def serveKvPoolSize : Nat := 0x38060
def serveKvFree : Nat := 0x38064
def serveParkCfg : Nat := 0x38068
def serveParkLow : Nat := 0x3806C
def serveParkPoolLo : Nat := 0x38070
def serveParkPoolHi : Nat := 0x38074
def serveParkPoolSize : Nat := 0x38078
def serveParkHostLo : Nat := 0x38080
def serveParkHostHi : Nat := 0x38084
def serveParkHostCfg : Nat := 0x38088
def serveParkCmd : Nat := 0x3808C
def serveParkStatus : Nat := 0x38090
def serveParkCtrLo : Nat := 0x38094
def serveParkCtrHi : Nat := 0x38098

/-! Table Tokens-6. -/

def serveGrmPoolLo : Nat := 0x380A0
def serveGrmPoolHi : Nat := 0x380A4
def serveGrmPoolSize : Nat := 0x380A8
def serveGrmFree : Nat := 0x380AC
def serveGrmSel : Nat := 0x380B0
def serveGrmInfo : Nat := 0x380B4

/-! Table Faults-5. -/

def faultCtl : Nat := 0x40000
def faultStatus : Nat := 0x40004
def faultErr : Nat := 0x40008
def faultRestarts : Nat := 0x4000C
def faultLastUs : Nat := 0x40010
def faultLogSel : Nat := 0x40014
def faultCmd : Nat := 0x40018
def faultLogData (i : Nat) : Nat := 0x40020 + i * 0x4

/-! Table Power-7. -/

def pwrCmd : Nat := 0x03000
def pwrStatus : Nat := 0x03004
def pwrWakeCfg : Nat := 0x03008
def pwrWakeMaskLo : Nat := 0x0300C
def pwrWakeMaskHi : Nat := 0x03010
def pwrWakeAtLo : Nat := 0x03014
def pwrWakeAtHi : Nat := 0x03018
def pwrErr : Nat := 0x0301C
def pwrWakeUs : Nat := 0x03020
def pwrSleeps : Nat := 0x03024

/-! Table Power-8. -/

def thermCtl : Nat := 0x48000
def thermLimitL : Nat := 0x48004
def thermLimitP : Nat := 0x48008
def thermStatus : Nat := 0x4800C
def thermErr : Nat := 0x48010
def thermMax : Nat := 0x48014
def thermAltCnt : Nat := 0x48018
def thermP (i : Nat) : Nat := 0x48020 + i * 0x4
def thermL (i : Nat) : Nat := 0x48030 + i * 0x4

/-! Table Fuses-7. -/

def fuseCmd : Nat := 0x04000
def fuseWdata : Nat := 0x04004
def fuseRdata : Nat := 0x04008
def fuseStatus : Nat := 0x0400C
def fuseResult : Nat := 0x04010
def fuseErr : Nat := 0x04014
def fuseLifecycle : Nat := 0x04018
def fusePatch : Nat := 0x0401C
def fuseDisagree : Nat := 0x04020

/-! Table Images-11. -/

def bootStatus : Nat := 0x05000
def bootCtl : Nat := 0x05004
def bootCmd : Nat := 0x05008
def bootErr : Nat := 0x0500C
def bootSlotA : Nat := 0x05010
def bootSlotB : Nat := 0x05014
def bootTupleLo : Nat := 0x05018
def bootTupleHi : Nat := 0x0501C
def bootFloor : Nat := 0x05020
def bootFlash : Nat := 0x05024
def bootWeaveId : Nat := 0x05030
def bootWeaveStatus : Nat := 0x05034
def bootWeaveAddrLo : Nat := 0x05038
def bootWeaveAddrHi : Nat := 0x0503C
def bootWeaveLen : Nat := 0x05040
def bootWeaveIdReq : Nat := 0x05044

/-! Table Index-4. -/

def idDevice : Nat := 0x00000
def idSerialLo : Nat := 0x00004
def idSerialHi : Nat := 0x00008
def idStatus : Nat := 0x0000C
def idStraps : Nat := 0x00010
def idErr : Nat := 0x00014

end Reg

end Sys2Proof.Machine
end

