-- ==== Sys2Proof/Machine/Ops.lean ====
section
/-!
DEFINITION. Ops.lean: the operations that every unit shares: identity and mode of the package, ERR registers (R353),
EVENT and completion entries (R78-R82), knots (R83-R85), CTRL words (R59), device memory and poison (R60, R273),
faults and the stop of the weave (R275-R277), and the reset of the domains outside the always-on one (R321).
-/

namespace Sys2Proof.Machine

/-! ### The package -/

/-- `s` with one more thing sent. -/
def State.emit (s : State) (o : Out) : State := { s with out := s.out ++ [o] }

/-- Package number: PKG_ID as sampled at reset release (R14). -/
def State.pkg (s : State) : BitVec 6 := s.power.strap1.setWidth 6

/-- The package is an anchor (R14). -/
def State.anchor (s : State) : Bool := s.power.strap1.getLsbD 6

/-- Belt time in whole nanoseconds. -/
def State.nowNs (s : State) : Nat := s.time.belt.toNat / 65536

/-- Nanoseconds on a scale that a step of belt time does not move. -/
def State.upNs (s : State) : Nat := ((s.time.belt.toNat : Int) - s.time.stepped).toNat / 65536

/-- Belt time in units of 2^-16 ns. -/
def State.nowFp (s : State) : Nat := s.time.belt.toNat

/-- Number of the latest beat that has started (R38); TIME_BEAT_NUM holds one more (R40). -/
def State.beat (s : State) : Nat := s.time.beatNum.toNat - 1

/-- A weave runs on the basket that this package belongs to (also through a restart). -/
def State.weaveRuns (s : State) : Bool := s.weave.run.isSome

/-- A weave runs as R355 reads it: from the judging of a load until the basket is idle again. -/
def State.weaveBusy (s : State) : Bool :=
  s.weave.run.isSome || (match s.weave.load with
    | some l => !l.waits
    | none => false)

/-- The weave's work runs here: a member, outside a restart. -/
def State.weaveActive (s : State) : Bool :=
  s.weave.run.isSome && s.weave.member && s.fault.phase == .running

/-- Lifecycle state code in effect: 0 BLANK to 4 RETIRED (Table Fuses-7). -/
def State.lifecycle (s : State) : Nat := s.fld Reg.fuseLifecycle 0 3

/-- LEVEL in ID_STATUS (R23). -/
def State.level (s : State) : Nat := s.fld Reg.idStatus 0 2

/-- A fuse word as the shadow holds it (R303). -/
def State.shadowWord (s : State) (w : Nat) : Word := smGet 0 s.fuse.shadow w

/-- Bitwise majority of the three copies of a fuse word (R302). -/
def majority3 (a b c : Word) : Word := (a &&& b) ||| (a &&& c) ||| (b &&& c)

/-- A fuse word as the array holds it at the normal margin. -/
def State.fuseWord (s : State) (w : Nat) : Word :=
  majority3 (smGet 0 s.fuse.copies (3 * w)) (smGet 0 s.fuse.copies (3 * w + 1)) (smGet 0 s.fuse.copies (3 * w + 2))

/-- Basket id: fuse word 448; 0xFFFF_FFFF while CUST_OK is clear (R305). -/
def State.basketId (s : State) : Word := if s.flag Reg.fuseStatus 22 then s.fuseWord 448 else 0xFFFFFFFF

/-- The generation tuple: ROM edition, ROM patch generation, steward and withy versions and interface
generations, byte 0 first (03_withy). -/
def State.tuple (s : State) : Nat :=
  3 + s.boot.patchGen.toNat * 2 ^ 8 + s.boot.stewardVer.toNat * 2 ^ 16 + s.boot.stewardIf.toNat * 2 ^ 32
    + s.boot.withyVer.toNat * 2 ^ 40 + s.boot.withyIf.toNat * 2 ^ 56

/-- The home anchor of a package: as the running weave names it, else the principal (R68). -/
def State.homeAnchor (s : State) (p : BitVec 6) : BitVec 6 :=
  match s.weave.run with
  | some d => match d.homes.find? (fun x => x.1 == p) with
    | some x => x.2
    | none => s.basket.principal
  | none => s.basket.principal

/-- The principal anchor of a basket that this package belongs to. -/
def State.actsAlone (s : State) : Bool := !s.basket.joined

/-- MODE of WITHY_CRYPT: 0 OFF, 1 LOOSE, 2 ALL. -/
def State.cryptMode (s : State) : Nat := s.fld Reg.withyCrypt 0 2

/-! ### ERR registers -/

/-- The ERR register that a code is latched in (Table Index-1, R353); `core` matters for CORE codes. -/
def errReg (c : Code) (core : Nat) : Option Nat :=
  match codeBlock c with
  | 0x01 => some Reg.fuseErr
  | 0x02 => some Reg.bootErr
  | 0x03 => some Reg.hostErr
  | 0x04 => some Reg.withyErr
  | 0x05 => some Reg.winErr
  | 0x06 => some Reg.pixErr
  | 0x07 => some Reg.fieldErr
  | 0x08 => some Reg.roiErr
  | 0x09 => some Reg.wfeErr
  | 0x0A => some (if c.toNat ≤ 0x0A0A then Reg.coreSpErr core else Reg.coreErr core)
  | 0x0B => some Reg.plaitErr
  | 0x0C => some Reg.serveErr
  | 0x0D => some Reg.faultErr
  | 0x0E => some Reg.thermErr
  | 0x0F => some Reg.idErr
  | 0x10 => some Reg.clkErr
  | 0x11 => some Reg.timeErr
  | 0x12 => some Reg.pwrErr
  | _ => none

/-- A code below `c` has reached ERR register `r` in this cycle already: the lower value stands (R353). -/
def State.lowerStands (s : State) (r : Nat) (c : Code) : Bool :=
  match s.setNow r with
  | some (_, x) => bits x 0 16 != 0 && decide (bits x 0 16 < c.toNat)
  | none => false

/-- A reported code stands in its ERR register (R353). A stake latches nothing in HOST_ERR; 0x0000 is no report. -/
def latch (c : Code) (core : Nat) (s : State) : State :=
  if c = 0 then s
  else if codeBlock c = 0x03 && !s.anchor then s
  else match errReg c core with
    | some r => if s.lowerStands r c then s else s.hwSet r (fun w => putBits w 0 16 c.toNat)
    | none => s

/-- A refused register write, command or access: the code is latched and nothing else changes. -/
def refuse (c : Code) (s : State) : State := latch c 0 s

/-! ### Ring positions -/

/-- Entries from position `b` to position `a` of a ring of `size` entries; positions are an index in bits
[15:0] and a wrap bit 16 (04_host). -/
def posDist (size : Nat) (a b : BitVec 17) : Nat :=
  let lin (p : BitVec 17) : Nat := bits p 0 16 + (if p.getLsbD 16 then size else 0)
  (lin a + 2 * size - lin b) % (2 * size)

/-- The position after `p`. -/
def posNext (size : Nat) (p : BitVec 17) : BitVec 17 :=
  if bits p 0 16 + 1 < size then p + 1
  else BitVec.ofNat 17 (if p.getLsbD 16 then 0 else 65536)

/-- The position `n` entries after `p`. -/
def posAdd (size : Nat) (p : BitVec 17) : Nat → BitVec 17
  | 0 => p
  | n + 1 => posAdd size (posNext size p) n

/-- Ring pair `i`. -/
def State.ring (s : State) (i : Nat) : Ring := smGet Ring.reset s.host.rings i

/-- `s` with ring pair `i` replaced. -/
def State.setRing (s : State) (i : Nat) (r : Ring) : State :=
  { s with host := { s.host with rings := smSet Ring.reset s.host.rings i r } }

/-- Entries of submission ring `i`. -/
def State.sqSize (s : State) (i : Nat) : Nat := 2 ^ s.fld (Reg.hostRingCfg i) 0 5

/-- Entries of completion ring `i`. -/
def State.cqSize (s : State) (i : Nat) : Nat := 2 ^ s.fld (Reg.hostRingCfg i) 8 5

/-- A 64-bit base from a _LO, _HI pair. -/
def State.pair (s : State) (lo hi : Nat) : Nat := (s.reg lo).toNat + (s.reg hi).toNat * 2 ^ 32

/-- Descriptors of ring pair `i` in flight. -/
def State.inFlight (s : State) (i : Nat) : Nat :=
  (s.host.flights.filter (fun f => match f.origin with | .ring j => j.val == i | _ => false)).length

/-- Free entries of completion ring `i`. -/
def State.cqFree (s : State) (i : Nat) : Nat :=
  s.cqSize i - posDist (s.cqSize i) (s.ring i).write (s.ring i).head

/-! ### MSI-X -/

/-- Vector of the block that decides a code (Table Host-8). -/
def vectorOf (c : Code) : Nat :=
  match codeBlock c with
  | 0x0D => 64
  | 0x0A => 64
  | 0x0B => 64
  | 0x04 => 65
  | 0x05 => 65
  | 0x0E => 66
  | 0x09 => 67
  | 0x12 => 68
  | 0x10 => 68
  | 0x11 => 68
  | 0x02 => 69
  | 0x01 => 69
  | 0x0F => 69
  | 0x0C => 71
  | _ => 70

/-- A message of vector `v` may go out: Bus Master Enable and MSI-X Enable are set, and neither the function nor the vector
is masked (R67, R82; log entry 67). -/
def State.vecOpen (s : State) (v : Nat) : Bool :=
  s.host.bme && s.host.msixOn && !s.host.funcMask && !s.host.vecMask.getLsbD v

/-- Vector `v` fires: the message goes out where it may, else its pending bit is set (R67, R82). -/
def fireVector (v : Nat) (s : State) : State :=
  if s.vecOpen v then s.emit (.msix v)
  else { s with host := { s.host with vecPend := s.host.vecPend ||| BitVec.ofNat 72 (2 ^ v) } }

/-! ### Completion entries -/

/-- One entry is written at the write position of completion ring `i`, with the ring's phase bit (R73, R78);
the vector fires at COAL_CNT + 1 unsignalled entries or at once for an IRQ descriptor (R82). -/
def cqPut (i : Nat) (body : BitVec 256) (irq : Bool) (s : State) : State :=
  let r := s.ring i
  let size := s.cqSize i
  let entry := body ||| (if r.phase then BitVec.ofNat 256 (2 ^ 24) else 0)
  let addr := s.pair (Reg.hostRingCqLo i) (Reg.hostRingCqHi i) + 32 * bits r.write 0 16
  let wrapped := bits r.write 0 16 + 1 ≥ size
  let n := r.unsig + 1
  let fire := s.flag (Reg.hostRingCfg i) 17 && (irq || n > s.fld (Reg.hostRingCfg i) 20 4)
  let r' := { r with write := posNext size r.write, phase := if wrapped then !r.phase else r.phase,
                     unsig := if fire then 0 else n,
                     unsigAt := if fire then none else match r.unsigAt with | some t => some t | none => some s.nowFp }
  let s' := (s.setRing i r').emit (.hostWrite (BitVec.ofNat 64 addr) (leBytes 32 entry.toNat))
  if fire then fireVector i s' else s'

/-- A RECORD, EVENT or TOKENS entry finds a free entry beyond those that the descriptors in flight, or on their way here,
need (R72, R80). -/
def State.cqOpen (s : State) (i : Nat) : Bool :=
  (s.ring i).state == .active && decide (s.inFlight i + (s.ring i).asked < s.cqFree i)

/-- The ring pair of RECORD and TOKENS entries, and of REC_HEAD. -/
def State.recRing (s : State) : Nat := s.fld Reg.hostRecCfg 8 6

/-- The ring pair that a waiting entry is due on. -/
def waitRing (s : State) : Waiting → Nat
  | .event _ => s.fld Reg.hostEvtCfg 0 6
  | _ => s.recRing

/-- A waiting entry can be written: its ring pair has a free entry, and an EVENT is posted only while EN is set (R79,
R80). -/
def State.canPost (s : State) (w : Waiting) : Bool :=
  s.host.bme && s.cqOpen (waitRing s w) && (match w with
    | .event _ => s.flag Reg.hostEvtCfg 8
    | _ => true)

/-- The 32 bytes of a waiting entry, without the phase. -/
def waitBody : Waiting → BitVec 256
  | .record b => b
  | .event b => b
  | .tokens b => b

/-- The first waiting entry that can be written, with the entries left. -/
def takeWaiting (s : State) : List Waiting → Option (Waiting × List Waiting)
  | [] => none
  | w :: l =>
    if s.canPost w then some (w, l)
    else match takeWaiting s l with
      | some (x, r) => some (x, w :: r)
      | none => none

/-- A waiting RECORD, EVENT or final TOKENS entry is written once its ring pair has room (R80). -/
def postWaiting (s : State) : State :=
  match takeWaiting s s.host.waiting with
  | some (w, l) => cqPut (waitRing s w) (waitBody w) false { s with host := { s.host with waiting := l } }
  | none => s

/-- Waiting entries are written as far as there is room: at most `n` of them. -/
def postAll : Nat → State → State
  | 0, s => s
  | n + 1, s => postAll n (postWaiting s)

/-- Every waiting entry that can be written is written (R80). -/
def drainWaiting (s : State) : State := if s.anchor then postAll s.host.waiting.length s else s

/-- Header of an entry: status in bytes 0-1, type in byte 2 (Table Host-7). -/
def entryHead (status : Code) (type : Nat) : Nat := status.toNat + type * 2 ^ 16

/-- A DESC entry (Table Host-7). -/
def descEntry (s : State) (f : Flight) (ring : Nat) (status : Code) (result : Word) : BitVec 256 :=
  let pkg := if dTarget f.desc = 0xFF then s.pkg.toNat else dTarget f.desc
  BitVec.ofNat 256 (entryHead status 1 + dTag f.desc * 2 ^ 32 + f.sqHead.toNat * 2 ^ 64 + result.toNat * 2 ^ 96
    + s.nowNs % 2 ^ 64 * 2 ^ 128 + ring * 2 ^ 192 + pkg % 256 * 2 ^ 200)

/-- The vector of a code's block fires; 0x0000 names none (Table Host-8, log entry 21). -/
def fireFor (c : Code) (s : State) : State := if c = 0 then s else fireVector (vectorOf c) s

/-- An EVENT entry of this package (Table Host-7): code, vector, dropped events, belt time, 16 bytes of detail. -/
def eventEntry (s : State) (c : Code) (dropped : Nat) (detail : BitVec 128) : BitVec 256 :=
  BitVec.ofNat 256 (entryHead c 4 + s.pkg.toNat * 2 ^ 32 + (if c = 0 then 0 else vectorOf c) * 2 ^ 40 + min dropped 0xFFFF * 2 ^ 48
    + s.nowNs % 2 ^ 64 * 2 ^ 64 + detail.toNat * 2 ^ 128)

/-- Waiting EVENT entries. -/
def State.eventsWaiting (s : State) : Nat :=
  (s.host.waiting.filter (fun w => match w with | .event _ => true | _ => false)).length

/-- An EVENT entry goes to the event ring behind those that wait, waits, or is counted in HOST_EVT_LOST (R79, R80). -/
def enqueueEvent (body : BitVec 256) (s : State) : State :=
  if !s.flag Reg.hostEvtCfg 8 then s
  else
    let s := drainWaiting s
    if s.canPost (.event body) then cqPut (waitRing s (.event body)) body false s
    else if s.eventsWaiting < 256 then { s with host := { s.host with waiting := s.host.waiting ++ [.event body] } }
    else s.bumpSat Reg.hostEvtLost 16 1

/-- The package raises an EVENT: the code is latched; an anchor fires the block's vector and posts the entry, a
stake holds it for its home anchor, up to 64 (R79-R82, R353). -/
def postEventAt (c : Code) (core : Nat) (detail : BitVec 128) (s : State) : State :=
  let s := latch c core s
  if s.anchor then
    enqueueEvent (eventEntry s c 0 detail) (fireFor c s)
  else if s.host.heldEv.length < 64 then
    { s with host := { s.host with heldEv := s.host.heldEv ++ [eventEntry s c 0 detail] } }
  else { s with host := { s.host with evDropped := s.host.evDropped + 1 } }

/-- An EVENT whose code concerns no core. -/
def postEvent (c : Code) (detail : BitVec 128) (s : State) : State := postEventAt c 0 detail s

/-! ### Knots -/

/-- The value of a knot. -/
def State.knot (s : State) (k : Nat) : Word := smGet 0 s.knots k

/-- A wait with threshold `t` is satisfied by value `v` (R83). -/
def knotMet (v t : Word) : Bool := (v - t).toNat < 2 ^ 31

/-- Knot `k` lies in a bound page (R85). -/
def State.mirrored (s : State) (k : Nat) : Bool := s.host.mirrors.any (fun p => p.1 == k / 1024)

/-- A knot takes a value; a mirrored knot is due for a mirror write (R85). -/
def setKnot (k : Nat) (v : Word) (s : State) : State :=
  let s' := { s with knots := smSet 0 s.knots k v }
  if s.mirrored k && !s.host.dirty.contains k then { s' with host := { s'.host with dirty := s'.host.dirty ++ [k] } }
  else s'

/-- Descriptors that wait on knot `k` and are satisfied become ready (R75, R83). -/
def readyFlights (k : Nat) (v : Word) (fs : List Flight) : List Flight :=
  fs.map (fun f => match f.st with
    | .knotWait _ =>
      if dWaitKnot f.desc = k ∧ knotMet v (BitVec.ofNat 32 (dWaitThr f.desc)) then { f with st := .ready } else f
    | _ => f)

/-- A signal adds its amount modulo 2^32, and satisfied waits resume (R83). -/
def signalKnot (k amount : Nat) (s : State) : State :=
  let v := s.knot k + BitVec.ofNat 32 amount
  let s' := setKnot k v s
  { s' with host := { s'.host with flights := readyFlights k v s'.host.flights } }

/-! ### Descriptors in flight -/

/-- The descriptor in flight with a number. -/
def State.flight (s : State) (id : Nat) : Option Flight := s.host.flights.find? (fun f => f.id == id)

/-- A descriptor in flight changes its state. -/
def setFlight (id : Nat) (st : FlightState) (s : State) : State :=
  { s with host := { s.host with flights := updFirst (fun f => f.id == id) (fun f => { f with st := st }) s.host.flights } }

/-- A DRAINING ring with nothing in flight is DISABLED (Table Host-4). -/
def drainCheck (i : Nat) (s : State) : State :=
  if (s.ring i).state == .draining && s.inFlight i = 0 then s.setRing i { s.ring i with state := .disabled } else s

/-- A descriptor leaves: its completion entry is written, or the answer goes to the anchor that forwarded it.
No signal is applied here (R75, R77, R78). -/
def finishFlight (f : Flight) (status : Code) (result : Word) (s : State) : State :=
  let s := latch status 0 s
  let s' := { s with host := { s.host with flights := s.host.flights.filter (fun g => g.id != f.id) } }
  match f.origin with
  | .ring i => drainCheck i.val (cqPut i.val (descEntry s f i.val status result) (dIrq f.desc) s')
  | .anchor p num => s'.emit (.fwdAnswer p num (.done status result))

/-- A descriptor's work ends: with status 0x0000 the signal is applied first (R75). -/
def completeFlight (f : Flight) (status : Code) (result : Word) (s : State) : State :=
  let s := if status = 0 ∧ dSigEn f.desc = true then signalKnot (dSigKnot f.desc) (dSigAmount f.desc) s else s
  finishFlight f status result s

/-- Every descriptor in flight that `p` selects completes with a code, oldest first. -/
def finishWhere (p : Flight → Bool) (c : Code) (s : State) : State :=
  (s.host.flights.filter p).foldl (fun s f => finishFlight f c 0 s) s

/-! ### Ports and CTRL words -/

/-- Port `p`. -/
def State.port (s : State) (p : Port) : LinkPort :=
  match p with
  | .n => s.basket.pn
  | .e => s.basket.pe
  | .s => s.basket.ps
  | .w => s.basket.pw

/-- `s` with port `p` replaced. -/
def State.setPort (s : State) (p : Port) (x : LinkPort) : State :=
  match p with
  | .n => { s with basket := { s.basket with pn := x } }
  | .e => { s with basket := { s.basket with pe := x } }
  | .s => { s with basket := { s.basket with ps := x } }
  | .w => { s with basket := { s.basket with pw := x } }

/-- A port that carries its service slot: LINKED, WOVEN or REKEY (R59). -/
def LinkPort.up (x : LinkPort) : Bool :=
  match x.state with
  | .linked => true
  | .woven => true
  | .rekey => true
  | _ => false

/-- A CTRL word takes its place in an egress queue by priority, first come first within one (R59). -/
def ctrlInsert (w : LinkWord) : List LinkWord → List LinkWord
  | [] => [w]
  | v :: q => if ctrlPriority w < ctrlPriority v then w :: v :: q else v :: ctrlInsert w q

/-- A CTRL word is queued at a port; an egress queues 64 words (R59). DESIGN CHOICE (log entry 64): where a word other
than a local knot signal meets a full queue, the word that would leave last is lost. -/
def sendCtrl (p : Port) (w : LinkWord) (s : State) : State :=
  let x := s.port p
  if x.up then s.setPort p { x with ctrlq := (ctrlInsert w x.ctrlq).take 64 } else s

/-- A CTRL word is queued at every port that carries a service slot, except one. -/
def floodCtrl (except : Option Port) (w : LinkWord) (s : State) : State :=
  allPorts.foldl (fun s p => if except = some p then s else sendCtrl p w s) s

/-- The route to a package: 0-3 a port, 4 LOCAL, 5 NONE; the running weave's table, else the time tree (R54). -/
def State.route (s : State) (dst : BitVec 6) : Nat :=
  if dst = s.pkg then 4
  else match s.weave.run with
    | some d => bits (nthD 5 d.routes dst.toNat) 0 3
    | none => (smGet 5 s.basket.tree dst.toNat).toNat

/-- The egress port towards a package, if its entry names one that is up. -/
def State.egress (s : State) (dst : BitVec 6) : Option Port := portOf (s.route dst)

/-- A knot signal: local, or a CTRL KNOT word on the route to the package (R83, R59). The engine of a signal that meets
a full queue, or that stands behind one for the same egress, stalls with it (R59). -/
def sendKnot (dst : BitVec 6) (k amount : Nat) (s : State) : State :=
  if dst = s.pkg then signalKnot k amount s
  else match s.egress dst with
    | some p =>
      if 64 ≤ (s.port p).ctrlq.length || s.basket.stalled.any (fun x => s.egress x.1 == some p) then
        { s with basket := { s.basket with stalled := s.basket.stalled ++ [(dst, k, amount)] } }
      else sendCtrl p (knotWord s.pkg.toNat dst.toNat k amount) s
    | none => s

/-- Stalled engines try their knot signals again, in order; each goes on once its entry frees (R59). -/
def unstall (s : State) : State :=
  s.basket.stalled.foldl (fun s x => sendKnot x.1 x.2.1 x.2.2 s) { s with basket := { s.basket with stalled := [] } }

/-! ### Marked bytes -/

/-- Bytes without a poison mark. -/
def clean (l : List Byte) : Marked := l.map (fun b => (b, false))

/-- The bytes alone. -/
def bytesOf (l : Marked) : List Byte := l.map (fun x => x.1)

/-- Some byte carries a poison mark. -/
def anyBad (l : Marked) : Bool := l.any (fun x => x.2)

/-- Bytes under a list of marks; one that the list does not reach has none. -/
def marked : List Byte → List Bool → Marked
  | [], _ => []
  | b :: l, [] => (b, false) :: marked l []
  | b :: l, m :: ms => (b, m) :: marked l ms

/-- The marks of bytes. -/
def marksOf (l : Marked) : List Bool := l.map (fun x => x.2)

/-! ### Loose messages -/

/-- Sequence numbers from `a` up to, but without, `b`. -/
def seqsBetween (a b : BitVec 32) : List (BitVec 32) := (List.range (b - a).toNat).map (fun i => a + BitVec.ofNat 32 i)

/-- Loose slots that a message fills: header and payload words, eight to a slot. -/
def looseSlots (m : Loose) : Nat := ceilDiv (1 + ceilDiv m.payload.length 16) 8

/-- DATELINE of the route to a package. -/
def State.dateline (s : State) (dst : BitVec 6) : Bool :=
  match s.weave.run with
  | some d => nbit (nthD 5 d.routes dst.toNat).toNat 3
  | none => false

/-- Credits of a class. -/
def LinkPort.credits (x : LinkPort) (cls1 : Bool) : Nat := if cls1 then x.credits1 else x.credits0

/-- A basket has formed about the port, and its peer is not refused: more than the service slot passes (R50, R57).
DEDUCED: one end in a basket is enough (log entry 62). -/
def State.payloadPasses (s : State) (x : LinkPort) : Bool := x.up && !x.authBad && (s.basket.joined || x.peerIn)

/-- Loose words pass: under encryption only with the session's keys (R50, R57, R58). -/
def State.loosePasses (s : State) (x : LinkPort) : Bool :=
  s.payloadPasses x && (s.cryptMode == 0 || x.keys.isSome)

/-- Static words pass: under MODE ALL they are encrypted too (R58). -/
def State.staticPasses (s : State) (x : LinkPort) : Bool :=
  s.payloadPasses x && (s.cryptMode != 2 || x.keys.isSome)

/-- A loose message leaves through a port in its next frame: credits are spent, and it is kept until its ACK (R55,
R56). Frames count within the session, consecutive across a step of belt time (R34). -/
def sendOn (p : Port) (m : Loose) (s : State) : State :=
  let x := s.port p
  let n := looseSlots m
  let x := { x with credits0 := if m.cls1 then x.credits0 else x.credits0 - n,
                    credits1 := if m.cls1 then x.credits1 - n else x.credits1,
                    unacked := x.unacked ++ [(x.ctr + 1, m)] }
  (s.setPort p x).emit (.loose p m)

/-- The egress of a message with its class there, if its route names one that can take it now (R54, R55). -/
def State.looseWay (s : State) (m : Loose) : Option (Port × Loose) :=
  let dst := m.dst.setWidth 6
  match s.egress dst with
  | some o =>
    let m := { m with cls1 := m.cls1 || s.dateline dst }
    if s.loosePasses (s.port o) && decide (looseSlots m ≤ (s.port o).credits m.cls1) then some (o, m) else none
  | none => none

/-- Messages of this package leave in order while the first finds its way; one whose route has become NONE is dropped
(R54, R55). -/
def drainOutbox : List Loose → State → State
  | [], s => { s with basket := { s.basket with outbox := [] } }
  | m :: ms, s =>
    if s.route (m.dst.setWidth 6) = 5 then drainOutbox ms ((latch eRouteNone 0 s).emit (.issuerCode eRouteNone))
    else match s.looseWay m with
      | some (o, m) => drainOutbox ms (sendOn o m s)
      | none => { s with basket := { s.basket with outbox := m :: ms } }

/-- A loose message of this package: refused with E_ROUTE_NONE, whose code the issuer receives; for this package itself
(LOCAL); or on its way, behind those that wait already (R54, R55). -/
def sendLoose (m : Loose) (s : State) : State :=
  let dst := m.dst.setWidth 6
  if s.route dst = 5 then (latch eRouteNone 0 s).emit (.issuerCode eRouteNone)
  else
    let s := { s with basket := { s.basket with looseSeq := s.basket.looseSeq + 1 } }
    if s.route dst = 4 then s.emit (.message m) else drainOutbox (s.basket.outbox ++ [m]) s

/-- A loose message of this package. -/
def State.mkLoose (s : State) (type : Nat) (dst : BitVec 6) (addr : BitVec 48) (code : Code) (payload : List Byte) : Loose :=
  { type := BitVec.ofNat 8 type, dst := dst.setWidth 8, src := s.pkg.setWidth 8, seq := s.basket.looseSeq,
    addr := addr, code := code, cls1 := false, payload := payload, poison := [] }

/-- A loose message of this package whose payload carries poison marks. -/
def State.mkMarked (s : State) (type : Nat) (dst : BitVec 6) (addr : BitVec 48) (l : Marked) : Loose :=
  { s.mkLoose type dst addr 0 (bytesOf l) with poison := if anyBad l then marksOf l else [] }

/-- The payload of a loose message with its marks. -/
def looseMarked (m : Loose) : Marked := marked m.payload m.poison

/-- Payload of a HOST_FWD_REQ: kind (0 event, 1 write, 2 read), bus address, length, data (log entry 31). -/
def fwdPayload (kind : Nat) (addr : BitVec 64) (len : Nat) (bytes : List Byte) : List Byte :=
  leBytes 1 kind ++ leBytes 8 addr.toNat ++ leBytes 4 len ++ bytes

/-- A stake's write of host memory as messages of at most 992 data bytes to its home anchor (R68). -/
def fwdWrites : Nat → BitVec 64 → List Byte → State → State
  | 0, _, _, s => s
  | n + 1, addr, bytes, s =>
    if bytes.isEmpty then s
    else
      let part := bytes.take 992
      let s := sendLoose (s.mkLoose 1 (s.homeAnchor s.pkg) (addr.setWidth 48) 0 (fwdPayload 1 addr part.length part)) s
      fwdWrites n (addr + 992) (bytes.drop 992) s

/-- A stake's read of host memory as requests for at most 992 bytes to its home anchor (R68). -/
def fwdReads : Nat → BitVec 64 → Nat → State → State
  | 0, _, _, s => s
  | n + 1, addr, len, s =>
    if len = 0 then s
    else fwdReads n (addr + 992) (len - 992)
      (sendLoose (s.mkLoose 1 (s.homeAnchor s.pkg) (addr.setWidth 48) 0 (fwdPayload 2 addr (min len 992) [])) s)

/-- Read requests of an anchor on PCIe, of at most 512 bytes each (Table Host-1). -/
def hostGet : Nat → BitVec 64 → Nat → State → State
  | 0, _, _, s => s
  | n + 1, addr, len, s =>
    if len = 0 then s else hostGet n (addr + 512) (len - 512) (s.emit (.hostRead addr (min len 512)))

/-- A write of host memory: an anchor writes at once, a stake through its home anchor (R68). Nothing leaves an
anchor while Bus Master Enable is clear (R67). -/
def hostPut (addr : BitVec 64) (bytes : List Byte) (s : State) : State :=
  if s.anchor then (if s.host.bme then s.emit (.hostWrite addr bytes) else s)
  else fwdWrites (bytes.length / 992 + 1) addr bytes s

/-! ### Local static streams (R49, R247) -/

/-- A word joins the local stream that the running weave names for reports to, or orders to, a package. -/
def pushStream (order : Bool) (dst : BitVec 6) (w : LinkWord) (s : State) : State :=
  match s.weave.run.bind (fun d => d.streams.find? (fun x => x.pkg == s.pkg && x.order == order && x.dst == dst)) with
  | some x => { s with basket := { s.basket with
      streams := smSet [] s.basket.streams x.stream (smGet [] s.basket.streams x.stream ++ [w]) } }
  | none => s

/-- A place report word leaves for an owner. -/
def sendReport (owner : BitVec 6) (w : LinkWord) (s : State) : State := (pushStream false owner w s).emit (.report owner w)

/-- An order word leaves for a package. -/
def sendOrder (p : BitVec 6) (w : LinkWord) (s : State) : State := (pushStream true p w s).emit (.order p w)

/-! ### Device memory (Table Withy-8) -/

/-- What a device address names. -/
inductive Place where
  | scratch (core off : Nat)
  | store
  | remote (pkg : Nat) (off : Nat)
  | host (addr : Nat)
  | hole
  deriving DecidableEq, Repr

/-- The local part of the address map. -/
def placeLocal (a : Nat) : Place :=
  if a < 0x1000000 then (if a % 0x100000 < 0xC0000 then .scratch (a / 0x100000) (a % 0x100000) else .hole)
  else if 0x40000000 ≤ a ∧ a < 0xC0000000 then .store
  else .hole

/-- The address map of Table Withy-8; a package's own remote range is served locally (R60). -/
def State.place (s : State) (a : Nat) : Place :=
  if a < 0x10000000000 then placeLocal a
  else if a < 0x10000000000 + 64 * 2 ^ 36 then
    let p := (a - 0x10000000000) / 2 ^ 36
    let off := (a - 0x10000000000) % 2 ^ 36
    if p = s.pkg.toNat then placeLocal off else .remote p off
  else if 0x800000000000 ≤ a ∧ a < 0x1000000000000 then .host (a - 0x800000000000)
  else .hole

/-- The local address of a place reached through the package's own remote range. -/
def State.localAddr (s : State) (a : Nat) : Nat :=
  if 0x10000000000 ≤ a ∧ (a - 0x10000000000) / 2 ^ 36 = s.pkg.toNat then (a - 0x10000000000) % 2 ^ 36 else a

/-- The reserved store range of R329. -/
def storeReserved (a len : Nat) : Bool := a < 0x4A000000 && 0x40000000 < a + len

/-- `n` bytes of the store or of a scratchpad; a byte that nothing has written reads as zero (log entry 7). -/
def State.rdMem (s : State) (a n : Nat) : List Byte := smGetAll 0 s.mem a n

/-- The chunks of 16 bytes that `n` bytes from `a` touch. -/
def chunks (a n : Nat) : List Nat := if n = 0 then [] else (List.range ((a + n - 1) / 16 - a / 16 + 1)).map (· + a / 16)

/-- A chunk that the bytes cover carries a poison mark (R273). -/
def State.poisoned (s : State) (a n : Nat) : Bool := (chunks a n).any (fun c => smGet false s.poison c)

/-- Bytes are written; the poison marks of their chunks become `bad` (R273). -/
def wrMemP (a : Nat) (bytes : List Byte) (bad : Bool) (s : State) : State :=
  { s with mem := smSetAll 0 s.mem a bytes,
           poison := (chunks a bytes.length).foldl (fun m c => smSet false m c bad) s.poison }

/-- Bytes that are not poisoned are written. -/
def wrMem (a : Nat) (bytes : List Byte) (s : State) : State := wrMemP a bytes false s

/-- `n` bytes as `rdMem` reads them, each with the poison mark of its chunk. -/
def State.rdMarked (s : State) (a n : Nat) : Marked :=
  (s.rdMem a n).zipIdx.map (fun x => (x.1, smGet false s.poison ((a + x.2) / 16)))

/-- Chunks are written with the poison marks of what they were made from (R273); `n` bounds their number. -/
def writeMarked : Nat → Nat → Marked → State → State
  | 0, _, _, s => s
  | n + 1, a, l, s =>
    if l.isEmpty then s
    else
      let k := 16 - a % 16
      writeMarked n (a + k) (l.drop k) (wrMemP a (bytesOf (l.take k)) (anyBad (l.take k)) s)

/-- Bytes are written with their marks (R273). -/
def wrMarked (a : Nat) (l : Marked) (s : State) : State :=
  if anyBad l then writeMarked l.length a l s else wrMem a (bytesOf l) s

/-- A range is filled with zeros and its poison marks clear (R167). -/
def zeroMem (a n : Nat) (s : State) : State :=
  { s with mem := s.mem.filter (fun p => decide (p.1 < a ∨ a + n ≤ p.1)),
           poison := s.poison.filter (fun p => decide (16 * p.1 + 16 ≤ a ∨ a + n ≤ 16 * p.1)) }

/-- Address of a scratchpad byte. -/
def spAddr (core off : Nat) : Nat := core * 0x100000 + off

/-- Core `n`. -/
def State.core (s : State) (n : Nat) : CoreState := smGet CoreState.reset s.cores n

/-- `s` with core `n` replaced. -/
def State.setCore (s : State) (n : Nat) (c : CoreState) : State := { s with cores := smSet CoreState.reset s.cores n c }

/-- Array `a` of a core. -/
def CoreState.array (c : CoreState) (a : Nat) : ArrayState := smGet ArrayState.reset c.arrays a

/-- Array `a` of core `n` is replaced. -/
def State.setArray (s : State) (n a : Nat) (x : ArrayState) : State :=
  s.setCore n { s.core n with arrays := smSet ArrayState.reset (s.core n).arrays a x }

/-! ### The end of work at a stop -/

/-- Pool of a package as a weave declares it (R18): 0 prefill, 1 decode, 2 shared. -/
def poolOf (d : WeaveDecl) (p : Nat) : Nat := bits d.pools (2 * p) 2

/-- A place stands on a package whose pool takes its kind of work (Tables Basket-3 and Phases-4). -/
def placeFits (d : WeaveDecl) (p : PlaceDecl) : Bool :=
  match p.kind.val with
  | 1 => poolOf d p.pkg.toNat != 1
  | 2 => poolOf d p.pkg.toNat != 0
  | _ => poolOf d p.pkg.toNat == 2

/-- The knots that the running weave declares as its own (R84). -/
def State.weaveKnots (s : State) : Option (Nat × Nat) :=
  match s.weave.run with
  | some d => some (d.knotLo.toNat, d.knotHi.toNat)
  | none => none

/-- Knot `k` belongs to a declared range. -/
def inKnots (r : Option (Nat × Nat)) (k : Nat) : Bool :=
  match r with
  | some (lo, hi) => lo ≤ k && k ≤ hi
  | none => false

/-- Knots `lo` to `hi` are set to 0, their mirrored knots fall due, and every descriptor that waits on one of them
completes with E_DESC_RESTART (R84). -/
def clearKnots (lo hi : Nat) (s : State) : State :=
  let changed := (s.knots.filter (fun p => decide (lo ≤ p.1 ∧ p.1 ≤ hi))).map (fun p => p.1)
  let due := changed.filter (fun k => s.mirrored k && !s.host.dirty.contains k)
  let s := { s with knots := s.knots.filter (fun p => decide (p.1 < lo ∨ hi < p.1)),
                    host := { s.host with dirty := s.host.dirty ++ due } }
  finishWhere (fun f => match f.st with
    | .knotWait _ => lo ≤ dWaitKnot f.desc && dWaitKnot f.desc ≤ hi
    | .ready => lo ≤ dWaitKnot f.desc && dWaitKnot f.desc ≤ hi
    | _ => false) eDescRestart s

/-- Opcodes whose descriptors go on through a stop (R277), and WEAVE_LOAD (Table Images-12). -/
def opSurvivesStop (op : Nat) : Bool :=
  op ≤ 0x06 || op = 0x10 || op = 0x11 || op = 0x12 || op = 0x20 || op = 0x21 || op = 0x22 || op = 0x23

/-- WOVEN ports return to LINKED (Table Withy-4). -/
def unweavePort (x : LinkPort) : LinkPort := if x.state == .woven then { x with state := .linked } else x

/-- WOVEN ports return to LINKED, and words that wait for static slots are dropped. -/
def unweave (s : State) : State :=
  { s with basket := { s.basket with streams := [], pn := unweavePort s.basket.pn, pe := unweavePort s.basket.pe,
                                     ps := unweavePort s.basket.ps, pw := unweavePort s.basket.pw } }

/-- Transfers that had reserved pages are abandoned and the place reports of the step are discarded (R277). -/
def abandonWork (s : State) : State :=
  { s with serve := { s.serve with reports := [], cmds := [],
                                   reqs := s.serve.reqs.map (fun p => (p.1, { p.2 with pendCmd := false })),
                                   ctxs := s.serve.ctxs.map (fun c =>
                                     { c with expect := none, sealTo := none, listIn := [], listBad := [],
                                              pagesIn := [], pagesBad := [], sent := none, making := none }) } }

/-- What the engines of every core have asked for or wait to write is abandoned (R277). -/
def abandonPlait (s : State) : State :=
  (List.range 16).foldl (fun s n => s.setCore n { s.core n with fetched := [], outq := [], outKnot := none }) s

/-- Crops being cut and regions not yet cut are lost; the parcels of those crops carry RESTART (Table Regions-7). -/
def dropPartial (s : State) : State :=
  let lost (c : Option Crop) : Option Word := match c with
    | some c => if c.done then none else some c.parcel
    | none => none
  let ids := s.roi.crops.filterMap (fun p => lost p.2)
  { s with roi := { s.roi with matched := [], crops := s.roi.crops.filter (fun p => (lost p.2).isNone),
                               parcels := s.roi.parcels.map (fun q => if ids.contains q.id then { q with restart := true } else q) } }

/-- A load in progress ends with a code: its descriptor completes, or BOOT_ERR takes the code. -/
def endLoad (c : Code) (s : State) : State :=
  match s.weave.load with
  | none => s
  | some l =>
    let s := { s with weave := { s.weave with load := none } }
    if !l.lead then s
    else match l.flight.bind s.flight with
      | some f => finishFlight f c 0 s
      | none => latch c 0 s

/-- The read of the image of a load that this package leads is issued once nothing holds it back: a step, beat values or a
relock accepted before it (R355), a calibration record not yet loaded (R330), Bus Master Enable clear (R67; log entry
67). -/
def readImage (s : State) : State :=
  match s.weave.load with
  | some l =>
    if l.lead && !l.asked && !l.waits && l.decl.isNone && s.flag Reg.bootStatus 5 && s.host.bme then
      { s.emit (.imageRead l.addr l.len) with weave := { s.weave with load := some { l with asked := true } } }
    else s
  | none => s

/-- A stop at or after beat S - 1 ends a load whose image has been sent; an earlier one leaves it alone (Table
Images-12). -/
def haltLoad (s : State) : State :=
  match s.weave.load with
  | some l => if l.decl.isSome && decide (l.startBeat.toNat ≤ s.beat + 1) then endLoad eWeaveBusy s else s
  | none => s

/-- A weave that has not ended leaves the package: ports LINKED, its knots cleared (R84). DESIGN CHOICE (log entry 65):
this clearing also ends the descriptors that wait on them where no restart follows. -/
def leaveWeave (s : State) : State :=
  let s := unweave s
  match s.weaveKnots with
  | some (lo, hi) => clearKnots lo hi s
  | none => s

/-- No weave runs. -/
def idleWeave (ph : RestartPhase) (s : State) : State :=
  let s := leaveWeave s
  { s with weave := { s.weave with run := none, alt := 0xFF, member := false, stopBeat := none },
           fault := { s.fault with phase := ph, halt := none, resume := none } }

/-- The package takes part in no weave any more (R52): its work is abandoned as at a stop, and a load in
progress ends with E_WEAVE_TARGET (log entry 66). -/
def quitWeave (s : State) : State :=
  if s.weaveRuns then
    let s := dropPartial (abandonWork s)
    let s := finishWhere (fun f => !opSurvivesStop (dOp f.desc)) eDescRestart s
    idleWeave (if s.fault.phase == .running then .running else .idle) (endLoad eWeaveTarget s)
  else endLoad eWeaveTarget s

/-- The stop of R277: sequencers stop, work is abandoned, descriptors that use a core, a place or a window complete
with E_DESC_RESTART, and the weave's knots are cleared (R84). -/
def stopWeave (s : State) : State :=
  let s := dropPartial (abandonPlait (abandonWork (unweave (haltLoad s))))
  let s := finishWhere (fun f => !opSurvivesStop (dOp f.desc)) eDescRestart s
  let s := match s.weaveKnots with
    | some (lo, hi) => clearKnots lo hi s
    | none => s
  let s := s.setReg Reg.faultRestarts (s.reg Reg.faultRestarts + 1)
  { s with fault := { s.fault with phase := .stopped, stopNs := s.nowNs, excluded := false, judged := false,
                                   resume := none } }

/-! ### Faults -/

/-- The fault record of Table Faults-4. -/
def faultRecord (s : State) (f : FaultReport) (restart : Nat) : BitVec 256 :=
  let body := f.code.toNat + f.cls.val * 2 ^ 16 + s.pkg.toNat * 2 ^ 24 + f.unitKind.toNat * 2 ^ 32
    + f.unitIdx.toNat * 2 ^ 40 + restart % 0x8000 * 2 ^ 48 + s.nowNs % 2 ^ 64 * 2 ^ 64
    + s.beat % 2 ^ 32 * 2 ^ 128 + f.detail.toNat * 2 ^ 160
  BitVec.ofNat 256 (body + (crc32c (leBytes 28 body)).toNat * 2 ^ 224)

/-- The core that a fault concerns, by unit kind and index. -/
def faultCore (f : FaultReport) : Nat := if f.unitKind = 0 then f.unitIdx.toNat / 4 else f.unitIdx.toNat % 16

/-- EVENT detail of a fault: CORE codes name the core in byte 16 and go on from byte 17 (R353). -/
def faultDetail (f : FaultReport) : BitVec 128 :=
  if codeBlock f.code = 0x0A then BitVec.ofNat 128 (faultCore f + f.detail.toNat * 2 ^ 8)
  else BitVec.ofNat 128 f.detail.toNat

/-- The restart that a fault found now belongs to: the one in progress, or the one that it causes; with no weave the last
(R275, R276). -/
def State.restartNum (s : State) : BitVec 15 :=
  if !s.weaveRuns then s.fault.lastNum
  else if s.fault.phase == .running then s.fault.lastNum + 1
  else match s.fault.halt with
    | some h => h.num
    | none => s.fault.lastNum

/-- A WEAVE or PACKAGE fault is recorded: the newest 16 records stand in the log, and the entry posts one EVENT
(R285). -/
def logFault (f : FaultReport) (s : State) : State :=
  let s := { s with fault := { s.fault with log := (faultRecord s f s.restartNum.toNat :: s.fault.log).take 16 } }
  postEventAt f.code (faultCore f) (faultDetail f) s

/-- A restart number is remembered for the storm limit (R284). -/
def noteRestart (num : BitVec 15) (s : State) : State :=
  if s.fault.recent.any (fun r => r.1 == num) then s
  else { s with fault := { s.fault with recent := (num, s.nowNs) :: s.fault.recent } }

/-- The package itself raises HALT: the next restart number, flooded on every port, and it stops (R275, R277). -/
def raiseHalt (cls : Nat) (s : State) : State :=
  let num := s.fault.lastNum + 1
  let beat := s.beat % 2 ^ 32
  let s := floodCtrl none (haltWord s.pkg.toNat cls num.toNat beat) s
  let s := { s with basket := { s.basket with lastHalt := some (BitVec.ofNat 16 num.toNat) } }
  let s := noteRestart num s
  let s := { s with fault := { s.fault with
      halt := some ⟨num, BitVec.ofNat 32 beat, s.pkg, BitVec.ofNat 8 cls⟩ } }
  stopWeave s

/-- A WEAVE fault (Table Faults-2): recorded; outside a restart a running weave halts, during one the package is
excluded from it (R276); a fault detected in the moment of the stop belongs to the same restart (Table Arrays-13). -/
def weaveFault (f : FaultReport) (s : State) : State :=
  let s := logFault f s
  if !s.weaveRuns then s
  else if s.fault.phase == .running then raiseHalt 2 s
  else if s.fault.phase == .stopped && s.fault.stopNs == s.nowNs then s
  else { s with fault := { s.fault with excluded := true } }

/-- A fault of WEAVE class that a unit of the package raises (Table Faults-4): unit kind, unit index, code. -/
def unitFault (kind unit : Nat) (c : Code) (s : State) : State :=
  weaveFault ⟨c, 2, BitVec.ofNat 8 kind, BitVec.ofNat 8 unit, 0⟩ s

/-- A write of a local engine to the store: refused in the reserved range, which is an uncorrectable fault (R329). -/
def engineStore (kind a : Nat) (bytes : List Byte) (s : State) : State :=
  if storeReserved a bytes.length then unitFault kind 0 eBootArea (latch eBootArea 0 s) else wrMem a bytes s

/-! ### Reset of the domains outside the always-on one -/

/-- A copy of a fuse word that a command was programming to `v` when it was cut short (R312): which of the missing
bits stand, and at which margin, is a free value (log entry 10). -/
def partialCopy (ctr : Nat) (k : Nat) (v : Word) (f : FuseState) : FuseState :=
  let old := smGet 0 f.copies k
  let missing := v &&& ~~~old
  { f with copies := smSet 0 f.copies k (old ||| (missing &&& Config.fusePartial ctr k)),
           weak := smSet 0 f.weak k ((smGet 0 f.weak k &&& ~~~missing) ||| (missing &&& Config.fusePartialWeak ctr k)) }

/-- The running fuse command is cut short: its words are left partial (R312). -/
def fuseAbort (s : State) : State :=
  match s.fuse.cmd with
  | none => s
  | some c =>
    let f := c.plan.foldl (fun f p =>
      partialCopy s.freeCtr (3 * p.1 + 2) p.2 (partialCopy s.freeCtr (3 * p.1 + 1) p.2
        (partialCopy s.freeCtr (3 * p.1) p.2 f))) s.fuse
    { s with fuse := { f with cmd := none }, freeCtr := s.freeCtr + 1 }

/-- BAR0 words that the always-on domain keeps: the TIME and PWR blocks (Table Power-2), but for TIME_ALIGN, which speaks of
the time-tree clock and the basket (R35). -/
def aonRegs (m : SMap Word) : SMap Word := m.filter (fun p => decide (0x2000 ≤ p.1 ∧ p.1 < 0x4000 ∧ p.1 ≠ 0x2040))

/-- A range of bytes lies wholly in the store. -/
def inStore (a len : Nat) : Bool := 0x40000000 ≤ a && a + len ≤ 0xC0000000

/-- Every domain other than the always-on one is reset (R321, R274, R350): belt time, the TIME and PWR blocks, the
kept WAKE sequences, fuses and flash stay; everything else takes its reset values, and a fresh
park key is drawn (R258). -/
def domainReset (ph : Phase) (s : State) : State :=
  let s := fuseAbort s
  { State.reset with
    pending := s.pending, out := s.out, freeCtr := s.freeCtr + 1,
    serve := { ServeState.reset with parkKey := s.freeCtr + 1 },
    regs := aonRegs s.regs,
    power := { s.power with phase := ph },
    time := { s.time with pendStep := none, pendBeats := [], pendClock := none, relocking := false, cclk := false,
                          lastWhisper := none, staged := [], mult := 48, spread := 1 },
    basket := { BasketState.reset with wakeSeq := s.basket.wakeSeq, wakeKept := s.basket.wakeKept },
    fuse := { s.fuse with shadow := [], cmd := none },
    flash := s.flash }

/-- The ports of a package-fatal package are held in LINKED (R274). -/
def holdPort (x : LinkPort) : LinkPort := if x.up then { x with state := .linked, ctrlq := x.ctrlq.filter (fun w => ctrlPriority w = 0) } else x

/-- A package-fatal fault (R274): recorded, HALT of class 0x03 where it can be sent, then every domain other than
the always-on one is reset and the ports are held in LINKED. -/
def packageFault (f : FaultReport) (ph : Phase) (s : State) : State :=
  let s := logFault f s
  let s := if s.weaveRuns && s.fault.phase == .running then raiseHalt 3 s else s
  let b := s.basket
  let s := domainReset ph s
  { s with basket := { s.basket with pn := holdPort b.pn, pe := holdPort b.pe, ps := holdPort b.ps, pw := holdPort b.pw } }

end Sys2Proof.Machine
end

