-- ==== Sys2Proof/Machine/Time.lean ====
section
/-!
DEFINITION. Time.lean: clocks, belt time and the beat (02_time): the spread profile and the cycle count (R31, R41), the
beat counter (R38-R40), CLK and TIME commands (R28-R44).
-/

namespace Sys2Proof.Machine

/-- Outcome of a meaning. -/
abbrev Outcome := Host.Outcome State Fault Refusal

/-- Bytes of a register write: the enabled bytes of `val` over `old` (R351). -/
def mergeBytes (old val : Word) (be : BitVec 4) : Word :=
  let m (i : Nat) : Nat := if be.getLsbD i then 0xFF * 2 ^ (8 * i) else 0
  let mask := BitVec.ofNat 32 (m 0 + m 1 + m 2 + m 3)
  (val &&& mask) ||| (old &&& ~~~mask)

/-- The bytes of a write whose enables are set, the others zero: what a WO, W1C or W1S field sees (R351). -/
def enabledBytes (val : Word) (be : BitVec 4) : Word := mergeBytes 0 val be

/-! ### The spread profile (Table Time-2, R31) -/

/-- Spread depth in thousandths. -/
def spreadMille (c : BitVec 2) : Nat :=
  match c.toNat with
  | 0 => 0
  | 1 => 5
  | 2 => 10
  | _ => 20

/-- c-cycles per profile period, N_P = MULT × 800 × (1 − δ/2). -/
def cyclesPerPeriod (mult d : Nat) : Nat := mult * 800 * (2000 - d) / 2000

/-- Denominator of the exact cycle count: 40 ns per reference period, 2·1000·H, and the fraction squared. -/
def cycleDen : Nat := 40 * 32000000 * 65536 ^ 2

/-- N₁(x) for x in units of 2^-16 ns, times `cycleDen`. -/
def n1Scaled (mult d x : Nat) : Nat := mult * (x * 65536 * 32000000 - d * x ^ 2)

/-- The cumulative count C(t) of 02_time for t in units of 2^-16 ns, times `cycleDen`. -/
def cyclesScaled (mult d t : Nat) : Nat :=
  let per := 32000 * 65536
  let k := t / per
  let ph := t % per
  let np := cyclesPerPeriod mult d * cycleDen
  k * np + (if ph ≤ per / 2 then n1Scaled mult d ph else np - n1Scaled mult d (per - ph))

/-- Whole c-cycles from belt time 0 to t under a profile. -/
def cyclesAt (mult d t : Nat) : Nat := cyclesScaled mult d t / cycleDen

/-- TIME_BEAT_NUM for belt time `t` (2^-16 ns): k + 1 for the latest beat k started, 0 before the epoch (R38, R40). -/
def beatNumAt (mult d b epochNs t : Nat) : Nat :=
  if t < epochNs * 65536 ∨ b = 0 then 0
  else (cyclesAt mult d t - cyclesAt mult d (epochNs * 65536)) / b + 1

/-- The beat number that the values and the profile in effect give now. -/
def State.beatNow (s : State) : Nat :=
  beatNumAt s.time.mult.toNat (spreadMille s.time.spread) s.time.beatLen.toNat s.time.epoch.toNat s.nowFp

/-- The counter is computed afresh (R40). -/
def recomputeBeat (s : State) : State := { s with time := { s.time with beatNum := BitVec.ofNat 64 s.beatNow } }

/-- The greatest t below `lo + 2^n` that satisfies `p`, from `lo` on, for a `p` that holds up to some point. -/
def lastBelow (p : Nat → Bool) : Nat → Nat → Nat
  | 0, lo => lo
  | n + 1, lo => if p (lo + 2 ^ n) then lastBelow p n (lo + 2 ^ n) else lastBelow p n lo

/-- Belt time (2^-16 ns) at which beat `k` starts under the values and the profile in force: the last at which the count
from the epoch still lies below k · B, plus one unit (R38, R41). -/
def State.beatAt (s : State) (k : Nat) : Nat :=
  let c := cyclesAt s.time.mult.toNat (spreadMille s.time.spread)
  let e := s.time.epoch.toNat * 65536
  let goal := c e + k * s.time.beatLen.toNat
  if k = 0 then e else lastBelow (fun t => decide (c t < goal)) 80 0 + 1

/-- What TIME_BEAT_STAMP latches for beat `k`: belt time as it stands when the beat starts, which is that of the last
p-cycle edge before it (R40, R358), in ns. -/
def State.beatStampOf (s : State) (k : Nat) : Nat :=
  let off := s.time.corr
  let t : Int := s.beatAt k
  (((t - off) / 163840 * 163840 + off).toNat) / 65536

/-- cclk runs: the core PLL has locked since the last relock or sleep. A loss of lock leaves cclk running, and the
counter keeps counting (Table Time-6). -/
def State.cclkRuns (s : State) : Bool := s.time.cclk

/-! ### Boundaries -/

/-- The first profile-period boundary (ns) at least 1.0 ms ahead (R33, R36, R39). -/
def boundaryAhead (s : State) : Nat := ceilDiv (s.nowFp + 1000000 * 65536) (32000 * 65536) * 32000

/-- The next profile-period boundary (ns). -/
def nextBoundary (s : State) : Nat := (s.nowFp / (32000 * 65536) + 1) * 32000

/-- The package is joined and is not the principal anchor. -/
def State.follows (s : State) : Bool := s.basket.joined && !s.basket.isPrincipal

/-- A TIME word leaves on every port; it is the last one that this package forwarded (R59). -/
def floodTime (except : Option Port) (w : LinkWord) (s : State) : State :=
  let s := floodCtrl except w s
  { s with basket := { s.basket with lastTime := some w } }

/-- BAR0 answers (R321, R294): from the moment the BARs are served; while waking only ID, PWR and TIME answer. -/
def State.answers (s : State) (off : Nat) : Bool :=
  match s.power.phase with
  | .run => s.boot.serving
  | .enteringDoze => s.boot.serving
  | .enteringSlumber => s.boot.serving
  | .selfTest => off < 0x1000
  | .waking => off < 0x1000 || (0x2000 ≤ off && off < 0x4000)
  | .dozeWaking => off < 0x1000 || (0x2000 ≤ off && off < 0x4000)
  | _ => false

/-- A write to BAR0 takes effect where the block answers (R294, R321). -/
def gateWrite (off : Nat) (f : State → State) (s : State) : State := if s.answers off then f s else s

/-! ### CLK -/

/-- CLK_CMD.APPLY, judged as R44 gives; accepted, it schedules the relock of R33. DESIGN CHOICE (log entry 63): an APPLY
accepted while the relock of an earlier one is pending replaces it. -/
def clkApply (s : State) : State :=
  let mult := s.fld Reg.clkCoreCfg 0 6
  let spread := s.fld Reg.clkCoreCfg 8 2
  if mult < 16 ∨ 56 < mult then refuse eCclkMult s
  else if s.follows then refuse eClkNotPrincipal s
  else if s.weaveBusy then refuse eClkBusy s
  else if 32 < mult ∧ !s.flag Reg.fuseStatus 18 then refuse eCclkTrim s
  else
    let t := if s.basket.joined then boundaryAhead s else nextBoundary s
    let s := { s with time := { s.time with
      pendClock := some (BitVec.ofNat 64 t, BitVec.ofNat 6 mult, BitVec.ofNat 2 spread) } }
    if s.basket.joined then floodTime none (clockWord mult spread t) s else s

/-- CLK_APPLY (R44). -/
def execClkApply (s : State) : Outcome := .next (gateWrite Reg.clkCmd clkApply s)

/-- The core PLL takes MULT and SPREAD and cclk stops (R33, R44). -/
def relockTo (m : BitVec 6) (sp : BitVec 2) (s : State) : State :=
  let s := (s.setFld Reg.clkCoreCfg 0 6 m.toNat).setFld Reg.clkCoreCfg 8 2 sp.toNat
  let s := s.setFlag Reg.clkStatus 0 false
  { s with time := { s.time with mult := m, spread := sp, pendClock := none, relocking := true, cclk := false } }

/-- At its boundary the core PLL takes the new MULT and SPREAD (R33, R44). DESIGN CHOICE (log entry 63): a joined package
on safe trims takes the principal's MULT as it is, since R33 has it adopted and R32 names no outcome for it. -/
def pllRelock (s : State) : State :=
  match s.time.pendClock with
  | none => s
  | some (t, m, sp) => if s.nowNs < t.toNat then s else relockTo m sp s

/-- Something accepted before a load must take effect before it is judged (R355, Table Time-6). -/
def State.timePends (s : State) : Bool :=
  s.time.pendStep.isSome || !s.time.pendBeats.isEmpty || s.time.pendClock.isSome || s.time.relocking

/-- A load that waited is judged once nothing pends: it goes on with the read of its image, or ends where this package
is the principal no more (R335, R355). -/
def wakeLoad (s : State) : State :=
  match s.weave.load with
  | some l =>
    if !l.waits || s.timePends then s
    else if !s.basket.isPrincipal then endLoad eWeaveTarget s
    else
      readImage { s with weave := { s.weave with load := some { l with waits := false } } }
  | none => s

/-- PLL_RELOCK (R44). -/
def execPllRelock (s : State) : Outcome := .next (pllRelock s)

/-- The core PLL has locked again: CORE_LOCK reads 1 and the beat counter is computed afresh (R44). -/
def pllRelockDone (s : State) : State :=
  if s.time.relocking then
    wakeLoad (recomputeBeat { s.setFlag Reg.clkStatus 0 true with
      time := { s.time with relocking := false, cclk := true } })
  else s

/-- PLL_RELOCK_DONE (R44). -/
def execPllRelockDone (s : State) : Outcome := .next (pllRelockDone s)

/-- The p-cycle edges come: the pixel PLL is locked. -/
def State.pllsRun (s : State) : Bool := s.flag Reg.clkStatus 1

/-- Bit of CLK_STATUS of a PLL. -/
def pllBit : Pll → Nat
  | .core => 0
  | .pix => 1
  | .link => 2

/-- A WEAVE fault of the clock unit; a cause with no code of its own carries 0x0000 (log entry 21). -/
def clockFault (unit : Nat) : FaultReport := ⟨0, 2, 7, BitVec.ofNat 8 unit, 0⟩

/-- A locked PLL loses lock: its bit clears, the loss is counted, and a running weave restarts (R29); the relock under
an accepted APPLY is no loss. -/
def pllLockLoss (p : Pll) (s : State) : State :=
  if s.flag Reg.clkStatus (pllBit p) then
    let s := (s.setFlag Reg.clkStatus (pllBit p) false).bumpSat Reg.clkLossCnt 16 1
    if s.weaveRuns then weaveFault (clockFault (pllBit p)) s else s
  else s

/-- The principal role passes on: this anchor gives it up (R16, R29); a load that it leads ends with E_WEAVE_TARGET (log
entry 66). -/
def dropPrincipal (s : State) : State :=
  endLoad eWeaveTarget { s.setFlag Reg.timeAlign 25 false with basket := { s.basket with isPrincipal := false } }

/-- The reference source in use fails (R29): the time tree falls back to REF_XI; a principal anchor whose REF_XI fails
passes its role on, and a running weave restarts (R16). A source not in use has no effect. -/
def refFail (src : RefSource) (s : State) : State :=
  match src with
  | .tree =>
    if s.flag Reg.clkStatus 4 then (s.setFlag Reg.clkStatus 4 false).bumpSat Reg.clkLossCnt 16 1 else s
  | .refXi =>
    if s.flag Reg.clkStatus 4 || !s.flag Reg.clkStatus 3 then s
    else
      let s := (s.setFlag Reg.clkStatus 3 false).bumpSat Reg.clkLossCnt 16 1
      if s.basket.isPrincipal then
        let s := dropPrincipal s
        if s.weaveRuns then weaveFault (clockFault 3) s else s
      else s

/-- REF_FAIL (R29). -/
def execRefFail (src : RefSource) (s : State) : Outcome := .next (refFail src s)

/-- aclk is measured over 2,048 a-ticks while cclk runs (R30): the increment per a-tick is refPeriods · 40 ns / 2,048,
and the error against nominal is taken in 0.01 ppm, to nearest. -/
def aclkMeasure (refPeriods : BitVec 32) (s : State) : State :=
  let r := refPeriods.toNat
  if s.cclkRuns ∧ r ≠ 0 then
    let s := s.setReg Reg.timeAonInc (BitVec.ofNat 32 (r * 1280))
    let ppm := clampI (-32768) 32767 (rne (((25000 : Int) - r) * 100000000) r)
    (s.setFld Reg.clkAclkPpm 0 16 (codeOf 16 ppm)).setFlag Reg.clkStatus 6 true
  else s

/-- ACLK_MEASURE (R30). -/
def execAclkMeasure (refPeriods : BitVec 32) (s : State) : Outcome := .next (aclkMeasure refPeriods s)

/-! ### Belt time -/

/-- Belt time takes a value in one step: its edges lie on multiples of 2.5 ns again (R34, R36, R358). -/
def stepBelt (b : BitVec 80) (s : State) : State :=
  { s with time := { s.time with belt := b, corr := 0,
                                 stepped := s.time.stepped + ((b.toNat : Int) - s.time.belt.toNat) } }

/-- A read of TIME_NOW_LO returns the low word and latches the shadow (R37). -/
def timeNowLoRead (s : State) : State × Word :=
  ({ s with time := { s.time with shadow := s.time.belt } }, BitVec.ofNat 32 s.nowNs)

/-- A read of TIME_BEAT_NUM_LO latches the high half of the counter (Table Time-5). -/
def timeBeatNumLoRead (s : State) : State × Word :=
  ({ s with time := { s.time with numHi := BitVec.ofNat 32 (bits s.time.beatNum 32 32) } },
   BitVec.ofNat 32 s.time.beatNum.toNat)

/-- A read of TIME_BEAT_STAMP_LO latches the high half of the stamp (Table Time-5). -/
def timeBeatStampLoRead (s : State) : State × Word :=
  ({ s with time := { s.time with stampHi := BitVec.ofNat 32 (bits s.time.beatStamp 32 32) } },
   BitVec.ofNat 32 s.time.beatStamp.toNat)

/-- The data of a register read are returned. -/
def returnRead (off : Nat) (r : State × Word) : State := r.1.emit (.readData off r.2)

/-- A read of BAR0 (R294): while waking, a block that does not answer reads as zero; a package that does not serve
its BARs returns nothing. -/
def gateRead (off : Nat) (f : State → State × Word) (s : State) : State :=
  if s.answers off then returnRead off (f s)
  else match s.power.phase with
    | .waking => s.emit (.readData off 0)
    | .dozeWaking => s.emit (.readData off 0)
    | _ => s

/-- TIME_NOW_LO_READ (R37). -/
def execTimeNowLoRead (s : State) : Outcome := .next (gateRead Reg.timeNowLo timeNowLoRead s)

/-- TIME_BEAT_NUM_LO_READ (R40). -/
def execTimeBeatNumLoRead (s : State) : Outcome := .next (gateRead Reg.timeBeatNumLo timeBeatNumLoRead s)

/-- TIME_BEAT_STAMP_LO_READ (R40). -/
def execTimeBeatStampLoRead (s : State) : Outcome := .next (gateRead Reg.timeBeatStampLo timeBeatStampLoRead s)

/-- TIME_CMD.SET, judged as R36 gives; accepted, the step waits for its boundary T and the principal floods STEP. -/
def timeSet (s : State) : State :=
  let set := s.pair Reg.timeSetLo Reg.timeSetHi
  let t := boundaryAhead s
  if s.weaveBusy then refuse eTimeRunning s
  else if s.follows then refuse eTimeNotPrincipal s
  else if s.time.pendStep.isSome then refuse eTimePending s
  else if set % 32000 ≠ 0 then refuse eTimeSetAlign s
  else if set ≤ t then refuse eTimeBackward s
  else
    let s := { s with time := { s.time with pendStep := some (BitVec.ofNat 64 t, BitVec.ofNat 64 set) } }
    if s.basket.joined then floodTime none (stepWord t set) s else s

/-- TIME_SET (R36). -/
def execTimeSet (s : State) : Outcome := .next (gateWrite Reg.timeCmd timeSet s)

/-- The registers of the beat values show `b` and `e`. -/
def showBeat (b : BitVec 22) (e : BitVec 64) (s : State) : State :=
  let s := s.setFld Reg.timeBeatLen 0 22 b.toNat
  (s.setReg Reg.timeBeatEpochLo (BitVec.ofNat 32 e.toNat)).setReg Reg.timeBeatEpochHi (BitVec.ofNat 32 (bits e 32 32))

/-- New beat values take effect (R39). The registers show the values accepted last (log entry 63). -/
def takeBeat (b : BitVec 22) (e : BitVec 64) (s : State) : State :=
  let s := if s.time.pendBeats.isEmpty then showBeat b e s else s
  { s with time := { s.time with beatLen := b, epoch := e } }

/-- The beat values that wait with a boundary up to `ns` take effect, in the order of their acceptance (R39). -/
def takeBeats (ns : Nat) (s : State) : State :=
  let due := s.time.pendBeats.filter (fun x => decide (x.1.toNat ≤ ns))
  let s := { s with time := { s.time with pendBeats := s.time.pendBeats.filter (fun x => decide (ns < x.1.toNat)) } }
  match due.getLast? with
  | some (_, b, e) => takeBeat b e s
  | none => s

/-- At belt time T the step is taken in one go; beat values whose boundary it passes are taken after it, and the
counter is computed once (R36, R39, R40). Belt time never decreases (R34). -/
def timeStepApply (s : State) : State :=
  match s.time.pendStep with
  | none => s
  | some (t, set) =>
    if s.nowNs < t.toNat then s
    else
      let s := stepBelt (BitVec.ofNat 80 (max s.nowFp (set.toNat * 65536))) { s with time := { s.time with pendStep := none } }
      wakeLoad (recomputeBeat (takeBeats s.nowNs s))

/-- TIME_STEP_APPLY (R36). -/
def execTimeStepApply (s : State) : Outcome := .next (timeStepApply s)

/-- Beat values join those that wait for their boundary (R39). -/
def pushBeat (t b epoch : Nat) (s : State) : State :=
  { s with time := { s.time with
    pendBeats := s.time.pendBeats ++ [(BitVec.ofNat 64 t, BitVec.ofNat 22 b, BitVec.ofNat 64 epoch)] } }

/-- Accepted beat values wait for their boundary; a principal floods them (R39). -/
def scheduleBeat (b epoch : Nat) (s : State) : State :=
  let t := boundaryAhead s
  let s := pushBeat t b epoch s
  if s.basket.joined then floodTime none (beatWord b epoch t) s else s

/-- A write to TIME_BEAT_LEN (R39): checks 1 and 2 refuse only a write that changes the value (R357). DESIGN CHOICE (log
entry 63): the register reads back the accepted value from the write on, before it takes effect at its boundary. -/
def timeBeatLenWrite (val : Word) (be : BitVec 4) (s : State) : State :=
  let b := bits (mergeBytes (s.reg Reg.timeBeatLen) val be) 0 22
  let same := b = s.fld Reg.timeBeatLen 0 22
  if s.weaveBusy then (if same then s else refuse eTimeRunning s)
  else if s.follows then (if same then s else refuse eTimeNotPrincipal s)
  else if b < 4096 ∨ 2097152 < b then refuse eBeatRange s
  else scheduleBeat b (s.pair Reg.timeBeatEpochLo Reg.timeBeatEpochHi) (s.setFld Reg.timeBeatLen 0 22 b)

/-- TIME_BEAT_LEN_WRITE (R39). -/
def execTimeBeatLenWrite (val : Word) (be : BitVec 4) (s : State) : Outcome :=
  .next (if s.answers Reg.timeBeatLen then timeBeatLenWrite val be s else s)

/-- The _LO word that a _HI write joins with: the staged one, else the one in force (R356). -/
def State.stagedLo (s : State) (lo : Nat) : Word :=
  match s.time.staged.find? (fun p => p.1 == lo) with
  | some p => p.2
  | none => s.reg lo

/-- The stage of a pair is cleared. -/
def clearStage (lo : Nat) (s : State) : State :=
  { s with time := { s.time with staged := s.time.staged.filter (fun p => p.1 != lo) } }

/-- A write to TIME_BEAT_EPOCH_HI judges the whole epoch (R39, R356). -/
def timeBeatEpochWrite (val : Word) (be : BitVec 4) (s : State) : State :=
  let lo := s.stagedLo Reg.timeBeatEpochLo
  let hi := mergeBytes (s.reg Reg.timeBeatEpochHi) val be
  let e := lo.toNat + hi.toNat * 2 ^ 32
  let same := e = s.pair Reg.timeBeatEpochLo Reg.timeBeatEpochHi
  let s := clearStage Reg.timeBeatEpochLo s
  if s.weaveBusy then (if same then s else refuse eTimeRunning s)
  else if s.follows then (if same then s else refuse eTimeNotPrincipal s)
  else if e % 32000 ≠ 0 then refuse eBeatEpoch s
  else scheduleBeat (s.fld Reg.timeBeatLen 0 22) e ((s.setReg Reg.timeBeatEpochLo lo).setReg Reg.timeBeatEpochHi hi)

/-- TIME_BEAT_EPOCH_WRITE (R39). -/
def execTimeBeatEpochWrite (val : Word) (be : BitVec 4) (s : State) : Outcome :=
  .next (if s.answers Reg.timeBeatEpochHi then timeBeatEpochWrite val be s else s)

/-- At the boundary of a BEAT word the new values take effect and the counter is computed afresh; a step due at the same
boundary is applied first (R39, R40, Table Time-6). -/
def beatValuesApply (s : State) : State :=
  if !s.time.pendBeats.any (fun x => decide (x.1.toNat ≤ s.nowNs)) then s
  else match s.time.pendStep with
    | some (t, _) => if t.toNat ≤ s.nowNs then timeStepApply s else wakeLoad (recomputeBeat (takeBeats s.nowNs s))
    | none => wakeLoad (recomputeBeat (takeBeats s.nowNs s))

/-- BEAT_VALUES_APPLY (R39). -/
def execBeatValuesApply (s : State) : Outcome := .next (beatValuesApply s)

/-! ### Alignment -/

/-- ALIGNED of TIME_ALIGN (R35). -/
def State.aligned (s : State) : Bool := s.flag Reg.timeAlign 24

/-- The offset lies within ±0.5 ns: ±128 in 1/256 ns (R35). -/
def offsetOk (o : BitVec 16) : Bool := decide (-128 ≤ o.toInt) && decide (o.toInt ≤ 128)

/-- The offset measured to the principal stands in TIME_ALIGN, and its correction is slewed in (R34): 1/256 ns is 2^8
units of belt time. -/
def slewOffset (o : BitVec 16) (s : State) : State :=
  let s := s.setFld Reg.timeAlign 0 16 o.toNat
  { s with time := { s.time with slew := -(o.toInt * 256) } }

/-- A joined package whose offset has come within ±0.5 ns sets ALIGNED (R35), after the step of its join (R34). -/
def alignAchieved (o : BitVec 16) (s : State) : State :=
  if s.basket.joined && s.basket.joinAt.isNone && offsetOk o then (slewOffset o s).setFlag Reg.timeAlign 24 true else s

/-- ALIGN_ACHIEVED (R35). -/
def execAlignAchieved (o : BitVec 16) (s : State) : Outcome := .next (alignAchieved o s)

/-- An offset beyond ±0.5 ns clears ALIGNED, and the weave that the package runs restarts (R35). -/
def alignLoss (o : BitVec 16) (s : State) : State :=
  if s.basket.joined && !offsetOk o then
    let s := (slewOffset o s).setFlag Reg.timeAlign 24 false
    if s.weaveRuns && s.weave.member then weaveFault (clockFault 4) s else s
  else s

/-- ALIGN_LOSS (R35). -/
def execAlignLoss (o : BitVec 16) (s : State) : Outcome := .next (alignLoss o s)

end Sys2Proof.Machine
end

