-- ==== Sys2Proof/Machine/Fuse.lean ====
section
/-!
DEFINITION. Fuse.lean: the fuse array (18_fuses): sensing and the region checks at reset (R302-R305, R313-R320), and
the commands of the fuse controller (R307-R319).
-/

namespace Sys2Proof.Machine


/-! ### Sensing and region checks -/

/-- Copy `c` of fuse word `w` at the normal margin. -/
def FuseState.copy (f : FuseState) (w c : Nat) : Word := smGet 0 f.copies (3 * w + c)

/-- The same copy at the strict margin: a weak bit reads the other way (R310). -/
def FuseState.strict (f : FuseState) (w c : Nat) : Word := f.copy w c ^^^ smGet 0 f.weak (3 * w + c)

/-- Majority of the strict readings. -/
def FuseState.strictWord (f : FuseState) (w : Nat) : Word := majority3 (f.strict w 0) (f.strict w 1) (f.strict w 2)

/-- Words 0 to 415 are sensed into the shadow (R303). -/
def senseShadow (s : State) : SMap Word :=
  (List.range 416).filterMap (fun w => if s.fuseWord w = 0 then none else some (w, s.fuseWord w))

/-- Words 0 to 415 in which any bit had copies that disagreed (FUSE_DISAGREE). -/
def disagreeCount (f : FuseState) : Nat :=
  ((List.range 416).filter (fun w => f.copy w 0 != f.copy w 1 || f.copy w 1 != f.copy w 2)).length

/-- Bytes of fuse words `lo` to `lo + n - 1` through a reading of words (R302). -/
def fuseBytes (rd : Nat → Word) (lo n : Nat) : List Byte :=
  ((List.range n).map (fun i => leBytes 4 (rd (lo + i)).toNat)).flatten

/-- CRC-32C over fuse words. -/
def fuseCrc (rd : Nat → Word) (lo n : Nat) : Word := crc32c (fuseBytes rd lo n)

/-- Word 16 in one of its five forms: four identical nibbles of Table R313, upper half zero. -/
def lifecycleForm (w : Word) : Option Nat :=
  if w = 0x0000 then some 0
  else if w = 0x1111 then some 1
  else if w = 0x3333 then some 2
  else if w = 0x7777 then some 3
  else if w = 0xFFFF then some 4
  else none

/-- Word 17 in its form: flags twice, reserved bits zero (R315). -/
def flagsForm (w : Word) : Bool := bits w 0 8 == bits w 8 8 && bits w 4 4 == 0 && bits w 16 16 == 0

/-- Words that the map reserves. -/
def fuseReserved (w : Nat) : Bool := w = 18 || w = 19 || (29 ≤ w && w ≤ 31)

/-- Words whose value no read returns (R304). -/
def fuseHidden (w : Nat) : Bool := (6 ≤ w && w ≤ 14) || (20 ≤ w && w ≤ 28)

/-- One 16-bit fault record passes: wholly zero, or VALID with the CRC-8 of its low byte (R317). -/
def recordOk (r : Nat) : Bool := r == 0 || (nbit r 0 && (crc8 (BitVec.ofNat 8 r)).toNat == r / 256)

/-- A fault-map word passes. -/
def faultWordOk (w : Word) : Bool := recordOk (bits w 0 16) && recordOk (bits w 16 16)

/-- WIDTH code of an array from its fault-map word: 2 for 32 wide, 1 for 31, 0 for bad (R317). -/
def faultWidth (w : Word) : Nat :=
  if !faultWordOk w then 0
  else
    let v1 := nbit w.toNat 0
    let v2 := nbit w.toNat 16
    if !v1 && !v2 then 2
    else if (v1 && nbit w.toNat 6) || (v2 && nbit w.toNat 22) then 0
    else if v1 && v2 then 0
    else 1

/-- CORE_ARRAYa_STATUS as the fuses give it: WIDTH, BAD_COL, RUNTIME 0, FUSED. -/
def arrayStatus (w : Word) : Word :=
  if !faultWordOk w then 0
  else
    let col := if nbit w.toNat 0 then bits w 1 5 else bits w 17 5
    BitVec.ofNat 32 (faultWidth w + (if faultWidth w = 2 then 0 else col * 2 ^ 8 + 2 ^ 15))

/-- The four words of patch entry `e`. -/
def patchEntry (rd : Nat → Word) (e : Nat) : List Word := (List.range 4).map (fun i => rd (160 + 4 * e + i))

/-- A patch entry is unused. -/
def patchBlank (p : List Word) : Bool := p.all (fun w => w == 0)

/-- A patch entry in use passes its checks (R320). -/
def patchOk (p : List Word) : Bool :=
  let w0 := nthD 0 p 0
  w0.getLsbD 0 && bits w0 24 8 != 0 && bits w0 16 8 == 0 && (nthD 0 p 2 == 0 || w0.getLsbD 1)
    && crc32c (leBytes 4 w0.toNat ++ leBytes 4 (nthD 0 p 1).toNat ++ leBytes 4 (nthD 0 p 2).toNat) == nthD 0 p 3

/-- ROM word numbers (byte address div 4) that an entry covers. -/
def patchCovers (p : List Word) : List Nat :=
  let a := bits (nthD 0 p 0) 2 14
  if (nthD 0 p 0).getLsbD 1 then [a, (a + 1) % 2 ^ 14] else [a]

/-- Entries in use, by index. -/
def patchesUsed (rd : Nat → Word) : List (Nat × List Word) :=
  ((List.range 64).map (fun e => (e, patchEntry rd e))).filter (fun p => !patchBlank p.2)

/-- The lowest index of an entry that loses a fetched word to an entry of lower index (R320). -/
def patchDup : List (Nat × List Word) → List Nat → Option Nat
  | [], _ => none
  | (e, p) :: l, seen =>
    if (patchCovers p).any (fun a => seen.contains a) then some e else patchDup l (seen ++ patchCovers p)

/-- The 256 bits of counter `k` (R318). -/
def counterBits (rd : Nat → Word) (k : Nat) : Nat := ofLe (fuseBytes rd (416 + 8 * k) 8)

/-- The value of a counter: one more than its highest set position. -/
def counterValue (b : Nat) : Nat := topBit 256 b

/-- A counter in thermometer form. -/
def counterForm (b : Nat) : Bool := b == 2 ^ counterValue b - 1

/-- The permitted-mode byte of band `b`, step `st`: the trim region, or the safe default of R305. -/
def State.pmtByte (s : State) (b st : Nat) : Nat :=
  if !s.flag Reg.fuseStatus 18 then 0x77
  else bits (s.shadowWord (32 + (18 * b + st) / 4)) (8 * ((18 * b + st) % 4)) 8

/-- FUSE_LIFECYCLE from a word 16 and a word 17 (R305, R313, R315): a failing region gives FIELD-LOCKED with its
safe flags; DEBUG and RAW_EGRESS are in effect only in DEVELOP. -/
def lifecycleWord (ok : Bool) (w16 w17 : Word) : Word :=
  if !ok then BitVec.ofNat 32 (3 + 12 * 2 ^ 8 + 2 ^ 12)
  else
    let st := (lifecycleForm w16).getD 3
    let dev := st = 1
    BitVec.ofNat 32 (st + (if w17.getLsbD 0 ∧ dev then 2 ^ 8 else 0) + (if w17.getLsbD 1 ∧ dev then 2 ^ 9 else 0)
      + (if w17.getLsbD 2 then 2 ^ 10 else 0) + (if w17.getLsbD 3 then 2 ^ 11 else 0))

/-- The nine verdicts of FUSE_STATUS [24:16], first in bit 16, and the region checks they come from (R305). -/
def regionOk (s : State) : List Bool :=
  let rd := s.fuseWord
  let lc := (lifecycleForm (rd 16)).isSome && flagsForm (rd 17) && ([18, 19, 29, 30, 31].all (fun w => rd w == 0))
  let st := if lc then (lifecycleForm (rd 16)).getD 3 else 3
  [ fuseCrc rd 0 6 == rd 15,
    lc,
    fuseCrc rd 32 63 == rd 95,
    (List.range 64).all (fun i => faultWordOk (rd (96 + i))),
    (patchesUsed rd).all (fun p => patchOk p.2),
    (List.range 4).all (fun k => counterForm (counterBits rd k)),
    st < 3 || fuseCrc rd 448 48 == rd 511,
    fuseCrc rd 6 8 == rd 14,
    fuseCrc rd 20 8 == rd 28 ]

/-- Verdict bits as a number. -/
def verdictBits : List Bool → Nat
  | [] => 0
  | b :: l => b.toNat + 2 * verdictBits l

/-- Widths of all arrays from the fault map; on failing records CHK_FORCED stands on every core (R305). -/
def senseArrays (ok : Bool) (s : State) : State :=
  let s := (List.range 64).foldl (fun s i =>
    s.setReg (Reg.coreArrayStatus (i / 4) (i % 4)) (arrayStatus (s.fuseWord (96 + i)))) s
  if ok then s else (List.range 16).foldl (fun s n => s.setFlag (Reg.coreStatus n) 1 true) s

/-- Fuse sensing and region checks at reset (R303, R305): the shadow, the verdicts, the lifecycle, array widths, the
patch summary, safe trims; a failing identity or patch region holds the package in reset (R306). -/
def senseFuses (s : State) : State :=
  let ok := regionOk s
  let rd := s.fuseWord
  let used := patchesUsed rd
  let gen := used.foldl (fun m p => max m (bits (nthD 0 p.2 0) 24 8)) 0
  let dup := patchDup used []
  let s := { s with fuse := { s.fuse with shadow := senseShadow s },
                    boot := { s.boot with patchGen := BitVec.ofNat 8 gen, dupDue := dup.isSome } }
  let s := s.setReg Reg.fuseStatus (BitVec.ofNat 32 (verdictBits ok * 2 ^ 16))
  let s := s.setReg Reg.fuseLifecycle (lifecycleWord (nthD false ok 1) (rd 16) (rd 17))
  let s := s.setReg Reg.fusePatch (BitVec.ofNat 32 (gen + used.length * 2 ^ 8
    + match dup with | some e => 2 ^ 15 + e * 2 ^ 16 | none => 0))
  let s := s.setReg Reg.fuseDisagree (BitVec.ofNat 32 (disagreeCount s.fuse))
  let s := s.setReg Reg.bootFloor (BitVec.ofNat 32 (counterValue (counterBits rd 0)))
  let s := senseArrays (nthD false ok 3) s
  let s := s.setReg Reg.idDevice (rd 1)
  let s := s.setReg Reg.idSerialLo (rd 0)
  let s := s.setReg Reg.idSerialHi (rd 2)
  let s := s.setFlag Reg.serveAdpStatus 0 (nthD false ok 8)
  let s := if nthD false ok 2 then s
           else { s.setFld Reg.clkCoreCfg 0 6 32 with time := { s.time with mult := 32 } }
  if !nthD false ok 0 then { s with power := { s.power with phase := .heldFuse 1 } }
  else if !nthD false ok 4 then { s with power := { s.power with phase := .heldFuse 2 } }
  else { s.emit (.ball .fault true) with power := { s.power with phase := .locking } }

/-! ### Commands -/

/-- Accumulate-class words of Table Fuses-1. -/
def fuseAccumulate (w : Nat) : Bool :=
  w = 16 || w = 17 || (96 ≤ w && w ≤ 159) || (416 ≤ w && w ≤ 447) || (496 ≤ w && w ≤ 510)

/-- Who may program a word in a lifecycle state (Table Fuses-3); patch entries in FIELD and FIELD-LOCKED only through
the steward's signed bundle (R307). -/
def fuseAllowed (lc : Nat) (steward : Bool) (w : Nat) : Bool :=
  if w ≤ 15 || (32 ≤ w && w ≤ 95) then lc = 0
  else if 160 ≤ w && w ≤ 415 then lc ≤ 1 || (lc ≤ 3 && steward)
  else if w = 17 || (20 ≤ w && w ≤ 28) then lc ≤ 2
  else if (96 ≤ w && w ≤ 159) || (416 ≤ w && w ≤ 447) then lc ≤ 3
  else if 448 ≤ w && w ≤ 510 then lc ≤ 2
  else false

/-- Temperature of the hottest logic-die sensor, in 0.1 degree. -/
def State.hottestL (s : State) : Int := signed 16 (s.fld Reg.thermMax 16 16)

/-- Programming conditions: VIO in range and the logic die from 0 to 85 degrees (R308). -/
def fuseConditions (vioOk : Bool) (s : State) : Bool := vioOk && decide (0 ≤ s.hottestL) && decide (s.hottestL ≤ 850)

/-- The current state for ADVANCE: while the region fails, the highest state that any nibble of word 16 shows (R313). -/
def advanceFrom (s : State) : Nat :=
  if s.flag Reg.fuseStatus 17 then s.lifecycle
  else
    let st (n : Nat) : Nat := if n = 15 then 4 else if n = 7 then 3 else if n = 3 then 2 else if n = 1 then 1 else 0
    let w := s.fuseWord 16
    max (max (st (bits w 0 4)) (st (bits w 4 4))) (max (st (bits w 8 4)) (st (bits w 12 4)))

/-- Word 16 of a lifecycle state (R313). -/
def lifecycleFuse (t : Nat) : Word :=
  match t with
  | 1 => 0x1111
  | 2 => 0x3333
  | 3 => 0x7777
  | 4 => 0xFFFF
  | _ => 0

/-- Outcome of VERIFY of a word (R311). -/
def verifyCode (f : FuseState) (w : Nat) : Code :=
  let n := majority3 (f.copy w 0) (f.copy w 1) (f.copy w 2)
  if f.strictWord w ≠ n then eFuseWeak
  else if (List.range 3).all (fun c => f.copy w c == n && f.strict w c == n) then 0
  else eFuseMarginal

/-- Words and final values of an ADVANCE to state `t`, or its refusal (R313, R314). -/
def advancePlan (s : State) (t : Nat) : Except Code (List (Nat × Word)) :=
  let cur := advanceFrom s
  let sealCrc := fuseCrc s.fuseWord 448 48
  let needSeal := 3 ≤ t && cur < 3
  let keys := if t = 4 then ((List.range 9).map (· + 6) ++ (List.range 9).map (· + 20)).map (fun w => (w, 0xFFFFFFFF)) else []
  if needSeal && (s.fuseWord 511 &&& ~~~sealCrc) != 0 then .error eFuseConflict
  else if needSeal && (List.range 48).any (fun i => verifyCode s.fuse (448 + i) != 0) then .error eFuseMarginal
  else if (s.fuseWord 16 &&& ~~~(lifecycleFuse t)) != 0 then .error eFuseConflict
  else .ok ((if needSeal then [(511, sealCrc)] else []) ++ keys ++ [(16, lifecycleFuse t)])

/-- The eight words of counter `k` at value `n` (R318). -/
def counterPlan (k n : Nat) : List (Nat × Word) :=
  (List.range 8).map (fun j => (416 + 8 * k + j, BitVec.ofNat 32 ((2 ^ n - 1) >>> (32 * j))))

/-- The word rules of R309, R312, R314 and R318: the words to program, or the refusal. -/
def fusePlan (op w : Nat) (d : Word) (s : State) : Except Code (List (Nat × Word)) :=
  let f := s.fuse
  match op with
  | 2 =>
    if fuseAccumulate w then
      (if s.fuseWord w &&& ~~~d ≠ 0 then .error eFuseConflict else .ok [(w, d)])
    else if (List.range 3).all (fun c => f.copy w c == 0 && f.strict w c == 0) then .ok [(w, d)]
    else .error eFuseNotBlank
  | 4 =>
    if (List.range 3).any (fun c => ((f.copy w c ||| f.strict w c) &&& ~~~d) != 0) then .error eFuseConflict
    else .ok [(w, d)]
  | 5 => advancePlan s (bits d 0 3)
  | 6 =>
    let cur := counterValue (counterBits s.fuseWord w)
    if d.toNat < cur then .error eFuseConflict
    else if 256 < d.toNat then .error eFuseCounterFull
    else .ok (counterPlan w d.toNat)
  | _ => .ok []

/-- An operation that programs. -/
def fuseProgramming (op : Nat) : Bool := op = 2 || op = 4 || op = 5 || op = 6

/-- The checks of R308 in order: the first that fails gives the code. -/
def fuseJudge (op w : Nat) (d : Word) (steward vioOk : Bool) (s : State) : Except Code (List (Nat × Word)) :=
  let lc := s.lifecycle
  if s.fuse.cmd.isSome then .error eFuseBusy
  else if 8 ≤ op then .error eFuseOp
  else if (op = 6 || op = 7) && 4 ≤ w then .error eFuseOp
  else if op = 5 && (bits d 0 3 = 0 || 5 ≤ bits d 0 3) then .error eFuseOp
  else if (op = 2 || op = 4) && fuseReserved w then .error eFuseReserved
  else if (op = 2 || op = 4) && !fuseAllowed lc steward w then .error eFuseLocked
  else if op = 6 && !fuseAllowed lc steward (416 + 8 * w) then .error eFuseLocked
  else if op = 5 && lc = 4 && s.flag Reg.fuseStatus 17 then .error eFuseLocked
  else if op = 5 && s.weaveRuns then .error eFuseRunning
  else if op = 5 && (if s.flag Reg.fuseStatus 17 then bits d 0 3 ≤ lc else bits d 0 3 < advanceFrom s) then .error eFuseLifecycle
  else if fuseProgramming op && !fuseConditions vioOk s then .error eFuseConditions
  else fusePlan op w d s

/-- A refused fuse command: latched; a refusal other than E_FUSE_BUSY is the command's code in FUSE_RESULT. -/
def fuseRefused (c : Code) (s : State) : State :=
  let s := latch c 0 s
  if c = eFuseBusy then s else s.setReg Reg.fuseResult (BitVec.ofNat 32 c.toNat)

/-- One command of the fuse controller (Table Fuses-4, R308): op 0 has no effect; an accepted one sets BUSY and runs
until FUSE_CMD_DONE. -/
def fuseCommand (op w : Nat) (d : Word) (steward vioOk : Bool) (s : State) : State :=
  if op = 0 then s
  else match fuseJudge op w d steward vioOk s with
    | .error c => fuseRefused c s
    | .ok plan =>
      { s.setFlag Reg.fuseStatus 0 true with
        fuse := { s.fuse with cmd := some ⟨BitVec.ofNat 4 op, BitVec.ofNat 9 w, d, steward, plan⟩ } }

/-- The steward is the sender. -/
def isSteward : Writer → Bool
  | .steward => true
  | _ => false

/-- A command of host software or of the steward, with FUSE_WDATA as it stands. -/
def fuseCmd (op : Nat) (src : Writer) (w : BitVec 9) (vioOk : Bool) (s : State) : State :=
  gateWrite Reg.fuseCmd (fun s => fuseCommand op w.toNat (s.reg Reg.fuseWdata) (isSteward src) vioOk s) s

/-- FUSE_READ (R303, R304): sensing of one word at the normal margin starts. -/
def execFuseRead (src : Writer) (w : BitVec 9) (s : State) : Outcome := .next (fuseCmd 1 src w true s)
/-- FUSE_PROGRAM (R308, R309). -/
def execFuseProgram (src : Writer) (w : BitVec 9) (vioOk : Bool) (s : State) : Outcome := .next (fuseCmd 2 src w vioOk s)
/-- FUSE_VERIFY (R311). -/
def execFuseVerify (src : Writer) (w : BitVec 9) (s : State) : Outcome := .next (fuseCmd 3 src w true s)
/-- FUSE_REPAIR (R312). -/
def execFuseRepair (src : Writer) (w : BitVec 9) (vioOk : Bool) (s : State) : Outcome := .next (fuseCmd 4 src w vioOk s)
/-- FUSE_ADVANCE (R313, R314). -/
def execFuseAdvance (src : Writer) (w : BitVec 9) (vioOk : Bool) (s : State) : Outcome := .next (fuseCmd 5 src w vioOk s)
/-- FUSE_CTR_SET (R318). -/
def execFuseCtrSet (src : Writer) (w : BitVec 9) (vioOk : Bool) (s : State) : Outcome := .next (fuseCmd 6 src w vioOk s)
/-- FUSE_CTR_READ (R318). -/
def execFuseCtrRead (src : Writer) (w : BitVec 9) (s : State) : Outcome := .next (fuseCmd 7 src w true s)

/-! ### Completion -/

/-- Bits of a copy that a command attempts: those still missing (R309), under REPAIR also those that fail the strict
margin (R312). -/
def attempted (repair : Bool) (k : Nat) (v : Word) (f : FuseState) : Word :=
  v &&& (~~~(smGet 0 f.copies k) ||| (if repair then smGet 0 f.weak k else 0))

/-- The pulses on one copy of a word (R310, R312): what the outcome names as stuck stays 0, and what it names as weak fails
the strict margin. -/
def blowCopy (repair : Bool) (k : Nat) (v stuck weak : Word) (f : FuseState) : FuseState :=
  let old := smGet 0 f.copies k
  let oldWeak := smGet 0 f.weak k
  let att := attempted repair k v f
  { f with copies := smSet 0 f.copies k (old ||| (att &&& ~~~stuck)),
           weak := smSet 0 f.weak k ((oldWeak &&& ~~~att) ||| (att &&& weak)) }

/-- The pulses on one word. -/
def blowWord (repair : Bool) (w : Nat) (v : Word) (o : FuseOutcome) (f : FuseState) : FuseState :=
  let sub (x : BitVec 96) (c : Nat) : Word := BitVec.ofNat 32 (bits x (32 * c) 32)
  (List.range 3).foldl (fun f c => blowCopy repair (3 * w + c) v (sub o.stuck c) (sub o.weak c) f) f

/-- The outcome of a programmed word (R310). -/
def programCode (f : FuseState) (w : Nat) (v : Word) : Code :=
  if majority3 (f.copy w 0) (f.copy w 1) (f.copy w 2) ≠ v then eFuseProgramFail
  else if (List.range 3).all (fun c => f.copy w c == v && f.strict w c == v) then 0
  else eFuseMarginal

/-- Words of a plan are programmed in order; the first outcome other than 0x0000 gives the code, and no further word
is programmed after a failure. A word with nothing to attempt completes with 0x0000 and no pulse (R309, R312). -/
def blowPlan (repair : Bool) : List (Nat × Word) → List FuseOutcome → FuseState → FuseState × Code × Nat
  | [], _, f => (f, 0, 0)
  | (w, v) :: l, os, f =>
    if (List.range 3).all (fun c => attempted repair (3 * w + c) v f == 0) then blowPlan repair l (os.drop 1) f
    else
      let o := os.headD ⟨0, 0, 0⟩
      let f' := blowWord repair w v o f
      let c := programCode f' w v
      if c = eFuseProgramFail then (f', c, o.pulses.toNat)
      else
        let (f'', c', p') := blowPlan repair l (os.drop 1) f'
        (f'', if c = 0 then c' else c, max o.pulses.toNat p')

/-- What the new lifecycle word brings at once (R314): the lifecycle shadow, and Thumbling level in RETIRED with both
keys gone. -/
def applyLifecycle (s : State) : State :=
  let s : State := { s with fuse := { s.fuse with shadow := smSet 0 s.fuse.shadow 16 (s.fuseWord 16) } }
  let ok := (lifecycleForm (s.fuseWord 16)).isSome && flagsForm (s.shadowWord 17)
    && ([18, 19, 29, 30, 31].all (fun w => s.shadowWord w == 0))
  let s : State := s.setFlag Reg.fuseStatus 17 ok
  let s : State := s.setReg Reg.fuseLifecycle (lifecycleWord ok (s.fuseWord 16) (s.shadowWord 17))
  if s.lifecycle = 4 then
    ((((s.setFld Reg.idStatus 0 2 0).setFlag Reg.fuseStatus 23 false).setFlag Reg.fuseStatus 24 false).setFlag
      Reg.serveAdpStatus 0 false)
  else s

/-- Code and read data of a command that only senses. -/
def senseResult (c : FuseCmd) (s : State) : Code × Word :=
  let w := c.word.toNat
  match c.op.toNat with
  | 1 =>
    let v := if fuseHidden w || fuseReserved w then 0 else s.fuseWord w
    (if 448 ≤ w ∧ w ≤ 495 ∧ !s.flag Reg.fuseStatus 22 then eFuseRegion else 0, v)
  | 3 => (verifyCode s.fuse w, if fuseHidden w then 0 else s.fuseWord w)
  | 7 =>
    let b := counterBits s.fuseWord w
    (if counterForm b then 0 else eFuseCounterGap, BitVec.ofNat 32 (counterValue b))
  | _ => (0, 0)

/-- The controller ends a command: code and pulses in FUSE_RESULT, BUSY clear, FUSE_WDATA zero after PROGRAM and
REPAIR. -/
def fuseEnd (code : Code) (pulses : Nat) (s : State) : State :=
  let wd := match s.fuse.cmd with
    | some c => c.op.toNat = 2 || c.op.toNat = 4
    | none => false
  let s := { s.setFlag Reg.fuseStatus 0 false with fuse := { s.fuse with cmd := none } }
  let s := s.setReg Reg.fuseResult (BitVec.ofNat 32 (code.toNat + min pulses 15 * 2 ^ 16))
  let s := latch code 0 s
  if wd then s.setReg Reg.fuseWdata 0 else s

/-- The running fuse command completes (R303, R310-R314, R318). -/
def fuseDone (os : List FuseOutcome) (s : State) : State :=
  match s.fuse.cmd with
  | none => s
  | some c =>
    if fuseProgramming c.op.toNat then
      let (f, code, p) := blowPlan (c.op == 4) c.plan os s.fuse
      let s := { s with fuse := f }
      let s := if c.op.toNat = 5 then applyLifecycle s else s
      let s := if c.op.toNat = 6 && c.word = 0 then
        s.setReg Reg.bootFloor (BitVec.ofNat 32 (counterValue (counterBits s.fuseWord 0))) else s
      fuseEnd code p s
    else
      let (code, v) := senseResult c s
      fuseEnd code 0 (s.setReg Reg.fuseRdata v)

/-- FUSE_CMD_DONE (R310). -/
def execFuseCmdDone (os : List FuseOutcome) (s : State) : Outcome := .next (fuseDone os s)

end Sys2Proof.Machine
end

