-- ==== Sys2Proof/Machine/Sha256.lean ====
section
/-!
DEFINITION. Sha256.lean: the digest that 00_scope names for images (Table Scope-5, SHA-256). The standard's constants are
computed from their definition, fractional parts of roots of primes, and each round slides two windows of four words
and one of sixteen.
-/

namespace Sys2Proof.Machine

/-- The greatest number below `2^n + lo` whose image under a growing `f` is at most `v`, found bit by bit above `lo`. -/
def rootBits (f : Nat → Nat) (v : Nat) : Nat → Nat → Nat
  | 0, lo => lo
  | n + 1, lo => rootBits f v n (if Nat.ble (f (lo + 2 ^ n)) v then lo + 2 ^ n else lo)

/-- The numbers below 312 that no smaller one above 1 divides: the first sixty-four primes. -/
def smallPrimes : List Nat :=
  (List.range 312).filter (fun n => Nat.ble 2 n && (List.range 18).all (fun d => Nat.ble d 1 || Nat.ble n d || n % d != 0))

/-- The first 32 bits of the fractional part of the square root of a prime. -/
def sqrtWord (p : Nat) : Word := BitVec.ofNat 32 (rootBits (fun x => x * x) (p * 2 ^ 64) 37 0)

/-- The first 32 bits of the fractional part of the cube root of a prime. -/
def cbrtWord (p : Nat) : Word := BitVec.ofNat 32 (rootBits (fun x => x * x * x) (p * 2 ^ 96) 35 0)

/-- The exclusive-or of a word turned right by each of some distances, and of the word shifted right by `sh` (a shift of
32 adds nothing). -/
def turned (sh : Nat) (by' : List Nat) (x : Word) : Word :=
  by'.foldl (fun acc r => acc ^^^ x.rotateRight r) (x >>> sh)

/-- The words of a digest under way: the newest four of the upper and of the lower sequence, newest first. -/
structure ShaMix where
  up : List Word
  dn : List Word
  deriving DecidableEq, Repr

/-- Where a digest starts: square roots of the first eight primes. -/
def ShaMix.start : ShaMix :=
  let w := (smallPrimes.take 8).map sqrtWord
  ⟨w.take 4, w.drop 4⟩

/-- Eight words added place by place. -/
def ShaMix.plus (x y : ShaMix) : ShaMix :=
  ⟨List.zipWith (· + ·) x.up y.up, List.zipWith (· + ·) x.dn y.dn⟩

/-- One round: `k` is the round's constant plus its message word. -/
def ShaMix.round (m : ShaMix) (k : Word) : ShaMix :=
  match m.up, m.dn with
  | [u0, u1, u2, u3], [d0, d1, d2, d3] =>
    let feed := k + d3 + turned 32 [6, 11, 25] d0 + (d2 ^^^ (d0 &&& (d1 ^^^ d2)))
    ⟨[feed + turned 32 [2, 13, 22] u0 + ((u0 &&& (u1 ||| u2)) ||| (u1 &&& u2)), u0, u1, u2], [u3 + feed, d0, d1, d2]⟩
  | _, _ => m

/-- The window of sixteen message words moves on by one. -/
def slideWords (w : List Word) : List Word :=
  w.drop 1 ++ [nthD 0 w 0 + turned 3 [7, 18] (nthD 0 w 1) + nthD 0 w 9 + turned 10 [17, 19] (nthD 0 w 14)]

/-- The rounds of one block, a constant each. -/
def shaRounds : List Word → List Word → ShaMix → ShaMix
  | [], _, m => m
  | k :: ks, w, m => shaRounds ks (slideWords w) (m.round (k + nthD 0 w 0))

/-- Consecutive big-endian words of a byte string; the first argument bounds their number. -/
def bigWords : Nat → List Byte → List Word
  | 0, _ => []
  | n + 1, l => BitVec.ofNat 32 (ofLe (l.take 4).reverse) :: bigWords n (l.drop 4)

/-- The blocks of a padded message, one after the other. -/
def shaFold (ks : List Word) : Nat → List Byte → ShaMix → ShaMix
  | 0, _, m => m
  | n + 1, l, m => shaFold ks n (l.drop 64) (m.plus (shaRounds ks (bigWords 16 l) m))

/-- SHA-256 of a byte string as its 32 bytes, most significant first. -/
def sha256 (l : List Byte) : List Byte :=
  let tail := 0x80 :: List.replicate ((119 - l.length % 64) % 64) 0 ++ (leBytes 8 (8 * l.length)).reverse
  let m := shaFold (smallPrimes.map cbrtWord) ((l.length + tail.length) / 64) (l ++ tail) ShaMix.start
  (m.up ++ m.dn).flatMap (fun w => (leBytes 4 w.toNat).reverse)

end Sys2Proof.Machine
end

