-- ==== Sys2Proof/Machine/Boot.lean ====
section
/-!
DEFINITION. Boot.lean: images and compatibility (19_images): commit records and slots (R323), image checks (R324), the
pairing (R326, R327), the service level (R24), the calibration record (R330), the floor (R325).
-/

namespace Sys2Proof.Machine

/-! ### Flash -/

/-- `n` bytes of the flash from `off`; an erased byte reads 0xFF. -/
def State.flashBytes (s : State) (off n : Nat) : List Byte := smGetAll 0xFF s.flash off n

/-- Offset of the commit record of a slot; `b` names slot B (Table Images-2). -/
def commitAt (b : Bool) : Nat := if b then 0x1000 else 0

/-- Offset of a slot. -/
def slotAt (b : Bool) : Nat := if b then 0x200000 else 0x100000

/-- Every byte is zero. -/
def allZero (l : List Byte) : Bool := l.all (fun b => b == 0)

/-- A commit record makes its slot a candidate (R323). -/
def commitOk (b : Bool) (r : List Byte) : Bool :=
  leAt r 0 4 == 0x534C4F54 && leAt r 4 1 == b.toNat && leAt r 5 1 == 0 && leAt r 6 2 == 1
    && 256 ≤ leAt r 12 4 && leAt r 12 4 ≤ 1048576 && allZero ((r.drop 48).take 12)
    && (crc32c (r.take 60)).toNat == leAt r 60 4

/-- Sequence number `a` is newer than `b` (R323). -/
def seqNewer (a b : Nat) : Bool :=
  let d := (a + 2 ^ 32 - b % 2 ^ 32) % 2 ^ 32
  1 ≤ d && d ≤ 2 ^ 31 - 1

/-- Candidates of the two commit records, the first to be tried first (R323). -/
def slotOrder (s : State) : List Bool :=
  let ra := s.flashBytes (commitAt false) 64
  let rb := s.flashBytes (commitAt true) 64
  let okA := commitOk false ra
  let okB := commitOk true rb
  if okA && okB then (if seqNewer (leAt rb 8 4) (leAt ra 8 4) then [true, false] else [false, true])
  else if okA then [false]
  else if okB then [true]
  else []

/-- The slot header: magic, aligned parts inside the content, zero bytes (Table Images-4). -/
def slotHeaderOk (h : List Byte) (len : Nat) : Bool :=
  let part (i : Nat) : Bool :=
    let o := leAt h (4 + 8 * i) 4
    let n := leAt h (8 + 8 * i) 4
    (i == 2 && o == 0 && n == 0) || (o % 64 == 0 && o + n ≤ len)
  leAt h 0 4 == 0x5A534C31 && part 0 && part 1 && part 2 && allZero ((h.drop 28).take 36)

/-- Entries of the tested-pairs table of an image body, 8 bytes each. -/
def pairEntries (img : List Byte) : List (List Byte) :=
  let off := leAt img 20 3
  let n := leAt img 23 1
  (List.range n).map (fun i => ((img.drop (128 + off + 8 * i)).take 8))

/-- Check 1 of R324 over an image part of kind `kind`. -/
def imageFormOk (kind : Nat) (img : List Byte) : Bool :=
  let body := leAt img 12 4
  leAt img 0 2 == 0x4D49 && leAt img 2 1 == kind && leAt img 3 1 == 1
    && leAt img 7 1 == (if kind = 3 then 3 else 0)
    && leAt img 8 4 ≤ 256
    && (kind == 1 || leAt img 16 4 == 0)
    && (if kind = 3 then leAt img 20 4 == 0
        else leAt img 23 1 ≤ 64 && leAt img 20 3 + 8 * leAt img 23 1 ≤ body
          && (pairEntries img).all (fun e => allZero (e.drop 6)))
    && allZero ((img.drop 56).take 72)
    && 128 + body + 64 ≤ img.length
    && (kind != 1 || body ≤ 262144)

/-- The verdict over one image (R324): 0 or the first failing code. -/
def imageVerdict (kind floor : Nat) (img : List Byte) : Code :=
  let body := leAt img 12 4
  if !imageFormOk kind img then eBootImage
  else if sha256 ((img.drop 128).take body) ≠ (img.drop 24).take 32 then eBootHash
  else if !Config.imageSigOk ((img.drop (128 + body)).take 64) (sha256 (img.take 128)) then eBootSignature
  else if leAt img 8 4 < floor then eBootRollback
  else 0

/-- A part of a slot's content by its index in the slot header: 0 steward, 1 withy, 2 patch bundle. -/
def slotPart (content : List Byte) (i : Nat) : List Byte :=
  (content.drop (leAt content (4 + 8 * i) 4)).take (leAt content (8 + 8 * i) 4)

/-- The content of a slot over `len` bytes. -/
def State.slotContent (s : State) (b : Bool) (len : Nat) : List Byte := s.flashBytes (slotAt b) len

/-- Value of fuse counter 0. -/
def State.floorVal (s : State) : Nat := counterValue (counterBits s.fuseWord 0)

/-- The slot-header rule and R324 over the content of a slot. -/
def contentVerdict (floor : Nat) (content : List Byte) : Code :=
  if !slotHeaderOk content content.length then eBootImage
  else if imageVerdict 1 floor (slotPart content 0) ≠ 0 then imageVerdict 1 floor (slotPart content 0)
  else imageVerdict 2 floor (slotPart content 1)

/-- The verdict over a candidate slot at start-up: content hash, slot header, both images. -/
def slotVerdict (s : State) (b : Bool) : Code :=
  let r := s.flashBytes (commitAt b) 64
  let content := s.slotContent b (leAt r 12 4)
  if sha256 content ≠ (r.drop 16).take 32 then eBootHash else contentVerdict s.floorVal content

/-! ### The running combination -/

/-- An image's table holds the entry of the running combination (R326). -/
def pairListed (gen sv wv : Nat) (img : List Byte) : Bool :=
  (pairEntries img).any (fun e => leAt e 0 1 == 3 && leAt e 1 1 == gen && leAt e 2 2 == sv && leAt e 4 2 == wv)

/-- The images of slot `b` run: versions, generations, SEC_VER, pairing and the generation tuple. -/
def takeImages (b fallback : Bool) (s : State) : State :=
  let content := s.slotContent b (leAt (s.flashBytes (commitAt b) 64) 12 4)
  let st := slotPart content 0
  let wi := slotPart content 1
  let sv := leAt st 4 2
  let wv := leAt wi 4 2
  let gen := s.boot.patchGen.toNat
  let ok := pairListed gen sv wv st && pairListed gen sv wv wi
  let s := { s with boot := { s.boot with
    verified := true, paired := ok, stewardVer := BitVec.ofNat 16 sv, withyVer := BitVec.ofNat 16 wv,
    stewardIf := BitVec.ofNat 8 (leAt st 6 1), withyIf := BitVec.ofNat 8 (leAt wi 6 1),
    secVer := min (leAt st 8 4) (leAt wi 8 4) } }
  let s := (s.setFld Reg.bootStatus 0 2 (if b then 2 else 1)).setFlag Reg.bootStatus 4 fallback
  (s.setReg Reg.bootTupleLo (BitVec.ofNat 32 s.tuple)).setReg Reg.bootTupleHi (BitVec.ofNat 32 (s.tuple / 2 ^ 32))

/-- No slot boots: the boot ROM serves Thumbling (R323). -/
def serveRom (s : State) : State :=
  let s := { s with boot := { s.boot with verified := true, paired := false } }
  let s := s.setFld Reg.bootStatus 0 2 0
  let s := (s.setReg Reg.bootTupleLo (BitVec.ofNat 32 s.tuple)).setReg Reg.bootTupleHi (BitVec.ofNat 32 (s.tuple / 2 ^ 32))
  latch eBootNoImage 0 s

/-- The candidates are tried in order; a failing one leaves its code in BOOT_SLOT_A or _B (R323). -/
def trySlots : List Bool → Bool → State → State
  | [], _, s => serveRom s
  | b :: l, fallback, s =>
    let c := slotVerdict s b
    let s := s.setReg (if b then Reg.bootSlotB else Reg.bootSlotA) (BitVec.ofNat 32 c.toNat)
    if c = 0 then takeImages b fallback s else trySlots l true s

/-- Reading and verifying the images ends (R323, R324); at a cold start the steward starts and the self-test runs. -/
def imageVerifyDone (s : State) : State :=
  match s.power.phase with
  | .imaging =>
    let s := trySlots s.boot.order false s
    { s with power := { s.power with phase := .selfTest } }
  | .waking => if s.cclkRuns && !s.boot.verified then trySlots (slotOrder s) false s else s
  | _ => s

/-- IMAGE_VERIFY_DONE (R324). -/
def execImageVerifyDone (s : State) : Outcome := .next (imageVerifyDone s)

/-! ### The service level -/

/-- Array `a` of core `n` is good: its width class is 31 or 32 and its patterns passed. -/
def State.arrayGood (s : State) (n a : Nat) : Bool :=
  1 ≤ s.fld (Reg.coreArrayStatus n a) 0 2 && s.boot.test.arraysOk.getLsbD (4 * n + a)

/-- Good arrays of a core. -/
def State.goodArrays (s : State) (n : Nat) : Nat := ((List.range 4).filter (s.arrayGood n)).length

/-- The running alternate of a weave. -/
def State.alternate (s : State) : Option Alternate :=
  match s.weave.run with
  | some d => d.alternates[s.weave.alt.toNat]?
  | none => none

/-- Ports of this package that the running weave's topology uses. -/
def State.usedPorts (s : State) : List Port :=
  match s.weave.run with
  | some d => (d.ports.filter (fun p => p.pkg == s.pkg)).map (fun p => p.port)
  | none => []

/-- The running weave uses the weigh front end of this package: it owns a barrier input. -/
def State.usesWfe (s : State) : Bool :=
  match s.alternate with
  | some a => a.owners.any (fun o => o.owner == s.pkg)
  | none => false

/-- Core `n` is in the count of a service level: EN was set at the last weave load (R192). -/
def State.counted (s : State) (n : Nat) : Bool := s.boot.coresIn.getLsbD n

/-- The units of Full service pass (Table Basket-6). -/
def State.fullUnits (s : State) : Bool :=
  let t := s.boot.test
  t.pixCode == 0 && t.storeCode == 0
    && (List.range 16).all (fun n => s.counted n && s.goodArrays n == 4 && t.vectorOk.getLsbD n && t.spindleOk.getLsbD n)
    && (!s.usesWfe || t.wfeCode == 0)
    && s.usedPorts.all (fun p => t.portsOk.getLsbD (portNum p))
    && (!s.anchor || t.pcieCode == 0)

/-- The units of Reduced reading pass. -/
def State.reducedUnits (s : State) : Bool :=
  s.boot.test.pixCode == 0 && s.boot.test.storeCode == 0 && (List.range 16).any (fun n => s.counted n && decide (2 ≤ s.goodArrays n))

/-- The highest level whose required units all pass (R24, R25, R323, R326, R327). -/
def State.levelNow (s : State) : Nat :=
  let held := s.lifecycle = 4 || s.fld Reg.bootStatus 0 2 = 0
    || (s.flag Reg.bootStatus 2 && !s.flag Reg.bootStatus 3) || !s.boot.test.stewardOk
  if held then 0 else if s.fullUnits then 2 else if s.reducedUnits then 1 else 0

/-- LEVEL and LEVEL_SET (R24). -/
def setLevel (s : State) : State := (s.setFld Reg.idStatus 0 2 s.levelNow).setFlag Reg.idStatus 3 true

/-- A weave load takes the cores whose EN is clear out of the count; the level never rises there (R24, R192). -/
def countCores (s : State) : State :=
  let m := (List.range 16).foldl (fun m n => if s.flag (Reg.coreCtl n) 0 then m + 2 ^ n else m) 0
  let s := { s with boot := { s.boot with coresIn := BitVec.ofNat 16 m } }
  if s.levelNow < s.level then setLevel s else s

/-- The reports that wait for the host interface go out: E_PATCH_DUP (R320) and E_BOOT_UNTESTED (R326). -/
def postDue (s : State) : State :=
  let dup := s.boot.dupDue
  let untested := s.boot.untestedDue
  let s := { s with boot := { s.boot with dupDue := false, untestedDue := false } }
  let s := if dup then postEvent ePatchDup 0 s else s
  if untested then postEvent eBootUntested 0 s else s

/-- Self-test results stand, the pairing is judged and the level is set (R24, R326). Reports wait for the host
interface; a stake, which has none, posts them at once. -/
def judgeSelfTest (r : SelfTest) (s : State) : State :=
  let untested := s.fld Reg.bootStatus 0 2 ≠ 0 && !s.boot.paired
  let s := { s with boot := { s.boot with test := r, testNs := s.nowNs, serving := true,
                                          untestedDue := untested } }
  let s := setLevel (s.setFlag Reg.bootStatus 2 untested)
  if s.anchor then s else postDue s

/-- The start-up self-test ends: the package runs and serves its BARs (Table Images-1). -/
def selftestDone (r : SelfTest) (s : State) : State :=
  match s.power.phase with
  | .selfTest =>
    let s := judgeSelfTest r s
    { s with power := { s.power with phase := .run } }
  | _ => s

/-- SELFTEST_DONE (R24). -/
def execSelftestDone (r : SelfTest) (s : State) : Outcome := .next (selftestDone r s)

/-! ### BOOT commands -/

/-- A write of BOOT_CMD that sets more than one bit (R340). -/
def bootMany (bits : BitVec 4) : Bool := 1 < popCount 4 bits.toNat

/-- BOOT_CMD.RAISE_FLOOR (R325): counter 0 rises to the smaller SEC_VER of the running images through CTR_SET; a
target at or below the current value gives no pulse. VIO is within range in Run (log entry 22). -/
def raiseFloor (bits : BitVec 4) (s : State) : State :=
  if !s.answers Reg.bootCmd then s
  else if bootMany bits then refuse eBootKind s
  else if !bits.getLsbD 1 then s
  else if s.fld Reg.bootStatus 0 2 = 0 then refuse eBootNoImage s
  else if s.flag Reg.bootStatus 2 then refuse eBootUntested s
  else if s.boot.secVer ≤ s.floorVal then s
  else fuseCommand 6 0 (BitVec.ofNat 32 s.boot.secVer) true true s

/-- BOOT_RAISE_FLOOR (R325). -/
def execBootRaiseFloor (bits : BitVec 4) (s : State) : Outcome := .next (raiseFloor bits s)

/-- BOOT_CTL.PAIR_OVERRIDE written to 1 (R327). -/
def pairOverride (s : State) : State :=
  if !s.answers Reg.bootCtl then s
  else if s.lifecycle ≠ 1 || !s.flag Reg.bootStatus 2 then refuse eBootOverride s
  else setLevel ((s.setFlag Reg.bootCtl 0 true).setFlag Reg.bootStatus 3 true)

/-- PAIR_OVERRIDE (R327). -/
def execPairOverride (s : State) : Outcome := .next (pairOverride s)

/-! ### The calibration record -/

/-- A part of the calibration record in flash at `off`, of at most `max` bytes: header and body pass (Table Images-7). -/
def State.calPart (s : State) (off max num : Nat) : Option (List Byte) :=
  let h := s.flashBytes off 64
  let n := leAt h 8 4
  if leAt h 0 4 = 0x43414C31 ∧ leAt h 4 4 = num ∧ 64 + n ≤ max ∧ allZero ((h.drop 16).take 44) = true
      ∧ (crc32c (h.take 60)).toNat = leAt h 60 4 ∧ (crc32c (s.flashBytes (off + 64) n)).toNat = leAt h 12 4
  then some (s.flashBytes off (64 + n)) else none

/-- Flash size in bytes. -/
def State.flashSize (s : State) : Nat := 2 ^ s.fld Reg.bootFlash 0 8

/-- One part is copied into the calibration area, or its failure is posted (R330). -/
def calCopy (part : Option (List Byte)) (dst okBit : Nat) (s : State) : State :=
  match part with
  | some l => (wrMem dst l s).setFlag Reg.bootStatus okBit true
  | none => postEvent eBootCal 0 (s.setFlag Reg.bootStatus okBit false)

/-- The calibration record has been read (R330): parts that pass stand in the calibration area, in the order of the
flash; ROI_TRI_BASE holds the address of the integrator part's body, or 0 (log entry 23). -/
def calLoadDone (s : State) : State :=
  match s.power.phase with
  | .run =>
    if s.flag Reg.bootStatus 5 then s
    else
      let fits := 0x1800000 ≤ s.flashSize
      let baora := if fits then s.calPart 0x400000 0x1200000 1 else none
      let integ := if fits then s.calPart 0x1600000 0x200000 2 else none
      let s := calCopy baora 0x40000000 6 s
      let s := calCopy integ 0x41200000 7 s
      let s := s.setReg Reg.roiTriBaseLo (if integ.isSome then 0x41200040 else 0)
      readImage ((s.setReg Reg.roiTriBaseHi 0).setFlag Reg.bootStatus 5 true)
  | _ => s

/-- CAL_LOAD_DONE (R330). -/
def execCalLoadDone (s : State) : Outcome := .next (calLoadDone s)

end Sys2Proof.Machine
end

