-- ==== Sys2Proof/Machine/Power.lean ====
section
/-!
DEFINITION. Power.lean: reset, rails, start-up (19_images, R321), Doze and Slumber, wakes (17_power), boundary scan
(R350), sensors and the throttle order (R296-R300), and the causes of a package-fatal fault (R274, R344).
-/

namespace Sys2Proof.Machine

/-! ### The start-up sequence -/

/-- The package stands in phase `p`. -/
def setPhase (p : Phase) (s : State) : State := { s with power := { s.power with phase := p } }

/-- Both rail enables rise (R287). -/
def raiseRails (s : State) : State :=
  ({ s with power := { s.power with railA := true, railB := true, latchNs := s.nowNs } }.emit (.ball .railenA true)).emit
    (.ball .railenB true)

/-- Both rail enables fall. -/
def dropRails (s : State) : State :=
  ({ s with power := { s.power with railA := false, railB := false, pgoodA := false, pgoodB := false } }.emit
    (.ball .railenA false)).emit (.ball .railenB false)

/-- The sequence of Table Images-1 from fuse sensing on, with the rails up; with a rail group not good, from the rail
enables on (R321). -/
def startSequence (s : State) : State :=
  if s.power.pgoodA && s.power.pgoodB then senseFuses s else setPhase .rails (raiseRails s)

/-- RESET_N rises with VAON valid (R321, R14): the balls are sampled and the rail enables rise; FAULT is low (R343). -/
def coldStart (pkgId : BitVec 6) (anchorEn : Bool) (s : State) : State :=
  match s.power.phase with
  | .inReset =>
    let strap : BitVec 7 := BitVec.ofNat 7 (pkgId.toNat + anchorEn.toNat * 64)
    let s := { s with power := { s.power with strap1 := strap, strap2 := strap, phase := .rails } }
    raiseRails (s.emit (.ball .fault false))
  | _ => s

/-- COLD_START (R321). -/
def execColdStart (pkgId : BitVec 6) (anchorEn : Bool) (s : State) : Outcome := .next (coldStart pkgId anchorEn s)

/-- The straps are sampled again 1 ms after reset release; a difference is reported and the first sample stands
(R341). -/
def strapResample (pkgId : BitVec 6) (anchorEn : Bool) (s : State) : State :=
  match s.power.phase with
  | .inReset => s
  | _ =>
    if s.power.resampled || s.nowNs < 1000000 then s
    else
      let strap : BitVec 7 := BitVec.ofNat 7 (pkgId.toNat + anchorEn.toNat * 64)
      let s := { s with power := { s.power with strap2 := strap, resampled := true } }
      if strap = s.power.strap1 then s
      else postEvent eIdStrap (BitVec.ofNat 128 (s.power.strap1.toNat + strap.toNat * 2 ^ 8)) s

/-- STRAP_RESAMPLE (R341). -/
def execStrapResample (pkgId : BitVec 6) (anchorEn : Bool) (s : State) : Outcome :=
  .next (strapResample pkgId anchorEn s)

/-- A power-good input rises; the weigh reference settles from PGOOD_A on (R295, R135). -/
def setPgood (g : RailGroup) (s : State) : State :=
  match g with
  | .a =>
    let at' := if s.power.pgoodA then s.wfe.settledAt else s.time.pcyc
    { s with power := { s.power with pgoodA := s.power.railA }, wfe := { s.wfe with settledAt := at' } }
  | .b => { s with power := { s.power with pgoodB := s.power.railB } }

/-- A rail group reports power-good; with both good the fuses are sensed (R287, R303, R305). -/
def pgoodRise (g : RailGroup) (s : State) : State :=
  let s := setPgood g s
  if s.power.pgoodA && s.power.pgoodB then
    match s.power.phase with
    | .rails => senseFuses s
    | .waking =>
      let s := senseFuses s
      (match s.power.phase with
       | .locking => setPhase .waking s
       | _ => s)
    | _ => s
  else s

/-- PGOOD_RISE (R287). -/
def execPgoodRise (g : RailGroup) (s : State) : Outcome := .next (pgoodRise g s)

/-- The power-good level of a group. -/
def State.pgood (s : State) : RailGroup → Bool
  | .a => s.power.pgoodA
  | .b => s.power.pgoodB

/-- PGOOD still low 1.0 ms after the enable rose: the wake stops, both enables drop, the package is in Slumber, and
the next successful wake reports it (R287). A cold start stops in the same way (log entry 24). -/
def railTimeout (g : RailGroup) (s : State) : State :=
  if s.pgood g || s.nowNs < s.power.latchNs + 1000000 then s
  else
    let stop := { setPhase .slumber (dropRails s) with
      power := { (setPhase .slumber (dropRails s)).power with timeoutRec := true } }
    match s.power.phase with
    | .rails => stop
    | .waking => stop
    | _ => s

/-- RAIL_TIMEOUT (R287). -/
def execRailTimeout (g : RailGroup) (s : State) : Outcome := .next (railTimeout g s)

/-- `n` low pulses of FAULT. -/
def faultPulses : Nat → State → State
  | 0, s => s
  | n + 1, s => faultPulses n ((s.emit (.ball .fault false)).emit (.ball .fault true))

/-- One frame of a package held in reset: N low pulses on FAULT and a whisper PRESENCE beacon on every port (R306). -/
def faultBeacon (s : State) : State :=
  match s.power.phase with
  | .heldFuse n =>
    let m := whisperMsg 4 2 (s.pkg.toNat + (0xE0 + n.toNat) * 2 ^ 8)
    allPorts.foldl (fun s p => s.emit (.whisper p m)) (faultPulses n.toNat s)
  | _ => s

/-- FAULT_BEACON (R306). -/
def execFaultBeacon (s : State) : Outcome := .next (faultBeacon s)

/-- Flash parameters from SFDP discovery (R322). -/
def takeSfdp (f : Sfdp) (s : State) : State :=
  let mhz := if f.io = 0 then 50 else 104
  let w := if f.usable then f.log2Size.toNat + f.addr4.toNat * 2 ^ 8 + f.io.toNat * 2 ^ 9 + mhz * 2 ^ 16
           else 24 + 20 * 2 ^ 16
  let s := { s with boot := { s.boot with sfdp := f } }
  let s := (s.setReg Reg.bootFlash (BitVec.ofNat 32 w)).setFlag Reg.bootStatus 8 f.usable
  if f.usable then s else latch eFlashSfdp 0 s

/-- The lock bits of the PLLs that lock; the profile phase then follows belt time (R28, R29). Where cclk starts with the
core PLL's lock, the beat counter is computed (R40); a measurement by whisper ends (R30). -/
def setLocks (plls : BitVec 3) (s : State) : State :=
  let s := s.setFld Reg.clkStatus 0 3 (s.fld Reg.clkStatus 0 3 ||| plls.toNat)
  let s := s.setFlag Reg.clkStatus 3 true
  if s.flag Reg.clkStatus 0 && !s.time.cclk then
    recomputeBeat { s.setFlag Reg.clkStatus 5 true with time := { s.time with cclk := true, lastWhisper := none } }
  else s

/-- PLLs lock (R28). At a cold start, with all three locked, the flash parameters are read and the slots are ordered
(R322, R323). -/
def pllLock (plls : BitVec 3) (f : Sfdp) (s : State) : State :=
  match s.power.phase with
  | .locking =>
    let s := setLocks plls s
    if s.fld Reg.clkStatus 0 3 = 7 then
      let s := takeSfdp f s
      setPhase .imaging { s with boot := { s.boot with order := slotOrder s } }
    else s
  | .waking => if s.flag Reg.fuseStatus 16 then setLocks plls s else s
  | .run => if s.time.relocking then s else setLocks plls s
  | .enteringDoze => setLocks plls s
  | .enteringSlumber => setLocks plls s
  | _ => s

/-- PLL_LOCK (R28). -/
def execPllLock (plls : BitVec 3) (f : Sfdp) (s : State) : Outcome := .next (pllLock plls f s)

/-- Every domain other than the always-on one is reset and the sequence starts at fuse sensing (R321). A package held
by TRIP or by a scan instruction stays held. -/
def warmReset (s : State) : State :=
  match s.power.phase with
  | .inReset => s
  | .heldTrip => domainReset .heldTrip s
  | .heldScan => domainReset .heldScan s
  | p => startSequence (domainReset p s)

/-- PERST# on an anchor; a stake ignores it (R321, R342). -/
def perstAssert (s : State) : State := if s.anchor then warmReset s else s

/-- PERST_ASSERT (R321). -/
def execPerstAssert (s : State) : Outcome := .next (perstAssert s)

/-- BOOT_CMD.REBOOT (R321, R340). -/
def bootReboot (bits : BitVec 4) (s : State) : State :=
  if !s.answers Reg.bootCmd then s
  else if bootMany bits then refuse eBootKind s
  else if bits.getLsbD 0 then warmReset s
  else s

/-- BOOT_REBOOT (R321). -/
def execBootReboot (bits : BitVec 4) (s : State) : Outcome := .next (bootReboot bits s)

/-- RESET_N falls, or power is lost: the whole package is in reset; fuses and flash stay, and a fuse word being
programmed is left partial (R312, R321). -/
def resetNAssert (s : State) : State :=
  let s := fuseAbort s
  { State.reset with
    pending := s.pending, out := s.out, freeCtr := s.freeCtr, flash := s.flash,
    fuse := { s.fuse with shadow := [], cmd := none } }

/-- RESET_N_ASSERT (R321). -/
def execResetNAssert (s : State) : Outcome := .next (resetNAssert s)

/-! ### Package-fatal faults -/

/-- A package-fatal fault and the sequence towards the self-test (R274). -/
def packageFatal (f : FaultReport) (s : State) : State :=
  match s.power.phase with
  | .run => startSequence (packageFault f .fatal s)
  | .enteringDoze => startSequence (packageFault f .fatal s)
  | .enteringSlumber => startSequence (packageFault f .fatal s)
  | _ => s

/-- WATCHDOG_EXPIRY (R274). -/
def execWatchdogExpiry (s : State) : Outcome := .next (packageFatal ⟨eFaultWatchdog, 3, 6, 0, 0⟩ s)

/-- A rail outside its range for 10 µs: in Run a PACKAGE fault; outside Run no action (R344, Table Faults-2). -/
def railFault (s : State) : State :=
  match s.power.phase with
  | .run => packageFatal ⟨eFaultRail, 3, 9, 0, 0⟩ s
  | _ => s

/-- RAIL_FAULT (R344). -/
def execRailFault (s : State) : Outcome := .next (railFault s)

/-- PACKAGE_FATAL (R274): a package-fatal cause with no code of its own (log entry 21). -/
def execPackageFatal (s : State) : Outcome := .next (packageFatal ⟨0, 3, 6, 0, 0⟩ s)

/-! ### Boundary scan -/

/-- The instructions that take the pins: EXTEST, CLAMP, HIGHZ. -/
def scanTakesPins (ir : BitVec 4) : Bool := ir = 0 || ir = 2 || ir = 3

/-- An instruction becomes current (R350). -/
def bscanInstruction (ir : BitVec 4) (s : State) : State :=
  match s.power.phase with
  | .inReset => s
  | _ =>
    let s := { s with power := { s.power with ir := ir } }
    if scanTakesPins ir then
      if s.weaveRuns then packageFault ⟨eIdBscan, 3, 6, 0, 0⟩ .heldScan s else domainReset .heldScan s
    else s

/-- BSCAN_INSTRUCTION (R350). -/
def execBscanInstruction (ir : BitVec 4) (s : State) : Outcome := .next (bscanInstruction ir s)

/-- Test-Logic-Reset: BYPASS is current; a package held by a scan instruction goes on to its self-test (R350). -/
def testLogicReset (s : State) : State :=
  let s := { s with power := { s.power with ir := 0xF } }
  match s.power.phase with
  | .heldScan => startSequence s
  | _ => s

/-- TEST_LOGIC_RESET (R350). -/
def execTestLogicReset (s : State) : Outcome := .next (testLogicReset s)

/-! ### Sleep -/

/-- PWR_CMD.ENTER with code Doze (R289). -/
def enterDoze (s : State) : State :=
  match s.power.phase with
  | .run => if s.weaveRuns then refuse ePwrRunning s else setPhase .enteringDoze s
  | _ => s

/-- PWR_ENTER_DOZE (R289). -/
def execPwrEnterDoze (s : State) : Outcome := .next (gateWrite Reg.pwrCmd enterDoze s)

/-- Data that Slumber would destroy (R289). -/
def State.slumberBusy (s : State) : Bool :=
  s.serve.reqs.any (fun r => r.2.st != .free) || s.host.records.any (fun r => r.held) || !s.serve.hostSlots.isEmpty

/-- PWR_CMD.ENTER with code Slumber, judged as R289 gives. -/
def enterSlumber (s : State) : State :=
  match s.power.phase with
  | .run =>
    if s.weaveRuns then refuse ePwrRunning s
    else if s.slumberBusy then refuse ePwrBusy s
    else if s.fld Reg.pwrWakeCfg 0 4 = 0 then refuse ePwrNoWake s
    else if s.flag Reg.pwrWakeCfg 2 && s.pair Reg.pwrWakeAtLo Reg.pwrWakeAtHi ≤ s.nowNs then refuse ePwrWakePast s
    else setPhase .enteringSlumber s
  | _ => s

/-- PWR_ENTER_SLUMBER (R289). -/
def execPwrEnterSlumber (s : State) : Outcome := .next (gateWrite Reg.pwrCmd enterSlumber s)

/-- A port at sleep entry: WHISPER if WHISPER_EN is set or it whispers already, else OFF (Table Withy-4). The delay,
the peer and the session epoch stay. -/
def sleepPort (we : Bool) (x : LinkPort) : LinkPort :=
  { LinkPort.reset with state := if we || x.state == .whisper then .whisper else .off, d := x.d, peer := x.peer,
                        epoch := x.epoch }

/-- SLEEP goes out on every port that is not OFF, and every port sleeps (R289). -/
def sleepPorts (s : State) : State :=
  allPorts.foldl (fun s p =>
    let we := s.flag (Reg.withyPCfg (portNum p)) 1
    let s := if (s.port p).state == .off then s else s.emit (.whisper p (whisperMsg 3 0 0))
    s.setPort p (sleepPort we (s.port p))) s

/-- What every sleep loses: the scratchpads and the state of the pixel die and the weigh front end (R288). -/
def losePads (s : State) : State :=
  { s with mem := s.mem.filter (fun p => decide (0x1000000 ≤ p.1)),
           poison := s.poison.filter (fun p => decide (0x100000 ≤ p.1)),
           regs := s.regs.filter (fun p => decide (¬(0xC000 ≤ p.1 ∧ p.1 < 0xD000) ∧ ¬(0x10000 ≤ p.1 ∧ p.1 < 0x11000))),
           pix := PixState.reset, wfe := WfeState.reset }

/-- Doze: the pixel die and the weigh front end lose power, the PLLs stop (R288, R289). -/
def dozeNow (s : State) : State :=
  let s := losePads s
  let s := s.setFld Reg.clkStatus 0 3 0
  let s := { s with time := { s.time with cclk := false } }
  setPhase .doze ({ s with power := { s.power with railA := false, pgoodA := false } }.emit (.ball .railenA false))

/-- Slumber: only the always-on domain runs; the basket record, PCIe configuration and flash parameters are retained
(Table Power-2, R293). -/
def slumberNow (s : State) : State :=
  let t := domainReset .slumber s
  dropRails { t with
    basket := { t.basket with pn := s.basket.pn, pe := s.basket.pe, ps := s.basket.ps, pw := s.basket.pw,
                              principal := s.basket.principal, isPrincipal := s.basket.isPrincipal,
                              upstream := s.basket.upstream, hops := s.basket.hops },
    host := { t.host with bme := s.host.bme },
    boot := { t.boot with sfdp := s.boot.sfdp },
    regs := smSet 0 t.regs Reg.bootFlash (s.reg Reg.bootFlash) }

/-- Once no descriptor is in flight the entry ends: SLEEP messages, ports, rails, PWR_SLEEPS (R289). -/
def entryComplete (s : State) : State :=
  match s.power.phase with
  | .enteringDoze =>
    if s.host.flights.isEmpty then dozeNow (sleepPorts (s.setReg Reg.pwrSleeps (s.reg Reg.pwrSleeps + 1))) else s
  | .enteringSlumber =>
    if s.host.flights.isEmpty then slumberNow (sleepPorts (s.setReg Reg.pwrSleeps (s.reg Reg.pwrSleeps + 1))) else s
  | _ => s

/-- POWER_ENTRY_COMPLETE (R289). -/
def execPowerEntryComplete (s : State) : Outcome := .next (entryComplete s)

/-! ### Wakes -/

/-- With FLOOD set, a whisper WAKE of this package goes out on every port in WHISPER state (R292, R51); its reason byte
is the wake source (log entry 25). -/
def floodWake (code : Nat) (s : State) : State :=
  if !s.flag Reg.pwrWakeCfg 8 then s
  else
    let sq := s.basket.wakeSeq + 1
    let m := whisperMsg 2 11 (s.pair Reg.pwrWakeMaskLo Reg.pwrWakeMaskHi + s.pkg.toNat * 2 ^ 64
      + sq.toNat * 2 ^ 72 + code * 2 ^ 80)
    allPorts.foldl (fun s p => if (s.port p).state == .whisper then s.emit (.whisper p m) else s)
      { s with basket := { s.basket with wakeSeq := sq } }

/-- A wake is latched (R292): an entry in progress is abandoned, a sleeping package starts to wake; one that already wakes
ignores it, but that WAKE_SRC takes the lower code of two sources of one a-tick (Table Power-9). -/
def wakeLatch (code : Nat) (s : State) : State :=
  let note (s : State) : State :=
    floodWake code { s.setFld Reg.pwrStatus 4 3 code with power := { s.power with latchNs := s.nowNs } }
  let lowerSrc (s : State) : State :=
    if s.power.latchNs = s.nowNs ∧ code < s.fld Reg.pwrStatus 4 3 then s.setFld Reg.pwrStatus 4 3 code else s
  match s.power.phase with
  | .enteringDoze => setPhase .run (note s)
  | .enteringSlumber => setPhase .run (note s)
  | .doze =>
    let s := note s
    setPhase .dozeWaking ({ s with power := { s.power with railA := true } }.emit (.ball .railenA true))
  | .slumber => setPhase .waking (raiseRails (note s))
  | .waking => lowerSrc s
  | .dozeWaking => lowerSrc s
  | _ => s

/-- CLKREQ#, or a PCIe access in Doze, on an anchor with PCIE_EN (Table Power-4). -/
def pcieWake (s : State) : State := if s.anchor && s.flag Reg.pwrWakeCfg 0 then wakeLatch 1 s else s

/-- PCIE_WAKE (R292). -/
def execPcieWake (s : State) : Outcome := .next (pcieWake s)

/-- Belt time has reached PWR_WAKE_AT with TIMER_EN (Table Power-4). -/
def wakeTimer (s : State) : State :=
  if s.flag Reg.pwrWakeCfg 2 && s.pair Reg.pwrWakeAtLo Reg.pwrWakeAtHi ≤ s.nowNs then wakeLatch 3 s else s

/-- WAKE_TIMER (R292). -/
def execWakeTimer (s : State) : Outcome := .next (wakeTimer s)

/-- The selected field input holds the selected level with IN_EN (Table Power-4). -/
def fieldInputWake (input : Fin 8) (level : Bool) (s : State) : State :=
  if s.flag Reg.pwrWakeCfg 3 && s.fld Reg.pwrWakeCfg 4 3 = input.val && s.flag Reg.pwrWakeCfg 7 = level then wakeLatch 4 s
  else s

/-- FIELD_INPUT_WAKE (R292). -/
def execFieldInputWake (input : Fin 8) (level : Bool) (s : State) : Outcome := .next (fieldInputWake input level s)

/-- A rail timeout of an earlier wake is reported (R287). -/
def reportTimeout (s : State) : State :=
  if s.power.timeoutRec then postEvent ePwrRailTimeout 0 { s with power := { s.power with timeoutRec := false } } else s

/-- PWR_WAKE_US: latch to Run. -/
def wakeUs (s : State) : State := s.setFld Reg.pwrWakeUs 0 16 (min 65535 ((s.nowNs - s.power.latchNs) / 1000))

/-- The principal anchor leads belt time on its REF_XI and counts as aligned (R28, R35, Table Time-5). -/
def leadTime (s : State) : State :=
  ((s.setFlag Reg.clkStatus 4 false).setFlag Reg.timeAlign 24 true).setFlag Reg.timeAlign 25 true

/-- The package reaches Run from Slumber: level, belt beat, and one JOIN to its retained principal; the principal
itself stands in its basket again (R293). -/
def wakeComplete (r : SelfTest) (s : State) : State :=
  match s.power.phase with
  | .waking =>
    if s.boot.verified && s.cclkRuns then
      let s := wakeUs (setPhase .run (judgeSelfTest r (recomputeBeat s)))
      let s := reportTimeout s
      if s.basket.isPrincipal then
        leadTime { s with basket := { s.basket with joined := true, outsider := false, principal := s.pkg } }
      else sendCtrl s.basket.upstream (joinWord s.pkg.toNat s.anchor.toNat s.tuple s.basketId.toNat) s
    else s
  | _ => s

/-- WAKE_COMPLETE (R293). -/
def execWakeComplete (r : SelfTest) (s : State) : Outcome := .next (wakeComplete r s)

/-- A Doze wake reaches Run 60 µs after the latch with its PLLs locked (R295). -/
def dozeWakeComplete (s : State) : State :=
  match s.power.phase with
  | .dozeWaking =>
    if s.nowNs < s.power.latchNs + 60000 then s
    else reportTimeout (wakeUs (setPhase .run (setLocks 7 s)))
  | _ => s

/-- DOZE_WAKE_COMPLETE (R295). -/
def execDozeWakeComplete (s : State) : Outcome := .next (dozeWakeComplete s)

/-! ### Sensors and the throttle order -/

/-- The greatest signed reading of a list of 16-bit codes. -/
def hottest (l : List (BitVec 16)) : Int := l.foldl (fun m v => max m v.toInt) (-32768)

/-- A limit of THERM_LIMIT_P or _L in 0.1 degree: field 0 WARN, 1 ALT, 2 TRIP. -/
def State.thermLimit (s : State) (reg i : Nat) : Int := 10 * (s.fld reg (8 * i) 8 : Int)

/-- P or L has reached threshold `i`. -/
def thermAtLeast (s : State) (p l : Int) (i : Nat) : Bool :=
  decide (s.thermLimit Reg.thermLimitP i ≤ p) || decide (s.thermLimit Reg.thermLimitL i ≤ l)

/-- P and L both lie at least 5 degrees below threshold `i` (R297). -/
def thermBelow (s : State) (p l : Int) (i : Nat) : Bool :=
  decide (p + 50 ≤ s.thermLimit Reg.thermLimitP i) && decide (l + 50 ≤ s.thermLimit Reg.thermLimitL i)

/-- Readings are stored in THERM_Pk, THERM_Lk and THERM_MAX (R296). -/
def storeSensors (p l : List (BitVec 16)) (s : State) : State :=
  let s := (List.range 4).foldl (fun s k => s.setFld (Reg.thermP k) 0 16 (nthD 0 p k).toNat) s
  let s := (List.range 8).foldl (fun s k => s.setFld (Reg.thermL k) 0 16 (nthD 0 l k).toNat) s
  s.setReg Reg.thermMax (BitVec.ofNat 32 (codeOf 16 (hottest (p.take 4)) + codeOf 16 (hottest (l.take 8)) * 2 ^ 16))

/-- The stage falls by one, with NO_ALT cleared below ALTERNATE (R297, log entry 26). -/
def fallStage (s : State) : State :=
  let st := s.therm.stage - 1
  { s with therm := { s.therm with stage := st, noAlt := s.therm.noAlt && st == 2,
                                   normalNs := if st = 0 then some s.nowNs else none } }

/-- The throttle follows one sample in Run (R297, Table Power-6): consecutive samples at ALT and TRIP are counted,
WARN is entered, and a stage falls by one. -/
def throttle (p l : Int) (s : State) : State :=
  let t := s.therm
  let s := { s with therm := { t with
    sampled := true, altSeen := if thermAtLeast s p l 1 then t.altSeen + 1 else 0,
    tripSeen := if thermAtLeast s p l 2 then t.tripSeen + 1 else 0,
    normalNs := if t.stage = 0 && t.normalNs.isNone then some s.nowNs else t.normalNs } }
  if s.therm.stage = 0 then
    if thermAtLeast s p l 0 then
      postEvent eThermWarn 0 { s with therm := { s.therm with stage := 1, normalNs := none } }
    else s
  else if thermBelow s p l (s.therm.stage.toNat - 1) then fallStage s
  else s

/-- The band that T, in 0.1 degree, gives by itself (R95). -/
def rawBand (t : Int) : Nat := if t < 350 then 0 else min 7 ((t - 300) / 50).toNat

/-- The band moves up at once, and down only once T lies 1 degree below the lower edge of the current band (R95). -/
def bandDown (t : Int) (raw : Nat) : Nat → Nat
  | 0 => 0
  | b + 1 => if raw < b + 1 ∧ t ≤ 290 + 50 * ((b : Int) + 1) then bandDown t raw b else b + 1

/-- The band that follows band `b` at T (R95). -/
def bandStep (t : Int) (b : Nat) : Nat := bandDown t (rawBand t) (max b (rawBand t))

/-- The pixel bands follow a sample (R95, R296). -/
def bandSample (t : Int) (s : State) : State :=
  { s with pix := { s.pix with band := BitVec.ofNat 3 (bandStep t s.pix.band.toNat), hot := decide (700 ≤ t) } }

/-- A sample of the twelve sensors (R296); a package held by TRIP goes on to its self-test once P and L both lie
5 degrees below WARN (R298). -/
def sensorSample (p l : List (BitVec 16)) (s : State) : State :=
  let hp := hottest (p.take 4)
  let hl := hottest (l.take 8)
  match s.power.phase with
  | .run => throttle hp hl (bandSample hp (storeSensors p l s))
  | .enteringDoze => throttle hp hl (bandSample hp (storeSensors p l s))
  | .enteringSlumber => throttle hp hl (bandSample hp (storeSensors p l s))
  | .doze => throttle hp hl (storeSensors p l s)
  | .heldTrip =>
    let s := storeSensors p l s
    if thermBelow s hp hl 0 then startSequence s else s
  | _ => s

/-- SENSOR_SAMPLE (R296). -/
def execSensorSample (p l : List (BitVec 16)) (s : State) : Outcome := .next (sensorSample p l s)

/-- The running placement of this package is a thermal alternate (R299). -/
def State.coolNow (s : State) : Bool :=
  match s.alternate with
  | some a => a.cool.getLsbD s.pkg.toNat
  | none => false

/-- Some alternate of the running weave names this package in its COOL mask. -/
def State.coolExists (s : State) : Bool :=
  match s.weave.run with
  | some d => d.alternates.any (fun a => a.cool.getLsbD s.pkg.toNat)
  | none => false

/-- A thermal HALT: logged, counted, sent as for a WEAVE fault; during a restart it is recorded only (R276). -/
def thermalHalt (c : Code) (s : State) : State :=
  let s := logFault ⟨c, 2, 6, 0, 0⟩ s
  if s.fault.phase == .running then raiseHalt 2 (s.bumpSat Reg.thermAltCnt 16 1) else s

/-- The package enters ALTERNATE after 100 consecutive samples at ALT (R297, R299). -/
def thermalAlternate (s : State) : State :=
  if s.therm.altSeen < 100 || 2 ≤ s.therm.stage then s
  else
    let s := { s with therm := { s.therm with stage := 2, normalNs := none } }
    if s.coolNow then s
    else if s.coolExists then thermalHalt eThermAlternate s
    else postEvent eThermNoAlternate 0 { s with therm := { s.therm with noAlt := true } }

/-- THERMAL_ALTERNATE (R299). -/
def execThermalAlternate (s : State) : Outcome := .next (thermalAlternate s)

/-- A port of a package held by TRIP whispers (R298). -/
def whisperPort (x : LinkPort) : LinkPort := { LinkPort.reset with state := .whisper, d := x.d, peer := x.peer, epoch := x.epoch }

/-- Two consecutive samples at TRIP: package-fatal, held with its ports in WHISPER (R298). -/
def thermalTrip (s : State) : State :=
  if s.therm.tripSeen < 2 then s
  else
    let s := packageFault ⟨eThermTrip, 3, 6, 0, 0⟩ .heldTrip s
    allPorts.foldl (fun s p => s.setPort p (whisperPort (s.port p))) s

/-- THERMAL_TRIP (R298). -/
def execThermalTrip (s : State) : Outcome := .next (thermalTrip s)

/-- In a cool placement, RETURN_S seconds at NORMAL with RETURN_EN (R300). -/
def thermalReturn (s : State) : State :=
  match s.therm.normalNs with
  | some t =>
    if s.flag Reg.thermCtl 0 && s.weaveActive && s.coolNow && s.therm.stage = 0
        && t + s.fld Reg.thermCtl 8 8 * 1000000000 ≤ s.nowNs then thermalHalt eThermReturn s
    else s
  | none => s

/-- THERMAL_RETURN (R300). -/
def execThermalReturn (s : State) : Outcome := .next (thermalReturn s)

end Sys2Proof.Machine
end

