-- ==== Sys2Proof/Machine/Withy.lean ====
section
/-!
DEFINITION. Withy.lean: ports and training (R50, Table Withy-4), sessions and keys (R57, R58), the whisper (R51),
forming and joining the basket (R15, R16, R52, R53), TIME words (R33, R36, R39), loose messages (R54, R55), windows
(R60-R62) and forwarded register access (R63).
-/

namespace Sys2Proof.Machine

/-! ### Sessions -/

/-- A new session of a port: the next epoch, frame counters 0, no keys, full credits, nothing awaiting an ACK
(R55, R57, R58). -/
def freshSession (x : LinkPort) : LinkPort :=
  { x with epoch := x.epoch + 1, ctr := 0, keys := none, authBad := false, credits0 := 16, credits1 := 16,
           rxCtr := 0, lastGood := 0, naking := false, unacked := [], hdrErrs := [], keyxIn := [] }

/-- KEYX words that one side sends (log entry 13). -/
def keyxParts : Nat := 21

/-- With MODE other than OFF the key exchange begins with this side's KEYX words (R57). -/
def startKeyx (p : Port) (s : State) : State :=
  if s.cryptMode = 0 then s
  else (List.range keyxParts).foldl (fun s i =>
    sendCtrl p (keyxWord i (Config.keyxContent (portNum p) (s.port p).epoch.toNat i % 2 ^ 104)) s) s

/-- A new session begins on a port. Loose messages that no ACK has covered are kept and go out again in it (R56, log entry
62). -/
def newSession (p : Port) (s : State) : State :=
  let kept := (s.port p).unacked.map (fun u => u.2)
  startKeyx p { s.setPort p (freshSession (s.port p)) with
    basket := { (s.setPort p (freshSession (s.port p))).basket with outbox := kept ++ s.basket.outbox } }

/-- A WEAVE fault of a withy port; a cause with no code of its own carries 0x0000 (log entry 21). -/
def portFault (c : Code) (p : Port) : FaultReport := ⟨c, 2, 3, BitVec.ofNat 8 (portNum p), 0⟩

/-! ### Port states (Table Withy-4) -/

/-- A port in OFF or WHISPER enters TRAIN once the link PLL is locked; another state stays. -/
def portTrain (p : Port) (s : State) : State :=
  let x := s.port p
  if s.flag (Reg.withyPCfg (portNum p)) 0 && s.flag Reg.clkStatus 2 then
    match x.state with
    | .off => s.setPort p { x with state := .train, retry := false }
    | .whisper => s.setPort p { x with state := .train, retry := false }
    | _ => s
  else s

/-- A port is enabled or woken: EN is set where the registers answer, and the port enters TRAIN. -/
def portEnable (p : Port) (s : State) : State :=
  let s := if s.answers (Reg.withyPCfg (portNum p)) then s.setFlag (Reg.withyPCfg (portNum p)) 0 true else s
  portTrain p s

/-- PORT_ENABLE (R50). -/
def execPortEnable (p : Port) (s : State) : Outcome := .next (portEnable p s)

/-- A port switched off. -/
def offPort (x : LinkPort) : LinkPort := { LinkPort.reset with d := x.d, peer := x.peer, epoch := x.epoch }

/-- EN written to 0: OFF, or refused on a WOVEN port. -/
def portDisable (p : Port) (s : State) : State :=
  if !s.answers (Reg.withyPCfg (portNum p)) then s
  else if (s.port p).state == .woven then refuse eWithyRunning s
  else (s.setFlag (Reg.withyPCfg (portNum p)) 0 false).setPort p (offPort (s.port p))

/-- PORT_DISABLE (R50). -/
def execPortDisable (p : Port) (s : State) : Outcome := .next (portDisable p s)

/-- Width code of a set of locked lanes: 2 for x4, 1 for x2 on lanes 0-1 or 2-3, 0 for x1; none with no lane. -/
def widthOf (lanes : BitVec 4) : Option (BitVec 2) :=
  if lanes = 0xF then some 2
  else if bits lanes 0 2 = 3 || bits lanes 2 2 = 3 then some 1
  else if lanes = 0 then none
  else some 0

/-- Training that fails its width or its delay: reported, and tried again after 10 ms. -/
def trainFail (c : Code) (p : Port) (s : State) : State :=
  postEvent c (BitVec.ofNat 128 (portNum p)) (s.setPort p { s.port p with retry := true })

/-- Training of a port ends (R50): width, MIN_WIDTH, the delay limit of 52 w-cycles, then LINKED and a new session. DESIGN
CHOICE (log entry 64): a training in which no lane locks reports E_LINK_WIDTH. -/
def trainingComplete (p : Port) (lanes : BitVec 4) (d : BitVec 8) (peer : BitVec 6) (s : State) : State :=
  let x := s.port p
  match x.state with
  | .train =>
    (match widthOf lanes with
     | none => trainFail eLinkWidth p s
     | some w =>
       if w.toNat < s.fld (Reg.withyPCfg (portNum p)) 2 2 then trainFail eLinkWidth p s
       else if 52 < d.toNat then trainFail eLinkTooLong p s
       else newSession p (s.setPort p { x with state := .linked, width := w, lanes := lanes, d := d.setWidth 6,
                                               peer := peer, retry := false, sleepNs := none, peerIn := false, ctrlq := [] }))
  | _ => s

/-- TRAINING_COMPLETE (R50). -/
def execTrainingComplete (p : Port) (lanes : BitVec 4) (d : BitVec 8) (peer : BitVec 6) (s : State) : Outcome :=
  .next (trainingComplete p lanes d peer s)

/-- A port that failed its training tries again (R50). -/
def trainRetry (p : Port) (s : State) : State :=
  let x := s.port p
  if x.state == .train && x.retry then s.setPort p { x with retry := false } else s

/-- TRAIN_RETRY (R50). -/
def execTrainRetry (p : Port) (s : State) : Outcome := .next (trainRetry p s)

/-- The peer announced its sleep within the last 1 ms (R290). -/
def peerSleeps (s : State) (x : LinkPort) : Bool :=
  match x.sleepNs with
  | some t => s.nowNs ≤ t + 1000000
  | none => false

/-- A lane of a port fails (R50, R290, Table Withy-4, Table Withy-12). -/
def laneFailure (p : Port) (lane : Fin 4) (hasStatic : Bool) (s : State) : State :=
  let x := s.port p
  let narrower := { x with state := .train, lanes := x.lanes &&& ~~~(BitVec.ofNat 4 (2 ^ lane.val)), retry := false }
  if x.up && peerSleeps s x then
    s.setPort p (sleepPort (s.flag (Reg.withyPCfg (portNum p)) 1) { x with state := .linked })
  else match x.state with
    | .train => s.setPort p narrower
    | .linked => s.setPort p narrower
    | .woven => weaveFault (portFault 0 p) (s.setPort p narrower)
    | .rekey =>
      let s := s.setPort p narrower
      if hasStatic then weaveFault (portFault 0 p) s else s
    | _ => s

/-- LANE_FAILURE (R50). -/
def execLaneFailure (p : Port) (lane : Fin 4) (hasStatic : Bool) (s : State) : Outcome :=
  .next (laneFailure p lane hasStatic s)

/-- WITHY_CMD.RETRAIN: the port trains again, as after a lock failure. -/
def retrain (p : Port) (s : State) : State :=
  let x := s.port p
  if !s.answers Reg.withyCmd then s
  else match x.state with
    | .linked => s.setPort p { x with state := .train }
    | .rekey => s.setPort p { x with state := .train }
    | .woven => weaveFault (portFault 0 p) (s.setPort p { x with state := .train })
    | _ => s

/-- RETRAIN (R50). -/
def execRetrain (p : Port) (s : State) : Outcome := .next (retrain p s)

/-- A port enters REKEY and runs a new key exchange; with MODE ALL a weave that uses it restarts (R58). -/
def enterRekey (p : Port) (s : State) : State :=
  let x := s.port p
  let go (s : State) : State := newSession p (s.setPort p { s.port p with state := .rekey })
  match x.state with
  | .linked => go s
  | .woven =>
    let s := go s
    if s.cryptMode = 2 then weaveFault (portFault 0 p) s else s
  | _ => s

/-- WITHY_CMD.REKEY: no effect in REKEY. -/
def rekey (p : Port) (s : State) : State := if s.answers Reg.withyCmd then enterRekey p s else s

/-- REKEY (R58). -/
def execRekey (p : Port) (s : State) : Outcome := .next (rekey p s)

/-- The frame counter of the session would wrap (R58). -/
def counterWrap (p : Port) (s : State) : State :=
  if (s.port p).ctr = BitVec.allOnes 64 then enterRekey p s else s

/-- COUNTER_WRAP (R58). -/
def execCounterWrap (p : Port) (s : State) : Outcome := .next (counterWrap p s)

/-- A CTRL KEYX word of the exchange in progress (R57). -/
def keyx (p : Port) (w : LinkWord) (s : State) : State :=
  let x := s.port p
  if x.up && ctrlSub w = 5 && x.keys.isNone then s.setPort p { x with keyxIn := x.keyxIn ++ [w] } else s

/-- KEYX (R57). -/
def execKeyx (p : Port) (w : LinkWord) (s : State) : Outcome := .next (keyx p w s)

/-- The package leaves its basket and is an outsider (R52): it takes no part in any weave, its PLLs return to REF_XI (R28),
and it is aligned with no principal. -/
def becomeOutsider (s : State) : State :=
  let s := quitWeave s
  let s := ((s.setFlag Reg.clkStatus 4 false).setFlag Reg.timeAlign 24 false).setFlag Reg.timeAlign 25 false
  { s with basket := { s.basket with joined := false, outsider := true, joinAt := none } }

/-- Which frame of a period of `n` frames frame `f` is: (F - F0) mod n, with F0 the first that starts at or after the epoch
(R49). -/
def frameIndex (s : State) (n f : Nat) : Nat := (((f : Int) - ceilDiv s.time.epoch.toNat 65) % max 1 n).toNat

/-- Entry of an egress slot table for frame `f` (R49). -/
def slotEntry (s : State) (table : List (List SlotKind)) (f : Nat) : List SlotKind :=
  nthD [] table (frameIndex s table.length f)

/-- The running weave uses the port here. -/
def State.weaveUses (s : State) (p : Port) : Bool := s.weaveActive && s.usedPorts.contains p

/-- The two AES-256 keys that the exchange of a session gives, for the sent and the received direction (R57). -/
def sessionKeys (p : Port) (x : LinkPort) : BitVec 256 × BitVec 256 :=
  let k (dir : Nat) : BitVec 256 := BitVec.ofNat 256 (Config.linkKey (portNum p) x.epoch.toNat dir x.keyxIn)
  (k 0, k 1)

/-- A key exchange ends (R57): new keys, or E_LINK_AUTH and the service slot only; a failure on the tree path makes
the package an outsider. An absent identity key fails the exchange (Table Fuses-2). DESIGN CHOICE (log entry 64): a port in
REKEY whose exchange fails stands in LINKED. -/
def keyExchangeDone (p : Port) (ok : Bool) (s : State) : State :=
  let x := s.port p
  let running := x.state == .rekey || (x.up && s.cryptMode ≠ 0 && x.keys.isNone && !x.authBad)
  if !running then s
  else if ok && s.flag Reg.fuseStatus 23 then
    let st := if x.state == .rekey then (if s.weaveUses p && s.cryptMode = 1 then .woven else .linked) else x.state
    s.setPort p { x with state := st, keys := some (sessionKeys p x), keyxIn := [] }
  else
    let st := if x.state == .rekey then .linked else x.state
    let s := refuse eLinkAuth (s.setPort p { x with state := st, keys := none, authBad := true, keyxIn := [] })
    if s.follows && s.basket.upstream = p then becomeOutsider s else s

/-- KEY_EXCHANGE_DONE (R57). -/
def execKeyExchangeDone (p : Port) (ok : Bool) (s : State) : Outcome := .next (keyExchangeDone p ok s)

/-- MODE takes a value, and every port that is up begins a new session (R58). -/
def takeMode (m : Nat) (s : State) : State :=
  if m = s.cryptMode then s
  else allPorts.foldl (fun s p => if (s.port p).up then newSession p s else s) (s.setFld Reg.withyCrypt 0 2 m)

/-- A write of WITHY_CRYPT.MODE (R58, in the order of R357): only a change of MODE can be refused. -/
def cryptModeWrite (val : Word) (be : BitVec 4) (s : State) : State :=
  let m := bits (mergeBytes (s.reg Reg.withyCrypt) val be) 0 2
  if !s.answers Reg.withyCrypt then s
  else if m = s.cryptMode then s
  else if s.weaveRuns then refuse eWithyRunning s
  else if m = 0 && s.flag Reg.fuseLifecycle 10 then refuse eCryptRequired s
  else if m = 3 then refuse eCryptMode s
  else takeMode m s

/-- CRYPT_MODE_WRITE (R58). -/
def execCryptModeWrite (val : Word) (be : BitVec 4) (s : State) : Outcome := .next (cryptModeWrite val be s)

/-! ### The whisper -/

/-- Every 64 a-ticks the principal sends belt time, its fraction, hops 0 and itself (R37, Table Withy-5). -/
def whisperTimeTx (s : State) : State :=
  if s.basket.isPrincipal then
    let m := whisperMsg 1 12 (s.nowNs % 2 ^ 64 + s.nowFp % 65536 * 2 ^ 64 + s.pkg.toNat * 2 ^ 88)
    allPorts.foldl (fun s p => if (s.port p).state == .whisper then s.emit (.whisper p m) else s) s
  else s

/-- WHISPER_TIME_TX (R37). -/
def execWhisperTimeTx (s : State) : Outcome := .next (whisperTimeTx s)

/-- A whisper message with a bad CRC, an unknown type or a length above 16 is discarded and counted (R51). -/
def whisperOk (m : WhisperMsg) : Bool := m.crcOk && 1 ≤ m.type.toNat && m.type.toNat ≤ 4 && m.len.toNat ≤ 16

/-- CHK of WITHY_Pp_ERRCNT counts. -/
def countChk (p : Port) (s : State) : State :=
  let r := Reg.withyPErrcnt (portNum p)
  s.bumpAt r 16 16 1

/-- HDR of WITHY_Pp_ERRCNT counts. -/
def countHdr (p : Port) (s : State) : State := s.bumpSat (Reg.withyPErrcnt (portNum p)) 16 1

/-- A whisper TIME message (R51, R30, R34): the difference to the principal's belt time, compensated for d, is slewed
in, and with the PLLs stopped the increment per a-tick follows the interval measured between two messages of this sleep.
DESIGN CHOICE (log entry 63): the increment is rounded down. -/
def whisperTime (p : Port) (m : WhisperMsg) (s : State) : State :=
  if !whisperOk m then countChk p s
  else if m.type ≠ 1 || s.basket.isPrincipal || lwByte m.payload 11 ≠ s.basket.principal.toNat then s
  else
    let t := lwNum m.payload 0 8 * 65536 + lwNum m.payload 8 2 + (s.port p).d.toNat * 65536
    let inc := match s.time.lastWhisper with
      | some (t0, k0) =>
        if k0 < s.time.aticks ∧ t0 < t then BitVec.ofNat 32 ((t - t0) / (s.time.aticks - k0)) else s.reg Reg.timeAonInc
      | none => s.reg Reg.timeAonInc
    let s := if s.cclkRuns then s else s.setReg Reg.timeAonInc inc
    { s with time := { s.time with
      slew := (t : Int) - s.nowFp,
      lastWhisper := if s.cclkRuns then none else some (t, s.time.aticks) } }

/-- WHISPER_TIME (R51). -/
def execWhisperTime (p : Port) (m : WhisperMsg) (s : State) : Outcome := .next (whisperTime p m s)

/-- A whisper WAKE (R51): forwarded once per origin and sequence on each other port in WHISPER state, and a wake
where the package's own bit is set and WHISPER_EN of PWR_WAKE_CFG is set (Table Power-4). -/
def whisperWake (p : Port) (m : WhisperMsg) (s : State) : State :=
  if !whisperOk m then countChk p s
  else if m.type ≠ 2 then s
  else
    let origin := lwByte m.payload 8 % 64
    let sq : BitVec 8 := BitVec.ofNat 8 (lwByte m.payload 9)
    if smGet none s.basket.wakeKept origin = some sq then s
    else
      let s := { s with basket := { s.basket with wakeKept := smSet none s.basket.wakeKept origin (some sq) } }
      let s := allPorts.foldl (fun s q =>
        if q ≠ p ∧ (s.port q).state == .whisper then s.emit (.whisper q m) else s) s
      if nbit (lwNum m.payload 0 8) s.pkg.toNat && s.flag Reg.pwrWakeCfg 1 then wakeLatch 2 s else s

/-- WHISPER_WAKE (R51). -/
def execWhisperWake (p : Port) (m : WhisperMsg) (s : State) : Outcome := .next (whisperWake p m s)

/-- A whisper SLEEP message of the peer (R290). -/
def whisperSleep (p : Port) (m : WhisperMsg) (s : State) : State :=
  if !whisperOk m then countChk p s
  else if m.type ≠ 3 then s
  else s.setPort p { s.port p with sleepNs := some s.nowNs }

/-- WHISPER_SLEEP (R290). -/
def execWhisperSleep (p : Port) (m : WhisperMsg) (s : State) : Outcome := .next (whisperSleep p m s)

/-- A beacon of a package held in reset posts E_FUSE_BEACON with the number and the role byte (R306). -/
def whisperPresence (p : Port) (m : WhisperMsg) (s : State) : State :=
  if !whisperOk m then countChk p s
  else if m.type = 4 ∧ 0xE0 < lwByte m.payload 1 ∧ lwByte m.payload 1 ≤ 0xE2 then
    postEvent eFuseBeacon (BitVec.ofNat 128 (lwNum m.payload 0 2)) s
  else s

/-- WHISPER_PRESENCE (R306). -/
def execWhisperPresence (p : Port) (m : WhisperMsg) (s : State) : Outcome := .next (whisperPresence p m s)

/-! ### Basket formation -/

/-- A package was heard within the last 16 ms. -/
def State.fresh (s : State) (h : Heard) : Bool := decide (s.upNs < h.atNs + 16000000)

/-- The anchors of its basket that the package has heard within 16 ms, by rising number (R15, R16). -/
def State.freshAnchors (s : State) : List Nat :=
  s.basket.heard.filterMap (fun p => match p.2 with
    | some h => if h.anchor && s.fresh h then some p.1 else none
    | none => none)

/-- The lowest-numbered anchor of its basket that the package hears. -/
def State.lowestAnchor (s : State) : Option Nat := s.freshAnchors.head?

/-- A joined package follows the lowest-numbered anchor that it hears (R16), unless it is an anchor of a lower number
itself; the route towards it is its upstream port. -/
def followPrincipal (s : State) : State :=
  if s.follows then
    match s.lowestAnchor with
    | some a =>
      if a = s.basket.principal.toNat ∨ (s.anchor = true ∧ s.pkg.toNat < a) then s
      else
        let up := (portOf (smGet 5 s.basket.tree a).toNat).getD s.basket.upstream
        { s with basket := { s.basket with principal := BitVec.ofNat 6 a, upstream := up } }
    | none => s
  else s

/-- A joined stake that hears no anchor any more belongs to no basket (R15). -/
def dropLostBasket (s : State) : State :=
  if s.follows && !s.anchor && s.lowestAnchor.isNone then becomeOutsider s else s

/-- Every 1 ms: the package judges whether it still hears its anchors, and its presence goes out on every port (R15, R16,
R52). -/
def presenceFlood (s : State) : State :=
  let s := followPrincipal (dropLostBasket s)
  floodCtrl none (presenceWord s.pkg.toNat s.anchor.toNat s.basketId.toNat s.tuple) s

/-- PRESENCE_FLOOD (R52). -/
def execPresenceFlood (s : State) : Outcome := .next (presenceFlood s)

/-- An anchor that holds the principal role hears a lower anchor of its basket and gives the role up (R16, R52). -/
def yieldTo (q : Nat) (s : State) : State :=
  let s := dropPrincipal s
  if s.weaveRuns then { s with basket := { s.basket with principal := BitVec.ofNat 6 q } } else becomeOutsider s

/-- A PRESENCE word arrives (R52, R16): the port it came by first is the route towards the package; a member forwards
words that came by that route (log entry 29); an anchor that holds the principal role gives it up on hearing a lower
anchor of its basket; a follower turns to a lower principal. -/
def presence (p : Port) (w : LinkWord) (s : State) : State :=
  if ctrlSub w ≠ 6 then s
  else
    let q := lwByte w 2 % 64
    let role := lwByte w 3
    let same := lwNum w 4 4 = s.basketId.toNat
    if q = s.pkg.toNat then s
    else
      let known := smGet 5 s.basket.tree q
      let dir := if known = 5 then BitVec.ofNat 3 (portNum p) else known
      let lower := role = 1 && same && decide (q < s.pkg.toNat)
      let s := { s with basket := { s.basket with
        tree := smSet 5 s.basket.tree q dir,
        heard := if same then smSet none s.basket.heard q (some ⟨role == 1, s.upNs⟩) else s.basket.heard,
        lowerHeardNs := if lower then s.upNs else s.basket.lowerHeardNs } }
      let s := if dir.toNat = portNum p && !s.basket.outsider then floodCtrl (some p) w s else s
      if lower && s.anchor && s.basket.isPrincipal then yieldTo q s else followPrincipal s

/-- PRESENCE (R52). -/
def execPresence (p : Port) (w : LinkWord) (s : State) : Outcome := .next (presence p w s)

/-- Joined packages counted in WITHY_JOIN_STATUS.MEMBERS. -/
def setMembers (ms : List Member) (s : State) : State :=
  { s.setFld Reg.withyJoinStatus 16 7 ms.length with basket := { s.basket with members := ms } }

/-- What an anchor takes over with the basket that it was joined to (R16): the packages it hears, at most 3 anchors beside
itself (R15), whose serials it learns when they join again (log entry 66). -/
def State.takenOver (s : State) : List Member :=
  if s.basket.joined then
    let heard : List (Nat × Bool) := s.basket.heard.filterMap (fun p => match p.2 with
      | some h => if s.fresh h then some (p.1, h.anchor) else none
      | none => none)
    let anchors := (heard.filter (fun x => x.2)).take 3
    ((heard.filter (fun x => !x.2)) ++ anchors).map (fun (x : Nat × Bool) => ⟨BitVec.ofNat 6 x.1, none, x.2, 0⟩)
  else []

/-- An anchor with a good REF_XI that hears no lower-numbered anchor of its basket for 16 ms takes the principal role (R16,
R29, R52); it leads belt time and counts as aligned. A weave that runs, and is in no restart, restarts (R16). -/
def principalClaim (s : State) : State :=
  match s.power.phase with
  | .run =>
    if s.anchor && !s.basket.isPrincipal && s.flag Reg.clkStatus 3 && s.basket.lowerHeardNs + 16000000 ≤ s.upNs then
      let ms := s.takenOver
      let s := { s with basket := { s.basket with isPrincipal := true, joined := true, outsider := false,
                                                  principal := s.pkg, hops := 0, joinAt := none } }
      let s := setMembers (⟨s.pkg, some (BitVec.ofNat 64 (s.pair Reg.idSerialLo Reg.idSerialHi)), true, 0⟩ :: ms) s
      let s := leadTime s
      if s.weaveRuns && s.fault.phase == .running then weaveFault (clockFault 3) s else s
    else s
  | _ => s

/-- PRINCIPAL_CLAIM (R16). -/
def execPrincipalClaim (s : State) : Outcome := .next (principalClaim s)

/-- An outsider sends a JOIN towards the lowest-numbered anchor it hears (R52). -/
def joinRetry (s : State) : State :=
  match s.power.phase with
  | .run =>
    if s.basket.joined then s
    else match s.lowestAnchor with
      | some a => match portOf (smGet 5 s.basket.tree a).toNat with
        | some p => sendCtrl p (joinWord s.pkg.toNat s.anchor.toNat s.tuple s.basketId.toNat) s
        | none => s
      | none => s
  | _ => s

/-- JOIN_RETRY (R52). -/
def execJoinRetry (s : State) : Outcome := .next (joinRetry s)

/-- A member is the package that asks to join: by its serial, or by its number where the serial is not known (log entry
66). -/
def Member.is (m : Member) (q : Nat) (serial : BitVec 64) : Bool :=
  match m.serial with
  | some n => n == serial
  | none => m.pkg.toNat == q

/-- The join checks of Table Withy-6 in order: 0 or the first refusal. A joined package that asks again under its own
serial does not bar itself (log entry 30). -/
def joinVerdict (s : State) (q role tuple basket hops : Nat) (serial : BitVec 64) (develop authOk : Bool) : Code :=
  let others := s.basket.members.filter (fun m => !m.is q serial)
  let anchors := (others.filter (fun m => m.anchor)).length
  if basket ≠ s.basketId.toNat ∧ s.basketId ≠ 0 then eJoinBasket
  else if others.any (fun m => m.pkg.toNat == q) then eJoinDuplicate
  else if role = 1 ∧ 4 ≤ anchors then eJoinAnchors
  else if 8 < hops then eJoinDepth
  else if tuple ≠ s.tuple ∧ ¬(s.flag Reg.withyJoinCfg 0 = true ∧ develop = true) then eJoinGeneration
  else if s.cryptMode ≠ 0 ∧ authOk = false then eLinkAuth
  else 0

/-- A JOIN word (R52, R15, R53): the principal judges it and replies, and an accepted package gets the beat values
(R39); a member passes it on towards the principal. -/
def join (p : Port) (w : LinkWord) (hops : BitVec 8) (serial : BitVec 64) (develop authOk : Bool) (s : State) : State :=
  if ctrlSub w ≠ 3 then s
  else if s.basket.isPrincipal then
    let q := lwByte w 2 % 64
    let c := joinVerdict s q (lwByte w 3) (lwNum w 4 8) (lwNum w 12 4) hops.toNat serial develop authOk
    let s := latch c 0 s
    let s := sendCtrl p (joinReplyWord q c.toNat hops.toNat (Config.treePort q hops.toNat % 4)) s
    if c = 0 then
      let ms := s.basket.members.filter (fun m => !m.is q serial)
      let s := setMembers (ms ++ [⟨BitVec.ofNat 6 q, some serial, lwByte w 3 == 1, hops⟩]) s
      sendCtrl p (beatWord s.time.beatLen.toNat s.time.epoch.toNat (boundaryAhead s)) s
    else s
  else if s.basket.joined then sendCtrl s.basket.upstream w s
  else s

/-- JOIN (R52). -/
def execJoin (p : Port) (w : LinkWord) (hops : BitVec 8) (serial : BitVec 64) (develop authOk : Bool) (s : State) :
    Outcome := .next (join p w hops serial develop authOk s)

/-- A JOIN_REPLY (R52, R33, R58): an accepted package is joined, adopts MODE, and at the next boundary switches its
reference and adopts MULT and SPREAD (R33, R34); a step, beat values or a relock of its own that still waited are dropped
(log entry 63). A refused one is an outsider. A reply for another package is passed on. -/
def joinReply (p : Port) (w : LinkWord) (mode : BitVec 2) (mult : BitVec 6) (spread : BitVec 2) (s : State) : State :=
  if ctrlSub w ≠ 4 then s
  else
    let q := lwByte w 2 % 64
    let c := lwNum w 3 2
    if q ≠ s.pkg.toNat then
      (if s.basket.outsider then s
       else match portOf (smGet 5 s.basket.tree q).toNat with
         | some o => sendCtrl o w s
         | none => s)
    else if s.basket.joined then s
    else if c ≠ 0 then becomeOutsider (s.setFld Reg.withyJoinStatus 0 16 c)
    else
      let s := s.setFld Reg.withyJoinStatus 0 16 0
      let at' := nextBoundary s
      let s := { s with basket := { s.basket with
        joined := true, outsider := false, joinAt := some at', hops := BitVec.ofNat 8 (lwByte w 5),
        upstream := p, principal := BitVec.ofNat 6 (s.lowestAnchor.getD s.basket.principal.toNat) } }
      let s := takeMode mode.toNat s
      let clock := if mult = s.time.mult ∧ spread = s.time.spread then none else some (BitVec.ofNat 64 at', mult, spread)
      { s with time := { s.time with pendStep := none, pendBeats := [], pendClock := clock } }

/-- JOIN_REPLY (R52). -/
def execJoinReply (p : Port) (w : LinkWord) (mode : BitVec 2) (mult : BitVec 6) (spread : BitVec 2) (s : State) :
    Outcome := .next (joinReply p w mode mult spread s)

/-- A boundary that a TIME word named is resolved again in the belt time that a join loads: the nearest one ahead that
matches its 24 bits (Table Withy-9, log entry 63). -/
def resolveAgain (now : Nat) (b : BitVec 64) : BitVec 64 :=
  BitVec.ofNat 64 (nearestAhead (now / 32000) (b.toNat / 32000) 24 * 32000)

/-- The spread-period boundary after acceptance: the reference is the time-tree clock and belt time is the principal's,
in one step, before the package first sets ALIGNED (R28, R34); MULT and SPREAD are adopted at the same boundary (R33). Beat
values received before the step keep their boundary's bits. -/
def joinSwitch (belt : BitVec 80) (s : State) : State :=
  match s.basket.joinAt with
  | none => s
  | some b =>
    if s.nowNs < b then s
    else
      let s := (s.setFlag Reg.clkStatus 4 true).setFlag Reg.timeAlign 24 false
      let s := { s with basket := { s.basket with joinAt := none } }
      let s := stepBelt belt { s with time := { s.time with slew := 0 } }
      let s := { s with time := { s.time with
        pendBeats := s.time.pendBeats.map (fun (x : BitVec 64 × BitVec 22 × BitVec 64) => (resolveAgain s.nowNs x.1, x.2)) } }
      let s := match s.time.pendClock with
        | some (_, m, sp) => relockTo m sp s
        | none => s
      if s.cclkRuns then recomputeBeat s else s

/-- JOIN_SWITCH (R34). -/
def execJoinSwitch (belt : BitVec 80) (s : State) : Outcome := .next (joinSwitch belt s)

/-! ### TIME words -/

/-- A TIME word new to a package that follows a principal (R59). -/
def timeNew (kind : Nat) (w : LinkWord) (s : State) : Bool :=
  ctrlSub w = 7 && lwByte w 2 = kind && s.follows && s.basket.lastTime != some w

/-- A STEP word: forwarded once, and the step waits for T (R36). -/
def timeStepWord (p : Port) (w : LinkWord) (s : State) : State :=
  if timeNew 1 w s then
    let t := nearestAhead (s.nowNs / 32000) (lwNum w 3 4) 32 * 32000
    let set := lwNum w 7 7 * 32000
    let s := floodTime (some p) w s
    { s with time := { s.time with pendStep := some (BitVec.ofNat 64 t, BitVec.ofNat 64 set) } }
  else s

/-- TIME_STEP_WORD (R36). -/
def execTimeStepWord (p : Port) (w : LinkWord) (s : State) : Outcome := .next (timeStepWord p w s)

/-- A BEAT word: forwarded once, and the values wait for their boundary (R39). -/
def timeBeatWord (p : Port) (w : LinkWord) (s : State) : State :=
  if timeNew 2 w s then
    let b := nearestAhead (s.nowNs / 32000) (lwNum w 13 3) 24 * 32000
    let s := floodTime (some p) w s
    pushBeat b (lwNum w 3 3) (lwNum w 6 7 * 32000) s
  else s

/-- TIME_BEAT_WORD (R39). -/
def execTimeBeatWord (p : Port) (w : LinkWord) (s : State) : Outcome := .next (timeBeatWord p w s)

/-- A CLOCK word: forwarded once, and MULT and SPREAD wait for their boundary (R33). -/
def timeClockWord (p : Port) (w : LinkWord) (s : State) : State :=
  if timeNew 3 w s then
    let b := nearestAhead (s.nowNs / 32000) (lwNum w 5 3) 24 * 32000
    let s := floodTime (some p) w s
    { s with time := { s.time with
      pendClock := some (BitVec.ofNat 64 b, BitVec.ofNat 6 (lwByte w 3), BitVec.ofNat 2 (lwByte w 4)) } }
  else s

/-- TIME_CLOCK_WORD (R33). -/
def execTimeClockWord (p : Port) (w : LinkWord) (s : State) : Outcome := .next (timeClockWord p w s)

/-! ### Windows -/

/-- Base of window `i`. -/
def State.winBase (s : State) (i : Nat) : Nat := s.pair (Reg.winBaseLo i) (Reg.winBaseHi i)

/-- Size of window `i` in bytes. -/
def State.winSize (s : State) (i : Nat) : Nat := 2 ^ s.fld (Reg.winSize i) 0 5

/-- A range lies wholly within one scratchpad or within the store (R61). -/
def winTargetOk (base size : Nat) : Bool :=
  match placeLocal base with
  | .scratch _ off => off + size ≤ 0xC0000
  | .store => base + size ≤ 0xC0000000
  | _ => false

/-- The open checks of R61 in order: 0 or the refusal. -/
def winOpenVerdict (s : State) (i : Nat) : Code :=
  if s.fld (Reg.winSize i) 0 5 < 12 then eWinSize
  else if s.winBase i % s.winSize i ≠ 0 then eWinAlign
  else if !winTargetOk (s.winBase i) (s.winSize i) then eWinTarget
  else 0

/-- A write to WIN_i_CTL (R61): opening is judged, and a refused window stays closed. -/
def winCtlWrite (i : Fin 32) (val : Word) (be : BitVec 4) (s : State) : State :=
  let r := Reg.winCtl i.val
  if !s.answers r then s
  else
    let new := bits (mergeBytes (s.reg r) val be) 0 3
    let opens := nbit new 0 && !s.flag r 0
    let c := if opens then winOpenVerdict s i.val else 0
    if c ≠ 0 then refuse c s else s.setFld r 0 3 new

/-- WIN_CTL_WRITE (R61). -/
def execWinCtlWrite (i : Fin 32) (val : Word) (be : BitVec 4) (s : State) : Outcome := .next (winCtlWrite i val be s)

/-- The lowest open window that holds a range (R61). -/
def winHit (s : State) (a len : Nat) : Option Nat :=
  (List.range 32).find? (fun i => s.flag (Reg.winCtl i) 0 && s.winBase i ≤ a && a + len ≤ s.winBase i + s.winSize i)

/-- Source mask of window `i`. -/
def winAdmits (s : State) (i : Nat) (src : BitVec 6) : Bool := nbit (s.pair (Reg.winSrcLo i) (Reg.winSrcHi i)) src.toNat

/-- A remote access judged (R60, R62, R329): the window, or the refusal. -/
def winJudge (s : State) (src : BitVec 6) (a len : Nat) (write : Bool) : Except Code Nat :=
  match placeLocal a with
  | .hole => .error eAddrHole
  | _ =>
    if storeReserved a len then .error eBootArea
    else match winHit s a len with
      | none => .error eWinClosed
      | some i =>
        if !winAdmits s i src then .error eWinSource
        else if !s.flag (Reg.winCtl i) (if write then 2 else 1) then .error eWinPerm
        else .ok i

/-- A refused remote access: counted, latched, and returned in a WIN_NAK (R62). -/
def winRefuse (c : Code) (q : RemoteReq) (s : State) : State :=
  let s := latch c 0 (s.bumpSat Reg.winRefused 32 1)
  sendLoose (s.mkLoose 7 q.src q.addr c []) s

/-- An accepted remote access is counted. -/
def winCount (i : Nat) (s : State) : State := s.bumpSat (Reg.winHits i) 32 1

/-- A range of a scratchpad by the rows that it touches: offset and length of each part (R158). -/
def rowParts : Nat → Nat → Nat → List (Nat × Nat)
  | 0, _, _ => []
  | f + 1, off, len =>
    if len = 0 then []
    else
      let n := min len (512 - off % 512)
      (off, n) :: rowParts f (off + n) (len - n)

/-- Requests join the R queue of a core, which holds 8 (R158). -/
def queueR (n : Nat) (qs : List RReq) (s : State) : State :=
  s.setCore n { s.core n with rq := (s.core n).rq ++ qs }

/-- A remote access of `len` bytes finds places in the R queue that it needs; otherwise the ingress keeps the message
(R158). -/
def State.rRoom (s : State) (a len : Nat) : Bool :=
  match placeLocal a with
  | .scratch n off => (s.core n).rq.length + (rowParts 4 off len).length ≤ 8
  | _ => true

/-- The requests of a remote access: one for each row that it touches (R158). -/
def remoteReqs (src : BitVec 6) (off len : Nat) (data : Option Marked) : List RReq :=
  (rowParts 4 off len).map (fun p => match data with
    | some l => ⟨.remote src, .row, BitVec.ofNat 20 p.1, true, p.2, (l.drop (p.1 - off)).take p.2⟩
    | none => ⟨.remote src, .row, BitVec.ofNat 20 p.1, false, p.2, []⟩)

/-- A remote write (R62): to the store at once, to a scratchpad through its R slot, or refused. -/
def winWrite (q : RemoteReq) (s : State) : State :=
  let a := s.localAddr q.addr.toNat
  match winJudge s q.src a q.data.length true with
  | .error c => winRefuse c q s
  | .ok i =>
    if !s.rRoom a q.data.length then s
    else
      let s := winCount i s
      match placeLocal a with
      | .scratch n off => queueR n (remoteReqs q.src off q.data.length (some q.data)) s
      | _ => wrMarked a q.data s

/-- WIN_WRITE (R62). -/
def execWinWrite (q : RemoteReq) (s : State) : Outcome := .next (winWrite q s)

/-- A remote read (R62): answered from the store, queued at a scratchpad's R slot, or refused. -/
def winRead (q : RemoteReq) (s : State) : State :=
  let a := s.localAddr q.addr.toNat
  match winJudge s q.src a q.len false with
  | .error c => winRefuse c q s
  | .ok i =>
    if !s.rRoom a q.len then s
    else
      let s := winCount i s
      match placeLocal a with
      | .scratch n off => queueR n (remoteReqs q.src off q.len none) s
      | _ => sendLoose (s.mkMarked 5 q.src q.addr (s.rdMarked a q.len)) s

/-- WIN_READ (R62). -/
def execWinRead (q : RemoteReq) (s : State) : Outcome := .next (winRead q s)

/-- Data of a remote read reach the issuing engine (R62). -/
def winResp (m : Loose) (s : State) : State :=
  if m.type = 5 ∧ m.dst = s.pkg.setWidth 8 then s.emit (.issuerData (looseMarked m)) else s

/-- WIN_RESP (R62). -/
def execWinResp (m : Loose) (s : State) : Outcome := .next (winResp m s)

/-- A refusal of a remote access reaches its source: the issuing engine holds the code, and it is a NOTICE
(R62, Table Faults-2). -/
def winNak (m : Loose) (s : State) : State :=
  if m.type = 7 ∧ m.dst = s.pkg.setWidth 8 then
    postEvent m.code (BitVec.ofNat 128 (m.src.toNat + m.addr.toNat * 2 ^ 8)) (s.emit (.issuerCode m.code))
  else s

/-- WIN_NAK (R62). -/
def execWinNak (m : Loose) (s : State) : Outcome := .next (winNak m s)

/-! ### Forwarded register access -/

/-- A forwarding command (R63): refused while BUSY, else the access leaves for its target. -/
def fwdStart (write : Bool) (s : State) : State :=
  if !s.answers Reg.withyFwdCmd then s
  else if s.flag Reg.withyFwdStatus 0 then refuse eWithyRunning s
  else
    let tgt : BitVec 6 := BitVec.ofNat 6 (s.fld Reg.withyFwdTgt 0 6)
    let ofs : BitVec 20 := BitVec.ofNat 20 (s.fld Reg.withyFwdOfs 2 18 * 4)
    let d := if write then some (s.reg Reg.withyFwdData) else none
    let s := s.setReg Reg.withyFwdStatus 1
    { s with basket := { s.basket with fwd := some (tgt, ofs, d), fwdNs := s.nowNs } }.emit (.fwdAccess tgt ofs d)

/-- FWD_READ (R63). -/
def execFwdRead (s : State) : Outcome := .next (fwdStart false s)

/-- FWD_WRITE (R63). -/
def execFwdWrite (s : State) : Outcome := .next (fwdStart true s)

/-- The outcome of a forwarded access: BUSY clears, CODE holds it. -/
def fwdEnd (c : Code) (s : State) : State :=
  let s := (latch c 0 s).setReg Reg.withyFwdStatus (BitVec.ofNat 32 (c.toNat * 2 ^ 16))
  { s with basket := { s.basket with fwd := none } }

/-- The response of a forwarded access: the data of a read stand in WITHY_FWD_DATA (R63). -/
def fwdResponse (c : Code) (data : Word) (s : State) : State :=
  match s.basket.fwd with
  | none => s
  | some (_, _, none) => fwdEnd c (if c = 0 then s.setReg Reg.withyFwdData data else s)
  | some (_, _, some _) => fwdEnd c s

/-- FWD_RESPONSE (R63). -/
def execFwdResponse (c : Code) (data : Word) (s : State) : Outcome := .next (fwdResponse c data s)

/-- No response within 100 µs (R63). -/
def fwdTimeout (s : State) : State :=
  if s.basket.fwd.isSome && s.basket.fwdNs + 100000 ≤ s.nowNs then fwdEnd eFwdTimeout s else s

/-- FWD_TIMEOUT (R63). -/
def execFwdTimeout (s : State) : Outcome := .next (fwdTimeout s)

end Sys2Proof.Machine
end

