-- ==== Sys2Proof/Machine/Host.lean ====
section
/-!
DEFINITION. Host.lean: host attachment (04_host): Function Level Reset and Bus Master Enable (R66, R67), MSI-X (R82),
rings and doorbells (R69-R73), descriptors in flight (R74-R77), waiting entries (R80, R81), knots and mirrors (R83-R85),
the record ring's enable (R87), forwarded host access (R68), and the opcodes that this chapter decides.
-/

namespace Sys2Proof.Machine

/-! ### The PCIe function (Table Host-1) -/

/-- What a PCIe function of this kind can offer (Table Host-1). -/
inductive PcieFeature where
  | msix | msi | intx | aspmL1 | aspmL0s | l11 | l12 | aer | completionTimeoutA | completionTimeoutB
  | completionTimeoutDisable | flr | sriov | ats | pasid | atomics | tags10
  deriving DecidableEq, Repr

/-- The package advertises the feature: only those of Table Host-1 (R64). -/
def PcieFeature.advertised : PcieFeature → Bool
  | .msix | .aspmL1 | .l11 | .l12 | .aer | .completionTimeoutA | .completionTimeoutB | .completionTimeoutDisable | .flr => true
  | .msi | .intx | .aspmL0s | .sriov | .ats | .pasid | .atomics | .tags10 => false

/-- The identity that the function shows (Table Host-1). -/
structure PcieId where
  vendor    : BitVec 16
  device    : BitVec 16
  classCode : BitVec 24
  subVendor : BitVec 16
  subDevice : BitVec 16
  deriving DecidableEq, Repr

/-- Identity from fuse word 1 as the shadow holds it, and from customer word 449 (Table Host-1). -/
def State.pcieId (s : State) : PcieId :=
  let id := s.shadowWord 1
  let sub := s.fuseWord 449
  ⟨id.setWidth 16, (id >>> 16).setWidth 16, 0x118000, sub.setWidth 16, (sub >>> 16).setWidth 16⟩

/-- Widest link, in lanes, and fastest rate, in units of 0.5 GT/s, that the function offers; largest payload and read
request, in bytes; requests outstanding (Table Host-1). -/
def pcieWidth : Nat := 2
def pcieRate : Nat := 32
def pciePayload : Nat := 256
def pcieReadRequest : Nat := 512
def pcieOutstanding : Nat := 64

/-! ### MSI-X and Bus Master Enable -/

/-- Pending messages of vectors that may now go out are sent (R67, R82). -/
def sendPending (s : State) : State :=
  (List.range 72).foldl (fun s v =>
    if s.host.vecPend.getLsbD v && s.vecOpen v then
      { s.emit (.msix v) with host := { s.host with vecPend := s.host.vecPend &&& ~~~(BitVec.ofNat 72 (2 ^ v)) } }
    else s) s

/-- A word of BAR2: the MSI-X table of 72 entries (address, data, and control with the mask bit), the pending bits, zero
elsewhere (Table Host-2, R65). -/
def bar2Word (s : State) (off : Nat) : Word :=
  if off < 16 * 72 then
    (if off % 16 = 12 then BitVec.ofNat 32 (s.host.vecMask.getLsbD (off / 16)).toNat else smGet 0 s.host.vecTable (off / 4))
  else if 0x2000 ≤ off ∧ off < 0x200C then BitVec.ofNat 32 (bits s.host.vecPend (8 * (off - 0x2000)) 32)
  else 0

/-- A write of a word of BAR2: the table takes it, and a vector that it unmasks sends what is pending on it; elsewhere it has
no effect (R65, R67, R82). Reserved bits of a control word stay zero. -/
def bar2Write (off : Nat) (val : Word) (be : BitVec 4) (s : State) : State :=
  if 16 * 72 ≤ off then s
  else
    let w := mergeBytes (bar2Word s off) val be
    if off % 16 = 12 then
      let m := s.host.vecMask
      sendPending { s with host := { s.host with vecMask := putBits m (off / 16) 1 (w.getLsbD 0).toNat } }
    else { s with host := { s.host with
      vecTable := smSet 0 s.host.vecTable (off / 4) (if off % 16 = 0 then w &&& 0xFFFFFFFC else w) } }

/-- A write to the MSI-X structures (R65, R67, R82). -/
def msixWrite (w : MsixWrite) (s : State) : State :=
  match w with
  | .bar2 off v be => bar2Write off.toNat v be s
  | .control on mask => sendPending { s with host := { s.host with msixOn := on, funcMask := mask } }

/-- VECTOR_UNMASK (R67): taken where the package answers on PCIe. -/
def execVectorUnmask (w : MsixWrite) (s : State) : Outcome :=
  .next (gateWrite Reg.hostCtl (msixWrite w) s)

/-- A descriptor that a ring of this package fetched. -/
def fromRing (f : Flight) : Bool :=
  match f.origin with
  | .ring _ => true
  | _ => false

/-- Slots of the record ring. -/
def State.recSlots (s : State) : Nat := 2 ^ s.fld Reg.hostRecCfg 0 4

/-- Slots from position `b` to position `a` of the record ring: an index in bits [11:0], a wrap bit 12 (R69). -/
def recDist (size : Nat) (a b : BitVec 13) : Nat :=
  let lin (p : BitVec 13) : Nat := bits p 0 12 + (if p.getLsbD 12 then size else 0)
  (lin a + 2 * size - lin b) % (2 * size)

/-- Free slots of the record ring, none while it cannot take a record: disabled, or its ring pair not ACTIVE (R86,
R87). -/
def State.recFree (s : State) : Nat :=
  if s.anchor && s.host.bme && s.flag Reg.hostRecCfg 16 && (s.ring s.recRing).state == .active
  then s.recSlots - recDist s.recSlots s.host.recPos s.host.recHead else 0

/-- Records held (HOST_STATUS.REC_HELD). -/
def State.heldRecords (s : State) : Nat := (s.host.records.filter (fun r => r.held)).length

/-- Records in their order against `n` free slots, with `h` records held before them: those for which no slot is left are
held, and the parcels of those beyond 256 held (R87). -/
def holdList : Nat → Nat → List Rec → List Rec × List Word
  | _, _, [] => ([], [])
  | n, h, r :: l =>
    let held := r.held || n == 0
    if held && decide (256 ≤ h) then
      let x := holdList n h l
      (x.1, r.parcel :: x.2)
    else
      let x := holdList (n - 1) (if held then h + 1 else h) l
      ({ r with held := held } :: x.1, x.2)

/-- The record of a parcel is discarded, counted and reported (R87). -/
def loseRecord (s : State) (id : Word) : State :=
  let s := { s with roi := { s.roi with parcels := s.roi.parcels.map (fun (q : Parcel) => if q.id == id then { q with lost := true } else q) } }
  postEvent eRecLost (id.setWidth 128) (s.bumpSat Reg.hostRecLost 16 1)

/-- Records that wait and find no slot are held; those beyond 256 are discarded (R87). -/
def holdRecords (s : State) : State :=
  let x := holdList s.recFree 0 s.host.records
  x.2.foldl loseRecord { s with host := { s.host with records := x.1 } }

/-- Every descriptor in flight is abandoned, with no completion and no signal, and a host command pending for one of
them has no effect (R66, R67). -/
def abandonFlights (s : State) : State :=
  let gone := s.serve.cmds.filter (fun c => s.host.flights.any (fun f => f.id == c.flight))
  let freed (k : Nat) : Bool := gone.any (fun c => c.req.toNat == k)
  { s with
    host := { s.host with flights := [] },
    serve := { s.serve with
      cmds := s.serve.cmds.filter (fun c => !gone.contains c),
      reqs := s.serve.reqs.map (fun p => if freed p.1 then (p.1, { p.2 with pendCmd := false }) else p) } }

/-- A Function Level Reset of an anchor (R66): the HOST block at its reset values, Bus Master Enable among them, every
ring DISABLED, the record ring at slot 0 of lap 1, MSI-X disabled with every vector masked and none pending (R82); waiting
entries, knots, mirrors and records stay, the records held (R87). -/
def flr (s : State) : State :=
  if !s.anchor then s
  else
    let s := abandonFlights s
    holdRecords { s with
      regs := s.regs.filter (fun p => decide (¬(0x6000 ≤ p.1 ∧ p.1 < 0x7000))),
      sets := s.sets.filter (fun p => decide (¬(0x6000 ≤ p.1 ∧ p.1 < 0x7000))),
      host := { s.host with bme := false, rings := [], recPos := 0, recLap := 1, recHead := 0,
                            vecMask := BitVec.allOnes 72, vecPend := 0, vecTable := [], msixOn := false, funcMask := false } }

/-- FLR (R66). -/
def execFlr (s : State) : Outcome := .next (flr s)

/-- A ring at a Bus Master Enable clear: DISABLED, its positions as they stood. -/
def disableRing (r : Ring) : Ring := { r with state := .disabled, asked := 0 }

/-- EN of every HOST_RINGi_CFG reads 0. -/
def clearRingEn (s : State) : State := (List.range 64).foldl (fun s i => s.setFlag (Reg.hostRingCfg i) 16 false) s

/-- Bus Master Enable clears on an anchor (R67). -/
def bmeClear (s : State) : State :=
  if !s.anchor then s
  else
    let s := clearRingEn (abandonFlights s)
    holdRecords { s with host := { s.host with bme := false, rings := s.host.rings.map (fun p => (p.1, disableRing p.2)) } }

/-- BME_CLEAR (R67). -/
def execBmeClear (s : State) : Outcome := .next (bmeClear s)

/-- Bus Master Enable is set on an anchor: pending messages go out, and a weave image that waits for it is read (R67). -/
def bmeSet (s : State) : State :=
  if !s.anchor then s else readImage (sendPending { s with host := { s.host with bme := true } })

/-- BME_SET (R67). -/
def execBmeSet (s : State) : Outcome := .next (bmeSet s)

/-! ### Rings -/

/-- The judgement of a write to HOST_RINGi_CFG (Table Host-4, R357): 0 or the refusal. -/
def ringCfgVerdict (s : State) (i : Nat) (new : Word) : Code :=
  let old := s.reg (Reg.hostRingCfg i)
  let st := (s.ring i).state
  let sizes := bits new 0 5 ≠ bits old 0 5 || bits new 8 5 ≠ bits old 8 5
  let enables := new.getLsbD 16 && !old.getLsbD 16
  if !s.anchor then eHostStake
  else if sizes && st != .disabled then eRingActive
  else if enables && st == .draining then eRingDraining
  else if enables && st == .error then eRingError
  else if enables && (bits new 0 5 < 4 || 16 < bits new 0 5 || bits new 8 5 < 4 || 16 < bits new 8 5) then eRingSize
  else 0

/-- A write to HOST_RINGi_CFG: EN ← 1 activates the ring at position 0 with phase 1, EN ← 0 drains or disables it
(Table Host-4, R73). While Bus Master Enable is clear EN reads 0 (R67). -/
def ringCfgWrite (i : Nat) (val : Word) (be : BitVec 4) (s : State) : State :=
  let reg := Reg.hostRingCfg i
  if !s.answers reg then s
  else
    let old := s.reg reg
    let new := mergeBytes old val be &&& 0xFFF31F1F
    let c := ringCfgVerdict s i new
    if c ≠ 0 then refuse c s
    else if new.getLsbD 16 && !old.getLsbD 16 then
      if s.host.bme then (s.setReg reg new).setRing i { Ring.reset with state := .active, phase := true }
      else s.setReg reg (new &&& 0xFFFEFFFF)
    else if !new.getLsbD 16 && old.getLsbD 16 then
      let st := if s.inFlight i = 0 then RingState.disabled else RingState.draining
      holdRecords ((s.setReg reg new).setRing i
        { s.ring i with state := if (s.ring i).state == .disabled then .disabled else st })
    else s.setReg reg new

/-- RING_ENABLE (R73). -/
def execRingEnable (ring : Fin 64) (val : Word) (be : BitVec 4) (s : State) : Outcome :=
  .next (ringCfgWrite ring.val val be s)

/-- RING_DISABLE (R72). -/
def execRingDisable (ring : Fin 64) (val : Word) (be : BitVec 4) (s : State) : Outcome :=
  .next (ringCfgWrite ring.val val be s)

/-- A ring enters ERROR and an EVENT names it (R71, R72). -/
def ringError (c : Code) (i : Nat) (s : State) : State :=
  holdRecords (postEvent c (BitVec.ofNat 128 i) (s.setRing i { s.ring i with state := .error, asked := 0 }))

/-- The package polls and fetches: an anchor in Run with HOST_CTL.EN and Bus Master Enable (R67, R70). -/
def State.polling (s : State) : Bool := s.anchor && s.power.phase == .run && s.flag Reg.hostCtl 0 && s.host.bme

/-- Base of the doorbell lines. -/
def State.dbBase (s : State) : Nat := s.pair Reg.hostDbBaseLo Reg.hostDbBaseHi

/-- Runs of adjacent ACTIVE rings of at most eight lines: first ring and length. -/
def pollRuns (act : Nat → Bool) : List Nat → List (Nat × Nat)
  | [] => []
  | i :: l =>
    match pollRuns act l with
    | (j, n) :: r => if act i then (if j = i + 1 ∧ n < 8 then (i, n + 1) :: r else (i, 1) :: (j, n) :: r) else (j, n) :: r
    | [] => if act i then [(i, 1)] else []

/-- At each poll period the doorbell lines of the ACTIVE rings are read, in requests of up to 512 bytes (R70). -/
def doorbellPoll (s : State) : State :=
  if s.polling then
    (pollRuns (fun i => (s.ring i).state == .active) (List.range 64)).foldl (fun s r =>
      s.emit (.hostRead (BitVec.ofNat 64 (s.dbBase + 64 * r.1)) (64 * r.2))) s
  else s

/-- DOORBELL_POLL (R70). -/
def execDoorbellPoll (s : State) : Outcome := .next (doorbellPoll s)

/-- REC_HEAD is read on ring `i`: the ring pair that HOST_REC_CFG.RING names (Table Host-3). -/
def State.readsRec (s : State) (i : Nat) : Bool := s.recRing == i

/-- The judgement of a doorbell line (R71): 0 or the refusal. -/
def doorbellVerdict (s : State) (i : Nat) (tail head : BitVec 17) (rec : BitVec 13) : Code :=
  let r := s.ring i
  if s.sqSize i ≤ bits tail 0 16 then eDbRange
  else if s.cqSize i ≤ bits head 0 16 then eDbRange
  else if s.readsRec i && s.recSlots ≤ bits rec 0 12 then eDbRange
  else if s.sqSize i < posDist (s.sqSize i) tail r.fetch then eDbOverrun
  else if s.cqSize i < posDist (s.cqSize i) r.write head then eDbOverrun
  else if s.readsRec i && s.recSlots < recDist s.recSlots s.host.recPos rec then eDbOverrun
  else 0

/-- A doorbell line is judged and its positions are taken; waiting entries that then have room are written in the same
poll (R69, R71, R80, Table Host-13). -/
def takeDoorbell (i : Nat) (l : List Byte) (s : State) : State :=
  let tail : BitVec 17 := BitVec.ofNat 17 (leAt l 0 4)
  let head : BitVec 17 := BitVec.ofNat 17 (leAt l 4 4)
  let rec' : BitVec 13 := BitVec.ofNat 13 (leAt l 8 4)
  let c := doorbellVerdict s i tail head rec'
  if c ≠ 0 then ringError c i s
  else
    let s' := s.setRing i { s.ring i with tail := tail, head := head, fails := 0 }
    drainWaiting (if s.readsRec i then { s' with host := { s'.host with recHead := rec' } } else s')

/-- A doorbell read returns (R71): a failed one is counted, and the 16th in a row puts the ring in ERROR. -/
def doorbellReadDone (i : Fin 64) (r : HostRead) (s : State) : State :=
  if (s.ring i.val).state != .active then s
  else match r with
    | .ok l => takeDoorbell i.val l s
    | .failed =>
      let n := (s.ring i.val).fails + 1
      let s := (s.setRing i.val { s.ring i.val with fails := n }).bumpSat Reg.hostDbFails 16 1
      if 16 ≤ n then ringError eHostRead i.val s else s

/-- DOORBELL_READ_DONE (R71). -/
def execDoorbellReadDone (i : Fin 64) (r : HostRead) (s : State) : Outcome := .next (doorbellReadDone i r s)

/-- Places left among the 64 descriptors in flight, those that rings have asked for counted in (R77). -/
def State.flightRoom (s : State) : Nat :=
  64 - (s.host.flights.length + (s.host.rings.map (fun p => p.2.asked)).sum)

/-- How many descriptors a fetch of ring `i` covers: up to 8, as far as the tail, in one contiguous read, within the
room of the completion ring and the 64 in flight (R72, R77). -/
def State.fetchCount (s : State) (i : Nat) : Nat :=
  let r := s.ring i
  min (min 8 (posDist (s.sqSize i) r.tail r.fetch))
    (min (s.sqSize i - bits r.fetch 0 16) (min (s.cqFree i - s.inFlight i) s.flightRoom))

/-- The package issues a read for descriptors of ring `i` (R72). -/
def descriptorFetch (i : Fin 64) (s : State) : State :=
  let r := s.ring i.val
  let n := s.fetchCount i.val
  if s.polling && r.state == .active && r.asked = 0 && 0 < n then
    (s.setRing i.val { r with asked := n }).emit (.hostRead (BitVec.ofNat 64
      (s.pair (Reg.hostRingSqLo i.val) (Reg.hostRingSqHi i.val) + 64 * bits r.fetch 0 16)) (64 * n))
  else s

/-- DESCRIPTOR_FETCH (R72). -/
def execDescriptorFetch (i : Fin 64) (s : State) : Outcome := .next (descriptorFetch i s)

/-- Fetched descriptors are in flight in ring order, each with the fetch position after it. -/
def addFlights (i : Fin 64) : List Desc → State → State
  | [], s => s
  | d :: l, s =>
    let pos := posNext (s.sqSize i.val) (s.ring i.val).fetch
    let f : Flight := ⟨s.host.nextId, .ring i, d, pos, .fetched, BitVec.ofNat 16 (s.fld Reg.hostWaitLimit 0 16)⟩
    let s := s.setRing i.val { s.ring i.val with fetch := pos }
    addFlights i l { s with host := { s.host with flights := s.host.flights ++ [f], nextId := s.host.nextId + 1 } }

/-- A descriptor read returns (R72). A read that returns after the ring has left ACTIVE fetches nothing. -/
def descriptorFetchDone (i : Fin 64) (r : FetchResult) (s : State) : State :=
  let g := s.ring i.val
  if g.asked = 0 then s
  else if g.state != .active then s.setRing i.val { g with asked := 0 }
  else match r with
    | .failed => ringError eHostRead i.val s
    | .ok ds => addFlights i (ds.take (min g.asked (64 - s.host.flights.length))) (s.setRing i.val { g with asked := 0 })

/-- DESCRIPTOR_FETCH_DONE (R72). -/
def execDescriptorFetchDone (i : Fin 64) (r : FetchResult) (s : State) : Outcome := .next (descriptorFetchDone i r s)

/-! ### The start of a descriptor -/

/-- Two descriptors of one ring. -/
def sameRing (f g : Flight) : Bool :=
  match f.origin, g.origin with
  | .ring i, .ring j => i == j
  | _, _ => false

/-- A descriptor that has not started. -/
def notStarted (f : Flight) : Bool :=
  match f.st with
  | .fetched => true
  | .knotWait _ => true
  | .ready => true
  | .forwarded _ => true
  | .taken => true
  | .busy _ => true
  | _ => false

/-- Earlier descriptors of the same ring hold back the start of `f`: any that has not started, and under FENCE any at
all (R76, R77). -/
def State.heldBack (s : State) (f : Flight) : Bool :=
  let earlier := (s.host.flights.takeWhile (fun g => g.id != f.id)).filter (sameRing f)
  if dFence f.desc then !earlier.isEmpty else earlier.any notStarted

/-- Checks 1 to 3 of R74 on the header and the reserved body: 0 or the refusal. -/
def headVerdict (d : Desc) : Code :=
  let reserved (body : Nat) : Bool := (d.toNat &&& (2 ^ 512 - 1 - (descHeaderMask + body))) != 0
  match descBodyMask (dOp d) with
  | none => if (d.toNat % 2 ^ 192 &&& (2 ^ 192 - 1 - descHeaderMask)) ≠ 0 then eDescReserved else eDescOpcode
  | some b =>
    if reserved b then eDescReserved
    else if 64 ≤ dTarget d ∧ dTarget d ≤ 0xFE then eDescTarget
    else 0

/-- Checks 5 and 6 of R74: the service level and a running weave. -/
def levelVerdict (s : State) (op : Nat) : Code :=
  if s.level = 0 ∧ ¬opThumbling op = true then eServiceLevel
  else if 0x12 ≤ op ∧ !s.weaveRuns then eDescNoWeave
  else 0

/-- Check 7 of R74 where Table Host-6 or the chapter gives alignments and ranges with no code of their own. -/
def bodyVerdict (d : Desc) : Code :=
  match dOp d with
  | 0x01 => if dAddr d % 64 ≠ 0 then eDescBody else 0
  | 0x05 => if dAddr d % 64 ≠ 0 then eDescBody else 0
  | 0x12 => if dAddr d % 4096 ≠ 0 ∨ 127 < descNum d 32 1 then eDescBody else 0
  | _ => 0

/-- The state's effect on a host command (R236a, Table Requests-3): kind 0 cancel, 1 pause, 2 resume. -/
def cmdRefused (kind : Nat) (r : Req) : Bool :=
  match kind with
  | 0 => false
  | 1 => r.st == .paused
  | _ => !(r.st == .paused || r.st == .parked) || !r.hold

/-- A request in DONE, CANCELLED or FAULTED. -/
def ReqSt.ended (st : ReqSt) : Bool := st == .done || st == .cancelled || st == .faulted

/-- The judgement of a host command by the owner (R236a): 0 or the refusal. -/
def hostCmdVerdict (s : State) (kind : Nat) (d : Desc) : Code :=
  let r := smGet Req.reset s.serve.reqs (bits d 288 12)
  if r.st == .free || r.parcel.toNat ≠ descNum d 40 4 then eReqMismatch
  else if r.pendCmd then eReqPending
  else if r.st.ended then eReqFinal
  else if cmdRefused kind r then eReqState
  else 0

/-- An accepted host command sets PENDING and waits for the step boundary (R236a). -/
def acceptCmd (f : Flight) (kind : Fin 3) (s : State) : State :=
  let k := bits f.desc 288 12
  let r := smGet Req.reset s.serve.reqs k
  setFlight f.id .pendingCmd { s with serve := { s.serve with
    reqs := smSet Req.reset s.serve.reqs k { r with pendCmd := true },
    cmds := s.serve.cmds ++ [⟨f.id, kind, BitVec.ofNat 12 k⟩] } }

/-- A descriptor whose order and wait allow its start is judged by checks 5 to 7 of R74; accepted, its work may be
done, and the anchor that forwarded it learns of its start. -/
def judgeStart (f : Flight) (s : State) : State :=
  let op := dOp f.desc
  let c := levelVerdict s op
  let c := if c ≠ 0 then c else bodyVerdict f.desc
  let kind : Option (Fin 3) := match op with
    | 0x31 => some 0
    | 0x32 => some 1
    | 0x33 => some 2
    | _ => none
  let c := if c ≠ 0 then c else match kind with
    | some k => hostCmdVerdict s k.val f.desc
    | none => 0
  let s := match f.origin with
    | .anchor p num => if c = 0 then s.emit (.fwdAnswer p num .started) else s
    | _ => s
  if c ≠ 0 then finishFlight f c 0 s
  else match kind with
    | some k => acceptCmd f k s
    | none => setFlight f.id .started s

/-- The time (ns) at which a knot wait that begins now ends, if the anchor sets a limit (R75). -/
def waitLimit (f : Flight) (s : State) : Option Nat :=
  if f.limitMs = 0 then none else some (s.upNs + f.limitMs.toNat * 1000000)

/-- A descriptor goes to the stake that executes it; one that no route reaches completes with E_ROUTE_NONE (R54, R74). -/
def forwardFlight (f : Flight) (s : State) : State :=
  let p : BitVec 6 := BitVec.ofNat 6 (dTarget f.desc)
  if s.route p = 5 then finishFlight f eRouteNone 0 s
  else (setFlight f.id (.forwarded s.upNs) s).emit (.fwdDesc p f.id f.desc f.limitMs)

/-- A descriptor starts (R74-R77): header checks, target, knot wait, then its judgement on the executing package. DESIGN
CHOICE (log entry 65): checks 5 to 7 fall after the knot wait, on the package that executes the descriptor, so that one they
would refuse can end with E_KNOT_TIMEOUT first. -/
def descriptorStart (id : Nat) (s : State) : State :=
  match s.flight id with
  | none => s
  | some f =>
    match f.st with
    | .fetched =>
      if s.heldBack f then s
      else if headVerdict f.desc ≠ 0 then finishFlight f (headVerdict f.desc) 0 s
      else if fromRing f && dTarget f.desc ≠ 0xFF && dTarget f.desc ≠ s.pkg.toNat then
        forwardFlight f s
      else if dWaitEn f.desc && !knotMet (s.knot (dWaitKnot f.desc)) (BitVec.ofNat 32 (dWaitThr f.desc)) then
        setFlight id (.knotWait (waitLimit f s)) s
      else judgeStart f s
    | .ready => judgeStart f s
    | _ => s

/-- DESCRIPTOR_START (R76). -/
def execDescriptorStart (id : Nat) (s : State) : Outcome := .next (descriptorStart id s)

/-- A knot wait has lasted longer than its limit (R75). -/
def knotWaitTimeout (id : Nat) (s : State) : State :=
  match s.flight id with
  | none => s
  | some f =>
    match f.st with
    | .knotWait (some t) => if t < s.upNs then finishFlight f eKnotTimeout 0 s else s
    | _ => s

/-- KNOT_WAIT_TIMEOUT (R75). -/
def execKnotWaitTimeout (id : Nat) (s : State) : Outcome := .next (knotWaitTimeout id s)

/-! ### Forwarded descriptors (R77) -/

/-- 10 µs after a busy answer the anchor resends the descriptor. -/
def forwardResend (id : Nat) (s : State) : State :=
  match s.flight id with
  | none => s
  | some f =>
    match f.st with
    | .busy t => if t ≤ s.upNs then forwardFlight f s else s
    | _ => s

/-- FORWARD_RESEND (R77). -/
def execForwardResend (id : Nat) (s : State) : Outcome := .next (forwardResend id s)

/-- A descriptor forwarded by an anchor arrives: refused by an outsider outside opcodes 0x00 to 0x06 (R328), answered
busy by a package that holds 64 (R77), else in flight here, which the answer says at once (log entry 67). -/
def forwardedDescriptor (anchor : BitVec 6) (num : Nat) (d : Desc) (limitMs : BitVec 16) (s : State) : State :=
  if s.basket.outsider && !opThumbling (dOp d) then
    (latch eFwdOutsider 0 s).emit (.fwdAnswer anchor num (.done eFwdOutsider 0))
  else if s.flightRoom = 0 then s.emit (.fwdAnswer anchor num .busy)
  else
    let f : Flight := ⟨s.host.nextId, .anchor anchor num, d, 0, .fetched, limitMs⟩
    { s.emit (.fwdAnswer anchor num .taken) with
      host := { s.host with flights := s.host.flights ++ [f], nextId := s.host.nextId + 1 } }

/-- FORWARDED_DESCRIPTOR (R77). -/
def execForwardedDescriptor (anchor : BitVec 6) (num : Nat) (d : Desc) (limitMs : BitVec 16) (s : State) : Outcome :=
  .next (forwardedDescriptor anchor num d limitMs s)

/-- The stake's answer: busy starts the 10 µs wait, taken ends the wait for an answer, started lets the ring go on, done
writes the completion. -/
def takeAnswer (f : Flight) (a : FwdAnswer) (s : State) : State :=
  match a with
  | .busy => setFlight f.id (.busy (s.upNs + 10000)) s
  | .taken => setFlight f.id .taken s
  | .started => setFlight f.id .remote s
  | .done c r => finishFlight f c r s

/-- An answer concerns a descriptor that is forwarded or runs at its stake. -/
def forwardedDescriptorAnswer (id : Nat) (a : FwdAnswer) (s : State) : State :=
  match s.flight id with
  | none => s
  | some f =>
    match f.st with
    | .forwarded _ => takeAnswer f a s
    | .taken => takeAnswer f a s
    | .remote => takeAnswer f a s
    | _ => s

/-- FORWARDED_DESCRIPTOR_ANSWER (R77). -/
def execForwardedDescriptorAnswer (id : Nat) (a : FwdAnswer) (s : State) : Outcome :=
  .next (forwardedDescriptorAnswer id a s)

/-! ### Work of a descriptor -/

/-- The work of descriptor `id` if it has started with opcode `op`. -/
def doWork (op id : Nat) (k : Flight → State → State) (s : State) : State :=
  match s.flight id with
  | none => s
  | some f => if f.st == .started && dOp f.desc = op then k f s else s

/-- The work of descriptor `id`, which needs `len f` bytes from host memory: an anchor reads them, and `bytes` is what its
reads return; a stake asks its home anchor for them, and its work goes on with the data of the responses (R68). -/
def withSource (op id : Nat) (addr : Flight → Nat) (len : Flight → Nat) (bytes : List Byte)
    (k : Flight → List Byte → State → State) (s : State) : State :=
  match s.flight id with
  | none => s
  | some f =>
    if dOp f.desc != op then s
    else match f.st with
      | .started =>
        if s.anchor then k f bytes (hostGet (len f / 512 + 1) (BitVec.ofNat 64 (addr f)) (len f) s)
        else if len f = 0 then k f [] s
        else if s.route (s.homeAnchor s.pkg) = 5 then finishFlight f eRouteNone 0 s
        else
          let q := s.basket.looseSeq
          let s := fwdReads (len f / 992 + 1) (BitVec.ofNat 64 (addr f)) (len f) s
          setFlight id (.waitData ((seqsBetween q s.basket.looseSeq).map (fun x => (x, none))) s.upNs) s
      | .gotData b => k f b s
      | _ => s

/-- A descriptor whose work wrote host memory ends: at once on an anchor; on a stake once the responses to its
writes have arrived, or with E_ROUTE_NONE where its home anchor cannot be reached (R68). -/
def endAfterWrites (f : Flight) (writes : List (Nat × List Byte)) (result : Word) (s : State) : State :=
  if s.anchor then
    completeFlight f 0 result (writes.foldl (fun s w => hostPut (BitVec.ofNat 64 w.1) w.2 s) s)
  else if writes.isEmpty then completeFlight f 0 result s
  else if s.route (s.homeAnchor s.pkg) = 5 then finishFlight f eRouteNone 0 s
  else
    let q := s.basket.looseSeq
    let s := writes.foldl (fun s w => hostPut (BitVec.ofNat 64 w.1) w.2 s) s
    setFlight f.id (.waitRsp (seqsBetween q s.basket.looseSeq) 0 result s.upNs) s

/-- NOP (R74). -/
def execNop (id : Nat) (s : State) : Outcome := .next (doWork 0x00 id (fun f s => completeFlight f 0 0 s) s)

/-- Zero bytes. -/
def zeros (n : Nat) : List Byte := List.replicate n 0

/-- The IDENTITY buffer (Table Images-8). -/
def identityBytes (s : State) : List Byte :=
  let src := s.fld Reg.bootStatus 0 2
  let serial : BitVec 64 := BitVec.ofNat 64 (s.pair Reg.idSerialLo Reg.idSerialHi)
  leBytes 2 1 ++ leBytes 1 s.lifecycle ++ leBytes 1 s.level ++ leBytes 8 serial.toNat
    ++ leBytes 4 (s.shadowWord 1).toNat ++ leBytes 4 (s.shadowWord 3).toNat ++ leBytes 4 (s.shadowWord 4).toNat
    ++ leBytes 4 (s.shadowWord 5).toNat
    ++ leBytes 1 s.pkg.toNat ++ leBytes 1 s.anchor.toNat ++ leBytes 1 3 ++ leBytes 1 s.boot.patchGen.toNat
    ++ leBytes 8 s.tuple ++ leBytes 1 (if src = 0 then 0xFF else src - 1) ++ leBytes 1 (s.fld Reg.bootStatus 0 8)
    ++ leBytes 2 (s.fld Reg.bootFloor 0 9) ++ zeros 4
    ++ (List.range 128).map (Config.idKey serial) ++ zeros 80

/-- IDENTITY (R74, Table Images-8). -/
def execIdentity (id : Nat) (s : State) : Outcome :=
  .next (doWork 0x01 id (fun f s => endAfterWrites f [(dAddr f.desc, identityBytes s)] 0 s) s)

/-- Code of a port state (Table Withy-10). -/
def portCode : PortState → Nat
  | .off => 0
  | .whisper => 1
  | .train => 2
  | .linked => 3
  | .woven => 4
  | .rekey => 5

/-- FAULT_STATUS.PHASE. -/
def restartCode : RestartPhase → Nat
  | .running => 0
  | .stopped => 1
  | .recovering => 2
  | .ready => 3
  | .idle => 4

/-- Weave id of the running weave, 0 for none. -/
def State.weaveId (s : State) : Word :=
  match s.weave.run with
  | some d => d.weaveId
  | none => 0

/-- The STATUS buffer (R286, Table Faults-6). -/
def statusBytes (s : State) : List Byte :=
  leBytes 2 1 ++ leBytes 1 s.level ++ leBytes 1 s.lifecycle ++ leBytes 1 s.pkg.toNat ++ leBytes 1 s.anchor.toNat
    ++ leBytes 1 (restartCode s.fault.phase) ++ leBytes 1 s.weave.alt.toNat ++ leBytes 4 s.weaveId.toNat
    ++ leBytes 4 (s.reg Reg.faultRestarts).toNat ++ leBytes 8 s.time.beatNum.toNat ++ leBytes 8 s.nowNs
    ++ leBytes 32 (s.fault.log.headD 0).toNat
    ++ ((List.range 64).map (fun i =>
         let w := s.reg (Reg.coreArrayStatus (i / 4) (i % 4))
         leBytes 1 (bits w 0 2 + bits w 8 5 * 4 + bits w 14 1 * 128))).flatten
    ++ (allPorts.map (fun p => leBytes 1 (portCode (s.port p).state) ++ leBytes 1 (s.port p).width.toNat)).flatten
    ++ leBytes 4 (s.reg Reg.thermMax).toNat ++ zeros 116

/-- STATUS (R286). -/
def execStatus (id : Nat) (s : State) : Outcome :=
  .next (doWork 0x02 id (fun f s => endAfterWrites f [(dAddr f.desc, statusBytes s)] 0 s) s)

/-- Units that failed the last self-test: cores, ports, and the four units of bytes 96 to 111 (log entry 33). -/
def unitsFailed (t : SelfTest) : Nat :=
  let core (n : Nat) : Bool := bits t.arraysOk (4 * n) 4 = 15 && t.vectorOk.getLsbD n && t.spindleOk.getLsbD n
    && bits t.segsOk (12 * n) 12 = 4095
  ((List.range 16).filter (fun n => !core n)).length + (4 - popCount 4 t.portsOk.toNat)
    + ([t.storeCode, t.pixCode, t.wfeCode, t.pcieCode].filter (fun c => c != 0)).length

/-- The SELFTEST buffer (Table Images-9). -/
def selftestBytes (s : State) : List Byte :=
  let t := s.boot.test
  let lanes (p : Nat) : Nat := popCount 4 (bits t.portLanes (4 * p) 4)
  leBytes 2 1 ++ leBytes 1 s.level ++ leBytes 1 (unitsFailed t) ++ leBytes 4 t.durationUs.toNat ++ leBytes 8 s.boot.testNs
    ++ ((List.range 16).map (fun c => leBytes 4 (bits t.arraysOk (4 * c) 4 + (t.vectorOk.getLsbD c).toNat * 16
         + (t.spindleOk.getLsbD c).toNat * 32 + bits t.segsOk (12 * c) 12 * 64))).flatten
    ++ ((List.range 4).map (fun p => leBytes 4 ((t.portsOk.getLsbD p).toNat + (lanes p - 1) * 2))).flatten
    ++ leBytes 4 t.storeCode.toNat ++ leBytes 4 t.pixCode.toNat ++ leBytes 4 t.wfeCode.toNat ++ leBytes 4 t.pcieCode.toNat
    ++ leBytes 2 (s.fld Reg.fuseStatus 16 9) ++ zeros 910

/-- SELFTEST (R74, Table Images-9). -/
def execSelftest (id : Nat) (s : State) : Outcome :=
  .next (doWork 0x03 id (fun f s => endAfterWrites f [(dAddr f.desc, selftestBytes s)] 0 s) s)

/-! ### Knots and mirrors -/

/-- KNOT_SET (R84): refused on a knot that the running weave owns. -/
def knotSet (f : Flight) (s : State) : State :=
  let k := bits f.desc 256 17
  if s.weaveRuns && inKnots s.weaveKnots k then finishFlight f eKnotOwned 0 s
  else
    let v := BitVec.ofNat 32 (descNum f.desc 36 4)
    let s := setKnot k v s
    completeFlight f 0 0 { s with host := { s.host with flights := readyFlights k v s.host.flights } }

/-- KNOT_SET (R84). -/
def execKnotSet (id : Nat) (s : State) : Outcome := .next (doWork 0x10 id knotSet s)

/-- KNOT_READ (R83): the value in RESULT. -/
def execKnotRead (id : Nat) (s : State) : Outcome :=
  .next (doWork 0x11 id (fun f s => completeFlight f 0 (s.knot (bits f.desc 256 17)) s) s)

/-- Values of the 1,024 knots of a page. -/
def knotPage (n : Nat) (s : State) : List Byte :=
  ((List.range 1024).map (fun k => leBytes 4 (s.knot (1024 * n + k)).toNat)).flatten

/-- MIRROR (R85): ENABLE binds the page and writes it once, else the page is unbound. -/
def mirror (f : Flight) (s : State) : State :=
  let n := descNum f.desc 32 1
  if f.desc.getLsbD 264 then
    let s := { s with host := { s.host with
      mirrors := smSet none s.host.mirrors n (some (BitVec.ofNat 64 (dAddr f.desc))),
      dirty := s.host.dirty.filter (fun k => k / 1024 != n) } }
    endAfterWrites f [(dAddr f.desc, knotPage n s)] 0 s
  else completeFlight f 0 0 { s with host := { s.host with
    mirrors := smSet none s.host.mirrors n none, dirty := s.host.dirty.filter (fun k => k / 1024 != n) } }

/-- MIRROR (R85). -/
def execMirror (id : Nat) (s : State) : Outcome := .next (doWork 0x12 id mirror s)

/-- The value of a changed mirrored knot is written to its place in the host page (R85). -/
def mirrorWrite (k : BitVec 17) (s : State) : State :=
  let n := k.toNat
  if !s.host.dirty.contains n then s
  else match smGet none s.host.mirrors (n / 1024) with
    | none => s
    | some a =>
      if s.anchor && !s.host.bme then s
      else hostPut (a + BitVec.ofNat 64 (4 * (n % 1024))) (leBytes 4 (s.knot n).toNat)
        { s with host := { s.host with dirty := s.host.dirty.filter (fun j => j != n) } }

/-- MIRROR_WRITE (R85). -/
def execMirrorWrite (k : BitVec 17) (s : State) : Outcome := .next (mirrorWrite k s)

/-- A local engine signals a knot here or on a remote package; with the queue of the egress full it stalls
(R59, R83). -/
def knotSignal (k : BitVec 17) (amount : BitVec 16) (dst : Option (BitVec 6)) (s : State) : State :=
  sendKnot (dst.getD s.pkg) k.toNat amount.toNat s

/-- KNOT_SIGNAL (R83). -/
def execKnotSignal (k : BitVec 17) (amount : BitVec 16) (dst : Option (BitVec 6)) (s : State) : Outcome :=
  .next (knotSignal k amount dst s)

/-- A CTRL KNOT word: its amount is added here, or the word goes on towards its destination (R83, R59). -/
def knotWordIn (w : LinkWord) (s : State) : State :=
  if ctrlSub w ≠ 2 then s
  else
    let dst : BitVec 6 := BitVec.ofNat 6 (lwByte w 3)
    if dst = s.pkg then signalKnot (lwNum w 4 3 % 2 ^ 17) (lwNum w 7 2) s
    else if s.basket.outsider then s
    else match s.egress dst with
      | some p => sendCtrl p w s
      | none => s

/-- KNOT (R83). -/
def execKnot (w : LinkWord) (s : State) : Outcome := .next (knotWordIn w s)

/-! ### Waiting entries and events -/

/-- A waiting RECORD, EVENT or final TOKENS entry is written once its ring pair has room (R80). -/
def deferredEntryPost (s : State) : State := if s.anchor then postWaiting s else s

/-- DEFERRED_ENTRY_POST (R80). -/
def execDeferredEntryPost (s : State) : Outcome := .next (deferredEntryPost s)

/-- A stake sends its oldest held EVENT to its home anchor, with the count of those it dropped (R81). -/
def stakeEventSend (s : State) : State :=
  match s.host.heldEv with
  | [] => s
  | b :: l =>
    let home := s.homeAnchor s.pkg
    if s.anchor || s.basket.outsider || s.route home = 5 then s
    else
      let body := putBits b 48 16 (min s.host.evDropped 0xFFFF)
      let s := { s with host := { s.host with heldEv := l, evDropped := 0 } }
      sendLoose (s.mkLoose 1 home 0 0 (fwdPayload 0 0 32 (leBytes 32 body.toNat))) s

/-- STAKE_EVENT_SEND (R81). -/
def execStakeEventSend (s : State) : Outcome := .next (stakeEventSend s)

/-- COAL_TIME has passed since the first unsignalled entry of a ring: its vector fires (R82). -/
def coalesceTimeout (i : Fin 64) (s : State) : State :=
  let cfg := Reg.hostRingCfg i.val
  match (s.ring i.val).unsigAt with
  | none => s
  | some t =>
    if s.flag cfg 17 && s.fld cfg 24 8 ≠ 0 && t + s.fld cfg 24 8 * 500 * 65536 ≤ s.nowFp then
      fireVector i.val (s.setRing i.val { s.ring i.val with unsig := 0, unsigAt := none })
    else s

/-- COALESCE_TIMEOUT (R82). -/
def execCoalesceTimeout (i : Fin 64) (s : State) : Outcome := .next (coalesceTimeout i s)

/-! ### Forwarded host access (R68) -/

/-- The home anchor answers a request of a stake. -/
def hostRsp (m : Loose) (payload : List Byte) (s : State) : State :=
  sendLoose { s.mkLoose 2 (m.src.setWidth 6) m.addr 0 payload with seq := m.seq } s

/-- A stake's event or host-memory access arrives at its home anchor and is carried out (R68, R81). Nothing is issued
on PCIe while Bus Master Enable is clear. -/
def hostFwdReq (m : Loose) (data : HostRead) (s : State) : State :=
  if m.type ≠ 1 ∨ m.dst ≠ s.pkg.setWidth 8 ∨ s.anchor = false then s
  else
    let addr : BitVec 64 := BitVec.ofNat 64 (leAt m.payload 1 8)
    match leAt m.payload 0 1 with
    | 0 =>
      let body : BitVec 256 := BitVec.ofNat 256 (leAt m.payload 13 32)
      enqueueEvent body (fireFor (BitVec.ofNat 16 (bits body 0 16)) s)
    | 1 => if s.host.bme then hostRsp m [] (s.emit (.hostWrite addr (m.payload.drop 13))) else s
    | 2 =>
      if s.host.bme then
        let s := s.emit (.hostRead addr (leAt m.payload 9 4))
        match data with
        | .ok l => hostRsp m l s
        | .failed => s
      else s
    | _ => s

/-- HOST_FWD_REQ (R68). -/
def execHostFwdReq (m : Loose) (data : HostRead) (s : State) : Outcome := .next (hostFwdReq m data s)

/-- The sequence number of a response belongs to an access of the descriptor. -/
def awaits (q : BitVec 32) (f : Flight) : Bool :=
  match f.st with
  | .waitRsp l _ _ _ => l.contains q
  | .waitData l _ => l.any (fun p => p.1 == q && p.2.isNone)
  | _ => false

/-- The data of forwarded reads in their order, once all are here. -/
def dataOf (l : List (BitVec 32 × Option (List Byte))) : Option (List Byte) :=
  if l.all (fun p => p.2.isSome) then some ((l.filterMap (fun p => p.2)).flatten) else none

/-- One awaited response is here: the last one completes the descriptor, or lets its work go on with the data (R68,
R75). -/
def takeRsp (f : Flight) (q : BitVec 32) (bytes : List Byte) (s : State) : State :=
  match f.st with
  | .waitRsp l c r t =>
    let l := l.filter (fun x => x != q)
    if l.isEmpty then completeFlight f c r s else setFlight f.id (.waitRsp l c r t) s
  | .waitData l t =>
    let l := l.map (fun p => if p.1 = q then (p.1, some bytes) else p)
    match dataOf l with
    | some b => setFlight f.id (.gotData b) s
    | none => setFlight f.id (.waitData l t) s
  | _ => s

/-- A response reaches the stake (R68). -/
def hostFwdRsp (m : Loose) (s : State) : State :=
  if m.type ≠ 2 ∨ m.dst ≠ s.pkg.setWidth 8 then s
  else match s.host.flights.find? (awaits m.seq) with
    | some f => takeRsp f m.seq m.payload s
    | none => s

/-- HOST_FWD_RSP (R68). -/
def execHostFwdRsp (m : Loose) (s : State) : Outcome := .next (hostFwdRsp m s)

/-- The time (ns) of sending of an access, or of a descriptor, that has had no answer yet. -/
def sentAt (f : Flight) : Option Nat :=
  match f.st with
  | .waitRsp _ _ _ t => some t
  | .waitData _ t => some t
  | .forwarded t => some t
  | _ => none

/-- A forwarded access has had no response for 100 µs: its descriptor completes with E_FWD_TIMEOUT (R63, R68, R74). -/
def hostFwdTimeout (id : Nat) (s : State) : State :=
  match s.flight id with
  | none => s
  | some f =>
    match sentAt f with
    | some t => if t + 100000 ≤ s.upNs then finishFlight f eFwdTimeout 0 s else s
    | none => s

/-- HOST_FWD_TIMEOUT (R68). -/
def execHostFwdTimeout (id : Nat) (s : State) : Outcome := .next (hostFwdTimeout id s)

/-! ### The record ring -/

/-- The judgement of a HOST_REC_CFG write (R88, R357): 0 or the refusal. -/
def recCfgVerdict (s : State) (new : Word) : Code :=
  let old := s.reg Reg.hostRecCfg
  if !s.anchor then eHostStake
  else if old.getLsbD 16 && (bits new 0 4 ≠ bits old 0 4 || bits new 8 6 ≠ bits old 8 6) then eRecCfg
  else if bits new 0 4 < 4 || 12 < bits new 0 4 then eRecCfg
  else 0

/-- A write to HOST_REC_CFG (R87, R88): enabling starts at slot 0 of lap 1; disabling keeps every uncommitted record
held. -/
def recCfgWrite (val : Word) (be : BitVec 4) (s : State) : State :=
  if !s.answers Reg.hostRecCfg then s
  else
    let old := s.reg Reg.hostRecCfg
    let new := mergeBytes old val be &&& 0x13F0F
    let c := recCfgVerdict s new
    if c ≠ 0 then refuse c s
    else
      let s := s.setReg Reg.hostRecCfg new
      if new.getLsbD 16 && !old.getLsbD 16 then
        { s with host := { s.host with recPos := 0, recLap := 1, recHead := 0 } }
      else if !new.getLsbD 16 && old.getLsbD 16 then holdRecords s
      else s

/-- REC_RING_ENABLE (R87). -/
def execRecRingEnable (val : Word) (be : BitVec 4) (s : State) : Outcome := .next (recCfgWrite val be s)

/-- REC_RING_DISABLE (R87). -/
def execRecRingDisable (val : Word) (be : BitVec 4) (s : State) : Outcome := .next (recCfgWrite val be s)

end Sys2Proof.Machine
end

