-- ==== Sys2Proof/Machine/Flash.lean ====
section
/-!
DEFINITION. Flash.lean: the flash commands of 19_images: FLASH_ERASE (R331), FLASH_WRITE (R332), IMAGE_COMMIT (R333)
and patch bundles (R334).
-/

namespace Sys2Proof.Machine

/-- The booted slot (BOOT_STATUS.SOURCE); none while the boot ROM serves. -/
def State.bootedSlot (s : State) : Option Bool :=
  match s.fld Reg.bootStatus 0 2 with
  | 1 => some false
  | 2 => some true
  | _ => none

/-- The ranges [a, a + n) and [b, b + k) share a byte. -/
def touches (a n b k : Nat) : Bool := decide (a < b + k) && decide (b < a + n)

/-- Checks 1 to 3 of R331 over a range, with the granule of the command. -/
def flashRange (s : State) (gran off len : Nat) : Code :=
  if len = 0 ∨ off % gran ≠ 0 ∨ len % gran ≠ 0 ∨ s.flashSize < off + len then eFlashRange
  else if (match s.bootedSlot with
      | some b => touches off len (slotAt b) 0x100000
      | none => false) then eFlashActive
  else if touches off len 0 0x2000 then eFlashProtected
  else if touches off len 0x400000 0x1200000 && (s.lifecycle = 2 || s.lifecycle = 3) then eFlashProtected
  else 0

/-- Flash bytes from `off` take `bytes`. -/
def putFlash (off : Nat) (bytes : List Byte) (s : State) : State :=
  { s with flash := smSetAll 0xFF s.flash off bytes }

/-- A range of whole sectors is erased. -/
def eraseFlash (off len : Nat) (s : State) : State :=
  { s with flash := s.flash.filter (fun p => decide (p.1 < off ∨ off + len ≤ p.1)) }

/-- The commit sector of slot `b` is erased when the range touches the slot. -/
def eraseCommit (off len : Nat) (b : Bool) (s : State) : State :=
  if touches off len (slotAt b) 0x100000 then eraseFlash (commitAt b) 4096 s else s

/-- FLASH_ERASE: judged, then the commit sector of a touched slot and the range are erased (R322, R331). -/
def flashErase (f : Flight) (s : State) : State :=
  let off := descNum f.desc 32 4
  let len := descNum f.desc 36 4
  if !s.flag Reg.bootStatus 8 then finishFlight f eFlashSfdp 0 s
  else if flashRange s 4096 off len ≠ 0 then finishFlight f (flashRange s 4096 off len) 0 s
  else completeFlight f 0 0 (eraseFlash off len (eraseCommit off len true (eraseCommit off len false s)))

/-- FLASH_ERASE (R331). -/
def execFlashErase (id : Nat) (s : State) : Outcome := .next (doWork 0x04 id flashErase s)

/-- Bytes of the flash that read back wrong (log entry 32). -/
def badBytes (ctr n : Nat) : List Byte := (List.range n).map (Config.flashBad ctr)

/-- Pages from `off` are programmed in order until one is not erased or reads back wrong: the code and the bytes
written (R332). `bad` counts down to the page whose read-back fails. -/
def writePages : List (List Byte) → Nat → Nat → Option Nat → State → State × Code × Nat
  | [], _, done, _, s => (s, 0, done)
  | p :: l, off, done, bad, s =>
    if (s.flashBytes off 256).any (fun b => b != 0xFF) then (s, eFlashNotErased, done)
    else match bad with
      | some 0 =>
        ({ putFlash off (badBytes s.freeCtr 256) s with freeCtr := s.freeCtr + 1 }, eFlashVerify, done)
      | some (n + 1) => writePages l (off + 256) (done + 256) (some n) (putFlash off p s)
      | none => writePages l (off + 256) (done + 256) none (putFlash off p s)

/-- A byte string cut into `n` pieces of `k` bytes. -/
def cutBytes (k : Nat) : Nat → List Byte → List (List Byte)
  | 0, _ => []
  | n + 1, l => l.take k :: cutBytes k n (l.drop k)

/-- FLASH_WRITE of the bytes read from the source (R322, R332). -/
def flashWrite (src : List Byte) (badPage : Option Nat) (f : Flight) (s : State) : State :=
  let off := descNum f.desc 32 4
  let len := descNum f.desc 36 4
  if !s.flag Reg.bootStatus 8 then finishFlight f eFlashSfdp 0 s
  else if 65536 < len then finishFlight f eFlashRange 0 s
  else if flashRange s 256 off len ≠ 0 then finishFlight f (flashRange s 256 off len) 0 s
  else
    let (s, c, n) := writePages (cutBytes 256 (len / 256) (src ++ zeros (len - src.length))) off 0 badPage s
    if c = 0 then completeFlight f 0 (BitVec.ofNat 32 n) s else finishFlight f c (BitVec.ofNat 32 n) s

/-- The bytes that a FLASH_WRITE reads: none where it is refused for its length (R332). -/
def flashReads (f : Flight) : Nat := if 65536 < descNum f.desc 36 4 then 0 else descNum f.desc 36 4

/-- FLASH_WRITE (R332). -/
def execFlashWrite (id : Nat) (src : List Byte) (badPage : Option Nat) (s : State) : Outcome :=
  .next (withSource 0x05 id (fun f => dAddr f.desc) flashReads src (fun f b => flashWrite b badPage f) s)

/-- Content length that a commit record names: to the end of the last part, at least 256 (log entry 34). -/
def contentLen (content : List Byte) : Nat :=
  let partEnd (i : Nat) : Nat := leAt content (4 + 8 * i) 4 + leAt content (8 + 8 * i) 4
  max 256 (max (partEnd 0) (max (partEnd 1) (partEnd 2)))

/-- A commit record (Table Images-3). -/
def commitRecord (b : Bool) (seq : Word) (content : List Byte) : List Byte :=
  let r := leBytes 4 0x534C4F54 ++ leBytes 1 b.toNat ++ leBytes 1 0 ++ leBytes 2 1 ++ leBytes 4 seq.toNat
    ++ leBytes 4 content.length ++ sha256 content ++ zeros 12
  r ++ leBytes 4 (crc32c r).toNat

/-- Sequence number of the booted slot plus 1; a free value while no slot is booted (log entry 28). -/
def nextSeq (s : State) : Word :=
  match s.bootedSlot with
  | some b => BitVec.ofNat 32 (leAt (s.flashBytes (commitAt b) 64) 8 4 + 1)
  | none => Config.commitSeq s.freeCtr

/-- IMAGE_COMMIT of kind 0x01 (R333). -/
def commitSlot (b readBackOk : Bool) (f : Flight) (s : State) : State :=
  if s.bootedSlot = some b then finishFlight f eFlashActive 0 s
  else
    let slot := s.slotContent b 0x100000
    let c := contentVerdict s.floorVal slot
    if c ≠ 0 then finishFlight f c 0 s
    else
      let q := nextSeq s
      let rec' := commitRecord b q (slot.take (contentLen slot))
      let s := eraseFlash (commitAt b) 4096 s
      if readBackOk then
        completeFlight f 0 q { putFlash (commitAt b) rec' s with freeCtr := s.freeCtr + 1 }
      else
        finishFlight f eFlashVerify 0
          { putFlash (commitAt b) (badBytes s.freeCtr 64) s with freeCtr := s.freeCtr + 1 }

/-- The steward programs one fuse word through the controller: the code it ends with (R308, R310). -/
def stewardProgram (w : Nat) (d : Word) (o : FuseOutcome) (s : State) : State × Code :=
  match fuseJudge 2 w d true true s with
  | .error c => (s, c)
  | .ok plan =>
    let (fu, c, p) := blowPlan false plan [o] s.fuse
    (fuseEnd c p { s with fuse := { fu with cmd := some ⟨2, BitVec.ofNat 9 w, d, true, plan⟩ } }, c)

/-- Words of one patch entry are programmed in order. -/
def programWords : List (Nat × Word) → FuseOutcome → State → State × Code
  | [], _, s => (s, 0)
  | (w, d) :: l, o, s =>
    let (s, c) := stewardProgram w d o s
    if c = 0 then programWords l o s else (s, c)

/-- Entries of a patch bundle in order: the code and the entries programmed (R334). -/
def applyPatches : List (List Byte) → FuseOutcome → Nat → State → State × Code × Nat
  | [], _, n, s => (s, 0, n)
  | e :: l, o, n, s =>
    let words := (List.range 4).map (fun i => (160 + 4 * leAt e 0 1 + i, BitVec.ofNat 32 (leAt e (4 + 4 * i) 4)))
    if words.all (fun p => s.fuseWord p.1 == p.2) then applyPatches l o n s
    else if words.all (fun p => s.fuseWord p.1 == 0) then
      let (s, c) := programWords words o s
      if c = 0 then applyPatches l o (n + 1) s else (s, c, n)
    else (s, eFuseNotBlank, n)

/-- The verdict over the patch bundle of slot `b`: its commit record under R323, the slot and the bundle under R324;
a slot that is no candidate fails with E_BOOT_IMAGE (log entry 34). -/
def bundleVerdict (s : State) (b : Bool) : Code :=
  let r := s.flashBytes (commitAt b) 64
  let content := s.slotContent b (leAt r 12 4)
  if !commitOk b r then eBootImage
  else if sha256 content ≠ (r.drop 16).take 32 then eBootHash
  else if !slotHeaderOk content content.length then eBootImage
  else imageVerdict 3 s.floorVal (slotPart content 2)

/-- IMAGE_COMMIT of kind 0x02 (R334). -/
def commitPatches (b : Bool) (o : FuseOutcome) (f : Flight) (s : State) : State :=
  let c := bundleVerdict s b
  if c ≠ 0 then finishFlight f c 0 s
  else
    let img := slotPart (s.slotContent b (leAt (s.flashBytes (commitAt b) 64) 12 4)) 2
    let len := leAt img 12 4
    let entries := cutBytes 20 (len / 20) ((img.drop 128).take len)
    if len % 20 ≠ 0 ∨ entries.any (fun e => decide (63 < leAt e 0 1) || !allZero ((e.drop 1).take 3)) then
      finishFlight f eBootImage 0 s
    else
      let (s, c, n) := applyPatches entries o 0 s
      if c = 0 then completeFlight f 0 (BitVec.ofNat 32 n) s else finishFlight f c (BitVec.ofNat 32 n) s

/-- IMAGE_COMMIT (R333, R334). -/
def imageCommit (readBackOk : Bool) (o : FuseOutcome) (f : Flight) (s : State) : State :=
  let slot := descNum f.desc 32 1
  let b := decide (slot = 1)
  if 1 < slot then finishFlight f eBootKind 0 s
  else match descNum f.desc 33 1 with
    | 1 => commitSlot b readBackOk f s
    | 2 => commitPatches b o f s
    | _ => finishFlight f eBootKind 0 s

/-- IMAGE_COMMIT (R333). -/
def execImageCommit (id : Nat) (readBackOk : Bool) (fuse : FuseOutcome) (s : State) : Outcome :=
  .next (doWork 0x06 id (imageCommit readBackOk fuse) s)

end Sys2Proof.Machine
end

