-- ==== Sys2Proof/Machine/Trig.lean ====
section
/-!
DEFINITION. Trig.lean: sine and cosine of an angle in 0.001 degree, the angle of a direction, and whole square roots, in
integers wide enough that what the package rounds from them follows from the exact values (R116, R124, log entry 38).
-/

namespace Sys2Proof.Machine

/-- One, as a fraction of 128 bits. -/
def trigOne : Int := 2 ^ 128

/-- The number pi, as a fraction of 128 bits. -/
def trigPi : Int := 1069028584064966747859680373161870783301

/-- The sum of `n + 1` terms of the sine or cosine series, from term `t` of degree `k`, in the square `x2`. -/
def trigSeries : Nat → Nat → Int → Int → Int
  | 0, _, _, t => t
  | n + 1, k, x2, t => t + trigSeries n (k + 2) x2 (-(t * x2 / trigOne) / ((k + 1 : Nat) * (k + 2 : Nat) : Int))

/-- Cosine and sine of an angle from -90,000 to +90,000 in 0.001 degree; exact where either is rational. -/
def cosSin (m : Int) : Int × Int :=
  if m = 0 then (trigOne, 0)
  else if m = 90000 then (0, trigOne)
  else if m = -90000 then (0, -trigOne)
  else
    let x := m * trigPi / 180000
    let x2 := x * x / trigOne
    let c := if m.natAbs = 60000 then trigOne / 2 else trigSeries 22 0 x2 trigOne
    if m = 45000 then (c, c) else if m = -45000 then (c, -c)
    else (c, if m = 30000 then trigOne / 2 else if m = -30000 then -(trigOne / 2) else trigSeries 22 1 x2 x)

/-- The direction (x, y), with x above 0, does not lie below angle `m`. -/
def notBelow (x y m : Int) : Bool :=
  let t := cosSin m
  decide (x * t.2 ≤ y * t.1)

/-- The greatest angle in 0.001 degree, from `lo` in steps of the powers of 2 below 2^k, that a direction with x above 0
does not lie below. -/
def angleFloor : Nat → Int → Int → Int → Int
  | 0, _, _, lo => lo
  | k + 1, x, y, lo =>
    let m := lo + 2 ^ k
    angleFloor k x y (if m < 90000 && notBelow x y m then m else lo)

/-- The greatest whole number whose square is at most `n`, among the `k` lowest bits. -/
def sqrtBits : Nat → Nat → Nat → Nat
  | 0, _, r => r
  | k + 1, n, r => let r' := r + 2 ^ k; sqrtBits k n (if r' * r' ≤ n then r' else r)

end Sys2Proof.Machine
end

