-- ==== Sys2Proof/Machine/Roi.lean ====
section
/-!
DEFINITION. Roi.lean: 06_regions: the region list and the layout rules (R112-R115), crops (R116-R119), laser profiles
(R120, R121), parcels in belt coordinates (R122, R123), the box (R124, R125), the diagnostic (R129), and the closed
write path (R127).
-/

namespace Sys2Proof.Machine

/-! ### Frames and windows -/

/-- The rectangle of window `w` of a frame: first column, first row, columns, rows; a FULL frame reads the whole array
(R92, log entry 37). -/
def Frame.rect (f : Frame) (w : Nat) : Option (Nat × Nat × Nat × Nat) :=
  if f.exp.mode.getLsbD 0 then
    match f.exp.windows.find? (fun x => x.1 == w) with
    | some (_, x, y) => some (32 * bits x 0 8, bits y 0 11, 32 * bits x 16 9, bits y 16 12)
    | none => none
  else some (0, 0, 8192, 2048)

/-- Bytes of the frame buffer ahead of window `w` (R89, Table Pix-2). -/
def Frame.offset (f : Frame) (w : Nat) : Nat :=
  if f.exp.mode.getLsbD 0 then
    32 + ((f.exp.windows.takeWhile (fun x => x.1 != w)).map (fun x => 64 * bits x.2.1 16 9 * bits x.2.2 16 12)).sum
  else 32

/-- Store address of the frame buffer that the running weave names for a frame's setup (R89). -/
def State.frameBase (s : State) (f : Frame) : Option Nat :=
  s.weave.run.map (fun d => (nthD 0 d.frameBufs f.exp.setup.toNat).toNat)

/-- The corrected frame of a setup that stands in the store. -/
def State.storedFrame (s : State) (setup : Nat) : Option Frame := smGet none s.pix.stored setup

/-- The stored frame with a sequence number (Table Pix-2). -/
def State.storedSeq (s : State) (seq : Nat) : Option Frame :=
  (s.pix.stored.filterMap (fun p => p.2)).find? (fun f => f.exp.seq.toNat == seq)

/-- Address of the pixel at column `c` and row `r` of window `w`; none outside the window. -/
def State.pixelAddr (s : State) (f : Frame) (w : Nat) (c r : Int) : Option Nat :=
  match s.frameBase f, f.rect w with
  | some b, some (x0, y0, nx, ny) =>
    if (x0 : Int) ≤ c ∧ c < x0 + nx ∧ (y0 : Int) ≤ r ∧ r < y0 + ny then
      some (b + f.offset w + 2 * ((r - y0).toNat * nx + (c - x0).toNat))
    else none
  | _, _ => none

/-- A pixel's value and poison mark; outside the window it contributes zero (R116, R273). -/
def State.pixel (s : State) (f : Frame) (w : Nat) (c r : Int) : Nat × Bool :=
  match s.pixelAddr f w c r with
  | some a => (ofLe (s.rdMem a 2) % 4096, s.poisoned a 2)
  | none => (0, false)

/-! ### The region list -/

/-- `n` bytes of an entry from byte `lo`. -/
def entryNum (e : BitVec 256) (lo n : Nat) : Nat := bits e (8 * lo) (8 * n)

/-- An entry's angle, in 0.01 degree. -/
def entryAngle (e : BitVec 256) : Int := signed 16 (entryNum e 20 2)

/-- The checks of R112 on one entry. -/
def entryOk (f : Frame) (e : BitVec 256) : Bool :=
  (crc32c (leBytes 28 e.toNat)).toNat == entryNum e 28 4 && entryNum e 4 1 ≤ 7
    && decide (-9000 ≤ entryAngle e) && decide (entryAngle e ≤ 9000) && entryNum e 23 5 == 0
    && match f.rect (entryNum e 22 1) with
      | some (x0, y0, nx, ny) =>
        entryNum e 22 1 ≤ 7 && 16 * x0 ≤ entryNum e 8 4 && entryNum e 8 4 < 16 * (x0 + nx)
          && 16 * y0 ≤ entryNum e 12 4 && entryNum e 12 4 < 16 * (y0 + ny)
      | none => false

/-- A layout rule matches a region on a face (R113, Table Regions-2). -/
def ruleMatches (face : Nat) (e : BitVec 256) (r : BitVec 128) : Bool :=
  let num (lo n : Nat) : Nat := bits r (8 * lo) (8 * n)
  r.getLsbD 0 && nbit (num 1 1) (entryNum e 4 1) && (entryNum e 6 2 &&& num 4 2) == (num 2 2 &&& num 4 2)
    && num 6 1 ≤ entryNum e 5 1 && nbit (num 7 1) face

/-- The active bank, and the one that host software writes (R115). -/
def RoiState.active (r : RoiState) : SMap (BitVec 128) := if r.active1 then r.bank1 else r.bank0
/-- The inactive bank. -/
def RoiState.inactive (r : RoiState) : SMap (BitVec 128) := if r.active1 then r.bank0 else r.bank1

/-- The region with its rule's values, or ROI_DEFAULT's; none where it is dropped (R113, R114). -/
def matchRegion (s : State) (f : Frame) (e : BitVec 256) : Option Matched :=
  match s.roi.active.filter (fun p => ruleMatches (s.fld Reg.roiCtl 4 2) e p.2) with
  | (i, r) :: more =>
    some { frame := f, entry := e, rule := BitVec.ofNat 16 i, tenant := BitVec.ofNat 12 (bits r 64 12),
           prio := BitVec.ofNat 3 (bits r 76 3), grammar := BitVec.ofNat 8 (bits r 80 8),
           maxM1 := BitVec.ofNat 8 (bits r 88 8), egress := r.getLsbD 1, multi := !more.isEmpty }
  | [] =>
    if s.flag Reg.roiCtl 1 then
      some { frame := f, entry := e, rule := 0xFFFF, tenant := BitVec.ofNat 12 (s.fld Reg.roiDefault 0 12),
             prio := BitVec.ofNat 3 (s.fld Reg.roiDefault 12 3), grammar := BitVec.ofNat 8 (s.fld Reg.roiDefault 16 8),
             maxM1 := BitVec.ofNat 8 (s.fld Reg.roiDefault 24 8), egress := s.flag Reg.roiCtl 2, multi := false }
    else none

/-- One entry of the list: skipped and reported, dropped and counted, or matched. Bytes 0 to 3 name its frame; an entry
that names none in the store has no setup that reads its window (log entry 38). -/
def takeRegion (s : State) (e : BitVec 256) : State :=
  match (s.storedSeq (entryNum e 0 4)).filter (fun f => entryOk f e) with
  | none => postEvent eRegionEntry 0 (s.bumpSat Reg.roiEntryBad 32 1)
  | some f => match matchRegion s f e with
    | some m => { s with roi := { s.roi with matched := s.roi.matched ++ [m] } }
    | none => s.bumpSat Reg.roiUnmatched 32 1

/-- A region list: the first 64 entries in order; each further entry is counted (R112). -/
def regionList (es : List (BitVec 256)) (s : State) : State :=
  if s.flag Reg.roiCtl 0 then ((es.take 64).foldl takeRegion s).bumpSat Reg.roiEntryBad 32 (es.length - 64) else s

/-- REGION_LIST (R112). -/
def execRegionList (entries : List (BitVec 256)) (s : State) : Outcome := .next (regionList entries s)

/-! ### The rule banks -/

/-- Rule bytes 0 to 15 as the data words hold them. -/
def State.ruleData (s : State) : BitVec 128 :=
  BitVec.ofNat 128 ((s.reg Reg.roiRuleData0).toNat + (s.reg Reg.roiRuleData1).toNat * 2 ^ 32
    + (s.reg Reg.roiRuleData2).toNat * 2 ^ 64 + (s.reg Reg.roiRuleData3).toNat * 2 ^ 96)

/-- The reserved bits of a layout rule (Table Regions-2). -/
def ruleReserved : Nat :=
  0xFC + 0xF0 * 2 ^ 56 + 0x8000 * 2 ^ 64 + 0xFFFFFFFF * 2 ^ 96

/-- Rule WRITE (R115). -/
def ruleWrite (s : State) : State :=
  let r := s.ruleData
  if s.roi.swap then refuse eRuleSwap s
  else if (r.toNat &&& ruleReserved) ≠ 0 then refuse eRuleField s
  else
    let b := smSet 0 s.roi.inactive (s.fld Reg.roiRuleSel 0 8) r
    { s with roi := if s.roi.active1 then { s.roi with bank0 := b } else { s.roi with bank1 := b } }

/-- RULE_WRITE (R115). -/
def execRuleWrite (s : State) : Outcome := .next (gateWrite Reg.roiRuleCmd ruleWrite s)

/-- Rule SWAP (R115). -/
def ruleSwap (s : State) : State :=
  if s.roi.swap then refuse eRuleSwap s else { s with roi := { s.roi with swap := true } }

/-- RULE_SWAP (R115). -/
def execRuleSwap (s : State) : Outcome := .next (gateWrite Reg.roiRuleCmd ruleSwap s)

/-- RULE_READ (R115): the rule of the inactive bank stands in the data words. -/
def ruleRead (s : State) : State :=
  let r := smGet 0 s.roi.inactive (s.fld Reg.roiRuleSel 0 8)
  let w (i : Nat) : Word := BitVec.ofNat 32 (bits r (32 * i) 32)
  (((s.setReg Reg.roiRuleData0 (w 0)).setReg Reg.roiRuleData1 (w 1)).setReg Reg.roiRuleData2 (w 2)).setReg
    Reg.roiRuleData3 (w 3)

/-- RULE_READ (R115). -/
def execRuleRead (s : State) : Outcome := .next (gateWrite Reg.roiRuleCmd ruleRead s)

/-- SWAP_APPLY (R115): at a frame boundary a pending swap takes effect. -/
def execSwapApply (s : State) : Outcome :=
  .next (if s.roi.swap then { s with roi := { s.roi with swap := false, active1 := !s.roi.active1 } } else s)

/-! ### Parcels in belt coordinates -/

/-- The signed distance from position `b` to position `a`, modulo 2^48. -/
def posDiff (a b : Pos) : Int := (a - b).toInt

/-- ROI_VIEW_OFS, signed counts. -/
def State.viewOfs (s : State) : Int := signed 32 (s.reg Reg.roiViewOfs).toNat

/-- ROI_MARGIN, counts. -/
def State.margin (s : State) : Int := s.fld Reg.roiMargin 0 16

/-- A distance of `d2` half counts from the barrier position lies in the parcel's window with its margins (R122); a parcel
that has not cleared the barrier has no upper end yet, and no window once its record is committed or lost. -/
def inWindow (margin : Int) (q : Parcel) (d2 : Int) : Bool :=
  decide (-2 * margin ≤ d2) && match q.clearPos with
    | some c => decide (d2 ≤ 2 * (posDiff c q.barrierPos + margin))
    | none => !(q.committed || q.lost)

/-- The parcel that a position belongs to: the earliest whose window holds it (R122). -/
def State.parcelAt (s : State) (p : Pos) : Option Parcel :=
  s.roi.parcels.find? (fun q => inWindow s.margin q (2 * (posDiff p q.barrierPos - s.viewOfs)))

/-- The parcel with an id. -/
def State.parcel (s : State) (id : Word) : Option Parcel := s.roi.parcels.find? (fun q => q.id == id)

/-- The parcels that `p` selects change. -/
def mapParcels (p : Parcel → Bool) (f : Parcel → Parcel) (s : State) : State :=
  { s with roi := { s.roi with parcels := s.roi.parcels.map (fun q => if p q then f q else q) } }

/-- The margin windows of an earlier parcel and of one that now crosses at `pos` overlap (R122). -/
def windowsOverlap (margin : Int) (q : Parcel) (pos : Pos) : Bool :=
  match q.clearPos with
  | some c => decide (posDiff pos c ≤ 2 * margin)
  | none => !(q.committed || q.lost)

/-- A barrier crossing: the parcel id is allocated (R17, R140). -/
def newParcel (cmp : Fin 2) (ns : BitVec 64) (pos : Pos) (s : State) : State :=
  let lapped := s.roi.parcels.any (fun q => windowsOverlap s.margin q pos)
  let s := mapParcels (fun q => !q.committed && windowsOverlap s.margin q pos) (fun q => { q with overlap := true }) s
  let q : Parcel := {
    id := s.roi.nextId, cmp := cmp, barrierNs := ns, barrierPos := pos, clearPos := none, restart := false,
    multi := false, overlap := lapped, top := [], left := [], right := [], bottom := [], dims := none, weight := none,
    committed := false, lost := false, labels := [] }
  { s with roi := { s.roi with parcels := s.roi.parcels ++ [q], nextId := s.roi.nextId + 1 } }

/-- The barrier clears: the latest parcel of that comparator has its clear position. -/
def clearParcel (cmp : Fin 2) (pos : Pos) (s : State) : State :=
  match (s.roi.parcels.filter (fun q => q.cmp == cmp)).getLast? with
  | some q => if q.clearPos.isNone then mapParcels (fun p => p.id == q.id) (fun p => { p with clearPos := some pos }) s else s
  | none => s

/-! ### Crops -/

/-- Output width, height and shift of a class (Table Regions-6). -/
def State.classGeom (s : State) (c : Nat) : Nat × Nat × Nat :=
  let w := s.reg (Reg.roiClass c)
  (32 * bits w 0 6, 32 * bits w 8 5, bits w 16 3)

/-- Store address of the crop ring (R117). -/
def State.cropBase (s : State) : Nat := s.pair Reg.roiCropBaseLo Reg.roiCropBaseHi

/-- Number of crop slots. -/
def State.cropSlots (s : State) : Nat := 2 ^ s.fld Reg.roiCropCfg 0 4

/-- Store address of a crop slot. -/
def State.cropAddr (s : State) (slot : Nat) : Nat := s.cropBase + slot * 0x80000

/-- The scale of a crop in source pixels per output pixel, as a fraction: the greater of w / W and h / H (R116). -/
def cropRatio (e : BitVec 256) (w h : Nat) : Nat × Nat :=
  if entryNum e 16 2 * h ≥ entryNum e 18 2 * w then (entryNum e 16 2, 4 * w) else (entryNum e 18 2, 4 * h)

/-- The scale as the header holds it, in 1/256 (Table Regions-3); which neighbour, where it lies between two, is free. -/
def cropScale (e : BitVec 256) (w h : Nat) : Nat :=
  let r := cropRatio e w h
  256 * r.1 / r.2 + (decide (256 * r.1 % r.2 ≠ 0) && Config.cropScaleUp r.1 r.2).toNat

/-- Source coordinates of output pixel (u, v), in 1/256 pixel, truncated toward zero (R116); `t` holds the cosine and the
sine of the angle. -/
def cropCoord (e : BitVec 256) (w h : Nat) (t : Int × Int) (u v : Nat) : Int × Int :=
  let r := cropRatio e w h
  let dx : Int := 2 * (u : Int) - w + 1
  let dy : Int := 2 * (v : Int) - h + 1
  let at' (c d : Int) : Int := Int.tdiv (16 * c * r.2 * trigOne + 128 * r.1 * d) (r.2 * trigOne)
  (at' (entryNum e 8 4) (dx * t.1 - dy * t.2), at' (entryNum e 12 4) (dx * t.2 + dy * t.1))

/-- Bilinear interpolation at coordinates in 1/256 pixel, with weights in 1/256 truncated toward zero (R116). -/
def bilinear (s : State) (f : Frame) (win : Nat) (x y : Int) : Nat × Bool :=
  let c := x / 256
  let r := y / 256
  let fx := (x % 256).toNat
  let fy := (y % 256).toNat
  let p00 := s.pixel f win c r
  let p10 := s.pixel f win (c + 1) r
  let p01 := s.pixel f win c (r + 1)
  let p11 := s.pixel f win (c + 1) (r + 1)
  let w (a b : Nat) : Nat := a * b / 256
  ((w (256 - fx) (256 - fy) * p00.1 + w fx (256 - fy) * p10.1 + w (256 - fx) fy * p01.1 + w fx fy * p11.1) / 256,
    p00.2 || p10.2 || p01.2 || p11.2)

/-- The 8-bit value of a 12-bit result (R116). -/
def cropByte (shift p : Nat) : Byte :=
  BitVec.ofNat 8 (min 255 ((p + (if shift = 0 then 0 else 2 ^ (shift - 1))) >>> shift))

/-- The pixels of a crop, row by row, each with its poison mark. -/
def cropPixels (s : State) (m : Matched) : List (Byte × Bool) :=
  let (w, h, shift) := s.classGeom (entryNum m.entry 4 1)
  let t := cosSin (10 * entryAngle m.entry)
  (List.range (w * h)).map (fun i =>
    let xy := cropCoord m.entry w h t (i % w) (i / w)
    let p := bilinear s m.frame (entryNum m.entry 22 1) xy.1 xy.2
    (cropByte shift p.1, p.2))

/-- Crop header (Table Regions-3) with a request index. -/
def cropHeader (s : State) (c : Crop) (req : Nat) : List Byte :=
  let e := c.m.entry
  let f := c.m.frame
  let h := leBytes 4 c.parcel.toNat ++ leBytes 1 s.pkg.toNat ++ leBytes 1 (entryNum e 4 1) ++ leBytes 1 (entryNum e 5 1)
    ++ leBytes 1 (c.m.multi.toNat + 2 * c.m.egress.toNat) ++ leBytes 4 f.exp.seq.toNat
    ++ leBytes 8 (f.stamp.toNat / 65536) ++ leBytes 6 f.pos.toNat ++ leBytes 2 c.m.rule.toNat
    ++ leBytes 2 (c.m.tenant.toNat + c.m.prio.toNat * 4096) ++ leBytes 1 c.m.grammar.toNat ++ leBytes 1 0
    ++ leBytes 2 c.w ++ leBytes 2 c.h ++ leBytes 2 (entryNum e 20 2) ++ leBytes 2 c.scale.toNat
    ++ leBytes 8 (entryNum e 8 8) ++ leBytes 4 req ++ leBytes 4 c.crc.toNat ++ leBytes 4 0
  h ++ leBytes 4 (crc32c h).toNat

/-- A crop header with its request index (Table Regions-3). -/
def headerFor (h : List Byte) (k : Nat) : List Byte :=
  let b := h.take 48 ++ leBytes 4 k ++ (h.drop 52).take 8
  b ++ leBytes 4 (crc32c b).toNat

/-- Free crop slots, lowest first. -/
def State.freeSlots (s : State) : List Nat :=
  (List.range s.cropSlots).filter (fun k => (smGet none s.roi.crops k).isNone)

/-- The owner and id of a region's parcel: one of this package's, as its positions give it, or another owner's, as that
owner's data give it (R118, R122). -/
def cropParcel (s : State) (m : Matched) (given : Option (BitVec 6 × Word)) : Option (BitVec 6 × Word) :=
  match s.parcelAt m.frame.pos with
  | some q => some (s.pkg, q.id)
  | none => given.filter (fun g => g.1 != s.pkg)

/-- The oldest matched region of a parcel takes a crop slot and its crop is cut; one that finds no free slot is counted and
reported (R116-R118). -/
def takeCrop (m : Matched) (owner : BitVec 6) (id : Word) (s : State) : State :=
  match s.freeSlots with
  | [] => postEvent eCropFull (id.setWidth 128) (s.bumpSat Reg.roiCropFullCnt 32 1)
  | l =>
    let slot := nthD 0 l (Config.cropPick s.freeCtr % l.length)
    let (w, h, _) := s.classGeom (entryNum m.entry 4 1)
    let px := cropPixels s m
    let c : Crop := { owner := owner, parcel := id, m := m, w := w, h := h,
                      scale := BitVec.ofNat 16 (cropScale m.entry w h), crc := crc32c (px.map (fun x => x.1)),
                      done := false, commitNs := none }
    wrMarked (s.cropAddr slot + 64) px
      { s with freeCtr := s.freeCtr + 1, roi := { s.roi with crops := smSet none s.roi.crops slot (some c) } }

/-- A region that matched more than one rule marks its parcel's record, with a crop or without (R113). -/
def markMulti (owner : BitVec 6) (id : Word) (multi : Bool) (s : State) : State :=
  mapParcels (fun q => q.id == id && owner == s.pkg) (fun q => { q with multi := q.multi || multi }) s

/-- The oldest matched region leaves the queue; a region of no parcel is discarded (R122). -/
def cropCut (given : Option (BitVec 6 × Word)) (s : State) : State :=
  match s.roi.matched with
  | [] => s
  | m :: rest =>
    let s := { s with roi := { s.roi with matched := rest } }
    match cropParcel s m given with
    | none => s
    | some (owner, id) => takeCrop m owner id (markMulti owner id m.multi s)

/-- CROP_CUT (R116). -/
def execCropCut (parcel : Option (BitVec 6 × Word)) (s : State) : Outcome := .next (cropCut parcel s)

/-- What a complete crop hands to the serving layer (R118). -/
def handedCrop (s : State) (slot : BitVec 9) (c : Crop) : HandedCrop :=
  ⟨slot, c.m.maxM1, BitVec.ofNat 512 (ofLe (cropHeader s c 0))⟩

/-- A crop is complete: its header is written and it is handed to the serving layer, here or at its parcel's owner (R117,
R118). -/
def cropDone (slot : BitVec 9) (s : State) : State :=
  match smGet none s.roi.crops slot.toNat with
  | some c =>
    if c.done then s
    else
      let c := { c with done := true }
      let s := wrMem (s.cropAddr slot.toNat) (cropHeader s c 0)
        { s with roi := { s.roi with crops := smSet none s.roi.crops slot.toNat (some c) } }
      if c.owner = s.pkg then { s with roi := { s.roi with handed := s.roi.handed ++ [slot] } }
      else s.emit (.crop c.owner (handedCrop s slot c))
  | none => s

/-- CROP_DONE (R118). -/
def execCropDone (slot : BitVec 9) (s : State) : Outcome := .next (cropDone slot s)

/-- A crop slot is released. -/
def dropCrop (slot : Nat) (s : State) : State :=
  { s with roi := { s.roi with crops := smSet none s.roi.crops slot none,
                               handed := s.roi.handed.filter (fun k => k.toNat != slot) } }

/-- Requests made from a crop slot of this package that have not ended (R119). -/
def State.cropBusy (s : State) (slot : Nat) : Bool :=
  s.serve.reqs.any (fun p => p.2.slot.toNat == slot && p.2.cutPkg == s.pkg.setWidth 8 && !p.2.st.ended && p.2.st != .free)

/-- HOLD_MS has passed since a commit. -/
def State.holdPast (s : State) (commitNs : Nat) : Bool :=
  decide (commitNs + s.fld Reg.roiCropCfg 16 16 * 1000000 ≤ s.nowNs)

/-- The hold of a crop slot has ended (R119): HOLD_MS after its record's commit; where no record can come, once every
request made from it has ended. For another owner's parcel, `fate` says what that owner tells. -/
def State.holdOver (s : State) (slot : Nat) (c : Crop) (fate : CropFate) : Bool :=
  c.done &&
    if c.owner ≠ s.pkg then
      match fate with
      | .held => false
      | .committed ns => s.holdPast ns.toNat
      | .over => true
    else match c.commitNs with
      | some t => s.holdPast t
      | none => match s.parcel c.parcel with
        | some q => q.lost && !s.cropBusy slot
        | none => !s.roi.handed.contains (BitVec.ofNat 9 slot) && !s.cropBusy slot

/-- CROP_HOLD_EXPIRY (R119). -/
def cropHoldExpiry (slot : BitVec 9) (fate : CropFate) (s : State) : State :=
  match smGet none s.roi.crops slot.toNat with
  | some c => if s.holdOver slot.toNat c fate then dropCrop slot.toNat s else s
  | none => s

/-- CROP_HOLD_EXPIRY (R119). -/
def execCropHoldExpiry (slot : BitVec 9) (fate : CropFate) (s : State) : Outcome := .next (cropHoldExpiry slot fate s)

/-! ### Laser profiles -/

/-- The highest pixel of a column and its lowest row, among those that `ok` admits. -/
def peak (ok : Nat → Bool) (col : List (Nat × Nat)) : Option (Nat × Nat) :=
  col.foldl (fun best p => if !ok p.1 then best else match best with
    | some b => if p.2 > b.2 then some p else best
    | none => some p) none

/-- The centroid of a column in 1/64 row, and whether it held a second peak (R120). The column lists row and value. -/
def centroid (t : Nat) (col : List (Nat × Nat)) : Option (Nat × Bool) :=
  match peak (fun _ => true) (col.filter (fun p => t ≤ p.2)) with
  | none => none
  | some (r0, _) =>
    let second := peak (fun r => r + 8 < r0 || r0 + 8 < r) (col.filter (fun p => t ≤ p.2))
    let r := match second with
      | some (r1, _) => min r0 r1
      | none => r0
    let near := col.filter (fun p => r ≤ p.1 + 3 && p.1 ≤ r + 3 && t < p.2)
    let den := (near.map (fun p => p.2 - t)).sum
    let num := (near.map (fun p => (p.2 - t) * p.1)).sum
    some (if den = 0 then Config.flatCentroid r else 64 * num / den, second.isSome)

/-- A node of the triangulation table of window `w`: y and z in 1/64 mm (R121, log entry 37). -/
def State.triNode (s : State) (w row col : Nat) : Int × Int :=
  let a := s.pair Reg.roiTriBaseLo Reg.roiTriBaseHi + w * 133640 + (row * 257 + col) * 8
  (signed 32 (ofLe (s.rdMem a 4)), signed 32 (ofLe (s.rdMem (a + 4) 4)))

/-- (y, z) at a column and a row in 1/64 of window `w` with `h` rows, bilinear, truncating toward minus infinity
(R121). -/
def triangulate (s : State) (w h col r64 : Nat) : Int × Int :=
  let i := r64 / h
  let fr : Int := (r64 % h : Nat)
  let j := col / 32
  let fc : Int := (col % 32 : Nat)
  let n00 := s.triNode w i j
  let n01 := s.triNode w i (j + 1)
  let n10 := s.triNode w (i + 1) j
  let n11 := s.triNode w (i + 1) (j + 1)
  let mix (a b c d : Int) : Int := (((32 - fc) * a + fc * b) * (h - fr) + ((32 - fc) * c + fc * d) * fr) / (32 * h)
  (mix n00.1 n01.1 n10.1 n11.1, mix n00.2 n01.2 n10.2 n11.2)

/-- The along coordinate of a frame's points, in half counts from the barrier position (R121). -/
def alongHalf (s : State) (f : Frame) (pb : Pos) : Int := posDiff f.pos pb + posDiff f.posEnd pb - 2 * s.viewOfs

/-- The points of one window of a profile frame, with the number of columns that held a second peak; a column with a
poisoned pixel sends nothing (R273). -/
def profilePoints (s : State) (f : Frame) (w : Nat) (parcel : Word) (pb : Pos) : List ProfilePoint × Nat :=
  match f.rect w with
  | none => ([], 0)
  | some (x0, y0, nx, ny) =>
    let cols := (List.range nx).filterMap (fun c =>
      let px := (List.range ny).map (fun r => (r, s.pixel f w ((x0 + c : Nat) : Int) ((y0 + r : Nat) : Int)))
      if px.any (fun p => p.2.2) then none
      else (centroid (s.fld Reg.roiProfCfg 0 12) (px.map (fun p => (p.1, p.2.1)))).map (fun x => (c, x)))
    (cols.map (fun x =>
        let yz := triangulate s w ny x.1 x.2.1
        { parcel := parcel, face := BitVec.ofNat 2 (s.fld Reg.roiCtl 4 2), x2 := alongHalf s f pb, y := yz.1, z := yz.2 }),
      (cols.filter (fun x => x.2.2)).length)

/-- PROFILE_EXTRACT (R120, R121): the points of a window of a setup's profile frame leave for the owner (R123). -/
def profileExtract (setup : BitVec 2) (w : Fin 8) (parcel : Word) (pb : Pos) (s : State) : State :=
  match s.storedFrame setup.toNat with
  | none => s
  | some f =>
    if !s.flag Reg.roiCtl 0 || !s.flag Reg.roiProfCfg (16 + setup.toNat) then s
    else
      let (ps, n) := profilePoints s f w.val parcel pb
      ps.foldl (fun s p => s.emit (.profile p)) (s.bumpSat Reg.roiMultipeak 32 n)

/-- PROFILE_EXTRACT (R120). -/
def execProfileExtract (setup : BitVec 2) (window : Fin 8) (parcel : Word) (barrierPos : Pos) (s : State) : Outcome :=
  .next (profileExtract setup window parcel barrierPos s)

/-- A top cell takes a height (R123): 64-bit sum, 16-bit count. -/
def addTop (i j z : Int) : List (Int × Int × Int × Nat) → List (Int × Int × Int × Nat)
  | [] => [(i, j, z, 1)]
  | (a, b, sum, n) :: l =>
    if a = i ∧ b = j then (a, b, (BitVec.ofInt 64 (sum + z)).toInt, (n + 1) % 65536) :: l
    else if i < a ∨ (i = a ∧ j < b) then (i, j, z, 1) :: (a, b, sum, n) :: l
    else (a, b, sum, n) :: addTop i j z l

/-- A face list takes an extreme: `better` says whether the new y replaces the one held for the row (R123). -/
def addFace (better : Int → Int → Bool) (i y : Int) : List (Int × Int) → List (Int × Int)
  | [] => [(i, y)]
  | (a, b) :: l =>
    if a = i then (a, if better y b then y else b) :: l
    else if i < a then (i, y) :: (a, b) :: l
    else (a, b) :: addFace better i y l

/-- A point joins an ordered set of points. -/
def addPoint (x y : Int) : List (Int × Int) → List (Int × Int)
  | [] => [(x, y)]
  | (a, b) :: l =>
    if a = x ∧ b = y then (a, b) :: l
    else if x < a ∨ (x = a ∧ y < b) then (x, y) :: (a, b) :: l
    else (a, b) :: addPoint x y l

/-- A point joins its parcel's fused sets; x is in half counts, rows hold 4 counts, top cells are 1 mm across (R123). -/
def fuseInto (p : ProfilePoint) (x2 : Int) (q : Parcel) : Parcel :=
  match p.face.toNat with
  | 0 => { q with top := addTop (x2 / 8) (p.y / 64) p.z q.top }
  | 1 => { q with left := addFace (fun a b => decide (b < a)) (x2 / 8) p.y q.left }
  | 2 => { q with right := addFace (fun a b => decide (a < b)) (x2 / 8) p.y q.right }
  | _ => { q with bottom := addPoint x2 p.y q.bottom }

/-- One point reaches the owner: it goes to the earliest parcel whose window holds it, or is discarded (R122). -/
def fusePoint (s : State) (p : ProfilePoint) : State :=
  match s.parcel p.parcel with
  | none => s
  | some q =>
    let at' (r : Parcel) : Int := p.x2 + 2 * posDiff q.barrierPos r.barrierPos
    match s.roi.parcels.find? (fun r => inWindow s.margin r (at' r)) with
    | some r => mapParcels (fun t => t.id == r.id) (fuseInto p (at' r)) s
    | none => s

/-- PROFILE_FUSE (R123). -/
def execProfileFuse (points : List ProfilePoint) (s : State) : Outcome := .next (points.foldl fusePoint s)

/-! ### Box fitting, in units of 1/320 mm (log entry 40) -/

/-- Cross product of (b − a) and (c − a). -/
def cross (a b c : Int × Int) : Int := (b.1 - a.1) * (c.2 - a.2) - (b.2 - a.2) * (c.1 - a.1)

/-- A point joins a convex chain held last first: points that would not turn left are dropped. -/
def chainAdd (p : Int × Int) : List (Int × Int) → List (Int × Int)
  | b :: a :: l => if cross a b p ≤ 0 then chainAdd p (a :: l) else p :: b :: a :: l
  | l => p :: l

/-- The convex hull of sorted points, in order. -/
def hull (ps : List (Int × Int)) : List (Int × Int) :=
  let lower := ps.foldl (fun h p => chainAdd p h) []
  let upper := ps.reverse.foldl (fun h p => chainAdd p h) []
  (lower.drop 1).reverse ++ (upper.drop 1).reverse

/-- Extent of the points along a direction. -/
def extent (ps : List (Int × Int)) (d : Int × Int) : Nat :=
  let v := ps.map (fun p => p.1 * d.1 + p.2 * d.2)
  (v.foldl max (v.headD 0) - v.foldl min (v.headD 0)).toNat

/-- A rectangle: its longer and shorter extents, the squared length of the edge, the direction of its length side. -/
structure Rectangle where
  long  : Nat
  short : Nat
  d2    : Nat
  dir   : Int × Int
  deriving DecidableEq, Repr

/-- A direction with the yaw in (−90, +90] degrees. -/
def normDir (d : Int × Int) : Int × Int := if d.1 < 0 ∨ (d.1 = 0 ∧ d.2 < 0) then (-d.1, -d.2) else d

/-- The rectangles with a side along an edge; a square gives both directions. -/
def rectsOf (ps : List (Int × Int)) (d : Int × Int) : List Rectangle :=
  let n := (-d.2, d.1)
  let a := extent ps d
  let b := extent ps n
  let d2 := (d.1 * d.1 + d.2 * d.2).toNat
  if a > b then [⟨a, b, d2, normDir d⟩]
  else if b > a then [⟨b, a, d2, normDir n⟩]
  else [⟨a, b, d2, normDir d⟩, ⟨a, b, d2, normDir n⟩]

/-- The first rectangle is preferred to the second: less area, then the smaller absolute yaw, then the positive one
(R124). -/
def rectBetter (r t : Rectangle) : Bool :=
  let ar := r.long * r.short * t.d2
  let at' := t.long * t.short * r.d2
  let yr := r.dir.2.natAbs * t.dir.1.natAbs
  let yt := t.dir.2.natAbs * r.dir.1.natAbs
  decide (ar < at') || (ar == at' && (decide (yr < yt) || (yr == yt && decide (0 ≤ r.dir.2) && decide (t.dir.2 < 0))))

/-- The fitted rectangle: rotating calipers over the hull edges. -/
def fitRect (ps : List (Int × Int)) : Option Rectangle :=
  let h := hull ps
  let edges := (h.zip (h.drop 1 ++ h.take 1)).map (fun e => (e.2.1 - e.1.1, e.2.2 - e.1.2))
  ((edges.filter (fun d => d != (0, 0))).flatMap (rectsOf ps)).foldl (fun best r => match best with
    | some t => if rectBetter r t then some r else best
    | none => some r) none

/-- A side in 0.01 mm: extent / |d| in 1/320 mm; which neighbour, where it lies between two, is free. -/
def sideCentis (ext d2 : Nat) : Word :=
  let r := sqrtBits 48 (25 * ext * ext / (256 * d2)) 0
  BitVec.ofNat 32 (r + (decide (256 * d2 * (r * r) ≠ 25 * ext * ext) && Config.boxSideUp ext d2).toNat)

/-- The yaw in 0.001 degree, above -90 and up to +90 degrees; which neighbour, where it lies between two, is free. -/
def yawMilli (d : Int × Int) : Word :=
  if d.2 = 0 then 0
  else if d.1 = 0 then 90000
  else if d.2 = d.1 then 45000
  else if d.2 = -d.1 then BitVec.ofInt 32 (-45000)
  else
    let lo := angleFloor 18 d.1 d.2 (-90000)
    let m := if Config.boxYawUp d.1 d.2 then lo + 1 else lo
    BitVec.ofInt 32 (if m = -90000 then 90000 else m)

/-- Mean height of a top cell, in 1/64 mm. -/
def cellMean (c : Int × Int × Int × Nat) : Rat := (c.2.2.1 : Rat) / (c.2.2.2 : Rat)

/-- The footprint (R124), sorted, without repeats. -/
def footprint (q : Parcel) : List (Int × Int) :=
  let ps := ((q.top.filter (fun c => decide (320 ≤ cellMean c))).map (fun c => (128 * c.1 + 64, 320 * c.2.1 + 160)))
    ++ ((q.left ++ q.right).map (fun c => (128 * c.1 + 64, 5 * c.2))) ++ (q.bottom.map (fun c => (16 * c.1, 5 * c.2)))
  ps.foldl (fun l p => addPoint p.1 p.2 l) []

/-- Height in 0.01 mm: floor of the mean of the top cells within 2 mm of the highest (R124). -/
def boxHeight (q : Parcel) : Word :=
  let ms := q.top.map cellMean
  let hi := ms.foldl max (ms.headD 0)
  let near := ms.filter (fun m => decide (hi - 128 ≤ m))
  BitVec.ofInt 32 ((near.foldl (· + ·) 0 * 100 / (64 * (near.length : Rat))).floor)

/-- An along gap in the top map exceeds 8 mm: consecutive rows more than 80 counts apart (R125). -/
def topGap (q : Parcel) : Bool :=
  let rows := q.top.map (fun c => c.1)
  (rows.zip (rows.drop 1)).any (fun p => decide (20 < p.2 - p.1))

/-- The record will carry NO_DIMS (R125). -/
def noDims (q : Parcel) : Bool :=
  decide ((footprint q).length < 16) || topGap q || q.left.isEmpty || q.right.isEmpty || q.overlap

/-- The box of a parcel (R124); none where R125 gives NO_DIMS. -/
def boxOf (q : Parcel) (ns : Nat) : Option Dims :=
  if noDims q then none
  else (fitRect (footprint q)).map (fun r =>
    { length := sideCentis r.long r.d2, width := sideCentis r.short r.d2, height := boxHeight q,
      yaw := yawMilli r.dir, atNs := BitVec.ofNat 64 ns })

/-- BOX_FIT (R124). -/
def execBoxFit (parcel : Word) (s : State) : Outcome :=
  .next (mapParcels (fun q => q.id == parcel && !q.committed) (fun q => { q with dims := boxOf q s.nowNs }) s)

/-! ### The diagnostic and the closed write path -/

/-- ROI_DIAG_CMD.CAPTURE (R129): pending until the next accepted frame of the setup has been written. -/
def diagCapture (setup : BitVec 2) (s : State) : State :=
  if s.lifecycle ≠ 1 then refuse eEgressLifecycle s
  else if !s.flag Reg.fuseLifecycle 9 then refuse eEgressFuse s
  else if s.roi.diag.isSome then refuse eDiagBusy s
  else { s with roi := { s.roi with diag := some setup, diagSeq := none, diagUsed := true } }

/-- DIAG_CAPTURE (R129). -/
def execDiagCapture (setup : BitVec 2) (s : State) : Outcome := .next (gateWrite Reg.roiDiagCmd (diagCapture setup) s)

/-- Bytes of a frame in the store: header and pixels (R89, Table Pix-2). -/
def Frame.size (f : Frame) : Nat :=
  if f.exp.mode.getLsbD 0 then
    32 + (f.exp.windows.map (fun x => 64 * bits x.2.1 16 9 * bits x.2.2 16 12)).sum
  else 32 + 2 * 8192 * 2048

/-- The captured frame goes to the buffer (R129); a poisoned frame is refused, and the weave restarts (R273). -/
def diagFrame (f : Frame) (base : Nat) (s : State) : State :=
  let s := { s with roi := { s.roi with diag := none, diagSeq := none } }
  if s.poisoned base f.size then unitFault 8 0 ePoison (refuse ePoison s)
  else hostPut (BitVec.ofNat 64 (s.pair Reg.roiDiagBufLo Reg.roiDiagBufHi)) (s.rdMem base f.size) s

/-- The captured frame is written once it stands in the store. -/
def diagWrite (s : State) : State :=
  match s.roi.diagSeq.bind (fun q => s.storedSeq q.toNat) with
  | some f => match s.frameBase f with
    | some base => diagFrame f base s
    | none => s
  | none => s

/-- DIAG_WRITE (R129). -/
def execDiagWrite (s : State) : Outcome := .next (diagWrite s)

/-- A core engine or the steward issues a write to host memory: refused, nothing is written (R127). -/
def coreHostWrite (addr : BitVec 48) (s : State) : State :=
  if 0x800000000000 ≤ addr.toNat then (refuse eEgressPath s).emit (.issuerCode eEgressPath) else s

/-- CORE_HOST_WRITE (R127). -/
def execCoreHostWrite (_core : Option (Fin 16)) (addr : BitVec 48) (s : State) : Outcome := .next (coreHostWrite addr s)

end Sys2Proof.Machine
end

