-- ==== Sys2Proof/Machine/Wfe.lean ====
section
/-!
DEFINITION. Wfe.lean: 07_weigh: slices and the reference (R131-R135), sequences and runs (R136-R141), results (R133,
R138, R143), calibration rotation (R144-R146), the cross-check (R147), the weight (R148, R149).
Converter A is `false`, converter B is `true`.
-/

namespace Sys2Proof.Machine

/-- Converter `c`. -/
def WfeState.conv (w : WfeState) (c : Bool) : Conv := if c then w.b else w.a

/-- The front end changes. -/
def State.setWfe (s : State) (w : WfeState) : State := { s with wfe := w }

/-- Converter `c` changes. -/
def State.setConv (s : State) (c : Bool) (x : Conv) : State :=
  s.setWfe (if c then { s.wfe with b := x } else { s.wfe with a := x })

/-- Converter `c` is in a run, from its start event on. -/
def Conv.inRun (x : Conv) : Bool := x.running || x.startAt.isSome

/-- Either converter is in a run. -/
def State.wfeBusy (s : State) : Bool := s.wfe.a.inRun || s.wfe.b.inRun

/-- The front end is powered: Run or an entry to sleep in progress (R288). -/
def State.fieldOn (s : State) : Bool :=
  match s.power.phase with
  | .run => true
  | .enteringDoze => true
  | .enteringSlumber => true
  | _ => false

/-- The pixel die and the weigh front end are usable: PGOOD_A is high (R295). -/
def State.sensorsOn (s : State) : Bool := s.fieldOn && s.power.pgoodA

/-- WFE_CTL.EN on a powered front end. -/
def State.wfeOn (s : State) : Bool := s.sensorsOn && s.flag Reg.wfeCtl 0

/-- T_m in p-cycles (R132). -/
def State.mainsP (s : State) : Nat := 4 * s.fld Reg.wfeMains 0 22

/-- A PIX, FIELD or WFE register as it stood before the writes of this p-cycle (R91, R100, R102, R140, R148). -/
def State.pixReg (s : State) (off : Nat) : Word :=
  if s.pix.oldAt = some s.time.pcyc then smGet (resetVal off) s.pix.oldRegs off else s.reg off

/-- A write to a PIX, FIELD or WFE register is about to take effect: the values before it are kept for this p-cycle (R91,
R100, R102, R140, R148). -/
def pixSnapshot (s : State) : State :=
  if s.pix.oldAt = some s.time.pcyc then s
  else { s with pix := { s.pix with oldAt := some s.time.pcyc,
                                    oldRegs := s.regs.filter (fun p => decide (0xC000 ≤ p.1 ∧ p.1 < 0x11000)) } }

/-- Entry `e` of converter `c` (Table Weigh-4). -/
def State.entryWord (s : State) (c : Bool) (e : Nat) : Word := s.reg (Reg.wfeEntry (16 * c.toNat + e))

/-- Field of WFE_SEQ_CFG of converter `c`. -/
def State.seqFld (s : State) (c : Bool) (lo len : Nat) : Nat := s.fld Reg.wfeSeqCfg (16 * c.toNat + lo) len

/-- LAST of converter `c`. -/
def State.seqLast (s : State) (c : Bool) : Nat := s.seqFld c 0 4

/-- CH, GAIN, INT, K, OWC, AVG and COUNT of an entry. -/
def eCh (w : Word) : Nat := bits w 0 4
/-- GAIN code. -/
def eGain (w : Word) : Nat := bits w 4 3
/-- INT code. -/
def eInt (w : Word) : Nat := bits w 8 2
/-- Filter order K. -/
def eK (w : Word) : Nat := bits w 10 2 + 1
/-- Open-wire current code. -/
def eOwc (w : Word) : Nat := bits w 12 2
/-- AVG. -/
def eAvg (w : Word) : Bool := w.getLsbD 14
/-- COUNT. -/
def eCount (w : Word) : Nat := bits w 16 8 + 1

/-- T_c of an entry, in p-cycles (Table Weigh-2). -/
def convPeriod (tm : Nat) (w : Word) : Nat := if eInt w = 1 then 2 * tm else if eInt w = 2 then 4 * tm else tm

/-- p-cycles from the start of an entry to its result `j`, counted from 0 (R137, R138). -/
def resultAfter (tm : Nat) (w : Word) (blank : Bool) (j : Nat) : Nat :=
  (if blank then 80000 else 0) + eK w * convPeriod tm w + j * (if eInt w = 3 then tm / 8 else convPeriod tm w)

/-- p-cycles that a result covers. -/
def resultSpan (tm : Nat) (w : Word) : Nat := eK w * convPeriod tm w

/-- The p-cycle in which a converter's next result is due. -/
def Conv.due (tm : Nat) (x : Conv) (w : Word) : Nat := x.entryAt + resultAfter tm w x.blank x.done

/-! ### Raw counts (R133, R142) -/

/-- The weight of p-cycle `t` in the `k`-fold convolution of a rectangular window of `p` p-cycles (R142). -/
def foldWeight (k p t : Nat) : Int :=
  ((List.range (k + 1)).map (fun i =>
    if i * p ≤ t then (-1) ^ i * (Nat.choose k i : Int) * Nat.choose (t - i * p + k - 1) (k - 1) else 0)).sum

/-- Residue at the end less residue at the start (R133). -/
def Integration.residue (i : Integration) : Int := (i.resEnd.toNat : Int) - i.resStart.toNat

/-- 4,096 for each balance packet, weighted (R133, R142), of integrations of `len` p-cycles, the first of which starts `at'`
p-cycles into the window. -/
def packetSum (k p len : Nat) : Nat → List Integration → Int
  | _, [] => 0
  | at', i :: l =>
    (i.packets.map (fun x => 4096 * x.2 * foldWeight k p (at' + x.1))).sum + packetSum k p len (at' + len) l

/-- The raw count of the integrations that a result of order `k` over conversion periods of `p` p-cycles covers (R133),
scaled to the integration length: a packet in each 5 MHz period is full scale, 2^31 (log entry 39). -/
def rawCount (k p len : Nat) (l : List Integration) : Int :=
  let ds := l.map Integration.residue
  let r : Int := if k = 1 then ds.sum else
    let m : Int := p ^ (k - 1) * (ds.map Int.natAbs).sum
    clampI (-m) m (Config.residueTerm k ds)
  let n := (packetSum k p len 0 l + r) * (2 ^ 31 * 80 / 4096)
  n / (p : Int) ^ k + (decide (n % (p : Int) ^ k ≠ 0) && Config.rawUp n p).toNat

/-- Integrations in a conversion period: at INT 3 a comb of 8 (R142). -/
def eParts (w : Word) : Nat := if eInt w = 3 then 8 else 1

/-- The raw count of a result of an entry. -/
def entryRaw (tm : Nat) (w : Word) (l : List Integration) : Int :=
  rawCount (eK w) (convPeriod tm w) (convPeriod tm w / eParts w) l

/-! ### Reference and enable -/

/-- REF_SETTLED changes (R135). -/
def setSettled (b : Bool) (s : State) : State := s.setWfe { s.wfe with settled := b, settledAt := s.time.pcyc }

/-- EN is set: A is S0, B is S1 and the elf slice is S2, which calibrates; rotations count from 0 (R131, R144). -/
def wfeStart (s : State) : State :=
  let s := setSettled false s
  s.setWfe { s.wfe with sliceA := 0, sliceB := 1, sliceE := 2, rotWait := false, rotCnt := 0, calBusy := true,
                        calAt := s.time.pcyc, elfReady := none, a := { Conv.reset with wres := [] }, b := Conv.reset }

/-- EN is cleared: runs end and no calibration goes on (log entry 39). -/
def wfeStop (s : State) : State :=
  s.setWfe { s.wfe with a := { s.wfe.a with running := false, startAt := none, stopping := false },
                        b := { s.wfe.b with running := false, startAt := none, stopping := false },
                        calBusy := false, rotWait := false }

/-- The judgement of a WFE_CTL value (R135, R357). -/
def wfeCtlVerdict (s : State) (new : Word) : Code :=
  let old := s.reg Reg.wfeCtl
  if s.wfeBusy && (bits new 1 3 != bits old 1 3) then eWfeBusy
  else if bits new 2 2 = 3 then eWfeRef
  else 0

/-- A write of WFE_CTL (R131, R135, R144). -/
def wfeCtlWrite (val : Word) (be : BitVec 4) (s : State) : State :=
  let old := s.reg Reg.wfeCtl
  let new := mergeBytes old val be &&& 0x1F
  let c := wfeCtlVerdict s new
  if c ≠ 0 then refuse c s
  else
    let s := s.setReg Reg.wfeCtl new
    let s := if bits new 1 3 ≠ bits old 1 3 then setSettled false s else s
    let s := if new.getLsbD 1 && !old.getLsbD 1 then s.setWfe { s.wfe with excOver := false } else s
    if new.getLsbD 0 && !old.getLsbD 0 then wfeStart s
    else if !new.getLsbD 0 && old.getLsbD 0 then wfeStop s
    else s

/-- WFE_ENABLE (R131). -/
def execWfeEnable (val : Word) (be : BitVec 4) (s : State) : Outcome :=
  .next (gateWrite Reg.wfeCtl (wfeCtlWrite val be) s)

/-- p-cycles that the selected reference takes to settle (R135). -/
def State.settleP (s : State) : Nat :=
  match s.fld Reg.wfeCtl 2 2 with
  | 0 => 800000
  | 1 => 200000
  | _ => 400000

/-- REF_SETTLED sets again once the settling time has passed since it cleared; a ratiometric reference also needs the
excitation sense to have lain within 5 % of 5.0 V for that time (R135). -/
def refSettledTimer (sense : Option Nat) (s : State) : State :=
  let good : Bool := match sense with
    | some n => decide (s.settleP ≤ n)
    | none => false
  if s.wfeOn && !s.wfe.settled && s.wfe.settledAt + s.settleP ≤ s.time.pcyc && (s.fld Reg.wfeCtl 2 2 != 2 || good) then
    setSettled true s
  else s

/-- REF_SETTLED_TIMER (R135). -/
def execRefSettledTimer (sense : Option Nat) (s : State) : Outcome := .next (refSettledTimer sense s)

/-- The excitation trips: it is switched off, EXC_OVER sets and the reference unsettles (R135). -/
def excTrip (s : State) : State :=
  if s.fieldOn && s.flag Reg.wfeCtl 1 then
    let s := setSettled false (s.setFlag Reg.wfeCtl 1 false)
    postEvent eWfeExc 0 (s.setWfe { s.wfe with excOver := true })
  else s

/-- EXC_TRIP (R135). -/
def execExcTrip (s : State) : Outcome := .next (excTrip s)

/-! ### Starts -/

/-- A start event for converter `c` (R139): in a run it is ignored and, but for a beat start, counted; without pclk lock the
converter stays parked (R152). -/
def startConv (c beat : Bool) (cmp : Option (Fin 2)) (s : State) : State :=
  let x := s.wfe.conv c
  if !s.wfeOn || !s.pllsRun then s
  else if x.inRun then (if beat then s else s.bumpSat Reg.wfeStartLost 16 1)
  else s.setConv c { x with startAt := some (s.time.pcyc + 32), startNs := BitVec.ofNat 64 s.nowNs,
                            startPos := s.field.pos, cmp := cmp, intruded := false }

/-- A start event of source `src` for every converter that selects it (Table Weigh-5). -/
def startSource (src : Nat) (cmp : Option (Fin 2)) (s : State) : State :=
  let go (c : Bool) (s : State) : State := if s.seqFld c 5 3 = src then startConv c (src = 6) cmp s else s
  go true (go false s)

/-- WFE_CMD.START of a converter, for SRC 0 (R139, Table Weigh-5). -/
def softStart (c : Bool) (s : State) : State := if s.seqFld c 5 3 = 0 then startConv c false none s else s

/-- START_A (R139). -/
def execStartA (s : State) : Outcome := .next (gateWrite Reg.wfeCmd (softStart false) s)

/-- START_B (R139). -/
def execStartB (s : State) : Outcome := .next (gateWrite Reg.wfeCmd (softStart true) s)

/-- An open-wire entry in progress ends: its interval is kept as long as a result may still overlap it (R143). -/
def closeEntry (c : Bool) (s : State) : State :=
  let x := s.wfe.conv c
  let w := s.entryWord c x.entry
  if x.running && eOwc w != 0 then
    s.setWfe { s.wfe with owcs := (s.wfe.owcs.filter (fun o => decide (s.time.pcyc < o.2.2.2 + 16 * s.mainsP)))
                                    ++ [(c, eCh w, x.entryAt, s.time.pcyc)] }
  else s

/-- A converter's run ends and its slice parks (R137, R141). -/
def endRun (c : Bool) (s : State) : State :=
  let s := closeEntry c s
  s.setConv c { s.wfe.conv c with running := false, startAt := none, stopping := false }

/-- WFE_CMD.STOP of a converter: its run ends in the next p-cycle (R141). -/
def stopRun (c : Bool) (s : State) : State :=
  s.setConv c { s.wfe.conv c with stopping := (s.wfe.conv c).inRun }

/-- A p-cycle after a STOP, the run ends (R141). -/
def endStopped (s : State) : State :=
  let go (c : Bool) (s : State) : State := if (s.wfe.conv c).stopping then endRun c s else s
  go true (go false s)

/-- STOP_A (R141). -/
def execStopA (s : State) : Outcome := .next (gateWrite Reg.wfeCmd (stopRun false) s)

/-- STOP_B (R141). -/
def execStopB (s : State) : Outcome := .next (gateWrite Reg.wfeCmd (stopRun true) s)

/-- The pairing rule of the weight entry (R147). -/
def State.paired (s : State) : Bool :=
  let e := s.fld Reg.wfeWeightCfg 4 4
  let a := s.entryWord false e
  let b := s.entryWord true e
  eCh a == 0 && eCh b == 0 && eGain a == eGain b && eInt a == eInt b && eK a == eK b && eCount a == eCount b
    && eAvg a == eAvg b

/-- The refusals of a run at its start (R134, R135, R148). -/
def runVerdict (s : State) (c : Bool) : Code :=
  let chans := (List.range (s.seqLast c + 1)).map (fun e => eCh (s.entryWord c e))
  if chans.any (fun n => 1 ≤ n && n ≤ 7 && s.flag (Reg.wfeChCfg n) 0) then eWfeTie
  else if s.fld Reg.wfeCtl 2 2 = 2 && !s.flag Reg.wfeCtl 1 then eWfeExcOff
  else if s.seqLast c < s.fld Reg.wfeWeightCfg 4 4 then eWfeWeight
  else if s.flag Reg.wfeXchk 0 && !s.paired then eWfeWeight
  else 0

/-- A pass begins: NUM and VALID of the sequence's results clear (R138). -/
def beginPass (c : Bool) (s : State) : State :=
  (List.range (s.seqLast c + 1)).foldl (fun s e =>
    let k := Reg.wfeRstat (16 * c.toNat + e)
    (s.setFld k 0 8 0).setFlag k 8 false) s

/-- Entry `e` of converter `c` begins. -/
def beginEntry (c : Bool) (e at' : Nat) (blank : Bool) (s : State) : State :=
  s.setConv c { s.wfe.conv c with entry := e, entryAt := at', blank := blank, done := 0, sum := 0, flags := 0, hist := [] }

/-- 32 p-cycles after its start event a run begins, or is refused (R139). -/
def runStart (c : Bool) (s : State) : State :=
  let x := s.wfe.conv c
  match x.startAt with
  | none => s
  | some t =>
    if s.time.pcyc < t then s
    else
      let v := runVerdict s c
      if v ≠ 0 then refuse v (endRun c s)
      else
        let s := s.setConv c { x with running := true, startAt := none, runAt := t, pass := 0, wres := [] }
        beginEntry c 0 t false (beginPass c s)

/-- RUN_START (R139). -/
def execRunStart (conv : Bool) (s : State) : Outcome := .next (runStart conv s)

/-! ### Comparators -/

/-- The barrier inputs whose owner is this package, as the running weave names them (R17, R149). -/
def State.barriers (s : State) : List BarrierDecl :=
  match s.alternate with
  | some a => a.owners.filter (fun o => o.owner == s.pkg)
  | none => []

/-- The run of converter `c` that began at `ns` gave a queued weight its codes. -/
def Weight.ofRun (w : Weight) (c : Bool) (ns : BitVec 64) : Bool := if c then w.runB == some ns else w.startNs == ns

/-- A run started by comparator `k` and still in progress is intruded on by a new crossing; a weight that it has already
queued carries INTRUDED too (R150). -/
def intrude (k : Fin 2) (c : Bool) (s : State) : State :=
  let x := s.wfe.conv c
  if x.inRun && x.cmp == some k && !x.intruded then
    let s := s.setConv c { x with intruded := true }
    postEvent eWfeIntruded 0 (s.setWfe { s.wfe with wq := s.wfe.wq.map (fun w =>
      if w.ofRun c x.startNs then { w with flags := w.flags ||| 64 } else w) })
  else s

/-- A crossing or a clear of a barrier that this package owns (R17, R149, R150). -/
def barrierChange (k : Fin 2) (rising : Bool) (ns : BitVec 64) (pos : Pos) (s : State) : State :=
  match s.barriers.find? (fun o => o.cmp == k) with
  | none => s
  | some o =>
    if o.rising == rising then newParcel k ns pos (intrude k true (intrude k false s))
    else clearParcel k pos s

/-- Half the selected hysteresis, in µV (Table Weigh-9). -/
def halfHyst (code : Nat) : Nat :=
  match code with
  | 0 => 0
  | 1 => 25000
  | 2 => 50000
  | _ => 100000

/-- The output of comparator `k` at an input of `uv` µV: it keeps its state up to the edge and on it (R140). -/
def State.cmpLevelAt (s : State) (k uv : Nat) : Bool :=
  let edge := 20000 * s.fld Reg.wfeCmpCfg (16 * k) 8
  let half := halfHyst (s.fld Reg.wfeCmpCfg (16 * k + 8) 2)
  if s.wfe.cmpOut.getLsbD k then decide (edge ≤ uv + half) else decide (edge + half < uv)

/-- A comparator's output is sampled: a new level begins a run, a return to the filtered level ends it (R140, R100). -/
def sampleCmp (k uv : Nat) (s : State) : State :=
  let level := s.cmpLevelAt k uv
  if s.wfe.cmpOut.getLsbD k == level then s
  else
    let run := if s.wfe.cmpLevel.getLsbD k == level then none else some (s.time.pcyc, s.nowFp)
    s.setWfe { s.wfe with cmpOut := putBits s.wfe.cmpOut k 1 level.toNat, cmpRuns := smSet none s.wfe.cmpRuns k run }

/-- A filtered comparator change (R140): latched with the belt time of the crossing at the ball, 100 ns before the run of the
new level began; a barrier crossing is taken; converters with that source start. -/
def passCmp (k : Fin 2) (runFp : Nat) (s : State) : State :=
  let rising := !s.wfe.cmpLevel.getLsbD k.val
  let t := (runFp - 100 * 65536) / 65536
  let ns := BitVec.ofNat 64 t
  let pos := s.field.pos
  let s := s.setWfe { s.wfe with cmpLevel := putBits s.wfe.cmpLevel k.val 1 rising.toNat,
                                 cmpRuns := smSet none s.wfe.cmpRuns k.val none }
  let s := s.hwSet (Reg.wfeCmpEvt k.val) (fun w => putBits w 0 2 (1 + 2 * rising.toNat))
  let s := (s.setReg (Reg.wfeCmpTimeLo k.val) (ns.setWidth 32)).setReg (Reg.wfeCmpTimeHi k.val) (BitVec.ofNat 32 (t / 2 ^ 32))
  let s := (s.setReg (Reg.wfeCmpPosLo k.val) (pos.setWidth 32)).setReg (Reg.wfeCmpPosHi k.val) (BitVec.ofNat 32 (pos.toNat / 2 ^ 32))
  let s := barrierChange k rising ns pos s
  startSource (1 + 2 * k.val + (if rising then 0 else 1)) (some k) s

/-- Length of a comparator's filter, in p-cycles; a write to it counts from the next p-cycle on (R140, R100). -/
def State.cmpFilterP (s : State) (k : Nat) : Nat := 256 * bits (s.pixReg Reg.wfeCmpCfg) (16 * k + 10) 4

/-- A comparator's input is sampled, and a change whose level has been held for the length of the filter passes it. -/
def comparatorChange (k : Fin 2) (uv : Nat) (s : State) : State :=
  if !s.wfeOn then s
  else
    let s := sampleCmp k.val uv s
    match smGet none s.wfe.cmpRuns k.val with
    | some (t, fp) => if t + s.cmpFilterP k.val ≤ s.time.pcyc then passCmp k fp s else s
    | none => s

/-- COMPARATOR_CHANGE (R140). -/
def execComparatorChange (cmp : Fin 2) (microvolts : Nat) (s : State) : Outcome := .next (comparatorChange cmp microvolts s)

/-! ### Results -/

/-- The slice that serves as converter `c`. -/
def WfeState.slice (w : WfeState) (c : Bool) : Fin 3 := if c then w.sliceB else w.sliceA

/-- The greatest magnitude of a code. -/
def codeMax : Int := 2147483647

/-- Code and OVER of a raw count under a slice's coefficients at a gain (R133). -/
def codeOfRaw (s : State) (slice gain : Nat) (raw : Int) : Int × Bool :=
  let ofs := signed 32 (s.reg (Reg.wfeSGOfs (8 * slice + gain))).toNat
  let gc : Int := (s.reg (Reg.wfeSGGc (8 * slice + gain))).toNat
  let code := (raw - ofs) * gc / 2 ^ 30
  (clampI (-codeMax) codeMax code, decide (code < -codeMax) || decide (codeMax < code))

/-- The input that a channel shares: channel 0 for those tied to it (R134). -/
def State.inputOf (s : State) (n : Nat) : Nat := if 1 ≤ n ∧ n ≤ 7 ∧ s.flag (Reg.wfeChCfg n) 0 = true then 0 else n

/-- The other converter's slice drew an open-wire current from this entry's input after p-cycle `from'` (R143). -/
def State.otherOwc (s : State) (c : Bool) (w : Word) (from' : Nat) : Bool :=
  let y := s.wfe.conv (!c)
  let v := s.entryWord (!c) y.entry
  decide (eCh w ≤ 7) && ((y.running && eOwc v != 0 && s.inputOf (eCh v) == s.inputOf (eCh w) && decide (y.entryAt < s.time.pcyc))
    || s.wfe.owcs.any (fun o => o.1 != c && s.inputOf o.2.1 == s.inputOf (eCh w) && decide (from' < o.2.2.2)))

/-- The flags of a new result: OVER, UNSETTLED, OPEN, XCHK, STALE, ABORTED in bits 0 to 5 (R133, R135, R143, R146,
R152). -/
def resultFlags (s : State) (c : Bool) (w : Word) (code : Int) (overload : Bool) : BitVec 6 :=
  let slice := s.wfe.slice c
  let start := s.time.pcyc - resultSpan s.mainsP w
  let unsettled := s.otherOwc c w start || !s.wfe.settled || decide (start < s.wfe.settledAt)
  let wire := eOwc w != 0 && decide (s.fld Reg.wfeOwLimit 0 31 ≤ code.natAbs)
  let stale := match smGet none s.wfe.calNs slice.val with
    | some t => decide (t + 30000000000 < s.nowNs)
    | none => true
  BitVec.ofNat 6 (overload.toNat + 2 * unsettled.toNat + 4 * wire.toNat + 16 * stale.toNat)

/-- A result stands in its registers (R138, Table Weigh-9). -/
def storeResult (c : Bool) (e : Nat) (num : Nat) (code : Int) (flags : BitVec 6) (valid : Bool) (s : State) : State :=
  let k := 16 * c.toNat + e
  let stat := min num 255 + valid.toNat * 2 ^ 8 + flags.toNat * 2 ^ 9 + (s.wfe.slice c).val * 2 ^ 16
  let s := (s.setReg (Reg.wfeRes k) (BitVec.ofInt 32 code)).setReg (Reg.wfeRstat k) (BitVec.ofNat 32 stat)
  (s.setReg (Reg.wfeRtimeLo k) (BitVec.ofNat 32 s.nowNs)).setReg (Reg.wfeRtimeHi k) (BitVec.ofNat 32 (s.nowNs / 2 ^ 32))

/-- The results of a pass of the weight entry still gather: a failed check is among their flags (R138, R147). -/
def Conv.markXchk (e pass : Nat) (x : Conv) : Conv :=
  if x.running && x.entry == e && x.pass == pass then { x with flags := x.flags ||| 8 } else x

/-- The cross-check of the results of one index of the weight entry, A's in pass `pa` and B's in pass `pb` of their runs; they
agree in their interval if `same` (R147). -/
def crossCheck (a b : Int) (pa pb : Nat) (same : Bool) (s : State) : State :=
  let e := s.fld Reg.wfeWeightCfg 4 4
  let lim : Int := s.fld Reg.wfeXchk 8 24
  if same && decide ((a - b).natAbs ≤ lim.natAbs) then s
  else
    let s := (s.setFlag (Reg.wfeRstat e) 12 true).setFlag (Reg.wfeRstat (16 + e)) 12 true
    let s := (s.bumpSat Reg.wfeXchkCnt 16 1).hwSet Reg.wfeXchkCnt (fun w => putBits w 16 1 1)
    let s := s.setReg Reg.wfeXchkLast (BitVec.ofInt 32 (a - b))
    let s := s.setWfe { s.wfe with a := s.wfe.a.markXchk e pa, b := s.wfe.b.markXchk e pb }
    postEvent eWfeXchk (BitVec.ofNat 128 (codeOf 32 a + codeOf 32 b * 2 ^ 32)) s

/-- A weight enters the queue of 16; a full queue displaces the oldest (R149). -/
def queueWeight (w : Weight) (s : State) : State :=
  let s := if s.wfe.wq.length < 16 then s
    else postEvent eWfeWqLost 0 ((s.setWfe { s.wfe with wq := s.wfe.wq.drop 1 }).bumpSat Reg.wfeWqLost 16 1)
  s.setWfe { s.wfe with wq := s.wfe.wq ++ [w] }

/-- The weight of a run from the codes of its weight entry (R148): (code − ZERO) × SPAN / 2^32, rounded half away from
zero, saturated with OVER; ZERO and SPAN as they stood before the writes of this p-cycle (Table Weigh-10). -/
def weightOf (s : State) (code : Int) : Int × Bool :=
  let v := rna ((code - signed 32 (s.pixReg Reg.wfeZero).toNat) * ((s.pixReg Reg.wfeSpan).toNat : Int)) (2 ^ 32)
  (clampI (-codeMax) codeMax v, decide (v < -codeMax) || decide (codeMax < v))

/-- The weight is computed, shown in the WFE_LAST registers and queued. The run of A gives the start event. -/
def computeWeight (a b : Int) (fa fb : BitVec 6) (s : State) : State :=
  let x := s.wfe.a
  let two := s.flag Reg.wfeXchk 0
  let (v, sat) := weightOf s (if two then (a + b) / 2 else a)
  let f := (if two then fa ||| fb else fa).setWidth 7 ||| (if sat then 1 else 0)
    ||| (if x.intruded || (two && s.wfe.b.intruded) then 64 else 0)
  let w : Weight := { value := BitVec.ofInt 32 v, flags := f, startNs := x.startNs,
                      runB := if two then some s.wfe.b.startNs else none, startPos := x.startPos,
                      endNs := BitVec.ofNat 64 s.nowNs, cmp := x.cmp,
                      chan := BitVec.ofNat 4 (eCh (s.entryWord false (s.fld Reg.wfeWeightCfg 4 4))) }
  let s := (s.setReg Reg.wfeLastWeight w.value).setReg Reg.wfeLastFlags (f.setWidth 32)
  let s := (s.setReg Reg.wfeLastTimeLo (BitVec.ofNat 32 s.nowNs)).setReg Reg.wfeLastTimeHi (BitVec.ofNat 32 (s.nowNs / 2 ^ 32))
  queueWeight w s

/-- Code held in a result register. -/
def State.resCode (s : State) (c : Bool) (e : Nat) : Int := signed 32 (s.reg (Reg.wfeRes (16 * c.toNat + e))).toNat

/-- Flags held in a status register. -/
def State.resFlags (s : State) (c : Bool) (e : Nat) : BitVec 6 := BitVec.ofNat 6 (s.fld (Reg.wfeRstat (16 * c.toNat + e)) 9 6)

/-- The other converter will write the result of the same index for the same interval: it is in the weight entry, and that
result falls due when this one did (R147). -/
def State.pairComing (s : State) (c : Bool) (e j due : Nat) : Bool :=
  let y := s.wfe.conv (!c)
  y.running && y.entry == e && y.done == j && y.due s.mainsP (s.entryWord (!c) e) == due

/-- What follows a result `j` (from 0) of converter `c`'s weight entry, which fell due in p-cycle `due`: the cross-check
against the result of the same index, and at the COUNT-th result of the first pass the weight (R147, R148). With XCHK on, the
second converter of a pair completes both; A alone, with no paired B coming, is checked against B's last result and
fails. -/
def weightStep (c : Bool) (e j due : Nat) (code : Int) (s : State) : State :=
  let x := s.wfe.conv c
  let y := s.wfe.conv (!c)
  let weigh := s.flag Reg.wfeWeightCfg 0 && decide (j + 1 = eCount (s.entryWord c e)) && decide (x.pass = 0)
  if !s.flag Reg.wfeXchk 0 then
    (if !c && weigh then computeWeight code 0 (s.resFlags false e) 0 s else s)
  else
    match y.wres.find? (fun r => r.2.1 == j) with
    | some (pass, _, other, due') =>
      let a := if c then other else code
      let b := if c then code else other
      let s := crossCheck a b (if c then pass else x.pass) (if c then x.pass else pass) (due' == due) s
      let s := s.setConv (!c) { s.wfe.conv (!c) with wres := y.wres.filter (fun r => r.2.1 != j) }
      if weigh then computeWeight a b (s.resFlags false e) (s.resFlags true e) s else s
    | none =>
      if s.pairComing c e j due then s.setConv c { x with wres := x.wres ++ [(x.pass, j, code, due)] }
      else if c then s
      else
        let b := s.resCode true e
        let s := crossCheck code b x.pass y.pass false s
        if weigh then computeWeight code b (s.resFlags false e) (s.resFlags true e) s else s

/-- The converter goes to its next entry, to its next pass or to park (R137). -/
def nextEntry (c : Bool) (s : State) : State :=
  let x := s.wfe.conv c
  let go (e : Nat) (s : State) : State :=
    let p := s.entryWord c x.entry
    let q := s.entryWord c e
    beginEntry c e s.time.pcyc (eCh p != eCh q || eGain p != eGain q || eOwc p != eOwc q) (closeEntry c s)
  if x.entry < s.seqLast c then go (x.entry + 1) s
  else if s.seqFld c 4 1 = 1 then go 0 (beginPass c (s.setConv c { x with pass := x.pass + 1 }))
  else endRun c s

/-- A result that reaches WFE_OW_LIMIT sets its channel's bit in WFE_OPEN and is reported (R143). -/
def openWire (w : Word) (s : State) : State :=
  postEvent eWfeOpen (BitVec.ofNat 128 (eCh w)) (if eCh w ≤ 7 then s.hwSet Reg.wfeOpen (fun x => putBits x (eCh w) 1 1) else s)

/-- At a result interval the entry in progress writes a result from the integrations that it covers (R133, R138, R142, R143,
R147, R148); after its last result the run goes on (R137). -/
def resultWrite (c : Bool) (ints : List Integration) (s : State) : State :=
  let x := s.wfe.conv c
  let w := s.entryWord c x.entry
  let due := x.due s.mainsP w
  if !x.running || s.time.pcyc < due then s
  else
    let all := x.hist ++ ints
    let hist := all.drop (all.length - eK w * eParts w)
    let (one, sat) := codeOfRaw s (s.wfe.slice c).val (eGain w) (entryRaw s.mainsP w hist)
    let f := resultFlags s c w one (hist.any (fun i => i.overload) || sat)
    let done := x.done + 1
    let sum := x.sum + one
    let flags := x.flags ||| f
    let code := if eAvg w then sum / (done : Int) else one
    let s := s.setConv c { x with done := done, sum := sum, flags := flags, hist := hist }
    let s := storeResult c x.entry done code (if eAvg w then flags else f) true s
    let s := if f.getLsbD 2 then openWire w s else s
    let s := if x.entry = s.fld Reg.wfeWeightCfg 4 4 then weightStep c x.entry (done - 1) due code s else s
    if done < eCount w then s else nextEntry c s

/-- RESULT_WRITE (R138). -/
def execResultWrite (conv : Bool) (ints : List Integration) (s : State) : Outcome := .next (resultWrite conv ints s)

/-- A run that loses pclk lock ends at once: its entry in progress writes a result with ABORTED set and VALID clear
(R152). -/
def abortRun (c : Bool) (s : State) : State :=
  let x := s.wfe.conv c
  if x.running then
    endRun c (storeResult c x.entry x.done (s.resCode c x.entry) (x.flags ||| 32) false s)
  else endRun c s

/-- PLL_LOCK_LOSS (R29); the loss of the pixel PLL ends the runs of the weigh front end (R152). -/
def execPllLockLoss (pll : Pll) (s : State) : Outcome :=
  let s := match pll with
    | .pix => if s.pllsRun then abortRun true (abortRun false s) else s
    | _ => s
  .next (pllLockLoss pll s)

/-! ### Rotation and calibration -/

/-- The converter that the next rotation replaces: A when ROT_CNT is even (R144). -/
def WfeState.nextConv (w : WfeState) : Bool := w.rotCnt.getLsbD 0

/-- The elf slice begins to calibrate (R145). -/
def beginCal (s : State) : State := s.setWfe { s.wfe with calBusy := true, calAt := s.time.pcyc, elfReady := none }

/-- A due time of the calibration rotation (R144, R146). -/
def rotationDue (s : State) : State :=
  if !s.wfeOn then s
  else if s.wfe.calFail.getLsbD s.wfe.sliceE.val then (if s.wfe.calBusy then s else beginCal s)
  else if s.flag Reg.wfeCtl 4 then s.setWfe { s.wfe with rotWait := true }
  else s

/-- ROTATION_DUE (R144): belt time reaches a multiple of 2 × 10⁹ ns. -/
def execRotationDue (s : State) : Outcome :=
  .next (if s.nowNs % 2000000000 < 3 then rotationDue s else s)

/-- The elf slice takes over once the converter it replaces is idle and it has been parked for 80,000 p-cycles; the
slice it replaces becomes the elf slice and calibrates (R144, R145). -/
def rotationHandover (s : State) : State :=
  let w := s.wfe
  let c := w.nextConv
  match w.elfReady with
  | none => s
  | some t =>
    if !s.wfeOn || !s.flag Reg.wfeCtl 4 || !w.rotWait || (w.conv c).inRun || s.time.pcyc < t + 80000 then s
    else
      let w' := if c then { w with sliceB := w.sliceE, sliceE := w.sliceB } else { w with sliceA := w.sliceE, sliceE := w.sliceA }
      beginCal (s.setWfe { w' with rotWait := false, rotCnt := w.rotCnt + 1 })

/-- ROTATION_HANDOVER (R144). -/
def execRotationHandover (s : State) : Outcome := .next (rotationHandover s)

/-- OFS and GC of one gain from the raw SHORT and raw REF (R145); none where the limits of R146 fail. -/
def coefficients (short ref : Int) : Option (Int × Int) :=
  let den := ref - short
  let num : Int := 1610612736 * 2 ^ 30
  if 2147483648 < 100 * short.natAbs ∨ den ≤ 0 then none
  else
    let q := num / den
    let gc := if num % den = 0 then q else if Config.gcUp num den then q + 1 else q
    if 100 * gc < 98 * 2 ^ 30 ∨ 102 * 2 ^ 30 < 100 * gc then none else some (short, gc)

/-- Gains that a calibration converts: those that the entries of either sequence name, and gain 1 (R145). -/
def State.calGains (s : State) : List Nat :=
  let of' (c : Bool) : List Nat := (List.range (s.seqLast c + 1)).map (fun e => eGain (s.entryWord c e))
  (List.range 8).filter (fun g => g == 0 || (of' false ++ of' true).contains g)

/-- The raw SHORT and the raw REF of a gain: each over one mains period with K = 1 (R145). -/
def State.calRaw (s : State) (i : Integration) : Int := rawCount 1 s.mainsP s.mainsP [i]

/-- The elf slice ends its calibration: new coefficients, or a failure that keeps it the elf slice (R145, R146). -/
def calibrationDone (ints : List (Fin 8 × Integration × Integration)) (s : State) : State :=
  let need := s.calGains.length * 2 * (s.mainsP + 80000)
  if !s.wfeOn || !s.wfe.calBusy || s.time.pcyc < s.wfe.calAt + need
      || !(s.calGains.all (fun g => ints.any (fun r => r.1.val == g))) then s
  else
    let e := s.wfe.sliceE.val
    let cs := (ints.filter (fun r => s.calGains.contains r.1.val)).map
      (fun r => (r.1.val, coefficients (s.calRaw r.2.1) (s.calRaw r.2.2)))
    if cs.any (fun c => c.2.isNone) then
      postEvent eWfeCal (BitVec.ofNat 128 e)
        (s.setWfe { s.wfe with calBusy := false, calFail := s.wfe.calFail ||| BitVec.ofNat 3 (2 ^ e) })
    else
      let s := cs.foldl (fun s c => match c.2 with
        | some (ofs, gc) => (s.setReg (Reg.wfeSGOfs (8 * e + c.1)) (BitVec.ofInt 32 ofs)).setReg (Reg.wfeSGGc (8 * e + c.1))
            (BitVec.ofInt 32 gc)
        | none => s) s
      s.setWfe { s.wfe with calBusy := false, calFail := s.wfe.calFail &&& ~~~(BitVec.ofNat 3 (2 ^ e)),
                            calNs := smSet none s.wfe.calNs e (some s.nowNs), elfReady := some s.time.pcyc }

/-- CALIBRATION_DONE (R145). -/
def execCalibrationDone (ints : List (Fin 8 × Integration × Integration)) (s : State) : Outcome :=
  .next (calibrationDone ints s)

end Sys2Proof.Machine
end

