-- ==== Sys2Proof/Machine/Field.lean ====
section
/-!
DEFINITION. Field.lean: 05_pixels: field inputs and their event queue (R100, R101), the encoder and its presets (R102,
R103), match units (R104), triggers (R91, R105, R109), strobes and sync outputs (R107, R108), exposures, readout and
its corrections (R90-R94), dark capture (R97).
-/

namespace Sys2Proof.Machine

/-! ### Strobes and sync outputs -/

/-- Strobe `k`. -/
def State.strobe (s : State) (k : Nat) : Strobe := smGet Strobe.reset s.field.strobes k

/-- `s` with strobe `k` replaced. -/
def State.setStrobe (s : State) (k : Nat) (x : Strobe) : State :=
  { s with field := { s.field with strobes := smSet Strobe.reset s.field.strobes k x } }

/-- Sync output `j`. -/
def State.sync (s : State) (j : Nat) : Strobe := smGet Strobe.reset s.field.syncs j

/-- `s` with sync output `j` replaced. -/
def State.setSync (s : State) (j : Nat) (x : Strobe) : State :=
  { s with field := { s.field with syncs := smSet Strobe.reset s.field.syncs j x } }

/-- Strobe `k` is active (R107); a dark capture holds it inactive (R97). -/
def State.strobeActive (s : State) (k : Nat) : Bool :=
  if s.pix.darkBusy then false
  else match s.fld (Reg.fieldStbCfg k) 0 2 with
    | 1 => (s.strobe k).endAt.isSome
    | 2 => true
    | _ => false

/-- The level of strobe `k` is driven; POL inverts it. -/
def driveStrobe (k : Fin 4) (s : State) : State :=
  s.emit (.ball (.stb k) (s.strobeActive k.val != s.flag (Reg.fieldStbCfg k.val) 2))

/-- Source of sync output `j`. -/
def State.syncSrc (s : State) (j : Nat) : Nat := s.fld (Reg.fieldSyncCfg j) 0 3

/-- Sync output `j` is active (R108). -/
def State.syncActive (s : State) (j : Nat) : Bool :=
  match s.syncSrc j with
  | 0 => false
  | 1 => !s.pix.cur.isEmpty
  | 5 => s.field.levels.getLsbD (s.fld (Reg.fieldSyncCfg j) 8 3)
  | _ => (s.sync j).endAt.isSome

/-- The level of sync output `j` is driven; POL inverts every source. -/
def driveSync (j : Fin 2) (s : State) : State :=
  s.emit (.ball (.sync j) (s.syncActive j.val != s.flag (Reg.fieldSyncCfg j.val) 3))

/-- The starts that are due are taken: the last of them starts the width (R107). -/
def takeDue (now width : Nat) (x : Strobe) : Strobe :=
  { starts := x.starts.filter (fun t => decide (now < t)),
    endAt := some ((x.starts.filter (fun t => decide (t ≤ now))).foldl max 0 + width) }

/-- Some start of an output is due. -/
def Strobe.due (x : Strobe) (now : Nat) : Bool := x.starts.any (fun t => decide (t ≤ now))

/-- The width of an output has run out. -/
def Strobe.over (x : Strobe) (now : Nat) : Bool := match x.endAt with
  | some e => decide (e ≤ now)
  | none => false

/-- A pulse of sync output `j` is due at p-cycle `at'`. -/
def syncPulse (j at' : Nat) (s : State) : State :=
  s.setSync j { s.sync j with starts := (s.sync j).starts ++ [at'] }

/-- MATCH pulses of the outputs that a sync mask names rise 3 p-cycles after the fire (R108). -/
def matchPulses (mask : Nat) (s : State) : State :=
  let go (j : Nat) (s : State) : State :=
    if nbit mask j && s.syncSrc j == 3 then syncPulse j (s.time.pcyc + 3) s else s
  go 1 (go 0 s)

/-- The BEAT pulses rise 3 p-cycles after the first p-cycle edge at or after the start of the beat (R108). -/
def beatPulses (s : State) : State :=
  let go (j : Nat) (s : State) : State := if s.syncSrc j = 2 then syncPulse j (s.time.pcyc + 3) s else s
  go 1 (go 0 s)

/-- Outputs with source EXPOSING follow the integration. -/
def driveExposing (s : State) : State :=
  let go (j : Fin 2) (s : State) : State := if s.syncSrc j.val = 1 then driveSync j s else s
  go 1 (go 0 s)

/-- Outputs with source IN_COPY take the filtered level 3 p-cycles after the edge (R108). -/
def copyLevel (i : Nat) (level : Bool) (s : State) : State :=
  let go (j : Fin 2) (s : State) : State :=
    if s.syncSrc j.val = 5 ∧ s.fld (Reg.fieldSyncCfg j.val) 8 3 = i then
      { s with field := { s.field with copyDue := s.field.copyDue ++ [(s.time.pcyc + 3, j, i, level)] } }
    else s
  go 1 (go 0 s)

/-- The copied levels that are due leave on their outputs, where these still copy that input. -/
def driveCopies (s : State) : State :=
  let due := s.field.copyDue.filter (fun c => decide (c.1 ≤ s.time.pcyc))
  let s := { s with field := { s.field with copyDue := s.field.copyDue.filter (fun c => decide (s.time.pcyc < c.1)) } }
  due.foldl (fun s c =>
    let cfg := Reg.fieldSyncCfg c.2.1.val
    if s.syncSrc c.2.1.val = 5 ∧ s.fld cfg 8 3 = c.2.2.1 then s.emit (.ball (.sync c.2.1) (c.2.2.2 != s.flag cfg 3))
    else s) s

/-- STROBE_START (R107). -/
def execStrobeStart (strobe : Fin 4) (s : State) : Outcome :=
  let x := s.strobe strobe.val
  if s.fieldOn && x.due s.time.pcyc then
    .next (driveStrobe strobe (s.setStrobe strobe.val (takeDue s.time.pcyc (s.fld (Reg.fieldStbWidth strobe.val) 0 22) x)))
  else .next s

/-- STROBE_END (R107). -/
def execStrobeEnd (strobe : Fin 4) (s : State) : Outcome :=
  let x := s.strobe strobe.val
  if s.fieldOn && x.over s.time.pcyc then .next (driveStrobe strobe (s.setStrobe strobe.val { x with endAt := none }))
  else .next s

/-- SYNC_PULSE_START (R108). -/
def execSyncPulseStart (sync : Fin 2) (s : State) : Outcome :=
  let x := s.sync sync.val
  if s.fieldOn && x.due s.time.pcyc then
    .next (driveSync sync (s.setSync sync.val (takeDue s.time.pcyc (s.fld (Reg.fieldSyncCfg sync.val) 16 16) x)))
  else .next s

/-- SYNC_PULSE_END (R108). -/
def execSyncPulseEnd (sync : Fin 2) (s : State) : Outcome :=
  let x := s.sync sync.val
  if s.fieldOn && x.over s.time.pcyc then .next (driveSync sync (s.setSync sync.val { x with endAt := none }))
  else .next s

/-- Belt time reached a multiple of 10^9 ns with the last p-cycle edge. -/
def State.atSecond (s : State) : Bool := decide (s.nowFp % (1000000000 * 65536) < 164003)

/-- BELT_SECOND (R108): the pulse rises at this p-cycle edge. -/
def execBeltSecond (s : State) : Outcome :=
  let go (j : Fin 2) (s : State) : State :=
    if s.syncSrc j.val = 4 then
      driveSync j (s.setSync j.val { s.sync j.val with endAt := some (s.time.pcyc + s.fld (Reg.fieldSyncCfg j.val) 16 16) })
    else s
  if s.fieldOn && s.atSecond then .next (go 1 (go 0 s)) else .next s

/-! ### Triggers -/

/-- The windows that a setup reads, with their X and Y words; none for FULL (R92). -/
def State.setupWindows (s : State) (setup : Nat) : List (Nat × Word × Word) :=
  let m := s.pixReg (Reg.pixSMode setup)
  if m.getLsbD 0 then
    ((List.range 8).filter (fun w => m.getLsbD (8 + w))).map (fun w => (w, s.pixReg (Reg.pixWX w), s.pixReg (Reg.pixWY w)))
  else []

/-- Row `y` lies in a window. -/
def rowIn (ws : List (Nat × Word × Word)) (y : Nat) : Bool :=
  ws.any (fun w => decide (bits w.2.2 0 11 ≤ y ∧ y < bits w.2.2 0 11 + bits w.2.2 16 12))

/-- The rows that an exposure reads, in order: each row of the union of its windows once (R91, R92). -/
def rowsRead (full : Bool) (ws : List (Nat × Word × Word)) : List Nat :=
  if full then List.range 2048 else (List.range 2048).filter (rowIn ws)

/-- Length of a readout of `r` rows, in p-cycles (R91). -/
def readoutP (r : Nat) : Nat := max (r * 813 + 1600) 200000

/-- The exposure that a trigger of this p-cycle asks for, under the values in force before its writes (R90, R91). -/
def State.exposure (s : State) (setup src : Nat) : Exposure :=
  let mode := s.pixReg (Reg.pixSMode setup)
  let len := BitVec.ofNat 20 (bits (s.pixReg (Reg.pixSExp setup)) 0 20)
  let ws := s.setupWindows setup
  { startAt := s.time.pcyc + 3 + bits (s.pixReg (Reg.pixSDelay setup)) 0 16, lenP := 4 * len.toNat,
    readP := readoutP (rowsRead (!mode.getLsbD 0) ws).length, setup := BitVec.ofNat 2 setup, source := BitVec.ofNat 8 src,
    mode := mode, len := len, seq := s.reg Reg.pixFrames, windows := ws }

/-- A weave restart is in progress. -/
def State.restarting (s : State) : Bool :=
  match s.fault.phase with
  | .stopped => true
  | .recovering => true
  | .ready => true
  | _ => false

/-- Conditions 1 to 3 of R91. -/
def State.accepts (s : State) (e : Exposure) : Bool :=
  let busy (x : Exposure) : Bool := decide (x.startAt ≤ e.startAt ∧ e.startAt < x.startAt + x.lenP)
  (s.pixReg Reg.pixCtl).getLsbD 0 && !s.pix.darkBusy && !s.pix.pend.any busy && !s.pix.cur.any (fun f => busy f.exp)
    && decide (s.pix.readEnd ≤ e.startAt + e.lenP)

/-- The strobes that a trigger fires, with their starts (R107). -/
def State.strobeStarts (s : State) (mask : Nat) (accepted : Bool) : List (Nat × Nat) :=
  if s.pix.darkBusy then []
  else ((List.range 4).filter (fun k => nbit mask k && s.fld (Reg.fieldStbCfg k) 0 2 == 1
        && (accepted || !s.flag (Reg.fieldStbCfg k) 3))).map
      (fun k => (k, s.time.pcyc + 3 + s.fld (Reg.fieldStbCfg k) 16 16))

/-- Strobe starts are set. -/
def addStarts (l : List (Nat × Nat)) (s : State) : State :=
  l.foldl (fun s p => s.setStrobe p.1 { s.strobe p.1 with starts := (s.strobe p.1).starts ++ [p.2] }) s

/-- Strobe starts of an undone decision are withdrawn. -/
def dropStarts (l : List (Nat × Nat)) (s : State) : State :=
  l.foldl (fun s p => s.setStrobe p.1 { s.strobe p.1 with starts := (s.strobe p.1).starts.erase p.2 }) s

/-- The parcel whose window holds the belt's position lost a trigger to a restart (Table Regions-7). -/
def markRestart (s : State) : State :=
  match s.parcelAt s.field.pos with
  | some q => mapParcels (fun p => p.id == q.id && !p.committed) (fun p => { p with restart := true }) s
  | none => s

/-- A dropped trigger is counted. -/
def countDropped (reg : Nat) (s : State) : State := s.bumpSat reg 32 1

/-- An exposure is accepted: it is the next frame (R91, Table Pix-2); a diagnostic capture that waits for its setup
takes it (R129). -/
def acceptExposure (e : Exposure) (s : State) : State :=
  let s := s.setReg Reg.pixFrames (s.reg Reg.pixFrames + 1)
  let s := if s.roi.diag = some e.setup ∧ s.roi.diagSeq = none then { s with roi := { s.roi with diagSeq := some e.seq } } else s
  { s with pix := { s.pix with pend := s.pix.pend ++ [e], readEnd := e.startAt + e.lenP + e.readP } }

/-- The trigger of this p-cycle is decided (R91). -/
def decideTrigger (src setup mask : Nat) (s : State) : State :=
  let e := s.exposure setup src
  let ok := s.accepts e && !s.restarting
  let reg := if s.restarting then Reg.pixTrigMissed else Reg.pixTrigBusy
  let starts := s.strobeStarts mask ok
  let counted : Fin 4 := if ok then 0 else if s.reg reg = 0xFFFFFFFF then 3 else if s.restarting then 2 else 1
  let now : TrigNow := ⟨s.time.pcyc, src, s.pix.pend, s.pix.readEnd, starts, counted⟩
  let s := if ok then acceptExposure e s else countDropped reg (if s.restarting then markRestart s else s)
  addStarts starts { s with pix := { s.pix with trigNow := some now } }

/-- A counter loses the count of an undone decision. -/
def uncount (reg : Nat) (s : State) : State := s.hwSet reg (fun w => if w = 0 then 0 else w - 1)

/-- The decision of this p-cycle is undone: a source that comes first in the order of R105 coincides with it. -/
def undoTrigger (t : TrigNow) (s : State) : State :=
  let s := dropStarts t.strobes s
  let s := match t.counted with
    | 0 =>
      let s := s.setReg Reg.pixFrames (s.reg Reg.pixFrames - 1)
      if s.roi.diagSeq = some (s.reg Reg.pixFrames) then { s with roi := { s.roi with diagSeq := none } } else s
    | 1 => uncount Reg.pixTrigBusy s
    | 2 => uncount Reg.pixTrigMissed s
    | _ => s
  { s with pix := { s.pix with pend := t.pend, readEnd := t.readEnd, trigNow := none } }

/-- A source triggers; sources of one p-cycle form one trigger, that of the first source in the order M0 to M15 (0-15),
IN0 to IN7 (16-23), SNAP (24) (R105). A pixel die without its rails takes none (R295). -/
def trigger (src setup mask : Nat) (s : State) : State :=
  if !s.sensorsOn then s
  else match s.pix.trigNow with
  | some t =>
    if t.pcyc = s.time.pcyc then
      (if t.src ≤ src then s else decideTrigger src setup mask (undoTrigger t s))
    else decideTrigger src setup mask s
  | none => decideTrigger src setup mask s

/-- A PIX_CMD write sets SNAP: refused below reduced level (R111); else its trigger waits (R109). -/
def snapWrite (setup : BitVec 2) (s : State) : State :=
  if s.level < 1 then refuse ePixLevel s
  else { s with pix := { s.pix with snaps := s.pix.snaps ++ [(s.time.pcyc, setup)] } }

/-- The oldest SNAP write becomes a trigger once `wait` p-cycles have passed since it arrived; it fires the strobes in MODE
TRIGGERED (R105, R109). -/
def snapTrigger (wait : Nat) (s : State) : State :=
  match s.pix.snaps with
  | (t, setup) :: l =>
    if t + wait ≤ s.time.pcyc then trigger 24 setup.toNat 0xF { s with pix := { s.pix with snaps := l } } else s
  | [] => s

/-- SNAP (R109): in a p-cycle from 13 on after the write; after 61 it comes by itself (Tick.lean). -/
def execSnap (s : State) : Outcome := .next (if s.fieldOn then snapTrigger 13 s else s)

/-! ### Field inputs -/

/-- The stamp of an event whose sampling edge is the p-cycle edge just passed: half a p-cycle before it (R43). -/
def State.stampNow (s : State) : BitVec 80 := s.time.belt - 81920

/-- An event enters the field event queue of 64 entries, or is counted (R101). -/
def queueEvent (e : FieldEvent) (s : State) : State :=
  if s.field.evq.length < 64 then { s with field := { s.field with evq := s.field.evq ++ [e] } }
  else s.bumpSat Reg.fieldEvqLost 16 1

/-- Length of the filter of an input, in p-cycles; a write to it counts from the next p-cycle on (R100). -/
def State.filterP (s : State) (i : Nat) : Nat :=
  let w := s.pixReg (Reg.fieldInCfg i)
  bits w 8 8 * (if w.getLsbD 16 then 256 else 1)

/-- The input's EDGE field selects this direction. -/
def State.edgeSelected (s : State) (i : Nat) (rising : Bool) : Bool :=
  if rising then s.flag (Reg.fieldInCfg i) 1 else s.flag (Reg.fieldInCfg i) 2

/-- An input is sampled: a new level begins a run, a return to the filtered level ends it (R100). -/
def sampleInput (i : Nat) (level : Bool) (s : State) : State :=
  if s.field.raw.getLsbD i == level then s
  else
    let run := if s.field.levels.getLsbD i == level then none else some (s.time.pcyc, s.stampNow)
    { s with field := { s.field with raw := putBits s.field.raw i 1 level.toNat,
                                     runs := smSet none s.field.runs i run } }

/-- The filtered level of an input changes: the edge, stamped with its sampling edge, is queued, triggers, and pulses sync
outputs in the directions that EDGE selects (R100, R101, R108). -/
def passInput (i : Nat) (stamp : BitVec 80) (s : State) : State :=
  let level := !s.field.levels.getLsbD i
  let cfg := Reg.fieldInCfg i
  let s := { s with field := { s.field with levels := putBits s.field.levels i 1 level.toNat,
                                            runs := smSet none s.field.runs i none } }
  let s := copyLevel i level s
  if s.edgeSelected i level then
    let s := queueEvent ⟨BitVec.ofNat 4 i, level, true, stamp, s.field.pos⟩ s
    let s := matchPulses (s.fld cfg 28 2) s
    if s.flag cfg 17 then trigger (16 + i) (s.fld cfg 20 2) (s.fld cfg 24 4) s else s
  else s

/-- An input is sampled, and an edge whose level has been held for the length of the filter passes it (R100). -/
def fieldInputEdge (i : Fin 8) (level : Bool) (s : State) : State :=
  let s := sampleInput i.val level s
  match smGet none s.field.runs i.val with
  | some (t, stamp) => if t + s.filterP i.val ≤ s.time.pcyc then passInput i.val stamp s else s
  | none => s

/-- FIELD_INPUT_EDGE (R100). -/
def execFieldInputEdge (input : Fin 8) (level : Bool) (s : State) : Outcome :=
  .next (if s.fieldOn then fieldInputEdge input level s else s)

/-- A read of FIELD_EVQ_INFO pops the oldest entry into the latches (R101, Table Pix-10). -/
def evqPop (s : State) : State × Word :=
  match s.field.evq with
  | [] => (s, 0)
  | e :: q =>
    ({ s with field := { s.field with evq := q, latch := e } },
     BitVec.ofNat 32 (e.src.toNat + e.rising.toNat * 2 ^ 4 + 2 ^ 8 + q.length * 2 ^ 16))

/-- EVQ_POP (R101). -/
def execEvqPop (s : State) : Outcome := .next (gateRead Reg.fieldEvqInfo evqPop s)

/-! ### Encoder and match units -/

/-- VALUE of a match unit. -/
def State.matchValue (s : State) (m : Nat) : Pos := BitVec.ofNat 48 (s.pair (Reg.fieldMatchLo m) (Reg.fieldMatchHi m))

/-- A fire moves VALUE by STEP and COUNT down; the unit disarms at COUNT 0 or STEP 0 (R104). -/
def matchAdvance (m : Nat) (up : Bool) (s : State) : State :=
  let step := BitVec.ofNat 48 (s.fld (Reg.fieldMatchCfg m) 16 16)
  let v := if up then s.matchValue m + step else s.matchValue m - step
  let s := (s.setReg (Reg.fieldMatchLo m) (BitVec.ofNat 32 v.toNat)).setReg (Reg.fieldMatchHi m) (BitVec.ofNat 32 (bits v 32 16))
  let count := s.fld (Reg.fieldMatchCnt m) 0 16 - 1
  if s.field.repeating.getLsbD m then (if step = 0 then s.setFlag (Reg.fieldMatchCfg m) 0 false else s)
  else
    let s := s.setFld (Reg.fieldMatchCnt m) 0 16 count
    if count = 0 ∨ step = 0 then s.setFlag (Reg.fieldMatchCfg m) 0 false else s

/-- A match unit fires: its exposure, strobes, sync pulses and weigh start (R104). -/
def matchFire (m : Nat) (up : Bool) (s : State) : State :=
  let cfg := s.reg (Reg.fieldMatchCfg m)
  let s := matchAdvance m up s
  let s := matchPulses (bits cfg 12 2) s
  let s := if cfg.getLsbD 14 then startSource 5 none s else s
  if cfg.getLsbD 3 then trigger m (bits cfg 4 2) (bits cfg 8 4) s else s

/-- Unit `m` is armed for this direction and the position stands at its VALUE (R104). -/
def State.matchHit (s : State) (m : Nat) (up : Bool) : Bool :=
  let cfg := s.reg (Reg.fieldMatchCfg m)
  cfg.getLsbD 0 && (if up then cfg.getLsbD 1 else cfg.getLsbD 2) && s.field.pos == s.matchValue m

/-- One count updates the position register, and the units it reaches fire (R102, R104). -/
def encoderCount (up : Bool) (s : State) : State :=
  let pos := if up then s.field.pos + 1 else s.field.pos - 1
  let s := { s with field := { s.field with pos := pos } }
  ((List.range 16).filter (fun m => s.matchHit m up)).foldl (fun s m => matchFire m up s) s

/-- New levels of A and B reach the position register (R102): one change counts, two at once are an error that counts
nothing. A write to DIR counts from the next p-cycle on. -/
def encoderLevels (a b : Bool) (s : State) : State :=
  let a0 := s.field.a
  let b0 := s.field.b
  let dir := (s.pixReg Reg.fieldEncCfg).getLsbD 1
  let s := { s with field := { s.field with a := a, b := b } }
  if !s.flag Reg.fieldEncCfg 0 then s
  else if a != a0 && b != b0 then
    postEvent eEncQuad 0 (s.bumpSat Reg.fieldEncErr 16 1)
  else if a != a0 then encoderCount ((a != b) != dir) s
  else if b != b0 then encoderCount ((b == a) != dir) s
  else s

/-- PRESET. -/
def State.preset (s : State) : Pos := BitVec.ofNat 48 (s.pair Reg.fieldEncPresetLo Reg.fieldEncPresetHi)

/-- A sampled edge reaches the position register: a Z edge loads the preset under ARM_Z, a count of the same p-cycle is
then applied, and the Z edge is queued while Z_EN is set (R101, R102, R103). -/
def takeEdge (s : State) (e : EncEdge) : State :=
  let s := if e.z && s.field.armZ then { s with field := { s.field with pos := s.preset, armZ := false } } else s
  let s := match e.ab with
    | some (a, b) => encoderLevels a b s
    | none => s
  if e.z && s.flag Reg.fieldEncCfg 6 then queueEvent ⟨8, true, true, e.stamp, s.field.pos⟩ s else s

/-- A sampled edge is due: 2 + ENC_FILT p-cycles have passed; a write to ENC_FILT counts from the next p-cycle on (R102). -/
def State.edgeDue (s : State) (e : EncEdge) : Bool :=
  decide (e.sampled + 2 + bits (s.pixReg Reg.fieldEncCfg) 2 4 ≤ s.time.pcyc)

/-- The preset of ARM_AT is loaded at the first p-cycle at or after its belt time (R103). -/
def loadPreset (s : State) : State :=
  match s.field.armAt with
  | some t => if t * 65536 ≤ s.nowFp then { s with field := { s.field with pos := s.preset, armAt := none } } else s
  | none => s

/-- What falls due at the position register in this p-cycle: a preset first, then the edges in their order (R102, R103,
Table Pix-11). -/
def encoderCycle (s : State) : State :=
  let s := loadPreset s
  (s.field.encq.takeWhile s.edgeDue).foldl takeEdge
    { s with field := { s.field with encq := s.field.encq.dropWhile s.edgeDue } }

/-- An edge of A, B or Z is sampled; changes within one sample are one edge (R102). -/
def sampleEdge (ab : Option (Bool × Bool)) (z : Bool) (s : State) : State :=
  let now := s.time.pcyc
  let q := match s.field.encq.getLast? with
    | some e =>
      if e.sampled = now then
        s.field.encq.dropLast ++ [{ e with ab := if ab.isSome then ab else e.ab, z := e.z || z }]
      else s.field.encq ++ [⟨now, s.stampNow, ab, z⟩]
    | none => [⟨now, s.stampNow, ab, z⟩]
  { s with field := { s.field with encq := q } }

/-- ENCODER_EDGE (R102). -/
def execEncoderEdge (sample : Option (Bool × Bool)) (s : State) : Outcome :=
  .next (if s.fieldOn then encoderCycle (if sample.isSome then sampleEdge sample false s else s) else s)

/-- Z_PULSE (R103). -/
def execZPulse (sample : Bool) (s : State) : Outcome :=
  .next (if s.fieldOn then encoderCycle (if sample then sampleEdge none true s else s) else s)

/-- ENC_LOSS (R102): both amplitudes below 200 mV for 1 µs. -/
def execEncLoss (s : State) : Outcome :=
  if s.fieldOn && s.flag Reg.fieldEncCfg 0 && !s.flag Reg.fieldEncErr 16 then
    .next (postEvent eEncLoss 0 (s.setFlag Reg.fieldEncErr 16 true))
  else .next s

/-- ENC_SIGNAL_RETURN (R102): an amplitude has stayed at or above 200 mV for 1 µs. -/
def execEncSignalReturn (s : State) : Outcome := .next (if s.fieldOn then s.setFlag Reg.fieldEncErr 16 false else s)

/-- A host access to a register that the running weave owns (R110). -/
def State.weaveOwns (s : State) (src : Writer) : Bool := s.weaveRuns && src == .host

/-- The judgement of FIELD_ENC_CMD.ARM_AT (R103): 0 or the refusal. -/
def armAtVerdict (src : Writer) (s : State) : Code :=
  if s.weaveOwns src then eFieldRunning
  else if s.pair Reg.fieldEncAtLo Reg.fieldEncAtHi * 65536 < s.nowFp then eEncAtPast
  else 0

/-- FIELD_ENC_CMD.ARM_AT (R103): refused while the weave owns it, and for a time already passed. -/
def armAt (src : Writer) (s : State) : State :=
  if armAtVerdict src s ≠ 0 then refuse (armAtVerdict src s) s
  else { s with field := { s.field with armAt := some (s.pair Reg.fieldEncAtLo Reg.fieldEncAtHi) } }

/-- ARM_AT (R103). -/
def execArmAt (src : Writer) (s : State) : Outcome := .next (if s.answers Reg.fieldEncCmd then armAt src s else s)

/-- FIELD_ENC_CMD.ARM_Z (R103). -/
def armZ (src : Writer) (s : State) : State :=
  if s.weaveOwns src then refuse eFieldRunning s else { s with field := { s.field with armZ := true } }

/-- ARM_Z (R103). -/
def execArmZ (src : Writer) (s : State) : Outcome := .next (if s.answers Reg.fieldEncCmd then armZ src s else s)

/-- PRESET_LOAD (R103): the first p-cycle at or after the belt time of ARM_AT. -/
def execPresetLoad (s : State) : Outcome := .next (if s.fieldOn then encoderCycle s else s)

/-- A read of FIELD_ENC_POS_LO latches the high half (Table Pix-10). -/
def encPosRead (s : State) : State × Word :=
  ({ s with field := { s.field with posHi := BitVec.ofNat 16 (bits s.field.pos 32 16) } }, BitVec.ofNat 32 s.field.pos.toNat)

/-- FIELD_ENC_POS_LO_READ (R102). -/
def execFieldEncPosLoRead (s : State) : Outcome := .next (gateRead Reg.fieldEncPosLo encPosRead s)

/-! ### Dark capture -/

/-- The judgement of PIX_CMD.DARK_CAPTURE, in the order of R97: 0 or the refusal. -/
def darkVerdict (s : State) : Code :=
  if s.weaveRuns then ePixRunning
  else if s.level < 1 then ePixLevel
  else if s.pix.darkBusy then eDarkBusy
  else 0

/-- A trigger accepted in the p-cycle in which a dark capture starts is dropped and counted (Table Pix-11); it stands
for its p-cycle's one trigger still (R105). -/
def dropTrigger (s : State) : State :=
  match s.pix.trigNow with
  | some t =>
    if t.pcyc = s.time.pcyc ∧ t.counted = 0 then
      let c : Fin 4 := if s.reg Reg.pixTrigBusy = 0xFFFFFFFF then 3 else 1
      let s := countDropped Reg.pixTrigBusy (undoTrigger t s)
      { s with pix := { s.pix with trigNow := some { t with strobes := [], counted := c } } }
    else s
  | none => s

/-- PIX_CMD.DARK_CAPTURE (R97): accepted, a trigger of the same p-cycle is dropped and the strobes go inactive. -/
def darkCapture (s : State) : State :=
  if darkVerdict s ≠ 0 then refuse (darkVerdict s) s
  else
    let s := dropTrigger s
    let s := { s with pix := { s.pix with darkBusy := true, darkBand := s.pix.band } }
    [0, 1, 2, 3].foldl (fun s k => driveStrobe k s) s

/-- DARK_CAPTURE (R97). -/
def execDarkCapture (_src : Writer) (s : State) : Outcome := .next (if s.answers Reg.pixCmd then darkCapture s else s)

/-- RATE of a pixel from the sums of its 16 frames at 1 ms and at 10 ms (R97). -/
def darkRateOf (p : Nat × Nat) : Byte :=
  let d : Int := (p.2 : Int) - p.1
  let r := rna (4 * d) 9
  if r < 0 then Config.darkRate d else BitVec.ofInt 8 (min 255 r)

/-- Address of a band's dark table (R96). -/
def State.darkTable (s : State) (band : Nat) : Nat := s.pair Reg.pixDarkBaseLo Reg.pixDarkBaseHi + band * 0x1000000

/-- The capture ends (R97): the band's table and VALID bit are written, and the strobes follow their modes again. -/
def darkCaptureDone (sums : List (Nat × Nat)) (s : State) : State :=
  if s.pix.darkBusy then
    let band := s.pix.darkBand.toNat
    let s := engineStore 8 (s.darkTable band) (sums.map darkRateOf) s
    let s := s.setFlag Reg.pixStatus (8 + band) true
    let s := { s with pix := { s.pix with darkBusy := false } }
    [0, 1, 2, 3].foldl (fun s k => driveStrobe k s) s
  else s

/-- DARK_CAPTURE_DONE (R97). -/
def execDarkCaptureDone (sums : List (Nat × Nat)) (s : State) : Outcome :=
  .next (if s.fieldOn then darkCaptureDone sums s else s)

/-! ### Frames -/

/-- The nearest band with VALID set, the lower one on a tie (R98). -/
def validBand (valid band : Nat) : Option Nat :=
  let at' (d : Nat) : Option Nat :=
    if d ≤ band ∧ nbit valid (band - d) = true then some (band - d)
    else if band + d < 8 ∧ nbit valid (band + d) = true then some (band + d) else none
  (List.range 8).findSome? at'

/-- The frame of an exposure that begins now: stamp, position, band and dark band (R93, R95, R98). -/
def State.frameOf (s : State) (e : Exposure) : Frame :=
  let v := validBand (s.fld Reg.pixStatus 8 8) s.pix.band.toNat
  let dark := e.mode.getLsbD 20
  { exp := e, stamp := s.time.belt, pos := s.field.pos, posEnd := s.field.pos, band := s.pix.band, hot := s.pix.hot,
    darkBand := if dark then BitVec.ofNat 3 (v.getD s.pix.band.toNat) else s.pix.band,
    noDark := dark && v.isNone,
    fallback := dark && v.isSome && v != some s.pix.band.toNat }

/-- The accepted exposure whose integration is due. -/
def State.dueExposure (s : State) : Option Exposure :=
  s.pix.pend.foldl (fun b e => if s.time.pcyc < e.startAt then b else match b with
    | some x => if e.startAt < x.startAt then some e else b
    | none => some e) none

/-- INTEGRATION_START (R90). -/
def execIntegrationStart (s : State) : Outcome :=
  match s.dueExposure with
  | some e =>
    if s.fieldOn then
      .next (driveExposing { s with pix := { s.pix with pend := s.pix.pend.erase e, cur := s.pix.cur ++ [s.frameOf e] } })
    else .next s
  | none => .next s

/-- INTEGRATION_END (R90): the charge moves to the storage nodes and readout begins. -/
def execIntegrationEnd (s : State) : Outcome :=
  match s.pix.cur.find? (fun f => decide (f.exp.startAt + f.exp.lenP ≤ s.time.pcyc)) with
  | some f =>
    if s.fieldOn && s.pix.reading.isNone then
      .next (driveExposing { s with pix := { s.pix with cur := s.pix.cur.erase f,
                                                        reading := some { f with posEnd := s.field.pos } } })
    else .next s
  | none => .next s

/-! ### Corrections (Table Pix-3) -/

/-- Body of the Baora calibration part in the store, and its length (Table Images-7, log entry 23). -/
def calBody : Nat := 0x40000040
def State.calLen (s : State) : Nat := ofLe (s.rdMem 0x40000008 4)

/-- Mean of the 32 shielded pixels of a row (R94). -/
def shieldMean (sum : Nat) : Int := if sum % 32 = 0 then sum / 32 else Config.blackMean sum

/-- Dark subtraction of RATE at LEN, rounded half up (Table Pix-3): RATE · LEN / 6,400,000. -/
def darkSub (rate len : Nat) : Nat := (2 * rate * len + 6400000) / 12800000

/-- A pixel's value after the clamp, dark, column and PRNU steps. -/
def pixelSteps (s : State) (f : Frame) (row col : Nat) (black : Int) (raw : Nat) : Int :=
  let corr (i : Nat) : Bool := f.exp.mode.getLsbD (20 + i)
  let cal := s.flag Reg.bootStatus 6
  let v : Int := raw - black + s.fld Reg.pixCtl 16 12
  let v := if corr 0 && !f.noDark then
      v - darkSub (ofLe (s.rdMem (s.darkTable f.darkBand.toNat + 8192 * row + col) 1)) f.exp.len.toNat else v
  let v := if corr 1 && cal then Config.columnCorr (ofLe (s.rdMem (calBody + 4 * col) 4)) v else v
  if corr 2 && cal then Config.prnuCorr (ofLe (s.rdMem (calBody + 32768 + 8192 * row + col) 1)) v else v

/-- The defect step: a listed pixel takes the mean of its good horizontal neighbours. -/
def defectStep (bad : Nat → Bool) (vals : List Int) : List Int :=
  vals.zipIdx.map (fun (v, c) =>
    if bad c then
      let side (c' : Nat) : List Int := if c' < vals.length ∧ bad c' = false then [nthD 0 vals c'] else []
      let good := (if c = 0 then [] else side (c - 1)) ++ side (c + 1)
      match good with
      | [x] => x
      | [x, y] => if (x + y) % 2 = 0 then (x + y) / 2 else Config.defectMean good
      | _ => Config.defectMean good
    else v)

/-- One row as it stands in the store: every step of Table Pix-3 in order, then the clamp to 0 to 4,095. -/
def correctRow (s : State) (f : Frame) (row sum : Nat) (raw : List (BitVec 12)) : List Nat :=
  let corr (i : Nat) : Bool := f.exp.mode.getLsbD (20 + i)
  let cal := s.flag Reg.bootStatus 6
  let vals := raw.zipIdx.map (fun (p, c) => pixelSteps s f row c (shieldMean sum) p.toNat)
  let list := s.rdMem (calBody + 32768 + 0x1000000) (s.calLen - 32768 - 0x1000000 - 8192)
  let vals := if corr 3 && cal then defectStep (Config.defective list row) vals else vals
  vals.map (fun v =>
    let i := (clampI 0 4095 v).toNat
    if corr 4 && cal then min 4095 (ofLe (s.rdMem (calBody + s.calLen - 8192 + 2 * i) 2)) else i)

/-- The header of a frame (Table Pix-2). -/
def frameHeader (f : Frame) : List Byte :=
  let flags := f.noDark.toNat + 2 * f.hot.toNat + 4 * f.fallback.toNat + 8 * (decide (f.exp.source = 24)).toNat
  let body := leBytes 8 (f.stamp.toNat / 65536) ++ leBytes 2 f.stamp.toNat ++ leBytes 6 f.pos.toNat
    ++ leBytes 1 f.exp.setup.toNat ++ leBytes 1 f.darkBand.toNat ++ leBytes 1 flags ++ leBytes 1 f.exp.source.toNat
    ++ leBytes 4 f.exp.len.toNat ++ leBytes 4 f.exp.seq.toNat
  body ++ leBytes 4 (crc32c body).toNat

/-- Pixels of columns `x0` to `x0 + nx - 1` of the rows of one rectangle, as 16-bit words row by row (R89). -/
def rectWords (rows : List (Nat × List Nat)) (x0 y0 nx ny : Nat) : List Byte :=
  ((rows.filter (fun r => decide (y0 ≤ r.1 ∧ r.1 < y0 + ny))).map
    (fun r => (((r.2.drop x0).take nx).map (leBytes 2)).flatten)).flatten

/-- The frame's bytes in the store: the header, then its windows one after another. -/
def frameBytes (s : State) (f : Frame) (raw : List (Nat × List (BitVec 12))) : List Byte :=
  let full := !f.exp.mode.getLsbD 0
  let rows := ((rowsRead full f.exp.windows).zip raw).map (fun r => (r.1, correctRow s f r.1 r.2.1 r.2.2))
  frameHeader f ++ (if full then rectWords rows 0 0 8192 2048
    else (f.exp.windows.map (fun w =>
      rectWords rows (32 * bits w.2.1 0 8) (bits w.2.2 0 11) (32 * bits w.2.1 16 9) (bits w.2.2 16 12))).flatten)

/-- A frame's readout ends (R91): the corrected frame stands in the frame buffer of the running weave (R89, R94). -/
def readoutEnd (rows : List (Nat × List (BitVec 12))) (s : State) : State :=
  match s.pix.reading with
  | none => s
  | some f =>
    if s.time.pcyc < f.exp.startAt + f.exp.lenP + f.exp.readP then s
    else
      let s := match s.frameBase f with
        | some base => engineStore 8 base (frameBytes s f rows) s
        | none => s
      { s with pix := { s.pix with reading := none, stored := smSet none s.pix.stored f.exp.setup.toNat (some f) } }

/-- READOUT_END (R91). -/
def execReadoutEnd (rows : List (Nat × List (BitVec 12))) (s : State) : Outcome :=
  .next (if s.fieldOn then readoutEnd rows s else s)

end Sys2Proof.Machine
end

