-- ==== Sys2Proof/Machine/Scratch.lean ====
section
/-!
DEFINITION. Scratch.lean: 08_scratchpad: access kinds and their checks (R154, R155, R160), the slot wheel (R156, R157),
circular regions (R162, R163), check bits, errors and poison (R164-R166, R273), the R slot (R158), the gather buffer
(R159), segment power and the zero fill (R161, R167, R168). Readings: log entries 19 and 68.
-/

namespace Sys2Proof.Machine

/-! ### Faults of the scratchpad -/

/-- A code stands in CORE_SP_ERR; one of another block is latched there too (R170, R353). -/
def spLatch (n : Nat) (c : Code) (s : State) : State :=
  let r := Reg.coreSpErr n
  if errReg c n = some r || s.lowerStands r c then s else s.hwSet r (fun w => putBits w 0 16 c.toNat)

/-- A refused access of a local engine, or an uncorrectable error: a WEAVE fault of the scratchpad (R165, R170). -/
def spFault (n : Nat) (c : Code) (detail : Nat) (s : State) : State :=
  weaveFault ⟨c, 2, 1, BitVec.ofNat 8 n, BitVec.ofNat 64 detail⟩ (spLatch n c s)

/-- The segment of a row is powered (R167). -/
def State.segOn (s : State) (n row : Nat) : Bool := row < 1536 && nbit (s.fld (Reg.coreSpStatus n) 0 12) (row / 128)

/-! ### The wheel -/

/-- Code of a port in a wheel table (Table Scratch-3). -/
def wheelCode : SpPort → Nat
  | .f0 => 1
  | .f1 => 2
  | .f2 => 3
  | .f3 => 4
  | .d => 5
  | .s => 6
  | .v => 7
  | .xi => 8
  | .xo => 9
  | .g => 10
  | .r => 11

/-- PARTITION mode. -/
def State.partitioned (s : State) (n : Nat) : Bool := (s.core n).part

/-- Code of the slot of c-cycle `cycle` in the table of the core, or of a quarter in PARTITION mode. -/
def State.slotCode (s : State) (n : Nat) (q : Option (Fin 4)) (cycle : Nat) : Nat :=
  let k := cycle % 16
  match q with
  | some q => s.fld (if k < 8 then Reg.coreSpQwheelLo n q.val else Reg.coreSpQwheelHi n q.val) (4 * (k % 8)) 4
  | none => s.fld (if k < 8 then Reg.coreSpWheelLo n else Reg.coreSpWheelHi n) (4 * (k % 8)) 4

/-- Key under which the last used slot of the wheel, or of a quarter, is kept. -/
def slotKey (q : Option (Fin 4)) : Nat := match q with
  | some q => q.val
  | none => 4

/-- No access has been made in the slot of c-cycle `cycle` yet. -/
def State.slotFree (s : State) (n : Nat) (q : Option (Fin 4)) (cycle : Nat) : Bool :=
  smGet 0 (s.core n).used (slotKey q) != cycle + 1

/-- The port holds the slot in the table of the core, or of a quarter, and no access has been made in it. -/
def State.holdsSlot (s : State) (n : Nat) (p : SpPort) (q : Option (Fin 4)) (cycle : Nat) : Bool :=
  s.slotCode n q cycle == wheelCode p && s.slotFree n q cycle

/-- The four quarters. -/
def quarters : List (Fin 4) := [0, 1, 2, 3]

/-- The port owns the slot, with no access made in it yet (R157); in PARTITION mode an instruction that names no quarter
needs it in some quarter. -/
def State.ownsSlot (s : State) (n : Nat) (p : SpPort) (q : Option (Fin 4)) (cycle : Nat) : Bool :=
  if s.partitioned n then
    match q with
    | some q => s.holdsSlot n p (some q) cycle
    | none => quarters.any (fun q => s.holdsSlot n p (some q) cycle)
  else s.holdsSlot n p none cycle

/-- The access is made in its slot: at most one is (R157). -/
def useSlot (n : Nat) (p : SpPort) (q : Option (Fin 4)) (cycle : Nat) (s : State) : State :=
  let mark (k : Option (Fin 4)) (s : State) : State :=
    s.setCore n { s.core n with used := smSet 0 (s.core n).used (slotKey k) (cycle + 1) }
  if s.partitioned n then
    match q with
    | some q => mark (some q) s
    | none => (quarters.filter (fun q => s.holdsSlot n p (some q) cycle)).foldl (fun s q => mark (some q) s) s
  else mark none s

/-- Quarters that an access which names none touches, in PARTITION mode (R160): those of the selected chunks. -/
def quartersOf (kind : RKind) : List (Fin 4) := match kind with
  | .rowMasked m => quarters.filter (fun q => (m &&& (0xFF#32 <<< (8 * q.val))) != 0)
  | _ => quarters

/-- An access in PARTITION mode stays in the quarters where its port holds the slot, and no column spans quarters
(R160): 0 or the code. -/
def partVerdict (s : State) (n : Nat) (p : SpPort) (kind : RKind) (q : Option (Fin 4)) (cycle : Nat) : Code :=
  match s.partitioned n, q, kind with
  | true, none, .column _ _ => eSpPartition
  | true, none, k => if (quartersOf k).all (fun q => s.holdsSlot n p (some q) cycle) then 0 else eSpPartition
  | _, _, _ => 0

/-- Whether the wheel lets the port move whole rows, in whatever slots: none without a slot of its own; else 0, or the code
in PARTITION mode, where it needs a slot that it holds in every quarter (R157, R160). -/
def State.portRows (s : State) (n : Nat) (p : SpPort) : Option Code :=
  let any (q : Option (Fin 4)) : Bool := (List.range 16).any (fun k => s.slotCode n q k == wheelCode p)
  if s.partitioned n then
    if (List.range 16).any (fun k => quarters.all (fun q => s.slotCode n (some q) k == wheelCode p)) then some 0
    else if quarters.any (fun q => any (some q)) then some eSpPartition else none
  else if any none then some 0 else none

/-! ### Geometry and data order -/

/-- The element order of a transposed column of `n` chunks (R155): transfer order from row order. -/
def toTransposed {α : Type} (n e : Nat) (l : List α) : List α :=
  ((List.range (n * 16 / e)).map (fun t => (l.drop (16 * (t % n) + e * (t / n))).take e)).flatten

/-- The reverse mapping, for a write (R155). -/
def fromTransposed {α : Type} (n e : Nat) (l : List α) : List α :=
  ((List.range n).map (fun i => ((List.range (16 / e)).map (fun j => (l.drop (e * (j * n + i))).take e)).flatten)).flatten

/-- What an access touches: rows, first byte in each row, bytes of each row; the mask of a masked write; TRANSPOSE. -/
structure SpGeom where
  rows  : List Nat
  lo    : Nat
  len   : Nat
  mask  : Option (BitVec 32)
  trans : Option Nat
  deriving DecidableEq, Repr

/-- Rows of a column: 32, or 8 for a quarter (R154, R160). -/
def colRows (quarter : Bool) : Nat := if quarter then 8 else 32

/-- Checks of R154, R155 and R160 on an access, in that order: 0 or the code. -/
def spVerdict (kind : RKind) (off : Nat) (q : Option (Fin 4)) (write : Bool) : Code :=
  let align : Nat := if q.isSome then 128 else 512
  let inQuarter (o : Nat) : Bool := match q with
    | some q => o % 512 / 128 == q.val
    | none => true
  match kind with
  | .row => if off % align ≠ 0 then eSpAlign else if !inQuarter off then eSpPartition else 0
  | .rowMasked m =>
    if off % 512 ≠ 0 ∨ write = false then eSpAlign
    else match q with
      | some q => if (m &&& ~~~(0xFF#32 <<< (8 * q.val))) ≠ 0 then eSpPartition else 0
      | none => 0
  | .column _ e =>
    if off % 16 ≠ 0 ∨ (e ≠ 1 ∧ e ≠ 2 ∧ e ≠ 4) then eSpAlign
    else if 1535 < off / 512 + colRows q.isSome - 1 then eSpRange
    else if !inQuarter off then eSpPartition else 0

/-- The rows and bytes that an access covers, with its rows given by `row` (a circular region maps them, R163). -/
def spGeom (kind : RKind) (off : Nat) (q : Option (Fin 4)) (row : Nat → Nat) : SpGeom :=
  match kind with
  | .row => ⟨[row 0], if q.isSome then off % 512 else 0, if q.isSome then 128 else 512, none, none⟩
  | .rowMasked m => ⟨[row 0], 0, 512, some m, none⟩
  | .column tr e => ⟨(List.range (colRows q.isSome)).map row, off % 512 / 16 * 16, 16, none, if tr then some e else none⟩

/-! ### Check bits (R162, R164, Table Scratch-4)

The check bits of a word are a function of its data and of the kind of its row, so they are no state of their own: what an
access finds wrong is told by the upsets that come with it. -/

/-- Protection kind of a row: of the enabled region that holds it, GENERAL outside (R162). -/
def State.rowKind (s : State) (n row : Nat) : Nat :=
  match (List.range 32).find? (fun j =>
      let r := Reg.coreSpRgnCfg n j
      s.flag r 31 && decide (s.fld r 0 11 ≤ row ∧ row < s.fld r 0 11 + s.fld r 16 11)) with
  | some j => s.fld (Reg.coreSpRgnCfg n j) 28 2
  | none => 0

/-- Codeword of a row that bit position `p` of an upset belongs to. -/
def codeword (kind p : Nat) : Nat :=
  if kind = 3 then (if p < 4096 then p / 32 else p - 4096)
  else if 4096 ≤ p then (p - 4096) / 8
  else if kind = 1 then 4 * (p / 256) + p % 4
  else p / 64

/-- First data byte and number of bytes that a codeword covers. -/
def codewordBytes (kind w : Nat) : Nat × Nat :=
  if kind = 3 then (4 * w, 4) else if kind = 1 then (32 * (w / 4), 32) else (8 * w, 8)

/-- What a check finds of a codeword with flipped bits. -/
inductive CheckEnd where
  | unseen | corrected | detected
  deriving DecidableEq, Repr

/-- SECDED corrects one bit and detects two; what it makes of more the spec does not say (Config, log entry 68). Even
parity detects an odd number of bits. -/
def checkEnd (kind : Nat) (flips : List Nat) : CheckEnd :=
  if flips.isEmpty then .unseen
  else if kind = 3 then (if flips.length % 2 = 1 then .detected else .unseen)
  else match flips.length with
    | 1 => .corrected
    | 2 => .detected
    | _ => (match Config.eccBeyond kind flips % 3 with
      | 0 => .unseen
      | 1 => .corrected
      | _ => .detected)

/-- What a read of some bytes of a row finds: corrected and uncorrectable errors, the data bits that it delivers flipped,
and the chunks that it marks. -/
structure RowCheck where
  ce    : Bool
  ue    : Bool
  flips : List Nat
  marks : List Nat
  deriving DecidableEq, Repr

/-- A check of `len` bytes from byte `lo` of a row, with these bits flipped: each codeword that the bytes touch (R164). -/
def rowCheck (kind lo len : Nat) (flips : List Nat) : RowCheck :=
  let flips := flips.eraseDups
  let ws := ((flips.map (codeword kind)).eraseDups).filter (fun w =>
    let b := codewordBytes kind w
    decide (b.1 < lo + len ∧ lo < b.1 + b.2))
  let res := ws.map (fun w =>
    let f := flips.filter (fun p => codeword kind p == w)
    (w, f, checkEnd kind f))
  { ce := res.any (fun r => r.2.2 == .corrected),
    ue := res.any (fun r => r.2.2 == .detected),
    flips := ((res.filter (fun r => r.2.2 != .corrected || decide (1 < r.2.1.length))).map (fun r => r.2.1)).flatten,
    marks := ((res.filter (fun r => r.2.2 == .detected)).map (fun r =>
      let b := codewordBytes kind r.1
      [b.1 / 16, (b.1 + b.2 - 1) / 16])).flatten }

/-- A byte at `o` of a row as delivered: its flipped bits, and its mark. -/
def deliver (c : RowCheck) (o : Nat) (x : Byte × Bool) : Byte × Bool :=
  ((List.range 8).foldl (fun b i => if c.flips.contains (8 * o + i) then b ^^^ BitVec.ofNat 8 (2 ^ i) else b) x.1,
   x.2 || c.marks.contains (o / 16))

/-- What a read delivers, in the order of the transfer, and the first rows of its corrected and of its uncorrectable
errors. -/
structure SpRead where
  data : Marked
  ce   : Option Nat
  ue   : Option Nat
  deriving DecidableEq, Repr

/-- Bytes of one row, checked. -/
def rowRead (s : State) (n lo len : Nat) (ups : List SpUpset) (r : Nat) : Marked × Bool × Bool :=
  let l := s.rdMarked (spAddr n (512 * r + lo)) len
  match ups.filter (fun u => u.row.toNat == r) with
  | [] => (l, false, false)
  | us =>
    let c := rowCheck (s.rowKind n r) lo len ((us.map (fun u => u.bits)).flatten)
    (l.zipIdx.map (fun x => deliver c (lo + x.2) x.1), c.ce, c.ue)

/-- The bytes that an access reads, with what their check finds. -/
def spRead (s : State) (n : Nat) (g : SpGeom) (ups : List SpUpset) : SpRead :=
  let rs := g.rows.map (fun r => (r, rowRead s n g.lo g.len ups r))
  let l := (rs.map (fun r => r.2.1)).flatten
  { data := match g.trans with
      | some e => toTransposed g.rows.length e l
      | none => l,
    ce := (rs.find? (fun r => r.2.2.1)).map (fun r => r.1),
    ue := (rs.find? (fun r => r.2.2.2)).map (fun r => r.1) }

/-- The bytes of an access are written with their marks; a mask selects chunks. -/
def spWrite (n : Nat) (g : SpGeom) (data : Marked) (s : State) : State :=
  let l := match g.trans with
    | some e => fromTransposed g.rows.length e data
    | none => data
  match g.mask with
  | some m =>
    let base := spAddr n (512 * nthD 0 g.rows 0)
    (List.range 32).foldl (fun s c =>
      if m.getLsbD c then wrMarked (base + 16 * c) ((l.drop (16 * c)).take 16) s else s) s
  | none =>
    g.rows.zipIdx.foldl (fun s x => wrMarked (spAddr n (512 * x.1 + g.lo)) ((l.drop (g.len * x.2)).take g.len) s) s

/-! ### Errors of a read (R165, R166) -/

/-- A corrected error: counted, and its row is scheduled for write-back unless another is pending (R165, R166). -/
def spCorrected (n row : Nat) (s : State) : State :=
  let s := s.bumpSat (Reg.coreSpCe n) 32 1
  if s.flag (Reg.coreSpCeAddr n) 31 then s
  else s.setReg (Reg.coreSpCeAddr n) (BitVec.ofNat 32 (row + 2 ^ 31))

/-- An uncorrectable error: its row is stored and the weave restarts (R165). -/
def spUncorrectable (n row : Nat) (s : State) : State :=
  spFault n eSpEcc row (s.setReg (Reg.coreSpUeAddr n) (BitVec.ofNat 32 (row + 2 ^ 31)))

/-- The errors that a read finds take effect: it counts the correctable one and raises the fault (R165). -/
def spErrors (n : Nat) (r : SpRead) (s : State) : State :=
  let s := match r.ce with
    | some row => spCorrected n row s
    | none => s
  match r.ue with
  | some row => spUncorrectable n row s
  | none => s

/-! ### The gather buffer (R159) -/

/-- Geometry of a 64-byte block. -/
def blockGeom (b : Nat) : SpGeom := ⟨[64 * b / 512], 64 * b % 512, 64, none, none⟩

/-- The held block goes to the scratchpad. -/
def gWrite (n : Nat) (s : State) : State :=
  match (s.core n).gTag with
  | none => s
  | some b =>
    let s := wrMarked (spAddr n (64 * b)) (s.core n).gBuf s
    s.setCore n { s.core n with gDirty := 0, gFresh := false }

/-- The bytes of the held block that no NARROW access has written are read again before the write-back. -/
def gMergeLoad (n : Nat) (ups : List SpUpset) (s : State) : State :=
  match (s.core n).gTag with
  | none => s
  | some b =>
    let c := s.core n
    let r := spRead s n (blockGeom b) ups
    let buf := (List.zipWith (fun x y => (x, y)) c.gBuf r.data).zipIdx.map (fun x => if c.gDirty.getLsbD x.2 then x.1.1 else x.1.2)
    spErrors n r (s.setCore n { c with gBuf := buf, gFresh := true })

/-- The written bytes of the held block go to the scratchpad. -/
def gFlush (n : Nat) (s : State) : State :=
  if (s.core n).gDirty = 0 then s else gWrite n (gMergeLoad n [] s)

/-- A DMA or COLUMN access of the held block by another port: the block has been written back in the G slot before it. -/
def gBefore (n : Nat) (g : SpGeom) (s : State) : State :=
  match (s.core n).gTag with
  | none => s
  | some b =>
    if g.rows.contains (64 * b / 512) && decide (64 * b % 512 < g.lo + g.len ∧ g.lo < 64 * b % 512 + 64) then gFlush n s else s

/-- The buffer loads a block. -/
def gLoad (n b : Nat) (ups : List SpUpset) (s : State) : State :=
  let r := spRead s n (blockGeom b) ups
  spErrors n r (s.setCore n { s.core n with gTag := some b, gBuf := r.data, gDirty := 0, gFresh := false })

/-- One use of a G slot towards a write-back: a block that NARROW writes do not fill is read and merged first. -/
def gBack (n : Nat) (ups : List SpUpset) (s : State) : State :=
  let c := s.core n
  if c.gFresh || c.gDirty == BitVec.allOnes 64 then gWrite n s else gMergeLoad n ups s

/-- Bytes merge into the gather buffer. -/
def gMerge (n lo cycle : Nat) (data : Marked) (s : State) : State :=
  let c := s.core n
  let buf := c.gBuf.take lo ++ data ++ c.gBuf.drop (lo + data.length)
  s.setCore n { c with gBuf := buf, gFresh := false, gLast := cycle,
                       gDirty := c.gDirty ||| BitVec.ofNat 64 ((2 ^ data.length - 1) * 2 ^ lo) }

/-- A NARROW access of the held block is served. -/
def gServe (n : Nat) (a : SpAccess) (len cycle : Nat) (s : State) : State :=
  let lo := a.offset.toNat % 64
  if a.data.isEmpty then s.emit (.spData n (((s.core n).gBuf.drop lo).take len))
  else gMerge n lo cycle ((a.data.take len).map (fun b => (b, a.bad))) s

/-- The block that the next G slot works on: the held one while its written bytes wait for their write-back, else the
one that a waiting access needs. -/
def gBlock (c : CoreState) : Nat :=
  match c.gWait, c.gTag with
  | some (a, _), some b => if c.gDirty = 0 then a.offset.toNat / 64 else b
  | some (a, _), none => a.offset.toNat / 64
  | none, b => b.getD 0

/-- A G slot: for a waiting access the held block is written back, then the new one loaded and the access served; with
none waiting, a block whose last NARROW write lies more than 16 c-cycles back is written back. -/
def gSlot (n cycle : Nat) (ups : List SpUpset) (s : State) : State :=
  let c := s.core n
  match c.gWait with
  | some (a, len) =>
    if c.gDirty ≠ 0 then gBack n ups s
    else
      let s := gLoad n (a.offset.toNat / 64) ups s
      gServe n a len cycle (s.setCore n { s.core n with gWait := none })
  | none => if c.gDirty ≠ 0 ∧ c.gLast + 16 < cycle then gBack n ups s else s

/-- Quarter of a block, in PARTITION mode. -/
def State.blockQuarter (s : State) (n b : Nat) : Option (Fin 4) :=
  if s.partitioned n then some (Fin.ofNat 4 (64 * b % 512 / 128)) else none

/-- G_WRITEBACK (R159). -/
def gWriteback (n cycle : Nat) (ups : List SpUpset) (s : State) : State :=
  let q := s.blockQuarter n (gBlock (s.core n))
  if !s.weaveActive || !s.ownsSlot n .g q cycle then s else gSlot n cycle ups (useSlot n .g q cycle s)

/-- G_WRITEBACK (R159). -/
def execGWriteback (core : Fin 16) (cycle : Nat) (upsets : List SpUpset) (s : State) : Outcome :=
  .next (gWriteback core.val cycle upsets s)

/-! ### Circular regions (R163) -/

/-- LEN of region `j`. -/
def State.rgnLen (s : State) (n j : Nat) : Nat := s.fld (Reg.coreSpRgnCfg n j) 16 11

/-- Occupancy of region `j`: (TAIL − HEAD) mod 2·LEN. -/
def State.rgnOcc (s : State) (n j : Nat) : Nat :=
  let m := 2 * s.rgnLen n j
  (s.fld (Reg.coreSpRgnTail n j) 0 12 + m - s.fld (Reg.coreSpRgnHead n j) 0 12) % m

/-- Checks of R163 on an access of `rows` rows through a region: 0 or the code. -/
def rgnVerdict (s : State) (n : Nat) (r : RegionRef) (rows : Nat) (write : Bool) : Code :=
  let len := s.rgnLen n r.region.val
  let occ := s.rgnOcc n r.region.val
  if write then
    (if len + r.coAdvance < occ + r.rel + rows ∨ len + r.coAdvance < occ + r.advance then eSpOverrun else 0)
  else if occ + r.coAdvance < r.rel + rows ∨ occ + r.coAdvance < r.advance then eSpUnderrun else 0

/-- The row of position `k` of an access through a region. -/
def rgnRow (s : State) (n : Nat) (r : RegionRef) (write : Bool) (k : Nat) : Nat :=
  let j := r.region.val
  let p := s.fld (if write then Reg.coreSpRgnTail n j else Reg.coreSpRgnHead n j) 0 12 + r.rel + k
  s.fld (Reg.coreSpRgnCfg n j) 0 11 + p % s.rgnLen n j

/-- ADVANCE moves the pointer once the access completes. -/
def rgnAdvance (n : Nat) (r : RegionRef) (write : Bool) (s : State) : State :=
  let reg := if write then Reg.coreSpRgnTail n r.region.val else Reg.coreSpRgnHead n r.region.val
  if r.advance = 0 then s
  else s.setFld reg 0 12 ((s.fld reg 0 12 + r.advance) % (2 * s.rgnLen n r.region.val))

/-! ### Accesses of local engines -/

/-- Rows that an access covers. -/
def kindRows (kind : RKind) (quarter : Bool) : Nat := match kind with
  | .column _ _ => colRows quarter
  | _ => 1

/-- The first check that an access of a local engine fails: 0 or the code (R154, R155, R160, R163, R60, R167). -/
def spJudge (s : State) (n : Nat) (kind : RKind) (off : Nat) (q : Option (Fin 4)) (rg : Option RegionRef) (write : Bool) : Code :=
  let rows := kindRows kind q.isSome
  let c := if 0xC0000 ≤ off then eAddrHole else spVerdict kind off q write
  if c ≠ 0 then c
  else
    let c := match rg with
      | some r => rgnVerdict s n r rows write
      | none => 0
    if c ≠ 0 then c
    else
      let row (k : Nat) : Nat := match rg with
        | some r => rgnRow s n r write k
        | none => off / 512 + k
      if (List.range rows).all (fun k => s.segOn n (row k)) then 0 else eSpSegOff

/-- The geometry of a judged access. -/
def spPlan (s : State) (n : Nat) (kind : RKind) (off : Nat) (q : Option (Fin 4)) (rg : Option RegionRef) (write : Bool) : SpGeom :=
  spGeom kind off q (fun k => match rg with
    | some r => rgnRow s n r write k
    | none => off / 512 + k)

/-! ### DMA -/

/-- A range that lies wholly in one scratchpad or in the store outside the reserved range: 0 or the refusal (R60, R153,
R329); other places are judged elsewhere. -/
def rangeVerdict (s : State) (a len : Nat) : Code :=
  match s.place a with
  | .store => if storeReserved a len then eBootArea else if 0xC0000000 < a + len then eAddrHole else 0
  | .scratch _ off => if 0xC0000 < off + len then eAddrHole else 0
  | .hole => eAddrHole
  | _ => 0

/-- Rows that a range of a scratchpad touches. -/
def rowsOf (off len : Nat) : List Nat := (List.range ((off % 512 + len + 511) / 512)).map (· + off / 512)

/-- Key of row `r` of core `m` among the rows that a core has read. -/
def rowKey (m r : Nat) : Nat := 2048 * m + r

/-- The first row of a range of core `m` that core `n` has not yet read through its R port. -/
def State.rowMissing (s : State) (n m off len : Nat) : Option Nat :=
  (rowsOf off len).find? (fun r => (smGet [] (s.core n).fetched (rowKey m r)).isEmpty)

/-- Core `n` asks for a row of core `m`: one ROW request joins the R queue; with the queue full the engine stalls
(R158). -/
def askRow (n m r : Nat) (s : State) : State :=
  let q : RReq := ⟨.core (Fin.ofNat 16 n), .row, BitVec.ofNat 20 (512 * r), false, 512, []⟩
  let rq := (s.core m).rq
  if rq.contains q || decide (8 ≤ rq.length) then s else queueR m [q] s

/-- Bytes of a range of core `m` as core `n` has read them; zeros where it has not yet. -/
def State.fetchedBytes (s : State) (n m off len : Nat) : Marked :=
  (((rowsOf off len).map (fun r =>
    let l := smGet [] (s.core n).fetched (rowKey m r)
    if l.isEmpty then List.replicate 512 (0, false) else l)).flatten.drop (off % 512)).take len

/-- An engine of core `n` has used what it read of a range of core `m`. -/
def dropFetched (n m off len : Nat) (s : State) : State :=
  s.setCore n { s.core n with fetched := (rowsOf off len).foldl (fun f r => smSet [] f (rowKey m r) []) (s.core n).fetched }

/-- A DMA engine of core `n` can make its access: what it reads of a scratchpad has come through the R port, and what it
writes into one finds room in the R queue (R158). -/
def dmaReady (s : State) (n : Nat) (a : SpAccess) (len : Nat) : Bool :=
  match a.port, a.peer with
  | .xi, some p =>
    (match s.place (s.localAddr p.toNat) with
    | .scratch m off => (s.rowMissing n m off len).isNone
    | _ => true)
  | .xo, some p => s.rRoom (s.localAddr p.toNat) len
  | _, _ => true

/-- A DMA engine that is not ready asks for what it still needs. -/
def dmaWait (n : Nat) (a : SpAccess) (len : Nat) (s : State) : State :=
  match a.port, a.peer with
  | .xi, some p =>
    (match s.place (s.localAddr p.toNat) with
    | .scratch m off => ((rowsOf off len).filter (fun r => (smGet [] (s.core n).fetched (rowKey m r)).isEmpty)).foldl
        (fun s r => askRow n m r s) s
    | _ => s)
  | _, _ => s

/-- What a DMA write into the scratchpad brings from its other end (Table Scratch-3), with its marks. Host memory and
remote windows bring the bytes with the command. -/
def dmaIn (s : State) (n peer len : Nat) (a : SpAccess) : Marked :=
  match s.place peer with
  | .store => s.rdMarked peer len
  | .scratch m off => s.fetchedBytes n m off len
  | _ => a.data.map (fun b => (b, a.bad))

/-- What a DMA read out of the scratchpad does at its other end: the store, a scratchpad through its R port, a remote
window, or host memory, which no core engine may write (R127, R158, R62). -/
def dmaOut (n : Nat) (peer : Nat) (data : Marked) (s : State) : State :=
  let a := s.localAddr peer
  let c := rangeVerdict s a data.length
  if c ≠ 0 then spFault n c a s
  else match s.place a with
    | .store => wrMarked a data s
    | .scratch m off =>
      queueR m ((remoteReqs 0 off data.length (some data)).map (fun q => { q with issuer := .core (Fin.ofNat 16 n) })) s
    | .remote p off => sendLoose (s.mkMarked 3 (BitVec.ofNat 6 p) (BitVec.ofNat 48 off) data) s
    | .host _ => coreHostWrite (BitVec.ofNat 48 a) s
    | .hole => s

/-! ### Accesses in a slot -/

/-- A read of a local engine: errors take effect, the data reach the port or leave by DMA, the pointer moves. -/
def spDoRead (n : Nat) (a : SpAccess) (g : SpGeom) (s : State) : State :=
  let r := spRead s n g a.upsets
  let s := s.emit (.spData n r.data)
  let s := match a.port, a.peer with
    | .xo, some p => dmaOut n p.toNat r.data s
    | _, _ => s
  spErrors n r (match a.region with
    | some r => rgnAdvance n r false s
    | none => s)

/-- A write of a local engine. -/
def spDoWrite (n : Nat) (a : SpAccess) (g : SpGeom) (s : State) : State :=
  let go (data : Marked) (s : State) : State :=
    let s := spWrite n g data s
    match a.region with
    | some r => rgnAdvance n r true s
    | none => s
  match a.port, a.peer with
  | .xi, some p =>
    let peer := s.localAddr p.toNat
    let len := g.rows.length * g.len
    let data := dmaIn s n peer len a
    go data (match s.place peer with
      | .scratch m off => dropFetched n m off len s
      | _ => s)
  | _, _ => go (a.data.map (fun b => (b, a.bad))) s

/-- A write access: it carries data, or it is a DMA into the scratchpad. -/
def spWrites (a : SpAccess) : Bool := !a.data.isEmpty || a.port == .xi

/-- DMA and COLUMN accesses see the gather buffer's written bytes (R159). -/
def spBefore (n : Nat) (a : SpAccess) (kind : RKind) (g : SpGeom) (s : State) : State :=
  match kind with
  | .column _ _ => gBefore n g s
  | _ => if a.port == .xi || a.port == .xo then gBefore n g s else s

/-- The other end of a DMA into the scratchpad is refused (R60, R329): 0 or the code. -/
def peerVerdict (s : State) (a : SpAccess) (len : Nat) : Code :=
  match a.port, a.peer with
  | .xi, some p => rangeVerdict s (s.localAddr p.toNat) len
  | _, _ => 0

/-- An access that a local engine issues in a slot of its port (R157); one that comes through the R port joins its
queue (R158). A refused access is not made and the weave restarts (R170). -/
def spAccess (n : Nat) (a : SpAccess) (kind : RKind) (s : State) : State :=
  let q := if s.partitioned n then a.quarter else none
  if !s.weaveActive then s
  else if a.port = .r then
    (if 8 ≤ (s.core n).rq.length then s
     else queueR n [⟨.steward, kind, a.offset, (spWrites a), 512, a.data.map (fun b => (b, a.bad))⟩] s)
  else if !s.ownsSlot n a.port q a.cycle then s
  else
    let g := spPlan s n kind a.offset.toNat q a.region (spWrites a)
    let len := g.rows.length * g.len
    let c := spJudge s n kind a.offset.toNat q a.region (spWrites a)
    let p := partVerdict s n a.port kind q a.cycle
    let e := peerVerdict s a len
    if c ≠ 0 then spFault n c a.offset.toNat s
    else if p ≠ 0 then spFault n p a.offset.toNat s
    else if e ≠ 0 then spFault n e a.offset.toNat s
    else if !dmaReady s n a len then dmaWait n a len s
    else
      let s := spBefore n a kind g (useSlot n a.port q a.cycle s)
      if (spWrites a) then spDoWrite n a g s else spDoRead n a g s

/-- SP_ROW (R154). -/
def execSpRow (core : Fin 16) (acc : SpAccess) (s : State) : Outcome := .next (spAccess core.val acc .row s)

/-- SP_ROW_MASKED (R154). -/
def execSpRowMasked (core : Fin 16) (acc : SpAccess) (mask : BitVec 32) (s : State) : Outcome :=
  .next (spAccess core.val acc (.rowMasked mask) s)

/-- SP_COLUMN (R155). -/
def execSpColumn (core : Fin 16) (acc : SpAccess) (transpose : Bool) (esize : Nat) (s : State) : Outcome :=
  .next (spAccess core.val acc (.column transpose esize) s)

/-- A NARROW access (R159): only through port G, within one 64-byte block. One whose block the buffer holds is served;
another waits for its G slots, and while it waits the next one stalls its issuer. -/
def spNarrow (n : Nat) (a : SpAccess) (len : Nat) (s : State) : State :=
  let off := a.offset.toNat
  if !s.weaveActive || (s.core n).gWait.isSome then s
  else if a.port ≠ .g ∨ 64 < off % 64 + len ∨ len = 0 then spFault n eSpAlign off s
  else if 0xC0000 ≤ off then spFault n eAddrHole off s
  else if !s.segOn n (off / 512) then spFault n eSpSegOff off s
  else if (s.core n).gTag = some (off / 64) then gServe n a len a.cycle s
  else s.setCore n { s.core n with gWait := some (a, len) }

/-- SP_NARROW (R159). -/
def execSpNarrow (core : Fin 16) (acc : SpAccess) (len : Nat) (s : State) : Outcome := .next (spNarrow core.val acc len s)

/-- No access has been made in the slot: of the core, or in PARTITION mode of any quarter. -/
def State.slotIdle (s : State) (n cycle : Nat) : Bool :=
  if s.partitioned n then quarters.all (fun q => s.slotFree n (some q) cycle) else s.slotFree n none cycle

/-- A corrected row is written back with its corrected data in a slot whose owner issues nothing, and CORE_SP_CE_ADDR
clears (R166). Its read counts errors as any read does; after an uncorrectable one the row is not written back (Table
Scratch-7). -/
def ceWriteback (n cycle : Nat) (ups : List SpUpset) (s : State) : State :=
  let r := Reg.coreSpCeAddr n
  if !s.flag r 31 || !s.slotIdle n cycle then s
  else
    let x := spRead s n ⟨[s.fld r 0 11], 0, 512, none, none⟩ ups
    if x.ue.isSome then spErrors n x s else (spErrors n x s).setReg r 0

/-- CE_WRITEBACK (R166). -/
def execCeWriteback (core : Fin 16) (cycle : Nat) (upsets : List SpUpset) (s : State) : Outcome :=
  .next (ceWriteback core.val cycle upsets s)

/-! ### The R slot -/

/-- The check of a request of the R queue: a remote part of a row needs no row alignment, since its split is
chunk-masked (R158). -/
def rVerdict (s : State) (n : Nat) (q : RReq) : Code :=
  let off := q.offset.toNat
  match q.issuer, q.kind with
  | .steward, k => spJudge s n k off none none q.write
  | _, .row => if 0xC0000 ≤ off then eAddrHole else if s.segOn n (off / 512) then 0 else eSpSegOff
  | _, k => spJudge s n k off none none q.write

/-- The DMA writes of core `n` have all reached their scratchpads: the transfer that made them is complete and signals its
knot (R226). -/
def outDone (n : Nat) (s : State) : State :=
  match (s.core n).outKnot with
  | none => s
  | some k =>
    let mine (q : RReq) : Bool := q.write && q.issuer == .core (Fin.ofNat 16 n)
    if !(s.core n).outq.isEmpty || (List.range 16).any (fun m => (s.core m).rq.any mine) then s
    else signalKnot k.toNat 1 (s.setCore n { s.core n with outKnot := none })

/-- Writes of core `n` that wait enter the R queues where places are free, in order (R158). -/
def pushOut : Nat → Nat → State → State
  | 0, _, s => s
  | f + 1, n, s =>
    match (s.core n).outq with
    | [] => s
    | (m, q) :: rest =>
      if 8 ≤ (s.core m).rq.length then s
      else pushOut f n (queueR m [q] (s.setCore n { s.core n with outq := rest }))

/-- The places that a served request frees are taken by the writes that wait for them. -/
def pushOuts (s : State) : State :=
  (List.range 16).foldl (fun s n => outDone n (pushOut (s.core n).outq.length n s)) s

/-- A refused request: a remote one is counted and answered with WIN_NAK, an inside one returns the code to its issuer,
whose transfer ends (R62, R170). -/
def rRefuse (n : Nat) (q : RReq) (c : Code) (s : State) : State :=
  let s := spLatch n c (latch c n s)
  match q.issuer with
  | .remote p =>
    let s := s.bumpSat Reg.winRefused 32 1
    sendLoose (s.mkLoose 7 p (BitVec.ofNat 48 (spAddr n q.offset.toNat)) c []) s
  | .core m => (s.setCore m.val { s.core m.val with fetched := [], outq := [], outKnot := none }).emit (.issuerCode c)
  | .steward => s.emit (.issuerCode c)

/-- Geometry of a request: a part of one row, or what its kind covers. -/
def rGeom (q : RReq) : SpGeom :=
  let off := q.offset.toNat
  match q.issuer, q.kind with
  | .steward, k => spGeom k off none (fun k => off / 512 + k)
  | _, .row => ⟨[off / 512], off % 512, q.len, none, none⟩
  | _, k => spGeom k off none (fun k => off / 512 + k)

/-- What a request reads reaches its issuer with its marks: a remote package in a WIN_RESP, an engine of a core, or the
steward (R62, R158, R165). -/
def rDeliver (n : Nat) (q : RReq) (data : Marked) (s : State) : State :=
  match q.issuer with
  | .remote p => sendLoose (s.mkMarked 5 p (BitVec.ofNat 48 (spAddr n q.offset.toNat)) data) s
  | .core m => s.setCore m.val { s.core m.val with
      fetched := smSet [] (s.core m.val).fetched (rowKey n (q.offset.toNat / 512)) data }
  | .steward => s.emit (.issuerData data)

/-- A request is served. -/
def rServe (n : Nat) (q : RReq) (ups : List SpUpset) (s : State) : State :=
  let g := rGeom q
  let dma := match q.issuer, q.kind with
    | .core _, _ => true
    | _, .column _ _ => true
    | _, _ => false
  let s := if dma then gBefore n g s else s
  if q.write then spWrite n g q.data s
  else
    let r := spRead s n g ups
    spErrors n r (rDeliver n q r.data s)

/-- The segment of a request is being filled: the request waits (R167). -/
def State.filling (s : State) (n : Nat) : Bool := decide (s.nowNs < (s.core n).fillEnd)

/-- In slot 15 the oldest request of the R queue is served (R158). -/
def rSlotServe (n cycle : Nat) (ups : List SpUpset) (s : State) : State :=
  let c := s.core n
  match c.rq with
  | [] => s
  | q :: rest =>
    if cycle % 16 ≠ 15 || !s.ownsSlot n .r none cycle || (s.filling n && s.segOn n (q.offset.toNat / 512)) then s
    else
      let s := useSlot n .r none cycle (s.setCore n { c with rq := rest })
      let v := rVerdict s n q
      pushOuts (if v ≠ 0 then rRefuse n q v s else rServe n q ups s)

/-- R_SLOT_SERVE (R158). -/
def execRSlotServe (core : Fin 16) (cycle : Nat) (upsets : List SpUpset) (s : State) : Outcome :=
  .next (if s.weaveRuns then rSlotServe core.val cycle upsets s else s)

/-! ### Load and restart -/

/-- Duration of `n` c-cycles at the mean rate, in ns, rounded up (R31, R32). -/
def State.cycleNs (s : State) (n : Nat) : Nat :=
  ceilDiv (80000 * n) (max 1 (s.time.mult.toNat * (2000 - spreadMille s.time.spread)))

/-- The zero fill (R161, R167): powered segments are filled, 128 c-cycles each, the others lose their contents; SEG_ON
follows SEG_EN, and head and tail stand at 0 (R171). -/
def spFill (n : Nat) (s : State) : State :=
  let s := zeroMem (spAddr n 0) 0xC0000 s
  let segs := s.fld (Reg.coreSpCfg n) 16 12
  let s := s.setFld (Reg.coreSpStatus n) 0 12 segs
  let s := s.setCore n { s.core n with fillEnd := s.nowNs + s.cycleNs (128 * popCount 12 segs) }
  (List.range 32).foldl (fun s j => (s.setReg (Reg.coreSpRgnHead n j) 0).setReg (Reg.coreSpRgnTail n j) 0) s

/-- The gather buffer, and what the engines of the core have asked for or wait to write, are discarded (R168). -/
def spDiscard (n : Nat) (s : State) : State :=
  s.setCore n { s.core n with gTag := none, gBuf := [], gDirty := 0, gFresh := false, gLast := 0, gWait := none, used := [],
                              fetched := [], outq := [], outKnot := none }

/-- The answer to the remote requests of a queue that a restart empties (R168). -/
def rDiscard (n : Nat) (s : State) : State :=
  let c := s.core n
  let s := s.setCore n { c with rq := [] }
  c.rq.foldl (fun s q => match q.issuer with
    | .remote p => sendLoose (s.mkLoose 7 p (BitVec.ofNat 48 (spAddr n q.offset.toNat)) eDescRestart []) s
    | _ => s) s

/-- A wheel table obeys R156. -/
def wheelOk (w : Nat) : Bool :=
  (List.range 16).all (fun k => let c := w >>> (4 * k) % 16; if k = 15 then c == 11 else decide (c < 11))

/-- A region set obeys R162: (BASE, LEN, KIND, EN) by region, with the powered segments. -/
def regionsOk (segs : Nat) (l : List (Nat × Nat)) : Bool :=
  l.all (fun r => decide (r.1 % 32 = 0 ∧ r.2 % 32 = 0 ∧ 32 ≤ r.2 ∧ r.1 + r.2 ≤ 1536)
    && (List.range 12).all (fun g => !(decide (128 * g < r.1 + r.2 ∧ r.1 < 128 * g + 128)) || nbit segs g))
  && l.zipIdx.all (fun (r, i) => l.zipIdx.all (fun (t, j) => i == j || decide (r.1 + r.2 ≤ t.1 ∨ t.1 + t.2 ≤ r.1)))

end Sys2Proof.Machine
end

