-- ==== Sys2Proof/Machine/Arrays.lean ====
section
/-!
DEFINITION. Arrays.lean: 09_arrays: feeds (R176), the pass and its checks (R178), its steps, bubbles and front (R175,
R177, R180-R183), drains (R184, R185), the spindle path (R186), and the mode that 11_approximate gives a pass (R204,
R210-R212, R216).
-/

namespace Sys2Proof.Machine

/-! ### The pass word (Table Arrays-6) -/

def pOp (w : BitVec 64) : Nat := bits w 0 4
def pFmt (w : BitVec 64) : Nat := bits w 4 2
/-- FLOW is OS. -/
def pOs (w : BitVec 64) : Bool := w.getLsbD 6
def pChk (w : BitVec 64) : Bool := w.getLsbD 7
def pGang (w : BitVec 64) : Nat := bits w 8 2
def pSel (w : BitVec 64) : Nat := bits w 10 2
def pSgnA (w : BitVec 64) : Bool := w.getLsbD 12
def pSgnB (w : BitVec 64) : Bool := w.getLsbD 13
def pAcc (w : BitVec 64) : Bool := w.getLsbD 14
def pKeep (w : BitVec 64) : Bool := w.getLsbD 15
/-- D. -/
def pDepth (w : BitVec 64) : Nat := bits w 16 6 + 1
/-- Active rows, active columns. -/
def pRows (w : BitVec 64) : Nat := bits w 22 6 + 1
def pCols (w : BitVec 64) : Nat := bits w 28 6 + 1
def pDbuf (w : BitVec 64) : Nat := bits w 34 7
def pApx (w : BitVec 64) : Nat := bits w 41 2
def pFence (w : BitVec 64) : Bool := w.getLsbD 43
/-- FMT is BF16; INT4W. -/
def pBf16 (w : BitVec 64) : Bool := pFmt w == 2
def pInt4 (w : BitVec 64) : Bool := pFmt w == 1

/-! ### Gangs (Table Arrays-4) -/

/-- Arrays of a gang. -/
def gangArrays (g sel : Nat) : List Nat :=
  if g = 1 then [2 * sel, 2 * sel + 1] else if g = 3 then [sel] else [0, 1, 2, 3]

/-- The separate arrays of a pass: four in QUAD, one otherwise, by their (upper left) array. -/
def gangUnits (g sel : Nat) : List Nat :=
  if g = 0 then [0, 1, 2, 3] else if g = 1 then [2 * sel] else if g = 2 then [0] else [sel]

/-- Rows and columns of the gang's shape. -/
def gangRows (g : Nat) : Nat := if g = 1 ∨ g = 2 then 64 else 32
def gangCols (g : Nat) : Nat := if g = 2 then 64 else 32

/-- The array that holds processing element (i, j) of a unit. -/
def peArray (g base i j : Nat) : Nat :=
  if g = 1 then base + i / 32 else if g = 2 then 2 * (j / 32) + i / 32 else base

/-- Arrays of a unit. -/
def unitArrays (g base : Nat) : List Nat := if g = 1 then [base, base + 1] else if g = 2 then [0, 1, 2, 3] else [base]

/-- Arrays in whose drain buffers the results of a row (IS: of any step) land, with the first column of each (R183). -/
def landArrays (g base i : Nat) (os : Bool) : List (Nat × Nat) :=
  let r := if os then i else gangRows g - 1
  if g = 2 then [(peArray g base r 0, 0), (peArray g base r 32, 32)] else [(peArray g base r 0, 0)]

/-- c-cycles from a step into row 0 to its result in the drain buffer (Table Arrays-7). -/
def passLatency (g : Nat) (bf16 : Bool) : Nat :=
  (if g = 1 then 70 else if g = 2 then 71 else 38) + (if bf16 then 6 else 0)

/-! ### Widths (R189) -/

/-- Width of array `a` of core `n`: 0, 31 or 32. -/
def State.arrayWidth (s : State) (n a : Nat) : Nat :=
  match s.fld (Reg.coreArrayStatus n a) 0 2 with
  | 0 => 0
  | 1 => 31
  | _ => 32

/-- The placement that the loader took for this package in the running alternate (R190). -/
def State.placement (s : State) : Option Placement := if s.weaveRuns then s.weave.placed else none

/-- Columns that an array presents to the running weave: a 32-wide array runs class 31 with column 31 bypassed (R189). -/
def State.presented (s : State) (n a : Nat) : Nat :=
  match s.placement with
  | some p => if nthD .unused p.classes (4 * n + a) = .w31 then min 31 (s.arrayWidth n a) else s.arrayWidth n a
  | none => s.arrayWidth n a

/-- Physical column of logical column `j` (R189). -/
def State.physCol (s : State) (n a j : Nat) : BitVec 5 :=
  if s.arrayWidth n a = 31 ∧ s.fld (Reg.coreArrayStatus n a) 8 5 ≤ j then BitVec.ofNat 5 (j + 1) else BitVec.ofNat 5 j

/-- A refused pass, feed, drain or spindle instruction (R179): a WEAVE fault of the array. -/
def arrayFault (n a : Nat) (c : Code) (s : State) : State :=
  weaveFault ⟨c, 2, 0, BitVec.ofNat 8 (4 * n + a), 0⟩ s

/-- Array `a` of core `n`. -/
def State.arr (s : State) (n a : Nat) : ArrayState := (s.core n).array a

/-! ### Results landing in the drain buffers (R183) -/

/-- A result stands in its drain entry: added with ACC, refused when the entry is valid without it. -/
def landOne (n : Nat) (l : Landing) (s : State) : State :=
  let x := s.arr n l.array
  let e := smGet DrainEntry.reset x.drain l.entry
  if e.valid && !l.add then arrayFault n l.array eArrayDrain s
  else
    let vals := if e.valid then List.zipWith (fun a b => if l.fp then fpAdd a b else a + b) e.vals l.vals else l.vals
    let seqs := (if e.valid then e.seqs else []) ++ l.seq.toList
    s.setArray n l.array { x with
      drain := smSet DrainEntry.reset x.drain l.entry ⟨vals, l.fp, true, l.bad || (e.valid && e.poisoned), seqs⟩ }

/-- The results that stand in their drain buffers by c-cycle `c`. -/
def landUpTo (n c : Nat) (s : State) : State :=
  let k := s.core n
  let due := k.landings.filter (fun l => decide (l.cycle ≤ c))
  let s := s.setCore n { k with landings := k.landings.filter (fun l => decide (c < l.cycle)) }
  due.foldl (fun s l => landOne n l s) s

/-! ### Arithmetic of a step (R172-R175) -/

/-- Value of a byte. -/
def byteVal (sgn : Bool) (b : Byte) : Int := if sgn then b.toInt else b.toNat

/-- Value of a nibble. -/
def nibVal (sgn : Bool) (b : Nat) : Int := if sgn then signed 4 b else (b % 16 : Nat)

/-- Per-element term of an operation on two values (Table Arrays-2). -/
def termOf (op : Nat) (a b : Int) : Int :=
  match op with
  | 1 => ((a - b).natAbs : Int)
  | 2 => (a - b) * (a - b)
  | 3 => a + b
  | 4 => a + b
  | 5 => popCount 8 ((codeOf 8 a) ^^^ (codeOf 8 b))
  | _ => a * b

/-- Two partial results reduced. -/
def reduce2 (op : Nat) (x y : Int) : Int :=
  match op with
  | 3 => min x y
  | 4 => max x y
  | _ => x + y

/-- Neutral value of a reduction (R172). -/
def neutral (op : Nat) : Int :=
  match op with
  | 3 => 2147483647
  | 4 => -2147483648
  | _ => 0

/-- An integer reduction modulo 2^32. -/
def reduceInt (op : Nat) (l : List Int) : Word := BitVec.ofInt 32 (l.foldl (reduce2 op) (neutral op))

/-- A BF16 reduction in order of ascending index, from the first product. -/
def reduceFp : List Word → Word
  | [] => 0
  | p :: l => l.foldl fpAdd p

/-- The row entries of a step, with their poison marks. -/
def State.rowEntries (s : State) (n g base : Nat) (w : BitVec 64) : List (BitVec 16 × Bool) :=
  (List.range (pRows w)).map (fun i =>
    let q := smGet [] (s.arr n (peArray g base i 0)).rowq (i % 32)
    let lo := nthD (0, false) q 0
    let hi := if pBf16 w then nthD (0, false) q 1 else (0, false)
    (BitVec.ofNat 16 (lo.1.toNat + 256 * hi.1.toNat), lo.2 || hi.2))

/-- The column entries of a step, in OS. -/
def State.colEntries (s : State) (n g base : Nat) (w : BitVec 64) : List (BitVec 16 × Bool) :=
  (List.range (pCols w)).map (fun j =>
    let q := smGet [] (s.arr n (peArray g base 0 j)).colq (j % 32)
    let lo := nthD (0, false) q 0
    let hi := if pBf16 w then nthD (0, false) q 1 else (0, false)
    (BitVec.ofNat 16 (lo.1.toNat + 256 * hi.1.toNat), lo.2 || hi.2))

/-- Active stationary value of element (i, j). -/
def State.station (s : State) (n g base i j : Nat) : BitVec 16 × Bool :=
  smGet (0, false) (s.arr n (peArray g base i j)).active (32 * (i % 32) + j % 32)

/-- The column of active stationary values of a pass. -/
def State.stationCol (s : State) (n g base : Nat) (w : BitVec 64) (j : Nat) : List (BitVec 16 × Bool) :=
  (List.range (pRows w)).map (fun i => s.station n g base i j)

/-- Low byte of an entry. -/
def lowByte (h : BitVec 16) : Byte := h.setWidth 8

/-- One IS result row: the row entries against the stationary tile (R175). `f` gives the integer value of a row entry. -/
def isRow (s : State) (n g base : Nat) (w : BitVec 64) (f : BitVec 16 → Int) (es : List (BitVec 16 × Bool)) : List Word :=
  (List.range (pCols w)).map (fun j =>
    let xs := s.stationCol n g base w j
    reduceInt (pOp w) (List.zipWith (fun e x => termOf (pOp w) (f e.1) (byteVal (pSgnB w) (lowByte x.1))) es xs))

/-- The result rows of an IS step: one, or two in INT4W. -/
def isRows (s : State) (n g base : Nat) (w : BitVec 64) (es : List (BitVec 16 × Bool)) : List (List Word) :=
  if pBf16 w then
    [(List.range (pCols w)).map (fun j =>
      reduceFp (List.zipWith (fun e x => bf16Mul e.1 x.1) es (s.stationCol n g base w j)))]
  else if pInt4 w then
    [isRow s n g base w (fun h => nibVal (pSgnA w) (bits h 0 4)) es, isRow s n g base w (fun h => nibVal (pSgnA w) (bits h 4 4)) es]
  else [isRow s n g base w (fun h => byteVal (pSgnA w) (lowByte h)) es]

/-- Some operand of an IS step carries poison. -/
def isBad (s : State) (n g base : Nat) (w : BitVec 64) (es : List (BitVec 16 × Bool)) : Bool :=
  es.any (fun e => e.2) || (List.range (pCols w)).any (fun j => (s.stationCol n g base w j).any (fun x => x.2))

/-- An accumulator takes a term in OS; the first step of a pass without ACC starts it. -/
def osAcc (w : BitVec 64) (start : Bool) (old : Word) (a b : BitVec 16) : Word :=
  if pBf16 w then (if start then bf16Mul a b else fpAdd old (bf16Mul a b))
  else
    let t := termOf (pOp w) (byteVal (pSgnA w) (lowByte a)) (byteVal (pSgnB w) (lowByte b))
    BitVec.ofInt 32 (if start then reduce2 (pOp w) (neutral (pOp w)) t else reduce2 (pOp w) old.toInt t)

/-! ### Steps of a pass (R177, R180, R181) -/

/-- Deviation of a result on array `a` (R207-R209): step or row, and column of the array. -/
def errAt (errs : List PassError) (a k j : Nat) : Word :=
  ((errs.filter (fun e => e.array.val == a && e.step == k && e.col == j)).map (fun e => e.err)).foldl (· + ·) 0

/-- The produced results of a row: the exact ones with their deviations. -/
def madeRow (g base : Nat) (os : Bool) (errs : List PassError) (k : Nat) (row : List Word) : List Word :=
  row.zipIdx.map (fun (v, j) => v + errAt errs (peArray g base (if os then k else gangRows g - 1) j) k (j % 32))

/-- Every queue that the step needs holds its entries. -/
def State.stepReady (s : State) (n g base : Nat) (w : BitVec 64) : Bool :=
  let k := if pBf16 w then 2 else 1
  (List.range (pRows w)).all (fun i => k ≤ (smGet [] (s.arr n (peArray g base i 0)).rowq (i % 32)).length)
  && (!pOs w || (List.range (pCols w)).all (fun j => k ≤ (smGet [] (s.arr n (peArray g base 0 j)).colq (j % 32)).length))

/-- A queue set pops `k` entries from every queue; gated rows discard theirs (R182). -/
def popAll (k : Nat) (q : SMap (List (Byte × Bool))) : SMap (List (Byte × Bool)) :=
  (q.map (fun p => (p.1, p.2.drop k))).filter (fun p => !p.2.isEmpty)

/-- The queues of a unit pop the entries of one step: the row queues of its left arrays, in OS the column queues of its
top arrays. -/
def popStep (n g base : Nat) (w : BitVec 64) (s : State) : State :=
  let k := if pBf16 w then 2 else 1
  let left := if g = 1 then [base, base + 1] else if g = 2 then [0, 1] else [base]
  let top := if g = 2 then [0, 2] else [base]
  let s := left.foldl (fun s a => s.setArray n a { s.arr n a with rowq := popAll k (s.arr n a).rowq }) s
  if pOs w then top.foldl (fun s a => s.setArray n a { s.arr n a with colq := popAll k (s.arr n a).colq }) s else s

/-- First row of the gang that array `a` holds (Table Arrays-4). -/
def rowOffset (g a : Nat) : Nat := if (g = 1 ∨ g = 2) ∧ a % 2 = 1 then 32 else 0

/-- A row of an array stands on VARR at c-cycle `c`: the last front that has reached it belongs to a pass in REPLAY or
LOWBIT (R206). -/
def State.rowOnVarr (s : State) (n a i c : Nat) : Bool :=
  match (s.arr n a).fronts.find? (fun f => decide (f.1 + i ≤ c)) with
  | some f => f.2
  | none => false

/-- The front of a pass forms with its first step at c-cycle `c` (R180): the shadow tile becomes active, or the
accumulators start afresh; it reaches row i of an array i c-cycles after its row 0 and switches the row's rail (R206). -/
def formFront (n : Nat) (r : PassRun) (c : Nat) (s : State) : State :=
  let w := r.word
  let g := pGang w
  (unitArrays g r.base).foldl (fun s a =>
    let x := s.arr n a
    let onVarr := r.info.any (fun i => i.1 == a && i.2.2.1 != 0)
    let x := { x with frontEnd := c + gangRows g, fronts := ((c + rowOffset g a, onVarr) :: x.fronts).take 66 }
    s.setArray n a (if pOs w then (if pAcc w then x else { x with acc := [], accX := [] })
      else { x with active := x.shadow, loaded := 0 })) s

/-- The lanes of a drain entry for the columns from `j0`: 32, the gated ones zero (R182). -/
def lanes (row : List Word) (j0 : Nat) : List Word := (List.range 32).map (fun j => nthD 0 row (j0 + j))

/-- SEQ of a pass on array `a`, if its checksums are on. -/
def PassRun.seqOn (r : PassRun) (a : Nat) : Option Word :=
  if r.chk then (r.info.find? (fun i => i.1 == a)).map (fun i => i.2.1) else none

/-- A result row leaves for its drain entry. -/
def sendRow (n : Nat) (r : PassRun) (k at' : Nat) (row : List Word) (bad : Bool) (s : State) : State :=
  let g := pGang r.word
  let c := s.core n
  s.setCore n { c with landings := c.landings ++ (landArrays g r.base k (pOs r.word)).map (fun (a, j0) =>
    ⟨at', a, pDbuf r.word + k, lanes row j0, pBf16 r.word, pAcc r.word, bad, r.seqOn a⟩) }

/-- An IS step: its result rows, produced and sent on their way. -/
def isStep (n : Nat) (r : PassRun) (c : Nat) (s : State) : State × PassRun :=
  let w := r.word
  let g := pGang w
  let es := s.rowEntries n g r.base w
  let rows := isRows s n g r.base w es
  let bad := isBad s n g r.base w es
  let k := r.exact.length
  let made := rows.zipIdx.map (fun (row, i) => madeRow g r.base false r.errs (k + i) row)
  let s := made.zipIdx.foldl (fun s (row, i) => sendRow n r (k + i) (c + passLatency g (pBf16 w)) row bad s) s
  (popStep n g r.base w s, { r with exact := r.exact ++ rows, made := r.made ++ made })

/-- An OS step: every active accumulator takes its term. -/
def osStep (n : Nat) (r : PassRun) (s : State) : State × PassRun :=
  let w := r.word
  let g := pGang w
  let as := s.rowEntries n g r.base w
  let bs := s.colEntries n g r.base w
  let start := r.step == 0 && !pAcc w
  let upd (s : State) (i j : Nat) : State :=
    let a := peArray g r.base i j
    let x := s.arr n a
    let p := 32 * (i % 32) + j % 32
    let e := nthD (0, false) as i
    let f := nthD (0, false) bs j
    let old := smGet (0, false) x.acc p
    s.setArray n a { x with
      acc := smSet (0, false) x.acc p (osAcc w start old.1 e.1 f.1, old.2 || e.2 || f.2),
      accX := smSet 0 x.accX p (osAcc w start (smGet 0 x.accX p) e.1 f.1) }
  let s' := (List.range (pRows w)).foldl (fun s i => (List.range (pCols w)).foldl (fun s j => upd s i j) s) s
  (popStep n g r.base w s', r)

/-- The sum step of an IS pass with CHK set: no queue entry, no drain entry (Table Arrays-8). -/
def sumRows (exact : List (List Word)) (bf16 : Bool) (cols : Nat) : List Word :=
  (List.range cols).map (fun j => (exact.map (fun row => nthD 0 row j)).foldl (if bf16 then fpAdd else (· + ·)) 0)

/-- Sum rows by stream: one, or two in INT4W. -/
def sumStreams (w : BitVec 64) (exact : List (List Word)) : List (List Word) :=
  if pInt4 w then
    [sumRows ((exact.zipIdx.filter (fun p => p.2 % 2 == 0)).map (fun p => p.1)) false (pCols w),
     sumRows ((exact.zipIdx.filter (fun p => p.2 % 2 == 1)).map (fun p => p.1)) false (pCols w)]
  else [sumRows exact (pBf16 w) (pCols w)]

/-- Steps that a pass makes, the sum step included (R181). -/
def passSteps (r : PassRun) : Nat := pDepth r.word + (if r.chk && !pOs r.word then 1 else 0)

/-- The accumulators of an OS pass at its end: exact and produced rows; the produced ones stay in the accumulators. -/
def osEnd (n : Nat) (r : PassRun) (s : State) : State × PassRun :=
  let w := r.word
  let g := pGang w
  let cell (f : ArrayState → Nat → Word) (i j : Nat) : Word := f (s.arr n (peArray g r.base i j)) (32 * (i % 32) + j % 32)
  let row (f : ArrayState → Nat → Word) (i : Nat) : List Word := (List.range (pCols w)).map (fun j => cell f i j)
  let exact := (List.range (pRows w)).map (row (fun x p => smGet 0 x.accX p))
  let made := ((List.range (pRows w)).map (row (fun x p => (smGet (0, false) x.acc p).1))).zipIdx.map
    (fun (l, i) => madeRow g r.base true r.errs i l)
  let s := (List.range (pRows w)).foldl (fun s i => (List.range (pCols w)).foldl (fun s j =>
    let a := peArray g r.base i j
    let x := s.arr n a
    let p := 32 * (i % 32) + j % 32
    s.setArray n a { x with acc := smSet (0, false) x.acc p (nthD 0 (nthD [] made i) j, (smGet (0, false) x.acc p).2) }) s) s
  (s, { r with exact := exact, made := made })

/-- Some accumulator of a row carries poison. -/
def State.accBad (s : State) (n : Nat) (r : PassRun) (i : Nat) : Bool :=
  (List.range (pCols r.word)).any (fun j =>
    (smGet (0, false) (s.arr n (peArray (pGang r.word) r.base i j)).acc (32 * (i % 32) + j % 32)).2)

/-- What the verdicts need of the pass, on the array whose results begin at column `j0` (rows `i0` to `i0 + 31` in OS). -/
def passRec (r : PassRun) (a i0 j0 : Nat) : Option (PassRec × Bool) :=
  match r.info.find? (fun x => x.1 == a) with
  | none => none
  | some (_, seq, mode, k, t) =>
    let cut (l : List (List Word)) : List (List Word) :=
      (if pOs r.word then (l.drop i0).take 32 else l).map (fun row => (row.drop j0).take 32)
    let sums := (sumStreams r.word r.exact).zipIdx.map (fun (row, i) =>
      madeRow (pGang r.word) r.base false r.errs (r.exact.length + i) row)
    some (⟨r.word, seq, mode, k, cut r.exact, cut r.made, if pOs r.word then [] else sums.map (fun row => (row.drop j0).take 32),
      t.getD 0⟩, t.isSome)

/-- The arrays whose results a verdict judges, with first row and column. -/
def verdictArrays (g base : Nat) (os : Bool) : List (Nat × Nat × Nat) :=
  if os then
    (if g = 1 then [(base, 0, 0), (base + 1, 32, 0)]
     else if g = 2 then [(0, 0, 0), (1, 32, 0), (2, 0, 32), (3, 32, 32)] else [(base, 0, 0)])
  else if g = 1 then [(base + 1, 0, 0)] else if g = 2 then [(1, 0, 0), (3, 0, 32)] else [(base, 0, 0)]

/-- A pass ends with its last step at c-cycle `c`: OS rows leave unless KEEP, the arrays hold when they are free, and the
verdicts fall due (R180, R181, R183). -/
def passEnd (n : Nat) (r : PassRun) (c : Nat) (s : State) : State :=
  let w := r.word
  let g := pGang w
  let lat := passLatency g (pBf16 w)
  let (s, r) := if pOs w then osEnd n r s else (s, r)
  let s := if pOs w && !pKeep w then
      (List.range (pRows w)).foldl (fun s i =>
        sendRow n r i (c + lat - (pRows w - 1 - i)) (nthD [] r.made i) (s.accBad n r i) s) s
    else s
  let s := (unitArrays g r.base).foldl (fun s a =>
    s.setArray n a { s.arr n a with lastStep := c, lastDone := c + lat }) s
  (verdictArrays g r.base (pOs w)).foldl (fun s (a, i0, j0) =>
    match passRec r a i0 j0 with
    | none => s
    | some (p, sampled) =>
      let x := s.arr n a
      s.setArray n a { x with chkq := if r.chk && !(pOs w && pKeep w) then x.chkq ++ [p] else x.chkq,
                              tallyq := if sampled then x.tallyq ++ [p] else x.tallyq }) s

/-- One due c-cycle of a pass: a step, the sum step, or a bubble (R177). -/
def passCycle (n : Nat) (r : PassRun) (s : State) : State × PassRun :=
  let w := r.word
  let g := pGang w
  let next := r.due + (if pBf16 w then 4 else 1)
  if pDepth w ≤ r.step then (s, { r with step := r.step + 1, due := next })
  else if !s.stepReady n g r.base w then
    ((unitArrays g r.base).foldl (fun s a => s.bumpSat (Reg.coreArrayBubbles n a) 32 1) s, { r with due := r.due + 1 })
  else
    let s := if r.step = 0 then formFront n r r.due s else s
    let (s, r') := if pOs w then osStep n r s else isStep n r r.due s
    (s, { r' with step := r.step + 1, due := next })

/-- A pass runs on to c-cycle `c`; none once it has ended. -/
def runTo : Nat → Nat → Nat → PassRun → State → State × Option PassRun
  | 0, _, _, r, s => (s, some r)
  | f + 1, n, c, r, s =>
    if c < r.due then (s, some r)
    else
      let due := r.due
      let (s, r) := passCycle n r s
      if r.step = passSteps r then (passEnd n r due s, none) else runTo f n c r s

/-- Every pass of a core runs on to c-cycle `c` (R177). -/
def stepsTo (n c : Nat) (s : State) : State :=
  let runs := (s.core n).runs
  let (s, left) := runs.foldl (fun (p : State × List PassRun) r =>
    let (s, o) := runTo (c + 1 - r.due) n c r p.1
    (s, p.2 ++ o.toList)) (s, [])
  s.setCore n { s.core n with runs := left }

/-- The core stands at c-cycle `c`, with the results of that c-cycle in the drain buffers. -/
def coreTo (n c : Nat) (s : State) : State := landUpTo n c (stepsTo n c s)

/-! ### Mode of a pass (R204, R210, R212) -/

/-- Magnitude of a byte. -/
def byteMag (sgn : Bool) (b : Byte) : Nat := (byteVal sgn b).natAbs

/-- H of tile rows: bytes of magnitude 64 or more. -/
def stressH (sgn : Bool) (rows : List (List Byte)) : Nat :=
  (rows.map (fun r => (r.filter (fun b => 64 ≤ byteMag sgn b)).length)).sum

/-- G of a row: bits that differ between adjacent bytes. -/
def rowG : List Byte → Nat
  | a :: b :: l => popCount 8 (a ^^^ b).toNat + rowG (b :: l)
  | _ => 0

/-- Stress class (Table Approx-2). -/
def stressClass (h g : Nat) : Nat :=
  if h ≤ 64 ∧ g ≤ 2048 then 0 else if h ≤ 256 ∧ g ≤ 4096 then 1 else if h ≤ 512 ∧ g ≤ 6144 then 2 else 3

/-- Active rows and columns of one array of a pass. -/
def activeIn (w : BitVec 64) (a : Nat) : Nat × Nat :=
  let g := pGang w
  let low := g = 1 ∧ a % 2 = 1 ∨ g = 2 ∧ a % 2 = 1
  let right := g = 2 ∧ 2 ≤ a
  (min 32 (if low then pRows w - 32 else pRows w), min 32 (if right then pCols w - 32 else pCols w))

/-- Stress class of a pass on one array: of its stationary tile in IS; in OS, doubled, of the first 16 entries of the row
queues that feed its rows, in WHOLE those of the left arrays; BF16 is always class 3. -/
def State.stress (s : State) (n a : Nat) (w : BitVec 64) : Nat :=
  let x := s.arr n a
  let (rn, cn) := activeIn w a
  if pBf16 w then 3
  else if pOs w then
    let left := if pGang w = 2 then a % 2 else a
    let rows := (List.range rn).map (fun i =>
      let q := smGet [] (s.arr n left).rowq i
      (List.range 16).map (fun k => (nthD (0, false) q k).1))
    stressClass (2 * stressH (pSgnA w) rows) (2 * (rows.map rowG).sum)
  else
    let rows := (List.range rn).map (fun i => (List.range cn).map (fun j => lowByte (smGet (0, false) x.shadow (32 * i + j)).1))
    stressClass (stressH (pSgnB w) rows) (rows.map rowG).sum

/-- VARR slews: n steps settle within n × 100 ns of the beat's start (R205). -/
def State.slewing (s : State) (n : Nat) : Bool :=
  let old := (s.core n).oldStep.toNat
  let new := s.fld (Reg.coreApxStatus n) 0 5
  decide (s.nowNs < s.time.beatStamp.toNat + 100 * ((old - new) + (new - old)))

/-- The step that mode selection uses (R205). -/
def State.stepUsed (s : State) (n : Nat) : Nat :=
  let new := s.fld (Reg.coreApxStatus n) 0 5
  if s.slewing n then max new (s.core n).oldStep.toNat else new

/-- FORCED (R215): until the end of the beat after the verdict's beat. -/
def State.forced (s : State) (n : Nat) : Bool := (s.core n).forcedTo != 0 && decide (s.time.beatNum.toNat ≤ (s.core n).forcedTo)

/-- A limit of the permitted-mode table admits a class; 7 admits none (R211). -/
def admits (limit cls : Nat) : Bool := limit != 7 && decide (cls ≤ limit)

/-- K in force. -/
def State.apxK (s : State) (n : Nat) : Nat := s.fld (Reg.coreApxCfg n) 8 4

/-- Checksums are forced on the core (R188). -/
def State.chkForced (s : State) (n : Nat) : Bool := s.flag (Reg.coreStatus n) 1

/-- The mode of a pass on one array (R204, R212, R216): 0 EXACT, 1 REPLAY, 2 LOWBIT. -/
def State.passMode (s : State) (n a : Nat) (w : BitVec 64) : Fin 3 :=
  let op := pOp w
  if pApx w = 0 then 0
  else if pFence w || s.flag (Reg.coreApxCfg n) (24 + a) then 0
  else if op = 1 ∨ op = 3 ∨ op = 4 ∨ op = 5 then 0
  else if 48 < s.time.mult.toNat || s.forced n || s.chkForced n then 0
  else
    let cls := s.stress n a w
    let e := s.pmtByte (s.fld (Reg.coreApxStatus n) 8 3) (s.stepUsed n)
    if admits (e % 8) cls then 1
    else if !pBf16 w && s.apxK n != 0 && admits (e / 16 % 8) cls then 2 else 0

/-! ### Judging and issuing a pass -/

/-- Drain entries that a pass uses (R178). -/
def passEntries (w : BitVec 64) : Nat := if pOs w then pRows w else if pInt4 w then 2 * pDepth w else pDepth w

/-- A width check of R178 fails on array `a`: more columns active than it presents. -/
def State.tooWide (s : State) (n a : Nat) (w : BitVec 64) : Bool := decide (s.presented n a < (activeIn w a).2)

/-- The first check of R178 that a pass fails at c-cycle `cycle`: 0 or the code. -/
def passVerdict (s : State) (n : Nat) (w : BitVec 64) (cycle : Nat) : Code :=
  let g := pGang w
  let arrays := gangArrays g (pSel w)
  if 5 < pOp w then ePassOp
  else if pFmt w = 3 ∨ (pInt4 w = true ∧ pOs w = true) ∨ (pFmt w ≠ 0 ∧ pOp w ≠ 0) then ePassFormat
  else if (g = 1 ∧ 1 < pSel w) ∨ ((g = 0 ∨ g = 2) ∧ pSel w ≠ 0) then ePassGang
  else if bits w 44 20 ≠ 0 ∨ gangRows g < pRows w ∨ gangCols g < pCols w ∨ 128 < pDbuf w + passEntries w
      ∨ (pKeep w = true ∧ pOs w = false)
      ∨ (pAcc w = true ∧ pOs w = true ∧ arrays.any (fun a => !(s.arr n a).kept) = true) then ePassField
  else if arrays.any (fun a => s.presented n a == 0) then eArrayBad
  else if arrays.any (fun a => s.tooWide n a w) then ePassWidth
  else if 1 < pApx w then ePassMode
  else if (s.core n).runs.any (fun r => (unitArrays (pGang r.word) r.base).any (fun a => arrays.contains a))
      || arrays.any (fun a => let x := s.arr n a
          x.issued && (decide (cycle ≤ x.lastStep) || (x.gang.toNat != g && decide (cycle < x.lastDone)))) then ePassBusy
  else if !pOs w && arrays.any (fun a =>
      let l := (s.arr n a).loaded.toNat
      if pBf16 w then l != 15 else l % 4 != 3) then ePassShadow
  else 0

/-- Array `a` takes part in a pass: SEQ counts, its mode is counted, a candidate may be sampled (R213). -/
def issueOn (n : Nat) (w : BitVec 64) (a : Nat) (s : State) : State × (Nat × Word × Fin 3 × BitVec 4 × Option Nat) :=
  let mode := s.passMode n a w
  let seq := s.reg (Reg.coreArraySeq n a) + 1
  let s := s.setReg (Reg.coreArraySeq n a) seq
  let counter := if mode = 0 then Reg.coreApxNExact n else if mode = 1 then Reg.coreApxNReplay n else Reg.coreApxNLowbit n
  let s := s.setReg counter (s.reg counter + 1)
  let x := s.arr n a
  let sn := s.fld (Reg.coreApxCfg n) 16 5
  let cand := mode ≠ 0
  let sampled := cand ∧ x.cand % 2 ^ sn = s.fld (Reg.coreApxPhase n) 0 16 % 2 ^ sn
  let t := if sampled then some (x.cand / 2 ^ sn % max 1 (s.arrayWidth n a)) else none
  let x := { x with cand := if cand then x.cand + 1 else x.cand, issued := true, gang := BitVec.ofNat 2 (pGang w),
                    kept := pOs w && pKeep w }
  (s.setArray n a x, (a, seq, mode, BitVec.ofNat 4 (s.apxK n), t))

/-- Timing detections on one array (R207, R208): counted; in EXACT one EVENT per core and beat. -/
def detect (n : Nat) (info : List (Nat × Word × Fin 3 × BitVec 4 × Option Nat)) (d : Fin 4 × Nat) (s : State) : State :=
  match info.find? (fun x => x.1 == d.1.val) with
  | none => s
  | some (_, _, mode, _, _) =>
    let s := s.bumpSat (Reg.coreApxReplays n) 32 d.2
    if mode = 0 ∧ d.2 ≠ 0 ∧ (s.core n).exactDetBeat ≠ some s.time.beatNum.toNat then
      postEventAt eApxExactDet n (BitVec.ofNat 128 n)
        (s.setCore n { s.core n with exactDetBeat := some s.time.beatNum.toNat })
    else s

/-- An accepted pass is issued: the units named, each with its word, stream from this c-cycle on. -/
def issueUnits (n : Nat) (w : BitVec 64) (units : List (Nat × BitVec 64)) (cycle : Nat) (errs : List PassError)
    (dets : List (Fin 4 × Nat)) (s : State) : State :=
  let (s, info) := (gangArrays (pGang w) (pSel w)).foldl (fun (p : State × _) a =>
    let (s, i) := issueOn n w a p.1
    (s, p.2 ++ [i])) (s, [])
  let chk := pChk w || s.chkForced n
  let runs := units.map (fun b => (⟨b.2, b.1, cycle, 0, errs, info, chk, [], [], false⟩ : PassRun))
  let s := s.setCore n { s.core n with runs := (s.core n).runs ++ runs }
  coreTo n cycle (dets.foldl (fun s d => detect n info d s) s)

/-- A pass instruction's pass: every unit of its gang runs its word. -/
def passIssue (n : Nat) (w : BitVec 64) (cycle : Nat) (errs : List PassError) (dets : List (Fin 4 × Nat)) (s : State) : State :=
  issueUnits n w ((gangUnits (pGang w) (pSel w)).map (fun b => (b, w))) cycle errs dets s

/-- A pass instruction (R178, R179). -/
def passInstr (n : Nat) (w : BitVec 64) (cycle : Nat) (errs : List PassError) (dets : List (Fin 4 × Nat)) (s : State) : State :=
  if !s.weaveActive then s
  else
    let s := coreTo n cycle s
    let c := passVerdict s n w cycle
    if c ≠ 0 then arrayFault n (nthD 0 (gangArrays (pGang w) (pSel w % 4)) 0) c s else passIssue n w cycle errs dets s

/-- PASS (R178). -/
def execPass (core : Fin 16) (word : BitVec 64) (cycle : Nat) (errs : List PassError) (dets : List (Fin 4 × Nat)) (s : State) :
    Outcome := .next (passInstr core.val word cycle errs dets s)

/-! ### Reads of the sequencer's instructions -/

/-- A row or column of 32 chunks that an instruction reads in a slot, judged as any local access: what the read finds, or
the refusal. -/
def readChunks (s : State) (n : Nat) (p : SpPort) (off : Nat) (column : Bool) (cycle : Nat) (ups : List SpUpset) :
    Except Code SpRead :=
  let kind : RKind := if column then .column false 1 else .row
  let c := spJudge s n kind off none none false
  let q := partVerdict s n p kind none cycle
  if c ≠ 0 then .error c else if q ≠ 0 then .error q
  else .ok (spRead s n (spPlan s n kind off none none false) ups)

/-- The 32 chunks of a read, each with its mark. -/
def SpRead.chunks (r : SpRead) : List (List Byte × Bool) :=
  (List.range 32).map (fun i => let c := (r.data.drop (16 * i)).take 16; (bytesOf c, anyBad c))

/-- The F port of an array. -/
def feedPort (a : Nat) : SpPort := if a = 0 then .f0 else if a = 1 then .f1 else if a = 2 then .f2 else .f3

/-- Arrays that a transfer fills (R176): with BCAST every array of the pass's gang that the issuing array belongs to. -/
def feedArrays (a : Nat) (bcast : Option (Fin 4)) : List Nat :=
  match bcast with
  | some g => gangArrays g.val (if g = 1 then a / 2 else a)
  | none => [a]

/-- A feed (R176): the access, before which a column's block leaves the gather buffer (R159), then the acceptance test `ok`,
then every array it fills takes the chunks. -/
def feed (n a : Nat) (bcast : Option (Fin 4)) (off : Nat) (column : Bool) (cycle : Nat) (ups : List SpUpset) (bad : Code)
    (ok : ArrayState → Bool) (take : List (List Byte × Bool) → ArrayState → ArrayState) (s : State) : State :=
  let p := feedPort a
  if !s.weaveActive || !s.ownsSlot n p none cycle then s
  else
    let s := coreTo n cycle s
    let s := if column then gBefore n (spPlan s n (.column false 1) off none none false) s else s
    match readChunks s n p off column cycle ups with
    | .error c => spFault n c off s
    | .ok r =>
      let arrays := feedArrays a bcast
      if arrays.all (fun b => ok (s.arr n b)) then
        spErrors n r (arrays.foldl (fun s b => s.setArray n b (take r.chunks (s.arr n b))) (useSlot n p none cycle s))
      else arrayFault n a bad s

/-- The 16 entries of each chunk join the queue of its number. -/
def fillQueues (chunks : List (List Byte × Bool)) (q : SMap (List (Byte × Bool))) : SMap (List (Byte × Bool)) :=
  chunks.zipIdx.foldl (fun q (c, i) => smSet [] q i (smGet [] q i ++ c.1.map (fun b => (b, c.2)))) q

/-- FEED_ROWQ (R176). -/
def execFeedRowq (core : Fin 16) (array : Fin 4) (bcast : Option (Fin 4)) (offset : BitVec 20) (column : Bool)
    (cycle : Nat) (upsets : List SpUpset) (s : State) : Outcome :=
  .next (feed core.val array.val bcast offset.toNat column cycle upsets eFeedOverflow (fun x => x.rowq.isEmpty)
    (fun c x => { x with rowq := fillQueues c x.rowq }) s)

/-- FEED_COLQ (R176). -/
def execFeedColq (core : Fin 16) (array : Fin 4) (bcast : Option (Fin 4)) (offset : BitVec 20) (column : Bool)
    (cycle : Nat) (upsets : List SpUpset) (s : State) : Outcome :=
  .next (feed core.val array.val bcast offset.toNat column cycle upsets eFeedOverflow (fun x => x.colq.isEmpty)
    (fun c x => { x with colq := fillQueues c x.colq }) s)

/-- Chunk i fills shadow row i: columns 16n to 16n + 15 in INT8, 8n to 8n + 7 in BF16 (Table Arrays-5). -/
def loadShadow (blk : Nat) (bf16 : Bool) (chunks : List (List Byte × Bool)) (x : ArrayState) : ArrayState :=
  let vals (c : List Byte) : List (BitVec 16) :=
    if bf16 then (List.range 8).map (fun k => BitVec.ofNat 16 (leAt c (2 * k) 2)) else c.map (fun b => b.setWidth 16)
  let shadow := chunks.zipIdx.foldl (fun m (c, i) =>
    smSetAll (0, false) m (32 * i + (if bf16 then 8 else 16) * blk) ((vals c.1).map (fun v => (v, c.2)))) x.shadow
  { x with shadow := shadow, loaded := x.loaded ||| BitVec.ofNat 4 (2 ^ blk) }

/-- FEED_LOAD (R176, R180): refused while a front is in transit. -/
def execFeedLoad (core : Fin 16) (array : Fin 4) (bcast : Option (Fin 4)) (n : Fin 4) (bf16 : Bool) (offset : BitVec 20)
    (column : Bool) (cycle : Nat) (upsets : List SpUpset) (s : State) : Outcome :=
  if !bf16 && 2 ≤ n.val then .next s
  else .next (feed core.val array.val bcast offset.toNat column cycle upsets eFeedShadow (fun x => decide (x.frontEnd ≤ cycle))
    (loadShadow n.val bf16) s)

/-! ### Drains (R184, R185) -/

/-- Entries of a row in an output format: 4, 4, 8 or 16. -/
def drainCap (f : Fin 4) : Nat := if f = 2 then 8 else if f = 3 then 16 else 4

/-- The value of a requantised result under a set word: MUL, SH, ZP. -/
def requant (w acc : Word) : Byte :=
  let mul : Int := signed 16 (bits w 0 16)
  let sh := bits w 16 5
  let rnd : Int := if sh = 0 then 0 else 2 ^ (sh - 1)
  BitVec.ofInt 8 (clampI (-128) 127 ((acc.toInt * mul + rnd) / 2 ^ sh + signed 8 (bits w 24 8)))

/-- Bytes of a drain entry in an output format; lanes from `lanes` on are written as zero. -/
def drainBytes (c : CoreState) (i : DrainInstr) (lanes : Nat) (e : DrainEntry) : List Byte :=
  match i.format.val with
  | 2 => (e.vals.map (fun v => leBytes 2 (bf16Down v).toNat)).flatten
  | 3 => e.vals.zipIdx.map (fun (v, j) => if j < lanes then requant (smGet 0 c.qsets (32 * i.qset.val + j)) v else 0)
  | _ => (e.vals.map (fun v => leBytes 4 v.toNat)).flatten

/-- The checks of a drain: 0 or the code. -/
def drainVerdict (s : State) (n : Nat) (i : DrainInstr) : Code :=
  let es := smGetAll DrainEntry.reset (s.arr n i.array.val).drain i.first i.count
  let fpOut := i.format = 1 ∨ i.format = 2
  if drainCap i.format < i.count ∨ 128 < i.first + i.count then eDrainField
  else if es.any (fun e => e.valid && (e.fp != decide fpOut)) then eDrainField
  else 0

/-- Chunks of its row that a drain writes: those of its valid entries (R184). -/
def drainMask (s : State) (n : Nat) (i : DrainInstr) : BitVec 32 :=
  let per := 32 / drainCap i.format
  BitVec.ofNat 32 (((List.range i.count).map (fun k =>
    if (smGet DrainEntry.reset (s.arr n i.array.val).drain (i.first + k)).valid then (2 ^ per - 1) * 2 ^ (per * k) else 0)).sum)

/-- A drain writes the valid entries of its row, chunk-masked, and they become not valid (R184); what stays to be judged by
a checksum verdict is remembered with its place (R188). -/
def drainRow (n : Nat) (i : DrainInstr) (lanes : Nat) (s : State) : State :=
  let size := 512 / drainCap i.format
  (List.range i.count).foldl (fun s k =>
    let x := s.arr n i.array.val
    let e := smGet DrainEntry.reset x.drain (i.first + k)
    if e.valid then
      let a := spAddr n (i.offset.toNat + size * k)
      wrMemP a (drainBytes (s.core n) i lanes e) e.poisoned
        (s.setArray n i.array.val { x with
          drain := smSet DrainEntry.reset x.drain (i.first + k) DrainEntry.reset,
          drained := if e.seqs.isEmpty then x.drained else x.drained ++ [(e.seqs, a, size)] })
    else s) s

/-- A drain instruction (R184): it takes the values as they stood before the results of its c-cycle (Table
Arrays-13). -/
def drainInstr (n : Nat) (i : DrainInstr) (s : State) : State :=
  if !s.weaveActive || !s.ownsSlot n .d none i.cycle then s
  else
    let s := landUpTo n (i.cycle - 1) (stepsTo n i.cycle s)
    let c := spJudge s n .row i.offset.toNat none none true
    let q := partVerdict s n .d (.rowMasked (drainMask s n i)) none i.cycle
    if c ≠ 0 then spFault n c i.offset.toNat s
    else if q ≠ 0 then spFault n q i.offset.toNat s
    else
      let c := drainVerdict s n i
      if c ≠ 0 then arrayFault n i.array.val c s
      else landUpTo n i.cycle (drainRow n i 32 (useSlot n .d none i.cycle s))

/-- DRAIN (R184). -/
def execDrain (core : Fin 16) (i : DrainInstr) (s : State) : Outcome := .next (drainInstr core.val i s)

/-- A row that an instruction of the D or S port reads in its slot (R185, R186): outside it the engine waits; a refused
access restarts the weave; then `k` takes what was read. -/
def onRow (n : Nat) (p : SpPort) (off cycle : Nat) (ups : List SpUpset) (k : SpRead → State → State) (s : State) : State :=
  if !s.weaveActive || !s.ownsSlot n p none cycle then s
  else match readChunks s n p off false cycle ups with
    | .error c => spFault n c off s
    | .ok r => spErrors n r (k r (useSlot n p none cycle s))

/-- QLOAD fills sets 4p to 4p + 3 from one row in a D slot (R185). -/
def qload (n p off cycle : Nat) (ups : List SpUpset) (s : State) : State :=
  onRow n .d off cycle ups (fun r s =>
    let l := bytesOf r.data
    let ws := (List.range 128).map (fun k => BitVec.ofNat 32 (leAt l (4 * k) 4))
    if ws.any (fun w => bits w 21 3 != 0) then arrayFault n 0 eDrainField s
    else
      let c := s.core n
      s.setCore n { c with qsets := smSetAll 0 c.qsets (128 * p) ws }) s

/-- QLOAD (R185). -/
def execQload (core : Fin 16) (p : Fin 2) (offset : BitVec 20) (cycle : Nat) (upsets : List SpUpset) (s : State) :
    Outcome := .next (qload core.val p.val offset.toNat cycle upsets s)

/-! ### The spindle path (R186) -/

/-- A spindle instruction is refused before its access is made, if a field is out of range. -/
def onSpindle (n : Nat) (bad : Bool) (cycle : Nat) (k : State → State) (s : State) : State :=
  if !s.weaveActive || !s.ownsSlot n .s none cycle then s
  else if bad then arrayFault n 0 eSpindleField s else k s

/-- XLOAD reads one row into the vector register. -/
def xload (n off fmt cycle : Nat) (ups : List SpUpset) (s : State) : State :=
  onSpindle n (fmt != 0) cycle (onRow n .s off cycle ups (fun r s =>
    s.setCore n { s.core n with xvec := bytesOf r.data, xbad := anyBad r.data })) s

/-- XLOAD (R186). -/
def execXload (core : Fin 16) (offset : BitVec 20) (format : Nat) (cycle : Nat) (upsets : List SpUpset) (s : State) :
    Outcome := .next (xload core.val offset.toNat format cycle upsets s)

/-- The accumulator of SDOT with the dot product of one row with the vector register added. -/
def sdotSum (c : CoreState) (i : SdotInstr) (row : Marked) : Word × Bool :=
  let dot := (List.zipWith (fun a b => byteVal i.sgnW a * byteVal i.sgnX b) (bytesOf row) c.xvec).foldl (· + ·) 0
  let old := if i.init then (0, false) else smGet (0, false) c.sacc i.idx
  (BitVec.ofInt 32 (old.1.toInt + dot), old.2 || c.xbad || anyBad row)

/-- SDOT adds the dot product of one row with the vector register into accumulator IDX. -/
def sdot (n : Nat) (i : SdotInstr) (s : State) : State :=
  onSpindle n (i.format != 0 || decide (511 < i.idx)) i.cycle (onRow n .s i.offset.toNat i.cycle i.upsets (fun r s =>
    let c := s.core n
    s.setCore n { c with sacc := smSet (0, false) c.sacc i.idx (sdotSum c i r.data) })) s

/-- SDOT (R186). -/
def execSdot (core : Fin 16) (i : SdotInstr) (s : State) : Outcome := .next (sdot core.val i s)

/-- SOUT writes accumulators 128p to 128p + 127 as one row of int32. -/
def sout (n p off fmt cycle : Nat) (s : State) : State :=
  onSpindle n (fmt != 0 || decide (3 < p)) cycle (fun s =>
    let c := spJudge s n .row off none none true
    let q := partVerdict s n .s .row none cycle
    if c ≠ 0 then spFault n c off s
    else if q ≠ 0 then spFault n q off s
    else
      let vs := smGetAll (0, false) (s.core n).sacc (128 * p) 128
      wrMarked (spAddr n off) ((vs.map (fun v => (leBytes 4 v.1.toNat).map (fun b => (b, v.2)))).flatten)
        (useSlot n .s none cycle s)) s

/-- SOUT (R186). -/
def execSout (core : Fin 16) (p : Nat) (offset : BitVec 20) (format : Nat) (cycle : Nat) (s : State) : Outcome :=
  .next (sout core.val p offset.toNat format cycle s)

end Sys2Proof.Machine
end

