-- ==== Sys2Proof/Machine/Approx.lean ====
section
/-!
DEFINITION. Approx.lean: the verdicts over a pass: checksums (R188), the shadow tally (R213-R215), and what a beat start
does to the array rail and the band of each core (R205, R211); APXSET (R217).
-/

namespace Sys2Proof.Machine

/-! ### APXSET -/

/-- K codes that R217 admits: 0, or 4 to 10. -/
def kOk (k : Nat) : Bool := k == 0 || (4 ≤ k && k ≤ 10)

/-- APXSET writes K while the weave runs; a refused one restarts the weave (R217, R179). -/
def apxset (n k : Nat) (s : State) : State :=
  if !s.weaveActive then s
  else if kOk k then s.setFld (Reg.coreApxCfg n) 8 4 k else arrayFault n 0 eApxK s

/-- APXSET (R217). -/
def execApxset (core : Fin 16) (k : BitVec 4) (s : State) : Outcome := .next (apxset core.val k.toNat s)

/-! ### Checksums (R188, Table Arrays-8) -/

/-- A signed difference of two words. -/
def wordDiff (a b : Word) : Int := (a - b).toInt

/-- A sum check on integers fails: not zero, or in LOWBIT beyond 33 × 2^k. -/
def sumFails (p : PassRec) (d : Int) : Bool :=
  if p.mode = 2 then decide ((33 * 2 ^ p.k.toNat : Int) < (d.natAbs : Int)) else d != 0

/-- A BF16 check of results against their check values fails: beyond 2^-14 of the magnitudes compared. -/
def fpFails (made exact : List Word) : Bool :=
  if made = exact then false
  else if (made ++ exact).any (fun w => fpIsNaN w || fpIsInf w) then true
  else
    let d := (made.map fpVal).foldl (· + ·) 0 - (exact.map fpVal).foldl (· + ·) 0
    decide ((made.map fpMag).sum < d.natAbs * 2 ^ 14)

/-- A check over a line of results fails. -/
def lineFails (p : PassRec) (made exact : List Word) : Bool :=
  if pBf16 p.word then fpFails made exact
  else sumFails p (wordDiff (made.foldl (· + ·) 0) (exact.foldl (· + ·) 0))

/-- Column `j` of rows. -/
def column (rows : List (List Word)) (j : Nat) : List Word := rows.map (fun r => nthD 0 r j)

/-- The rows of one stream: in INT4W the even or the odd results. -/
def streamRows (w : BitVec 64) (i : Nat) (rows : List (List Word)) : List (List Word) :=
  if pInt4 w then (rows.zipIdx.filter (fun p => p.2 % 2 == i)).map (fun p => p.1) else rows

/-- Column `j` fails the row check of a MAC pass: in IS against the sum step, in OS against the exact accumulators. -/
def rowCheckFails (p : PassRec) (j : Nat) : Bool :=
  if pOs p.word then lineFails p (column p.made j) (column p.exact j)
  else p.sums.zipIdx.any (fun (sum, i) =>
    let made := column (streamRows p.word i p.made) j
    if pBf16 p.word then
      (made != column p.exact j || nthD 0 sum j != nthD 0 (sumRows p.exact true (j + 1)) j) && fpFails made [nthD 0 sum j]
    else sumFails p (wordDiff (made.foldl (· + ·) 0) (nthD 0 sum j)))

/-- The outcome of a checksum verdict: whether a check failed, and the logical column that the failed checks localise. -/
def checksumOf (s : State) (n a : Nat) (p : PassRec) : Bool × Option Nat :=
  let cols := (nthD [] p.made 0).length
  if pOp p.word ≠ 0 then
    let c := p.seq.toNat % max 1 (s.arrayWidth n a)
    if c < cols ∧ column p.made c ≠ column p.exact c then (true, some c) else (false, none)
  else
    let colBad := (List.zipWith (fun m e => lineFails p m e) p.made p.exact).any id
    let bad := (List.range cols).filter (fun j => rowCheckFails p j)
    (colBad || !bad.isEmpty, match bad with
      | [j] => some j
      | _ => none)

/-- The chunks of a range carry poison (R273). -/
def markPoison (a n : Nat) (s : State) : State :=
  { s with poison := (chunks a n).foldl (fun m c => smSet false m c true) s.poison }

/-- The verdict of a pass has been given: what it made no longer waits for it. -/
def settlePass (n a : Nat) (seq : Word) (s : State) : State :=
  let c := s.core n
  let s := s.setCore n { c with landings := c.landings.map (fun l =>
    if l.array = a ∧ l.seq = some seq then { l with seq := none } else l) }
  let x := s.arr n a
  s.setArray n a { x with
    drain := x.drain.map (fun e => (e.1, { e.2 with seqs := e.2.seqs.filter (fun q => q != seq) })),
    drained := (x.drained.map (fun d => (d.1.filter (fun q => q != seq), d.2))).filter (fun d => !d.1.isEmpty) }

/-- The results of a pass are poisoned: those on their way, those in the drain buffer, and those already drained (R188). -/
def poisonResults (n a : Nat) (p : PassRec) (s : State) : State :=
  let c := s.core n
  let s := s.setCore n { c with landings := c.landings.map (fun l =>
    if l.array = a ∧ l.seq = some p.seq then { l with bad := true } else l) }
  let x := s.arr n a
  let s := s.setArray n a { x with drain := x.drain.map (fun e =>
    if e.2.seqs.contains p.seq then (e.1, { e.2 with poisoned := true }) else e) }
  x.drained.foldl (fun s d => if d.1.contains p.seq then markPoison d.2.1 d.2.2 s else s) s

/-- A failed checksum: counted, recorded with array, SEQ and column, the results poisoned, and the weave restarts. -/
def checksumFault (n a : Nat) (p : PassRec) (col : Option Nat) (s : State) : State :=
  let phys := col.map (fun j => s.physCol n a j)
  let s := s.bumpSat (Reg.coreArrayChkCnt n a) 16 1
  let cv := match phys with
    | some c => c.toNat * 4 + 128
    | none => 0
  let s := s.setReg (Reg.coreFaultPass n) (BitVec.ofNat 32 (a + cv + p.seq.toNat * 256))
  let s := poisonResults n a p s
  let s := { s with fault := { s.fault with implicated := s.fault.implicated ++ [(4 * n + a, phys)] } }
  arrayFault n a eArrayChecksum s

/-- The checksum verdict of the oldest pass that waits for it (R188); a failed check discards the pass's tally verdict
(Table Approx-5). -/
def checksumVerdict (n a : Nat) (s : State) : State :=
  let x := s.arr n a
  match x.chkq with
  | [] => s
  | p :: rest =>
    if !s.weaveRuns then s
    else
      let (bad, col) := checksumOf s n a p
      if bad then
        settlePass n a p.seq
          (checksumFault n a p col (s.setArray n a { x with chkq := rest, tallyq := x.tallyq.filter (fun t => t.seq != p.seq) }))
      else settlePass n a p.seq (s.setArray n a { x with chkq := rest })

/-- CHECKSUM_VERDICT (R188). -/
def execChecksumVerdict (core : Fin 16) (array : Fin 4) (s : State) : Outcome := .next (checksumVerdict core.val array.val s)

/-! ### The shadow tally (R213-R215) -/

/-- |e| of the compared results of a sampled pass. -/
def tallyErrors (p : PassRec) : List Nat :=
  List.zipWith (fun m e => (wordDiff m e).natAbs) (column p.made p.tcol) (column p.exact p.tcol)

/-- Results that count as escapes (R214). -/
def tallyEscapes (p : PassRec) : Nat :=
  (List.zipWith (fun (m e : Word) => if p.mode = 2 then m.toNat / 2 ^ p.k.toNat != e.toNat / 2 ^ p.k.toNat else m != e)
    (column p.made p.tcol) (column p.exact p.tcol)).countP id

/-- The statistics of a verdict (R214). -/
def tallyStats (n a : Nat) (p : PassRec) (s : State) : State :=
  let es := tallyErrors p
  let esc := tallyEscapes p
  let s := s.setReg (Reg.coreApxTallyCnt n) (s.reg (Reg.coreApxTallyCnt n) + 1)
  let s := s.bumpSat (Reg.coreApxTallyEsc n) 32 esc
  let s := s.setReg (Reg.coreApxTallyLast n)
    (BitVec.ofNat 32 (min 65535 (es.foldl max 0) + a * 2 ^ 16 + p.mode.val * 2 ^ 18))
  let mean := 16 * es.sum / max 1 es.length
    + (if 16 * es.sum % max 1 es.length ≠ 0 ∧ Config.tallyUp es.sum es.length = true then 1 else 0)
  let s := if p.mode = 2 then s.setFld (Reg.coreApxTallyMean n) 0 16 mean else s
  s.setCore n { s.core n with escBeat := (s.core n).escBeat + esc }

/-- The bound of R215 is exceeded. -/
def boundExceeded (s : State) (n : Nat) (p : PassRec) : Bool :=
  let es := tallyErrors p
  decide (s.fld (Reg.coreApxEbound n) 0 8 < (s.core n).escBeat)
  || (decide (p.mode = 2) && decide (s.fld (Reg.coreApxEbound n) 8 8 * 2 ^ p.k.toNat * es.length < 256 * es.sum))

/-- A verdict beyond the bound forces EXACT to the end of the next beat, raises BACKOFF if nothing was forced, and posts
E_APX_BOUND (R215). -/
def forceExact (n a : Nat) (p : PassRec) (s : State) : State :=
  let was := s.forced n
  let s := s.setCore n { s.core n with forcedTo := s.time.beatNum.toNat + 1 }
  let s := if was then s else s.setFld (Reg.coreApxCap n) 8 5 (min 31 (s.fld (Reg.coreApxCap n) 8 5 + 1))
  let s := s.bumpSat (Reg.coreApxForces n) 16 1
  postEventAt eApxBound n
    (BitVec.ofNat 128 (n + a * 2 ^ 8 + p.seq.toNat * 2 ^ 16 + s.beat * 2 ^ 48)) s

/-- The tally verdict of the oldest sampled pass that waits for it. -/
def tallyVerdict (n a : Nat) (s : State) : State :=
  let x := s.arr n a
  match x.tallyq with
  | [] => s
  | p :: rest =>
    let s := tallyStats n a p (s.setArray n a { x with tallyq := rest })
    if boundExceeded s n p then forceExact n a p s else s

/-- TALLY_VERDICT (R215). -/
def execTallyVerdict (core : Fin 16) (array : Fin 4) (s : State) : Outcome := .next (tallyVerdict core.val array.val s)

/-! ### Beat start -/

/-- The band that T, in 0.1 degree, gives by itself (R211). -/
def coreBandRaw (t : Int) : Nat := min 7 ((t - 350) / 100).toNat

/-- The band moves down only once T lies 1 degree below the lower edge of the current band (R211). -/
def coreBandDown (t : Int) (raw : Nat) : Nat → Nat
  | 0 => 0
  | b + 1 => if raw < b + 1 ∧ t ≤ 340 + 100 * ((b : Int) + 1) then coreBandDown t raw b else b + 1

/-- Sensor n div 2 of the logic die, in 0.1 degree. -/
def State.coreTemp (s : State) (n : Nat) : Int := signed 16 (s.fld (Reg.thermL (n / 2)) 0 16)

/-- At a beat start a core latches its band and applies its step (R205, R211), and the beat's escapes start afresh. -/
def coreBeat (n : Nat) (s : State) : State :=
  let old := s.fld (Reg.coreApxStatus n) 0 5
  let step := min (s.fld (Reg.coreApxCfg n) 0 5) (s.fld (Reg.coreApxCap n) 0 5) - s.fld (Reg.coreApxCap n) 8 5
  let t := s.coreTemp n
  let band := coreBandDown t (coreBandRaw t) (max (s.fld (Reg.coreApxStatus n) 8 3) (coreBandRaw t))
  let s := (s.setFld (Reg.coreApxStatus n) 0 5 step).setFld (Reg.coreApxStatus n) 8 3 band
  s.setCore n { s.core n with oldStep := BitVec.ofNat 5 old, escBeat := 0 }

/-- Every core at a beat start. -/
def coresBeat (s : State) : State := (List.range 16).foldl (fun s n => coreBeat n s) s

/-- The pipelines of a core are empty, as a load or a restart leaves them (R168). -/
def corePipelinesClear (n : Nat) (s : State) : State :=
  let c := s.core n
  let wipe (x : ArrayState) : ArrayState := { ArrayState.reset with cand := x.cand }
  s.setCore n { c with arrays := (c.arrays.map (fun p => (p.1, wipe p.2))).filter (fun p => p.2 != ArrayState.reset),
                       runs := [], landings := [], qsets := [], xvec := [], xbad := false, sacc := [], conv := none }

end Sys2Proof.Machine
end

