-- ==== Sys2Proof/Machine/Aes.lean ====
section
/-!
DEFINITION. Aes.lean: AES-256 (FIPS 197) and its Galois/Counter Mode with 96-bit nonces (SP 800-38D), the standards that
the text names for adapter blobs (R240) and parked contexts (R257).
-/

namespace Sys2Proof.Machine

/-- Multiplication by x in the field of FIPS 197. -/
def xtime (b : Byte) : Byte := if b.getLsbD 7 then (b <<< 1) ^^^ 0x1B else b <<< 1

/-- Multiplication in the field, over the `n` low bits of `b`. -/
def gfMul : Nat → Byte → Byte → Byte
  | 0, _, _ => 0
  | n + 1, a, b => (if b.getLsbD 0 then a else 0) ^^^ gfMul n (xtime a) (b >>> 1)

/-- Repeated squaring and multiplication: with `n = 7` and `a = b` it gives the inverse `a^254`. -/
def gfInvStep (a : Byte) : Nat → Byte → Byte
  | 0, acc => acc
  | n + 1, acc =>
    let sq := gfMul 8 acc acc
    gfInvStep a n (if n = 0 then sq else gfMul 8 sq a)

/-- The substitution of one byte. -/
def subByte (b : Byte) : Byte :=
  let i := gfInvStep b 7 b
  i ^^^ i.rotateLeft 1 ^^^ i.rotateLeft 2 ^^^ i.rotateLeft 3 ^^^ i.rotateLeft 4 ^^^ 0x63

/-- Byte-wise exclusive or. -/
def xorBytes (a b : List Byte) : List Byte := List.zipWith (· ^^^ ·) a b

/-- The key schedule: `n` further words after those in `ws`, newest word first. -/
def keyWords : Nat → Nat → Byte → List (List Byte) → List (List Byte)
  | 0, _, _, ws => ws
  | n + 1, i, rc, ws =>
    let prev := ws.headD []
    let old := nthD [] ws 7
    if i % 8 = 0 then
      let t := (prev.drop 1 ++ prev.take 1).map subByte
      keyWords n (i + 1) (xtime rc) (xorBytes old (xorBytes t [rc, 0, 0, 0]) :: ws)
    else if i % 8 = 4 then keyWords n (i + 1) rc (xorBytes old (prev.map subByte) :: ws)
    else keyWords n (i + 1) rc (xorBytes old prev :: ws)

/-- Four bytes as one word. -/
def fourBytes : Nat → List Byte → List (List Byte)
  | 0, _ => []
  | n + 1, l => l.take 4 :: fourBytes n (l.drop 4)

/-- The 15 round keys of a 32-byte key, in order. -/
def roundKeys (key : List Byte) : List (List Byte) :=
  let ws := (keyWords 52 8 1 (fourBytes 8 key).reverse).reverse
  (List.range 15).map (fun r => ((ws.drop (4 * r)).take 4).flatten)

/-- Row shift: byte (row r, column c) comes from column c + r. -/
def shiftRows (st : List Byte) : List Byte :=
  (List.range 16).map (fun i => nthD 0 st ((i + 4 * (i % 4)) % 16))

/-- The mix of one column. -/
def mixColumn (c : List Byte) : List Byte :=
  let a (i : Nat) : Byte := nthD 0 c (i % 4)
  (List.range 4).map (fun i => xtime (a i) ^^^ xtime (a (i + 1)) ^^^ a (i + 1) ^^^ a (i + 2) ^^^ a (i + 3))

/-- The rounds after the first key addition; the last one mixes no columns. -/
def aesRounds : List (List Byte) → List Byte → List Byte
  | [], st => st
  | [k], st => xorBytes (shiftRows (st.map subByte)) k
  | k :: ks, st => aesRounds ks (xorBytes ((fourBytes 4 (shiftRows (st.map subByte))).map mixColumn).flatten k)

/-- AES-256 of one block of 16 bytes under round keys. -/
def aesBlock (rks : List (List Byte)) (block : List Byte) : List Byte :=
  aesRounds (rks.drop 1) (xorBytes block (rks.headD []))

/-- The number that bytes give, most significant byte first. -/
def ofBe (l : List Byte) : Nat := ofLe l.reverse

/-- `n` bytes of a number, most significant byte first. -/
def beBytes (n v : Nat) : List Byte := (leBytes n v).reverse

/-- Multiplication in the field of GCM; bit 127 is the first bit of a block. `n` bits of `x` are left. -/
def ghMul : Nat → BitVec 128 → BitVec 128 → BitVec 128 → BitVec 128
  | 0, _, _, z => z
  | n + 1, x, v, z =>
    ghMul n x ((v >>> 1) ^^^ (if v.getLsbD 0 then BitVec.ofNat 128 (0xE1 * 2 ^ 120) else 0))
      (if x.getLsbD n then z ^^^ v else z)

/-- GHASH over whole blocks. -/
def ghash (h : BitVec 128) : Nat → BitVec 128 → List Byte → BitVec 128
  | 0, y, _ => y
  | n + 1, y, l => ghash h n (ghMul 128 (y ^^^ BitVec.ofNat 128 (ofBe (l.take 16))) h 0) (l.drop 16)

/-- Zero padding to whole blocks. -/
def padBlocks (l : List Byte) : List Byte := l ++ List.replicate ((16 - l.length % 16) % 16) 0

/-- The keystream applied from counter `c`. -/
def gcmCtr (rks : List (List Byte)) (nonce : List Byte) : Nat → Nat → List Byte → List Byte
  | 0, _, _ => []
  | n + 1, c, l =>
    xorBytes (l.take 16) (aesBlock rks (nonce ++ beBytes 4 c)) ++ gcmCtr rks nonce n (c + 1) (l.drop 16)

/-- The tag over additional data and ciphertext. -/
def gcmTag (rks : List (List Byte)) (nonce aad ct : List Byte) : List Byte :=
  let h := BitVec.ofNat 128 (ofBe (aesBlock rks (List.replicate 16 0)))
  let l := padBlocks aad ++ padBlocks ct ++ beBytes 8 (8 * aad.length) ++ beBytes 8 (8 * ct.length)
  xorBytes (beBytes 16 (ghash h (l.length / 16) 0 l).toNat) (aesBlock rks (nonce ++ beBytes 4 1))

/-- Seal: ciphertext and tag. -/
def gcmSeal (key nonce aad plain : List Byte) : List Byte × List Byte :=
  let rks := roundKeys key
  let ct := gcmCtr rks nonce (plain.length / 16 + 1) 2 plain
  (ct, gcmTag rks nonce aad ct)

/-- Open: the plaintext, or none where the tag fails. -/
def gcmOpen (key nonce aad ct tag : List Byte) : Option (List Byte) :=
  let rks := roundKeys key
  if gcmTag rks nonce aad ct = tag then some (gcmCtr rks nonce (ct.length / 16 + 1) 2 ct) else none

end Sys2Proof.Machine
end

