-- ==== Sys2Proof/Machine/Conv.lean ====
section
/-!
DEFINITION. Conv.lean: 10_convolution: the descriptor and its checks (R193, R196, R199), blocked layouts and borders
(R194, R195), the direct path with its window buffers (R197, R198, R203), the frequency-domain path (R200), up-sampling
(R201, R202). Readings: log entry 42.
-/

namespace Sys2Proof.Machine

/-! ### The descriptor (Table Conv-1) -/

def cKind (d : Desc) : Nat := descNum d 0 1
/-- Bit `i` of byte `b`. -/
def cBit (d : Desc) (b i : Nat) : Bool := d.getLsbD (8 * b + i)
def cFmt (d : Desc) : Nat := bits d 8 2
def cBf16 (d : Desc) : Bool := cFmt d == 2
def cPadMode (d : Desc) : Nat := bits d 16 2
def cPath (d : Desc) : Nat := bits d 18 2
def cQset (d : Desc) : Nat := bits d 24 3
/-- Input height and width, channels in and out, filter, stride, dilation. -/
def cInH (d : Desc) : Nat := descNum d 6 2 + 1
def cInW (d : Desc) : Nat := descNum d 8 2 + 1
def cCin (d : Desc) : Nat := descNum d 10 2 + 1
def cCout (d : Desc) : Nat := descNum d 12 2 + 1
def cKh (d : Desc) : Nat := descNum d 14 1 + 1
def cKw (d : Desc) : Nat := descNum d 15 1 + 1
def cSh (d : Desc) : Nat := descNum d 16 1 + 1
def cSw (d : Desc) : Nat := descNum d 17 1 + 1
def cDh (d : Desc) : Nat := descNum d 18 1 + 1
def cDw (d : Desc) : Nat := descNum d 19 1 + 1
/-- PAD_T, PAD_B, PAD_L, PAD_R. -/
def cPad (d : Desc) (i : Nat) : Nat := descNum d (20 + i) 1
def cOutH (d : Desc) : Nat := descNum d 24 2
def cOutW (d : Desc) : Nat := descNum d 26 2
/-- IN_OFS, WGT_OFS, OUT_OFS, SPEC_OFS. -/
def cOfs (d : Desc) (i : Nat) : Nat := descNum d (28 + 4 * i) 4
/-- Block size of the input in channels; bytes of an element. -/
def cBlock (d : Desc) : Nat := if cBit d 1 2 then 32 else 16
def cElem (d : Desc) : Nat := if cBf16 d then 2 else 1
/-- Channels of an output block: 31 under OUT31. -/
def cOutBlock (d : Desc) : Nat := if cBit d 1 7 then 31 else 32

/-! ### Output size and path (R196, R199) -/

/-- Output size on one axis, 0 or below when empty. -/
def convOut (n lo hi k dil st : Nat) : Int := ((n : Int) + lo + hi - dil * (k - 1) - 1) / st + 1

/-- OUT_H, OUT_W as R196 gives them. -/
def convOutH (d : Desc) : Int := convOut (cInH d) (cPad d 0) (cPad d 1) (cKh d) (cDh d) (cSh d)
def convOutW (d : Desc) : Int := convOut (cInW d) (cPad d 2) (cPad d 3) (cKw d) (cDw d) (cSw d)

/-- An empty output. -/
def convEmpty (d : Desc) : Bool := decide (convOutH d ≤ 0 ∨ convOutW d ≤ 0)

/-- The frequency-domain path is selected (R199). -/
def freqSelected (d : Desc) : Bool :=
  cKind d == 1 && cPath d == 1 && !cBit d 1 5 && cFmt d == 0 && decide (9 ≤ cKh d ∧ cKh d ≤ 31 ∧ 9 ≤ cKw d ∧ cKw d ≤ 31
    ∧ cDh d = 1 ∧ cDw d = 1 ∧ cSh d ≤ cKh d ∧ cSw d ≤ cKw d)

/-! ### Layouts (R194) -/

/-- Image row pitch in pixels for pixels of `p` bytes. -/
def wPad (w p : Nat) : Nat := 512 / p * ceilDiv w (512 / p)

/-- Offset of channel `c` of pixel (y, x) in a tensor of height `h` and width `w`, block `b`, element size `e`. -/
def tensorOfs (base b e h w c y x : Nat) : Nat := base + ((c / b * h + y) * wPad w (b * e) + x) * (b * e) + c % b * e

/-- Bytes of a tensor. -/
def tensorSize (b e h w c : Nat) : Nat := ceilDiv c b * h * wPad w (b * e) * (b * e)

/-- Length of the reduction, in elements (R197). -/
def convK (d : Desc) : Nat := cBlock d * ceilDiv (cCin d) (cBlock d) * cKh d * cKw d

/-- Output blocks. -/
def convBlocks (d : Desc) : Nat := ceilDiv (cCout d) (cOutBlock d)

/-- Bytes of the input, the weights, and the output. -/
def inSize (d : Desc) : Nat := tensorSize (cBlock d) (cElem d) (cInH d) (cInW d) (cCin d)
def wgtSize (d : Desc) : Nat := convBlocks d * (convK d * cElem d / 16) * 512
def outSize (d : Desc) : Nat :=
  if cKind d = 2 then tensorSize (cBlock d) (cElem d) (cOutH d) (cOutW d) (cCin d)
  else convBlocks d * cOutH d * wPad (cOutW d) (32 * cElem d) * (32 * cElem d)

/-! ### The loader's checks (R193) -/

/-- Reserved bits and bytes of a descriptor are zero, and its codes are not reserved. -/
def convFieldsOk (d : Desc) : Bool :=
  let common := decide (cKind d = 1 ∨ cKind d = 2) && decide (cFmt d = 0 ∨ cFmt d = 2) && bits d 27 5 == 0
    && (cBf16 d || descNum d 5 1 == 0) && bits d 61 3 == 0 && bits d 77 3 == 0 && bits d 92 4 == 0 && bits d 108 4 == 0
    && bits d 206 2 == 0 && bits d 222 2 == 0 && bits d 244 12 == 0 && bits d 308 12 == 0 && descNum d 44 20 == 0
  let conv := bits d 21 3 == 0 && cPath d < 2 && bits d 276 12 == 0 && bits d 340 12 == 0
    && (List.range 6).all (fun i => bits d (8 * (14 + i) + 6) 2 == 0)
  let resample := bits d 18 3 == 0 && !cBit d 1 4 && !cBit d 1 5 && !cBit d 1 6 && !cBit d 1 7
    && descNum d 14 10 == 0 && descNum d 32 4 == 0 && descNum d 40 4 == 0
  common && (if cKind d = 2 then resample else conv)

/-- A tensor is misplaced: alignment, end, or an unpowered segment. -/
def misplaced (segs ofs size : Nat) : Bool :=
  ofs % 512 != 0 || decide (0xC0000 < ofs + size) || decide (0xC0000 ≤ ofs)
  || (List.range 12).any (fun g => decide (65536 * g < ofs + size ∧ ofs < 65536 * g + 65536) && !nbit segs g)

/-- Two ranges overlap. -/
def overlaps (a n b m : Nat) : Bool := decide (n ≠ 0 ∧ m ≠ 0 ∧ a < b + m ∧ b < a + n)

/-- Bytes of the filter spectra of a descriptor (R200). -/
def specSize (d : Desc) : Nat := Config.specSize d

/-- Check 6 of R193 fails. -/
def convMisplaced (segs : Nat) (d : Desc) : Bool :=
  let o := cOfs d 2
  let n := outSize d
  misplaced segs (cOfs d 0) (inSize d) || misplaced segs o n || overlaps o n (cOfs d 0) (inSize d)
  || (cKind d == 1 && (misplaced segs (cOfs d 1) (wgtSize d) || overlaps o n (cOfs d 1) (wgtSize d)))
  || (freqSelected d && (misplaced segs (cOfs d 3) (specSize d) || overlaps o n (cOfs d 3) (specSize d)))

/-- The first check of R193 that a descriptor fails on a core with these powered segments, its arrays of class 31 or
not: 0 or the code. -/
def convVerdict (segs : Nat) (class31 : Bool) (d : Desc) : Code :=
  let conv := cKind d = 1
  let badSize (o n : Nat) : Bool := decide (o < n ∨ 16 * n < o)
  if !convFieldsOk d then eConvField
  else if cBit d 2 6 && cBit d 2 7 then eResampleMode
  else if conv ∧ cPadMode d = 3 ∧ (cInH d ≤ cPad d 0 ∨ cInH d ≤ cPad d 1 ∨ cInW d ≤ cPad d 2 ∨ cInW d ≤ cPad d 3) then eConvPad
  else if conv ∧ convEmpty d = true ∧ cBit d 1 6 = false then eConvEmpty
  else if ¬ conv ∧ (badSize (cOutH d) (cInH d) || badSize (cOutW d) (cInW d)) = true then eResampleSize
  else if (conv ∧ ((cOutH d : Int) ≠ max 0 (convOutH d) ∨ (cOutW d : Int) ≠ max 0 (convOutW d)))
      ∨ 8192 < cOutH d ∨ 8192 < cOutW d then eConvShape
  else if convMisplaced segs d then eConvPlace
  else if conv ∧ cBit d 1 7 ≠ class31 then eConvWidth
  else if cBit d 2 4 ≠ freqSelected d then eConvPath
  else 0

/-! ### Inputs and borders (R194, R195) -/

/-- An input coordinate by PAD_MODE: the coordinate to read, or none for a substituted value. -/
def border (mode : Nat) (n : Nat) (y : Int) : Option Nat :=
  if 0 ≤ y ∧ y < n then some y.toNat
  else match mode with
    | 2 => some (if y < 0 then 0 else n - 1)
    | 3 => some (if y < 0 then (-y).toNat else (2 * ((n : Int) - 1) - y).toNat)
    | _ => none

/-- An element of the scratchpad as a read delivers it, with its mark. -/
def elemAt (s : State) (n e : Nat) (ups : List SpUpset) (ofs : Nat) : BitVec 16 × Bool :=
  let r := rowRead s n (ofs % 512) e ups (ofs / 512)
  (BitVec.ofNat 16 (ofLe (bytesOf r.1)), anyBad r.1)

/-- A whole row. -/
def rowGeom (r : Nat) : SpGeom := ⟨[r], 0, 512, none, none⟩

/-- The errors that the reads of a range find take effect, once for each row. -/
def rangeErrors (n ofs len : Nat) (ups : List SpUpset) (s : State) : State :=
  (rowsOf ofs len).foldl (fun s r =>
    if ups.any (fun u => u.row.toNat == r) then spErrors n (spRead s n (rowGeom r) ups) s else s) s

/-- The value that stands for a coordinate outside the input, in channel `c`. -/
def padValue (d : Desc) (c : Nat) : BitVec 16 :=
  if c < cCin d ∧ cPadMode d = 1 then BitVec.ofNat 16 (descNum d 4 (cElem d)) else 0

/-- The input element of channel `c` at coordinates (y, x), with the border rule. -/
def convInput (s : State) (n : Nat) (d : Desc) (ups : List SpUpset) (c : Nat) (y x : Int) : BitVec 16 × Bool :=
  if cCin d ≤ c then (0, false)
  else match border (cPadMode d) (cInH d) y, border (cPadMode d) (cInW d) x with
    | some y, some x => elemAt s n (cElem d) ups (tensorOfs (cOfs d 0) (cBlock d) (cElem d) (cInH d) (cInW d) c y x)
    | _, _ => (padValue d c, false)

/-- Input coordinates of output (oy, ox) and tap (ky, kx). -/
def inputAt (d : Desc) (oy ox ky kx : Nat) : Int × Int :=
  ((oy * cSh d + ky * cDh d : Nat) - (cPad d 0 : Int), (ox * cSw d + kx * cDw d : Nat) - (cPad d 2 : Int))

/-- Reduction index `k` as channel, ky, kx: by channel block, then ky, then kx, then channel within the block. -/
def convTap (d : Desc) (k : Nat) : Nat × Nat × Nat :=
  let b := cBlock d
  let t := k / b
  let taps := cKh d * cKw d
  (t / taps * b + k % b, t % taps / cKw d, t % cKw d)

/-- Integer value of an operand. -/
def convVal (sgn : Bool) (v : BitVec 16) : Int := byteVal sgn (lowByte v)

/-! ### The direct path (R197, R198) -/

/-- Groups of 32 output pixels, in row order. -/
def convGroups (d : Desc) : Nat := cOutH d * ceilDiv (cOutW d) 32

/-- Rounds of four groups for one output block. -/
def blockRounds (d : Desc) : Nat := ceilDiv (convGroups d) 4

/-- Rounds of a descriptor: the four arrays take four consecutive groups, output block by output block. -/
def convRounds (d : Desc) : Nat := convBlocks d * blockRounds d

/-- Output row, first column and pixels of group `g`; no pixels beyond the last group. -/
def groupAt (d : Desc) (g : Nat) : Nat × Nat × Nat :=
  let per := ceilDiv (cOutW d) 32
  let ox := g % per * 32
  (g / per, ox, if g < convGroups d then min 32 (cOutW d - ox) else 0)

/-- Active columns of output block `ob`. -/
def convCols (d : Desc) (ob : Nat) : Nat := min (cOutBlock d) (cCout d - ob * cOutBlock d)

/-- A row as array `a` reads it through its window buffer: held already, or fetched, replacing the oldest of 8 (R198). -/
def windowRow (n a row : Nat) (ups : List SpUpset) (s : State) : State × Marked :=
  match (s.arr n a).win.find? (fun w => w.1 == row) with
  | some w => (s, w.2)
  | none =>
    let r := spRead s n (rowGeom row) ups
    let x := s.arr n a
    let win := x.win ++ [(row, r.data)]
    (spErrors n r (s.setArray n a { x with win := win.drop (win.length - 8) }), r.data)

/-- The chunk of one tap for one output pixel: 16 bytes of channels from `c` on, those at or above C_IN zero; a border
value fetches nothing (R194, R195). -/
def tapChunk (n a : Nat) (d : Desc) (ups : List SpUpset) (oy ox : Nat) (tap : Nat × Nat × Nat) (s : State) : State × Marked :=
  let (c, ky, kx) := tap
  let (y, x) := inputAt d oy ox ky kx
  let e := cElem d
  match border (cPadMode d) (cInH d) y, border (cPadMode d) (cInW d) x with
  | some y, some x =>
    let ofs := tensorOfs (cOfs d 0) (cBlock d) e (cInH d) (cInW d) c y x
    let (s, row) := windowRow n a (ofs / 512) ups s
    (s, ((row.drop (ofs % 512)).take 16).zipIdx.map (fun b => if c + b.2 / e < cCin d then b.1 else (0, false)))
  | _, _ => (s, clean (((List.range (16 / e)).map (fun k => leBytes e (padValue d (c + k)).toNat)).flatten))

/-- One queue transfer of array `a`: a chunk for each active array row (R197). -/
def rowTransfer (n a : Nat) (d : Desc) (ups : List SpUpset) (g : Nat × Nat × Nat) (tap : Nat × Nat × Nat) (s : State) : State :=
  let (s, chunks) := (List.range g.2.2).foldl (fun (p : State × List (List Byte × Bool)) i =>
    let (s, c) := tapChunk n a d ups g.1 (g.2.1 + i) tap p.1
    (s, p.2 ++ [(bytesOf c, anyBad c)])) (s, [])
  s.setArray n a { s.arr n a with rowq := fillQueues chunks (s.arr n a).rowq }

/-- One weight transfer: row `k` of output block `ob`, broadcast to the arrays that have pixels (R197). -/
def weightTransfer (n : Nat) (d : Desc) (ups : List SpUpset) (ob k : Nat) (arrays : List Nat) (s : State) : State :=
  let r := spRead s n (rowGeom (cOfs d 1 / 512 + ob * (convK d * cElem d / 16) + k)) ups
  let s := arrays.foldl (fun s a =>
    s.setArray n a { s.arr n a with colq := fillQueues r.chunks (s.arr n a).colq }) s
  spErrors n r s

/-- Transfer `k` of a round: the weights, and one tap for every group. -/
def convTransfer (n : Nat) (d : Desc) (ups : List SpUpset) (ob : Nat) (gs : List (Nat × Nat × Nat)) (k : Nat) (s : State) :
    State :=
  let tap := convTap d (k * 16 / cElem d)
  let live := (gs.zipIdx.filter (fun g => g.1.2.2 != 0))
  live.foldl (fun s g => rowTransfer n g.2 d ups g.1 tap s) (weightTransfer n d ups ob k (live.map (fun g => g.2)) s)

/-- The pass word of pass `p` of a chain: OS in QUAD; every pass but the first sets ACC, every pass but the last KEEP. -/
def convWord (d : Desc) (p rows cols dbuf : Nat) : BitVec 64 :=
  let depth := min 64 (convK d - 64 * p)
  let last := decide (convK d ≤ 64 * (p + 1))
  BitVec.ofNat 64 (cFmt d * 2 ^ 4 + 2 ^ 6 + (cBit d 1 3).toNat * 2 ^ 12 + (cBit d 1 4).toNat * 2 ^ 13
    + (decide (p ≠ 0)).toNat * 2 ^ 14 + (!last).toNat * 2 ^ 15 + (depth - 1) * 2 ^ 16 + (rows - 1) * 2 ^ 22
    + (cols - 1) * 2 ^ 28 + dbuf * 2 ^ 34 + (cBit d 1 5).toNat * 2 ^ 43)

/-- c-cycles in which 16 queue entries are used. -/
def transferCycles (d : Desc) : Nat := if cBf16 d then 32 else 16

/-- Pass `p` of a chain from c-cycle `cycle`, judged under R178: its transfers arrive as their entries are used. None if it
is refused (R179) or a fault has stopped the weave. -/
def convPass (n : Nat) (d : Desc) (ups : List SpUpset) (ob : Nat) (gs : List (Nat × Nat × Nat)) (dbuf p cycle : Nat)
    (s : State) : State × Bool :=
  let rows := (gs.map (fun g => g.2.2)).foldl max 0
  let word (r : Nat) : BitVec 64 := convWord d p r (convCols d ob) dbuf
  let s := coreTo n cycle s
  let c := passVerdict s n (word rows) cycle
  if c ≠ 0 then (arrayFault n 0 c s, false)
  else if gs.zipIdx.any (fun g => let x := s.arr n g.2; !(x.rowq.isEmpty && x.colq.isEmpty)) then
    (arrayFault n 0 eFeedOverflow s, false)
  else
    let k0 := p * 64 * cElem d / 16
    let s := convTransfer n d ups ob gs k0 s
    let units := (gs.zipIdx.filter (fun g => g.1.2.2 != 0)).map (fun g => (g.2, word g.1.2.2))
    let s := issueUnits n (word rows) units cycle [] [] s
    let step := transferCycles d
    let m := min 64 (convK d - 64 * p) * cElem d / 16
    let s := (List.range (m - 1)).foldl (fun s i =>
      convTransfer n d ups ob gs (k0 + i + 1) (coreTo n (cycle + step * (i + 1) - 1) s)) s
    let s := coreTo n (cycle + step * m - 1) s
    (s, s.weaveActive)

/-- The first 32 drain entries that hold no result in any array; 0 where there are none (log entry 42). -/
def freeEntries (s : State) (n : Nat) : Nat :=
  ((List.range 97).find? (fun b => [0, 1, 2, 3].all (fun a =>
    (s.arr n a).drain.all (fun e => decide (e.1 < b ∨ b + 32 ≤ e.1))))).getD 0

/-- The result entries of a chain leave by INT8Q drains, or in BF16, into the output tensor (R194, R197). -/
def convDrains (n : Nat) (d : Desc) (ob dbuf a : Nat) (g : Nat × Nat × Nat) (s : State) : State :=
  let cap := if cBf16 d then 8 else 16
  let p := 32 * cElem d
  (List.range (ceilDiv g.2.2 cap)).foldl (fun s h =>
    let ofs := cOfs d 2 + ((ob * cOutH d + g.1) * wPad (cOutW d) p + g.2.1 + cap * h) * p
    drainRow n { array := Fin.ofNat 4 a, first := dbuf + cap * h, count := min cap (g.2.2 - cap * h),
                 format := if cBf16 d then 2 else 3, qset := Fin.ofNat 8 (cQset d), offset := BitVec.ofNat 20 ofs,
                 cycle := 0 } (convCols d ob) s) s

/-- Round `t` of a descriptor from c-cycle `cycle`: a chain of passes on every array, then its drains. The c-cycle from
which the next round runs, or none if it has been stopped. -/
def convRound (n : Nat) (d : Desc) (ups : List SpUpset) (t cycle : Nat) (s : State) : State × Option Nat :=
  let ob := t / blockRounds d
  let gs := [0, 1, 2, 3].map (fun a => groupAt d (4 * (t % blockRounds d) + a))
  let dbuf := freeEntries s n
  let passes := ceilDiv (convK d) 64
  let span := 64 * transferCycles d * cElem d / 16
  let (s, ok) := (List.range passes).foldl (fun (q : State × Bool) p =>
    if q.2 then convPass n d ups ob gs dbuf p (cycle + span * p) q.1 else q) (s, true)
  if !ok then (s, none)
  else
    let done := cycle + span * passes + passLatency 0 (cBf16 d)
    let s := coreTo n done s
    (gs.zipIdx.foldl (fun s g => convDrains n d ob dbuf g.2 g.1 s) s, some (done + 1))

/-- The next `k` rounds of the descriptor in progress (R197); once all are made it is complete. -/
def convRun (n : Nat) (ups : List SpUpset) : Nat → Nat → State → State
  | 0, _, s => s
  | k + 1, cycle, s =>
    match (s.core n).conv with
    | none => s
    | some (d, t) =>
      let (s, next) := convRound n d ups t cycle s
      match next with
      | none => s
      | some c =>
        let p := if t + 1 < convRounds d then some (d, t + 1) else none
        convRun n ups k c (s.setCore n { s.core n with conv := p })

/-- A descriptor starts: its window buffers are empty (R198). -/
def convStart (n : Nat) (d : Desc) (s : State) : State :=
  let s := [0, 1, 2, 3].foldl (fun s a => s.setArray n a { s.arr n a with win := [] }) s
  s.setCore n { s.core n with conv := some (d, 0) }

/-! ### The frequency-domain path (R200) -/

/-- Weight of reduction index `k` for lane `j` of output block `ob`: rows of 16 entries of one byte for each lane. -/
def convWeight (s : State) (n : Nat) (d : Desc) (ob j k : Nat) : BitVec 16 :=
  (elemAt s n 1 [] (cOfs d 1 + 512 * (ob * (convK d / 16) + k / 16) + 16 * j + k % 16)).1

/-- The terms of output (ob, j, oy, ox), with the marks of its inputs: in the order of the reduction. -/
def convTerms (s : State) (n : Nat) (d : Desc) (ups : List SpUpset) (ob j oy ox : Nat) : List (Int × Bool) :=
  (List.range (convK d)).map (fun k =>
    let (c, ky, kx) := convTap d k
    let (y, x) := inputAt d oy ox ky kx
    let v := convInput s n d ups c y x
    (convVal (cBit d 1 3) v.1 * convVal (cBit d 1 4) (convWeight s n d ob j k), v.2))

/-- The accumulator on the frequency-domain path: within 1 + 2^-16 · Σ|w·x| of the direct one (R200). -/
def freqAcc (s : State) (n : Nat) (d : Desc) (pos : Nat) (ts : List (Int × Bool)) : Word :=
  let bound : Int := 1 + ((ts.map (fun t => t.1.natAbs)).sum / 65536 : Nat)
  let bytes (i len : Nat) : List Byte := s.rdMem (spAddr n (cOfs d i)) len
  let dev := Config.freqDev d (bytes 0 (inSize d)) (bytes 1 (wgtSize d)) (bytes 3 (specSize d)) pos
  BitVec.ofInt 32 ((ts.map (fun t => t.1)).foldl (· + ·) 0 + clampI (-bound) bound dev)

/-- One lane of an output pixel, with its poison: that of its inputs and of the spectra. -/
def freqLane (s : State) (n : Nat) (d : Desc) (ups : List SpUpset) (ob oy ox j : Nat) : Byte × Bool :=
  if convCols d ob ≤ j then (0, false)
  else
    let ts := convTerms s n d ups ob j oy ox
    let bad := ts.any (fun t => t.2) || s.poisoned (spAddr n (cOfs d 3)) (specSize d)
    (requant (smGet 0 (s.core n).qsets (32 * cQset d + j)) (freqAcc s n d ((ob * cOutH d + oy) * cOutW d + ox) ts), bad)

/-- An output pixel of one block is written. -/
def freqPixel (s0 : State) (n : Nat) (d : Desc) (ups : List SpUpset) (ob oy ox : Nat) (s : State) : State :=
  let ofs := cOfs d 2 + ((ob * cOutH d + oy) * wPad (cOutW d) 32 + ox) * 32
  wrMarked (spAddr n ofs) ((List.range 32).map (fun j => freqLane s0 n d ups ob oy ox j)) s

/-- A descriptor on the frequency-domain path: every output of every block. -/
def freqRun (n : Nat) (d : Desc) (ups : List SpUpset) (s : State) : State :=
  let s := (List.range (convBlocks d)).foldl (fun t ob => (List.range (cOutH d)).foldl (fun t oy =>
    (List.range (cOutW d)).foldl (fun t ox => freqPixel s n d ups ob oy ox t) t) t) s
  rangeErrors n (cOfs d 3) (specSize d) ups (rangeErrors n (cOfs d 0) (inSize d) ups s)

/-- A CONV descriptor runs on its path: an empty one writes nothing (R196); on the direct path `rounds` more rounds run
from c-cycle `cycle`, of the descriptor in progress or of a new one from its start (R197, R200, R203). -/
def convExecute (n : Nat) (d : Desc) (cycle rounds : Nat) (ups : List SpUpset) (s : State) : State :=
  if !s.weaveActive || cKind d != 1 || convEmpty d then s
  else if freqSelected d then freqRun n d ups s
  else
    let s := match (s.core n).conv with
      | some (d', _) => if d' = d then s else convStart n d s
      | none => convStart n d s
    convRun n ups rounds cycle s

/-- CONV_EXECUTE (R197). -/
def execConvExecute (core : Fin 16) (desc : Desc) (cycle rounds : Nat) (upsets : List SpUpset) (s : State) : Outcome :=
  .next (convExecute core.val desc cycle rounds upsets s)

/-! ### Up-sampling (R201, R202) -/

/-- Source coordinate of output index `t`, in 1/65,536 pixel, clamped. -/
def resampleQ (d : Desc) (n out t : Nat) : Nat :=
  let q : Int :=
    if cBit d 2 6 then (if out = 1 then 0 else ((t * (n - 1) * 65536 / (out - 1) : Nat) : Int))
    else if cBit d 2 7 then ((((2 * t + 1) * n : Nat) : Int) - out) * 65536 / (2 * out)
    else ((t * n * 65536 / out : Nat) : Int)
  (clampI 0 (((n - 1) * 65536 : Nat) : Int) q).toNat

/-- Index of nearest sampling. -/
def nearest (d : Desc) (q : Nat) : Nat := if cBit d 2 6 || cBit d 2 7 then (q + 32768) / 65536 else q / 65536

/-- One element of the output: nearest, or bilinear in INT8 or BF16. -/
def resampleElem (s : State) (n : Nat) (d : Desc) (ups : List SpUpset) (c oy ox : Nat) : List Byte × Bool :=
  let e := cElem d
  let src (y x : Nat) : BitVec 16 × Bool := if cCin d ≤ c then (0, false)
    else elemAt s n e ups (tensorOfs (cOfs d 0) (cBlock d) e (cInH d) (cInW d) c y x)
  let qy := resampleQ d (cInH d) (cOutH d) oy
  let qx := resampleQ d (cInW d) (cOutW d) ox
  if !cBit d 2 5 then
    let v := src (nearest d qy) (nearest d qx)
    (leBytes e v.1.toNat, v.2)
  else
    let y0 := qy / 65536
    let x0 := qx / 65536
    let y1 := min (y0 + 1) (cInH d - 1)
    let x1 := min (x0 + 1) (cInW d - 1)
    let fy := qy / 256 % 256
    let fx := qx / 256 % 256
    let a := src y0 x0
    let b := src y0 x1
    let g := src y1 x0
    let h := src y1 x1
    let bad := a.2 || b.2 || g.2 || h.2
    if cBf16 d then
      let mix (u v : BitVec 16) : Word := fpAdd (fpScale (bf16Up u) (256 - fx)) (fpScale (bf16Up v) fx)
      (leBytes 2 (bf16Down (fpAdd (fpScale (mix a.1 b.1) (256 - fy)) (fpScale (mix g.1 h.1) fy))).toNat, bad)
    else
      let v (u : BitVec 16 × Bool) : Int := convVal (cBit d 1 3) u.1
      let r := ((v a * (256 - fx : Nat) + v b * fx) * (256 - fy : Nat) + (v g * (256 - fx : Nat) + v h * fx) * fy + 32768) / 65536
      ([BitVec.ofInt 8 r], bad)

/-- The chunks of an output pixel of one channel block. -/
def resamplePixel (s0 : State) (n : Nat) (d : Desc) (ups : List SpUpset) (cb oy ox : Nat) (s : State) : State :=
  let b := cBlock d
  let e := cElem d
  let ofs := tensorOfs (cOfs d 2) b e (cOutH d) (cOutW d) (cb * b) oy ox
  let ls := (List.range b).map (fun j => resampleElem s0 n d ups (cb * b + j) oy ox)
  wrMarked (spAddr n ofs) ((ls.map (fun l => l.1.map (fun x => (x, l.2)))).flatten) s

/-- A RESAMPLE descriptor up-samples every channel block (R201). -/
def resampleExecute (n : Nat) (d : Desc) (ups : List SpUpset) (s : State) : State :=
  if !s.weaveActive || cKind d != 2 then s
  else
    let s := (List.range (ceilDiv (cCin d) (cBlock d))).foldl (fun t cb => (List.range (cOutH d)).foldl (fun t oy =>
      (List.range (cOutW d)).foldl (fun t ox => resamplePixel s n d ups cb oy ox t) t) t) s
    rangeErrors n (cOfs d 0) (inSize d) ups s

/-- RESAMPLE_EXECUTE (R201). -/
def execResampleExecute (core : Fin 16) (desc : Desc) (upsets : List SpUpset) (s : State) : Outcome :=
  .next (resampleExecute core.val desc upsets s)

end Sys2Proof.Machine
end

