-- ==== Sys2Proof/Machine/Plait.lean ====
section
/-!
DEFINITION. Plait.lean: 12_plait: the codecs (Table Plait-3, R220, R222), streams and blocks (Tables Plait-1, Plait-2,
R218, R219), the decoder's checks (R223, R224), transfers (R225 to R227). The key-value cache and parking use the same
streams. Readings of this chapter: log entry 43.
-/

namespace Sys2Proof.Machine

/-! ### Codecs -/

/-- A list cut into pieces of `n` elements, `fuel` at most. -/
def pieces {α : Type} (n : Nat) : Nat → List α → List (List α)
  | 0, _ => []
  | f + 1, l => if l.isEmpty then [] else l.take n :: pieces n f (l.drop n)

/-- A unit filled up with zeros (R222). -/
def fillUp (n : Nat) (l : List Byte) : List Byte := l ++ List.replicate (n - l.length) 0

/-- The granule of a codec (Table Plait-3). -/
def codecGranule : Nat → Nat
  | 1 => 2
  | 3 => 64
  | _ => 1

/-- The 16-bit values of a ZRX group. -/
def groupVals (g : List Byte) : List Nat := (List.range 16).map (fun i => leAt g (2 * i) 2)

/-- Exponent field of a bf16 value. -/
def expOf (v : Nat) : Nat := v / 128 % 256

/-- A ZRX group as grouped or literal (R220): the 12-bit values hold sign, E − e and mantissa from bit 0 up. -/
def zrxGroup (g : List Byte) : List Byte :=
  let vs := groupVals g
  let top := vs.foldl (fun m v => max m (expOf v)) 0
  if vs.all (fun v => decide (top - expOf v ≤ 15) && !(expOf v == 0 && v % 128 != 0)) then
    [2, BitVec.ofNat 8 top] ++ leBytes 24 (vs.foldr (fun v n => v / 32768 + (top - expOf v) * 2 + v % 128 * 32 + 4096 * n) 0)
  else 1 :: g

/-- Zero groups pending are written as runs of at most 64. -/
def zrxRun (n : Nat) : List Byte :=
  List.replicate (n / 64) 0xFC ++ (if n % 64 = 0 then [] else [BitVec.ofNat 8 ((n % 64 - 1) * 4)])

/-- ZRX over the groups of a block, with `n` zero groups pending. -/
def zrxEncode (n : Nat) : List (List Byte) → List Byte
  | [] => zrxRun n
  | g :: gs => if allZero g then zrxEncode (n + 1) gs else zrxRun n ++ zrxGroup g ++ zrxEncode 0 gs

/-- A byte folded, and unfolded (Table Plait-3): the fold is its own inverse. -/
def bplFold (b : Byte) : Byte := if b.toNat < 0x80 then b else b ^^^ 0x7F

/-- Plane `p` of 64 folded bytes: bit i of the 8 bytes is bit `p` of byte i. -/
def bplPlane (p : Nat) (t : List Byte) : Nat := t.foldr (fun b n => (if b.getLsbD p then 1 else 0) + 2 * n) 0

/-- One BPL group of 64 bytes. -/
def bplGroup (g : List Byte) : List Byte :=
  let planes := (List.range 8).map (fun p => bplPlane p (g.map bplFold))
  BitVec.ofNat 8 (planes.foldr (fun v n => (if v = 0 then 0 else 1) + 2 * n) 0)
    :: ((planes.filter (· != 0)).map (leBytes 8)).flatten

/-- The differences of DKV: byte i less byte i − 64. -/
def dkvDelta (l : List Byte) : List Byte := List.zipWith (· - ·) l (List.replicate 64 0 ++ l)

/-- The sums that undo them, 64 bytes at a time. -/
def dkvSum (prev : List Byte) : List (List Byte) → List Byte
  | [] => []
  | g :: gs => let r := List.zipWith (· + ·) g prev; r ++ dkvSum r gs

/-- The payload that a codec makes of a raw block. -/
def codecEncode (codec : Nat) (raw : List Byte) : List Byte :=
  match codec with
  | 1 => zrxEncode 0 ((pieces 32 raw.length raw).map (fillUp 32))
  | 2 => ((pieces 64 raw.length raw).map (fun g => bplGroup (fillUp 64 g))).flatten
  | 3 => ((pieces 64 raw.length (dkvDelta raw)).map (fun g => bplGroup (fillUp 64 g))).flatten
  | _ => raw

/-- The 32 bytes of a grouped ZRX group from its 12-bit values. -/
def zrxUngroup (top n : Nat) : Nat → List Byte
  | 0 => []
  | k + 1 =>
    let v := n % 4096
    leBytes 2 (v % 2 * 32768 + (top + 256 - v / 2 % 16) % 256 * 128 + v / 32) ++ zrxUngroup top (n / 4096) k

/-- ZRX decoding of a payload to `groups` groups; none on a reserved tag, a group beyond the last, or a payload that
ends early or late (R223). -/
def zrxDecode : Nat → Nat → List Byte → Option (List Byte)
  | _, 0, l => if l.isEmpty then some [] else none
  | 0, _, _ => none
  | f + 1, groups, l =>
    match l with
    | [] => none
    | t :: l =>
      if t = 1 then
        (if l.length < 32 then none else (zrxDecode f (groups - 1) (l.drop 32)).map (l.take 32 ++ ·))
      else if t = 2 then
        (if l.length < 25 then none
         else (zrxDecode f (groups - 1) (l.drop 25)).map (zrxUngroup (leAt l 0 1) (leAt l 1 24) 16 ++ ·))
      else if t.toNat % 4 = 0 then
        (let n := t.toNat / 4 + 1
         if groups < n then none else (zrxDecode f (groups - n) l).map (List.replicate (32 * n) 0 ++ ·))
      else none

/-- The 64 bytes that BPL planes give, by plane number. -/
def bplJoin (planes : List (Nat × Nat)) : List Byte :=
  (List.range 64).map (fun i => bplFold (BitVec.ofNat 8 (planes.foldl (fun n p => n + (if nbit p.2 i then 2 ^ p.1 else 0)) 0)))

/-- BPL decoding of a payload to `groups` groups. -/
def bplDecode : Nat → List Byte → Option (List Byte)
  | 0, l => if l.isEmpty then some [] else none
  | groups + 1, l =>
    match l with
    | [] => none
    | m :: l =>
      let ps := (List.range 8).filter (fun p => m.getLsbD p)
      if l.length < 8 * ps.length then none
      else
        let planes := ps.zipIdx.map (fun p => (p.1, leAt l (8 * p.2) 8))
        (bplDecode groups (l.drop (8 * ps.length))).map (bplJoin planes ++ ·)

/-- Decoded units cut to the raw length; what is cut off is zero (R222). -/
def cutRaw (raw : Nat) (l : List Byte) : Option (List Byte) :=
  if allZero (l.drop raw) then some (l.take raw) else none

/-- The raw bytes that a payload of the coded length decodes to, or none (R223, the code check). -/
def codecDecode (codec raw : Nat) (payload : List Byte) : Option (List Byte) :=
  match codec with
  | 1 => (zrxDecode payload.length (ceilDiv raw 32) payload).bind (cutRaw raw)
  | 2 => (bplDecode (ceilDiv raw 64) payload).bind (cutRaw raw)
  | 3 => (bplDecode (ceilDiv raw 64) payload).map (fun l =>
      (dkvSum (List.replicate 64 0) (pieces 64 l.length l)).take raw)
  | _ => some payload

/-! ### Streams -/

/-- Whether the encoder writes a block as STORED instead (R218). -/
def storesBlock (codec : Nat) (raw : List Byte) : Bool := codec != 0 && raw.length < (codecEncode codec raw).length

/-- Block `idx` of a stream: header and padded payload (Table Plait-2, R218). -/
def plaitBlock (codec idx : Nat) (last : Bool) (raw : List Byte) : List Byte :=
  let stored := storesBlock codec raw
  let pay := if stored then raw else codecEncode codec raw
  leBytes 1 (if stored then 0 else codec) ++ leBytes 1 (if last then 1 else 0) ++ leBytes 2 raw.length
    ++ leBytes 2 pay.length ++ leBytes 2 (idx % 65536) ++ leBytes 4 (crc32c raw).toNat ++ leBytes 4 0
    ++ fillUp (ceilDiv pay.length 16 * 16) pay

/-- The stream header (Table Plait-1). -/
def plaitHeader (subs n total : Nat) (ofs : List Nat) : List Byte :=
  let body := leBytes 2 0x7A1E ++ [1] ++ leBytes 1 subs ++ leBytes 4 n ++ leBytes 4 total ++ leBytes 4 0
    ++ ((List.range 8).map (fun j => leBytes 4 (if j < subs then nthD 0 ofs j else 0))).flatten ++ leBytes 12 0
  body ++ leBytes 4 (crc32c body).toNat

/-- The blocks of a raw byte string. -/
def plaitBlocks (codec : Nat) (raw : List Byte) : List (List Byte) :=
  let bs := pieces 4096 raw.length raw
  bs.zipIdx.map (fun b => plaitBlock codec b.2 (b.2 + 1 == bs.length) b.1)

/-- The blocks of sub-stream `j` of `subs`, joined. -/
def subStream (subs j : Nat) (bs : List (List Byte)) : List Byte :=
  ((bs.zipIdx.filter (fun b => b.2 % subs == j)).map (fun b => b.1)).flatten

/-- Offset of sub-stream `j`, fixed before an encode (12_plait, "The encoder"). -/
def subOffset (subs n j : Nat) : Nat := 64 + j * ceilDiv n subs * 4112

/-- What an encode writes, in order, as offset and bytes: the sub-streams, and the header last (R218). -/
def plaitWrites (codec subs : Nat) (raw : List Byte) : List (Nat × List Byte) :=
  let bs := plaitBlocks codec raw
  (List.range subs).map (fun j => (subOffset subs bs.length j, subStream subs j bs))
    ++ [(0, plaitHeader subs bs.length raw.length ((List.range subs).map (subOffset subs bs.length)))]

/-- A stream with one sub-stream as one byte string (R252). -/
def plaitStream (codec : Nat) (raw : List Byte) : List Byte :=
  let bs := plaitBlocks codec raw
  plaitHeader 1 bs.length raw.length [64] ++ bs.flatten

/-- The same of bytes with poison marks: a block made from a poisoned byte is marked (R273). -/
def markedStream (codec : Nat) (raw : Marked) : Marked :=
  let bs := plaitBlocks codec (bytesOf raw)
  clean (plaitHeader 1 bs.length raw.length [64])
    ++ (bs.zipIdx.map (fun b => b.1.map (fun x => (x, anyBad ((raw.drop (4096 * b.2)).take 4096))))).flatten

/-- Blocks of sub-stream `j` of a stream of `n` blocks. -/
def subCount (subs n j : Nat) : Nat := if j < n then (n - j - 1) / subs + 1 else 0

/-- The stream header passes (R223): magic, version, S, alignment, CRC, reserved bytes, and no sub-stream that begins in
the header or within the least length of another (32 bytes for each block). -/
def headerOk (h : List Byte) : Bool :=
  let subs := leAt h 3 1
  let n := leAt h 4 4
  let ofs := fun j => leAt h (16 + 4 * j) 4
  leAt h 0 2 == 0x7A1E && leAt h 2 1 == 1 && [1, 2, 4, 8].contains subs && leAt h 12 4 == 0 && leAt h 48 12 == 0
    && (crc32c (h.take 60)).toNat == leAt h 60 4
    && (List.range 8).all (fun j => if j < subs then ofs j % 64 == 0 && decide (64 ≤ ofs j) else ofs j == 0)
    && (List.range subs).all (fun j => (List.range subs).all (fun k =>
      j == k || decide (ofs k < ofs j) || subCount subs n j == 0 || subCount subs n k == 0
        || decide (ofs j + 32 * subCount subs n j ≤ ofs k)))

/-- The verdict of a decoder on block `b` of `n` (R223), and the raw bytes where it gets so far: `h` is the block
header, `pay` the padded payload. -/
def blockVerdict (n b : Nat) (h pay : List Byte) : Code × Option (List Byte) :=
  let codec := leAt h 0 1
  let last := leAt h 1 1
  let raw := leAt h 2 2
  let coded := leAt h 4 2
  if 3 < codec ∨ 1 < last ∨ leAt h 12 4 ≠ 0 ∨ raw = 0 ∨ 4096 < raw ∨ raw % codecGranule codec ≠ 0
      ∨ (raw < 4096 ∧ last = 0) ∨ raw < coded ∨ (codec = 0 ∧ coded ≠ raw) ∨ (last = 1 ∧ b + 1 ≠ n) then
    (ePlaitHeader, none)
  else if leAt h 6 2 ≠ b % 65536 then (ePlaitSeq, none)
  else match codecDecode codec raw (pay.take coded) with
    | none => (ePlaitCode, none)
    | some l =>
      if !allZero (pay.drop coded) then (ePlaitCode, none)
      else if (crc32c l).toNat ≠ leAt h 8 4 then (ePlaitCrc, some l)
      else (0, some l)

/-- Length of a block with its header and padding, from its header. -/
def blockLen (h : List Byte) : Nat := 16 + ceilDiv (leAt h 4 2) 16 * 16

/-- Where a transfer reads: stream bytes `n` from offset `o`. -/
abbrev StreamSrc := Nat → Nat → Marked

/-- What a decoder makes of a stream: raw bytes, each block's marked where anything it was read from is poisoned; the code
of the failing block, 0 for none, with the raw bytes that it gave; and the blocks judged. -/
structure PlaitRead where
  raw  : Marked
  code : Code
  part : List Byte
  used : Nat
  deriving DecidableEq, Repr

/-- The blocks of a stream from block `b` until `want` raw bytes are delivered or a block fails. `pos` holds the next
offset of each sub-stream. -/
def plaitRead (src : StreamSrc) (subs n : Nat) : Nat → Nat → List Nat → Nat → PlaitRead
  | 0, _, _, _ => ⟨[], 0, [], 0⟩
  | f + 1, b, pos, want =>
    if want = 0 ∨ n ≤ b then ⟨[], 0, [], 0⟩
    else
      let o := nthD 0 pos (b % subs)
      let h := src o 16
      let len := blockLen (bytesOf h)
      let pay := src (o + 16) (len - 16)
      let bad := anyBad h || anyBad pay
      match blockVerdict n b (bytesOf h) (bytesOf pay) with
      | (0, some l) =>
        let r := plaitRead src subs n f (b + 1) (pos.set (b % subs) (o + len)) (want - l.length)
        { r with raw := (l.take want).map (fun x => (x, bad)) ++ r.raw, used := r.used + 1 }
      | (c, some l) => ⟨[], c, l.take want, 1⟩
      | (c, none) => ⟨[], c, [], 1⟩

/-- A whole stream with one sub-stream in a byte string, as a cache transfer carries it (R252): the raw bytes, or the
code of the first failure. -/
def plaitUnpack (stream : List Byte) : Except Code (List Byte) :=
  let h := stream.take 64
  if stream.length < 64 || !headerOk h then .error ePlaitStream
  else
    let n := leAt h 4 4
    let r := plaitRead (fun o k => clean (fillUp k ((stream.drop o).take k))) (leAt h 3 1) n (stream.length / 16) 0
      ((List.range 8).map (fun j => leAt h (16 + 4 * j) 4)) (leAt h 8 4)
    if r.code ≠ 0 then .error r.code else .ok (bytesOf r.raw)

/-! ### Transfers -/

/-- A range of the store touches a protected range. -/
def rangeProtects (r : Word × Word) (a len : Nat) : Bool :=
  r.1.getLsbD 0 && decide (a < bits r.2 12 20 * 4096 + 4096 ∧ bits r.1 12 20 * 4096 < a + len)

/-- A range of addresses touches an enabled protected range (R227). -/
def State.protTouched (s : State) (a len : Nat) : Bool :=
  (List.range 4).any (fun i => rangeProtects (s.reg (Reg.plaitProtBase i), s.reg (Reg.plaitProtLimit i)) a len)

/-- The transfer is static: it has a row schedule, and its stream lies neither in host memory nor in the store of another
package (R225, R226). -/
def plaitStatic (s : State) (x : PlaitXfer) : Bool :=
  x.isStatic && (match s.place (s.localAddr x.stream.toNat) with
    | .host _ => false
    | .remote _ _ => false
    | _ => true)

/-- A refusal of a transfer: an uncorrectable fault of a static one, the issuer's code of a dynamic one (R224, R227). -/
def plaitFail (n : Nat) (x : PlaitXfer) (c : Code) (s : State) : State :=
  if plaitStatic s x then unitFault 2 n c s else (latch c n s).emit (.issuerCode c)

/-- The end of a dynamic transfer signals its knot (R226). -/
def plaitDone (x : PlaitXfer) (s : State) : State :=
  match plaitStatic s x, x.knot with
  | false, some k => signalKnot k.toNat 1 s
  | _, _ => s

/-- Raw bytes go to scratchpad rows from row `r` on, row by row; a row that is refused ends the transfer with a fault
(R170). Answers whether all were written. -/
def putRawRows (n : Nat) : Nat → Nat → Marked → State → State × Bool
  | 0, _, _, s => (s, true)
  | f + 1, r, l, s =>
    if l.isEmpty then (s, true)
    else
      let c := spJudge s n .row (512 * r) none none true
      if c ≠ 0 then (spFault n c (512 * r) s, false)
      else
        let g := spGeom .row (512 * r) none (fun _ => r)
        putRawRows n f (r + 1) (l.drop 512) (wrMarked (spAddr n (512 * r)) (l.take 512) (gBefore n g s))

/-- Bytes of the stream that a decode reads after its header: the blocks it needs, in order, as offset and length. -/
def plaitTouched (src : StreamSrc) (subs n : Nat) : Nat → Nat → List Nat → Nat → List (Nat × Nat)
  | 0, _, _, _ => []
  | f + 1, b, pos, want =>
    if want = 0 ∨ n ≤ b then []
    else
      let o := nthD 0 pos (b % subs)
      let len := blockLen (bytesOf (src o 16))
      (o, 16) :: (o, len) :: plaitTouched src subs n f (b + 1) (pos.set (b % subs) (o + len)) (want - 4096)

/-- Where the bytes of a transfer's stream stand: a scratchpad's as the core has read them through its R port (R158). -/
def State.plaitSrc (s : State) (n : Nat) (x : PlaitXfer) : StreamSrc :=
  let a := s.localAddr x.stream.toNat
  match s.place a with
  | .store => fun o k => s.rdMarked (a + o) k
  | .scratch m off => fun o k => s.fetchedBytes n m (off + o) k
  | _ => fun o k => clean (fillUp k ((x.ext.drop o).take k))

/-- Offsets of the sub-streams. -/
def subsOf (h : List Byte) : List Nat := (List.range 8).map (fun j => leAt h (16 + 4 * j) 4)

/-- What a decode reads of its stream: the header, and once that passes the blocks it needs. -/
def plaitNeeds (s : State) (n : Nat) (x : PlaitXfer) : List (Nat × Nat) :=
  let src := s.plaitSrc n x
  let h := bytesOf (src 0 64)
  (0, 64) :: (if headerOk h then plaitTouched src (leAt h 3 1) (leAt h 4 4) (ceilDiv x.rawLen 4096) 0 (subsOf h) x.rawLen
    else [])

/-- The first refusal of what a decode reads: outside the store or a scratchpad, or in the reserved range (R60, R153,
R329). -/
def plaitRange (s : State) (n : Nat) (x : PlaitXfer) : Code :=
  let a := s.localAddr x.stream.toNat
  match (plaitNeeds s n x).find? (fun u => rangeVerdict s a (u.1 + u.2) != 0) with
  | some u => rangeVerdict s a (u.1 + u.2)
  | none => 0

/-- The row of another scratchpad that a decode still waits for: core and row (R158). -/
def plaitAwaits (s : State) (n : Nat) (x : PlaitXfer) : Option (Nat × Nat) :=
  match s.place (s.localAddr x.stream.toNat) with
  | .scratch m off => ((plaitNeeds s n x).findSome? (fun u => s.rowMissing n m (off + u.1) u.2)).map (fun r => (m, r))
  | _ => none

/-- The rows read of another scratchpad are used up. -/
def plaitForget (n : Nat) (x : PlaitXfer) (us : List (Nat × Nat)) (s : State) : State :=
  match s.place (s.localAddr x.stream.toNat) with
  | .scratch m off => us.foldl (fun s u => dropFetched n m (off + u.1) u.2 s) s
  | _ => s

/-- The rows of a decode reach the scratchpad up to the row that a slot finds absent, which is refused with
E_PLAIT_UNDERRUN (R225). Whether the transfer goes on. -/
def deliverRows (n : Nat) (x : PlaitXfer) (row : Nat) (l : Marked) (s : State) : State × Bool :=
  let upto := if plaitStatic s x then x.underrun else none
  match upto with
  | some u =>
    if 512 * u < l.length then
      let (s, ok) := putRawRows n (ceilDiv l.length 512) row (l.take (512 * u)) s
      (if ok then plaitFail n x ePlaitUnderrun s else s, false)
    else putRawRows n (ceilDiv l.length 512) row l s
  | none => putRawRows n (ceilDiv l.length 512) row l s

/-- The whole of a decode after its first checks: blocks in order, rows delivered, the failing block poisoned (R219,
R223, R224). -/
def plaitDecodeRun (n : Nat) (x : PlaitXfer) (s : State) : State :=
  let src := s.plaitSrc n x
  let hm := src 0 64
  let h := bytesOf hm
  if !headerOk h then plaitFail n x ePlaitStream s
  else
    let r := plaitRead src (leAt h 3 1) (leAt h 4 4) (ceilDiv x.rawLen 4096) 0 (subsOf h) x.rawLen
    let s := s.bumpSat Reg.plaitBlkDec 32 (r.used - (if r.code = 0 then 0 else 1))
    let rest := min 4096 (x.rawLen - r.raw.length)
    let part := if r.code = 0 then [] else
      r.part ++ (List.range (rest - r.part.length)).map (Config.plaitBad s.freeCtr)
    let s := if r.code = 0 then s else { s with freeCtr := s.freeCtr + 1 }
    let l := r.raw.map (fun b => (b.1, b.2 || anyBad hm)) ++ part.map (fun b => (b, true))
    let (s, ok) := deliverRows n x (x.offset.toNat / 512) l s
    if !ok then s
    else if r.code = 0 then plaitDone x s
    else plaitFail n x r.code (s.bumpSat Reg.plaitFail 16 1)

/-- A decode (R219 to R226): the protection and enable checks first, then the stream. One that reads a scratchpad asks for
its rows through the R port and waits for them; one whose port has no slot waits (R157, R158). -/
def plaitDecode (n : Nat) (x : PlaitXfer) (s : State) : State :=
  let a := s.localAddr x.stream.toNat
  let us := plaitNeeds s n x
  if !s.weaveActive then s
  else if x.sealing || (s.place a == .store && us.any (fun u => s.protTouched (a + u.1) u.2)) then
    plaitFail n x ePlaitProtected s
  else if !s.flag Reg.plaitCtl 0 then plaitFail n x ePlaitCodec s
  else match s.portRows n .xi with
    | none => s
    | some p =>
      if p ≠ 0 then spFault n p x.offset.toNat s
      else if plaitRange s n x ≠ 0 then plaitFail n x (plaitRange s n x) s
      else match plaitAwaits s n x with
        | some (m, r) => askRow n m r s
        | none => plaitForget n x us (plaitDecodeRun n x s)

/-- PLAIT_DECODE (R225). -/
def execPlaitDecode (core : Fin 16) (x : PlaitXfer) (s : State) : Outcome := .next (plaitDecode core.val x s)

/-- Writes to a remote window leave as messages of at most 1,008 bytes (R55). -/
def remotePut (p : BitVec 6) : Nat → Nat → Marked → State → State
  | 0, _, _, s => s
  | f + 1, off, l, s =>
    if l.isEmpty then s
    else remotePut p f (off + 1008) (l.drop 1008) (sendLoose (s.mkMarked 3 p (BitVec.ofNat 48 off) (l.take 1008)) s)

/-- One piece of an encoded stream reaches its destination: the store; a scratchpad through its R port, where it waits for
its places; a remote window; or host memory through the completion writer's path (R127), which never takes a poisoned
chunk: that is refused and the weave restarts (R273). -/
def plaitPut (n : Nat) (a : Nat) (l : Marked) (s : State) : State :=
  let c := rangeVerdict s a l.length
  if c ≠ 0 then spFault n c a s
  else match s.place a with
    | .host h =>
      if anyBad l then weaveFault ⟨ePoison, 2, 2, BitVec.ofNat 8 n, 0⟩ (latch ePoison 0 s)
      else hostPut (BitVec.ofNat 64 h) (bytesOf l) s
    | .scratch m off =>
      let parts := rowParts (l.length / 512 + 2) off l.length
      let qs := parts.map (fun p =>
        (m, (⟨.core (Fin.ofNat 16 n), .row, BitVec.ofNat 20 p.1, true, p.2, (l.drop (p.1 - off)).take p.2⟩ : RReq)))
      s.setCore n { s.core n with outq := (s.core n).outq ++ qs }
    | .remote p off => remotePut (BitVec.ofNat 6 p) (l.length / 1008 + 1) off l s
    | _ => wrMarked a l s

/-- What an encode writes with the marks of the blocks it was made from (R273). -/
def markedWrites (codec subs : Nat) (raw : Marked) : List (Nat × Marked) :=
  let bs := plaitBlocks codec (bytesOf raw)
  let ms := bs.zipIdx.map (fun b => b.1.map (fun x => (x, anyBad ((raw.drop (4096 * b.2)).take 4096))))
  (List.range subs).map (fun j =>
      (subOffset subs bs.length j, ((ms.zipIdx.filter (fun b => b.2 % subs == j)).map (fun b => b.1)).flatten))
    ++ [(0, clean (plaitHeader subs bs.length raw.length ((List.range subs).map (subOffset subs bs.length))))]

/-- The writes of a transfer are made; one into a scratchpad ends once the last of them has been served (R158, R226). -/
def plaitFinish (n : Nat) (x : PlaitXfer) (s : State) : State :=
  if !s.weaveActive then s
  else if (s.core n).outq.isEmpty then plaitDone x s
  else
    let k := if plaitStatic s x then none else x.knot
    pushOuts (s.setCore n { s.core n with outKnot := k })

/-- The encode proper: rows read, blocks counted, sub-streams and then the header written (R218). -/
def plaitEncodeRun (n : Nat) (x : PlaitXfer) (s : State) : State :=
  let rows := ceilDiv x.rawLen 512
  let row := x.offset.toNat / 512
  match (List.range rows).find? (fun k => spJudge s n .row (512 * (row + k)) none none false != 0) with
  | some k => spFault n (spJudge s n .row (512 * (row + k)) none none false) (512 * (row + k)) s
  | none =>
    let s := (List.range rows).foldl (fun s k =>
      gBefore n (spGeom .row (512 * (row + k)) none (fun _ => row + k)) s) s
    let raw := (spRead s n ⟨(List.range rows).map (· + row), 0, 512, none, none⟩ x.upsets).data.take x.rawLen
    let s := rangeErrors n (512 * row) x.rawLen x.upsets s
    let bs := pieces 4096 raw.length (bytesOf raw)
    let s := s.bumpSat Reg.plaitBlkEnc 32 bs.length
    let s := s.bumpSat Reg.plaitStored 32 (bs.filter (storesBlock x.codec.toNat)).length
    let a := s.localAddr x.stream.toNat
    plaitFinish n x ((markedWrites x.codec.toNat x.subs raw).foldl (fun s w =>
      if w.2.isEmpty || !s.weaveActive then s else plaitPut n (a + w.1) w.2 s) s)

/-- An encode (R218, R221, R227). One whose engine still writes an earlier stream, or whose port has no slot, waits. -/
def plaitEncode (n : Nat) (x : PlaitXfer) (s : State) : State :=
  let a := s.localAddr x.stream.toNat
  let whole := subOffset x.subs (ceilDiv x.rawLen 4096) x.subs
  if !s.weaveActive || x.rawLen = 0 || !([1, 2, 4, 8].contains x.subs) then s
  else if !(s.core n).outq.isEmpty || (s.core n).outKnot.isSome then s
  else if x.sealing || (s.place a == .store && s.protTouched a whole) then plaitFail n x ePlaitProtected s
  else if !s.flag Reg.plaitCtl 0 || 3 < x.codec.toNat || x.rawLen % codecGranule x.codec.toNat != 0 then
    plaitFail n x ePlaitCodec s
  else match s.portRows n .xo with
    | none => s
    | some p => if p ≠ 0 then spFault n p x.offset.toNat s else plaitEncodeRun n x s

/-- PLAIT_ENCODE (R227). -/
def execPlaitEncode (core : Fin 16) (x : PlaitXfer) (s : State) : Outcome := .next (plaitEncode core.val x s)

/-! ### Protected ranges (R227, R228) -/

/-- An enabled protected range from `base` to `limit` is refused (R228). -/
def protBad (base limit : Word) : Bool :=
  base.getLsbD 0 && (!inStore (bits base 12 20 * 4096) 4096 || !inStore (bits limit 12 20 * 4096) 4096
    || decide (bits limit 12 20 < bits base 12 20))

/-- Range `i` under a placement: as the image sets it, or as its registers hold it. -/
def protOf (s : State) (pl : Placement) (i : Nat) : Word × Word := match pl.prots[i]? with
  | some r => r
  | none => (s.reg (Reg.plaitProtBase i), s.reg (Reg.plaitProtLimit i))

/-- The checks of a placement's ranges and transfers: 0 or the code (R227, R228). -/
def plaitLoadVerdict (s : State) (pl : Placement) : Code :=
  let rs := (List.range 4).map (protOf s pl)
  if rs.any (fun r => protBad r.1 r.2) then ePlaitProtRange
  else if pl.plaits.any (fun u => u.2.2 || rs.any (fun r => rangeProtects r u.1 u.2.1)) then ePlaitProtected
  else 0

/-- A load sets the ranges that the image names (R228). -/
def setProts (pl : Placement) (s : State) : State :=
  (List.range 4).foldl (fun s i => match pl.prots[i]? with
    | some r => (s.setReg (Reg.plaitProtBase i) r.1).setReg (Reg.plaitProtLimit i) r.2
    | none => s) s

end Sys2Proof.Machine
end

