-- ==== Sys2Proof/Machine/Kv.lean ====
section
/-!
DEFINITION. Kv.lean: 14_phases on the package that holds a cache: page pools, page lists (R249 to R251), CHUNK orders
(R248), transfers (R252 to R254), store-tier copies (R256), host slots (R257, R258), UNPARK and DROP orders (R260, R246).
Readings of this chapter: log entry 44.
-/

namespace Sys2Proof.Machine

/-! ### Pools -/

/-- Pages 0 to `size` − 1 that are not used. -/
def freeOf (size : Nat) (used : List Nat) : List Nat := (List.range size).filter (fun p => !used.contains p)

/-- `n` pages taken from the free ones, and the ones left; which page an allocation takes is open (log entry 44). -/
def allocPages (ctr : Nat) : Nat → List Nat → Option (List Nat × List Nat)
  | 0, free => some ([], free)
  | n + 1, free =>
    if free.isEmpty then none
    else
      let p := nthD 0 free (Config.pagePick ctr n % free.length)
      (allocPages ctr n (free.filter (· != p))).map (fun r => (p :: r.1, r.2))

/-- A run of `n` consecutive free pages: its first page, and the pages left. -/
def allocRun (ctr n : Nat) (free : List Nat) : Option (Nat × List Nat) :=
  let starts := free.filter (fun p => (List.range n).all (fun i => free.contains (p + i)))
  if starts.isEmpty then none
  else
    let p := nthD 0 starts (Config.pagePick ctr n % starts.length)
    some (p, free.filter (fun q => decide (q < p ∨ p + n ≤ q)))

/-! Base address and pages of each pool. -/

def State.kvBase (s : State) : Nat := s.pair Reg.serveKvPoolLo Reg.serveKvPoolHi
def State.kvSize (s : State) : Nat := s.fld Reg.serveKvPoolSize 0 20
def State.parkBase (s : State) : Nat := s.pair Reg.serveParkPoolLo Reg.serveParkPoolHi
def State.parkSize (s : State) : Nat := s.fld Reg.serveParkPoolSize 0 20
def State.adpBase (s : State) : Nat := s.pair Reg.serveAdpPoolLo Reg.serveAdpPoolHi
def State.adpSize (s : State) : Nat := s.fld Reg.serveAdpPoolSize 0 20
def State.grmBase (s : State) : Nat := s.pair Reg.serveGrmPoolLo Reg.serveGrmPoolHi
def State.grmSize (s : State) : Nat := s.fld Reg.serveGrmPoolSize 0 20

/-- Pages from `a` on. -/
def pageRun (a n : Nat) : List Nat := (List.range n).map (· + a)

/-- Pages of the KV pool that a context reserves. -/
def Ctx.kvPages (c : Ctx) : List Nat := pageRun c.listFirst c.listPages ++ c.pages ++ c.spare

/-- Pages of the park pool that a copy takes. -/
def copyPages : Option ParkCopy → List Nat
  | some p => pageRun p.first p.listPages ++ p.pages
  | none => []

/-- Unreserved pages of the KV pool (SERVE_KV_FREE). -/
def State.kvFree (s : State) : List Nat := freeOf s.kvSize (s.serve.ctxs.flatMap Ctx.kvPages)

/-- Free pages of the park pool. -/
def State.parkFree (s : State) : List Nat :=
  freeOf s.parkSize (s.serve.ctxs.flatMap (fun c => copyPages c.copy ++ copyPages c.making))

/-- Free pages of the adapter pool (SERVE_ADP_STATUS.FREE_PAGES). -/
def State.adpFree (s : State) : List Nat := freeOf s.adpSize (s.serve.adapters.flatMap (fun a => pageRun a.first a.pages))

/-- Free pages of the grammar pool (SERVE_GRM_FREE). -/
def State.grmFree (s : State) : List Nat := freeOf s.grmSize (s.serve.grammars.flatMap (fun g => pageRun g.first g.pages))

/-! ### Geometry (R249, R250) -/

/-- L of the running weave. -/
def State.kvL (s : State) : Nat := match s.weave.run with
  | some d => d.kvLayers
  | none => 1

/-- d_kv of the running weave. -/
def State.kvD (s : State) : Nat := match s.weave.run with
  | some d => d.kvWidth
  | none => 64

/-- T: tokens in a page. -/
def State.kvT (s : State) : Nat := 2048 / s.kvD

/-- Code of d_kv (Table Phases-5). -/
def kvCode (d : Nat) : Nat := topBit 11 d - 7

/-- Pages of the page list of `n` pages. -/
def listPagesOf (n : Nat) : Nat := ceilDiv (64 + 8 * n) 4096

/-- Pages that `tokens` tokens take, without their list. -/
def State.kvData (s : State) (tokens : Nat) : Nat := s.kvL * ceilDiv tokens s.kvT

/-- Pages reserved for `tokens` tokens, with their list (R249). -/
def State.kvNeed (s : State) (tokens : Nat) : Nat := s.kvData tokens + listPagesOf (s.kvData tokens)

/-! ### Contexts -/

/-- The context of a request. -/
def State.ctx (s : State) (owner : BitVec 6) (req : Nat) : Option Ctx :=
  s.serve.ctxs.find? (fun c => c.owner == owner && c.req.toNat == req)

/-- A context takes the place of the one of the same request. -/
def putCtx (c : Ctx) (s : State) : State :=
  { s with serve := { s.serve with
    ctxs := s.serve.ctxs.filter (fun d => !(d.owner == c.owner && d.req == c.req)) ++ [c] } }

/-- A request's context goes. -/
def dropCtx (owner : BitVec 6) (req : Nat) (s : State) : State :=
  { s with serve := { s.serve with ctxs := s.serve.ctxs.filter (fun d => !(d.owner == owner && d.req.toNat == req)) } }

/-- A context with nothing held, from a request's entry (Table Requests-1). -/
def newCtx (owner : BitVec 6) (req : Nat) (e : Desc) : Ctx where
  owner := owner
  req := BitVec.ofNat 12 req
  tenant := BitVec.ofNat 12 (bits e 16 12)
  adGen := BitVec.ofNat 8 (descNum e 5 1)
  parcel := BitVec.ofNat 32 (descNum e 16 4)
  promptLen := bits e 48 12
  maxLen := bits e 96 9
  grammar := BitVec.ofNat 8 (descNum e 4 1)
  genLen := bits e 80 9
  started := false
  grmGen := 0
  auto := 0
  u0 := 0
  u1 := 0
  taken := false
  failed := false
  stopped := false
  held := 0
  listFirst := 0
  listPages := 0
  pages := []
  spare := []
  expect := none
  sealTo := none
  listIn := []
  listBad := []
  pagesIn := []
  pagesBad := []
  coded := true
  sent := none
  copy := none
  making := none

/-- A context that starts its prompt again on the pages it has. -/
def Ctx.again (c : Ctx) (e : Desc) : Ctx :=
  { newCtx c.owner c.req.toNat e with
    copy := c.copy, listFirst := c.listFirst, listPages := c.listPages, spare := c.pages ++ c.spare }

/-- A context with its KV pages freed. -/
def Ctx.freed (c : Ctx) : Ctx :=
  { c with held := 0, listFirst := 0, listPages := 0, pages := [], spare := [], started := false }

/-! ### Page lists -/

/-- Store address of a KV page. -/
def State.kvAddr (s : State) (p : Nat) : Nat := s.kvBase + 4096 * p

/-- The entries of a page list in memory at `a`. -/
def State.listEntries (s : State) (a n : Nat) : List Nat :=
  (List.range n).map (fun e => ofLe (s.rdMem (a + 64 + 8 * e) 8))

/-- An entry: page number, tokens held, CRC of the page (Table Phases-5). -/
def kvEntry (page tokens : Nat) (bytes : List Byte) : Nat := page + tokens * 2 ^ 20 + (crc32c bytes).toNat * 2 ^ 32

/-- Page number of an entry. -/
def entryPage (e : Nat) : Nat := e % 2 ^ 20
/-- Tokens of an entry. -/
def entryTokens (e : Nat) : Nat := e / 2 ^ 20 % 64
/-- CRC of an entry. -/
def entryCrc (e : Nat) : Nat := e / 2 ^ 32

/-- The bytes of a page list. -/
def kvListBytes (magic l code req owner tokens parcel genLen : Nat) (es : List Nat) : List Byte :=
  let head := leBytes 2 magic ++ leBytes 1 l ++ leBytes 1 code ++ leBytes 2 req ++ leBytes 1 owner ++ [0]
    ++ leBytes 2 tokens ++ leBytes 2 es.length ++ leBytes 4 parcel ++ leBytes 2 genLen ++ leBytes 42 0
  let ents := (es.map (leBytes 8)).flatten
  head ++ leBytes 4 (crc32c (head ++ ents)).toNat ++ ents

/-- The list bytes of a context. -/
def ctxList (s : State) (c : Ctx) (magic genLen : Nat) (es : List Nat) : List Byte :=
  kvListBytes magic s.kvL (kvCode s.kvD) c.req.toNat c.owner.toNat c.held c.parcel.toNat genLen es

/-- The list CRC of list bytes holds: over bytes 0 to 59 and every entry. -/
def listCrcOk (l : List Byte) : Bool :=
  let n := leAt l 10 2
  (crc32c (l.take 60 ++ (l.drop 64).take (8 * n))).toNat == leAt l 60 4

/-- The cache of a context passes its checks: list magic, list CRC, and each page's CRC (R251). -/
def kvSound (s : State) (c : Ctx) : Bool :=
  c.pages.isEmpty ||
    (let a := s.kvAddr c.listFirst
     let l := s.rdMem a (64 + 8 * c.pages.length)
     leAt l 0 2 == 0x4B56 && listCrcOk l && leAt l 10 2 == c.pages.length
       && (s.listEntries a c.pages.length).all (fun e =>
         (crc32c (s.rdMem (s.kvAddr (entryPage e)) 4096)).toNat == entryCrc e))

/-- A page or the list of the cache carries poison (R273). -/
def kvPoisoned (s : State) (c : Ctx) : Bool :=
  c.pages.any (fun p => s.poisoned (s.kvAddr p) 4096) || s.poisoned (s.kvAddr c.listFirst) (64 + 8 * c.pages.length)

/-- A page that fails its check outside a transfer: an uncorrectable fault (R251). -/
def kvFault (s : State) : State := unitFault 5 0 eKvPage s

/-- Whether each of the first `n` entries of the list at `a` carries poison. -/
def State.entryMarks (s : State) (a n : Nat) : List Bool := (List.range n).map (fun e => s.poisoned (a + 64 + 8 * e) 8)

/-- The bytes of a page list with the marks of its entries: the list CRC carries the mark of any (R273). -/
def markList (ms : List Bool) (l : List Byte) : Marked :=
  marked l (List.replicate 60 false ++ List.replicate 4 (ms.any id) ++ (ms.map (List.replicate 8)).flatten)

/-- A context reserves pages for `tokens` tokens (R249): pages it has count toward them; none if they do not fit. Its list
moves if it needs more pages. -/
def reserve (tokens : Nat) (c : Ctx) (s : State) : Option State :=
  let d := s.kvData tokens
  let lp := listPagesOf d
  let es := s.listEntries (s.kvAddr c.listFirst) c.pages.length
  let run := if lp ≤ c.listPages then some (c.listFirst, s.kvFree) else allocRun s.freeCtr lp s.kvFree
  match run with
  | none => none
  | some (f, free) =>
    match allocPages s.freeCtr (d - c.pages.length - c.spare.length) free with
    | none => none
    | some (ps, _) =>
      let c' := { c with listFirst := f, listPages := max lp c.listPages, spare := c.spare ++ ps }
      let s := putCtx c' { s with freeCtr := s.freeCtr + 1 }
      let ms := s.entryMarks (s.kvAddr c.listFirst) c.pages.length
      some (if c.pages.isEmpty then s else wrMarked (s.kvAddr f) (markList ms (ctxList s c' 0x4B56 0 es)) s)

/-- A page's contents, filled up with zeros. -/
def fullPage (p : Marked) : Marked := p.take 4096 ++ clean (List.replicate (4096 - p.length) 0)

/-- Pages from ordinal `o` are written with their contents, their entries and the list CRC updated (R251); each with its
poison marks (R273). -/
def writeKv (c : Ctx) (held o : Nat) (contents : List Marked) (s : State) : State :=
  let need := o + contents.length - c.pages.length
  let all := c.pages ++ c.spare.take need
  let old := s.listEntries (s.kvAddr c.listFirst) c.pages.length
  let oldBad := s.entryMarks (s.kvAddr c.listFirst) c.pages.length
  let full := contents.map fullPage
  let tokensOf (ord : Nat) : Nat := min s.kvT (held - ord / s.kvL * s.kvT)
  let keeps (i : Nat) : Bool := decide (i < o ∨ o + full.length ≤ i)
  let es := (List.range all.length).map (fun i =>
    if keeps i then nthD 0 old i else kvEntry (nthD 0 all i) (tokensOf i) (bytesOf (nthD [] full (i - o))))
  let ms := (List.range all.length).map (fun i =>
    if keeps i then nthD false oldBad i else anyBad (nthD [] full (i - o)))
  let c' := { c with held := held, pages := all, spare := c.spare.drop need }
  let s := full.zipIdx.foldl (fun s p => wrMarked (s.kvAddr (nthD 0 all (o + p.2))) p.1 s) s
  putCtx c' (wrMarked (s.kvAddr c.listFirst) (markList ms (ctxList s c' 0x4B56 0 es)) s)

/-- Pages computed from a cache: poisoned where the cache is (R273). -/
def computed (bad : Bool) (n : Nat) (pages : List (List Byte)) : List Marked :=
  (List.range n).map (fun i => (nthD [] pages i).map (fun b => (b, bad)))

/-! ### Words -/

/-- The CRC of an order or report word holds (Tables Phases-2, Phases-3). -/
def wordOk (w : LinkWord) : Bool := crc32c (leBytes 12 (lwNum w 0 12)) == BitVec.ofNat 32 (lwNum w 12 4)

/-- A word with its CRC. -/
def withCrc (body : Nat) : LinkWord := linkWord (body + (crc32c (leBytes 12 body)).toNat * 2 ^ 96)

/-- Request index of an order or report word. -/
def wReq (w : LinkWord) : Nat := bits w 0 12
/-- Kind of an order word, place kind of a report word. -/
def wKind (w : LinkWord) : Nat := bits w 12 4
/-- Destination of an order, package of a report. -/
def wPkg (w : LinkWord) : Nat := lwByte w 2
/-- Transfer number of an order. -/
def wXfer (w : LinkWord) : Word := BitVec.ofNat 32 (lwNum w 8 4)

/-- A place report word (Table Phases-2). -/
def reportWord (s : State) (req kind flags tokens margin reason : Nat) : LinkWord :=
  withCrc (req + kind * 2 ^ 12 + s.pkg.toNat * 2 ^ 16 + flags * 2 ^ 24 + tokens % 4096 * 2 ^ 32 + margin * 2 ^ 48
    + reason * 2 ^ 64)

/-- An order word (Table Phases-3). -/
def orderWord (req kind dst place first chunk gen : Nat) (xfer : Word) : LinkWord :=
  withCrc (req + kind * 2 ^ 12 + dst * 2 ^ 16 + place * 2 ^ 24 + first % 4096 * 2 ^ 32 + chunk * 2 ^ 48 + gen * 2 ^ 56
    + xfer.toNat * 2 ^ 64)

/-- A word that fails its CRC is a failed static frame (R247, R56). -/
def badWord (s : State) : State := unitFault 5 0 0 s

/-- An order that reaches this package: it acts while the weave runs here, under an intact CRC and its own kind. -/
def onOrder (kind : Nat) (w : LinkWord) (k : State → State) (s : State) : State :=
  if !s.weaveActive then s
  else if !wordOk w then badWord s
  else if wKind w ≠ kind then s
  else k s

/-- The place of this package that an order names. -/
def State.placeOf (s : State) (w : LinkWord) (owner : BitVec 6) : Option PlaceDecl :=
  match s.weave.run with
  | some d => d.places.find? (fun p => p.pkg == s.pkg && p.index.toNat == lwByte w 3 && p.owner == owner && placeFits d p)
  | none => none

/-- The request that a CHUNK order names was made from a crop of this package: its header takes the request index that the
owner assigned (Table Regions-3, log entry 38). -/
def indexCrop (owner : BitVec 6) (k : Nat) (e : Desc) (s : State) : State :=
  let slot := descNum e 44 2 % 512
  match smGet none s.roi.crops slot with
  | some c =>
    if descNum e 40 1 = s.pkg.toNat ∧ c.owner = owner ∧ c.done ∧ c.parcel.toNat = descNum e 16 4 then
      wrMem (s.cropAddr slot) (headerFor (s.rdMem (s.cropAddr slot) 64) k) s
    else s
  | none => s

/-! ### Adapters in a step (R242) -/

/-- The opened adapter of a tenant's generation in the pool here. -/
def State.adapterAt (s : State) (tenant : BitVec 12) (gen : BitVec 8) : Option AdapterRun :=
  s.serve.adapters.find? (fun a => a.tenant == tenant && a.gen == gen)

/-- Rank that a rank code stands for (Table Requests-4). -/
def rankOf (code : BitVec 3) : Nat := 4 * 2 ^ code.toNat

/-- The sum of products of two int8 vectors. -/
def dot8 (a x : List Byte) : Int := ((List.zip a x).map (fun p => p.1.toInt * p.2.toInt)).foldl (· + ·) 0

/-- The part of an adapter for one projection of K inputs and N outputs, as it lies in the payload: the requantisation word
of A, the rows of A and the rows of B. -/
structure AdapterPart where
  qa : Word
  a  : List (List Byte)
  b  : List (List Byte)
  deriving DecidableEq, Repr

/-- Offset of projection `j` in the payload of rank `r`. -/
def partOffset (ps : List (Nat × Nat)) (r j : Nat) : Nat := ((ps.take j).map (fun p => 8 + r * (p.1 + p.2))).foldl (· + ·) 0

/-- The part of an adapter's payload for a projection, from its bytes. -/
def adapterPart (k n r : Nat) (l : List Byte) : AdapterPart :=
  ⟨BitVec.ofNat 32 (leAt l 0 4), pieces k r ((l.drop 8).take (k * r)), pieces r n ((l.drop (8 + k * r)).take (n * r))⟩

/-- t = q_A(A x) (R242, R185). -/
def adapterT (p : AdapterPart) (x : List Byte) : List Byte := p.a.map (fun row => requant p.qa (BitVec.ofInt 32 (dot8 row x)))

/-- B t is added, in int32 modulo 2^32, to the request's column of the drain entries that hold W x (R242). -/
def adaptEntries (u : AdapterPass) (p : AdapterPart) (bad : Bool) (s : State) : State :=
  let t := adapterT p u.x
  let x := s.arr u.core.val u.array.val
  let rows := ((p.b.drop u.row).take u.count).zipIdx
  let drain := rows.foldl (fun m y =>
    let e := smGet DrainEntry.reset m (u.first + y.2)
    let v := nthD 0 e.vals u.col.val + BitVec.ofInt 32 (dot8 y.1 t)
    smSet DrainEntry.reset m (u.first + y.2) { e with vals := e.vals.set u.col.val v, poisoned := e.poisoned || bad }) x.drain
  s.setArray u.core.val u.array.val { x with drain := drain }

/-- One adapted projection of a request (R242). -/
def adaptOne (a : AdapterRun) (s : State) (u : AdapterPass) : State :=
  match s.weave.run with
  | none => s
  | some d =>
    match d.projections[u.proj]? with
    | none => s
    | some (k, n) =>
      let r := rankOf a.rank
      let l := s.rdMarked (s.adpBase + 4096 * a.first + partOffset d.projections r u.proj) (8 + r * (k + n))
      adaptEntries u (adapterPart k n r (bytesOf l)) (anyBad l) s

/-- The adapter passes of a request in a step: a request of generation 0 adds nothing (R242). -/
def adapt (tenant : BitVec 12) (gen : BitVec 8) (us : List AdapterPass) (s : State) : State :=
  if gen = 0 then s
  else match s.adapterAt tenant gen with
    | none => s
    | some a => us.foldl (adaptOne a) s

/-- A CHUNK order (R248): the pages of the chunk's tokens are written and the chunk is reported; a cache that fails its
checks is a fault (R251). -/
def orderChunk (w : LinkWord) (owner : BitVec 6) (e : Desc) (pages : List (List Byte)) (ads : List AdapterPass)
    (s : State) : State :=
  let first := bits w 32 12
  let n := lwByte w 6 + 1
  match s.placeOf w owner with
  | none => s
  | some pl =>
    if pl.kind = 2 then s
    else
      let c := match s.ctx owner (wReq w) with
        | some c => if first = 0 then c.again e else c
        | none => newCtx owner (wReq w) e
      match reserve c.promptLen c s with
      | none => s
      | some s =>
        match s.ctx owner (wReq w) with
        | none => s
        | some c =>
          if !kvSound s c then kvFault s
          else
            let o := first / s.kvT * s.kvL
            let count := ((first + n - 1) / s.kvT + 1) * s.kvL - o
            let gen := BitVec.ofNat 8 (lwByte w 7)
            let s := writeKv { c with adGen := gen } (first + n) o (computed (kvPoisoned s c) count pages)
              (adapt c.tenant gen ads s)
            let done := c.promptLen ≤ first + n
            sendReport owner (reportWord s (wReq w) pl.kind.val (1 + (if done then 2 else 0)) (first + n) 0 0) s

/-- ORDER_CHUNK (R248). -/
def execOrderChunk (w : LinkWord) (owner : BitVec 6) (entry : Desc) (pages : List (List Byte)) (adapters : List AdapterPass)
    (s : State) : Outcome :=
  .next (onOrder 1 w (fun s => orderChunk w owner entry pages adapters (indexCrop owner (wReq w) entry s)) s)

/-! ### Transfers (R252-R254) -/

/-- Sub-header of a KV_SHIP message (Table Phases-6) with the CRC of its part data. -/
def kvHead (req kind owner : Nat) (coded : Bool) (xfer : Word) (v : Nat) (data : List Byte) : List Byte :=
  leBytes 2 (req + kind * 2 ^ 12) ++ leBytes 1 owner ++ leBytes 1 coded.toNat ++ leBytes 4 xfer.toNat ++ leBytes 4 v
    ++ leBytes 4 (if data.isEmpty then 0 else (crc32c data).toNat)

/-- One part of a transfer leaves as messages of at most 992 bytes, poison marks beside the data (R273). -/
def sendPart (c : Ctx) (kind : Nat) (dst : BitVec 6) (coded : Bool) (x : Word) : Nat → Nat → Marked → State → State
  | 0, _, _, s => s
  | f + 1, o, l, s =>
    if l.isEmpty then s
    else
      let h := kvHead c.req.toNat kind c.owner.toNat coded x 0 (bytesOf (l.take 992))
      sendPart c kind dst coded x f (o + 992) (l.drop 992)
        (sendLoose (s.mkMarked 6 dst (BitVec.ofNat 48 o) (clean h ++ l.take 992)) s)

/-- A message of a transfer without part data. -/
def kvNote (c : Ctx) (kind : Nat) (dst : BitVec 6) (coded : Bool) (x : Word) (v : Nat) (s : State) : State :=
  sendLoose (s.mkLoose 6 dst 0 0 (kvHead c.req.toNat kind c.owner.toNat coded x v [])) s

/-- A list and its pages leave for `dst` (R252), coded as DKV unless they feed a seal. -/
def sendCache (c : Ctx) (dst : BitVec 6) (coded : Bool) (x : Word) (list raw : Marked) (s : State) : State :=
  let part := if coded then markedStream 3 raw else raw
  let s := sendPart c 1 dst coded x (list.length / 992 + 1) 0 list s
  let s := sendPart c 2 dst coded x (part.length / 992 + 1) 0 part s
  kvNote c 3 dst coded x part.length s

/-- A transfer that names a codec over a protected range, or with codecs off, is refused: the code goes to its issuer
(R227). -/
def shipVerdict (s : State) (coded : Bool) (pages : List Nat) : Code :=
  if !coded then 0
  else if pages.any (fun a => s.protTouched a 4096) then ePlaitProtected
  else if !s.flag Reg.plaitCtl 0 then ePlaitCodec
  else 0

/-- The holder sends a cache: from its pages, or from its park copy (R252, R260). -/
def shipFrom (c : Ctx) (fromCopy coded : Bool) (dst : BitVec 6) (x : Word) (s : State) : State :=
  let src : Option (Nat × Nat × List Nat) :=
    if fromCopy then c.copy.map (fun p => (s.parkBase, p.first, p.pages))
    else if c.pages.isEmpty then none else some (s.kvBase, c.listFirst, c.pages)
  match src with
  | none => s
  | some (base, first, ps) =>
    let addrs := ps.map (fun p => base + 4096 * p)
    let v := shipVerdict s coded addrs
    if v ≠ 0 then (latch v 0 s).emit (.issuerCode v)
    else
      let again := c.sent.isSome
      let list := s.rdMarked (base + 4096 * first) (64 + 8 * ps.length)
      let raw := (addrs.map (fun a => s.rdMarked a 4096)).flatten
      let s := if again then s.bumpSat Reg.serveKvReship 16 1 else s
      sendCache c dst coded x list raw (putCtx { c with sent := some (x, fromCopy) } s)

/-- A destination learns of a transfer: it reserves the pages and expects its number (R249, R253). -/
def expectCache (owner : BitVec 6) (req : Nat) (e : Desc) (x : Word) (s : State) : State :=
  let c := match s.ctx owner req with
    | some c => c
    | none => newCtx owner req e
  let c := { c with expect := some x, sealTo := none, listIn := [], listBad := [], pagesIn := [], pagesBad := [] }
  match reserve (c.promptLen + c.maxLen) c s with
  | some s => s
  | none => s

/-- A SHIP order at the holder, or at the destination. -/
def orderShip (w : LinkWord) (owner : BitVec 6) (e : Desc) (s : State) : State :=
  if wPkg w = s.pkg.toNat then expectCache owner (wReq w) e (wXfer w) s
  else match s.ctx owner (wReq w) with
    | some c => shipFrom c false true (BitVec.ofNat 6 (wPkg w)) (wXfer w) s
    | none => s

/-- ORDER_SHIP (R252). -/
def execOrderShip (w : LinkWord) (owner : BitVec 6) (entry : Desc) (s : State) : Outcome :=
  .next (onOrder 3 w (orderShip w owner entry) s)

/-- Sub-header fields of a KV_SHIP message. -/
def kvReq (m : Loose) : Nat := leAt m.payload 0 2 % 4096
def kvKind (m : Loose) : Nat := leAt m.payload 0 2 / 4096
def kvOwner (m : Loose) : BitVec 6 := BitVec.ofNat 6 (leAt m.payload 2 1)
def kvCoded (m : Loose) : Bool := leAt m.payload 3 1 % 2 == 1
def kvXfer (m : Loose) : Word := BitVec.ofNat 32 (leAt m.payload 4 4)
def kvData (m : Loose) : List Byte := m.payload.drop 16
def kvBad (m : Loose) : List Bool := marksOf ((looseMarked m).drop 16)

/-- Entries of a received list. -/
def inEntries (l : List Byte) : List Nat := (List.range (leAt l 10 2)).map (fun e => leAt l (64 + 8 * e) 8)

/-- The received list passes check 3 of Table Phases-7: magic, CRC, geometry within the reservation. -/
def listOk (s : State) (c : Ctx) : Bool :=
  let l := c.listIn
  let n := leAt l 10 2
  64 ≤ l.length && (leAt l 0 2 == 0x4B56 || leAt l 0 2 == 0x504B) && decide (l.length = 64 + 8 * n) && listCrcOk l
    && leAt l 2 1 == s.kvL && leAt l 3 1 == kvCode s.kvD
    && (c.sealTo.isSome || decide (n ≤ c.pages.length + c.spare.length)) && decide (n = s.kvData (leAt l 8 2))

/-- Whole blocks that stand in a part from offset `o` on, added to `n`. -/
def wholeBlocks (part : List Byte) : Nat → Nat → Nat → Nat
  | 0, _, n => n
  | f + 1, o, n =>
    let len := blockLen ((part.drop o).take 16)
    if part.length < o + 16 ∨ part.length < o + len then n else wholeBlocks part f (o + len) (n + 1)

/-- Blocks of a coded PAGES part that have arrived whole: raw bytes and the code of the first that fails; a part whose
stream header has not arrived shows nothing. -/
def codedPages (part : Marked) : Code × Marked :=
  let h := bytesOf (part.take 64)
  if part.length < 64 then (0, [])
  else if !headerOk h then (ePlaitStream, [])
  else
    let n := wholeBlocks (bytesOf part) (part.length / 16) (leAt h 16 4) 0
    let r := plaitRead (fun o k => if o + k ≤ part.length then (part.drop o).take k else []) 1 (leAt h 4 4) n 0
      [leAt h 16 4] (4096 * n)
    (r.code, r.raw)

/-- The bytes of PAGES that have arrived, raw, with their marks, or the code of the first block that fails (check 4). -/
def inRaw (c : Ctx) : Code × Marked :=
  let part := marked c.pagesIn c.pagesBad
  if c.coded then codedPages part else (0, part)

/-- The pages that have arrived whole, raw, and that code. -/
def inPages (c : Ctx) : Code × List (List Byte) :=
  let r := inRaw c
  (r.1, (pieces 4096 (r.2.length / 4096) r.2).map bytesOf)

/-- The same pages with their marks. -/
def inMarked (c : Ctx) : List Marked := pieces 4096 ((inRaw c).2.length / 4096) (inRaw c).2

/-- A decoded page against its list entry (check 5). -/
def pagesOk (c : Ctx) (ps : List (List Byte)) : Bool :=
  (List.zip ps (inEntries c.listIn)).all (fun p => (crc32c p.1).toNat == entryCrc p.2)

/-- A transfer fails at its destination (R253): what it wrote is discarded, the reservation stays, NAK and a NAK report
go out, an EVENT carries the code. -/
def kvFail (m : Loose) (c : Ctx) (v : Code) (s : State) : State :=
  let s := putCtx { c with expect := none, listIn := [], listBad := [], pagesIn := [], pagesBad := [] } (latch v 0 s)
  let s := kvNote c 5 (m.src.setWidth 6) false (kvXfer m) v.toNat s
  let s := sendReport c.owner (reportWord s c.req.toNat 0 64 0 0 0) s
  postEvent eKvShip (v.setWidth 128) s

/-- A message of a transfer that this package expects: checks 1 and 2, then `k`. -/
def onShip (kind : Nat) (m : Loose) (have_ : Ctx → Nat) (k : Ctx → State → State) (s : State) : State :=
  if !s.weaveActive || kvKind m != kind then s
  else match s.ctx (kvOwner m) (kvReq m) with
    | none => s
    | some c =>
      match c.expect with
      | none => s
      | some x =>
        if x ≠ kvXfer m ∨ m.addr.toNat ≠ have_ c then kvFail m c eKvSeq s
        else if (if (kvData m).isEmpty then 0 else (crc32c (kvData m)).toNat) ≠ leAt m.payload 12 4 then
          kvFail m c eKvShipCrc s
        else k c s

/-- A LIST message: judged once the list is whole. -/
def kvShipList (m : Loose) (s : State) : State :=
  onShip 1 m (fun c => c.listIn.length) (fun c s =>
    let c := { c with listIn := c.listIn ++ kvData m, listBad := c.listBad ++ kvBad m, coded := kvCoded m }
    if 64 ≤ c.listIn.length && 64 + 8 * leAt c.listIn 10 2 ≤ c.listIn.length && !listOk s c then kvFail m c eKvList s
    else putCtx c s) s

/-- KV_SHIP_LIST (R253). -/
def execKvShipList (m : Loose) (s : State) : Outcome := .next (kvShipList m s)

/-- A PAGES message: the blocks that it completes are judged. -/
def kvShipPages (m : Loose) (s : State) : State :=
  onShip 2 m (fun c => c.pagesIn.length) (fun c s =>
    let c := { c with pagesIn := c.pagesIn ++ kvData m, pagesBad := c.pagesBad ++ kvBad m, coded := kvCoded m }
    if !listOk s c then kvFail m c eKvList s
    else
      let r := inPages c
      if !pagesOk c r.2 then kvFail m c eKvPage s
      else if r.1 ≠ 0 then kvFail m c r.1 s
      else putCtx c s) s

/-- KV_SHIP_PAGES (R253). -/
def execKvShipPages (m : Loose) (s : State) : Outcome := .next (kvShipPages m s)

/-! ### Host slots (R257, R258) -/

/-- Bus address of a host park slot. -/
def State.slotAddr (s : State) (k : Nat) : Nat :=
  s.pair Reg.serveParkHostLo Reg.serveParkHostHi + k * 2 ^ (10 + s.fld Reg.serveParkHostCfg 0 4)

/-- Bytes of a host park slot. -/
def State.slotSize (s : State) : Nat := 2 ^ (10 + s.fld Reg.serveParkHostCfg 0 4)

/-- Bytes that a sealed context of `n` list and page bytes takes. -/
def sealedLen (n : Nat) : Nat := 64 + n + 16

/-- The park nonce (Table Phases-9), most significant byte first. -/
def parkNonce (s : State) : List Byte :=
  beBytes 12 (s.pkg.toNat * 2 ^ 90 + s.serve.parkEpoch.toNat * 2 ^ 64 + s.serve.parkCtr.toNat)

/-- The park key of a draw. -/
def parkKeyBytes (n : Nat) : List Byte := (List.range 32).map (Config.parkKey n)

/-- Bytes 8 to 63 of a host slot (Table Phases-8). -/
def slotAad (nonce : List Byte) (len : Nat) : List Byte := nonce ++ leBytes 4 len ++ leBytes 40 0

/-- The commit word of a host slot. -/
def slotCommit (req : Nat) (rest : List Byte) : Nat := 0x5EA1 + req * 2 ^ 16 + (crc32c rest).toNat * 2 ^ 32

/-- A list and its pages are sealed into host slot `k`, the commit word last; the counter rises (R257, R258). The last
counter sets EXHAUSTED. Poisoned pages never leave (R273). -/
def sealSlot (k req : Nat) (plain : List Byte) (s : State) : State :=
  let nonce := parkNonce s
  let aad := slotAad nonce plain.length
  let r := gcmSeal (parkKeyBytes s.serve.parkKey) nonce aad plain
  let rest := aad ++ r.1 ++ r.2
  let a := s.slotAddr k
  let s := hostPut (BitVec.ofNat 64 (a + 8)) rest s
  let s := hostPut (BitVec.ofNat 64 a) (leBytes 8 (slotCommit req rest)) s
  { s with serve := { s.serve with
    exhausted := s.serve.exhausted || decide (s.serve.parkCtr = BitVec.allOnes 64),
    parkCtr := if s.serve.parkCtr = BitVec.allOnes 64 then s.serve.parkCtr else s.serve.parkCtr + 1,
    hostSlots := smSet none s.serve.hostSlots k (some (BitVec.ofNat 12 req)) } }

/-- A host slot is freed by a zero commit word (R259). -/
def freeSlot (k : Nat) (s : State) : State :=
  let s := hostPut (BitVec.ofNat 64 (s.slotAddr k)) (leBytes 8 0) s
  { s with serve := { s.serve with hostSlots := smSet none s.serve.hostSlots k none } }

/-- The slot's bytes pass: marker, request, commit CRC and tag (R260, R282); the list and pages, or none. -/
def openSlot (s : State) (req : Nat) (slot : List Byte) : Option (List Byte) :=
  let len := leAt slot 20 4
  let rest := (slot.drop 8).take (56 + len + 16)
  if leAt slot 0 2 ≠ 0x5EA1 ∨ leAt slot 2 2 ≠ req ∨ slot.length < sealedLen len
      ∨ leAt slot 4 4 ≠ (crc32c rest).toNat then none
  else gcmOpen (parkKeyBytes s.serve.parkKey) (rest.take 12) (rest.take 56) ((rest.drop 56).take len)
    ((rest.drop (56 + len)).take 16)

/-- The device address under which a host slot stands in an entry. -/
def State.slotDevice (s : State) (k : Nat) : BitVec 48 := BitVec.ofNat 48 (0x800000000000 + s.slotAddr k)

/-- A store-parked context of this owner now lies in host slot `k`. -/
def inHostSlot (req k : Nat) (s : State) : State :=
  let r := smGet Req.reset s.serve.reqs req
  match r.parkedCopy with
  | some p =>
    let r := { r with parkedCopy := some { p with host := true, slot := k }, kvPkg := 0xFF, kvPages := 0,
                      listAddr := s.slotDevice k }
    { s with serve := { s.serve with reqs := smSet Req.reset s.serve.reqs req r } }
  | none => s

/-! ### The end of a transfer -/

/-- A received cache is written: pages into the reserved ones, the list with their numbers (R251). -/
def placeCache (c : Ctx) (ps : List Marked) (s : State) : State :=
  let l := c.listIn
  let g := leAt l 16 2
  let c := { c with spare := c.pages ++ c.spare, pages := [], expect := none, listIn := [], listBad := [],
                    pagesIn := [], pagesBad := [], started := false, stopped := false,
                    genLen := if leAt l 0 2 = 0x504B then g else c.genLen }
  writeKv c (leAt l 8 2) 0 ps s

/-- A cache that feeds a seal goes to its host slot (R257). Poisoned bytes never leave: E_POISON, and the weave restarts
(R273); a key whose counter is spent refuses the move, and the context stays in the store tier (R258). -/
def sealArrived (m : Loose) (c : Ctx) (k : Nat) (ps : List (List Byte)) (s : State) : State :=
  let gone := dropCtx c.owner c.req.toNat s
  if c.listBad.any id || anyBad (inRaw c).2 then unitFault 5 0 ePoison gone
  else if s.serve.exhausted then
    postEvent eNonceExhausted 0 (kvNote c 5 (m.src.setWidth 6) false (kvXfer m) eNonceExhausted.toNat gone)
  else
    dropCtx c.owner c.req.toNat (inHostSlot c.req.toNat k (sealSlot k c.req.toNat (c.listIn ++ ps.flatten)
      (kvNote c 4 (m.src.setWidth 6) false (kvXfer m) 0 s)))

/-- END (R253, R254): the totals; a cache that feeds a seal goes to its host slot, another to its pages; ACK and the
ARRIVED report. -/
def kvShipEnd (m : Loose) (s : State) : State :=
  onShip 3 m (fun _ => 0) (fun c s =>
    if !listOk s c then kvFail m c eKvList s
    else
      let r := inPages c
      let n := leAt c.listIn 10 2
      let v := shipVerdict s (kvCoded m) ((c.pages ++ c.spare).map s.kvAddr)
      if !pagesOk c r.2 then kvFail m c eKvPage s
      else if r.1 ≠ 0 then kvFail m c r.1 s
      else if v ≠ 0 then kvFail m c v s
      else if leAt m.payload 8 4 ≠ c.pagesIn.length ∨ r.2.length ≠ n then kvFail m c eKvSeq s
      else match c.sealTo with
        | some k => sealArrived m c k r.2 s
        | none =>
          let s := placeCache c (inMarked c) (kvNote c 4 (m.src.setWidth 6) false (kvXfer m) 0 s)
          sendReport c.owner (reportWord s c.req.toNat 0 16 0 0 0) s) s

/-- KV_SHIP_END (R254). -/
def execKvShipEnd (m : Loose) (s : State) : Outcome := .next (kvShipEnd m s)

/-- An ACK reaches the source (R254): pages that were sent are freed; a park copy that was sent goes unless KEEP is set,
or it moved to host memory. -/
def kvShipAck (m : Loose) (s : State) : State :=
  if kvKind m ≠ 4 then s
  else match s.ctx (kvOwner m) (kvReq m) with
    | none => s
    | some c =>
      match c.sent with
      | some (x, fromCopy) =>
        if x ≠ kvXfer m then s
        else
          let s := if fromCopy then s else sendReport c.owner (reportWord s c.req.toNat 0 32 0 0 0) s
          if !fromCopy then
            (if c.copy.isSome then putCtx { c.freed with sent := none } s else dropCtx c.owner c.req.toNat s)
          else if s.flag Reg.serveParkCfg 9 && c.sealTo.isNone then putCtx { c with sent := none } s
          else if c.kvPages.isEmpty then dropCtx c.owner c.req.toNat s
          else putCtx { c with sent := none, copy := none } s
      | none => s

/-- KV_SHIP_ACK (R254). -/
def execKvShipAck (m : Loose) (s : State) : Outcome := .next (kvShipAck m s)

/-- A NAK reaches the source with the failure code (R253): the cache stays, and the next SHIP order sends it again. -/
def kvShipNak (m : Loose) (s : State) : State :=
  if kvKind m ≠ 5 then s
  else match s.ctx (kvOwner m) (kvReq m) with
    | none => s
    | some c =>
      match c.sent with
      | some (x, _) => if x = kvXfer m then s.emit (.issuerCode (BitVec.ofNat 16 (leAt m.payload 8 2))) else s
      | none => s

/-- KV_SHIP_NAK (R253). -/
def execKvShipNak (m : Loose) (s : State) : Outcome := .next (kvShipNak m s)

/-! ### Parking (R255-R257) -/

/-- A PARK_STORE order: a copy begins if the park pool has the pages (R256). -/
def orderParkStore (w : LinkWord) (owner : BitVec 6) (s : State) : State :=
  match s.ctx owner (wReq w) with
  | none => s
  | some c =>
    if c.pages.isEmpty || c.making.isSome then s
    else
      let lp := listPagesOf c.pages.length
      match allocRun s.freeCtr lp s.parkFree with
      | none => s
      | some (f, free) =>
        match allocPages s.freeCtr c.pages.length free with
        | none => s
        | some (ps, _) =>
          putCtx { c with making := some ⟨f, lp, ps, c.genLen, c.held⟩ } { s with freeCtr := s.freeCtr + 1 }

/-- ORDER_PARK_STORE (R256). -/
def execOrderParkStore (w : LinkWord) (owner : BitVec 6) (s : State) : Outcome :=
  .next (onOrder 4 w (orderParkStore w owner) s)

/-- The copy is complete (R256): each page checked as it was copied, the list header last, then the KV pages are freed.
A page that fails its check abandons the copy, and NAK is reported. -/
def parkCopyDone (owner : BitVec 6) (req : Nat) (s : State) : State :=
  if !s.weaveActive then s
  else match s.ctx owner req with
    | none => s
    | some c =>
      match c.making with
      | none => s
      | some p =>
        if !kvSound s c then
          sendReport owner (reportWord s req 0 64 0 0 0) (putCtx { c with making := none } (latch eKvPage 0 s))
        else
          let old := s.listEntries (s.kvAddr c.listFirst) c.pages.length
          let es := (List.zip p.pages old).map (fun x => x.1 + x.2 / 2 ^ 20 * 2 ^ 20)
          let ms := s.entryMarks (s.kvAddr c.listFirst) c.pages.length
          let s := (List.zip p.pages c.pages).foldl (fun s x =>
            wrMarked (s.parkBase + 4096 * x.1) (s.rdMarked (s.kvAddr x.2) 4096) s) s
          let s := wrMarked (s.parkBase + 4096 * p.first) (markList ms (ctxList s c 0x504B p.genLen es)) s
          let s := putCtx { c.freed with making := none, copy := some p, stopped := false } s
          sendReport owner (reportWord s req 0 32 0 0 0) s

/-- PARK_COPY_DONE (R255). -/
def execParkCopyDone (owner : BitVec 6) (req : BitVec 12) (s : State) : Outcome := .next (parkCopyDone owner req.toNat s)

/-- List and page bytes of a park copy. -/
def copyBytes (s : State) (p : ParkCopy) : Marked :=
  s.rdMarked (s.parkBase + 4096 * p.first) (64 + 8 * p.pages.length)
    ++ (p.pages.map (fun q => s.rdMarked (s.parkBase + 4096 * q) 4096)).flatten

/-- The move of a request's copy to host memory is under way. -/
def State.moving (s : State) (k : Nat) : Bool :=
  s.serve.ctxs.any (fun c => c.owner == s.pkg && c.req.toNat == k && c.expect.isSome && c.sealTo.isSome)

/-- A host slot holds a context, or a move to it is under way. -/
def State.slotTaken (s : State) (k : Nat) : Bool :=
  (smGet none s.serve.hostSlots k).isSome
    || s.serve.ctxs.any (fun c => c.owner == s.pkg && c.expect.isSome && c.sealTo == some k)

/-- The refusal of a move to the host tier (R257): 0 if it may go. -/
def hostMoveVerdict (s : State) (bytes : Nat) : Code :=
  let count := s.fld Reg.serveParkHostCfg 16 12
  if !s.flag Reg.serveParkCfg 8 || (List.range count).all s.slotTaken then
    eParkHostFull
  else if s.slotSize < sealedLen bytes then eParkSlot
  else if s.serve.exhausted then eNonceExhausted
  else 0

/-- The free host slot that a move takes: which one is open (log entry 44). -/
def State.pickSlot (s : State) : Nat :=
  let free := (List.range (s.fld Reg.serveParkHostCfg 16 12)).filter (fun k => !s.slotTaken k)
  nthD 0 free (Config.pagePick s.freeCtr 0 % free.length)

/-- The owner's requests whose copies lie in the store tier of a holder: earliest time-to-live end first, then the lower
index (R257). -/
def nextToMove (s : State) (holder : BitVec 6) : Option (Nat × Parked) :=
  s.serve.reqs.foldl (fun best x =>
    match x.2.parkedCopy with
    | some p =>
      if p.host || p.holder != holder || x.2.st != .parked || s.moving x.1 then best
      else match best with
        | some b => if p.atNs < b.2.atNs then some (x.1, p) else best
        | none => some (x.1, p)
    | none => best) none

/-- The owner moves the store-parked context that expires first to a free host slot (R257): refused with an EVENT; from
its own park pool at once; from another holder by a PARK_HOST order. -/
def moveToHost (holder : BitVec 6) (s : State) : State × Bool :=
  match nextToMove s holder with
  | none => (s, false)
  | some (k, p) =>
    let v := hostMoveVerdict s (64 + 4104 * p.pages)
    if v ≠ 0 then (postEvent v 0 s, false)
    else
      let slot := s.pickSlot
      let s := { s with freeCtr := s.freeCtr + 1 }
      if holder = s.pkg then
        match s.ctx s.pkg k with
        | some c =>
          (match c.copy with
          | some pc =>
            if anyBad (copyBytes s pc) then (unitFault 5 0 ePoison s, false)
            else
              let s := inHostSlot k slot (sealSlot slot k (bytesOf (copyBytes s pc)) s)
              (if c.kvPages.isEmpty then dropCtx s.pkg k s else putCtx { c with copy := none } s, true)
          | none => (s, false))
        | none => (s, false)
      else
        let x := s.serve.nextXfer + 1
        let r := smGet Req.reset s.serve.reqs k
        let c : Ctx := { newCtx s.pkg k 0 with parcel := r.parcel, expect := some x, sealTo := some slot }
        let s := { s with serve := { s.serve with nextXfer := x } }
        (sendOrder holder (orderWord k 5 s.pkg.toNat 0 0 0 0 x) (putCtx c s), true)

/-- HOST_PARK_MOVE: due while HOST_EN is set and the holder's free park pages lie below PARK_LOW (R257). -/
def execHostParkMove (holder : BitVec 6) (parkFree : Nat) (s : State) : Outcome :=
  let free := if holder = s.pkg then s.parkFree.length else parkFree
  .next (if s.weaveActive && s.flag Reg.serveParkCfg 8 && decide (free < s.fld Reg.serveParkLow 16 16) then
    (moveToHost holder s).1 else s)

/-- A PARK_HOST order at the holder: the copy goes to the owner uncompressed (R257, R227). -/
def orderParkHost (w : LinkWord) (owner : BitVec 6) (s : State) : State :=
  match s.ctx owner (wReq w) with
  | some c => shipFrom { c with sealTo := some 0 } true false (BitVec.ofNat 6 (wPkg w)) (wXfer w) s
  | none => s

/-- ORDER_PARK_HOST (R257). -/
def execOrderParkHost (w : LinkWord) (owner : BitVec 6) (s : State) : Outcome :=
  .next (onOrder 5 w (orderParkHost w owner) s)

/-! ### Unparking (R260) and DROP -/

/-- A cache given as list and page bytes takes the pages of its context here, under the checks of a transfer. -/
def adopt (c : Ctx) (l : Marked) (s : State) : Option State :=
  let n := leAt (bytesOf (l.take 64)) 10 2
  let list := l.take (64 + 8 * n)
  let pages := l.drop (64 + 8 * n)
  let c := { c with listIn := bytesOf list, listBad := marksOf list, coded := false,
                    pagesIn := bytesOf pages, pagesBad := marksOf pages }
  let r := inPages c
  if listOk s c && pagesOk c r.2 && r.2.length == n then some (placeCache c (inMarked c) s) else none

/-- The context of a request with pages reserved for a decode place. -/
def readyCtx (owner : BitVec 6) (req : Nat) (e : Desc) (s : State) : Option (Ctx × State) :=
  let c := match s.ctx owner req with
    | some c => { c with promptLen := bits e 48 12, maxLen := bits e 96 9 }
    | none => newCtx owner req e
  match reserve (c.promptLen + c.maxLen) c s with
  | some s => (s.ctx owner req).map (fun c => (c, s))
  | none => none

/-- The request is cancelled at the next boundary with a last code (R256, R260). -/
def failReq (req : Nat) (c : Code) (s : State) : State :=
  let r := smGet Req.reset s.serve.reqs req
  latch c 0 { s with serve := { s.serve with reqs := smSet Req.reset s.serve.reqs req { r with fail := c } } }

/-- An unpark from host memory, at the owner: the slot is checked and opened, and its pages shipped, or taken where the
owner is the decode package (R260). -/
def unparkHost (w : LinkWord) (e : Desc) (slot : List Byte) (s : State) : State :=
  let req := wReq w
  match openSlot s req slot with
  | none => failReq req eParkAuth s
  | some plain =>
    if wPkg w = s.pkg.toNat then
      match readyCtx s.pkg req e s with
      | none => s
      | some (c, s) =>
        match adopt c (clean plain) s with
        | none => failReq req eParkAuth s
        | some s => sendReport s.pkg (reportWord s req 0 16 0 0 0) s
    else
      let n := leAt plain 10 2
      let c := newCtx s.pkg req e
      sendCache c (BitVec.ofNat 6 (wPkg w)) true (wXfer w) (clean (plain.take (64 + 8 * n)))
        (clean (plain.drop (64 + 8 * n))) s

/-- An UNPARK order: at the owner of a host-tier copy, at the holder of a store-tier copy, or at the decode package. -/
def orderUnpark (w : LinkWord) (owner : BitVec 6) (e : Desc) (slot : List Byte) (s : State) : State :=
  let req := wReq w
  let host := owner == s.pkg && (match (smGet Req.reset s.serve.reqs req).parkedCopy with
    | some p => p.host
    | none => false)
  if host then unparkHost w e slot s
  else
    let c := s.ctx owner req
    match c.bind (fun c => c.copy) with
    | some pc =>
      if wPkg w = s.pkg.toNat then
        match readyCtx owner req e s with
        | none => s
        | some (c, s) =>
          match adopt c (copyBytes s pc) s with
          | none => kvFault s
          | some s =>
            let s := if s.flag Reg.serveParkCfg 9 then s
              else match s.ctx owner req with
                | some c => putCtx { c with copy := none } s
                | none => s
            sendReport owner (reportWord s req 0 16 0 0 0) s
      else match c with
        | some c => shipFrom { c with sealTo := none } true true (BitVec.ofNat 6 (wPkg w)) (wXfer w) s
        | none => s
    | none => if wPkg w = s.pkg.toNat then expectCache owner req e (wXfer w) s else s

/-- ORDER_UNPARK (R260). -/
def execOrderUnpark (w : LinkWord) (owner : BitVec 6) (entry : Desc) (slot : List Byte) (s : State) : Outcome :=
  .next (onOrder 6 w (orderUnpark w owner entry slot) s)

/-- ORDER_DROP (R246): the request's pages and park copy here are released. -/
def execOrderDrop (w : LinkWord) (owner : BitVec 6) (s : State) : Outcome :=
  .next (onOrder 7 w (fun s => dropCtx owner (wReq w) s) s)

/-- NEW_KEY (R258): refused while a context lies in host memory; else the next key, epoch, and counter 0. -/
def newKey (s : State) : State :=
  if !s.serve.hostSlots.isEmpty then refuse eParkBusy s
  else { s with freeCtr := s.freeCtr + 1, serve := { s.serve with
    parkEpoch := s.serve.parkEpoch + 1, parkKey := s.freeCtr + 1, parkCtr := 0, exhausted := false } }

/-- NEW_KEY (R258). -/
def execNewKey (s : State) : Outcome := .next (gateWrite Reg.serveParkCmd newKey s)

end Sys2Proof.Machine
end

