-- ==== Sys2Proof/Machine/Tokens.lean ====
section
/-!
DEFINITION. Tokens.lean: 15_tokens: grammar tables and their load (R263, R264), the mask and the choice (R265, R266), the
check units (R267), the stop conditions (R268, R269), the replay (R270), and the DECODE order. Readings: log entry 45.
-/

namespace Sys2Proof.Machine

/-! ### Grammar tables (Tables Tokens-1 to Tokens-3) -/

/-- The bytes of a table: `n` bytes from offset `o`, little-endian. -/
abbrev GrmSrc := Nat → Nat → Nat

def gKind (g : GrmSrc) : Nat := g 3 1
def gStates (g : GrmSrc) : Nat := g 4 2
def gStart (g : GrmSrc) : Nat := g 6 2
def gClasses (g : GrmSrc) : Nat := g 8 1
def gFloor (g : GrmSrc) : Nat := g 10 2
/-- The modulus of a check unit. -/
def gMod (g : GrmSrc) (unit : Nat) : Nat := nthD 10 [10, 11, 36, 37] (g 9 1 / 4 ^ unit % 4)
/-- CLASS and VALUE of a token. -/
def gClass (g : GrmSrc) (t : Nat) : Nat := g (64 + 2 * t) 2 % 64
def gValue (g : GrmSrc) (t : Nat) : Nat := g (64 + 2 * t) 2 / 64 % 64
/-- ACCEPT of a state. -/
def gAccept (g : GrmSrc) (st : Nat) : Bool := g (8256 + st) 1 % 2 == 1
/-- Transition entry of a state and a class. -/
def gEntry (g : GrmSrc) (st c : Nat) : Nat := g (8256 + 4 * ceilDiv (gStates g) 4 + 4 * (st * gClasses g + c)) 4
def teNext (e : Nat) : Nat := e % 4096
def teValid (e : Nat) : Bool := nbit e 12
def teOp (e : Nat) : Nat := e / 2 ^ 13 % 8
def teUnit (e : Nat) : Nat := e / 2 ^ 16 % 2
def teWeight (e : Nat) : Nat := e / 2 ^ 17 % 64
def teTarget (e : Nat) : Nat := e / 2 ^ 24 % 64
/-- A token's bit in a LIST. -/
def gListed (g : GrmSrc) (t : Nat) : Bool := nbit (g (64 + t / 8) 1) (t % 8)

/-- The length that the formula of R263 gives. -/
def gLength (g : GrmSrc) : Nat :=
  if gKind g = 1 then 576 else 8256 + 4 * ceilDiv (gStates g) 4 + 4 * gStates g * gClasses g

/-- The header passes check 1 of R263: magic, version, KIND, reserved bits, ranges, lengths. -/
def gHeaderOk (g : GrmSrc) (len : Nat) : Bool :=
  g 0 2 == 0x4752 && g 2 1 == 1 && decide (gKind g ≤ 1) && decide (g 6 2 < 4096) && decide (g 9 1 < 16) && g 16 44 == 0
    && (if gKind g = 1 then gStates g == 0 && gStart g == 0 && gClasses g == 0
        else decide (1 ≤ gStates g ∧ gStates g ≤ 4096 ∧ gStart g < gStates g ∧ 1 ≤ gClasses g ∧ gClasses g ≤ 64))
    && g 12 4 == gLength g && g 12 4 == len

/-- A transition entry passes check 1. -/
def gEntryOk (g : GrmSrc) (e : Nat) : Bool :=
  if teValid e then
    !nbit e 23 && decide (e / 2 ^ 30 = 0) && decide (teNext e < gStates g) && decide (teOp e < 5)
      && decide (teTarget e < gMod g (teUnit e))
  else e == 0

/-- The body passes check 1; the class-map entry of EOS is ignored. -/
def gBodyOk (g : GrmSrc) (eos : Nat) : Bool :=
  gKind g == 1 ||
    ((List.range 4096).all (fun t => t == eos || (decide (g (64 + 2 * t) 2 < 4096) && decide (gClass g t < gClasses g)))
      && (List.range (4 * ceilDiv (gStates g) 4)).all (fun i =>
        decide (g (8256 + i) 1 ≤ (if i < gStates g then 1 else 0)))
      && (List.range (gStates g)).all (fun st => (List.range (gClasses g)).all (fun c => gEntryOk g (gEntry g st c))))

/-- A state has a VALID entry. -/
def gGoesOn (g : GrmSrc) (st : Nat) : Bool := (List.range (gClasses g)).any (fun c => teValid (gEntry g st c))

/-- No state without ACCEPT is stuck, and a LIST allows something (check 3). -/
def gLive (g : GrmSrc) : Bool :=
  if gKind g = 1 then g 64 512 != 0
  else (List.range (gStates g)).all (fun st => gAccept g st || gGoesOn g st)

/-- The table CRC: over bytes 0 to 59 and the whole body (check 2). -/
def gCrcOk (l : List Byte) : Bool := (crc32c (l.take 60 ++ l.drop 64)).toNat == leAt l 60 4

/-- A request on this package holds a table until its end (R264). -/
def grmHeld (s : State) (t : GrammarTab) : Bool :=
  s.serve.ctxs.any (fun c => c.started && !c.stopped && c.grammar == t.id && c.grmGen == t.gen)

/-- Older tables that no request holds are freed. -/
def pruneGrammars (s : State) : State :=
  { s with serve := { s.serve with grammars := s.serve.grammars.filter (fun t => t.role != 2 || grmHeld s t) } }

/-- The next generation, skipping 0 after 255. -/
def nextGen (g : BitVec 8) : BitVec 8 := if g + 1 = 0 then 1 else g + 1

/-- The current table of a grammar id. -/
def State.grammar (s : State) (id : BitVec 8) : Option GrammarTab :=
  s.serve.grammars.find? (fun t => t.id == id && t.role == 1)

/-- EOS of the running weave. -/
def State.eos (s : State) : Nat := match s.weave.run with
  | some d => d.eos.toNat
  | none => 0

/-- The verdict on a table (R263): 0, or the first check that fails. -/
def grammarVerdict (s : State) (id : BitVec 8) (len : Nat) (table : List Byte) : Code :=
  let g : GrmSrc := leAt table
  if table.length ≠ len ∨ !gHeaderOk g len || !gBodyOk g s.eos then eGrmFormat
  else if !gCrcOk table then eGrmCrc
  else if !gLive g then eGrmDead
  else if s.grmSize = 0 then eGrmPool
  else if s.serve.grammars.any (fun t => t.id == id && t.role != 1) then eGrmBusy
  else if (allocRun s.freeCtr (ceilDiv len 4096) s.grmFree).isNone then eGrmSpace
  else 0

/-- GRAMMAR_LOAD: an accepted table stands in the pool and is pending (R263, R264). -/
def grammarLoad (f : Flight) (table : List Byte) (s : State) : State :=
  let s := pruneGrammars s
  let id := BitVec.ofNat 8 (descNum f.desc 36 1)
  let len := descNum f.desc 32 4
  let v := grammarVerdict s id len table
  if v ≠ 0 then finishFlight f v 0 s
  else match allocRun s.freeCtr (ceilDiv len 4096) s.grmFree with
    | none => finishFlight f eGrmSpace 0 s
    | some (p, _) =>
      let gen := nextGen (match s.grammar id with
        | some t => t.gen
        | none => 0)
      let s := wrMem (s.grmBase + 4096 * p) table { s with freeCtr := s.freeCtr + 1 }
      completeFlight f 0 0 { s with serve := { s.serve with
        grammars := s.serve.grammars ++ [⟨id, gen, 0, len, p, ceilDiv len 4096⟩] } }

/-- GRAMMAR_LOAD (R263). -/
def execGrammarLoad (id : Nat) (table : List Byte) (s : State) : Outcome :=
  .next (withSource 0x21 id (fun f => dAddr f.desc) (fun f => descNum f.desc 32 4) table grammarLoad s)

/-- At a step boundary pending tables become current, and the tables they replace older (R264). -/
def grammarsTurn (s : State) : State :=
  let ids := (s.serve.grammars.filter (fun t => t.role == 0)).map (fun t => t.id)
  pruneGrammars { s with serve := { s.serve with grammars := s.serve.grammars.map (fun t =>
    if t.role = 0 then { t with role := 1 }
    else if t.role = 1 ∧ ids.contains t.id = true then { t with role := 2 } else t) } }

/-! ### The grammar step -/

/-- A table as it stands in the pool. -/
def State.grmSrc (s : State) (t : GrammarTab) : GrmSrc := fun o n => ofLe (s.rdMem (s.grmBase + 4096 * t.first + o) n)

/-- A token is allowed in a request's state (R265). -/
def allowed (g : GrmSrc) (eos : Nat) (c : Ctx) (t : Nat) : Bool :=
  if gKind g = 1 then gListed g t
  else if t = eos then gAccept g c.auto
  else teValid (gEntry g c.auto (gClass g t))

/-- The sum of the decimal digits of a number below 10,000. -/
def digitSum (n : Nat) : Nat := n % 10 + n / 10 % 10 + n / 100 % 10 + n / 1000 % 10

/-- The check operation of a transition (Table Tokens-4), and whether a CHECK failed. -/
def checkOp (g : GrmSrc) (e v : Nat) (c : Ctx) : Ctx × Bool :=
  let m := gMod g (teUnit e)
  let acc := if teUnit e = 0 then c.u0 else c.u1
  let w := teWeight e
  let put (x : Nat) : Ctx := if teUnit e = 0 then { c with u0 := x } else { c with u1 := x }
  match teOp e with
  | 1 => (put (w * v % m), false)
  | 2 => (put ((acc + w * v) % m), false)
  | 3 => (put ((acc + digitSum (w * v)) % m), false)
  | 4 =>
    let bad := (acc + w * v) % m ≠ teTarget e
    ({ c with taken := true, failed := c.failed || bad }, bad)
  | _ => (c, false)

/-- A token other than EOS moves the automaton and applies its operation (R266, R267). -/
def advance (g : GrmSrc) (t : Nat) (c : Ctx) : Ctx × Bool :=
  if gKind g = 1 then (c, false)
  else
    let e := gEntry g c.auto (gClass g t)
    let r := checkOp g e (gValue g t) c
    ({ r.1 with auto := teNext e }, r.2)

/-- The two greatest allowed logits, the first with its token: between equal logits the lower token value wins
(R266). -/
def topTwo (ok : Nat → Bool) (logits : List (BitVec 32)) : Option (Nat × Int) × Option Int :=
  logits.zipIdx.foldl (fun best x =>
    if !ok x.2 then best
    else match best with
      | (none, _) => (some (x.2, x.1.toInt), none)
      | (some (t, l1), l2) =>
        if l1 < x.1.toInt then (some (x.2, x.1.toInt), some l1)
        else match l2 with
          | some v => (some (t, l1), some (max v x.1.toInt))
          | none => (some (t, l1), some x.1.toInt)) (none, none)

/-- The margin (R266). -/
def marginOf (l1 : Int) (l2 : Option Int) (shift : Nat) : Nat :=
  match l2 with
  | some v => min 65535 ((l1 - v).toNat >>> shift)
  | none => 65535

/-- The first stop reason that holds, in the order of R268; 0 for none. -/
def stopReason (g : GrmSrc) (c : Ctx) (checkBad : Bool) (margin : Nat) (isEos : Bool) : Nat :=
  if checkBad then 5
  else if gFloor g ≠ 0 ∧ margin < gFloor g then 4
  else if isEos then 1
  else if gKind g = 0 ∧ gAccept g c.auto = true ∧ gGoesOn g c.auto = false then 2
  else if c.genLen = c.maxLen then 3
  else 0

/-- Outcome of one grammar step: the context, the token if one is appended, the margin, the stop reason. -/
structure GrmStep where
  ctx    : Ctx
  token  : Option Nat
  margin : Nat
  reason : Nat
  deriving DecidableEq, Repr

/-- The grammar step of one request (R265 to R268). -/
def grammarStep (g : GrmSrc) (eos mshift ctr : Nat) (c : Ctx) (logits : List (BitVec 32)) : GrmStep :=
  let (t, m) := match topTwo (allowed g eos c) logits with
    | (some (t, l1), l2) => (t, marginOf l1 l2 mshift)
    | (none, _) => (Config.noToken ctr 0 % 4096, Config.noToken ctr 1 % 65536)
  if t = eos then ⟨c, none, m, stopReason g c false m true⟩
  else
    let r := advance g t c
    let c := { r.1 with genLen := r.1.genLen + 1 }
    ⟨c, some t, m, stopReason g c r.2 m false⟩

/-- The replay of a request's tokens from the start state (R270): none where a token is not allowed or a CHECK fails. -/
def replay (g : GrmSrc) (eos : Nat) : List (BitVec 12) → Ctx → Option Ctx
  | [], c => some c
  | t :: ts, c =>
    if !allowed g eos c t.toNat then none
    else
      let r := advance g t.toNat c
      if r.2 then none else replay g eos ts r.1

/-- A context latches a table: start state, check units at 0 (R264, R267). -/
def latchGrammar (t : GrammarTab) (g : GrmSrc) (c : Ctx) : Ctx :=
  { c with started := true, grmGen := t.gen, auto := gStart g, u0 := 0, u1 := 0, taken := false, failed := false }

/-- A decode place stops its request with a reason, before or after a token. -/
def reportStop (c : Ctx) (reason : Nat) (s : State) : State :=
  sendReport c.owner (reportWord s c.req.toNat 2 8 0 0 reason) (putCtx { c with stopped := true } s)

/-- The table that a context has latched. -/
def State.latched (s : State) (c : Ctx) : Option GrammarTab :=
  s.serve.grammars.find? (fun t => t.id == c.grammar && t.gen == c.grmGen && t.role != 0)

/-- The first decode step here latches the current table and replays the tokens that the request brings (R264, R269,
R270): the context, or the reason why it stops. -/
def beginDecode (c : Ctx) (tokens : List (BitVec 12)) (s : State) : Option Ctx × Bool :=
  if c.started then (some c, false)
  else match s.grammar c.grammar with
    | none => (none, true)
    | some t =>
      let g := s.grmSrc t
      (replay g s.eos (tokens.take c.genLen) (latchGrammar t g c), false)

/-- The decode proper: the grammar step, the page of the step's token, the report (R265, R250, R268). -/
def decodeToken (c : Ctx) (logits : List (BitVec 32)) (pages : List (List Byte)) (s : State) : State :=
  match s.latched c with
  | none => reportStop c 6 s
  | some t =>
    let shift := match s.weave.run with
      | some d => d.mshift.toNat
      | none => 0
    let r := grammarStep (s.grmSrc t) s.eos shift s.freeCtr c logits
    let o := c.held / s.kvT * s.kvL
    let s := { s with freeCtr := s.freeCtr + 1 }
    let c' := { r.ctx with stopped := r.reason != 0 }
    let s := if o + s.kvL ≤ c.pages.length + c.spare.length then
        writeKv c' (c.held + 1) o (computed (kvPoisoned s c) s.kvL pages) s
      else putCtx c' s
    sendReport c.owner (reportWord s c.req.toNat 2 ((if r.token.isSome then 4 else 0) + (if r.reason = 0 then 0 else 8))
      (r.token.getD 0) r.margin r.reason) s

/-- A DECODE order: one token for the request of the place (R246, R265). -/
def orderDecode (w : LinkWord) (owner : BitVec 6) (e : Desc) (tokens : List (BitVec 12)) (logits : List (BitVec 32))
    (pages : List (List Byte)) (ads : List AdapterPass) (s : State) : State :=
  match s.placeOf w owner with
  | none => s
  | some pl =>
    if pl.kind ≠ 2 then s
    else match readyCtx owner (wReq w) e s with
      | none => s
      | some (c, s) =>
        let own := (smGet Req.reset s.serve.reqs (wReq w)).tokens
        if c.stopped then s
        else if !kvSound s c then kvFault s
        else match beginDecode c (if owner = s.pkg then own else tokens) s with
          | (none, absent) =>
            let s := reportStop c 6 s
            if absent then postEvent eGrmAbsent (BitVec.ofNat 128 (c.grammar.toNat + s.pkg.toNat * 256)) s else s
          | (some c, _) => decodeToken c logits pages (adapt c.tenant (BitVec.ofNat 8 (lwByte w 7)) ads s)

/-- ORDER_DECODE (R265). -/
def execOrderDecode (w : LinkWord) (owner : BitVec 6) (entry : Desc) (tokens : List (BitVec 12))
    (logits : List (BitVec 32)) (pages : List (List Byte)) (adapters : List AdapterPass) (s : State) : Outcome :=
  .next (onOrder 2 w (orderDecode w owner entry tokens logits pages adapters) s)

end Sys2Proof.Machine
end

