-- ==== Sys2Proof/Machine/Serve.lean ====
section
/-!
DEFINITION. Serve.lean: 13_requests on the owner: the request entry (Table Requests-1), TENANT_CFG and ADAPTER_LOAD
(R239 to R241), the end and the release of a request (R231, R232), TOKENS entries (R261), and place reports (R247).
Readings of this chapter: log entry 47.
-/

namespace Sys2Proof.Machine

/-! ### Entries -/

/-- A request of the table. -/
def State.req (s : State) (k : Nat) : Req := smGet Req.reset s.serve.reqs k

/-- A request takes a new value. -/
def setReq (k : Nat) (r : Req) (s : State) : State :=
  { s with serve := { s.serve with reqs := smSet Req.reset s.serve.reqs k r } }

/-- A request changes. -/
def modReq (k : Nat) (f : Req → Req) (s : State) : State := setReq k (f (s.req k)) s

/-- Indices of the requests that are not FREE, rising. -/
def State.reqKeys (s : State) : List Nat := s.serve.reqs.map (fun p => p.1)

/-- Codes of Table Requests-2. -/
def stCode : ReqSt → Nat
  | .free => 0
  | .queued => 1
  | .prefill => 2
  | .shipping => 3
  | .decode => 4
  | .paused => 5
  | .parked => 6
  | .done => 7
  | .cancelled => 8
  | .faulted => 9

/-- A request that is neither FREE nor ended. -/
def Req.live (r : Req) : Bool := r.st != .free && !r.st.ended

/-- Bytes 0 to 59 of a request's entry (Table Requests-1). -/
def reqBody (r : Req) : List Byte :=
  leBytes 1 (stCode r.st + stCode r.resumeTo * 16)
    ++ leBytes 1 (r.prio.toNat + r.admitted.toNat * 8 + r.hold.toNat * 16 + r.dlPaused.toNat * 32
        + r.restarted.toNat * 64 + r.pendCmd.toNat * 128)
    ++ leBytes 2 r.tenant.toNat ++ leBytes 1 r.grammar.toNat ++ leBytes 1 r.adGen.toNat ++ leBytes 2 r.promptLen
    ++ leBytes 2 r.encoded ++ leBytes 2 r.genLen ++ leBytes 2 r.maxLen ++ leBytes 2 r.last.toNat
    ++ leBytes 4 r.parcel.toNat ++ leBytes 8 r.deadline ++ leBytes 4 r.seq.toNat ++ leBytes 8 r.tag
    ++ leBytes 1 r.cutPkg.toNat ++ leBytes 1 r.prePkg.toNat ++ leBytes 1 r.decPkg.toNat ++ leBytes 1 r.kvPkg.toNat
    ++ leBytes 2 r.slot.toNat ++ leBytes 2 r.kvPages ++ leBytes 8 r.listAddr.toNat ++ leBytes 2 r.charged ++ leBytes 2 0

/-- A request's entry; a FREE one reads as zeros under its CRC. -/
def reqBytes (r : Req) : List Byte :=
  let b := if r.st = .free then leBytes 60 0 else reqBody r
  b ++ leBytes 4 (crc32c b).toNat

/-- REQ_READ: the selected entry stands in SERVE_REQ_DATA0 to 15 (Table Requests-7). -/
def reqRead (s : State) : State :=
  let b := reqBytes (s.req (s.fld Reg.serveReqSel 0 12))
  (List.range 16).foldl (fun t i => t.setReg (Reg.serveReqData i) (BitVec.ofNat 32 (leAt b (4 * i) 4))) s

/-- REQ_READ (R229). -/
def execReqRead (s : State) : Outcome := .next (gateWrite Reg.serveReqCmd reqRead s)

/-- A read of SERVE_STEP_NUM_LO latches the high half (R245). -/
def serveStepNumLoRead (s : State) : State × Word :=
  ({ s with serve := { s.serve with stepHi := BitVec.ofNat 32 (bits s.serve.stepNum 32 32) } },
   BitVec.ofNat 32 s.serve.stepNum.toNat)

/-- SERVE_STEP_NUM_LO_READ (R245). -/
def execServeStepNumLoRead (s : State) : Outcome := .next (gateRead Reg.serveStepNumLo serveStepNumLoRead s)

/-! ### Tenants and adapters -/

/-- A tenant's row. -/
def State.tenant (s : State) (t : Nat) : Tenant := smGet Tenant.reset s.serve.tenants t

/-- A tenant's row takes a new value. -/
def setTenant (t : Nat) (x : Tenant) (s : State) : State :=
  { s with serve := { s.serve with tenants := smSet Tenant.reset s.serve.tenants t x } }

/-- TENANT_CFG: weight 0 is refused; an accepted command waits for the step boundary (R239). -/
def tenantCfg (f : Flight) (s : State) : State :=
  let t := BitVec.ofNat 12 (bits f.desc 288 12)
  let w := BitVec.ofNat 8 (descNum f.desc 38 1)
  if w = 0 then finishFlight f eTenantWeight 0 s
  else setFlight f.id .pendingCmd { s with serve := { s.serve with
    cfgs := s.serve.cfgs ++ [⟨f.id, t, w, BitVec.ofNat 32 (descNum f.desc 40 4)⟩] } }

/-- TENANT_CFG (R239). -/
def execTenantCfg (id : Nat) (s : State) : Outcome := .next (doWork 0x23 id tenantCfg s)

/-- The adapter root key: hidden fuse words 20 to 27, the first in bytes 0 to 3 (R240). -/
def rootKey (s : State) : List Byte := ((List.range 8).map (fun i => leBytes 4 (s.shadowWord (20 + i)).toNat)).flatten

/-- The key of a tenant: two AES-256 blocks under the root key (R240). -/
def tenantKey (s : State) (tenant model : Nat) : List Byte :=
  let rk := roundKeys (rootKey s)
  let half (i : Nat) : List Byte := aesBlock rk (leBytes 2 tenant ++ leBytes 4 model ++ leBytes 1 i ++ leBytes 9 0)
  half 0 ++ half 1

/-- The payload length that P projections of the model and rank r give (Table Requests-4). -/
def adapterLen (ps : List (Nat × Nat)) (rank : Nat) : Nat := (ps.map (fun p => 8 + rank * (p.1 + p.2))).foldl (· + ·) 0

/-- The blob passes check 1 of R241: lengths, magic, version, reserved bytes, and the payload length that the model's
projections and the rank give where P and the rank code are the model's. -/
def adapterFormatOk (d : WeaveDecl) (len : Nat) (b : List Byte) : Bool :=
  let payload := leAt b 12 4
  80 ≤ len && b.length == len && leAt b 0 2 == 0xAD47 && leAt b 2 1 == 1 && decide (leAt b 4 2 < 4096)
    && leAt b 16 48 == 0 && len == 64 + payload + 16
    && (decide (leAt b 6 2 ≠ d.projections.length ∨ 4 < leAt b 3 1)
      || payload == adapterLen d.projections (4 * 2 ^ leAt b 3 1))

/-- A range lies wholly in an enabled protected range (R227). -/
def State.protCovers (s : State) (a len : Nat) : Bool :=
  (List.range 4).any (fun i =>
    let b := s.reg (Reg.plaitProtBase i)
    b.getLsbD 0 && decide (bits b 12 20 * 4096 ≤ a ∧ a + len ≤ s.fld (Reg.plaitProtLimit i) 12 20 * 4096 + 4096))

/-- The pool is set and lies wholly in an enabled range of R227. -/
def State.adpPoolOk (s : State) : Bool :=
  s.adpSize != 0 && s.protCovers s.adpBase (4096 * s.adpSize)

/-- The verdict on an adapter blob before it is opened (R241). -/
def adapterVerdict (s : State) (d : WeaveDecl) (tenant len : Nat) (b : List Byte) : Code :=
  if !adapterFormatOk d len b then eAdpFormat
  else if leAt b 4 2 ≠ tenant then eAdpTenant
  else if leAt b 8 4 ≠ d.modelId.toNat ∨ leAt b 6 2 ≠ d.projections.length then eAdpModel
  else if 4 < leAt b 3 1 ∨ d.maxRank.toNat < leAt b 3 1 then eAdpRank
  else if !s.adpPoolOk then eAdpPool
  else if !s.flag Reg.fuseStatus 24 then eAdpKey
  else if (allocRun s.freeCtr (ceilDiv (leAt b 12 4) 4096) s.adpFree).isNone then eAdpSpace
  else 0

/-- A generation of a tenant's adapter is named by a request that has not ended. -/
def adapterHeld (s : State) (tenant : BitVec 12) (gen : BitVec 8) : Bool :=
  s.serve.reqs.any (fun p => p.2.live && p.2.tenant == tenant && p.2.adGen == gen)
    || s.serve.ctxs.any (fun c => !c.stopped && c.tenant == tenant && c.adGen == gen)

/-- Older adapters that no unended request names are freed (R241). -/
def pruneAdapters (s : State) : State :=
  { s with serve := { s.serve with adapters := s.serve.adapters.filter (fun a =>
      let t := s.tenant a.tenant.toNat
      a.gen == t.gen || (match t.pendGen with
        | some p => a.gen == p.1
        | none => false) || adapterHeld s a.tenant a.gen) } }

/-- ADAPTER_LOAD (R241): the plaintext stands in the pool, and its generation becomes current at the next boundary. -/
def adapterLoad (f : Flight) (blob : List Byte) (s : State) : State :=
  match s.weave.run with
  | none => finishFlight f eDescNoWeave 0 s
  | some d =>
    let s := pruneAdapters s
    let tenant := bits f.desc 288 12
    let len := descNum f.desc 32 4
    let v := adapterVerdict s d tenant len blob
    if v ≠ 0 then finishFlight f v 0 s
    else
      let pages := ceilDiv (leAt blob 12 4) 4096
      match allocRun s.freeCtr pages s.adpFree with
      | none => finishFlight f eAdpSpace 0 s
      | some (p, _) =>
        let s := { s with freeCtr := s.freeCtr + 1 }
        let nonce := (List.range 12).map (fun i => BitVec.ofNat 8 (descNum f.desc (40 + i) 1))
        match gcmOpen (tenantKey s tenant d.modelId.toNat) nonce (blob.take 64) ((blob.drop 64).take (len - 80))
            (blob.drop (len - 16)) with
        | none => finishFlight f eAdpAuth 0 (wrMem (s.adpBase + 4096 * p) (zeros (4096 * pages)) s)
        | some plain =>
          let t := s.tenant tenant
          let old := match t.pendGen with
            | some g => g.1
            | none => t.gen
          let gen := nextGen old
          let s := wrMem (s.adpBase + 4096 * p) plain s
          let s := setTenant tenant { t with pendGen := some (gen, BitVec.ofNat 3 (leAt blob 3 1)) } s
          completeFlight f 0 0 { s with serve := { s.serve with
            adapters := s.serve.adapters ++ [⟨BitVec.ofNat 12 tenant, gen, BitVec.ofNat 3 (leAt blob 3 1), p, pages⟩] } }

/-- ADAPTER_LOAD (R241). -/
def execAdapterLoad (id : Nat) (blob : List Byte) (s : State) : Outcome :=
  .next (withSource 0x22 id (fun f => dAddr f.desc) (fun f => descNum f.desc 32 4) blob adapterLoad s)

/-- At a step boundary new adapter generations become current (R241). -/
def adaptersTurn (s : State) : State :=
  pruneAdapters { s with serve := { s.serve with tenants := s.serve.tenants.map (fun p =>
    match p.2.pendGen with
    | some g => (p.1, { p.2 with gen := g.1, rank := g.2, pendGen := none })
    | none => p) } }

/-- The accepted TENANT_CFG commands apply and complete (R239); a command whose descriptor is gone is gone. -/
def cfgsTurn (s : State) : State :=
  let l := s.serve.cfgs
  l.foldl (fun s c =>
    match s.flight c.flight with
    | none => s
    | some f =>
      let t := s.tenant c.tenant.toNat
      completeFlight f 0 0 (setTenant c.tenant.toNat { t with weight := c.weight, budget := c.budget } s))
    { s with serve := { s.serve with cfgs := [] } }

/-! ### TOKENS entries (R79, R80, R261) -/

/-- Body of a TOKENS entry (Table Host-7). -/
def tokensEntry (status : Code) (req : Nat) (r : Req) (final gap : Bool) (ts : List (BitVec 12)) : BitVec 256 :=
  let packed := (ts.zipIdx.map (fun p => p.1.toNat * 2 ^ (12 * p.2))).foldl (· + ·) 0
  BitVec.ofNat 256 (entryHead status 2 + req * 2 ^ 32 + r.decPkg.toNat * 2 ^ 48
    + (ts.length + final.toNat * 32 + gap.toNat * 64) * 2 ^ 56 + packed * 2 ^ 64)

/-- Runs of at most 16 tokens; no token gives one empty run. -/
def tokenRuns : Nat → List (BitVec 12) → List (List (BitVec 12))
  | 0, l => [l.take 16]
  | n + 1, l => if l.length ≤ 16 then [l] else l.take 16 :: tokenRuns n (l.drop 16)

/-- A RECORD or final TOKENS entry is written behind those that wait if its ring has room, and waits otherwise (R80). -/
def putOrWait (w : Waiting) (s : State) : State :=
  let s := drainWaiting s
  if s.canPost w then cqPut (waitRing s w) (waitBody w) false s
  else { s with host := { s.host with waiting := s.host.waiting ++ [w] } }

/-- A non-final TOKENS entry is written behind those that wait if its ring has room; else it is dropped, and the final
entry will carry STREAM_GAP (R80). -/
def putOrDrop (k : Nat) (w : Waiting) (s : State) : State :=
  let s := drainWaiting s
  if s.canPost w then cqPut (waitRing s w) (waitBody w) false s else modReq k (fun r => { r with gap := true }) s

/-- The final batch of an ended request: what it has not posted, or all its tokens (R261). -/
def postFinal (k : Nat) (s : State) : State :=
  let r := s.req k
  let ts := if r.finalOnly || r.restarted then r.tokens else r.tokens.drop r.posted
  let runs := tokenRuns 16 ts
  let n := runs.length
  let s := setReq k { r with finalDone := true, posted := r.tokens.length } s
  if !s.anchor then s
  else runs.zipIdx.foldl (fun s p =>
    let last := p.2 + 1 == n
    putOrWait (.tokens (tokensEntry (if last then r.last else 0) k r last ((p.2 == 0 && r.restarted) || (last && r.gap))
      p.1)) s) s

/-- The tokens reported in the step just ended, entry by entry; one that finds no free entry is dropped (R80). -/
def postStep (k : Nat) (s : State) : State :=
  let r := s.req k
  let ts := r.tokens.drop r.posted
  if ts.isEmpty || r.finalOnly || r.restarted || !s.anchor then s
  else
    let s := setReq k { r with posted := r.tokens.length } s
    (tokenRuns 16 ts).foldl (fun s run => putOrDrop k (.tokens (tokensEntry 0 k r false false run)) s) s

/-- Every request's TOKENS entries of a boundary. -/
def postTokens (s : State) : State :=
  s.reqKeys.foldl (fun s k =>
    let r := s.req k
    if r.st.ended then (if r.finalDone then s else postFinal k s) else postStep k s) s

/-! ### End and release -/

/-- DROP orders for the packages that hold pages or copies of a request. -/
def dropAt (k : Nat) (pkgs : List (BitVec 8)) (s : State) : State :=
  let l := ((pkgs.filter (fun p => p != 0xFF)).eraseDups).map (fun p => (p.setWidth 6, BitVec.ofNat 12 k))
  { s with serve := { s.serve with drops := s.serve.drops ++ l.filter (fun d => !s.serve.drops.contains d) } }

/-- The package that holds a store-tier copy. -/
def Req.copyAt (r : Req) : BitVec 8 := match r.parkedCopy with
  | some p => if p.host then 0xFF else p.holder.setWidth 8
  | none => 0xFF

/-- The host slot of a request's copy is freed (R259). -/
def freeHostCopy (k : Nat) (s : State) : State :=
  match (s.req k).parkedCopy with
  | some p => if p.host && smGet none s.serve.hostSlots p.slot == some (BitVec.ofNat 12 k) then freeSlot p.slot s else s
  | none => s

/-- A move of a request's copy to host memory that is under way is abandoned. -/
def dropMove (k : Nat) (s : State) : State := if s.moving k then dropCtx s.pkg k s else s

/-- A request ends (Table Requests-3): its place frees, a parked copy goes, a move of it to host memory ends; the pages of a
CANCELLED or FAULTED one go with it, those of a DONE one at its release. -/
def endReq (k : Nat) (st : ReqSt) (c : Code) (s : State) : State :=
  let s := dropMove k (freeHostCopy k (latch c 0 s))
  let r := s.req k
  let gone := if st = .done then (if r.copyAt = r.kvPkg then [] else [r.copyAt])
    else [r.prePkg, r.decPkg, r.kvPkg, r.copyAt]
  let s := dropAt k gone s
  setReq k { r with st := st, last := if st = .done then 0 else c, resumeTo := .free, hold := false, dlPaused := false,
                    place := none, endNs := s.nowNs, parkOrd := false, reship := false, fail := 0,
                    parkedCopy := none } s

/-- A request is released to FREE (R232); its final batch is posted first if that is still to do. -/
def releaseReq (k : Nat) (s : State) : State :=
  let s := if (s.req k).finalDone then s else postFinal k s
  let r := s.req k
  setReq k Req.reset (if r.st = .done then dropAt k [r.kvPkg] s else s)

/-- An ended request is due for release: its parcel's record has been committed, or it lingered long enough (R232). -/
def releaseDue (s : State) (r : Req) : Bool :=
  r.st.ended && r.finalDone && (decide (r.endNs + s.fld Reg.serveLinger 0 16 * 1000000 ≤ s.nowNs)
    || (match s.parcel r.parcel with
      | some q => q.committed
      | none => false))

/-- LINGER_EXPIRY (R232). -/
def execLingerExpiry (req : BitVec 12) (s : State) : Outcome :=
  .next (if releaseDue s (s.req req.toNat) then releaseReq req.toNat s else s)

/-! ### Place reports -/

/-- PLACE_REPORT: a report word reaches the owner (R247); one that fails its CRC is a failed frame. -/
def placeReport (w : LinkWord) (ok : Bool) (list : BitVec 48) (s : State) : State :=
  if !s.weaveActive then s
  else if !wordOk w then badWord s
  else { s with serve := { s.serve with reports := s.serve.reports ++ [(w, ok, list)] } }

/-- PLACE_REPORT (R247). -/
def execPlaceReport (w : LinkWord) (ok : Bool) (list : BitVec 48) (s : State) : Outcome := .next (placeReport w ok list s)

/-- Charging of a generated token above the charged length (R235). -/
def chargeToken (k : Nat) (s : State) : State :=
  let r := s.req k
  if r.genLen ≤ r.charged then s
  else
    let t := s.tenant r.tenant.toNat
    setReq k { r with charged := r.genLen } (setTenant r.tenant.toNat { t with spent := t.spent + (r.genLen - r.charged) } s)

/-- A margin counts toward a request's least margin and is its last (R271). -/
def Req.withMargin (r : Req) (m : Nat) : Req :=
  { r with minMargin := if m < r.minMargin.toNat then BitVec.ofNat 16 m else r.minMargin, lastMargin := BitVec.ofNat 16 m }

/-- ARRIVED (R254, R260): a shipped cache gives DECODE, or PAUSED under HOLD; an unparked one DECODE. Without KEEP the
copy is gone. -/
def reportArrived (k : Nat) (list : BitVec 48) (s : State) : State :=
  let r := s.req k
  let at' (r : Req) : Req :=
    { r with kvPkg := r.decPkg, kvPages := s.kvNeed (r.promptLen + r.maxLen), listAddr := list, reship := false }
  match r.st with
  | .shipping =>
    if r.hold then setReq k { at' r with st := .paused, resumeTo := .decode, place := none, pausedAt := s.serve.stepNum } s
    else setReq k { at' r with st := .decode } s
  | .parked =>
    if r.place.isNone then s
    else if s.flag Reg.serveParkCfg 9 then setReq k { at' r with st := .decode } s
    else
      let s := freeHostCopy k s
      setReq k { at' r with st := .decode, parkedCopy := none } s
  | _ => s

/-- A store-tier copy is complete (R255, R256): PAUSED becomes PARKED; an earlier kept copy is replaced. -/
def reportParked (k : Nat) (list : BitVec 48) (s : State) : State :=
  let s := freeHostCopy k s
  let r := s.req k
  let s := if r.copyAt = r.kvPkg then s else dropAt k [r.copyAt] s
  let n := s.kvData (r.promptLen + r.genLen)
  setReq k { r with st := .parked, resumeTo := .free, parkOrd := false, kvPages := n + listPagesOf n, listAddr := list,
                    decPkg := 0xFF,
                    parkedCopy := some ⟨false, r.kvPkg.setWidth 6, 0, n, r.genLen, s.nowNs⟩ } s

/-- One place report takes effect (R233 step 1). -/
def applyReport (s : State) (x : LinkWord × Bool × BitVec 48) : State :=
  let w := x.1
  let k := wReq w
  let flag (i : Nat) : Bool := nbit (lwByte w 3) i
  let value := bits w 32 12
  let margin := lwNum w 6 2
  let r := s.req k
  let s := if flag 0 && r.st == .prefill then
      setReq k { r with encoded := min value r.promptLen, listAddr := x.2.2 } s else s
  let r := s.req k
  let s := if flag 1 && r.st == .prefill then setReq k { r with encoded := r.promptLen, place := none } s else s
  let r := s.req k
  let s := if flag 2 && r.st == .decode then
      chargeToken k (setReq k { (r.withMargin margin) with
        tokens := r.tokens ++ [BitVec.ofNat 12 value], genLen := r.genLen + 1 } s) else s
  let r := s.req k
  let s := if flag 3 && r.st == .decode then
      let r := if flag 2 || lwByte w 8 == 6 then r else r.withMargin margin
      endReq k .done 0 (setReq k { r with stop := BitVec.ofNat 8 (lwByte w 8), checkOk := x.2.1 } s) else s
  let s := if flag 4 then reportArrived k x.2.2 s else s
  let r := s.req k
  let s := if flag 5 && r.st == .paused && r.parkOrd && r.kvPkg.toNat == wPkg w then reportParked k x.2.2 s else s
  let r := s.req k
  if !flag 6 then s
  else if r.st = .shipping ∨ (r.st = .parked ∧ r.place.isSome = true) then setReq k { r with reship := true } s
  else if r.st == .paused && r.parkOrd then endReq k .cancelled eKvPage s
  else s

end Sys2Proof.Machine
end

