-- ==== Sys2Proof/Machine/Boundary.lean ====
section
/-!
DEFINITION. Boundary.lean: the step boundary (R233, R247): the fates of Table Faults-3, then completions, releases,
configuration, deadlines, host commands, new requests, admission, dispatch, deadline pauses, parking and orders
(R230 to R238, R246 to R261, R282). Readings: log entry 48.
-/

namespace Sys2Proof.Machine

/-! ### Orders of requests -/

/-- The element that stands first under a strict order; between equals the earlier one. -/
def firstBy {α : Type} (lt : α → α → Bool) : List α → Option α
  | [] => none
  | a :: l => match firstBy lt l with
    | none => some a
    | some b => if lt b a then some b else some a

/-- A deadline as it orders requests: belt time, or the distance to the encoder position. -/
def dlKey (s : State) (r : Req) : Int :=
  if r.dlPos then posDiff (BitVec.ofNat 48 r.deadline) s.field.pos else Int.ofNat r.deadline

/-- Sequence number `a` is earlier than `b` (R234). -/
def seqBefore (a b : Word) : Bool := a != b && decide ((b - a).toNat < 2 ^ 31)

/-- The order of R236: higher PRIO, earlier deadline, earlier sequence number. -/
def dispatchBefore (s : State) (a b : Nat × Req) : Bool :=
  decide (b.2.prio < a.2.prio) || (a.2.prio == b.2.prio && (decide (dlKey s a.2 < dlKey s b.2)
    || (dlKey s a.2 == dlKey s b.2 && seqBefore a.2.seq b.2.seq)))

/-- The order of a tenant queue: priority, earlier deadline, creation. -/
def queueBefore (s : State) (a b : Nat × Req) : Bool :=
  decide (b.2.prio < a.2.prio) || (a.2.prio == b.2.prio && (decide (dlKey s a.2 < dlKey s b.2)
    || (dlKey s a.2 == dlKey s b.2 && decide (a.2.born < b.2.born))))

/-- The choice of a request to pause (R237): lowest PRIO, later deadline, later sequence number. -/
def pauseBefore (s : State) (a b : Nat × Req) : Bool :=
  decide (a.2.prio < b.2.prio) || (a.2.prio == b.2.prio && (decide (dlKey s b.2 < dlKey s a.2)
    || (dlKey s a.2 == dlKey s b.2 && seqBefore b.2.seq a.2.seq)))

/-! ### Fates (Table Faults-3) -/

/-- A package is a member of the running alternate. -/
def State.altMember (s : State) (p : BitVec 6) : Bool :=
  match s.weave.run with
  | some d => match d.alternates[s.weave.alt.toNat]? with
    | some a => a.members.getLsbD p.toNat
    | none => false
  | none => false

/-- The parked copy of a request exists (R282). -/
def copyValid (s : State) (k : Nat) (p : Parked) : Bool :=
  if p.host then smGet none s.serve.hostSlots p.slot == some (BitVec.ofNat 12 k)
  else s.altMember p.holder && (p.holder != s.pkg || (match (s.ctx s.pkg k).bind (fun c => c.copy) with
    | some c =>
      let l := s.rdMem (s.parkBase + 4096 * c.first) (64 + 8 * c.pages.length)
      leAt l 0 2 == 0x504B && listCrcOk l
    | none => false))

/-- A request starts again from its crop. -/
def Req.fromCrop (r : Req) (st resume : ReqSt) : Req :=
  { r with st := st, resumeTo := resume, encoded := 0, genLen := 0, tokens := [], posted := 0, minMargin := 0xFFFF,
           lastMargin := 0, prePkg := 0xFF, decPkg := 0xFF, kvPkg := 0xFF, kvPages := 0, listAddr := 0, place := none,
           parkOrd := false, reship := false, parkedCopy := none }

/-- A request returns to its parked copy (R260). -/
def Req.toCopy (r : Req) (p : Parked) (now : Nat) : Req :=
  { r with st := .parked, resumeTo := .free, genLen := p.genLen, tokens := r.tokens.take p.genLen,
           posted := min r.posted p.genLen, decPkg := 0xFF, kvPkg := if p.host then 0xFF else p.holder.setWidth 8,
           kvPages := if p.host then 0 else p.pages + listPagesOf p.pages, place := none, parkOrd := false,
           reship := false, parkedCopy := some { p with atNs := now } }

/-- The fate of one request, and whether the restart changed it. -/
def fateOf (s : State) (k : Nat) (r : Req) : Req × Bool :=
  let copy := match r.parkedCopy with
    | some p => if copyValid s k p then some p else none
    | none => none
  match r.st with
  | .prefill => (r.fromCrop .queued .free, true)
  | .shipping => match copy with
    | some p => (r.toCopy p s.nowNs, true)
    | none => (r.fromCrop .queued .free, true)
  | .decode => match copy with
    | some p => (r.toCopy p s.nowNs, true)
    | none => (r.fromCrop .queued .free, true)
  | .paused =>
    if r.resumeTo = .queued then (r, false)
    else match copy with
      | some p => (r.toCopy p s.nowNs, true)
      | none => (r.fromCrop .paused .queued, true)
  | .parked => ({ r with place := none, reship := false, decPkg := 0xFF }, false)
  | _ => (r, false)

/-- One request's fate after a restart (1) or a switch to a weave of the same model (2): RESTARTED, and RESTART in the
record, only after a restart (R282, R338). -/
def applyFate (mark : Bool) (s : State) (k : Nat) : State :=
  let r := s.req k
  let f := fateOf s k r
  let s := setReq k (if f.2 && mark then { f.1 with restarted := true } else f.1) s
  if f.2 && mark then mapParcels (fun q => q.id == r.parcel) (fun q => { q with restart := true }) s else s

/-- KV pages of interrupted work are freed; copies, and the pages of stopped requests, stay; contexts of owners outside
the alternate go. -/
def freeInterrupted (s : State) : State :=
  { s with serve := { s.serve with ctxs := ((s.serve.ctxs.filter (fun c => s.altMember c.owner)).map (fun c =>
      if c.stopped then c else c.freed)).filter (fun c => c.stopped || c.copy.isSome) } }

/-- The fates that are due at the first boundary after a resume or at a new weave (R247, R338). -/
def applyFates (s : State) : State :=
  let n := s.serve.fates
  if n = 0 then s
  else
    let keys := s.reqKeys
    let s' := if n = 3 then
        keys.foldl (fun s k => if (s.req k).live then endReq k .cancelled eWeaveSwitch s else s) s
      else keys.foldl (applyFate (n == 1)) s
    let s' := freeInterrupted s'
    { s' with serve := { s'.serve with fates := 0 } }

/-! ### Steps 1 to 5 of R233 -/

/-- Step 1: cancellations found since the last boundary, then the place reports of the step, in order. -/
def stepReports (s : State) : State :=
  let s := s.reqKeys.foldl (fun s k =>
    let r := s.req k
    if r.fail ≠ 0 ∧ r.live = true then endReq k .cancelled r.fail s else s) s
  let l := s.serve.reports
  l.foldl applyReport { s with serve := { s.serve with reports := [] } }

/-- Step 2: releases, and the turn of a budget window (R232, R235). -/
def stepReleases (s : State) : State :=
  let s := s.reqKeys.foldl (fun s k => if releaseDue s (s.req k) then releaseReq k s else s) s
  let w := s.nowNs / (s.fld Reg.serveWindow 0 16 * 1000000)
  let turn := match s.serve.window with
    | some v => v != w
    | none => false
  let ts := if turn then s.serve.tenants.map (fun p => (p.1, { p.2 with spent := 0 })) else s.serve.tenants
  let ts := ts.filter (fun p => decide (p.2 ≠ Tenant.reset))
  { s with serve := { s.serve with window := some w, tenants := ts } }

/-- The deadline of a request is reached (R238). -/
def reached (s : State) (r : Req) : Bool :=
  if r.dlPos then decide (0 ≤ posDiff s.field.pos (BitVec.ofNat 48 r.deadline)) else decide (r.deadline ≤ s.nowNs)

/-- The time to live of a parked request has ended (R259). -/
def ttlOver (s : State) (r : Req) : Bool :=
  r.st == .parked && (match r.parkedCopy with
    | some p => decide (p.atNs + s.fld Reg.serveParkCfg 16 16 * 1000000 ≤ s.nowNs)
    | none => false)

/-- Step 4: deadlines, then ends of time to live (R238, R259). -/
def stepDeadlines (s : State) : State :=
  s.reqKeys.foldl (fun s k =>
    let r := s.req k
    if !r.live then s
    else if reached s r then endReq k .cancelled eReqDeadline s
    else if ttlOver s r then endReq k .cancelled eParkTtl s
    else s) s

/-- A pause takes effect (Table Requests-3). -/
def pauseReq (k : Nat) (s : State) : State :=
  let r := s.req k
  let pause (to' : ReqSt) : Req :=
    { r with st := .paused, resumeTo := to', hold := true, place := none, pausedAt := s.serve.stepNum }
  match r.st with
  | .queued => setReq k (pause .queued) s
  | .prefill => setReq k (pause .prefill) s
  | .decode => setReq k (pause .decode) s
  | _ => setReq k { r with hold := true } s

/-- A pending host command takes effect and completes (R236a): an ended request gives E_REQ_FINAL, a state that refuses
it E_REQ_STATE; RESULT is the state code before it. -/
def applyCmd (s : State) (c : HostCmd) : State :=
  let k := c.req.toNat
  let s := modReq k (fun r => { r with pendCmd := false }) s
  let r := s.req k
  match s.flight c.flight with
  | none => s
  | some f =>
    let result := BitVec.ofNat 32 (stCode r.st)
    if r.st.ended || r.st == .free then finishFlight f eReqFinal 0 s
    else if cmdRefused c.kind.val r then finishFlight f eReqState 0 s
    else match c.kind.val with
      | 0 => completeFlight f 0 result (endReq k .cancelled eReqHost s)
      | 1 => completeFlight f 0 result (pauseReq k s)
      | _ => completeFlight f 0 result (setReq k { r with hold := false } s)

/-- Step 5: host cancels, then pauses, then resumes. -/
def stepCommands (s : State) : State :=
  let l := s.serve.cmds
  let s := { s with serve := { s.serve with cmds := [] } }
  let pick (n : Nat) := l.filter (fun c => c.kind.val == n)
  (pick 0 ++ pick 1 ++ pick 2).foldl applyCmd s

/-! ### Step 6: new requests (R230) -/

/-- The lowest-indexed FREE entry. -/
def State.freeEntry (s : State) : Option Nat := (List.range 4096).find? (fun k => (s.req k).st == .free)

/-- The deadline of a parcel's requests (R230). -/
def deadlineOf (s : State) (q : Parcel) : Nat :=
  let ofs := (s.reg Reg.serveDlOfs).toNat
  if s.flag Reg.serveCtl 1 then (q.barrierPos.toNat + ofs) % 2 ^ 48 else (q.barrierNs.toNat + ofs * 1000) % 2 ^ 64

/-- The prompt length that the weave's encoder declares for a crop class. -/
def State.promptOf (s : State) (cls : Nat) : Nat := match s.weave.run with
  | some d => (nthD 0 d.promptLen cls).toNat
  | none => 0

/-- A new request from a crop of an owned parcel. -/
def newReq (s : State) (c : HandedCrop) (q : Parcel) (h : List Byte) : Req :=
  { Req.reset with
    st := .queued, prio := BitVec.ofNat 3 (leAt h 28 2 / 4096), tenant := BitVec.ofNat 12 (leAt h 28 2),
    grammar := BitVec.ofNat 8 (leAt h 30 1), promptLen := s.promptOf (leAt h 5 1), maxLen := c.maxM1.toNat + 1,
    parcel := q.id, deadline := deadlineOf s q, dlPos := s.flag Reg.serveCtl 1, cutPkg := BitVec.ofNat 8 (leAt h 4 1),
    slot := c.slot, born := s.serve.born, multi := leAt h 7 1 % 2 == 1, rule := BitVec.ofNat 16 (leAt h 26 2),
    crop := BitVec.ofNat 512 (ofLe h) }

/-- A crop of an owned parcel becomes a request, or is counted as dropped (R230). -/
def createReq (s : State) (c : HandedCrop) : State :=
  let h := leBytes 64 c.header.toNat
  match s.parcel (BitVec.ofNat 32 (leAt h 0 4)) with
  | none => s
  | some q =>
    if !s.flag Reg.serveCtl 0 then s
    else match s.freeEntry with
      | none => postEvent eReqTableFull (BitVec.ofNat 128 (q.id.toNat + leAt h 4 1 * 2 ^ 32))
          (s.bumpSat Reg.serveDropped 32 1)
      | some k =>
        let h := headerFor h k
        let r := newReq s c q h
        let s := setReq k r { s with serve := { s.serve with born := s.serve.born + 1 } }
        let s := mapParcels (fun p => p.id == q.id) (fun p => { p with multi := p.multi || r.multi }) s
        if leAt h 4 1 = s.pkg.toNat then wrMem (s.cropAddr c.slot.toNat) h s
        else s.emit (.cropIndex (BitVec.ofNat 6 (leAt h 4 1)) c.slot (BitVec.ofNat 512 (ofLe h)))

/-- The crops of this package that await their hand-over. -/
def State.ownHanded (s : State) : List HandedCrop :=
  s.roi.handed.filterMap (fun slot => match smGet none s.roi.crops slot.toNat with
    | some c => some (handedCrop s slot c)
    | none => none)

/-- Step 6: the crops handed over since the last boundary. -/
def stepCreate (remote : List HandedCrop) (s : State) : State :=
  (s.ownHanded ++ remote).foldl createReq { s with roi := { s.roi with handed := [] } }

/-! ### Step 7: admission (R234) -/

/-- Requests that wait in a tenant queue. -/
def State.queue (s : State) (t : BitVec 12) : List (Nat × Req) :=
  s.serve.reqs.filter (fun p => p.2.st == .queued && !p.2.admitted && p.2.tenant == t)

/-- Tenants with a queue. -/
def State.queueTenants (s : State) : List (BitVec 12) :=
  ((s.serve.reqs.filter (fun p => p.2.st == .queued && !p.2.admitted)).map (fun p => p.2.tenant)).eraseDups

/-- The head of a tenant's queue, its start tag formed as it becomes the head. -/
def formHead (s : State) (t : BitVec 12) : State :=
  let x := s.tenant t.toNat
  match firstBy (queueBefore s) (s.queue t) with
  | none => s
  | some (k, r) =>
    if x.head = some k then s
    else setReq k { r with tag := max s.serve.vtime x.finish } (setTenant t.toNat { x with head := some k } s)

/-- Heads that left their queue are forgotten. -/
def dropHeads (s : State) : State :=
  let ts := s.serve.tenants.map (fun p =>
    let stays : Bool := match p.2.head with
      | some k =>
        let r := s.req k
        r.st == .queued && !r.admitted && r.tenant.toNat == p.1
      | none => true
    if stays then p else (p.1, { p.2 with head := none }))
  { s with serve := { s.serve with tenants := ts.filter (fun p => decide (p.2 ≠ Tenant.reset)) } }

/-- Every tenant's head. -/
def formHeads (s : State) : State := s.queueTenants.foldl formHead (dropHeads s)

/-- Admitted requests that have not been dispatched. -/
def State.dispatchSet (s : State) : Nat :=
  (s.serve.reqs.filter (fun p => p.2.admitted
    && (p.2.st == .queued || (p.2.st == .paused && p.2.resumeTo == .queued)))).length

/-- A tenant's budget is exhausted (R235). -/
def Tenant.exhausted (t : Tenant) : Bool := t.budget != 0xFFFFFFFF && decide (t.budget.toNat ≤ t.spent)

/-- The head with the smallest start tag; between equal tags the lower tenant. -/
def State.nextHead (s : State) : Option (Nat × Req) :=
  firstBy (fun a b => decide (a.2.tag < b.2.tag) || (a.2.tag == b.2.tag && decide (a.2.tenant < b.2.tenant)))
    ((s.serve.tenants.filterMap (fun p => p.2.head)).map (fun k => (k, s.req k)))

/-- One admission. -/
def admitOne (k : Nat) (s : State) : State :=
  let r := s.req k
  let t := s.tenant r.tenant.toNat
  let w := if t.exhausted then 1 else t.weight.toNat
  let c := r.promptLen + r.maxLen
  let s := setTenant r.tenant.toNat
    { t with finish := (r.tag + c * 65536 / w) % 2 ^ 64, spent := t.spent + r.promptLen, head := none } s
  let s := setReq k { r with admitted := true, seq := s.serve.nextSeq, finalOnly := s.flag Reg.serveStream 0 } s
  { s with serve := { s.serve with vtime := r.tag, nextSeq := s.serve.nextSeq + 1 } }

/-- Step 7: admissions while the dispatch set holds fewer than DEPTH requests. -/
def stepAdmit : Nat → State → State
  | 0, s => s
  | n + 1, s =>
    let s := formHeads s
    if s.fld Reg.serveAdmit 0 9 ≤ s.dispatchSet then s
    else match s.nextHead with
      | some (k, _) => stepAdmit n (admitOne k s)
      | none => s

/-! ### Orders -/

/-- A new transfer number. -/
def newXfer (s : State) : Word × State :=
  (s.serve.nextXfer + 1, { s with serve := { s.serve with nextXfer := s.serve.nextXfer + 1 } })

/-- A transfer order of a kind: to the package that sends, and to the destination. -/
def orderTransfer (kind k : Nat) (src dst : BitVec 6) (s : State) : State :=
  let (x, s) := newXfer s
  let w := orderWord k kind dst.toNat 0 0 0 0 x
  let s := sendOrder src w s
  if src = dst then s else sendOrder dst w s

/-- The package that unparks a request. -/
def unparkFrom (s : State) (r : Req) : BitVec 6 := match r.parkedCopy with
  | some p => if p.host then s.pkg else p.holder
  | none => s.pkg

/-- SHIP or UNPARK orders for a request on its way to a decode package. -/
def orderMove (k : Nat) (s : State) : State :=
  let r := s.req k
  let dst : BitVec 6 := r.decPkg.setWidth 6
  if r.st = .shipping then orderTransfer 3 k (r.kvPkg.setWidth 6) dst s
  else if r.st = .parked then orderTransfer 6 k (unparkFrom s r) dst s
  else s

/-! ### Step 9: dispatch (R236, R248, R249) -/

/-- The kind of place that a request competes for: true DECODE, false PREFILL or CHUNK. A PAUSED request competes whether
or not it has been admitted (R236). -/
def Req.wants (r : Req) : Option Bool :=
  let coded := decide (r.promptLen ≤ r.encoded)
  if r.place.isSome then none
  else match r.st with
    | .queued => if r.admitted then some false else none
    | .prefill => if coded then some true else none
    | .paused =>
      if r.hold || r.parkOrd then none
      else if r.resumeTo = .queued then some false
      else if r.resumeTo = .prefill then some coded
      else some true
    | .parked => if r.hold then none else some true
    | _ => none

/-- Places of the running weave with their positions in its list: those on packages of their pool (R18). -/
def State.placeList (s : State) : List (Nat × PlaceDecl) := match s.weave.run with
  | some d => (d.places.zipIdx.filter (fun p => placeFits d p.1)).map (fun p => (p.2, p.1))
  | none => []

/-- Places that this owner may give and nobody holds. -/
def State.freePlaces (s : State) : List (Nat × PlaceDecl) :=
  s.placeList.filter (fun p => p.2.owner == s.pkg && s.altMember p.2.pkg && p.2.kind != 0
    && !s.serve.reqs.any (fun q => q.2.place == some p.1))

/-- A place of a kind. -/
def isDecode (p : PlaceDecl) : Bool := p.kind == 2

/-- Unreserved KV pages of a package. -/
def kvFreeAt (views : List PoolView) (s : State) (p : BitVec 6) : Nat :=
  if p = s.pkg then s.kvFree.length
  else match views.find? (fun v => v.pkg == p) with
    | some v => v.kvFree
    | none => 0

/-- Free park pages of a package. -/
def parkFreeAt (views : List PoolView) (s : State) (p : BitVec 6) : Nat :=
  if p = s.pkg then s.parkFree.length
  else match views.find? (fun v => v.pkg == p) with
    | some v => v.parkFree
    | none => 0

/-- Pages that a dispatch reserves on a place's package beyond those the request holds there (R249). -/
def pagesShort (s : State) (p : PlaceDecl) (r : Req) : Nat :=
  s.kvNeed (if isDecode p then r.promptLen + r.maxLen else r.promptLen)
    - (if r.kvPkg.toNat = p.pkg.toNat ∧ r.st ≠ .parked then r.kvPages else 0)

/-- The adapter generation of a request: the one it keeps, or its tenant's current one (R242). -/
def adapterOf (s : State) (r : Req) : BitVec 8 := if r.adGiven then r.adGen else (s.tenant r.tenant.toNat).gen

/-- The request's adapter fits the gather limit of the place's batch (R236, R242). -/
def gatherOk (s : State) (p : PlaceDecl) (r : Req) : Bool :=
  let mine := (r.tenant, adapterOf s r)
  let held := ((s.serve.reqs.filter (fun q => match q.2.place with
    | some i => q.2.adGen != 0 && s.placeList.any (fun x => x.1 == i && x.2.pkg == p.pkg && x.2.kind == p.kind)
    | none => false)).map (fun q => (q.2.tenant, q.2.adGen))).eraseDups
  mine.2 == 0 || held.contains mine || decide (held.length < p.gather)

/-- A candidate fits a place: kind, pages, gather limit; a paused prefill goes on where its cache is. -/
def fits (views : List PoolView) (used : SMap Nat) (s : State) (p : PlaceDecl) (r : Req) : Bool :=
  r.wants == some (isDecode p)
    && decide (smGet 0 used p.pkg.toNat + pagesShort s p r ≤ kvFreeAt views s p.pkg)
    && gatherOk s p r
    && (!(r.st == .paused && r.resumeTo == .prefill && !isDecode p) || r.kvPkg.toNat == p.pkg.toNat)

/-- A request takes a place: its pages are reserved, its first dispatch gives the adapter generation, and a cache that lies
elsewhere is ordered to move (R248, R252, R260). -/
def takePlace (i : Nat) (p : PlaceDecl) (k : Nat) (x : SMap Nat × State) : SMap Nat × State :=
  let s := x.2
  let r := s.req k
  let used := smSet 0 x.1 p.pkg.toNat (smGet 0 x.1 p.pkg.toNat + pagesShort s p r)
  let r := { r with place := some i, dlPaused := false, adGen := adapterOf s r, adGiven := true,
                    finalOnly := if r.admitted then r.finalOnly else s.flag Reg.serveStream 0 }
  let pkg8 := p.pkg.setWidth 8
  if !isDecode p then
    let r := if r.st = .paused ∧ r.resumeTo = .prefill then { r with st := .prefill, resumeTo := .free }
      else { r with st := .prefill, resumeTo := .free, encoded := 0, prePkg := pkg8, kvPkg := pkg8,
                    kvPages := s.kvNeed r.promptLen }
    (used, setReq k r s)
  else
    let r := { r with decPkg := pkg8 }
    if r.st = .parked then (used, orderMove k (setReq k r s))
    else if r.kvPkg = pkg8 ∧ r.hold = true then
      (used, setReq k { r with st := .paused, resumeTo := .decode, place := none, pausedAt := s.serve.stepNum } s)
    else if r.kvPkg = pkg8 then
      (used, setReq k { r with st := .decode, resumeTo := .free, kvPages := s.kvNeed (r.promptLen + r.maxLen) } s)
    else (used, orderMove k (setReq k { r with st := .shipping, resumeTo := .free } s))

/-- One free place is given to the first candidate in the order of R236 that fits it. -/
def dispatchOne (views : List PoolView) (x : SMap Nat × State) (p : Nat × PlaceDecl) : SMap Nat × State :=
  match firstBy (dispatchBefore x.2) (x.2.serve.reqs.filter (fun q => fits views x.1 x.2 p.2 q.2)) with
  | some (k, _) => takePlace p.1 p.2 k x
  | none => x

/-- Step 9. -/
def stepDispatch (views : List PoolView) (s : State) : SMap Nat × State :=
  s.freePlaces.foldl (dispatchOne views) ([], s)

/-! ### Step 8: deadline pauses (R237) -/

/-- The slack of a request, in steps. -/
def slack (s : State) (r : Req) : Int :=
  let d : Int :=
    if r.dlPos then posDiff (BitVec.ofNat 48 r.deadline) s.field.pos / (max 1 (s.fld Reg.serveDlCfg 0 16) : Int)
    else (Int.ofNat r.deadline - Int.ofNat s.nowNs) / (max 1 (s.reg Reg.serveStepNs).toNat : Int)
  let before := r.st == .queued || r.st == .prefill || r.st == .shipping
    || (r.st == .paused && (r.resumeTo == .queued || r.resumeTo == .prefill))
  d - Int.ofNat (ceilDiv (r.promptLen - r.encoded) 256 + (if before then s.fld Reg.serveDlCfg 24 4 else 0)
    + (r.maxLen - r.genLen))

/-- Requests that are urgent and found no place. -/
def State.urgent (s : State) : List (Nat × Req) :=
  s.serve.reqs.filter (fun p => p.2.wants.isSome && decide (slack s p.2 ≤ Int.ofNat (s.fld Reg.serveDlCfg 16 8)))

/-- Running requests of a kind that may be paused for an urgent one. -/
def State.running (s : State) (decode : Bool) : List (Nat × Req) :=
  s.serve.reqs.filter (fun p => p.2.place.isSome
    && (if decode then p.2.st == .decode else p.2.st == .prefill && decide (p.2.encoded < p.2.promptLen)))

/-- One urgent request: the running request of its kind with the lowest PRIO below its own gives up its place. -/
def pauseFor (views : List PoolView) (x : SMap Nat × State) (k : Nat) : SMap Nat × State :=
  let s := x.2
  let u := s.req k
  match u.wants with
  | none => x
  | some kind =>
    if s.freePlaces.any (fun p => isDecode p.2 == kind) then x
    else match firstBy (pauseBefore s) ((s.running kind).filter (fun p => decide (p.2.prio < u.prio))) with
      | none => x
      | some (v, r) =>
        let s := setReq v { r with st := .paused, resumeTo := r.st, dlPaused := true, place := none,
                                   pausedAt := s.serve.stepNum } s
        match r.place with
        | none => (x.1, s)
        | some i => match s.placeList.find? (fun p => p.1 == i) with
          | some p => if fits views x.1 s p.2 u then takePlace p.1 p.2 k (x.1, s) else (x.1, s)
          | none => (x.1, s)

/-- Step 8, for the urgent requests in the order of R236. -/
def stepPauses (views : List PoolView) : Nat → List (Nat × Req) → SMap Nat × State → SMap Nat × State
  | 0, _, x => x
  | n + 1, l, x =>
    match firstBy (dispatchBefore x.2) l with
    | some (k, _) => stepPauses views n (l.filter (fun p => p.1 != k)) (pauseFor views x k)
    | none => x

/-! ### Parking (R255 to R257) -/

/-- Page list and pages of the cache of a request in its pool. -/
def parkPages (s : State) (k : Nat) (r : Req) : Nat :=
  let n := match (if r.kvPkg.toNat = s.pkg.toNat then s.ctx s.pkg k else none) with
    | some c => c.pages.length
    | none => s.kvData (r.promptLen + r.genLen)
  n + listPagesOf n

/-- What a boundary's parks take and give: park pages used, KV pages that will be free, by package. -/
structure ParkSum where
  used  : SMap Nat
  freed : SMap Nat
  deriving DecidableEq, Repr

/-- A PARK_STORE order (R255). -/
def parkStore (k : Nat) (x : ParkSum × State) : ParkSum × State :=
  let s := x.2
  let r := s.req k
  let h := r.kvPkg.toNat
  let n := parkPages s k r
  (⟨smSet 0 x.1.used h (smGet 0 x.1.used h + n), smSet 0 x.1.freed h (smGet 0 x.1.freed h + r.kvPages)⟩,
   sendOrder (r.kvPkg.setWidth 6) (orderWord k 4 0 0 0 0 0 0) (setReq k { r with parkOrd := true } s))

/-- A paused request is parked under the first trigger, or under the second (R255, R256). -/
def parkOne (views : List PoolView) (taken : SMap Nat) (x : ParkSum × State) (k : Nat) : ParkSum × State :=
  let s := x.2
  let r := s.req k
  let h : BitVec 6 := r.kvPkg.setWidth 6
  let after := s.fld Reg.serveParkCfg 0 8
  let long := after ≠ 0 ∧ after ≤ (s.serve.stepNum - r.pausedAt).toNat
  let free := kvFreeAt views s h - smGet 0 taken h.toNat + smGet 0 x.1.freed h.toNat
  let low := free < s.fld Reg.serveParkLow 0 16
  let room (s : State) : Bool := smGet 0 x.1.used h.toNat + parkPages s k r ≤ parkFreeAt views s h
  if ¬(long ∨ low) then x
  else if room s then parkStore k x
  else if long then x
  else
    let (s', moved) := moveToHost h s
    if !moved then
      ({ x.1 with freed := smSet 0 x.1.freed h.toNat (smGet 0 x.1.freed h.toNat + r.kvPages) },
       endReq k .cancelled eParkNoPages s')
    else if room s' then parkStore k (x.1, s')
    else (x.1, s')

/-- Paused requests that may be parked, earliest pause first, then lower index. -/
def State.parkable (s : State) : List (Nat × Req) :=
  s.serve.reqs.filter (fun p => p.2.st == .paused && p.2.resumeTo == .decode && !p.2.parkOrd && p.2.kvPkg != 0xFF)

/-- The parks of a boundary. -/
def stepParks (views : List PoolView) (taken : SMap Nat) : Nat → List (Nat × Req) → ParkSum × State → ParkSum × State
  | 0, _, x => x
  | n + 1, l, x =>
    match firstBy (fun a b => decide (a.2.pausedAt < b.2.pausedAt) || (a.2.pausedAt == b.2.pausedAt && decide (a.1 < b.1))) l with
    | some (k, _) => stepParks views taken n (l.filter (fun p => p.1 != k)) (parkOne views taken x k)
    | none => x

/-- KV pages that copies in progress will free, by package. -/
def State.parkSum (s : State) : ParkSum :=
  ⟨[], (s.serve.reqs.filter (fun p => p.2.st == .paused && p.2.parkOrd)).foldl (fun m p =>
    smSet 0 m p.2.kvPkg.toNat (smGet 0 m p.2.kvPkg.toNat + p.2.kvPages)) []⟩

/-! ### The orders of the step -/

/-- The CHUNK or DECODE order of a request that holds a place (R246, R248). -/
def workOrder (s : State) (k : Nat) : State :=
  let r := s.req k
  match r.place with
  | none => s
  | some i => match s.placeList.find? (fun p => p.1 == i) with
    | none => s
    | some (_, p) =>
      if r.st = .prefill then
        let n := min p.tokens (r.promptLen - r.encoded)
        sendOrder p.pkg (orderWord k 1 0 p.index.toNat r.encoded (n - 1) r.adGen.toNat 0) s
      else if r.st = .decode then sendOrder p.pkg (orderWord k 2 0 p.index.toNat 0 0 r.adGen.toNat 0) s
      else s

/-- The DROP orders that are due (R246). -/
def dropOrders (s : State) : State :=
  s.serve.drops.foldl (fun s d => sendOrder d.1 (orderWord d.2.toNat 7 0 0 0 0 0 0) s)
    { s with serve := { s.serve with drops := [] } }

/-- Failed transfers are ordered again with a new number (R253). -/
def reshipOrders (s : State) : State :=
  s.reqKeys.foldl (fun s k =>
    let r := s.req k
    if r.reship then orderMove k (setReq k { r with reship := false } s) else s) s

/-- The boundary's events in the order of R233, the deadline pauses after dispatch as R237 gives. -/
def serveBoundary (crops : List HandedCrop) (views : List PoolView) (s : State) : State :=
  let s := stepReleases (stepReports s)
  let s := grammarsTurn (adaptersTurn (cfgsTurn s))
  let s := stepCreate crops (stepCommands (stepDeadlines s))
  let s := formHeads (stepAdmit 4096 s)
  let s := reshipOrders s
  let x := stepDispatch views s
  let u := x.2.urgent
  let x := stepPauses views u.length u x
  let l := x.2.parkable
  let y := stepParks views x.1 l.length l (x.2.parkSum, x.2)
  let s := dropOrders (y.2.reqKeys.foldl workOrder y.2)
  postTokens s

/-- STEP_BOUNDARY: counted; the fates that are due, then R233 (R245, R247). No boundary is processed during a restart. -/
def stepBoundary (crops : List HandedCrop) (views : List PoolView) (s : State) : State :=
  if !s.weaveActive then s
  else serveBoundary crops views (applyFates { s with serve := { s.serve with stepNum := s.serve.stepNum + 1 } })

/-- STEP_BOUNDARY (R233). -/
def execStepBoundary (crops : List HandedCrop) (views : List PoolView) (s : State) : Outcome :=
  .next (stepBoundary crops views s)

end Sys2Proof.Machine
end

