-- ==== Sys2Proof/Machine/Records.lean ====
section
/-!
DEFINITION. Records.lean: the parcel record (Tables Host-9, Host-10): assembly with labels, dimensions and weight (R126,
R149, R150), the record ring (R86, R87), and REGION_REQ (R128). Readings: log entries 46 and 49.
-/

namespace Sys2Proof.Machine

/-! ### Labels (R126) -/

/-- The stop reason of a label entry (Table Tokens-5). -/
def stopOf (r : Req) : Nat :=
  match r.st with
  | .done => r.stop.toNat
  | .faulted => 0x14
  | .cancelled =>
    if r.last = eReqHost then 0x10
    else if r.last = eReqDeadline then 0x11
    else if r.last = eParkTtl then 0x12
    else if r.last = eParkNoPages ∨ r.last = eParkAuth ∨ r.last = eKvPage then 0x13
    else 0
  | _ => 0

/-- The least margin of a request; 0 before any token was chosen. -/
def Req.least (r : Req) : Nat := if r.minMargin = 0xFFFF ∧ r.lastMargin = 0 then 0 else r.minMargin.toNat

/-- Of two label results the one that is kept: greater least margin, lower cutting package, lower request index. -/
def labelBefore (a b : Nat × Req) : Bool :=
  decide (b.2.least < a.2.least) || (a.2.least == b.2.least && (decide (a.2.cutPkg < b.2.cutPkg)
    || (a.2.cutPkg == b.2.cutPkg && decide (a.1 < b.1))))

/-- Two label results share a grammar id and a token string. -/
def sameLabel (a b : Nat × Req) : Bool := a.2.grammar == b.2.grammar && a.2.tokens == b.2.tokens

/-- A list in the order of a strict order, by insertion. -/
def insertBy {α : Type} (lt : α → α → Bool) (a : α) : List α → List α
  | [] => [a]
  | b :: l => if lt a b then a :: b :: l else b :: insertBy lt a l

/-- A list sorted by a strict order. -/
def sortBy {α : Type} (lt : α → α → Bool) (l : List α) : List α := l.foldr (insertBy lt) []

/-- Distinct labels, the kept result of each first. -/
def distinctLabels : Nat → List (Nat × Req) → List (Nat × Req)
  | 0, _ => []
  | _ + 1, [] => []
  | n + 1, a :: l => a :: distinctLabels n (l.filter (fun b => !sameLabel a b))

/-- The label results of a parcel after merging, best first. -/
def State.labelsOf (s : State) (id : Word) : List (Nat × Req) :=
  let l := sortBy labelBefore (s.serve.reqs.filter (fun p => p.2.st != .free && p.2.parcel == id))
  distinctLabels l.length l

/-- The entries of a record: at most 8, by rising rule index, then rising request index. -/
def entriesOf (l : List (Nat × Req)) : List (Nat × Req) :=
  sortBy (fun a b => decide (a.2.rule < b.2.rule) || (a.2.rule == b.2.rule && decide (a.1 < b.1))) (l.take 8)

/-- Tokens packed 12 bits each into 384 bytes. -/
def packTokens (ts : List (BitVec 12)) : List Byte :=
  leBytes 384 ((ts.zipIdx.map (fun p => p.1.toNat * 2 ^ (12 * p.2))).foldl (· + ·) 0)

/-- Field [lo+n-1:lo] bytes of a request's crop header. -/
def cropField (r : Req) (lo n : Nat) : Nat := bits r.crop (8 * lo) (8 * n)

/-- A label entry (Table Host-10). -/
def labelEntry (view : Int) (q : Parcel) (noDims' : Bool) (p : Nat × Req) : List Byte :=
  let r := p.2
  let packed := packTokens r.tokens
  let region (i : Nat) : Nat := if noDims' then 0 else Config.labelRegion r.crop q.top q.left q.right q.barrierPos view i
  leBytes 4 (p.1 + r.tenant.toNat * 2 ^ 12 + r.grammar.toNat * 2 ^ 24) ++ leBytes 2 r.tokens.length
    ++ leBytes 1 (stopOf r)
    ++ leBytes 1 (r.multi.toNat + 2 * r.checkOk.toNat + 4 * r.restarted.toNat + 8 * (r.decPkg != 0xFF).toNat)
    ++ leBytes 4 (r.least + r.lastMargin.toNat * 2 ^ 16) ++ leBytes 4 (crc32c packed).toNat
    ++ leBytes 4 (region 0) ++ leBytes 4 (region 1) ++ leBytes 2 (region 2) ++ leBytes 2 (region 3)
    ++ leBytes 2 (cropField r 36 2) ++ leBytes 1 r.decPkg.toNat ++ leBytes 1 0 ++ packed ++ leBytes 32 0

/-! ### The weight (R149, R150) -/

/-- The parcel that a weight result binds to. -/
def weightParcel (s : State) (w : Weight) : Option Word :=
  match w.cmp with
  | some c =>
    ((s.roi.parcels.filter (fun q => q.cmp == c && decide (q.barrierNs ≤ w.startNs))).getLast?).map (fun q => q.id)
  | none =>
    (firstBy (fun (a b : Parcel) => decide (0 < posDiff (a.clearPos.getD 0) (b.clearPos.getD 0)))
      (s.roi.parcels.filter (fun q => match q.clearPos with
        | some c => decide (0 ≤ posDiff w.startPos c)
        | none => false))).map (fun q => q.id)

/-- A channel, or one tied to it, is open (WFE_OPEN). -/
def chanOpen (s : State) (n : Nat) : Bool :=
  s.flag Reg.wfeOpen n || (n == 0 && (List.range 8).any (fun k => s.flag (Reg.wfeChCfg k) 0 && s.flag Reg.wfeOpen k))

/-- The weight cannot stand in the record (R150). -/
def weightBad (s : State) (w : Weight) : Bool :=
  w.flags.getLsbD 0 || w.flags.getLsbD 1 || w.flags.getLsbD 4 || w.flags.getLsbD 5 || w.flags.getLsbD 6
    || chanOpen s w.chan.toNat

/-- The latest weight result bound to a parcel; it leaves the queue with every other one bound to it. -/
def takeWeight (id : Word) (s : State) : Option Weight × State :=
  let mine := s.wfe.wq.filter (fun w => weightParcel s w == some id)
  (mine.getLast?, { s with wfe := { s.wfe with wq := s.wfe.wq.filter (fun w => weightParcel s w != some id) } })

/-! ### The record -/

/-- Bytes 0x000 to 0xFF7 of a record without REC_HELD (Table Host-9). -/
def recordBody (s : State) (q : Parcel) (ls : List (Nat × Req)) : List Byte :=
  let noD := q.dims.isNone || q.overlap
  let d : Dims := if noD then ⟨0, 0, 0, 0, 0⟩ else q.dims.getD ⟨0, 0, 0, 0, 0⟩
  let bad := match q.weight with
    | some w => weightBad s w
    | none => true
  let xchk := match q.weight with
    | some w => w.flags.getLsbD 3
    | none => false
  let flags := q.restart.toNat + 2 * (q.multi || ls.any (fun p => p.2.multi)).toNat + 4 * xchk.toNat + 8 * bad.toNat
    + 16 * noD.toNat
  let value : Word := if bad then 0 else (q.weight.map (fun w => w.value)).getD 0
  let head := leBytes 4 (1 + s.pkg.toNat * 2 ^ 16 + ls.length * 2 ^ 24) ++ leBytes 4 q.id.toNat
    ++ leBytes 8 q.barrierNs.toNat ++ leBytes 8 q.barrierPos.toNat ++ leBytes 4 flags ++ leBytes 4 value.toNat
    ++ leBytes 4 d.length.toNat ++ leBytes 4 d.width.toNat ++ leBytes 4 d.height.toNat ++ leBytes 4 d.yaw.toNat
    ++ leBytes 8 d.atNs.toNat ++ leBytes 8 ((q.weight.map (fun w => w.endNs.toNat)).getD 0) ++ leBytes 64 0
  let labels := (ls.map (labelEntry s.viewOfs q noD)).flatten
  head ++ labels ++ zeros (0xFF8 - head.length - labels.length)

/-- A header of a label's own crop carries poison. -/
def labelPoisoned (s : State) (p : Nat × Req) : Bool :=
  p.2.cutPkg == s.pkg.setWidth 8 && s.poisoned (s.cropAddr p.2.slot.toNat) 64

/-- RECORD_ASSEMBLY: the owner collects weight, dimensions and labels (R17, R126); the record waits for the engine, is
held where the ring cannot take it, or is discarded beyond 256 (R87). -/
def recordAssembly (id : Word) (s : State) : State :=
  match s.parcel id with
  | none => s
  | some q =>
    if q.committed || q.lost || s.host.records.any (fun r => r.parcel == id) then s
    else
      let (w, s) := takeWeight id s
      let all := s.labelsOf id
      let ls := entriesOf all
      let s := s.bumpSat Reg.roiLabelDrop 32 (all.length - 8)
      let q := { q with weight := w, labels := ls.map (fun p => (p.2.cutPkg, p.2.slot)) }
      let s := mapParcels (fun p => p.id == id) (fun _ => q) s
      let rec' : Rec := { parcel := id, body := recordBody s q ls, held := false, poisoned := ls.any (labelPoisoned s) }
      holdRecords { s with host := { s.host with records := s.host.records ++ [rec'] } }

/-- RECORD_ASSEMBLY (R126). -/
def execRecordAssembly (parcel : Word) (s : State) : Outcome := .next (recordAssembly parcel s)

/-! ### The record ring (R86, R87) -/

/-- The position after `p` in the record ring. -/
def recNext (size : Nat) (p : BitVec 13) : BitVec 13 :=
  if bits p 0 12 + 1 < size then p + 1 else BitVec.ofNat 13 (if p.getLsbD 12 then 0 else 4096)

/-- The lap after `n`. -/
def lapNext (n : BitVec 16) : BitVec 16 := if n = 0xFFFF then 1 else n + 1

/-- A RECORD completion entry (Table Host-7). -/
def recordEntry (s : State) (id : Word) (crc : Word) : BitVec 256 :=
  BitVec.ofNat 256 (entryHead 0 3 + id.toNat * 2 ^ 32 + (bits s.host.recPos 0 12 + s.host.recLap.toNat * 2 ^ 16) * 2 ^ 64
    + crc.toNat * 2 ^ 96 + s.nowNs % 2 ^ 64 * 2 ^ 128)

/-- The write position advances with its lap. -/
def advanceRec (s : State) : State :=
  let p := recNext s.recSlots s.host.recPos
  { s with host := { s.host with recPos := p, recLap := if bits p 0 12 = 0 then lapNext s.host.recLap else s.host.recLap } }

/-- The parcel's record is committed: its crops' hold begins (R119), and its ended requests are released (R232). -/
def commitParcel (id : Word) (s : State) : State :=
  let s := mapParcels (fun q => q.id == id) (fun q => { q with committed := true }) s
  let crops := s.roi.crops.map (fun p => (p.1, p.2.map (fun c =>
    if c.owner = s.pkg ∧ c.parcel = id then { c with commitNs := some s.nowNs } else c)))
  let s := { s with roi := { s.roi with crops := crops } }
  s.reqKeys.foldl (fun s k =>
    let r := s.req k
    if r.parcel = id ∧ r.st.ended = true then releaseReq k s else s) s

/-- RECORD_WRITE: the oldest record is written, body and then commit word, and its RECORD entry follows. One that a
poisoned chunk reached is refused and restarts the weave; it is assembled again (R273, Table Faults-8). -/
def recordWrite (s : State) : State :=
  match s.host.records with
  | [] => s
  | r :: rest =>
    if s.recFree = 0 then s
    else if r.poisoned then
      weaveFault ⟨ePoison, 2, 6, 0, 0⟩ (latch ePoison 0 { s with host := { s.host with records := rest } })
    else
      let body := if r.held then r.body.set 0x18 (BitVec.ofNat 8 (leAt r.body 0x18 1 + 32)) else r.body
      let crc := crc32c body
      let a := s.pair Reg.hostRecBaseLo Reg.hostRecBaseHi + 4096 * bits s.host.recPos 0 12
      let commit := crc.toNat + s.host.recLap.toNat * 2 ^ 32 + 0xA5C3 * 2 ^ 48
      let s := (s.emit (.hostWrite (BitVec.ofNat 64 a) body)).emit
        (.hostWrite (BitVec.ofNat 64 (a + 0xFF8)) (leBytes 8 commit))
      let e := recordEntry s r.parcel crc
      let s := advanceRec { s with host := { s.host with records := rest } }
      commitParcel r.parcel (putOrWait (.record e) s)

/-- RECORD_WRITE (R86). -/
def execRecordWrite (s : State) : Outcome := .next (recordWrite s)

/-! ### REGION_REQ (R128) -/

/-- The bytes that one label's crop gives: header and pixels, padded to 64 bytes; from the slot if this package cut it,
as read through a window otherwise. None if the crop has been released. -/
def labelCrop (s : State) (id : Word) (crops : List (Nat × List Byte)) (j : Nat) (l : BitVec 8 × BitVec 9) :
    Option (List Byte × Bool) :=
  let raw : Option (List Byte × Bool) :=
    if l.1 = s.pkg.setWidth 8 then
      match smGet none s.roi.crops l.2.toNat with
      | some c =>
        if c.owner = s.pkg ∧ c.parcel = id then
          let a := s.cropAddr l.2.toNat
          some (s.rdMem a (64 + c.w * c.h), s.poisoned a (64 + c.w * c.h))
        else none
      | none => none
    else (crops.find? (fun x => x.1 == j)).map (fun x => (x.2, false))
  raw.map (fun x => (x.1 ++ zeros ((64 - x.1.length % 64) % 64), x.2))

/-- EGRESS of a crop, as its header holds it (Table Regions-3). -/
def cropEgress (b : List Byte) : Bool := leAt b 7 1 / 2 % 2 == 1

/-- The labels that a REGION_REQ names. -/
def regionLabels (q : Parcel) (idx : Nat) : List (Nat × (BitVec 8 × BitVec 9)) :=
  let l := q.labels.zipIdx.map (fun p => (p.2, p.1))
  if idx = 0xFFFF then l else l.filter (fun p => p.1 == idx)

/-- The judgement of a REGION_REQ (R128), and the bytes to write. -/
def regionVerdict (s : State) (id : Word) (idx len : Nat) (crops : List (Nat × List Byte)) :
    Except Code (List Byte × Bool) :=
  match s.parcel id with
  | none => .error eRegionOwner
  | some q =>
    if !q.committed then .error eRegionPending
    else if s.flag Reg.fuseLifecycle 11 then .error eEgressFuse
    else if q.labels.length ≤ idx ∧ idx ≠ 0xFFFF then .error eRegionIndex
    else
      let got := (regionLabels q idx).map (fun p => labelCrop s id crops p.1 p.2)
      if got.any (fun x => x.isNone) then .error eRegionGone
      else
        let open' := (got.filterMap (fun x => x)).filter (fun x => cropEgress x.1)
        let bytes := (open'.map (fun x => x.1)).flatten
        if open'.isEmpty then .error eRegionDenied
        else if len < bytes.length then .error eRegionLen
        else .ok (bytes, open'.any (fun x => x.2))

/-- REGION_REQ: refused with nothing written, or the crops written in label order; a poisoned one is refused, and the weave
restarts (R273). -/
def regionReq (f : Flight) (crops : List (Nat × List Byte)) (s : State) : State :=
  let id := BitVec.ofNat 32 (descNum f.desc 36 4)
  match regionVerdict s id (descNum f.desc 40 2) (descNum f.desc 32 4) crops with
  | .error c => finishFlight f c 0 s
  | .ok (bytes, bad) =>
    if bad then weaveFault ⟨ePoison, 2, 6, 0, 0⟩ (finishFlight f ePoison 0 s)
    else endAfterWrites f [(dAddr f.desc, bytes)] (BitVec.ofNat 32 bytes.length) s

/-- REGION_REQ (R128). -/
def execRegionReq (id : Nat) (crops : List (Nat × List Byte)) (s : State) : Outcome :=
  .next (doWork 0x30 id (fun f s => regionReq f crops s) s)

end Sys2Proof.Machine
end

