-- ==== Sys2Proof/Machine/Restart.lean ====
section
/-!
DEFINITION. Restart.lean: HALT, RESUME, recovery and the ready signals (R275 to R279, R282 to R285), and the tests that a
package applies to a placement of a weave (R26, R58, R156, R162, R190, R193). Readings: log entry 50.
-/

namespace Sys2Proof.Machine

/-! ### HALT and RESUME -/

/-- A HALT with number `n` is new (R275). -/
def haltNew (last n : BitVec 15) : Bool :=
  let d := (n - last).toNat
  decide (1 ≤ d ∧ d ≤ 2 ^ 14)

/-- A word of another package goes out on every other port; an outsider forwards none (R52, R59). -/
def relayCtrl (p : Port) (w : LinkWord) (s : State) : State :=
  if s.basket.outsider then s else floodCtrl (some p) w s

/-- A HALT word arrives: forwarded once on every other port, and acted on while a weave runs (R59, R275, R277). -/
def haltIn (p : Port) (w : LinkWord) (s : State) : State :=
  let f := haltNum w
  let n := BitVec.ofNat 15 f
  if 0x8000 ≤ f || !haltNew s.fault.lastNum n || s.basket.lastHalt == some (BitVec.ofNat 16 f) then s
  else
    let s := relayCtrl p w s
    let s := noteRestart n { s with basket := { s.basket with lastHalt := some (BitVec.ofNat 16 f) } }
    if !s.weaveRuns then s
    else stopWeave { s with fault := { s.fault with
      halt := some ⟨n, BitVec.ofNat 32 (haltBeat w), BitVec.ofNat 6 (haltOrigin w), BitVec.ofNat 8 (haltCls w)⟩ } }

/-- HALT (R275). -/
def execHalt (port : Port) (word : LinkWord) (s : State) : Outcome := .next (haltIn port word s)

/-- Alternate byte of a RESUME as the package holds it: 0xFF for none. -/
def resumeAlt (w : LinkWord) : BitVec 8 := if haltCls w = 0xFF then 0xFF else BitVec.ofNat 8 (haltCls w % 0x80)

/-- A RESUME for the load in progress, or for the restart in progress; one that comes before the package has signalled
ready excludes it (Table Faults-8). -/
def takeResume (n : BitVec 15) (a : BitVec 8) (beat : BitVec 32) (s : State) : State :=
  let forLoad := match s.weave.load with
    | some l => n == 0 && l.decl.isSome && l.startBeat.setWidth 32 == beat
    | none => false
  let forHalt := match s.fault.halt with
    | some h => s.weaveRuns && h.num == n && s.fault.phase != RestartPhase.running
    | none => false
  if forLoad then { s with weave := { s.weave with load := s.weave.load.map (fun l => { l with alt := some a }) } }
  else if forHalt then
    { s with fault := { s.fault with resume := some (a, beat), excluded := s.fault.excluded || s.fault.phase != RestartPhase.ready } }
  else s

/-- A RESUME word arrives: forwarded once on every other port, then taken (R59, R275). -/
def resumeIn (p : Port) (w : LinkWord) (s : State) : State :=
  let f := haltNum w
  let beat := BitVec.ofNat 32 (haltBeat w)
  if f < 0x8000 || s.basket.lastResume == some (BitVec.ofNat 16 f, beat) then s
  else
    let s := relayCtrl p w s
    takeResume (BitVec.ofNat 15 f) (resumeAlt w) beat
      { s with basket := { s.basket with lastResume := some (BitVec.ofNat 16 f, beat) } }

/-- RESUME (R280). -/
def execResume (port : Port) (word : LinkWord) (s : State) : Outcome := .next (resumeIn port word s)

/-- The package itself floods a RESUME and takes it. -/
def sendResume (n : BitVec 15) (alt : Option Nat) (beat : Nat) (s : State) : State :=
  let w := resumeWord s.pkg.toNat n.toNat alt beat
  let s := floodCtrl none w s
  takeResume n (match alt with
    | some a => BitVec.ofNat 8 a
    | none => 0xFF) (BitVec.ofNat 32 beat)
    { s with basket := { s.basket with lastResume := some (BitVec.ofNat 16 (0x8000 + n.toNat), BitVec.ofNat 32 beat) } }

/-! ### Faults that units report -/

/-- A fault detected on the package takes the effect of its class (Table Faults-2): CORRECTED is counted where the unit
counts it; NOTICE is an EVENT; WEAVE and PACKAGE as R275 and R274 give. -/
def localFault (f : FaultReport) (s : State) : State :=
  match f.cls.val with
  | 0 => s
  | 1 => if f.code = 0 then s else postEventAt f.code (faultCore f) (faultDetail f) s
  | 2 => weaveFault f s
  | _ => packageFatal f s

/-- LOCAL_FAULT (R277). -/
def execLocalFault (f : FaultReport) (s : State) : Outcome := .next (localFault f s)

/-- FAULT_CMD.CLEAR: the log is emptied (R285). -/
def faultClear (s : State) : State := { s with fault := { s.fault with log := [] } }

/-- FAULT_CLEAR (R285). -/
def execFaultClear (s : State) : Outcome := .next (gateWrite Reg.faultCmd faultClear s)

/-! ### Tests of a placement -/

/-- Every array of the package meets its declared width class (R190). -/
def classesFit (s : State) (pl : Placement) : Bool :=
  (List.range 64).all (fun i =>
    match nthD .unused pl.classes i with
    | .unused => true
    | .w31 => 31 ≤ s.arrayWidth (i / 4) (i % 4)
    | .w32 => s.arrayWidth (i / 4) (i % 4) == 32
    | .reserved => false)

/-- The first placement of this package in an alternate, in the image's order, that its level and widths meet. -/
def State.placementIn (s : State) (a : Alternate) : Option Placement :=
  a.places.find? (fun pl => pl.pkg == s.pkg && (s.level == 2 || (s.level == 1 && pl.reduced)) && classesFit s pl)

/-- Some array of a core is declared of width class 31. -/
def coreIs31 (pl : Placement) (n : Nat) : Bool :=
  (List.range 4).any (fun i => nthD .unused pl.classes (4 * n + i) == .w31)

/-- Slots that a trained width holds: 1, 3 or 7. -/
def slotsOf (width : BitVec 2) : Nat := if width = 0 then 1 else if width = 1 then 3 else 7

/-- A port meets the weave's slot table (R47, Table Withy-4). -/
def portMeets (s : State) (d : PortDecl) : Bool :=
  let x := s.port d.port
  (x.state == .linked || x.state == .woven || x.state == .rekey)
    && d.table.all (fun e => (e.drop (slotsOf x.width)).all (fun k => k == .idle))

/-- The link check of R58: MODE as declared, and every port of the package that the weave uses. -/
def linksMeet (s : State) (d : WeaveDecl) : Bool :=
  d.mode.toNat == s.fld Reg.withyCrypt 0 2 && (d.ports.filter (fun p => p.pkg == s.pkg)).all (portMeets s)

/-- A 64-bit register pair as one word. -/
def State.wide (s : State) (lo hi : Nat) : Nat := (s.reg lo).toNat + (s.reg hi).toNat * 2 ^ 32

/-- Wheel tables of core `n` that a placement brings, or that its registers hold: its own, and those of the quarters
(R156, R171). -/
def wheelsOf (s : State) (pl : Placement) (n : Nat) : List Nat :=
  let own := match pl.wheels[n]? with
    | some w => w.toNat
    | none => s.wide (Reg.coreSpWheelLo n) (Reg.coreSpWheelHi n)
  own :: quarters.map (fun q => match (nthD [] pl.qwheels n)[q.val]? with
    | some w => w.toNat
    | none => s.wide (Reg.coreSpQwheelLo n q.val) (Reg.coreSpQwheelHi n q.val))

/-- Segments that core `n` powers under a placement (R167). -/
def segsOf (s : State) (pl : Placement) (n : Nat) : Nat := match pl.segEn[n]? with
  | some m => m.toNat
  | none => s.fld (Reg.coreSpCfg n) 16 12

/-- The region set of core `n` under a placement: BASE and LEN of every enabled region (R162, R171). -/
def regionsOf (s : State) (pl : Placement) (n : Nat) : List (Nat × Nat) := match pl.regions[n]? with
  | some l => l.map (fun r => (r.1.toNat, r.2.1.toNat))
  | none => ((List.range 32).filter (fun j => s.flag (Reg.coreSpRgnCfg n j) 31)).map (fun j =>
      let r := Reg.coreSpRgnCfg n j
      (s.fld r 0 11, s.fld r 16 11))

/-- The verdict on one alternate, in the order of R336, then on its protected ranges and coded transfers (R227, R228): 0, or
the first code. -/
def alternateVerdict (s : State) (d : WeaveDecl) (a : Alternate) : Code :=
  let mine := a.places.filter (fun pl => pl.pkg == s.pkg)
  let level := s.level == 2 || (s.level == 1 && mine.any (fun pl => pl.reduced))
  if !level then eWeaveLevel
  else if mine.any (fun pl => pl.classes.contains .reserved) then eWidthClass
  else match s.placementIn a with
    | none => eWidthClass
    | some pl =>
      match (pl.convs.map (fun c => convVerdict (segsOf s pl c.1) (coreIs31 pl c.1) c.2)).find? (fun c => c != 0) with
      | some c => c
      | none =>
        if !(List.range 16).all (fun n => (wheelsOf s pl n).all wheelOk) then eSpWheel
        else if !(List.range 16).all (fun n => regionsOk (segsOf s pl n) (regionsOf s pl n)) then eSpRegion
        else if !linksMeet s d then eWeaveLink
        else plaitLoadVerdict s pl

/-- This package is named in an alternate. -/
def State.namedIn (s : State) (a : Alternate) : Bool := a.members.getLsbD s.pkg.toNat

/-- Bits set for the alternates that `p` selects, bit 15 among them (R278). -/
def readyBits (p : Alternate → Bool) (l : List Alternate) : Nat :=
  32768 + ((l.take 15).zipIdx.map (fun x => if p x.1 then 2 ^ x.2 else 0)).foldl (· + ·) 0

/-- Anchors of the basket that the package knows. -/
def State.anchors (s : State) : List Nat :=
  let l := (s.basket.heard.filter (fun p => match p.2 with
    | some h => h.anchor
    | none => false)).map (fun p => p.1)
  let l := l ++ (s.basket.members.filter (fun m => m.anchor)).map (fun m => m.pkg.toNat)
  let l := l ++ [s.basket.principal.toNat] ++ (if s.anchor then [s.pkg.toNat] else [])
  l.eraseDups

/-! ### Recovery (R278) -/

/-- An entry that fails its CRC, or tokens that fail theirs: FAULTED with E_RESTART_ENTRY. -/
def faultEntry (s : State) (k : BitVec 12) : State :=
  let r := s.req k.toNat
  if r.st = .free then s
  else if r.st.ended then setReq k.toNat { r with st := .faulted, last := eRestartEntry } (latch eRestartEntry 0 s)
  else endReq k.toNat .faulted eRestartEntry s

/-- A column of an array is recorded bad at run time (Table Arrays-9). -/
def recordColumn (n a : Nat) (c : Nat) (s : State) : State :=
  let r := Reg.coreArrayStatus n a
  let w := s.fld r 0 2
  ((s.setFld r 0 2 (w - 1)).setFld r 8 5 c).setFlag r 14 true

/-- All patterns of an array passed, and a fault was localised to a column: the strike column, or its repeat, which records
the column (Table Arrays-9); one recorded already takes no part. -/
def strike (n a : Nat) (s : State) (c : BitVec 5) : State :=
  let r := Reg.coreArrayStatus n a
  if s.fld r 0 2 = 1 ∧ s.fld r 8 5 = c.toNat then s
  else if s.flag r 21 && s.fld r 16 5 == c.toNat then recordColumn n a c.toNat s
  else (s.setFld r 16 5 c.toNat).setFlag r 21 true

/-- Localised columns of the checksum faults of array `a` of core `n`, in order. -/
def State.hits (s : State) (n a : Nat) : List (Option (BitVec 5)) :=
  (s.fault.implicated.filter (fun i => i.1 == 4 * n + a)).map (fun i => i.2)

/-- The outcome of the replay of one implicated array (R191): two faults on one column count as strike and repeat (Table
Arrays-13). -/
def applyReplay (s : State) (x : Fin 16 × Fin 4 × ReplayResult) : State :=
  let n := x.1.val
  let a := x.2.1.val
  let hits := s.hits n a
  if hits.isEmpty then s
  else match x.2.2 with
    | .oneColumn c => recordColumn n a c.toNat s
    | .many => s.setFld (Reg.coreArrayStatus n a) 0 2 0
    | .pass => (hits.filterMap id).foldl (strike n a) s

/-- Every implicated array has been replayed (R191). -/
def replaysAll (s : State) (r : Recovery) : Bool :=
  s.fault.implicated.all (fun i => r.replays.any (fun x => 4 * x.1.val + x.2.1.val == i.1))

/-- A held crop passes both its CRCs (R117, R119), and nothing in it is poisoned. -/
def cropSound (s : State) (slot : Nat) (c : Crop) : Bool :=
  let a := s.cropAddr slot
  let h := s.rdMem a 64
  (crc32c (h.take 60)).toNat == leAt h 60 4 && (crc32c (s.rdMem (a + 64) (c.w * c.h))).toNat == leAt h 52 4
    && !s.poisoned a (64 + c.w * c.h)

/-- The requests made from a crop that failed its check are FAULTED: RESTARTED, no tokens (R119). -/
def faultCrop (s : State) (x : BitVec 6 × BitVec 9) : State :=
  s.reqKeys.foldl (fun s k =>
    let r := s.req k
    if r.live && r.slot == x.2 && r.cutPkg == x.1.setWidth 8 then
      endReq k .faulted eCropCrc (setReq k { r with tokens := [], genLen := 0, restarted := true } s)
    else s) s

/-- A crop that fails its check is released with an EVENT. -/
def failCrop (s : State) (slot : Nat) : State :=
  faultCrop (postEvent eCropCrc (BitVec.ofNat 128 slot) (dropCrop slot s)) (s.pkg, BitVec.ofNat 9 slot)

/-- The held crops are checked, and the requests of this owner end whose crops other packages found bad. -/
def checkCrops (bad : List (BitVec 9)) (away : List (BitVec 6 × BitVec 9)) (s : State) : State :=
  let fails := s.roi.crops.filterMap (fun p => match p.2 with
    | some c => if c.done && (bad.contains (BitVec.ofNat 9 p.1) || !cropSound s p.1 c) then some p.1 else none
    | none => none)
  away.foldl faultCrop (fails.foldl failCrop s)

/-- The scratchpad and the pipelines of a core as a load and a restart leave them (R167). -/
def clearCore (n : Nat) (s : State) : State := corePipelinesClear n (spFill n (spDiscard n s))

/-- Every core as a restart leaves it: the requests of the R queues too are discarded or answered (R168). -/
def clearCores (s : State) : State := (List.range 16).foldl (fun s n => clearCore n (rDiscard n s)) s

/-- The ready signal to every anchor (R278 step 8); at stage ALTERNATE or above only cool alternates count (R299), and
with ALIGNED clear none (R35). -/
def signalReady (d : WeaveDecl) (s : State) : State :=
  let ok (a : Alternate) : Bool := s.namedIn a && s.aligned && (s.placementIn a).isSome
    && (decide (s.therm.stage < 2) || a.cool.getLsbD s.pkg.toNat)
  let amount := readyBits ok d.alternates
  s.anchors.foldl (fun s q => sendKnot (BitVec.ofNat 6 q) (d.readyBase.toNat + s.pkg.toNat) amount s) s

/-- RECOVERY_DONE: the steps of R278 have run, no earlier than 10 µs after the stop. -/
def recoveryDone (r : Recovery) (s : State) : State :=
  match s.weave.run with
  | none => s
  | some d =>
    if s.fault.phase ≠ .stopped || decide (s.nowNs < s.fault.stopNs + 10000) || !replaysAll s r then s
    else
      let s := r.badTokens.foldl (fun s k => if (s.req k.toNat).st = .done then faultEntry s k else s)
        (r.badEntries.foldl faultEntry s)
      let s := r.replays.foldl applyReplay s
      let s := checkCrops r.badCrops r.badAway (clearCores { s with fault := { s.fault with implicated := [] } })
      if !r.imageOk then
        let s := logFault ⟨eRestartImage, 2, 6, 0, 0⟩ s
        { s with fault := { s.fault with phase := .recovering, excluded := true } }
      else
        let s := setLevel s
        if r.fault || s.fault.excluded then
          { s with fault := { s.fault with phase := .recovering, excluded := true } }
        else signalReady d { s with fault := { s.fault with phase := .ready } }

/-- RECOVERY_DONE (R278). -/
def execRecoveryDone (r : Recovery) (s : State) : Outcome := .next (recoveryDone r s)

end Sys2Proof.Machine
end

