-- ==== Sys2Proof/Machine/Weave.lean ====
section
/-!
DEFINITION. Weave.lean: the weave: loads and their checks (R19, R33, R39, R244, R246, R250, R281, R335 to R340), the start
of a beat with what falls on it (R38, R40, R279, R280, R284, R337, R339), and the loss of an owner (R283). Readings: log
entry 51.
-/

namespace Sys2Proof.Machine

/-! ### The judgement of an image (R335) -/

/-- Packages that the weave names. -/
def weaveMembers (d : WeaveDecl) : List Nat :=
  (List.range 64).filter (fun p => d.alternates.any (fun a => a.members.getLsbD p))

/-- The basket can prefill and can decode (R19). -/
def poolsOk (d : WeaveDecl) : Bool :=
  (weaveMembers d).any (fun p => poolOf d p != 1) && (weaveMembers d).any (fun p => poolOf d p != 0)

/-- A package known as a stake. -/
def State.isStake (s : State) (p : BitVec 6) : Bool :=
  if p = s.pkg then !s.anchor else s.basket.members.any (fun m => m.pkg == p && !m.anchor)

/-- STEP and B divide one the other, and the step lasts from 200 µs to 5 ms (R244). -/
def stepOk (d : WeaveDecl) : Bool :=
  let b := d.beatLen.toNat
  d.stepLen != 0 && b != 0 && (d.stepLen % b == 0 || b % d.stepLen == 0)
    && decide (5000 * d.mult.toNat ≤ d.stepLen) && decide (d.stepLen ≤ 125000 * d.mult.toNat)

/-- Report and order slots lie in their phases, and every place window in the places phase (R246). -/
def layoutOk (d : WeaveDecl) : Bool :=
  d.reportSlots.all (fun x => decide (x < d.reportEnd))
    && d.orderSlots.all (fun x => decide (d.reportEnd + 32768 ≤ x ∧ x < d.orderEnd))
    && decide (d.lastOrderDelivered ≤ d.orderEnd)
    && d.places.all (fun p => decide (d.orderEnd ≤ p.winStart ∧ p.winEnd ≤ d.stepLen))

/-- The key-value geometry (R250). -/
def geometryOk (d : WeaveDecl) : Bool :=
  [64, 128, 256, 512, 1024].contains d.kvWidth && decide (d.kvLayers * ceilDiv 2304 (2048 / d.kvWidth) ≤ 8184)

/-- The alternates: at most 15, every owner a member and no stake, no COOL bit outside the members (R281). -/
def alternatesOk (s : State) (d : WeaveDecl) : Bool :=
  decide (d.alternates.length ≤ 15) && d.alternates.all (fun a =>
    a.cool &&& ~~~a.members == 0 && a.owners.all (fun o => a.members.getLsbD o.owner.toNat && !s.isStake o.owner))

/-- ceil(T_R / T_B) (R281): 24,000 c-cycles, 10 µs, and image and crop ring at 204.8 GB/s, in mean beats. -/
def recoveryBeats (s : State) (d : WeaveDecl) : Nat :=
  let f := d.mult.toNat * (2000 - spreadMille d.spread)
  ceilDiv (24000 * 16384000 + f * (2048000 + d.length + s.cropSlots * 0x80000)) (d.beatLen.toNat * 16384000)

/-- The basket declarations, in the order of R335 step 5: 0, or the code that the rule names. -/
def declVerdict (s : State) (d : WeaveDecl) : Code :=
  if !poolsOk d then eWeavePools
  else if d.alternates.any (fun a => a.owners.any (fun o => s.isStake o.owner)) then eWeaveOwner
  else if d.mult.toNat ≠ s.time.mult.toNat ∨ d.spread ≠ s.time.spread then eWeaveClock
  else if d.beatLen ≠ s.time.beatLen then eWeaveClock
  else if d.mode.toNat ≠ s.fld Reg.withyCrypt 0 2 then eWeaveLink
  else if !stepOk d then eStepPeriod
  else if !layoutOk d then eStepLayout
  else if !geometryOk d then eKvGeometry
  else if !alternatesOk s d then eWeaveAlternates
  else if d.restartBeats.toNat < 2 + recoveryBeats s d then eRestartBudget
  else 0

/-- SHA-256 of the weave key as the customer fuses hold it; 0 while they are blank. -/
def State.weaveKeyHash (s : State) : Nat :=
  ((List.range 8).map (fun i => (s.fuseWord (450 + i)).toNat * 2 ^ (32 * i))).foldl (· + ·) 0

/-- Checks 2 to 5 of R335 on the image: 0, or the first code. -/
def weaveImageVerdict (s : State) (l : Load) (img : WeaveImage) : Code :=
  let d := img.decl
  if !img.formatOk || (weaveMembers d).any (fun p => poolOf d p == 3) || d.weaveId == 0 || decide (d.loadBeats < 2) || decide (d.length < 512)
      || decide (0x4000000 < d.length) || d.length != l.len || d.alternates.isEmpty then eWeaveFormat
  else if d.weaveId ≠ l.id then eWeaveId
  else if s.weaveKeyHash ≠ 0 ∧ (img.sigOk = false ∨ img.keyHash.toNat ≠ s.weaveKeyHash) then eWeaveSignature
  else if s.weaveKeyHash = 0 ∧ (s.lifecycle = 2 ∨ s.lifecycle = 3) then eWeaveKey
  else if d.stewardGen ≠ s.boot.stewardIf then eWeaveGeneration
  else declVerdict s d

/-! ### Loads -/

/-- Check 1 of R335: 0, or the refusal. -/
def loadVerdict (s : State) : Code :=
  if !(s.anchor && s.basket.isPrincipal) then eWeaveTarget
  else if s.weave.load.isSome then eWeaveBusy
  else 0

/-- A load begins: it waits for a step, beat values or a relock accepted before it (R355, Table Time-6); the image is read
once the calibration record is loaded. -/
def beginLoad (flight : Option Nat) (addr : BitVec 64) (len : Nat) (id : Word) (s : State) : State :=
  let l : Load := { decl := none, lead := true, asked := false, waits := s.timePends, flight := flight, addr := addr,
                    len := len, id := id, pass := 0, startBeat := 0, alt := none }
  readImage { s with weave := { s.weave with load := some l } }

/-- WEAVE_LOAD (R335). -/
def weaveLoad (f : Flight) (s : State) : State :=
  let c := loadVerdict s
  if c ≠ 0 then finishFlight f c 0 s
  else beginLoad (some f.id) (BitVec.ofNat 64 (dAddr f.desc)) (descNum f.desc 32 4) (BitVec.ofNat 32 (descNum f.desc 36 4))
    (setFlight f.id .loading s)

/-- WEAVE_LOAD (R335). -/
def execWeaveLoad (id : Nat) (s : State) : Outcome := .next (doWork 0x20 id weaveLoad s)

/-- BOOT_CMD.LOAD (R335, R340). -/
def bootLoad (b : BitVec 4) (s : State) : State :=
  if !s.answers Reg.bootCmd then s
  else if bootMany b then refuse eBootKind s
  else if !b.getLsbD 2 then s
  else if s.weaveRuns then refuse eWeaveBusy s
  else
    let c := loadVerdict s
    if c ≠ 0 then refuse c s
    else beginLoad none (BitVec.ofNat 64 (s.pair Reg.bootWeaveAddrLo Reg.bootWeaveAddrHi)) (s.fld Reg.bootWeaveLen 0 27)
      (s.reg Reg.bootWeaveIdReq) s

/-- BOOT_LOAD (R335). -/
def execBootLoad (bits : BitVec 4) (s : State) : Outcome := .next (bootLoad bits s)

/-- BOOT_CMD.STOP (R339): the weave ends at the end of the next beat. -/
def bootStop (b : BitVec 4) (s : State) : State :=
  if !s.answers Reg.bootCmd then s
  else if bootMany b then refuse eBootKind s
  else if !b.getLsbD 3 then s
  else if !(s.anchor && s.basket.isPrincipal) then refuse eWeaveTarget s
  else if s.serve.reqs.any (fun p => p.2.st != .free) || s.heldRecords != 0 then refuse eBootBusy s
  else if s.weaveRuns then { s with weave := { s.weave with stopBeat := some (s.time.beatNum + 1) } }
  else s

/-- BOOT_STOP (R339). -/
def execBootStop (bits : BitVec 4) (s : State) : Outcome := .next (bootStop bits s)

/-- The principal has the image: it is judged; accepted, the ready knots are cleared and the image goes out (R335,
R336). -/
def weaveImageReadDone (img : WeaveImage) (s : State) : State :=
  match s.weave.load with
  | none => s
  | some l =>
    if !l.lead || !l.asked || l.decl.isSome then s
    else
      let v := weaveImageVerdict s l img
      if v ≠ 0 then endLoad v s
      else
        let start := BitVec.ofNat 64 s.beat + img.decl.loadBeats.setWidth 64
        let s := (List.range 64).foldl (fun s p => setKnot (img.decl.readyBase.toNat + p) 0 s) s
        let s := { s with weave := { s.weave with load := some { l with decl := some img.decl, startBeat := start } } }
        s.emit (.imageSend img.decl.weaveId start)

/-- WEAVE_IMAGE_READ_DONE (R335). -/
def execWeaveImageReadDone (img : WeaveImage) (s : State) : Outcome := .next (weaveImageReadDone img s)

/-- The weave has no reduced-reading placement for this package, which is below Full (R26). -/
def levelLacks (s : State) (d : WeaveDecl) : Bool :=
  s.level != 2 && !d.alternates.any (fun a => a.places.any (fun pl => pl.pkg == s.pkg && pl.reduced))

/-- The member's verdict on every alternate that names it: the ready amount, and the first failing code (R26, R336). -/
def memberVerdict (s : State) (img : WeaveImage) : Nat × Code :=
  if !img.formatOk then (32768, eWeaveFormat)
  else
    let mine := img.decl.alternates.filter s.namedIn
    let amount := readyBits (fun a => s.namedIn a && alternateVerdict s img.decl a == 0) img.decl.alternates
    (amount, match (mine.map (alternateVerdict s img.decl)).find? (fun c => c != 0) with
      | some c => c
      | none => if levelLacks s img.decl then eWeaveLevel else 0)

/-- A member has the image in its free area and has checked it: verdict in BOOT_WEAVE_STATUS and on the principal's knot
(R336). A package with ALIGNED clear takes no part (R35). -/
def weaveMemberCheckDone (img : WeaveImage) (start : BitVec 64) (s : State) : State :=
  let due := match s.weave.load with
    | some l => l.lead && l.decl == some img.decl && l.startBeat == start && l.pass == 0
    | none => s.basket.joined && !s.basket.isPrincipal
  if !due || !s.aligned then s
  else
    let s := countCores s
    let (amount, c) := memberVerdict s img
    let s := s.setReg Reg.bootWeaveStatus (BitVec.ofNat 32 (c.toNat + amount % 32768 * 2 ^ 16))
    let l : Load := match s.weave.load with
      | some l => { l with pass := BitVec.ofNat 16 amount }
      | none => { decl := if img.formatOk then some img.decl else none, lead := false, asked := false, waits := false,
                  flight := none, addr := 0,
                  len := img.decl.length, id := img.decl.weaveId, pass := BitVec.ofNat 16 amount, startBeat := start,
                  alt := none }
    sendKnot s.basket.principal (img.decl.readyBase.toNat + s.pkg.toNat) amount
      { s with weave := { s.weave with load := some l } }

/-- WEAVE_MEMBER_CHECK_DONE (R336). -/
def execWeaveMemberCheckDone (img : WeaveImage) (start : BitVec 64) (s : State) : Outcome :=
  .next (weaveMemberCheckDone img start s)

/-! ### Running, and the end of a weave -/

/-- Word of a region register (Table Scratch-5). -/
def regionWord (r : BitVec 11 × BitVec 11 × BitVec 2) : Word :=
  BitVec.ofNat 32 (r.1.toNat + r.2.1.toNat * 2 ^ 16 + r.2.2.toNat * 2 ^ 28 + 2 ^ 31)

/-- A pair of registers takes a 64-bit word. -/
def setWide (lo hi : Nat) (w : BitVec 64) (s : State) : State :=
  (s.setReg lo (w.setWidth 32)).setReg hi ((w >>> 32).setWidth 32)

/-- The wheel tables of core `n` that a placement gives take force (R156, R160, R171). -/
def placeWheels (pl : Placement) (n : Nat) (s : State) : State :=
  let s := match pl.wheels[n]? with
    | some w => setWide (Reg.coreSpWheelLo n) (Reg.coreSpWheelHi n) w s
    | none => s
  quarters.foldl (fun s q => match (nthD [] pl.qwheels n)[q.val]? with
    | some w => setWide (Reg.coreSpQwheelLo n q.val) (Reg.coreSpQwheelHi n q.val) w s
    | none => s) s

/-- The regions of core `n` that a placement gives take force; rows beyond them are in none (R162). -/
def placeRegions (pl : Placement) (n : Nat) (s : State) : State :=
  match pl.regions[n]? with
  | some rs => (List.range 32).foldl (fun s j => s.setReg (Reg.coreSpRgnCfg n j) (match rs[j]? with
      | some r => regionWord r
      | none => 0)) s
  | none => s

/-- At a load the counts of core `n` since the last one start over, and MODE takes force (R160, R171, Table Approx-4). -/
def placeMode (pl : Placement) (n : Nat) (s : State) : State :=
  let s := (s.setReg (Reg.coreSpUeAddr n) 0).setReg (Reg.coreApxTallyCnt n) 0
  let s := match pl.modes[n]? with
    | some m => s.setFlag (Reg.coreSpCfg n) 0 m
    | none => s
  s.setCore n { s.core n with part := s.flag (Reg.coreSpCfg n) 0 }

/-- A core takes its wheel tables, segments and regions from a placement, at a load its MODE too; what the image does not
name stays as its registers have it (R156, R161, R162, R167, R171). -/
def placeCore (pl : Placement) (load : Bool) (n : Nat) (s : State) : State :=
  let s := (placeWheels pl n s).setFld (Reg.coreSpCfg n) 16 12 (segsOf s pl n)
  let s := placeRegions pl n s
  if load then placeMode pl n s else s

/-- Every core takes its part of a placement, and the fill runs; requests in the R queues wait for it (R167). -/
def placeCores (pl : Placement) (load : Bool) (s : State) : State :=
  (List.range 16).foldl (fun s n => clearCore n (placeCore pl load n s)) (if load then setProts pl s else s)

/-- Ports that the weave uses become WOVEN (Table Withy-4). -/
def weavePorts (d : WeaveDecl) (s : State) : State :=
  (d.ports.filter (fun p => p.pkg == s.pkg)).foldl (fun s p =>
    let x := s.port p.port
    if x.state = .linked then s.setPort p.port { x with state := .woven } else s) s

/-- The package runs a weave under an alternate, if the alternate names it, it is aligned (R35) and nothing excludes it. -/
def enterAlternate (d : WeaveDecl) (a : Nat) (load take : Bool) (s : State) : State :=
  let s := { s with weave := { s.weave with alt := BitVec.ofNat 8 a, member := false, placed := none } }
  match d.alternates[a]? with
  | none => s
  | some x =>
    if !(take && s.namedIn x && s.aligned) then s
    else
      let s := match s.placementIn x with
        | some pl => placeCores pl load { s with weave := { s.weave with placed := some pl } }
        | none => s
      weavePorts d { s with weave := { s.weave with member := true } }

/-- The mean duration of a step in ns, to nearest (R245): STEP / (f₀ (1 − δ/2)). -/
def stepNs (d : WeaveDecl) : Nat :=
  let den := d.mult.toNat * (2000 - spreadMille d.spread)
  (2 * d.stepLen * 80000 + den) / (2 * max 1 den)

/-- An owner's table, records and crops are lost (R283). -/
def loseOwner (s : State) : State :=
  { s with serve := { s.serve with reqs := [], tenants := s.serve.tenants.map (fun p => (p.1, { p.2 with head := none })),
                                   reports := [], drops := [], hostSlots := [] },
           host := { s.host with records := [] },
           roi := { s.roi with crops := [], handed := [], matched := [],
                               parcels := s.roi.parcels.map (fun q => if q.committed then q else { q with lost := true }) } }

/-- Transfers and reports of the weave that ends are abandoned at a switch. -/
def dropTransfers (s : State) : State :=
  { s with serve := { s.serve with reports := [], ctxs := s.serve.ctxs.map (fun c =>
      { c with expect := none, sealTo := none, listIn := [], listBad := [], pagesIn := [], pagesBad := [], sent := none,
               making := none }) } }

/-- The fates that a new weave brings: none without requests, CANCELLED under another model (R338). -/
def switchFates (d : WeaveDecl) (s : State) : Fin 4 :=
  if s.serve.reqs.isEmpty && s.serve.ctxs.isEmpty then 0 else if s.weave.model = some d.modelId then 2 else 3

/-- Fairness starts again with a weave: finish tags at 0, no remembered heads (R234). -/
def restartTenants (m : SMap Tenant) : SMap Tenant :=
  (m.map (fun p => (p.1, { p.2 with finish := 0, head := none }))).filter (fun p => decide (p.2 ≠ Tenant.reset))

/-- A loaded weave starts (R337, R245, R234, R275). -/
def startWeave (d : WeaveDecl) (a : Nat) (s : State) : State :=
  let s := clearKnots d.knotLo.toNat d.knotHi.toNat (leaveWeave (dropTransfers s))
  let fates := switchFates d s
  let s := { s with
    weave := { s.weave with run := some d, load := none, stopBeat := none, firstBeat := BitVec.ofNat 64 s.beat,
                            area1 := !s.weave.area1, model := some d.modelId },
    fault := { s.fault with lastNum := 0, phase := .running, halt := none, resume := none, excluded := false,
                            implicated := [] },
    serve := { s.serve with vtime := 0, fates := fates,
                            tenants := restartTenants s.serve.tenants } }
  let s := (s.setReg Reg.serveStep (BitVec.ofNat 32 d.stepLen)).setReg Reg.serveStepNs (BitVec.ofNat 32 (stepNs d))
  enterAlternate d a true true s

/-! ### The start of a beat -/

/-- Beat `n` (low 32 bits) has started. -/
def beatReached (s : State) (n : Nat) : Bool := decide ((BitVec.ofNat 32 s.beat - BitVec.ofNat 32 n).toNat < 2 ^ 31)

/-- Member `p` of an alternate has signalled ready with bit `a` (R279, R337). -/
def memberReady (s : State) (base a p : Nat) : Bool :=
  let v := s.knot (base + p)
  v.getLsbD 15 && v.getLsbD a

/-- The first alternate for which every member is ready. -/
def chooseAlternate (s : State) (d : WeaveDecl) : Option Nat :=
  (List.range (min 15 d.alternates.length)).find? (fun a => match d.alternates[a]? with
    | some x => (List.range 64).all (fun p => !x.members.getLsbD p || memberReady s d.readyBase.toNat a p)
    | none => false)

/-- Distinct restart numbers sent in the last second (R284). -/
def State.restartsRecent (s : State) : Nat :=
  (s.fault.recent.filter (fun r => decide (s.nowNs < r.2 + 1000000000))).length

/-- Owners of the running alternate that the chosen one does not name (R283): each is reported. -/
def reportLostOwners (d : WeaveDecl) (old new : Nat) (num : BitVec 15) (s : State) : State :=
  match d.alternates[old]?, d.alternates[new]? with
  | some o, some n =>
    let lost := ((o.owners.map (fun b => b.owner)).eraseDups).filter (fun p => !n.members.getLsbD p.toNat)
    lost.foldl (fun s p => postEvent eOwnerLost (BitVec.ofNat 128 (p.toNat + num.toNat * 2 ^ 8)) s) s
  | _, _ => s

/-- At beat H + N − 1 the lowest ready anchor judges the restart (R279, R284). -/
def judgeRestart (d : WeaveDecl) (h : HaltInfo) (s : State) : State :=
  let lower := (s.anchors.filter (fun q => decide (q < s.pkg.toNat))).any (fun q => (s.knot (d.readyBase.toNat + q)).getLsbD 15)
  let s := { s with fault := { s.fault with judged := true } }
  if !s.anchor || s.fault.phase != .ready || lower then s
  else
    let beat := h.beat.toNat + d.restartBeats.toNat
    let storm := s.fld Reg.faultCtl 0 8
    if storm ≠ 0 ∧ storm < s.restartsRecent then
      postEvent eRestartStorm 0 (sendResume h.num none beat s)
    else match chooseAlternate s d with
      | some a => sendResume h.num (some a) beat (reportLostOwners d s.weave.alt.toNat a h.num s)
      | none => postEvent eRestartNoPlacement 0 (sendResume h.num none beat s)

/-- At beat H + N the weave resumes under the alternate of the RESUME, or the basket is idle (R280, R283). -/
def resumeWeave (d : WeaveDecl) (h : HaltInfo) (a : BitVec 8) (s : State) : State :=
  let owner := match d.alternates[s.weave.alt.toNat]? with
    | some o => o.owners.any (fun b => b.owner == s.pkg)
    | none => false
  let us := (s.nowNs - s.fault.stopNs) / 1000
  let s := { s with fault := { s.fault with lastNum := h.num } }
  if a = 0xFF then idleWeave .idle s
  else
    let take := s.fault.phase == .ready && !s.fault.excluded
    let s := s.setReg Reg.faultLastUs (BitVec.ofNat 32 us)
    let s := { s with fault := { s.fault with phase := .running, halt := none, resume := none },
                      serve := { s.serve with fates := 1 } }
    let s := enterAlternate d a.toNat false take s
    if owner && !s.weave.member then loseOwner s else s

/-- What the start of a beat does to a restart in progress. -/
def restartBeat (s : State) : State :=
  match s.weave.run, s.fault.halt with
  | some d, some h =>
    if s.fault.phase = .running then s
    else
      let n := h.beat.toNat + d.restartBeats.toNat
      let s := if beatReached s (n - 1) && !s.fault.judged then judgeRestart d h s else s
      match s.fault.resume with
      | some (a, b) => if beatReached s b.toNat then resumeWeave d h a s else s
      | none =>
        if beatReached s (n + 1) then idleWeave .idle { s with fault := { s.fault with lastNum := h.num } } else s
  | _, _ => s

/-- The principal's choice at the start of beat S − 1 (R337). -/
def chooseLoad (s : State) : State :=
  match s.weave.load with
  | some l => match l.decl with
    | some d =>
      if l.lead && l.alt.isNone && decide (l.startBeat.toNat ≤ s.beat + 1) then
        match chooseAlternate s d with
        | some a => sendResume 0 (some a) (l.startBeat.toNat % 2 ^ 32) s
        | none => endLoad eWeaveNoAlternate (sendResume 0 none (l.startBeat.toNat % 2 ^ 32) s)
      else s
    | none => s
  | none => s

/-- At the start of beat S the loaded weave begins; without a RESUME the package runs no weave from then on (R337). -/
def startLoad (s : State) : State :=
  match s.weave.load with
  | some l =>
    if (l.lead && l.decl.isNone) || decide (s.beat < l.startBeat.toNat) then s
    else match l.decl, l.alt with
      | some d, some a =>
        if a = 0xFF then { s with weave := { s.weave with load := none } }
        else
          let s := startWeave d a.toNat s
          (match l.flight.bind s.flight with
          | some f => completeFlight f 0 0 s
          | none => s)
      | _, _ => idleWeave .running { s with weave := { s.weave with load := none } }
  | none => s

/-- The end of a weave at BOOT_CMD.STOP (R339). -/
def stopDue (s : State) : State :=
  match s.weave.stopBeat with
  | some b => if b.toNat < s.time.beatNum.toNat then idleWeave .running (dropTransfers s) else s
  | none => s

/-- BEAT_START: beat k has started (R38): the counter and the stamp, the weave's own instants, then what follows every
beat (R40, R108, R139, R205, R211). -/
def beatStart (s : State) : State :=
  if !s.cclkRuns || decide (s.beatNow ≤ s.time.beatNum.toNat) then s
  else
    let s := { s with time := { s.time with beatNum := s.time.beatNum + 1,
                                            beatStamp := BitVec.ofNat 64 (s.beatStampOf s.time.beatNum.toNat) } }
    let s := startLoad (chooseLoad (restartBeat (stopDue s)))
    startSource 6 none (beatPulses (coresBeat s))

/-- BEAT_START (R38). -/
def execBeatStart (s : State) : Outcome := .next (beatStart s)

end Sys2Proof.Machine
end

