-- ==== Sys2Proof/Machine/LinkFrame.lean ====
section
/-!
DEFINITION. LinkFrame.lean: link frames received whole (R47 to R49, R55, R56, R59, Tables Withy-3 and Withy-12) and the
loose messages that an ingress stores (R54, R55). Readings: log entry 52.
-/

namespace Sys2Proof.Machine

/-! ### Loose messages that arrive -/

/-- The access that a WIN_WRITE or WIN_READ message asks for; a WIN_READ carries its length in payload bytes 0 to 3. -/
def looseReq (m : Loose) : RemoteReq :=
  if m.type = 3 then ⟨m.src.setWidth 6, m.addr, m.payload.length, looseMarked m⟩
  else ⟨m.src.setWidth 6, m.addr, leAt m.payload 0 4, []⟩

/-- A message of this package can be taken now: a remote access may have to wait for its places in the R queue (R158). -/
def looseReady (m : Loose) (s : State) : Bool :=
  if m.type = 3 ∨ m.type = 4 then
    let q := looseReq m
    let a := s.localAddr q.addr.toNat
    match winJudge s q.src a q.len (m.type = 3) with
    | .ok _ => s.rRoom a q.len
    | .error _ => true
  else true

/-- A message for this package is acted on by its type. What a HOST_FWD_REQ reads comes with its own command. A KV_SHIP of a
reserved kind is refused with E_LINK_CODE (R2, log entry 62). -/
def looseTake (m : Loose) (s : State) : State :=
  match m.type.toNat with
  | 1 => if leAt m.payload 0 1 = 2 then s else hostFwdReq m .failed s
  | 2 => hostFwdRsp m s
  | 3 => winWrite (looseReq m) s
  | 4 => winRead (looseReq m) s
  | 5 => winResp m s
  | 6 =>
    (match kvKind m with
     | 1 => kvShipList m s
     | 2 => kvShipPages m s
     | 3 => kvShipEnd m s
     | 4 => kvShipAck m s
     | 5 => kvShipNak m s
     | _ => refuse eLinkCode s)
  | 7 => winNak m s
  | _ => s

/-- A CREDIT word leaves a port: credits returned by class, ACK and NAK (Table Withy-3). -/
def sendCredit (p : Port) (c0 c1 : Nat) (s : State) : State :=
  s.emit (.credit p c0 c1 (s.port p).lastGood (s.port p).naking)

/-- Credits that the slots of a message give back, by class. -/
def creditOf (m : Loose) : Nat × Nat := if m.cls1 then (0, looseSlots m) else (looseSlots m, 0)

/-- Loose slots of a class that an ingress holds (R55). -/
def LinkPort.held (x : LinkPort) (cls1 : Bool) : Nat :=
  ((x.stored.filter (fun m => m.cls1 == cls1)).map looseSlots).sum

/-- A loose message accepted at an ingress (R54, R55): an unknown type is refused; one for this package is acted on, or
stays until its places are free; another is stored whole, and an outsider forwards none. An ingress holds 16 slots of a
class; what a peer sends beyond its credits is discarded (log entry 62). The credits that it frees at once. -/
def looseArrive (p : Port) (m : Loose) (s : State) : State × Nat × Nat :=
  if m.type = 0 ∨ 7 < m.type.toNat then (refuse eLinkCode s, creditOf m)
  else if m.dst = s.pkg.setWidth 8 ∧ looseReady m s = true then (looseTake m s, creditOf m)
  else if m.dst ≠ s.pkg.setWidth 8 ∧ s.basket.outsider = true then (s, creditOf m)
  else if 16 < (s.port p).held m.cls1 + looseSlots m then (s, 0, 0)
  else (s.setPort p { s.port p with stored := (s.port p).stored ++ [m] }, 0, 0)

/-- The loose messages of a frame in order. -/
def looseAll (p : Port) : List Loose → State → State × Nat × Nat
  | [], s => (s, 0, 0)
  | m :: ms, s =>
    let (s, a, b) := looseArrive p m s
    let (s, c, d) := looseAll p ms s
    (s, a + c, b + d)

/-- The oldest message stored at an ingress leaves it: acted on here, dropped with E_ROUTE_NONE, forwarded on its routed
egress once credits suffice (R54, R55), or dropped on a package that has become an outsider (R52). DESIGN CHOICE (log entry
64): an ingress keeps one order for both classes, so that a message of one class that waits holds back the other. -/
def looseForward (p : Port) (s : State) : State :=
  match (s.port p).stored with
  | [] => s
  | m :: rest =>
    let dst := m.dst.setWidth 6
    let drop (s : State) : State :=
      sendCredit p (creditOf m).1 (creditOf m).2 (s.setPort p { s.port p with stored := rest })
    if dst = s.pkg then (if looseReady m s then looseTake m (drop s) else s)
    else if s.basket.outsider then drop s
    else match portOf (s.route dst) with
      | none => refuse eRouteNone (drop s)
      | some _ => match s.looseWay m with
        | some (o, m) => sendOn o m (drop s)
        | none => s

/-- LOOSE_FORWARD (R55). -/
def execLooseForward (p : Port) (s : State) : Outcome := .next (looseForward p s)

/-! ### Static words -/

/-- The egress ports on which a static word of ingress `p`, frame `f`, position `pos` leaves in the same position of
frame `f + 1` (R48, R49). -/
def staticWays (p : Port) (f pos : Nat) (d : WeaveDecl) (s : State) : List Port :=
  (d.ports.filter (fun o => o.pkg == s.pkg && decide (8 ≤ pos)
    && nthD .idle (slotEntry s o.table (f + 1)) (pos / 8 - 1) == .staticFwd p)).map (fun o => o.port)

/-- A word leaves on a port that static words pass (Table Withy-4: a port in REKEY under MODE LOOSE too), scrambled for its
lane (R46). -/
def staticOut (f pos : Nat) (w : LinkWord) (s : State) (o : Port) : State :=
  if s.staticPasses (s.port o) then s.emit (.static o (f + 1) pos ((s.port o).scramble pos w)) else s

/-- The place at which the weave has the static words of a position end, if any. -/
def deliveryOf (p : Port) (f pos : Nat) (d : WeaveDecl) (s : State) : Option DeliveryDecl :=
  d.deliveries.find? (fun x => x.pkg == s.pkg && x.port == p && x.pos == pos
    && frameIndex s x.period f == x.entry)

/-- A static word of ingress `p`, frame `f`: what its lane carried is descrambled; it is cut through to the egress ports
that forward it, or written at the scratchpad place that the weave names (R46, R48, R49, log entry 62). -/
def staticIn (p : Port) (f : Nat) (x : Nat × LinkWord) (s : State) : State :=
  match s.weave.run with
  | none => s
  | some d =>
    let w := (s.port p).scramble x.1 x.2
    let s := (staticWays p f x.1 d s).foldl (staticOut f x.1 w) s
    match deliveryOf p f x.1 d s with
    | some q => wrMem (spAddr q.core.val q.offset.toNat) (leBytes 16 w.toNat) s
    | none => s

/-! ### Service words -/

/-- Types of Table Withy-2. -/
def ctrlTypes : List Nat := [0x1E, 0x2D, 0x3C, 0x4B, 0x5A, 0x69]

/-- A TIME word whose kind is not STEP, BEAT or CLOCK (R47). -/
def badTime (w : LinkWord) : Bool :=
  lwByte w 0 == 0x5A && ctrlSub w == 7 && !(decide (1 ≤ lwByte w 2 ∧ lwByte w 2 ≤ 3))

/-- A service word that R47 refuses. -/
def badCtrl (w : LinkWord) : Bool :=
  !ctrlTypes.contains (lwByte w 0) || (lwByte w 0 == 0x5A && decide (7 < ctrlSub w)) || badTime w

/-- A CTRL word of a frame is acted on by its subtype (Table Withy-9). What a JOIN or a JOIN_REPLY means comes with its
own command. -/
def ctrlTake (p : Port) (w : LinkWord) (s : State) : State :=
  if badCtrl w || lwByte w 0 != 0x5A then s
  else match ctrlSub w with
    | 1 => if haltNum w < 0x8000 then haltIn p w s else resumeIn p w s
    | 2 => knotWordIn w s
    | 5 => keyx p w s
    | 6 => presence p w s
    | 7 =>
      (match lwByte w 2 with
       | 1 => timeStepWord p w s
       | 2 => timeBeatWord p w s
       | _ => timeClockWord p w s)
    | _ => s

/-- Unacknowledged messages go out again from the next frame (R56). DESIGN CHOICE (log entry 64): WITHY_Pp_REPLAY counts
one for each message. -/
def resendOn (p : Port) (s : State) : State :=
  let x := s.port p
  let s := s.setPort p { x with unacked := x.unacked.map (fun u => (x.ctr + 1, u.2)) }
  let s := s.bumpSat (Reg.withyPReplay (portNum p)) 16 x.unacked.length
  x.unacked.foldl (fun s u => s.emit (.loose p u.2)) s

/-- Credits, ACK and NAK of a frame: credits are added, acknowledged messages go, a NAK resends the others from the next
frame, and messages that waited for credits leave (R55, R56). -/
def creditsIn (p : Port) (f : LinkFrame) (s : State) : State :=
  let x := s.port p
  let left := x.unacked.filter (fun u => decide (f.ack < u.1))
  let s := s.setPort p { x with credits0 := min 16 (x.credits0 + f.credit0.toNat),
                                credits1 := min 16 (x.credits1 + f.credit1.toNat), unacked := left }
  let s := if f.nak && !left.isEmpty && s.loosePasses (s.port p) then resendOn p s else s
  drainOutbox s.basket.outbox s

/-! ### Header errors -/

/-- Header errors of a frame: the lane of each invalid header, and of each TIME word of an unknown kind (R47). -/
def headerLanes (x : LinkPort) (f : LinkFrame) (ws : List LinkWord) : List (Fin 4) :=
  f.headerErrs ++ (ws.zipIdx.filter (fun w => badTime w.1)).map (fun w => Fin.ofNat 4 (x.laneOf (2 + w.2)))

/-- The first lane with 16 header errors within 1 ms (R50). -/
def badLane (l : List (Fin 4 × Nat)) : Option (Fin 4) :=
  (List.finRange 4).find? (fun i => decide (16 ≤ (l.filter (fun e => e.1 == i)).length))

/-- Header errors are counted, and a lane with 16 of them within 1 ms fails (R47, R50). -/
def headersIn (p : Port) (f : LinkFrame) (ws : List LinkWord) (s : State) : State :=
  let x := s.port p
  let now := (headerLanes x f ws).map (fun i => (i, s.upNs))
  let log := x.hdrErrs.filter (fun e => decide (s.upNs < e.2 + 1000000)) ++ now
  let s := now.foldl (fun s _ => countHdr p s) (s.setPort p { x with hdrErrs := log })
  match badLane log with
  | some i => laneFailure p i f.hasStatic (s.setPort p { s.port p with hdrErrs := [] })
  | none => s

/-! ### The frame -/

/-- The frame holds a control block that R47 refuses: a reserved type at any position, or a refused service word. -/
def badBlocks (f : LinkFrame) (ws : List LinkWord) : Bool :=
  ws.any badCtrl || f.otherTypes.any (fun b => !ctrlTypes.contains b.toNat)

/-- The frame fails: CHECK, the tag under encryption, or a control block that R47 refuses. -/
def frameFails (f : LinkFrame) (ws : List LinkWord) (s : State) : Bool :=
  !f.checkOk || (s.cryptMode != 0 && !f.tagOk) || badBlocks f ws

/-- A failing frame: one failure is counted, its loose slots are discarded under NAK, and static slots in it restart
the weave (R56, Table Withy-12). -/
def frameBad (p : Port) (f : LinkFrame) (s : State) : State :=
  let s := countChk p s
  let s := sendCredit p 0 0 (s.setPort p { s.port p with naking := true })
  if f.hasStatic then weaveFault (portFault 0 p) s else s

/-- The loose slots of a good frame: accepted in order; under NAK only from the resend on (R56); none where loose words do
not pass (R50, R57, R58). -/
def frameGood (p : Port) (f : LinkFrame) (s : State) : State :=
  let x := s.port p
  if (x.naking && !f.resend) || !s.loosePasses x then s
  else
    let s := s.setPort p { x with naking := false, lastGood := x.rxCtr }
    let (s, c0, c1) := looseAll p f.loose s
    if f.loose.isEmpty then s else sendCredit p c0 c1 s

/-- What the FRAME word says of the peer: its number, whether it belongs to a basket, and on the upstream port of a joined
package the distance to the principal (Table Withy-3). Frames count on in the session (R34). -/
def frameWord (p : Port) (f : LinkFrame) (s : State) : State :=
  let x := s.port p
  let s := s.setPort p { x with peer := f.sender.setWidth 6, peerIn := f.principal != 0xFF, rxCtr := x.rxCtr + 1 }
  if s.follows && s.basket.upstream == p && f.hops != 0xFF then
    { s with basket := { s.basket with hops := f.hops + 1 } }
  else s

/-- A link frame is received whole: static words pass on, the service words are acted on, then CHECK and tag decide
over its loose slots (R46 to R49, R55, R56). -/
def linkFrame (p : Port) (f : LinkFrame) (s : State) : State :=
  let x := s.port p
  if !x.up then s
  else
    let ws := f.ctrl.zipIdx.map (fun w => x.scramble (2 + w.2) w.1)
    let bad := frameFails f ws s
    let s := frameWord p f s
    let s := if s.weaveActive && s.staticPasses (s.port p) then
      f.statics.foldl (fun s x => staticIn p f.frame.toNat x s) s else s
    let s := creditsIn p f s
    let s := if badBlocks f ws then refuse eLinkCode s else s
    let s := ws.foldl (fun s w => ctrlTake p w s) (headersIn p f ws s)
    if bad then frameBad p f s else frameGood p f s

/-- LINK_FRAME (R56). -/
def execLinkFrame (port : Port) (f : LinkFrame) (s : State) : Outcome := .next (linkFrame port f s)

end Sys2Proof.Machine
end

