-- ==== Sys2Proof/Machine/RegView.lean ====
section
/-!
DEFINITION. RegView.lean: what a read of each BAR0 register returns (R351, R7, R37, R102, R245): the stored word, or the
view of state that stands in named fields, and the reads that latch, pop or clear (R6).
-/

namespace Sys2Proof.Machine

/-- Index of the register at `off` among `count` registers `stride` apart from `base`. -/
def indexIn (base stride count off : Nat) : Option Nat :=
  if base ≤ off ∧ (off - base) % stride = 0 ∧ (off - base) / stride < count then some ((off - base) / stride) else none

/-- A register word from a number. -/
def word (n : Nat) : Word := BitVec.ofNat 32 n

/-- The high 32 bits of a number. -/
def highWord (n : Nat) : Word := word (n / 2 ^ 32)

/-- ID (Table Index-4). -/
def idView (s : State) (off : Nat) : Word :=
  if off = Reg.idStraps then word (s.power.strap1.toNat + s.power.strap2.toNat * 2 ^ 8)
  else if off = Reg.idStatus then
    s.reg off ||| (if s.power.resampled && s.power.strap1 != s.power.strap2 then 4 else 0)
  else s.reg off

/-- TIME (Table Time-5). -/
def timeView (s : State) (off : Nat) : Word :=
  if off = Reg.timeNowHi then word (bits s.time.shadow 48 32)
  else if off = Reg.timeNowFrac then word (bits s.time.shadow 0 16)
  else if off = Reg.timeBeatNumHi then s.time.numHi
  else if off = Reg.timeBeatStampHi then s.time.stampHi
  else if off = Reg.timeAlign then putBits (s.reg off) 16 4 s.basket.hops.toNat
  else s.reg off

/-- PWR_STATUS.STATE (Table Power-7). -/
def powerCode : Phase → Nat
  | .waking => 1
  | .dozeWaking => 1
  | .enteringDoze => 2
  | .enteringSlumber => 2
  | _ => 0

/-- PWR (Table Power-7). -/
def pwrView (s : State) (off : Nat) : Word :=
  if off = Reg.pwrStatus then
    s.reg off ||| word (powerCode s.power.phase + s.power.pgoodA.toNat * 2 ^ 8 + s.power.pgoodB.toNat * 2 ^ 9)
  else s.reg off

/-- STATE of a ring pair (Table Host-11). -/
def ringCode : RingState → Nat
  | .disabled => 0
  | .active => 1
  | .draining => 2
  | .error => 3

/-- The registers of ring pair `i`, by offset in the pair. -/
def ringView (s : State) (i o off : Nat) : Word :=
  if o = 0x14 then word (ringCode (s.ring i).state + s.inFlight i * 2 ^ 8 + (s.ring i).phase.toNat * 2 ^ 16)
  else if o = 0x18 then word (s.ring i).fetch.toNat
  else if o = 0x1C then word (s.ring i).write.toNat
  else s.reg off

/-- HOST (Table Host-11); a stake reads the reset values (R88). -/
def hostView (s : State) (off : Nat) : Word :=
  if !s.anchor then resetVal off
  else if off = Reg.hostStatus then
    word (s.host.bme.toNat + s.polling.toNat * 2
      + (s.host.records.filter (fun r => r.held)).length * 2 ^ 16)
  else if 0x6100 ≤ off && off < 0x6900 then ringView s ((off - 0x6100) / 32) ((off - 0x6100) % 32) off
  else s.reg off

/-- STATE, WIDTH, LANES_OK, D and PEER of a port (Table Withy-10). -/
def portStatus (x : LinkPort) : Word :=
  word (portCode x.state + x.width.toNat * 2 ^ 4 + x.lanes.toNat * 2 ^ 8 + x.d.toNat * 2 ^ 16 + x.peer.toNat * 2 ^ 24)

/-- The registers of a port, by offset in the port. -/
def portView (s : State) (p : Port) (o off : Nat) : Word :=
  let x := s.port p
  if o = 0x04 then portStatus x
  else if o = 0x10 then word x.epoch.toNat
  else if o = 0x14 then word x.ctr.toNat
  else if o = 0x18 then highWord x.ctr.toNat
  else s.reg off

/-- The port whose registers hold `off`. -/
def portAt (off : Nat) : Option Port :=
  if 0x8040 ≤ off && off < 0x80C0 then portOf ((off - 0x8040) / 32) else none

/-- WITHY_TOPO of the running weave. -/
def topoView (s : State) : Word :=
  match s.weave.run with
  | some d => word (d.topoKind.toNat + d.topoRows.toNat * 2 ^ 4 + d.topoCols.toNat * 2 ^ 8)
  | none => 0

/-- WITHY (Table Withy-10). -/
def withyView (s : State) (off : Nat) : Word :=
  if off = Reg.withyId then
    word (s.pkg.toNat + s.anchor.toNat * 2 ^ 8 + s.basket.joined.toNat * 2 ^ 9 + s.basket.outsider.toNat * 2 ^ 10
      + s.basket.principal.toNat * 2 ^ 16)
  else if off = Reg.withyBasket then s.basketId
  else if off = Reg.withyTopo then topoView s
  else match portAt off, indexIn 0x8100 4 64 off with
    | some p, _ => portView s p ((off - 0x8040) % 32) off
    | none, some n => word (s.route (BitVec.ofNat 6 n) + (s.dateline (BitVec.ofNat 6 n)).toNat * 2 ^ 3)
    | none, none => s.reg off

/-- PIX (Table Pix-9). -/
def pixView (s : State) (off : Nat) : Word :=
  if off = Reg.pixStatus then
    s.reg off ||| word ((!s.pix.cur.isEmpty).toNat + s.pix.reading.isSome.toNat * 2 + s.pix.darkBusy.toNat * 2 ^ 2
      + s.pix.band.toNat * 2 ^ 4 + s.pix.hot.toNat * 2 ^ 7)
  else s.reg off

/-- FIELD (Table Pix-10). -/
def fieldView (s : State) (off : Nat) : Word :=
  let e := s.field.latch
  if off = Reg.fieldInState then word s.field.levels.toNat
  else if off = Reg.fieldEvqTimeLo then word (bits e.stamp 16 32)
  else if off = Reg.fieldEvqTimeHi then word (bits e.stamp 48 32)
  else if off = Reg.fieldEvqTimeFrac then word (bits e.stamp 0 16)
  else if off = Reg.fieldEvqPosLo then word e.pos.toNat
  else if off = Reg.fieldEvqPosHi then highWord e.pos.toNat
  else if off = Reg.fieldEncPosHi then word s.field.posHi.toNat
  else s.reg off

/-- ROI (Table Regions-6). CROP_OK and RAW_OK follow the fuse flags and the lifecycle (R128, R129). -/
def roiView (s : State) (off : Nat) : Word :=
  if off = Reg.roiRuleStatus then word (s.roi.active1.toNat + s.roi.swap.toNat * 2)
  else if off = Reg.roiStatus then
    word (s.roi.diag.isSome.toNat + s.roi.diagUsed.toNat * 2 + (!s.flag Reg.fuseLifecycle 11).toNat * 2 ^ 2
      + (s.lifecycle == 1 && s.flag Reg.fuseLifecycle 9).toNat * 2 ^ 3)
  else s.reg off

/-- WFE (Table Weigh-9). -/
def wfeView (s : State) (off : Nat) : Word :=
  let w := s.wfe
  if off = Reg.wfeStatus then
    word (w.settled.toNat + w.a.inRun.toNat * 2 + w.b.inRun.toNat * 2 ^ 2 + w.sliceA.val * 2 ^ 4
      + w.sliceB.val * 2 ^ 6 + w.sliceE.val * 2 ^ 8 + w.calBusy.toNat * 2 ^ 10 + w.calFail.toNat * 2 ^ 12
      + w.excOver.toNat * 2 ^ 15 + w.rotCnt.toNat * 2 ^ 16)
  else s.reg off

/-- CORE n is in the running weave: the running alternate places this package, and the core is enabled (Table
Arrays-10; log entry 53). -/
def State.coreRuns (s : State) (n : Nat) : Bool := s.weaveActive && s.placement.isSome && s.flag (Reg.coreCtl n) 0

/-- Four bytes of the trim table of a core: steps 4w to 4w + 3 of band `b`; those above 17 read as zero (R205, Table
Approx-4). -/
def pmtWord (s : State) (b w : Nat) : Word := word (ofLe ((List.range 4).map (fun j => BitVec.ofNat 8 (if 17 < 4 * w + j then 0 else s.pmtByte b (4 * w + j)))))

/-- CORE n (Tables Scratch-5, Arrays-10, Approx-4), by offset in the core. -/
def coreView (s : State) (n o off : Nat) : Word :=
  if o = 0x004 then putBits (putBits (s.reg off) 0 1 (s.coreRuns n).toNat) 4 3 (s.goodArrays n)
  else if o = 0x804 then putBits (putBits (s.reg off) 12 1 (s.filling n).toNat) 16 4 (s.core n).rq.length
  else if o = 0x108 then putBits (putBits (s.reg off) 5 1 (s.slewing n).toNat) 12 1 (s.forced n).toNat
  else match indexIn 0x140 4 40 o with
    | some i => pmtWord s (i / 5) (i % 5)
    | none => s.reg off

/-- The current and the pending table of the selected grammar (Table Tokens-6). -/
def grmInfo (s : State) : Word :=
  let id := BitVec.ofNat 8 (s.fld Reg.serveGrmSel 0 8)
  let pending := (s.serve.grammars.any (fun t => t.id == id && t.role == 0)).toNat
  match s.grammar id with
  | some t =>
    let g := s.grmSrc t
    word (1 + pending * 2 + gKind g % 2 * 2 ^ 2 + t.gen.toNat * 2 ^ 8 + gStates g % 2 ^ 13 * 2 ^ 16)
  | none => word (pending * 2)

/-- Entries of the request table in a state. -/
def State.countReqs (s : State) (p : Req → Bool) : Nat := (s.serve.reqs.filter (fun r => p r.2)).length

/-- SERVE (Tables Requests-7, Phases-10, Tokens-6). -/
def serveView (s : State) (off : Nat) : Word :=
  let t := s.tenant (s.fld Reg.serveTenSel 0 12)
  if off = Reg.serveStatus then
    word (4096 - s.countReqs (fun r => r.st != .free) + s.countReqs (fun r => r.st == .queued) * 2 ^ 16)
  else if off = Reg.serveSeq then s.serve.nextSeq
  else if off = Reg.serveAdpStatus then putBits (s.reg off) 12 20 s.adpFree.length
  else if off = Reg.serveTenCfg then word (t.weight.toNat + t.gen.toNat * 2 ^ 8 + t.rank.toNat * 2 ^ 16)
  else if off = Reg.serveTenBudget then t.budget
  else if off = Reg.serveTenSpent then word t.spent
  else if off = Reg.serveStepNumHi then s.serve.stepHi
  else if off = Reg.serveKvFree then word s.kvFree.length
  else if off = Reg.serveParkStatus then word (s.serve.parkEpoch.toNat + s.serve.exhausted.toNat * 2 ^ 28)
  else if off = Reg.serveParkCtrLo then word s.serve.parkCtr.toNat
  else if off = Reg.serveParkCtrHi then highWord s.serve.parkCtr.toNat
  else if off = Reg.serveGrmFree then word s.grmFree.length
  else if off = Reg.serveGrmInfo then grmInfo s
  else s.reg off

/-- FAULT (Table Faults-5). -/
def faultView (s : State) (off : Nat) : Word :=
  if off = Reg.faultStatus then
    word (restartCode s.fault.phase + s.weave.alt.toNat * 2 ^ 8 + s.fault.lastNum.toNat * 2 ^ 16)
  else match indexIn 0x40020 4 8 off with
    | some k => word (bits (nthD 0 s.fault.log (s.fld Reg.faultLogSel 0 4)) (32 * k) 32)
    | none => s.reg off

/-- THERM (Table Power-8). -/
def thermView (s : State) (off : Nat) : Word :=
  if off = Reg.thermStatus then word (s.therm.stage.toNat + s.coolNow.toNat * 2 ^ 2 + s.therm.noAlt.toNat * 2 ^ 3)
  else s.reg off

/-- The word that the register at `off` shows; an unclaimed offset shows zero (R7). -/
def State.view (s : State) (off : Nat) : Word :=
  if (regRow off).isNone then 0
  else if off < 0x1000 then idView s off
  else if off < 0x2000 then s.reg off
  else if off < 0x3000 then timeView s off
  else if off < 0x4000 then pwrView s off
  else if off < 0x6000 then (if off = Reg.bootWeaveId then s.weaveId else s.reg off)
  else if off < 0x7000 then hostView s off
  else if off < 0x9000 then withyView s off
  else if off < 0xC000 then s.reg off
  else if off < 0xD000 then pixView s off
  else if off < 0xE000 then fieldView s off
  else if off < 0xF000 then roiView s off
  else if off < 0x20000 then wfeView s off
  else if off < 0x30000 then coreView s ((off - 0x20000) / 0x1000) (off % 0x1000) off
  else if off < 0x38000 then s.reg off
  else if off < 0x40000 then serveView s off
  else if off < 0x48000 then faultView s off
  else thermView s off

/-- RC bits of the register at `off`. -/
def rcMask (off : Nat) : Word :=
  match regRow off with
  | some r => word r.rc
  | none => 0

/-- A read clears the RC fields of the register; what hardware set in the cycle of the read stays for the next read
(Table Scope-1, R6). -/
def clearRc (off : Nat) (s : State) : State :=
  if rcMask off = 0 then s
  else match s.setNow off with
    | some (_, x) => (s.setReg off ((s.reg off &&& ~~~(rcMask off)) ||| (x &&& rcMask off))).dropSets off
    | none => s.setReg off (s.reg off &&& ~~~(rcMask off))

/-- The word that a read of `off` returns: RC fields as they stood before a hardware set of the same cycle (R6). -/
def State.readWord (s : State) (off : Nat) : Word :=
  match s.setNow off with
  | some (b, _) => (s.view off &&& ~~~(rcMask off)) ||| (b &&& rcMask off)
  | none => s.view off

/-- A read of one BAR0 word where the block answers: latching reads, the pop of the event queue, and RC fields, which
return their value and clear (R351, R6). -/
def bar0Read (off : Nat) (s : State) : State × Word :=
  if off = Reg.timeNowLo then timeNowLoRead s
  else if off = Reg.timeBeatNumLo then timeBeatNumLoRead s
  else if off = Reg.timeBeatStampLo then timeBeatStampLoRead s
  else if off = Reg.fieldEvqInfo then evqPop s
  else if off = Reg.fieldEncPosLo then encPosRead s
  else if off = Reg.serveStepNumLo then serveStepNumLoRead s
  else (clearRc off s, s.readWord off)

/-- A read of a word of BAR2 where the package serves its host; while it wakes, zero (R294). Its offset stands 2^20 above
that of a BAR0 word in what goes out. -/
def gateBar2 (off : Nat) (s : State) : State :=
  if s.answers Reg.hostCtl then s.emit (.readData (0x100000 + off) (bar2Word s off))
  else match s.power.phase with
    | .waking => s.emit (.readData (0x100000 + off) 0)
    | .dozeWaking => s.emit (.readData (0x100000 + off) 0)
    | _ => s

/-- RC_FIELD_READ (R6): a read of a word of BAR0, or of BAR2 (R65). -/
def execRcFieldRead (bar2 : Bool) (off : BitVec 20) (s : State) : Outcome :=
  .next (if bar2 then gateBar2 (off.toNat % 0x4000) s else gateRead off.toNat (bar0Read off.toNat) s)

end Sys2Proof.Machine
end

