-- ==== Sys2Proof/Machine/RegWrite.lean ====
section
/-!
DEFINITION. RegWrite.lean: a write of one BAR0 word (R351, R356, R357, R3, R7): the staged pairs, the registers judged
whole by their own rules, the command registers, and the judgement and effects of every other register, block by
block; and an access forwarded to this package (R63).
-/

namespace Sys2Proof.Machine

/-- The write of a word changes a field given by its mask. -/
def changes (old new : Word) (mask : Nat) : Bool := (old ^^^ new) &&& word mask != 0

/-! ### Verdicts of the blocks, in the order of R357: 0 accepts -/

/-- HOST on an anchor (R88). -/
def hostVerdict (s : State) (off : Nat) (old new : Word) : Code :=
  if off = Reg.hostPoll then (if bits new 0 8 = 0 ∨ 128 < bits new 0 8 then ePollRange else 0)
  else if off = Reg.hostRecBaseLo ∨ off = Reg.hostRecBaseHi then
    (if s.flag Reg.hostRecCfg 16 && old != new then eRecCfg else 0)
  else if off = Reg.hostEvtCfg then (if old.getLsbD 8 && changes old new 0x3F then eRecCfg else 0)
  else if 0x6100 ≤ off ∧ off < 0x6900 ∧ (off - 0x6100) % 32 < 16 then
    (if (s.ring ((off - 0x6100) / 32)).state != .disabled && old != new then eRingActive else 0)
  else 0

/-- WITHY (R50, R53). -/
def withyVerdict (s : State) (off : Nat) (old new : Word) : Code :=
  if off = Reg.withyJoinCfg then
    (if new.getLsbD 0 && !old.getLsbD 0 && s.lifecycle != 1 then eJoinOverride else 0)
  else match portAt off with
    | some p =>
      if (s.port p).state == .woven && old.getLsbD 0 && !new.getLsbD 0 then eWithyRunning
      else if bits new 2 2 = 3 then ePortCfg
      else 0
    | none => 0

/-- WIN (R61): base, size and source mask of an open window stay. -/
def winVerdict (s : State) (off : Nat) (old new : Word) : Code :=
  if off < Reg.winErr && s.flag (Reg.winCtl ((off - 0xA000) / 32)) 0 && old != new then eWinOpen else 0

/-- PIX (R90, R92, R110). -/
def pixVerdict (s : State) (src : Writer) (off : Nat) (old new : Word) : Code :=
  if 0xC040 ≤ off && s.weaveOwns src && old != new then ePixRunning
  else if (indexIn (Reg.pixSMode 0) 16 4 off).isSome then
    (if bits new 16 2 = 3 then ePixGain
     else if new.getLsbD 0 && bits new 8 8 == 0 then ePixWindow else 0)
  else if (indexIn (Reg.pixSExp 0) 16 4 off).isSome then
    (if bits new 0 20 < 200 ∨ 1000000 < bits new 0 20 then eExpRange else 0)
  else if (indexIn (Reg.pixWX 0) 8 8 off).isSome then
    (if bits new 16 9 = 0 ∨ 256 < bits new 0 8 + bits new 16 9 then ePixWindow else 0)
  else if (indexIn (Reg.pixWY 0) 8 8 off).isSome then
    (if bits new 16 12 = 0 ∨ 2048 < bits new 0 11 + bits new 16 12 then ePixWindow else 0)
  else 0

/-- A FIELD register that a running weave owns (R110). -/
def fieldOwned (off : Nat) : Bool :=
  off == Reg.fieldEncCfg || (Reg.fieldEncPresetLo ≤ off && off ≤ Reg.fieldEncAtHi) || 0xD100 ≤ off

/-- FIELD (R104, R107, R108, R110). -/
def fieldVerdict (s : State) (src : Writer) (off : Nat) (old new : Word) : Code :=
  if fieldOwned off && s.weaveOwns src && old != new then eFieldRunning
  else if (indexIn (Reg.fieldMatchCfg 0) 16 16 off).isSome then
    (if new.getLsbD 0 && bits new 1 2 == 0 then eMatchDir else 0)
  else if (indexIn (Reg.fieldStbCfg 0) 8 4 off).isSome then
    (if bits new 0 2 = 3 then eStbMode else if bits new 4 2 = 3 then eSlewCode else 0)
  else if (indexIn (Reg.fieldStbWidth 0) 8 4 off).isSome then
    (if bits new 0 22 = 0 ∨ 4000000 < bits new 0 22 then eStbWidth else 0)
  else if (indexIn (Reg.fieldSyncCfg 0) 4 2 off).isSome then
    (if 6 ≤ bits new 0 3 then eSyncSrc else if bits new 4 2 = 3 then eSlewCode
     else if bits new 16 16 = 0 then eStbWidth else 0)
  else 0

/-- Fields of a ROI register that a running weave owns (R130). -/
def roiOwned (off : Nat) : Nat :=
  if off = Reg.roiCtl then 0x30
  else if Reg.roiCropBaseLo ≤ off ∧ off ≤ Reg.roiTriBaseHi then 0xFFFFFFFF
  else 0

/-- A ring of 2^log2 crop slots lies in the store (R130). -/
def cropRingOk (base log2 : Nat) : Bool := inStore base (2 ^ log2 * 0x80000)

/-- ROI (R130). -/
def roiVerdict (s : State) (src : Writer) (off : Nat) (old new : Word) : Code :=
  if s.weaveOwns src && changes old new (roiOwned off) then eRoiRunning
  else if off = Reg.roiCropCfg then
    (if bits new 0 4 < 4 ∨ 9 < bits new 0 4 then eCropGeom
     else if 0xC0000000 < s.cropBase + 2 ^ bits new 0 4 * 0x80000 then eCropBase else 0)
  else if (indexIn (Reg.roiClass 0) 4 8 off).isSome then
    (if bits new 0 6 < 2 ∨ 32 < bits new 0 6 ∨ bits new 8 5 < 1 ∨ 15 < bits new 8 5 ∨ 4 < bits new 16 3 then eCropGeom
     else 0)
  else 0

/-- The half of WFE_SEQ_CFG of converter `c`. -/
def seqHalf (c : Bool) : Nat := if c then 0xFFFF0000 else 0xFFFF

/-- Converter and entry of WFE_c_ENTRYe. -/
def entryAt (off : Nat) : Option (Bool × Nat) :=
  (indexIn (Reg.wfeEntry 0) 4 32 off).map (fun k => (decide (16 ≤ k), k % 16))

/-- Reserved bits of a converter entry (R136). -/
def entryReserved : Word := 0xFF008080

/-- WFE (R132, R134, R136, R138, R147). `raw` is the word with its reserved bits as written. -/
def wfeVerdict (s : State) (off : Nat) (old new raw : Word) : Code :=
  if off = Reg.wfeMains then
    (if s.wfeBusy && old != new then eWfeBusy
     else if bits new 0 22 < 1500000 ∨ 2500000 < bits new 0 22 ∨ bits new 0 22 % 2 = 1 then eWfeMains else 0)
  else if off = Reg.wfeSeqCfg then
    (if [false, true].any (fun c => (s.wfe.conv c).inRun && changes old new (seqHalf c)) then eWfeBusy
     else if bits new 5 3 = 7 ∨ bits new 21 3 = 7 then eWfeSrc else 0)
  else if off = Reg.wfeXchk then (if bits new 8 24 = 0 then eWfeXchkLimit else 0)
  else if off = Reg.wfeChCfg 0 then (if new.getLsbD 0 then eWfeTie else 0)
  else match entryAt off with
    | some (c, _) =>
      if (s.wfe.conv c).inRun && old != new then eWfeBusy
      else if 13 ≤ eCh new ∨ eOwc new = 3 ∨ raw &&& entryReserved ≠ 0 then eWfeEntry
      else 0
    | none => 0

/-- CORE n, by offset in the core (R171, R192, R217). -/
def coreVerdict (s : State) (src : Writer) (o : Nat) (old new : Word) : Code :=
  if s.weaveOwns src && old != new then
    (if 0x800 ≤ o then eSpRunning else if o < 0x100 then eCoreRunning else eApxRunning)
  else if o = 0x100 then
    (if 17 < bits new 0 5 then eApxVstep
     else if !kOk (bits new 8 4) then eApxK
     else if bits new 16 5 = 0 ∨ 16 < bits new 16 5 then eApxSample else 0)
  else if o = 0x104 then (if 17 < bits new 0 5 then eApxVstep else 0)
  else 0

/-- PLAIT (R228). -/
def plaitVerdict (s : State) (src : Writer) (off : Nat) (old new : Word) : Code :=
  if s.weaveOwns src && old != new then ePlaitRunning
  else match indexIn (Reg.plaitProtBase 0) 8 4 off, indexIn (Reg.plaitProtLimit 0) 8 4 off with
    | some i, _ => if protBad new (s.reg (Reg.plaitProtLimit i)) then ePlaitProtRange else 0
    | none, some i => if protBad (s.reg (Reg.plaitProtBase i)) new then ePlaitProtRange else 0
    | none, none => 0

/-- A pool of `n` pages at `a` reaches outside the store; a pool of no pages reaches nowhere (log entry 53). -/
def poolOut (a n : Nat) : Bool := n != 0 && !inStore a (4096 * n)

/-- Two pools overlap. -/
def poolsMeet (a n b m : Nat) : Bool := n != 0 && m != 0 && decide (a < b + 4096 * m) && decide (b < a + 4096 * n)

/-- The adapter pool as a write would leave it (R243). -/
def adpVerdict (base size : Nat) : Code := if poolOut base size then eAdpPool else 0

/-- The KV pool as a write would leave it (R262). -/
def kvVerdict (s : State) (base size : Nat) : Code :=
  if poolOut base size || poolsMeet base size s.parkBase s.parkSize then eKvPool else 0

/-- The park pool as a write would leave it (R262). -/
def parkVerdict (s : State) (base size : Nat) : Code :=
  if poolOut base size || poolsMeet base size s.kvBase s.kvSize then eKvPool else 0

/-- The grammar pool as a write would leave it (R272). -/
def grmVerdict (s : State) (base size : Nat) : Code :=
  if poolOut base size || poolsMeet base size s.kvBase s.kvSize || poolsMeet base size s.parkBase s.parkSize
      || poolsMeet base size s.adpBase s.adpSize then eGrmPool else 0

/-- A SERVE register whose change a running weave bars for host software (R243, R262, R272). -/
def serveBarred (off : Nat) : Bool :=
  off == Reg.serveCtl || off == Reg.serveDlOfs || off == Reg.serveDlCfg || off == Reg.serveWindow
    || off == Reg.serveAdmit || off == Reg.serveLinger || off == Reg.serveAdpPoolSize || off == Reg.serveKvPoolSize
    || off == Reg.serveParkPoolSize || off == Reg.serveGrmPoolSize || off == Reg.serveParkHostCfg

/-- SERVE (R243, R262, R272). -/
def serveVerdict (s : State) (src : Writer) (off : Nat) (old new : Word) : Code :=
  if serveBarred off && s.weaveOwns src && old != new then eServeRunning
  else if off = Reg.serveDlCfg ∨ off = Reg.serveWindow then (if bits new 0 16 = 0 then eServeRange else 0)
  else if off = Reg.serveAdmit then (if bits new 0 9 = 0 ∨ 256 < bits new 0 9 then eServeRange else 0)
  else if off = Reg.serveAdpPoolSize then adpVerdict s.adpBase (bits new 0 20)
  else if off = Reg.serveKvPoolSize then kvVerdict s s.kvBase (bits new 0 20)
  else if off = Reg.serveParkPoolSize then parkVerdict s s.parkBase (bits new 0 20)
  else if off = Reg.serveGrmPoolSize then grmVerdict s s.grmBase (bits new 0 20)
  else if off = Reg.serveParkHostCfg then
    (if bits new 0 4 < 8 ∨ 14 < bits new 0 4 ∨ (bits new 16 12 = 0 ∧ s.flag Reg.serveParkCfg 8 = true) then eParkCfg
     else 0)
  else if off = Reg.serveParkCfg then
    (if (new.getLsbD 8 && s.fld Reg.serveParkHostCfg 16 12 == 0) || bits new 16 16 == 0 then eParkCfg else 0)
  else 0

/-- Ascending limits with TRIP at most `top` (R301). -/
def limitsOk (w : Word) (top : Nat) : Bool :=
  decide (bits w 0 8 < bits w 8 8) && decide (bits w 8 8 < bits w 16 8) && decide (bits w 16 8 ≤ top)

/-- THERM (R301). -/
def thermVerdict (off : Nat) (new : Word) : Code :=
  if off = Reg.thermCtl then (if bits new 8 8 = 0 then eThermLimit else 0)
  else if off = Reg.thermLimitL then (if limitsOk new 125 then 0 else eThermLimit)
  else if off = Reg.thermLimitP then (if limitsOk new 95 then 0 else eThermLimit)
  else 0

/-- FAULT: FAULT_CTL stays while a weave runs (16_faults). -/
def faultVerdict (s : State) (src : Writer) (off : Nat) (old new : Word) : Code :=
  if off = Reg.faultCtl ∧ s.weaveOwns src = true ∧ old ≠ new then eFaultRunning else 0

/-- The code that refuses a write of `new` over `old`, by block (R357); 0 accepts. -/
def writeVerdict (s : State) (src : Writer) (off : Nat) (old new raw : Word) : Code :=
  if off < 0x6000 then 0
  else if off < 0x7000 then hostVerdict s off old new
  else if off < 0x9000 then withyVerdict s off old new
  else if off < 0xB000 then winVerdict s off old new
  else if off < 0xD000 then pixVerdict s src off old new
  else if off < 0xE000 then fieldVerdict s src off old new
  else if off < 0xF000 then roiVerdict s src off old new
  else if off < 0x20000 then wfeVerdict s off old new raw
  else if off < 0x30000 then coreVerdict s src (off % 0x1000) old new
  else if off < 0x38000 then plaitVerdict s src off old new
  else if off < 0x40000 then serveVerdict s src off old new
  else if off < 0x48000 then faultVerdict s src off old new
  else thermVerdict off new

/-! ### Effects beside the fields set -/

/-- A written COUNT of 0 makes a match unit repeat; a non-zero one ends repeating (R104). -/
def writeCount (m : Nat) (new : Word) (s : State) : State :=
  { s with field := { s.field with repeating := putBits s.field.repeating m 1 (bits new 0 16 == 0).toNat } }

/-- Strobe and sync outputs follow their new set-up at once (R107, R108). -/
def fieldEffect (off : Nat) (new : Word) (s : State) : State :=
  match indexIn (Reg.fieldMatchCnt 0) 16 16 off with
  | some m => writeCount m new s
  | none =>
    if off = Reg.fieldStbCfg 0 then driveStrobe 0 s
    else if off = Reg.fieldStbCfg 1 then driveStrobe 1 s
    else if off = Reg.fieldStbCfg 2 then driveStrobe 2 s
    else if off = Reg.fieldStbCfg 3 then driveStrobe 3 s
    else if off = Reg.fieldSyncCfg 0 then driveSync 0 s
    else if off = Reg.fieldSyncCfg 1 then driveSync 1 s
    else s

/-- A new mains period restarts a calibration in progress (R132); the elf slice parks anew on changed settings of
entry 0 of the converter that it is to replace (R144). -/
def wfeEffect (off : Nat) (old new : Word) (s : State) : State :=
  if off = Reg.wfeMains then (if s.wfe.calBusy && old != new then beginCal s else s)
  else match entryAt off with
    | some (c, 0) =>
      if c == s.wfe.nextConv && old != new && s.wfe.elfReady.isSome
      then s.setWfe { s.wfe with elfReady := some s.time.pcyc } else s
    | _ => s

/-- EN of a port set: it trains; cleared: OFF (Table Withy-4). -/
def withyEffect (off : Nat) (old new : Word) (s : State) : State :=
  match portAt off with
  | some p =>
    if new.getLsbD 0 && !old.getLsbD 0 then portTrain p s
    else if !new.getLsbD 0 && old.getLsbD 0 then s.setPort p (offPort (s.port p))
    else s
  | none => s

/-- HOST_CTL.EN set: the reports that wait for the host interface go out (R320, R326). -/
def hostEffect (off : Nat) (old new : Word) (s : State) : State :=
  if off = Reg.hostCtl ∧ new.getLsbD 0 = true ∧ old.getLsbD 0 = false then postDue s else s

/-- A write of CORE_APX_CAP by host software while no weave runs clears BACKOFF (R215). -/
def coreEffect (src : Writer) (n o : Nat) (s : State) : State :=
  if o = 0x104 ∧ src = .host ∧ s.weaveRuns = false then s.setFld (Reg.coreApxCap n) 8 5 0 else s

/-- Effects of an accepted write, by block. -/
def writeEffect (src : Writer) (off : Nat) (old new : Word) (s : State) : State :=
  if off < 0x6000 then s
  else if off < 0x7000 then hostEffect off old new s
  else if off < 0x9000 then withyEffect off old new s
  else if off < 0xD000 then s
  else if off < 0xE000 then fieldEffect off new s
  else if off < 0xF000 then s
  else if off < 0x20000 then wfeEffect off old new s
  else if off < 0x30000 then coreEffect src ((off - 0x20000) / 0x1000) (off % 0x1000) s
  else s

/-- The core that a BAR0 offset concerns. -/
def coreOf (off : Nat) : Nat := if 0x20000 ≤ off ∧ off < 0x30000 then (off - 0x20000) / 0x1000 else 0

/-- PIX, FIELD and WFE registers keep their values before the write for this p-cycle (R91, R100, R102, R140, R148). -/
def snapshotFor (off : Nat) (s : State) : State := if 0xC000 ≤ off ∧ off < 0x11000 then pixSnapshot s else s

/-- A register without a rule of its own: RW fields take the enabled bytes, W1C bits clear, the whole is judged and
then set (R351, R357). A MATCH_CNT write of a weave-owned unit by host software that changes nothing stays without
effect. -/
def fieldsWrite (src : Writer) (r : RegRow) (off : Nat) (val : Word) (be : BitVec 4) (s : State) : State :=
  let old := s.reg off
  let raw := mergeBytes old val be
  let kept := old &&& ~~~(word r.rw)
  let setNow := match s.setNow off with
    | some (_, x) => x &&& word r.w1c
    | none => 0
  let new := (((raw &&& word r.rw) ||| kept) &&& ~~~(enabledBytes val be &&& word r.w1c)) ||| setNow
  let c := writeVerdict s src off old new raw
  if c ≠ 0 then latch c (coreOf off) s
  else if fieldOwned off && off < 0xE000 && 0xD000 ≤ off && s.weaveOwns src then s
  else writeEffect src off old new ((snapshotFor off s).setReg off new)

/-! ### Staged pairs (R356) -/

/-- The pairs judged as one value, by the offset of _LO; each _HI stands 4 above. -/
def stagedPairs : List Nat :=
  [Reg.timeBeatEpochLo, Reg.pixDarkBaseLo, Reg.roiCropBaseLo, Reg.roiTriBaseLo, Reg.serveAdpPoolLo, Reg.serveKvPoolLo,
   Reg.serveParkPoolLo, Reg.serveGrmPoolLo]

/-- Reserved bits of a register that a rule refuses unless they are zero (R3): a base that is not aligned (R96, R130), and
bits of a converter entry (R136). -/
def refusedBits (off : Nat) : Nat :=
  if off = Reg.pixDarkBaseLo then 0x7FFFFFF
  else if off = Reg.roiCropBaseLo then 0xFFFFF
  else if off = Reg.roiTriBaseLo then 0x3F
  else if (entryAt off).isSome then entryReserved.toNat
  else 0

/-- A write of _LO is held in the stage; it changes nothing and nothing judges it. -/
def stageLo (rw lo : Nat) (val : Word) (be : BitVec 4) (s : State) : State :=
  let w := mergeBytes (s.stagedLo lo) val be &&& word (rw ||| refusedBits lo)
  let s := clearStage lo s
  { s with time := { s.time with staged := (lo, w) :: s.time.staged } }

/-- The judgement of a pair's whole value. -/
def pairVerdict (s : State) (src : Writer) (lo : Nat) (same : Bool) (v : Nat) : Code :=
  let odd := v &&& refusedBits lo != 0
  if lo = Reg.pixDarkBaseLo then (if inStore v 0x8000000 && !odd then 0 else ePixDarkBase)
  else if lo = Reg.roiCropBaseLo then
    (if s.weaveOwns src && !same then eRoiRunning
     else if cropRingOk v (s.fld Reg.roiCropCfg 0 4) && !odd then 0 else eCropBase)
  else if lo = Reg.roiTriBaseLo then
    (if s.weaveOwns src && !same then eRoiRunning else if inStore v (8 * 133640) && !odd then 0 else eCropBase)
  else if s.weaveOwns src && !same then eServeRunning
  else if lo = Reg.serveAdpPoolLo then adpVerdict v s.adpSize
  else if lo = Reg.serveKvPoolLo then kvVerdict s v s.kvSize
  else if lo = Reg.serveParkPoolLo then parkVerdict s v s.parkSize
  else grmVerdict s v s.grmSize

/-- A write of _HI forms the whole value; accepted, both halves come in force together, refused, both stay. The stage
is cleared. -/
def pairWrite (src : Writer) (rw lo : Nat) (val : Word) (be : BitVec 4) (s : State) : State :=
  let w := s.stagedLo lo
  let hi := mergeBytes (s.reg (lo + 4)) val be &&& word rw
  let v := w.toNat + hi.toNat * 2 ^ 32
  let c := pairVerdict s src lo (v == s.pair lo (lo + 4)) v
  let s := clearStage lo s
  if c ≠ 0 then refuse c s else ((snapshotFor lo s).setReg lo w).setReg (lo + 4) hi

/-! ### Command registers -/

/-- Each set bit of `mask` runs its port's command, port N first. -/
def forPorts (mask : Nat) (f : Port → State → State) (s : State) : State :=
  allPorts.foldl (fun s p => if nbit mask (portNum p) then f p s else s) s

/-- PWR_CMD.ENTER: 0b00 has no effect; 0b11 is no state (R289). -/
def pwrEnter (code : Nat) (s : State) : State :=
  match code with
  | 0 => s
  | 1 => enterDoze s
  | 2 => enterSlumber s
  | _ => if s.weaveRuns then refuse ePwrRunning s else refuse ePwrStateCode s

/-- BOOT_CMD: more than one bit is refused once (Table Images-11). -/
def bootCmd (b : BitVec 4) (s : State) : State :=
  if bootMany b then refuse eBootKind s
  else bootStop b (bootLoad b (raiseFloor b (bootReboot b s)))

/-- Runs `f` when bit `i` is written as 1. -/
def onBit (w : Word) (i : Nat) (f : State → State) (s : State) : State := if w.getLsbD i then f s else s

/-- A write that a check refuses is refused whole: none of its bits acts (R2). -/
def wholeWrite (c : Code) (f : State → State) (s : State) : State := if c ≠ 0 then refuse c s else f s

/-- PIX_CMD (R97, R109, R111): bars first, then E_DARK_BUSY (R357). -/
def pixCmdVerdict (s : State) (w : Word) : Code :=
  if w.getLsbD 8 && darkVerdict s == ePixRunning then ePixRunning
  else if w.getLsbD 0 && decide (s.level < 1) then ePixLevel
  else if w.getLsbD 8 then darkVerdict s else 0

/-- FIELD_ENC_CMD (R103). -/
def encCmdVerdict (src : Writer) (s : State) (w : Word) : Code :=
  if w.getLsbD 1 && s.weaveOwns src then eFieldRunning else if w.getLsbD 0 then armAtVerdict src s else 0

/-- ROI_RULE_CMD (R115): the pending swap bars WRITE and SWAP; a rule's reserved bits refuse WRITE. -/
def ruleCmdVerdict (s : State) (w : Word) : Code :=
  if (w.getLsbD 0 || w.getLsbD 1) && s.roi.swap then eRuleSwap
  else if w.getLsbD 0 && (s.ruleData.toNat &&& ruleReserved) != 0 then eRuleField else 0

/-- WITHY_FWD_CMD (R63). DESIGN CHOICE (log entry 53): READ and WRITE in one write are refused, as the second finds the first
in progress. -/
def fwdCmdVerdict (s : State) (w : Word) : Code :=
  if (w.getLsbD 0 || w.getLsbD 1) && (s.flag Reg.withyFwdStatus 0 || (w.getLsbD 0 && w.getLsbD 1)) then eWithyRunning else 0

/-- A write of a command register; the bytes that are not enabled are zero (R351). None for other registers. -/
def commandWrite (src : Writer) (off : Nat) (w : Word) (s : State) : Option State :=
  if off = Reg.clkCmd then some (onBit w 0 clkApply s)
  else if off = Reg.timeCmd then some (onBit w 0 timeSet s)
  else if off = Reg.pwrCmd then some (pwrEnter (bits w 0 2) s)
  else if off = Reg.fuseCmd then
    some (fuseCommand (bits w 0 4) (bits w 16 9) (s.reg Reg.fuseWdata) (isSteward src) true s)
  else if off = Reg.bootCmd then some (bootCmd (BitVec.ofNat 4 (bits w 0 4)) s)
  else if off = Reg.withyCmd then some (forPorts (bits w 4 4) rekey (forPorts (bits w 0 4) retrain s))
  else if off = Reg.withyFwdCmd then
    some (wholeWrite (fwdCmdVerdict s w) (fun s => onBit w 1 (fwdStart true) (onBit w 0 (fwdStart false) s)) s)
  else if off = Reg.pixCmd then
    some (wholeWrite (pixCmdVerdict s w) (fun s => onBit w 8 darkCapture (onBit w 0 (snapWrite (BitVec.ofNat 2 (bits w 4 2))) s)) s)
  else if off = Reg.fieldEncCmd then
    some (wholeWrite (encCmdVerdict src s w) (fun s => onBit w 1 (armZ src) (onBit w 0 (armAt src) s)) s)
  else if off = Reg.roiRuleCmd then
    some (wholeWrite (ruleCmdVerdict s w) (fun s => onBit w 1 ruleSwap (onBit w 2 ruleRead (onBit w 0 ruleWrite s))) s)
  else if off = Reg.roiDiagCmd then some (onBit w 0 (diagCapture (BitVec.ofNat 2 (bits w 4 2))) s)
  else if off = Reg.wfeCmd then
    some (onBit w 3 (stopRun true) (onBit w 2 (stopRun false) (onBit w 1 (softStart true) (onBit w 0 (softStart false) s))))
  else if off = Reg.serveReqCmd then some (onBit w 0 reqRead s)
  else if off = Reg.serveParkCmd then some (onBit w 0 newKey s)
  else if off = Reg.faultCmd then some (onBit w 0 faultClear s)
  else none

/-! ### A write of one word -/

/-- BOOT_CTL.PAIR_OVERRIDE: a write that sets it is judged (R327); a write of 0 clears the bit (log entry 53). -/
def bootCtlWrite (val : Word) (be : BitVec 4) (s : State) : State :=
  let new := (mergeBytes (s.reg Reg.bootCtl) val be).getLsbD 0
  if new && !s.flag Reg.bootCtl 0 then pairOverride s
  else if new then s
  else s.setFlag Reg.bootCtl 0 false

/-- Registers judged whole by a rule of their own. None for other registers. -/
def ownWrite (off : Nat) (val : Word) (be : BitVec 4) (s : State) : Option State :=
  if off = Reg.timeBeatLen then some (timeBeatLenWrite val be s)
  else if off = Reg.timeBeatEpochHi then some (timeBeatEpochWrite val be s)
  else if off = Reg.bootCtl then some (bootCtlWrite val be s)
  else if off = Reg.hostRecCfg then some (recCfgWrite val be s)
  else if off = Reg.withyCrypt then some (cryptModeWrite val be s)
  else if off = Reg.wfeCtl then some (wfeCtlWrite val be s)
  else match indexIn (Reg.hostRingCfg 0) 32 64 off, indexIn (Reg.winCtl 0) 32 32 off with
    | some i, _ => some (ringCfgWrite i val be s)
    | none, some i => some (winCtlWrite (Fin.ofNat 32 i) val be s)
    | none, none => none

/-- The enabled bytes reach some bit that a write may change, or a reserved bit that a rule refuses (R3, R351). -/
def RegRow.reaches (r : RegRow) (off : Nat) (be : BitVec 4) : Bool :=
  enabledBytes (word (r.rw ||| r.w1c ||| r.wo ||| refusedBits off)) be != 0

/-- A write of one BAR0 word where the block answers: unclaimed offsets, writes that reach only reserved or read-only
bits, writes of the weave to WFE and stakes' HOST blocks change nothing (R7, R3, R152, R88), then staged pairs, registers with rules of their own, commands, and all others. -/
def bar0Write (src : Writer) (off : Nat) (val : Word) (be : BitVec 4) (s : State) : State :=
  match regRow off with
  | none => s
  | some r =>
    if !r.reaches off be then s
    else if src = .weave ∧ 0x10000 ≤ off ∧ off < 0x11000 then s
    else if 0x6000 ≤ off && off < 0x7000 && !s.anchor then refuse eHostStake s
    else if stagedPairs.contains off then stageLo r.rw off val be s
    else if off != Reg.timeBeatEpochHi && stagedPairs.contains (off - 4) then pairWrite src r.rw (off - 4) val be s
    else match ownWrite off val be s, commandWrite src off (enabledBytes val be) s with
      | some t, _ => t
      | none, some t => t
      | none, none => fieldsWrite src r off val be s

/-- REGISTER_WRITE (R357). -/
def execRegisterWrite (src : Writer) (off : BitVec 20) (val : Word) (be : BitVec 4) (s : State) : Outcome :=
  .next (gateWrite off.toNat (bar0Write src off.toNat val be) s)

/-- LO_STAGE_WRITE (R356): the write of the _LO word of a pair; of another offset it is any write. -/
def execLoStageWrite (src : Writer) (off : BitVec 20) (val : Word) (be : BitVec 4) (s : State) : Outcome :=
  .next (gateWrite off.toNat (fun s =>
    if stagedPairs.contains off.toNat then
      match regRow off.toNat with
      | some r => if !r.reaches off.toNat be then s else stageLo r.rw off.toNat val be s
      | none => s
    else bar0Write src off.toNat val be s) s)

/-! ### Forwarded access (R63) -/

/-- Blocks that answer a forwarded access on an outsider (R52). -/
def outsiderBlock (off : Nat) : Bool :=
  off < 0x1000 || (0x4000 ≤ off && off < 0x6000) || (0x8000 ≤ off && off < 0x9000)

/-- A forwarded access is carried out as a local one, and its response goes back; a package that does not serve BAR0
answers nothing, and a block that does not answer while waking reads as zero (R294). -/
def forwardedAccess (origin : BitVec 6) (off : Nat) (write : Option Word) (s : State) : State :=
  if s.basket.outsider && !outsiderBlock off then (latch eFwdOutsider 0 s).emit (.fwdResponse origin eFwdOutsider 0)
  else if s.answers off then
    match write with
    | some v => (bar0Write .host off v 0xF s).emit (.fwdResponse origin 0 0)
    | none =>
      let r := bar0Read off s
      r.1.emit (.fwdResponse origin 0 r.2)
  else match s.power.phase with
    | .waking => s.emit (.fwdResponse origin 0 0)
    | .dozeWaking => s.emit (.fwdResponse origin 0 0)
    | _ => s

/-- FORWARDED_ACCESS (R63). -/
def execForwardedAccess (origin : BitVec 6) (off : BitVec 20) (write : Option Word) (s : State) : Outcome :=
  .next (forwardedAccess origin off.toNat write s)

end Sys2Proof.Machine
end

