-- ==== Sys2Proof/Machine/Dispatch.lean ====
section
/-!
DEFINITION. Dispatch.lean: the meaning of each command, one arm per row of spec/opcode_table.json.
-/

namespace Sys2Proof.Machine

/-- The command's effect on everything but the queue. -/
def exec (i : Instr) (s : State) : Host.Outcome State Fault Refusal :=
  match i with
  | .coldStart pkgId anchorEn => Sys2Proof.Machine.execColdStart pkgId anchorEn s
  | .strapResample pkgId anchorEn => Sys2Proof.Machine.execStrapResample pkgId anchorEn s
  | .pgoodRise group => Sys2Proof.Machine.execPgoodRise group s
  | .railTimeout group => Sys2Proof.Machine.execRailTimeout group s
  | .faultBeacon => Sys2Proof.Machine.execFaultBeacon s
  | .pllLock plls sfdp => Sys2Proof.Machine.execPllLock plls sfdp s
  | .imageVerifyDone => Sys2Proof.Machine.execImageVerifyDone s
  | .selftestDone result => Sys2Proof.Machine.execSelftestDone result s
  | .calLoadDone => Sys2Proof.Machine.execCalLoadDone s
  | .perstAssert => Sys2Proof.Machine.execPerstAssert s
  | .bootReboot bits => Sys2Proof.Machine.execBootReboot bits s
  | .bootRaiseFloor bits => Sys2Proof.Machine.execBootRaiseFloor bits s
  | .bootLoad bits => Sys2Proof.Machine.execBootLoad bits s
  | .bootStop bits => Sys2Proof.Machine.execBootStop bits s
  | .pairOverride => Sys2Proof.Machine.execPairOverride s
  | .registerWrite src off val be => Sys2Proof.Machine.execRegisterWrite src off val be s
  | .loStageWrite src off val be => Sys2Proof.Machine.execLoStageWrite src off val be s
  | .rcFieldRead bar2 off => Sys2Proof.Machine.execRcFieldRead bar2 off s
  | .clkApply => Sys2Proof.Machine.execClkApply s
  | .pllRelock => Sys2Proof.Machine.execPllRelock s
  | .pllRelockDone => Sys2Proof.Machine.execPllRelockDone s
  | .pllLockLoss pll => Sys2Proof.Machine.execPllLockLoss pll s
  | .refFail src => Sys2Proof.Machine.execRefFail src s
  | .aclkMeasure refPeriods => Sys2Proof.Machine.execAclkMeasure refPeriods s
  | .timeNowLoRead => Sys2Proof.Machine.execTimeNowLoRead s
  | .timeBeatNumLoRead => Sys2Proof.Machine.execTimeBeatNumLoRead s
  | .timeBeatStampLoRead => Sys2Proof.Machine.execTimeBeatStampLoRead s
  | .timeSet => Sys2Proof.Machine.execTimeSet s
  | .timeStepApply => Sys2Proof.Machine.execTimeStepApply s
  | .timeBeatLenWrite val be => Sys2Proof.Machine.execTimeBeatLenWrite val be s
  | .timeBeatEpochWrite val be => Sys2Proof.Machine.execTimeBeatEpochWrite val be s
  | .beatValuesApply => Sys2Proof.Machine.execBeatValuesApply s
  | .beatStart => Sys2Proof.Machine.execBeatStart s
  | .alignAchieved offset => Sys2Proof.Machine.execAlignAchieved offset s
  | .alignLoss offset => Sys2Proof.Machine.execAlignLoss offset s
  | .whisperTimeTx => Sys2Proof.Machine.execWhisperTimeTx s
  | .whisperTime port msg => Sys2Proof.Machine.execWhisperTime port msg s
  | .whisperWake port msg => Sys2Proof.Machine.execWhisperWake port msg s
  | .whisperSleep port msg => Sys2Proof.Machine.execWhisperSleep port msg s
  | .whisperPresence port msg => Sys2Proof.Machine.execWhisperPresence port msg s
  | .portEnable port => Sys2Proof.Machine.execPortEnable port s
  | .portDisable port => Sys2Proof.Machine.execPortDisable port s
  | .trainingComplete port lanes d peer => Sys2Proof.Machine.execTrainingComplete port lanes d peer s
  | .trainRetry port => Sys2Proof.Machine.execTrainRetry port s
  | .laneFailure port lane hasStatic => Sys2Proof.Machine.execLaneFailure port lane hasStatic s
  | .retrain port => Sys2Proof.Machine.execRetrain port s
  | .rekey port => Sys2Proof.Machine.execRekey port s
  | .counterWrap port => Sys2Proof.Machine.execCounterWrap port s
  | .keyx port word => Sys2Proof.Machine.execKeyx port word s
  | .keyExchangeDone port ok => Sys2Proof.Machine.execKeyExchangeDone port ok s
  | .cryptModeWrite val be => Sys2Proof.Machine.execCryptModeWrite val be s
  | .linkFrame port f => Sys2Proof.Machine.execLinkFrame port f s
  | .looseForward port => Sys2Proof.Machine.execLooseForward port s
  | .hostFwdReq msg data => Sys2Proof.Machine.execHostFwdReq msg data s
  | .hostFwdRsp msg => Sys2Proof.Machine.execHostFwdRsp msg s
  | .hostFwdTimeout id => Sys2Proof.Machine.execHostFwdTimeout id s
  | .winWrite req => Sys2Proof.Machine.execWinWrite req s
  | .winRead req => Sys2Proof.Machine.execWinRead req s
  | .winResp msg => Sys2Proof.Machine.execWinResp msg s
  | .winNak msg => Sys2Proof.Machine.execWinNak msg s
  | .winCtlWrite win val be => Sys2Proof.Machine.execWinCtlWrite win val be s
  | .halt port word => Sys2Proof.Machine.execHalt port word s
  | .resume port word => Sys2Proof.Machine.execResume port word s
  | .knot word => Sys2Proof.Machine.execKnot word s
  | .join port word hops serial develop authOk => Sys2Proof.Machine.execJoin port word hops serial develop authOk s
  | .joinReply port word mode mult spread => Sys2Proof.Machine.execJoinReply port word mode mult spread s
  | .presence port word => Sys2Proof.Machine.execPresence port word s
  | .presenceFlood => Sys2Proof.Machine.execPresenceFlood s
  | .principalClaim => Sys2Proof.Machine.execPrincipalClaim s
  | .joinRetry => Sys2Proof.Machine.execJoinRetry s
  | .joinSwitch belt => Sys2Proof.Machine.execJoinSwitch belt s
  | .timeStepWord port word => Sys2Proof.Machine.execTimeStepWord port word s
  | .timeBeatWord port word => Sys2Proof.Machine.execTimeBeatWord port word s
  | .timeClockWord port word => Sys2Proof.Machine.execTimeClockWord port word s
  | .fwdRead => Sys2Proof.Machine.execFwdRead s
  | .fwdWrite => Sys2Proof.Machine.execFwdWrite s
  | .fwdResponse code data => Sys2Proof.Machine.execFwdResponse code data s
  | .fwdTimeout => Sys2Proof.Machine.execFwdTimeout s
  | .flr => Sys2Proof.Machine.execFlr s
  | .bmeClear => Sys2Proof.Machine.execBmeClear s
  | .bmeSet => Sys2Proof.Machine.execBmeSet s
  | .ringEnable ring val be => Sys2Proof.Machine.execRingEnable ring val be s
  | .ringDisable ring val be => Sys2Proof.Machine.execRingDisable ring val be s
  | .doorbellPoll => Sys2Proof.Machine.execDoorbellPoll s
  | .doorbellReadDone ring result => Sys2Proof.Machine.execDoorbellReadDone ring result s
  | .descriptorFetch ring => Sys2Proof.Machine.execDescriptorFetch ring s
  | .descriptorFetchDone ring result => Sys2Proof.Machine.execDescriptorFetchDone ring result s
  | .descriptorStart id => Sys2Proof.Machine.execDescriptorStart id s
  | .knotWaitTimeout id => Sys2Proof.Machine.execKnotWaitTimeout id s
  | .forwardResend id => Sys2Proof.Machine.execForwardResend id s
  | .nop id => Sys2Proof.Machine.execNop id s
  | .identity id => Sys2Proof.Machine.execIdentity id s
  | .status id => Sys2Proof.Machine.execStatus id s
  | .selftest id => Sys2Proof.Machine.execSelftest id s
  | .flashErase id => Sys2Proof.Machine.execFlashErase id s
  | .flashWrite id src badPage => Sys2Proof.Machine.execFlashWrite id src badPage s
  | .imageCommit id readBackOk fuse => Sys2Proof.Machine.execImageCommit id readBackOk fuse s
  | .knotSet id => Sys2Proof.Machine.execKnotSet id s
  | .knotRead id => Sys2Proof.Machine.execKnotRead id s
  | .mirror id => Sys2Proof.Machine.execMirror id s
  | .weaveLoad id => Sys2Proof.Machine.execWeaveLoad id s
  | .grammarLoad id table => Sys2Proof.Machine.execGrammarLoad id table s
  | .adapterLoad id blob => Sys2Proof.Machine.execAdapterLoad id blob s
  | .tenantCfg id => Sys2Proof.Machine.execTenantCfg id s
  | .regionReq id crops => Sys2Proof.Machine.execRegionReq id crops s
  | .deferredEntryPost => Sys2Proof.Machine.execDeferredEntryPost s
  | .stakeEventSend => Sys2Proof.Machine.execStakeEventSend s
  | .coalesceTimeout ring => Sys2Proof.Machine.execCoalesceTimeout ring s
  | .knotSignal knot amount dst => Sys2Proof.Machine.execKnotSignal knot amount dst s
  | .mirrorWrite knot => Sys2Proof.Machine.execMirrorWrite knot s
  | .recRingEnable val be => Sys2Proof.Machine.execRecRingEnable val be s
  | .recRingDisable val be => Sys2Proof.Machine.execRecRingDisable val be s
  | .recordWrite => Sys2Proof.Machine.execRecordWrite s
  | .lingerExpiry req => Sys2Proof.Machine.execLingerExpiry req s
  | .fieldInputEdge input level => Sys2Proof.Machine.execFieldInputEdge input level s
  | .evqPop => Sys2Proof.Machine.execEvqPop s
  | .encoderEdge sample => Sys2Proof.Machine.execEncoderEdge sample s
  | .zPulse sample => Sys2Proof.Machine.execZPulse sample s
  | .encLoss => Sys2Proof.Machine.execEncLoss s
  | .encSignalReturn => Sys2Proof.Machine.execEncSignalReturn s
  | .armAt src => Sys2Proof.Machine.execArmAt src s
  | .armZ src => Sys2Proof.Machine.execArmZ src s
  | .presetLoad => Sys2Proof.Machine.execPresetLoad s
  | .snap => Sys2Proof.Machine.execSnap s
  | .darkCapture src => Sys2Proof.Machine.execDarkCapture src s
  | .darkCaptureDone sums => Sys2Proof.Machine.execDarkCaptureDone sums s
  | .integrationStart => Sys2Proof.Machine.execIntegrationStart s
  | .integrationEnd => Sys2Proof.Machine.execIntegrationEnd s
  | .readoutEnd rows => Sys2Proof.Machine.execReadoutEnd rows s
  | .strobeStart strobe => Sys2Proof.Machine.execStrobeStart strobe s
  | .strobeEnd strobe => Sys2Proof.Machine.execStrobeEnd strobe s
  | .syncPulseStart sync => Sys2Proof.Machine.execSyncPulseStart sync s
  | .syncPulseEnd sync => Sys2Proof.Machine.execSyncPulseEnd sync s
  | .beltSecond => Sys2Proof.Machine.execBeltSecond s
  | .fieldEncPosLoRead => Sys2Proof.Machine.execFieldEncPosLoRead s
  | .regionList entries => Sys2Proof.Machine.execRegionList entries s
  | .cropCut parcel => Sys2Proof.Machine.execCropCut parcel s
  | .cropDone slot => Sys2Proof.Machine.execCropDone slot s
  | .cropHoldExpiry slot fate => Sys2Proof.Machine.execCropHoldExpiry slot fate s
  | .ruleWrite => Sys2Proof.Machine.execRuleWrite s
  | .ruleSwap => Sys2Proof.Machine.execRuleSwap s
  | .ruleRead => Sys2Proof.Machine.execRuleRead s
  | .swapApply => Sys2Proof.Machine.execSwapApply s
  | .profileExtract setup window parcel barrierPos => Sys2Proof.Machine.execProfileExtract setup window parcel barrierPos s
  | .profileFuse points => Sys2Proof.Machine.execProfileFuse points s
  | .boxFit parcel => Sys2Proof.Machine.execBoxFit parcel s
  | .recordAssembly parcel => Sys2Proof.Machine.execRecordAssembly parcel s
  | .diagCapture setup => Sys2Proof.Machine.execDiagCapture setup s
  | .diagWrite => Sys2Proof.Machine.execDiagWrite s
  | .coreHostWrite core addr => Sys2Proof.Machine.execCoreHostWrite core addr s
  | .wfeEnable val be => Sys2Proof.Machine.execWfeEnable val be s
  | .refSettledTimer sense => Sys2Proof.Machine.execRefSettledTimer sense s
  | .excTrip => Sys2Proof.Machine.execExcTrip s
  | .comparatorChange cmp microvolts => Sys2Proof.Machine.execComparatorChange cmp microvolts s
  | .startA => Sys2Proof.Machine.execStartA s
  | .startB => Sys2Proof.Machine.execStartB s
  | .stopA => Sys2Proof.Machine.execStopA s
  | .stopB => Sys2Proof.Machine.execStopB s
  | .runStart conv => Sys2Proof.Machine.execRunStart conv s
  | .resultWrite conv ints => Sys2Proof.Machine.execResultWrite conv ints s
  | .rotationDue => Sys2Proof.Machine.execRotationDue s
  | .rotationHandover => Sys2Proof.Machine.execRotationHandover s
  | .calibrationDone ints => Sys2Proof.Machine.execCalibrationDone ints s
  | .spRow core acc => Sys2Proof.Machine.execSpRow core acc s
  | .spRowMasked core acc mask => Sys2Proof.Machine.execSpRowMasked core acc mask s
  | .spColumn core acc transpose esize => Sys2Proof.Machine.execSpColumn core acc transpose esize s
  | .spNarrow core acc len => Sys2Proof.Machine.execSpNarrow core acc len s
  | .rSlotServe core cycle upsets => Sys2Proof.Machine.execRSlotServe core cycle upsets s
  | .gWriteback core cycle upsets => Sys2Proof.Machine.execGWriteback core cycle upsets s
  | .ceWriteback core cycle upsets => Sys2Proof.Machine.execCeWriteback core cycle upsets s
  | .pass core word cycle errs dets => Sys2Proof.Machine.execPass core word cycle errs dets s
  | .feedRowq core array bcast offset column cycle upsets => Sys2Proof.Machine.execFeedRowq core array bcast offset column cycle upsets s
  | .feedColq core array bcast offset column cycle upsets => Sys2Proof.Machine.execFeedColq core array bcast offset column cycle upsets s
  | .feedLoad core array bcast n bf16 offset column cycle upsets => Sys2Proof.Machine.execFeedLoad core array bcast n bf16 offset column cycle upsets s
  | .drain core ins => Sys2Proof.Machine.execDrain core ins s
  | .qload core p offset cycle upsets => Sys2Proof.Machine.execQload core p offset cycle upsets s
  | .xload core offset format cycle upsets => Sys2Proof.Machine.execXload core offset format cycle upsets s
  | .sdot core instr => Sys2Proof.Machine.execSdot core instr s
  | .sout core p offset format cycle => Sys2Proof.Machine.execSout core p offset format cycle s
  | .apxset core k => Sys2Proof.Machine.execApxset core k s
  | .checksumVerdict core array => Sys2Proof.Machine.execChecksumVerdict core array s
  | .tallyVerdict core array => Sys2Proof.Machine.execTallyVerdict core array s
  | .convExecute core desc cycle rounds upsets => Sys2Proof.Machine.execConvExecute core desc cycle rounds upsets s
  | .resampleExecute core desc upsets => Sys2Proof.Machine.execResampleExecute core desc upsets s
  | .plaitDecode core x => Sys2Proof.Machine.execPlaitDecode core x s
  | .plaitEncode core x => Sys2Proof.Machine.execPlaitEncode core x s
  | .stepBoundary crops views => Sys2Proof.Machine.execStepBoundary crops views s
  | .placeReport word checkOk list => Sys2Proof.Machine.execPlaceReport word checkOk list s
  | .orderChunk word owner entry pages adapters => Sys2Proof.Machine.execOrderChunk word owner entry pages adapters s
  | .orderDecode word owner entry tokens logits pages adapters => Sys2Proof.Machine.execOrderDecode word owner entry tokens logits pages adapters s
  | .orderShip word owner entry => Sys2Proof.Machine.execOrderShip word owner entry s
  | .orderParkStore word owner => Sys2Proof.Machine.execOrderParkStore word owner s
  | .orderParkHost word owner => Sys2Proof.Machine.execOrderParkHost word owner s
  | .orderUnpark word owner entry slot => Sys2Proof.Machine.execOrderUnpark word owner entry slot s
  | .orderDrop word owner => Sys2Proof.Machine.execOrderDrop word owner s
  | .kvShipList msg => Sys2Proof.Machine.execKvShipList msg s
  | .kvShipPages msg => Sys2Proof.Machine.execKvShipPages msg s
  | .kvShipEnd msg => Sys2Proof.Machine.execKvShipEnd msg s
  | .kvShipAck msg => Sys2Proof.Machine.execKvShipAck msg s
  | .kvShipNak msg => Sys2Proof.Machine.execKvShipNak msg s
  | .parkCopyDone owner req => Sys2Proof.Machine.execParkCopyDone owner req s
  | .hostParkMove holder parkFree => Sys2Proof.Machine.execHostParkMove holder parkFree s
  | .newKey => Sys2Proof.Machine.execNewKey s
  | .reqRead => Sys2Proof.Machine.execReqRead s
  | .serveStepNumLoRead => Sys2Proof.Machine.execServeStepNumLoRead s
  | .localFault f => Sys2Proof.Machine.execLocalFault f s
  | .recoveryDone r => Sys2Proof.Machine.execRecoveryDone r s
  | .watchdogExpiry => Sys2Proof.Machine.execWatchdogExpiry s
  | .railFault => Sys2Proof.Machine.execRailFault s
  | .packageFatal => Sys2Proof.Machine.execPackageFatal s
  | .faultClear => Sys2Proof.Machine.execFaultClear s
  | .weaveImageReadDone img => Sys2Proof.Machine.execWeaveImageReadDone img s
  | .weaveMemberCheckDone img start => Sys2Proof.Machine.execWeaveMemberCheckDone img start s
  | .pwrEnterDoze => Sys2Proof.Machine.execPwrEnterDoze s
  | .pwrEnterSlumber => Sys2Proof.Machine.execPwrEnterSlumber s
  | .powerEntryComplete => Sys2Proof.Machine.execPowerEntryComplete s
  | .pcieWake => Sys2Proof.Machine.execPcieWake s
  | .wakeTimer => Sys2Proof.Machine.execWakeTimer s
  | .fieldInputWake input level => Sys2Proof.Machine.execFieldInputWake input level s
  | .wakeComplete result => Sys2Proof.Machine.execWakeComplete result s
  | .dozeWakeComplete => Sys2Proof.Machine.execDozeWakeComplete s
  | .sensorSample p l => Sys2Proof.Machine.execSensorSample p l s
  | .thermalAlternate => Sys2Proof.Machine.execThermalAlternate s
  | .thermalTrip => Sys2Proof.Machine.execThermalTrip s
  | .thermalReturn => Sys2Proof.Machine.execThermalReturn s
  | .fuseRead src word => Sys2Proof.Machine.execFuseRead src word s
  | .fuseProgram src word vioOk => Sys2Proof.Machine.execFuseProgram src word vioOk s
  | .fuseVerify src word => Sys2Proof.Machine.execFuseVerify src word s
  | .fuseRepair src word vioOk => Sys2Proof.Machine.execFuseRepair src word vioOk s
  | .fuseAdvance src word vioOk => Sys2Proof.Machine.execFuseAdvance src word vioOk s
  | .fuseCtrSet src word vioOk => Sys2Proof.Machine.execFuseCtrSet src word vioOk s
  | .fuseCtrRead src word => Sys2Proof.Machine.execFuseCtrRead src word s
  | .fuseCmdDone outcome => Sys2Proof.Machine.execFuseCmdDone outcome s
  | .bscanInstruction ir => Sys2Proof.Machine.execBscanInstruction ir s
  | .testLogicReset => Sys2Proof.Machine.execTestLogicReset s
  | .forwardedDescriptor anchor num desc limitMs => Sys2Proof.Machine.execForwardedDescriptor anchor num desc limitMs s
  | .forwardedDescriptorAnswer id answer => Sys2Proof.Machine.execForwardedDescriptorAnswer id answer s
  | .forwardedAccess origin off write => Sys2Proof.Machine.execForwardedAccess origin off write s
  | .vectorUnmask w => Sys2Proof.Machine.execVectorUnmask w s
  | .resetNAssert => Sys2Proof.Machine.execResetNAssert s

end Sys2Proof.Machine
end

