-- ==== Sys2Proof/Machine/Tick.lean ====
section
/-!
DEFINITION. Tick.lean: what time does while no command waits: belt time advances by one p-cycle, or by one a-tick
while the PLLs are stopped (R31, R30), link frames pass and let queued CTRL words out (R58, R59). Everything else
that falls due at a time is a command of its own (log entries 3 and 20).
-/

namespace Sys2Proof.Machine

/-- The part of the pending alignment correction that one p-cycle takes in: at most 1,000 ppm (R34). -/
def slewStep (v : Int) : Int := clampI (-163) 163 v

/-- CTRL words leave in service words 2 to 5, each as its lane carries it (R46, R59). -/
def sendCtrlWords (p : Port) (x : LinkPort) : Nat → List LinkWord → State → State
  | _, [], s => s
  | n, w :: ws, s => sendCtrlWords p x (n + 1) ws (s.emit (.ctrl p n (x.scramble n w)))

/-- The words of a local stream leave in the eight positions of a slot, as far as it has words; the rest is IDLE (R49). -/
def streamSlot (p : Port) (f slot n : Nat) (s : State) : State :=
  let ws := smGet [] s.basket.streams n
  let s := { s with basket := { s.basket with streams := smSet [] s.basket.streams n (ws.drop 8) } }
  (ws.take 8).zipIdx.foldl (fun s (x : LinkWord × Nat) =>
    s.emit (.static p f (8 * slot + x.2) ((s.port p).scramble (8 * slot + x.2) x.1))) s

/-- The slots of frame `f` that carry local streams on an egress port of the running weave (R49). -/
def localSlots (p : Port) (f : Nat) (s : State) : State :=
  match s.weave.run with
  | none => s
  | some d =>
    if s.weaveActive && s.staticPasses (s.port p) then
      (d.ports.filter (fun o => o.pkg == s.pkg && o.port == p)).foldl (fun s o =>
        (slotEntry s o.table f).zipIdx.foldl (fun s (k : SlotKind × Nat) => match k.1 with
          | .staticLocal n => if 8 * (k.2 + 2) ≤ (s.port p).positions then streamSlot p f (k.2 + 1) n s else s
          | _ => s) s) s
    else s

/-- Frame `f` starts on a port: the session counter counts, at most four queued CTRL words leave, and the local streams
fill their slots (R49, R58, R59). -/
def framePass (f : Nat) (p : Port) (s : State) : State :=
  let x := s.port p
  if x.up then
    localSlots p f (sendCtrlWords p x 2 (x.ctrlq.take 4)
      (s.setPort p { x with ctr := x.ctr + 1, ctrlq := x.ctrlq.drop 4 }))
  else s

/-- One frame starts on every port; stalled engines and waiting messages then find their places (R55, R59). -/
def framesPass (f : Nat) (s : State) : State :=
  let s := unstall (allPorts.foldl (fun s p => framePass f p s) s)
  drainOutbox s.basket.outbox s

/-- Belt time (2^-16 ns) of the next p-cycle edge, before slewing: multiples of 2.5 ns but for the correction taken in so
far (R358). -/
def State.nextEdge (s : State) : Int := ((s.nowFp - s.time.corr) / 163840 + 1) * 163840 + s.time.corr

/-- A clock edge: what hardware set in the cycle before is no set of this cycle any more (R5, R6). -/
def newCycle (s : State) : State := { s with sets := [] }

/-- One p-cycle: belt time goes on to the next p-cycle edge, plus slewing (R34, R358); sync outputs take the input levels
due on them (R108), a SNAP write that has waited 61 p-cycles triggers (R109), and stopped runs end (R141). -/
def pCycle (s : State) : State :=
  let d := slewStep s.time.slew
  let t := s.nowFp
  let t' := (s.nextEdge + d).toNat
  let s := { newCycle s with time := { s.time with belt := BitVec.ofNat 80 t', pcyc := s.time.pcyc + 1,
                                                   slew := s.time.slew - d, corr := s.time.corr + d } }
  let s := endStopped (driveCopies s)
  let s := if s.fieldOn then snapTrigger 61 s else s
  if t / (65 * 65536) < t' / (65 * 65536) then framesPass (t' / (65 * 65536)) s else s

/-- One a-tick: TIME_AON_INC of belt time, slewed by at most 1,000 ppm (R30, R34, R37). -/
def aTick (s : State) : State :=
  let inc := (s.reg Reg.timeAonInc).toNat
  let d := clampI (-(inc / 1000 : Nat)) (inc / 1000 : Nat) s.time.slew
  { newCycle s with time := { s.time with belt := BitVec.ofNat 80 (Int.ofNat (s.nowFp + inc) + d).toNat,
                                          aticks := s.time.aticks + 1, slew := s.time.slew - d,
                                          corr := s.time.corr + d } }

/-- Time passes while no command waits (log entry 3). Belt time stands still with RESET_N low. DESIGN CHOICE (log entry 63):
while the pixel PLL has lost its lock there are no p-cycle edges, and belt time advances at a-ticks as in a sleep. -/
def tick (s : State) : State :=
  match s.power.phase with
  | .inReset => s
  | _ => if s.pllsRun then pCycle s else aTick s

end Sys2Proof.Machine
end

