-- ==== Sys2Proof/Laws/Sparse.lean ====
section
/-!
SUPPORT. Sparse.lean (laws): reading after writing in a sparse map, and that every operation on it keeps the canonical
form.
-/

namespace Sys2Proof.Machine

variable {α : Type} [DecidableEq α]

/-- In a canonical map every key is above the head's. -/
theorem smWf_tail {d : Nat → α} {p : Nat × α} {m : SMap α} (h : smWf d (p :: m) = true) : smWf d m = true := by
  obtain ⟨k, v⟩ := p
  cases m with
  | nil => rfl
  | cons q m => obtain ⟨j, w⟩ := q; simp [smWf] at h; exact h.2

theorem smWf_lt {d : Nat → α} {k j : Nat} {v w : α} {m : SMap α} (h : smWf d ((k, v) :: (j, w) :: m) = true) : k < j := by
  simp [smWf] at h; exact h.1.2

theorem smWf_ne {d : Nat → α} {k : Nat} {v : α} {m : SMap α} (h : smWf d ((k, v) :: m) = true) : v ≠ d k := by
  cases m with
  | nil => simpa [smWf] using h
  | cons q m => obtain ⟨j, w⟩ := q; simp [smWf] at h; exact h.1.1

theorem smWf_cons {d : Nat → α} {k : Nat} {v : α} {m : SMap α} (hv : v ≠ d k) (hm : smWf d m = true)
    (hk : ∀ q ∈ m, k < q.1) : smWf d ((k, v) :: m) = true := by
  cases m with
  | nil => simpa [smWf] using hv
  | cons q m => obtain ⟨j, w⟩ := q; simp [smWf]; exact ⟨⟨hv, hk (j, w) (by simp)⟩, hm⟩

theorem smWf_head_lt {d : Nat → α} {k : Nat} {v : α} {m : SMap α} (h : smWf d ((k, v) :: m) = true) :
    ∀ q ∈ m, k < q.1 := by
  induction m generalizing k v with
  | nil => simp
  | cons q m ih =>
    obtain ⟨j, w⟩ := q
    intro q hq
    have hlt := smWf_lt h
    rcases List.mem_cons.1 hq with rfl | hq
    · exact hlt
    · exact Nat.lt_trans hlt (ih (smWf_tail h) q hq)

/-- A key below every key of a map reads as the default. -/
theorem smGet_below (d : α) {m : SMap α} {k : Nat} (h : ∀ q ∈ m, k < q.1) : smGet d m k = d := by
  cases m with
  | nil => rfl
  | cons q m => obtain ⟨j, w⟩ := q; have := h _ (List.mem_cons_self ..); simp [smGet]; intro h'; simp at this; omega

/-- The keys of a map after a write. -/
theorem mem_smSet {d : α} {m : SMap α} {k : Nat} {v : α} {q : Nat × α} (h : q ∈ smSet d m k v) : q = (k, v) ∨ q ∈ m := by
  induction m with
  | nil => simp only [smSet] at h; split at h <;> simp_all
  | cons p m ih =>
    obtain ⟨j, w⟩ := p
    simp only [smSet] at h
    split at h
    · split at h
      · exact .inr h
      · rcases List.mem_cons.1 h with h | h
        · exact .inl h
        · exact .inr h
    · split at h
      · split at h
        · exact .inr (List.mem_cons_of_mem _ h)
        · rcases List.mem_cons.1 h with h | h
          · exact .inl h
          · exact .inr (List.mem_cons_of_mem _ h)
      · rcases List.mem_cons.1 h with h | h
        · exact .inr (by simp [h])
        · rcases ih h with h | h
          · exact .inl h
          · exact .inr (List.mem_cons_of_mem _ h)

/-- A write keeps the canonical form, if it uses the default of its key. -/
theorem smSet_wf {d : Nat → α} {m : SMap α} {k : Nat} {v : α} (h : smWf d m = true) : smWf d (smSet (d k) m k v) = true := by
  induction m with
  | nil => simp only [smSet]; split <;> simp_all [smWf]
  | cons p m ih =>
    obtain ⟨j, w⟩ := p
    simp only [smSet]
    split
    · split
      · exact h
      · rename_i hkj hv
        exact smWf_cons hv h (by
          intro q hq
          rcases List.mem_cons.1 hq with rfl | hq
          · exact hkj
          · exact Nat.lt_trans hkj (smWf_head_lt h q hq))
    · split
      · rename_i hkj
        subst hkj
        split
        · exact smWf_tail h
        · rename_i hv; exact smWf_cons hv (smWf_tail h) (smWf_head_lt h)
      · rename_i h1 h2
        refine smWf_cons (smWf_ne h) (ih (smWf_tail h)) ?_
        intro q hq
        rcases mem_smSet hq with rfl | hq
        · simp; omega
        · exact smWf_head_lt h q hq

/-- A read after a write of the same key gives the value written. -/
theorem smGet_smSet {d : Nat → α} {m : SMap α} {k : Nat} {v : α} (h : smWf d m = true) :
    smGet (d k) (smSet (d k) m k v) k = v := by
  induction m with
  | nil => simp only [smSet]; split <;> simp_all [smGet]
  | cons p m ih =>
    obtain ⟨j, w⟩ := p
    simp only [smSet]
    split
    · split
      · simp_all [smGet]
      · simp [smGet]
    · split
      · rename_i hkj
        subst hkj
        split
        · rename_i hv; rw [hv]; exact smGet_below _ (smWf_head_lt h)
        · simp [smGet]
      · simp_all [smGet, smWf_tail h]

/-- A write leaves every other key alone. -/
theorem smGet_smSet_ne {d : Nat → α} {m : SMap α} {k l : Nat} {v e : α} (h : smWf d m = true) (hl : l ≠ k) :
    smGet e (smSet (d k) m k v) l = smGet e m l := by
  induction m with
  | nil => simp only [smSet]; split <;> simp_all [smGet]
  | cons p m ih =>
    obtain ⟨j, w⟩ := p
    simp only [smSet]
    split
    · split
      · rfl
      · rename_i hkj _
        simp only [smGet]
        by_cases h1 : l < k
        · rw [if_pos h1, if_pos (by omega)]
        · rw [if_neg h1, if_neg hl]
    · split
      · rename_i hkj
        subst hkj
        split
        · simp only [smGet]
          by_cases h1 : l < k
          · rw [if_pos h1]
            exact smGet_below _ (fun q hq => Nat.lt_trans h1 (smWf_head_lt h q hq))
          · rw [if_neg h1, if_neg hl]
        · simp only [smGet, if_neg hl]
      · simp only [smGet, ih (smWf_tail h)]

/-- Keys that are dropped leave a canonical map. -/
theorem smWf_filter {d : Nat → α} {m : SMap α} (p : Nat × α → Bool) (h : smWf d m = true) : smWf d (m.filter p) = true := by
  induction m with
  | nil => rfl
  | cons q m ih =>
    obtain ⟨k, v⟩ := q
    simp only [List.filter]
    split
    · exact smWf_cons (smWf_ne h) (ih (smWf_tail h)) (fun q hq => smWf_head_lt h q (List.mem_filter.1 hq).1)
    · exact ih (smWf_tail h)

/-- Writes of consecutive keys keep the canonical form. -/
theorem smSetAll_wf {d : α} {m : SMap α} {k : Nat} {vs : List α} (h : smWf (fun _ => d) m = true) :
    smWf (fun _ => d) (smSetAll d m k vs) = true := by
  induction vs generalizing m k with
  | nil => exact h
  | cons v vs ih => exact ih (smSet_wf (d := fun _ => d) h)

/-- Writes of consecutive keys leave every other key alone. -/
theorem smGet_smSetAll_ne {d e : α} {m : SMap α} {k l : Nat} {vs : List α} (h : smWf (fun _ => d) m = true)
    (hl : l < k ∨ k + vs.length ≤ l) : smGet e (smSetAll d m k vs) l = smGet e m l := by
  induction vs generalizing m k with
  | nil => rfl
  | cons v vs ih =>
    simp only [List.length_cons] at hl
    simp only [smSetAll]
    rw [ih (smSet_wf (d := fun _ => d) h) (by omega), smGet_smSet_ne (d := fun _ => d) h (by omega)]

/-- Reading back what consecutive writes stored. -/
theorem smGetAll_smSetAll {d : α} {m : SMap α} {k : Nat} {vs : List α} (h : smWf (fun _ => d) m = true) :
    smGetAll d (smSetAll d m k vs) k vs.length = vs := by
  induction vs generalizing m k with
  | nil => rfl
  | cons v vs ih =>
    simp only [List.length_cons, smGetAll, smSetAll]
    rw [ih (smSet_wf (d := fun _ => d) h),
      smGet_smSetAll_ne (smSet_wf (d := fun _ => d) h) (by omega), smGet_smSet (d := fun _ => d) h]

/-- A map with the same reads at every key is the same map. -/
theorem smExt {d : Nat → α} {m n : SMap α} (hm : smWf d m = true) (hn : smWf d n = true)
    (h : ∀ k, smGet (d k) m k = smGet (d k) n k) : m = n := by
  induction m generalizing n with
  | nil =>
    cases n with
    | nil => rfl
    | cons q n =>
      obtain ⟨j, w⟩ := q
      have := h j
      simp [smGet] at this
      exact absurd this.symm (smWf_ne hn)
  | cons p m ih =>
    obtain ⟨k, v⟩ := p
    cases n with
    | nil =>
      have := h k
      simp [smGet] at this
      exact absurd this (smWf_ne hm)
    | cons q n =>
      obtain ⟨j, w⟩ := q
      have hk := h k
      have hj := h j
      simp only [smGet, Nat.lt_irrefl, if_false, if_true] at hk hj
      have hkj : k = j := by
        by_contra hne
        rcases Nat.lt_or_gt_of_ne hne with hlt | hlt
        · simp [hlt] at hk; exact smWf_ne hm hk
        · simp [hlt] at hj; exact smWf_ne hn hj.symm
      subst hkj
      simp at hk
      subst hk
      congr 1
      refine ih (smWf_tail hm) (smWf_tail hn) (fun l => ?_)
      by_cases hl : l ≤ k
      · rw [smGet_below _ (fun q hq => Nat.lt_of_le_of_lt hl (smWf_head_lt hm q hq)),
          smGet_below _ (fun q hq => Nat.lt_of_le_of_lt hl (smWf_head_lt hn q hq))]
      · have := h l
        simpa [smGet, show ¬ l < k by omega, show l ≠ k by omega] using this

end Sys2Proof.Machine
end

