-- ==== Sys2Proof/WellFormed.lean ====
section
/-!
DEFINITION. WellFormed.lean: what a command from outside is held to before it means anything: register offsets name
words, strings have the lengths of what they carry, delays lie in their ranges. exec is total and gives a next state
for ill-formed commands too; well-formed ones are those that the package's surroundings can send.
-/

namespace Sys2Proof

/-- A BAR0 offset names a word (R351). -/
def wordOffset (off : BitVec 20) : Bool := off.toNat % 4 == 0

/-- A loose message carries at most 992 bytes after its 16-byte header words (R56, R68). -/
def Loose.wf (m : Loose) : Bool := decide (m.payload.length ≤ 1024)

/-- A frame has four CTRL service words and static words in slots 1 to 7 of 8 words (Table Withy-3, R49). -/
def LinkFrame.wf (f : LinkFrame) : Bool :=
  f.ctrl.length == 4 && f.statics.all (fun x => decide (8 ≤ x.1 ∧ x.1 < 64)) && f.loose.all Loose.wf

/-- The data of a scratchpad access: none for a read, at most one row for a write (R154). -/
def SpAccess.wf (a : SpAccess) : Bool := decide (a.data.length ≤ 512)

/-- A doorbell line that arrived whole holds its three words (R71). -/
def HostRead.wf : HostRead → Bool
  | .ok bytes => decide (12 ≤ bytes.length)
  | .failed => true

/-- A write of BAR2 names a word. -/
def MsixWrite.wf : MsixWrite → Bool
  | .bar2 off _ _ => off.toNat % 4 == 0
  | .control .. => true

/-- A command that the package's surroundings can send. -/
def Instr.wf : Instr → Bool
  | .registerWrite _ off _ _ => wordOffset off
  | .loStageWrite _ off _ _ => wordOffset off
  | .rcFieldRead _ off => wordOffset off
  | .vectorUnmask w => w.wf
  | .forwardedAccess _ off _ => wordOffset off
  | .linkFrame _ f => f.wf
  | .hostFwdReq m _ => m.wf
  | .hostFwdRsp m => m.wf
  | .winResp m => m.wf
  | .winNak m => m.wf
  | .kvShipList m => m.wf
  | .kvShipPages m => m.wf
  | .kvShipEnd m => m.wf
  | .kvShipAck m => m.wf
  | .kvShipNak m => m.wf
  | .doorbellReadDone _ r => r.wf
  | .sensorSample p l => p.length == 4 && l.length == 8
  | .darkCaptureDone sums => sums.length == 8192 * 2048
  | .readoutEnd rows => rows.all (fun r => r.2.length == 8192)
  | .spRow _ a => a.wf
  | .spRowMasked _ a _ => a.wf
  | .spColumn _ a _ _ => a.wf
  | .spNarrow _ a _ => a.wf
  | .feedLoad _ _ _ n bf16 _ _ _ _ => bf16 || decide (n.val < 2)
  | .plaitEncode _ x => [1, 2, 4, 8].contains x.subs
  | .orderDecode _ _ _ _ logits _ _ => logits.length == 4096
  | .adapterLoad _ b => decide (b.length < 2 ^ 32)
  | .grammarLoad _ t => decide (t.length < 2 ^ 32)
  | _ => true

end Sys2Proof
end

