-- ==== Sys2Proof/Safety.lean ====
section
/-!
DEFINITION. Safety.lean: the terms in which statements about the package are written: a command that completes, what it
leaves alone, the canonical form of the maps that the state holds, and the fuses' one way.
-/

namespace Sys2Proof.Machine

/-- The command, met in `s`, ends in a next state of which `P` holds. -/
def Completes (c : Instr) (s : State) (P : State → Prop) : Prop := ∃ t, exec c s = .next t ∧ P t

/-- The parts of the state. -/
inductive Part where
  | regs | out | freeCtr | power | time | basket | host | field | pix | roi | wfe | cores | knots | mem | poison
  | serve | fault | weave | therm | fuse | flash | boot
  deriving DecidableEq, Repr

/-- A part is the same in two states. The BAR0 words have with them what is set in them in this cycle (R5, R6). -/
def Part.same (p : Part) (s t : State) : Prop :=
  match p with
  | .regs => t.regs = s.regs ∧ t.sets = s.sets
  | .out => t.out = s.out
  | .freeCtr => t.freeCtr = s.freeCtr
  | .power => t.power = s.power
  | .time => t.time = s.time
  | .basket => t.basket = s.basket
  | .host => t.host = s.host
  | .field => t.field = s.field
  | .pix => t.pix = s.pix
  | .roi => t.roi = s.roi
  | .wfe => t.wfe = s.wfe
  | .cores => t.cores = s.cores
  | .knots => t.knots = s.knots
  | .mem => t.mem = s.mem
  | .poison => t.poison = s.poison
  | .serve => t.serve = s.serve
  | .fault => t.fault = s.fault
  | .weave => t.weave = s.weave
  | .therm => t.therm = s.therm
  | .fuse => t.fuse = s.fuse
  | .flash => t.flash = s.flash
  | .boot => t.boot = s.boot

/-- From `s` to `t` at most the named parts change; the queue of waiting commands is none of them. -/
def Only (ps : List Part) (s t : State) : Prop := t.pending = s.pending ∧ ∀ p, p ∉ ps → p.same s t

/-- At most the named BAR0 words change. -/
def RegsOnly (offs : List Nat) (s t : State) : Prop := ∀ off, off ∉ offs → t.reg off = s.reg off

/-- At most the `n` bytes of device memory from address `a` change. -/
def BytesOnly (a n : Nat) (s t : State) : Prop := ∀ x, x < a ∨ a + n ≤ x → t.rdMem x 1 = s.rdMem x 1

/-- The canonical form of device memory. -/
abbrev Memory.wf (m : SMap Byte) : Bool := smWf (fun _ => 0) m

/-- The keys of a map rise strictly. -/
abbrev Rising {α : Type} (m : SMap α) : Prop := m.Pairwise (fun p q => p.1 < q.1)

/-- The canonical form of what the package stores: memory, poison marks, knots, flash, fuses and registers list no
default, and the keys of every map that engines share rise. -/
structure Canon (s : State) : Prop where
  regs   : smWf resetVal s.regs = true
  mem    : Memory.wf s.mem = true
  poison : smWf (fun _ => false) s.poison = true
  knots  : smWf (fun _ => 0) s.knots = true
  flash  : smWf (fun _ => 0xFF) s.flash = true
  copies : smWf (fun _ => 0) s.fuse.copies = true
  weak   : smWf (fun _ => 0) s.fuse.weak = true
  shadow : smWf (fun _ => 0) s.fuse.shadow = true
  rings  : Rising s.host.rings
  cores  : Rising s.cores
  reqs   : Rising s.serve.reqs

/-- Every fuse bit that stands in a copy in `s` stands in it in `t` (18_fuses: one-time fuses, never rewritten). -/
def FusesKept (s t : State) : Prop :=
  ∀ k, smGet 0 s.fuse.copies k &&& ~~~(smGet 0 t.fuse.copies k) = 0

/-- BAR0 answers: the package is in Run and serves its BARs (R321). -/
def Served (s : State) : Prop := s.power.phase = .run ∧ s.boot.serving = true

/-- The fuse controller has taken command `op` on word `w` with the data of FUSE_WDATA: BUSY is set, the words it will
program stand in its plan, and nothing else has changed (R307, R308). -/
def FuseStarted (op : BitVec 4) (w : BitVec 9) (steward : Bool) (plan : List (Nat × Word)) (s t : State) : Prop :=
  t.fuse = { s.fuse with cmd := some ⟨op, w, s.reg Reg.fuseWdata, steward, plan⟩ } ∧ t.flag Reg.fuseStatus 0 = true ∧
  Only [.regs, .fuse] s t ∧ RegsOnly [Reg.fuseStatus] s t

/-- Every domain other than the always-on one has been reset: serving, cores, the weave and the host side stand at their
reset values; belt time, the TIME and PWR registers but for TIME_ALIGN, the fuses and the flash are as before (R321,
Table Power-2). -/
def DomainsReset (s t : State) : Prop :=
  t.host = HostState.reset ∧ t.cores = [] ∧ t.knots = [] ∧ t.mem = [] ∧ t.weave = WeaveState.reset ∧
  t.serve.reqs = [] ∧ t.boot.serving = false ∧ t.time.belt = s.time.belt ∧ t.fuse.copies = s.fuse.copies ∧
  t.flash = s.flash ∧ t.reg Reg.timeAlign = resetVal Reg.timeAlign ∧
  ∀ off, 0x2000 ≤ off → off < 0x4000 → off ≠ Reg.timeAlign → t.reg off = s.reg off

/-- Every port but `p` is as it was. -/
def PortOnly (p : Port) (s t : State) : Prop := ∀ q, q ≠ p → t.port q = s.port q

/-- CTRL word `w` has joined the egress queue of every port that is up, but for `except`, by its priority; a queue holds
64 words. Nothing else has changed in a port (R59). -/
def Flooded (except : Option Port) (w : LinkWord) (s t : State) : Prop :=
  ∀ p, t.port p = if except ≠ some p ∧ (s.port p).up = true
    then { s.port p with ctrlq := (ctrlInsert w (s.port p).ctrlq).take 64 } else s.port p

/-- Message `m` of this package is on its way (R54 to R56): one to the package itself is handed over; another leaves on its
routed egress, where it is kept until its ACK and spends credits of its class, or waits in the outbox until it can leave.
Said of an outbox in which nothing waits. -/
def Sent (m : Loose) (s t : State) : Prop :=
  t.basket.looseSeq = s.basket.looseSeq + 1 ∧
  (s.route (m.dst.setWidth 6) = 4 → t.out = s.out ++ [.message m] ∧ t.basket.outbox = s.basket.outbox) ∧
  (s.route (m.dst.setWidth 6) ≠ 4 → s.basket.outbox = [] →
    match s.looseWay m with
    | some (o, x) => t.out = s.out ++ [.loose o x] ∧ t.basket.outbox = [] ∧ PortOnly o s t ∧
        t.port o = (let y := s.port o
          { y with credits0 := if x.cls1 then y.credits0 else y.credits0 - looseSlots x,
                   credits1 := if x.cls1 then y.credits1 - looseSlots x else y.credits1,
                   unacked := y.unacked ++ [(y.ctr + 1, x)] })
    | none => t.out = s.out ∧ t.basket.outbox = [m] ∧ ∀ p, t.port p = s.port p)

/-- Code `c` stands in ERR register `r`, unless a lower code has reached the register in this cycle already: that one
stands on (R353). -/
def Latched (c : Code) (r : Nat) (s t : State) : Prop :=
  t.fld r 0 16 = if s.lowerStands r c then s.fld r 0 16 else c.toNat

/-- Code `c` has been reported as an EVENT of this anchor: it stands in ERR register `reg`, and its vector fires where no
mask holds it back (R79, R82, R353). -/
def Posted (c : Code) (reg : Nat) (s t : State) : Prop :=
  Latched c reg s t ∧ (s.vecOpen (vectorOf c) = true → Out.msix (vectorOf c) ∈ t.out)

/-- Descriptor `f` has left with a status and a result: it is no longer in flight. If a ring pair of this anchor fetched it,
its DESC entry with the ring's phase stands at the write position of the completion ring, and that position has moved on by
one; if another anchor forwarded it, that anchor has its answer (R73, R75, R77, R78). -/
def DescDone (f : Flight) (status : Code) (result : Word) (s t : State) : Prop :=
  t.flight f.id = none ∧ match f.origin with
    | .ring i => (t.ring i.val).write = posNext (s.cqSize i.val) (s.ring i.val).write ∧
        Out.hostWrite (BitVec.ofNat 64 (s.pair (Reg.hostRingCqLo i.val) (Reg.hostRingCqHi i.val) +
            32 * bits (s.ring i.val).write 0 16))
          (leBytes 32 (descEntry s f i.val status result ||| (if (s.ring i.val).phase then BitVec.ofNat 256 (2 ^ 24) else 0)).toNat)
          ∈ t.out
    | .anchor p num => Out.fwdAnswer p num (.done status result) ∈ t.out

/-- Descriptor `f` with opcode `op` has started, and it signals no knot. -/
def Started (f : Flight) (op : Nat) (s : State) : Prop :=
  s.flight f.id = some f ∧ f.st = .started ∧ dOp f.desc = op ∧ dSigEn f.desc = false

/-- Started descriptor `f` with opcode `op` has the bytes `src` that its work reads from host memory: on an anchor its reads
return `bytes`, which are these; on a stake the responses of its home anchor have brought them (R68). It signals no knot. -/
def Supplied (f : Flight) (op : Nat) (bytes src : List Byte) (s : State) : Prop :=
  s.flight f.id = some f ∧ dOp f.desc = op ∧ dSigEn f.desc = false ∧
  ((f.st = .started ∧ s.anchor = true ∧ bytes = src) ∨ f.st = .gotData src)

/-- Descriptor `f` waits for the responses to the writes that its home anchor makes for it (R68). -/
def WaitsForWrites (f : Flight) (s t : State) : Prop :=
  (∃ l, t.flight f.id = some { f with st := .waitRsp l 0 0 s.upNs }) ∧ Only [.regs, .out, .basket, .host] s t

/-- A refusal: code `c` stands in ERR register `r`, and nothing else has changed (R353, R357). -/
def Refused (c : Code) (r : Nat) (s t : State) : Prop := Latched c r s t ∧ Only [.regs] s t ∧ RegsOnly [r] s t

/-- The END message of cache transfer `x` to package `p` is the last that has left, handed over here or on a port, or the
last that waits in the outbox (R54, R55, R252, Table Phases-6). -/
def EndSent (p : BitVec 6) (x : Word) (t : State) : Prop :=
  ∃ m, m.type = 6 ∧ m.dst = p.setWidth 8 ∧ kvKind m = 3 ∧ kvXfer m = x ∧
    (t.out.getLast? = some (.message m) ∨ (∃ o b, t.out.getLast? = some (.loose o { m with cls1 := b })) ∨
      t.basket.outbox.getLast? = some m)

/-- Report word `w` has left for owner `o`, and stands in the local stream that the weave names for it (R49, R247). -/
def Reported (o : BitVec 6) (w : LinkWord) (s t : State) : Prop :=
  t.out = s.out ++ [.report o w] ∧ t.basket = (pushStream false o w s).basket

/-- The host slot at bus address `a` has been written for request `k`, its commit word last (R257, Table Phases-8). -/
def SlotWritten (a k : Nat) (s t : State) : Prop :=
  ∃ x, t.out = s.out ++ [.hostWrite (BitVec.ofNat 64 (a + 8)) x, .hostWrite (BitVec.ofNat 64 a) (leBytes 8 (slotCommit k x))]

/-- The chapter of the spec whose unit a command drives first. -/
inductive Chapter where
  | time | boot | withy | host | field | regions | weigh | cores | serve | faults | registers
  deriving DecidableEq, Repr

/-- The chapter of each command. -/
def chapter : Instr → Chapter
  | .coldStart .. | .strapResample .. | .pgoodRise .. | .railTimeout .. | .faultBeacon .. | .pllLock ..
  | .imageVerifyDone .. | .selftestDone .. | .calLoadDone .. | .perstAssert .. | .bootReboot ..
  | .bootRaiseFloor .. | .pairOverride .. | .watchdogExpiry .. | .railFault .. | .packageFatal ..
  | .pwrEnterDoze .. | .pwrEnterSlumber .. | .powerEntryComplete .. | .pcieWake .. | .wakeTimer ..
  | .fieldInputWake .. | .wakeComplete .. | .dozeWakeComplete .. | .sensorSample .. | .thermalAlternate ..
  | .thermalTrip .. | .thermalReturn .. | .fuseRead .. | .fuseProgram .. | .fuseVerify .. | .fuseRepair ..
  | .fuseAdvance .. | .fuseCtrSet .. | .fuseCtrRead .. | .fuseCmdDone .. | .bscanInstruction ..
  | .testLogicReset .. | .resetNAssert .. => .boot
  | .bootLoad .. | .bootStop .. | .beatStart .. | .halt .. | .resume .. | .weaveLoad .. | .localFault ..
  | .recoveryDone .. | .faultClear .. | .weaveImageReadDone .. | .weaveMemberCheckDone .. => .faults
  | .registerWrite .. | .loStageWrite .. | .rcFieldRead .. | .forwardedAccess .. => .registers
  | .clkApply .. | .pllRelock .. | .pllRelockDone .. | .refFail .. | .aclkMeasure .. | .timeNowLoRead ..
  | .timeBeatNumLoRead .. | .timeBeatStampLoRead .. | .timeSet .. | .timeStepApply .. | .timeBeatLenWrite ..
  | .timeBeatEpochWrite .. | .beatValuesApply .. | .alignAchieved .. | .alignLoss .. => .time
  | .pllLockLoss .. | .wfeEnable .. | .refSettledTimer .. | .excTrip .. | .comparatorChange .. | .startA ..
  | .startB .. | .stopA .. | .stopB .. | .runStart .. | .resultWrite .. | .rotationDue ..
  | .rotationHandover .. | .calibrationDone .. => .weigh
  | .whisperTimeTx .. | .whisperTime .. | .whisperWake .. | .whisperSleep .. | .whisperPresence ..
  | .portEnable .. | .portDisable .. | .trainingComplete .. | .trainRetry .. | .laneFailure .. | .retrain ..
  | .rekey .. | .counterWrap .. | .keyx .. | .keyExchangeDone .. | .cryptModeWrite .. | .linkFrame ..
  | .looseForward .. | .winWrite .. | .winRead .. | .winResp .. | .winNak .. | .winCtlWrite .. | .join ..
  | .joinReply .. | .presence .. | .presenceFlood .. | .principalClaim .. | .joinRetry .. | .joinSwitch ..
  | .timeStepWord .. | .timeBeatWord .. | .timeClockWord .. | .fwdRead .. | .fwdWrite .. | .fwdResponse ..
  | .fwdTimeout .. => .withy
  | .hostFwdReq .. | .hostFwdRsp .. | .hostFwdTimeout .. | .knot .. | .flr .. | .bmeClear .. | .bmeSet ..
  | .ringEnable .. | .ringDisable .. | .doorbellPoll .. | .doorbellReadDone .. | .descriptorFetch ..
  | .descriptorFetchDone .. | .descriptorStart .. | .knotWaitTimeout .. | .forwardResend .. | .nop ..
  | .identity .. | .status .. | .selftest .. | .flashErase .. | .flashWrite .. | .imageCommit .. | .knotSet ..
  | .knotRead .. | .mirror .. | .deferredEntryPost .. | .stakeEventSend .. | .coalesceTimeout ..
  | .knotSignal .. | .mirrorWrite .. | .recRingEnable .. | .recRingDisable .. | .forwardedDescriptor ..
  | .forwardedDescriptorAnswer .. | .vectorUnmask .. => .host
  | .grammarLoad .. | .adapterLoad .. | .tenantCfg .. | .regionReq .. | .recordWrite .. | .lingerExpiry ..
  | .recordAssembly .. | .stepBoundary .. | .placeReport .. | .orderChunk .. | .orderDecode .. | .orderShip ..
  | .orderParkStore .. | .orderParkHost .. | .orderUnpark .. | .orderDrop .. | .kvShipList .. | .kvShipPages ..
  | .kvShipEnd .. | .kvShipAck .. | .kvShipNak .. | .parkCopyDone .. | .hostParkMove .. | .newKey ..
  | .reqRead .. | .serveStepNumLoRead .. => .serve
  | .fieldInputEdge .. | .evqPop .. | .encoderEdge .. | .zPulse .. | .encLoss .. | .encSignalReturn ..
  | .armAt .. | .armZ .. | .presetLoad .. | .snap .. | .darkCapture .. | .darkCaptureDone ..
  | .integrationStart .. | .integrationEnd .. | .readoutEnd .. | .strobeStart .. | .strobeEnd ..
  | .syncPulseStart .. | .syncPulseEnd .. | .beltSecond .. | .fieldEncPosLoRead .. => .field
  | .regionList .. | .cropCut .. | .cropDone .. | .cropHoldExpiry .. | .ruleWrite .. | .ruleSwap ..
  | .ruleRead .. | .swapApply .. | .profileExtract .. | .profileFuse .. | .boxFit .. | .diagCapture ..
  | .diagWrite .. | .coreHostWrite .. => .regions
  | .spRow .. | .spRowMasked .. | .spColumn .. | .spNarrow .. | .rSlotServe .. | .gWriteback ..
  | .ceWriteback .. | .pass .. | .feedRowq .. | .feedColq .. | .feedLoad .. | .drain .. | .qload .. | .xload ..
  | .sdot .. | .sout .. | .apxset .. | .checksumVerdict .. | .tallyVerdict .. | .convExecute ..
  | .resampleExecute .. | .plaitDecode .. | .plaitEncode .. => .cores

/-- The parts of the state that a command can change: its frame. Every other part stays as it was, and the queue always
does. -/
def touched : Instr → List Part
  | .coldStart .. | .railTimeout .. => [.out, .power]
  | .strapResample .. => [.regs, .out, .power, .host]
  | .pgoodRise .. => [.regs, .out, .power, .time, .wfe, .fuse, .boot]
  | .faultBeacon .. | .whisperTimeTx .. | .winResp .. | .doorbellPoll .. | .kvShipNak .. => [.out]
  | .pllLock .. => [.regs, .power, .time, .boot]
  | .imageVerifyDone .. => [.regs, .power, .boot]
  | .selftestDone .. => [.regs, .out, .power, .host, .boot]
  | .calLoadDone .. => [.regs, .out, .host, .mem, .poison, .weave]
  | .perstAssert .. | .bootReboot .. | .registerWrite .. | .loStageWrite .. | .localFault .. | .watchdogExpiry ..
  | .railFault .. | .packageFatal .. | .powerEntryComplete .. | .thermalTrip .. | .bscanInstruction ..
  | .forwardedAccess ..
    => [.regs, .out, .freeCtr, .power, .time, .basket, .host, .field, .pix, .roi, .wfe, .cores, .knots, .mem,
       .poison, .serve, .fault, .weave, .therm, .fuse, .boot]
  | .bootRaiseFloor .. | .fuseRead .. | .fuseProgram .. | .fuseVerify .. | .fuseRepair .. | .fuseAdvance ..
  | .fuseCtrSet .. | .fuseCtrRead .. | .fuseCmdDone .. => [.regs, .fuse]
  | .bootLoad .. => [.regs, .out, .weave]
  | .bootStop .. => [.regs, .weave]
  | .pairOverride .. | .aclkMeasure .. | .winCtlWrite .. | .encSignalReturn .. | .ruleRead .. | .reqRead .. => [.regs]
  | .rcFieldRead .. => [.regs, .out, .time, .field, .serve]
  | .clkApply .. | .timeSet .. | .timeBeatLenWrite .. | .timeBeatEpochWrite .. | .joinSwitch ..
    => [.regs, .time, .basket]
  | .pllRelock .. | .alignAchieved .. | .whisperTime .. => [.regs, .time]
  | .pllRelockDone .. | .timeStepApply .. | .beatValuesApply .. => [.regs, .out, .time, .host, .weave]
  | .pllLockLoss .. => [.regs, .out, .basket, .host, .roi, .wfe, .cores, .knots, .serve, .fault, .weave]
  | .refFail .. | .laneFailure .. | .retrain .. | .rekey .. | .counterWrap .. | .halt .. | .principalClaim ..
  | .regionReq .. | .recordWrite .. | .diagWrite .. | .spNarrow .. | .ceWriteback .. | .pass .. | .qload ..
  | .xload .. | .sdot .. | .apxset .. | .placeReport .. | .orderParkHost .. | .orderDrop .. | .thermalReturn .. => [.regs, .out, .basket, .host, .roi, .cores, .knots, .serve, .fault, .weave]
  | .timeNowLoRead .. | .timeBeatNumLoRead .. | .timeBeatStampLoRead .. => [.out, .time]
  | .beatStart ..
    => [.regs, .out, .time, .basket, .host, .field, .roi, .wfe, .cores, .knots, .mem, .poison, .serve, .fault,
       .weave]
  | .alignLoss .. => [.regs, .out, .time, .basket, .host, .roi, .cores, .knots, .serve, .fault, .weave]
  | .whisperWake .. | .pcieWake .. | .wakeTimer .. | .fieldInputWake .. => [.regs, .out, .power, .basket]
  | .whisperSleep .. | .portEnable .. | .portDisable .. | .cryptModeWrite .. | .join .. | .fwdResponse ..
  | .fwdTimeout .. => [.regs, .basket]
  | .whisperPresence .. | .hostFwdTimeout .. | .winNak .. | .knotWaitTimeout .. | .forwardResend .. | .encLoss ..
  | .forwardedDescriptor .. | .forwardedDescriptorAnswer .. => [.regs, .out, .host]
  | .trainingComplete .. | .hostFwdReq .. | .stakeEventSend .. | .mirrorWrite .. => [.regs, .out, .basket, .host]
  | .trainRetry .. | .keyx .. | .joinRetry .. => [.basket]
  | .keyExchangeDone .. | .presence .. | .presenceFlood ..
    => [.regs, .out, .basket, .host, .roi, .knots, .serve, .fault, .weave]
  | .linkFrame .. => [.regs, .out, .time, .basket, .host, .roi, .cores, .knots, .mem, .poison, .serve, .fault, .weave]
  | .looseForward .. | .spRow .. | .spRowMasked .. | .spColumn .. | .rSlotServe .. | .gWriteback .. | .feedRowq ..
  | .feedColq .. | .feedLoad .. | .drain .. | .sout .. | .convExecute .. | .resampleExecute .. | .plaitEncode .. | .kvShipEnd ..
    => [.regs, .out, .basket, .host, .roi, .cores, .knots, .mem, .poison, .serve, .fault, .weave]
  | .hostFwdRsp .. | .nop .. | .knotSet .. | .knotRead .. => [.regs, .out, .host, .knots]
  | .winWrite .. => [.regs, .out, .basket, .cores, .mem, .poison]
  | .winRead .. => [.regs, .out, .basket, .cores]
  | .resume .. => [.basket, .fault, .weave]
  | .knot .. | .knotSignal .. => [.basket, .host, .knots]
  | .joinReply .. => [.regs, .out, .time, .basket, .host, .roi, .knots, .serve, .fault, .weave]
  | .timeStepWord .. | .timeBeatWord .. | .timeClockWord .. => [.time, .basket]
  | .fwdRead .. | .fwdWrite .. => [.regs, .out, .basket]
  | .flr .. | .bmeClear .. => [.regs, .out, .host, .roi, .serve]
  | .bmeSet .. => [.out, .host, .weave]
  | .ringEnable .. | .ringDisable .. | .doorbellReadDone .. | .descriptorFetchDone .. | .recRingEnable ..
  | .recRingDisable .. | .regionList .. => [.regs, .out, .host, .roi]
  | .descriptorFetch .. | .deferredEntryPost .. | .coalesceTimeout .. | .vectorUnmask .. => [.out, .host]
  | .descriptorStart .. | .tenantCfg .. => [.regs, .out, .host, .serve]
  | .identity .. | .status .. | .selftest .. | .mirror .. => [.regs, .out, .basket, .host, .knots]
  | .flashErase .. => [.regs, .out, .host, .knots, .flash]
  | .flashWrite .. => [.regs, .out, .freeCtr, .basket, .host, .knots, .flash]
  | .imageCommit .. => [.regs, .out, .freeCtr, .host, .knots, .fuse, .flash]
  | .weaveLoad .. => [.regs, .out, .host, .weave]
  | .grammarLoad .. | .adapterLoad .. => [.regs, .out, .freeCtr, .basket, .host, .knots, .mem, .poison, .serve]
  | .lingerExpiry .. => [.out, .host, .serve]
  | .fieldInputEdge .. | .snap .. => [.regs, .field, .pix, .roi]
  | .evqPop .. | .strobeStart .. | .strobeEnd .. | .syncPulseStart .. | .syncPulseEnd .. | .beltSecond ..
  | .fieldEncPosLoRead .. => [.out, .field]
  | .encoderEdge .. | .zPulse .. | .presetLoad .. => [.regs, .out, .host, .field, .pix, .roi, .wfe]
  | .armAt .. | .armZ .. => [.regs, .field]
  | .darkCapture .. => [.regs, .out, .field, .pix, .roi]
  | .darkCaptureDone .. | .readoutEnd ..
    => [.regs, .out, .basket, .host, .pix, .roi, .cores, .knots, .mem, .poison, .serve, .fault, .weave]
  | .integrationStart .. | .integrationEnd .. => [.out, .pix]
  | .cropCut .. => [.regs, .out, .freeCtr, .host, .roi, .mem, .poison]
  | .cropDone .. => [.out, .roi, .mem, .poison]
  | .cropHoldExpiry .. | .swapApply .. | .profileFuse .. | .boxFit .. => [.roi]
  | .ruleWrite .. | .ruleSwap .. | .diagCapture .. => [.regs, .roi]
  | .profileExtract .. | .coreHostWrite .. => [.regs, .out]
  | .recordAssembly .. | .comparatorChange .. => [.regs, .out, .host, .roi, .wfe]
  | .wfeEnable .. | .startA .. | .startB .. | .runStart .. => [.regs, .wfe]
  | .refSettledTimer .. | .stopA .. | .stopB .. | .rotationDue .. | .rotationHandover .. => [.wfe]
  | .excTrip .. | .resultWrite .. | .calibrationDone .. => [.regs, .out, .host, .wfe]
  | .checksumVerdict .. => [.regs, .out, .basket, .host, .roi, .cores, .knots, .poison, .serve, .fault, .weave]
  | .tallyVerdict .. => [.regs, .out, .host, .cores]
  | .plaitDecode .. | .stepBoundary .. | .orderChunk .. | .orderDecode .. | .orderShip .. | .orderUnpark ..
    => [.regs, .out, .freeCtr, .basket, .host, .roi, .cores, .knots, .mem, .poison, .serve, .fault, .weave]
  | .orderParkStore .. | .hostParkMove ..
    => [.regs, .out, .freeCtr, .basket, .host, .roi, .cores, .knots, .serve, .fault, .weave]
  | .kvShipList .. | .kvShipPages .. => [.regs, .out, .basket, .host, .serve]
  | .kvShipAck .. => [.out, .basket, .serve]
  | .parkCopyDone .. => [.regs, .out, .basket, .mem, .poison, .serve]
  | .newKey .. => [.regs, .freeCtr, .serve]
  | .serveStepNumLoRead .. => [.out, .serve]
  | .recoveryDone .. => [.regs, .out, .basket, .host, .roi, .cores, .knots, .mem, .poison, .serve, .fault]
  | .faultClear .. => [.fault]
  | .weaveImageReadDone .. => [.regs, .out, .host, .knots, .weave]
  | .weaveMemberCheckDone .. => [.regs, .basket, .host, .knots, .weave, .boot]
  | .pwrEnterDoze .. | .pwrEnterSlumber .. => [.regs, .power]
  | .wakeComplete .. => [.regs, .out, .power, .time, .basket, .host, .boot]
  | .dozeWakeComplete .. => [.regs, .out, .power, .time, .host]
  | .sensorSample .. => [.regs, .out, .power, .time, .host, .pix, .therm, .fuse, .boot]
  | .thermalAlternate .. => [.regs, .out, .basket, .host, .roi, .cores, .knots, .serve, .fault, .weave, .therm]
  | .testLogicReset .. => [.regs, .out, .power, .time, .fuse, .boot]
  | .resetNAssert ..
    => [.regs, .freeCtr, .power, .time, .basket, .host, .field, .pix, .roi, .wfe, .cores, .knots, .mem, .poison,
       .serve, .fault, .weave, .therm, .fuse, .boot]

end Sys2Proof.Machine
end

