-- ==== Sys2Proof/Laws/State.lean ====
section
/-!
SUPPORT. State.lean (laws): what each update of the state leaves alone, field by field, and reading a register or a field
of one after writing it.
-/

namespace Sys2Proof.Machine

/-! ### Fields that an update leaves alone -/

@[simp] theorem emit_pending (s : State) (o : Out) : (s.emit o).pending = s.pending := rfl
@[simp] theorem emit_regs (s : State) (o : Out) : (s.emit o).regs = s.regs := rfl
@[simp] theorem emit_sets (s : State) (o : Out) : (s.emit o).sets = s.sets := rfl
@[simp] theorem emit_freeCtr (s : State) (o : Out) : (s.emit o).freeCtr = s.freeCtr := rfl
@[simp] theorem emit_power (s : State) (o : Out) : (s.emit o).power = s.power := rfl
@[simp] theorem emit_time (s : State) (o : Out) : (s.emit o).time = s.time := rfl
@[simp] theorem emit_basket (s : State) (o : Out) : (s.emit o).basket = s.basket := rfl
@[simp] theorem emit_host (s : State) (o : Out) : (s.emit o).host = s.host := rfl
@[simp] theorem emit_field (s : State) (o : Out) : (s.emit o).field = s.field := rfl
@[simp] theorem emit_pix (s : State) (o : Out) : (s.emit o).pix = s.pix := rfl
@[simp] theorem emit_roi (s : State) (o : Out) : (s.emit o).roi = s.roi := rfl
@[simp] theorem emit_wfe (s : State) (o : Out) : (s.emit o).wfe = s.wfe := rfl
@[simp] theorem emit_cores (s : State) (o : Out) : (s.emit o).cores = s.cores := rfl
@[simp] theorem emit_knots (s : State) (o : Out) : (s.emit o).knots = s.knots := rfl
@[simp] theorem emit_mem (s : State) (o : Out) : (s.emit o).mem = s.mem := rfl
@[simp] theorem emit_poison (s : State) (o : Out) : (s.emit o).poison = s.poison := rfl
@[simp] theorem emit_serve (s : State) (o : Out) : (s.emit o).serve = s.serve := rfl
@[simp] theorem emit_fault (s : State) (o : Out) : (s.emit o).fault = s.fault := rfl
@[simp] theorem emit_weave (s : State) (o : Out) : (s.emit o).weave = s.weave := rfl
@[simp] theorem emit_therm (s : State) (o : Out) : (s.emit o).therm = s.therm := rfl
@[simp] theorem emit_fuse (s : State) (o : Out) : (s.emit o).fuse = s.fuse := rfl
@[simp] theorem emit_flash (s : State) (o : Out) : (s.emit o).flash = s.flash := rfl
@[simp] theorem emit_boot (s : State) (o : Out) : (s.emit o).boot = s.boot := rfl

@[simp] theorem emit_out (s : State) (o : Out) : (s.emit o).out = s.out ++ [o] := rfl

@[simp] theorem setReg_pending (s : State) (off : Nat) (w : Word) : (s.setReg off w).pending = s.pending := rfl
@[simp] theorem setReg_out (s : State) (off : Nat) (w : Word) : (s.setReg off w).out = s.out := rfl
@[simp] theorem setReg_sets (s : State) (off : Nat) (w : Word) : (s.setReg off w).sets = s.sets := rfl
@[simp] theorem setReg_freeCtr (s : State) (off : Nat) (w : Word) : (s.setReg off w).freeCtr = s.freeCtr := rfl
@[simp] theorem setReg_power (s : State) (off : Nat) (w : Word) : (s.setReg off w).power = s.power := rfl
@[simp] theorem setReg_time (s : State) (off : Nat) (w : Word) : (s.setReg off w).time = s.time := rfl
@[simp] theorem setReg_basket (s : State) (off : Nat) (w : Word) : (s.setReg off w).basket = s.basket := rfl
@[simp] theorem setReg_host (s : State) (off : Nat) (w : Word) : (s.setReg off w).host = s.host := rfl
@[simp] theorem setReg_field (s : State) (off : Nat) (w : Word) : (s.setReg off w).field = s.field := rfl
@[simp] theorem setReg_pix (s : State) (off : Nat) (w : Word) : (s.setReg off w).pix = s.pix := rfl
@[simp] theorem setReg_roi (s : State) (off : Nat) (w : Word) : (s.setReg off w).roi = s.roi := rfl
@[simp] theorem setReg_wfe (s : State) (off : Nat) (w : Word) : (s.setReg off w).wfe = s.wfe := rfl
@[simp] theorem setReg_cores (s : State) (off : Nat) (w : Word) : (s.setReg off w).cores = s.cores := rfl
@[simp] theorem setReg_knots (s : State) (off : Nat) (w : Word) : (s.setReg off w).knots = s.knots := rfl
@[simp] theorem setReg_mem (s : State) (off : Nat) (w : Word) : (s.setReg off w).mem = s.mem := rfl
@[simp] theorem setReg_poison (s : State) (off : Nat) (w : Word) : (s.setReg off w).poison = s.poison := rfl
@[simp] theorem setReg_serve (s : State) (off : Nat) (w : Word) : (s.setReg off w).serve = s.serve := rfl
@[simp] theorem setReg_fault (s : State) (off : Nat) (w : Word) : (s.setReg off w).fault = s.fault := rfl
@[simp] theorem setReg_weave (s : State) (off : Nat) (w : Word) : (s.setReg off w).weave = s.weave := rfl
@[simp] theorem setReg_therm (s : State) (off : Nat) (w : Word) : (s.setReg off w).therm = s.therm := rfl
@[simp] theorem setReg_fuse (s : State) (off : Nat) (w : Word) : (s.setReg off w).fuse = s.fuse := rfl
@[simp] theorem setReg_flash (s : State) (off : Nat) (w : Word) : (s.setReg off w).flash = s.flash := rfl
@[simp] theorem setReg_boot (s : State) (off : Nat) (w : Word) : (s.setReg off w).boot = s.boot := rfl

@[simp] theorem setFld_pending (s : State) (off lo len v : Nat) : (s.setFld off lo len v).pending = s.pending := rfl
@[simp] theorem setFld_out (s : State) (off lo len v : Nat) : (s.setFld off lo len v).out = s.out := rfl
@[simp] theorem setFld_sets (s : State) (off lo len v : Nat) : (s.setFld off lo len v).sets = s.sets := rfl
@[simp] theorem setFld_freeCtr (s : State) (off lo len v : Nat) : (s.setFld off lo len v).freeCtr = s.freeCtr := rfl
@[simp] theorem setFld_power (s : State) (off lo len v : Nat) : (s.setFld off lo len v).power = s.power := rfl
@[simp] theorem setFld_time (s : State) (off lo len v : Nat) : (s.setFld off lo len v).time = s.time := rfl
@[simp] theorem setFld_basket (s : State) (off lo len v : Nat) : (s.setFld off lo len v).basket = s.basket := rfl
@[simp] theorem setFld_host (s : State) (off lo len v : Nat) : (s.setFld off lo len v).host = s.host := rfl
@[simp] theorem setFld_field (s : State) (off lo len v : Nat) : (s.setFld off lo len v).field = s.field := rfl
@[simp] theorem setFld_pix (s : State) (off lo len v : Nat) : (s.setFld off lo len v).pix = s.pix := rfl
@[simp] theorem setFld_roi (s : State) (off lo len v : Nat) : (s.setFld off lo len v).roi = s.roi := rfl
@[simp] theorem setFld_wfe (s : State) (off lo len v : Nat) : (s.setFld off lo len v).wfe = s.wfe := rfl
@[simp] theorem setFld_cores (s : State) (off lo len v : Nat) : (s.setFld off lo len v).cores = s.cores := rfl
@[simp] theorem setFld_knots (s : State) (off lo len v : Nat) : (s.setFld off lo len v).knots = s.knots := rfl
@[simp] theorem setFld_mem (s : State) (off lo len v : Nat) : (s.setFld off lo len v).mem = s.mem := rfl
@[simp] theorem setFld_poison (s : State) (off lo len v : Nat) : (s.setFld off lo len v).poison = s.poison := rfl
@[simp] theorem setFld_serve (s : State) (off lo len v : Nat) : (s.setFld off lo len v).serve = s.serve := rfl
@[simp] theorem setFld_fault (s : State) (off lo len v : Nat) : (s.setFld off lo len v).fault = s.fault := rfl
@[simp] theorem setFld_weave (s : State) (off lo len v : Nat) : (s.setFld off lo len v).weave = s.weave := rfl
@[simp] theorem setFld_therm (s : State) (off lo len v : Nat) : (s.setFld off lo len v).therm = s.therm := rfl
@[simp] theorem setFld_fuse (s : State) (off lo len v : Nat) : (s.setFld off lo len v).fuse = s.fuse := rfl
@[simp] theorem setFld_flash (s : State) (off lo len v : Nat) : (s.setFld off lo len v).flash = s.flash := rfl
@[simp] theorem setFld_boot (s : State) (off lo len v : Nat) : (s.setFld off lo len v).boot = s.boot := rfl

@[simp] theorem setFlag_pending (s : State) (off i : Nat) (b : Bool) : (s.setFlag off i b).pending = s.pending := rfl
@[simp] theorem setFlag_out (s : State) (off i : Nat) (b : Bool) : (s.setFlag off i b).out = s.out := rfl
@[simp] theorem setFlag_sets (s : State) (off i : Nat) (b : Bool) : (s.setFlag off i b).sets = s.sets := rfl
@[simp] theorem setFlag_freeCtr (s : State) (off i : Nat) (b : Bool) : (s.setFlag off i b).freeCtr = s.freeCtr := rfl
@[simp] theorem setFlag_power (s : State) (off i : Nat) (b : Bool) : (s.setFlag off i b).power = s.power := rfl
@[simp] theorem setFlag_time (s : State) (off i : Nat) (b : Bool) : (s.setFlag off i b).time = s.time := rfl
@[simp] theorem setFlag_basket (s : State) (off i : Nat) (b : Bool) : (s.setFlag off i b).basket = s.basket := rfl
@[simp] theorem setFlag_host (s : State) (off i : Nat) (b : Bool) : (s.setFlag off i b).host = s.host := rfl
@[simp] theorem setFlag_field (s : State) (off i : Nat) (b : Bool) : (s.setFlag off i b).field = s.field := rfl
@[simp] theorem setFlag_pix (s : State) (off i : Nat) (b : Bool) : (s.setFlag off i b).pix = s.pix := rfl
@[simp] theorem setFlag_roi (s : State) (off i : Nat) (b : Bool) : (s.setFlag off i b).roi = s.roi := rfl
@[simp] theorem setFlag_wfe (s : State) (off i : Nat) (b : Bool) : (s.setFlag off i b).wfe = s.wfe := rfl
@[simp] theorem setFlag_cores (s : State) (off i : Nat) (b : Bool) : (s.setFlag off i b).cores = s.cores := rfl
@[simp] theorem setFlag_knots (s : State) (off i : Nat) (b : Bool) : (s.setFlag off i b).knots = s.knots := rfl
@[simp] theorem setFlag_mem (s : State) (off i : Nat) (b : Bool) : (s.setFlag off i b).mem = s.mem := rfl
@[simp] theorem setFlag_poison (s : State) (off i : Nat) (b : Bool) : (s.setFlag off i b).poison = s.poison := rfl
@[simp] theorem setFlag_serve (s : State) (off i : Nat) (b : Bool) : (s.setFlag off i b).serve = s.serve := rfl
@[simp] theorem setFlag_fault (s : State) (off i : Nat) (b : Bool) : (s.setFlag off i b).fault = s.fault := rfl
@[simp] theorem setFlag_weave (s : State) (off i : Nat) (b : Bool) : (s.setFlag off i b).weave = s.weave := rfl
@[simp] theorem setFlag_therm (s : State) (off i : Nat) (b : Bool) : (s.setFlag off i b).therm = s.therm := rfl
@[simp] theorem setFlag_fuse (s : State) (off i : Nat) (b : Bool) : (s.setFlag off i b).fuse = s.fuse := rfl
@[simp] theorem setFlag_flash (s : State) (off i : Nat) (b : Bool) : (s.setFlag off i b).flash = s.flash := rfl
@[simp] theorem setFlag_boot (s : State) (off i : Nat) (b : Bool) : (s.setFlag off i b).boot = s.boot := rfl

@[simp] theorem hwSet_pending (s : State) (off : Nat) (f : Word → Word) : (s.hwSet off f).pending = s.pending := rfl
@[simp] theorem hwSet_out (s : State) (off : Nat) (f : Word → Word) : (s.hwSet off f).out = s.out := rfl
@[simp] theorem hwSet_freeCtr (s : State) (off : Nat) (f : Word → Word) : (s.hwSet off f).freeCtr = s.freeCtr := rfl
@[simp] theorem hwSet_power (s : State) (off : Nat) (f : Word → Word) : (s.hwSet off f).power = s.power := rfl
@[simp] theorem hwSet_time (s : State) (off : Nat) (f : Word → Word) : (s.hwSet off f).time = s.time := rfl
@[simp] theorem hwSet_basket (s : State) (off : Nat) (f : Word → Word) : (s.hwSet off f).basket = s.basket := rfl
@[simp] theorem hwSet_host (s : State) (off : Nat) (f : Word → Word) : (s.hwSet off f).host = s.host := rfl
@[simp] theorem hwSet_field (s : State) (off : Nat) (f : Word → Word) : (s.hwSet off f).field = s.field := rfl
@[simp] theorem hwSet_pix (s : State) (off : Nat) (f : Word → Word) : (s.hwSet off f).pix = s.pix := rfl
@[simp] theorem hwSet_roi (s : State) (off : Nat) (f : Word → Word) : (s.hwSet off f).roi = s.roi := rfl
@[simp] theorem hwSet_wfe (s : State) (off : Nat) (f : Word → Word) : (s.hwSet off f).wfe = s.wfe := rfl
@[simp] theorem hwSet_cores (s : State) (off : Nat) (f : Word → Word) : (s.hwSet off f).cores = s.cores := rfl
@[simp] theorem hwSet_knots (s : State) (off : Nat) (f : Word → Word) : (s.hwSet off f).knots = s.knots := rfl
@[simp] theorem hwSet_mem (s : State) (off : Nat) (f : Word → Word) : (s.hwSet off f).mem = s.mem := rfl
@[simp] theorem hwSet_poison (s : State) (off : Nat) (f : Word → Word) : (s.hwSet off f).poison = s.poison := rfl
@[simp] theorem hwSet_serve (s : State) (off : Nat) (f : Word → Word) : (s.hwSet off f).serve = s.serve := rfl
@[simp] theorem hwSet_fault (s : State) (off : Nat) (f : Word → Word) : (s.hwSet off f).fault = s.fault := rfl
@[simp] theorem hwSet_weave (s : State) (off : Nat) (f : Word → Word) : (s.hwSet off f).weave = s.weave := rfl
@[simp] theorem hwSet_therm (s : State) (off : Nat) (f : Word → Word) : (s.hwSet off f).therm = s.therm := rfl
@[simp] theorem hwSet_fuse (s : State) (off : Nat) (f : Word → Word) : (s.hwSet off f).fuse = s.fuse := rfl
@[simp] theorem hwSet_flash (s : State) (off : Nat) (f : Word → Word) : (s.hwSet off f).flash = s.flash := rfl
@[simp] theorem hwSet_boot (s : State) (off : Nat) (f : Word → Word) : (s.hwSet off f).boot = s.boot := rfl

@[simp] theorem bumpAt_pending (s : State) (off lo len n : Nat) : (s.bumpAt off lo len n).pending = s.pending := rfl
@[simp] theorem bumpAt_out (s : State) (off lo len n : Nat) : (s.bumpAt off lo len n).out = s.out := rfl
@[simp] theorem bumpAt_freeCtr (s : State) (off lo len n : Nat) : (s.bumpAt off lo len n).freeCtr = s.freeCtr := rfl
@[simp] theorem bumpAt_power (s : State) (off lo len n : Nat) : (s.bumpAt off lo len n).power = s.power := rfl
@[simp] theorem bumpAt_time (s : State) (off lo len n : Nat) : (s.bumpAt off lo len n).time = s.time := rfl
@[simp] theorem bumpAt_basket (s : State) (off lo len n : Nat) : (s.bumpAt off lo len n).basket = s.basket := rfl
@[simp] theorem bumpAt_host (s : State) (off lo len n : Nat) : (s.bumpAt off lo len n).host = s.host := rfl
@[simp] theorem bumpAt_field (s : State) (off lo len n : Nat) : (s.bumpAt off lo len n).field = s.field := rfl
@[simp] theorem bumpAt_pix (s : State) (off lo len n : Nat) : (s.bumpAt off lo len n).pix = s.pix := rfl
@[simp] theorem bumpAt_roi (s : State) (off lo len n : Nat) : (s.bumpAt off lo len n).roi = s.roi := rfl
@[simp] theorem bumpAt_wfe (s : State) (off lo len n : Nat) : (s.bumpAt off lo len n).wfe = s.wfe := rfl
@[simp] theorem bumpAt_cores (s : State) (off lo len n : Nat) : (s.bumpAt off lo len n).cores = s.cores := rfl
@[simp] theorem bumpAt_knots (s : State) (off lo len n : Nat) : (s.bumpAt off lo len n).knots = s.knots := rfl
@[simp] theorem bumpAt_mem (s : State) (off lo len n : Nat) : (s.bumpAt off lo len n).mem = s.mem := rfl
@[simp] theorem bumpAt_poison (s : State) (off lo len n : Nat) : (s.bumpAt off lo len n).poison = s.poison := rfl
@[simp] theorem bumpAt_serve (s : State) (off lo len n : Nat) : (s.bumpAt off lo len n).serve = s.serve := rfl
@[simp] theorem bumpAt_fault (s : State) (off lo len n : Nat) : (s.bumpAt off lo len n).fault = s.fault := rfl
@[simp] theorem bumpAt_weave (s : State) (off lo len n : Nat) : (s.bumpAt off lo len n).weave = s.weave := rfl
@[simp] theorem bumpAt_therm (s : State) (off lo len n : Nat) : (s.bumpAt off lo len n).therm = s.therm := rfl
@[simp] theorem bumpAt_fuse (s : State) (off lo len n : Nat) : (s.bumpAt off lo len n).fuse = s.fuse := rfl
@[simp] theorem bumpAt_flash (s : State) (off lo len n : Nat) : (s.bumpAt off lo len n).flash = s.flash := rfl
@[simp] theorem bumpAt_boot (s : State) (off lo len n : Nat) : (s.bumpAt off lo len n).boot = s.boot := rfl

@[simp] theorem bumpSat_pending (s : State) (off len n : Nat) : (s.bumpSat off len n).pending = s.pending := rfl
@[simp] theorem bumpSat_out (s : State) (off len n : Nat) : (s.bumpSat off len n).out = s.out := rfl
@[simp] theorem bumpSat_freeCtr (s : State) (off len n : Nat) : (s.bumpSat off len n).freeCtr = s.freeCtr := rfl
@[simp] theorem bumpSat_power (s : State) (off len n : Nat) : (s.bumpSat off len n).power = s.power := rfl
@[simp] theorem bumpSat_time (s : State) (off len n : Nat) : (s.bumpSat off len n).time = s.time := rfl
@[simp] theorem bumpSat_basket (s : State) (off len n : Nat) : (s.bumpSat off len n).basket = s.basket := rfl
@[simp] theorem bumpSat_host (s : State) (off len n : Nat) : (s.bumpSat off len n).host = s.host := rfl
@[simp] theorem bumpSat_field (s : State) (off len n : Nat) : (s.bumpSat off len n).field = s.field := rfl
@[simp] theorem bumpSat_pix (s : State) (off len n : Nat) : (s.bumpSat off len n).pix = s.pix := rfl
@[simp] theorem bumpSat_roi (s : State) (off len n : Nat) : (s.bumpSat off len n).roi = s.roi := rfl
@[simp] theorem bumpSat_wfe (s : State) (off len n : Nat) : (s.bumpSat off len n).wfe = s.wfe := rfl
@[simp] theorem bumpSat_cores (s : State) (off len n : Nat) : (s.bumpSat off len n).cores = s.cores := rfl
@[simp] theorem bumpSat_knots (s : State) (off len n : Nat) : (s.bumpSat off len n).knots = s.knots := rfl
@[simp] theorem bumpSat_mem (s : State) (off len n : Nat) : (s.bumpSat off len n).mem = s.mem := rfl
@[simp] theorem bumpSat_poison (s : State) (off len n : Nat) : (s.bumpSat off len n).poison = s.poison := rfl
@[simp] theorem bumpSat_serve (s : State) (off len n : Nat) : (s.bumpSat off len n).serve = s.serve := rfl
@[simp] theorem bumpSat_fault (s : State) (off len n : Nat) : (s.bumpSat off len n).fault = s.fault := rfl
@[simp] theorem bumpSat_weave (s : State) (off len n : Nat) : (s.bumpSat off len n).weave = s.weave := rfl
@[simp] theorem bumpSat_therm (s : State) (off len n : Nat) : (s.bumpSat off len n).therm = s.therm := rfl
@[simp] theorem bumpSat_fuse (s : State) (off len n : Nat) : (s.bumpSat off len n).fuse = s.fuse := rfl
@[simp] theorem bumpSat_flash (s : State) (off len n : Nat) : (s.bumpSat off len n).flash = s.flash := rfl
@[simp] theorem bumpSat_boot (s : State) (off len n : Nat) : (s.bumpSat off len n).boot = s.boot := rfl

@[simp] theorem setRing_pending (s : State) (i : Nat) (r : Ring) : (s.setRing i r).pending = s.pending := rfl
@[simp] theorem setRing_regs (s : State) (i : Nat) (r : Ring) : (s.setRing i r).regs = s.regs := rfl
@[simp] theorem setRing_out (s : State) (i : Nat) (r : Ring) : (s.setRing i r).out = s.out := rfl
@[simp] theorem setRing_sets (s : State) (i : Nat) (r : Ring) : (s.setRing i r).sets = s.sets := rfl
@[simp] theorem setRing_freeCtr (s : State) (i : Nat) (r : Ring) : (s.setRing i r).freeCtr = s.freeCtr := rfl
@[simp] theorem setRing_power (s : State) (i : Nat) (r : Ring) : (s.setRing i r).power = s.power := rfl
@[simp] theorem setRing_time (s : State) (i : Nat) (r : Ring) : (s.setRing i r).time = s.time := rfl
@[simp] theorem setRing_basket (s : State) (i : Nat) (r : Ring) : (s.setRing i r).basket = s.basket := rfl
@[simp] theorem setRing_field (s : State) (i : Nat) (r : Ring) : (s.setRing i r).field = s.field := rfl
@[simp] theorem setRing_pix (s : State) (i : Nat) (r : Ring) : (s.setRing i r).pix = s.pix := rfl
@[simp] theorem setRing_roi (s : State) (i : Nat) (r : Ring) : (s.setRing i r).roi = s.roi := rfl
@[simp] theorem setRing_wfe (s : State) (i : Nat) (r : Ring) : (s.setRing i r).wfe = s.wfe := rfl
@[simp] theorem setRing_cores (s : State) (i : Nat) (r : Ring) : (s.setRing i r).cores = s.cores := rfl
@[simp] theorem setRing_knots (s : State) (i : Nat) (r : Ring) : (s.setRing i r).knots = s.knots := rfl
@[simp] theorem setRing_mem (s : State) (i : Nat) (r : Ring) : (s.setRing i r).mem = s.mem := rfl
@[simp] theorem setRing_poison (s : State) (i : Nat) (r : Ring) : (s.setRing i r).poison = s.poison := rfl
@[simp] theorem setRing_serve (s : State) (i : Nat) (r : Ring) : (s.setRing i r).serve = s.serve := rfl
@[simp] theorem setRing_fault (s : State) (i : Nat) (r : Ring) : (s.setRing i r).fault = s.fault := rfl
@[simp] theorem setRing_weave (s : State) (i : Nat) (r : Ring) : (s.setRing i r).weave = s.weave := rfl
@[simp] theorem setRing_therm (s : State) (i : Nat) (r : Ring) : (s.setRing i r).therm = s.therm := rfl
@[simp] theorem setRing_fuse (s : State) (i : Nat) (r : Ring) : (s.setRing i r).fuse = s.fuse := rfl
@[simp] theorem setRing_flash (s : State) (i : Nat) (r : Ring) : (s.setRing i r).flash = s.flash := rfl
@[simp] theorem setRing_boot (s : State) (i : Nat) (r : Ring) : (s.setRing i r).boot = s.boot := rfl

@[simp] theorem setCore_pending (s : State) (n : Nat) (c : CoreState) : (s.setCore n c).pending = s.pending := rfl
@[simp] theorem setCore_regs (s : State) (n : Nat) (c : CoreState) : (s.setCore n c).regs = s.regs := rfl
@[simp] theorem setCore_out (s : State) (n : Nat) (c : CoreState) : (s.setCore n c).out = s.out := rfl
@[simp] theorem setCore_sets (s : State) (n : Nat) (c : CoreState) : (s.setCore n c).sets = s.sets := rfl
@[simp] theorem setCore_freeCtr (s : State) (n : Nat) (c : CoreState) : (s.setCore n c).freeCtr = s.freeCtr := rfl
@[simp] theorem setCore_power (s : State) (n : Nat) (c : CoreState) : (s.setCore n c).power = s.power := rfl
@[simp] theorem setCore_time (s : State) (n : Nat) (c : CoreState) : (s.setCore n c).time = s.time := rfl
@[simp] theorem setCore_basket (s : State) (n : Nat) (c : CoreState) : (s.setCore n c).basket = s.basket := rfl
@[simp] theorem setCore_host (s : State) (n : Nat) (c : CoreState) : (s.setCore n c).host = s.host := rfl
@[simp] theorem setCore_field (s : State) (n : Nat) (c : CoreState) : (s.setCore n c).field = s.field := rfl
@[simp] theorem setCore_pix (s : State) (n : Nat) (c : CoreState) : (s.setCore n c).pix = s.pix := rfl
@[simp] theorem setCore_roi (s : State) (n : Nat) (c : CoreState) : (s.setCore n c).roi = s.roi := rfl
@[simp] theorem setCore_wfe (s : State) (n : Nat) (c : CoreState) : (s.setCore n c).wfe = s.wfe := rfl
@[simp] theorem setCore_knots (s : State) (n : Nat) (c : CoreState) : (s.setCore n c).knots = s.knots := rfl
@[simp] theorem setCore_mem (s : State) (n : Nat) (c : CoreState) : (s.setCore n c).mem = s.mem := rfl
@[simp] theorem setCore_poison (s : State) (n : Nat) (c : CoreState) : (s.setCore n c).poison = s.poison := rfl
@[simp] theorem setCore_serve (s : State) (n : Nat) (c : CoreState) : (s.setCore n c).serve = s.serve := rfl
@[simp] theorem setCore_fault (s : State) (n : Nat) (c : CoreState) : (s.setCore n c).fault = s.fault := rfl
@[simp] theorem setCore_weave (s : State) (n : Nat) (c : CoreState) : (s.setCore n c).weave = s.weave := rfl
@[simp] theorem setCore_therm (s : State) (n : Nat) (c : CoreState) : (s.setCore n c).therm = s.therm := rfl
@[simp] theorem setCore_fuse (s : State) (n : Nat) (c : CoreState) : (s.setCore n c).fuse = s.fuse := rfl
@[simp] theorem setCore_flash (s : State) (n : Nat) (c : CoreState) : (s.setCore n c).flash = s.flash := rfl
@[simp] theorem setCore_boot (s : State) (n : Nat) (c : CoreState) : (s.setCore n c).boot = s.boot := rfl

@[simp] theorem setArray_pending (s : State) (n a : Nat) (x : ArrayState) : (s.setArray n a x).pending = s.pending := rfl
@[simp] theorem setArray_regs (s : State) (n a : Nat) (x : ArrayState) : (s.setArray n a x).regs = s.regs := rfl
@[simp] theorem setArray_out (s : State) (n a : Nat) (x : ArrayState) : (s.setArray n a x).out = s.out := rfl
@[simp] theorem setArray_sets (s : State) (n a : Nat) (x : ArrayState) : (s.setArray n a x).sets = s.sets := rfl
@[simp] theorem setArray_freeCtr (s : State) (n a : Nat) (x : ArrayState) : (s.setArray n a x).freeCtr = s.freeCtr := rfl
@[simp] theorem setArray_power (s : State) (n a : Nat) (x : ArrayState) : (s.setArray n a x).power = s.power := rfl
@[simp] theorem setArray_time (s : State) (n a : Nat) (x : ArrayState) : (s.setArray n a x).time = s.time := rfl
@[simp] theorem setArray_basket (s : State) (n a : Nat) (x : ArrayState) : (s.setArray n a x).basket = s.basket := rfl
@[simp] theorem setArray_host (s : State) (n a : Nat) (x : ArrayState) : (s.setArray n a x).host = s.host := rfl
@[simp] theorem setArray_field (s : State) (n a : Nat) (x : ArrayState) : (s.setArray n a x).field = s.field := rfl
@[simp] theorem setArray_pix (s : State) (n a : Nat) (x : ArrayState) : (s.setArray n a x).pix = s.pix := rfl
@[simp] theorem setArray_roi (s : State) (n a : Nat) (x : ArrayState) : (s.setArray n a x).roi = s.roi := rfl
@[simp] theorem setArray_wfe (s : State) (n a : Nat) (x : ArrayState) : (s.setArray n a x).wfe = s.wfe := rfl
@[simp] theorem setArray_knots (s : State) (n a : Nat) (x : ArrayState) : (s.setArray n a x).knots = s.knots := rfl
@[simp] theorem setArray_mem (s : State) (n a : Nat) (x : ArrayState) : (s.setArray n a x).mem = s.mem := rfl
@[simp] theorem setArray_poison (s : State) (n a : Nat) (x : ArrayState) : (s.setArray n a x).poison = s.poison := rfl
@[simp] theorem setArray_serve (s : State) (n a : Nat) (x : ArrayState) : (s.setArray n a x).serve = s.serve := rfl
@[simp] theorem setArray_fault (s : State) (n a : Nat) (x : ArrayState) : (s.setArray n a x).fault = s.fault := rfl
@[simp] theorem setArray_weave (s : State) (n a : Nat) (x : ArrayState) : (s.setArray n a x).weave = s.weave := rfl
@[simp] theorem setArray_therm (s : State) (n a : Nat) (x : ArrayState) : (s.setArray n a x).therm = s.therm := rfl
@[simp] theorem setArray_fuse (s : State) (n a : Nat) (x : ArrayState) : (s.setArray n a x).fuse = s.fuse := rfl
@[simp] theorem setArray_flash (s : State) (n a : Nat) (x : ArrayState) : (s.setArray n a x).flash = s.flash := rfl
@[simp] theorem setArray_boot (s : State) (n a : Nat) (x : ArrayState) : (s.setArray n a x).boot = s.boot := rfl

@[simp] theorem wrMemP_pending (s : State) (a : Nat) (b : List Byte) (q : Bool) : (wrMemP a b q s).pending = s.pending := rfl
@[simp] theorem wrMemP_regs (s : State) (a : Nat) (b : List Byte) (q : Bool) : (wrMemP a b q s).regs = s.regs := rfl
@[simp] theorem wrMemP_out (s : State) (a : Nat) (b : List Byte) (q : Bool) : (wrMemP a b q s).out = s.out := rfl
@[simp] theorem wrMemP_sets (s : State) (a : Nat) (b : List Byte) (q : Bool) : (wrMemP a b q s).sets = s.sets := rfl
@[simp] theorem wrMemP_freeCtr (s : State) (a : Nat) (b : List Byte) (q : Bool) : (wrMemP a b q s).freeCtr = s.freeCtr := rfl
@[simp] theorem wrMemP_power (s : State) (a : Nat) (b : List Byte) (q : Bool) : (wrMemP a b q s).power = s.power := rfl
@[simp] theorem wrMemP_time (s : State) (a : Nat) (b : List Byte) (q : Bool) : (wrMemP a b q s).time = s.time := rfl
@[simp] theorem wrMemP_basket (s : State) (a : Nat) (b : List Byte) (q : Bool) : (wrMemP a b q s).basket = s.basket := rfl
@[simp] theorem wrMemP_host (s : State) (a : Nat) (b : List Byte) (q : Bool) : (wrMemP a b q s).host = s.host := rfl
@[simp] theorem wrMemP_field (s : State) (a : Nat) (b : List Byte) (q : Bool) : (wrMemP a b q s).field = s.field := rfl
@[simp] theorem wrMemP_pix (s : State) (a : Nat) (b : List Byte) (q : Bool) : (wrMemP a b q s).pix = s.pix := rfl
@[simp] theorem wrMemP_roi (s : State) (a : Nat) (b : List Byte) (q : Bool) : (wrMemP a b q s).roi = s.roi := rfl
@[simp] theorem wrMemP_wfe (s : State) (a : Nat) (b : List Byte) (q : Bool) : (wrMemP a b q s).wfe = s.wfe := rfl
@[simp] theorem wrMemP_cores (s : State) (a : Nat) (b : List Byte) (q : Bool) : (wrMemP a b q s).cores = s.cores := rfl
@[simp] theorem wrMemP_knots (s : State) (a : Nat) (b : List Byte) (q : Bool) : (wrMemP a b q s).knots = s.knots := rfl
@[simp] theorem wrMemP_serve (s : State) (a : Nat) (b : List Byte) (q : Bool) : (wrMemP a b q s).serve = s.serve := rfl
@[simp] theorem wrMemP_fault (s : State) (a : Nat) (b : List Byte) (q : Bool) : (wrMemP a b q s).fault = s.fault := rfl
@[simp] theorem wrMemP_weave (s : State) (a : Nat) (b : List Byte) (q : Bool) : (wrMemP a b q s).weave = s.weave := rfl
@[simp] theorem wrMemP_therm (s : State) (a : Nat) (b : List Byte) (q : Bool) : (wrMemP a b q s).therm = s.therm := rfl
@[simp] theorem wrMemP_fuse (s : State) (a : Nat) (b : List Byte) (q : Bool) : (wrMemP a b q s).fuse = s.fuse := rfl
@[simp] theorem wrMemP_flash (s : State) (a : Nat) (b : List Byte) (q : Bool) : (wrMemP a b q s).flash = s.flash := rfl
@[simp] theorem wrMemP_boot (s : State) (a : Nat) (b : List Byte) (q : Bool) : (wrMemP a b q s).boot = s.boot := rfl

@[simp] theorem setFlight_pending (s : State) (i : Nat) (x : FlightState) : (setFlight i x s).pending = s.pending := rfl
@[simp] theorem setFlight_regs (s : State) (i : Nat) (x : FlightState) : (setFlight i x s).regs = s.regs := rfl
@[simp] theorem setFlight_out (s : State) (i : Nat) (x : FlightState) : (setFlight i x s).out = s.out := rfl
@[simp] theorem setFlight_sets (s : State) (i : Nat) (x : FlightState) : (setFlight i x s).sets = s.sets := rfl
@[simp] theorem setFlight_freeCtr (s : State) (i : Nat) (x : FlightState) : (setFlight i x s).freeCtr = s.freeCtr := rfl
@[simp] theorem setFlight_power (s : State) (i : Nat) (x : FlightState) : (setFlight i x s).power = s.power := rfl
@[simp] theorem setFlight_time (s : State) (i : Nat) (x : FlightState) : (setFlight i x s).time = s.time := rfl
@[simp] theorem setFlight_basket (s : State) (i : Nat) (x : FlightState) : (setFlight i x s).basket = s.basket := rfl
@[simp] theorem setFlight_field (s : State) (i : Nat) (x : FlightState) : (setFlight i x s).field = s.field := rfl
@[simp] theorem setFlight_pix (s : State) (i : Nat) (x : FlightState) : (setFlight i x s).pix = s.pix := rfl
@[simp] theorem setFlight_roi (s : State) (i : Nat) (x : FlightState) : (setFlight i x s).roi = s.roi := rfl
@[simp] theorem setFlight_wfe (s : State) (i : Nat) (x : FlightState) : (setFlight i x s).wfe = s.wfe := rfl
@[simp] theorem setFlight_cores (s : State) (i : Nat) (x : FlightState) : (setFlight i x s).cores = s.cores := rfl
@[simp] theorem setFlight_knots (s : State) (i : Nat) (x : FlightState) : (setFlight i x s).knots = s.knots := rfl
@[simp] theorem setFlight_mem (s : State) (i : Nat) (x : FlightState) : (setFlight i x s).mem = s.mem := rfl
@[simp] theorem setFlight_poison (s : State) (i : Nat) (x : FlightState) : (setFlight i x s).poison = s.poison := rfl
@[simp] theorem setFlight_serve (s : State) (i : Nat) (x : FlightState) : (setFlight i x s).serve = s.serve := rfl
@[simp] theorem setFlight_fault (s : State) (i : Nat) (x : FlightState) : (setFlight i x s).fault = s.fault := rfl
@[simp] theorem setFlight_weave (s : State) (i : Nat) (x : FlightState) : (setFlight i x s).weave = s.weave := rfl
@[simp] theorem setFlight_therm (s : State) (i : Nat) (x : FlightState) : (setFlight i x s).therm = s.therm := rfl
@[simp] theorem setFlight_fuse (s : State) (i : Nat) (x : FlightState) : (setFlight i x s).fuse = s.fuse := rfl
@[simp] theorem setFlight_flash (s : State) (i : Nat) (x : FlightState) : (setFlight i x s).flash = s.flash := rfl
@[simp] theorem setFlight_boot (s : State) (i : Nat) (x : FlightState) : (setFlight i x s).boot = s.boot := rfl

@[simp] theorem setPort_pending (s : State) (p : Port) (x : LinkPort) : (s.setPort p x).pending = s.pending := by cases p <;> rfl
@[simp] theorem setPort_regs (s : State) (p : Port) (x : LinkPort) : (s.setPort p x).regs = s.regs := by cases p <;> rfl
@[simp] theorem setPort_out (s : State) (p : Port) (x : LinkPort) : (s.setPort p x).out = s.out := by cases p <;> rfl
@[simp] theorem setPort_sets (s : State) (p : Port) (x : LinkPort) : (s.setPort p x).sets = s.sets := by cases p <;> rfl
@[simp] theorem setPort_freeCtr (s : State) (p : Port) (x : LinkPort) : (s.setPort p x).freeCtr = s.freeCtr := by cases p <;> rfl
@[simp] theorem setPort_power (s : State) (p : Port) (x : LinkPort) : (s.setPort p x).power = s.power := by cases p <;> rfl
@[simp] theorem setPort_time (s : State) (p : Port) (x : LinkPort) : (s.setPort p x).time = s.time := by cases p <;> rfl
@[simp] theorem setPort_host (s : State) (p : Port) (x : LinkPort) : (s.setPort p x).host = s.host := by cases p <;> rfl
@[simp] theorem setPort_field (s : State) (p : Port) (x : LinkPort) : (s.setPort p x).field = s.field := by cases p <;> rfl
@[simp] theorem setPort_pix (s : State) (p : Port) (x : LinkPort) : (s.setPort p x).pix = s.pix := by cases p <;> rfl
@[simp] theorem setPort_roi (s : State) (p : Port) (x : LinkPort) : (s.setPort p x).roi = s.roi := by cases p <;> rfl
@[simp] theorem setPort_wfe (s : State) (p : Port) (x : LinkPort) : (s.setPort p x).wfe = s.wfe := by cases p <;> rfl
@[simp] theorem setPort_cores (s : State) (p : Port) (x : LinkPort) : (s.setPort p x).cores = s.cores := by cases p <;> rfl
@[simp] theorem setPort_knots (s : State) (p : Port) (x : LinkPort) : (s.setPort p x).knots = s.knots := by cases p <;> rfl
@[simp] theorem setPort_mem (s : State) (p : Port) (x : LinkPort) : (s.setPort p x).mem = s.mem := by cases p <;> rfl
@[simp] theorem setPort_poison (s : State) (p : Port) (x : LinkPort) : (s.setPort p x).poison = s.poison := by cases p <;> rfl
@[simp] theorem setPort_serve (s : State) (p : Port) (x : LinkPort) : (s.setPort p x).serve = s.serve := by cases p <;> rfl
@[simp] theorem setPort_fault (s : State) (p : Port) (x : LinkPort) : (s.setPort p x).fault = s.fault := by cases p <;> rfl
@[simp] theorem setPort_weave (s : State) (p : Port) (x : LinkPort) : (s.setPort p x).weave = s.weave := by cases p <;> rfl
@[simp] theorem setPort_therm (s : State) (p : Port) (x : LinkPort) : (s.setPort p x).therm = s.therm := by cases p <;> rfl
@[simp] theorem setPort_fuse (s : State) (p : Port) (x : LinkPort) : (s.setPort p x).fuse = s.fuse := by cases p <;> rfl
@[simp] theorem setPort_flash (s : State) (p : Port) (x : LinkPort) : (s.setPort p x).flash = s.flash := by cases p <;> rfl
@[simp] theorem setPort_boot (s : State) (p : Port) (x : LinkPort) : (s.setPort p x).boot = s.boot := by cases p <;> rfl

@[simp] theorem setPort_port (s : State) (p : Port) (x : LinkPort) : (s.setPort p x).port p = x := by cases p <;> rfl

theorem setPort_port_ne (s : State) (p q : Port) (x : LinkPort) (h : q ≠ p) : (s.setPort p x).port q = s.port q := by
  cases p <;> cases q <;> first | rfl | exact absurd rfl h

/-! ### Registers -/

/-- A register reads as written. -/
theorem reg_setReg {s : State} (h : smWf resetVal s.regs = true) (off : Nat) (w : Word) : (s.setReg off w).reg off = w :=
  smGet_smSet (d := resetVal) h

/-- A write leaves every other register alone. -/
theorem reg_setReg_ne {s : State} (h : smWf resetVal s.regs = true) {off o : Nat} (w : Word) (ho : o ≠ off) :
    (s.setReg off w).reg o = s.reg o :=
  smGet_smSet_ne (d := resetVal) h ho

theorem setReg_wf {s : State} (h : smWf resetVal s.regs = true) (off : Nat) (w : Word) :
    smWf resetVal (s.setReg off w).regs = true :=
  smSet_wf h

theorem setFld_wf {s : State} (h : smWf resetVal s.regs = true) (off lo len v : Nat) :
    smWf resetVal (s.setFld off lo len v).regs = true :=
  smSet_wf h

theorem setFlag_wf {s : State} (h : smWf resetVal s.regs = true) (off i : Nat) (b : Bool) :
    smWf resetVal (s.setFlag off i b).regs = true :=
  smSet_wf h

theorem hwSet_wf {s : State} (h : smWf resetVal s.regs = true) (off : Nat) (f : Word → Word) :
    smWf resetVal (s.hwSet off f).regs = true :=
  smSet_wf h

/-- A register after a hardware set (R5, R6). -/
theorem reg_hwSet {s : State} (h : smWf resetVal s.regs = true) (off : Nat) (f : Word → Word) :
    (s.hwSet off f).reg off = f (s.reg off) :=
  reg_setReg h off (f (s.reg off))

theorem reg_hwSet_ne {s : State} (h : smWf resetVal s.regs = true) {off o : Nat} (f : Word → Word) (ho : o ≠ off) :
    (s.hwSet off f).reg o = s.reg o :=
  reg_setReg_ne h _ ho

theorem bumpSat_wf {s : State} (h : smWf resetVal s.regs = true) (off len n : Nat) :
    smWf resetVal (s.bumpSat off len n).regs = true :=
  hwSet_wf h _ _

theorem reg_setFld_ne {s : State} (h : smWf resetVal s.regs = true) {off o : Nat} (lo len v : Nat) (ho : o ≠ off) :
    (s.setFld off lo len v).reg o = s.reg o :=
  reg_setReg_ne h _ ho

theorem reg_setFlag_ne {s : State} (h : smWf resetVal s.regs = true) {off o : Nat} (i : Nat) (b : Bool) (ho : o ≠ off) :
    (s.setFlag off i b).reg o = s.reg o :=
  reg_setReg_ne h _ ho

theorem reg_bumpSat_ne {s : State} (h : smWf resetVal s.regs = true) {off o : Nat} (len n : Nat) (ho : o ≠ off) :
    (s.bumpSat off len n).reg o = s.reg o :=
  reg_hwSet_ne h _ ho

/-- The bits of a word after one of its fields is set. -/
theorem getLsbD_putBits {n : Nat} (w : BitVec n) (lo len v i : Nat) (hi : i < n) :
    (putBits w lo len v).getLsbD i = if lo ≤ i ∧ i < lo + len then v.testBit (i - lo) else w.getLsbD i := by
  simp only [putBits, BitVec.getLsbD_or, BitVec.getLsbD_and, BitVec.getLsbD_not, BitVec.getLsbD_ofNat, hi, decide_true,
    Bool.true_and, Nat.testBit_shiftLeft, Nat.testBit_two_pow_sub_one, Nat.testBit_mod_two_pow]
  by_cases h1 : lo ≤ i
  · by_cases h2 : i < lo + len
    · have : i - lo < len := by omega
      simp [h1, h2, this]
    · have : ¬ i - lo < len := by omega
      simp [h1, h2, this]
  · simp [h1]

/-- A field reads as set. -/
theorem bits_putBits {n : Nat} (w : BitVec n) (lo len v : Nat) (h : lo + len ≤ n) :
    bits (putBits w lo len v) lo len = v % 2 ^ len := by
  apply Nat.eq_of_testBit_eq
  intro i
  simp only [bits, Nat.testBit_mod_two_pow, Nat.testBit_shiftRight]
  by_cases hi : i < len
  · have := getLsbD_putBits w lo len v (lo + i) (by omega)
    simp only [BitVec.getLsbD] at this
    simp [hi, this]
  · simp [hi]

/-- A field that another write does not reach keeps its value. -/
theorem bits_putBits_ne {n : Nat} (w : BitVec n) (lo len lo' len' v : Nat) (h' : lo' + len' ≤ n)
    (h : lo' + len' ≤ lo ∨ lo + len ≤ lo') : bits (putBits w lo len v) lo' len' = bits w lo' len' := by
  apply Nat.eq_of_testBit_eq
  intro i
  simp only [bits, Nat.testBit_mod_two_pow, Nat.testBit_shiftRight]
  by_cases hi : i < len'
  · have := getLsbD_putBits w lo len v (lo' + i) (by omega)
    have hn : ¬ (lo ≤ lo' + i ∧ lo' + i < lo + len) := by omega
    simp only [BitVec.getLsbD, hn, if_false] at this
    simp [hi, this]
  · simp [hi]

theorem fld_eq_bits (s : State) (off lo len : Nat) : s.fld off lo len = bits (s.reg off) lo len := rfl

/-- A field of a register reads as written. -/
theorem fld_setFld {s : State} (h : smWf resetVal s.regs = true) (off lo len v : Nat) (hl : lo + len ≤ 32) :
    (s.setFld off lo len v).fld off lo len = v % 2 ^ len := by
  rw [fld_eq_bits, State.setFld, reg_setReg h, bits_putBits _ _ _ _ hl]

theorem fld_setFld_ne {s : State} (h : smWf resetVal s.regs = true) (off lo len v lo' len' : Nat) (hl : lo' + len' ≤ 32)
    (hd : lo' + len' ≤ lo ∨ lo + len ≤ lo') : (s.setFld off lo len v).fld off lo' len' = s.fld off lo' len' := by
  rw [fld_eq_bits, State.setFld, reg_setReg h, bits_putBits_ne _ _ _ _ _ _ hl hd, fld_eq_bits]

theorem fld_setReg_ne {s : State} (h : smWf resetVal s.regs = true) {off o : Nat} (w : Word) (lo len : Nat) (ho : o ≠ off) :
    (s.setReg off w).fld o lo len = s.fld o lo len := by
  rw [fld_eq_bits, reg_setReg_ne h _ ho, fld_eq_bits]

theorem fld_setFld_reg_ne {s : State} (h : smWf resetVal s.regs = true) {off o : Nat} (lo len v lo' len' : Nat)
    (ho : o ≠ off) : (s.setFld off lo len v).fld o lo' len' = s.fld o lo' len' := fld_setReg_ne h _ _ _ ho

theorem flag_setReg_ne {s : State} (h : smWf resetVal s.regs = true) {off o : Nat} (w : Word) (i : Nat) (ho : o ≠ off) :
    (s.setReg off w).flag o i = s.flag o i := by
  rw [State.flag, reg_setReg_ne h _ ho, State.flag]

/-- A bit of a register reads as written. -/
theorem flag_setFlag {s : State} (h : smWf resetVal s.regs = true) (off i : Nat) (b : Bool) (hi : i < 32) :
    (s.setFlag off i b).flag off i = b := by
  rw [State.flag, State.setFlag, State.setFld, reg_setReg h, getLsbD_putBits _ _ _ _ _ hi]
  cases b <;> simp

theorem flag_setFld_ne {s : State} (h : smWf resetVal s.regs = true) (off lo len v i : Nat) (hi : i < 32)
    (hd : i < lo ∨ lo + len ≤ i) : (s.setFld off lo len v).flag off i = s.flag off i := by
  rw [State.flag, State.setFld, reg_setReg h, getLsbD_putBits _ _ _ _ _ hi, if_neg (by omega), State.flag]

theorem flag_setFlag_ne {s : State} (h : smWf resetVal s.regs = true) (off i j : Nat) (b : Bool) (hi : i < 32)
    (hd : i ≠ j) : (s.setFlag off j b).flag off i = s.flag off i :=
  flag_setFld_ne h off j 1 _ i hi (by omega)

/-- A saturating counter counts up to its width. -/
theorem fld_bumpSat {s : State} (h : smWf resetVal s.regs = true) (off len n : Nat) (hl : len ≤ 32) :
    (s.bumpSat off len n).fld off 0 len = min (s.fld off 0 len + n) (2 ^ len - 1) := by
  rw [fld_eq_bits, State.bumpSat, State.bumpAt, reg_hwSet h, bits_putBits _ _ _ _ (by omega), Nat.mod_eq_of_lt,
    ← fld_eq_bits]
  have := Nat.two_pow_pos len
  omega

/-! ### Codes -/

/-- A code of 0x0000 is no report. -/
@[simp] theorem latch_zero (core : Nat) (s : State) : latch 0 core s = s := by simp [latch]

@[simp] theorem latch_pending (c : Code) (core : Nat) (s : State) : (latch c core s).pending = s.pending := by
  unfold latch; repeat' split
  all_goals rfl
@[simp] theorem latch_out (c : Code) (core : Nat) (s : State) : (latch c core s).out = s.out := by
  unfold latch; repeat' split
  all_goals rfl
@[simp] theorem latch_freeCtr (c : Code) (core : Nat) (s : State) : (latch c core s).freeCtr = s.freeCtr := by
  unfold latch; repeat' split
  all_goals rfl
@[simp] theorem latch_power (c : Code) (core : Nat) (s : State) : (latch c core s).power = s.power := by
  unfold latch; repeat' split
  all_goals rfl
@[simp] theorem latch_time (c : Code) (core : Nat) (s : State) : (latch c core s).time = s.time := by
  unfold latch; repeat' split
  all_goals rfl
@[simp] theorem latch_basket (c : Code) (core : Nat) (s : State) : (latch c core s).basket = s.basket := by
  unfold latch; repeat' split
  all_goals rfl
@[simp] theorem latch_host (c : Code) (core : Nat) (s : State) : (latch c core s).host = s.host := by
  unfold latch; repeat' split
  all_goals rfl
@[simp] theorem latch_field (c : Code) (core : Nat) (s : State) : (latch c core s).field = s.field := by
  unfold latch; repeat' split
  all_goals rfl
@[simp] theorem latch_pix (c : Code) (core : Nat) (s : State) : (latch c core s).pix = s.pix := by
  unfold latch; repeat' split
  all_goals rfl
@[simp] theorem latch_roi (c : Code) (core : Nat) (s : State) : (latch c core s).roi = s.roi := by
  unfold latch; repeat' split
  all_goals rfl
@[simp] theorem latch_wfe (c : Code) (core : Nat) (s : State) : (latch c core s).wfe = s.wfe := by
  unfold latch; repeat' split
  all_goals rfl
@[simp] theorem latch_cores (c : Code) (core : Nat) (s : State) : (latch c core s).cores = s.cores := by
  unfold latch; repeat' split
  all_goals rfl
@[simp] theorem latch_knots (c : Code) (core : Nat) (s : State) : (latch c core s).knots = s.knots := by
  unfold latch; repeat' split
  all_goals rfl
@[simp] theorem latch_mem (c : Code) (core : Nat) (s : State) : (latch c core s).mem = s.mem := by
  unfold latch; repeat' split
  all_goals rfl
@[simp] theorem latch_poison (c : Code) (core : Nat) (s : State) : (latch c core s).poison = s.poison := by
  unfold latch; repeat' split
  all_goals rfl
@[simp] theorem latch_serve (c : Code) (core : Nat) (s : State) : (latch c core s).serve = s.serve := by
  unfold latch; repeat' split
  all_goals rfl
@[simp] theorem latch_fault (c : Code) (core : Nat) (s : State) : (latch c core s).fault = s.fault := by
  unfold latch; repeat' split
  all_goals rfl
@[simp] theorem latch_weave (c : Code) (core : Nat) (s : State) : (latch c core s).weave = s.weave := by
  unfold latch; repeat' split
  all_goals rfl
@[simp] theorem latch_therm (c : Code) (core : Nat) (s : State) : (latch c core s).therm = s.therm := by
  unfold latch; repeat' split
  all_goals rfl
@[simp] theorem latch_fuse (c : Code) (core : Nat) (s : State) : (latch c core s).fuse = s.fuse := by
  unfold latch; repeat' split
  all_goals rfl
@[simp] theorem latch_flash (c : Code) (core : Nat) (s : State) : (latch c core s).flash = s.flash := by
  unfold latch; repeat' split
  all_goals rfl
@[simp] theorem latch_boot (c : Code) (core : Nat) (s : State) : (latch c core s).boot = s.boot := by
  unfold latch; repeat' split
  all_goals rfl

end Sys2Proof.Machine
end

