-- ==== Sys2Proof/Certificates/Slice0/Obligations.lean ====
section
/-!
DEFINITION. Obligations.lean: what is to be proved about the package: every command completes with its effect where the
spec says it does; what each command leaves alone; invariants of every step; and single rules of the spec.
-/

open Sys2Proof Sys2Proof.Machine

/-- CLK commands (R29, R30, R33, R44) where each has its effect: APPLY accepted on a served package that leads or is
unjoined waits for its boundary and, joined, floods a CLOCK word; at the boundary the core PLL relocks to the new MULT
and SPREAD; when it has locked, the beat counter is computed afresh; a lost PLL lock and a failed reference in use are
counted; the measurement of aclk sets TIME_AON_INC. Where the spec leaves the form of an output, an operand or a moment
open, this rests on the model's own choices, log entries 2, 20 and 63. -/
def Obligations.ClockCommandsComplete : Prop :=
  (∀ s : State, Served s → 16 ≤ s.fld Reg.clkCoreCfg 0 6 → s.fld Reg.clkCoreCfg 0 6 ≤ 56 →
    (s.basket.joined = true → s.basket.isPrincipal = true) → s.weave.run = none → s.weave.load = none →
    (32 < s.fld Reg.clkCoreCfg 0 6 → s.flag Reg.fuseStatus 18 = true) →
    Completes .clkApply s (fun t =>
      t.time.pendClock = some
        (BitVec.ofNat 64 (if s.basket.joined then boundaryAhead s else nextBoundary s),
         BitVec.ofNat 6 (s.fld Reg.clkCoreCfg 0 6), BitVec.ofNat 2 (s.fld Reg.clkCoreCfg 8 2)) ∧
      (s.basket.joined = true → t.basket.lastTime =
        some (clockWord (s.fld Reg.clkCoreCfg 0 6) (s.fld Reg.clkCoreCfg 8 2) (boundaryAhead s))) ∧
      t.time.mult = s.time.mult ∧ t.time.spread = s.time.spread ∧ Only [.time, .basket] s t)) ∧
  (∀ (s : State) (b : BitVec 64) (m : BitVec 6) (sp : BitVec 2), Canon s →
    s.time.pendClock = some (b, m, sp) → b.toNat ≤ s.nowNs →
    Completes .pllRelock s (fun t =>
      t.time = { s.time with mult := m, spread := sp, pendClock := none, relocking := true,
                             cclk := false } ∧
      t.fld Reg.clkCoreCfg 0 6 = m.toNat ∧ t.fld Reg.clkCoreCfg 8 2 = sp.toNat ∧ t.flag Reg.clkStatus 0 = false ∧
      Only [.time, .regs] s t ∧ RegsOnly [Reg.clkCoreCfg, Reg.clkStatus] s t)) ∧
  (∀ s : State, Canon s → s.time.relocking = true →
    Completes .pllRelockDone s (fun t =>
      t.time = { s.time with relocking := false, cclk := true, beatNum := BitVec.ofNat 64 s.beatNow } ∧
      t.flag Reg.clkStatus 0 = true ∧
      (s.weave.load = none → Only [.time, .regs] s t ∧ RegsOnly [Reg.clkStatus] s t))) ∧
  (∀ (p : Pll) (s : State), Canon s → s.flag Reg.clkStatus (pllBit p) = true → s.weave.run = none →
    s.wfe.a.running = false → s.wfe.b.running = false →
    Completes (.pllLockLoss p) s (fun t =>
      t.flag Reg.clkStatus (pllBit p) = false ∧
      t.fld Reg.clkLossCnt 0 16 = min (s.fld Reg.clkLossCnt 0 16 + 1) 65535 ∧
      Only [.regs, .wfe] s t ∧ RegsOnly [Reg.clkStatus, Reg.clkLossCnt] s t)) ∧
  (∀ s : State, Canon s → s.flag Reg.clkStatus 4 = true →
    Completes (.refFail .tree) s (fun t =>
      t.flag Reg.clkStatus 4 = false ∧ t.fld Reg.clkLossCnt 0 16 = min (s.fld Reg.clkLossCnt 0 16 + 1) 65535 ∧
      Only [.regs] s t ∧ RegsOnly [Reg.clkStatus, Reg.clkLossCnt] s t)) ∧
  (∀ (r : BitVec 32) (s : State), Canon s → s.time.cclk = true → r ≠ 0 →
    Completes (.aclkMeasure r) s (fun t =>
      t.reg Reg.timeAonInc = BitVec.ofNat 32 (r.toNat * 1280) ∧ t.flag Reg.clkStatus 6 = true ∧
      Only [.regs] s t ∧ RegsOnly [Reg.timeAonInc, Reg.clkAclkPpm, Reg.clkStatus] s t))

/-- Belt time is read whole: a read of TIME_NOW_LO, TIME_BEAT_NUM_LO or TIME_BEAT_STAMP_LO on a served package returns
the low word and latches the rest (R37, R40). Where the spec leaves the form of an output, an operand or a moment
open, this rests on the model's own choice, log entry 2. -/
def Obligations.TimeReadsComplete : Prop :=
  (∀ s : State, Served s → exec .timeNowLoRead s =
    .next { s with time := { s.time with shadow := s.time.belt },
                   out := s.out ++ [.readData Reg.timeNowLo (BitVec.ofNat 32 s.nowNs)] }) ∧
  (∀ s : State, Served s → Completes .timeBeatNumLoRead s (fun t =>
    t.time.numHi = (s.time.beatNum >>> 32).setWidth 32 ∧
    t.out = s.out ++ [.readData Reg.timeBeatNumLo (s.time.beatNum.setWidth 32)] ∧ Only [.time, .out] s t)) ∧
  (∀ s : State, Served s → Completes .timeBeatStampLoRead s (fun t =>
    t.time.stampHi = (s.time.beatStamp >>> 32).setWidth 32 ∧
    t.out = s.out ++ [.readData Reg.timeBeatStampLo (s.time.beatStamp.setWidth 32)] ∧ Only [.time, .out] s t))

/-- SET, the beat values and the alignment (R34 to R36, R39, R40) where each has its effect. An accepted SET waits for
its boundary and the step moves belt time there in one go; accepted beat values wait and then take effect, and the
counter is computed afresh; alignment is reached and lost at ±0.5 ns. Where the spec leaves the form of an output, an
operand or a moment open, this rests on the model's own choices, log entries 20 and 63. -/
def Obligations.TimeCommandsComplete : Prop :=
  (∀ s : State, Served s → s.weave.run = none → s.weave.load = none →
    (s.basket.joined = true → s.basket.isPrincipal = true) → s.time.pendStep = none →
    s.pair Reg.timeSetLo Reg.timeSetHi % 32000 = 0 → boundaryAhead s < s.pair Reg.timeSetLo Reg.timeSetHi →
    Completes .timeSet s (fun t =>
      t.time = { s.time with pendStep := some (BitVec.ofNat 64 (boundaryAhead s),
                                               BitVec.ofNat 64 (s.pair Reg.timeSetLo Reg.timeSetHi)) } ∧
      (s.basket.joined = true → t.basket.lastTime =
        some (stepWord (boundaryAhead s) (s.pair Reg.timeSetLo Reg.timeSetHi))) ∧ Only [.time, .basket] s t)) ∧
  (∀ (s : State) (b set : BitVec 64), s.time.pendStep = some (b, set) → b.toNat ≤ s.nowNs →
    Completes .timeStepApply s (fun t =>
      t.nowNs = max s.nowNs set.toNat ∧ t.time.slew = s.time.slew ∧ t.time.pendStep = none ∧
      t.time.pendBeats = s.time.pendBeats.filter (fun x => decide (max s.nowNs set.toNat < x.1.toNat)) ∧
      t.time.beatNum = BitVec.ofNat 64 t.beatNow ∧
      (s.time.pendBeats = [] → s.weave.load = none → Only [.time] s t))) ∧
  (∀ (v : Word) (s : State), Canon s → Served s → s.weave.run = none → s.weave.load = none →
    (s.basket.joined = true → s.basket.isPrincipal = true) → 4096 ≤ v.toNat % 2 ^ 22 → v.toNat % 2 ^ 22 ≤ 2097152 →
    Completes (.timeBeatLenWrite v 15) s (fun t =>
      t.fld Reg.timeBeatLen 0 22 = v.toNat % 2 ^ 22 ∧
      t.time.pendBeats = s.time.pendBeats ++
        [(BitVec.ofNat 64 (boundaryAhead s), BitVec.ofNat 22 v.toNat,
          BitVec.ofNat 64 (s.pair Reg.timeBeatEpochLo Reg.timeBeatEpochHi))] ∧
      t.time.beatLen = s.time.beatLen ∧ Only [.time, .basket, .regs] s t ∧ RegsOnly [Reg.timeBeatLen] s t)) ∧
  (∀ (v : Word) (s : State), Canon s → Served s → s.weave.run = none → s.weave.load = none →
    (s.basket.joined = true → s.basket.isPrincipal = true) →
    ((s.stagedLo Reg.timeBeatEpochLo).toNat + v.toNat * 2 ^ 32) % 32000 = 0 →
    Completes (.timeBeatEpochWrite v 15) s (fun t =>
      t.reg Reg.timeBeatEpochLo = s.stagedLo Reg.timeBeatEpochLo ∧ t.reg Reg.timeBeatEpochHi = v ∧
      t.time.pendBeats = s.time.pendBeats ++
        [(BitVec.ofNat 64 (boundaryAhead s), BitVec.ofNat 22 (s.fld Reg.timeBeatLen 0 22),
          v ++ s.stagedLo Reg.timeBeatEpochLo)] ∧
      t.time.epoch = s.time.epoch ∧ Only [.time, .basket, .regs] s t ∧
      RegsOnly [Reg.timeBeatEpochLo, Reg.timeBeatEpochHi] s t)) ∧
  (∀ (s : State) (bd e : BitVec 64) (b : BitVec 22), Canon s →
    (s.time.pendBeats.filter (fun x => decide (x.1.toNat ≤ s.nowNs))).getLast? = some (bd, b, e) →
    s.time.pendStep = none →
    Completes .beatValuesApply s (fun t =>
      t.time.beatLen = b ∧ t.time.epoch = e ∧ t.time.belt = s.time.belt ∧
      t.time.pendBeats = s.time.pendBeats.filter (fun x => decide (s.nowNs < x.1.toNat)) ∧
      t.time.beatNum = BitVec.ofNat 64 t.beatNow ∧
      (t.time.pendBeats = [] → t.fld Reg.timeBeatLen 0 22 = b.toNat ∧ t.reg Reg.timeBeatEpochLo = e.setWidth 32 ∧
        t.reg Reg.timeBeatEpochHi = (e >>> 32).setWidth 32) ∧
      (s.weave.load = none → Only [.time, .regs] s t ∧
        RegsOnly [Reg.timeBeatLen, Reg.timeBeatEpochLo, Reg.timeBeatEpochHi] s t))) ∧
  (∀ (o : BitVec 16) (s : State), Canon s → s.basket.joined = true → s.basket.joinAt = none →
    -128 ≤ o.toInt → o.toInt ≤ 128 →
    Completes (.alignAchieved o) s (fun t =>
      t.fld Reg.timeAlign 0 16 = o.toNat ∧ t.flag Reg.timeAlign 24 = true ∧
      t.time = { s.time with slew := -(o.toInt * 256) } ∧ Only [.regs, .time] s t ∧
      RegsOnly [Reg.timeAlign] s t)) ∧
  (∀ (o : BitVec 16) (s : State), Canon s → s.basket.joined = true → (o.toInt < -128 ∨ 128 < o.toInt) →
    s.weave.run = none →
    Completes (.alignLoss o) s (fun t =>
      t.fld Reg.timeAlign 0 16 = o.toNat ∧ t.flag Reg.timeAlign 24 = false ∧
      t.time = { s.time with slew := -(o.toInt * 256) } ∧ Only [.regs, .time] s t ∧
      RegsOnly [Reg.timeAlign] s t))

/-- The fuse controller's commands (R303, R307 to R314, R318) where each is accepted: it is taken with its word and
data, BUSY is set, and the words that it will program are its plan; no fuse changes before FUSE_CMD_DONE. Where the spec
leaves the form of an output, an operand or a moment open, this rests on the model's own choices, log entries 22 and 71.
-/
def Obligations.FuseCommandsComplete : Prop :=
  (∀ (src : Writer) (w : BitVec 9) (s : State), Canon s → Served s → s.fuse.cmd = none →
    Completes (.fuseRead src w) s (FuseStarted 1 w (isSteward src) [] s) ∧
    Completes (.fuseVerify src w) s (FuseStarted 3 w (isSteward src) [] s)) ∧
  (∀ (src : Writer) (w : BitVec 9) (s : State), Canon s → Served s → s.fuse.cmd = none → w.toNat < 4 →
    Completes (.fuseCtrRead src w) s (FuseStarted 7 w (isSteward src) [] s)) ∧
  (∀ (src : Writer) (w : BitVec 9) (vio : Bool) (s : State), Canon s → Served s → s.fuse.cmd = none →
    fuseReserved w.toNat = false → fuseAllowed s.lifecycle (isSteward src) w.toNat = true → fuseConditions vio s = true →
    (fuseAccumulate w.toNat = true → s.fuseWord w.toNat &&& ~~~(s.reg Reg.fuseWdata) = 0) →
    (fuseAccumulate w.toNat = false → ∀ c < 3, s.fuse.copy w.toNat c = 0 ∧ s.fuse.strict w.toNat c = 0) →
    Completes (.fuseProgram src w vio) s
      (FuseStarted 2 w (isSteward src) [(w.toNat, s.reg Reg.fuseWdata)] s)) ∧
  (∀ (src : Writer) (w : BitVec 9) (vio : Bool) (s : State), Canon s → Served s → s.fuse.cmd = none →
    fuseReserved w.toNat = false → fuseAllowed s.lifecycle (isSteward src) w.toNat = true → fuseConditions vio s = true →
    (∀ c < 3, (s.fuse.copy w.toNat c ||| s.fuse.strict w.toNat c) &&& ~~~(s.reg Reg.fuseWdata) = 0) →
    Completes (.fuseRepair src w vio) s
      (FuseStarted 4 w (isSteward src) [(w.toNat, s.reg Reg.fuseWdata)] s)) ∧
  (∀ (src : Writer) (w : BitVec 9) (vio : Bool) (s : State), Canon s → Served s → s.fuse.cmd = none →
    s.weave.run = none → fuseConditions vio s = true → s.flag Reg.fuseStatus 17 = true →
    s.lifecycle < bits (s.reg Reg.fuseWdata) 0 3 → bits (s.reg Reg.fuseWdata) 0 3 ≤ 2 →
    s.fuseWord 16 &&& ~~~(lifecycleFuse (bits (s.reg Reg.fuseWdata) 0 3)) = 0 →
    Completes (.fuseAdvance src w vio) s
      (FuseStarted 5 w (isSteward src) [(16, lifecycleFuse (bits (s.reg Reg.fuseWdata) 0 3))] s)) ∧
  (∀ (src : Writer) (w : BitVec 9) (vio : Bool) (s : State), Canon s → Served s → s.fuse.cmd = none →
    s.weave.run = none → fuseConditions vio s = true → s.flag Reg.fuseStatus 17 = true →
    s.lifecycle < 3 → bits (s.reg Reg.fuseWdata) 0 3 = 3 →
    s.fuseWord 511 &&& ~~~(fuseCrc s.fuseWord 448 48) = 0 → (∀ i < 48, verifyCode s.fuse (448 + i) = 0) →
    s.fuseWord 16 &&& ~~~(0x7777#32) = 0 →
    Completes (.fuseAdvance src w vio) s
      (FuseStarted 5 w (isSteward src) [(511, fuseCrc s.fuseWord 448 48), (16, 0x7777)] s)) ∧
  (∀ (src : Writer) (w : BitVec 9) (vio : Bool) (s : State), Canon s → Served s → s.fuse.cmd = none → w.toNat < 4 →
    s.lifecycle ≤ 3 → fuseConditions vio s = true →
    counterValue (counterBits s.fuseWord w.toNat) ≤ (s.reg Reg.fuseWdata).toNat → (s.reg Reg.fuseWdata).toNat ≤ 256 →
    Completes (.fuseCtrSet src w vio) s
      (FuseStarted 6 w (isSteward src) (counterPlan w.toNat (s.reg Reg.fuseWdata).toNat) s))

/-- FUSE_CMD_DONE (R303, R304, R309 to R311, R318): a READ of a word that is neither hidden nor reserved returns the
word; VERIFY returns its outcome; CTR_READ returns the counter; a PROGRAM whose pulses all take leaves every copy of the
word at the value, no other copy changed, and FUSE_WDATA zero. BUSY is clear and the controller is free. Where the spec
leaves the form of an output, an operand or a moment open, this rests on the model's own choices, log entries 10, 20 and
71. -/
def Obligations.FuseCompletionsComplete : Prop :=
  (∀ (w : BitVec 9) (d : Word) (st : Bool) (os : List FuseOutcome) (s : State), Canon s →
    s.fuse.cmd = some ⟨1, w, d, st, []⟩ → fuseHidden w.toNat = false → fuseReserved w.toNat = false →
    (w.toNat < 448 ∨ 495 < w.toNat) →
    Completes (.fuseCmdDone os) s (fun t =>
      t.reg Reg.fuseRdata = s.fuseWord w.toNat ∧ t.reg Reg.fuseResult = 0 ∧ t.flag Reg.fuseStatus 0 = false ∧
      t.fuse = { s.fuse with cmd := none } ∧ Only [.regs, .fuse] s t ∧
      RegsOnly [Reg.fuseRdata, Reg.fuseResult, Reg.fuseStatus] s t)) ∧
  (∀ (w : BitVec 9) (d : Word) (st : Bool) (os : List FuseOutcome) (s : State), Canon s →
    s.fuse.cmd = some ⟨3, w, d, st, []⟩ →
    Completes (.fuseCmdDone os) s (fun t =>
      t.fld Reg.fuseResult 0 16 = (verifyCode s.fuse w.toNat).toNat ∧ t.flag Reg.fuseStatus 0 = false ∧
      t.fuse = { s.fuse with cmd := none } ∧ Only [.regs, .fuse] s t)) ∧
  (∀ (w : BitVec 9) (d : Word) (st : Bool) (os : List FuseOutcome) (s : State), Canon s →
    s.fuse.cmd = some ⟨7, w, d, st, []⟩ →
    Completes (.fuseCmdDone os) s (fun t =>
      t.reg Reg.fuseRdata = BitVec.ofNat 32 (counterValue (counterBits s.fuseWord w.toNat)) ∧
      t.flag Reg.fuseStatus 0 = false ∧ t.fuse = { s.fuse with cmd := none } ∧ Only [.regs, .fuse] s t)) ∧
  (∀ (w : BitVec 9) (d : Word) (st : Bool) (n : BitVec 4) (s : State), Canon s →
    s.fuse.cmd = some ⟨2, w, d, st, [(w.toNat, d)]⟩ →
    (∀ c < 3, s.fuse.copy w.toNat c &&& ~~~d = 0 ∧ smGet 0 s.fuse.weak (3 * w.toNat + c) = 0) →
    Completes (.fuseCmdDone [⟨n, 0, 0⟩]) s (fun t =>
      (∀ c < 3, t.fuse.copy w.toNat c = d) ∧ t.fuseWord w.toNat = d ∧
      (∀ k, k / 3 ≠ w.toNat → smGet 0 t.fuse.copies k = smGet 0 s.fuse.copies k) ∧ t.fuse.cmd = none ∧
      t.fld Reg.fuseResult 0 16 = 0 ∧ t.reg Reg.fuseWdata = 0 ∧ t.flag Reg.fuseStatus 0 = false ∧
      Only [.regs, .fuse] s t ∧ RegsOnly [Reg.fuseResult, Reg.fuseStatus, Reg.fuseWdata] s t))

/-- Reset and start-up (R14, R24, R287, R303, R306, R321 to R324, R330, R341) where each event has its effect. Where the
spec leaves the form of an output, an operand or a moment open, this rests on the model's own choices, log entries 2, 5,
23, 24, 33 and 71. -/
def Obligations.StartUpCompletes : Prop :=
  (∀ (id : BitVec 6) (an : Bool) (s : State), s.power.phase = .inReset →
    Completes (.coldStart id an) s (fun t =>
      t.pkg = id ∧ t.anchor = an ∧ t.power.phase = .rails ∧ t.power.railA = true ∧ t.power.railB = true ∧
      t.power.latchNs = s.nowNs ∧
      t.out = s.out ++ [.ball .fault false, .ball .railenA true, .ball .railenB true] ∧ Only [.out, .power] s t)) ∧
  (∀ (id : BitVec 6) (an : Bool) (s : State), s.power.phase ≠ .inReset → s.power.resampled = false →
    1000000 ≤ s.nowNs →
    Completes (.strapResample id an) s (fun t =>
      t.power = { s.power with strap2 := BitVec.ofNat 7 (id.toNat + an.toNat * 64), resampled := true } ∧
      t.pkg = s.pkg ∧ t.anchor = s.anchor ∧ Only [.regs, .out, .power, .host] s t ∧
      (BitVec.ofNat 7 (id.toNat + an.toNat * 64) = s.power.strap1 → Only [.power] s t))) ∧
  (∀ (s : State), Canon s → s.power.phase = .rails → s.power.railA = true → s.power.pgoodB = true →
    nthD false (regionOk s) 0 = true → nthD false (regionOk s) 4 = true →
    Completes (.pgoodRise .a) s (fun t =>
      t.power = { s.power with pgoodA := true, phase := .locking } ∧ (∀ w < 416, t.shadowWord w = s.fuseWord w) ∧
      t.reg Reg.idDevice = s.fuseWord 1 ∧ t.reg Reg.idSerialLo = s.fuseWord 0 ∧ t.reg Reg.idSerialHi = s.fuseWord 2 ∧
      (∀ i < 9, t.flag Reg.fuseStatus (16 + i) = nthD false (regionOk s) i) ∧ t.fuse.copies = s.fuse.copies)) ∧
  (∀ (g : RailGroup) (s : State), (s.power.phase = .rails ∨ s.power.phase = .waking) → s.pgood g = false →
    s.power.latchNs + 1000000 ≤ s.nowNs →
    Completes (.railTimeout g) s (fun t =>
      t.power = { s.power with phase := .slumber, railA := false, railB := false, pgoodA := false, pgoodB := false,
                               timeoutRec := true } ∧
      t.out = s.out ++ [.ball .railenA false, .ball .railenB false] ∧ Only [.out, .power] s t)) ∧
  (∀ (n : BitVec 2) (s : State), s.power.phase = .heldFuse n →
    Completes .faultBeacon s (fun t =>
      t.out = s.out ++ (List.replicate n.toNat [Out.ball .fault false, Out.ball .fault true]).flatten
        ++ allPorts.map (fun p => Out.whisper p (whisperMsg 4 2 (s.pkg.toNat + (0xE0 + n.toNat) * 2 ^ 8))) ∧
      Only [.out] s t)) ∧
  (∀ (f : Sfdp) (s : State), Canon s → s.power.phase = .locking → f.usable = true →
    Completes (.pllLock 7 f) s (fun t =>
      t.power.phase = .imaging ∧ t.fld Reg.clkStatus 0 3 = 7 ∧ t.flag Reg.clkStatus 3 = true ∧
      t.flag Reg.bootStatus 8 = true ∧ t.fld Reg.bootFlash 0 8 = f.log2Size.toNat ∧ t.boot.sfdp = f ∧
      t.boot.order = slotOrder s ∧ Only [.regs, .power, .time, .boot] s t ∧
      RegsOnly [Reg.clkStatus, Reg.bootFlash, Reg.bootStatus] s t)) ∧
  (∀ (b : Bool) (s : State), Canon s → s.power.phase = .imaging → s.boot.order = [b] →
    commitOk b (s.flashBytes (commitAt b) 64) = true →
    Completes .imageVerifyDone s (fun t =>
      t.power.phase = .selfTest ∧ t.boot.verified = true ∧
      t.reg (if b then Reg.bootSlotB else Reg.bootSlotA) = BitVec.ofNat 32 (slotVerdict s b).toNat ∧
      (slotVerdict s b = 0 → t.fld Reg.bootStatus 0 2 = (if b then 2 else 1)) ∧
      (slotVerdict s b ≠ 0 → t.fld Reg.bootStatus 0 2 = 0 ∧ t.boot.paired = false ∧
        Latched eBootNoImage Reg.bootErr s t) ∧ Only [.regs, .power, .boot] s t)) ∧
  (∀ (r : SelfTest) (s : State), Canon s → s.power.phase = .selfTest →
    Completes (.selftestDone r) s (fun t =>
      t.power.phase = .run ∧ t.boot.serving = true ∧ t.boot.test = r ∧ t.boot.testNs = s.nowNs ∧
      t.flag Reg.idStatus 3 = true ∧ t.level = t.levelNow ∧ Only [.regs, .out, .power, .host, .boot] s t)) ∧
  (∀ (l₁ l₂ : List Byte) (s : State), Canon s → s.power.phase = .run → s.flag Reg.bootStatus 5 = false →
    s.weave.load = none → 0x1800000 ≤ s.flashSize → s.calPart 0x400000 0x1200000 1 = some l₁ →
    s.calPart 0x1600000 0x200000 2 = some l₂ →
    Completes .calLoadDone s (fun t =>
      t.rdMem 0x40000000 l₁.length = l₁ ∧ t.rdMem 0x41200000 l₂.length = l₂ ∧ t.flag Reg.bootStatus 5 = true ∧
      t.flag Reg.bootStatus 6 = true ∧ t.flag Reg.bootStatus 7 = true ∧ t.reg Reg.roiTriBaseLo = 0x41200040 ∧
      t.reg Reg.roiTriBaseHi = 0 ∧ Only [.regs, .mem, .poison] s t ∧
      RegsOnly [Reg.bootStatus, Reg.roiTriBaseLo, Reg.roiTriBaseHi] s t))

/-- Resets, package-fatal faults and boundary scan (R274, R312, R321, R325, R327, R344, R350) where each has its
effect. RESET_N resets the whole package but for the fuses and the flash. PERST# on an anchor, REBOOT and a
package-fatal cause reset every domain other than the always-on one and go on to fuse sensing. A scan instruction that
takes the pins holds the package, and Test-Logic-Reset lets it go on. Where the spec leaves the form of an output, an
operand or a moment open, this rests on the model's own choices, log entries 5 and 22. -/
def Obligations.ResetsComplete : Prop :=
  (∀ s : State, Completes .resetNAssert s (fun t =>
    t.power = PowerState.reset ∧ t.time = TimeState.reset ∧ t.basket = BasketState.reset ∧ t.host = HostState.reset ∧
    t.regs = [] ∧ t.mem = [] ∧ t.cores = [] ∧ t.serve = ServeState.reset ∧ t.weave = WeaveState.reset ∧
    t.fault = FaultState.reset ∧ t.fuse.cmd = none ∧ t.flash = s.flash ∧ t.pending = s.pending)) ∧
  (∀ s : State, Canon s → s.anchor = true → s.power.phase = .run → s.power.pgoodA = true → s.power.pgoodB = true →
    s.fuse.cmd = none → nthD false (regionOk s) 0 = true → nthD false (regionOk s) 4 = true →
    Completes .perstAssert s (fun t => t.power.phase = .locking ∧ DomainsReset s t)) ∧
  (∀ s : State, Canon s → Served s → s.power.pgoodA = true → s.power.pgoodB = true → s.fuse.cmd = none →
    nthD false (regionOk s) 0 = true → nthD false (regionOk s) 4 = true →
    Completes (.bootReboot 1) s (fun t => t.power.phase = .locking ∧ DomainsReset s t)) ∧
  (∀ s : State, Canon s → s.power.phase = .run → s.power.pgoodA = true → s.power.pgoodB = true → s.fuse.cmd = none →
    nthD false (regionOk s) 0 = true → nthD false (regionOk s) 4 = true → s.weave.run = none →
    Completes .watchdogExpiry s (fun t => t.power.phase = .locking ∧ DomainsReset s t ∧
      (∀ p, t.port p = holdPort (s.port p))) ∧
    Completes .railFault s (fun t => t.power.phase = .locking ∧ DomainsReset s t ∧
      (∀ p, t.port p = holdPort (s.port p))) ∧
    Completes .packageFatal s (fun t => t.power.phase = .locking ∧ DomainsReset s t ∧
      (∀ p, t.port p = holdPort (s.port p)))) ∧
  (∀ (ir : BitVec 4) (s : State), Canon s → s.power.phase = .run → s.weave.run = none → s.fuse.cmd = none →
    Completes (.bscanInstruction ir) s (fun t => t.power.ir = ir ∧
      (scanTakesPins ir = true → t.power.phase = .heldScan ∧ DomainsReset s t) ∧
      (scanTakesPins ir = false → t.power.phase = .run ∧ Only [.power] s t))) ∧
  (∀ s : State, s.power.phase = .heldScan → s.power.pgoodA = true → s.power.pgoodB = true →
    nthD false (regionOk s) 0 = true → nthD false (regionOk s) 4 = true →
    Completes .testLogicReset s (fun t => t.power.ir = 0xF ∧ t.power.phase = .locking ∧
      Only [.regs, .out, .power, .time, .fuse, .boot] s t)) ∧
  (∀ s : State, Canon s → Served s → s.fld Reg.bootStatus 0 2 ≠ 0 → s.flag Reg.bootStatus 2 = false →
    s.fuse.cmd = none → s.lifecycle ≤ 3 → fuseConditions true s = true → s.floorVal < s.boot.secVer → s.boot.secVer ≤ 256 →
    Completes (.bootRaiseFloor 2) s (fun t =>
      t.fuse.cmd = some ⟨6, 0, BitVec.ofNat 32 s.boot.secVer, true, counterPlan 0 s.boot.secVer⟩ ∧
      t.flag Reg.fuseStatus 0 = true ∧ Only [.regs, .fuse] s t ∧ RegsOnly [Reg.fuseStatus] s t)) ∧
  (∀ s : State, Canon s → Served s → s.lifecycle = 1 → s.flag Reg.bootStatus 2 = true →
    Completes .pairOverride s (fun t =>
      t.flag Reg.bootCtl 0 = true ∧ t.flag Reg.bootStatus 3 = true ∧ t.flag Reg.idStatus 3 = true ∧
      t.level = t.levelNow ∧ Only [.regs] s t ∧ RegsOnly [Reg.bootCtl, Reg.bootStatus, Reg.idStatus] s t))

/-- Sleep and wake (R287 to R289, R292, R293, R295) where each command has its effect. An accepted ENTER starts the
entry; the entry counts PWR_SLEEPS and ends in Doze or Slumber with every port whispering or OFF; a wake source raises
the rails again with its code in PWR_STATUS; a wake that ends stands in Run. Where the spec leaves the form of an
output, an operand or a moment open, this rests on the model's own choices, log entries 20, 25 and 71. -/
def Obligations.SleepCommandsComplete : Prop :=
  (∀ s : State, Served s → s.weave.run = none →
    Completes .pwrEnterDoze s (fun t => t.power = { s.power with phase := .enteringDoze } ∧ Only [.power] s t)) ∧
  (∀ s : State, Served s → s.weave.run = none → s.slumberBusy = false → s.fld Reg.pwrWakeCfg 0 4 ≠ 0 →
    (s.flag Reg.pwrWakeCfg 2 = true → s.nowNs < s.pair Reg.pwrWakeAtLo Reg.pwrWakeAtHi) →
    Completes .pwrEnterSlumber s (fun t => t.power = { s.power with phase := .enteringSlumber } ∧ Only [.power] s t)) ∧
  (∀ s : State, Canon s → s.power.phase = .enteringDoze → s.host.flights = [] →
    Completes .powerEntryComplete s (fun t =>
      t.power = { s.power with phase := .doze, railA := false, pgoodA := false } ∧
      t.reg Reg.pwrSleeps = s.reg Reg.pwrSleeps + 1 ∧ t.fld Reg.clkStatus 0 3 = 0 ∧ t.wfe = WfeState.reset ∧
      t.pix = PixState.reset ∧ t.time = { s.time with cclk := false } ∧
      (∀ p, (t.port p).state = .off ∨ (t.port p).state = .whisper) ∧
      (∀ a, 0x1000000 ≤ a → t.rdMem a 1 = s.rdMem a 1) ∧
      Only [.regs, .out, .power, .time, .basket, .mem, .poison, .pix, .wfe] s t)) ∧
  (∀ s : State, Canon s → s.power.phase = .enteringSlumber → s.host.flights = [] → s.fuse.cmd = none →
    Completes .powerEntryComplete s (fun t =>
      t.power.phase = .slumber ∧ t.power.railA = false ∧ t.power.railB = false ∧
      t.reg Reg.pwrSleeps = s.reg Reg.pwrSleeps + 1 ∧ t.basket.principal = s.basket.principal ∧
      t.basket.isPrincipal = s.basket.isPrincipal ∧ t.host.bme = s.host.bme ∧ t.mem = [] ∧ t.cores = [] ∧
      t.weave = WeaveState.reset ∧ t.time.belt = s.time.belt ∧ t.fuse.copies = s.fuse.copies ∧ t.flash = s.flash)) ∧
  (∀ s : State, Canon s → s.anchor = true → s.flag Reg.pwrWakeCfg 0 = true → s.flag Reg.pwrWakeCfg 8 = false →
    s.power.phase = .doze →
    Completes .pcieWake s (fun t =>
      t.power = { s.power with phase := .dozeWaking, railA := true, latchNs := s.nowNs } ∧ t.fld Reg.pwrStatus 4 3 = 1 ∧
      t.out = s.out ++ [.ball .railenA true] ∧ Only [.regs, .out, .power] s t ∧ RegsOnly [Reg.pwrStatus] s t)) ∧
  (∀ s : State, Canon s → s.flag Reg.pwrWakeCfg 2 = true → s.pair Reg.pwrWakeAtLo Reg.pwrWakeAtHi ≤ s.nowNs →
    s.flag Reg.pwrWakeCfg 8 = false → s.power.phase = .slumber →
    Completes .wakeTimer s (fun t =>
      t.power = { s.power with phase := .waking, railA := true, railB := true, latchNs := s.nowNs } ∧
      t.fld Reg.pwrStatus 4 3 = 3 ∧ t.out = s.out ++ [.ball .railenA true, .ball .railenB true] ∧
      Only [.regs, .out, .power] s t ∧ RegsOnly [Reg.pwrStatus] s t)) ∧
  (∀ (i : Fin 8) (l : Bool) (s : State), Canon s → s.flag Reg.pwrWakeCfg 3 = true → s.fld Reg.pwrWakeCfg 4 3 = i.val →
    s.flag Reg.pwrWakeCfg 7 = l → s.flag Reg.pwrWakeCfg 8 = false → s.power.phase = .enteringDoze →
    Completes (.fieldInputWake i l) s (fun t =>
      t.power = { s.power with phase := .run, latchNs := s.nowNs } ∧ t.fld Reg.pwrStatus 4 3 = 4 ∧
      Only [.regs, .power] s t ∧ RegsOnly [Reg.pwrStatus] s t)) ∧
  (∀ (r : SelfTest) (s : State), Canon s → s.power.phase = .waking → s.boot.verified = true → s.cclkRuns = true →
    s.power.timeoutRec = false → s.basket.isPrincipal = true →
    Completes (.wakeComplete r) s (fun t =>
      t.power = { s.power with phase := .run } ∧ t.boot.serving = true ∧ t.boot.test = r ∧ t.basket.joined = true ∧
      t.basket.principal = s.pkg ∧ t.aligned = true ∧ t.flag Reg.clkStatus 4 = false ∧
      t.time.beatNum = BitVec.ofNat 64 s.beatNow ∧
      t.fld Reg.pwrWakeUs 0 16 = min 65535 ((s.nowNs - s.power.latchNs) / 1000))) ∧
  (∀ s : State, Canon s → s.power.phase = .dozeWaking → s.power.latchNs + 60000 ≤ s.nowNs → s.power.timeoutRec = false →
    Completes .dozeWakeComplete s (fun t =>
      t.power = { s.power with phase := .run } ∧ t.fld Reg.clkStatus 0 3 = 7 ∧
      t.fld Reg.pwrWakeUs 0 16 = min 65535 ((s.nowNs - s.power.latchNs) / 1000) ∧ Only [.regs, .power, .time] s t ∧
      RegsOnly [Reg.clkStatus, Reg.pwrWakeUs] s t))

/-- Sensors and the throttle order (R95, R296 to R300) where each command has its effect. A sample stores the twelve
readings and the hottest of each die, moves the pixel band and enters WARN; 100 consecutive samples at ALT enter
ALTERNATE, with a HALT where a cool alternate stands ready and E_THERM_NO_ALTERNATE where none does; two consecutive
samples at TRIP hold the package with its ports in WHISPER; in a cool placement the return halts the weave. Where the
spec leaves the form of an output, an operand or a moment open, this rests on the model's own choice, log entry 26. -/
def Obligations.ThermalCommandsComplete : Prop :=
  (∀ (p l : List (BitVec 16)) (s : State), Canon s → s.power.phase = .run → p.length = 4 → l.length = 8 →
    Completes (.sensorSample p l) s (fun t =>
      (∀ k < 4, t.fld (Reg.thermP k) 0 16 = (nthD 0 p k).toNat) ∧ (∀ k < 8, t.fld (Reg.thermL k) 0 16 = (nthD 0 l k).toNat) ∧
      signed 16 (t.fld Reg.thermMax 0 16) = hottest p ∧ t.hottestL = hottest l ∧
      t.pix.band = BitVec.ofNat 3 (bandStep (hottest p) s.pix.band.toNat) ∧ t.pix.hot = decide (700 ≤ hottest p) ∧
      (s.therm.stage = 0 → thermAtLeast s (hottest p) (hottest l) 0 = true →
        t.therm.stage = 1 ∧ Latched eThermWarn Reg.thermErr s t) ∧
      (s.therm.stage = 0 → thermAtLeast s (hottest p) (hottest l) 0 = false → t.therm.stage = 0) ∧
      (s.therm.stage = 2 → thermBelow s (hottest p) (hottest l) 1 = true → t.therm.stage = 1))) ∧
  (∀ s : State, Canon s → 100 ≤ s.therm.altSeen → s.therm.stage = 1 → s.coolExists = false →
    Completes .thermalAlternate s (fun t =>
      t.therm = { s.therm with stage := 2, normalNs := none, noAlt := true } ∧
      Latched eThermNoAlternate Reg.thermErr s t ∧ Only [.regs, .out, .host, .therm] s t)) ∧
  (∀ s : State, Canon s → 100 ≤ s.therm.altSeen → s.therm.stage = 1 → s.coolNow = false → s.coolExists = true →
    s.fault.phase = .running →
    Completes .thermalAlternate s (fun t =>
      t.therm = { s.therm with stage := 2, normalNs := none } ∧ t.fault.phase = .stopped ∧
      t.fault.halt = some ⟨s.fault.lastNum + 1, BitVec.ofNat 32 s.beat, s.pkg, 2⟩ ∧
      t.fld Reg.thermAltCnt 0 16 = min (s.fld Reg.thermAltCnt 0 16 + 1) 65535)) ∧
  (∀ s : State, Canon s → 2 ≤ s.therm.tripSeen → s.fuse.cmd = none → s.weave.run = none →
    Completes .thermalTrip s (fun t =>
      t.power.phase = .heldTrip ∧ DomainsReset s t ∧ (∀ p, (t.port p).state = .whisper) ∧
      (∀ p, (t.port p).peer = (s.port p).peer))) ∧
  (∀ (n : Nat) (s : State), Canon s → s.therm.normalNs = some n → s.flag Reg.thermCtl 0 = true → s.weaveActive = true →
    s.coolNow = true → s.therm.stage = 0 → n + s.fld Reg.thermCtl 8 8 * 1000000000 ≤ s.nowNs →
    Completes .thermalReturn s (fun t =>
      t.fault.phase = .stopped ∧
      t.fault.halt = some ⟨s.fault.lastNum + 1, BitVec.ofNat 32 s.beat, s.pkg, 2⟩ ∧
      Latched eThermReturn Reg.thermErr s t ∧ t.therm = s.therm))

/-- Port commands (R50, R57 to R59, Table Withy-4) where each has its effect on the port it names; no other port
changes. Where the spec leaves the form of an output, an operand or a moment open, this rests on the model's own
choices, log entries 13, 52, 62 and 64. -/
def Obligations.PortCommandsComplete : Prop :=
  (∀ (p : Port) (s : State), Canon s → Served s → s.flag Reg.clkStatus 2 = true →
    ((s.port p).state = .off ∨ (s.port p).state = .whisper) →
    Completes (.portEnable p) s (fun t =>
      t.flag (Reg.withyPCfg (portNum p)) 0 = true ∧ t.port p = { s.port p with state := .train, retry := false } ∧
      PortOnly p s t ∧ Only [.regs, .basket] s t ∧ RegsOnly [Reg.withyPCfg (portNum p)] s t)) ∧
  (∀ (p : Port) (s : State), Canon s → Served s → (s.port p).state ≠ .woven →
    Completes (.portDisable p) s (fun t =>
      t.flag (Reg.withyPCfg (portNum p)) 0 = false ∧ (t.port p).state = .off ∧ (t.port p).epoch = (s.port p).epoch ∧
      PortOnly p s t ∧ Only [.regs, .basket] s t ∧ RegsOnly [Reg.withyPCfg (portNum p)] s t)) ∧
  (∀ (p : Port) (lanes : BitVec 4) (d : BitVec 8) (peer : BitVec 6) (w : BitVec 2) (s : State),
    (s.port p).state = .train → widthOf lanes = some w → s.fld (Reg.withyPCfg (portNum p)) 2 2 ≤ w.toNat →
    d.toNat ≤ 52 →
    Completes (.trainingComplete p lanes d peer) s (fun t =>
      (t.port p).state = .linked ∧ (t.port p).width = w ∧ (t.port p).lanes = lanes ∧ (t.port p).d = d.setWidth 6 ∧
      (t.port p).peer = peer ∧ (t.port p).epoch = (s.port p).epoch + 1 ∧ (t.port p).ctr = 0 ∧
      (t.port p).keys = none ∧ (t.port p).credits0 = 16 ∧ (t.port p).credits1 = 16 ∧
      t.basket.outbox = (s.port p).unacked.map (fun u => u.2) ++ s.basket.outbox ∧
      (s.cryptMode = 0 → (t.port p).ctrlq = []) ∧ PortOnly p s t ∧ Only [.basket] s t)) ∧
  (∀ (p : Port) (s : State), (s.port p).state = .train → (s.port p).retry = true →
    exec (.trainRetry p) s = .next (s.setPort p { s.port p with retry := false })) ∧
  (∀ (p : Port) (l : Fin 4) (hs : Bool) (s : State), (s.port p).state = .linked → (s.port p).sleepNs = none →
    exec (.laneFailure p l hs) s = .next (s.setPort p { s.port p with
      state := .train, lanes := (s.port p).lanes &&& ~~~(BitVec.ofNat 4 (2 ^ l.val)), retry := false })) ∧
  (∀ (p : Port) (s : State), Served s → ((s.port p).state = .linked ∨ (s.port p).state = .rekey) →
    exec (.retrain p) s = .next (s.setPort p { s.port p with state := .train })) ∧
  (∀ (p : Port) (s : State), Served s → (s.port p).state = .linked →
    Completes (.rekey p) s (fun t =>
      (t.port p).state = .rekey ∧ (t.port p).epoch = (s.port p).epoch + 1 ∧ (t.port p).ctr = 0 ∧
      (t.port p).keys = none ∧ PortOnly p s t ∧ Only [.basket] s t)) ∧
  (∀ (p : Port) (s : State), (s.port p).state = .linked → (s.port p).ctr = BitVec.allOnes 64 →
    Completes (.counterWrap p) s (fun t =>
      (t.port p).state = .rekey ∧ (t.port p).epoch = (s.port p).epoch + 1 ∧ (t.port p).ctr = 0 ∧
      (t.port p).keys = none ∧ PortOnly p s t ∧ Only [.basket] s t)) ∧
  (∀ (p : Port) (w : LinkWord) (s : State), (s.port p).up = true → ctrlSub w = 5 → (s.port p).keys = none →
    exec (.keyx p w) s = .next (s.setPort p { s.port p with keyxIn := (s.port p).keyxIn ++ [w] })) ∧
  (∀ (p : Port) (s : State), (s.port p).state = .rekey → s.flag Reg.fuseStatus 23 = true → s.weave.run = none →
    exec (.keyExchangeDone p true) s =
      .next (s.setPort p { s.port p with state := .linked, keys := some (sessionKeys p (s.port p)), keyxIn := [] })) ∧
  (∀ (v : Word) (s : State), Canon s → Served s → s.weave.run = none → bits v 0 2 ≠ s.cryptMode → bits v 0 2 ≠ 3 →
    (bits v 0 2 = 0 → s.flag Reg.fuseLifecycle 10 = false) →
    Completes (.cryptModeWrite v 15) s (fun t =>
      t.cryptMode = bits v 0 2 ∧
      (∀ p, (s.port p).up = true → (t.port p).state = (s.port p).state ∧ (t.port p).epoch = (s.port p).epoch + 1 ∧
        (t.port p).ctr = 0 ∧ (t.port p).keys = none) ∧
      (∀ p, (s.port p).up = false → t.port p = s.port p) ∧ Only [.regs, .basket] s t ∧ RegsOnly [Reg.withyCrypt] s t))

/-- Whisper messages (R30, R34, R37, R51, R290, R292, R306) where each has its effect. Where the spec leaves the form of
an output, an operand or a moment open, this rests on the model's own choices, log entries 2, 27, 29 and 63. -/
def Obligations.WhisperCommandsComplete : Prop :=
  (∀ s : State, s.basket.isPrincipal = true →
    Completes .whisperTimeTx s (fun t =>
      t.out = s.out ++ (allPorts.filter (fun p => (s.port p).state == .whisper)).map (fun p =>
        Out.whisper p (whisperMsg 1 12 (s.nowNs % 2 ^ 64 + s.nowFp % 65536 * 2 ^ 64 + s.pkg.toNat * 2 ^ 88))) ∧
      Only [.out] s t)) ∧
  (∀ (p : Port) (m : WhisperMsg) (s : State), whisperOk m = true → m.type = 1 → s.basket.isPrincipal = false →
    lwByte m.payload 11 = s.basket.principal.toNat →
    Completes (.whisperTime p m) s (fun t =>
      s.nowFp + t.time.slew =
        (lwNum m.payload 0 8 * 65536 + lwNum m.payload 8 2 + (s.port p).d.toNat * 65536 : Nat) ∧
      t.time.belt = s.time.belt ∧ (s.cclkRuns = true → t.regs = s.regs) ∧ Only [.regs, .time] s t)) ∧
  (∀ (p : Port) (m : WhisperMsg) (s : State), Canon s → whisperOk m = true → m.type = 2 →
    smGet none s.basket.wakeKept (lwByte m.payload 8 % 64) ≠ some (BitVec.ofNat 8 (lwByte m.payload 9)) →
    nbit (lwNum m.payload 0 8) s.pkg.toNat = true → s.flag Reg.pwrWakeCfg 1 = true → s.flag Reg.pwrWakeCfg 8 = false →
    s.power.phase = .doze →
    Completes (.whisperWake p m) s (fun t =>
      t.power = { s.power with phase := .dozeWaking, railA := true, latchNs := s.nowNs } ∧ t.fld Reg.pwrStatus 4 3 = 2 ∧
      t.basket = { s.basket with wakeKept := t.basket.wakeKept } ∧
      t.out = s.out ++ (allPorts.filter (fun q => decide (q ≠ p) && (s.port q).state == .whisper)).map (fun q =>
        Out.whisper q m) ++ [.ball .railenA true] ∧ Only [.regs, .out, .power, .basket] s t)) ∧
  (∀ (p : Port) (m : WhisperMsg) (s : State), whisperOk m = true → m.type = 3 →
    exec (.whisperSleep p m) s = .next (s.setPort p { s.port p with sleepNs := some s.nowNs })) ∧
  (∀ (p : Port) (m : WhisperMsg) (s : State), Canon s → s.anchor = true → whisperOk m = true → m.type = 4 →
    (lwByte m.payload 1 = 0xE1 ∨ lwByte m.payload 1 = 0xE2) →
    Completes (.whisperPresence p m) s (fun t => Posted eFuseBeacon Reg.fuseErr s t ∧ Only [.regs, .out, .host] s t))

/-- Forming and joining a basket (R15, R16, R28, R34, R52, R53) and the TIME words (R33, R36, R39, R59) where each has
its effect. Where the spec leaves the form of an output, an operand or a moment open, this rests on the model's own
choices, log entries 27, 29, 30, 63 and 66. -/
def Obligations.BasketCommandsComplete : Prop :=
  (∀ s : State, (s.follows = true → s.lowestAnchor = some s.basket.principal.toNat) →
    Completes .presenceFlood s (fun t =>
      Flooded none (presenceWord s.pkg.toNat s.anchor.toNat s.basketId.toNat s.tuple) s t ∧ Only [.basket] s t)) ∧
  (∀ s : State, Canon s → s.follows = true → s.anchor = false → s.lowestAnchor = none →
    Completes .presenceFlood s (fun t =>
      t.basket.joined = false ∧ t.basket.outsider = true ∧ t.flag Reg.clkStatus 4 = false ∧ t.aligned = false)) ∧
  (∀ (a : Nat) (s : State), s.follows = true → s.anchor = false → s.lowestAnchor = some a →
    a ≠ s.basket.principal.toNat →
    Completes .presenceFlood s (fun t =>
      t.basket.principal = BitVec.ofNat 6 a ∧ t.basket.joined = true ∧ Only [.basket] s t)) ∧
  (∀ (p : Port) (w : LinkWord) (s : State), ctrlSub w = 6 → lwByte w 2 % 64 ≠ s.pkg.toNat → s.basket.outsider = true →
    s.basket.isPrincipal = false → s.basket.tree = [] → s.basket.heard = [] →
    Completes (.presence p w) s (fun t =>
      smGet 5 t.basket.tree (lwByte w 2 % 64) = BitVec.ofNat 3 (portNum p) ∧
      (lwNum w 4 4 = s.basketId.toNat → lwByte w 3 = 1 → t.lowestAnchor = some (lwByte w 2 % 64)) ∧
      (∀ q, t.port q = s.port q) ∧ Only [.basket] s t)) ∧
  (∀ s : State, Canon s → s.power.phase = .run → s.anchor = true → s.basket.isPrincipal = false →
    s.flag Reg.clkStatus 3 = true → s.basket.lowerHeardNs + 16000000 ≤ s.upNs → s.weave.run = none →
    Completes .principalClaim s (fun t =>
      t.basket = { s.basket with isPrincipal := true, joined := true, outsider := false, principal := s.pkg, hops := 0,
                                 joinAt := none, members := t.basket.members } ∧
      t.basket.members.map (fun m => m.pkg) = s.pkg :: s.takenOver.map (fun m => m.pkg) ∧
      (s.takenOver.filter (fun m => m.anchor)).length ≤ 3 ∧
      (s.basket.joined = false → t.fld Reg.withyJoinStatus 16 7 = 1) ∧ t.flag Reg.clkStatus 4 = false ∧
      t.aligned = true ∧ t.flag Reg.timeAlign 25 = true ∧ Only [.regs, .basket] s t ∧
      RegsOnly [Reg.withyJoinStatus, Reg.timeAlign, Reg.clkStatus] s t)) ∧
  (∀ (a : Nat) (p : Port) (s : State), s.power.phase = .run → s.basket.joined = false → s.lowestAnchor = some a →
    portOf (smGet 5 s.basket.tree a).toNat = some p → (s.port p).up = true →
    exec .joinRetry s = .next (s.setPort p { s.port p with
      ctrlq := (ctrlInsert (joinWord s.pkg.toNat s.anchor.toNat s.tuple s.basketId.toNat) (s.port p).ctrlq).take 64 })) ∧
  (∀ (p : Port) (w : LinkWord) (h : BitVec 8) (n : BitVec 64) (dv ok : Bool) (s : State), Canon s → ctrlSub w = 3 →
    s.basket.isPrincipal = true →
    joinVerdict s (lwByte w 2 % 64) (lwByte w 3) (lwNum w 4 8) (lwNum w 12 4) h.toNat n dv ok = 0 →
    (s.basket.members.filter (fun m => !m.is (lwByte w 2 % 64) n)).length < 64 →
    Completes (.join p w h n dv ok) s (fun t =>
      t.basket.members = s.basket.members.filter (fun m => !m.is (lwByte w 2 % 64) n) ++
        [⟨BitVec.ofNat 6 (lwByte w 2), some n, lwByte w 3 == 1, h⟩] ∧
      t.fld Reg.withyJoinStatus 16 7 = t.basket.members.length ∧ PortOnly p s t ∧ Only [.regs, .basket] s t ∧
      RegsOnly [Reg.withyJoinStatus] s t)) ∧
  (∀ (p : Port) (w : LinkWord) (m : BitVec 6) (sp : BitVec 2) (a : Nat) (s : State), Canon s → ctrlSub w = 4 →
    lwByte w 2 % 64 = s.pkg.toNat → s.basket.joined = false → lwNum w 3 2 = 0 → s.lowestAnchor = some a →
    Completes (.joinReply p w (BitVec.ofNat 2 s.cryptMode) m sp) s (fun t =>
      t.basket = { s.basket with joined := true, outsider := false, joinAt := some (nextBoundary s),
                                 hops := BitVec.ofNat 8 (lwByte w 5), upstream := p, principal := BitVec.ofNat 6 a } ∧
      t.time = { s.time with
        pendStep := none, pendBeats := [],
        pendClock := if m = s.time.mult ∧ sp = s.time.spread then none
          else some (BitVec.ofNat 64 (nextBoundary s), m, sp) } ∧
      t.fld Reg.withyJoinStatus 0 16 = 0 ∧ Only [.regs, .time, .basket] s t ∧ RegsOnly [Reg.withyJoinStatus] s t)) ∧
  (∀ (b : BitVec 80) (n : Nat) (s : State), Canon s → s.basket.joinAt = some n → n ≤ s.nowNs →
    Completes (.joinSwitch b) s (fun t =>
      t.time.belt = b ∧ t.time.slew = 0 ∧ t.flag Reg.clkStatus 4 = true ∧ t.aligned = false ∧
      t.basket = { s.basket with joinAt := none } ∧ t.time.pendClock = none ∧
      (∀ c m sp, s.time.pendClock = some (c, m, sp) → t.time.mult = m ∧ t.time.spread = sp ∧ t.time.cclk = false) ∧
      (s.time.pendClock = none → t.time.mult = s.time.mult ∧ t.time.spread = s.time.spread ∧
        (s.time.cclk = true → t.time.beatNum = BitVec.ofNat 64 t.beatNow)) ∧
      Only [.regs, .time, .basket] s t ∧ RegsOnly [Reg.clkStatus, Reg.clkCoreCfg, Reg.timeAlign] s t)) ∧
  (∀ (p : Port) (w : LinkWord) (s : State), timeNew 1 w s = true →
    Completes (.timeStepWord p w) s (fun t =>
      t.time.pendStep = some
        (BitVec.ofNat 64 (nearestAhead (s.nowNs / 32000) (lwNum w 3 4) 32 * 32000),
         BitVec.ofNat 64 (lwNum w 7 7 * 32000)) ∧
      t.time = { s.time with pendStep := t.time.pendStep } ∧
      t.basket.lastTime = some w ∧ Flooded (some p) w s t ∧ Only [.time, .basket] s t)) ∧
  (∀ (p : Port) (w : LinkWord) (s : State), timeNew 2 w s = true →
    Completes (.timeBeatWord p w) s (fun t =>
      t.time = { s.time with pendBeats := s.time.pendBeats ++
        [(BitVec.ofNat 64 (nearestAhead (s.nowNs / 32000) (lwNum w 13 3) 24 * 32000), BitVec.ofNat 22 (lwNum w 3 3),
          BitVec.ofNat 64 (lwNum w 6 7 * 32000))] } ∧
      t.basket.lastTime = some w ∧ Flooded (some p) w s t ∧ Only [.time, .basket] s t)) ∧
  (∀ (p : Port) (w : LinkWord) (s : State), timeNew 3 w s = true →
    Completes (.timeClockWord p w) s (fun t =>
      t.time.pendClock = some
        (BitVec.ofNat 64 (nearestAhead (s.nowNs / 32000) (lwNum w 5 3) 24 * 32000), BitVec.ofNat 6 (lwByte w 3),
         BitVec.ofNat 2 (lwByte w 4)) ∧
      t.time = { s.time with pendClock := t.time.pendClock } ∧
      t.basket.lastTime = some w ∧ Flooded (some p) w s t ∧ Only [.time, .basket] s t))

/-- Windows, forwarded register access and link frames (R54 to R56, R60 to R63) where each has its effect. Where the
spec leaves the form of an output, an operand or a moment open, this rests on the model's own choices, log entries 2,
52, 62, 64 and 68. -/
def Obligations.WindowCommandsComplete : Prop :=
  (∀ (i : Fin 32) (v : Word) (s : State), Canon s → Served s →
    (nbit (bits v 0 3) 0 = true → s.flag (Reg.winCtl i.val) 0 = false → winOpenVerdict s i.val = 0) →
    Completes (.winCtlWrite i v 15) s (fun t =>
      t.fld (Reg.winCtl i.val) 0 3 = bits v 0 3 ∧ Only [.regs] s t ∧ RegsOnly [Reg.winCtl i.val] s t)) ∧
  (∀ (q : RemoteReq) (i : Nat) (s : State), Canon s → q.data.length < 2 ^ 20 →
    winJudge s q.src (s.localAddr q.addr.toNat) q.data.length true = .ok i →
    placeLocal (s.localAddr q.addr.toNat) = .store →
    Completes (.winWrite q) s (fun t =>
      t.rdMem (s.localAddr q.addr.toNat) q.data.length = bytesOf q.data ∧
      (anyBad q.data = false → t.poisoned (s.localAddr q.addr.toNat) q.data.length = false) ∧
      BytesOnly (s.localAddr q.addr.toNat) q.data.length s t ∧
      (t.reg (Reg.winHits i)).toNat = min (2 ^ 32 - 1) ((s.reg (Reg.winHits i)).toNat + 1) ∧
      Only [.regs, .mem, .poison] s t ∧ RegsOnly [Reg.winHits i] s t)) ∧
  (∀ (q : RemoteReq) (i n off : Nat) (s : State), Canon s →
    winJudge s q.src (s.localAddr q.addr.toNat) q.data.length true = .ok i →
    placeLocal (s.localAddr q.addr.toNat) = .scratch n off → s.rRoom (s.localAddr q.addr.toNat) q.data.length = true →
    Completes (.winWrite q) s (fun t =>
      (t.core n).rq = (s.core n).rq ++ remoteReqs q.src off q.data.length (some q.data) ∧
      Only [.regs, .cores] s t ∧ RegsOnly [Reg.winHits i] s t)) ∧
  (∀ (q : RemoteReq) (i n off : Nat) (s : State), Canon s →
    winJudge s q.src (s.localAddr q.addr.toNat) q.len false = .ok i →
    placeLocal (s.localAddr q.addr.toNat) = .scratch n off → s.rRoom (s.localAddr q.addr.toNat) q.len = true →
    Completes (.winRead q) s (fun t =>
      (t.core n).rq = (s.core n).rq ++ remoteReqs q.src off q.len none ∧
      Only [.regs, .cores] s t ∧ RegsOnly [Reg.winHits i] s t)) ∧
  (∀ (q : RemoteReq) (i : Nat) (s : State), Canon s → winJudge s q.src (s.localAddr q.addr.toNat) q.len false = .ok i →
    placeLocal (s.localAddr q.addr.toNat) = .store → s.route q.src ≠ 5 →
    Completes (.winRead q) s (fun t =>
      Sent (s.mkMarked 5 q.src q.addr (s.rdMarked (s.localAddr q.addr.toNat) q.len)) s t ∧
      (s.basket.outbox = [] → RegsOnly [Reg.winHits i] s t) ∧ Only [.regs, .out, .basket] s t)) ∧
  (∀ (m : Loose) (s : State), m.type = 5 → m.dst = s.pkg.setWidth 8 →
    exec (.winResp m) s = .next { s with out := s.out ++ [.issuerData (looseMarked m)] }) ∧
  (∀ (m : Loose) (s : State), Canon s → s.anchor = true → m.type = 7 → m.dst = s.pkg.setWidth 8 → m.code = eWinPerm →
    Completes (.winNak m) s (fun t =>
      Out.issuerCode eWinPerm ∈ t.out ∧ Posted eWinPerm Reg.winErr s t ∧ Only [.regs, .out, .host] s t)) ∧
  (∀ s : State, Canon s → Served s → s.flag Reg.withyFwdStatus 0 = false →
    Completes .fwdRead s (fun t =>
      t.reg Reg.withyFwdStatus = 1 ∧ t.basket = (let b := s.basket
        { b with fwd := some (BitVec.ofNat 6 (s.fld Reg.withyFwdTgt 0 6),
                              BitVec.ofNat 20 (s.fld Reg.withyFwdOfs 2 18 * 4), none), fwdNs := s.nowNs }) ∧
      t.out = s.out ++ [.fwdAccess (BitVec.ofNat 6 (s.fld Reg.withyFwdTgt 0 6))
        (BitVec.ofNat 20 (s.fld Reg.withyFwdOfs 2 18 * 4)) none] ∧ Only [.regs, .out, .basket] s t) ∧
    Completes .fwdWrite s (fun t =>
      t.reg Reg.withyFwdStatus = 1 ∧ t.basket = (let b := s.basket
        { b with fwd := some (BitVec.ofNat 6 (s.fld Reg.withyFwdTgt 0 6),
                              BitVec.ofNat 20 (s.fld Reg.withyFwdOfs 2 18 * 4), some (s.reg Reg.withyFwdData)),
                 fwdNs := s.nowNs }) ∧
      t.out = s.out ++ [.fwdAccess (BitVec.ofNat 6 (s.fld Reg.withyFwdTgt 0 6))
        (BitVec.ofNat 20 (s.fld Reg.withyFwdOfs 2 18 * 4)) (some (s.reg Reg.withyFwdData))] ∧
      Only [.regs, .out, .basket] s t)) ∧
  (∀ (tg : BitVec 6) (o : BitVec 20) (d : Word) (s : State), Canon s → s.basket.fwd = some (tg, o, none) →
    Completes (.fwdResponse 0 d) s (fun t =>
      t.reg Reg.withyFwdData = d ∧ t.reg Reg.withyFwdStatus = 0 ∧ t.basket = { s.basket with fwd := none } ∧
      Only [.regs, .basket] s t ∧ RegsOnly [Reg.withyFwdData, Reg.withyFwdStatus] s t)) ∧
  (∀ s : State, Canon s → s.basket.fwd ≠ none → s.basket.fwdNs + 100000 ≤ s.nowNs →
    Completes .fwdTimeout s (fun t =>
      t.fld Reg.withyFwdStatus 16 16 = eFwdTimeout.toNat ∧ t.flag Reg.withyFwdStatus 0 = false ∧
      t.basket = { s.basket with fwd := none } ∧ Only [.regs, .basket] s t)) ∧
  (∀ (p : Port) (f : LinkFrame) (s : State), (s.port p).up = true → (s.port p).naking = false →
    (s.port p).authBad = false → (s.port p).hdrErrs = [] → s.cryptMode = 0 → s.basket.outbox = [] →
    (s.basket.joined = true ∨ f.principal ≠ 0xFF) → f.checkOk = true → f.headerErrs = [] → f.otherTypes = [] →
    f.ctrl = [] → f.statics = [] → f.loose = [] → f.nak = false →
    Completes (.linkFrame p f) s (fun t =>
      t.port p = { s.port p with
        peer := f.sender.setWidth 6, peerIn := f.principal != 0xFF, rxCtr := (s.port p).rxCtr + 1,
        lastGood := (s.port p).rxCtr + 1, credits0 := min 16 ((s.port p).credits0 + f.credit0.toNat),
        credits1 := min 16 ((s.port p).credits1 + f.credit1.toNat),
        unacked := (s.port p).unacked.filter (fun u => decide (f.ack < u.1)) } ∧
      t.basket.hops = (if s.follows = true ∧ s.basket.upstream = p ∧ f.hops ≠ 0xFF then f.hops + 1 else s.basket.hops) ∧
      PortOnly p s t ∧ Only [.basket] s t)) ∧
  (∀ (p : Port) (f : LinkFrame) (s : State), Canon s → (s.port p).up = true → s.weave.run = none →
    (s.port p).hdrErrs = [] → s.basket.outbox = [] → f.checkOk = false → f.headerErrs = [] → f.otherTypes = [] →
    f.ctrl = [] → f.nak = false → f.hasStatic = false →
    Completes (.linkFrame p f) s (fun t =>
      (t.port p).naking = true ∧ (t.port p).lastGood = (s.port p).lastGood ∧
      t.fld (Reg.withyPErrcnt (portNum p)) 16 16 = min 65535 (s.fld (Reg.withyPErrcnt (portNum p)) 16 16 + 1) ∧
      t.out = s.out ++ [.credit p 0 0 (s.port p).lastGood true] ∧ PortOnly p s t ∧ Only [.regs, .out, .basket] s t)) ∧
  (∀ (p o : Port) (m : Loose) (rest : List Loose) (s : State), (s.port p).stored = m :: rest → o ≠ p →
    m.dst.setWidth 6 ≠ s.pkg → s.basket.outsider = false → portOf (s.route (m.dst.setWidth 6)) = some o →
    s.loosePasses (s.port o) = true →
    looseSlots m ≤ (s.port o).credits (m.cls1 || s.dateline (m.dst.setWidth 6)) →
    Completes (.looseForward p) s (fun t => let x := { m with cls1 := m.cls1 || s.dateline (m.dst.setWidth 6) }
      t.port p = { s.port p with stored := rest } ∧
      t.port o = { s.port o with
        credits0 := if x.cls1 then (s.port o).credits0 else (s.port o).credits0 - looseSlots m,
        credits1 := if x.cls1 then (s.port o).credits1 - looseSlots m else (s.port o).credits1,
        unacked := (s.port o).unacked ++ [((s.port o).ctr + 1, x)] } ∧
      t.out = s.out ++ [.credit p (creditOf m).1 (creditOf m).2 (s.port p).lastGood (s.port p).naking, .loose o x] ∧
      Only [.out, .basket] s t)) ∧
  (∀ (p : Port) (m : Loose) (rest : List Loose) (s : State), (s.port p).stored = m :: rest →
    m.dst.setWidth 6 ≠ s.pkg → s.basket.outsider = true →
    Completes (.looseForward p) s (fun t =>
      t.port p = { s.port p with stored := rest } ∧
      t.out = s.out ++ [.credit p (creditOf m).1 (creditOf m).2 (s.port p).lastGood (s.port p).naking] ∧
      PortOnly p s t ∧ Only [.out, .basket] s t))

/-- Function Level Reset, Bus Master Enable, vectors, rings and doorbells (R66, R67, R69 to R73, R82) where each command
has its effect. Where the spec leaves the form of an output, an operand or a moment open, this rests on the model's own
choices, log entries 2, 54, 55 and 67. -/
def Obligations.RingCommandsComplete : Prop :=
  (∀ s : State, Canon s → s.anchor = true →
    Completes .flr s (fun t =>
      t.host.bme = false ∧ t.host.rings = [] ∧ t.host.recPos = 0 ∧ t.host.recLap = 1 ∧ t.host.recHead = 0 ∧
      t.host.flights = [] ∧ t.host.waiting = s.host.waiting ∧ t.host.mirrors = s.host.mirrors ∧
      t.host.vecMask = BitVec.allOnes 72 ∧ t.host.vecTable = [] ∧ (∀ r ∈ t.host.records, r.held = true) ∧
      (s.host.records.length ≤ 256 →
        t.host.records = s.host.records.map (fun r => { r with held := true }) ∧ t.host.vecPend = 0 ∧
        (∀ off, 0x6000 ≤ off → off < 0x7000 → t.reg off = resetVal off) ∧
        (∀ off, off < 0x6000 ∨ 0x7000 ≤ off → t.reg off = s.reg off) ∧ Only [.regs, .host, .serve] s t))) ∧
  (∀ s : State, Canon s → s.anchor = true → s.host.records.length ≤ 256 →
    Completes .bmeClear s (fun t =>
      t.host.bme = false ∧ (∀ i < 64, (t.ring i).state = .disabled ∧ t.flag (Reg.hostRingCfg i) 16 = false) ∧
      (∀ i < 64, (t.ring i).write = (s.ring i).write ∧ (t.ring i).fetch = (s.ring i).fetch) ∧
      t.host.flights = [] ∧ t.host.waiting = s.host.waiting ∧
      t.host.records = s.host.records.map (fun r => { r with held := true }) ∧ Only [.regs, .host, .serve] s t)) ∧
  (∀ s : State, s.anchor = true →
    Completes .bmeSet s (fun t =>
      t.host.bme = true ∧
      (s.host.msixOn = true → s.host.funcMask = false →
        ∀ v < 72, s.host.vecPend.getLsbD v = true → s.host.vecMask.getLsbD v = false →
          Out.msix v ∈ t.out ∧ t.host.vecPend.getLsbD v = false) ∧
      (s.weave.load = none → Only [.out, .host] s t))) ∧
  (∀ (v : Fin 72) (x : Word) (s : State), Served s →
    Completes (.vectorUnmask (.bar2 (BitVec.ofNat 14 (16 * v.val + 12)) x 15)) s (fun t =>
      t.host.vecMask.getLsbD v.val = x.getLsbD 0 ∧
      (∀ u < 72, u ≠ v.val → t.host.vecMask.getLsbD u = s.host.vecMask.getLsbD u) ∧
      (x.getLsbD 0 = false → s.host.bme = true → s.host.msixOn = true → s.host.funcMask = false →
        s.host.vecPend.getLsbD v.val = true → Out.msix v.val ∈ t.out ∧ t.host.vecPend.getLsbD v.val = false) ∧
      Only [.out, .host] s t)) ∧
  (∀ (o : BitVec 14) (x : Word) (be : BitVec 4) (s : State), 16 * 72 ≤ o.toNat →
    exec (.vectorUnmask (.bar2 o x be)) s = .next s) ∧
  (∀ (mask : Bool) (s : State), Served s →
    Completes (.vectorUnmask (.control true mask)) s (fun t =>
      t.host.msixOn = true ∧ t.host.funcMask = mask ∧
      (mask = false → s.host.bme = true → ∀ v < 72, s.host.vecPend.getLsbD v = true → s.host.vecMask.getLsbD v = false →
        Out.msix v ∈ t.out ∧ t.host.vecPend.getLsbD v = false) ∧ Only [.out, .host] s t)) ∧
  (∀ (i : Fin 64) (v : Word) (s : State), Canon s → Served s → s.host.bme = true →
    ringCfgVerdict s i.val (v &&& 0xFFF31F1F) = 0 → v.getLsbD 16 = true → s.flag (Reg.hostRingCfg i.val) 16 = false →
    Completes (.ringEnable i v 15) s (fun t =>
      t.reg (Reg.hostRingCfg i.val) = v &&& 0xFFF31F1F ∧
      t.ring i.val = { Ring.reset with state := .active, phase := true } ∧
      (∀ j, j ≠ i.val → t.ring j = s.ring j) ∧ Only [.regs, .host] s t ∧ RegsOnly [Reg.hostRingCfg i.val] s t)) ∧
  (∀ (i : Fin 64) (v : Word) (s : State), Canon s → Served s → (s.ring i.val).state = .active →
    ringCfgVerdict s i.val (v &&& 0xFFF31F1F) = 0 → v.getLsbD 16 = false → s.flag (Reg.hostRingCfg i.val) 16 = true →
    Completes (.ringDisable i v 15) s (fun t =>
      t.reg (Reg.hostRingCfg i.val) = v &&& 0xFFF31F1F ∧
      t.ring i.val = { s.ring i.val with state := if s.inFlight i.val = 0 then .disabled else .draining } ∧
      (∀ j, j ≠ i.val → t.ring j = s.ring j) ∧
      (s.host.records.length ≤ 256 → Only [.regs, .host] s t ∧ RegsOnly [Reg.hostRingCfg i.val] s t))) ∧
  (∀ s : State, s.polling = true →
    Completes .doorbellPoll s (fun t =>
      t.out = s.out ++ (pollRuns (fun i => (s.ring i).state == .active) (List.range 64)).map (fun r =>
        Out.hostRead (BitVec.ofNat 64 (s.dbBase + 64 * r.1)) (64 * r.2)) ∧ Only [.out] s t)) ∧
  (∀ (i : Fin 64) (l : List Byte) (s : State), Canon s → (s.ring i.val).state = .active →
    doorbellVerdict s i.val (BitVec.ofNat 17 (leAt l 0 4)) (BitVec.ofNat 17 (leAt l 4 4)) (BitVec.ofNat 13 (leAt l 8 4)) = 0 →
    Completes (.doorbellReadDone i (.ok l)) s (fun t =>
      (t.ring i.val).tail = BitVec.ofNat 17 (leAt l 0 4) ∧ (t.ring i.val).head = BitVec.ofNat 17 (leAt l 4 4) ∧
      (t.ring i.val).fails = 0 ∧
      t.host.recHead = (if s.readsRec i.val then BitVec.ofNat 13 (leAt l 8 4) else s.host.recHead) ∧
      Only [.out, .host] s t ∧
      (s.host.waiting = [] →
        t.ring i.val = { s.ring i.val with tail := BitVec.ofNat 17 (leAt l 0 4), head := BitVec.ofNat 17 (leAt l 4 4),
                                           fails := 0 } ∧
        (∀ j, j ≠ i.val → t.ring j = s.ring j) ∧ Only [.host] s t))) ∧
  (∀ (i : Fin 64) (s : State), s.polling = true → (s.ring i.val).state = .active → (s.ring i.val).asked = 0 →
    0 < s.fetchCount i.val →
    exec (.descriptorFetch i) s = .next ((s.setRing i.val { s.ring i.val with asked := s.fetchCount i.val }).emit
      (.hostRead (BitVec.ofNat 64 (s.pair (Reg.hostRingSqLo i.val) (Reg.hostRingSqHi i.val)
        + 64 * bits (s.ring i.val).fetch 0 16)) (64 * s.fetchCount i.val)))) ∧
  (∀ (i : Fin 64) (ds : List Desc) (s : State), Canon s → (s.ring i.val).state = .active →
    (s.ring i.val).asked = ds.length → ds ≠ [] → s.host.flights.length + ds.length ≤ 64 →
    Completes (.descriptorFetchDone i (.ok ds)) s (fun t =>
      t.host.flights.map (fun f => f.desc) = s.host.flights.map (fun f => f.desc) ++ ds ∧
      t.host.nextId = s.host.nextId + ds.length ∧ (t.ring i.val).asked = 0 ∧
      (t.ring i.val).fetch = posAdd (s.sqSize i.val) (s.ring i.val).fetch ds.length ∧
      (∀ j, j ≠ i.val → t.ring j = s.ring j) ∧ Only [.host] s t)) ∧
  (∀ (i : Fin 64) (n : Nat) (s : State), Canon s → (s.ring i.val).unsigAt = some n → s.flag (Reg.hostRingCfg i.val) 17 = true →
    s.fld (Reg.hostRingCfg i.val) 24 8 ≠ 0 → n + s.fld (Reg.hostRingCfg i.val) 24 8 * 500 * 65536 ≤ s.nowFp →
    s.vecOpen i.val = true →
    Completes (.coalesceTimeout i) s (fun t =>
      t.ring i.val = { s.ring i.val with unsig := 0, unsigAt := none } ∧ t.out = s.out ++ [.msix i.val] ∧
      Only [.out, .host] s t))

/-- Descriptors from their start to their entry (R68, R74 to R78) where each command has its effect. Where the spec
leaves the form of an output, an operand or a moment open, this rests on the model's own choices, log entries 2, 31, 55,
65 and 67. -/
def Obligations.DescriptorCommandsComplete : Prop :=
  (∀ (f : Flight) (s : State), s.flight f.id = some f → f.st = .fetched → s.heldBack f = false → headVerdict f.desc = 0 →
    (fromRing f = true → dTarget f.desc = 0xFF ∨ dTarget f.desc = s.pkg.toNat) →
    (dWaitEn f.desc = true → knotMet (s.knot (dWaitKnot f.desc)) (BitVec.ofNat 32 (dWaitThr f.desc)) = true) →
    levelVerdict s (dOp f.desc) = 0 → bodyVerdict f.desc = 0 →
    (dOp f.desc ≠ 0x31 ∧ dOp f.desc ≠ 0x32 ∧ dOp f.desc ≠ 0x33) →
    exec (.descriptorStart f.id) s = .next (setFlight f.id .started s)) ∧
  (∀ (f : Flight) (s : State), s.flight f.id = some f → f.st = .fetched → s.heldBack f = false → headVerdict f.desc = 0 →
    (fromRing f = true → dTarget f.desc = 0xFF ∨ dTarget f.desc = s.pkg.toNat) → dWaitEn f.desc = true →
    knotMet (s.knot (dWaitKnot f.desc)) (BitVec.ofNat 32 (dWaitThr f.desc)) = false →
    exec (.descriptorStart f.id) s = .next (setFlight f.id (.knotWait (waitLimit f s)) s)) ∧
  (∀ (f : Flight) (n : Nat) (s : State), Canon s → s.flight f.id = some f →
    f.st = .knotWait (some n) → n < s.upNs →
    Completes (.knotWaitTimeout f.id) s (fun t =>
      DescDone f eKnotTimeout 0 s t ∧ t.knots = s.knots ∧ Only [.regs, .out, .host] s t)) ∧
  (∀ (f : Flight) (s : State), Canon s → s.flight f.id = some f → f.st = .fetched →
    s.heldBack f = false → headVerdict f.desc = 0 → fromRing f = true → dTarget f.desc ≠ 0xFF →
    dTarget f.desc ≠ s.pkg.toNat →
    (s.route (BitVec.ofNat 6 (dTarget f.desc)) ≠ 5 →
      exec (.descriptorStart f.id) s = .next ((setFlight f.id (.forwarded s.upNs) s).emit
        (.fwdDesc (BitVec.ofNat 6 (dTarget f.desc)) f.id f.desc f.limitMs))) ∧
    (s.route (BitVec.ofNat 6 (dTarget f.desc)) = 5 →
      Completes (.descriptorStart f.id) s (fun t =>
        DescDone f eRouteNone 0 s t ∧ Only [.regs, .out, .host] s t))) ∧
  (∀ (f : Flight) (n : Nat) (s : State), s.flight f.id = some f → f.st = .busy n → n ≤ s.upNs →
    s.route (BitVec.ofNat 6 (dTarget f.desc)) ≠ 5 →
    exec (.forwardResend f.id) s = .next ((setFlight f.id (.forwarded s.upNs) s).emit
      (.fwdDesc (BitVec.ofNat 6 (dTarget f.desc)) f.id f.desc f.limitMs))) ∧
  (∀ (a : BitVec 6) (n : Nat) (d : Desc) (l : BitVec 16) (s : State), s.basket.outsider = false →
    (0 < s.flightRoom → exec (.forwardedDescriptor a n d l) s = .next (let h := s.host
      { s.emit (.fwdAnswer a n .taken) with
        host := { h with flights := h.flights ++ [⟨h.nextId, .anchor a n, d, 0, .fetched, l⟩], nextId := h.nextId + 1 } })) ∧
    (s.flightRoom = 0 → exec (.forwardedDescriptor a n d l) s = .next (s.emit (.fwdAnswer a n .busy)))) ∧
  (∀ (f : Flight) (c : Code) (r : Word) (s : State), Canon s → s.flight f.id = some f →
    ((∃ n, f.st = .forwarded n) ∨ f.st = .taken ∨ f.st = .remote) →
    exec (.forwardedDescriptorAnswer f.id .busy) s = .next (setFlight f.id (.busy (s.upNs + 10000)) s) ∧
    exec (.forwardedDescriptorAnswer f.id .taken) s = .next (setFlight f.id .taken s) ∧
    exec (.forwardedDescriptorAnswer f.id .started) s = .next (setFlight f.id .remote s) ∧
    Completes (.forwardedDescriptorAnswer f.id (.done c r)) s (fun t =>
      DescDone f c r s t ∧ Only [.regs, .out, .host] s t)) ∧
  (∀ (m : Loose) (s : State), m.type = 1 → m.dst = s.pkg.setWidth 8 → s.anchor = true → s.host.bme = true →
    leAt m.payload 0 1 = 1 → s.route (m.src.setWidth 6) ≠ 5 →
    Completes (.hostFwdReq m .failed) s (fun t =>
      Sent { s.mkLoose 2 (m.src.setWidth 6) m.addr 0 [] with seq := m.seq }
        (s.emit (.hostWrite (BitVec.ofNat 64 (leAt m.payload 1 8)) (m.payload.drop 13))) t ∧
      Only [.regs, .out, .basket] s t)) ∧
  (∀ (m : Loose) (l : List Byte) (s : State), m.type = 1 → m.dst = s.pkg.setWidth 8 → s.anchor = true →
    s.host.bme = true → leAt m.payload 0 1 = 2 → s.route (m.src.setWidth 6) ≠ 5 →
    Completes (.hostFwdReq m (.ok l)) s (fun t =>
      Sent { s.mkLoose 2 (m.src.setWidth 6) m.addr 0 l with seq := m.seq }
        (s.emit (.hostRead (BitVec.ofNat 64 (leAt m.payload 1 8)) (leAt m.payload 9 4))) t ∧
      Only [.regs, .out, .basket] s t)) ∧
  (∀ (f : Flight) (m : Loose) (l : List (BitVec 32)) (c : Code) (r : Word) (n : Nat) (s : State), Canon s →
    s.host.flights.find? (awaits m.seq) = some f → f.st = .waitRsp l c r n → dSigEn f.desc = false →
    m.type = 2 → m.dst = s.pkg.setWidth 8 →
    ((∀ q ∈ l, q = m.seq) →
      Completes (.hostFwdRsp m) s (fun t => DescDone f c r s t ∧ Only [.regs, .out, .host] s t)) ∧
    ((∃ q ∈ l, q ≠ m.seq) →
      exec (.hostFwdRsp m) s = .next (setFlight f.id (.waitRsp (l.filter (fun x => x != m.seq)) c r n) s))) ∧
  (∀ (f : Flight) (m : Loose) (n : Nat) (s : State),
    s.host.flights.find? (awaits m.seq) = some f → f.st = .waitData [(m.seq, none)] n → m.type = 2 →
    m.dst = s.pkg.setWidth 8 →
    exec (.hostFwdRsp m) s = .next (setFlight f.id (.gotData m.payload) s)) ∧
  (∀ (f : Flight) (n : Nat) (s : State), Canon s →
    s.flight f.id = some f → sentAt f = some n → n + 100000 ≤ s.upNs →
    Completes (.hostFwdTimeout f.id) s (fun t =>
      DescDone f eFwdTimeout 0 s t ∧ Only [.regs, .out, .host] s t))

/-- The opcodes of 04_host (R74, R83 to R85, R286, Tables Images-8 and Images-9) where each has its effect: the entry
carries status 0x0000, buffers reach host memory, knots and mirrors follow. Where the spec leaves the form of an output,
an operand or a moment open, this rests on the model's own choices, log entries 2, 33, 65 and 67. -/
def Obligations.OpcodeCommandsComplete : Prop :=
  (∀ (f : Flight) (s : State), Canon s → Started f 0x00 s →
    Completes (.nop f.id) s (fun t => DescDone f 0 0 s t ∧ Only [.out, .host] s t)) ∧
  (∀ (f : Flight) (s : State), Canon s → Started f 0x01 s → s.anchor = true → s.host.bme = true →
    Completes (.identity f.id) s (fun t => DescDone f 0 0 s t ∧
      Out.hostWrite (BitVec.ofNat 64 (dAddr f.desc)) (identityBytes s) ∈ t.out ∧ Only [.out, .host] s t)) ∧
  (∀ (f : Flight) (s : State), Canon s → Started f 0x02 s → s.anchor = true → s.host.bme = true →
    Completes (.status f.id) s (fun t => DescDone f 0 0 s t ∧
      Out.hostWrite (BitVec.ofNat 64 (dAddr f.desc)) (statusBytes s) ∈ t.out ∧ Only [.out, .host] s t)) ∧
  (∀ (f : Flight) (s : State), Canon s → Started f 0x03 s → s.anchor = true → s.host.bme = true →
    Completes (.selftest f.id) s (fun t => DescDone f 0 0 s t ∧
      Out.hostWrite (BitVec.ofNat 64 (dAddr f.desc)) (selftestBytes s) ∈ t.out ∧ Only [.out, .host] s t)) ∧
  (∀ (f : Flight) (s : State), Canon s → Started f 0x10 s → s.weave.run = none →
    Completes (.knotSet f.id) s (fun t => DescDone f 0 0 s t ∧
      t.knot (bits f.desc 256 17) = BitVec.ofNat 32 (descNum f.desc 36 4) ∧
      (∀ k, k ≠ bits f.desc 256 17 → t.knot k = s.knot k) ∧ Only [.out, .host, .knots] s t)) ∧
  (∀ (f : Flight) (s : State), Canon s → Started f 0x11 s →
    Completes (.knotRead f.id) s (fun t => DescDone f 0 (s.knot (bits f.desc 256 17)) s t ∧
      Only [.out, .host] s t)) ∧
  (∀ (f : Flight) (s : State), Canon s → Started f 0x12 s → f.desc.getLsbD 264 = true → s.anchor = true →
    s.host.bme = true →
    Completes (.mirror f.id) s (fun t => DescDone f 0 0 s t ∧
      t.host.mirrors = smSet none s.host.mirrors (descNum f.desc 32 1) (some (BitVec.ofNat 64 (dAddr f.desc))) ∧
      Out.hostWrite (BitVec.ofNat 64 (dAddr f.desc)) (knotPage (descNum f.desc 32 1) s) ∈ t.out ∧
      Only [.out, .host] s t)) ∧
  (∀ (f : Flight) (s : State), Canon s → Started f 0x12 s → f.desc.getLsbD 264 = false →
    Completes (.mirror f.id) s (fun t => DescDone f 0 0 s t ∧
      t.host.mirrors = smSet none s.host.mirrors (descNum f.desc 32 1) none ∧ Only [.out, .host] s t)) ∧
  (∀ (f : Flight) (s : State), s.anchor = false → s.route (s.homeAnchor s.pkg) ≠ 5 →
    (Started f 0x01 s → Completes (.identity f.id) s (WaitsForWrites f s)) ∧
    (Started f 0x02 s → Completes (.status f.id) s (WaitsForWrites f s)) ∧
    (Started f 0x03 s → Completes (.selftest f.id) s (WaitsForWrites f s)) ∧
    (Started f 0x12 s → f.desc.getLsbD 264 = true → Completes (.mirror f.id) s (WaitsForWrites f s))) ∧
  (∀ (w : Waiting) (l : List Waiting) (s : State), Canon s → s.anchor = true → s.host.bme = true →
    takeWaiting s s.host.waiting = some (w, l) →
    Completes .deferredEntryPost s (fun t =>
      t.host.waiting = l ∧ (t.ring (waitRing s w)).write = posNext (s.cqSize (waitRing s w)) (s.ring (waitRing s w)).write ∧
      Only [.out, .host] s t)) ∧
  (∀ (b : BitVec 256) (l : List (BitVec 256)) (s : State), s.host.heldEv = b :: l → s.anchor = false →
    s.basket.outsider = false → s.route (s.homeAnchor s.pkg) ≠ 5 →
    Completes .stakeEventSend s (fun t =>
      t.host = { s.host with heldEv := l, evDropped := 0 } ∧
      Sent (s.mkLoose 1 (s.homeAnchor s.pkg) 0 0 (fwdPayload 0 0 32
        (leBytes 32 (putBits b 48 16 (min s.host.evDropped 0xFFFF)).toNat))) s t ∧
      Only [.regs, .out, .basket, .host] s t)) ∧
  (∀ (k : BitVec 17) (a : BitVec 16) (s : State), Canon s →
    Completes (.knotSignal k a none) s (fun t =>
      t.knot k.toNat = s.knot k.toNat + BitVec.ofNat 32 a.toNat ∧ (∀ j, j ≠ k.toNat → t.knot j = s.knot j) ∧
      Only [.host, .knots] s t)) ∧
  (∀ (w : LinkWord) (s : State), Canon s → ctrlSub w = 2 → lwByte w 3 % 64 = s.pkg.toNat →
    Completes (.knot w) s (fun t =>
      t.knot (lwNum w 4 3 % 2 ^ 17) = s.knot (lwNum w 4 3 % 2 ^ 17) + BitVec.ofNat 32 (lwNum w 7 2) ∧
      Only [.host, .knots] s t)) ∧
  (∀ (k : BitVec 17) (a : BitVec 64) (s : State), s.anchor = true → s.host.bme = true → k.toNat ∈ s.host.dirty →
    smGet none s.host.mirrors (k.toNat / 1024) = some a →
    Completes (.mirrorWrite k) s (fun t =>
      t.out = s.out ++ [.hostWrite (a + BitVec.ofNat 64 (4 * (k.toNat % 1024))) (leBytes 4 (s.knot k.toNat).toNat)] ∧
      k.toNat ∉ t.host.dirty ∧ Only [.out, .host] s t)) ∧
  (∀ (v : Word) (s : State), Canon s → Served s → recCfgVerdict s (v &&& 0x13F0F) = 0 → v.getLsbD 16 = true →
    s.flag Reg.hostRecCfg 16 = false →
    Completes (.recRingEnable v 15) s (fun t =>
      t.reg Reg.hostRecCfg = v &&& 0x13F0F ∧ t.host = { s.host with recPos := 0, recLap := 1, recHead := 0 } ∧
      Only [.regs, .host] s t ∧ RegsOnly [Reg.hostRecCfg] s t)) ∧
  (∀ (v : Word) (s : State), Canon s → Served s → recCfgVerdict s (v &&& 0x13F0F) = 0 → v.getLsbD 16 = false →
    s.flag Reg.hostRecCfg 16 = true → s.host.records.length ≤ 256 →
    Completes (.recRingDisable v 15) s (fun t =>
      t.reg Reg.hostRecCfg = v &&& 0x13F0F ∧ t.host.records = s.host.records.map (fun r => { r with held := true }) ∧
      Only [.regs, .host] s t ∧ RegsOnly [Reg.hostRecCfg] s t))

/-- The flash commands (R322, R331 to R333) where each has its effect: an erased range reads 0xFF, a written range reads
as its source, and a committed slot carries a commit record over its content; a slot whose content fails its checks is
left as it was and the entry carries the first failing code. Where the spec leaves the form of an output, an operand or
a moment open, this rests on the model's own choices, log entries 9, 32, 34 and 67. -/
def Obligations.FlashCommandsComplete : Prop :=
  (∀ (f : Flight) (s : State), Canon s → Started f 0x04 s → s.flag Reg.bootStatus 8 = true →
    flashRange s 4096 (descNum f.desc 32 4) (descNum f.desc 36 4) = 0 →
    Completes (.flashErase f.id) s (fun t => DescDone f 0 0 s t ∧
      (∀ a, descNum f.desc 32 4 ≤ a → a < descNum f.desc 32 4 + descNum f.desc 36 4 → t.flashBytes a 1 = [0xFF]) ∧
      (∀ a, 0x2000 ≤ a → a < descNum f.desc 32 4 ∨ descNum f.desc 32 4 + descNum f.desc 36 4 ≤ a →
        t.flashBytes a 1 = s.flashBytes a 1) ∧ Only [.out, .host, .flash] s t)) ∧
  (∀ (f : Flight) (bytes src : List Byte) (s : State), Canon s → Supplied f 0x05 bytes src s →
    s.flag Reg.bootStatus 8 = true → descNum f.desc 36 4 ≤ 65536 →
    flashRange s 256 (descNum f.desc 32 4) (descNum f.desc 36 4) = 0 → src.length = descNum f.desc 36 4 →
    (∀ k < descNum f.desc 36 4, s.flashBytes (descNum f.desc 32 4 + k) 1 = [0xFF]) →
    Completes (.flashWrite f.id bytes none) s (fun t => DescDone f 0 (BitVec.ofNat 32 (descNum f.desc 36 4)) s t ∧
      t.flashBytes (descNum f.desc 32 4) (descNum f.desc 36 4) = src ∧
      (∀ a, a < descNum f.desc 32 4 ∨ descNum f.desc 32 4 + descNum f.desc 36 4 ≤ a →
        t.flashBytes a 1 = s.flashBytes a 1) ∧ Only [.out, .host, .flash] s t)) ∧
  (∀ (f : Flight) (bytes : List Byte) (s : State), Started f 0x05 s → s.anchor = false →
    s.route (s.homeAnchor s.pkg) ≠ 5 → 0 < descNum f.desc 36 4 → descNum f.desc 36 4 ≤ 65536 →
    Completes (.flashWrite f.id bytes none) s (fun t =>
      (∃ l, t.flight f.id = some { f with st := .waitData l s.upNs }) ∧ Only [.regs, .out, .basket, .host] s t)) ∧
  (∀ (f : Flight) (b : Bool) (o : FuseOutcome) (s : State), Canon s → Started f 0x06 s →
    descNum f.desc 32 1 = b.toNat → descNum f.desc 33 1 = 1 → s.bootedSlot ≠ some b →
    Completes (.imageCommit f.id true o) s (fun t =>
      (contentVerdict s.floorVal (s.slotContent b 0x100000) = 0 →
        DescDone f 0 (nextSeq s) s t ∧ commitOk b (t.flashBytes (commitAt b) 64) = true ∧
        leAt (t.flashBytes (commitAt b) 64) 8 4 = (nextSeq s).toNat) ∧
      (contentVerdict s.floorVal (s.slotContent b 0x100000) ≠ 0 →
        DescDone f (contentVerdict s.floorVal (s.slotContent b 0x100000)) 0 s t ∧ t.flash = s.flash)))

/-- Field inputs, the encoder and its presets (R100 to R104) where each command has its effect. Where the spec leaves
the form of an output, an operand or a moment open, this rests on the model's own choices, log entries 20, 35 and 72. -/
def Obligations.FieldCommandsComplete : Prop :=
  (∀ (i : Fin 8) (l : Bool) (s : State), s.fieldOn = true → s.field.raw.getLsbD i.val ≠ l →
    s.field.levels.getLsbD i.val ≠ l → 0 < s.filterP i.val →
    exec (.fieldInputEdge i l) s = .next (let f := s.field
      { s with field := { f with raw := putBits f.raw i.val 1 l.toNat,
                                 runs := smSet none f.runs i.val (some (s.time.pcyc, s.stampNow)) } })) ∧
  (∀ (i : Fin 8) (l : Bool) (s : State), s.fieldOn = true → Rising s.field.runs → s.field.raw.getLsbD i.val ≠ l →
    s.field.levels.getLsbD i.val = l →
    exec (.fieldInputEdge i l) s = .next (let f := s.field
      { s with field := { f with raw := putBits f.raw i.val 1 l.toNat, runs := smSet none f.runs i.val none } })) ∧
  (∀ (i : Fin 8) (l : Bool) (n : Nat) (st : BitVec 80) (s : State), s.fieldOn = true →
    s.field.levels.getLsbD i.val ≠ l → n + s.filterP i.val ≤ s.time.pcyc →
    ((s.field.raw.getLsbD i.val = l ∧ smGet none s.field.runs i.val = some (n, st)) ∨
      (s.field.raw.getLsbD i.val ≠ l ∧ n = s.time.pcyc ∧ st = s.stampNow)) →
    s.edgeSelected i.val l = true → s.field.evq.length < 64 →
    Completes (.fieldInputEdge i l) s (fun t =>
      t.field.levels.getLsbD i.val = l ∧ (∀ j < 8, j ≠ i.val → t.field.levels.getLsbD j = s.field.levels.getLsbD j) ∧
      t.field.evq = s.field.evq ++ [⟨BitVec.ofNat 4 i.val, l, true, st, s.field.pos⟩] ∧ t.field.pos = s.field.pos ∧
      (s.flag (Reg.fieldInCfg i.val) 17 = false → Only [.field] s t) ∧
      (s.flag (Reg.fieldInCfg i.val) 17 = true → s.sensorsOn = true → s.pix.trigNow = none → s.restarting = false →
        s.accepts (s.exposure (s.fld (Reg.fieldInCfg i.val) 20 2) (16 + i.val)) = true →
        t.pix.pend = s.pix.pend ++ [s.exposure (s.fld (Reg.fieldInCfg i.val) 20 2) (16 + i.val)] ∧
        Only [.regs, .field, .pix, .roi] s t))) ∧
  (∀ (e : FieldEvent) (q : List FieldEvent) (s : State), Served s → s.field.evq = e :: q →
    exec .evqPop s = .next (let f := s.field
      { s with field := { f with evq := q, latch := e },
               out := s.out ++ [.readData Reg.fieldEvqInfo
                 (BitVec.ofNat 32 (e.src.toNat + e.rising.toNat * 2 ^ 4 + 2 ^ 8 + q.length * 2 ^ 16))] })) ∧
  (∀ (a b : Bool) (s : State), s.fieldOn = true → s.field.armAt = none → s.field.encq = [] →
    exec (.encoderEdge (some (a, b))) s =
      .next { s with field := { s.field with encq := [⟨s.time.pcyc, s.stampNow, some (a, b), false⟩] } }) ∧
  (∀ (a b : Bool) (e : EncEdge) (s : State), s.fieldOn = true → s.field.armAt = none → s.field.encq = [e] →
    e.ab = some (a, b) → e.z = false → s.edgeDue e = true → s.flag Reg.fieldEncCfg 0 = true →
    (∀ m < 16, s.flag (Reg.fieldMatchCfg m) 0 = false) →
    (a ≠ s.field.a ∧ b = s.field.b → Completes (.encoderEdge none) s (fun t =>
      t.field.pos = (if (a != b) != (s.pixReg Reg.fieldEncCfg).getLsbD 1 then s.field.pos + 1 else s.field.pos - 1) ∧
      t.field = { s.field with a := a, b := b, encq := [], pos := t.field.pos } ∧ Only [.field] s t)) ∧
    (a = s.field.a ∧ b ≠ s.field.b → Completes (.encoderEdge none) s (fun t =>
      t.field.pos = (if (b == a) != (s.pixReg Reg.fieldEncCfg).getLsbD 1 then s.field.pos + 1 else s.field.pos - 1) ∧
      t.field = { s.field with a := a, b := b, encq := [], pos := t.field.pos } ∧ Only [.field] s t))) ∧
  (∀ s : State, s.fieldOn = true → s.field.armAt = none → s.field.encq = [] →
    exec (.zPulse true) s =
      .next { s with field := { s.field with encq := [⟨s.time.pcyc, s.stampNow, none, true⟩] } }) ∧
  (∀ (e : EncEdge) (s : State), s.fieldOn = true → s.field.armAt = none → s.field.encq = [e] → e.ab = none →
    e.z = true → s.edgeDue e = true → s.field.armZ = true → s.flag Reg.fieldEncCfg 6 = false →
    exec (.zPulse false) s =
      .next { s with field := { s.field with pos := s.preset, armZ := false, encq := [] } }) ∧
  (∀ (e : EncEdge) (s : State), s.fieldOn = true → s.field.armAt = none → s.field.encq = [e] → e.ab = none →
    e.z = true → s.edgeDue e = true → s.field.armZ = false → s.flag Reg.fieldEncCfg 6 = true →
    s.field.evq.length < 64 →
    exec (.zPulse false) s = .next (let f := s.field
      { s with field := { f with evq := f.evq ++ [⟨8, true, true, e.stamp, f.pos⟩], encq := [] } })) ∧
  (∀ s : State, Canon s → s.anchor = true → s.fieldOn = true → s.flag Reg.fieldEncCfg 0 = true →
    s.flag Reg.fieldEncErr 16 = false →
    Completes .encLoss s (fun t => t.flag Reg.fieldEncErr 16 = true ∧ Posted eEncLoss Reg.fieldErr s t ∧
      Only [.regs, .out, .host] s t)) ∧
  (∀ s : State, Canon s → s.fieldOn = true →
    Completes .encSignalReturn s (fun t =>
      t.flag Reg.fieldEncErr 16 = false ∧ Only [.regs] s t ∧ RegsOnly [Reg.fieldEncErr] s t)) ∧
  (∀ (w : Writer) (s : State), Served s → s.weaveOwns w = false →
    s.nowFp ≤ s.pair Reg.fieldEncAtLo Reg.fieldEncAtHi * 65536 →
    exec (.armAt w) s = .next { s with field := { s.field with armAt := some (s.pair Reg.fieldEncAtLo Reg.fieldEncAtHi) } }) ∧
  (∀ (w : Writer) (s : State), Served s → s.weaveOwns w = false →
    exec (.armZ w) s = .next { s with field := { s.field with armZ := true } }) ∧
  (∀ (n : Nat) (s : State), s.field.armAt = some n → s.fieldOn = true → s.field.encq = [] → n * 65536 ≤ s.nowFp →
    exec .presetLoad s = .next { s with field := { s.field with pos := s.preset, armAt := none } }) ∧
  (∀ s : State, Served s →
    Completes .fieldEncPosLoRead s (fun t =>
      t.field = { s.field with posHi := (s.field.pos >>> 32).setWidth 16 } ∧
      t.out = s.out ++ [.readData Reg.fieldEncPosLo (s.field.pos.setWidth 32)] ∧ Only [.out, .field] s t))

/-- Exposures, dark capture, strobes and sync outputs (R90, R91, R93, R97, R107 to R109) where each command has its
effect. Where the spec leaves the form of an output, an operand or a moment open, this rests on the model's own choices,
log entries 2, 20 and 72. -/
def Obligations.PixelCommandsComplete : Prop :=
  (∀ (p : BitVec 2) (n : Nat) (l : List (Nat × BitVec 2)) (s : State), Canon s → s.sensorsOn = true →
    s.pix.snaps = (n, p) :: l → n + 13 ≤ s.time.pcyc →
    s.pix.trigNow = none → s.accepts (s.exposure p.toNat 24) = true → s.restarting = false →
    Completes .snap s (fun t =>
      t.pix.snaps = l ∧ t.pix.pend = s.pix.pend ++ [s.exposure p.toNat 24] ∧
      t.pix.readEnd = (s.exposure p.toNat 24).startAt + (s.exposure p.toNat 24).lenP + (s.exposure p.toNat 24).readP ∧
      t.reg Reg.pixFrames = s.reg Reg.pixFrames + 1 ∧ Only [.regs, .field, .pix, .roi] s t ∧
      RegsOnly [Reg.pixFrames] s t)) ∧
  (∀ (w : Writer) (s : State), Served s → s.weave.run = none → 1 ≤ s.level → s.pix.darkBusy = false →
    s.pix.trigNow = none →
    Completes (.darkCapture w) s (fun t =>
      t.pix = { s.pix with darkBusy := true, darkBand := s.pix.band } ∧
      t.out = s.out ++ ([0, 1, 2, 3] : List (Fin 4)).map (fun k =>
        Out.ball (.stb k) (s.flag (Reg.fieldStbCfg k.val) 2)) ∧ Only [.out, .pix] s t)) ∧
  (∀ (sums : List (Nat × Nat)) (s : State), Canon s → s.fieldOn = true → s.pix.darkBusy = true →
    storeReserved (s.darkTable s.pix.darkBand.toNat) sums.length = false →
    Completes (.darkCaptureDone sums) s (fun t =>
      t.rdMem (s.darkTable s.pix.darkBand.toNat) sums.length = sums.map darkRateOf ∧
      BytesOnly (s.darkTable s.pix.darkBand.toNat) sums.length s t ∧
      t.flag Reg.pixStatus (8 + s.pix.darkBand.toNat) = true ∧ t.pix = { s.pix with darkBusy := false } ∧
      Only [.regs, .out, .pix, .mem, .poison] s t ∧ RegsOnly [Reg.pixStatus] s t)) ∧
  (∀ (e : Exposure) (s : State), s.dueExposure = some e → s.fieldOn = true →
    Completes .integrationStart s (fun t =>
      t.pix = { s.pix with pend := s.pix.pend.erase e, cur := s.pix.cur ++ [s.frameOf e] } ∧ Only [.out, .pix] s t)) ∧
  (∀ (f : Frame) (s : State), s.pix.cur = [f] → f.exp.startAt + f.exp.lenP ≤ s.time.pcyc → s.fieldOn = true →
    s.pix.reading = none →
    Completes .integrationEnd s (fun t =>
      t.pix = { s.pix with cur := [], reading := some { f with posEnd := s.field.pos } } ∧ Only [.out, .pix] s t)) ∧
  (∀ (rows : List (Nat × List (BitVec 12))) (f : Frame) (a : Nat) (s : State), Canon s → s.fieldOn = true →
    s.pix.reading = some f → f.exp.startAt + f.exp.lenP + f.exp.readP ≤ s.time.pcyc → s.frameBase f = some a →
    storeReserved a (frameBytes s f rows).length = false →
    Completes (.readoutEnd rows) s (fun t =>
      t.rdMem a (frameBytes s f rows).length = frameBytes s f rows ∧ BytesOnly a (frameBytes s f rows).length s t ∧
      t.pix = { s.pix with reading := none, stored := smSet none s.pix.stored f.exp.setup.toNat (some f) } ∧
      Only [.pix, .mem, .poison] s t)) ∧
  (∀ (k : Fin 4) (n : Nat) (s : State), s.fieldOn = true → (s.strobe k.val).starts = [n] → n ≤ s.time.pcyc →
    s.fld (Reg.fieldStbCfg k.val) 0 2 = 1 → s.pix.darkBusy = false →
    Completes (.strobeStart k) s (fun t =>
      t.strobe k.val = ⟨[], some (n + s.fld (Reg.fieldStbWidth k.val) 0 22)⟩ ∧
      t.out = s.out ++ [.ball (.stb k) (!s.flag (Reg.fieldStbCfg k.val) 2)] ∧ Only [.out, .field] s t)) ∧
  (∀ (k : Fin 4) (n : Nat) (s : State), Rising s.field.strobes → s.fieldOn = true → (s.strobe k.val).endAt = some n →
    n ≤ s.time.pcyc → s.fld (Reg.fieldStbCfg k.val) 0 2 = 1 →
    Completes (.strobeEnd k) s (fun t =>
      t.strobe k.val = { s.strobe k.val with endAt := none } ∧
      t.out = s.out ++ [.ball (.stb k) (s.flag (Reg.fieldStbCfg k.val) 2)] ∧ Only [.out, .field] s t)) ∧
  (∀ (j : Fin 2) (n : Nat) (s : State), s.fieldOn = true → (s.sync j.val).starts = [n] → n ≤ s.time.pcyc →
    (s.syncSrc j.val = 2 ∨ s.syncSrc j.val = 3) →
    Completes (.syncPulseStart j) s (fun t =>
      t.sync j.val = ⟨[], some (n + s.fld (Reg.fieldSyncCfg j.val) 16 16)⟩ ∧
      t.out = s.out ++ [.ball (.sync j) (!s.flag (Reg.fieldSyncCfg j.val) 3)] ∧ Only [.out, .field] s t)) ∧
  (∀ (j : Fin 2) (n : Nat) (s : State), Rising s.field.syncs → s.fieldOn = true → (s.sync j.val).endAt = some n →
    n ≤ s.time.pcyc → (s.syncSrc j.val = 2 ∨ s.syncSrc j.val = 3) →
    Completes (.syncPulseEnd j) s (fun t =>
      t.sync j.val = { s.sync j.val with endAt := none } ∧
      t.out = s.out ++ [.ball (.sync j) (s.flag (Reg.fieldSyncCfg j.val) 3)] ∧ Only [.out, .field] s t)) ∧
  (∀ s : State, s.fieldOn = true → s.atSecond = true → s.syncSrc 0 = 4 → s.syncSrc 1 ≠ 4 →
    Completes .beltSecond s (fun t =>
      (t.sync 0).endAt = some (s.time.pcyc + s.fld (Reg.fieldSyncCfg 0) 16 16) ∧
      t.out = s.out ++ [.ball (.sync 0) (!s.flag (Reg.fieldSyncCfg 0) 3)] ∧ Only [.out, .field] s t))

/-- Regions, rules, crops, profiles, boxes and the closed write path (R112 to R121, R123, R124, R127, R129) where each
command has its effect. Where the spec leaves the form of an output, an operand or a moment open, this rests on the
model's own choices, log entries 2, 37, 38 and 40. -/
def Obligations.RegionCommandsComplete : Prop :=
  (∀ (es : List (BitVec 256)) (s : State), Canon s → s.flag Reg.roiCtl 0 = true → es.length ≤ 64 →
    (∀ e ∈ es, ∃ f m, s.storedSeq (entryNum e 0 4) = some f ∧ entryOk f e = true ∧ matchRegion s f e = some m) →
    Completes (.regionList es) s (fun t =>
      t.roi = { s.roi with matched := s.roi.matched ++ es.filterMap (fun e =>
        (s.storedSeq (entryNum e 0 4)).bind (fun f => matchRegion s f e)) } ∧ Only [.regs, .roi] s t ∧ RegsOnly [] s t)) ∧
  (∀ (e : BitVec 256) (s : State), Canon s → s.flag Reg.roiCtl 0 = true →
    (∀ f, s.storedSeq (entryNum e 0 4) = some f → entryOk f e = false) →
    Completes (.regionList [e]) s (fun t =>
      (t.reg Reg.roiEntryBad).toNat = min (2 ^ 32 - 1) ((s.reg Reg.roiEntryBad).toNat + 1) ∧
      Only [.regs, .out, .host] s t)) ∧
  (∀ (g : Option (BitVec 6 × Word)) (m : Matched) (rest : List Matched) (o : BitVec 6) (id : Word) (s : State), Canon s →
    s.roi.matched = m :: rest → cropParcel s m g = some (o, id) → s.freeSlots ≠ [] →
    Completes (.cropCut g) s (fun t =>
      t.roi.matched = rest ∧ t.roi.handed = s.roi.handed ∧
      (∃ k ∈ s.freeSlots, t.freeSlots = s.freeSlots.filter (fun j => j != k) ∧
        (smGet none t.roi.crops k).map (fun c => (c.owner, c.parcel, c.m, c.done)) = some (o, id, m, false) ∧
        t.rdMem (s.cropAddr k + 64) (cropPixels s m).length = (cropPixels s m).map (fun x => x.1) ∧
        BytesOnly (s.cropAddr k + 64) (cropPixels s m).length s t) ∧
      (o = s.pkg → m.multi = true → ∀ q ∈ t.roi.parcels, q.id = id → q.multi = true) ∧
      Only [.freeCtr, .roi, .mem, .poison] s t)) ∧
  (∀ (g : Option (BitVec 6 × Word)) (m : Matched) (rest : List Matched) (o : BitVec 6) (id : Word) (s : State), Canon s →
    s.roi.matched = m :: rest → cropParcel s m g = some (o, id) → s.freeSlots = [] →
    Completes (.cropCut g) s (fun t =>
      t.roi.matched = rest ∧ t.roi.crops = s.roi.crops ∧
      (t.reg Reg.roiCropFullCnt).toNat = min (2 ^ 32 - 1) ((s.reg Reg.roiCropFullCnt).toNat + 1) ∧
      (o = s.pkg → m.multi = true → ∀ q ∈ t.roi.parcels, q.id = id → q.multi = true) ∧
      Only [.regs, .out, .host, .roi] s t)) ∧
  (∀ (k : BitVec 9) (c : Crop) (s : State), Canon s → smGet none s.roi.crops k.toNat = some c → c.done = false →
    Completes (.cropDone k) s (fun t =>
      smGet none t.roi.crops k.toNat = some { c with done := true } ∧
      t.rdMem (s.cropAddr k.toNat) 64 = cropHeader s c 0 ∧ BytesOnly (s.cropAddr k.toNat) 64 s t ∧
      (c.owner = s.pkg → t.roi.handed = s.roi.handed ++ [k] ∧ t.out = s.out) ∧
      (c.owner ≠ s.pkg → t.roi.handed = s.roi.handed ∧ t.out = s.out ++ [.crop c.owner (handedCrop s k c)]) ∧
      Only [.out, .roi, .mem, .poison] s t)) ∧
  (∀ (k : BitVec 9) (c : Crop) (fate : CropFate) (n : Nat) (s : State), Rising s.roi.crops →
    smGet none s.roi.crops k.toNat = some c → c.done = true →
    ((c.owner = s.pkg ∧ c.commitNs = some n) ∨ (c.owner ≠ s.pkg ∧ ∃ ns, fate = .committed ns ∧ n = ns.toNat)) →
    n + s.fld Reg.roiCropCfg 16 16 * 1000000 ≤ s.nowNs →
    Completes (.cropHoldExpiry k fate) s (fun t =>
      smGet none t.roi.crops k.toNat = none ∧ k ∉ t.roi.handed ∧
      (∀ j, j ≠ k.toNat → smGet none t.roi.crops j = smGet none s.roi.crops j) ∧ Only [.roi] s t)) ∧
  (∀ s : State, Served s → s.roi.swap = false → s.ruleData.toNat &&& ruleReserved = 0 →
    s.roi.active1 = false →
    exec .ruleWrite s = .next (let r := s.roi
      { s with roi := { r with bank1 := smSet 0 r.bank1 (s.fld Reg.roiRuleSel 0 8) s.ruleData } })) ∧
  (∀ s : State, Served s → s.roi.swap = false →
    exec .ruleSwap s = .next { s with roi := { s.roi with swap := true } }) ∧
  (∀ s : State, Canon s → Served s →
    Completes .ruleRead s (fun t =>
      t.ruleData = smGet 0 s.roi.inactive (s.fld Reg.roiRuleSel 0 8) ∧ Only [.regs] s t ∧
      RegsOnly [Reg.roiRuleData0, Reg.roiRuleData1, Reg.roiRuleData2, Reg.roiRuleData3] s t)) ∧
  (∀ s : State, s.roi.swap = true →
    Completes .swapApply s (fun t =>
      t.roi.active = s.roi.inactive ∧ t.roi.inactive = s.roi.active ∧ t.roi.swap = false ∧ Only [.roi] s t)) ∧
  (∀ (p : BitVec 2) (w : Fin 8) (id : Word) (pb : Pos) (f : Frame) (s : State), Canon s →
    s.storedFrame p.toNat = some f → s.flag Reg.roiCtl 0 = true → s.flag Reg.roiProfCfg (16 + p.toNat) = true →
    Completes (.profileExtract p w id pb) s (fun t =>
      t.out = s.out ++ (profilePoints s f w.val id pb).1.map Out.profile ∧
      (t.reg Reg.roiMultipeak).toNat =
        min (2 ^ 32 - 1) ((s.reg Reg.roiMultipeak).toNat + (profilePoints s f w.val id pb).2) ∧
      Only [.regs, .out] s t ∧ RegsOnly [Reg.roiMultipeak] s t)) ∧
  (∀ (x : ProfilePoint) (q : Parcel) (s : State), s.roi.parcels = [q] → x.parcel = q.id → x.face = 1 →
    inWindow s.margin q x.x2 = true →
    Completes (.profileFuse [x]) s (fun t =>
      t.roi = { s.roi with parcels :=
        [{ q with left := addFace (fun a b => decide (b < a)) (x.x2 / 8) x.y q.left }] } ∧ Only [.roi] s t)) ∧
  (∀ (q : Parcel) (s : State), s.roi.parcels = [q] → q.committed = false →
    Completes (.boxFit q.id) s (fun t =>
      t.roi = { s.roi with parcels := [{ q with dims := boxOf q s.nowNs }] } ∧ Only [.roi] s t)) ∧
  (∀ (p : BitVec 2) (s : State), Served s → s.lifecycle = 1 → s.flag Reg.fuseLifecycle 9 = true → s.roi.diag = none →
    exec (.diagCapture p) s =
      .next { s with roi := { s.roi with diag := some p, diagSeq := none, diagUsed := true } }) ∧
  (∀ (p : BitVec 2) (f : Frame) (a : Nat) (s : State), s.anchor = true → s.host.bme = true → s.roi.diag = some p →
    s.roi.diagSeq = some f.exp.seq → s.storedSeq f.exp.seq.toNat = some f → s.frameBase f = some a →
    s.poisoned a f.size = false →
    Completes .diagWrite s (fun t =>
      t.roi = { s.roi with diag := none, diagSeq := none } ∧
      t.out = s.out ++ [.hostWrite (BitVec.ofNat 64 (s.pair Reg.roiDiagBufLo Reg.roiDiagBufHi)) (s.rdMem a f.size)] ∧
      Only [.out, .roi] s t)) ∧
  (∀ (c : Option (Fin 16)) (a : BitVec 48) (s : State), Canon s → 0x800000000000 ≤ a.toNat →
    Completes (.coreHostWrite c a) s (fun t =>
      t.out = s.out ++ [.issuerCode eEgressPath] ∧ Latched eEgressPath Reg.roiErr s t ∧
      Only [.regs, .out] s t ∧ RegsOnly [Reg.roiErr] s t))

/-- The weigh front end (R131, R133, R135, R137 to R141, R144, R145) where each command has its effect. Where the spec
leaves the form of an output, an operand or a moment open, this rests on the model's own choices, log entries 20, 39 and
72. -/
def Obligations.WeighCommandsComplete : Prop :=
  (∀ (val : Word) (s : State), Canon s → Served s → s.flag Reg.wfeCtl 0 = false → val.getLsbD 0 = true →
    wfeCtlVerdict s (val &&& 0x1F) = 0 →
    Completes (.wfeEnable val 0xF) s (fun t =>
      t.reg Reg.wfeCtl = val &&& 0x1F ∧ (t.wfe.sliceA, t.wfe.sliceB, t.wfe.sliceE) = (0, 1, 2) ∧
      t.wfe.settled = false ∧ t.wfe.settledAt = s.time.pcyc ∧ t.wfe.calBusy = true ∧ t.wfe.rotCnt = 0 ∧
      Only [.regs, .wfe] s t ∧ RegsOnly [Reg.wfeCtl] s t)) ∧
  (∀ (sense : Option Nat) (s : State), s.wfeOn = true → s.wfe.settled = false →
    s.wfe.settledAt + s.settleP ≤ s.time.pcyc → (s.fld Reg.wfeCtl 2 2 = 2 → ∃ n, sense = some n ∧ s.settleP ≤ n) →
    exec (.refSettledTimer sense) s =
      .next { s with wfe := { s.wfe with settled := true, settledAt := s.time.pcyc } }) ∧
  (∀ s : State, Canon s → s.anchor = true → s.fieldOn = true → s.flag Reg.wfeCtl 1 = true →
    Completes .excTrip s (fun t =>
      t.flag Reg.wfeCtl 1 = false ∧
      t.wfe = { s.wfe with settled := false, settledAt := s.time.pcyc, excOver := true } ∧
      Posted eWfeExc Reg.wfeErr s t ∧ Only [.regs, .out, .host, .wfe] s t)) ∧
  (∀ (k : Fin 2) (uv : Nat) (s : State), s.wfeOn = true → s.cmpLevelAt k.val uv ≠ s.wfe.cmpOut.getLsbD k.val →
    s.cmpLevelAt k.val uv ≠ s.wfe.cmpLevel.getLsbD k.val → 0 < s.cmpFilterP k.val →
    exec (.comparatorChange k uv) s = .next (let w := s.wfe
      { s with wfe := { w with cmpOut := putBits w.cmpOut k.val 1 (s.cmpLevelAt k.val uv).toNat,
                               cmpRuns := smSet none w.cmpRuns k.val (some (s.time.pcyc, s.nowFp)) } })) ∧
  (∀ (k : Fin 2) (uv n fp : Nat) (r : Bool) (s : State), Canon s → s.wfeOn = true → s.pllsRun = true → s.barriers = [] →
    s.cmpLevelAt k.val uv = r → s.wfe.cmpLevel.getLsbD k.val ≠ r → n + s.cmpFilterP k.val ≤ s.time.pcyc →
    ((s.wfe.cmpOut.getLsbD k.val = r ∧ smGet none s.wfe.cmpRuns k.val = some (n, fp)) ∨
      (s.wfe.cmpOut.getLsbD k.val ≠ r ∧ n = s.time.pcyc ∧ fp = s.nowFp)) →
    s.seqFld false 5 3 = 1 + 2 * k.val + (if r then 0 else 1) → s.wfe.a.inRun = false →
    s.seqFld true 5 3 ≠ 1 + 2 * k.val + (if r then 0 else 1) →
    Completes (.comparatorChange k uv) s (fun t =>
      t.wfe.cmpLevel.getLsbD k.val = r ∧ t.fld (Reg.wfeCmpEvt k.val) 0 2 = 1 + 2 * r.toNat ∧
      t.pair (Reg.wfeCmpTimeLo k.val) (Reg.wfeCmpTimeHi k.val) = (fp - 100 * 65536) / 65536 % 2 ^ 64 ∧
      t.pair (Reg.wfeCmpPosLo k.val) (Reg.wfeCmpPosHi k.val) = s.field.pos.toNat ∧
      t.wfe.a.startAt = some (s.time.pcyc + 32) ∧ t.wfe.a.cmp = some k ∧ t.wfe.a.startPos = s.field.pos ∧
      t.wfe.b = s.wfe.b ∧ Only [.regs, .wfe] s t ∧
      RegsOnly [Reg.wfeCmpEvt k.val, Reg.wfeCmpTimeLo k.val, Reg.wfeCmpTimeHi k.val, Reg.wfeCmpPosLo k.val,
        Reg.wfeCmpPosHi k.val] s t)) ∧
  (∀ s : State, Served s → s.wfeOn = true → s.pllsRun = true → s.seqFld false 5 3 = 0 → s.wfe.a.inRun = false →
    exec .startA s = .next (s.setConv false { s.wfe.a with
      startAt := some (s.time.pcyc + 32), startNs := BitVec.ofNat 64 s.nowNs, startPos := s.field.pos,
      cmp := none, intruded := false })) ∧
  (∀ s : State, Served s → s.wfeOn = true → s.pllsRun = true → s.seqFld true 5 3 = 0 → s.wfe.b.inRun = false →
    exec .startB s = .next (s.setConv true { s.wfe.b with
      startAt := some (s.time.pcyc + 32), startNs := BitVec.ofNat 64 s.nowNs, startPos := s.field.pos,
      cmp := none, intruded := false })) ∧
  (∀ s : State, Served s → exec .stopA s = .next (s.setConv false { s.wfe.a with stopping := s.wfe.a.inRun })) ∧
  (∀ s : State, Served s → exec .stopB s = .next (s.setConv true { s.wfe.b with stopping := s.wfe.b.inRun })) ∧
  (∀ (c : Bool) (n : Nat) (s : State), Canon s → (s.wfe.conv c).startAt = some n → n ≤ s.time.pcyc →
    runVerdict s c = 0 →
    Completes (.runStart c) s (fun t =>
      (t.wfe.conv c).running = true ∧ (t.wfe.conv c).startAt = none ∧ (t.wfe.conv c).runAt = n ∧
      (t.wfe.conv c).entry = 0 ∧ (t.wfe.conv c).entryAt = n ∧ (t.wfe.conv c).blank = false ∧
      t.wfe.conv (!c) = s.wfe.conv (!c) ∧ (∀ e ≤ s.seqLast c, t.fld (Reg.wfeRstat (16 * c.toNat + e)) 0 9 = 0) ∧
      Only [.regs, .wfe] s t ∧
      RegsOnly ((List.range (s.seqLast c + 1)).map (fun e => Reg.wfeRstat (16 * c.toNat + e))) s t)) ∧
  (∀ (c : Bool) (l hist : List Integration) (k : Nat) (w : Word) (one : Int) (s : State), Canon s →
    (s.wfe.conv c).running = true → (s.wfe.conv c).entry < 16 → k = 16 * c.toNat + (s.wfe.conv c).entry →
    w = s.entryWord c (s.wfe.conv c).entry → (s.wfe.conv c).due s.mainsP w ≤ s.time.pcyc →
    (s.wfe.conv c).done + 1 < eCount w → (s.wfe.conv c).entry ≠ s.fld Reg.wfeWeightCfg 4 4 →
    hist = ((s.wfe.conv c).hist ++ l).drop (((s.wfe.conv c).hist ++ l).length - eK w * eParts w) →
    one = (codeOfRaw s (s.wfe.slice c).val (eGain w) (entryRaw s.mainsP w hist)).1 →
    Completes (.resultWrite c l) s (fun t =>
      t.reg (Reg.wfeRes k) = BitVec.ofInt 32
        (if eAvg w then ((s.wfe.conv c).sum + one) / (((s.wfe.conv c).done + 1 : Nat) : Int) else one) ∧
      t.fld (Reg.wfeRstat k) 0 8 = min ((s.wfe.conv c).done + 1) 255 ∧ t.flag (Reg.wfeRstat k) 8 = true ∧
      t.fld (Reg.wfeRstat k) 16 2 = (s.wfe.slice c).val ∧
      t.pair (Reg.wfeRtimeLo k) (Reg.wfeRtimeHi k) = s.nowNs % 2 ^ 64 ∧
      (t.wfe.conv c).done = (s.wfe.conv c).done + 1 ∧ (t.wfe.conv c).running = true ∧
      t.wfe.conv (!c) = s.wfe.conv (!c) ∧ Only [.regs, .out, .host, .wfe] s t ∧
      (eOwc w = 0 → Only [.regs, .wfe] s t ∧
        RegsOnly [Reg.wfeRes k, Reg.wfeRstat k, Reg.wfeRtimeLo k, Reg.wfeRtimeHi k] s t) ∧
      (eOwc w ≠ 0 → s.fld Reg.wfeOwLimit 0 31 ≤ one.natAbs →
        t.flag (Reg.wfeRstat k) 11 = true ∧ (eCh w ≤ 7 → t.flag Reg.wfeOpen (eCh w) = true)))) ∧
  (∀ (l hist : List Integration) (w : Word) (one : Int) (s : State), Canon s → s.wfe.a.running = true →
    s.wfe.a.entry = s.fld Reg.wfeWeightCfg 4 4 → w = s.entryWord false s.wfe.a.entry → eAvg w = false →
    s.wfe.a.due s.mainsP w ≤ s.time.pcyc → s.wfe.a.done + 1 = eCount w → s.wfe.a.pass = 0 →
    s.flag Reg.wfeWeightCfg 0 = true → s.flag Reg.wfeXchk 0 = false → s.wfe.wq.length < 16 →
    hist = (s.wfe.a.hist ++ l).drop ((s.wfe.a.hist ++ l).length - eK w * eParts w) →
    one = (codeOfRaw s s.wfe.sliceA.val (eGain w) (entryRaw s.mainsP w hist)).1 →
    Completes (.resultWrite false l) s (fun t => ∃ x : Weight, t.wfe.wq = s.wfe.wq ++ [x] ∧
      x.value = BitVec.ofInt 32 (weightOf s one).1 ∧ x.startNs = s.wfe.a.startNs ∧ x.startPos = s.wfe.a.startPos ∧
      x.cmp = s.wfe.a.cmp ∧ Only [.regs, .out, .host, .wfe] s t)) ∧
  (∀ s : State, s.wfeOn = true → s.nowNs % 2000000000 < 3 → s.flag Reg.wfeCtl 4 = true →
    s.wfe.calFail.getLsbD s.wfe.sliceE.val = false →
    exec .rotationDue s = .next { s with wfe := { s.wfe with rotWait := true } }) ∧
  (∀ (n : Nat) (s : State), s.wfe.elfReady = some n → n + 80000 ≤ s.time.pcyc → s.wfeOn = true →
    s.flag Reg.wfeCtl 4 = true → s.wfe.rotWait = true → (s.wfe.conv s.wfe.nextConv).inRun = false →
    Completes .rotationHandover s (fun t =>
      t.wfe.slice s.wfe.nextConv = s.wfe.sliceE ∧ t.wfe.sliceE = s.wfe.slice s.wfe.nextConv ∧
      t.wfe.slice (!s.wfe.nextConv) = s.wfe.slice (!s.wfe.nextConv) ∧ t.wfe.rotCnt = s.wfe.rotCnt + 1 ∧
      t.wfe.rotWait = false ∧ t.wfe.calBusy = true ∧ t.wfe.calAt = s.time.pcyc ∧ Only [.wfe] s t)) ∧
  (∀ (short ref : Integration) (p : Int × Int) (s : State), Canon s → s.wfeOn = true → s.wfe.calBusy = true →
    s.wfe.calAt + 2 * (s.mainsP + 80000) ≤ s.time.pcyc → s.calGains = [0] →
    coefficients (s.calRaw short) (s.calRaw ref) = some p →
    Completes (.calibrationDone [(0, short, ref)]) s (fun t =>
      t.reg (Reg.wfeSGOfs (8 * s.wfe.sliceE.val)) = BitVec.ofInt 32 p.1 ∧
      t.reg (Reg.wfeSGGc (8 * s.wfe.sliceE.val)) = BitVec.ofInt 32 p.2 ∧
      t.wfe.calBusy = false ∧ t.wfe.elfReady = some s.time.pcyc ∧ t.wfe.calFail.getLsbD s.wfe.sliceE.val = false ∧
      Only [.regs, .wfe] s t ∧
      RegsOnly [Reg.wfeSGOfs (8 * s.wfe.sliceE.val), Reg.wfeSGGc (8 * s.wfe.sliceE.val)] s t))

/-- Scratchpad accesses (R154, R155, R157 to R159, R163, R164, R166) where each command has its effect, in SHARED and in
PARTITION mode: an access takes the slot of its port, reads or writes its rows, and moves its region's pointer; a NARROW
access is served from the gather buffer or waits for its block, which the G slots load and write back; slot 15 serves the R
queue. Where the spec leaves the form of an output, an operand or a moment open, this rests on the model's own choices,
log entries 2, 7 and 68. -/
def Obligations.ScratchpadCommandsComplete : Prop :=
  (∀ (n : Fin 16) (a : SpAccess) (q : Option (Fin 4)) (s : State), Canon s → s.weaveActive = true →
    q = (if s.partitioned n.val then a.quarter else none) → (s.partitioned n.val = true → q.isSome = true) →
    a.port ≠ .r → a.port ≠ .xi → a.port ≠ .xo → a.region = none →
    a.data.length = (if q.isSome then 128 else 512) →
    s.ownsSlot n.val a.port q a.cycle = true → spJudge s n.val .row a.offset.toNat q none true = 0 →
    Completes (.spRow n a) s (fun t =>
      t.rdMem (spAddr n.val a.offset.toNat) a.data.length = a.data ∧
      t.poisoned (spAddr n.val a.offset.toNat) a.data.length = a.bad ∧
      BytesOnly (spAddr n.val a.offset.toNat) a.data.length s t ∧
      t.cores = (useSlot n.val a.port q a.cycle s).cores ∧ Only [.cores, .mem, .poison] s t)) ∧
  (∀ (n : Fin 16) (a : SpAccess) (q : Option (Fin 4)) (s : State), s.weaveActive = true →
    q = (if s.partitioned n.val then a.quarter else none) → (s.partitioned n.val = true → q.isSome = true) →
    a.port ≠ .r → a.port ≠ .xi → a.port ≠ .xo → a.region = none → a.data = [] → a.upsets = [] →
    s.ownsSlot n.val a.port q a.cycle = true → spJudge s n.val .row a.offset.toNat q none false = 0 →
    Completes (.spRow n a) s (fun t =>
      t.out = s.out ++ [.spData n.val (s.rdMarked (spAddr n.val a.offset.toNat) (if q.isSome then 128 else 512))] ∧
      t.cores = (useSlot n.val a.port q a.cycle s).cores ∧ Only [.out, .cores] s t)) ∧
  (∀ (n : Fin 16) (a : SpAccess) (r : RegionRef) (s : State), Canon s → s.weaveActive = true →
    s.partitioned n.val = false → a.port ≠ .r → a.port ≠ .xi → a.port ≠ .xo → a.region = some r →
    a.data.length = 512 → s.rgnLen n.val r.region.val ≠ 0 → s.ownsSlot n.val a.port none a.cycle = true →
    spJudge s n.val .row a.offset.toNat none (some r) true = 0 →
    Completes (.spRow n a) s (fun t =>
      t.rdMem (spAddr n.val (512 * rgnRow s n.val r true 0)) 512 = a.data ∧
      BytesOnly (spAddr n.val (512 * rgnRow s n.val r true 0)) 512 s t ∧
      t.fld (Reg.coreSpRgnTail n.val r.region.val) 0 12 = (if r.advance = 0
        then s.fld (Reg.coreSpRgnTail n.val r.region.val) 0 12
        else (s.fld (Reg.coreSpRgnTail n.val r.region.val) 0 12 + r.advance) % (2 * s.rgnLen n.val r.region.val)) ∧
      Only [.regs, .cores, .mem, .poison] s t ∧ RegsOnly [Reg.coreSpRgnTail n.val r.region.val] s t)) ∧
  (∀ (n : Fin 16) (a : SpAccess) (m : BitVec 32) (q : Option (Fin 4)) (s : State), Canon s → s.weaveActive = true →
    q = (if s.partitioned n.val then a.quarter else none) → (s.partitioned n.val = true → q.isSome = true) →
    a.port ≠ .r → a.port ≠ .xi → a.port ≠ .xo → a.region = none → a.data.length = 512 →
    s.ownsSlot n.val a.port q a.cycle = true → spJudge s n.val (.rowMasked m) a.offset.toNat q none true = 0 →
    Completes (.spRowMasked n a m) s (fun t =>
      (∀ k < 32, t.rdMem (spAddr n.val a.offset.toNat + 16 * k) 16 =
        if m.getLsbD k then (a.data.drop (16 * k)).take 16
        else s.rdMem (spAddr n.val a.offset.toNat + 16 * k) 16) ∧
      BytesOnly (spAddr n.val a.offset.toNat) 512 s t ∧
      t.cores = (useSlot n.val a.port q a.cycle s).cores ∧ Only [.cores, .mem, .poison] s t)) ∧
  (∀ (n : Fin 16) (a : SpAccess) (tr : Bool) (e : Nat) (q : Option (Fin 4)) (s : State), s.weaveActive = true →
    q = (if s.partitioned n.val then a.quarter else none) → (s.partitioned n.val = true → q.isSome = true) →
    (s.core n.val).gDirty = 0 → a.port ≠ .r → a.port ≠ .xi → a.port ≠ .xo → a.region = none → a.data = [] →
    a.upsets = [] → s.ownsSlot n.val a.port q a.cycle = true →
    spJudge s n.val (.column tr e) a.offset.toNat q none false = 0 →
    Completes (.spColumn n a tr e) s (fun t =>
      t.out = s.out ++ [.spData n.val ((if tr then toTransposed (colRows q.isSome) e else id)
        ((List.range (colRows q.isSome)).map (fun i =>
          s.rdMarked (spAddr n.val (a.offset.toNat + 512 * i)) 16)).flatten)] ∧
      t.cores = (useSlot n.val a.port q a.cycle s).cores ∧ Only [.out, .cores] s t)) ∧
  (∀ (n : Fin 16) (a : SpAccess) (tr : Bool) (e : Nat) (q : Option (Fin 4)) (s : State), Canon s →
    s.weaveActive = true → q = (if s.partitioned n.val then a.quarter else none) →
    (s.partitioned n.val = true → q.isSome = true) → (s.core n.val).gDirty = 0 →
    a.port ≠ .r → a.port ≠ .xi → a.port ≠ .xo → a.region = none → a.data.length = 16 * colRows q.isSome →
    s.ownsSlot n.val a.port q a.cycle = true → spJudge s n.val (.column tr e) a.offset.toNat q none true = 0 →
    Completes (.spColumn n a tr e) s (fun t =>
      (∀ i < colRows q.isSome, t.rdMem (spAddr n.val (a.offset.toNat + 512 * i)) 16 =
        ((if tr then fromTransposed (colRows q.isSome) e a.data else a.data).drop (16 * i)).take 16) ∧
      (∀ x, (∀ i < colRows q.isSome, x < spAddr n.val (a.offset.toNat + 512 * i) ∨
          spAddr n.val (a.offset.toNat + 512 * i) + 16 ≤ x) → t.rdMem x 1 = s.rdMem x 1) ∧
      t.cores = (useSlot n.val a.port q a.cycle s).cores ∧ Only [.cores, .mem, .poison] s t)) ∧
  (∀ (n : Fin 16) (a : SpAccess) (len : Nat) (s : State), s.weaveActive = true → (s.core n.val).gWait = none →
    a.port = .g → a.offset.toNat % 64 + len ≤ 64 → len ≠ 0 → a.offset.toNat < 0xC0000 →
    s.segOn n.val (a.offset.toNat / 512) = true → (s.core n.val).gTag = some (a.offset.toNat / 64) → a.data = [] →
    exec (.spNarrow n a len) s = .next { s with out := s.out ++ [.spData n.val
      (((s.core n.val).gBuf.drop (a.offset.toNat % 64)).take len)] }) ∧
  (∀ (n : Fin 16) (a : SpAccess) (s : State), Canon s → s.weaveActive = true → (s.core n.val).gWait = none →
    a.port = .g → a.offset.toNat % 64 + a.data.length ≤ 64 → a.data ≠ [] → a.offset.toNat < 0xC0000 →
    s.segOn n.val (a.offset.toNat / 512) = true → (s.core n.val).gTag = some (a.offset.toNat / 64) →
    (s.core n.val).gBuf.length = 64 →
    Completes (.spNarrow n a a.data.length) s (fun t =>
      (∀ k < 64, nthD (0, false) (t.core n.val).gBuf k =
        if a.offset.toNat % 64 ≤ k ∧ k < a.offset.toNat % 64 + a.data.length
        then (nthD 0 a.data (k - a.offset.toNat % 64), a.bad) else nthD (0, false) (s.core n.val).gBuf k) ∧
      (∀ k < 64, (t.core n.val).gDirty.getLsbD k = ((s.core n.val).gDirty.getLsbD k ||
        decide (a.offset.toNat % 64 ≤ k ∧ k < a.offset.toNat % 64 + a.data.length))) ∧ Only [.cores] s t)) ∧
  (∀ (n : Fin 16) (a : SpAccess) (len : Nat) (s : State), Canon s → s.weaveActive = true →
    (s.core n.val).gWait = none → a.port = .g → a.offset.toNat % 64 + len ≤ 64 → len ≠ 0 →
    a.offset.toNat < 0xC0000 → s.segOn n.val (a.offset.toNat / 512) = true →
    (s.core n.val).gTag ≠ some (a.offset.toNat / 64) →
    Completes (.spNarrow n a len) s (fun t =>
      t.core n.val = { s.core n.val with gWait := some (a, len) } ∧ Only [.cores] s t)) ∧
  (∀ (n : Fin 16) (a : SpAccess) (len cycle : Nat) (s : State), Canon s → s.weaveActive = true →
    (s.core n.val).gWait = some (a, len) → (s.core n.val).gDirty = 0 → a.offset.toNat % 64 + len ≤ 64 →
    a.data = [] → s.ownsSlot n.val .g (s.blockQuarter n.val (a.offset.toNat / 64)) cycle = true →
    Completes (.gWriteback n cycle []) s (fun t =>
      t.out = s.out ++ [.spData n.val (s.rdMarked (spAddr n.val a.offset.toNat) len)] ∧
      (t.core n.val).gTag = some (a.offset.toNat / 64) ∧ (t.core n.val).gWait = none ∧
      (t.core n.val).gBuf = s.rdMarked (spAddr n.val (64 * (a.offset.toNat / 64))) 64 ∧ Only [.out, .cores] s t)) ∧
  (∀ (n : Fin 16) (b cycle : Nat) (s : State), Canon s → s.weaveActive = true → (s.core n.val).gTag = some b →
    (s.core n.val).gDirty ≠ 0 → (s.core n.val).gBuf.length = 64 →
    ((s.core n.val).gWait = none → (s.core n.val).gLast + 16 < cycle) →
    s.ownsSlot n.val .g (s.blockQuarter n.val b) cycle = true →
    ((s.core n.val).gFresh = true ∨ (s.core n.val).gDirty = BitVec.allOnes 64) →
    Completes (.gWriteback n cycle []) s (fun t =>
      t.rdMem (spAddr n.val (64 * b)) 64 = bytesOf (s.core n.val).gBuf ∧ BytesOnly (spAddr n.val (64 * b)) 64 s t ∧
      t.core n.val = { (useSlot n.val .g (s.blockQuarter n.val b) cycle s).core n.val with
        gDirty := 0, gFresh := false } ∧ Only [.cores, .mem, .poison] s t)) ∧
  (∀ (n : Fin 16) (b cycle : Nat) (s : State), Canon s → s.weaveActive = true → (s.core n.val).gTag = some b →
    (s.core n.val).gDirty ≠ 0 → (s.core n.val).gBuf.length = 64 →
    ((s.core n.val).gWait = none → (s.core n.val).gLast + 16 < cycle) →
    s.ownsSlot n.val .g (s.blockQuarter n.val b) cycle = true →
    (s.core n.val).gFresh = false → (s.core n.val).gDirty ≠ BitVec.allOnes 64 →
    Completes (.gWriteback n cycle []) s (fun t =>
      (∀ i < 64, nthD (0, false) (t.core n.val).gBuf i =
        if (s.core n.val).gDirty.getLsbD i then nthD (0, false) (s.core n.val).gBuf i
        else nthD (0, false) (s.rdMarked (spAddr n.val (64 * b)) 64) i) ∧
      (t.core n.val).gFresh = true ∧ (t.core n.val).gDirty = (s.core n.val).gDirty ∧ Only [.cores] s t)) ∧
  (∀ (n : Fin 16) (q : RReq) (rest : List RReq) (m : Fin 16) (cycle : Nat) (s : State), Canon s →
    s.weaveRuns = true → cycle % 16 = 15 → s.ownsSlot n.val .r none cycle = true → s.filling n.val = false →
    (∀ k < 16, (s.core k).outq = [] ∧ (s.core k).outKnot = none) → Rising (s.core m.val).fetched →
    (s.core n.val).rq = q :: rest → q.issuer = .core m → q.kind = .row → q.write = false →
    (s.core n.val).gDirty = 0 → rVerdict s n.val q = 0 →
    Completes (.rSlotServe n cycle []) s (fun t =>
      smGet [] (t.core m.val).fetched (rowKey n.val (q.offset.toNat / 512)) =
        s.rdMarked (spAddr n.val q.offset.toNat) q.len ∧
      (t.core n.val).rq = rest ∧ Only [.cores] s t)) ∧
  (∀ (n : Fin 16) (q : RReq) (rest : List RReq) (cycle : Nat) (s : State), Canon s →
    s.weaveRuns = true → cycle % 16 = 15 → s.ownsSlot n.val .r none cycle = true → s.filling n.val = false →
    (∀ k < 16, (s.core k).outq = [] ∧ (s.core k).outKnot = none) →
    (s.core n.val).rq = q :: rest → q.issuer = .steward → q.kind = .row → q.write = false → rVerdict s n.val q = 0 →
    Completes (.rSlotServe n cycle []) s (fun t =>
      t.out = s.out ++ [.issuerData (s.rdMarked (spAddr n.val q.offset.toNat) 512)] ∧
      t.core n.val = { (useSlot n.val .r none cycle s).core n.val with rq := rest } ∧ Only [.out, .cores] s t)) ∧
  (∀ (n : Fin 16) (q : RReq) (rest : List RReq) (p : BitVec 6) (cycle : Nat) (s : State), Canon s →
    s.weaveRuns = true → cycle % 16 = 15 → s.ownsSlot n.val .r none cycle = true → s.filling n.val = false →
    (∀ k < 16, (s.core k).outq = [] ∧ (s.core k).outKnot = none) →
    (s.core n.val).rq = q :: rest → q.issuer = .remote p → q.kind = .row → q.write = true →
    q.data.length = q.len → rVerdict s n.val q = 0 →
    Completes (.rSlotServe n cycle []) s (fun t =>
      t.rdMem (spAddr n.val q.offset.toNat) q.len = bytesOf q.data ∧
      BytesOnly (spAddr n.val q.offset.toNat) q.len s t ∧
      t.core n.val = { (useSlot n.val .r none cycle s).core n.val with rq := rest } ∧
      Only [.cores, .mem, .poison] s t)) ∧
  (∀ (n : Fin 16) (cycle : Nat) (s : State), Canon s → s.flag (Reg.coreSpCeAddr n.val) 31 = true →
    s.slotIdle n.val cycle = true →
    Completes (.ceWriteback n cycle []) s (fun t =>
      t.reg (Reg.coreSpCeAddr n.val) = 0 ∧ Only [.regs] s t ∧ RegsOnly [Reg.coreSpCeAddr n.val] s t))

/-- Feeds, passes, drains, the spindle path, APXSET and the verdicts (R157, R176, R178, R184 to R186, R188, R213, R214,
R217) where each command has its effect. Where the spec leaves the form of an output, an operand or a moment open, this
rests on the model's own choices, log entries 20, 41, 68 and 69. -/
def Obligations.ArrayCommandsComplete : Prop :=
  (∀ (n : Fin 16) (w : BitVec 64) (cycle : Nat) (errs : List PassError) (s : State), Canon s → s.weaveActive = true →
    (s.core n.val).runs = [] → (s.core n.val).landings = [] → passVerdict s n.val w cycle = 0 → pApx w = 0 →
    (gangUnits (pGang w) (pSel w)).all (fun b => !s.stepReady n.val (pGang w) b w) = true →
    Completes (.pass n w cycle errs []) s (fun t =>
      (t.core n.val).runs.map (fun r => (r.word, r.base, r.due, r.step)) =
        (gangUnits (pGang w) (pSel w)).map (fun b => (w, b, cycle + 1, 0)) ∧ (t.core n.val).landings = [] ∧
      (∀ a ∈ gangArrays (pGang w) (pSel w), t.reg (Reg.coreArraySeq n.val a) = s.reg (Reg.coreArraySeq n.val a) + 1) ∧
      t.reg (Reg.coreApxNExact n.val) =
        s.reg (Reg.coreApxNExact n.val) + BitVec.ofNat 32 (gangArrays (pGang w) (pSel w)).length ∧
      Only [.regs, .cores] s t)) ∧
  (∀ (n : Fin 16) (a : Fin 4) (bc : Option (Fin 4)) (col : Bool) (off : BitVec 20) (cycle : Nat) (s : State), Canon s →
    s.weaveActive = true → s.ownsSlot n.val (feedPort a.val) none cycle = true →
    (s.core n.val).runs = [] → (s.core n.val).landings = [] → Rising (s.core n.val).arrays →
    (∀ b ∈ feedArrays a.val bc, (s.arr n.val b).rowq = []) → (col = true → (s.core n.val).gDirty = 0) →
    spJudge s n.val (if col then .column false 1 else .row) off.toNat none none false = 0 →
    partVerdict s n.val (feedPort a.val) (if col then .column false 1 else .row) none cycle = 0 →
    Completes (.feedRowq n a bc off col cycle []) s (fun t =>
      (∀ b ∈ feedArrays a.val bc, ∀ i < 32, smGet [] (t.arr n.val b).rowq i =
        s.rdMarked (spAddr n.val (off.toNat + (if col then 512 else 16) * i)) 16) ∧
      (∀ b, b ∉ feedArrays a.val bc → t.arr n.val b = s.arr n.val b) ∧
      (t.core n.val).used = ((useSlot n.val (feedPort a.val) none cycle s).core n.val).used ∧ Only [.cores] s t)) ∧
  (∀ (n : Fin 16) (a : Fin 4) (bc : Option (Fin 4)) (col : Bool) (off : BitVec 20) (cycle : Nat) (s : State), Canon s →
    s.weaveActive = true → s.ownsSlot n.val (feedPort a.val) none cycle = true →
    (s.core n.val).runs = [] → (s.core n.val).landings = [] → Rising (s.core n.val).arrays →
    (∀ b ∈ feedArrays a.val bc, (s.arr n.val b).colq = []) → (col = true → (s.core n.val).gDirty = 0) →
    spJudge s n.val (if col then .column false 1 else .row) off.toNat none none false = 0 →
    partVerdict s n.val (feedPort a.val) (if col then .column false 1 else .row) none cycle = 0 →
    Completes (.feedColq n a bc off col cycle []) s (fun t =>
      (∀ b ∈ feedArrays a.val bc, ∀ i < 32, smGet [] (t.arr n.val b).colq i =
        s.rdMarked (spAddr n.val (off.toNat + (if col then 512 else 16) * i)) 16) ∧
      (∀ b, b ∉ feedArrays a.val bc → t.arr n.val b = s.arr n.val b) ∧
      (t.core n.val).used = ((useSlot n.val (feedPort a.val) none cycle s).core n.val).used ∧ Only [.cores] s t)) ∧
  (∀ (n : Fin 16) (a : Fin 4) (bc : Option (Fin 4)) (k : Fin 4) (bf : Bool) (col : Bool) (off : BitVec 20) (cycle : Nat)
    (s : State), Canon s → s.weaveActive = true → s.ownsSlot n.val (feedPort a.val) none cycle = true →
    (s.core n.val).runs = [] → (s.core n.val).landings = [] → Rising (s.core n.val).arrays → (bf = false → k.val < 2) →
    (∀ b ∈ feedArrays a.val bc, (s.arr n.val b).frontEnd ≤ cycle ∧
      smWf (fun _ => ((0 : BitVec 16), false)) (s.arr n.val b).shadow = true) →
    (col = true → (s.core n.val).gDirty = 0) →
    spJudge s n.val (if col then .column false 1 else .row) off.toNat none none false = 0 →
    partVerdict s n.val (feedPort a.val) (if col then .column false 1 else .row) none cycle = 0 →
    Completes (.feedLoad n a bc k bf off col cycle []) s (fun t =>
      (∀ b ∈ feedArrays a.val bc,
        (∀ i < 32, ∀ j < (if bf then 8 else 16),
          smGet (0, false) (t.arr n.val b).shadow (32 * i + (if bf then 8 else 16) * k.val + j) =
            (if bf then BitVec.ofNat 16 (leAt (s.rdMem (spAddr n.val (off.toNat + (if col then 512 else 16) * i)) 16) (2 * j) 2)
              else (nthD 0 (s.rdMem (spAddr n.val (off.toNat + (if col then 512 else 16) * i)) 16) j).setWidth 16,
             s.poisoned (spAddr n.val (off.toNat + (if col then 512 else 16) * i)) 16)) ∧
        (t.arr n.val b).loaded = (s.arr n.val b).loaded ||| BitVec.ofNat 4 (2 ^ k.val)) ∧
      (∀ b, b ∉ feedArrays a.val bc → t.arr n.val b = s.arr n.val b) ∧ Only [.cores] s t)) ∧
  (∀ (n : Fin 16) (i : DrainInstr) (s : State), Canon s → s.weaveActive = true →
    s.ownsSlot n.val .d none i.cycle = true → (s.core n.val).runs = [] → (s.core n.val).landings = [] →
    Rising (s.core n.val).arrays → Rising (s.arr n.val i.array.val).drain →
    (∀ k < i.count, (smGet DrainEntry.reset (s.arr n.val i.array.val).drain (i.first + k)).valid = true →
      (smGet DrainEntry.reset (s.arr n.val i.array.val).drain (i.first + k)).vals.length = 32) →
    spJudge s n.val .row i.offset.toNat none none true = 0 →
    partVerdict s n.val .d (.rowMasked (drainMask s n.val i)) none i.cycle = 0 → drainVerdict s n.val i = 0 →
    Completes (.drain n i) s (fun t =>
      (∀ k < i.count,
        t.rdMem (spAddr n.val (i.offset.toNat + 512 / drainCap i.format * k)) (512 / drainCap i.format) =
          (if (smGet DrainEntry.reset (s.arr n.val i.array.val).drain (i.first + k)).valid
            then drainBytes (s.core n.val) i 32 (smGet DrainEntry.reset (s.arr n.val i.array.val).drain (i.first + k))
            else s.rdMem (spAddr n.val (i.offset.toNat + 512 / drainCap i.format * k)) (512 / drainCap i.format)) ∧
        (i.format = 0 → (smGet DrainEntry.reset (s.arr n.val i.array.val).drain (i.first + k)).valid = true →
          t.rdMem (spAddr n.val (i.offset.toNat + 128 * k)) 128 =
            ((smGet DrainEntry.reset (s.arr n.val i.array.val).drain (i.first + k)).vals.map
              (fun v => leBytes 4 v.toNat)).flatten) ∧
        (smGet DrainEntry.reset (t.arr n.val i.array.val).drain (i.first + k)).valid = false) ∧
      (∀ k, k < i.first ∨ i.first + i.count ≤ k → smGet DrainEntry.reset (t.arr n.val i.array.val).drain k =
        smGet DrainEntry.reset (s.arr n.val i.array.val).drain k) ∧
      BytesOnly (spAddr n.val i.offset.toNat) 512 s t ∧ Only [.cores, .mem, .poison] s t)) ∧
  (∀ (n : Fin 16) (p : Fin 2) (off : BitVec 20) (cycle : Nat) (s : State), Canon s → s.weaveActive = true →
    s.ownsSlot n.val .d none cycle = true → partVerdict s n.val .d .row none cycle = 0 →
    smWf (fun _ => (0 : Word)) (s.core n.val).qsets = true → spJudge s n.val .row off.toNat none none false = 0 →
    (List.range 128).all (fun k => leAt (s.rdMem (spAddr n.val off.toNat) 512) (4 * k + 2) 2 / 32 % 8 == 0) = true →
    Completes (.qload n p off cycle []) s (fun t =>
      (∀ k < 128, smGet 0 (t.core n.val).qsets (128 * p.val + k) =
        BitVec.ofNat 32 (leAt (s.rdMem (spAddr n.val off.toNat) 512) (4 * k) 4)) ∧
      (t.core n.val).used = ((useSlot n.val .d none cycle s).core n.val).used ∧ Only [.cores] s t)) ∧
  (∀ (n : Fin 16) (off : BitVec 20) (cycle : Nat) (s : State), Canon s → s.weaveActive = true →
    s.ownsSlot n.val .s none cycle = true → partVerdict s n.val .s .row none cycle = 0 →
    spJudge s n.val .row off.toNat none none false = 0 →
    Completes (.xload n off 0 cycle []) s (fun t =>
      t.core n.val = { (useSlot n.val .s none cycle s).core n.val with
        xvec := s.rdMem (spAddr n.val off.toNat) 512, xbad := s.poisoned (spAddr n.val off.toNat) 512 } ∧
      Only [.cores] s t)) ∧
  (∀ (n : Fin 16) (i : SdotInstr) (s : State), Canon s → s.weaveActive = true → i.format = 0 → i.idx < 512 →
    i.upsets = [] → s.ownsSlot n.val .s none i.cycle = true → partVerdict s n.val .s .row none i.cycle = 0 →
    spJudge s n.val .row i.offset.toNat none none false = 0 →
    smWf (fun _ => ((0 : Word), false)) (s.core n.val).sacc = true →
    Completes (.sdot n i) s (fun t =>
      (smGet (0, false) (t.core n.val).sacc i.idx).1 = BitVec.ofInt 32
        ((if i.init then 0 else (smGet (0, false) (s.core n.val).sacc i.idx).1.toInt) +
          (List.zipWith (fun a b => byteVal i.sgnW a * byteVal i.sgnX b)
            (s.rdMem (spAddr n.val i.offset.toNat) 512) (s.core n.val).xvec).foldl (· + ·) 0) ∧
      (∀ k, k ≠ i.idx → smGet (0, false) (t.core n.val).sacc k = smGet (0, false) (s.core n.val).sacc k) ∧
      Only [.cores] s t)) ∧
  (∀ (n : Fin 16) (p : Fin 4) (off : BitVec 20) (cycle : Nat) (s : State), Canon s → s.weaveActive = true →
    s.ownsSlot n.val .s none cycle = true → partVerdict s n.val .s .row none cycle = 0 →
    spJudge s n.val .row off.toNat none none true = 0 →
    Completes (.sout n p.val off 0 cycle) s (fun t =>
      t.rdMem (spAddr n.val off.toNat) 512 = ((List.range 128).map (fun k =>
        leBytes 4 (smGet (0, false) (s.core n.val).sacc (128 * p.val + k)).1.toNat)).flatten ∧
      BytesOnly (spAddr n.val off.toNat) 512 s t ∧ t.cores = (useSlot n.val .s none cycle s).cores ∧
      Only [.cores, .mem, .poison] s t)) ∧
  (∀ (n : Fin 16) (k : BitVec 4) (s : State), Canon s → s.weaveActive = true → kOk k.toNat = true →
    Completes (.apxset n k) s (fun t =>
      t.fld (Reg.coreApxCfg n.val) 8 4 = k.toNat ∧ Only [.regs] s t ∧ RegsOnly [Reg.coreApxCfg n.val] s t)) ∧
  (∀ (n : Fin 16) (a : Fin 4) (p : PassRec) (rest : List PassRec) (s : State), Canon s → s.weaveRuns = true →
    Rising (s.core n.val).arrays → (s.arr n.val a.val).chkq = p :: rest → (checksumOf s n.val a.val p).1 = false →
    Completes (.checksumVerdict n a) s (fun t =>
      (∃ d l, t.arr n.val a.val = { s.arr n.val a.val with chkq := rest, drain := d, drained := l } ∧
        (∀ k, { smGet DrainEntry.reset d k with seqs := [] } =
          { smGet DrainEntry.reset (s.arr n.val a.val).drain k with seqs := [] }) ∧
        (∀ k, p.seq ∉ (smGet DrainEntry.reset d k).seqs)) ∧
      (∀ b, b ≠ a.val → t.arr n.val b = s.arr n.val b) ∧ Only [.cores] s t)) ∧
  (∀ (n : Fin 16) (a : Fin 4) (p : PassRec) (rest : List PassRec) (s : State), Canon s →
    Rising (s.core n.val).arrays → (s.arr n.val a.val).tallyq = p :: rest →
    (s.core n.val).escBeat + tallyEscapes p ≤ s.fld (Reg.coreApxEbound n.val) 0 8 →
    (p.mode = 2 → 256 * (tallyErrors p).sum ≤
      s.fld (Reg.coreApxEbound n.val) 8 8 * 2 ^ p.k.toNat * (tallyErrors p).length) →
    Completes (.tallyVerdict n a) s (fun t =>
      (t.arr n.val a.val).tallyq = rest ∧ (t.core n.val).escBeat = (s.core n.val).escBeat + tallyEscapes p ∧
      t.reg (Reg.coreApxTallyCnt n.val) = s.reg (Reg.coreApxTallyCnt n.val) + 1 ∧
      (t.reg (Reg.coreApxTallyEsc n.val)).toNat =
        min (2 ^ 32 - 1) ((s.reg (Reg.coreApxTallyEsc n.val)).toNat + tallyEscapes p) ∧
      (p.mode = 2 → (tallyErrors p).length ≠ 0 →
        (t.fld (Reg.coreApxTallyMean n.val) 0 16 = 16 * (tallyErrors p).sum / (tallyErrors p).length % 2 ^ 16 ∨
          (16 * (tallyErrors p).sum % (tallyErrors p).length ≠ 0 ∧
            t.fld (Reg.coreApxTallyMean n.val) 0 16 =
              (16 * (tallyErrors p).sum / (tallyErrors p).length + 1) % 2 ^ 16))) ∧
      Only [.regs, .cores] s t ∧
      RegsOnly ([Reg.coreApxTallyCnt n.val, Reg.coreApxTallyEsc n.val, Reg.coreApxTallyLast n.val] ++
        (if p.mode = 2 then [Reg.coreApxTallyMean n.val] else [])) s t))

/-- Convolution, up-sampling and Plait streams (R196 to R198, R200, R201, R218, R219) where each command has its effect:
a round of the direct path runs a chain of passes and drains its pixels, and every round writes nothing but its output
tensor; the frequency-domain path writes its lanes; a decode and an encode move the raw bytes. Where the spec leaves the
form of an output, an operand or a moment open, this rests on the model's own choices, log entries 42, 43 and 68. -/
def Obligations.StreamCommandsComplete : Prop :=
  (∀ (n : Fin 16) (d : Desc) (cycle : Nat) (s : State), Canon s → s.weaveActive = true → cKind d = 1 →
    convEmpty d = false → freqSelected d = false → cBf16 d = false → convK d = 16 → convBlocks d = 1 →
    cOutH d = 1 → cOutW d = 1 → convMisplaced (s.fld (Reg.coreSpStatus n.val) 0 12) d = false →
    (s.core n.val).conv = none → (s.core n.val).runs = [] → (s.core n.val).landings = [] →
    Rising (s.core n.val).arrays →
    (∀ a < 4, (s.arr n.val a).drain = [] ∧ (s.arr n.val a).rowq = [] ∧ (s.arr n.val a).colq = []) →
    passVerdict s n.val (convWord d 0 1 (convCols d 0) 0) cycle = 0 →
    Completes (.convExecute n d cycle 1 []) s (fun t =>
      (t.core n.val).conv = none ∧
      t.rdMem (spAddr n.val (cOfs d 2)) 32 = (List.range 32).map (fun j => if convCols d 0 ≤ j then 0
        else requant (smGet 0 (s.core n.val).qsets (32 * cQset d + j)) (BitVec.ofInt 32
          (((convTerms s n.val d [] 0 j 0 0).map (fun x => x.1)).foldl (· + ·) 0))) ∧
      BytesOnly (spAddr n.val (cOfs d 2)) 32 s t ∧
      (∀ a < 4, t.reg (Reg.coreArraySeq n.val a) = s.reg (Reg.coreArraySeq n.val a) + 1) ∧
      Only [.regs, .cores, .mem, .poison] s t)) ∧
  (∀ (n : Fin 16) (d : Desc) (cycle rounds : Nat) (ups : List SpUpset) (s : State), Canon s → s.weaveActive = true →
    cKind d = 1 → freqSelected d = false → convMisplaced (s.fld (Reg.coreSpStatus n.val) 0 12) d = false →
    (∀ t, (s.core n.val).conv = some (d, t) → t < convRounds d) →
    Completes (.convExecute n d cycle rounds ups) s (fun t =>
      BytesOnly (spAddr n.val (cOfs d 2)) (outSize d) s t ∧
      (convEmpty d = true → t = s) ∧
      Only [.regs, .out, .basket, .host, .roi, .cores, .knots, .mem, .poison, .serve, .fault, .weave] s t)) ∧
  (∀ (n : Fin 16) (d : Desc) (cycle : Nat) (s : State), Canon s → s.weaveActive = true → cKind d = 1 →
    convEmpty d = false → freqSelected d = true → convBlocks d = 1 → cOutH d = 1 → cOutW d = 1 →
    Completes (.convExecute n d cycle 0 []) s (fun t =>
      t.rdMem (spAddr n.val (cOfs d 2)) 32 = (List.range 32).map (fun j => (freqLane s n.val d [] 0 0 0 j).1) ∧
      BytesOnly (spAddr n.val (cOfs d 2)) 32 s t ∧ Only [.mem, .poison] s t)) ∧
  (∀ (n : Fin 16) (d : Desc) (s : State), Canon s → s.weaveActive = true → cKind d = 2 → cCin d ≤ cBlock d →
    cOutH d = 1 → cOutW d = 1 → cBf16 d = false →
    Completes (.resampleExecute n d []) s (fun t =>
      t.rdMem (spAddr n.val (cOfs d 2)) (cBlock d) =
        ((List.range (cBlock d)).map (fun j => (resampleElem s n.val d [] j 0 0).1)).flatten ∧
      BytesOnly (spAddr n.val (cOfs d 2)) (cBlock d) s t ∧ Only [.mem, .poison] s t)) ∧
  (∀ (n : Fin 16) (x : PlaitXfer) (r : PlaitRead) (s : State), Canon s → s.weaveActive = true →
    (s.core n.val).gDirty = 0 → x.sealing = false → s.flag Reg.plaitCtl 0 = true → x.isStatic = false →
    x.knot = none → s.portRows n.val .xi = some 0 → s.protTouched 0 (2 ^ 48) = false →
    s.place (s.localAddr x.stream.toNat) = .store → plaitRange s n.val x = 0 →
    headerOk (bytesOf (s.plaitSrc n.val x 0 64)) = true → x.rawLen = 512 →
    plaitRead (s.plaitSrc n.val x) (leAt (bytesOf (s.plaitSrc n.val x 0 64)) 3 1)
      (leAt (bytesOf (s.plaitSrc n.val x 0 64)) 4 4) 1 0 (subsOf (bytesOf (s.plaitSrc n.val x 0 64))) 512 = r →
    r.code = 0 → r.raw.length = 512 → x.offset.toNat % 512 = 0 →
    spJudge s n.val .row x.offset.toNat none none true = 0 →
    Completes (.plaitDecode n x) s (fun t =>
      t.rdMem (spAddr n.val x.offset.toNat) 512 = bytesOf r.raw ∧ BytesOnly (spAddr n.val x.offset.toNat) 512 s t ∧
      (t.reg Reg.plaitBlkDec).toNat = min (2 ^ 32 - 1) ((s.reg Reg.plaitBlkDec).toNat + r.used) ∧
      Only [.regs, .mem, .poison] s t ∧ RegsOnly [Reg.plaitBlkDec] s t)) ∧
  (∀ (n : Fin 16) (x : PlaitXfer) (s : State), Canon s → s.weaveActive = true → (s.core n.val).gDirty = 0 →
    (s.core n.val).outq = [] → (s.core n.val).outKnot = none → s.portRows n.val .xo = some 0 →
    x.sealing = false → s.flag Reg.plaitCtl 0 = true → x.codec.toNat ≤ 3 → x.subs = 1 → x.isStatic = false →
    x.knot = none → x.upsets = [] → x.rawLen = 512 → s.protTouched 0 (2 ^ 48) = false → x.offset.toNat % 512 = 0 →
    0x4A000000 ≤ s.localAddr x.stream.toNat → s.localAddr x.stream.toNat + 0x2000 ≤ 0xC0000000 →
    spJudge s n.val .row x.offset.toNat none none false = 0 →
    Completes (.plaitEncode n x) s (fun t =>
      t.rdMem (s.localAddr x.stream.toNat)
          (plaitStream x.codec.toNat (s.rdMem (spAddr n.val x.offset.toNat) 512)).length =
        plaitStream x.codec.toNat (s.rdMem (spAddr n.val x.offset.toNat) 512) ∧
      BytesOnly (s.localAddr x.stream.toNat)
        (plaitStream x.codec.toNat (s.rdMem (spAddr n.val x.offset.toNat) 512)).length s t ∧
      Only [.regs, .mem, .poison] s t ∧ RegsOnly [Reg.plaitBlkEnc, Reg.plaitStored] s t))

/-- Grammar tables, adapters, tenants, parcel records and crop requests (R86, R126, R128, R229, R232, R239, R241,
R245, R258, R263) where each command has its effect. Where the spec leaves the form of an output, an operand or a
moment open, this rests on the model's own choices, log entries 2, 45, 47 and 49. -/
def Obligations.RequestCommandsComplete : Prop :=
  (∀ (f : Flight) (table src : List Byte) (s : State), Canon s → Supplied f 0x21 table src s →
    grammarVerdict (pruneGrammars s) (BitVec.ofNat 8 (descNum f.desc 36 1)) (descNum f.desc 32 4) src = 0 →
    Completes (.grammarLoad f.id table) s (fun t => DescDone f 0 0 s t ∧
      (∃ g ∈ t.serve.grammars, g.id = BitVec.ofNat 8 (descNum f.desc 36 1) ∧ g.role = 0 ∧ g.len = src.length ∧
        t.rdMem (s.grmBase + 4096 * g.first) src.length = src ∧
        BytesOnly (s.grmBase + 4096 * g.first) src.length s t) ∧
      Only [.out, .freeCtr, .host, .mem, .poison, .serve] s t)) ∧
  (∀ (f : Flight) (blob src plain : List Byte) (d : WeaveDecl) (s : State), Canon s → Supplied f 0x22 blob src s →
    s.weave.run = some d →
    adapterVerdict (pruneAdapters s) d (bits f.desc 288 12) (descNum f.desc 32 4) src = 0 →
    gcmOpen (tenantKey s (bits f.desc 288 12) d.modelId.toNat)
      ((List.range 12).map (fun k => BitVec.ofNat 8 (descNum f.desc (40 + k) 1))) (src.take 64)
      ((src.drop 64).take (descNum f.desc 32 4 - 80)) (src.drop (descNum f.desc 32 4 - 16)) = some plain →
    Completes (.adapterLoad f.id blob) s (fun t => DescDone f 0 0 s t ∧
      (∃ a ∈ t.serve.adapters, a.tenant = BitVec.ofNat 12 (bits f.desc 288 12) ∧
        (t.tenant (bits f.desc 288 12)).pendGen = some (a.gen, BitVec.ofNat 3 (leAt src 3 1)) ∧
        t.rdMem (s.adpBase + 4096 * a.first) plain.length = plain ∧
        BytesOnly (s.adpBase + 4096 * a.first) plain.length s t) ∧
      Only [.out, .freeCtr, .host, .mem, .poison, .serve] s t)) ∧
  (∀ (f : Flight) (s : State), Started f 0x23 s → BitVec.ofNat 8 (descNum f.desc 38 1) ≠ 0 →
    Completes (.tenantCfg f.id) s (fun t =>
      t.flight f.id = some { f with st := .pendingCmd } ∧
      t.serve = { s.serve with cfgs := s.serve.cfgs ++ [⟨f.id, BitVec.ofNat 12 (bits f.desc 288 12),
        BitVec.ofNat 8 (descNum f.desc 38 1), BitVec.ofNat 32 (descNum f.desc 40 4)⟩] } ∧ Only [.host, .serve] s t)) ∧
  (∀ (f : Flight) (crops : List (Nat × List Byte)) (bytes : List Byte) (s : State), Canon s →
    Started f 0x30 s → s.anchor = true → s.host.bme = true →
    (regionVerdict s (BitVec.ofNat 32 (descNum f.desc 36 4)) (descNum f.desc 40 2) (descNum f.desc 32 4) crops).toOption =
      some (bytes, false) →
    Completes (.regionReq f.id crops) s (fun t => DescDone f 0 (BitVec.ofNat 32 bytes.length) s t ∧
      Out.hostWrite (BitVec.ofNat 64 (dAddr f.desc)) bytes ∈ t.out ∧ Only [.out, .host] s t)) ∧
  (∀ (id : Word) (q : Parcel) (s : State), Canon s → s.parcel id = some q → q.committed = false → q.lost = false →
    s.host.records.any (fun r => r.parcel == id || r.held) = false → s.host.records.length < s.recFree →
    Completes (.recordAssembly id) s (fun t =>
      (∃ r ∈ t.host.records, t.host.records = s.host.records ++ [r] ∧ r.parcel = id ∧ r.held = false ∧ r.body.length = 0xFF8 ∧
        leAt r.body 0 2 = 1 ∧ leAt r.body 2 1 = s.pkg.toNat ∧ leAt r.body 3 1 = min 8 (s.labelsOf id).length ∧
        leAt r.body 4 4 = id.toNat ∧ leAt r.body 8 8 = q.barrierNs.toNat ∧ leAt r.body 16 8 = q.barrierPos.toNat) ∧
      Only [.regs, .host, .roi, .wfe] s t ∧ RegsOnly [Reg.roiLabelDrop] s t)) ∧
  (∀ (r : Rec) (rest : List Rec) (body : List Byte) (s : State), Canon s → s.host.records = r :: rest →
    s.recFree ≠ 0 → r.poisoned = false →
    body = (if r.held then r.body.set 0x18 (BitVec.ofNat 8 (leAt r.body 0x18 1 + 32)) else r.body) →
    Completes .recordWrite s (fun t =>
      t.host.records = rest ∧ t.host.recPos = recNext s.recSlots s.host.recPos ∧
      Out.hostWrite (BitVec.ofNat 64 (s.pair Reg.hostRecBaseLo Reg.hostRecBaseHi + 4096 * bits s.host.recPos 0 12))
        body ∈ t.out ∧
      Out.hostWrite (BitVec.ofNat 64 (s.pair Reg.hostRecBaseLo Reg.hostRecBaseHi + 4096 * bits s.host.recPos 0 12 + 0xFF8))
        (leBytes 8 ((crc32c body).toNat + s.host.recLap.toNat * 2 ^ 32 + 0xA5C3 * 2 ^ 48)) ∈ t.out ∧
      t.parcel r.parcel = (s.parcel r.parcel).map (fun q => { q with committed := true }) ∧
      Only [.out, .host, .roi, .serve] s t)) ∧
  (∀ (k : BitVec 12) (s : State), Canon s → releaseDue s (s.req k.toNat) = true →
    Completes (.lingerExpiry k) s (fun t =>
      t.req k.toNat = Req.reset ∧ (∀ j, j ≠ k.toNat → t.req j = s.req j) ∧ Only [.serve] s t)) ∧
  (∀ s : State, Served s → s.serve.hostSlots = [] →
    exec .newKey s = .next (let v := s.serve
      { s with freeCtr := s.freeCtr + 1,
               serve := { v with parkEpoch := v.parkEpoch + 1, parkKey := s.freeCtr + 1, parkCtr := 0, exhausted := false } })) ∧
  (∀ s : State, Canon s → Served s →
    Completes .reqRead s (fun t =>
      (∀ i < 16, (t.reg (Reg.serveReqData i)).toNat = leAt (reqBytes (s.req (s.fld Reg.serveReqSel 0 12))) (4 * i) 4) ∧
      Only [.regs] s t ∧ RegsOnly ((List.range 16).map Reg.serveReqData) s t)) ∧
  (∀ s : State, Served s →
    exec .serveStepNumLoRead s = .next (let v := s.serve
      { s with serve := { v with stepHi := BitVec.ofNat 32 (bits v.stepNum 32 32) },
               out := s.out ++ [.readData Reg.serveStepNumLo (BitVec.ofNat 32 v.stepNum.toNat)] }))

/-- Step boundaries, place reports and the orders of a boundary (R233, R246 to R248, R252, R255 to R257, R260, R265)
where each command has its effect. Where the spec leaves the form of an output, an operand or a moment open, this rests
on the model's own choices, log entries 2, 44, 45, 47, 48 and 70. -/
def Obligations.OrderCommandsComplete : Prop :=
  (∀ (crops : List HandedCrop) (views : List PoolView) (s : State), s.weaveActive = true →
    Completes (.stepBoundary crops views) s (fun t =>
      t.serve.stepNum = s.serve.stepNum + 1 ∧ t.serve.reports = [] ∧ t.serve.cmds = [] ∧ t.roi.handed = [] ∧
      Only (touched (.stepBoundary crops views)) s t)) ∧
  (∀ (w : LinkWord) (ok : Bool) (l : BitVec 48) (s : State), s.weaveActive = true → wordOk w = true →
    exec (.placeReport w ok l) s =
      .next { s with serve := { s.serve with reports := s.serve.reports ++ [(w, ok, l)] } }) ∧
  (∀ (w : LinkWord) (o : BitVec 6) (e : Desc) (pages : List (List Byte)) (ads : List AdapterPass) (pl : PlaceDecl)
    (s : State), Canon s →
    s.weaveActive = true → wordOk w = true → wKind w = 1 → s.placeOf w o = some pl → pl.kind ≠ 2 →
    s.ctx o (wReq w) = none → bits w 32 12 = 0 → lwByte w 6 + 1 ≤ bits e 48 12 → 0 < s.kvT →
    listPagesOf (s.kvData (bits e 48 12)) = 1 → s.kvNeed (bits e 48 12) ≤ s.kvFree.length →
    Completes (.orderChunk w o e pages ads) s (fun t =>
      ((t.ctx o (wReq w)).map (fun c => (c.held, c.adGen))) = some (lwByte w 6 + 1, BitVec.ofNat 8 (lwByte w 7)) ∧
      Reported o (reportWord s (wReq w) pl.kind.val
        (1 + (if bits e 48 12 ≤ lwByte w 6 + 1 then 2 else 0)) (lwByte w 6 + 1) 0 0) s t ∧
      t.cores = (adapt (BitVec.ofNat 12 (bits e 16 12)) (BitVec.ofNat 8 (lwByte w 7)) ads
        (indexCrop o (wReq w) e s)).cores ∧
      (∀ i < (lwByte w 6 / s.kvT + 1) * s.kvL,
        t.rdMem (s.kvAddr (nthD 0 ((t.ctx o (wReq w)).map (fun c => c.pages) |>.getD []) i)) 4096 =
          fillUp 4096 ((nthD [] pages i).take 4096)) ∧
      Only [.out, .freeCtr, .basket, .cores, .mem, .poison, .serve] s t)) ∧
  (∀ (w : LinkWord) (o : BitVec 6) (e : Desc) (toks : List (BitVec 12)) (logits : List (BitVec 32))
    (pages : List (List Byte)) (ads : List AdapterPass) (pl : PlaceDecl) (c : Ctx) (g : GrammarTab) (d : WeaveDecl)
    (s s' : State), s.weaveActive = true → s.weave.run = some d → wordOk w = true → wKind w = 2 → s.placeOf w o = some pl →
    pl.kind = 2 → readyCtx o (wReq w) e s = some (c, s') → c.stopped = false → c.started = true →
    kvSound s' c = true → s'.latched c = some g →
    Completes (.orderDecode w o e toks logits pages ads) s (fun t =>
      (let r := grammarStep (s'.grmSrc g) s.eos d.mshift.toNat s'.freeCtr c logits
       Reported c.owner (reportWord s c.req.toNat 2
         ((if r.token.isSome then 4 else 0) + (if r.reason = 0 then 0 else 8)) (r.token.getD 0) r.margin r.reason) s t) ∧
      t.cores = (adapt c.tenant (BitVec.ofNat 8 (lwByte w 7)) ads s').cores ∧
      Only [.out, .freeCtr, .basket, .cores, .mem, .poison, .serve] s t)) ∧
  (∀ (w : LinkWord) (o : BitVec 6) (e : Desc) (c : Ctx) (s : State), s.weaveActive = true → wordOk w = true →
    wKind w = 3 → wPkg w ≠ s.pkg.toNat → s.ctx o (wReq w) = some c → c.pages ≠ [] → c.sent = none →
    shipVerdict s true (c.pages.map (fun p => s.kvBase + 4096 * p)) = 0 →
    s.route ((BitVec.ofNat 6 (wPkg w)).setWidth 8 |>.setWidth 6) ≠ 5 →
    Completes (.orderShip w o e) s (fun t =>
      t.ctx o (wReq w) = some { c with sent := some (wXfer w, false) } ∧
      EndSent (BitVec.ofNat 6 (wPkg w)) (wXfer w) t ∧
      Only [.regs, .out, .basket, .serve] s t)) ∧
  (∀ (w : LinkWord) (o : BitVec 6) (c : Ctx) (s : State), s.weaveActive = true → wordOk w = true → wKind w = 4 →
    s.ctx o (wReq w) = some c → c.pages ≠ [] → c.making = none →
    listPagesOf c.pages.length = 1 → c.pages.length + 1 ≤ s.parkFree.length →
    Completes (.orderParkStore w o) s (fun t =>
      ((t.ctx o (wReq w)).bind (fun c => c.making)).map (fun p =>
        (p.pages.length, p.listPages, p.genLen, p.pages.all (fun q => s.parkFree.contains q))) =
        some (c.pages.length, 1, c.genLen, true) ∧
      (t.ctx o (wReq w)).map (fun d => { d with making := none }) = some c ∧ Only [.freeCtr, .serve] s t)) ∧
  (∀ (w : LinkWord) (o : BitVec 6) (c : Ctx) (p : ParkCopy) (s : State), s.weaveActive = true → wordOk w = true →
    wKind w = 5 → s.ctx o (wReq w) = some c → c.copy = some p → c.sent = none →
    s.route ((BitVec.ofNat 6 (wPkg w)).setWidth 8 |>.setWidth 6) ≠ 5 →
    Completes (.orderParkHost w o) s (fun t =>
      t.ctx o (wReq w) = some { c with sealTo := some 0, sent := some (wXfer w, true) } ∧
      EndSent (BitVec.ofNat 6 (wPkg w)) (wXfer w) t ∧
      Only [.regs, .out, .basket, .serve] s t)) ∧
  (∀ (w : LinkWord) (o : BitVec 6) (e : Desc) (slot : List Byte) (c : Ctx) (p : ParkCopy) (s : State),
    s.weaveActive = true → wordOk w = true → wKind w = 6 → wPkg w ≠ s.pkg.toNat → o ≠ s.pkg →
    s.ctx o (wReq w) = some c → c.copy = some p → c.sent = none →
    shipVerdict s true (p.pages.map (fun q => s.parkBase + 4096 * q)) = 0 →
    s.route ((BitVec.ofNat 6 (wPkg w)).setWidth 8 |>.setWidth 6) ≠ 5 →
    Completes (.orderUnpark w o e slot) s (fun t =>
      t.ctx o (wReq w) = some { c with sealTo := none, sent := some (wXfer w, true) } ∧
      EndSent (BitVec.ofNat 6 (wPkg w)) (wXfer w) t ∧
      Only [.regs, .out, .basket, .serve] s t)) ∧
  (∀ (w : LinkWord) (o : BitVec 6) (s : State), s.weaveActive = true → wordOk w = true → wKind w = 7 →
    Completes (.orderDrop w o) s (fun t =>
      t.ctx o (wReq w) = none ∧ (∀ k, k ≠ wReq w → t.ctx o k = s.ctx o k) ∧ Only [.serve] s t))

/-- Cache transfers, copies and moves of a cache (R251 to R254, R256, R257) where each command has its effect. Where the
spec leaves the form of an output, an operand or a moment open, this rests on the model's own choices, log entries 2, 44
and 70. -/
def Obligations.TransferCommandsComplete : Prop :=
  (∀ (m : Loose) (c : Ctx) (s : State), s.weaveActive = true → kvKind m = 1 → s.ctx (kvOwner m) (kvReq m) = some c →
    c.expect = some (kvXfer m) → m.addr.toNat = c.listIn.length →
    (if (kvData m).isEmpty then 0 else (crc32c (kvData m)).toNat) = leAt m.payload 12 4 →
    (64 ≤ (c.listIn ++ kvData m).length → 64 + 8 * leAt (c.listIn ++ kvData m) 10 2 ≤ (c.listIn ++ kvData m).length →
      listOk s { c with listIn := c.listIn ++ kvData m, listBad := c.listBad ++ kvBad m, coded := kvCoded m } = true) →
    Completes (.kvShipList m) s (fun t =>
      t.ctx (kvOwner m) (kvReq m) =
        some { c with listIn := c.listIn ++ kvData m, listBad := c.listBad ++ kvBad m, coded := kvCoded m } ∧
      Only [.serve] s t)) ∧
  (∀ (m : Loose) (c d : Ctx) (s : State), s.weaveActive = true → kvKind m = 2 → s.ctx (kvOwner m) (kvReq m) = some c →
    c.expect = some (kvXfer m) → m.addr.toNat = c.pagesIn.length →
    (if (kvData m).isEmpty then 0 else (crc32c (kvData m)).toNat) = leAt m.payload 12 4 →
    d = { c with pagesIn := c.pagesIn ++ kvData m, pagesBad := c.pagesBad ++ kvBad m, coded := kvCoded m } →
    listOk s d = true → (inPages d).1 = 0 → pagesOk d (inPages d).2 = true →
    Completes (.kvShipPages m) s (fun t => t.ctx (kvOwner m) (kvReq m) = some d ∧ Only [.serve] s t)) ∧
  (∀ (m : Loose) (c : Ctx) (s : State), Canon s → s.weaveActive = true → kvKind m = 3 →
    s.ctx (kvOwner m) (kvReq m) = some c → c.expect = some (kvXfer m) → m.addr = 0 →
    (if (kvData m).isEmpty then 0 else (crc32c (kvData m)).toNat) = leAt m.payload 12 4 → listOk s c = true →
    pagesOk c (inPages c).2 = true → (inPages c).1 = 0 → leAt m.payload 8 4 = c.pagesIn.length →
    (inPages c).2.length = leAt c.listIn 10 2 → c.sealTo = none → c.kvPages.Nodup →
    listPagesOf (leAt c.listIn 10 2) ≤ c.listPages → s.route (m.src.setWidth 6) ≠ 5 →
    shipVerdict s (kvCoded m) ((c.pages ++ c.spare).map s.kvAddr) = 0 →
    Completes (.kvShipEnd m) s (fun t =>
      (∀ i < leAt c.listIn 10 2, t.rdMem (s.kvAddr (nthD 0 (c.pages ++ c.spare) i)) 4096 = nthD [] (inPages c).2 i) ∧
      ((t.ctx (kvOwner m) (kvReq m)).map (fun d => (d.held, d.pages, d.expect))) =
        some (leAt c.listIn 8 2, (c.pages ++ c.spare).take (leAt c.listIn 10 2), none) ∧
      (∃ u, Sent (s.mkLoose 6 (m.src.setWidth 6) 0 0
          (kvHead c.req.toNat 4 c.owner.toNat false (kvXfer m) 0 [])) s u ∧
        Reported c.owner (reportWord s c.req.toNat 0 16 0 0 0) u t) ∧
      Only [.regs, .out, .basket, .mem, .poison, .serve] s t)) ∧
  (∀ (m : Loose) (c : Ctx) (s : State), kvKind m = 4 → s.ctx (kvOwner m) (kvReq m) = some c →
    c.sent = some (kvXfer m, false) → c.copy = none →
    Completes (.kvShipAck m) s (fun t =>
      t.ctx (kvOwner m) (kvReq m) = none ∧
      Reported c.owner (reportWord s c.req.toNat 0 32 0 0 0) s t ∧ Only [.out, .basket, .serve] s t)) ∧
  (∀ (m : Loose) (c : Ctx) (s : State), kvKind m = 4 → s.ctx (kvOwner m) (kvReq m) = some c →
    c.sent = some (kvXfer m, true) → s.flag Reg.serveParkCfg 9 = true → c.sealTo = none →
    exec (.kvShipAck m) s = .next (putCtx { c with sent := none } s)) ∧
  (∀ (m : Loose) (c : Ctx) (b : Bool) (s : State), kvKind m = 5 → s.ctx (kvOwner m) (kvReq m) = some c →
    c.sent = some (kvXfer m, b) →
    exec (.kvShipNak m) s = .next { s with out := s.out ++ [.issuerCode (BitVec.ofNat 16 (leAt m.payload 8 2))] }) ∧
  (∀ (o : BitVec 6) (k : BitVec 12) (c : Ctx) (p : ParkCopy) (s : State), Canon s → s.weaveActive = true →
    s.ctx o k.toNat = some c → c.making = some p → kvSound s c = true →
    Completes (.parkCopyDone o k) s (fun t =>
      t.ctx o k.toNat = some { c.freed with making := none, copy := some p, stopped := false } ∧
      leAt (t.rdMem (s.parkBase + 4096 * p.first) 2) 0 2 = 0x504B ∧
      Reported o (reportWord s k.toNat 0 32 0 0 0) s t ∧ Only [.out, .basket, .mem, .poison, .serve] s t)) ∧
  (∀ (n k : Nat) (p : Parked) (c : Ctx) (q : ParkCopy) (s : State), s.anchor = true → s.host.bme = true →
    s.weaveActive = true → s.flag Reg.serveParkCfg 8 = true → s.parkFree.length < s.fld Reg.serveParkLow 16 16 →
    nextToMove s s.pkg = some (k, p) → hostMoveVerdict s (64 + 4104 * p.pages) = 0 → s.ctx s.pkg k = some c →
    c.copy = some q → anyBad (copyBytes s q) = false → c.kvPages = [] →
    Completes (.hostParkMove s.pkg n) s (fun t =>
      t.ctx s.pkg k = none ∧ smGet none t.serve.hostSlots s.pickSlot = some (BitVec.ofNat 12 k) ∧
      SlotWritten (s.slotAddr s.pickSlot) k s t ∧
      Only [.out, .freeCtr, .serve] s t))

/-- Weave loads and stops, beats, HALT, RESUME, faults and recovery (R38, R275 to R280, R285, R335 to R339) where each
command has its effect. Where the spec leaves the form of an output, an operand or a moment open, this rests on the
model's own choices, log entries 2, 50, 51, 65, 66 and 69. -/
def Obligations.WeaveCommandsComplete : Prop :=
  (∀ (go : Bool) (s : State), Served s → s.weaveRuns = false → loadVerdict s = 0 →
    go = (!s.timePends && s.flag Reg.bootStatus 5 && s.host.bme) →
    Completes (.bootLoad 4) s (fun t =>
      t.weave = { s.weave with load := some { decl := none, lead := true, asked := go, waits := s.timePends, flight := none, addr := BitVec.ofNat 64 (s.pair Reg.bootWeaveAddrLo Reg.bootWeaveAddrHi), len := s.fld Reg.bootWeaveLen 0 27, id := s.reg Reg.bootWeaveIdReq, pass := 0, startBeat := 0, alt := none } } ∧
      t.out = s.out ++ (if go then [.imageRead (BitVec.ofNat 64 (s.pair Reg.bootWeaveAddrLo Reg.bootWeaveAddrHi))
        (s.fld Reg.bootWeaveLen 0 27)] else []) ∧ Only [.out, .weave] s t)) ∧
  (∀ s : State, Served s → s.weaveRuns = true → s.anchor = true → s.basket.isPrincipal = true →
    s.serve.reqs.any (fun p => p.2.st != .free) = false → s.heldRecords = 0 →
    exec (.bootStop 8) s = .next { s with weave := { s.weave with stopBeat := some (s.time.beatNum + 1) } }) ∧
  (∀ (f : Flight) (go : Bool) (s : State), Started f 0x20 s → loadVerdict s = 0 →
    go = (!s.timePends && s.flag Reg.bootStatus 5 && s.host.bme) →
    Completes (.weaveLoad f.id) s (fun t =>
      t.flight f.id = some { f with st := .loading } ∧
      t.weave.load.map (fun l => (l.flight, l.addr, l.len, l.id)) = some (some f.id, BitVec.ofNat 64 (dAddr f.desc),
        descNum f.desc 32 4, BitVec.ofNat 32 (descNum f.desc 36 4)) ∧
      t.weave.load.map (fun l => (l.asked, l.waits)) = some (go, s.timePends) ∧
      t.out = s.out ++ (if go then [.imageRead (BitVec.ofNat 64 (dAddr f.desc)) (descNum f.desc 32 4)] else []) ∧
      Only [.out, .host, .weave] s t)) ∧
  (∀ (img : WeaveImage) (l : Load) (s : State), Canon s → s.weave.load = some l → l.lead = true → l.decl = none →
    l.asked = true → weaveImageVerdict s l img = 0 →
    Completes (.weaveImageReadDone img) s (fun t =>
      t.weave = { s.weave with load := some { l with decl := some img.decl, startBeat := BitVec.ofNat 64 s.beat + img.decl.loadBeats.setWidth 64 } } ∧
      (∀ p < 64, t.knot (img.decl.readyBase.toNat + p) = 0) ∧
      t.out = s.out ++ [.imageSend img.decl.weaveId (BitVec.ofNat 64 s.beat + img.decl.loadBeats.setWidth 64)] ∧
      Only [.out, .host, .knots, .weave] s t)) ∧
  (∀ (img : WeaveImage) (b : BitVec 64) (s : State), Canon s → s.weave.load = none → s.basket.joined = true →
    s.basket.isPrincipal = false → s.aligned = true → img.formatOk = true →
    Completes (.weaveMemberCheckDone img b) s (fun t =>
      (let v := memberVerdict (countCores s) img
       t.reg Reg.bootWeaveStatus = BitVec.ofNat 32 (v.2.toNat + v.1 % 32768 * 2 ^ 16) ∧
       t.weave.load.map (fun l => (l.decl, l.lead, l.pass, l.startBeat)) =
        some (some img.decl, false, BitVec.ofNat 16 v.1, b)) ∧
      (∀ n < 16, t.boot.coresIn.getLsbD n = s.flag (Reg.coreCtl n) 0) ∧ t.level ≤ s.level ∧
      Only [.regs, .basket, .host, .knots, .weave, .boot] s t ∧ RegsOnly [Reg.bootWeaveStatus, Reg.idStatus] s t)) ∧
  (∀ (img : WeaveImage) (b : BitVec 64) (s : State), s.aligned = false →
    exec (.weaveMemberCheckDone img b) s = .next s) ∧
  (∀ s : State, s.cclkRuns = true → s.time.beatNum.toNat < s.beatNow →
    Completes .beatStart s (fun t =>
      t.time = { s.time with beatNum := s.time.beatNum + 1,
                             beatStamp := BitVec.ofNat 64 (s.beatStampOf s.time.beatNum.toNat) })) ∧
  (∀ (p : Port) (w : LinkWord) (s : State), haltNum w < 0x8000 →
    haltNew s.fault.lastNum (BitVec.ofNat 15 (haltNum w)) = true →
    s.basket.lastHalt ≠ some (BitVec.ofNat 16 (haltNum w)) → s.weaveRuns = true →
    Completes (.halt p w) s (fun t =>
      t.fault.phase = .stopped ∧ t.fault.stopNs = s.nowNs ∧
      t.fault.halt = some ⟨BitVec.ofNat 15 (haltNum w), BitVec.ofNat 32 (haltBeat w), BitVec.ofNat 6 (haltOrigin w),
        BitVec.ofNat 8 (haltCls w)⟩ ∧
      t.basket.lastHalt = some (BitVec.ofNat 16 (haltNum w)) ∧
      Only (touched (.halt p w)) s t)) ∧
  (∀ (p : Port) (w : LinkWord) (h : HaltInfo) (s : State), 0x8000 ≤ haltNum w → s.basket.outsider = false →
    s.basket.lastResume ≠ some (BitVec.ofNat 16 (haltNum w), BitVec.ofNat 32 (haltBeat w)) → s.weaveRuns = true →
    s.weave.load = none → s.fault.halt = some h → h.num = BitVec.ofNat 15 (haltNum w) → s.fault.phase = .ready →
    Completes (.resume p w) s (fun t =>
      t.fault = { s.fault with resume := some (resumeAlt w, BitVec.ofNat 32 (haltBeat w)) } ∧ Flooded (some p) w s t ∧
      t.basket.lastResume = some (BitVec.ofNat 16 (haltNum w), BitVec.ofNat 32 (haltBeat w)) ∧
      Only [.basket, .fault] s t)) ∧
  (∀ (f : FaultReport) (s : State), f.cls = 2 → s.weaveRuns = true → s.fault.phase = .running →
    Completes (.localFault f) s (fun t =>
      t.fault.phase = .stopped ∧ t.fault.stopNs = s.nowNs ∧
      t.fault.log = (faultRecord s f (s.fault.lastNum + 1).toNat :: s.fault.log).take 16 ∧
      t.fault.halt = some ⟨s.fault.lastNum + 1, BitVec.ofNat 32 (s.beat % 2 ^ 32), s.pkg, 2⟩)) ∧
  (∀ (d : WeaveDecl) (x : List (Fin 16 × Fin 4 × ReplayResult)) (s : State), Canon s → s.weave.run = some d →
    s.fault.phase = .stopped → s.fault.stopNs + 10000 ≤ s.nowNs → s.fault.excluded = false → s.roi.crops = [] →
    (∀ i ∈ s.fault.implicated, ∃ y ∈ x, 4 * y.1.val + y.2.1.val = i.1) →
    Completes (.recoveryDone { imageOk := true, badCrops := [], badAway := [], badEntries := [], badTokens := [], replays := x, fault := false })
      s (fun t =>
      t.fault = { s.fault with phase := .ready, implicated := [] } ∧
      (∀ x, x < 0x1000000 → x % 0x100000 < 0xC0000 → t.rdMem x 1 = [0]) ∧
      (∀ n < 16, (t.core n).runs = [] ∧ (t.core n).landings = [] ∧ (t.core n).sacc = [] ∧ (t.core n).rq = [] ∧
        (t.core n).gTag = none))) ∧
  (∀ (d : WeaveDecl) (r : Recovery) (i : Nat × Option (BitVec 5)) (s : State), s.weave.run = some d →
    i ∈ s.fault.implicated → (∀ y ∈ r.replays, 4 * y.1.val + y.2.1.val ≠ i.1) →
    exec (.recoveryDone r) s = .next s) ∧
  (∀ s : State, Served s → exec .faultClear s = .next { s with fault := { s.fault with log := [] } })

/-- Writes and reads of registers (R5, R6, R63, R65, R351, R356) where each command has its effect. Where the spec leaves the
form of an output, an operand or a moment open, this rests on the model's own choices, log entries 2, 53 and 72. -/
def Obligations.RegisterCommandsComplete : Prop :=
  (∀ (src : Writer) (off : BitVec 20) (v new : Word) (be : BitVec 4) (r : RegRow) (s : State), Canon s → Served s →
    regRow off.toNat = some r → r.reaches off.toNat be = true → 0x30000 ≤ off.toNat → off.toNat < 0x48000 →
    new = ((((mergeBytes (s.reg off.toNat) v be &&& word r.rw) ||| (s.reg off.toNat &&& ~~~(word r.rw))) &&&
        ~~~(enabledBytes v be &&& word r.w1c)) ||| (match s.setNow off.toNat with
          | some x => x.2 &&& word r.w1c
          | none => 0)) →
    stagedPairs.contains off.toNat = false → stagedPairs.contains (off.toNat - 4) = false →
    (ownWrite off.toNat v be s).isNone = true →
    (commandWrite src off.toNat (enabledBytes v be) s).isNone = true →
    writeVerdict s src off.toNat (s.reg off.toNat) new (mergeBytes (s.reg off.toNat) v be) = 0 →
    Completes (.registerWrite src off v be) s (fun t =>
      t.reg off.toNat = new ∧ Only [.regs] s t ∧ RegsOnly [off.toNat] s t)) ∧
  (∀ (src : Writer) (off : BitVec 20) (v : Word) (be : BitVec 4) (r : RegRow) (s : State), Served s →
    stagedPairs.contains off.toNat = true → regRow off.toNat = some r → r.reaches off.toNat be = true →
    Completes (.loStageWrite src off v be) s (fun t =>
      t.stagedLo off.toNat = mergeBytes (s.stagedLo off.toNat) v be &&& word (r.rw ||| refusedBits off.toNat) ∧
      t.time = { s.time with staged := t.time.staged } ∧ Only [.time] s t)) ∧
  (∀ (off : BitVec 20) (s : State), Canon s → Served s → rcMask off.toNat ≠ 0 →
    [Reg.timeNowLo, Reg.timeBeatNumLo, Reg.timeBeatStampLo, Reg.fieldEvqInfo, Reg.fieldEncPosLo,
      Reg.serveStepNumLo].contains off.toNat = false → s.setNow off.toNat = none →
    Completes (.rcFieldRead false off) s (fun t =>
      t.reg off.toNat = s.reg off.toNat &&& ~~~(rcMask off.toNat) ∧
      t.out = s.out ++ [.readData off.toNat (s.view off.toNat)] ∧ Only [.regs, .out] s t ∧
      RegsOnly [off.toNat] s t)) ∧
  (∀ (off : BitVec 20) (b x : Word) (s : State), Canon s → Served s → rcMask off.toNat ≠ 0 →
    [Reg.timeNowLo, Reg.timeBeatNumLo, Reg.timeBeatStampLo, Reg.fieldEvqInfo, Reg.fieldEncPosLo,
      Reg.serveStepNumLo].contains off.toNat = false → s.setNow off.toNat = some (b, x) →
    Completes (.rcFieldRead false off) s (fun t =>
      t.reg off.toNat = ((s.reg off.toNat &&& ~~~(rcMask off.toNat)) ||| (x &&& rcMask off.toNat)) ∧
      t.out = s.out ++ [.readData off.toNat ((s.view off.toNat &&& ~~~(rcMask off.toNat)) ||| (b &&& rcMask off.toNat))] ∧
      Only [.regs, .out] s t ∧ RegsOnly [off.toNat] s t)) ∧
  (∀ (off : BitVec 20) (s : State), Served s →
    exec (.rcFieldRead true off) s =
      .next { s with out := s.out ++ [.readData (0x100000 + off.toNat % 0x4000) (bar2Word s (off.toNat % 0x4000))] }) ∧
  (∀ (p : BitVec 6) (off : BitVec 20) (s : State), Served s → s.basket.outsider = false → rcMask off.toNat = 0 →
    [Reg.timeNowLo, Reg.timeBeatNumLo, Reg.timeBeatStampLo, Reg.fieldEvqInfo, Reg.fieldEncPosLo,
      Reg.serveStepNumLo].contains off.toNat = false → s.setNow off.toNat = none →
    exec (.forwardedAccess p off none) s =
      .next { s with out := s.out ++ [.fwdResponse p 0 (s.view off.toNat)] }) ∧
  (∀ (p : BitVec 6) (off : BitVec 20) (v : Word) (s t : State), Served s → s.basket.outsider = false →
    exec (.registerWrite .host off v 15) s = .next t →
    exec (.forwardedAccess p off (some v)) s = .next { t with out := t.out ++ [.fwdResponse p 0 0] })

/-- A step takes the command at the front of the queue and is that command's effect on the state with the queue's rest
(the model's queue, log entry 3). -/
def Obligations.StepTakesTheFront : Prop :=
  ∀ (c : Instr) (rest : List Instr) (s : State), step { s with pending := c :: rest } = exec c { s with pending := rest }

/-- On an empty queue time passes (log entry 3, DESIGN CHOICE). While the PLLs run, belt time goes on to the next p-cycle
edge: a multiple of 2.5 ns but for the correction taken in so far, slewed by at most 1,000 ppm. While they do not, it goes
on by one a-tick of TIME_AON_INC, slewed by as much (log entry 63). With RESET_N low nothing changes. What hardware set in
the cycle before is no set of the new cycle (R5, R6). -/
def Obligations.TimePassesWhenIdle : Prop :=
  (∀ s : State, s.pending = [] → s.power.phase = .inReset → step s = .next s) ∧
  (∀ (d : Int) (s : State), s.pending = [] → s.power.phase ≠ .inReset → s.pllsRun = false →
    d = clampI (-((s.reg Reg.timeAonInc).toNat / 1000 : Nat)) ((s.reg Reg.timeAonInc).toNat / 1000 : Nat) s.time.slew →
    step s = .next { s with sets := [], time := { s.time with
      belt := BitVec.ofNat 80 ((s.time.belt.toNat : Int) + (s.reg Reg.timeAonInc).toNat + d).toNat,
      aticks := s.time.aticks + 1, slew := s.time.slew - d, corr := s.time.corr + d } }) ∧
  (∀ (d : Int) (s : State), s.pending = [] → s.power.phase ≠ .inReset → s.pllsRun = true →
    d = clampI (-163) 163 s.time.slew →
    ∃ t, step s = .next t ∧
      t.time = { s.time with
        belt := BitVec.ofNat 80 ((((s.time.belt.toNat : Int) - s.time.corr) / 163840 + 1) * 163840 + s.time.corr + d).toNat,
        pcyc := s.time.pcyc + 1, slew := s.time.slew - d, corr := s.time.corr + d } ∧
      Only [.regs, .out, .time, .basket, .host, .field, .pix, .roi, .wfe, .knots] s t)

/-- The machine right after reset: RESET_N low, no command waits, every BAR0 register at the reset value of the
register index, memory, knots, queues and the weave empty, belt time zero, and the canonical form (values that the
spec gives no reset for are those of log entry 5). -/
def Obligations.ResetState : Prop :=
  State.reset.pending = [] ∧ (∀ off, State.reset.reg off = resetVal off) ∧ Canon State.reset ∧
  State.reset.power.phase = .inReset ∧ State.reset.time.belt = 0 ∧ State.reset.weave.run = none ∧
  State.reset.serve.reqs = [] ∧ State.reset.host.flights = [] ∧
  (∀ a, State.reset.rdMem a 1 = [0]) ∧ (∀ k, State.reset.knot k = 0)

/-- Every command answers a next state in every state: no command stops the package. -/
def Obligations.EveryCommandAnswers : Prop := ∀ (c : Instr) (s : State), ∃ t, exec c s = .next t

/-- Every step keeps the canonical form of registers, memory, poison marks, knots, flash and fuses, from every state.
-/
def Obligations.CanonKept : Prop := ∀ s t : State, Canon s → step s = .next t → Canon t

/-- Fuses are one way: no step clears a bit of any copy of any fuse word. -/
def Obligations.FusesNeverCleared : Prop := ∀ s t : State, Canon s → step s = .next t → FusesKept s t

/-- The frame of every command of clocks and belt time. -/
def Obligations.TimeFrame : Prop := ∀ c s t, chapter c = .time → exec c s = .next t → Only (touched c) s t

/-- The frame of every command of power, boot, fuses and the thermal block. -/
def Obligations.BootFrame : Prop := ∀ c s t, chapter c = .boot → exec c s = .next t → Only (touched c) s t

/-- The frame of every command of the withy ports, the whisper line, the basket and the windows. -/
def Obligations.WithyFrame : Prop := ∀ c s t, chapter c = .withy → exec c s = .next t → Only (touched c) s t

/-- The frame of every command of the host interface. -/
def Obligations.HostFrame : Prop := ∀ c s t, chapter c = .host → exec c s = .next t → Only (touched c) s t

/-- The frame of every command of the cameras and the field inputs. -/
def Obligations.FieldFrame : Prop := ∀ c s t, chapter c = .field → exec c s = .next t → Only (touched c) s t

/-- The frame of every command of regions, crops and rules. -/
def Obligations.RegionFrame : Prop := ∀ c s t, chapter c = .regions → exec c s = .next t → Only (touched c) s t

/-- The frame of every command of the weighing front end. -/
def Obligations.WeighFrame : Prop := ∀ c s t, chapter c = .weigh → exec c s = .next t → Only (touched c) s t

/-- The frame of every command of the cores, their scratchpads and arrays, and the plait engine. -/
def Obligations.CoreFrame : Prop := ∀ c s t, chapter c = .cores → exec c s = .next t → Only (touched c) s t

/-- The frame of every command of requests, step orders and cache transfers. -/
def Obligations.ServeFrame : Prop := ∀ c s t, chapter c = .serve → exec c s = .next t → Only (touched c) s t

/-- The frame of every command of faults, restarts and weave loads. -/
def Obligations.FaultFrame : Prop := ∀ c s t, chapter c = .faults → exec c s = .next t → Only (touched c) s t

/-- The frame of register accesses: the queue stays, and a read by a field that clears on read changes only registers,
outputs, time shadows, the event queue and the step count's shadow. -/
def Obligations.RegisterFrame : Prop := ∀ c s t, chapter c = .registers → exec c s = .next t → Only (touched c) s t

/-- BOOT_CMD.LOAD while a weave runs is refused with E_WEAVE_BUSY; more than one bit set in one BOOT_CMD write is
refused with E_BOOT_KIND, and nothing is done (R340). -/
def Obligations.BootCommandRefusals : Prop :=
  (∀ (src : Writer) (s : State), Canon s → Served s → s.weave.run.isSome = true →
    Completes (.registerWrite src 0x5008 4 0xF) s (Refused eWeaveBusy Reg.bootErr s) ∧
    Completes (.bootLoad 4) s (Refused eWeaveBusy Reg.bootErr s)) ∧
  (∀ (src : Writer) (w : Word) (s : State), Canon s → Served s → 1 < popCount 4 (bits w 0 4) →
    Completes (.registerWrite src 0x5008 w 0xF) s (Refused eBootKind Reg.bootErr s)) ∧
  (∀ (b : BitVec 4) (s : State), Canon s → Served s → 1 < popCount 4 b.toNat →
    Completes (.bootLoad b) s (Refused eBootKind Reg.bootErr s) ∧ Completes (.bootStop b) s (Refused eBootKind Reg.bootErr s) ∧
    Completes (.bootReboot b) s (Refused eBootKind Reg.bootErr s) ∧
    Completes (.bootRaiseFloor b) s (Refused eBootKind Reg.bootErr s))

/-- Each of the 512 fuse words stands in three copies, a bit reads 1 when at least two copies read 1, and region
checks run over words in ascending order, each as 4 bytes, little-endian (R302). -/
def Obligations.FuseWords : Prop :=
  (∀ (s : State) (w : BitVec 9) (i : Nat), (s.fuseWord w.toNat).getLsbD i = true ↔
    2 ≤ ((s.fuse.copy w.toNat 0).getLsbD i).toNat + ((s.fuse.copy w.toNat 1).getLsbD i).toNat +
      ((s.fuse.copy w.toNat 2).getLsbD i).toNat) ∧
  (∀ (rd : Nat → Word) (lo n : Nat),
    fuseCrc rd lo n = crc32c ((List.range n).flatMap (fun i => leBytes 4 (rd (lo + i)).toNat)))

/-- The beat is programmable from 4,096 to 2,097,152 c-cycles, and 1,200,000 is the default (R10). -/
def Obligations.BeatLengthRange : Prop :=
  State.reset.fld Reg.timeBeatLen 0 22 = 1200000 ∧
  (∀ (v : Word) (s : State), Canon s → Served s → s.weave.run = none → s.weave.load = none → s.basket.joined = false →
    4096 ≤ bits v 0 22 → bits v 0 22 ≤ 2097152 →
    Completes (.timeBeatLenWrite v 0xF) s (fun t => t.fld Reg.timeBeatLen 0 22 = bits v 0 22)) ∧
  (∀ (v : Word) (s : State), Canon s → Served s → s.weave.run = none → s.weave.load = none → s.basket.joined = false →
    bits v 0 22 < 4096 ∨ 2097152 < bits v 0 22 →
    Completes (.timeBeatLenWrite v 0xF) s (Refused eBeatRange Reg.timeErr s))

/-- Integer reduction and accumulation are taken modulo 2^32 with no saturation; the neutral values of MINP and MAXP;
and 255 × 255 of two unsigned operands enters a sum as 65,025 (R172). -/
def Obligations.IntegerReductions : Prop :=
  (∀ (op : Nat) (l : List Int), op ≠ 3 → op ≠ 4 → reduceInt op l = BitVec.ofInt 32 l.sum) ∧
  (∀ (w : BitVec 64) (acc : Word) (a b : BitVec 16), pBf16 w = false → pOp w ≠ 3 → pOp w ≠ 4 →
    osAcc w false acc a b =
      acc + BitVec.ofInt 32 (termOf (pOp w) (byteVal (pSgnA w) (lowByte a)) (byteVal (pSgnB w) (lowByte b)))) ∧
  reduceInt 3 [] = 0x7FFFFFFF#32 ∧ reduceInt 4 [] = 0x80000000#32 ∧
  (∀ w : BitVec 64, pBf16 w = false → pOp w = 0 → pSgnA w = false → pSgnB w = false → ∀ acc : Word,
    osAcc w false acc 255 255 = acc + 65025#32)

/-- Slot 15 of every wheel table is R, and no other slot is R; a table that breaks this or holds a code from 0xC to
0xF is refused with E_SP_WHEEL; every other table is accepted, whatever slots a port holds (R156). -/
def Obligations.WheelTables : Prop :=
  (∀ t : BitVec 64, wheelOk t.toNat = true ↔
    bits t 60 4 = wheelCode .r ∧ ∀ k < 15, bits t (4 * k) 4 ≠ wheelCode .r ∧ bits t (4 * k) 4 < 0xC) ∧
  (∀ (s : State) (d : WeaveDecl) (a : Alternate) (pl : Placement), s.level = 2 → s.placementIn a = some pl →
    (∀ p ∈ a.places, p.pkg = s.pkg → p.classes.contains .reserved = false) → pl.convs = [] →
    (alternateVerdict s d a = eSpWheel ↔ ∃ n < 16, ∃ t ∈ wheelsOf s pl n, wheelOk t = false))

/-- Unclaimed offsets and words that no write can change: writes have no effect, and an unclaimed offset reads zero
(R7), in BAR0 and in BAR2 outside the MSI-X table and the pending bits (R65). -/
def Obligations.UnclaimedOffsets : Prop :=
  (∀ (src : Writer) (off : BitVec 20) (v : Word) (be : BitVec 4) (s : State), regRow off.toNat = none →
    exec (.registerWrite src off v be) s = .next s) ∧
  (∀ (src : Writer) (off : BitVec 20) (v : Word) (be : BitVec 4) (r : RegRow) (s : State), regRow off.toNat = some r →
    r.rw = 0 → r.w1c = 0 → r.wo = 0 → refusedBits off.toNat = 0 → exec (.registerWrite src off v be) s = .next s) ∧
  (∀ (off : BitVec 20) (s : State), Served s → regRow off.toNat = none →
    exec (.rcFieldRead false off) s = .next { s with out := s.out ++ [.readData off.toNat 0] }) ∧
  (∀ (off : BitVec 14) (v : Word) (be : BitVec 4) (s : State), 1152 ≤ off.toNat →
    exec (.vectorUnmask (.bar2 off v be)) s = .next s) ∧
  (∀ (off : BitVec 14) (s : State), Served s → 1152 ≤ off.toNat → off.toNat < 0x2000 ∨ 0x200C ≤ off.toNat →
    exec (.rcFieldRead true (off.setWidth 20)) s =
      .next { s with out := s.out ++ [.readData (0x100000 + off.toNat) 0] })

/-- A remote access to a hole is refused with E_ADDR_HOLE, and a package's own remote range is served locally (R60).
-/
def Obligations.AddressHoles : Prop :=
  (∀ (q : RemoteReq) (s : State), Canon s → q.addr.toNat < 2 ^ 36 → placeLocal q.addr.toNat = .hole →
    Completes (.winWrite q) s (fun t =>
      Latched eAddrHole Reg.winErr s t ∧ Only [.regs, .out, .basket] s t ∧
      RegsOnly [Reg.winErr, Reg.winRefused, Reg.withyErr] s t)) ∧
  (∀ (s : State) (off : Nat), off < 2 ^ 36 →
    s.place (0x10000000000 + s.pkg.toNat * 2 ^ 36 + off) = placeLocal off ∧
    s.localAddr (0x10000000000 + s.pkg.toNat * 2 ^ 36 + off) = off)

/-- The grammar step (R266): the allowed token with the greatest logit, the lower token between equal ones, is
appended unless it is EOS and moves the automaton; the margin is the shifted distance to the next greatest allowed
logit, at most 65,535, and 65,535 where only one token is allowed. -/
def Obligations.TokenChoice : Prop :=
  ∀ (g : GrmSrc) (eos m ctr : Nat) (c : Ctx) (logits : List (BitVec 32)) (t : Nat) (x : BitVec 32),
    logits[t]? = some x → allowed g eos c t = true →
    (∀ u y, logits[u]? = some y → allowed g eos c u = true → y.toInt < x.toInt ∨ (y.toInt = x.toInt ∧ t ≤ u)) →
    (grammarStep g eos m ctr c logits).token = (if t = eos then none else some t) ∧
    (grammarStep g eos m ctr c logits).ctx.genLen = (if t = eos then c.genLen else c.genLen + 1) ∧
    (t ≠ eos → gKind g ≠ 1 →
      (grammarStep g eos m ctr c logits).ctx.auto = teNext (gEntry g c.auto (gClass g t))) ∧
    ((∀ u y, logits[u]? = some y → allowed g eos c u = true → u = t) →
      (grammarStep g eos m ctr c logits).margin = 65535) ∧
    (∀ u y, u ≠ t → logits[u]? = some y → allowed g eos c u = true →
      (∀ v z, v ≠ t → logits[v]? = some z → allowed g eos c v = true → z.toInt ≤ y.toInt) →
      (grammarStep g eos m ctr c logits).margin = min 65535 ((x.toInt - y.toInt).toNat / 2 ^ m))

/-- The next admission (R234): of the heads of the tenant queues, the one with the smallest start tag, and between
equal tags the one of the lower tenant. -/
def Obligations.AdmissionOrder : Prop :=
  ∀ (s : State) (k : Nat) (r : Req), s.nextHead = some (k, r) →
    r = s.req k ∧ (∃ p ∈ s.serve.tenants, p.2.head = some k) ∧
    ∀ p ∈ s.serve.tenants, ∀ j, p.2.head = some j →
      r.tag < (s.req j).tag ∨ (r.tag = (s.req j).tag ∧ r.tenant ≤ (s.req j).tenant)

/-- CTRL words wait by priority, and first come, first served within one (R59): a word joins an ordered queue behind
every word of its own or a higher priority and ahead of every other, and the queue stays ordered. -/
def Obligations.ControlQueueOrder : Prop :=
  ∀ (w : LinkWord) (q : List LinkWord), q.Pairwise (fun a b => ctrlPriority a ≤ ctrlPriority b) →
    (ctrlInsert w q).Pairwise (fun a b => ctrlPriority a ≤ ctrlPriority b) ∧
    ctrlInsert w q =
      q.filter (fun v => ctrlPriority v ≤ ctrlPriority w) ++ w :: q.filter (fun v => ctrlPriority w < ctrlPriority v)

/-- New beat and time-step values take effect at a profile-period boundary: the first whole number of 32 µs periods
that lies at least 1.0 ms ahead (R36, R39). -/
def Obligations.ScheduleBoundary : Prop :=
  ∀ s : State, boundaryAhead s % 32000 = 0 ∧ s.nowFp + 1000000 * 65536 ≤ boundaryAhead s * 65536 ∧
    ∀ n, n % 32000 = 0 → s.nowFp + 1000000 * 65536 ≤ n * 65536 → boundaryAhead s ≤ n

/-- Matrix sums of OP MAC on integers (R172, R175): the accumulator of an OS pass that starts it holds the sum of
products over the steps, whatever wraps on the way, and column j of an IS row is the sum over i of the row entry times
the stationary value; and the order of the terms does not matter to any integer reduction. -/
def Obligations.MatrixSums : Prop :=
  (∀ (w : BitVec 64) (old : Word) (p : BitVec 16 × BitVec 16) (ps : List (BitVec 16 × BitVec 16)),
    pBf16 w = false → pOp w = 0 →
    ps.foldl (fun acc q => osAcc w false acc q.1 q.2) (osAcc w true old p.1 p.2) =
      BitVec.ofInt 32 ((p :: ps).map (fun q =>
        byteVal (pSgnA w) (lowByte q.1) * byteVal (pSgnB w) (lowByte q.2))).sum) ∧
  (∀ (s : State) (n g base : Nat) (w : BitVec 64) (f : BitVec 16 → Int) (es : List (BitVec 16 × Bool)) (j : Nat),
    pOp w = 0 → es.length = pRows w → j < pCols w →
    (isRow s n g base w f es)[j]? = some (BitVec.ofInt 32 ((List.range (pRows w)).map (fun i =>
      f (nthD (0, false) es i).1 * byteVal (pSgnB w) (lowByte (s.station n g base i j).1))).sum)) ∧
  (∀ (op : Nat) (l l' : List Int), l.Perm l' → reduceInt op l = reduceInt op l')

/-- A THERM_LIMIT write (R301), also while a weave runs: accepted where WARN < ALT < TRIP and TRIP is at most 125 °C
for L and 95 °C for P, and refused with E_THERM_LIMIT otherwise; a RETURN_S of 0 is refused in the same way. -/
def Obligations.ThermalLimits : Prop :=
  (∀ (src : Writer) (v : Word) (s : State), Canon s → Served s →
    Completes (.registerWrite src 0x48004 v 0xF) s (fun t =>
      if bits v 0 8 < bits v 8 8 ∧ bits v 8 8 < bits v 16 8 ∧ bits v 16 8 ≤ 125
      then t.fld Reg.thermLimitL 0 24 = bits v 0 24 ∧ Only [.regs] s t ∧ RegsOnly [Reg.thermLimitL] s t
      else Refused eThermLimit Reg.thermErr s t)) ∧
  (∀ (src : Writer) (v : Word) (s : State), Canon s → Served s →
    Completes (.registerWrite src 0x48008 v 0xF) s (fun t =>
      if bits v 0 8 < bits v 8 8 ∧ bits v 8 8 < bits v 16 8 ∧ bits v 16 8 ≤ 95
      then t.fld Reg.thermLimitP 0 24 = bits v 0 24 ∧ Only [.regs] s t ∧ RegsOnly [Reg.thermLimitP] s t
      else Refused eThermLimit Reg.thermErr s t)) ∧
  (∀ (src : Writer) (v : Word) (s : State), Canon s → Served s → bits v 8 8 = 0 →
    Completes (.registerWrite src 0x48000 v 0xF) s (Refused eThermLimit Reg.thermErr s))
end

