-- ==== Sys2Proof/Laws/Frame.lean ====
section
/-!
SUPPORT. Frame.lean: how a change of the state composes: which parts it touches, that it keeps the canonical form, and that
it clears no fuse bit. One lemma per operation then says all three of it (the other files Frame…).
-/

namespace Sys2Proof.Machine

/-- What a change of the fuse array keeps. -/
structure FuseMoves (f g : FuseState) : Prop where
  copies : smWf (fun _ => 0) f.copies = true → smWf (fun _ => 0) g.copies = true
  weak   : smWf (fun _ => 0) f.weak = true → smWf (fun _ => 0) g.weak = true
  shadow : smWf (fun _ => 0) f.shadow = true → smWf (fun _ => 0) g.shadow = true
  kept   : smWf (fun _ => 0) f.copies = true → ∀ k, smGet 0 f.copies k &&& ~~~(smGet 0 g.copies k) = 0

/-- From `s` to `t` at most the parts `ps` change, the canonical form stays and no fuse bit is lost. -/
structure Moves (ps : List Part) (s t : State) : Prop where
  only  : Only ps s t
  canon : Canon s → Canon t
  fuses : Canon s → FusesKept s t

theorem and_not_self_word (a : Word) : a &&& ~~~a = 0 := by simp

/-- Bits kept in two steps are kept. -/
theorem kept_trans {a b c : Word} (h : a &&& ~~~b = 0) (k : b &&& ~~~c = 0) : a &&& ~~~c = 0 := by
  apply BitVec.eq_of_getLsbD_eq
  intro i hi
  have h1 := congrArg (fun x => x.getLsbD i) h
  have h2 := congrArg (fun x => x.getLsbD i) k
  simp [hi] at h1 h2 ⊢
  intro ha
  exact h2 (h1 ha)

theorem FuseMoves.refl (f : FuseState) : FuseMoves f f := ⟨id, id, id, fun _ _ => and_not_self_word _⟩

theorem FuseMoves.trans {f g h : FuseState} (a : FuseMoves f g) (b : FuseMoves g h) : FuseMoves f h :=
  ⟨fun x => b.copies (a.copies x), fun x => b.weak (a.weak x), fun x => b.shadow (a.shadow x),
   fun x k => kept_trans (a.kept x k) (b.kept (a.copies x) k)⟩

theorem FuseMoves.foldl {α : Type} {f : FuseState → α → FuseState} {l : List α} {g : FuseState}
    (h : ∀ g a, FuseMoves g (f g a)) : FuseMoves g (l.foldl f g) := by
  induction l generalizing g with
  | nil => exact FuseMoves.refl g
  | cons a l ih => exact (h g a).trans ih

/-- Changes of the command, the shadow or both leave the array alone. -/
theorem FuseMoves.cmd (f : FuseState) (c : Option FuseCmd) : FuseMoves f { f with cmd := c } :=
  ⟨id, id, id, fun _ _ => and_not_self_word _⟩

/-- A new shadow and command leave the array alone. -/
theorem FuseMoves.sh {f g : FuseState} (h : FuseMoves f g) (m : SMap Word) (c : Option FuseCmd)
    (hm : smWf (fun _ => 0) f.shadow = true → smWf (fun _ => 0) m = true) : FuseMoves f ⟨g.copies, g.weak, m, c⟩ :=
  ⟨h.copies, h.weak, hm, h.kept⟩

/-- Programming a copy adds bits. -/
theorem FuseMoves.blow (f : FuseState) (k : Nat) (x w : Word) :
    FuseMoves f { f with copies := smSet 0 f.copies k (smGet 0 f.copies k ||| x), weak := smSet 0 f.weak k w } := by
  refine ⟨fun h => smSet_wf (d := fun _ => 0) h, fun h => smSet_wf (d := fun _ => 0) h, id, fun h j => ?_⟩
  by_cases hj : j = k
  · subst hj
    simp only [smGet_smSet (d := fun _ => 0) h]
    generalize smGet 0 f.copies j = a
    apply BitVec.eq_of_getLsbD_eq
    intro i hi
    simp only [BitVec.getLsbD_and, BitVec.getLsbD_not, BitVec.getLsbD_or, hi]
    cases a.getLsbD i <;> simp
  · simp only [smGet_smSet_ne (d := fun _ => 0) h hj]
    exact and_not_self_word _

theorem Only.refl (ps : List Part) (s : State) : Only ps s s := ⟨rfl, fun p _ => by cases p <;> first | rfl | exact ⟨rfl, rfl⟩⟩

theorem Part.same_trans {p : Part} {s t u : State} (h : p.same s t) (k : p.same t u) : p.same s u := by
  cases p <;> first | exact Eq.trans k h | exact ⟨k.1.trans h.1, k.2.trans h.2⟩

theorem Only.trans {ps : List Part} {s t u : State} (h : Only ps s t) (k : Only ps t u) : Only ps s u :=
  ⟨k.1.trans h.1, fun p hp => Part.same_trans (h.2 p hp) (k.2 p hp)⟩

theorem Only.mono {qs ps : List Part} {s t : State} (k : Only qs s t) (hq : ∀ q ∈ qs, q ∈ ps) : Only ps s t :=
  ⟨k.1, fun p hp => k.2 p (fun hm => hp (hq p hm))⟩

theorem Moves.refl (ps : List Part) (s : State) : Moves ps s s := ⟨Only.refl ps s, id, fun _ _ => and_not_self_word _⟩

/-- Changes one after the other. -/
theorem Moves.trans {ps : List Part} {s t u : State} (h : Moves ps s t) (k : Moves ps t u) : Moves ps s u :=
  ⟨h.only.trans k.only, fun x => k.canon (h.canon x), fun x j => kept_trans (h.fuses x j) (k.fuses (h.canon x) j)⟩

theorem Moves.ite {ps : List Part} {s a b : State} {c : Prop} [Decidable c] (ha : Moves ps s a) (hb : Moves ps s b) :
    Moves ps s (if c then a else b) := by split <;> assumption

theorem Moves.ite_iff {ps : List Part} {s a b : State} {c : Prop} [Decidable c] :
    Moves ps s (if c then a else b) ↔ (c → Moves ps s a) ∧ (¬c → Moves ps s b) := by split <;> simp_all

theorem Moves.foldl {α : Type} {ps : List Part} {s t : State} {f : State → α → State} {l : List α}
    (hf : ∀ t a, Moves ps t (f t a)) (h : Moves ps s t) : Moves ps s (l.foldl f t) := by
  induction l generalizing t with
  | nil => exact h
  | cons a l ih => exact ih (h.trans (hf t a))

theorem Moves.foldl_fst {α β : Type} {ps : List Part} {s : State} {f : State × β → α → State × β} {l : List α} {p : State × β}
    (hf : ∀ p a, Moves ps p.1 (f p a).1) (h : Moves ps s p.1) : Moves ps s (l.foldl f p).1 := by
  induction l generalizing p with
  | nil => exact h
  | cons a l ih => exact ih (h.trans (hf p a))

theorem Moves.foldl_snd {α β : Type} {ps : List Part} {s : State} {f : β × State → α → β × State} {l : List α} {p : β × State}
    (hf : ∀ p a, Moves ps p.2 (f p a).2) (h : Moves ps s p.2) : Moves ps s (l.foldl f p).2 := by
  induction l generalizing p with
  | nil => exact h
  | cons a l ih => exact ih (h.trans (hf p a))

/-- A record update changes the parts that it names. -/
theorem Moves.upd {ps : List Part} {s t : State} {regs sets out freeCtr power time basket host field pix roi wfe cores knots mem
    poison serve fault weave therm fuse flash boot} (h : Moves ps s t)
    (h1 : regs = t.regs ∨ Part.regs ∈ ps ∧ (smWf resetVal t.regs = true → smWf resetVal regs = true))
    (hs : sets = t.sets ∨ Part.regs ∈ ps)
    (h2 : out = t.out ∨ Part.out ∈ ps)
    (h3 : freeCtr = t.freeCtr ∨ Part.freeCtr ∈ ps)
    (h4 : power = t.power ∨ Part.power ∈ ps)
    (h5 : time = t.time ∨ Part.time ∈ ps)
    (h6 : basket = t.basket ∨ Part.basket ∈ ps)
    (h7 : host = t.host ∨ Part.host ∈ ps ∧ (Rising t.host.rings → Rising host.rings))
    (h8 : field = t.field ∨ Part.field ∈ ps)
    (h9 : pix = t.pix ∨ Part.pix ∈ ps)
    (h10 : roi = t.roi ∨ Part.roi ∈ ps)
    (h11 : wfe = t.wfe ∨ Part.wfe ∈ ps)
    (h12 : cores = t.cores ∨ Part.cores ∈ ps ∧ (Rising t.cores → Rising cores))
    (h13 : knots = t.knots ∨ Part.knots ∈ ps ∧ (smWf (fun _ => 0) t.knots = true → smWf (fun _ => 0) knots = true))
    (h14 : mem = t.mem ∨ Part.mem ∈ ps ∧ (Memory.wf t.mem = true → Memory.wf mem = true))
    (h15 : poison = t.poison ∨ Part.poison ∈ ps ∧ (smWf (fun _ => false) t.poison = true → smWf (fun _ => false) poison = true))
    (h16 : serve = t.serve ∨ Part.serve ∈ ps ∧ (Rising t.serve.reqs → Rising serve.reqs))
    (h17 : fault = t.fault ∨ Part.fault ∈ ps)
    (h18 : weave = t.weave ∨ Part.weave ∈ ps)
    (h19 : therm = t.therm ∨ Part.therm ∈ ps)
    (h20 : fuse = t.fuse ∨ Part.fuse ∈ ps ∧ (FuseMoves t.fuse fuse))
    (h21 : flash = t.flash ∨ Part.flash ∈ ps ∧ (smWf (fun _ => 0xFF) t.flash = true → smWf (fun _ => 0xFF) flash = true))
    (h22 : boot = t.boot ∨ Part.boot ∈ ps) :
    Moves ps s (State.mk t.pending regs sets out freeCtr power time basket host field pix roi wfe cores knots mem poison serve
      fault weave therm fuse flash boot) := by
  refine h.trans ⟨⟨rfl, fun p hp => ?_⟩, fun c => ?_, fun c k => ?_⟩
  · cases p
    · exact ⟨h1.resolve_right (fun x => hp x.1), hs.resolve_right hp⟩
    · exact h2.resolve_right hp
    · exact h3.resolve_right hp
    · exact h4.resolve_right hp
    · exact h5.resolve_right hp
    · exact h6.resolve_right hp
    · exact h7.resolve_right (fun x => hp x.1)
    · exact h8.resolve_right hp
    · exact h9.resolve_right hp
    · exact h10.resolve_right hp
    · exact h11.resolve_right hp
    · exact h12.resolve_right (fun x => hp x.1)
    · exact h13.resolve_right (fun x => hp x.1)
    · exact h14.resolve_right (fun x => hp x.1)
    · exact h15.resolve_right (fun x => hp x.1)
    · exact h16.resolve_right (fun x => hp x.1)
    · exact h17.resolve_right hp
    · exact h18.resolve_right hp
    · exact h19.resolve_right hp
    · exact h20.resolve_right (fun x => hp x.1)
    · exact h21.resolve_right (fun x => hp x.1)
    · exact h22.resolve_right hp
  · have hf : FuseMoves t.fuse fuse := by rcases h20 with h | h; exacts [h ▸ FuseMoves.refl _, h.2]
    refine ⟨?_, ?_, ?_, ?_, ?_, hf.copies c.copies, hf.weak c.weak, hf.shadow c.shadow, ?_, ?_, ?_⟩
    · rcases h1 with h | h; exacts [h ▸ c.regs, h.2 c.regs]
    · rcases h14 with h | h; exacts [h ▸ c.mem, h.2 c.mem]
    · rcases h15 with h | h; exacts [h ▸ c.poison, h.2 c.poison]
    · rcases h13 with h | h; exacts [h ▸ c.knots, h.2 c.knots]
    · rcases h21 with h | h; exacts [h ▸ c.flash, h.2 c.flash]
    · rcases h7 with h | h; exacts [h ▸ c.rings, h.2 c.rings]
    · rcases h12 with h | h; exacts [h ▸ c.cores, h.2 c.cores]
    · rcases h16 with h | h; exacts [h ▸ c.reqs, h.2 c.reqs]
  · have hf : FuseMoves t.fuse fuse := by rcases h20 with h | h; exacts [h ▸ FuseMoves.refl _, h.2]
    exact hf.kept c.copies k

/-- A change of the host attachment. -/
theorem Moves.updHost {ps : List Part} {s t : State} {x : HostState} (h : Moves ps s t) (hp : Part.host ∈ ps)
    (hr : Rising t.host.rings → Rising x.rings) : Moves ps s { t with host := x } :=
  Moves.upd h (.inl rfl) (.inl rfl) (.inl rfl) (.inl rfl) (.inl rfl) (.inl rfl) (.inl rfl) (.inr ⟨hp, hr⟩) (.inl rfl)
    (.inl rfl) (.inl rfl) (.inl rfl) (.inl rfl) (.inl rfl) (.inl rfl) (.inl rfl) (.inl rfl) (.inl rfl) (.inl rfl) (.inl rfl) (.inl rfl) (.inl rfl) (.inl rfl)

/-- A change of the fuse array. -/
theorem Moves.updFuse {ps : List Part} {s t : State} {x : FuseState} (h : Moves ps s t) (hp : Part.fuse ∈ ps)
    (hf : FuseMoves t.fuse x) : Moves ps s { t with fuse := x } :=
  Moves.upd h (.inl rfl) (.inl rfl) (.inl rfl) (.inl rfl) (.inl rfl) (.inl rfl) (.inl rfl) (.inl rfl) (.inl rfl) (.inl rfl) (.inl rfl)
    (.inl rfl) (.inl rfl) (.inl rfl) (.inl rfl) (.inl rfl) (.inl rfl) (.inl rfl) (.inl rfl) (.inl rfl) (.inr ⟨hp, hf⟩) (.inl rfl) (.inl rfl)

/-- A change of the serving layer. -/
theorem Moves.updServe {ps : List Part} {s t : State} {x : ServeState} (h : Moves ps s t) (hp : Part.serve ∈ ps)
    (hr : Rising t.serve.reqs → Rising x.reqs) : Moves ps s { t with serve := x } :=
  Moves.upd h (.inl rfl) (.inl rfl) (.inl rfl) (.inl rfl) (.inl rfl) (.inl rfl) (.inl rfl) (.inl rfl) (.inl rfl)
    (.inl rfl) (.inl rfl) (.inl rfl) (.inl rfl) (.inl rfl) (.inl rfl) (.inl rfl) (.inr ⟨hp, hr⟩) (.inl rfl) (.inl rfl) (.inl rfl) (.inl rfl) (.inl rfl) (.inl rfl)

/-! ### Maps -/

theorem smSet_wf_const {α : Type} [DecidableEq α] {d : α} {m : SMap α} (k : Nat) (v : α)
    (h : smWf (fun _ => d) m = true) : smWf (fun _ => d) (smSet d m k v) = true := smSet_wf (d := fun _ => d) h

theorem smSet_wf_reset {m : SMap Word} (k : Nat) (v : Word) (h : smWf resetVal m = true) :
    smWf resetVal (smSet (resetVal k) m k v) = true := smSet_wf h

theorem smWf_nil {α : Type} [DecidableEq α] (d : Nat → α) : smWf d [] = true := rfl

theorem rising_nil {α : Type} : Rising ([] : SMap α) := List.Pairwise.nil

theorem wf_const_iff {α : Type} [DecidableEq α] {d : α} {m : SMap α} {k : Nat} {v : α} :
    (smWf (fun _ => d) m = true → smWf (fun _ => d) (smSet d m k v) = true) ↔ True := iff_true_intro (smSet_wf_const k v)

theorem wf_reset_iff {m : SMap Word} {k : Nat} {v : Word} :
    (smWf resetVal m = true → smWf resetVal (smSet (resetVal k) m k v) = true) ↔ True := iff_true_intro (smSet_wf_reset k v)

theorem wf_filter_iff {α : Type} [DecidableEq α] {d : Nat → α} {m : SMap α} {p : Nat × α → Bool} :
    (smWf d m = true → smWf d (m.filter p) = true) ↔ True := iff_true_intro (smWf_filter p)

theorem wf_all_iff {α : Type} [DecidableEq α] {d : α} {m : SMap α} {k : Nat} {v : List α} :
    (smWf (fun _ => d) m = true → smWf (fun _ => d) (smSetAll d m k v) = true) ↔ True := iff_true_intro smSetAll_wf

theorem foldl_wf {α β : Type} [DecidableEq α] {d : Nat → α} {f : SMap α → β → SMap α} {l : List β} {m : SMap α}
    (hf : ∀ m b, smWf d m = true → smWf d (f m b) = true) (h : smWf d m = true) : smWf d (l.foldl f m) = true := by
  induction l generalizing m with
  | nil => exact h
  | cons b l ih => exact ih (hf m b h)

/-- A write keeps the keys rising. -/
theorem smSet_rising {α : Type} [DecidableEq α] {d : α} {m : SMap α} (k : Nat) (v : α) (h : Rising m) :
    Rising (smSet d m k v) := by
  induction m with
  | nil => simp only [smSet]; split <;> simp [Rising]
  | cons p m ih =>
    obtain ⟨j, w⟩ := p
    have ht := (List.pairwise_cons.1 h).2
    have hl := (List.pairwise_cons.1 h).1
    simp only [smSet]
    split
    · split
      · exact h
      · rename_i hkj _
        refine List.pairwise_cons.2 ⟨fun q hq => ?_, h⟩
        rcases List.mem_cons.1 hq with rfl | hq
        · exact hkj
        · exact Nat.lt_trans hkj (hl q hq)
    · split
      · rename_i hkj
        subst hkj
        split
        · exact ht
        · exact List.pairwise_cons.2 ⟨hl, ht⟩
      · rename_i h1 h2
        refine List.pairwise_cons.2 ⟨fun q hq => ?_, ih ht⟩
        rcases mem_smSet hq with rfl | hq
        · simp; omega
        · exact hl q hq

theorem rising_set_iff {α : Type} [DecidableEq α] {d : α} {m : SMap α} {k : Nat} {v : α} :
    (Rising m → Rising (smSet d m k v)) ↔ True := iff_true_intro (smSet_rising k v)

theorem rising_filter {α : Type} {m : SMap α} (p : Nat × α → Bool) (h : Rising m) : Rising (m.filter p) :=
  List.Pairwise.filter p h

theorem rising_map {α : Type} {m : SMap α} {f : Nat × α → Nat × α} (hf : ∀ p, (f p).1 = p.1) (h : Rising m) :
    Rising (m.map f) := by
  simp only [Rising, List.pairwise_map]
  exact h.imp (fun {a b} hab => by simpa [hf] using hab)

theorem rising_filter_iff {α : Type} {m : SMap α} {p : Nat × α → Bool} : (Rising m → Rising (m.filter p)) ↔ True :=
  iff_true_intro (rising_filter p)

theorem rising_map_iff {α : Type} {m : SMap α} {f : Nat × α → α} :
    (Rising m → Rising (m.map (fun p => (p.1, f p)))) ↔ True := iff_true_intro (rising_map (fun _ => rfl))

theorem wf_marks_iff {α : Type} [DecidableEq α] {d v : α} {m : SMap α} {l : List Nat} :
    (smWf (fun _ => d) m = true → smWf (fun _ => d) (l.foldl (fun m k => smSet d m k v) m) = true) ↔ True :=
  iff_true_intro (foldl_wf (fun _ k h => smSet_wf_const k v h))

end Sys2Proof.Machine
end

