-- ==== Sys2Proof/Laws/FrameOps.lean ====
section
/-!
SUPPORT. FrameOps.lean: what the shared operations, the clocks, the fuses, start-up and power change at most, that
      each keeps
the canonical form, and that none clears a fuse bit: one lemma per operation.
-/

set_option linter.all false

namespace Sys2Proof.Machine

theorem State_setReg_only {pts : List Part} {s₀ : State} (s : State) (off : Nat) (w : Word) (ho : Moves pts s₀ s)
      (hp : [.regs] ⊆ pts) :
    Moves pts s₀ (State.setReg s off w) := by
  simp only [List.cons_subset, List.nil_subset, and_true] at hp
  unfold State.setReg
  simp (maxDischargeDepth := 80) only [wf_reset_iff, FuseMoves.refl, imp_self, Moves.upd, and_true, true_or,
      or_true, and_self, ho, hp]

theorem State_setFld_only {pts : List Part} {s₀ : State} (s : State) (off lo len v : Nat) (ho : Moves pts s₀ s) (hp
      : [.regs] ⊆ pts) :
    Moves pts s₀ (State.setFld s off lo len v) := by
  simp only [List.cons_subset, List.nil_subset, and_true] at hp
  unfold State.setFld
  simp (maxDischargeDepth := 80) only [List.cons_subset, List.nil_subset, and_self, State_setReg_only, ho, hp]

theorem State_setFlag_only {pts : List Part} {s₀ : State} (s : State) (off i : Nat) (b : Bool) (ho : Moves pts s₀
      s) (hp : [.regs] ⊆ pts) :
    Moves pts s₀ (State.setFlag s off i b) := by
  simp only [List.cons_subset, List.nil_subset, and_true] at hp
  unfold State.setFlag
  simp (maxDischargeDepth := 80) only [List.cons_subset, List.nil_subset, and_self, State_setFld_only, ho, hp]

theorem State_dropSets_only {pts : List Part} {s₀ : State} (s : State) (off : Nat) (ho : Moves pts s₀ s) (hp :
      [.regs] ⊆ pts) :
    Moves pts s₀ (State.dropSets s off) := by
  simp only [List.cons_subset, List.nil_subset, and_true] at hp
  unfold State.dropSets
  simp (maxDischargeDepth := 80) only [FuseMoves.refl, imp_self, Moves.upd, and_true, true_or, or_true, and_self,
      ho, hp]

theorem State_hwSet_only {pts : List Part} {s₀ : State} (s : State) (off : Nat) (f : Word → Word) (ho : Moves pts
      s₀ s) (hp : [.regs] ⊆ pts) :
    Moves pts s₀ (State.hwSet s off f) := by
  simp only [List.cons_subset, List.nil_subset, and_true] at hp
  unfold State.hwSet
  simp (maxDischargeDepth := 80) only [FuseMoves.refl, imp_self, Moves.upd, List.cons_subset, List.nil_subset,
      and_true, true_or, or_true, and_self, State_dropSets_only, State_setReg_only, ho, hp]

theorem State_bumpAt_only {pts : List Part} {s₀ : State} (s : State) (off lo len n : Nat) (ho : Moves pts s₀ s) (hp
      : [.regs] ⊆ pts) :
    Moves pts s₀ (State.bumpAt s off lo len n) := by
  simp only [List.cons_subset, List.nil_subset, and_true] at hp
  unfold State.bumpAt
  simp (maxDischargeDepth := 80) only [List.cons_subset, List.nil_subset, and_self, State_hwSet_only, ho, hp]

theorem State_bumpSat_only {pts : List Part} {s₀ : State} (s : State) (off len n : Nat) (ho : Moves pts s₀ s) (hp :
      [.regs] ⊆ pts) :
    Moves pts s₀ (State.bumpSat s off len n) := by
  simp only [List.cons_subset, List.nil_subset, and_true] at hp
  unfold State.bumpSat
  simp (maxDischargeDepth := 80) only [List.cons_subset, List.nil_subset, and_self, State_bumpAt_only, ho, hp]

theorem State_emit_only {pts : List Part} {s₀ : State} (s : State) (o : Out) (ho : Moves pts s₀ s) (hp : [.out] ⊆
      pts) :
    Moves pts s₀ (State.emit s o) := by
  simp only [List.cons_subset, List.nil_subset, and_true] at hp
  unfold State.emit
  simp (maxDischargeDepth := 80) only [FuseMoves.refl, imp_self, Moves.upd, and_true, true_or, or_true, ho, hp]

theorem latch_only {pts : List Part} {s₀ : State} (c : Code) (core : Nat) (s : State) (ho : Moves pts s₀ s) (hp :
      [.regs] ⊆ pts) :
    Moves pts s₀ (latch c core s) := by
  simp only [List.cons_subset, List.nil_subset, and_true] at hp
  unfold latch
  (repeat' split) <;> simp (maxDischargeDepth := 80) only [List.cons_subset, List.nil_subset, and_self,
      State_hwSet_only, ho, hp]

theorem refuse_only {pts : List Part} {s₀ : State} (c : Code) (s : State) (ho : Moves pts s₀ s) (hp : [.regs] ⊆
      pts) :
    Moves pts s₀ (refuse c s) := by
  simp only [List.cons_subset, List.nil_subset, and_true] at hp
  unfold refuse
  simp (maxDischargeDepth := 80) only [List.cons_subset, List.nil_subset, and_self, latch_only, ho, hp]

theorem State_setRing_only {pts : List Part} {s₀ : State} (s : State) (i : Nat) (r : Ring) (ho : Moves pts s₀ s)
      (hp : [.host] ⊆ pts) :
    Moves pts s₀ (State.setRing s i r) := by
  simp only [List.cons_subset, List.nil_subset, and_true] at hp
  unfold State.setRing
  simp (maxDischargeDepth := 80) only [rising_set_iff, FuseMoves.refl, imp_self, Moves.upd, and_true, true_or,
      or_true, and_self, ho, hp]

theorem fireVector_only {pts : List Part} {s₀ : State} (v : Nat) (s : State) (ho : Moves pts s₀ s) (hp : [.out,
      .host] ⊆ pts) :
    Moves pts s₀ (fireVector v s) := by
  simp only [List.cons_subset, List.nil_subset, and_true] at hp
  unfold fireVector
  simp (maxDischargeDepth := 80) only [FuseMoves.refl, imp_self, Moves.ite_iff, Moves.upd, List.cons_subset,
      List.nil_subset, and_true, true_or, or_true, implies_true, and_self, State_emit_only, ho, hp]

theorem cqPut_only {pts : List Part} {s₀ : State} (i : Nat) (body : BitVec 256) (irq : Bool) (s : State) (ho :
      Moves pts s₀ s) (hp : [.out, .host] ⊆ pts) :
    Moves pts s₀ (cqPut i body irq s) := by
  simp only [List.cons_subset, List.nil_subset, and_true] at hp
  unfold cqPut
  simp (maxDischargeDepth := 80) only [Moves.ite_iff, List.cons_subset, List.nil_subset, implies_true, and_self,
      State_emit_only, State_setRing_only, fireVector_only, ho, hp]

theorem postWaiting_only {pts : List Part} {s₀ : State} (s : State) (ho : Moves pts s₀ s) (hp : [.out, .host] ⊆
      pts) :
    Moves pts s₀ (postWaiting s) := by
  simp only [List.cons_subset, List.nil_subset, and_true] at hp
  unfold postWaiting
  (repeat' split) <;> simp (maxDischargeDepth := 80) only [FuseMoves.refl, imp_self, Moves.upd, List.cons_subset,
      List.nil_subset, and_true, true_or, or_true, and_self, cqPut_only, ho, hp]

theorem postAll_only {pts : List Part} {s₀ : State} (a0 : Nat) (a1 : State) (ho : Moves pts s₀ a1) (hp : [.out,
      .host] ⊆ pts) :
    Moves pts s₀ (postAll a0 a1) := by
  simp only [List.cons_subset, List.nil_subset, and_true] at hp
  induction a0 generalizing a1 with
  | zero =>
    unfold postAll
    simp (maxDischargeDepth := 80) only [ho]
  | succ a0 ih =>
    unfold postAll
    simp (maxDischargeDepth := 80) only [List.cons_subset, List.nil_subset, and_self, postWaiting_only, ih, ho, hp]

theorem drainWaiting_only {pts : List Part} {s₀ : State} (s : State) (ho : Moves pts s₀ s) (hp : [.out, .host] ⊆
      pts) :
    Moves pts s₀ (drainWaiting s) := by
  simp only [List.cons_subset, List.nil_subset, and_true] at hp
  unfold drainWaiting
  simp (maxDischargeDepth := 80) only [Moves.ite_iff, List.cons_subset, List.nil_subset, implies_true, and_self,
      postAll_only, ho, hp]

theorem fireFor_only {pts : List Part} {s₀ : State} (c : Code) (s : State) (ho : Moves pts s₀ s) (hp : [.out,
      .host] ⊆ pts) :
    Moves pts s₀ (fireFor c s) := by
  simp only [List.cons_subset, List.nil_subset, and_true] at hp
  unfold fireFor
  simp (maxDischargeDepth := 80) only [Moves.ite_iff, List.cons_subset, List.nil_subset, implies_true, and_self,
      fireVector_only, ho, hp]

theorem enqueueEvent_only {pts : List Part} {s₀ : State} (body : BitVec 256) (s : State) (ho : Moves pts s₀ s) (hp
      : [.regs, .out, .host] ⊆ pts) :
    Moves pts s₀ (enqueueEvent body s) := by
  simp only [List.cons_subset, List.nil_subset, and_true] at hp
  unfold enqueueEvent
  simp (maxDischargeDepth := 80) only [FuseMoves.refl, imp_self, Moves.ite_iff, Moves.upd, List.cons_subset,
      List.nil_subset, and_true, true_or, or_true, implies_true, and_self, State_bumpSat_only, cqPut_only,
      drainWaiting_only, ho, hp]

theorem postEventAt_only {pts : List Part} {s₀ : State} (c : Code) (core : Nat) (detail : BitVec 128) (s : State)
      (ho : Moves pts s₀ s) (hp : [.regs, .out, .host] ⊆ pts) :
    Moves pts s₀ (postEventAt c core detail s) := by
  simp only [List.cons_subset, List.nil_subset, and_true] at hp
  unfold postEventAt
  simp (maxDischargeDepth := 80) only [FuseMoves.refl, imp_self, Moves.ite_iff, Moves.upd, List.cons_subset,
      List.nil_subset, and_true, true_or, or_true, implies_true, and_self, enqueueEvent_only, fireFor_only,
      latch_only, ho, hp]

theorem postEvent_only {pts : List Part} {s₀ : State} (c : Code) (detail : BitVec 128) (s : State) (ho : Moves pts
      s₀ s) (hp : [.regs, .out, .host] ⊆ pts) :
    Moves pts s₀ (postEvent c detail s) := by
  simp only [List.cons_subset, List.nil_subset, and_true] at hp
  unfold postEvent
  simp (maxDischargeDepth := 80) only [List.cons_subset, List.nil_subset, and_self, postEventAt_only, ho, hp]

theorem setKnot_only {pts : List Part} {s₀ : State} (k : Nat) (v : Word) (s : State) (ho : Moves pts s₀ s) (hp :
      [.host, .knots] ⊆ pts) :
    Moves pts s₀ (setKnot k v s) := by
  simp only [List.cons_subset, List.nil_subset, and_true] at hp
  unfold setKnot
  simp (maxDischargeDepth := 80) only [wf_const_iff, FuseMoves.refl, imp_self, Moves.ite_iff, Moves.upd, and_true,
      true_or, or_true, implies_true, and_self, ho, hp]

theorem signalKnot_only {pts : List Part} {s₀ : State} (k amount : Nat) (s : State) (ho : Moves pts s₀ s) (hp :
      [.host, .knots] ⊆ pts) :
    Moves pts s₀ (signalKnot k amount s) := by
  simp only [List.cons_subset, List.nil_subset, and_true] at hp
  unfold signalKnot
  simp (maxDischargeDepth := 80) only [FuseMoves.refl, imp_self, Moves.upd, List.cons_subset, List.nil_subset,
      and_true, true_or, or_true, and_self, setKnot_only, ho, hp]

theorem setFlight_only {pts : List Part} {s₀ : State} (id : Nat) (st : FlightState) (s : State) (ho : Moves pts s₀
      s) (hp : [.host] ⊆ pts) :
    Moves pts s₀ (setFlight id st s) := by
  simp only [List.cons_subset, List.nil_subset, and_true] at hp
  unfold setFlight
  simp (maxDischargeDepth := 80) only [FuseMoves.refl, imp_self, Moves.upd, and_true, true_or, or_true, and_self,
      ho, hp]

theorem drainCheck_only {pts : List Part} {s₀ : State} (i : Nat) (s : State) (ho : Moves pts s₀ s) (hp : [.host] ⊆
      pts) :
    Moves pts s₀ (drainCheck i s) := by
  simp only [List.cons_subset, List.nil_subset, and_true] at hp
  unfold drainCheck
  simp (maxDischargeDepth := 80) only [Moves.ite_iff, List.cons_subset, List.nil_subset, implies_true, and_self,
      State_setRing_only, ho, hp]

theorem finishFlight_only {pts : List Part} {s₀ : State} (f : Flight) (status : Code) (result : Word) (s : State)
      (ho : Moves pts s₀ s) (hp : [.regs, .out, .host] ⊆ pts) :
    Moves pts s₀ (finishFlight f status result s) := by
  simp only [List.cons_subset, List.nil_subset, and_true] at hp
  unfold finishFlight
  (repeat' split) <;> simp (maxDischargeDepth := 80) only [FuseMoves.refl, imp_self, Moves.upd, List.cons_subset,
      List.nil_subset, and_true, true_or, or_true, and_self, State_emit_only, cqPut_only, drainCheck_only,
      latch_only, ho, hp]

theorem completeFlight_only {pts : List Part} {s₀ : State} (f : Flight) (status : Code) (result : Word) (s : State)
      (ho : Moves pts s₀ s) (hp : [.regs, .out, .host, .knots] ⊆ pts) :
    Moves pts s₀ (completeFlight f status result s) := by
  simp only [List.cons_subset, List.nil_subset, and_true] at hp
  unfold completeFlight
  simp (maxDischargeDepth := 80) only [Moves.ite_iff, List.cons_subset, List.nil_subset, implies_true, and_self,
      finishFlight_only, signalKnot_only, ho, hp]

theorem finishWhere_only {pts : List Part} {s₀ : State} (p : Flight → Bool) (c : Code) (s : State) (ho : Moves pts
      s₀ s) (hp : [.regs, .out, .host] ⊆ pts) :
    Moves pts s₀ (finishWhere p c s) := by
  simp only [List.cons_subset, List.nil_subset, and_true] at hp
  unfold finishWhere
  simp (maxDischargeDepth := 80) only [Moves.refl, Moves.foldl, List.cons_subset, List.nil_subset, implies_true,
      and_self, finishFlight_only, ho, hp]

theorem State_setPort_only {pts : List Part} {s₀ : State} (s : State) (p : Port) (x : LinkPort) (ho : Moves pts s₀
      s) (hp : [.basket] ⊆ pts) :
    Moves pts s₀ (State.setPort s p x) := by
  simp only [List.cons_subset, List.nil_subset, and_true] at hp
  unfold State.setPort
  (repeat' split) <;> simp (maxDischargeDepth := 80) only [FuseMoves.refl, imp_self, Moves.upd, and_true, true_or,
      or_true, ho, hp]

theorem sendCtrl_only {pts : List Part} {s₀ : State} (p : Port) (w : LinkWord) (s : State) (ho : Moves pts s₀ s)
      (hp : [.basket] ⊆ pts) :
    Moves pts s₀ (sendCtrl p w s) := by
  simp only [List.cons_subset, List.nil_subset, and_true] at hp
  unfold sendCtrl
  simp (maxDischargeDepth := 80) only [Moves.ite_iff, List.cons_subset, List.nil_subset, implies_true, and_self,
      State_setPort_only, ho, hp]

theorem floodCtrl_only {pts : List Part} {s₀ : State} (except : Option Port) (w : LinkWord) (s : State) (ho : Moves
      pts s₀ s) (hp : [.basket] ⊆ pts) :
    Moves pts s₀ (floodCtrl except w s) := by
  simp only [List.cons_subset, List.nil_subset, and_true] at hp
  unfold floodCtrl
  simp (maxDischargeDepth := 80) only [Moves.ite_iff, Moves.refl, Moves.foldl, List.cons_subset, List.nil_subset,
      implies_true, and_self, sendCtrl_only, ho, hp]

theorem sendKnot_only {pts : List Part} {s₀ : State} (dst : BitVec 6) (k amount : Nat) (s : State) (ho : Moves pts
      s₀ s) (hp : [.basket, .host, .knots] ⊆ pts) :
    Moves pts s₀ (sendKnot dst k amount s) := by
  simp only [List.cons_subset, List.nil_subset, and_true] at hp
  unfold sendKnot
  (repeat' split) <;> simp (maxDischargeDepth := 80) only [FuseMoves.refl, imp_self, Moves.upd, List.cons_subset,
      List.nil_subset, and_true, true_or, or_true, and_self, sendCtrl_only, signalKnot_only, ho, hp]

theorem unstall_only {pts : List Part} {s₀ : State} (s : State) (ho : Moves pts s₀ s) (hp : [.basket, .host,
      .knots] ⊆ pts) :
    Moves pts s₀ (unstall s) := by
  simp only [List.cons_subset, List.nil_subset, and_true] at hp
  unfold unstall
  simp (maxDischargeDepth := 80) only [FuseMoves.refl, imp_self, Moves.upd, Moves.refl, Moves.foldl,
      List.cons_subset, List.nil_subset, and_true, true_or, or_true, implies_true, and_self, sendKnot_only, ho, hp]

theorem sendOn_only {pts : List Part} {s₀ : State} (p : Port) (m : Loose) (s : State) (ho : Moves pts s₀ s) (hp :
      [.out, .basket] ⊆ pts) :
    Moves pts s₀ (sendOn p m s) := by
  simp only [List.cons_subset, List.nil_subset, and_true] at hp
  unfold sendOn
  simp (maxDischargeDepth := 80) only [List.cons_subset, List.nil_subset, and_self, State_emit_only,
      State_setPort_only, ho, hp]

theorem drainOutbox_only {pts : List Part} {s₀ : State} (a0 : List Loose) (a1 : State) (ho : Moves pts s₀ a1) (hp :
      [.regs, .out, .basket] ⊆ pts) :
    Moves pts s₀ (drainOutbox a0 a1) := by
  simp only [List.cons_subset, List.nil_subset, and_true] at hp
  induction a0 generalizing a1 with
  | nil =>
    unfold drainOutbox
    (repeat' split) <;> simp (maxDischargeDepth := 80) only [FuseMoves.refl, imp_self, Moves.upd, and_true,
      true_or, or_true, and_self, ho, hp]
  | cons y a0 ih =>
    unfold drainOutbox
    (repeat' split) <;> simp (maxDischargeDepth := 80) only [FuseMoves.refl, imp_self, Moves.upd, List.cons_subset,
      List.nil_subset, and_true, true_or, or_true, and_self, State_emit_only, latch_only, sendOn_only, ih, ho, hp]

theorem sendLoose_only {pts : List Part} {s₀ : State} (m : Loose) (s : State) (ho : Moves pts s₀ s) (hp : [.regs,
      .out, .basket] ⊆ pts) :
    Moves pts s₀ (sendLoose m s) := by
  simp only [List.cons_subset, List.nil_subset, and_true] at hp
  unfold sendLoose
  simp (maxDischargeDepth := 80) only [FuseMoves.refl, imp_self, Moves.ite_iff, Moves.upd, List.cons_subset,
      List.nil_subset, and_true, true_or, or_true, implies_true, and_self, State_emit_only, drainOutbox_only,
      latch_only, ho, hp]

theorem fwdWrites_only {pts : List Part} {s₀ : State} (a0 : Nat) (a1 : BitVec 64) (a2 : List Byte) (a3 : State) (ho
      : Moves pts s₀ a3) (hp : [.regs, .out, .basket] ⊆ pts) :
    Moves pts s₀ (fwdWrites a0 a1 a2 a3) := by
  simp only [List.cons_subset, List.nil_subset, and_true] at hp
  induction a0 generalizing a1 a2 a3 with
  | zero =>
    unfold fwdWrites
    simp (maxDischargeDepth := 80) only [ho]
  | succ a0 ih =>
    unfold fwdWrites
    simp (maxDischargeDepth := 80) only [Moves.ite_iff, List.cons_subset, List.nil_subset, implies_true, and_self,
      sendLoose_only, ih, ho, hp]

theorem fwdReads_only {pts : List Part} {s₀ : State} (a0 : Nat) (a1 : BitVec 64) (a2 : Nat) (a3 : State) (ho :
      Moves pts s₀ a3) (hp : [.regs, .out, .basket] ⊆ pts) :
    Moves pts s₀ (fwdReads a0 a1 a2 a3) := by
  simp only [List.cons_subset, List.nil_subset, and_true] at hp
  induction a0 generalizing a1 a2 a3 with
  | zero =>
    unfold fwdReads
    simp (maxDischargeDepth := 80) only [ho]
  | succ a0 ih =>
    unfold fwdReads
    simp (maxDischargeDepth := 80) only [Moves.ite_iff, List.cons_subset, List.nil_subset, implies_true, and_self,
      sendLoose_only, ih, ho, hp]

theorem hostGet_only {pts : List Part} {s₀ : State} (a0 : Nat) (a1 : BitVec 64) (a2 : Nat) (a3 : State) (ho : Moves
      pts s₀ a3) (hp : [.out] ⊆ pts) :
    Moves pts s₀ (hostGet a0 a1 a2 a3) := by
  simp only [List.cons_subset, List.nil_subset, and_true] at hp
  induction a0 generalizing a1 a2 a3 with
  | zero =>
    unfold hostGet
    simp (maxDischargeDepth := 80) only [ho]
  | succ a0 ih =>
    unfold hostGet
    simp (maxDischargeDepth := 80) only [Moves.ite_iff, List.cons_subset, List.nil_subset, implies_true, and_self,
      State_emit_only, ih, ho, hp]

theorem hostPut_only {pts : List Part} {s₀ : State} (addr : BitVec 64) (bytes : List Byte) (s : State) (ho : Moves
      pts s₀ s) (hp : [.regs, .out, .basket] ⊆ pts) :
    Moves pts s₀ (hostPut addr bytes s) := by
  have hp' := hp
  simp only [List.cons_subset, List.nil_subset, and_true] at hp
  unfold hostPut
  (repeat' split) <;> simp (maxDischargeDepth := 80) only [wf_const_iff, wf_reset_iff, wf_filter_iff, wf_all_iff,
      rising_set_iff, FuseMoves.refl, imp_self, smWf_nil, rising_nil, Moves.ite_iff, Moves.upd, Moves.refl,
      Moves.foldl, List.cons_subset, List.nil_subset, and_true, true_and, true_or, or_true, implies_true, and_self,
       State_emit_only, fwdWrites_only, ho, hp]

theorem pushStream_only {pts : List Part} {s₀ : State} (order : Bool) (dst : BitVec 6) (w : LinkWord) (s : State)
      (ho : Moves pts s₀ s) (hp : [.basket] ⊆ pts) :
    Moves pts s₀ (pushStream order dst w s) := by
  simp only [List.cons_subset, List.nil_subset, and_true] at hp
  unfold pushStream
  (repeat' split) <;> simp (maxDischargeDepth := 80) only [FuseMoves.refl, imp_self, Moves.upd, and_true, true_or,
      or_true, ho, hp]

theorem sendReport_only {pts : List Part} {s₀ : State} (owner : BitVec 6) (w : LinkWord) (s : State) (ho : Moves
      pts s₀ s) (hp : [.out, .basket] ⊆ pts) :
    Moves pts s₀ (sendReport owner w s) := by
  simp only [List.cons_subset, List.nil_subset, and_true] at hp
  unfold sendReport
  simp (maxDischargeDepth := 80) only [List.cons_subset, List.nil_subset, and_self, State_emit_only,
      pushStream_only, ho, hp]

theorem sendOrder_only {pts : List Part} {s₀ : State} (p : BitVec 6) (w : LinkWord) (s : State) (ho : Moves pts s₀
      s) (hp : [.out, .basket] ⊆ pts) :
    Moves pts s₀ (sendOrder p w s) := by
  simp only [List.cons_subset, List.nil_subset, and_true] at hp
  unfold sendOrder
  simp (maxDischargeDepth := 80) only [List.cons_subset, List.nil_subset, and_self, State_emit_only,
      pushStream_only, ho, hp]

theorem wrMemP_only {pts : List Part} {s₀ : State} (a : Nat) (bytes : List Byte) (bad : Bool) (s : State) (ho :
      Moves pts s₀ s) (hp : [.mem, .poison] ⊆ pts) :
    Moves pts s₀ (wrMemP a bytes bad s) := by
  simp only [List.cons_subset, List.nil_subset, and_true] at hp
  unfold wrMemP
  simp (maxDischargeDepth := 80) only [wf_all_iff, wf_marks_iff, FuseMoves.refl, imp_self, Moves.upd, and_true,
      true_or, or_true, and_self, ho, hp]

theorem wrMem_only {pts : List Part} {s₀ : State} (a : Nat) (bytes : List Byte) (s : State) (ho : Moves pts s₀ s)
      (hp : [.mem, .poison] ⊆ pts) :
    Moves pts s₀ (wrMem a bytes s) := by
  simp only [List.cons_subset, List.nil_subset, and_true] at hp
  unfold wrMem
  simp (maxDischargeDepth := 80) only [List.cons_subset, List.nil_subset, and_self, wrMemP_only, ho, hp]

theorem writeMarked_only {pts : List Part} {s₀ : State} (a0 a1 : Nat) (a2 : Marked) (a3 : State) (ho : Moves pts s₀
      a3) (hp : [.mem, .poison] ⊆ pts) :
    Moves pts s₀ (writeMarked a0 a1 a2 a3) := by
  simp only [List.cons_subset, List.nil_subset, and_true] at hp
  induction a0 generalizing a1 a2 a3 with
  | zero =>
    unfold writeMarked
    simp (maxDischargeDepth := 80) only [ho]
  | succ a0 ih =>
    unfold writeMarked
    simp (maxDischargeDepth := 80) only [Moves.ite_iff, List.cons_subset, List.nil_subset, implies_true, and_self,
      wrMemP_only, ih, ho, hp]

theorem wrMarked_only {pts : List Part} {s₀ : State} (a : Nat) (l : Marked) (s : State) (ho : Moves pts s₀ s) (hp :
      [.mem, .poison] ⊆ pts) :
    Moves pts s₀ (wrMarked a l s) := by
  simp only [List.cons_subset, List.nil_subset, and_true] at hp
  unfold wrMarked
  simp (maxDischargeDepth := 80) only [Moves.ite_iff, List.cons_subset, List.nil_subset, implies_true, and_self,
      wrMem_only, writeMarked_only, ho, hp]

theorem zeroMem_only {pts : List Part} {s₀ : State} (a n : Nat) (s : State) (ho : Moves pts s₀ s) (hp : [.mem,
      .poison] ⊆ pts) :
    Moves pts s₀ (zeroMem a n s) := by
  simp only [List.cons_subset, List.nil_subset, and_true] at hp
  unfold zeroMem
  simp (maxDischargeDepth := 80) only [wf_filter_iff, FuseMoves.refl, imp_self, Moves.upd, and_true, true_or,
      or_true, and_self, ho, hp]

theorem State_setCore_only {pts : List Part} {s₀ : State} (s : State) (n : Nat) (c : CoreState) (ho : Moves pts s₀
      s) (hp : [.cores] ⊆ pts) :
    Moves pts s₀ (State.setCore s n c) := by
  simp only [List.cons_subset, List.nil_subset, and_true] at hp
  unfold State.setCore
  simp (maxDischargeDepth := 80) only [rising_set_iff, FuseMoves.refl, imp_self, Moves.upd, and_true, true_or,
      or_true, and_self, ho, hp]

theorem State_setArray_only {pts : List Part} {s₀ : State} (s : State) (n a : Nat) (x : ArrayState) (ho : Moves pts
      s₀ s) (hp : [.cores] ⊆ pts) :
    Moves pts s₀ (State.setArray s n a x) := by
  simp only [List.cons_subset, List.nil_subset, and_true] at hp
  unfold State.setArray
  simp (maxDischargeDepth := 80) only [List.cons_subset, List.nil_subset, and_self, State_setCore_only, ho, hp]

theorem clearKnots_only {pts : List Part} {s₀ : State} (lo hi : Nat) (s : State) (ho : Moves pts s₀ s) (hp :
      [.regs, .out, .host, .knots] ⊆ pts) :
    Moves pts s₀ (clearKnots lo hi s) := by
  simp only [List.cons_subset, List.nil_subset, and_true] at hp
  unfold clearKnots
  simp (maxDischargeDepth := 80) only [wf_filter_iff, FuseMoves.refl, imp_self, Moves.upd, List.cons_subset,
      List.nil_subset, and_true, true_or, or_true, and_self, finishWhere_only, ho, hp]

theorem unweave_only {pts : List Part} {s₀ : State} (s : State) (ho : Moves pts s₀ s) (hp : [.basket] ⊆ pts) :
    Moves pts s₀ (unweave s) := by
  simp only [List.cons_subset, List.nil_subset, and_true] at hp
  unfold unweave
  simp (maxDischargeDepth := 80) only [FuseMoves.refl, imp_self, Moves.upd, and_true, true_or, or_true, ho, hp]

theorem abandonWork_only {pts : List Part} {s₀ : State} (s : State) (ho : Moves pts s₀ s) (hp : [.serve] ⊆ pts) :
    Moves pts s₀ (abandonWork s) := by
  simp only [List.cons_subset, List.nil_subset, and_true] at hp
  unfold abandonWork
  simp (maxDischargeDepth := 80) only [rising_map_iff, FuseMoves.refl, imp_self, Moves.upd, and_true, true_or,
      or_true, and_self, ho, hp]

theorem abandonPlait_only {pts : List Part} {s₀ : State} (s : State) (ho : Moves pts s₀ s) (hp : [.cores] ⊆ pts) :
    Moves pts s₀ (abandonPlait s) := by
  simp only [List.cons_subset, List.nil_subset, and_true] at hp
  unfold abandonPlait
  simp (maxDischargeDepth := 80) only [Moves.refl, Moves.foldl, List.cons_subset, List.nil_subset, implies_true,
      and_self, State_setCore_only, ho, hp]

theorem dropPartial_only {pts : List Part} {s₀ : State} (s : State) (ho : Moves pts s₀ s) (hp : [.roi] ⊆ pts) :
    Moves pts s₀ (dropPartial s) := by
  simp only [List.cons_subset, List.nil_subset, and_true] at hp
  unfold dropPartial
  simp (maxDischargeDepth := 80) only [FuseMoves.refl, imp_self, Moves.upd, and_true, true_or, or_true, ho, hp]

theorem endLoad_only {pts : List Part} {s₀ : State} (c : Code) (s : State) (ho : Moves pts s₀ s) (hp : [.regs,
      .out, .host, .weave] ⊆ pts) :
    Moves pts s₀ (endLoad c s) := by
  simp only [List.cons_subset, List.nil_subset, and_true] at hp
  unfold endLoad
  repeat' first
    | split
    | simp (maxDischargeDepth := 80) only [FuseMoves.refl, imp_self, Moves.upd, List.cons_subset, List.nil_subset,
      and_true, true_or, or_true, and_self, finishFlight_only, latch_only, ho, hp]

theorem readImage_only {pts : List Part} {s₀ : State} (s : State) (ho : Moves pts s₀ s) (hp : [.out, .weave] ⊆ pts)
      :
    Moves pts s₀ (readImage s) := by
  simp only [List.cons_subset, List.nil_subset, and_true] at hp
  unfold readImage
  (repeat' split) <;> simp (maxDischargeDepth := 80) only [FuseMoves.refl, imp_self, Moves.upd, List.cons_subset,
      List.nil_subset, and_true, true_or, or_true, and_self, State_emit_only, ho, hp]

theorem haltLoad_only {pts : List Part} {s₀ : State} (s : State) (ho : Moves pts s₀ s) (hp : [.regs, .out, .host,
      .weave] ⊆ pts) :
    Moves pts s₀ (haltLoad s) := by
  simp only [List.cons_subset, List.nil_subset, and_true] at hp
  unfold haltLoad
  (repeat' split) <;> simp (maxDischargeDepth := 80) only [List.cons_subset, List.nil_subset, and_self,
      endLoad_only, ho, hp]

theorem leaveWeave_only {pts : List Part} {s₀ : State} (s : State) (ho : Moves pts s₀ s) (hp : [.regs, .out,
      .basket, .host, .knots] ⊆ pts) :
    Moves pts s₀ (leaveWeave s) := by
  simp only [List.cons_subset, List.nil_subset, and_true] at hp
  unfold leaveWeave
  repeat' first
    | split
    | simp (maxDischargeDepth := 80) only [List.cons_subset, List.nil_subset, and_self, clearKnots_only,
      unweave_only, ho, hp]

theorem idleWeave_only {pts : List Part} {s₀ : State} (ph : RestartPhase) (s : State) (ho : Moves pts s₀ s) (hp :
      [.regs, .out, .basket, .host, .knots, .fault, .weave] ⊆ pts) :
    Moves pts s₀ (idleWeave ph s) := by
  simp only [List.cons_subset, List.nil_subset, and_true] at hp
  unfold idleWeave
  simp (maxDischargeDepth := 80) only [FuseMoves.refl, imp_self, Moves.upd, List.cons_subset, List.nil_subset,
      and_true, true_or, or_true, and_self, leaveWeave_only, ho, hp]

theorem quitWeave_only {pts : List Part} {s₀ : State} (s : State) (ho : Moves pts s₀ s) (hp : [.regs, .out,
      .basket, .host, .roi, .knots, .serve, .fault, .weave] ⊆ pts) :
    Moves pts s₀ (quitWeave s) := by
  simp only [List.cons_subset, List.nil_subset, and_true] at hp
  unfold quitWeave
  simp (maxDischargeDepth := 80) only [Moves.ite_iff, List.cons_subset, List.nil_subset, implies_true, and_self,
      abandonWork_only, dropPartial_only, endLoad_only, finishWhere_only, idleWeave_only, ho, hp]

theorem stopWeave_only {pts : List Part} {s₀ : State} (s : State) (ho : Moves pts s₀ s) (hp : [.regs, .out,
      .basket, .host, .roi, .cores, .knots, .serve, .fault, .weave] ⊆ pts) :
    Moves pts s₀ (stopWeave s) := by
  simp only [List.cons_subset, List.nil_subset, and_true] at hp
  unfold stopWeave
  repeat' first
    | split
    | simp (maxDischargeDepth := 80) only [FuseMoves.refl, imp_self, Moves.upd, List.cons_subset, List.nil_subset,
      and_true, true_or, or_true, and_self, State_setReg_only, abandonPlait_only, abandonWork_only,
      clearKnots_only, dropPartial_only, finishWhere_only, haltLoad_only, unweave_only, ho, hp]

theorem logFault_only {pts : List Part} {s₀ : State} (f : FaultReport) (s : State) (ho : Moves pts s₀ s) (hp :
      [.regs, .out, .host, .fault] ⊆ pts) :
    Moves pts s₀ (logFault f s) := by
  simp only [List.cons_subset, List.nil_subset, and_true] at hp
  unfold logFault
  simp (maxDischargeDepth := 80) only [FuseMoves.refl, imp_self, Moves.upd, List.cons_subset, List.nil_subset,
      and_true, true_or, or_true, and_self, postEventAt_only, ho, hp]

theorem noteRestart_only {pts : List Part} {s₀ : State} (num : BitVec 15) (s : State) (ho : Moves pts s₀ s) (hp :
      [.fault] ⊆ pts) :
    Moves pts s₀ (noteRestart num s) := by
  simp only [List.cons_subset, List.nil_subset, and_true] at hp
  unfold noteRestart
  simp (maxDischargeDepth := 80) only [FuseMoves.refl, imp_self, Moves.ite_iff, Moves.upd, and_true, true_or,
      or_true, implies_true, and_self, ho, hp]

theorem raiseHalt_only {pts : List Part} {s₀ : State} (cls : Nat) (s : State) (ho : Moves pts s₀ s) (hp : [.regs,
      .out, .basket, .host, .roi, .cores, .knots, .serve, .fault, .weave] ⊆ pts) :
    Moves pts s₀ (raiseHalt cls s) := by
  simp only [List.cons_subset, List.nil_subset, and_true] at hp
  unfold raiseHalt
  simp (maxDischargeDepth := 80) only [FuseMoves.refl, imp_self, Moves.upd, List.cons_subset, List.nil_subset,
      and_true, true_or, or_true, and_self, floodCtrl_only, noteRestart_only, stopWeave_only, ho, hp]

theorem weaveFault_only {pts : List Part} {s₀ : State} (f : FaultReport) (s : State) (ho : Moves pts s₀ s) (hp :
      [.regs, .out, .basket, .host, .roi, .cores, .knots, .serve, .fault, .weave] ⊆ pts) :
    Moves pts s₀ (weaveFault f s) := by
  simp only [List.cons_subset, List.nil_subset, and_true] at hp
  unfold weaveFault
  simp (maxDischargeDepth := 80) only [FuseMoves.refl, imp_self, Moves.ite_iff, Moves.upd, List.cons_subset,
      List.nil_subset, and_true, true_or, or_true, implies_true, and_self, logFault_only, raiseHalt_only, ho, hp]

theorem unitFault_only {pts : List Part} {s₀ : State} (kind unit : Nat) (c : Code) (s : State) (ho : Moves pts s₀
      s) (hp : [.regs, .out, .basket, .host, .roi, .cores, .knots, .serve, .fault, .weave] ⊆ pts) :
    Moves pts s₀ (unitFault kind unit c s) := by
  simp only [List.cons_subset, List.nil_subset, and_true] at hp
  unfold unitFault
  simp (maxDischargeDepth := 80) only [List.cons_subset, List.nil_subset, and_self, weaveFault_only, ho, hp]

theorem engineStore_only {pts : List Part} {s₀ : State} (kind a : Nat) (bytes : List Byte) (s : State) (ho : Moves
      pts s₀ s) (hp : [.regs, .out, .basket, .host, .roi, .cores, .knots, .mem, .poison, .serve, .fault, .weave] ⊆
      pts) :
    Moves pts s₀ (engineStore kind a bytes s) := by
  simp only [List.cons_subset, List.nil_subset, and_true] at hp
  unfold engineStore
  simp (maxDischargeDepth := 80) only [Moves.ite_iff, List.cons_subset, List.nil_subset, implies_true, and_self,
      latch_only, unitFault_only, wrMem_only, ho, hp]

theorem partialCopy_moves (ctr k : Nat) (v : Word) (f : FuseState) : FuseMoves f (partialCopy ctr k v f) :=
  FuseMoves.blow f k _ _

theorem fuseAbort_only {pts : List Part} {s₀ : State} (s : State) (ho : Moves pts s₀ s) (hp : [.freeCtr, .fuse] ⊆
      pts) :
    Moves pts s₀ (fuseAbort s) := by
  simp only [List.cons_subset, List.nil_subset, and_true] at hp
  unfold fuseAbort
  split
  · exact ho
  · rename_i c _
    have h := FuseMoves.foldl (l := c.plan) (g := s.fuse) (f := fun f p =>
      partialCopy s.freeCtr (3 * p.1 + 2) p.2 (partialCopy s.freeCtr (3 * p.1 + 1) p.2
        (partialCopy s.freeCtr (3 * p.1) p.2 f)))
      (fun g a => ((partialCopy_moves _ _ _ _).trans (partialCopy_moves _ _ _ _)).trans (partialCopy_moves _ _ _ _))
    simp (maxDischargeDepth := 80) only [Moves.upd, true_or, or_true, and_self, ho, hp, h.trans (FuseMoves.cmd _
      none)]

theorem domainReset_only {pts : List Part} {s₀ : State} (ph : Phase) (s : State) (ho : Moves pts s₀ s) (hp :
      [.regs, .freeCtr, .power, .time, .basket, .host, .field, .pix, .roi, .wfe, .cores, .knots, .mem, .poison,
      .serve, .fault, .weave, .therm, .fuse, .boot] ⊆ pts) :
    Moves pts s₀ (domainReset ph s) := by
  simp only [List.cons_subset, List.nil_subset, and_true] at hp
  have h := fuseAbort_only s ho (by simp [hp])
  unfold domainReset aonRegs
  dsimp only
  refine Moves.upd h (.inr ⟨by simp [hp], smWf_filter _⟩) (.inr (by simp [hp])) (.inl rfl) (.inr (by simp [hp]))
    (.inr (by simp [hp]))
    (.inr (by simp [hp])) (.inr (by simp [hp])) (.inr ⟨by simp [hp], fun _ => rising_nil⟩) (.inr (by simp [hp]))
    (.inr (by simp [hp])) (.inr (by simp [hp])) (.inr (by simp [hp])) (.inr ⟨by simp [hp], fun _ => rising_nil⟩)
    (.inr ⟨by simp [hp], fun _ => rfl⟩) (.inr ⟨by simp [hp], fun _ => rfl⟩) (.inr ⟨by simp [hp], fun _ => rfl⟩)
    (.inr ⟨by simp [hp], fun _ => rising_nil⟩) (.inr (by simp [hp])) (.inr (by simp [hp])) (.inr (by simp [hp]))
    (.inr ⟨by simp [hp], FuseMoves.sh (FuseMoves.refl _) _ _ (fun _ => rfl)⟩) (.inl rfl) (.inr (by simp [hp]))

theorem packageFault_only {pts : List Part} {s₀ : State} (f : FaultReport) (ph : Phase) (s : State) (ho : Moves pts
      s₀ s) (hp : [.regs, .out, .freeCtr, .power, .time, .basket, .host, .field, .pix, .roi, .wfe, .cores, .knots,
      .mem, .poison, .serve, .fault, .weave, .therm, .fuse, .boot] ⊆ pts) :
    Moves pts s₀ (packageFault f ph s) := by
  simp only [List.cons_subset, List.nil_subset, and_true] at hp
  unfold packageFault
  simp (maxDischargeDepth := 80) only [FuseMoves.refl, imp_self, Moves.ite_iff, Moves.upd, List.cons_subset,
      List.nil_subset, and_true, true_or, or_true, implies_true, and_self, domainReset_only, logFault_only,
      raiseHalt_only, ho, hp]

theorem recomputeBeat_only {pts : List Part} {s₀ : State} (s : State) (ho : Moves pts s₀ s) (hp : [.time] ⊆ pts) :
    Moves pts s₀ (recomputeBeat s) := by
  simp only [List.cons_subset, List.nil_subset, and_true] at hp
  unfold recomputeBeat
  simp (maxDischargeDepth := 80) only [FuseMoves.refl, imp_self, Moves.upd, and_true, true_or, or_true, ho, hp]

theorem floodTime_only {pts : List Part} {s₀ : State} (except : Option Port) (w : LinkWord) (s : State) (ho : Moves
      pts s₀ s) (hp : [.basket] ⊆ pts) :
    Moves pts s₀ (floodTime except w s) := by
  simp only [List.cons_subset, List.nil_subset, and_true] at hp
  unfold floodTime
  simp (maxDischargeDepth := 80) only [FuseMoves.refl, imp_self, Moves.upd, List.cons_subset, List.nil_subset,
      and_true, true_or, or_true, and_self, floodCtrl_only, ho, hp]

theorem gateWrite_only {pts : List Part} {s₀ : State} (off : Nat) (f : State → State) (s : State) (ho : Moves pts
      s₀ s) (hf : ∀ t, Moves pts t (f t)) :
    Moves pts s₀ (gateWrite off f s) := by
  have hf' : ∀ t, Moves pts s₀ t → Moves pts s₀ (f t) := fun t h => h.trans (hf t)
  unfold gateWrite
  simp (maxDischargeDepth := 80) only [Moves.ite_iff, implies_true, and_self, ho, hf']

theorem clkApply_only {pts : List Part} {s₀ : State} (s : State) (ho : Moves pts s₀ s) (hp : [.regs, .time,
      .basket] ⊆ pts) :
    Moves pts s₀ (clkApply s) := by
  simp only [List.cons_subset, List.nil_subset, and_true] at hp
  unfold clkApply
  simp (maxDischargeDepth := 80) only [FuseMoves.refl, imp_self, Moves.ite_iff, Moves.upd, List.cons_subset,
      List.nil_subset, and_true, true_or, or_true, implies_true, and_self, floodTime_only, refuse_only, ho, hp]

theorem relockTo_only {pts : List Part} {s₀ : State} (m : BitVec 6) (sp : BitVec 2) (s : State) (ho : Moves pts s₀
      s) (hp : [.regs, .time] ⊆ pts) :
    Moves pts s₀ (relockTo m sp s) := by
  simp only [List.cons_subset, List.nil_subset, and_true] at hp
  unfold relockTo
  simp (maxDischargeDepth := 80) only [FuseMoves.refl, imp_self, Moves.upd, List.cons_subset, List.nil_subset,
      and_true, true_or, or_true, and_self, State_setFlag_only, State_setFld_only, ho, hp]

theorem pllRelock_only {pts : List Part} {s₀ : State} (s : State) (ho : Moves pts s₀ s) (hp : [.regs, .time] ⊆ pts)
      :
    Moves pts s₀ (pllRelock s) := by
  simp only [List.cons_subset, List.nil_subset, and_true] at hp
  unfold pllRelock
  (repeat' split) <;> simp (maxDischargeDepth := 80) only [List.cons_subset, List.nil_subset, and_self,
      relockTo_only, ho, hp]

theorem wakeLoad_only {pts : List Part} {s₀ : State} (s : State) (ho : Moves pts s₀ s) (hp : [.regs, .out, .host,
      .weave] ⊆ pts) :
    Moves pts s₀ (wakeLoad s) := by
  simp only [List.cons_subset, List.nil_subset, and_true] at hp
  unfold wakeLoad
  (repeat' split) <;> simp (maxDischargeDepth := 80) only [FuseMoves.refl, imp_self, Moves.upd, List.cons_subset,
      List.nil_subset, and_true, true_or, or_true, and_self, endLoad_only, readImage_only, ho, hp]

theorem pllRelockDone_only {pts : List Part} {s₀ : State} (s : State) (ho : Moves pts s₀ s) (hp : [.regs, .out,
      .time, .host, .weave] ⊆ pts) :
    Moves pts s₀ (pllRelockDone s) := by
  simp only [List.cons_subset, List.nil_subset, and_true] at hp
  unfold pllRelockDone
  simp (maxDischargeDepth := 80) only [FuseMoves.refl, imp_self, Moves.ite_iff, Moves.upd, List.cons_subset,
      List.nil_subset, and_true, true_or, or_true, implies_true, and_self, State_setFlag_only, recomputeBeat_only,
      wakeLoad_only, ho, hp]

theorem pllLockLoss_only {pts : List Part} {s₀ : State} (p : Pll) (s : State) (ho : Moves pts s₀ s) (hp : [.regs,
      .out, .basket, .host, .roi, .cores, .knots, .serve, .fault, .weave] ⊆ pts) :
    Moves pts s₀ (pllLockLoss p s) := by
  simp only [List.cons_subset, List.nil_subset, and_true] at hp
  unfold pllLockLoss
  simp (maxDischargeDepth := 80) only [Moves.ite_iff, List.cons_subset, List.nil_subset, implies_true, and_self,
      State_bumpSat_only, State_setFlag_only, weaveFault_only, ho, hp]

theorem dropPrincipal_only {pts : List Part} {s₀ : State} (s : State) (ho : Moves pts s₀ s) (hp : [.regs, .out,
      .basket, .host, .weave] ⊆ pts) :
    Moves pts s₀ (dropPrincipal s) := by
  simp only [List.cons_subset, List.nil_subset, and_true] at hp
  unfold dropPrincipal
  simp (maxDischargeDepth := 80) only [FuseMoves.refl, imp_self, Moves.upd, List.cons_subset, List.nil_subset,
      and_true, true_or, or_true, and_self, State_setFlag_only, endLoad_only, ho, hp]

theorem refFail_only {pts : List Part} {s₀ : State} (src : RefSource) (s : State) (ho : Moves pts s₀ s) (hp :
      [.regs, .out, .basket, .host, .roi, .cores, .knots, .serve, .fault, .weave] ⊆ pts) :
    Moves pts s₀ (refFail src s) := by
  simp only [List.cons_subset, List.nil_subset, and_true] at hp
  unfold refFail
  (repeat' split) <;> simp (maxDischargeDepth := 80) only [Moves.ite_iff, List.cons_subset, List.nil_subset,
      implies_true, and_self, State_bumpSat_only, State_setFlag_only, dropPrincipal_only, weaveFault_only, ho, hp]

theorem aclkMeasure_only {pts : List Part} {s₀ : State} (refPeriods : BitVec 32) (s : State) (ho : Moves pts s₀ s)
      (hp : [.regs] ⊆ pts) :
    Moves pts s₀ (aclkMeasure refPeriods s) := by
  simp only [List.cons_subset, List.nil_subset, and_true] at hp
  unfold aclkMeasure
  simp (maxDischargeDepth := 80) only [Moves.ite_iff, List.cons_subset, List.nil_subset, implies_true, and_self,
      State_setFlag_only, State_setFld_only, State_setReg_only, ho, hp]

theorem stepBelt_only {pts : List Part} {s₀ : State} (b : BitVec 80) (s : State) (ho : Moves pts s₀ s) (hp :
      [.time] ⊆ pts) :
    Moves pts s₀ (stepBelt b s) := by
  simp only [List.cons_subset, List.nil_subset, and_true] at hp
  unfold stepBelt
  simp (maxDischargeDepth := 80) only [FuseMoves.refl, imp_self, Moves.upd, and_true, true_or, or_true, ho, hp]

theorem timeNowLoRead_only {pts : List Part} {s₀ : State} (s : State) (ho : Moves pts s₀ s) (hp : [.time] ⊆ pts) :
    Moves pts s₀ (timeNowLoRead s).1 := by
  simp only [List.cons_subset, List.nil_subset, and_true] at hp
  simp (maxDischargeDepth := 80) only [wf_const_iff, wf_reset_iff, wf_filter_iff, wf_all_iff, rising_set_iff,
      FuseMoves.refl, imp_self, smWf_nil, rising_nil, Moves.ite_iff, Moves.upd, Moves.refl, Moves.foldl,
      List.cons_subset, List.nil_subset, and_true, true_and, true_or, or_true, implies_true, and_self, 
      timeNowLoRead,
      ho, hp]

theorem timeBeatNumLoRead_only {pts : List Part} {s₀ : State} (s : State) (ho : Moves pts s₀ s) (hp : [.time] ⊆
      pts) :
    Moves pts s₀ (timeBeatNumLoRead s).1 := by
  simp only [List.cons_subset, List.nil_subset, and_true] at hp
  simp (maxDischargeDepth := 80) only [wf_const_iff, wf_reset_iff, wf_filter_iff, wf_all_iff, rising_set_iff,
      FuseMoves.refl, imp_self, smWf_nil, rising_nil, Moves.ite_iff, Moves.upd, Moves.refl, Moves.foldl,
      List.cons_subset, List.nil_subset, and_true, true_and, true_or, or_true, implies_true, and_self,
       timeBeatNumLoRead, ho, hp]

theorem timeBeatStampLoRead_only {pts : List Part} {s₀ : State} (s : State) (ho : Moves pts s₀ s) (hp : [.time] ⊆
      pts) :
    Moves pts s₀ (timeBeatStampLoRead s).1 := by
  simp only [List.cons_subset, List.nil_subset, and_true] at hp
  simp (maxDischargeDepth := 80) only [wf_const_iff, wf_reset_iff, wf_filter_iff, wf_all_iff, rising_set_iff,
      FuseMoves.refl, imp_self, smWf_nil, rising_nil, Moves.ite_iff, Moves.upd, Moves.refl, Moves.foldl,
      List.cons_subset, List.nil_subset, and_true, true_and, true_or, or_true, implies_true, and_self,
       timeBeatStampLoRead, ho, hp]

theorem returnRead_only {pts : List Part} {s₀ : State} (off : Nat) (r : State × Word) (ho : Moves pts s₀ r.1) (hp :
      [.out] ⊆ pts) :
    Moves pts s₀ (returnRead off r) := by
  simp only [List.cons_subset, List.nil_subset, and_true] at hp
  unfold returnRead
  simp (maxDischargeDepth := 80) only [List.cons_subset, List.nil_subset, and_self, State_emit_only, ho, hp]

theorem gateRead_only {pts : List Part} {s₀ : State} (off : Nat) (f : State → State × Word) (s : State) (ho : Moves
      pts s₀ s) (hf : ∀ t, Moves pts t (f t).1) (hp : [.out] ⊆ pts) :
    Moves pts s₀ (gateRead off f s) := by
  simp only [List.cons_subset, List.nil_subset, and_true] at hp
  have hf' : Moves pts s₀ (f s).1 := ho.trans (hf s)
  unfold gateRead returnRead
  (repeat' split) <;> simp (maxDischargeDepth := 80) only [wf_const_iff, wf_reset_iff, wf_filter_iff, wf_all_iff,
      rising_set_iff, FuseMoves.refl, imp_self, smWf_nil, rising_nil, Moves.ite_iff, Moves.upd, Moves.refl,
      Moves.foldl, List.cons_subset, List.nil_subset, and_true, true_and, true_or, or_true, implies_true, and_self,
       State_emit_only, ho, hf', hp]

theorem timeSet_only {pts : List Part} {s₀ : State} (s : State) (ho : Moves pts s₀ s) (hp : [.regs, .time, .basket]
      ⊆ pts) :
    Moves pts s₀ (timeSet s) := by
  simp only [List.cons_subset, List.nil_subset, and_true] at hp
  unfold timeSet
  simp (maxDischargeDepth := 80) only [FuseMoves.refl, imp_self, Moves.ite_iff, Moves.upd, List.cons_subset,
      List.nil_subset, and_true, true_or, or_true, implies_true, and_self, floodTime_only, refuse_only, ho, hp]

theorem showBeat_only {pts : List Part} {s₀ : State} (b : BitVec 22) (e : BitVec 64) (s : State) (ho : Moves pts s₀
      s) (hp : [.regs] ⊆ pts) :
    Moves pts s₀ (showBeat b e s) := by
  simp only [List.cons_subset, List.nil_subset, and_true] at hp
  unfold showBeat
  simp (maxDischargeDepth := 80) only [List.cons_subset, List.nil_subset, and_self, State_setFld_only,
      State_setReg_only, ho, hp]

theorem takeBeat_only {pts : List Part} {s₀ : State} (b : BitVec 22) (e : BitVec 64) (s : State) (ho : Moves pts s₀
      s) (hp : [.regs, .time] ⊆ pts) :
    Moves pts s₀ (takeBeat b e s) := by
  simp only [List.cons_subset, List.nil_subset, and_true] at hp
  unfold takeBeat
  simp (maxDischargeDepth := 80) only [FuseMoves.refl, imp_self, Moves.ite_iff, Moves.upd, List.cons_subset,
      List.nil_subset, and_true, true_or, or_true, implies_true, and_self, showBeat_only, ho, hp]

theorem takeBeats_only {pts : List Part} {s₀ : State} (ns : Nat) (s : State) (ho : Moves pts s₀ s) (hp : [.regs,
      .time] ⊆ pts) :
    Moves pts s₀ (takeBeats ns s) := by
  simp only [List.cons_subset, List.nil_subset, and_true] at hp
  unfold takeBeats
  repeat' first
    | split
    | simp (maxDischargeDepth := 80) only [FuseMoves.refl, imp_self, Moves.upd, List.cons_subset, List.nil_subset,
      and_true, true_or, or_true, and_self, takeBeat_only, ho, hp]

theorem timeStepApply_only {pts : List Part} {s₀ : State} (s : State) (ho : Moves pts s₀ s) (hp : [.regs, .out,
      .time, .host, .weave] ⊆ pts) :
    Moves pts s₀ (timeStepApply s) := by
  simp only [List.cons_subset, List.nil_subset, and_true] at hp
  unfold timeStepApply
  (repeat' split) <;> simp (maxDischargeDepth := 80) only [FuseMoves.refl, imp_self, Moves.upd, List.cons_subset,
      List.nil_subset, and_true, true_or, or_true, and_self, recomputeBeat_only, stepBelt_only, takeBeats_only,
      wakeLoad_only, ho, hp]

theorem pushBeat_only {pts : List Part} {s₀ : State} (t b epoch : Nat) (s : State) (ho : Moves pts s₀ s) (hp :
      [.time] ⊆ pts) :
    Moves pts s₀ (pushBeat t b epoch s) := by
  simp only [List.cons_subset, List.nil_subset, and_true] at hp
  unfold pushBeat
  simp (maxDischargeDepth := 80) only [FuseMoves.refl, imp_self, Moves.upd, and_true, true_or, or_true, ho, hp]

theorem scheduleBeat_only {pts : List Part} {s₀ : State} (b epoch : Nat) (s : State) (ho : Moves pts s₀ s) (hp :
      [.time, .basket] ⊆ pts) :
    Moves pts s₀ (scheduleBeat b epoch s) := by
  simp only [List.cons_subset, List.nil_subset, and_true] at hp
  unfold scheduleBeat
  simp (maxDischargeDepth := 80) only [Moves.ite_iff, List.cons_subset, List.nil_subset, implies_true, and_self,
      floodTime_only, pushBeat_only, ho, hp]

theorem timeBeatLenWrite_only {pts : List Part} {s₀ : State} (val : Word) (be : BitVec 4) (s : State) (ho : Moves
      pts s₀ s) (hp : [.regs, .time, .basket] ⊆ pts) :
    Moves pts s₀ (timeBeatLenWrite val be s) := by
  simp only [List.cons_subset, List.nil_subset, and_true] at hp
  unfold timeBeatLenWrite
  simp (maxDischargeDepth := 80) only [Moves.ite_iff, List.cons_subset, List.nil_subset, implies_true, and_self,
      State_setFld_only, refuse_only, scheduleBeat_only, ho, hp]

theorem clearStage_only {pts : List Part} {s₀ : State} (lo : Nat) (s : State) (ho : Moves pts s₀ s) (hp : [.time] ⊆
      pts) :
    Moves pts s₀ (clearStage lo s) := by
  simp only [List.cons_subset, List.nil_subset, and_true] at hp
  unfold clearStage
  simp (maxDischargeDepth := 80) only [FuseMoves.refl, imp_self, Moves.upd, and_true, true_or, or_true, ho, hp]

theorem timeBeatEpochWrite_only {pts : List Part} {s₀ : State} (val : Word) (be : BitVec 4) (s : State) (ho : Moves
      pts s₀ s) (hp : [.regs, .time, .basket] ⊆ pts) :
    Moves pts s₀ (timeBeatEpochWrite val be s) := by
  simp only [List.cons_subset, List.nil_subset, and_true] at hp
  unfold timeBeatEpochWrite
  simp (maxDischargeDepth := 80) only [Moves.ite_iff, List.cons_subset, List.nil_subset, implies_true, and_self,
      State_setReg_only, clearStage_only, refuse_only, scheduleBeat_only, ho, hp]

theorem beatValuesApply_only {pts : List Part} {s₀ : State} (s : State) (ho : Moves pts s₀ s) (hp : [.regs, .out,
      .time, .host, .weave] ⊆ pts) :
    Moves pts s₀ (beatValuesApply s) := by
  simp only [List.cons_subset, List.nil_subset, and_true] at hp
  unfold beatValuesApply
  (repeat' split) <;> simp (maxDischargeDepth := 80) only [List.cons_subset, List.nil_subset, and_self,
      recomputeBeat_only, takeBeats_only, timeStepApply_only, wakeLoad_only, ho, hp]

theorem slewOffset_only {pts : List Part} {s₀ : State} (o : BitVec 16) (s : State) (ho : Moves pts s₀ s) (hp :
      [.regs, .time] ⊆ pts) :
    Moves pts s₀ (slewOffset o s) := by
  simp only [List.cons_subset, List.nil_subset, and_true] at hp
  unfold slewOffset
  simp (maxDischargeDepth := 80) only [FuseMoves.refl, imp_self, Moves.upd, List.cons_subset, List.nil_subset,
      and_true, true_or, or_true, and_self, State_setFld_only, ho, hp]

theorem alignAchieved_only {pts : List Part} {s₀ : State} (o : BitVec 16) (s : State) (ho : Moves pts s₀ s) (hp :
      [.regs, .time] ⊆ pts) :
    Moves pts s₀ (alignAchieved o s) := by
  simp only [List.cons_subset, List.nil_subset, and_true] at hp
  unfold alignAchieved
  simp (maxDischargeDepth := 80) only [Moves.ite_iff, List.cons_subset, List.nil_subset, implies_true, and_self,
      State_setFlag_only, slewOffset_only, ho, hp]

theorem alignLoss_only {pts : List Part} {s₀ : State} (o : BitVec 16) (s : State) (ho : Moves pts s₀ s) (hp :
      [.regs, .out, .time, .basket, .host, .roi, .cores, .knots, .serve, .fault, .weave] ⊆ pts) :
    Moves pts s₀ (alignLoss o s) := by
  simp only [List.cons_subset, List.nil_subset, and_true] at hp
  unfold alignLoss
  simp (maxDischargeDepth := 80) only [Moves.ite_iff, List.cons_subset, List.nil_subset, implies_true, and_self,
      State_setFlag_only, slewOffset_only, weaveFault_only, ho, hp]

theorem senseArrays_only {pts : List Part} {s₀ : State} (ok : Bool) (s : State) (ho : Moves pts s₀ s) (hp : [.regs]
      ⊆ pts) :
    Moves pts s₀ (senseArrays ok s) := by
  simp only [List.cons_subset, List.nil_subset, and_true] at hp
  unfold senseArrays
  simp (maxDischargeDepth := 80) only [Moves.ite_iff, Moves.refl, Moves.foldl, List.cons_subset, List.nil_subset,
      implies_true, and_self, State_setFlag_only, State_setReg_only, ho, hp]

theorem pickNonzero_wf (f : Nat → Word) (l : List Nat) (h : l.Pairwise (· < ·)) :
    smWf (fun _ => 0) (l.filterMap (fun w => if f w = 0 then none else some (w, f w))) = true := by
  induction l with
  | nil => rfl
  | cons w l ih =>
    have h1 := (List.pairwise_cons.1 h).1
    have ih := ih (List.pairwise_cons.1 h).2
    by_cases hw : f w = 0
    · simpa [List.filterMap_cons, hw] using ih
    · simp only [List.filterMap_cons, hw, if_false]
      refine smWf_cons hw ih (fun q hq => ?_)
      simp only [List.mem_filterMap] at hq
      obtain ⟨a, ha, e⟩ := hq
      split at e
      · cases e
      · cases e; exact h1 a ha

/-- The shadow is in its canonical form. -/
theorem senseShadow_wf (s : State) : smWf (fun _ => 0) (senseShadow s) = true :=
  pickNonzero_wf s.fuseWord _ List.pairwise_lt_range

/-- The last steps of sensing: whether the package is held, and the safe trims. -/
theorem senseTail_only {pts : List Part} {s₀ : State} (a b c : Bool) (s : State) (ho : Moves pts s₀ s) (hp : [.regs,
    .out, .power, .time, .fuse, .boot] ⊆ pts) :
    Moves pts s₀ (
      let s := if a then s else { s.setFld Reg.clkCoreCfg 0 6 32 with time := { s.time with mult := 32 } }
      if b then { s with power := { s.power with phase := .heldFuse 1 } }
      else if c then { s with power := { s.power with phase := .heldFuse 2 } }
      else { s.emit (.ball .fault true) with power := { s.power with phase := .locking } }) := by
  simp only [List.cons_subset, List.nil_subset, and_true] at hp
  have h : Moves pts s₀ (if a then s else { s.setFld Reg.clkCoreCfg 0 6 32 with time := { s.time with mult := 32 }
      })
      := by
    split
    · exact ho
    · simp (maxDischargeDepth := 80) only [wf_const_iff, wf_reset_iff, wf_filter_iff, wf_all_iff, rising_set_iff,
        FuseMoves.refl, imp_self, smWf_nil, rising_nil, Moves.ite_iff, Moves.upd, Moves.refl, Moves.foldl,
        List.cons_subset, List.nil_subset, and_true, true_and, true_or, or_true, implies_true, and_self,
         State_setFld_only, ho, hp]
  dsimp only
  generalize (if a = true then s else { s.setFld Reg.clkCoreCfg 0 6 32 with time := { s.time with mult := 32 } }) =
      t
      at h ⊢
  split
  · simp (maxDischargeDepth := 80) only [wf_const_iff, wf_reset_iff, wf_filter_iff, wf_all_iff, rising_set_iff,
      FuseMoves.refl, imp_self, smWf_nil, rising_nil, Moves.ite_iff, Moves.upd, Moves.refl, Moves.foldl,
      List.cons_subset, List.nil_subset, and_true, true_and, true_or, or_true, implies_true, and_self,  h, hp]
  · split <;> simp (maxDischargeDepth := 80) only [wf_const_iff, wf_reset_iff, wf_filter_iff, wf_all_iff,
      rising_set_iff, FuseMoves.refl, imp_self, smWf_nil, rising_nil, Moves.ite_iff, Moves.upd, Moves.refl,
      Moves.foldl, List.cons_subset, List.nil_subset, and_true, true_and, true_or, or_true, implies_true, and_self,
       State_emit_only, h, hp]

theorem senseFuses_only {pts : List Part} {s₀ : State} (s : State) (ho : Moves pts s₀ s) (hp : [.regs, .out,
      .power, .time, .fuse, .boot] ⊆ pts) :
    Moves pts s₀ (senseFuses s) := by
  have hp' := hp
  simp only [List.cons_subset, List.nil_subset, and_true] at hp
  refine senseTail_only _ _ _ _ (State_setFlag_only _ _ _ _ ?_ (by simp [hp])) hp'
  refine State_setReg_only _ _ _ (State_setReg_only _ _ _ (State_setReg_only _ _ _ (senseArrays_only _ _ ?_
      (by simp [hp]))
    (by simp [hp])) (by simp [hp])) (by simp [hp])
  refine State_setReg_only _ _ _ (State_setReg_only _ _ _ (State_setReg_only _ _ _ (State_setReg_only _ _ _
    (State_setReg_only _ _ _ ?_ (by simp [hp])) (by simp [hp])) (by simp [hp])) (by simp [hp])) (by simp [hp])
  exact Moves.upd ho (.inl rfl) (.inl rfl) (.inl rfl) (.inl rfl) (.inl rfl) (.inl rfl) (.inl rfl) (.inl rfl) (.inl
      rfl)
    (.inl rfl) (.inl rfl) (.inl rfl) (.inl rfl) (.inl rfl) (.inl rfl) (.inl rfl) (.inl rfl) (.inl rfl) (.inl rfl)
      (.inl rfl)
    (.inr ⟨by simp [hp], FuseMoves.sh (FuseMoves.refl _) _ _ (fun _ => senseShadow_wf s)⟩) (.inl rfl) (.inr
      (by simp [hp]))

theorem fuseRefused_only {pts : List Part} {s₀ : State} (c : Code) (s : State) (ho : Moves pts s₀ s) (hp : [.regs]
      ⊆ pts) :
    Moves pts s₀ (fuseRefused c s) := by
  simp only [List.cons_subset, List.nil_subset, and_true] at hp
  unfold fuseRefused
  simp (maxDischargeDepth := 80) only [Moves.ite_iff, List.cons_subset, List.nil_subset, implies_true, and_self,
      State_setReg_only, latch_only, ho, hp]

theorem fuseCommand_only {pts : List Part} {s₀ : State} (op w : Nat) (d : Word) (steward vioOk : Bool) (s : State)
      (ho : Moves pts s₀ s) (hp : [.regs, .fuse] ⊆ pts) :
    Moves pts s₀ (fuseCommand op w d steward vioOk s) := by
  simp only [List.cons_subset, List.nil_subset, and_true] at hp
  have h := State_setFlag_only s Reg.fuseStatus 0 true ho (by simp [hp])
  unfold fuseCommand
  refine Moves.ite ho ?_
  split
  · exact fuseRefused_only _ _ ho (by simp [hp])
  · exact Moves.updFuse h (by simp [hp]) (FuseMoves.cmd _ _)

theorem fuseCmd_only {pts : List Part} {s₀ : State} (op : Nat) (src : Writer) (w : BitVec 9) (vioOk : Bool) (s :
      State) (ho : Moves pts s₀ s) (hp : [.regs, .fuse] ⊆ pts) :
    Moves pts s₀ (fuseCmd op src w vioOk s) := by
  simp only [List.cons_subset, List.nil_subset, and_true] at hp
  unfold fuseCmd
  simp (maxDischargeDepth := 80) only [Moves.refl, List.cons_subset, List.nil_subset, implies_true, and_self,
      fuseCommand_only, gateWrite_only, ho, hp]

theorem applyLifecycle_only {pts : List Part} {s₀ : State} (s : State) (ho : Moves pts s₀ s) (hp : [.regs, .fuse] ⊆
      pts) :
    Moves pts s₀ (applyLifecycle s) := by
  simp only [List.cons_subset, List.nil_subset, and_true] at hp
  have hs : FuseMoves s.fuse { s.fuse with shadow := smSet 0 s.fuse.shadow 16 (s.fuseWord 16) } :=
    FuseMoves.sh (FuseMoves.refl _) _ _ (smSet_wf_const _ _)
  unfold applyLifecycle
  simp (maxDischargeDepth := 80) only [wf_const_iff, wf_reset_iff, wf_filter_iff, wf_all_iff, rising_set_iff,
      FuseMoves.refl, imp_self, smWf_nil, rising_nil, Moves.ite_iff, Moves.upd, Moves.refl, Moves.foldl,
      List.cons_subset, List.nil_subset, and_true, true_and, true_or, or_true, implies_true, and_self,
       State_setReg_only, State_setFlag_only, State_setFld_only, hs, ho, hp]

theorem fuseEnd_only {pts : List Part} {s₀ : State} (code : Code) (pulses : Nat) (s : State) (ho : Moves pts s₀ s)
      (hp : [.regs, .fuse] ⊆ pts) :
    Moves pts s₀ (fuseEnd code pulses s) := by
  simp only [List.cons_subset, List.nil_subset, and_true] at hp
  have h := State_setFlag_only s Reg.fuseStatus 0 false ho (by simp [hp])
  have h := Moves.updFuse h (by simp [hp]) (FuseMoves.cmd _ none)
  have h := State_setReg_only _ Reg.fuseResult (BitVec.ofNat 32 (code.toNat + min pulses 15 * 2 ^ 16)) h (by simp
      [hp])
  have h := latch_only code 0 _ h (by simp [hp])
  unfold fuseEnd
  dsimp only
  exact Moves.ite (State_setReg_only _ _ _ h (by simp [hp])) h

theorem blowWord_moves (r : Bool) (w : Nat) (v : Word) (o : FuseOutcome) (f : FuseState) :
    FuseMoves f (blowWord r w v o f) :=
  FuseMoves.foldl (fun _ _ => FuseMoves.blow _ _ _ _)

/-- A plan only adds bits. -/
theorem blowPlan_moves (r : Bool) (l : List (Nat × Word)) (os : List FuseOutcome) (f : FuseState) :
    FuseMoves f (blowPlan r l os f).1 := by
  induction l generalizing os f with
  | nil => exact FuseMoves.refl f
  | cons p l ih =>
    obtain ⟨w, v⟩ := p
    simp only [blowPlan]
    split
    · exact ih _ _
    · split
      · exact blowWord_moves _ _ _ _ _
      · exact (blowWord_moves _ _ _ _ _).trans (ih _ _)

theorem fuseDone_only {pts : List Part} {s₀ : State} (os : List FuseOutcome) (s : State) (ho : Moves pts s₀ s) (hp
      : [.regs, .fuse] ⊆ pts) :
    Moves pts s₀ (fuseDone os s) := by
  simp only [List.cons_subset, List.nil_subset, and_true] at hp
  unfold fuseDone
  split
  · exact ho
  · rename_i c _
    have hb := blowPlan_moves (c.op == 4) c.plan os s.fuse
    split
    · refine fuseEnd_only _ _ _ ?_ (by simp [hp])
      simp (maxDischargeDepth := 80) only [imp_self, Moves.ite_iff, Moves.upd, List.cons_subset, List.nil_subset,
      and_true,
        true_or, or_true, implies_true, and_self, hb, applyLifecycle_only, State_setReg_only, ho, hp]
    · exact fuseEnd_only _ _ _ (State_setReg_only _ _ _ ho (by simp [hp])) (by simp [hp])

theorem takeImages_only {pts : List Part} {s₀ : State} (b fallback : Bool) (s : State) (ho : Moves pts s₀ s) (hp :
      [.regs, .boot] ⊆ pts) :
    Moves pts s₀ (takeImages b fallback s) := by
  simp only [List.cons_subset, List.nil_subset, and_true] at hp
  unfold takeImages
  simp (maxDischargeDepth := 80) only [FuseMoves.refl, imp_self, Moves.upd, List.cons_subset, List.nil_subset,
      and_true, true_or, or_true, and_self, State_setFlag_only, State_setFld_only, State_setReg_only, ho, hp]

theorem serveRom_only {pts : List Part} {s₀ : State} (s : State) (ho : Moves pts s₀ s) (hp : [.regs, .boot] ⊆ pts) :
    Moves pts s₀ (serveRom s) := by
  simp only [List.cons_subset, List.nil_subset, and_true] at hp
  unfold serveRom
  simp (maxDischargeDepth := 80) only [FuseMoves.refl, imp_self, Moves.upd, List.cons_subset, List.nil_subset,
      and_true, true_or, or_true, and_self, State_setFld_only, State_setReg_only, latch_only, ho, hp]

theorem trySlots_only {pts : List Part} {s₀ : State} (a0 : List Bool) (a1 : Bool) (a2 : State) (ho : Moves pts s₀
      a2) (hp : [.regs, .boot] ⊆ pts) :
    Moves pts s₀ (trySlots a0 a1 a2) := by
  simp only [List.cons_subset, List.nil_subset, and_true] at hp
  induction a0 generalizing a1 a2 with
  | nil =>
    unfold trySlots
    simp (maxDischargeDepth := 80) only [List.cons_subset, List.nil_subset, and_self, serveRom_only, ho, hp]
  | cons y a0 ih =>
    unfold trySlots
    simp (maxDischargeDepth := 80) only [Moves.ite_iff, List.cons_subset, List.nil_subset, implies_true, and_self,
      State_setReg_only, takeImages_only, ih, ho, hp]

theorem imageVerifyDone_only {pts : List Part} {s₀ : State} (s : State) (ho : Moves pts s₀ s) (hp : [.regs, .power,
      .boot] ⊆ pts) :
    Moves pts s₀ (imageVerifyDone s) := by
  simp only [List.cons_subset, List.nil_subset, and_true] at hp
  unfold imageVerifyDone
  (repeat' split) <;> simp (maxDischargeDepth := 80) only [FuseMoves.refl, imp_self, Moves.upd, List.cons_subset,
      List.nil_subset, and_true, true_or, or_true, and_self, trySlots_only, ho, hp]

theorem setLevel_only {pts : List Part} {s₀ : State} (s : State) (ho : Moves pts s₀ s) (hp : [.regs] ⊆ pts) :
    Moves pts s₀ (setLevel s) := by
  simp only [List.cons_subset, List.nil_subset, and_true] at hp
  unfold setLevel
  simp (maxDischargeDepth := 80) only [List.cons_subset, List.nil_subset, and_self, State_setFlag_only,
      State_setFld_only, ho, hp]

theorem countCores_only {pts : List Part} {s₀ : State} (s : State) (ho : Moves pts s₀ s) (hp : [.regs, .boot] ⊆
      pts) :
    Moves pts s₀ (countCores s) := by
  simp only [List.cons_subset, List.nil_subset, and_true] at hp
  unfold countCores
  simp (maxDischargeDepth := 80) only [FuseMoves.refl, imp_self, Moves.ite_iff, Moves.upd, List.cons_subset,
      List.nil_subset, and_true, true_or, or_true, implies_true, and_self, setLevel_only, ho, hp]

theorem postDue_only {pts : List Part} {s₀ : State} (s : State) (ho : Moves pts s₀ s) (hp : [.regs, .out, .host,
      .boot] ⊆ pts) :
    Moves pts s₀ (postDue s) := by
  simp only [List.cons_subset, List.nil_subset, and_true] at hp
  unfold postDue
  simp (maxDischargeDepth := 80) only [FuseMoves.refl, imp_self, Moves.ite_iff, Moves.upd, List.cons_subset,
      List.nil_subset, and_true, true_or, or_true, implies_true, and_self, postEvent_only, ho, hp]

theorem judgeSelfTest_only {pts : List Part} {s₀ : State} (r : SelfTest) (s : State) (ho : Moves pts s₀ s) (hp :
      [.regs, .out, .host, .boot] ⊆ pts) :
    Moves pts s₀ (judgeSelfTest r s) := by
  simp only [List.cons_subset, List.nil_subset, and_true] at hp
  unfold judgeSelfTest
  simp (maxDischargeDepth := 80) only [FuseMoves.refl, imp_self, Moves.ite_iff, Moves.upd, List.cons_subset,
      List.nil_subset, and_true, true_or, or_true, implies_true, and_self, State_setFlag_only, postDue_only,
      setLevel_only, ho, hp]

theorem selftestDone_only {pts : List Part} {s₀ : State} (r : SelfTest) (s : State) (ho : Moves pts s₀ s) (hp :
      [.regs, .out, .power, .host, .boot] ⊆ pts) :
    Moves pts s₀ (selftestDone r s) := by
  simp only [List.cons_subset, List.nil_subset, and_true] at hp
  unfold selftestDone
  (repeat' split) <;> simp (maxDischargeDepth := 80) only [FuseMoves.refl, imp_self, Moves.upd, List.cons_subset,
      List.nil_subset, and_true, true_or, or_true, and_self, judgeSelfTest_only, ho, hp]

theorem raiseFloor_only {pts : List Part} {s₀ : State} (bits : BitVec 4) (s : State) (ho : Moves pts s₀ s) (hp :
      [.regs, .fuse] ⊆ pts) :
    Moves pts s₀ (raiseFloor bits s) := by
  simp only [List.cons_subset, List.nil_subset, and_true] at hp
  unfold raiseFloor
  simp (maxDischargeDepth := 80) only [Moves.ite_iff, List.cons_subset, List.nil_subset, implies_true, and_self,
      fuseCommand_only, refuse_only, ho, hp]

theorem pairOverride_only {pts : List Part} {s₀ : State} (s : State) (ho : Moves pts s₀ s) (hp : [.regs] ⊆ pts) :
    Moves pts s₀ (pairOverride s) := by
  simp only [List.cons_subset, List.nil_subset, and_true] at hp
  unfold pairOverride
  simp (maxDischargeDepth := 80) only [Moves.ite_iff, List.cons_subset, List.nil_subset, implies_true, and_self,
      State_setFlag_only, refuse_only, setLevel_only, ho, hp]

theorem calCopy_only {pts : List Part} {s₀ : State} (part : Option (List Byte)) (dst okBit : Nat) (s : State) (ho :
      Moves pts s₀ s) (hp : [.regs, .out, .host, .mem, .poison] ⊆ pts) :
    Moves pts s₀ (calCopy part dst okBit s) := by
  simp only [List.cons_subset, List.nil_subset, and_true] at hp
  unfold calCopy
  (repeat' split) <;> simp (maxDischargeDepth := 80) only [List.cons_subset, List.nil_subset, and_self,
      State_setFlag_only, postEvent_only, wrMem_only, ho, hp]

theorem calLoadDone_only {pts : List Part} {s₀ : State} (s : State) (ho : Moves pts s₀ s) (hp : [.regs, .out,
      .host, .mem, .poison, .weave] ⊆ pts) :
    Moves pts s₀ (calLoadDone s) := by
  simp only [List.cons_subset, List.nil_subset, and_true] at hp
  unfold calLoadDone
  (repeat' split) <;> simp (maxDischargeDepth := 80) only [List.cons_subset, List.nil_subset, and_self,
      State_setFlag_only, State_setReg_only, calCopy_only, readImage_only, ho, hp]

theorem setPhase_only {pts : List Part} {s₀ : State} (p : Phase) (s : State) (ho : Moves pts s₀ s) (hp : [.power] ⊆
      pts) :
    Moves pts s₀ (setPhase p s) := by
  simp only [List.cons_subset, List.nil_subset, and_true] at hp
  unfold setPhase
  simp (maxDischargeDepth := 80) only [FuseMoves.refl, imp_self, Moves.upd, and_true, true_or, or_true, ho, hp]

theorem raiseRails_only {pts : List Part} {s₀ : State} (s : State) (ho : Moves pts s₀ s) (hp : [.out, .power] ⊆
      pts) :
    Moves pts s₀ (raiseRails s) := by
  simp only [List.cons_subset, List.nil_subset, and_true] at hp
  unfold raiseRails
  simp (maxDischargeDepth := 80) only [FuseMoves.refl, imp_self, Moves.upd, List.cons_subset, List.nil_subset,
      and_true, true_or, or_true, and_self, State_emit_only, ho, hp]

theorem dropRails_only {pts : List Part} {s₀ : State} (s : State) (ho : Moves pts s₀ s) (hp : [.out, .power] ⊆ pts)
      :
    Moves pts s₀ (dropRails s) := by
  simp only [List.cons_subset, List.nil_subset, and_true] at hp
  unfold dropRails
  simp (maxDischargeDepth := 80) only [FuseMoves.refl, imp_self, Moves.upd, List.cons_subset, List.nil_subset,
      and_true, true_or, or_true, and_self, State_emit_only, ho, hp]

theorem startSequence_only {pts : List Part} {s₀ : State} (s : State) (ho : Moves pts s₀ s) (hp : [.regs, .out,
      .power, .time, .fuse, .boot] ⊆ pts) :
    Moves pts s₀ (startSequence s) := by
  simp only [List.cons_subset, List.nil_subset, and_true] at hp
  unfold startSequence
  simp (maxDischargeDepth := 80) only [Moves.ite_iff, List.cons_subset, List.nil_subset, implies_true, and_self,
      raiseRails_only, senseFuses_only, setPhase_only, ho, hp]

theorem coldStart_only {pts : List Part} {s₀ : State} (pkgId : BitVec 6) (anchorEn : Bool) (s : State) (ho : Moves
      pts s₀ s) (hp : [.out, .power] ⊆ pts) :
    Moves pts s₀ (coldStart pkgId anchorEn s) := by
  simp only [List.cons_subset, List.nil_subset, and_true] at hp
  unfold coldStart
  (repeat' split) <;> simp (maxDischargeDepth := 80) only [FuseMoves.refl, imp_self, Moves.upd, List.cons_subset,
      List.nil_subset, and_true, true_or, or_true, and_self, State_emit_only, raiseRails_only, ho, hp]

theorem strapResample_only {pts : List Part} {s₀ : State} (pkgId : BitVec 6) (anchorEn : Bool) (s : State) (ho :
      Moves pts s₀ s) (hp : [.regs, .out, .power, .host] ⊆ pts) :
    Moves pts s₀ (strapResample pkgId anchorEn s) := by
  simp only [List.cons_subset, List.nil_subset, and_true] at hp
  unfold strapResample
  (repeat' split) <;> simp (maxDischargeDepth := 80) only [FuseMoves.refl, imp_self, Moves.ite_iff, Moves.upd,
      List.cons_subset, List.nil_subset, and_true, true_or, or_true, implies_true, and_self, postEvent_only, ho, hp]

theorem setPgood_only {pts : List Part} {s₀ : State} (g : RailGroup) (s : State) (ho : Moves pts s₀ s) (hp :
      [.power, .wfe] ⊆ pts) :
    Moves pts s₀ (setPgood g s) := by
  simp only [List.cons_subset, List.nil_subset, and_true] at hp
  unfold setPgood
  (repeat' split) <;> simp (maxDischargeDepth := 80) only [FuseMoves.refl, imp_self, Moves.upd, and_true, true_or,
      or_true, ho, hp]

theorem pgoodRise_only {pts : List Part} {s₀ : State} (g : RailGroup) (s : State) (ho : Moves pts s₀ s) (hp :
      [.regs, .out, .power, .time, .wfe, .fuse, .boot] ⊆ pts) :
    Moves pts s₀ (pgoodRise g s) := by
  simp only [List.cons_subset, List.nil_subset, and_true] at hp
  unfold pgoodRise
  repeat' first
    | split
    | simp (maxDischargeDepth := 80) only [Moves.ite_iff, List.cons_subset, List.nil_subset, and_true,
      implies_true, and_self, senseFuses_only, setPgood_only, setPhase_only, ho, hp]

theorem railTimeout_only {pts : List Part} {s₀ : State} (g : RailGroup) (s : State) (ho : Moves pts s₀ s) (hp :
      [.out, .power] ⊆ pts) :
    Moves pts s₀ (railTimeout g s) := by
  simp only [List.cons_subset, List.nil_subset, and_true] at hp
  unfold railTimeout
  (repeat' split) <;> simp (maxDischargeDepth := 80) only [FuseMoves.refl, imp_self, Moves.upd, List.cons_subset,
      List.nil_subset, and_true, true_or, or_true, and_self, dropRails_only, setPhase_only, ho, hp]

theorem faultPulses_only {pts : List Part} {s₀ : State} (a0 : Nat) (a1 : State) (ho : Moves pts s₀ a1) (hp : [.out]
      ⊆ pts) :
    Moves pts s₀ (faultPulses a0 a1) := by
  simp only [List.cons_subset, List.nil_subset, and_true] at hp
  induction a0 generalizing a1 with
  | zero =>
    unfold faultPulses
    simp (maxDischargeDepth := 80) only [ho]
  | succ a0 ih =>
    unfold faultPulses
    simp (maxDischargeDepth := 80) only [List.cons_subset, List.nil_subset, and_self, State_emit_only, ih, ho, hp]

theorem faultBeacon_only {pts : List Part} {s₀ : State} (s : State) (ho : Moves pts s₀ s) (hp : [.out] ⊆ pts) :
    Moves pts s₀ (faultBeacon s) := by
  simp only [List.cons_subset, List.nil_subset, and_true] at hp
  unfold faultBeacon
  (repeat' split) <;> simp (maxDischargeDepth := 80) only [Moves.refl, Moves.foldl, List.cons_subset,
      List.nil_subset, implies_true, and_self, State_emit_only, faultPulses_only, ho, hp]

theorem takeSfdp_only {pts : List Part} {s₀ : State} (f : Sfdp) (s : State) (ho : Moves pts s₀ s) (hp : [.regs,
      .boot] ⊆ pts) :
    Moves pts s₀ (takeSfdp f s) := by
  simp only [List.cons_subset, List.nil_subset, and_true] at hp
  unfold takeSfdp
  simp (maxDischargeDepth := 80) only [FuseMoves.refl, imp_self, Moves.ite_iff, Moves.upd, List.cons_subset,
      List.nil_subset, and_true, true_or, or_true, implies_true, and_self, State_setFlag_only, State_setReg_only,
      latch_only, ho, hp]

theorem setLocks_only {pts : List Part} {s₀ : State} (plls : BitVec 3) (s : State) (ho : Moves pts s₀ s) (hp :
      [.regs, .time] ⊆ pts) :
    Moves pts s₀ (setLocks plls s) := by
  simp only [List.cons_subset, List.nil_subset, and_true] at hp
  unfold setLocks
  simp (maxDischargeDepth := 80) only [FuseMoves.refl, imp_self, Moves.ite_iff, Moves.upd, List.cons_subset,
      List.nil_subset, and_true, true_or, or_true, implies_true, and_self, State_setFlag_only, State_setFld_only,
      recomputeBeat_only, ho, hp]

theorem pllLock_only {pts : List Part} {s₀ : State} (plls : BitVec 3) (f : Sfdp) (s : State) (ho : Moves pts s₀ s)
      (hp : [.regs, .power, .time, .boot] ⊆ pts) :
    Moves pts s₀ (pllLock plls f s) := by
  simp only [List.cons_subset, List.nil_subset, and_true] at hp
  unfold pllLock
  (repeat' split) <;> simp (maxDischargeDepth := 80) only [FuseMoves.refl, imp_self, Moves.ite_iff, Moves.upd,
      List.cons_subset, List.nil_subset, and_true, true_or, or_true, implies_true, and_self, setLocks_only,
      setPhase_only, takeSfdp_only, ho, hp]

theorem warmReset_only {pts : List Part} {s₀ : State} (s : State) (ho : Moves pts s₀ s) (hp : [.regs, .out,
      .freeCtr, .power, .time, .basket, .host, .field, .pix, .roi, .wfe, .cores, .knots, .mem, .poison, .serve,
      .fault, .weave, .therm, .fuse, .boot] ⊆ pts) :
    Moves pts s₀ (warmReset s) := by
  simp only [List.cons_subset, List.nil_subset, and_true] at hp
  unfold warmReset
  (repeat' split) <;> simp (maxDischargeDepth := 80) only [List.cons_subset, List.nil_subset, and_self,
      domainReset_only, startSequence_only, ho, hp]

theorem perstAssert_only {pts : List Part} {s₀ : State} (s : State) (ho : Moves pts s₀ s) (hp : [.regs, .out,
      .freeCtr, .power, .time, .basket, .host, .field, .pix, .roi, .wfe, .cores, .knots, .mem, .poison, .serve,
      .fault, .weave, .therm, .fuse, .boot] ⊆ pts) :
    Moves pts s₀ (perstAssert s) := by
  simp only [List.cons_subset, List.nil_subset, and_true] at hp
  unfold perstAssert
  simp (maxDischargeDepth := 80) only [Moves.ite_iff, List.cons_subset, List.nil_subset, implies_true, and_self,
      warmReset_only, ho, hp]

theorem bootReboot_only {pts : List Part} {s₀ : State} (bits : BitVec 4) (s : State) (ho : Moves pts s₀ s) (hp :
      [.regs, .out, .freeCtr, .power, .time, .basket, .host, .field, .pix, .roi, .wfe, .cores, .knots, .mem,
      .poison, .serve, .fault, .weave, .therm, .fuse, .boot] ⊆ pts) :
    Moves pts s₀ (bootReboot bits s) := by
  simp only [List.cons_subset, List.nil_subset, and_true] at hp
  unfold bootReboot
  simp (maxDischargeDepth := 80) only [Moves.ite_iff, List.cons_subset, List.nil_subset, implies_true, and_self,
      refuse_only, warmReset_only, ho, hp]

theorem packageFatal_only {pts : List Part} {s₀ : State} (f : FaultReport) (s : State) (ho : Moves pts s₀ s) (hp :
      [.regs, .out, .freeCtr, .power, .time, .basket, .host, .field, .pix, .roi, .wfe, .cores, .knots, .mem,
      .poison, .serve, .fault, .weave, .therm, .fuse, .boot] ⊆ pts) :
    Moves pts s₀ (packageFatal f s) := by
  simp only [List.cons_subset, List.nil_subset, and_true] at hp
  unfold packageFatal
  (repeat' split) <;> simp (maxDischargeDepth := 80) only [List.cons_subset, List.nil_subset, and_self,
      packageFault_only, startSequence_only, ho, hp]

theorem railFault_only {pts : List Part} {s₀ : State} (s : State) (ho : Moves pts s₀ s) (hp : [.regs, .out,
      .freeCtr, .power, .time, .basket, .host, .field, .pix, .roi, .wfe, .cores, .knots, .mem, .poison, .serve,
      .fault, .weave, .therm, .fuse, .boot] ⊆ pts) :
    Moves pts s₀ (railFault s) := by
  simp only [List.cons_subset, List.nil_subset, and_true] at hp
  unfold railFault
  (repeat' split) <;> simp (maxDischargeDepth := 80) only [List.cons_subset, List.nil_subset, and_self,
      packageFatal_only, ho, hp]

theorem bscanInstruction_only {pts : List Part} {s₀ : State} (ir : BitVec 4) (s : State) (ho : Moves pts s₀ s) (hp
      : [.regs, .out, .freeCtr, .power, .time, .basket, .host, .field, .pix, .roi, .wfe, .cores, .knots, .mem,
      .poison, .serve, .fault, .weave, .therm, .fuse, .boot] ⊆ pts) :
    Moves pts s₀ (bscanInstruction ir s) := by
  simp only [List.cons_subset, List.nil_subset, and_true] at hp
  unfold bscanInstruction
  (repeat' split) <;> simp (maxDischargeDepth := 80) only [FuseMoves.refl, imp_self, Moves.ite_iff, Moves.upd,
      List.cons_subset, List.nil_subset, and_true, true_or, or_true, implies_true, and_self, domainReset_only,
      packageFault_only, ho, hp]

theorem testLogicReset_only {pts : List Part} {s₀ : State} (s : State) (ho : Moves pts s₀ s) (hp : [.regs, .out,
      .power, .time, .fuse, .boot] ⊆ pts) :
    Moves pts s₀ (testLogicReset s) := by
  simp only [List.cons_subset, List.nil_subset, and_true] at hp
  unfold testLogicReset
  repeat' first
    | split
    | simp (maxDischargeDepth := 80) only [FuseMoves.refl, imp_self, Moves.upd, List.cons_subset, List.nil_subset,
      and_true, true_or, or_true, and_self, startSequence_only, ho, hp]

theorem enterDoze_only {pts : List Part} {s₀ : State} (s : State) (ho : Moves pts s₀ s) (hp : [.regs, .power] ⊆
      pts) :
    Moves pts s₀ (enterDoze s) := by
  simp only [List.cons_subset, List.nil_subset, and_true] at hp
  unfold enterDoze
  (repeat' split) <;> simp (maxDischargeDepth := 80) only [List.cons_subset, List.nil_subset, and_self,
      refuse_only, setPhase_only, ho, hp]

theorem enterSlumber_only {pts : List Part} {s₀ : State} (s : State) (ho : Moves pts s₀ s) (hp : [.regs, .power] ⊆
      pts) :
    Moves pts s₀ (enterSlumber s) := by
  simp only [List.cons_subset, List.nil_subset, and_true] at hp
  unfold enterSlumber
  (repeat' split) <;> simp (maxDischargeDepth := 80) only [List.cons_subset, List.nil_subset, and_self,
      refuse_only, setPhase_only, ho, hp]

theorem sleepPorts_only {pts : List Part} {s₀ : State} (s : State) (ho : Moves pts s₀ s) (hp : [.out, .basket] ⊆
      pts) :
    Moves pts s₀ (sleepPorts s) := by
  simp only [List.cons_subset, List.nil_subset, and_true] at hp
  unfold sleepPorts
  simp (maxDischargeDepth := 80) only [Moves.ite_iff, Moves.refl, Moves.foldl, List.cons_subset, List.nil_subset,
      implies_true, and_self, State_emit_only, State_setPort_only, ho, hp]

theorem losePads_only {pts : List Part} {s₀ : State} (s : State) (ho : Moves pts s₀ s) (hp : [.regs, .pix, .wfe,
      .mem, .poison] ⊆ pts) :
    Moves pts s₀ (losePads s) := by
  simp only [List.cons_subset, List.nil_subset, and_true] at hp
  unfold losePads
  simp (maxDischargeDepth := 80) only [wf_filter_iff, FuseMoves.refl, imp_self, Moves.upd, and_true, true_or,
      or_true, and_self, ho, hp]

theorem dozeNow_only {pts : List Part} {s₀ : State} (s : State) (ho : Moves pts s₀ s) (hp : [.regs, .out, .power,
      .time, .pix, .wfe, .mem, .poison] ⊆ pts) :
    Moves pts s₀ (dozeNow s) := by
  simp only [List.cons_subset, List.nil_subset, and_true] at hp
  unfold dozeNow
  simp (maxDischargeDepth := 80) only [FuseMoves.refl, imp_self, Moves.upd, List.cons_subset, List.nil_subset,
      and_true, true_or, or_true, and_self, State_emit_only, State_setFld_only, losePads_only, setPhase_only, ho,
      hp]

theorem slumberNow_only {pts : List Part} {s₀ : State} (s : State) (ho : Moves pts s₀ s) (hp : [.regs, .out,
      .freeCtr, .power, .time, .basket, .host, .field, .pix, .roi, .wfe, .cores, .knots, .mem, .poison, .serve,
      .fault, .weave, .therm, .fuse, .boot] ⊆ pts) :
    Moves pts s₀ (slumberNow s) := by
  simp only [List.cons_subset, List.nil_subset, and_true] at hp
  have h := domainReset_only .slumber s ho (by simp [hp])
  have h0 : smWf resetVal (domainReset .slumber s).regs = true →
      smWf resetVal (smSet 0 (domainReset .slumber s).regs Reg.bootFlash (s.reg Reg.bootFlash)) = true := by
    have e : resetVal Reg.bootFlash = 0 := by decide
    intro x
    have := smSet_wf (k := Reg.bootFlash) (v := s.reg Reg.bootFlash) x
    rwa [e] at this
  refine dropRails_only _ ?_ (by simp [hp])
  exact Moves.upd h (.inr ⟨by simp [hp], h0⟩) (.inl rfl) (.inl rfl) (.inl rfl) (.inl rfl) (.inl rfl) (.inr (by simp
      [hp]))
    (.inr ⟨by simp [hp], id⟩) (.inl rfl) (.inl rfl) (.inl rfl) (.inl rfl) (.inl rfl) (.inl rfl) (.inl rfl) (.inl
      rfl)
    (.inl rfl) (.inl rfl) (.inl rfl) (.inl rfl) (.inl rfl) (.inl rfl) (.inr (by simp [hp]))

theorem entryComplete_only {pts : List Part} {s₀ : State} (s : State) (ho : Moves pts s₀ s) (hp : [.regs, .out,
      .freeCtr, .power, .time, .basket, .host, .field, .pix, .roi, .wfe, .cores, .knots, .mem, .poison, .serve,
      .fault, .weave, .therm, .fuse, .boot] ⊆ pts) :
    Moves pts s₀ (entryComplete s) := by
  simp only [List.cons_subset, List.nil_subset, and_true] at hp
  unfold entryComplete
  (repeat' split) <;> simp (maxDischargeDepth := 80) only [List.cons_subset, List.nil_subset, and_self,
      State_setReg_only, dozeNow_only, sleepPorts_only, slumberNow_only, ho, hp]

theorem floodWake_only {pts : List Part} {s₀ : State} (code : Nat) (s : State) (ho : Moves pts s₀ s) (hp : [.out,
      .basket] ⊆ pts) :
    Moves pts s₀ (floodWake code s) := by
  simp only [List.cons_subset, List.nil_subset, and_true] at hp
  unfold floodWake
  simp (maxDischargeDepth := 80) only [FuseMoves.refl, imp_self, Moves.ite_iff, Moves.upd, Moves.refl, Moves.foldl,
      List.cons_subset, List.nil_subset, and_true, true_or, or_true, implies_true, and_self, State_emit_only, ho,
      hp]

theorem wakeLatch_only {pts : List Part} {s₀ : State} (code : Nat) (s : State) (ho : Moves pts s₀ s) (hp : [.regs,
      .out, .power, .basket] ⊆ pts) :
    Moves pts s₀ (wakeLatch code s) := by
  simp only [List.cons_subset, List.nil_subset, and_true] at hp
  unfold wakeLatch
  (repeat' split) <;> simp (maxDischargeDepth := 80) only [FuseMoves.refl, imp_self, Moves.ite_iff, Moves.upd,
      List.cons_subset, List.nil_subset, and_true, true_or, or_true, implies_true, and_self, State_emit_only,
      State_setFld_only, floodWake_only, raiseRails_only, setPhase_only, ho, hp]

theorem pcieWake_only {pts : List Part} {s₀ : State} (s : State) (ho : Moves pts s₀ s) (hp : [.regs, .out, .power,
      .basket] ⊆ pts) :
    Moves pts s₀ (pcieWake s) := by
  simp only [List.cons_subset, List.nil_subset, and_true] at hp
  unfold pcieWake
  simp (maxDischargeDepth := 80) only [Moves.ite_iff, List.cons_subset, List.nil_subset, implies_true, and_self,
      wakeLatch_only, ho, hp]

theorem wakeTimer_only {pts : List Part} {s₀ : State} (s : State) (ho : Moves pts s₀ s) (hp : [.regs, .out, .power,
      .basket] ⊆ pts) :
    Moves pts s₀ (wakeTimer s) := by
  simp only [List.cons_subset, List.nil_subset, and_true] at hp
  unfold wakeTimer
  simp (maxDischargeDepth := 80) only [Moves.ite_iff, List.cons_subset, List.nil_subset, implies_true, and_self,
      wakeLatch_only, ho, hp]

theorem fieldInputWake_only {pts : List Part} {s₀ : State} (input : Fin 8) (level : Bool) (s : State) (ho : Moves
      pts s₀ s) (hp : [.regs, .out, .power, .basket] ⊆ pts) :
    Moves pts s₀ (fieldInputWake input level s) := by
  simp only [List.cons_subset, List.nil_subset, and_true] at hp
  unfold fieldInputWake
  simp (maxDischargeDepth := 80) only [Moves.ite_iff, List.cons_subset, List.nil_subset, implies_true, and_self,
      wakeLatch_only, ho, hp]

theorem reportTimeout_only {pts : List Part} {s₀ : State} (s : State) (ho : Moves pts s₀ s) (hp : [.regs, .out,
      .power, .host] ⊆ pts) :
    Moves pts s₀ (reportTimeout s) := by
  simp only [List.cons_subset, List.nil_subset, and_true] at hp
  unfold reportTimeout
  simp (maxDischargeDepth := 80) only [FuseMoves.refl, imp_self, Moves.ite_iff, Moves.upd, List.cons_subset,
      List.nil_subset, and_true, true_or, or_true, implies_true, and_self, postEvent_only, ho, hp]

theorem wakeUs_only {pts : List Part} {s₀ : State} (s : State) (ho : Moves pts s₀ s) (hp : [.regs] ⊆ pts) :
    Moves pts s₀ (wakeUs s) := by
  simp only [List.cons_subset, List.nil_subset, and_true] at hp
  unfold wakeUs
  simp (maxDischargeDepth := 80) only [List.cons_subset, List.nil_subset, and_self, State_setFld_only, ho, hp]

theorem leadTime_only {pts : List Part} {s₀ : State} (s : State) (ho : Moves pts s₀ s) (hp : [.regs] ⊆ pts) :
    Moves pts s₀ (leadTime s) := by
  simp only [List.cons_subset, List.nil_subset, and_true] at hp
  unfold leadTime
  simp (maxDischargeDepth := 80) only [List.cons_subset, List.nil_subset, and_self, State_setFlag_only, ho, hp]

theorem wakeComplete_only {pts : List Part} {s₀ : State} (r : SelfTest) (s : State) (ho : Moves pts s₀ s) (hp :
      [.regs, .out, .power, .time, .basket, .host, .boot] ⊆ pts) :
    Moves pts s₀ (wakeComplete r s) := by
  simp only [List.cons_subset, List.nil_subset, and_true] at hp
  unfold wakeComplete
  (repeat' split) <;> simp (maxDischargeDepth := 80) only [FuseMoves.refl, imp_self, Moves.ite_iff, Moves.upd,
      List.cons_subset, List.nil_subset, and_true, true_or, or_true, implies_true, and_self, judgeSelfTest_only,
      leadTime_only, recomputeBeat_only, reportTimeout_only, sendCtrl_only, setPhase_only, wakeUs_only, ho, hp]

theorem dozeWakeComplete_only {pts : List Part} {s₀ : State} (s : State) (ho : Moves pts s₀ s) (hp : [.regs, .out,
      .power, .time, .host] ⊆ pts) :
    Moves pts s₀ (dozeWakeComplete s) := by
  simp only [List.cons_subset, List.nil_subset, and_true] at hp
  unfold dozeWakeComplete
  (repeat' split) <;> simp (maxDischargeDepth := 80) only [List.cons_subset, List.nil_subset, and_self,
      reportTimeout_only, setLocks_only, setPhase_only, wakeUs_only, ho, hp]

theorem storeSensors_only {pts : List Part} {s₀ : State} (p l : List (BitVec 16)) (s : State) (ho : Moves pts s₀ s)
      (hp : [.regs] ⊆ pts) :
    Moves pts s₀ (storeSensors p l s) := by
  simp only [List.cons_subset, List.nil_subset, and_true] at hp
  unfold storeSensors
  simp (maxDischargeDepth := 80) only [Moves.refl, Moves.foldl, List.cons_subset, List.nil_subset, implies_true,
      and_self, State_setFld_only, State_setReg_only, ho, hp]

theorem fallStage_only {pts : List Part} {s₀ : State} (s : State) (ho : Moves pts s₀ s) (hp : [.therm] ⊆ pts) :
    Moves pts s₀ (fallStage s) := by
  simp only [List.cons_subset, List.nil_subset, and_true] at hp
  unfold fallStage
  simp (maxDischargeDepth := 80) only [FuseMoves.refl, imp_self, Moves.upd, and_true, true_or, or_true, ho, hp]

theorem throttle_only {pts : List Part} {s₀ : State} (p l : ℤ) (s : State) (ho : Moves pts s₀ s) (hp : [.regs,
      .out, .host, .therm] ⊆ pts) :
    Moves pts s₀ (throttle p l s) := by
  simp only [List.cons_subset, List.nil_subset, and_true] at hp
  unfold throttle
  simp (maxDischargeDepth := 80) only [FuseMoves.refl, imp_self, Moves.ite_iff, Moves.upd, List.cons_subset,
      List.nil_subset, and_true, true_or, or_true, implies_true, and_self, fallStage_only, postEvent_only, ho, hp]

theorem bandSample_only {pts : List Part} {s₀ : State} (t : ℤ) (s : State) (ho : Moves pts s₀ s) (hp : [.pix] ⊆
      pts) :
    Moves pts s₀ (bandSample t s) := by
  simp only [List.cons_subset, List.nil_subset, and_true] at hp
  unfold bandSample
  simp (maxDischargeDepth := 80) only [FuseMoves.refl, imp_self, Moves.upd, and_true, true_or, or_true, ho, hp]

theorem sensorSample_only {pts : List Part} {s₀ : State} (p l : List (BitVec 16)) (s : State) (ho : Moves pts s₀ s)
      (hp : [.regs, .out, .power, .time, .host, .pix, .therm, .fuse, .boot] ⊆ pts) :
    Moves pts s₀ (sensorSample p l s) := by
  simp only [List.cons_subset, List.nil_subset, and_true] at hp
  unfold sensorSample
  (repeat' split) <;> simp (maxDischargeDepth := 80) only [Moves.ite_iff, List.cons_subset, List.nil_subset,
      implies_true, and_self, bandSample_only, startSequence_only, storeSensors_only, throttle_only, ho, hp]

theorem thermalHalt_only {pts : List Part} {s₀ : State} (c : Code) (s : State) (ho : Moves pts s₀ s) (hp : [.regs,
      .out, .basket, .host, .roi, .cores, .knots, .serve, .fault, .weave] ⊆ pts) :
    Moves pts s₀ (thermalHalt c s) := by
  simp only [List.cons_subset, List.nil_subset, and_true] at hp
  unfold thermalHalt
  simp (maxDischargeDepth := 80) only [Moves.ite_iff, List.cons_subset, List.nil_subset, implies_true, and_self,
      State_bumpSat_only, logFault_only, raiseHalt_only, ho, hp]

theorem thermalAlternate_only {pts : List Part} {s₀ : State} (s : State) (ho : Moves pts s₀ s) (hp : [.regs, .out,
      .basket, .host, .roi, .cores, .knots, .serve, .fault, .weave, .therm] ⊆ pts) :
    Moves pts s₀ (thermalAlternate s) := by
  simp only [List.cons_subset, List.nil_subset, and_true] at hp
  unfold thermalAlternate
  simp (maxDischargeDepth := 80) only [FuseMoves.refl, imp_self, Moves.ite_iff, Moves.upd, List.cons_subset,
      List.nil_subset, and_true, true_or, or_true, implies_true, and_self, postEvent_only, thermalHalt_only, ho, hp]

theorem thermalTrip_only {pts : List Part} {s₀ : State} (s : State) (ho : Moves pts s₀ s) (hp : [.regs, .out,
      .freeCtr, .power, .time, .basket, .host, .field, .pix, .roi, .wfe, .cores, .knots, .mem, .poison, .serve,
      .fault, .weave, .therm, .fuse, .boot] ⊆ pts) :
    Moves pts s₀ (thermalTrip s) := by
  simp only [List.cons_subset, List.nil_subset, and_true] at hp
  unfold thermalTrip
  simp (maxDischargeDepth := 80) only [Moves.ite_iff, Moves.refl, Moves.foldl, List.cons_subset, List.nil_subset,
      implies_true, and_self, State_setPort_only, packageFault_only, ho, hp]

theorem thermalReturn_only {pts : List Part} {s₀ : State} (s : State) (ho : Moves pts s₀ s) (hp : [.regs, .out,
      .basket, .host, .roi, .cores, .knots, .serve, .fault, .weave] ⊆ pts) :
    Moves pts s₀ (thermalReturn s) := by
  simp only [List.cons_subset, List.nil_subset, and_true] at hp
  unfold thermalReturn
  (repeat' split) <;> simp (maxDischargeDepth := 80) only [List.cons_subset, List.nil_subset, and_self,
      thermalHalt_only, ho, hp]

end Sys2Proof.Machine
end

