-- ==== Sys2Proof/Laws/FrameHost.lean ====
section
/-!
SUPPORT. FrameHost.lean: what the ports, the host attachment, flash and the sensing blocks change at most, that
      each keeps
the canonical form, and that none clears a fuse bit: one lemma per operation.
-/

set_option linter.all false

namespace Sys2Proof.Machine

theorem startKeyx_only {pts : List Part} {s₀ : State} (p : Port) (s : State) (ho : Moves pts s₀ s) (hp : [.basket]
      ⊆ pts) :
    Moves pts s₀ (startKeyx p s) := by
  simp only [List.cons_subset, List.nil_subset, and_true] at hp
  unfold startKeyx
  simp (maxDischargeDepth := 80) only [Moves.ite_iff, Moves.refl, Moves.foldl, List.cons_subset, List.nil_subset,
      implies_true, and_self, sendCtrl_only, ho, hp]

theorem newSession_only {pts : List Part} {s₀ : State} (p : Port) (s : State) (ho : Moves pts s₀ s) (hp : [.basket]
      ⊆ pts) :
    Moves pts s₀ (newSession p s) := by
  simp only [List.cons_subset, List.nil_subset, and_true] at hp
  unfold newSession
  simp (maxDischargeDepth := 80) only [FuseMoves.refl, imp_self, Moves.upd, List.cons_subset, List.nil_subset,
      and_true, true_or, or_true, and_self, State_setPort_only, startKeyx_only, ho, hp]

theorem portTrain_only {pts : List Part} {s₀ : State} (p : Port) (s : State) (ho : Moves pts s₀ s) (hp : [.basket]
      ⊆ pts) :
    Moves pts s₀ (portTrain p s) := by
  simp only [List.cons_subset, List.nil_subset, and_true] at hp
  unfold portTrain
  repeat' first
    | split
    | simp (maxDischargeDepth := 80) only [List.cons_subset, List.nil_subset, and_self, State_setPort_only, ho, hp]

theorem portEnable_only {pts : List Part} {s₀ : State} (p : Port) (s : State) (ho : Moves pts s₀ s) (hp : [.regs,
      .basket] ⊆ pts) :
    Moves pts s₀ (portEnable p s) := by
  simp only [List.cons_subset, List.nil_subset, and_true] at hp
  unfold portEnable
  simp (maxDischargeDepth := 80) only [Moves.ite_iff, List.cons_subset, List.nil_subset, implies_true, and_self,
      State_setFlag_only, portTrain_only, ho, hp]

theorem portDisable_only {pts : List Part} {s₀ : State} (p : Port) (s : State) (ho : Moves pts s₀ s) (hp : [.regs,
      .basket] ⊆ pts) :
    Moves pts s₀ (portDisable p s) := by
  simp only [List.cons_subset, List.nil_subset, and_true] at hp
  unfold portDisable
  simp (maxDischargeDepth := 80) only [Moves.ite_iff, List.cons_subset, List.nil_subset, implies_true, and_self,
      State_setFlag_only, State_setPort_only, refuse_only, ho, hp]

theorem trainFail_only {pts : List Part} {s₀ : State} (c : Code) (p : Port) (s : State) (ho : Moves pts s₀ s) (hp :
      [.regs, .out, .basket, .host] ⊆ pts) :
    Moves pts s₀ (trainFail c p s) := by
  simp only [List.cons_subset, List.nil_subset, and_true] at hp
  unfold trainFail
  simp (maxDischargeDepth := 80) only [List.cons_subset, List.nil_subset, and_self, State_setPort_only,
      postEvent_only, ho, hp]

theorem trainingComplete_only {pts : List Part} {s₀ : State} (p : Port) (lanes : BitVec 4) (d : BitVec 8) (peer :
      BitVec 6) (s : State) (ho : Moves pts s₀ s) (hp : [.regs, .out, .basket, .host] ⊆ pts) :
    Moves pts s₀ (trainingComplete p lanes d peer s) := by
  simp only [List.cons_subset, List.nil_subset, and_true] at hp
  unfold trainingComplete
  repeat' first
    | split
    | simp (maxDischargeDepth := 80) only [List.cons_subset, List.nil_subset, and_self, State_setPort_only,
      newSession_only, trainFail_only, ho, hp]

theorem trainRetry_only {pts : List Part} {s₀ : State} (p : Port) (s : State) (ho : Moves pts s₀ s) (hp : [.basket]
      ⊆ pts) :
    Moves pts s₀ (trainRetry p s) := by
  simp only [List.cons_subset, List.nil_subset, and_true] at hp
  unfold trainRetry
  simp (maxDischargeDepth := 80) only [Moves.ite_iff, List.cons_subset, List.nil_subset, implies_true, and_self,
      State_setPort_only, ho, hp]

theorem laneFailure_only {pts : List Part} {s₀ : State} (p : Port) (lane : Fin 4) (hasStatic : Bool) (s : State)
      (ho : Moves pts s₀ s) (hp : [.regs, .out, .basket, .host, .roi, .cores, .knots, .serve, .fault, .weave] ⊆
      pts) :
    Moves pts s₀ (laneFailure p lane hasStatic s) := by
  simp only [List.cons_subset, List.nil_subset, and_true] at hp
  unfold laneFailure
  repeat' first
    | split
    | simp (maxDischargeDepth := 80) only [Moves.ite_iff, List.cons_subset, List.nil_subset, true_and,
      implies_true, and_self, State_setPort_only, weaveFault_only, ho, hp]

theorem retrain_only {pts : List Part} {s₀ : State} (p : Port) (s : State) (ho : Moves pts s₀ s) (hp : [.regs,
      .out, .basket, .host, .roi, .cores, .knots, .serve, .fault, .weave] ⊆ pts) :
    Moves pts s₀ (retrain p s) := by
  simp only [List.cons_subset, List.nil_subset, and_true] at hp
  unfold retrain
  repeat' first
    | split
    | simp (maxDischargeDepth := 80) only [List.cons_subset, List.nil_subset, and_self, State_setPort_only,
      weaveFault_only, ho, hp]

theorem enterRekey_only {pts : List Part} {s₀ : State} (p : Port) (s : State) (ho : Moves pts s₀ s) (hp : [.regs,
      .out, .basket, .host, .roi, .cores, .knots, .serve, .fault, .weave] ⊆ pts) :
    Moves pts s₀ (enterRekey p s) := by
  simp only [List.cons_subset, List.nil_subset, and_true] at hp
  unfold enterRekey
  repeat' first
    | split
    | simp (maxDischargeDepth := 80) only [List.cons_subset, List.nil_subset, and_self, State_setPort_only,
      newSession_only, weaveFault_only, ho, hp]

theorem rekey_only {pts : List Part} {s₀ : State} (p : Port) (s : State) (ho : Moves pts s₀ s) (hp : [.regs, .out,
      .basket, .host, .roi, .cores, .knots, .serve, .fault, .weave] ⊆ pts) :
    Moves pts s₀ (rekey p s) := by
  simp only [List.cons_subset, List.nil_subset, and_true] at hp
  unfold rekey
  simp (maxDischargeDepth := 80) only [Moves.ite_iff, List.cons_subset, List.nil_subset, implies_true, and_self,
      enterRekey_only, ho, hp]

theorem counterWrap_only {pts : List Part} {s₀ : State} (p : Port) (s : State) (ho : Moves pts s₀ s) (hp : [.regs,
      .out, .basket, .host, .roi, .cores, .knots, .serve, .fault, .weave] ⊆ pts) :
    Moves pts s₀ (counterWrap p s) := by
  simp only [List.cons_subset, List.nil_subset, and_true] at hp
  unfold counterWrap
  simp (maxDischargeDepth := 80) only [Moves.ite_iff, List.cons_subset, List.nil_subset, implies_true, and_self,
      enterRekey_only, ho, hp]

theorem keyx_only {pts : List Part} {s₀ : State} (p : Port) (w : LinkWord) (s : State) (ho : Moves pts s₀ s) (hp :
      [.basket] ⊆ pts) :
    Moves pts s₀ (keyx p w s) := by
  simp only [List.cons_subset, List.nil_subset, and_true] at hp
  unfold keyx
  simp (maxDischargeDepth := 80) only [Moves.ite_iff, List.cons_subset, List.nil_subset, implies_true, and_self,
      State_setPort_only, ho, hp]

theorem becomeOutsider_only {pts : List Part} {s₀ : State} (s : State) (ho : Moves pts s₀ s) (hp : [.regs, .out,
      .basket, .host, .roi, .knots, .serve, .fault, .weave] ⊆ pts) :
    Moves pts s₀ (becomeOutsider s) := by
  simp only [List.cons_subset, List.nil_subset, and_true] at hp
  unfold becomeOutsider
  simp (maxDischargeDepth := 80) only [FuseMoves.refl, imp_self, Moves.upd, List.cons_subset, List.nil_subset,
      and_true, true_or, or_true, and_self, State_setFlag_only, quitWeave_only, ho, hp]

theorem keyExchangeDone_only {pts : List Part} {s₀ : State} (p : Port) (ok : Bool) (s : State) (ho : Moves pts s₀
      s) (hp : [.regs, .out, .basket, .host, .roi, .knots, .serve, .fault, .weave] ⊆ pts) :
    Moves pts s₀ (keyExchangeDone p ok s) := by
  simp only [List.cons_subset, List.nil_subset, and_true] at hp
  unfold keyExchangeDone
  simp (maxDischargeDepth := 80) only [Moves.ite_iff, List.cons_subset, List.nil_subset, implies_true, and_self,
      State_setPort_only, becomeOutsider_only, refuse_only, ho, hp]

theorem takeMode_only {pts : List Part} {s₀ : State} (m : Nat) (s : State) (ho : Moves pts s₀ s) (hp : [.regs,
      .basket] ⊆ pts) :
    Moves pts s₀ (takeMode m s) := by
  simp only [List.cons_subset, List.nil_subset, and_true] at hp
  unfold takeMode
  simp (maxDischargeDepth := 80) only [Moves.ite_iff, Moves.refl, Moves.foldl, List.cons_subset, List.nil_subset,
      implies_true, and_self, State_setFld_only, newSession_only, ho, hp]

theorem cryptModeWrite_only {pts : List Part} {s₀ : State} (val : Word) (be : BitVec 4) (s : State) (ho : Moves pts
      s₀ s) (hp : [.regs, .basket] ⊆ pts) :
    Moves pts s₀ (cryptModeWrite val be s) := by
  simp only [List.cons_subset, List.nil_subset, and_true] at hp
  unfold cryptModeWrite
  simp (maxDischargeDepth := 80) only [Moves.ite_iff, List.cons_subset, List.nil_subset, implies_true, and_self,
      refuse_only, takeMode_only, ho, hp]

theorem whisperTimeTx_only {pts : List Part} {s₀ : State} (s : State) (ho : Moves pts s₀ s) (hp : [.out] ⊆ pts) :
    Moves pts s₀ (whisperTimeTx s) := by
  simp only [List.cons_subset, List.nil_subset, and_true] at hp
  unfold whisperTimeTx
  simp (maxDischargeDepth := 80) only [Moves.ite_iff, Moves.refl, Moves.foldl, List.cons_subset, List.nil_subset,
      implies_true, and_self, State_emit_only, ho, hp]

theorem countChk_only {pts : List Part} {s₀ : State} (p : Port) (s : State) (ho : Moves pts s₀ s) (hp : [.regs] ⊆
      pts) :
    Moves pts s₀ (countChk p s) := by
  simp only [List.cons_subset, List.nil_subset, and_true] at hp
  unfold countChk
  simp (maxDischargeDepth := 80) only [List.cons_subset, List.nil_subset, and_self, State_bumpAt_only, ho, hp]

theorem countHdr_only {pts : List Part} {s₀ : State} (p : Port) (s : State) (ho : Moves pts s₀ s) (hp : [.regs] ⊆
      pts) :
    Moves pts s₀ (countHdr p s) := by
  simp only [List.cons_subset, List.nil_subset, and_true] at hp
  unfold countHdr
  simp (maxDischargeDepth := 80) only [List.cons_subset, List.nil_subset, and_self, State_bumpSat_only, ho, hp]

theorem whisperTime_only {pts : List Part} {s₀ : State} (p : Port) (m : WhisperMsg) (s : State) (ho : Moves pts s₀
      s) (hp : [.regs, .time] ⊆ pts) :
    Moves pts s₀ (whisperTime p m s) := by
  simp only [List.cons_subset, List.nil_subset, and_true] at hp
  unfold whisperTime
  simp (maxDischargeDepth := 80) only [FuseMoves.refl, imp_self, Moves.ite_iff, Moves.upd, List.cons_subset,
      List.nil_subset, and_true, true_or, or_true, implies_true, and_self, State_setReg_only, countChk_only, ho, hp]

theorem whisperWake_only {pts : List Part} {s₀ : State} (p : Port) (m : WhisperMsg) (s : State) (ho : Moves pts s₀
      s) (hp : [.regs, .out, .power, .basket] ⊆ pts) :
    Moves pts s₀ (whisperWake p m s) := by
  simp only [List.cons_subset, List.nil_subset, and_true] at hp
  unfold whisperWake
  simp (maxDischargeDepth := 80) only [FuseMoves.refl, imp_self, Moves.ite_iff, Moves.upd, Moves.refl, Moves.foldl,
      List.cons_subset, List.nil_subset, and_true, true_or, or_true, implies_true, and_self, State_emit_only,
      countChk_only, wakeLatch_only, ho, hp]

theorem whisperSleep_only {pts : List Part} {s₀ : State} (p : Port) (m : WhisperMsg) (s : State) (ho : Moves pts s₀
      s) (hp : [.regs, .basket] ⊆ pts) :
    Moves pts s₀ (whisperSleep p m s) := by
  simp only [List.cons_subset, List.nil_subset, and_true] at hp
  unfold whisperSleep
  simp (maxDischargeDepth := 80) only [Moves.ite_iff, List.cons_subset, List.nil_subset, implies_true, and_self,
      State_setPort_only, countChk_only, ho, hp]

theorem whisperPresence_only {pts : List Part} {s₀ : State} (p : Port) (m : WhisperMsg) (s : State) (ho : Moves pts
      s₀ s) (hp : [.regs, .out, .host] ⊆ pts) :
    Moves pts s₀ (whisperPresence p m s) := by
  simp only [List.cons_subset, List.nil_subset, and_true] at hp
  unfold whisperPresence
  simp (maxDischargeDepth := 80) only [Moves.ite_iff, List.cons_subset, List.nil_subset, implies_true, and_self,
      countChk_only, postEvent_only, ho, hp]

theorem followPrincipal_only {pts : List Part} {s₀ : State} (s : State) (ho : Moves pts s₀ s) (hp : [.basket] ⊆
      pts) :
    Moves pts s₀ (followPrincipal s) := by
  simp only [List.cons_subset, List.nil_subset, and_true] at hp
  unfold followPrincipal
  (repeat' split) <;> simp (maxDischargeDepth := 80) only [FuseMoves.refl, imp_self, Moves.upd, and_true, true_or,
      or_true, ho, hp]

theorem dropLostBasket_only {pts : List Part} {s₀ : State} (s : State) (ho : Moves pts s₀ s) (hp : [.regs, .out,
      .basket, .host, .roi, .knots, .serve, .fault, .weave] ⊆ pts) :
    Moves pts s₀ (dropLostBasket s) := by
  simp only [List.cons_subset, List.nil_subset, and_true] at hp
  unfold dropLostBasket
  simp (maxDischargeDepth := 80) only [Moves.ite_iff, List.cons_subset, List.nil_subset, implies_true, and_self,
      becomeOutsider_only, ho, hp]

theorem presenceFlood_only {pts : List Part} {s₀ : State} (s : State) (ho : Moves pts s₀ s) (hp : [.regs, .out,
      .basket, .host, .roi, .knots, .serve, .fault, .weave] ⊆ pts) :
    Moves pts s₀ (presenceFlood s) := by
  simp only [List.cons_subset, List.nil_subset, and_true] at hp
  unfold presenceFlood
  simp (maxDischargeDepth := 80) only [List.cons_subset, List.nil_subset, and_self, dropLostBasket_only,
      floodCtrl_only, followPrincipal_only, ho, hp]

theorem yieldTo_only {pts : List Part} {s₀ : State} (q : Nat) (s : State) (ho : Moves pts s₀ s) (hp : [.regs, .out,
      .basket, .host, .roi, .knots, .serve, .fault, .weave] ⊆ pts) :
    Moves pts s₀ (yieldTo q s) := by
  simp only [List.cons_subset, List.nil_subset, and_true] at hp
  unfold yieldTo
  simp (maxDischargeDepth := 80) only [FuseMoves.refl, imp_self, Moves.ite_iff, Moves.upd, List.cons_subset,
      List.nil_subset, and_true, true_or, or_true, implies_true, and_self, becomeOutsider_only, dropPrincipal_only,
      ho, hp]

theorem presence_only {pts : List Part} {s₀ : State} (p : Port) (w : LinkWord) (s : State) (ho : Moves pts s₀ s)
      (hp : [.regs, .out, .basket, .host, .roi, .knots, .serve, .fault, .weave] ⊆ pts) :
    Moves pts s₀ (presence p w s) := by
  simp only [List.cons_subset, List.nil_subset, and_true] at hp
  unfold presence
  simp (maxDischargeDepth := 80) only [FuseMoves.refl, imp_self, Moves.ite_iff, Moves.upd, List.cons_subset,
      List.nil_subset, and_true, true_or, or_true, implies_true, and_self, floodCtrl_only, followPrincipal_only,
      yieldTo_only, ho, hp]

theorem setMembers_only {pts : List Part} {s₀ : State} (ms : List Member) (s : State) (ho : Moves pts s₀ s) (hp :
      [.regs, .basket] ⊆ pts) :
    Moves pts s₀ (setMembers ms s) := by
  simp only [List.cons_subset, List.nil_subset, and_true] at hp
  unfold setMembers
  simp (maxDischargeDepth := 80) only [FuseMoves.refl, imp_self, Moves.upd, List.cons_subset, List.nil_subset,
      and_true, true_or, or_true, and_self, State_setFld_only, ho, hp]

theorem principalClaim_only {pts : List Part} {s₀ : State} (s : State) (ho : Moves pts s₀ s) (hp : [.regs, .out,
      .basket, .host, .roi, .cores, .knots, .serve, .fault, .weave] ⊆ pts) :
    Moves pts s₀ (principalClaim s) := by
  simp only [List.cons_subset, List.nil_subset, and_true] at hp
  unfold principalClaim
  (repeat' split) <;> simp (maxDischargeDepth := 80) only [FuseMoves.refl, imp_self, Moves.ite_iff, Moves.upd,
      List.cons_subset, List.nil_subset, and_true, true_or, or_true, implies_true, and_self, leadTime_only,
      setMembers_only, weaveFault_only, ho, hp]

theorem joinRetry_only {pts : List Part} {s₀ : State} (s : State) (ho : Moves pts s₀ s) (hp : [.basket] ⊆ pts) :
    Moves pts s₀ (joinRetry s) := by
  simp only [List.cons_subset, List.nil_subset, and_true] at hp
  unfold joinRetry
  (repeat' split) <;> simp (maxDischargeDepth := 80) only [List.cons_subset, List.nil_subset, and_self,
      sendCtrl_only, ho, hp]

theorem join_only {pts : List Part} {s₀ : State} (p : Port) (w : LinkWord) (hops : BitVec 8) (serial : BitVec 64)
      (develop authOk : Bool) (s : State) (ho : Moves pts s₀ s) (hp : [.regs, .basket] ⊆ pts) :
    Moves pts s₀ (join p w hops serial develop authOk s) := by
  simp only [List.cons_subset, List.nil_subset, and_true] at hp
  unfold join
  simp (maxDischargeDepth := 80) only [Moves.ite_iff, List.cons_subset, List.nil_subset, implies_true, and_self,
      latch_only, sendCtrl_only, setMembers_only, ho, hp]

theorem joinReply_only {pts : List Part} {s₀ : State} (p : Port) (w : LinkWord) (mode : BitVec 2) (mult : BitVec 6)
      (spread : BitVec 2) (s : State) (ho : Moves pts s₀ s) (hp : [.regs, .out, .time, .basket, .host, .roi,
      .knots, .serve, .fault, .weave] ⊆ pts) :
    Moves pts s₀ (joinReply p w mode mult spread s) := by
  simp only [List.cons_subset, List.nil_subset, and_true] at hp
  unfold joinReply
  repeat' first
    | split
    | simp (maxDischargeDepth := 80) only [FuseMoves.refl, imp_self, Moves.ite_iff, Moves.upd, List.cons_subset,
      List.nil_subset, and_true, true_or, or_true, implies_true, and_self, State_setFld_only, becomeOutsider_only,
      sendCtrl_only, takeMode_only, ho, hp]

theorem joinSwitch_only {pts : List Part} {s₀ : State} (belt : BitVec 80) (s : State) (ho : Moves pts s₀ s) (hp :
      [.regs, .time, .basket] ⊆ pts) :
    Moves pts s₀ (joinSwitch belt s) := by
  simp only [List.cons_subset, List.nil_subset, and_true] at hp
  unfold joinSwitch
  repeat' first
    | split
    | simp (maxDischargeDepth := 80) only [FuseMoves.refl, imp_self, Moves.ite_iff, Moves.upd, List.cons_subset,
      List.nil_subset, and_true, true_or, or_true, implies_true, and_self, State_setFlag_only, recomputeBeat_only,
      relockTo_only, stepBelt_only, ho, hp]

theorem timeStepWord_only {pts : List Part} {s₀ : State} (p : Port) (w : LinkWord) (s : State) (ho : Moves pts s₀
      s) (hp : [.time, .basket] ⊆ pts) :
    Moves pts s₀ (timeStepWord p w s) := by
  simp only [List.cons_subset, List.nil_subset, and_true] at hp
  unfold timeStepWord
  simp (maxDischargeDepth := 80) only [FuseMoves.refl, imp_self, Moves.ite_iff, Moves.upd, List.cons_subset,
      List.nil_subset, and_true, true_or, or_true, implies_true, and_self, floodTime_only, ho, hp]

theorem timeBeatWord_only {pts : List Part} {s₀ : State} (p : Port) (w : LinkWord) (s : State) (ho : Moves pts s₀
      s) (hp : [.time, .basket] ⊆ pts) :
    Moves pts s₀ (timeBeatWord p w s) := by
  simp only [List.cons_subset, List.nil_subset, and_true] at hp
  unfold timeBeatWord
  simp (maxDischargeDepth := 80) only [Moves.ite_iff, List.cons_subset, List.nil_subset, implies_true, and_self,
      floodTime_only, pushBeat_only, ho, hp]

theorem timeClockWord_only {pts : List Part} {s₀ : State} (p : Port) (w : LinkWord) (s : State) (ho : Moves pts s₀
      s) (hp : [.time, .basket] ⊆ pts) :
    Moves pts s₀ (timeClockWord p w s) := by
  simp only [List.cons_subset, List.nil_subset, and_true] at hp
  unfold timeClockWord
  simp (maxDischargeDepth := 80) only [FuseMoves.refl, imp_self, Moves.ite_iff, Moves.upd, List.cons_subset,
      List.nil_subset, and_true, true_or, or_true, implies_true, and_self, floodTime_only, ho, hp]

theorem winCtlWrite_only {pts : List Part} {s₀ : State} (i : Fin 32) (val : Word) (be : BitVec 4) (s : State) (ho :
      Moves pts s₀ s) (hp : [.regs] ⊆ pts) :
    Moves pts s₀ (winCtlWrite i val be s) := by
  simp only [List.cons_subset, List.nil_subset, and_true] at hp
  unfold winCtlWrite
  simp (maxDischargeDepth := 80) only [Moves.ite_iff, List.cons_subset, List.nil_subset, implies_true, and_self,
      State_setFld_only, refuse_only, ho, hp]

theorem winRefuse_only {pts : List Part} {s₀ : State} (c : Code) (q : RemoteReq) (s : State) (ho : Moves pts s₀ s)
      (hp : [.regs, .out, .basket] ⊆ pts) :
    Moves pts s₀ (winRefuse c q s) := by
  simp only [List.cons_subset, List.nil_subset, and_true] at hp
  unfold winRefuse
  simp (maxDischargeDepth := 80) only [List.cons_subset, List.nil_subset, and_self, State_bumpSat_only, latch_only,
      sendLoose_only, ho, hp]

theorem winCount_only {pts : List Part} {s₀ : State} (i : Nat) (s : State) (ho : Moves pts s₀ s) (hp : [.regs] ⊆
      pts) :
    Moves pts s₀ (winCount i s) := by
  simp only [List.cons_subset, List.nil_subset, and_true] at hp
  unfold winCount
  simp (maxDischargeDepth := 80) only [List.cons_subset, List.nil_subset, and_self, State_bumpSat_only, ho, hp]

theorem queueR_only {pts : List Part} {s₀ : State} (n : Nat) (qs : List RReq) (s : State) (ho : Moves pts s₀ s) (hp
      : [.cores] ⊆ pts) :
    Moves pts s₀ (queueR n qs s) := by
  simp only [List.cons_subset, List.nil_subset, and_true] at hp
  unfold queueR
  simp (maxDischargeDepth := 80) only [List.cons_subset, List.nil_subset, and_self, State_setCore_only, ho, hp]

theorem winWrite_only {pts : List Part} {s₀ : State} (q : RemoteReq) (s : State) (ho : Moves pts s₀ s) (hp :
      [.regs, .out, .basket, .cores, .mem, .poison] ⊆ pts) :
    Moves pts s₀ (winWrite q s) := by
  simp only [List.cons_subset, List.nil_subset, and_true] at hp
  unfold winWrite
  repeat' first
    | split
    | simp (maxDischargeDepth := 80) only [List.cons_subset, List.nil_subset, and_self, queueR_only, winCount_only,
      winRefuse_only, wrMarked_only, ho, hp]

theorem winRead_only {pts : List Part} {s₀ : State} (q : RemoteReq) (s : State) (ho : Moves pts s₀ s) (hp : [.regs,
      .out, .basket, .cores] ⊆ pts) :
    Moves pts s₀ (winRead q s) := by
  simp only [List.cons_subset, List.nil_subset, and_true] at hp
  unfold winRead
  repeat' first
    | split
    | simp (maxDischargeDepth := 80) only [List.cons_subset, List.nil_subset, and_self, queueR_only,
      sendLoose_only, winCount_only, winRefuse_only, ho, hp]

theorem winResp_only {pts : List Part} {s₀ : State} (m : Loose) (s : State) (ho : Moves pts s₀ s) (hp : [.out] ⊆
      pts) :
    Moves pts s₀ (winResp m s) := by
  simp only [List.cons_subset, List.nil_subset, and_true] at hp
  unfold winResp
  simp (maxDischargeDepth := 80) only [Moves.ite_iff, List.cons_subset, List.nil_subset, implies_true, and_self,
      State_emit_only, ho, hp]

theorem winNak_only {pts : List Part} {s₀ : State} (m : Loose) (s : State) (ho : Moves pts s₀ s) (hp : [.regs,
      .out, .host] ⊆ pts) :
    Moves pts s₀ (winNak m s) := by
  simp only [List.cons_subset, List.nil_subset, and_true] at hp
  unfold winNak
  simp (maxDischargeDepth := 80) only [Moves.ite_iff, List.cons_subset, List.nil_subset, implies_true, and_self,
      State_emit_only, postEvent_only, ho, hp]

theorem fwdStart_only {pts : List Part} {s₀ : State} (write : Bool) (s : State) (ho : Moves pts s₀ s) (hp : [.regs,
      .out, .basket] ⊆ pts) :
    Moves pts s₀ (fwdStart write s) := by
  simp only [List.cons_subset, List.nil_subset, and_true] at hp
  unfold fwdStart
  simp (maxDischargeDepth := 80) only [FuseMoves.refl, imp_self, Moves.ite_iff, Moves.upd, List.cons_subset,
      List.nil_subset, and_true, true_or, or_true, implies_true, and_self, State_emit_only, State_setReg_only,
      refuse_only, ho, hp]

theorem fwdEnd_only {pts : List Part} {s₀ : State} (c : Code) (s : State) (ho : Moves pts s₀ s) (hp : [.regs,
      .basket] ⊆ pts) :
    Moves pts s₀ (fwdEnd c s) := by
  simp only [List.cons_subset, List.nil_subset, and_true] at hp
  unfold fwdEnd
  simp (maxDischargeDepth := 80) only [FuseMoves.refl, imp_self, Moves.upd, List.cons_subset, List.nil_subset,
      and_true, true_or, or_true, and_self, State_setReg_only, latch_only, ho, hp]

theorem fwdResponse_only {pts : List Part} {s₀ : State} (c : Code) (data : Word) (s : State) (ho : Moves pts s₀ s)
      (hp : [.regs, .basket] ⊆ pts) :
    Moves pts s₀ (fwdResponse c data s) := by
  simp only [List.cons_subset, List.nil_subset, and_true] at hp
  unfold fwdResponse
  (repeat' split) <;> simp (maxDischargeDepth := 80) only [List.cons_subset, List.nil_subset, and_self,
      State_setReg_only, fwdEnd_only, ho, hp]

theorem fwdTimeout_only {pts : List Part} {s₀ : State} (s : State) (ho : Moves pts s₀ s) (hp : [.regs, .basket] ⊆
      pts) :
    Moves pts s₀ (fwdTimeout s) := by
  simp only [List.cons_subset, List.nil_subset, and_true] at hp
  unfold fwdTimeout
  simp (maxDischargeDepth := 80) only [Moves.ite_iff, List.cons_subset, List.nil_subset, implies_true, and_self,
      fwdEnd_only, ho, hp]

theorem sendPending_only {pts : List Part} {s₀ : State} (s : State) (ho : Moves pts s₀ s) (hp : [.out, .host] ⊆
      pts) :
    Moves pts s₀ (sendPending s) := by
  simp only [List.cons_subset, List.nil_subset, and_true] at hp
  unfold sendPending
  (repeat' split) <;> simp (maxDischargeDepth := 80) [FuseMoves.refl, imp_self, Moves.ite_iff, Moves.upd,
      Moves.refl,
      Moves.foldl, and_true, true_or, or_true, implies_true, and_self, ho, hp]

theorem bar2Write_only {pts : List Part} {s₀ : State} (off : Nat) (val : Word) (be : BitVec 4) (s : State) (ho :
      Moves pts s₀ s) (hp : [.out, .host] ⊆ pts) :
    Moves pts s₀ (bar2Write off val be s) := by
  simp only [List.cons_subset, List.nil_subset, and_true] at hp
  unfold bar2Write
  simp (maxDischargeDepth := 80) only [FuseMoves.refl, imp_self, Moves.ite_iff, Moves.upd, List.cons_subset,
      List.nil_subset, and_true, true_or, or_true, implies_true, and_self, sendPending_only, ho, hp]

theorem msixWrite_only {pts : List Part} {s₀ : State} (w : MsixWrite) (s : State) (ho : Moves pts s₀ s) (hp :
      [.out, .host] ⊆ pts) :
    Moves pts s₀ (msixWrite w s) := by
  simp only [List.cons_subset, List.nil_subset, and_true] at hp
  unfold msixWrite
  (repeat' split) <;> simp (maxDischargeDepth := 80) only [FuseMoves.refl, imp_self, Moves.upd, List.cons_subset,
      List.nil_subset, and_true, true_or, or_true, and_self, bar2Write_only, sendPending_only, ho, hp]

theorem loseRecord_only {pts : List Part} {s₀ : State} (s : State) (id : Word) (ho : Moves pts s₀ s) (hp : [.regs,
      .out, .host, .roi] ⊆ pts) :
    Moves pts s₀ (loseRecord s id) := by
  simp only [List.cons_subset, List.nil_subset, and_true] at hp
  unfold loseRecord
  simp (maxDischargeDepth := 80) only [FuseMoves.refl, imp_self, Moves.upd, List.cons_subset, List.nil_subset,
      and_true, true_or, or_true, and_self, State_bumpSat_only, postEvent_only, ho, hp]

theorem holdRecords_only {pts : List Part} {s₀ : State} (s : State) (ho : Moves pts s₀ s) (hp : [.regs, .out,
      .host, .roi] ⊆ pts) :
    Moves pts s₀ (holdRecords s) := by
  simp only [List.cons_subset, List.nil_subset, and_true] at hp
  unfold holdRecords
  simp (maxDischargeDepth := 80) only [FuseMoves.refl, imp_self, Moves.upd, Moves.refl, Moves.foldl,
      List.cons_subset, List.nil_subset, and_true, true_or, or_true, implies_true, and_self, loseRecord_only, ho,
      hp]

theorem abandonFlights_only {pts : List Part} {s₀ : State} (s : State) (ho : Moves pts s₀ s) (hp : [.host, .serve]
      ⊆ pts) :
    Moves pts s₀ (abandonFlights s) := by
  simp only [List.cons_subset, List.nil_subset, and_true] at hp
  simp only [abandonFlights]
  refine Moves.updServe (Moves.updHost (x := { s.host with flights := [] }) ho hp.1 id) hp.2 (rising_map (fun p
      => ?_))
  split <;> rfl

theorem flr_only {pts : List Part} {s₀ : State} (s : State) (ho : Moves pts s₀ s) (hp : [.regs, .out, .host, .roi,
      .serve] ⊆ pts) :
    Moves pts s₀ (flr s) := by
  simp only [List.cons_subset, List.nil_subset, and_true] at hp
  unfold flr
  simp (maxDischargeDepth := 80) only [wf_filter_iff, FuseMoves.refl, imp_self, rising_nil, Moves.ite_iff,
      Moves.upd, List.cons_subset, List.nil_subset, and_true, true_or, or_true, implies_true, and_self,
      abandonFlights_only, holdRecords_only, ho, hp]

theorem clearRingEn_only {pts : List Part} {s₀ : State} (s : State) (ho : Moves pts s₀ s) (hp : [.regs] ⊆ pts) :
    Moves pts s₀ (clearRingEn s) := by
  simp only [List.cons_subset, List.nil_subset, and_true] at hp
  unfold clearRingEn
  simp (maxDischargeDepth := 80) only [Moves.refl, Moves.foldl, List.cons_subset, List.nil_subset, implies_true,
      and_self, State_setFlag_only, ho, hp]

theorem bmeClear_only {pts : List Part} {s₀ : State} (s : State) (ho : Moves pts s₀ s) (hp : [.regs, .out, .host,
      .roi, .serve] ⊆ pts) :
    Moves pts s₀ (bmeClear s) := by
  simp only [List.cons_subset, List.nil_subset, and_true] at hp
  unfold bmeClear
  simp (maxDischargeDepth := 80) only [rising_map_iff, FuseMoves.refl, imp_self, Moves.ite_iff, Moves.upd,
      List.cons_subset, List.nil_subset, and_true, true_or, or_true, implies_true, and_self, abandonFlights_only,
      clearRingEn_only, holdRecords_only, ho, hp]

theorem bmeSet_only {pts : List Part} {s₀ : State} (s : State) (ho : Moves pts s₀ s) (hp : [.out, .host, .weave] ⊆
      pts) :
    Moves pts s₀ (bmeSet s) := by
  simp only [List.cons_subset, List.nil_subset, and_true] at hp
  unfold bmeSet
  simp (maxDischargeDepth := 80) only [FuseMoves.refl, imp_self, Moves.ite_iff, Moves.upd, List.cons_subset,
      List.nil_subset, and_true, true_or, or_true, implies_true, and_self, readImage_only, sendPending_only, ho, hp]

theorem ringCfgWrite_only {pts : List Part} {s₀ : State} (i : Nat) (val : Word) (be : BitVec 4) (s : State) (ho :
      Moves pts s₀ s) (hp : [.regs, .out, .host, .roi] ⊆ pts) :
    Moves pts s₀ (ringCfgWrite i val be s) := by
  simp only [List.cons_subset, List.nil_subset, and_true] at hp
  unfold ringCfgWrite
  simp (maxDischargeDepth := 80) only [Moves.ite_iff, List.cons_subset, List.nil_subset, implies_true, and_self,
      State_setReg_only, State_setRing_only, holdRecords_only, refuse_only, ho, hp]

theorem ringError_only {pts : List Part} {s₀ : State} (c : Code) (i : Nat) (s : State) (ho : Moves pts s₀ s) (hp :
      [.regs, .out, .host, .roi] ⊆ pts) :
    Moves pts s₀ (ringError c i s) := by
  simp only [List.cons_subset, List.nil_subset, and_true] at hp
  unfold ringError
  simp (maxDischargeDepth := 80) only [List.cons_subset, List.nil_subset, and_self, State_setRing_only,
      holdRecords_only, postEvent_only, ho, hp]

theorem doorbellPoll_only {pts : List Part} {s₀ : State} (s : State) (ho : Moves pts s₀ s) (hp : [.out] ⊆ pts) :
    Moves pts s₀ (doorbellPoll s) := by
  simp only [List.cons_subset, List.nil_subset, and_true] at hp
  unfold doorbellPoll
  simp (maxDischargeDepth := 80) only [Moves.ite_iff, Moves.refl, Moves.foldl, List.cons_subset, List.nil_subset,
      implies_true, and_self, State_emit_only, ho, hp]

theorem takeDoorbell_only {pts : List Part} {s₀ : State} (i : Nat) (l : List Byte) (s : State) (ho : Moves pts s₀
      s) (hp : [.regs, .out, .host, .roi] ⊆ pts) :
    Moves pts s₀ (takeDoorbell i l s) := by
  simp only [List.cons_subset, List.nil_subset, and_true] at hp
  unfold takeDoorbell
  simp (maxDischargeDepth := 80) only [FuseMoves.refl, imp_self, Moves.ite_iff, Moves.upd, List.cons_subset,
      List.nil_subset, and_true, true_or, or_true, implies_true, and_self, State_setRing_only, drainWaiting_only,
      ringError_only, ho, hp]

theorem doorbellReadDone_only {pts : List Part} {s₀ : State} (i : Fin 64) (r : HostRead) (s : State) (ho : Moves
      pts s₀ s) (hp : [.regs, .out, .host, .roi] ⊆ pts) :
    Moves pts s₀ (doorbellReadDone i r s) := by
  simp only [List.cons_subset, List.nil_subset, and_true] at hp
  unfold doorbellReadDone
  (repeat' split) <;> simp (maxDischargeDepth := 80) only [Moves.ite_iff, List.cons_subset, List.nil_subset,
      implies_true, and_self, State_bumpSat_only, State_setRing_only, ringError_only, takeDoorbell_only, ho, hp]

theorem descriptorFetch_only {pts : List Part} {s₀ : State} (i : Fin 64) (s : State) (ho : Moves pts s₀ s) (hp :
      [.out, .host] ⊆ pts) :
    Moves pts s₀ (descriptorFetch i s) := by
  simp only [List.cons_subset, List.nil_subset, and_true] at hp
  unfold descriptorFetch
  simp (maxDischargeDepth := 80) only [Moves.ite_iff, List.cons_subset, List.nil_subset, implies_true, and_self,
      State_emit_only, State_setRing_only, ho, hp]

theorem addFlights_only {pts : List Part} {s₀ : State} (i : Fin 64) (a1 : List Desc) (a2 : State) (ho : Moves pts
      s₀ a2) (hp : [.host] ⊆ pts) :
    Moves pts s₀ (addFlights i a1 a2) := by
  simp only [List.cons_subset, List.nil_subset, and_true] at hp
  induction a1 generalizing i a2 with
  | nil =>
    unfold addFlights
    simp (maxDischargeDepth := 80) only [ho]
  | cons y a1 ih =>
    unfold addFlights
    simp (maxDischargeDepth := 80) only [FuseMoves.refl, imp_self, Moves.upd, List.cons_subset, List.nil_subset,
      and_true, true_or, or_true, and_self, State_setRing_only, ih, ho, hp]

theorem descriptorFetchDone_only {pts : List Part} {s₀ : State} (i : Fin 64) (r : FetchResult) (s : State) (ho :
      Moves pts s₀ s) (hp : [.regs, .out, .host, .roi] ⊆ pts) :
    Moves pts s₀ (descriptorFetchDone i r s) := by
  simp only [List.cons_subset, List.nil_subset, and_true] at hp
  unfold descriptorFetchDone
  (repeat' split) <;> simp (maxDischargeDepth := 80) only [Moves.ite_iff, List.cons_subset, List.nil_subset,
      implies_true, and_self, State_setRing_only, addFlights_only, ringError_only, ho, hp]

theorem acceptCmd_only {pts : List Part} {s₀ : State} (f : Flight) (kind : Fin 3) (s : State) (ho : Moves pts s₀ s)
      (hp : [.host, .serve] ⊆ pts) :
    Moves pts s₀ (acceptCmd f kind s) := by
  simp only [List.cons_subset, List.nil_subset, and_true] at hp
  unfold acceptCmd
  simp (maxDischargeDepth := 80) only [rising_set_iff, FuseMoves.refl, imp_self, Moves.upd, List.cons_subset,
      List.nil_subset, and_true, true_or, or_true, and_self, setFlight_only, ho, hp]

theorem judgeStart_only {pts : List Part} {s₀ : State} (f : Flight) (s : State) (ho : Moves pts s₀ s) (hp : [.regs,
      .out, .host, .serve] ⊆ pts) :
    Moves pts s₀ (judgeStart f s) := by
  simp only [List.cons_subset, List.nil_subset, and_true] at hp
  unfold judgeStart
  repeat' first
    | split
    | simp (maxDischargeDepth := 80) only [Moves.ite_iff, List.cons_subset, List.nil_subset, true_and,
      implies_true, and_self, State_emit_only, acceptCmd_only, finishFlight_only, setFlight_only, ho, hp]

theorem forwardFlight_only {pts : List Part} {s₀ : State} (f : Flight) (s : State) (ho : Moves pts s₀ s) (hp :
      [.regs, .out, .host] ⊆ pts) :
    Moves pts s₀ (forwardFlight f s) := by
  simp only [List.cons_subset, List.nil_subset, and_true] at hp
  unfold forwardFlight
  simp (maxDischargeDepth := 80) only [Moves.ite_iff, List.cons_subset, List.nil_subset, implies_true, and_self,
      State_emit_only, finishFlight_only, setFlight_only, ho, hp]

theorem descriptorStart_only {pts : List Part} {s₀ : State} (id : Nat) (s : State) (ho : Moves pts s₀ s) (hp :
      [.regs, .out, .host, .serve] ⊆ pts) :
    Moves pts s₀ (descriptorStart id s) := by
  simp only [List.cons_subset, List.nil_subset, and_true] at hp
  unfold descriptorStart
  (repeat' split) <;> simp (maxDischargeDepth := 80) only [List.cons_subset, List.nil_subset, and_self,
      finishFlight_only, forwardFlight_only, judgeStart_only, setFlight_only, ho, hp]

theorem knotWaitTimeout_only {pts : List Part} {s₀ : State} (id : Nat) (s : State) (ho : Moves pts s₀ s) (hp :
      [.regs, .out, .host] ⊆ pts) :
    Moves pts s₀ (knotWaitTimeout id s) := by
  simp only [List.cons_subset, List.nil_subset, and_true] at hp
  unfold knotWaitTimeout
  (repeat' split) <;> simp (maxDischargeDepth := 80) only [List.cons_subset, List.nil_subset, and_self,
      finishFlight_only, ho, hp]

theorem forwardResend_only {pts : List Part} {s₀ : State} (id : Nat) (s : State) (ho : Moves pts s₀ s) (hp :
      [.regs, .out, .host] ⊆ pts) :
    Moves pts s₀ (forwardResend id s) := by
  simp only [List.cons_subset, List.nil_subset, and_true] at hp
  unfold forwardResend
  (repeat' split) <;> simp (maxDischargeDepth := 80) only [List.cons_subset, List.nil_subset, and_self,
      forwardFlight_only, ho, hp]

theorem forwardedDescriptor_only {pts : List Part} {s₀ : State} (anchor : BitVec 6) (num : Nat) (d : Desc) (limitMs
      : BitVec 16) (s : State) (ho : Moves pts s₀ s) (hp : [.regs, .out, .host] ⊆ pts) :
    Moves pts s₀ (forwardedDescriptor anchor num d limitMs s) := by
  simp only [List.cons_subset, List.nil_subset, and_true] at hp
  unfold forwardedDescriptor
  refine Moves.ite ?_ (Moves.ite ?_ (Moves.updHost ?_ (by simp [hp]) id))
  · exact State_emit_only _ _ (latch_only _ _ _ ho (by simp [hp])) (by simp [hp])
  · exact State_emit_only _ _ ho (by simp [hp])
  · exact State_emit_only _ _ ho (by simp [hp])

theorem takeAnswer_only {pts : List Part} {s₀ : State} (f : Flight) (a : FwdAnswer) (s : State) (ho : Moves pts s₀
      s) (hp : [.regs, .out, .host] ⊆ pts) :
    Moves pts s₀ (takeAnswer f a s) := by
  simp only [List.cons_subset, List.nil_subset, and_true] at hp
  unfold takeAnswer
  (repeat' split) <;> simp (maxDischargeDepth := 80) only [List.cons_subset, List.nil_subset, and_self,
      finishFlight_only, setFlight_only, ho, hp]

theorem forwardedDescriptorAnswer_only {pts : List Part} {s₀ : State} (id : Nat) (a : FwdAnswer) (s : State) (ho :
      Moves pts s₀ s) (hp : [.regs, .out, .host] ⊆ pts) :
    Moves pts s₀ (forwardedDescriptorAnswer id a s) := by
  simp only [List.cons_subset, List.nil_subset, and_true] at hp
  unfold forwardedDescriptorAnswer
  (repeat' split) <;> simp (maxDischargeDepth := 80) only [List.cons_subset, List.nil_subset, and_self,
      takeAnswer_only, ho, hp]

theorem doWork_only {pts : List Part} {s₀ : State} (op id : Nat) (k : Flight → State → State) (s : State) (ho :
      Moves pts s₀ s) (hk : ∀ x0 t, Moves pts t (k x0 t)) :
    Moves pts s₀ (doWork op id k s) := by
  have hk' : ∀ x0 t, Moves pts s₀ t → Moves pts s₀ (k x0 t) := fun x0 t h => h.trans (hk x0 t)
  unfold doWork
  (repeat' split) <;> simp (maxDischargeDepth := 80) only [ho, hk']

theorem withSource_only {pts : List Part} {s₀ : State} (op id : Nat) (addr len : Flight → Nat) (bytes : List Byte)
      (k : Flight → List Byte → State → State) (s : State) (ho : Moves pts s₀ s) (hk : ∀ x0 x1 t, Moves pts t (k x0
      x1 t)) (hp : [.regs, .out, .basket, .host] ⊆ pts) :
    Moves pts s₀ (withSource op id addr len bytes k s) := by
  simp only [List.cons_subset, List.nil_subset, and_true] at hp
  have hk' : ∀ x0 x1 t, Moves pts s₀ t → Moves pts s₀ (k x0 x1 t) := fun x0 x1 t h => h.trans (hk x0 x1 t)
  unfold withSource
  (repeat' split) <;> simp (maxDischargeDepth := 80) only [List.cons_subset, List.nil_subset, and_self,
      finishFlight_only, fwdReads_only, hostGet_only, setFlight_only, ho, hk', hp]

theorem endAfterWrites_only {pts : List Part} {s₀ : State} (f : Flight) (writes : List (Nat × List Byte)) (result :
      Word) (s : State) (ho : Moves pts s₀ s) (hp : [.regs, .out, .basket, .host, .knots] ⊆ pts) :
    Moves pts s₀ (endAfterWrites f writes result s) := by
  simp only [List.cons_subset, List.nil_subset, and_true] at hp
  unfold endAfterWrites
  simp (maxDischargeDepth := 80) only [Moves.ite_iff, Moves.refl, Moves.foldl, List.cons_subset, List.nil_subset,
      implies_true, and_self, completeFlight_only, finishFlight_only, hostPut_only, setFlight_only, ho, hp]

theorem knotSet_only {pts : List Part} {s₀ : State} (f : Flight) (s : State) (ho : Moves pts s₀ s) (hp : [.regs,
      .out, .host, .knots] ⊆ pts) :
    Moves pts s₀ (knotSet f s) := by
  simp only [List.cons_subset, List.nil_subset, and_true] at hp
  unfold knotSet
  simp (maxDischargeDepth := 80) only [FuseMoves.refl, imp_self, Moves.ite_iff, Moves.upd, List.cons_subset,
      List.nil_subset, and_true, true_or, or_true, implies_true, and_self, completeFlight_only, finishFlight_only,
      setKnot_only, ho, hp]

theorem mirror_only {pts : List Part} {s₀ : State} (f : Flight) (s : State) (ho : Moves pts s₀ s) (hp : [.regs,
      .out, .basket, .host, .knots] ⊆ pts) :
    Moves pts s₀ (mirror f s) := by
  simp only [List.cons_subset, List.nil_subset, and_true] at hp
  unfold mirror
  simp (maxDischargeDepth := 80) only [FuseMoves.refl, imp_self, Moves.ite_iff, Moves.upd, List.cons_subset,
      List.nil_subset, and_true, true_or, or_true, implies_true, and_self, completeFlight_only,
      endAfterWrites_only, ho, hp]

theorem mirrorWrite_only {pts : List Part} {s₀ : State} (k : BitVec 17) (s : State) (ho : Moves pts s₀ s) (hp :
      [.regs, .out, .basket, .host] ⊆ pts) :
    Moves pts s₀ (mirrorWrite k s) := by
  simp only [List.cons_subset, List.nil_subset, and_true] at hp
  unfold mirrorWrite
  repeat' first
    | split
    | simp (maxDischargeDepth := 80) only [FuseMoves.refl, imp_self, Moves.ite_iff, Moves.upd, List.cons_subset,
      List.nil_subset, and_true, true_and, true_or, or_true, implies_true, and_self, hostPut_only, ho, hp]

theorem knotSignal_only {pts : List Part} {s₀ : State} (k : BitVec 17) (amount : BitVec 16) (dst : Option (BitVec
      6)) (s : State) (ho : Moves pts s₀ s) (hp : [.basket, .host, .knots] ⊆ pts) :
    Moves pts s₀ (knotSignal k amount dst s) := by
  simp only [List.cons_subset, List.nil_subset, and_true] at hp
  unfold knotSignal
  simp (maxDischargeDepth := 80) only [List.cons_subset, List.nil_subset, and_self, sendKnot_only, ho, hp]

theorem knotWordIn_only {pts : List Part} {s₀ : State} (w : LinkWord) (s : State) (ho : Moves pts s₀ s) (hp :
      [.basket, .host, .knots] ⊆ pts) :
    Moves pts s₀ (knotWordIn w s) := by
  simp only [List.cons_subset, List.nil_subset, and_true] at hp
  unfold knotWordIn
  repeat' first
    | split
    | simp (maxDischargeDepth := 80) only [Moves.ite_iff, List.cons_subset, List.nil_subset, true_and,
      implies_true, and_self, sendCtrl_only, signalKnot_only, ho, hp]

theorem deferredEntryPost_only {pts : List Part} {s₀ : State} (s : State) (ho : Moves pts s₀ s) (hp : [.out, .host]
      ⊆ pts) :
    Moves pts s₀ (deferredEntryPost s) := by
  simp only [List.cons_subset, List.nil_subset, and_true] at hp
  unfold deferredEntryPost
  simp (maxDischargeDepth := 80) only [Moves.ite_iff, List.cons_subset, List.nil_subset, implies_true, and_self,
      postWaiting_only, ho, hp]

theorem stakeEventSend_only {pts : List Part} {s₀ : State} (s : State) (ho : Moves pts s₀ s) (hp : [.regs, .out,
      .basket, .host] ⊆ pts) :
    Moves pts s₀ (stakeEventSend s) := by
  simp only [List.cons_subset, List.nil_subset, and_true] at hp
  unfold stakeEventSend
  (repeat' split) <;> simp (maxDischargeDepth := 80) only [FuseMoves.refl, imp_self, Moves.ite_iff, Moves.upd,
      List.cons_subset, List.nil_subset, and_true, true_or, or_true, implies_true, and_self, sendLoose_only, ho, hp]

theorem coalesceTimeout_only {pts : List Part} {s₀ : State} (i : Fin 64) (s : State) (ho : Moves pts s₀ s) (hp :
      [.out, .host] ⊆ pts) :
    Moves pts s₀ (coalesceTimeout i s) := by
  simp only [List.cons_subset, List.nil_subset, and_true] at hp
  unfold coalesceTimeout
  (repeat' split) <;> simp (maxDischargeDepth := 80) only [Moves.ite_iff, List.cons_subset, List.nil_subset,
      implies_true, and_self, State_setRing_only, fireVector_only, ho, hp]

theorem hostRsp_only {pts : List Part} {s₀ : State} (m : Loose) (payload : List Byte) (s : State) (ho : Moves pts
      s₀ s) (hp : [.regs, .out, .basket] ⊆ pts) :
    Moves pts s₀ (hostRsp m payload s) := by
  simp only [List.cons_subset, List.nil_subset, and_true] at hp
  unfold hostRsp
  simp (maxDischargeDepth := 80) only [List.cons_subset, List.nil_subset, and_self, sendLoose_only, ho, hp]

theorem hostFwdReq_only {pts : List Part} {s₀ : State} (m : Loose) (data : HostRead) (s : State) (ho : Moves pts s₀
      s) (hp : [.regs, .out, .basket, .host] ⊆ pts) :
    Moves pts s₀ (hostFwdReq m data s) := by
  simp only [List.cons_subset, List.nil_subset, and_true] at hp
  unfold hostFwdReq
  (repeat' split) <;> simp (maxDischargeDepth := 80) only [List.cons_subset, List.nil_subset, and_self,
      State_emit_only, enqueueEvent_only, fireFor_only, hostRsp_only, ho, hp]

theorem takeRsp_only {pts : List Part} {s₀ : State} (f : Flight) (q : BitVec 32) (bytes : List Byte) (s : State)
      (ho : Moves pts s₀ s) (hp : [.regs, .out, .host, .knots] ⊆ pts) :
    Moves pts s₀ (takeRsp f q bytes s) := by
  simp only [List.cons_subset, List.nil_subset, and_true] at hp
  unfold takeRsp
  repeat' first
    | split
    | simp (maxDischargeDepth := 80) only [Moves.ite_iff, List.cons_subset, List.nil_subset, implies_true,
      and_self, completeFlight_only, setFlight_only, ho, hp]

theorem hostFwdRsp_only {pts : List Part} {s₀ : State} (m : Loose) (s : State) (ho : Moves pts s₀ s) (hp : [.regs,
      .out, .host, .knots] ⊆ pts) :
    Moves pts s₀ (hostFwdRsp m s) := by
  simp only [List.cons_subset, List.nil_subset, and_true] at hp
  unfold hostFwdRsp
  (repeat' split) <;> simp (maxDischargeDepth := 80) only [List.cons_subset, List.nil_subset, and_self,
      takeRsp_only, ho, hp]

theorem hostFwdTimeout_only {pts : List Part} {s₀ : State} (id : Nat) (s : State) (ho : Moves pts s₀ s) (hp :
      [.regs, .out, .host] ⊆ pts) :
    Moves pts s₀ (hostFwdTimeout id s) := by
  simp only [List.cons_subset, List.nil_subset, and_true] at hp
  unfold hostFwdTimeout
  (repeat' split) <;> simp (maxDischargeDepth := 80) only [List.cons_subset, List.nil_subset, and_self,
      finishFlight_only, ho, hp]

theorem recCfgWrite_only {pts : List Part} {s₀ : State} (val : Word) (be : BitVec 4) (s : State) (ho : Moves pts s₀
      s) (hp : [.regs, .out, .host, .roi] ⊆ pts) :
    Moves pts s₀ (recCfgWrite val be s) := by
  simp only [List.cons_subset, List.nil_subset, and_true] at hp
  unfold recCfgWrite
  simp (maxDischargeDepth := 80) only [FuseMoves.refl, imp_self, Moves.ite_iff, Moves.upd, List.cons_subset,
      List.nil_subset, and_true, true_or, or_true, implies_true, and_self, State_setReg_only, holdRecords_only,
      refuse_only, ho, hp]

theorem putFlash_only {pts : List Part} {s₀ : State} (off : Nat) (bytes : List Byte) (s : State) (ho : Moves pts s₀
      s) (hp : [.flash] ⊆ pts) :
    Moves pts s₀ (putFlash off bytes s) := by
  simp only [List.cons_subset, List.nil_subset, and_true] at hp
  unfold putFlash
  simp (maxDischargeDepth := 80) only [wf_all_iff, FuseMoves.refl, imp_self, Moves.upd, and_true, true_or, or_true,
      and_self, ho, hp]

theorem eraseFlash_only {pts : List Part} {s₀ : State} (off len : Nat) (s : State) (ho : Moves pts s₀ s) (hp :
      [.flash] ⊆ pts) :
    Moves pts s₀ (eraseFlash off len s) := by
  simp only [List.cons_subset, List.nil_subset, and_true] at hp
  unfold eraseFlash
  simp (maxDischargeDepth := 80) only [wf_filter_iff, FuseMoves.refl, imp_self, Moves.upd, and_true, true_or,
      or_true, and_self, ho, hp]

theorem eraseCommit_only {pts : List Part} {s₀ : State} (off len : Nat) (b : Bool) (s : State) (ho : Moves pts s₀
      s) (hp : [.flash] ⊆ pts) :
    Moves pts s₀ (eraseCommit off len b s) := by
  simp only [List.cons_subset, List.nil_subset, and_true] at hp
  unfold eraseCommit
  simp (maxDischargeDepth := 80) only [Moves.ite_iff, List.cons_subset, List.nil_subset, implies_true, and_self,
      eraseFlash_only, ho, hp]

theorem flashErase_only {pts : List Part} {s₀ : State} (f : Flight) (s : State) (ho : Moves pts s₀ s) (hp : [.regs,
      .out, .host, .knots, .flash] ⊆ pts) :
    Moves pts s₀ (flashErase f s) := by
  simp only [List.cons_subset, List.nil_subset, and_true] at hp
  unfold flashErase
  simp (maxDischargeDepth := 80) only [Moves.ite_iff, List.cons_subset, List.nil_subset, implies_true, and_self,
      completeFlight_only, eraseCommit_only, eraseFlash_only, finishFlight_only, ho, hp]

theorem writePages_only {pts : List Part} {s₀ : State} (a0 : List (List Byte)) (a1 a2 : Nat) (a3 : Option Nat) (a4
      : State) (ho : Moves pts s₀ a4) (hp : [.freeCtr, .flash] ⊆ pts) :
    Moves pts s₀ (writePages a0 a1 a2 a3 a4).1 := by
  simp only [List.cons_subset, List.nil_subset, and_true] at hp
  induction a0 generalizing a1 a2 a3 a4 with
  | nil =>
    unfold writePages
    (repeat' split) <;> simp (maxDischargeDepth := 80) only [ho]
  | cons y a0 ih =>
    unfold writePages
    (repeat' split) <;> simp (maxDischargeDepth := 80) only [FuseMoves.refl, imp_self, Moves.upd, List.cons_subset,
      List.nil_subset, and_true, true_or, or_true, and_self, putFlash_only, ih, ho, hp]

theorem flashWrite_only {pts : List Part} {s₀ : State} (src : List Byte) (badPage : Option Nat) (f : Flight) (s :
      State) (ho : Moves pts s₀ s) (hp : [.regs, .out, .freeCtr, .host, .knots, .flash] ⊆ pts) :
    Moves pts s₀ (flashWrite src badPage f s) := by
  simp only [List.cons_subset, List.nil_subset, and_true] at hp
  unfold flashWrite
  simp (maxDischargeDepth := 80) only [Moves.ite_iff, List.cons_subset, List.nil_subset, implies_true, and_self,
      completeFlight_only, finishFlight_only, writePages_only, ho, hp]

theorem commitSlot_only {pts : List Part} {s₀ : State} (b readBackOk : Bool) (f : Flight) (s : State) (ho : Moves
      pts s₀ s) (hp : [.regs, .out, .freeCtr, .host, .knots, .flash] ⊆ pts) :
    Moves pts s₀ (commitSlot b readBackOk f s) := by
  simp only [List.cons_subset, List.nil_subset, and_true] at hp
  unfold commitSlot
  simp (maxDischargeDepth := 80) only [FuseMoves.refl, imp_self, Moves.ite_iff, Moves.upd, List.cons_subset,
      List.nil_subset, and_true, true_or, or_true, implies_true, and_self, completeFlight_only, eraseFlash_only,
      finishFlight_only, putFlash_only, ho, hp]

theorem stewardProgram_only {pts : List Part} {s₀ : State} (w : Nat) (d : Word) (o : FuseOutcome) (s : State) (ho :
      Moves pts s₀ s) (hp : [.regs, .fuse] ⊆ pts) :
    Moves pts s₀ (stewardProgram w d o s).1 := by
  simp only [List.cons_subset, List.nil_subset, and_true] at hp
  unfold stewardProgram
  split
  · exact ho
  · rename_i plan _
    have h := (blowPlan_moves false plan [o] s.fuse).trans (FuseMoves.cmd _ (some ⟨2, BitVec.ofNat 9 w, d, true,
      plan⟩))
    exact fuseEnd_only _ _ _ (Moves.updFuse ho (by simp [hp]) h) (by simp [hp])

theorem programWords_only {pts : List Part} {s₀ : State} (a0 : List (Nat × Word)) (a1 : FuseOutcome) (a2 : State)
      (ho : Moves pts s₀ a2) (hp : [.regs, .fuse] ⊆ pts) :
    Moves pts s₀ (programWords a0 a1 a2).1 := by
  induction a0 generalizing a2 with
  | nil => exact ho
  | cons q l ih =>
    have h := stewardProgram_only q.1 q.2 a1 a2 ho hp
    simp only [programWords]
    split
    · exact ih _ h
    · exact h

theorem applyPatches_only {pts : List Part} {s₀ : State} (a0 : List (List Byte)) (a1 : FuseOutcome) (a2 : Nat) (a3
      : State) (ho : Moves pts s₀ a3) (hp : [.regs, .fuse] ⊆ pts) :
    Moves pts s₀ (applyPatches a0 a1 a2 a3).1 := by
  induction a0 generalizing a2 a3 with
  | nil => exact ho
  | cons e l ih =>
    simp only [applyPatches]
    repeat' split
    · exact ih _ _ ho
    · exact ih _ _ (programWords_only _ _ _ ho hp)
    · exact programWords_only _ _ _ ho hp
    · exact ho

theorem commitPatches_only {pts : List Part} {s₀ : State} (b : Bool) (o : FuseOutcome) (f : Flight) (s : State) (ho
      : Moves pts s₀ s) (hp : [.regs, .out, .host, .knots, .fuse] ⊆ pts) :
    Moves pts s₀ (commitPatches b o f s) := by
  simp only [List.cons_subset, List.nil_subset, and_true] at hp
  unfold commitPatches
  simp (maxDischargeDepth := 80) only [Moves.ite_iff, List.cons_subset, List.nil_subset, implies_true, and_self,
      applyPatches_only, completeFlight_only, finishFlight_only, ho, hp]

theorem imageCommit_only {pts : List Part} {s₀ : State} (readBackOk : Bool) (o : FuseOutcome) (f : Flight) (s :
      State) (ho : Moves pts s₀ s) (hp : [.regs, .out, .freeCtr, .host, .knots, .fuse, .flash] ⊆ pts) :
    Moves pts s₀ (imageCommit readBackOk o f s) := by
  simp only [List.cons_subset, List.nil_subset, and_true] at hp
  unfold imageCommit
  (repeat' split) <;> simp (maxDischargeDepth := 80) only [Moves.ite_iff, List.cons_subset, List.nil_subset,
      implies_true, and_self, commitPatches_only, commitSlot_only, finishFlight_only, ho, hp]

theorem takeRegion_only {pts : List Part} {s₀ : State} (s : State) (e : BitVec 256) (ho : Moves pts s₀ s) (hp :
      [.regs, .out, .host, .roi] ⊆ pts) :
    Moves pts s₀ (takeRegion s e) := by
  simp only [List.cons_subset, List.nil_subset, and_true] at hp
  unfold takeRegion
  (repeat' split) <;> simp (maxDischargeDepth := 80) only [FuseMoves.refl, imp_self, Moves.upd, List.cons_subset,
      List.nil_subset, and_true, true_or, or_true, and_self, State_bumpSat_only, postEvent_only, ho, hp]

theorem regionList_only {pts : List Part} {s₀ : State} (es : List (BitVec 256)) (s : State) (ho : Moves pts s₀ s)
      (hp : [.regs, .out, .host, .roi] ⊆ pts) :
    Moves pts s₀ (regionList es s) := by
  simp only [List.cons_subset, List.nil_subset, and_true] at hp
  unfold regionList
  simp (maxDischargeDepth := 80) only [Moves.ite_iff, Moves.refl, Moves.foldl, List.cons_subset, List.nil_subset,
      implies_true, and_self, State_bumpSat_only, takeRegion_only, ho, hp]

theorem ruleWrite_only {pts : List Part} {s₀ : State} (s : State) (ho : Moves pts s₀ s) (hp : [.regs, .roi] ⊆ pts) :
    Moves pts s₀ (ruleWrite s) := by
  simp only [List.cons_subset, List.nil_subset, and_true] at hp
  unfold ruleWrite
  simp (maxDischargeDepth := 80) only [FuseMoves.refl, imp_self, Moves.ite_iff, Moves.upd, List.cons_subset,
      List.nil_subset, and_true, true_or, or_true, implies_true, and_self, refuse_only, ho, hp]

theorem ruleSwap_only {pts : List Part} {s₀ : State} (s : State) (ho : Moves pts s₀ s) (hp : [.regs, .roi] ⊆ pts) :
    Moves pts s₀ (ruleSwap s) := by
  simp only [List.cons_subset, List.nil_subset, and_true] at hp
  unfold ruleSwap
  simp (maxDischargeDepth := 80) only [FuseMoves.refl, imp_self, Moves.ite_iff, Moves.upd, List.cons_subset,
      List.nil_subset, and_true, true_or, or_true, implies_true, and_self, refuse_only, ho, hp]

theorem ruleRead_only {pts : List Part} {s₀ : State} (s : State) (ho : Moves pts s₀ s) (hp : [.regs] ⊆ pts) :
    Moves pts s₀ (ruleRead s) := by
  simp only [List.cons_subset, List.nil_subset, and_true] at hp
  unfold ruleRead
  simp (maxDischargeDepth := 80) only [List.cons_subset, List.nil_subset, and_self, State_setReg_only, ho, hp]

theorem mapParcels_only {pts : List Part} {s₀ : State} (p : Parcel → Bool) (f : Parcel → Parcel) (s : State) (ho :
      Moves pts s₀ s) (hp : [.roi] ⊆ pts) :
    Moves pts s₀ (mapParcels p f s) := by
  simp only [List.cons_subset, List.nil_subset, and_true] at hp
  unfold mapParcels
  simp (maxDischargeDepth := 80) only [FuseMoves.refl, imp_self, Moves.upd, and_true, true_or, or_true, ho, hp]

theorem newParcel_only {pts : List Part} {s₀ : State} (cmp : Fin 2) (ns : BitVec 64) (pos : Pos) (s : State) (ho :
      Moves pts s₀ s) (hp : [.roi] ⊆ pts) :
    Moves pts s₀ (newParcel cmp ns pos s) := by
  simp only [List.cons_subset, List.nil_subset, and_true] at hp
  unfold newParcel
  simp (maxDischargeDepth := 80) only [FuseMoves.refl, imp_self, Moves.upd, List.cons_subset, List.nil_subset,
      and_true, true_or, or_true, and_self, mapParcels_only, ho, hp]

theorem clearParcel_only {pts : List Part} {s₀ : State} (cmp : Fin 2) (pos : Pos) (s : State) (ho : Moves pts s₀ s)
      (hp : [.roi] ⊆ pts) :
    Moves pts s₀ (clearParcel cmp pos s) := by
  simp only [List.cons_subset, List.nil_subset, and_true] at hp
  unfold clearParcel
  (repeat' split) <;> simp (maxDischargeDepth := 80) only [List.cons_subset, List.nil_subset, and_self,
      mapParcels_only, ho, hp]

theorem takeCrop_only {pts : List Part} {s₀ : State} (m : Matched) (owner : BitVec 6) (id : Word) (s : State) (ho :
      Moves pts s₀ s) (hp : [.regs, .out, .freeCtr, .host, .roi, .mem, .poison] ⊆ pts) :
    Moves pts s₀ (takeCrop m owner id s) := by
  simp only [List.cons_subset, List.nil_subset, and_true] at hp
  unfold takeCrop
  (repeat' split) <;> simp (maxDischargeDepth := 80) only [FuseMoves.refl, imp_self, Moves.upd, List.cons_subset,
      List.nil_subset, and_true, true_or, or_true, and_self, State_bumpSat_only, postEvent_only, wrMarked_only, ho,
      hp]

theorem markMulti_only {pts : List Part} {s₀ : State} (owner : BitVec 6) (id : Word) (multi : Bool) (s : State) (ho
      : Moves pts s₀ s) (hp : [.roi] ⊆ pts) :
    Moves pts s₀ (markMulti owner id multi s) := by
  simp only [List.cons_subset, List.nil_subset, and_true] at hp
  unfold markMulti
  simp (maxDischargeDepth := 80) only [List.cons_subset, List.nil_subset, and_self, mapParcels_only, ho, hp]

theorem cropCut_only {pts : List Part} {s₀ : State} (given : Option (BitVec 6 × Word)) (s : State) (ho : Moves pts
      s₀ s) (hp : [.regs, .out, .freeCtr, .host, .roi, .mem, .poison] ⊆ pts) :
    Moves pts s₀ (cropCut given s) := by
  simp only [List.cons_subset, List.nil_subset, and_true] at hp
  unfold cropCut
  repeat' first
    | split
    | simp (maxDischargeDepth := 80) only [FuseMoves.refl, imp_self, Moves.upd, List.cons_subset, List.nil_subset,
      and_true, true_or, or_true, and_self, markMulti_only, takeCrop_only, ho, hp]

theorem cropDone_only {pts : List Part} {s₀ : State} (slot : BitVec 9) (s : State) (ho : Moves pts s₀ s) (hp :
      [.out, .roi, .mem, .poison] ⊆ pts) :
    Moves pts s₀ (cropDone slot s) := by
  simp only [List.cons_subset, List.nil_subset, and_true] at hp
  unfold cropDone
  (repeat' split) <;> simp (maxDischargeDepth := 80) only [FuseMoves.refl, imp_self, Moves.ite_iff, Moves.upd,
      List.cons_subset, List.nil_subset, and_true, true_or, or_true, implies_true, and_self, State_emit_only,
      wrMem_only, ho, hp]

theorem dropCrop_only {pts : List Part} {s₀ : State} (slot : Nat) (s : State) (ho : Moves pts s₀ s) (hp : [.roi] ⊆
      pts) :
    Moves pts s₀ (dropCrop slot s) := by
  simp only [List.cons_subset, List.nil_subset, and_true] at hp
  unfold dropCrop
  simp (maxDischargeDepth := 80) only [FuseMoves.refl, imp_self, Moves.upd, and_true, true_or, or_true, ho, hp]

theorem cropHoldExpiry_only {pts : List Part} {s₀ : State} (slot : BitVec 9) (fate : CropFate) (s : State) (ho :
      Moves pts s₀ s) (hp : [.roi] ⊆ pts) :
    Moves pts s₀ (cropHoldExpiry slot fate s) := by
  simp only [List.cons_subset, List.nil_subset, and_true] at hp
  unfold cropHoldExpiry
  (repeat' split) <;> simp (maxDischargeDepth := 80) only [List.cons_subset, List.nil_subset, and_self,
      dropCrop_only, ho, hp]

theorem profileExtract_only {pts : List Part} {s₀ : State} (setup : BitVec 2) (w : Fin 8) (parcel : Word) (pb :
      Pos) (s : State) (ho : Moves pts s₀ s) (hp : [.regs, .out] ⊆ pts) :
    Moves pts s₀ (profileExtract setup w parcel pb s) := by
  simp only [List.cons_subset, List.nil_subset, and_true] at hp
  unfold profileExtract
  (repeat' split) <;> simp (maxDischargeDepth := 80) only [Moves.refl, Moves.foldl, List.cons_subset,
      List.nil_subset, implies_true, and_self, State_bumpSat_only, State_emit_only, ho, hp]

theorem fusePoint_only {pts : List Part} {s₀ : State} (s : State) (p : ProfilePoint) (ho : Moves pts s₀ s) (hp :
      [.roi] ⊆ pts) :
    Moves pts s₀ (fusePoint s p) := by
  simp only [List.cons_subset, List.nil_subset, and_true] at hp
  unfold fusePoint
  repeat' first
    | split
    | simp (maxDischargeDepth := 80) only [List.cons_subset, List.nil_subset, and_self, mapParcels_only, ho, hp]

theorem diagCapture_only {pts : List Part} {s₀ : State} (setup : BitVec 2) (s : State) (ho : Moves pts s₀ s) (hp :
      [.regs, .roi] ⊆ pts) :
    Moves pts s₀ (diagCapture setup s) := by
  simp only [List.cons_subset, List.nil_subset, and_true] at hp
  unfold diagCapture
  simp (maxDischargeDepth := 80) only [FuseMoves.refl, imp_self, Moves.ite_iff, Moves.upd, List.cons_subset,
      List.nil_subset, and_true, true_or, or_true, implies_true, and_self, refuse_only, ho, hp]

theorem diagFrame_only {pts : List Part} {s₀ : State} (f : Frame) (base : Nat) (s : State) (ho : Moves pts s₀ s)
      (hp : [.regs, .out, .basket, .host, .roi, .cores, .knots, .serve, .fault, .weave] ⊆ pts) :
    Moves pts s₀ (diagFrame f base s) := by
  simp only [List.cons_subset, List.nil_subset, and_true] at hp
  unfold diagFrame
  simp (maxDischargeDepth := 80) only [FuseMoves.refl, imp_self, Moves.ite_iff, Moves.upd, List.cons_subset,
      List.nil_subset, and_true, true_or, or_true, implies_true, and_self, hostPut_only, refuse_only,
      unitFault_only, ho, hp]

theorem diagWrite_only {pts : List Part} {s₀ : State} (s : State) (ho : Moves pts s₀ s) (hp : [.regs, .out,
      .basket, .host, .roi, .cores, .knots, .serve, .fault, .weave] ⊆ pts) :
    Moves pts s₀ (diagWrite s) := by
  simp only [List.cons_subset, List.nil_subset, and_true] at hp
  unfold diagWrite
  (repeat' split) <;> simp (maxDischargeDepth := 80) only [List.cons_subset, List.nil_subset, and_self,
      diagFrame_only, ho, hp]

theorem coreHostWrite_only {pts : List Part} {s₀ : State} (addr : BitVec 48) (s : State) (ho : Moves pts s₀ s) (hp
      : [.regs, .out] ⊆ pts) :
    Moves pts s₀ (coreHostWrite addr s) := by
  simp only [List.cons_subset, List.nil_subset, and_true] at hp
  unfold coreHostWrite
  simp (maxDischargeDepth := 80) only [Moves.ite_iff, List.cons_subset, List.nil_subset, implies_true, and_self,
      State_emit_only, refuse_only, ho, hp]

theorem State_setWfe_only {pts : List Part} {s₀ : State} (s : State) (w : WfeState) (ho : Moves pts s₀ s) (hp :
      [.wfe] ⊆ pts) :
    Moves pts s₀ (State.setWfe s w) := by
  simp only [List.cons_subset, List.nil_subset, and_true] at hp
  unfold State.setWfe
  simp (maxDischargeDepth := 80) only [FuseMoves.refl, imp_self, Moves.upd, and_true, true_or, or_true, ho, hp]

theorem State_setConv_only {pts : List Part} {s₀ : State} (s : State) (c : Bool) (x : Conv) (ho : Moves pts s₀ s)
      (hp : [.wfe] ⊆ pts) :
    Moves pts s₀ (State.setConv s c x) := by
  simp only [List.cons_subset, List.nil_subset, and_true] at hp
  unfold State.setConv
  simp (maxDischargeDepth := 80) only [List.cons_subset, List.nil_subset, and_self, State_setWfe_only, ho, hp]

theorem pixSnapshot_only {pts : List Part} {s₀ : State} (s : State) (ho : Moves pts s₀ s) (hp : [.pix] ⊆ pts) :
    Moves pts s₀ (pixSnapshot s) := by
  simp only [List.cons_subset, List.nil_subset, and_true] at hp
  unfold pixSnapshot
  simp (maxDischargeDepth := 80) only [FuseMoves.refl, imp_self, Moves.ite_iff, Moves.upd, and_true, true_or,
      or_true, implies_true, and_self, ho, hp]

theorem setSettled_only {pts : List Part} {s₀ : State} (b : Bool) (s : State) (ho : Moves pts s₀ s) (hp : [.wfe] ⊆
      pts) :
    Moves pts s₀ (setSettled b s) := by
  simp only [List.cons_subset, List.nil_subset, and_true] at hp
  unfold setSettled
  simp (maxDischargeDepth := 80) only [List.cons_subset, List.nil_subset, and_self, State_setWfe_only, ho, hp]

theorem wfeStart_only {pts : List Part} {s₀ : State} (s : State) (ho : Moves pts s₀ s) (hp : [.wfe] ⊆ pts) :
    Moves pts s₀ (wfeStart s) := by
  simp only [List.cons_subset, List.nil_subset, and_true] at hp
  unfold wfeStart
  simp (maxDischargeDepth := 80) only [List.cons_subset, List.nil_subset, and_self, State_setWfe_only,
      setSettled_only, ho, hp]

theorem wfeStop_only {pts : List Part} {s₀ : State} (s : State) (ho : Moves pts s₀ s) (hp : [.wfe] ⊆ pts) :
    Moves pts s₀ (wfeStop s) := by
  simp only [List.cons_subset, List.nil_subset, and_true] at hp
  unfold wfeStop
  simp (maxDischargeDepth := 80) only [List.cons_subset, List.nil_subset, and_self, State_setWfe_only, ho, hp]

theorem wfeCtlWrite_only {pts : List Part} {s₀ : State} (val : Word) (be : BitVec 4) (s : State) (ho : Moves pts s₀
      s) (hp : [.regs, .wfe] ⊆ pts) :
    Moves pts s₀ (wfeCtlWrite val be s) := by
  simp only [List.cons_subset, List.nil_subset, and_true] at hp
  unfold wfeCtlWrite
  simp (maxDischargeDepth := 80) only [Moves.ite_iff, List.cons_subset, List.nil_subset, implies_true, and_self,
      State_setReg_only, State_setWfe_only, refuse_only, setSettled_only, wfeStart_only, wfeStop_only, ho, hp]

theorem refSettledTimer_only {pts : List Part} {s₀ : State} (sense : Option Nat) (s : State) (ho : Moves pts s₀ s)
      (hp : [.wfe] ⊆ pts) :
    Moves pts s₀ (refSettledTimer sense s) := by
  simp only [List.cons_subset, List.nil_subset, and_true] at hp
  unfold refSettledTimer
  simp (maxDischargeDepth := 80) only [Moves.ite_iff, List.cons_subset, List.nil_subset, implies_true, and_self,
      setSettled_only, ho, hp]

theorem excTrip_only {pts : List Part} {s₀ : State} (s : State) (ho : Moves pts s₀ s) (hp : [.regs, .out, .host,
      .wfe] ⊆ pts) :
    Moves pts s₀ (excTrip s) := by
  simp only [List.cons_subset, List.nil_subset, and_true] at hp
  unfold excTrip
  simp (maxDischargeDepth := 80) only [Moves.ite_iff, List.cons_subset, List.nil_subset, implies_true, and_self,
      State_setFlag_only, State_setWfe_only, postEvent_only, setSettled_only, ho, hp]

theorem startConv_only {pts : List Part} {s₀ : State} (c beat : Bool) (cmp : Option (Fin 2)) (s : State) (ho :
      Moves pts s₀ s) (hp : [.regs, .wfe] ⊆ pts) :
    Moves pts s₀ (startConv c beat cmp s) := by
  simp only [List.cons_subset, List.nil_subset, and_true] at hp
  unfold startConv
  simp (maxDischargeDepth := 80) only [Moves.ite_iff, List.cons_subset, List.nil_subset, implies_true, and_self,
      State_bumpSat_only, State_setConv_only, ho, hp]

theorem startSource_only {pts : List Part} {s₀ : State} (src : Nat) (cmp : Option (Fin 2)) (s : State) (ho : Moves
      pts s₀ s) (hp : [.regs, .wfe] ⊆ pts) :
    Moves pts s₀ (startSource src cmp s) := by
  simp only [List.cons_subset, List.nil_subset, and_true] at hp
  unfold startSource
  simp (maxDischargeDepth := 80) only [Moves.ite_iff, List.cons_subset, List.nil_subset, implies_true, and_self,
      startConv_only, ho, hp]

theorem softStart_only {pts : List Part} {s₀ : State} (c : Bool) (s : State) (ho : Moves pts s₀ s) (hp : [.regs,
      .wfe] ⊆ pts) :
    Moves pts s₀ (softStart c s) := by
  simp only [List.cons_subset, List.nil_subset, and_true] at hp
  unfold softStart
  simp (maxDischargeDepth := 80) only [Moves.ite_iff, List.cons_subset, List.nil_subset, implies_true, and_self,
      startConv_only, ho, hp]

theorem closeEntry_only {pts : List Part} {s₀ : State} (c : Bool) (s : State) (ho : Moves pts s₀ s) (hp : [.wfe] ⊆
      pts) :
    Moves pts s₀ (closeEntry c s) := by
  simp only [List.cons_subset, List.nil_subset, and_true] at hp
  unfold closeEntry
  simp (maxDischargeDepth := 80) only [Moves.ite_iff, List.cons_subset, List.nil_subset, implies_true, and_self,
      State_setWfe_only, ho, hp]

theorem endRun_only {pts : List Part} {s₀ : State} (c : Bool) (s : State) (ho : Moves pts s₀ s) (hp : [.wfe] ⊆ pts)
      :
    Moves pts s₀ (endRun c s) := by
  simp only [List.cons_subset, List.nil_subset, and_true] at hp
  unfold endRun
  simp (maxDischargeDepth := 80) only [List.cons_subset, List.nil_subset, and_self, State_setConv_only,
      closeEntry_only, ho, hp]

theorem stopRun_only {pts : List Part} {s₀ : State} (c : Bool) (s : State) (ho : Moves pts s₀ s) (hp : [.wfe] ⊆
      pts) :
    Moves pts s₀ (stopRun c s) := by
  simp only [List.cons_subset, List.nil_subset, and_true] at hp
  unfold stopRun
  simp (maxDischargeDepth := 80) only [List.cons_subset, List.nil_subset, and_self, State_setConv_only, ho, hp]

theorem endStopped_only {pts : List Part} {s₀ : State} (s : State) (ho : Moves pts s₀ s) (hp : [.wfe] ⊆ pts) :
    Moves pts s₀ (endStopped s) := by
  simp only [List.cons_subset, List.nil_subset, and_true] at hp
  unfold endStopped
  simp (maxDischargeDepth := 80) only [Moves.ite_iff, List.cons_subset, List.nil_subset, implies_true, and_self,
      endRun_only, ho, hp]

theorem beginPass_only {pts : List Part} {s₀ : State} (c : Bool) (s : State) (ho : Moves pts s₀ s) (hp : [.regs] ⊆
      pts) :
    Moves pts s₀ (beginPass c s) := by
  simp only [List.cons_subset, List.nil_subset, and_true] at hp
  unfold beginPass
  simp (maxDischargeDepth := 80) only [Moves.refl, Moves.foldl, List.cons_subset, List.nil_subset, implies_true,
      and_self, State_setFlag_only, State_setFld_only, ho, hp]

theorem beginEntry_only {pts : List Part} {s₀ : State} (c : Bool) (e at' : Nat) (blank : Bool) (s : State) (ho :
      Moves pts s₀ s) (hp : [.wfe] ⊆ pts) :
    Moves pts s₀ (beginEntry c e at' blank s) := by
  simp only [List.cons_subset, List.nil_subset, and_true] at hp
  unfold beginEntry
  simp (maxDischargeDepth := 80) only [List.cons_subset, List.nil_subset, and_self, State_setConv_only, ho, hp]

theorem runStart_only {pts : List Part} {s₀ : State} (c : Bool) (s : State) (ho : Moves pts s₀ s) (hp : [.regs,
      .wfe] ⊆ pts) :
    Moves pts s₀ (runStart c s) := by
  simp only [List.cons_subset, List.nil_subset, and_true] at hp
  unfold runStart
  repeat' first
    | split
    | simp (maxDischargeDepth := 80) only [List.cons_subset, List.nil_subset, and_self, State_setConv_only,
      beginEntry_only, beginPass_only, endRun_only, refuse_only, ho, hp]

theorem intrude_only {pts : List Part} {s₀ : State} (k : Fin 2) (c : Bool) (s : State) (ho : Moves pts s₀ s) (hp :
      [.regs, .out, .host, .wfe] ⊆ pts) :
    Moves pts s₀ (intrude k c s) := by
  simp only [List.cons_subset, List.nil_subset, and_true] at hp
  unfold intrude
  simp (maxDischargeDepth := 80) only [Moves.ite_iff, List.cons_subset, List.nil_subset, implies_true, and_self,
      State_setConv_only, State_setWfe_only, postEvent_only, ho, hp]

theorem barrierChange_only {pts : List Part} {s₀ : State} (k : Fin 2) (rising : Bool) (ns : BitVec 64) (pos : Pos)
      (s : State) (ho : Moves pts s₀ s) (hp : [.regs, .out, .host, .roi, .wfe] ⊆ pts) :
    Moves pts s₀ (barrierChange k rising ns pos s) := by
  simp only [List.cons_subset, List.nil_subset, and_true] at hp
  unfold barrierChange
  (repeat' split) <;> simp (maxDischargeDepth := 80) only [List.cons_subset, List.nil_subset, and_self,
      clearParcel_only, intrude_only, newParcel_only, ho, hp]

theorem sampleCmp_only {pts : List Part} {s₀ : State} (k uv : Nat) (s : State) (ho : Moves pts s₀ s) (hp : [.wfe] ⊆
      pts) :
    Moves pts s₀ (sampleCmp k uv s) := by
  simp only [List.cons_subset, List.nil_subset, and_true] at hp
  unfold sampleCmp
  simp (maxDischargeDepth := 80) only [Moves.ite_iff, List.cons_subset, List.nil_subset, implies_true, and_self,
      State_setWfe_only, ho, hp]

theorem passCmp_only {pts : List Part} {s₀ : State} (k : Fin 2) (runFp : Nat) (s : State) (ho : Moves pts s₀ s) (hp
      : [.regs, .out, .host, .roi, .wfe] ⊆ pts) :
    Moves pts s₀ (passCmp k runFp s) := by
  simp only [List.cons_subset, List.nil_subset, and_true] at hp
  unfold passCmp
  simp (maxDischargeDepth := 80) only [List.cons_subset, List.nil_subset, and_self, State_hwSet_only,
      State_setReg_only, State_setWfe_only, barrierChange_only, startSource_only, ho, hp]

theorem comparatorChange_only {pts : List Part} {s₀ : State} (k : Fin 2) (uv : Nat) (s : State) (ho : Moves pts s₀
      s) (hp : [.regs, .out, .host, .roi, .wfe] ⊆ pts) :
    Moves pts s₀ (comparatorChange k uv s) := by
  simp only [List.cons_subset, List.nil_subset, and_true] at hp
  unfold comparatorChange
  repeat' first
    | split
    | simp (maxDischargeDepth := 80) only [List.cons_subset, List.nil_subset, and_self, passCmp_only,
      sampleCmp_only, ho, hp]

theorem storeResult_only {pts : List Part} {s₀ : State} (c : Bool) (e num : Nat) (code : ℤ) (flags : BitVec 6)
      (valid : Bool) (s : State) (ho : Moves pts s₀ s) (hp : [.regs] ⊆ pts) :
    Moves pts s₀ (storeResult c e num code flags valid s) := by
  simp only [List.cons_subset, List.nil_subset, and_true] at hp
  unfold storeResult
  simp (maxDischargeDepth := 80) only [List.cons_subset, List.nil_subset, and_self, State_setReg_only, ho, hp]

theorem crossCheck_only {pts : List Part} {s₀ : State} (a b : ℤ) (pa pb : Nat) (same : Bool) (s : State) (ho :
      Moves pts s₀ s) (hp : [.regs, .out, .host, .wfe] ⊆ pts) :
    Moves pts s₀ (crossCheck a b pa pb same s) := by
  simp only [List.cons_subset, List.nil_subset, and_true] at hp
  unfold crossCheck
  simp (maxDischargeDepth := 80) only [Moves.ite_iff, List.cons_subset, List.nil_subset, implies_true, and_self,
      State_bumpSat_only, State_hwSet_only, State_setFlag_only, State_setReg_only, State_setWfe_only,
      postEvent_only, ho, hp]

theorem queueWeight_only {pts : List Part} {s₀ : State} (w : Weight) (s : State) (ho : Moves pts s₀ s) (hp :
      [.regs, .out, .host, .wfe] ⊆ pts) :
    Moves pts s₀ (queueWeight w s) := by
  simp only [List.cons_subset, List.nil_subset, and_true] at hp
  unfold queueWeight
  simp (maxDischargeDepth := 80) only [Moves.ite_iff, List.cons_subset, List.nil_subset, implies_true, and_self,
      State_bumpSat_only, State_setWfe_only, postEvent_only, ho, hp]

theorem computeWeight_only {pts : List Part} {s₀ : State} (a b : ℤ) (fa fb : BitVec 6) (s : State) (ho : Moves pts
      s₀ s) (hp : [.regs, .out, .host, .wfe] ⊆ pts) :
    Moves pts s₀ (computeWeight a b fa fb s) := by
  simp only [List.cons_subset, List.nil_subset, and_true] at hp
  unfold computeWeight
  simp (maxDischargeDepth := 80) only [List.cons_subset, List.nil_subset, and_self, State_setReg_only,
      queueWeight_only, ho, hp]

theorem weightStep_only {pts : List Part} {s₀ : State} (c : Bool) (e j due : Nat) (code : ℤ) (s : State) (ho :
      Moves pts s₀ s) (hp : [.regs, .out, .host, .wfe] ⊆ pts) :
    Moves pts s₀ (weightStep c e j due code s) := by
  simp only [List.cons_subset, List.nil_subset, and_true] at hp
  unfold weightStep
  repeat' first
    | split
    | simp (maxDischargeDepth := 80) only [Moves.ite_iff, List.cons_subset, List.nil_subset, implies_true,
      and_self, State_setConv_only, computeWeight_only, crossCheck_only, ho, hp]

theorem nextEntry_only {pts : List Part} {s₀ : State} (c : Bool) (s : State) (ho : Moves pts s₀ s) (hp : [.regs,
      .wfe] ⊆ pts) :
    Moves pts s₀ (nextEntry c s) := by
  simp only [List.cons_subset, List.nil_subset, and_true] at hp
  unfold nextEntry
  simp (maxDischargeDepth := 80) only [Moves.ite_iff, List.cons_subset, List.nil_subset, implies_true, and_self,
      State_setConv_only, beginEntry_only, beginPass_only, closeEntry_only, endRun_only, ho, hp]

theorem openWire_only {pts : List Part} {s₀ : State} (w : Word) (s : State) (ho : Moves pts s₀ s) (hp : [.regs,
      .out, .host] ⊆ pts) :
    Moves pts s₀ (openWire w s) := by
  simp only [List.cons_subset, List.nil_subset, and_true] at hp
  unfold openWire
  simp (maxDischargeDepth := 80) only [Moves.ite_iff, List.cons_subset, List.nil_subset, implies_true, and_self,
      State_hwSet_only, postEvent_only, ho, hp]

theorem resultWrite_only {pts : List Part} {s₀ : State} (c : Bool) (ints : List Integration) (s : State) (ho :
      Moves pts s₀ s) (hp : [.regs, .out, .host, .wfe] ⊆ pts) :
    Moves pts s₀ (resultWrite c ints s) := by
  simp only [List.cons_subset, List.nil_subset, and_true] at hp
  unfold resultWrite
  simp (maxDischargeDepth := 80) only [Moves.ite_iff, List.cons_subset, List.nil_subset, implies_true, and_self,
      State_setConv_only, nextEntry_only, openWire_only, storeResult_only, weightStep_only, ho, hp]

theorem abortRun_only {pts : List Part} {s₀ : State} (c : Bool) (s : State) (ho : Moves pts s₀ s) (hp : [.regs,
      .wfe] ⊆ pts) :
    Moves pts s₀ (abortRun c s) := by
  simp only [List.cons_subset, List.nil_subset, and_true] at hp
  unfold abortRun
  simp (maxDischargeDepth := 80) only [Moves.ite_iff, List.cons_subset, List.nil_subset, implies_true, and_self,
      endRun_only, storeResult_only, ho, hp]

theorem beginCal_only {pts : List Part} {s₀ : State} (s : State) (ho : Moves pts s₀ s) (hp : [.wfe] ⊆ pts) :
    Moves pts s₀ (beginCal s) := by
  simp only [List.cons_subset, List.nil_subset, and_true] at hp
  unfold beginCal
  simp (maxDischargeDepth := 80) only [List.cons_subset, List.nil_subset, and_self, State_setWfe_only, ho, hp]

theorem rotationDue_only {pts : List Part} {s₀ : State} (s : State) (ho : Moves pts s₀ s) (hp : [.wfe] ⊆ pts) :
    Moves pts s₀ (rotationDue s) := by
  simp only [List.cons_subset, List.nil_subset, and_true] at hp
  unfold rotationDue
  simp (maxDischargeDepth := 80) only [Moves.ite_iff, List.cons_subset, List.nil_subset, implies_true, and_self,
      State_setWfe_only, beginCal_only, ho, hp]

theorem rotationHandover_only {pts : List Part} {s₀ : State} (s : State) (ho : Moves pts s₀ s) (hp : [.wfe] ⊆ pts) :
    Moves pts s₀ (rotationHandover s) := by
  simp only [List.cons_subset, List.nil_subset, and_true] at hp
  unfold rotationHandover
  repeat' first
    | split
    | simp (maxDischargeDepth := 80) only [List.cons_subset, List.nil_subset, and_self, State_setWfe_only,
      beginCal_only, ho, hp]

theorem calibrationDone_only {pts : List Part} {s₀ : State} (ints : List (Fin 8 × Integration × Integration)) (s :
      State) (ho : Moves pts s₀ s) (hp : [.regs, .out, .host, .wfe] ⊆ pts) :
    Moves pts s₀ (calibrationDone ints s) := by
  simp only [List.cons_subset, List.nil_subset, and_true] at hp
  unfold calibrationDone
  refine Moves.ite ho (Moves.ite ?_ (State_setWfe_only _ _ (Moves.foldl (fun t c => ?_) ho) (by simp [hp])))
  · exact postEvent_only _ _ _ (State_setWfe_only _ _ ho (by simp [hp])) (by simp [hp])
  · split
    · exact State_setReg_only _ _ _ (State_setReg_only _ _ _ (Moves.refl _ _) (by simp [hp])) (by simp [hp])
    · exact Moves.refl _ _

theorem State_setStrobe_only {pts : List Part} {s₀ : State} (s : State) (k : Nat) (x : Strobe) (ho : Moves pts s₀
      s) (hp : [.field] ⊆ pts) :
    Moves pts s₀ (State.setStrobe s k x) := by
  simp only [List.cons_subset, List.nil_subset, and_true] at hp
  unfold State.setStrobe
  simp (maxDischargeDepth := 80) only [FuseMoves.refl, imp_self, Moves.upd, and_true, true_or, or_true, ho, hp]

theorem State_setSync_only {pts : List Part} {s₀ : State} (s : State) (j : Nat) (x : Strobe) (ho : Moves pts s₀ s)
      (hp : [.field] ⊆ pts) :
    Moves pts s₀ (State.setSync s j x) := by
  simp only [List.cons_subset, List.nil_subset, and_true] at hp
  unfold State.setSync
  simp (maxDischargeDepth := 80) only [FuseMoves.refl, imp_self, Moves.upd, and_true, true_or, or_true, ho, hp]

theorem driveStrobe_only {pts : List Part} {s₀ : State} (k : Fin 4) (s : State) (ho : Moves pts s₀ s) (hp : [.out]
      ⊆ pts) :
    Moves pts s₀ (driveStrobe k s) := by
  simp only [List.cons_subset, List.nil_subset, and_true] at hp
  unfold driveStrobe
  simp (maxDischargeDepth := 80) only [List.cons_subset, List.nil_subset, and_self, State_emit_only, ho, hp]

theorem driveSync_only {pts : List Part} {s₀ : State} (j : Fin 2) (s : State) (ho : Moves pts s₀ s) (hp : [.out] ⊆
      pts) :
    Moves pts s₀ (driveSync j s) := by
  simp only [List.cons_subset, List.nil_subset, and_true] at hp
  unfold driveSync
  simp (maxDischargeDepth := 80) only [List.cons_subset, List.nil_subset, and_self, State_emit_only, ho, hp]

theorem syncPulse_only {pts : List Part} {s₀ : State} (j at' : Nat) (s : State) (ho : Moves pts s₀ s) (hp :
      [.field] ⊆ pts) :
    Moves pts s₀ (syncPulse j at' s) := by
  simp only [List.cons_subset, List.nil_subset, and_true] at hp
  unfold syncPulse
  simp (maxDischargeDepth := 80) only [List.cons_subset, List.nil_subset, and_self, State_setSync_only, ho, hp]

theorem matchPulses_only {pts : List Part} {s₀ : State} (mask : Nat) (s : State) (ho : Moves pts s₀ s) (hp :
      [.field] ⊆ pts) :
    Moves pts s₀ (matchPulses mask s) := by
  simp only [List.cons_subset, List.nil_subset, and_true] at hp
  unfold matchPulses
  simp (maxDischargeDepth := 80) only [Moves.ite_iff, List.cons_subset, List.nil_subset, implies_true, and_self,
      syncPulse_only, ho, hp]

theorem beatPulses_only {pts : List Part} {s₀ : State} (s : State) (ho : Moves pts s₀ s) (hp : [.field] ⊆ pts) :
    Moves pts s₀ (beatPulses s) := by
  simp only [List.cons_subset, List.nil_subset, and_true] at hp
  unfold beatPulses
  simp (maxDischargeDepth := 80) only [Moves.ite_iff, List.cons_subset, List.nil_subset, implies_true, and_self,
      syncPulse_only, ho, hp]

theorem driveExposing_only {pts : List Part} {s₀ : State} (s : State) (ho : Moves pts s₀ s) (hp : [.out] ⊆ pts) :
    Moves pts s₀ (driveExposing s) := by
  simp only [List.cons_subset, List.nil_subset, and_true] at hp
  unfold driveExposing
  simp (maxDischargeDepth := 80) only [Moves.ite_iff, List.cons_subset, List.nil_subset, implies_true, and_self,
      driveSync_only, ho, hp]

theorem copyLevel_only {pts : List Part} {s₀ : State} (i : Nat) (level : Bool) (s : State) (ho : Moves pts s₀ s)
      (hp : [.field] ⊆ pts) :
    Moves pts s₀ (copyLevel i level s) := by
  simp only [List.cons_subset, List.nil_subset, and_true] at hp
  unfold copyLevel
  simp (maxDischargeDepth := 80) only [FuseMoves.refl, imp_self, Moves.ite_iff, Moves.upd, and_true, true_or,
      or_true, implies_true, and_self, ho, hp]

theorem driveCopies_only {pts : List Part} {s₀ : State} (s : State) (ho : Moves pts s₀ s) (hp : [.out, .field] ⊆
      pts) :
    Moves pts s₀ (driveCopies s) := by
  simp only [List.cons_subset, List.nil_subset, and_true] at hp
  unfold driveCopies
  simp (maxDischargeDepth := 80) only [FuseMoves.refl, imp_self, Moves.ite_iff, Moves.upd, Moves.refl, Moves.foldl,
      List.cons_subset, List.nil_subset, and_true, true_or, or_true, implies_true, and_self, State_emit_only, ho,
      hp]

theorem addStarts_only {pts : List Part} {s₀ : State} (l : List (Nat × Nat)) (s : State) (ho : Moves pts s₀ s) (hp
      : [.field] ⊆ pts) :
    Moves pts s₀ (addStarts l s) := by
  simp only [List.cons_subset, List.nil_subset, and_true] at hp
  unfold addStarts
  simp (maxDischargeDepth := 80) only [Moves.refl, Moves.foldl, List.cons_subset, List.nil_subset, implies_true,
      and_self, State_setStrobe_only, ho, hp]

theorem dropStarts_only {pts : List Part} {s₀ : State} (l : List (Nat × Nat)) (s : State) (ho : Moves pts s₀ s) (hp
      : [.field] ⊆ pts) :
    Moves pts s₀ (dropStarts l s) := by
  simp only [List.cons_subset, List.nil_subset, and_true] at hp
  unfold dropStarts
  simp (maxDischargeDepth := 80) only [Moves.refl, Moves.foldl, List.cons_subset, List.nil_subset, implies_true,
      and_self, State_setStrobe_only, ho, hp]

theorem markRestart_only {pts : List Part} {s₀ : State} (s : State) (ho : Moves pts s₀ s) (hp : [.roi] ⊆ pts) :
    Moves pts s₀ (markRestart s) := by
  simp only [List.cons_subset, List.nil_subset, and_true] at hp
  unfold markRestart
  (repeat' split) <;> simp (maxDischargeDepth := 80) only [List.cons_subset, List.nil_subset, and_self,
      mapParcels_only, ho, hp]

theorem countDropped_only {pts : List Part} {s₀ : State} (reg : Nat) (s : State) (ho : Moves pts s₀ s) (hp :
      [.regs] ⊆ pts) :
    Moves pts s₀ (countDropped reg s) := by
  simp only [List.cons_subset, List.nil_subset, and_true] at hp
  unfold countDropped
  simp (maxDischargeDepth := 80) only [List.cons_subset, List.nil_subset, and_self, State_bumpSat_only, ho, hp]

theorem acceptExposure_only {pts : List Part} {s₀ : State} (e : Exposure) (s : State) (ho : Moves pts s₀ s) (hp :
      [.regs, .pix, .roi] ⊆ pts) :
    Moves pts s₀ (acceptExposure e s) := by
  simp only [List.cons_subset, List.nil_subset, and_true] at hp
  unfold acceptExposure
  simp (maxDischargeDepth := 80) only [FuseMoves.refl, imp_self, Moves.ite_iff, Moves.upd, List.cons_subset,
      List.nil_subset, and_true, true_or, or_true, implies_true, and_self, State_setReg_only, ho, hp]

theorem decideTrigger_only {pts : List Part} {s₀ : State} (src setup mask : Nat) (s : State) (ho : Moves pts s₀ s)
      (hp : [.regs, .field, .pix, .roi] ⊆ pts) :
    Moves pts s₀ (decideTrigger src setup mask s) := by
  simp only [List.cons_subset, List.nil_subset, and_true] at hp
  unfold decideTrigger
  simp (maxDischargeDepth := 80) only [FuseMoves.refl, imp_self, Moves.ite_iff, Moves.upd, List.cons_subset,
      List.nil_subset, and_true, true_or, or_true, implies_true, and_self, acceptExposure_only, addStarts_only,
      countDropped_only, markRestart_only, ho, hp]

theorem uncount_only {pts : List Part} {s₀ : State} (reg : Nat) (s : State) (ho : Moves pts s₀ s) (hp : [.regs] ⊆
      pts) :
    Moves pts s₀ (uncount reg s) := by
  simp only [List.cons_subset, List.nil_subset, and_true] at hp
  unfold uncount
  simp (maxDischargeDepth := 80) only [List.cons_subset, List.nil_subset, and_self, State_hwSet_only, ho, hp]

theorem undoTrigger_only {pts : List Part} {s₀ : State} (t : TrigNow) (s : State) (ho : Moves pts s₀ s) (hp :
      [.regs, .field, .pix, .roi] ⊆ pts) :
    Moves pts s₀ (undoTrigger t s) := by
  simp only [List.cons_subset, List.nil_subset, and_true] at hp
  unfold undoTrigger
  (repeat' split) <;> simp (maxDischargeDepth := 80) only [FuseMoves.refl, imp_self, Moves.ite_iff, Moves.upd,
      List.cons_subset, List.nil_subset, and_true, true_or, or_true, implies_true, and_self, State_setReg_only,
      dropStarts_only, uncount_only, ho, hp]

theorem trigger_only {pts : List Part} {s₀ : State} (src setup mask : Nat) (s : State) (ho : Moves pts s₀ s) (hp :
      [.regs, .field, .pix, .roi] ⊆ pts) :
    Moves pts s₀ (trigger src setup mask s) := by
  simp only [List.cons_subset, List.nil_subset, and_true] at hp
  unfold trigger
  (repeat' split) <;> simp (maxDischargeDepth := 80) only [List.cons_subset, List.nil_subset, and_self,
      decideTrigger_only, undoTrigger_only, ho, hp]

theorem snapWrite_only {pts : List Part} {s₀ : State} (setup : BitVec 2) (s : State) (ho : Moves pts s₀ s) (hp :
      [.regs, .pix] ⊆ pts) :
    Moves pts s₀ (snapWrite setup s) := by
  simp only [List.cons_subset, List.nil_subset, and_true] at hp
  unfold snapWrite
  simp (maxDischargeDepth := 80) only [FuseMoves.refl, imp_self, Moves.ite_iff, Moves.upd, List.cons_subset,
      List.nil_subset, and_true, true_or, or_true, implies_true, and_self, refuse_only, ho, hp]

theorem snapTrigger_only {pts : List Part} {s₀ : State} (wait : Nat) (s : State) (ho : Moves pts s₀ s) (hp :
      [.regs, .field, .pix, .roi] ⊆ pts) :
    Moves pts s₀ (snapTrigger wait s) := by
  simp only [List.cons_subset, List.nil_subset, and_true] at hp
  unfold snapTrigger
  (repeat' split) <;> simp (maxDischargeDepth := 80) only [FuseMoves.refl, imp_self, Moves.upd, List.cons_subset,
      List.nil_subset, and_true, true_or, or_true, and_self, trigger_only, ho, hp]

theorem queueEvent_only {pts : List Part} {s₀ : State} (e : FieldEvent) (s : State) (ho : Moves pts s₀ s) (hp :
      [.regs, .field] ⊆ pts) :
    Moves pts s₀ (queueEvent e s) := by
  simp only [List.cons_subset, List.nil_subset, and_true] at hp
  unfold queueEvent
  simp (maxDischargeDepth := 80) only [FuseMoves.refl, imp_self, Moves.ite_iff, Moves.upd, List.cons_subset,
      List.nil_subset, and_true, true_or, or_true, implies_true, and_self, State_bumpSat_only, ho, hp]

theorem sampleInput_only {pts : List Part} {s₀ : State} (i : Nat) (level : Bool) (s : State) (ho : Moves pts s₀ s)
      (hp : [.field] ⊆ pts) :
    Moves pts s₀ (sampleInput i level s) := by
  simp only [List.cons_subset, List.nil_subset, and_true] at hp
  unfold sampleInput
  simp (maxDischargeDepth := 80) only [FuseMoves.refl, imp_self, Moves.ite_iff, Moves.upd, and_true, true_or,
      or_true, implies_true, and_self, ho, hp]

theorem passInput_only {pts : List Part} {s₀ : State} (i : Nat) (stamp : BitVec 80) (s : State) (ho : Moves pts s₀
      s) (hp : [.regs, .field, .pix, .roi] ⊆ pts) :
    Moves pts s₀ (passInput i stamp s) := by
  simp only [List.cons_subset, List.nil_subset, and_true] at hp
  unfold passInput
  simp (maxDischargeDepth := 80) only [FuseMoves.refl, imp_self, Moves.ite_iff, Moves.upd, List.cons_subset,
      List.nil_subset, and_true, true_or, or_true, implies_true, and_self, copyLevel_only, matchPulses_only,
      queueEvent_only, trigger_only, ho, hp]

theorem fieldInputEdge_only {pts : List Part} {s₀ : State} (i : Fin 8) (level : Bool) (s : State) (ho : Moves pts
      s₀ s) (hp : [.regs, .field, .pix, .roi] ⊆ pts) :
    Moves pts s₀ (fieldInputEdge i level s) := by
  simp only [List.cons_subset, List.nil_subset, and_true] at hp
  unfold fieldInputEdge
  repeat' first
    | split
    | simp (maxDischargeDepth := 80) only [List.cons_subset, List.nil_subset, and_self, passInput_only,
      sampleInput_only, ho, hp]

theorem evqPop_only {pts : List Part} {s₀ : State} (s : State) (ho : Moves pts s₀ s) (hp : [.field] ⊆ pts) :
    Moves pts s₀ (evqPop s).1 := by
  simp only [List.cons_subset, List.nil_subset, and_true] at hp
  unfold evqPop; split
  · exact ho
  · simp (maxDischargeDepth := 80) only [wf_const_iff, wf_reset_iff, wf_filter_iff, wf_all_iff, rising_set_iff,
      FuseMoves.refl, imp_self, smWf_nil, rising_nil, Moves.ite_iff, Moves.upd, Moves.refl, Moves.foldl,
      List.cons_subset, List.nil_subset, and_true, true_and, true_or, or_true, implies_true, and_self,  ho, hp]

theorem matchAdvance_only {pts : List Part} {s₀ : State} (m : Nat) (up : Bool) (s : State) (ho : Moves pts s₀ s)
      (hp : [.regs] ⊆ pts) :
    Moves pts s₀ (matchAdvance m up s) := by
  simp only [List.cons_subset, List.nil_subset, and_true] at hp
  unfold matchAdvance
  simp (maxDischargeDepth := 80) only [Moves.ite_iff, List.cons_subset, List.nil_subset, implies_true, and_self,
      State_setFlag_only, State_setFld_only, State_setReg_only, ho, hp]

theorem matchFire_only {pts : List Part} {s₀ : State} (m : Nat) (up : Bool) (s : State) (ho : Moves pts s₀ s) (hp :
      [.regs, .field, .pix, .roi, .wfe] ⊆ pts) :
    Moves pts s₀ (matchFire m up s) := by
  simp only [List.cons_subset, List.nil_subset, and_true] at hp
  unfold matchFire
  simp (maxDischargeDepth := 80) only [Moves.ite_iff, List.cons_subset, List.nil_subset, implies_true, and_self,
      matchAdvance_only, matchPulses_only, startSource_only, trigger_only, ho, hp]

theorem encoderCount_only {pts : List Part} {s₀ : State} (up : Bool) (s : State) (ho : Moves pts s₀ s) (hp :
      [.regs, .field, .pix, .roi, .wfe] ⊆ pts) :
    Moves pts s₀ (encoderCount up s) := by
  simp only [List.cons_subset, List.nil_subset, and_true] at hp
  unfold encoderCount
  simp (maxDischargeDepth := 80) only [FuseMoves.refl, imp_self, Moves.upd, Moves.refl, Moves.foldl,
      List.cons_subset, List.nil_subset, and_true, true_or, or_true, implies_true, and_self, matchFire_only, ho, hp]

theorem encoderLevels_only {pts : List Part} {s₀ : State} (a b : Bool) (s : State) (ho : Moves pts s₀ s) (hp :
      [.regs, .out, .host, .field, .pix, .roi, .wfe] ⊆ pts) :
    Moves pts s₀ (encoderLevels a b s) := by
  simp only [List.cons_subset, List.nil_subset, and_true] at hp
  unfold encoderLevels
  simp (maxDischargeDepth := 80) only [FuseMoves.refl, imp_self, Moves.ite_iff, Moves.upd, List.cons_subset,
      List.nil_subset, and_true, true_or, or_true, implies_true, and_self, State_bumpSat_only, encoderCount_only,
      postEvent_only, ho, hp]

theorem takeEdge_only {pts : List Part} {s₀ : State} (s : State) (e : EncEdge) (ho : Moves pts s₀ s) (hp : [.regs,
      .out, .host, .field, .pix, .roi, .wfe] ⊆ pts) :
    Moves pts s₀ (takeEdge s e) := by
  simp only [List.cons_subset, List.nil_subset, and_true] at hp
  unfold takeEdge
  (repeat' split) <;> simp (maxDischargeDepth := 80) only [FuseMoves.refl, imp_self, Moves.ite_iff, Moves.upd,
      List.cons_subset, List.nil_subset, and_true, true_or, or_true, implies_true, and_self, encoderLevels_only,
      queueEvent_only, ho, hp]

theorem loadPreset_only {pts : List Part} {s₀ : State} (s : State) (ho : Moves pts s₀ s) (hp : [.field] ⊆ pts) :
    Moves pts s₀ (loadPreset s) := by
  simp only [List.cons_subset, List.nil_subset, and_true] at hp
  unfold loadPreset
  (repeat' split) <;> simp (maxDischargeDepth := 80) only [FuseMoves.refl, imp_self, Moves.upd, and_true, true_or,
      or_true, ho, hp]

theorem encoderCycle_only {pts : List Part} {s₀ : State} (s : State) (ho : Moves pts s₀ s) (hp : [.regs, .out,
      .host, .field, .pix, .roi, .wfe] ⊆ pts) :
    Moves pts s₀ (encoderCycle s) := by
  simp only [List.cons_subset, List.nil_subset, and_true] at hp
  unfold encoderCycle
  simp (maxDischargeDepth := 80) only [FuseMoves.refl, imp_self, Moves.upd, Moves.refl, Moves.foldl,
      List.cons_subset, List.nil_subset, and_true, true_or, or_true, implies_true, and_self, loadPreset_only,
      takeEdge_only, ho, hp]

theorem sampleEdge_only {pts : List Part} {s₀ : State} (ab : Option (Bool × Bool)) (z : Bool) (s : State) (ho :
      Moves pts s₀ s) (hp : [.field] ⊆ pts) :
    Moves pts s₀ (sampleEdge ab z s) := by
  simp only [List.cons_subset, List.nil_subset, and_true] at hp
  unfold sampleEdge
  simp (maxDischargeDepth := 80) only [FuseMoves.refl, imp_self, Moves.upd, and_true, true_or, or_true, ho, hp]

theorem armAt_only {pts : List Part} {s₀ : State} (src : Writer) (s : State) (ho : Moves pts s₀ s) (hp : [.regs,
      .field] ⊆ pts) :
    Moves pts s₀ (armAt src s) := by
  simp only [List.cons_subset, List.nil_subset, and_true] at hp
  unfold armAt
  simp (maxDischargeDepth := 80) only [FuseMoves.refl, imp_self, Moves.ite_iff, Moves.upd, List.cons_subset,
      List.nil_subset, and_true, true_or, or_true, implies_true, and_self, refuse_only, ho, hp]

theorem armZ_only {pts : List Part} {s₀ : State} (src : Writer) (s : State) (ho : Moves pts s₀ s) (hp : [.regs,
      .field] ⊆ pts) :
    Moves pts s₀ (armZ src s) := by
  simp only [List.cons_subset, List.nil_subset, and_true] at hp
  unfold armZ
  simp (maxDischargeDepth := 80) only [FuseMoves.refl, imp_self, Moves.ite_iff, Moves.upd, List.cons_subset,
      List.nil_subset, and_true, true_or, or_true, implies_true, and_self, refuse_only, ho, hp]

theorem encPosRead_only {pts : List Part} {s₀ : State} (s : State) (ho : Moves pts s₀ s) (hp : [.field] ⊆ pts) :
    Moves pts s₀ (encPosRead s).1 := by
  simp only [List.cons_subset, List.nil_subset, and_true] at hp
  simp (maxDischargeDepth := 80) only [wf_const_iff, wf_reset_iff, wf_filter_iff, wf_all_iff, rising_set_iff,
      FuseMoves.refl, imp_self, smWf_nil, rising_nil, Moves.ite_iff, Moves.upd, Moves.refl, Moves.foldl,
      List.cons_subset, List.nil_subset, and_true, true_and, true_or, or_true, implies_true, and_self,  encPosRead,
      ho, hp]

theorem dropTrigger_only {pts : List Part} {s₀ : State} (s : State) (ho : Moves pts s₀ s) (hp : [.regs, .field,
      .pix, .roi] ⊆ pts) :
    Moves pts s₀ (dropTrigger s) := by
  simp only [List.cons_subset, List.nil_subset, and_true] at hp
  unfold dropTrigger
  (repeat' split) <;> simp (maxDischargeDepth := 80) only [FuseMoves.refl, imp_self, Moves.upd, List.cons_subset,
      List.nil_subset, and_true, true_or, or_true, and_self, countDropped_only, undoTrigger_only, ho, hp]

theorem darkCapture_only {pts : List Part} {s₀ : State} (s : State) (ho : Moves pts s₀ s) (hp : [.regs, .out,
      .field, .pix, .roi] ⊆ pts) :
    Moves pts s₀ (darkCapture s) := by
  simp only [List.cons_subset, List.nil_subset, and_true] at hp
  unfold darkCapture
  simp (maxDischargeDepth := 80) only [FuseMoves.refl, imp_self, Moves.ite_iff, Moves.upd, Moves.refl, Moves.foldl,
      List.cons_subset, List.nil_subset, and_true, true_or, or_true, implies_true, and_self, driveStrobe_only,
      dropTrigger_only, refuse_only, ho, hp]

theorem darkCaptureDone_only {pts : List Part} {s₀ : State} (sums : List (Nat × Nat)) (s : State) (ho : Moves pts
      s₀ s) (hp : [.regs, .out, .basket, .host, .pix, .roi, .cores, .knots, .mem, .poison, .serve, .fault, .weave]
      ⊆ pts) :
    Moves pts s₀ (darkCaptureDone sums s) := by
  simp only [List.cons_subset, List.nil_subset, and_true] at hp
  unfold darkCaptureDone
  simp (maxDischargeDepth := 80) only [FuseMoves.refl, imp_self, Moves.ite_iff, Moves.upd, Moves.refl, Moves.foldl,
      List.cons_subset, List.nil_subset, and_true, true_or, or_true, implies_true, and_self, State_setFlag_only,
      driveStrobe_only, engineStore_only, ho, hp]

theorem readoutEnd_only {pts : List Part} {s₀ : State} (rows : List (Nat × List (BitVec 12))) (s : State) (ho :
      Moves pts s₀ s) (hp : [.regs, .out, .basket, .host, .pix, .roi, .cores, .knots, .mem, .poison, .serve,
      .fault, .weave] ⊆ pts) :
    Moves pts s₀ (readoutEnd rows s) := by
  simp only [List.cons_subset, List.nil_subset, and_true] at hp
  unfold readoutEnd
  (repeat' split) <;> simp (maxDischargeDepth := 80) only [FuseMoves.refl, imp_self, Moves.upd, List.cons_subset,
      List.nil_subset, and_true, true_or, or_true, and_self, engineStore_only, ho, hp]

end Sys2Proof.Machine
end

