-- ==== Sys2Proof/Laws/FrameCores.lean ====
section
/-!
SUPPORT. FrameCores.lean: what scratchpads, arrays, converters and PLAIT engines change at most, that each keeps
the canonical form, and that none clears a fuse bit: one lemma per operation.
-/

set_option linter.all false

namespace Sys2Proof.Machine

theorem spLatch_only {pts : List Part} {s₀ : State} (n : Nat) (c : Code) (s : State) (ho : Moves pts s₀ s) (hp :
      [.regs] ⊆ pts) :
    Moves pts s₀ (spLatch n c s) := by
  simp only [List.cons_subset, List.nil_subset, and_true] at hp
  unfold spLatch
  simp (maxDischargeDepth := 80) only [Moves.ite_iff, List.cons_subset, List.nil_subset, implies_true, and_self,
      State_hwSet_only, ho, hp]

theorem spFault_only {pts : List Part} {s₀ : State} (n : Nat) (c : Code) (detail : Nat) (s : State) (ho : Moves pts
      s₀ s) (hp : [.regs, .out, .basket, .host, .roi, .cores, .knots, .serve, .fault, .weave] ⊆ pts) :
    Moves pts s₀ (spFault n c detail s) := by
  simp only [List.cons_subset, List.nil_subset, and_true] at hp
  unfold spFault
  simp (maxDischargeDepth := 80) only [List.cons_subset, List.nil_subset, and_self, spLatch_only, weaveFault_only,
      ho, hp]

theorem useSlot_only {pts : List Part} {s₀ : State} (n : Nat) (p : SpPort) (q : Option (Fin 4)) (cycle : Nat) (s :
      State) (ho : Moves pts s₀ s) (hp : [.cores] ⊆ pts) :
    Moves pts s₀ (useSlot n p q cycle s) := by
  simp only [List.cons_subset, List.nil_subset, and_true] at hp
  unfold useSlot
  (repeat' split) <;> simp (maxDischargeDepth := 80) only [Moves.refl, Moves.foldl, List.cons_subset,
      List.nil_subset, implies_true, and_self, State_setCore_only, ho, hp]

theorem spWrite_only {pts : List Part} {s₀ : State} (n : Nat) (g : SpGeom) (data : Marked) (s : State) (ho : Moves
      pts s₀ s) (hp : [.mem, .poison] ⊆ pts) :
    Moves pts s₀ (spWrite n g data s) := by
  simp only [List.cons_subset, List.nil_subset, and_true] at hp
  unfold spWrite
  (repeat' split) <;> simp (maxDischargeDepth := 80) only [Moves.ite_iff, Moves.refl, Moves.foldl,
      List.cons_subset, List.nil_subset, implies_true, and_self, wrMarked_only, ho, hp]

theorem spCorrected_only {pts : List Part} {s₀ : State} (n row : Nat) (s : State) (ho : Moves pts s₀ s) (hp :
      [.regs] ⊆ pts) :
    Moves pts s₀ (spCorrected n row s) := by
  simp only [List.cons_subset, List.nil_subset, and_true] at hp
  unfold spCorrected
  simp (maxDischargeDepth := 80) only [Moves.ite_iff, List.cons_subset, List.nil_subset, implies_true, and_self,
      State_bumpSat_only, State_setReg_only, ho, hp]

theorem spUncorrectable_only {pts : List Part} {s₀ : State} (n row : Nat) (s : State) (ho : Moves pts s₀ s) (hp :
      [.regs, .out, .basket, .host, .roi, .cores, .knots, .serve, .fault, .weave] ⊆ pts) :
    Moves pts s₀ (spUncorrectable n row s) := by
  simp only [List.cons_subset, List.nil_subset, and_true] at hp
  unfold spUncorrectable
  simp (maxDischargeDepth := 80) only [List.cons_subset, List.nil_subset, and_self, State_setReg_only,
      spFault_only, ho, hp]

theorem spErrors_only {pts : List Part} {s₀ : State} (n : Nat) (r : SpRead) (s : State) (ho : Moves pts s₀ s) (hp :
      [.regs, .out, .basket, .host, .roi, .cores, .knots, .serve, .fault, .weave] ⊆ pts) :
    Moves pts s₀ (spErrors n r s) := by
  simp only [List.cons_subset, List.nil_subset, and_true] at hp
  unfold spErrors
  (repeat' split) <;> simp (maxDischargeDepth := 80) only [List.cons_subset, List.nil_subset, and_self,
      spCorrected_only, spUncorrectable_only, ho, hp]

theorem gWrite_only {pts : List Part} {s₀ : State} (n : Nat) (s : State) (ho : Moves pts s₀ s) (hp : [.cores, .mem,
      .poison] ⊆ pts) :
    Moves pts s₀ (gWrite n s) := by
  simp only [List.cons_subset, List.nil_subset, and_true] at hp
  unfold gWrite
  (repeat' split) <;> simp (maxDischargeDepth := 80) only [List.cons_subset, List.nil_subset, and_self,
      State_setCore_only, wrMarked_only, ho, hp]

theorem gMergeLoad_only {pts : List Part} {s₀ : State} (n : Nat) (ups : List SpUpset) (s : State) (ho : Moves pts
      s₀ s) (hp : [.regs, .out, .basket, .host, .roi, .cores, .knots, .serve, .fault, .weave] ⊆ pts) :
    Moves pts s₀ (gMergeLoad n ups s) := by
  simp only [List.cons_subset, List.nil_subset, and_true] at hp
  unfold gMergeLoad
  (repeat' split) <;> simp (maxDischargeDepth := 80) only [List.cons_subset, List.nil_subset, and_self,
      State_setCore_only, spErrors_only, ho, hp]

theorem gFlush_only {pts : List Part} {s₀ : State} (n : Nat) (s : State) (ho : Moves pts s₀ s) (hp : [.regs, .out,
      .basket, .host, .roi, .cores, .knots, .mem, .poison, .serve, .fault, .weave] ⊆ pts) :
    Moves pts s₀ (gFlush n s) := by
  simp only [List.cons_subset, List.nil_subset, and_true] at hp
  unfold gFlush
  simp (maxDischargeDepth := 80) only [Moves.ite_iff, List.cons_subset, List.nil_subset, implies_true, and_self,
      gMergeLoad_only, gWrite_only, ho, hp]

theorem gBefore_only {pts : List Part} {s₀ : State} (n : Nat) (g : SpGeom) (s : State) (ho : Moves pts s₀ s) (hp :
      [.regs, .out, .basket, .host, .roi, .cores, .knots, .mem, .poison, .serve, .fault, .weave] ⊆ pts) :
    Moves pts s₀ (gBefore n g s) := by
  simp only [List.cons_subset, List.nil_subset, and_true] at hp
  unfold gBefore
  (repeat' split) <;> simp (maxDischargeDepth := 80) only [List.cons_subset, List.nil_subset, and_self,
      gFlush_only, ho, hp]

theorem gLoad_only {pts : List Part} {s₀ : State} (n b : Nat) (ups : List SpUpset) (s : State) (ho : Moves pts s₀
      s) (hp : [.regs, .out, .basket, .host, .roi, .cores, .knots, .serve, .fault, .weave] ⊆ pts) :
    Moves pts s₀ (gLoad n b ups s) := by
  simp only [List.cons_subset, List.nil_subset, and_true] at hp
  unfold gLoad
  simp (maxDischargeDepth := 80) only [List.cons_subset, List.nil_subset, and_self, State_setCore_only,
      spErrors_only, ho, hp]

theorem gBack_only {pts : List Part} {s₀ : State} (n : Nat) (ups : List SpUpset) (s : State) (ho : Moves pts s₀ s)
      (hp : [.regs, .out, .basket, .host, .roi, .cores, .knots, .mem, .poison, .serve, .fault, .weave] ⊆ pts) :
    Moves pts s₀ (gBack n ups s) := by
  simp only [List.cons_subset, List.nil_subset, and_true] at hp
  unfold gBack
  simp (maxDischargeDepth := 80) only [Moves.ite_iff, List.cons_subset, List.nil_subset, implies_true, and_self,
      gMergeLoad_only, gWrite_only, ho, hp]

theorem gMerge_only {pts : List Part} {s₀ : State} (n lo cycle : Nat) (data : Marked) (s : State) (ho : Moves pts
      s₀ s) (hp : [.cores] ⊆ pts) :
    Moves pts s₀ (gMerge n lo cycle data s) := by
  simp only [List.cons_subset, List.nil_subset, and_true] at hp
  unfold gMerge
  simp (maxDischargeDepth := 80) only [List.cons_subset, List.nil_subset, and_self, State_setCore_only, ho, hp]

theorem gServe_only {pts : List Part} {s₀ : State} (n : Nat) (a : SpAccess) (len cycle : Nat) (s : State) (ho :
      Moves pts s₀ s) (hp : [.out, .cores] ⊆ pts) :
    Moves pts s₀ (gServe n a len cycle s) := by
  simp only [List.cons_subset, List.nil_subset, and_true] at hp
  unfold gServe
  simp (maxDischargeDepth := 80) only [Moves.ite_iff, List.cons_subset, List.nil_subset, implies_true, and_self,
      State_emit_only, gMerge_only, ho, hp]

theorem gSlot_only {pts : List Part} {s₀ : State} (n cycle : Nat) (ups : List SpUpset) (s : State) (ho : Moves pts
      s₀ s) (hp : [.regs, .out, .basket, .host, .roi, .cores, .knots, .mem, .poison, .serve, .fault, .weave] ⊆ pts)
      :
    Moves pts s₀ (gSlot n cycle ups s) := by
  simp only [List.cons_subset, List.nil_subset, and_true] at hp
  unfold gSlot
  repeat' first
    | split
    | simp (maxDischargeDepth := 80) only [List.cons_subset, List.nil_subset, and_self, State_setCore_only,
      gBack_only, gLoad_only, gServe_only, ho, hp]

theorem gWriteback_only {pts : List Part} {s₀ : State} (n cycle : Nat) (ups : List SpUpset) (s : State) (ho : Moves
      pts s₀ s) (hp : [.regs, .out, .basket, .host, .roi, .cores, .knots, .mem, .poison, .serve, .fault, .weave] ⊆
      pts) :
    Moves pts s₀ (gWriteback n cycle ups s) := by
  simp only [List.cons_subset, List.nil_subset, and_true] at hp
  unfold gWriteback
  simp (maxDischargeDepth := 80) only [Moves.ite_iff, List.cons_subset, List.nil_subset, implies_true, and_self,
      gSlot_only, useSlot_only, ho, hp]

theorem rgnAdvance_only {pts : List Part} {s₀ : State} (n : Nat) (r : RegionRef) (write : Bool) (s : State) (ho :
      Moves pts s₀ s) (hp : [.regs] ⊆ pts) :
    Moves pts s₀ (rgnAdvance n r write s) := by
  simp only [List.cons_subset, List.nil_subset, and_true] at hp
  unfold rgnAdvance
  simp (maxDischargeDepth := 80) only [Moves.ite_iff, List.cons_subset, List.nil_subset, implies_true, and_self,
      State_setFld_only, ho, hp]

theorem askRow_only {pts : List Part} {s₀ : State} (n m r : Nat) (s : State) (ho : Moves pts s₀ s) (hp : [.cores] ⊆
      pts) :
    Moves pts s₀ (askRow n m r s) := by
  simp only [List.cons_subset, List.nil_subset, and_true] at hp
  unfold askRow
  simp (maxDischargeDepth := 80) only [Moves.ite_iff, List.cons_subset, List.nil_subset, implies_true, and_self,
      queueR_only, ho, hp]

theorem dropFetched_only {pts : List Part} {s₀ : State} (n m off len : Nat) (s : State) (ho : Moves pts s₀ s) (hp :
      [.cores] ⊆ pts) :
    Moves pts s₀ (dropFetched n m off len s) := by
  simp only [List.cons_subset, List.nil_subset, and_true] at hp
  unfold dropFetched
  simp (maxDischargeDepth := 80) only [List.cons_subset, List.nil_subset, and_self, State_setCore_only, ho, hp]

theorem dmaWait_only {pts : List Part} {s₀ : State} (n : Nat) (a : SpAccess) (len : Nat) (s : State) (ho : Moves
      pts s₀ s) (hp : [.cores] ⊆ pts) :
    Moves pts s₀ (dmaWait n a len s) := by
  simp only [List.cons_subset, List.nil_subset, and_true] at hp
  unfold dmaWait
  (repeat' split) <;> simp (maxDischargeDepth := 80) only [Moves.refl, Moves.foldl, List.cons_subset,
      List.nil_subset, implies_true, and_self, askRow_only, ho, hp]

theorem dmaOut_only {pts : List Part} {s₀ : State} (n peer : Nat) (data : Marked) (s : State) (ho : Moves pts s₀ s)
      (hp : [.regs, .out, .basket, .host, .roi, .cores, .knots, .mem, .poison, .serve, .fault, .weave] ⊆ pts) :
    Moves pts s₀ (dmaOut n peer data s) := by
  simp only [List.cons_subset, List.nil_subset, and_true] at hp
  unfold dmaOut
  repeat' first
    | split
    | simp (maxDischargeDepth := 80) only [Moves.ite_iff, List.cons_subset, List.nil_subset, true_and,
      implies_true, and_self, coreHostWrite_only, queueR_only, sendLoose_only, spFault_only, wrMarked_only, ho, hp]

theorem spDoRead_only {pts : List Part} {s₀ : State} (n : Nat) (a : SpAccess) (g : SpGeom) (s : State) (ho : Moves
      pts s₀ s) (hp : [.regs, .out, .basket, .host, .roi, .cores, .knots, .mem, .poison, .serve, .fault, .weave] ⊆
      pts) :
    Moves pts s₀ (spDoRead n a g s) := by
  simp only [List.cons_subset, List.nil_subset, and_true] at hp
  unfold spDoRead
  (repeat' split) <;> simp (maxDischargeDepth := 80) only [List.cons_subset, List.nil_subset, and_self,
      State_emit_only, dmaOut_only, rgnAdvance_only, spErrors_only, ho, hp]

theorem spDoWrite_only {pts : List Part} {s₀ : State} (n : Nat) (a : SpAccess) (g : SpGeom) (s : State) (ho : Moves
      pts s₀ s) (hp : [.regs, .cores, .mem, .poison] ⊆ pts) :
    Moves pts s₀ (spDoWrite n a g s) := by
  simp only [List.cons_subset, List.nil_subset, and_true] at hp
  unfold spDoWrite
  repeat' first
    | split
    | simp (maxDischargeDepth := 80) only [List.cons_subset, List.nil_subset, and_self, dropFetched_only,
      rgnAdvance_only, spWrite_only, ho, hp]

theorem spBefore_only {pts : List Part} {s₀ : State} (n : Nat) (a : SpAccess) (kind : RKind) (g : SpGeom) (s :
      State) (ho : Moves pts s₀ s) (hp : [.regs, .out, .basket, .host, .roi, .cores, .knots, .mem, .poison, .serve,
      .fault, .weave] ⊆ pts) :
    Moves pts s₀ (spBefore n a kind g s) := by
  simp only [List.cons_subset, List.nil_subset, and_true] at hp
  unfold spBefore
  (repeat' split) <;> simp (maxDischargeDepth := 80) only [List.cons_subset, List.nil_subset, and_self,
      gBefore_only, ho, hp]

theorem spAccess_only {pts : List Part} {s₀ : State} (n : Nat) (a : SpAccess) (kind : RKind) (s : State) (ho :
      Moves pts s₀ s) (hp : [.regs, .out, .basket, .host, .roi, .cores, .knots, .mem, .poison, .serve, .fault,
      .weave] ⊆ pts) :
    Moves pts s₀ (spAccess n a kind s) := by
  simp only [List.cons_subset, List.nil_subset, and_true] at hp
  unfold spAccess
  simp (maxDischargeDepth := 80) only [Moves.ite_iff, List.cons_subset, List.nil_subset, implies_true, and_self,
      dmaWait_only, queueR_only, spBefore_only, spDoRead_only, spDoWrite_only, spFault_only, useSlot_only, ho, hp]

theorem spNarrow_only {pts : List Part} {s₀ : State} (n : Nat) (a : SpAccess) (len : Nat) (s : State) (ho : Moves
      pts s₀ s) (hp : [.regs, .out, .basket, .host, .roi, .cores, .knots, .serve, .fault, .weave] ⊆ pts) :
    Moves pts s₀ (spNarrow n a len s) := by
  simp only [List.cons_subset, List.nil_subset, and_true] at hp
  unfold spNarrow
  simp (maxDischargeDepth := 80) only [Moves.ite_iff, List.cons_subset, List.nil_subset, implies_true, and_self,
      State_setCore_only, gServe_only, spFault_only, ho, hp]

theorem ceWriteback_only {pts : List Part} {s₀ : State} (n cycle : Nat) (ups : List SpUpset) (s : State) (ho :
      Moves pts s₀ s) (hp : [.regs, .out, .basket, .host, .roi, .cores, .knots, .serve, .fault, .weave] ⊆ pts) :
    Moves pts s₀ (ceWriteback n cycle ups s) := by
  simp only [List.cons_subset, List.nil_subset, and_true] at hp
  unfold ceWriteback
  simp (maxDischargeDepth := 80) only [Moves.ite_iff, List.cons_subset, List.nil_subset, implies_true, and_self,
      State_setReg_only, spErrors_only, ho, hp]

theorem outDone_only {pts : List Part} {s₀ : State} (n : Nat) (s : State) (ho : Moves pts s₀ s) (hp : [.host,
      .cores, .knots] ⊆ pts) :
    Moves pts s₀ (outDone n s) := by
  simp only [List.cons_subset, List.nil_subset, and_true] at hp
  unfold outDone
  (repeat' split) <;> simp (maxDischargeDepth := 80) only [Moves.ite_iff, List.cons_subset, List.nil_subset,
      implies_true, and_self, State_setCore_only, signalKnot_only, ho, hp]

theorem pushOut_only {pts : List Part} {s₀ : State} (a0 a1 : Nat) (a2 : State) (ho : Moves pts s₀ a2) (hp :
      [.cores] ⊆ pts) :
    Moves pts s₀ (pushOut a0 a1 a2) := by
  simp only [List.cons_subset, List.nil_subset, and_true] at hp
  induction a0 generalizing a1 a2 with
  | zero =>
    unfold pushOut
    (repeat' split) <;> simp (maxDischargeDepth := 80) only [ho]
  | succ a0 ih =>
    unfold pushOut
    (repeat' split) <;> simp (maxDischargeDepth := 80) only [List.cons_subset, List.nil_subset, and_self,
      State_setCore_only, queueR_only, ih, ho, hp]

theorem pushOuts_only {pts : List Part} {s₀ : State} (s : State) (ho : Moves pts s₀ s) (hp : [.host, .cores,
      .knots] ⊆ pts) :
    Moves pts s₀ (pushOuts s) := by
  simp only [List.cons_subset, List.nil_subset, and_true] at hp
  unfold pushOuts
  simp (maxDischargeDepth := 80) only [Moves.refl, Moves.foldl, List.cons_subset, List.nil_subset, implies_true,
      and_self, outDone_only, pushOut_only, ho, hp]

theorem rRefuse_only {pts : List Part} {s₀ : State} (n : Nat) (q : RReq) (c : Code) (s : State) (ho : Moves pts s₀
      s) (hp : [.regs, .out, .basket, .cores] ⊆ pts) :
    Moves pts s₀ (rRefuse n q c s) := by
  simp only [List.cons_subset, List.nil_subset, and_true] at hp
  unfold rRefuse
  (repeat' split) <;> simp (maxDischargeDepth := 80) only [List.cons_subset, List.nil_subset, and_self,
      State_bumpSat_only, State_emit_only, State_setCore_only, latch_only, sendLoose_only, spLatch_only, ho, hp]

theorem rDeliver_only {pts : List Part} {s₀ : State} (n : Nat) (q : RReq) (data : Marked) (s : State) (ho : Moves
      pts s₀ s) (hp : [.regs, .out, .basket, .cores] ⊆ pts) :
    Moves pts s₀ (rDeliver n q data s) := by
  simp only [List.cons_subset, List.nil_subset, and_true] at hp
  unfold rDeliver
  (repeat' split) <;> simp (maxDischargeDepth := 80) only [List.cons_subset, List.nil_subset, and_self,
      State_emit_only, State_setCore_only, sendLoose_only, ho, hp]

theorem rServe_only {pts : List Part} {s₀ : State} (n : Nat) (q : RReq) (ups : List SpUpset) (s : State) (ho :
      Moves pts s₀ s) (hp : [.regs, .out, .basket, .host, .roi, .cores, .knots, .mem, .poison, .serve, .fault,
      .weave] ⊆ pts) :
    Moves pts s₀ (rServe n q ups s) := by
  simp only [List.cons_subset, List.nil_subset, and_true] at hp
  unfold rServe
  simp (maxDischargeDepth := 80) only [Moves.ite_iff, List.cons_subset, List.nil_subset, implies_true, and_self,
      gBefore_only, rDeliver_only, spErrors_only, spWrite_only, ho, hp]

theorem rSlotServe_only {pts : List Part} {s₀ : State} (n cycle : Nat) (ups : List SpUpset) (s : State) (ho : Moves
      pts s₀ s) (hp : [.regs, .out, .basket, .host, .roi, .cores, .knots, .mem, .poison, .serve, .fault, .weave] ⊆
      pts) :
    Moves pts s₀ (rSlotServe n cycle ups s) := by
  simp only [List.cons_subset, List.nil_subset, and_true] at hp
  unfold rSlotServe
  repeat' first
    | split
    | simp (maxDischargeDepth := 80) only [List.cons_subset, List.nil_subset, and_self, State_setCore_only,
      pushOuts_only, rRefuse_only, rServe_only, useSlot_only, ho, hp]

theorem spFill_only {pts : List Part} {s₀ : State} (n : Nat) (s : State) (ho : Moves pts s₀ s) (hp : [.regs,
      .cores, .mem, .poison] ⊆ pts) :
    Moves pts s₀ (spFill n s) := by
  simp only [List.cons_subset, List.nil_subset, and_true] at hp
  unfold spFill
  simp (maxDischargeDepth := 80) only [Moves.refl, Moves.foldl, List.cons_subset, List.nil_subset, implies_true,
      and_self, State_setCore_only, State_setFld_only, State_setReg_only, zeroMem_only, ho, hp]

theorem spDiscard_only {pts : List Part} {s₀ : State} (n : Nat) (s : State) (ho : Moves pts s₀ s) (hp : [.cores] ⊆
      pts) :
    Moves pts s₀ (spDiscard n s) := by
  simp only [List.cons_subset, List.nil_subset, and_true] at hp
  unfold spDiscard
  simp (maxDischargeDepth := 80) only [List.cons_subset, List.nil_subset, and_self, State_setCore_only, ho, hp]

theorem rDiscard_only {pts : List Part} {s₀ : State} (n : Nat) (s : State) (ho : Moves pts s₀ s) (hp : [.regs,
      .out, .basket, .cores] ⊆ pts) :
    Moves pts s₀ (rDiscard n s) := by
  simp only [List.cons_subset, List.nil_subset, and_true] at hp
  unfold rDiscard
  repeat' first
    | (simp (maxDischargeDepth := 80) only [Moves.refl, List.cons_subset, List.nil_subset, and_self,
      State_setCore_only, sendLoose_only, ho, hp]; done)
    | intro _
    | split
    | refine Moves.foldl (fun _ _ => ?_) ?_
    | with_reducible apply State_setCore_only
    | with_reducible apply sendLoose_only

theorem arrayFault_only {pts : List Part} {s₀ : State} (n a : Nat) (c : Code) (s : State) (ho : Moves pts s₀ s) (hp
      : [.regs, .out, .basket, .host, .roi, .cores, .knots, .serve, .fault, .weave] ⊆ pts) :
    Moves pts s₀ (arrayFault n a c s) := by
  simp only [List.cons_subset, List.nil_subset, and_true] at hp
  unfold arrayFault
  simp (maxDischargeDepth := 80) only [List.cons_subset, List.nil_subset, and_self, weaveFault_only, ho, hp]

theorem landOne_only {pts : List Part} {s₀ : State} (n : Nat) (l : Landing) (s : State) (ho : Moves pts s₀ s) (hp :
      [.regs, .out, .basket, .host, .roi, .cores, .knots, .serve, .fault, .weave] ⊆ pts) :
    Moves pts s₀ (landOne n l s) := by
  simp only [List.cons_subset, List.nil_subset, and_true] at hp
  unfold landOne
  simp (maxDischargeDepth := 80) only [Moves.ite_iff, List.cons_subset, List.nil_subset, implies_true, and_self,
      State_setArray_only, arrayFault_only, ho, hp]

theorem landUpTo_only {pts : List Part} {s₀ : State} (n c : Nat) (s : State) (ho : Moves pts s₀ s) (hp : [.regs,
      .out, .basket, .host, .roi, .cores, .knots, .serve, .fault, .weave] ⊆ pts) :
    Moves pts s₀ (landUpTo n c s) := by
  simp only [List.cons_subset, List.nil_subset, and_true] at hp
  unfold landUpTo
  simp (maxDischargeDepth := 80) only [Moves.refl, Moves.foldl, List.cons_subset, List.nil_subset, implies_true,
      and_self, State_setCore_only, landOne_only, ho, hp]

theorem popStep_only {pts : List Part} {s₀ : State} (n g base : Nat) (w : BitVec 64) (s : State) (ho : Moves pts s₀
      s) (hp : [.cores] ⊆ pts) :
    Moves pts s₀ (popStep n g base w s) := by
  simp only [List.cons_subset, List.nil_subset, and_true] at hp
  unfold popStep
  simp (maxDischargeDepth := 80) only [Moves.ite_iff, Moves.refl, Moves.foldl, List.cons_subset, List.nil_subset,
      implies_true, and_self, State_setArray_only, ho, hp]

theorem formFront_only {pts : List Part} {s₀ : State} (n : Nat) (r : PassRun) (c : Nat) (s : State) (ho : Moves pts
      s₀ s) (hp : [.cores] ⊆ pts) :
    Moves pts s₀ (formFront n r c s) := by
  simp only [List.cons_subset, List.nil_subset, and_true] at hp
  unfold formFront
  simp (maxDischargeDepth := 80) only [Moves.refl, Moves.foldl, List.cons_subset, List.nil_subset, implies_true,
      and_self, State_setArray_only, ho, hp]

theorem sendRow_only {pts : List Part} {s₀ : State} (n : Nat) (r : PassRun) (k at' : Nat) (row : List Word) (bad :
      Bool) (s : State) (ho : Moves pts s₀ s) (hp : [.cores] ⊆ pts) :
    Moves pts s₀ (sendRow n r k at' row bad s) := by
  simp only [List.cons_subset, List.nil_subset, and_true] at hp
  unfold sendRow
  simp (maxDischargeDepth := 80) only [List.cons_subset, List.nil_subset, and_self, State_setCore_only, ho, hp]

theorem isStep_only {pts : List Part} {s₀ : State} (n : Nat) (r : PassRun) (c : Nat) (s : State) (ho : Moves pts s₀
      s) (hp : [.cores] ⊆ pts) :
    Moves pts s₀ (isStep n r c s).1 := by
  simp only [List.cons_subset, List.nil_subset, and_true] at hp
  simp (maxDischargeDepth := 80) only [wf_const_iff, wf_reset_iff, wf_filter_iff, wf_all_iff, rising_set_iff,
      FuseMoves.refl, imp_self, smWf_nil, rising_nil, Moves.ite_iff, Moves.upd, Moves.refl, Moves.foldl,
      List.cons_subset, List.nil_subset, and_true, true_and, true_or, or_true, implies_true, and_self,  isStep,
      popStep_only, sendRow_only, ho, hp]

theorem osStep_only {pts : List Part} {s₀ : State} (n : Nat) (r : PassRun) (s : State) (ho : Moves pts s₀ s) (hp :
      [.cores] ⊆ pts) :
    Moves pts s₀ (osStep n r s).1 := by
  simp only [List.cons_subset, List.nil_subset, and_true] at hp
  simp (maxDischargeDepth := 80) only [wf_const_iff, wf_reset_iff, wf_filter_iff, wf_all_iff, rising_set_iff,
      FuseMoves.refl, imp_self, smWf_nil, rising_nil, Moves.ite_iff, Moves.upd, Moves.refl, Moves.foldl,
      List.cons_subset, List.nil_subset, and_true, true_and, true_or, or_true, implies_true, and_self,  osStep,
      popStep_only, State_setArray_only, ho, hp]

theorem osEnd_only {pts : List Part} {s₀ : State} (n : Nat) (r : PassRun) (s : State) (ho : Moves pts s₀ s) (hp :
      [.cores] ⊆ pts) :
    Moves pts s₀ (osEnd n r s).1 := by
  simp only [List.cons_subset, List.nil_subset, and_true] at hp
  simp (maxDischargeDepth := 80) only [wf_const_iff, wf_reset_iff, wf_filter_iff, wf_all_iff, rising_set_iff,
      FuseMoves.refl, imp_self, smWf_nil, rising_nil, Moves.ite_iff, Moves.upd, Moves.refl, Moves.foldl,
      List.cons_subset, List.nil_subset, and_true, true_and, true_or, or_true, implies_true, and_self,  osEnd,
      State_setArray_only, ho, hp]

theorem passEnd_only {pts : List Part} {s₀ : State} (n : Nat) (r : PassRun) (c : Nat) (s : State) (ho : Moves pts
      s₀ s) (hp : [.cores] ⊆ pts) :
    Moves pts s₀ (passEnd n r c s) := by
  have hx : Moves pts s₀ (if pOs r.word then osEnd n r s else (s, r)).1 := by
    split
    · exact osEnd_only _ _ _ ho (by simp only [List.cons_subset, List.nil_subset, and_true] at hp ⊢; simp [hp])
    · exact ho
  simp only [List.cons_subset, List.nil_subset, and_true] at hp
  revert hx
  simp only [passEnd]
  generalize (if pOs r.word = true then osEnd n r s else (s, r)) = x
  intro hx
  refine Moves.foldl (fun t a => ?_) (Moves.foldl (fun t a => State_setArray_only _ _ _ _ (Moves.refl _ _) (by simp
      [hp])) ?_)
  · split
    · exact Moves.refl _ _
    · exact State_setArray_only _ _ _ _ (Moves.refl _ _) (by simp [hp])
  · split
    · exact Moves.foldl (fun t a => sendRow_only _ _ _ _ _ _ _ (Moves.refl _ _) (by simp [hp])) hx
    · exact hx

theorem passCycle_only {pts : List Part} {s₀ : State} (n : Nat) (r : PassRun) (s : State) (ho : Moves pts s₀ s) (hp
      : [.regs, .cores] ⊆ pts) :
    Moves pts s₀ (passCycle n r s).1 := by
  simp only [List.cons_subset, List.nil_subset, and_true] at hp
  simp only [passCycle]
  split
  · exact ho
  · split
    · simp (maxDischargeDepth := 80) only [wf_const_iff, wf_reset_iff, wf_filter_iff, wf_all_iff, rising_set_iff,
        FuseMoves.refl, imp_self, smWf_nil, rising_nil, Moves.ite_iff, Moves.upd, Moves.refl, Moves.foldl,
        List.cons_subset, List.nil_subset, and_true, true_and, true_or, or_true, implies_true, and_self,
         State_bumpSat_only, ho, hp]
    · dsimp only
      repeat' split
      all_goals simp (maxDischargeDepth := 80) only [wf_const_iff, wf_reset_iff, wf_filter_iff, wf_all_iff,
          rising_set_iff, FuseMoves.refl, imp_self, smWf_nil, rising_nil, Moves.ite_iff, Moves.upd, Moves.refl,
          Moves.foldl, List.cons_subset, List.nil_subset, and_true, true_and, true_or, or_true, implies_true,
          and_self,  osStep_only, isStep_only, formFront_only, ho, hp]

theorem runTo_only {pts : List Part} {s₀ : State} (a0 a1 a2 : Nat) (a3 : PassRun) (a4 : State) (ho : Moves pts s₀
      a4) (hp : [.regs, .cores] ⊆ pts) :
    Moves pts s₀ (runTo a0 a1 a2 a3 a4).1 := by
  have hp' := hp
  simp only [List.cons_subset, List.nil_subset, and_true] at hp
  induction a0 generalizing a3 a4 with
  | zero => exact ho
  | succ f ih =>
    have h := passCycle_only a1 a3 a4 ho hp'
    simp only [runTo]
    split
    · exact ho
    · split
      · exact passEnd_only _ _ _ _ h (by simp [hp])
      · exact ih _ _ h

theorem stepsTo_only {pts : List Part} {s₀ : State} (n c : Nat) (s : State) (ho : Moves pts s₀ s) (hp : [.regs,
      .cores] ⊆ pts) :
    Moves pts s₀ (stepsTo n c s) := by
  have hp' := hp
  simp only [List.cons_subset, List.nil_subset, and_true] at hp
  simp only [stepsTo]
  refine State_setCore_only _ _ _ (Moves.foldl_fst (fun p r => ?_) ho) (by simp [hp])
  exact runTo_only _ _ _ _ _ (Moves.refl _ _) hp'

theorem coreTo_only {pts : List Part} {s₀ : State} (n c : Nat) (s : State) (ho : Moves pts s₀ s) (hp : [.regs,
      .out, .basket, .host, .roi, .cores, .knots, .serve, .fault, .weave] ⊆ pts) :
    Moves pts s₀ (coreTo n c s) := by
  simp only [List.cons_subset, List.nil_subset, and_true] at hp
  unfold coreTo
  simp (maxDischargeDepth := 80) only [List.cons_subset, List.nil_subset, and_self, landUpTo_only, stepsTo_only,
      ho, hp]

theorem issueOn_only {pts : List Part} {s₀ : State} (n : Nat) (w : BitVec 64) (a : Nat) (s : State) (ho : Moves pts
      s₀ s) (hp : [.regs, .cores] ⊆ pts) :
    Moves pts s₀ (issueOn n w a s).1 := by
  simp only [List.cons_subset, List.nil_subset, and_true] at hp
  simp (maxDischargeDepth := 80) only [wf_const_iff, wf_reset_iff, wf_filter_iff, wf_all_iff, rising_set_iff,
      FuseMoves.refl, imp_self, smWf_nil, rising_nil, Moves.ite_iff, Moves.upd, Moves.refl, Moves.foldl,
      List.cons_subset, List.nil_subset, and_true, true_and, true_or, or_true, implies_true, and_self,  issueOn,
      State_setArray_only, State_setReg_only, ho, hp]

theorem detect_only {pts : List Part} {s₀ : State} (n : Nat) (info : List (Nat × Word × Fin 3 × BitVec 4 × Option
      Nat)) (d : Fin 4 × Nat) (s : State) (ho : Moves pts s₀ s) (hp : [.regs, .out, .host, .cores] ⊆ pts) :
    Moves pts s₀ (detect n info d s) := by
  simp only [List.cons_subset, List.nil_subset, and_true] at hp
  unfold detect
  (repeat' split) <;> simp (maxDischargeDepth := 80) only [Moves.ite_iff, List.cons_subset, List.nil_subset,
      implies_true, and_self, State_bumpSat_only, State_setCore_only, postEventAt_only, ho, hp]

theorem issueUnits_only {pts : List Part} {s₀ : State} (n : Nat) (w : BitVec 64) (units : List (Nat × BitVec 64))
      (cycle : Nat) (errs : List PassError) (dets : List (Fin 4 × Nat)) (s : State) (ho : Moves pts s₀ s) (hp :
      [.regs, .out, .basket, .host, .roi, .cores, .knots, .serve, .fault, .weave] ⊆ pts) :
    Moves pts s₀ (issueUnits n w units cycle errs dets s) := by
  simp only [List.cons_subset, List.nil_subset, and_true] at hp
  have h := Moves.foldl_fst (l := gangArrays (pGang w) (pSel w)) (p := (s, ([] : List (Nat × Word × Fin 3 × BitVec
      4 × Option Nat))))
    (f := fun p a => ((issueOn n w a p.1).1, p.2 ++ [(issueOn n w a p.1).2]))
    (fun p a => issueOn_only n w a p.1 (Moves.refl _ _) (by simp [hp])) ho
  exact coreTo_only _ _ _ (Moves.foldl (fun t d => detect_only _ _ _ _ (Moves.refl _ _) (by simp [hp]))
    (State_setCore_only _ _ _ h (by simp [hp]))) (by simp [hp])

theorem passIssue_only {pts : List Part} {s₀ : State} (n : Nat) (w : BitVec 64) (cycle : Nat) (errs : List
      PassError) (dets : List (Fin 4 × Nat)) (s : State) (ho : Moves pts s₀ s) (hp : [.regs, .out, .basket, .host,
      .roi, .cores, .knots, .serve, .fault, .weave] ⊆ pts) :
    Moves pts s₀ (passIssue n w cycle errs dets s) := by
  simp only [List.cons_subset, List.nil_subset, and_true] at hp
  simp only [passIssue]
  refine coreTo_only _ _ _ (Moves.foldl (fun t d => detect_only _ _ _ _ (Moves.refl _ _) (by simp [hp])) ?_)
      (by simp
      [hp])
  refine State_setCore_only _ _ _ (Moves.foldl_fst (fun p a => ?_) ho) (by simp [hp])
  exact issueOn_only _ _ _ _ (Moves.refl _ _) (by simp [hp])

theorem passInstr_only {pts : List Part} {s₀ : State} (n : Nat) (w : BitVec 64) (cycle : Nat) (errs : List
      PassError) (dets : List (Fin 4 × Nat)) (s : State) (ho : Moves pts s₀ s) (hp : [.regs, .out, .basket, .host,
      .roi, .cores, .knots, .serve, .fault, .weave] ⊆ pts) :
    Moves pts s₀ (passInstr n w cycle errs dets s) := by
  simp only [List.cons_subset, List.nil_subset, and_true] at hp
  unfold passInstr
  simp (maxDischargeDepth := 80) only [Moves.ite_iff, List.cons_subset, List.nil_subset, implies_true, and_self,
      arrayFault_only, coreTo_only, passIssue_only, ho, hp]

theorem feed_only {pts : List Part} {s₀ : State} (n a : Nat) (bcast : Option (Fin 4)) (off : Nat) (column : Bool)
      (cycle : Nat) (ups : List SpUpset) (bad : Code) (ok : ArrayState → Bool) (take : List (List Byte × Bool) →
      ArrayState → ArrayState) (s : State) (ho : Moves pts s₀ s) (hp : [.regs, .out, .basket, .host, .roi, .cores,
      .knots, .mem, .poison, .serve, .fault, .weave] ⊆ pts) :
    Moves pts s₀ (feed n a bcast off column cycle ups bad ok take s) := by
  simp only [List.cons_subset, List.nil_subset, and_true] at hp
  unfold feed
  repeat' first
    | split
    | simp (maxDischargeDepth := 80) only [Moves.ite_iff, Moves.refl, Moves.foldl, List.cons_subset,
      List.nil_subset, true_and, implies_true, and_self, State_setArray_only, arrayFault_only, coreTo_only, gBefore_only,
     
      spErrors_only, spFault_only, useSlot_only, ho, hp]

theorem drainRow_only {pts : List Part} {s₀ : State} (n : Nat) (i : DrainInstr) (lanes : Nat) (s : State) (ho :
      Moves pts s₀ s) (hp : [.cores, .mem, .poison] ⊆ pts) :
    Moves pts s₀ (drainRow n i lanes s) := by
  simp only [List.cons_subset, List.nil_subset, and_true] at hp
  unfold drainRow
  simp (maxDischargeDepth := 80) only [Moves.ite_iff, Moves.refl, Moves.foldl, List.cons_subset, List.nil_subset,
      implies_true, and_self, State_setArray_only, wrMemP_only, ho, hp]

theorem drainInstr_only {pts : List Part} {s₀ : State} (n : Nat) (i : DrainInstr) (s : State) (ho : Moves pts s₀ s)
      (hp : [.regs, .out, .basket, .host, .roi, .cores, .knots, .mem, .poison, .serve, .fault, .weave] ⊆ pts) :
    Moves pts s₀ (drainInstr n i s) := by
  simp only [List.cons_subset, List.nil_subset, and_true] at hp
  unfold drainInstr
  simp (maxDischargeDepth := 80) only [Moves.ite_iff, List.cons_subset, List.nil_subset, implies_true, and_self,
      arrayFault_only, drainRow_only, landUpTo_only, spFault_only, stepsTo_only, useSlot_only, ho, hp]

theorem onRow_only {pts : List Part} {s₀ : State} (n : Nat) (p : SpPort) (off cycle : Nat) (ups : List SpUpset) (k
      : SpRead → State → State) (s : State) (ho : Moves pts s₀ s) (hk : ∀ x0 t, Moves pts t (k x0 t)) (hp : [.regs,
      .out, .basket, .host, .roi, .cores, .knots, .serve, .fault, .weave] ⊆ pts) :
    Moves pts s₀ (onRow n p off cycle ups k s) := by
  simp only [List.cons_subset, List.nil_subset, and_true] at hp
  have hk' : ∀ x0 t, Moves pts s₀ t → Moves pts s₀ (k x0 t) := fun x0 t h => h.trans (hk x0 t)
  unfold onRow
  (repeat' split) <;> simp (maxDischargeDepth := 80) only [List.cons_subset, List.nil_subset, and_self,
      spErrors_only, spFault_only, useSlot_only, ho, hk', hp]

theorem qload_only {pts : List Part} {s₀ : State} (n p off cycle : Nat) (ups : List SpUpset) (s : State) (ho :
      Moves pts s₀ s) (hp : [.regs, .out, .basket, .host, .roi, .cores, .knots, .serve, .fault, .weave] ⊆ pts) :
    Moves pts s₀ (qload n p off cycle ups s) := by
  simp only [List.cons_subset, List.nil_subset, and_true] at hp
  unfold qload
  simp (maxDischargeDepth := 80) only [Moves.ite_iff, Moves.refl, List.cons_subset, List.nil_subset, implies_true,
      and_self, State_setCore_only, arrayFault_only, onRow_only, ho, hp]

theorem onSpindle_only {pts : List Part} {s₀ : State} (n : Nat) (bad : Bool) (cycle : Nat) (k : State → State) (s :
      State) (ho : Moves pts s₀ s) (hk : ∀ t, Moves pts t (k t)) (hp : [.regs, .out, .basket, .host, .roi, .cores,
      .knots, .serve, .fault, .weave] ⊆ pts) :
    Moves pts s₀ (onSpindle n bad cycle k s) := by
  simp only [List.cons_subset, List.nil_subset, and_true] at hp
  have hk' : ∀ t, Moves pts s₀ t → Moves pts s₀ (k t) := fun t h => h.trans (hk t)
  unfold onSpindle
  simp (maxDischargeDepth := 80) only [Moves.ite_iff, List.cons_subset, List.nil_subset, implies_true, and_self,
      arrayFault_only, ho, hk', hp]

theorem xload_only {pts : List Part} {s₀ : State} (n off fmt cycle : Nat) (ups : List SpUpset) (s : State) (ho :
      Moves pts s₀ s) (hp : [.regs, .out, .basket, .host, .roi, .cores, .knots, .serve, .fault, .weave] ⊆ pts) :
    Moves pts s₀ (xload n off fmt cycle ups s) := by
  simp only [List.cons_subset, List.nil_subset, and_true] at hp
  unfold xload
  simp (maxDischargeDepth := 80) only [Moves.refl, List.cons_subset, List.nil_subset, implies_true, and_self,
      State_setCore_only, onRow_only, onSpindle_only, ho, hp]

theorem sdot_only {pts : List Part} {s₀ : State} (n : Nat) (i : SdotInstr) (s : State) (ho : Moves pts s₀ s) (hp :
      [.regs, .out, .basket, .host, .roi, .cores, .knots, .serve, .fault, .weave] ⊆ pts) :
    Moves pts s₀ (sdot n i s) := by
  simp only [List.cons_subset, List.nil_subset, and_true] at hp
  unfold sdot
  simp (maxDischargeDepth := 80) only [Moves.refl, List.cons_subset, List.nil_subset, implies_true, and_self,
      State_setCore_only, onRow_only, onSpindle_only, ho, hp]

theorem sout_only {pts : List Part} {s₀ : State} (n p off fmt cycle : Nat) (s : State) (ho : Moves pts s₀ s) (hp :
      [.regs, .out, .basket, .host, .roi, .cores, .knots, .mem, .poison, .serve, .fault, .weave] ⊆ pts) :
    Moves pts s₀ (sout n p off fmt cycle s) := by
  simp only [List.cons_subset, List.nil_subset, and_true] at hp
  unfold sout
  simp (maxDischargeDepth := 80) only [Moves.ite_iff, Moves.refl, List.cons_subset, List.nil_subset, implies_true,
      and_self, onSpindle_only, spFault_only, useSlot_only, wrMarked_only, ho, hp]

theorem apxset_only {pts : List Part} {s₀ : State} (n k : Nat) (s : State) (ho : Moves pts s₀ s) (hp : [.regs,
      .out, .basket, .host, .roi, .cores, .knots, .serve, .fault, .weave] ⊆ pts) :
    Moves pts s₀ (apxset n k s) := by
  simp only [List.cons_subset, List.nil_subset, and_true] at hp
  unfold apxset
  simp (maxDischargeDepth := 80) only [Moves.ite_iff, List.cons_subset, List.nil_subset, implies_true, and_self,
      State_setFld_only, arrayFault_only, ho, hp]

theorem markPoison_only {pts : List Part} {s₀ : State} (a n : Nat) (s : State) (ho : Moves pts s₀ s) (hp :
      [.poison] ⊆ pts) :
    Moves pts s₀ (markPoison a n s) := by
  simp only [List.cons_subset, List.nil_subset, and_true] at hp
  unfold markPoison
  simp (maxDischargeDepth := 80) only [wf_marks_iff, FuseMoves.refl, imp_self, Moves.upd, and_true, true_or,
      or_true, and_self, ho, hp]

theorem settlePass_only {pts : List Part} {s₀ : State} (n a : Nat) (seq : Word) (s : State) (ho : Moves pts s₀ s)
      (hp : [.cores] ⊆ pts) :
    Moves pts s₀ (settlePass n a seq s) := by
  simp only [List.cons_subset, List.nil_subset, and_true] at hp
  unfold settlePass
  simp (maxDischargeDepth := 80) only [List.cons_subset, List.nil_subset, and_self, State_setArray_only,
      State_setCore_only, ho, hp]

theorem poisonResults_only {pts : List Part} {s₀ : State} (n a : Nat) (p : PassRec) (s : State) (ho : Moves pts s₀
      s) (hp : [.cores, .poison] ⊆ pts) :
    Moves pts s₀ (poisonResults n a p s) := by
  simp only [List.cons_subset, List.nil_subset, and_true] at hp
  unfold poisonResults
  simp (maxDischargeDepth := 80) only [Moves.ite_iff, Moves.refl, Moves.foldl, List.cons_subset, List.nil_subset,
      implies_true, and_self, State_setArray_only, State_setCore_only, markPoison_only, ho, hp]

theorem checksumFault_only {pts : List Part} {s₀ : State} (n a : Nat) (p : PassRec) (col : Option Nat) (s : State)
      (ho : Moves pts s₀ s) (hp : [.regs, .out, .basket, .host, .roi, .cores, .knots, .poison, .serve, .fault,
      .weave] ⊆ pts) :
    Moves pts s₀ (checksumFault n a p col s) := by
  simp only [List.cons_subset, List.nil_subset, and_true] at hp
  unfold checksumFault
  simp (maxDischargeDepth := 80) only [FuseMoves.refl, imp_self, Moves.upd, List.cons_subset, List.nil_subset,
      and_true, true_or, or_true, and_self, State_bumpSat_only, State_setReg_only, arrayFault_only,
      poisonResults_only, ho, hp]

theorem checksumVerdict_only {pts : List Part} {s₀ : State} (n a : Nat) (s : State) (ho : Moves pts s₀ s) (hp :
      [.regs, .out, .basket, .host, .roi, .cores, .knots, .poison, .serve, .fault, .weave] ⊆ pts) :
    Moves pts s₀ (checksumVerdict n a s) := by
  simp only [List.cons_subset, List.nil_subset, and_true] at hp
  unfold checksumVerdict
  repeat' first
    | split
    | simp (maxDischargeDepth := 80) only [List.cons_subset, List.nil_subset, and_self, State_setArray_only,
      checksumFault_only, settlePass_only, ho, hp]

theorem tallyStats_only {pts : List Part} {s₀ : State} (n a : Nat) (p : PassRec) (s : State) (ho : Moves pts s₀ s)
      (hp : [.regs, .cores] ⊆ pts) :
    Moves pts s₀ (tallyStats n a p s) := by
  simp only [List.cons_subset, List.nil_subset, and_true] at hp
  unfold tallyStats
  simp (maxDischargeDepth := 80) only [Moves.ite_iff, List.cons_subset, List.nil_subset, implies_true, and_self,
      State_bumpSat_only, State_setCore_only, State_setFld_only, State_setReg_only, ho, hp]

theorem forceExact_only {pts : List Part} {s₀ : State} (n a : Nat) (p : PassRec) (s : State) (ho : Moves pts s₀ s)
      (hp : [.regs, .out, .host, .cores] ⊆ pts) :
    Moves pts s₀ (forceExact n a p s) := by
  simp only [List.cons_subset, List.nil_subset, and_true] at hp
  unfold forceExact
  simp (maxDischargeDepth := 80) only [Moves.ite_iff, List.cons_subset, List.nil_subset, implies_true, and_self,
      State_bumpSat_only, State_setCore_only, State_setFld_only, postEventAt_only, ho, hp]

theorem tallyVerdict_only {pts : List Part} {s₀ : State} (n a : Nat) (s : State) (ho : Moves pts s₀ s) (hp :
      [.regs, .out, .host, .cores] ⊆ pts) :
    Moves pts s₀ (tallyVerdict n a s) := by
  simp only [List.cons_subset, List.nil_subset, and_true] at hp
  unfold tallyVerdict
  repeat' first
    | split
    | simp (maxDischargeDepth := 80) only [List.cons_subset, List.nil_subset, and_self, State_setArray_only,
      forceExact_only, tallyStats_only, ho, hp]

theorem coreBeat_only {pts : List Part} {s₀ : State} (n : Nat) (s : State) (ho : Moves pts s₀ s) (hp : [.regs,
      .cores] ⊆ pts) :
    Moves pts s₀ (coreBeat n s) := by
  simp only [List.cons_subset, List.nil_subset, and_true] at hp
  unfold coreBeat
  simp (maxDischargeDepth := 80) only [List.cons_subset, List.nil_subset, and_self, State_setCore_only,
      State_setFld_only, ho, hp]

theorem coresBeat_only {pts : List Part} {s₀ : State} (s : State) (ho : Moves pts s₀ s) (hp : [.regs, .cores] ⊆
      pts) :
    Moves pts s₀ (coresBeat s) := by
  simp only [List.cons_subset, List.nil_subset, and_true] at hp
  unfold coresBeat
  simp (maxDischargeDepth := 80) only [Moves.refl, Moves.foldl, List.cons_subset, List.nil_subset, implies_true,
      and_self, coreBeat_only, ho, hp]

theorem corePipelinesClear_only {pts : List Part} {s₀ : State} (n : Nat) (s : State) (ho : Moves pts s₀ s) (hp :
      [.cores] ⊆ pts) :
    Moves pts s₀ (corePipelinesClear n s) := by
  simp only [List.cons_subset, List.nil_subset, and_true] at hp
  unfold corePipelinesClear
  simp (maxDischargeDepth := 80) only [List.cons_subset, List.nil_subset, and_self, State_setCore_only, ho, hp]

theorem rangeErrors_only {pts : List Part} {s₀ : State} (n ofs len : Nat) (ups : List SpUpset) (s : State) (ho :
      Moves pts s₀ s) (hp : [.regs, .out, .basket, .host, .roi, .cores, .knots, .serve, .fault, .weave] ⊆ pts) :
    Moves pts s₀ (rangeErrors n ofs len ups s) := by
  simp only [List.cons_subset, List.nil_subset, and_true] at hp
  unfold rangeErrors
  simp (maxDischargeDepth := 80) only [Moves.ite_iff, Moves.refl, Moves.foldl, List.cons_subset, List.nil_subset,
      implies_true, and_self, spErrors_only, ho, hp]

theorem windowRow_only {pts : List Part} {s₀ : State} (n a row : Nat) (ups : List SpUpset) (s : State) (ho : Moves
      pts s₀ s) (hp : [.regs, .out, .basket, .host, .roi, .cores, .knots, .serve, .fault, .weave] ⊆ pts) :
    Moves pts s₀ (windowRow n a row ups s).1 := by
  simp only [List.cons_subset, List.nil_subset, and_true] at hp
  unfold windowRow
  (repeat' split) <;> simp (maxDischargeDepth := 80) only [List.cons_subset, List.nil_subset, and_self,
      State_setArray_only, spErrors_only, ho, hp]

theorem tapChunk_only {pts : List Part} {s₀ : State} (n a : Nat) (d : Desc) (ups : List SpUpset) (oy ox : Nat) (tap
      : Nat × Nat × Nat) (s : State) (ho : Moves pts s₀ s) (hp : [.regs, .out, .basket, .host, .roi, .cores,
      .knots, .serve, .fault, .weave] ⊆ pts) :
    Moves pts s₀ (tapChunk n a d ups oy ox tap s).1 := by
  simp only [List.cons_subset, List.nil_subset, and_true] at hp
  unfold tapChunk
  (repeat' split) <;> simp (maxDischargeDepth := 80) only [List.cons_subset, List.nil_subset, and_self,
      windowRow_only, ho, hp]

theorem rowTransfer_only {pts : List Part} {s₀ : State} (n a : Nat) (d : Desc) (ups : List SpUpset) (g tap : Nat ×
      Nat × Nat) (s : State) (ho : Moves pts s₀ s) (hp : [.regs, .out, .basket, .host, .roi, .cores, .knots,
      .serve, .fault, .weave] ⊆ pts) :
    Moves pts s₀ (rowTransfer n a d ups g tap s) := by
  have h := Moves.foldl_fst (l := List.range g.2.2) (p := (s, ([] : List (List Byte × Bool))))
    (f := fun p i => ((tapChunk n a d ups g.1 (g.2.1 + i) tap p.1).1,
      p.2 ++ [(bytesOf (tapChunk n a d ups g.1 (g.2.1 + i) tap p.1).2, anyBad (tapChunk n a d ups g.1 (g.2.1 + i)
      tap p.1).2)]))
    (fun p i => tapChunk_only n a d ups g.1 (g.2.1 + i) tap p.1 (Moves.refl _ _) hp) ho
  simp only [List.cons_subset, List.nil_subset, and_true] at hp
  exact State_setArray_only _ _ _ _ h (by simp [hp])

theorem weightTransfer_only {pts : List Part} {s₀ : State} (n : Nat) (d : Desc) (ups : List SpUpset) (ob k : Nat)
      (arrays : List Nat) (s : State) (ho : Moves pts s₀ s) (hp : [.regs, .out, .basket, .host, .roi, .cores,
      .knots, .serve, .fault, .weave] ⊆ pts) :
    Moves pts s₀ (weightTransfer n d ups ob k arrays s) := by
  simp only [List.cons_subset, List.nil_subset, and_true] at hp
  unfold weightTransfer
  simp (maxDischargeDepth := 80) only [Moves.refl, Moves.foldl, List.cons_subset, List.nil_subset, implies_true,
      and_self, State_setArray_only, spErrors_only, ho, hp]

theorem convTransfer_only {pts : List Part} {s₀ : State} (n : Nat) (d : Desc) (ups : List SpUpset) (ob : Nat) (gs :
      List (Nat × Nat × Nat)) (k : Nat) (s : State) (ho : Moves pts s₀ s) (hp : [.regs, .out, .basket, .host, .roi,
      .cores, .knots, .serve, .fault, .weave] ⊆ pts) :
    Moves pts s₀ (convTransfer n d ups ob gs k s) := by
  simp only [List.cons_subset, List.nil_subset, and_true] at hp
  unfold convTransfer
  simp (maxDischargeDepth := 80) only [Moves.refl, Moves.foldl, List.cons_subset, List.nil_subset, implies_true,
      and_self, rowTransfer_only, weightTransfer_only, ho, hp]

theorem convPass_only {pts : List Part} {s₀ : State} (n : Nat) (d : Desc) (ups : List SpUpset) (ob : Nat) (gs :
      List (Nat × Nat × Nat)) (dbuf p cycle : Nat) (s : State) (ho : Moves pts s₀ s) (hp : [.regs, .out, .basket,
      .host, .roi, .cores, .knots, .serve, .fault, .weave] ⊆ pts) :
    Moves pts s₀ (convPass n d ups ob gs dbuf p cycle s).1 := by
  simp only [List.cons_subset, List.nil_subset, and_true] at hp
  unfold convPass
  repeat' first
    | split
    | simp (maxDischargeDepth := 80) only [Moves.refl, Moves.foldl, List.cons_subset, List.nil_subset,
      implies_true, and_self, arrayFault_only, convTransfer_only, coreTo_only, issueUnits_only, ho, hp]

theorem convDrains_only {pts : List Part} {s₀ : State} (n : Nat) (d : Desc) (ob dbuf a : Nat) (g : Nat × Nat × Nat)
      (s : State) (ho : Moves pts s₀ s) (hp : [.cores, .mem, .poison] ⊆ pts) :
    Moves pts s₀ (convDrains n d ob dbuf a g s) := by
  simp only [List.cons_subset, List.nil_subset, and_true] at hp
  unfold convDrains
  simp (maxDischargeDepth := 80) only [Moves.refl, Moves.foldl, List.cons_subset, List.nil_subset, implies_true,
      and_self, drainRow_only, ho, hp]

theorem convRound_only {pts : List Part} {s₀ : State} (n : Nat) (d : Desc) (ups : List SpUpset) (t cycle : Nat) (s
      : State) (ho : Moves pts s₀ s) (hp : [.regs, .out, .basket, .host, .roi, .cores, .knots, .mem, .poison,
      .serve, .fault, .weave] ⊆ pts) :
    Moves pts s₀ (convRound n d ups t cycle s).1 := by
  simp only [List.cons_subset, List.nil_subset, and_true] at hp
  unfold convRound
  dsimp only
  have h := Moves.foldl_fst (l := List.range (ceilDiv (convK d) 64)) (p := (s, true))
    (f := fun (q : State × Bool) p =>
      if q.2 then convPass n d ups (t / blockRounds d)
        ([0, 1, 2, 3].map (fun a => groupAt d (4 * (t % blockRounds d) + a))) (freeEntries s n) p
        (cycle + 64 * transferCycles d * cElem d / 16 * p) q.1 else q)
    (fun q p => by split; exacts [convPass_only _ _ _ _ _ _ _ _ _ (Moves.refl _ _) (by simp [hp]), Moves.refl _ _])
      ho
  split
  · exact h
  · exact Moves.foldl (fun t g => convDrains_only _ _ _ _ _ _ _ (Moves.refl _ _) (by simp [hp]))
      (coreTo_only _ _ _ h (by simp [hp]))

theorem convRun_only {pts : List Part} {s₀ : State} (n : Nat) (ups : List SpUpset) (a2 a3 : Nat) (a4 : State) (ho :
      Moves pts s₀ a4) (hp : [.regs, .out, .basket, .host, .roi, .cores, .knots, .mem, .poison, .serve, .fault,
      .weave] ⊆ pts) :
    Moves pts s₀ (convRun n ups a2 a3 a4) := by
  have hp' := hp
  simp only [List.cons_subset, List.nil_subset, and_true] at hp
  induction a2 generalizing a3 a4 with
  | zero => exact ho
  | succ k ih =>
    simp only [convRun]
    split
    · exact ho
    · rename_i d t _
      have h := convRound_only n d ups t a3 a4 ho hp'
      split
      · exact h
      · exact ih _ _ (State_setCore_only _ _ _ h (by simp [hp]))

theorem convStart_only {pts : List Part} {s₀ : State} (n : Nat) (d : Desc) (s : State) (ho : Moves pts s₀ s) (hp :
      [.cores] ⊆ pts) :
    Moves pts s₀ (convStart n d s) := by
  simp only [List.cons_subset, List.nil_subset, and_true] at hp
  unfold convStart
  simp (maxDischargeDepth := 80) only [Moves.refl, Moves.foldl, List.cons_subset, List.nil_subset, implies_true,
      and_self, State_setArray_only, State_setCore_only, ho, hp]

theorem freqPixel_only {pts : List Part} {s₀ : State} (s0 : State) (n : Nat) (d : Desc) (ups : List SpUpset) (ob oy
      ox : Nat) (s : State) (ho : Moves pts s₀ s) (hp : [.mem, .poison] ⊆ pts) :
    Moves pts s₀ (freqPixel s0 n d ups ob oy ox s) := by
  simp only [List.cons_subset, List.nil_subset, and_true] at hp
  unfold freqPixel
  simp (maxDischargeDepth := 80) only [List.cons_subset, List.nil_subset, and_self, wrMarked_only, ho, hp]

theorem freqRun_only {pts : List Part} {s₀ : State} (n : Nat) (d : Desc) (ups : List SpUpset) (s : State) (ho :
      Moves pts s₀ s) (hp : [.regs, .out, .basket, .host, .roi, .cores, .knots, .mem, .poison, .serve, .fault,
      .weave] ⊆ pts) :
    Moves pts s₀ (freqRun n d ups s) := by
  simp only [List.cons_subset, List.nil_subset, and_true] at hp
  unfold freqRun
  simp (maxDischargeDepth := 80) only [Moves.refl, Moves.foldl, List.cons_subset, List.nil_subset, implies_true,
      and_self, freqPixel_only, rangeErrors_only, ho, hp]

theorem convExecute_only {pts : List Part} {s₀ : State} (n : Nat) (d : Desc) (cycle rounds : Nat) (ups : List
      SpUpset) (s : State) (ho : Moves pts s₀ s) (hp : [.regs, .out, .basket, .host, .roi, .cores, .knots, .mem,
      .poison, .serve, .fault, .weave] ⊆ pts) :
    Moves pts s₀ (convExecute n d cycle rounds ups s) := by
  simp only [List.cons_subset, List.nil_subset, and_true] at hp
  unfold convExecute
  (repeat' split) <;> simp (maxDischargeDepth := 80) only [List.cons_subset, List.nil_subset, and_self,
      convRun_only, convStart_only, freqRun_only, ho, hp]

theorem resamplePixel_only {pts : List Part} {s₀ : State} (s0 : State) (n : Nat) (d : Desc) (ups : List SpUpset)
      (cb oy ox : Nat) (s : State) (ho : Moves pts s₀ s) (hp : [.mem, .poison] ⊆ pts) :
    Moves pts s₀ (resamplePixel s0 n d ups cb oy ox s) := by
  simp only [List.cons_subset, List.nil_subset, and_true] at hp
  unfold resamplePixel
  simp (maxDischargeDepth := 80) only [List.cons_subset, List.nil_subset, and_self, wrMarked_only, ho, hp]

theorem resampleExecute_only {pts : List Part} {s₀ : State} (n : Nat) (d : Desc) (ups : List SpUpset) (s : State)
      (ho : Moves pts s₀ s) (hp : [.regs, .out, .basket, .host, .roi, .cores, .knots, .mem, .poison, .serve,
      .fault, .weave] ⊆ pts) :
    Moves pts s₀ (resampleExecute n d ups s) := by
  simp only [List.cons_subset, List.nil_subset, and_true] at hp
  unfold resampleExecute
  simp (maxDischargeDepth := 80) only [Moves.ite_iff, Moves.refl, Moves.foldl, List.cons_subset, List.nil_subset,
      implies_true, and_self, rangeErrors_only, resamplePixel_only, ho, hp]

theorem plaitFail_only {pts : List Part} {s₀ : State} (n : Nat) (x : PlaitXfer) (c : Code) (s : State) (ho : Moves
      pts s₀ s) (hp : [.regs, .out, .basket, .host, .roi, .cores, .knots, .serve, .fault, .weave] ⊆ pts) :
    Moves pts s₀ (plaitFail n x c s) := by
  simp only [List.cons_subset, List.nil_subset, and_true] at hp
  unfold plaitFail
  simp (maxDischargeDepth := 80) only [Moves.ite_iff, List.cons_subset, List.nil_subset, implies_true, and_self,
      State_emit_only, latch_only, unitFault_only, ho, hp]

theorem plaitDone_only {pts : List Part} {s₀ : State} (x : PlaitXfer) (s : State) (ho : Moves pts s₀ s) (hp :
      [.host, .knots] ⊆ pts) :
    Moves pts s₀ (plaitDone x s) := by
  simp only [List.cons_subset, List.nil_subset, and_true] at hp
  unfold plaitDone
  (repeat' split) <;> simp (maxDischargeDepth := 80) only [List.cons_subset, List.nil_subset, and_self,
      signalKnot_only, ho, hp]

theorem putRawRows_only {pts : List Part} {s₀ : State} (n a1 a2 : Nat) (a3 : Marked) (a4 : State) (ho : Moves pts
      s₀ a4) (hp : [.regs, .out, .basket, .host, .roi, .cores, .knots, .mem, .poison, .serve, .fault, .weave] ⊆
      pts) :
    Moves pts s₀ (putRawRows n a1 a2 a3 a4).1 := by
  have hp' := hp
  simp only [List.cons_subset, List.nil_subset, and_true] at hp
  induction a1 generalizing a2 a3 a4 with
  | zero => exact ho
  | succ f ih =>
    simp only [putRawRows]
    split
    · exact ho
    · split
      · exact spFault_only _ _ _ _ ho (by simp [hp])
      · exact ih _ _ _ (wrMarked_only _ _ _ (gBefore_only _ _ _ ho (by simp [hp])) (by simp [hp]))

theorem plaitForget_only {pts : List Part} {s₀ : State} (n : Nat) (x : PlaitXfer) (us : List (Nat × Nat)) (s :
      State) (ho : Moves pts s₀ s) (hp : [.cores] ⊆ pts) :
    Moves pts s₀ (plaitForget n x us s) := by
  simp only [List.cons_subset, List.nil_subset, and_true] at hp
  unfold plaitForget
  (repeat' split) <;> simp (maxDischargeDepth := 80) only [Moves.refl, Moves.foldl, List.cons_subset,
      List.nil_subset, implies_true, and_self, dropFetched_only, ho, hp]

theorem deliverRows_only {pts : List Part} {s₀ : State} (n : Nat) (x : PlaitXfer) (row : Nat) (l : Marked) (s :
      State) (ho : Moves pts s₀ s) (hp : [.regs, .out, .basket, .host, .roi, .cores, .knots, .mem, .poison, .serve,
      .fault, .weave] ⊆ pts) :
    Moves pts s₀ (deliverRows n x row l s).1 := by
  simp only [List.cons_subset, List.nil_subset, and_true] at hp
  unfold deliverRows
  repeat' first
    | split
    | simp (maxDischargeDepth := 80) only [List.cons_subset, List.nil_subset, and_self, plaitFail_only,
      putRawRows_only, ho, hp]

theorem plaitDecodeRun_only {pts : List Part} {s₀ : State} (n : Nat) (x : PlaitXfer) (s : State) (ho : Moves pts s₀
      s) (hp : [.regs, .out, .freeCtr, .basket, .host, .roi, .cores, .knots, .mem, .poison, .serve, .fault, .weave]
      ⊆ pts) :
    Moves pts s₀ (plaitDecodeRun n x s) := by
  simp only [List.cons_subset, List.nil_subset, and_true] at hp
  unfold plaitDecodeRun
  simp (maxDischargeDepth := 80) only [FuseMoves.refl, imp_self, Moves.ite_iff, Moves.upd, List.cons_subset,
      List.nil_subset, and_true, true_or, or_true, implies_true, and_self, State_bumpSat_only, deliverRows_only,
      plaitDone_only, plaitFail_only, ho, hp]

theorem plaitDecode_only {pts : List Part} {s₀ : State} (n : Nat) (x : PlaitXfer) (s : State) (ho : Moves pts s₀ s)
      (hp : [.regs, .out, .freeCtr, .basket, .host, .roi, .cores, .knots, .mem, .poison, .serve, .fault, .weave] ⊆
      pts) :
    Moves pts s₀ (plaitDecode n x s) := by
  simp only [List.cons_subset, List.nil_subset, and_true] at hp
  unfold plaitDecode
  (repeat' split) <;> simp (maxDischargeDepth := 80) only [Moves.ite_iff, List.cons_subset, List.nil_subset,
      implies_true, and_self, askRow_only, plaitDecodeRun_only, plaitFail_only, plaitForget_only, spFault_only, ho,
      hp]

theorem remotePut_only {pts : List Part} {s₀ : State} (p : BitVec 6) (a1 a2 : Nat) (a3 : Marked) (a4 : State) (ho :
      Moves pts s₀ a4) (hp : [.regs, .out, .basket] ⊆ pts) :
    Moves pts s₀ (remotePut p a1 a2 a3 a4) := by
  simp only [List.cons_subset, List.nil_subset, and_true] at hp
  induction a1 generalizing p a2 a3 a4 with
  | zero =>
    unfold remotePut
    simp (maxDischargeDepth := 80) only [ho]
  | succ a1 ih =>
    unfold remotePut
    simp (maxDischargeDepth := 80) only [Moves.ite_iff, List.cons_subset, List.nil_subset, implies_true, and_self,
      sendLoose_only, ih, ho, hp]

theorem plaitPut_only {pts : List Part} {s₀ : State} (n a : Nat) (l : Marked) (s : State) (ho : Moves pts s₀ s) (hp
      : [.regs, .out, .basket, .host, .roi, .cores, .knots, .mem, .poison, .serve, .fault, .weave] ⊆ pts) :
    Moves pts s₀ (plaitPut n a l s) := by
  simp only [List.cons_subset, List.nil_subset, and_true] at hp
  unfold plaitPut
  (repeat' split) <;> simp (maxDischargeDepth := 80) only [Moves.ite_iff, List.cons_subset, List.nil_subset,
      implies_true, and_self, State_setCore_only, hostPut_only, latch_only, remotePut_only, spFault_only,
      weaveFault_only, wrMarked_only, ho, hp]

theorem plaitFinish_only {pts : List Part} {s₀ : State} (n : Nat) (x : PlaitXfer) (s : State) (ho : Moves pts s₀ s)
      (hp : [.host, .cores, .knots] ⊆ pts) :
    Moves pts s₀ (plaitFinish n x s) := by
  simp only [List.cons_subset, List.nil_subset, and_true] at hp
  unfold plaitFinish
  simp (maxDischargeDepth := 80) only [Moves.ite_iff, List.cons_subset, List.nil_subset, implies_true, and_self,
      State_setCore_only, plaitDone_only, pushOuts_only, ho, hp]

theorem plaitEncodeRun_only {pts : List Part} {s₀ : State} (n : Nat) (x : PlaitXfer) (s : State) (ho : Moves pts s₀
      s) (hp : [.regs, .out, .basket, .host, .roi, .cores, .knots, .mem, .poison, .serve, .fault, .weave] ⊆ pts) :
    Moves pts s₀ (plaitEncodeRun n x s) := by
  simp only [List.cons_subset, List.nil_subset, and_true] at hp
  unfold plaitEncodeRun
  repeat' first
    | split
    | simp (maxDischargeDepth := 80) only [Moves.ite_iff, Moves.refl, Moves.foldl, List.cons_subset,
      List.nil_subset, implies_true, and_self, State_bumpSat_only, gBefore_only, plaitFinish_only, plaitPut_only,
      rangeErrors_only, spFault_only, ho, hp]

theorem plaitEncode_only {pts : List Part} {s₀ : State} (n : Nat) (x : PlaitXfer) (s : State) (ho : Moves pts s₀ s)
      (hp : [.regs, .out, .basket, .host, .roi, .cores, .knots, .mem, .poison, .serve, .fault, .weave] ⊆ pts) :
    Moves pts s₀ (plaitEncode n x s) := by
  simp only [List.cons_subset, List.nil_subset, and_true] at hp
  unfold plaitEncode
  (repeat' split) <;> simp (maxDischargeDepth := 80) only [Moves.ite_iff, List.cons_subset, List.nil_subset,
      implies_true, and_self, plaitEncodeRun_only, plaitFail_only, spFault_only, ho, hp]

theorem setProts_only {pts : List Part} {s₀ : State} (pl : Placement) (s : State) (ho : Moves pts s₀ s) (hp :
      [.regs] ⊆ pts) :
    Moves pts s₀ (setProts pl s) := by
  unfold setProts
  refine Moves.foldl (fun t i => ?_) ho
  split
  · exact State_setReg_only _ _ _ (State_setReg_only _ _ _ (Moves.refl _ _) hp) hp
  · exact Moves.refl _ _

end Sys2Proof.Machine
end

