-- ==== Sys2Proof/Laws/FrameServe.lean ====
section
/-!
SUPPORT. FrameServe.lean: what the serving layer, the restart and weaves change at most, that each keeps
the canonical form, and that none clears a fuse bit: one lemma per operation.
-/

set_option linter.all false

namespace Sys2Proof.Machine

theorem putCtx_only {pts : List Part} {s₀ : State} (c : Ctx) (s : State) (ho : Moves pts s₀ s) (hp : [.serve] ⊆
      pts) :
    Moves pts s₀ (putCtx c s) := by
  simp only [List.cons_subset, List.nil_subset, and_true] at hp
  unfold putCtx
  simp (maxDischargeDepth := 80) only [FuseMoves.refl, imp_self, Moves.upd, and_true, true_or, or_true, and_self,
      ho, hp]

theorem dropCtx_only {pts : List Part} {s₀ : State} (owner : BitVec 6) (req : Nat) (s : State) (ho : Moves pts s₀
      s) (hp : [.serve] ⊆ pts) :
    Moves pts s₀ (dropCtx owner req s) := by
  simp only [List.cons_subset, List.nil_subset, and_true] at hp
  unfold dropCtx
  simp (maxDischargeDepth := 80) only [FuseMoves.refl, imp_self, Moves.upd, and_true, true_or, or_true, and_self,
      ho, hp]

theorem kvFault_only {pts : List Part} {s₀ : State} (s : State) (ho : Moves pts s₀ s) (hp : [.regs, .out, .basket,
      .host, .roi, .cores, .knots, .serve, .fault, .weave] ⊆ pts) :
    Moves pts s₀ (kvFault s) := by
  simp only [List.cons_subset, List.nil_subset, and_true] at hp
  unfold kvFault
  simp (maxDischargeDepth := 80) only [List.cons_subset, List.nil_subset, and_self, unitFault_only, ho, hp]

theorem reserve_only {pts : List Part} {s₀ : State} (tokens : Nat) (c : Ctx) (s : State) (t : State)
    (hr : reserve tokens c s = some t) (ho : Moves pts s₀ s) (hp : [.freeCtr, .mem, .poison, .serve] ⊆ pts) :
    Moves pts s₀ t := by
  simp only [List.cons_subset, List.nil_subset, and_true] at hp
  simp only [reserve] at hr
  split at hr
  · exact absurd hr (by simp only [reduceCtorEq, not_false_eq_true])
  · split at hr
    · exact absurd hr (by simp only [reduceCtorEq, not_false_eq_true])
    · rw [Option.some.injEq] at hr
      subst hr
      have h : Moves pts s₀ { s with freeCtr := s.freeCtr + 1 } := by
        simp (maxDischargeDepth := 80) only [imp_self, Moves.upd, true_or, or_true, ho, hp]
      exact Moves.ite (putCtx_only _ _ h (by simp [hp])) (wrMarked_only _ _ _ (putCtx_only _ _ h (by simp [hp]))
      (by simp [hp]))

theorem writeKv_only {pts : List Part} {s₀ : State} (c : Ctx) (held o : Nat) (contents : List Marked) (s : State)
      (ho : Moves pts s₀ s) (hp : [.mem, .poison, .serve] ⊆ pts) :
    Moves pts s₀ (writeKv c held o contents s) := by
  simp only [List.cons_subset, List.nil_subset, and_true] at hp
  unfold writeKv
  simp (maxDischargeDepth := 80) only [Moves.refl, Moves.foldl, List.cons_subset, List.nil_subset, implies_true,
      and_self, putCtx_only, wrMarked_only, ho, hp]

theorem badWord_only {pts : List Part} {s₀ : State} (s : State) (ho : Moves pts s₀ s) (hp : [.regs, .out, .basket,
      .host, .roi, .cores, .knots, .serve, .fault, .weave] ⊆ pts) :
    Moves pts s₀ (badWord s) := by
  simp only [List.cons_subset, List.nil_subset, and_true] at hp
  unfold badWord
  simp (maxDischargeDepth := 80) only [List.cons_subset, List.nil_subset, and_self, unitFault_only, ho, hp]

theorem onOrder_only {pts : List Part} {s₀ : State} (kind : Nat) (w : LinkWord) (k : State → State) (s : State) (ho
      : Moves pts s₀ s) (hk : ∀ t, Moves pts t (k t)) (hp : [.regs, .out, .basket, .host, .roi, .cores, .knots,
      .serve, .fault, .weave] ⊆ pts) :
    Moves pts s₀ (onOrder kind w k s) := by
  simp only [List.cons_subset, List.nil_subset, and_true] at hp
  have hk' : ∀ t, Moves pts s₀ t → Moves pts s₀ (k t) := fun t h => h.trans (hk t)
  unfold onOrder
  simp (maxDischargeDepth := 80) only [Moves.ite_iff, List.cons_subset, List.nil_subset, implies_true, and_self,
      badWord_only, ho, hk', hp]

theorem indexCrop_only {pts : List Part} {s₀ : State} (owner : BitVec 6) (k : Nat) (e : Desc) (s : State) (ho :
      Moves pts s₀ s) (hp : [.mem, .poison] ⊆ pts) :
    Moves pts s₀ (indexCrop owner k e s) := by
  simp only [List.cons_subset, List.nil_subset, and_true] at hp
  unfold indexCrop
  repeat' first
    | split
    | simp (maxDischargeDepth := 80) only [List.cons_subset, List.nil_subset, and_self, wrMem_only, ho, hp]

theorem adaptEntries_only {pts : List Part} {s₀ : State} (u : AdapterPass) (p : AdapterPart) (bad : Bool) (s :
      State) (ho : Moves pts s₀ s) (hp : [.cores] ⊆ pts) :
    Moves pts s₀ (adaptEntries u p bad s) := by
  simp only [List.cons_subset, List.nil_subset, and_true] at hp
  unfold adaptEntries
  simp (maxDischargeDepth := 80) only [List.cons_subset, List.nil_subset, and_self, State_setArray_only, ho, hp]

theorem adaptOne_only {pts : List Part} {s₀ : State} (a : AdapterRun) (s : State) (u : AdapterPass) (ho : Moves pts
      s₀ s) (hp : [.cores] ⊆ pts) :
    Moves pts s₀ (adaptOne a s u) := by
  simp only [List.cons_subset, List.nil_subset, and_true] at hp
  unfold adaptOne
  (repeat' split) <;> simp (maxDischargeDepth := 80) only [List.cons_subset, List.nil_subset, and_self,
      adaptEntries_only, ho, hp]

theorem adapt_only {pts : List Part} {s₀ : State} (tenant : BitVec 12) (gen : BitVec 8) (us : List AdapterPass) (s
      : State) (ho : Moves pts s₀ s) (hp : [.cores] ⊆ pts) :
    Moves pts s₀ (adapt tenant gen us s) := by
  simp only [List.cons_subset, List.nil_subset, and_true] at hp
  unfold adapt
  (repeat' split) <;> simp (maxDischargeDepth := 80) only [Moves.refl, Moves.foldl, List.cons_subset,
      List.nil_subset, implies_true, and_self, adaptOne_only, ho, hp]

theorem orderChunk_only {pts : List Part} {s₀ : State} (w : LinkWord) (owner : BitVec 6) (e : Desc) (pages : List
      (List Byte)) (ads : List AdapterPass) (s : State) (ho : Moves pts s₀ s) (hp : [.regs, .out, .freeCtr,
      .basket, .host, .roi, .cores, .knots, .mem, .poison, .serve, .fault, .weave] ⊆ pts) :
    Moves pts s₀ (orderChunk w owner e pages ads s) := by
  simp only [List.cons_subset, List.nil_subset, and_true] at hp
  simp only [orderChunk]
  split
  · exact ho
  · split
    · exact ho
    · split
      · exact ho
      · rename_i h
        have h := reserve_only _ _ _ _ h ho (by simp [hp])
        split
        · exact h
        · split
          · exact kvFault_only _ h (by simp [hp])
          · exact sendReport_only _ _ _ (writeKv_only _ _ _ _ _ (adapt_only _ _ _ _ h (by simp [hp])) (by simp
      [hp]))
              (by simp [hp])

theorem sendPart_only {pts : List Part} {s₀ : State} (c : Ctx) (kind : Nat) (dst : BitVec 6) (coded : Bool) (x :
      Word) (a5 a6 : Nat) (a7 : Marked) (a8 : State) (ho : Moves pts s₀ a8) (hp : [.regs, .out, .basket] ⊆ pts) :
    Moves pts s₀ (sendPart c kind dst coded x a5 a6 a7 a8) := by
  simp only [List.cons_subset, List.nil_subset, and_true] at hp
  induction a5 generalizing c kind dst coded x a6 a7 a8 with
  | zero =>
    unfold sendPart
    simp (maxDischargeDepth := 80) only [ho]
  | succ a5 ih =>
    unfold sendPart
    simp (maxDischargeDepth := 80) only [Moves.ite_iff, List.cons_subset, List.nil_subset, implies_true, and_self,
      sendLoose_only, ih, ho, hp]

theorem kvNote_only {pts : List Part} {s₀ : State} (c : Ctx) (kind : Nat) (dst : BitVec 6) (coded : Bool) (x :
      Word) (v : Nat) (s : State) (ho : Moves pts s₀ s) (hp : [.regs, .out, .basket] ⊆ pts) :
    Moves pts s₀ (kvNote c kind dst coded x v s) := by
  simp only [List.cons_subset, List.nil_subset, and_true] at hp
  unfold kvNote
  simp (maxDischargeDepth := 80) only [List.cons_subset, List.nil_subset, and_self, sendLoose_only, ho, hp]

theorem sendCache_only {pts : List Part} {s₀ : State} (c : Ctx) (dst : BitVec 6) (coded : Bool) (x : Word) (list
      raw : Marked) (s : State) (ho : Moves pts s₀ s) (hp : [.regs, .out, .basket] ⊆ pts) :
    Moves pts s₀ (sendCache c dst coded x list raw s) := by
  simp only [List.cons_subset, List.nil_subset, and_true] at hp
  unfold sendCache
  simp (maxDischargeDepth := 80) only [List.cons_subset, List.nil_subset, and_self, kvNote_only, sendPart_only, ho,
      hp]

theorem shipFrom_only {pts : List Part} {s₀ : State} (c : Ctx) (fromCopy coded : Bool) (dst : BitVec 6) (x : Word)
      (s : State) (ho : Moves pts s₀ s) (hp : [.regs, .out, .basket, .serve] ⊆ pts) :
    Moves pts s₀ (shipFrom c fromCopy coded dst x s) := by
  simp only [List.cons_subset, List.nil_subset, and_true] at hp
  unfold shipFrom
  repeat' first
    | split
    | simp (maxDischargeDepth := 80) only [Moves.ite_iff, List.cons_subset, List.nil_subset, implies_true,
      and_self, State_bumpSat_only, State_emit_only, latch_only, putCtx_only, sendCache_only, ho, hp]

theorem expectCache_only {pts : List Part} {s₀ : State} (owner : BitVec 6) (req : Nat) (e : Desc) (x : Word) (s :
      State) (ho : Moves pts s₀ s) (hp : [.freeCtr, .mem, .poison, .serve] ⊆ pts) :
    Moves pts s₀ (expectCache owner req e x s) := by
  simp only [expectCache]
  split
  · rename_i h; exact reserve_only _ _ _ _ h ho hp
  · exact ho

theorem orderShip_only {pts : List Part} {s₀ : State} (w : LinkWord) (owner : BitVec 6) (e : Desc) (s : State) (ho
      : Moves pts s₀ s) (hp : [.regs, .out, .freeCtr, .basket, .mem, .poison, .serve] ⊆ pts) :
    Moves pts s₀ (orderShip w owner e s) := by
  simp only [List.cons_subset, List.nil_subset, and_true] at hp
  unfold orderShip
  repeat' split
  · exact expectCache_only _ _ _ _ _ ho (by simp [hp])
  · exact shipFrom_only _ _ _ _ _ _ ho (by simp [hp])
  · exact ho

theorem kvFail_only {pts : List Part} {s₀ : State} (m : Loose) (c : Ctx) (v : Code) (s : State) (ho : Moves pts s₀
      s) (hp : [.regs, .out, .basket, .host, .serve] ⊆ pts) :
    Moves pts s₀ (kvFail m c v s) := by
  simp only [List.cons_subset, List.nil_subset, and_true] at hp
  unfold kvFail
  simp (maxDischargeDepth := 80) only [List.cons_subset, List.nil_subset, and_self, kvNote_only, latch_only,
      postEvent_only, putCtx_only, sendReport_only, ho, hp]

theorem onShip_only {pts : List Part} {s₀ : State} (kind : Nat) (m : Loose) (have_ : Ctx → Nat) (k : Ctx → State →
      State) (s : State) (ho : Moves pts s₀ s) (hk : ∀ x0 t, Moves pts t (k x0 t)) (hp : [.regs, .out, .basket,
      .host, .serve] ⊆ pts) :
    Moves pts s₀ (onShip kind m have_ k s) := by
  simp only [List.cons_subset, List.nil_subset, and_true] at hp
  have hk' : ∀ x0 t, Moves pts s₀ t → Moves pts s₀ (k x0 t) := fun x0 t h => h.trans (hk x0 t)
  unfold onShip
  (repeat' split) <;> simp (maxDischargeDepth := 80) only [List.cons_subset, List.nil_subset, and_self,
      kvFail_only, ho, hk', hp]

theorem kvShipList_only {pts : List Part} {s₀ : State} (m : Loose) (s : State) (ho : Moves pts s₀ s) (hp : [.regs,
      .out, .basket, .host, .serve] ⊆ pts) :
    Moves pts s₀ (kvShipList m s) := by
  simp only [List.cons_subset, List.nil_subset, and_true] at hp
  unfold kvShipList
  simp (maxDischargeDepth := 80) only [Moves.ite_iff, Moves.refl, List.cons_subset, List.nil_subset, implies_true,
      and_self, kvFail_only, onShip_only, putCtx_only, ho, hp]

theorem kvShipPages_only {pts : List Part} {s₀ : State} (m : Loose) (s : State) (ho : Moves pts s₀ s) (hp : [.regs,
      .out, .basket, .host, .serve] ⊆ pts) :
    Moves pts s₀ (kvShipPages m s) := by
  simp only [List.cons_subset, List.nil_subset, and_true] at hp
  unfold kvShipPages
  simp (maxDischargeDepth := 80) only [Moves.ite_iff, Moves.refl, List.cons_subset, List.nil_subset, implies_true,
      and_self, kvFail_only, onShip_only, putCtx_only, ho, hp]

theorem sealSlot_only {pts : List Part} {s₀ : State} (k req : Nat) (plain : List Byte) (s : State) (ho : Moves pts
      s₀ s) (hp : [.regs, .out, .basket, .serve] ⊆ pts) :
    Moves pts s₀ (sealSlot k req plain s) := by
  simp only [List.cons_subset, List.nil_subset, and_true] at hp
  unfold sealSlot
  simp (maxDischargeDepth := 80) only [FuseMoves.refl, imp_self, Moves.upd, List.cons_subset, List.nil_subset,
      and_true, true_or, or_true, and_self, hostPut_only, ho, hp]

theorem freeSlot_only {pts : List Part} {s₀ : State} (k : Nat) (s : State) (ho : Moves pts s₀ s) (hp : [.regs,
      .out, .basket, .serve] ⊆ pts) :
    Moves pts s₀ (freeSlot k s) := by
  simp only [List.cons_subset, List.nil_subset, and_true] at hp
  unfold freeSlot
  simp (maxDischargeDepth := 80) only [FuseMoves.refl, imp_self, Moves.upd, List.cons_subset, List.nil_subset,
      and_true, true_or, or_true, and_self, hostPut_only, ho, hp]

theorem inHostSlot_only {pts : List Part} {s₀ : State} (req k : Nat) (s : State) (ho : Moves pts s₀ s) (hp :
      [.serve] ⊆ pts) :
    Moves pts s₀ (inHostSlot req k s) := by
  simp only [List.cons_subset, List.nil_subset, and_true] at hp
  unfold inHostSlot
  repeat' first
    | split
    | simp (maxDischargeDepth := 80) only [rising_set_iff, FuseMoves.refl, imp_self, Moves.upd, and_true, true_or,
      or_true, and_self, ho, hp]

theorem placeCache_only {pts : List Part} {s₀ : State} (c : Ctx) (ps : List Marked) (s : State) (ho : Moves pts s₀
      s) (hp : [.mem, .poison, .serve] ⊆ pts) :
    Moves pts s₀ (placeCache c ps s) := by
  simp only [List.cons_subset, List.nil_subset, and_true] at hp
  unfold placeCache
  simp (maxDischargeDepth := 80) only [List.cons_subset, List.nil_subset, and_self, writeKv_only, ho, hp]

theorem sealArrived_only {pts : List Part} {s₀ : State} (m : Loose) (c : Ctx) (k : Nat) (ps : List (List Byte)) (s
      : State) (ho : Moves pts s₀ s) (hp : [.regs, .out, .basket, .host, .roi, .cores, .knots, .serve, .fault,
      .weave] ⊆ pts) :
    Moves pts s₀ (sealArrived m c k ps s) := by
  simp only [List.cons_subset, List.nil_subset, and_true] at hp
  unfold sealArrived
  simp (maxDischargeDepth := 80) only [Moves.ite_iff, List.cons_subset, List.nil_subset, implies_true, and_self,
      dropCtx_only, inHostSlot_only, kvNote_only, postEvent_only, sealSlot_only, unitFault_only, ho, hp]

theorem kvShipEnd_only {pts : List Part} {s₀ : State} (m : Loose) (s : State) (ho : Moves pts s₀ s) (hp : [.regs,
      .out, .basket, .host, .roi, .cores, .knots, .mem, .poison, .serve, .fault, .weave] ⊆ pts) :
    Moves pts s₀ (kvShipEnd m s) := by
  simp only [List.cons_subset, List.nil_subset, and_true] at hp
  unfold kvShipEnd
  repeat' first
    | (simp (maxDischargeDepth := 80) only [Moves.ite_iff, Moves.refl, List.cons_subset, List.nil_subset,
      implies_true, and_self, kvFail_only, kvNote_only, placeCache_only, sealArrived_only, sendReport_only, ho,
      hp]; done)
    | intro _
    | split
    | refine Moves.foldl (fun _ _ => ?_) ?_
    | with_reducible apply kvFail_only
    | with_reducible apply kvNote_only
    | with_reducible apply onShip_only
    | with_reducible apply placeCache_only
    | with_reducible apply sealArrived_only
    | with_reducible apply sendReport_only

theorem kvShipAck_only {pts : List Part} {s₀ : State} (m : Loose) (s : State) (ho : Moves pts s₀ s) (hp : [.out,
      .basket, .serve] ⊆ pts) :
    Moves pts s₀ (kvShipAck m s) := by
  simp only [List.cons_subset, List.nil_subset, and_true] at hp
  unfold kvShipAck
  (repeat' split) <;> simp (maxDischargeDepth := 80) only [Moves.ite_iff, List.cons_subset, List.nil_subset,
      implies_true, and_self, dropCtx_only, putCtx_only, sendReport_only, ho, hp]

theorem kvShipNak_only {pts : List Part} {s₀ : State} (m : Loose) (s : State) (ho : Moves pts s₀ s) (hp : [.out] ⊆
      pts) :
    Moves pts s₀ (kvShipNak m s) := by
  simp only [List.cons_subset, List.nil_subset, and_true] at hp
  unfold kvShipNak
  (repeat' split) <;> simp (maxDischargeDepth := 80) only [List.cons_subset, List.nil_subset, and_self,
      State_emit_only, ho, hp]

theorem orderParkStore_only {pts : List Part} {s₀ : State} (w : LinkWord) (owner : BitVec 6) (s : State) (ho :
      Moves pts s₀ s) (hp : [.freeCtr, .serve] ⊆ pts) :
    Moves pts s₀ (orderParkStore w owner s) := by
  simp only [List.cons_subset, List.nil_subset, and_true] at hp
  unfold orderParkStore
  repeat' first
    | split
    | simp (maxDischargeDepth := 80) only [FuseMoves.refl, imp_self, Moves.upd, List.cons_subset, List.nil_subset,
      and_true, true_or, or_true, and_self, putCtx_only, ho, hp]

theorem parkCopyDone_only {pts : List Part} {s₀ : State} (owner : BitVec 6) (req : Nat) (s : State) (ho : Moves pts
      s₀ s) (hp : [.regs, .out, .basket, .mem, .poison, .serve] ⊆ pts) :
    Moves pts s₀ (parkCopyDone owner req s) := by
  simp only [List.cons_subset, List.nil_subset, and_true] at hp
  unfold parkCopyDone
  (repeat' split) <;> simp (maxDischargeDepth := 80) only [Moves.refl, Moves.foldl, List.cons_subset,
      List.nil_subset, implies_true, and_self, latch_only, putCtx_only, sendReport_only, wrMarked_only, ho, hp]

theorem moveToHost_only {pts : List Part} {s₀ : State} (holder : BitVec 6) (s : State) (ho : Moves pts s₀ s) (hp :
      [.regs, .out, .freeCtr, .basket, .host, .roi, .cores, .knots, .serve, .fault, .weave] ⊆ pts) :
    Moves pts s₀ (moveToHost holder s).1 := by
  simp only [List.cons_subset, List.nil_subset, and_true] at hp
  unfold moveToHost
  repeat' first
    | split
    | simp (maxDischargeDepth := 80) only [FuseMoves.refl, imp_self, Moves.upd, List.cons_subset, List.nil_subset,
      and_true, true_or, or_true, and_self, dropCtx_only, inHostSlot_only, postEvent_only, putCtx_only,
      sealSlot_only, sendOrder_only, unitFault_only, ho, hp]

theorem orderParkHost_only {pts : List Part} {s₀ : State} (w : LinkWord) (owner : BitVec 6) (s : State) (ho : Moves
      pts s₀ s) (hp : [.regs, .out, .basket, .serve] ⊆ pts) :
    Moves pts s₀ (orderParkHost w owner s) := by
  simp only [List.cons_subset, List.nil_subset, and_true] at hp
  unfold orderParkHost
  (repeat' split) <;> simp (maxDischargeDepth := 80) only [List.cons_subset, List.nil_subset, and_self,
      shipFrom_only, ho, hp]

theorem adopt_only {pts : List Part} {s₀ : State} (c : Ctx) (l : Marked) (s : State) (t : State)
    (hr : adopt c l s = some t) (ho : Moves pts s₀ s) (hp : [.mem, .poison, .serve] ⊆ pts) :
    Moves pts s₀ t := by
  simp only [adopt] at hr
  split at hr
  · rw [Option.some.injEq] at hr
    subst hr
    exact placeCache_only _ _ _ ho hp
  · exact absurd hr (by simp only [reduceCtorEq, not_false_eq_true])

theorem readyCtx_only {pts : List Part} {s₀ : State} (owner : BitVec 6) (req : Nat) (e : Desc) (s : State) (t :
      State) (q : _)
    (hr : readyCtx owner req e s = some (q, t)) (ho : Moves pts s₀ s) (hp : [.freeCtr, .mem, .poison, .serve] ⊆
      pts) :
    Moves pts s₀ t := by
  simp only [readyCtx] at hr
  split at hr
  · rename_i u hu
    simp only [Option.map_eq_some_iff] at hr
    obtain ⟨c, _, hc⟩ := hr
    cases hc
    exact reserve_only _ _ _ _ hu ho hp
  · cases hr

theorem failReq_only {pts : List Part} {s₀ : State} (req : Nat) (c : Code) (s : State) (ho : Moves pts s₀ s) (hp :
      [.regs, .serve] ⊆ pts) :
    Moves pts s₀ (failReq req c s) := by
  simp only [List.cons_subset, List.nil_subset, and_true] at hp
  unfold failReq
  simp (maxDischargeDepth := 80) only [rising_set_iff, FuseMoves.refl, imp_self, Moves.upd, List.cons_subset,
      List.nil_subset, and_true, true_or, or_true, and_self, latch_only, ho, hp]

theorem unparkHost_only {pts : List Part} {s₀ : State} (w : LinkWord) (e : Desc) (slot : List Byte) (s : State) (ho
      : Moves pts s₀ s) (hp : [.regs, .out, .freeCtr, .basket, .mem, .poison, .serve] ⊆ pts) :
    Moves pts s₀ (unparkHost w e slot s) := by
  simp only [List.cons_subset, List.nil_subset, and_true] at hp
  simp only [unparkHost]
  split
  · exact failReq_only _ _ _ ho (by simp [hp])
  · split
    · split
      · exact ho
      · rename_i h
        have h := readyCtx_only _ _ _ _ _ _ h ho (by simp [hp])
        split
        · exact failReq_only _ _ _ h (by simp [hp])
        · rename_i k
          exact sendReport_only _ _ _ (adopt_only _ _ _ _ k h (by simp [hp])) (by simp [hp])
    · exact sendCache_only _ _ _ _ _ _ _ ho (by simp [hp])

theorem orderUnpark_only {pts : List Part} {s₀ : State} (w : LinkWord) (owner : BitVec 6) (e : Desc) (slot : List
      Byte) (s : State) (ho : Moves pts s₀ s) (hp : [.regs, .out, .freeCtr, .basket, .host, .roi, .cores, .knots,
      .mem, .poison, .serve, .fault, .weave] ⊆ pts) :
    Moves pts s₀ (orderUnpark w owner e slot s) := by
  simp only [List.cons_subset, List.nil_subset, and_true] at hp
  dsimp only [orderUnpark]
  refine Moves.ite (unparkHost_only _ _ _ _ ho (by simp [hp])) ?_
  generalize Option.bind (s.ctx owner (wReq w)) (fun c => c.copy) = x
  cases x with
  | none => exact Moves.ite (expectCache_only _ _ _ _ _ ho (by simp [hp])) ho
  | some pc =>
    dsimp only
    split
    · split
      · exact ho
      · rename_i h
        have h := readyCtx_only _ _ _ _ _ _ h ho (by simp [hp])
        split
        · exact kvFault_only _ h (by simp [hp])
        · rename_i k
          have k := adopt_only _ _ _ _ k h (by simp [hp])
          refine sendReport_only _ _ _ ?_ (by simp [hp])
          split
          · exact k
          · split
            · exact putCtx_only _ _ k (by simp [hp])
            · exact k
    · split
      · exact shipFrom_only _ _ _ _ _ _ ho (by simp [hp])
      · exact ho

theorem newKey_only {pts : List Part} {s₀ : State} (s : State) (ho : Moves pts s₀ s) (hp : [.regs, .freeCtr,
      .serve] ⊆ pts) :
    Moves pts s₀ (newKey s) := by
  simp only [List.cons_subset, List.nil_subset, and_true] at hp
  unfold newKey
  simp (maxDischargeDepth := 80) only [FuseMoves.refl, imp_self, Moves.ite_iff, Moves.upd, List.cons_subset,
      List.nil_subset, and_true, true_or, or_true, implies_true, and_self, refuse_only, ho, hp]

theorem pruneGrammars_only {pts : List Part} {s₀ : State} (s : State) (ho : Moves pts s₀ s) (hp : [.serve] ⊆ pts) :
    Moves pts s₀ (pruneGrammars s) := by
  simp only [List.cons_subset, List.nil_subset, and_true] at hp
  unfold pruneGrammars
  simp (maxDischargeDepth := 80) only [FuseMoves.refl, imp_self, Moves.upd, and_true, true_or, or_true, and_self,
      ho, hp]

theorem grammarLoad_only {pts : List Part} {s₀ : State} (f : Flight) (table : List Byte) (s : State) (ho : Moves
      pts s₀ s) (hp : [.regs, .out, .freeCtr, .host, .knots, .mem, .poison, .serve] ⊆ pts) :
    Moves pts s₀ (grammarLoad f table s) := by
  simp only [List.cons_subset, List.nil_subset, and_true] at hp
  unfold grammarLoad
  repeat' first
    | split
    | simp (maxDischargeDepth := 80) only [FuseMoves.refl, imp_self, Moves.ite_iff, Moves.upd, List.cons_subset,
      List.nil_subset, and_true, true_and, true_or, or_true, implies_true, and_self, completeFlight_only,
      finishFlight_only, pruneGrammars_only, wrMem_only, ho, hp]

theorem grammarsTurn_only {pts : List Part} {s₀ : State} (s : State) (ho : Moves pts s₀ s) (hp : [.serve] ⊆ pts) :
    Moves pts s₀ (grammarsTurn s) := by
  simp only [List.cons_subset, List.nil_subset, and_true] at hp
  unfold grammarsTurn
  simp (maxDischargeDepth := 80) only [FuseMoves.refl, imp_self, Moves.upd, List.cons_subset, List.nil_subset,
      and_true, true_or, or_true, and_self, pruneGrammars_only, ho, hp]

theorem reportStop_only {pts : List Part} {s₀ : State} (c : Ctx) (reason : Nat) (s : State) (ho : Moves pts s₀ s)
      (hp : [.out, .basket, .serve] ⊆ pts) :
    Moves pts s₀ (reportStop c reason s) := by
  simp only [List.cons_subset, List.nil_subset, and_true] at hp
  unfold reportStop
  simp (maxDischargeDepth := 80) only [List.cons_subset, List.nil_subset, and_self, putCtx_only, sendReport_only,
      ho, hp]

theorem decodeToken_only {pts : List Part} {s₀ : State} (c : Ctx) (logits : List (BitVec 32)) (pages : List (List
      Byte)) (s : State) (ho : Moves pts s₀ s) (hp : [.out, .freeCtr, .basket, .mem, .poison, .serve] ⊆ pts) :
    Moves pts s₀ (decodeToken c logits pages s) := by
  simp only [List.cons_subset, List.nil_subset, and_true] at hp
  unfold decodeToken
  (repeat' split) <;> simp (maxDischargeDepth := 80) only [FuseMoves.refl, imp_self, Moves.ite_iff, Moves.upd,
      List.cons_subset, List.nil_subset, and_true, true_or, or_true, implies_true, and_self, putCtx_only,
      reportStop_only, sendReport_only, writeKv_only, ho, hp]

theorem orderDecode_only {pts : List Part} {s₀ : State} (w : LinkWord) (owner : BitVec 6) (e : Desc) (tokens : List
      (BitVec 12)) (logits : List (BitVec 32)) (pages : List (List Byte)) (ads : List AdapterPass) (s : State) (ho
      : Moves pts s₀ s) (hp : [.regs, .out, .freeCtr, .basket, .host, .roi, .cores, .knots, .mem, .poison, .serve,
      .fault, .weave] ⊆ pts) :
    Moves pts s₀ (orderDecode w owner e tokens logits pages ads s) := by
  simp only [List.cons_subset, List.nil_subset, and_true] at hp
  simp only [orderDecode]
  split
  · exact ho
  · split
    · exact ho
    · split
      · exact ho
      · rename_i h
        have h := readyCtx_only _ _ _ _ _ _ h ho (by simp [hp])
        split
        · exact h
        · split
          · exact kvFault_only _ h (by simp [hp])
          · split
            · split
              · exact postEvent_only _ _ _ (reportStop_only _ _ _ h (by simp [hp])) (by simp [hp])
              · exact reportStop_only _ _ _ h (by simp [hp])
            · exact decodeToken_only _ _ _ _ (adapt_only _ _ _ _ h (by simp [hp])) (by simp [hp])

theorem setReq_only {pts : List Part} {s₀ : State} (k : Nat) (r : Req) (s : State) (ho : Moves pts s₀ s) (hp :
      [.serve] ⊆ pts) :
    Moves pts s₀ (setReq k r s) := by
  simp only [List.cons_subset, List.nil_subset, and_true] at hp
  unfold setReq
  simp (maxDischargeDepth := 80) only [rising_set_iff, FuseMoves.refl, imp_self, Moves.upd, and_true, true_or,
      or_true, and_self, ho, hp]

theorem modReq_only {pts : List Part} {s₀ : State} (k : Nat) (f : Req → Req) (s : State) (ho : Moves pts s₀ s) (hp
      : [.serve] ⊆ pts) :
    Moves pts s₀ (modReq k f s) := by
  simp only [List.cons_subset, List.nil_subset, and_true] at hp
  unfold modReq
  simp (maxDischargeDepth := 80) only [List.cons_subset, List.nil_subset, and_self, setReq_only, ho, hp]

theorem reqRead_only {pts : List Part} {s₀ : State} (s : State) (ho : Moves pts s₀ s) (hp : [.regs] ⊆ pts) :
    Moves pts s₀ (reqRead s) := by
  simp only [List.cons_subset, List.nil_subset, and_true] at hp
  unfold reqRead
  simp (maxDischargeDepth := 80) only [Moves.refl, Moves.foldl, List.cons_subset, List.nil_subset, implies_true,
      and_self, State_setReg_only, ho, hp]

theorem serveStepNumLoRead_only {pts : List Part} {s₀ : State} (s : State) (ho : Moves pts s₀ s) (hp : [.serve] ⊆
      pts) :
    Moves pts s₀ (serveStepNumLoRead s).1 := by
  simp only [List.cons_subset, List.nil_subset, and_true] at hp
  simp (maxDischargeDepth := 80) only [wf_const_iff, wf_reset_iff, wf_filter_iff, wf_all_iff, rising_set_iff,
      FuseMoves.refl, imp_self, smWf_nil, rising_nil, Moves.ite_iff, Moves.upd, Moves.refl, Moves.foldl,
      List.cons_subset, List.nil_subset, and_true, true_and, true_or, or_true, implies_true, and_self,
       serveStepNumLoRead, ho, hp]

theorem setTenant_only {pts : List Part} {s₀ : State} (t : Nat) (x : Tenant) (s : State) (ho : Moves pts s₀ s) (hp
      : [.serve] ⊆ pts) :
    Moves pts s₀ (setTenant t x s) := by
  simp only [List.cons_subset, List.nil_subset, and_true] at hp
  unfold setTenant
  simp (maxDischargeDepth := 80) only [FuseMoves.refl, imp_self, Moves.upd, and_true, true_or, or_true, and_self,
      ho, hp]

theorem tenantCfg_only {pts : List Part} {s₀ : State} (f : Flight) (s : State) (ho : Moves pts s₀ s) (hp : [.regs,
      .out, .host, .serve] ⊆ pts) :
    Moves pts s₀ (tenantCfg f s) := by
  simp only [List.cons_subset, List.nil_subset, and_true] at hp
  unfold tenantCfg
  simp (maxDischargeDepth := 80) only [FuseMoves.refl, imp_self, Moves.ite_iff, Moves.upd, List.cons_subset,
      List.nil_subset, and_true, true_or, or_true, implies_true, and_self, finishFlight_only, setFlight_only, ho,
      hp]

theorem pruneAdapters_only {pts : List Part} {s₀ : State} (s : State) (ho : Moves pts s₀ s) (hp : [.serve] ⊆ pts) :
    Moves pts s₀ (pruneAdapters s) := by
  simp only [List.cons_subset, List.nil_subset, and_true] at hp
  unfold pruneAdapters
  simp (maxDischargeDepth := 80) only [FuseMoves.refl, imp_self, Moves.upd, and_true, true_or, or_true, and_self,
      ho, hp]

theorem adapterLoad_only {pts : List Part} {s₀ : State} (f : Flight) (blob : List Byte) (s : State) (ho : Moves pts
      s₀ s) (hp : [.regs, .out, .freeCtr, .host, .knots, .mem, .poison, .serve] ⊆ pts) :
    Moves pts s₀ (adapterLoad f blob s) := by
  simp only [List.cons_subset, List.nil_subset, and_true] at hp
  unfold adapterLoad
  repeat' first
    | split
    | simp (maxDischargeDepth := 80) only [FuseMoves.refl, imp_self, Moves.ite_iff, Moves.upd, List.cons_subset,
      List.nil_subset, and_true, true_and, true_or, or_true, implies_true, and_self, completeFlight_only,
      finishFlight_only, pruneAdapters_only, setTenant_only, wrMem_only, ho, hp]

theorem adaptersTurn_only {pts : List Part} {s₀ : State} (s : State) (ho : Moves pts s₀ s) (hp : [.serve] ⊆ pts) :
    Moves pts s₀ (adaptersTurn s) := by
  simp only [List.cons_subset, List.nil_subset, and_true] at hp
  unfold adaptersTurn
  simp (maxDischargeDepth := 80) only [FuseMoves.refl, imp_self, Moves.upd, List.cons_subset, List.nil_subset,
      and_true, true_or, or_true, and_self, pruneAdapters_only, ho, hp]

theorem cfgsTurn_only {pts : List Part} {s₀ : State} (s : State) (ho : Moves pts s₀ s) (hp : [.regs, .out, .host,
      .knots, .serve] ⊆ pts) :
    Moves pts s₀ (cfgsTurn s) := by
  simp only [List.cons_subset, List.nil_subset, and_true] at hp
  unfold cfgsTurn
  repeat' first
    | (simp (maxDischargeDepth := 80) only [FuseMoves.refl, imp_self, Moves.upd, Moves.refl, List.cons_subset,
      List.nil_subset, and_true, true_or, or_true, and_self, completeFlight_only, setTenant_only, ho, hp]; done)
    | intro _
    | split
    | refine Moves.foldl (fun _ _ => ?_) ?_
    | with_reducible apply completeFlight_only
    | with_reducible apply setTenant_only

theorem putOrWait_only {pts : List Part} {s₀ : State} (w : Waiting) (s : State) (ho : Moves pts s₀ s) (hp : [.out,
      .host] ⊆ pts) :
    Moves pts s₀ (putOrWait w s) := by
  simp only [List.cons_subset, List.nil_subset, and_true] at hp
  unfold putOrWait
  simp (maxDischargeDepth := 80) only [FuseMoves.refl, imp_self, Moves.ite_iff, Moves.upd, List.cons_subset,
      List.nil_subset, and_true, true_or, or_true, implies_true, and_self, cqPut_only, drainWaiting_only, ho, hp]

theorem putOrDrop_only {pts : List Part} {s₀ : State} (k : Nat) (w : Waiting) (s : State) (ho : Moves pts s₀ s) (hp
      : [.out, .host, .serve] ⊆ pts) :
    Moves pts s₀ (putOrDrop k w s) := by
  simp only [List.cons_subset, List.nil_subset, and_true] at hp
  unfold putOrDrop
  simp (maxDischargeDepth := 80) only [Moves.ite_iff, List.cons_subset, List.nil_subset, implies_true, and_self,
      cqPut_only, drainWaiting_only, modReq_only, ho, hp]

theorem postFinal_only {pts : List Part} {s₀ : State} (k : Nat) (s : State) (ho : Moves pts s₀ s) (hp : [.out,
      .host, .serve] ⊆ pts) :
    Moves pts s₀ (postFinal k s) := by
  simp only [List.cons_subset, List.nil_subset, and_true] at hp
  unfold postFinal
  simp (maxDischargeDepth := 80) only [Moves.ite_iff, Moves.refl, Moves.foldl, List.cons_subset, List.nil_subset,
      implies_true, and_self, putOrWait_only, setReq_only, ho, hp]

theorem postStep_only {pts : List Part} {s₀ : State} (k : Nat) (s : State) (ho : Moves pts s₀ s) (hp : [.out,
      .host, .serve] ⊆ pts) :
    Moves pts s₀ (postStep k s) := by
  simp only [List.cons_subset, List.nil_subset, and_true] at hp
  unfold postStep
  simp (maxDischargeDepth := 80) only [Moves.ite_iff, Moves.refl, Moves.foldl, List.cons_subset, List.nil_subset,
      implies_true, and_self, putOrDrop_only, setReq_only, ho, hp]

theorem postTokens_only {pts : List Part} {s₀ : State} (s : State) (ho : Moves pts s₀ s) (hp : [.out, .host,
      .serve] ⊆ pts) :
    Moves pts s₀ (postTokens s) := by
  simp only [List.cons_subset, List.nil_subset, and_true] at hp
  unfold postTokens
  simp (maxDischargeDepth := 80) only [Moves.ite_iff, Moves.refl, Moves.foldl, List.cons_subset, List.nil_subset,
      implies_true, and_self, postFinal_only, postStep_only, ho, hp]

theorem dropAt_only {pts : List Part} {s₀ : State} (k : Nat) (pkgs : List (BitVec 8)) (s : State) (ho : Moves pts
      s₀ s) (hp : [.serve] ⊆ pts) :
    Moves pts s₀ (dropAt k pkgs s) := by
  simp only [List.cons_subset, List.nil_subset, and_true] at hp
  unfold dropAt
  simp (maxDischargeDepth := 80) only [FuseMoves.refl, imp_self, Moves.upd, and_true, true_or, or_true, and_self,
      ho, hp]

theorem freeHostCopy_only {pts : List Part} {s₀ : State} (k : Nat) (s : State) (ho : Moves pts s₀ s) (hp : [.regs,
      .out, .basket, .serve] ⊆ pts) :
    Moves pts s₀ (freeHostCopy k s) := by
  simp only [List.cons_subset, List.nil_subset, and_true] at hp
  unfold freeHostCopy
  (repeat' split) <;> simp (maxDischargeDepth := 80) only [List.cons_subset, List.nil_subset, and_self,
      freeSlot_only, ho, hp]

theorem dropMove_only {pts : List Part} {s₀ : State} (k : Nat) (s : State) (ho : Moves pts s₀ s) (hp : [.serve] ⊆
      pts) :
    Moves pts s₀ (dropMove k s) := by
  simp only [List.cons_subset, List.nil_subset, and_true] at hp
  unfold dropMove
  simp (maxDischargeDepth := 80) only [Moves.ite_iff, List.cons_subset, List.nil_subset, implies_true, and_self,
      dropCtx_only, ho, hp]

theorem endReq_only {pts : List Part} {s₀ : State} (k : Nat) (st : ReqSt) (c : Code) (s : State) (ho : Moves pts s₀
      s) (hp : [.regs, .out, .basket, .serve] ⊆ pts) :
    Moves pts s₀ (endReq k st c s) := by
  simp only [List.cons_subset, List.nil_subset, and_true] at hp
  unfold endReq
  simp (maxDischargeDepth := 80) only [List.cons_subset, List.nil_subset, and_self, dropAt_only, dropMove_only,
      freeHostCopy_only, latch_only, setReq_only, ho, hp]

theorem releaseReq_only {pts : List Part} {s₀ : State} (k : Nat) (s : State) (ho : Moves pts s₀ s) (hp : [.out,
      .host, .serve] ⊆ pts) :
    Moves pts s₀ (releaseReq k s) := by
  simp only [List.cons_subset, List.nil_subset, and_true] at hp
  unfold releaseReq
  simp (maxDischargeDepth := 80) only [Moves.ite_iff, List.cons_subset, List.nil_subset, implies_true, and_self,
      dropAt_only, postFinal_only, setReq_only, ho, hp]

theorem placeReport_only {pts : List Part} {s₀ : State} (w : LinkWord) (ok : Bool) (list : BitVec 48) (s : State)
      (ho : Moves pts s₀ s) (hp : [.regs, .out, .basket, .host, .roi, .cores, .knots, .serve, .fault, .weave] ⊆
      pts) :
    Moves pts s₀ (placeReport w ok list s) := by
  simp only [List.cons_subset, List.nil_subset, and_true] at hp
  unfold placeReport
  simp (maxDischargeDepth := 80) only [FuseMoves.refl, imp_self, Moves.ite_iff, Moves.upd, List.cons_subset,
      List.nil_subset, and_true, true_or, or_true, implies_true, and_self, badWord_only, ho, hp]

theorem chargeToken_only {pts : List Part} {s₀ : State} (k : Nat) (s : State) (ho : Moves pts s₀ s) (hp : [.serve]
      ⊆ pts) :
    Moves pts s₀ (chargeToken k s) := by
  simp only [List.cons_subset, List.nil_subset, and_true] at hp
  unfold chargeToken
  simp (maxDischargeDepth := 80) only [Moves.ite_iff, List.cons_subset, List.nil_subset, implies_true, and_self,
      setReq_only, setTenant_only, ho, hp]

theorem reportArrived_only {pts : List Part} {s₀ : State} (k : Nat) (list : BitVec 48) (s : State) (ho : Moves pts
      s₀ s) (hp : [.regs, .out, .basket, .serve] ⊆ pts) :
    Moves pts s₀ (reportArrived k list s) := by
  simp only [List.cons_subset, List.nil_subset, and_true] at hp
  unfold reportArrived
  repeat' first
    | split
    | simp (maxDischargeDepth := 80) only [List.cons_subset, List.nil_subset, and_self, freeHostCopy_only,
      setReq_only, ho, hp]

theorem reportParked_only {pts : List Part} {s₀ : State} (k : Nat) (list : BitVec 48) (s : State) (ho : Moves pts
      s₀ s) (hp : [.regs, .out, .basket, .serve] ⊆ pts) :
    Moves pts s₀ (reportParked k list s) := by
  simp only [List.cons_subset, List.nil_subset, and_true] at hp
  unfold reportParked
  simp (maxDischargeDepth := 80) only [Moves.ite_iff, List.cons_subset, List.nil_subset, implies_true, and_self,
      dropAt_only, freeHostCopy_only, setReq_only, ho, hp]

theorem applyReport_only {pts : List Part} {s₀ : State} (s : State) (x : LinkWord × Bool × BitVec 48) (ho : Moves
      pts s₀ s) (hp : [.regs, .out, .basket, .serve] ⊆ pts) :
    Moves pts s₀ (applyReport s x) := by
  simp only [List.cons_subset, List.nil_subset, and_true] at hp
  unfold applyReport
  simp (maxDischargeDepth := 80) only [Moves.ite_iff, List.cons_subset, List.nil_subset, implies_true, and_self,
      chargeToken_only, endReq_only, reportArrived_only, reportParked_only, setReq_only, ho, hp]

theorem applyFate_only {pts : List Part} {s₀ : State} (mark : Bool) (s : State) (k : Nat) (ho : Moves pts s₀ s) (hp
      : [.roi, .serve] ⊆ pts) :
    Moves pts s₀ (applyFate mark s k) := by
  simp only [List.cons_subset, List.nil_subset, and_true] at hp
  unfold applyFate
  simp (maxDischargeDepth := 80) only [Moves.ite_iff, List.cons_subset, List.nil_subset, implies_true, and_self,
      mapParcels_only, setReq_only, ho, hp]

theorem freeInterrupted_only {pts : List Part} {s₀ : State} (s : State) (ho : Moves pts s₀ s) (hp : [.serve] ⊆ pts)
      :
    Moves pts s₀ (freeInterrupted s) := by
  simp only [List.cons_subset, List.nil_subset, and_true] at hp
  unfold freeInterrupted
  simp (maxDischargeDepth := 80) only [FuseMoves.refl, imp_self, Moves.upd, and_true, true_or, or_true, and_self,
      ho, hp]

theorem applyFates_only {pts : List Part} {s₀ : State} (s : State) (ho : Moves pts s₀ s) (hp : [.regs, .out,
      .basket, .roi, .serve] ⊆ pts) :
    Moves pts s₀ (applyFates s) := by
  simp only [List.cons_subset, List.nil_subset, and_true] at hp
  unfold applyFates
  simp (maxDischargeDepth := 80) only [FuseMoves.refl, imp_self, Moves.ite_iff, Moves.upd, Moves.refl, Moves.foldl,
      List.cons_subset, List.nil_subset, and_true, true_or, or_true, implies_true, and_self, applyFate_only,
      endReq_only, freeInterrupted_only, ho, hp]

theorem stepReports_only {pts : List Part} {s₀ : State} (s : State) (ho : Moves pts s₀ s) (hp : [.regs, .out,
      .basket, .serve] ⊆ pts) :
    Moves pts s₀ (stepReports s) := by
  simp only [List.cons_subset, List.nil_subset, and_true] at hp
  unfold stepReports
  simp (maxDischargeDepth := 80) only [FuseMoves.refl, imp_self, Moves.ite_iff, Moves.upd, Moves.refl, Moves.foldl,
      List.cons_subset, List.nil_subset, and_true, true_or, or_true, implies_true, and_self, applyReport_only,
      endReq_only, ho, hp]

theorem stepReleases_only {pts : List Part} {s₀ : State} (s : State) (ho : Moves pts s₀ s) (hp : [.out, .host,
      .serve] ⊆ pts) :
    Moves pts s₀ (stepReleases s) := by
  simp only [List.cons_subset, List.nil_subset, and_true] at hp
  unfold stepReleases
  simp (maxDischargeDepth := 80) only [FuseMoves.refl, imp_self, Moves.ite_iff, Moves.upd, Moves.refl, Moves.foldl,
      List.cons_subset, List.nil_subset, and_true, true_or, or_true, implies_true, and_self, releaseReq_only, ho,
      hp]

theorem stepDeadlines_only {pts : List Part} {s₀ : State} (s : State) (ho : Moves pts s₀ s) (hp : [.regs, .out,
      .basket, .serve] ⊆ pts) :
    Moves pts s₀ (stepDeadlines s) := by
  simp only [List.cons_subset, List.nil_subset, and_true] at hp
  unfold stepDeadlines
  simp (maxDischargeDepth := 80) only [Moves.ite_iff, Moves.refl, Moves.foldl, List.cons_subset, List.nil_subset,
      implies_true, and_self, endReq_only, ho, hp]

theorem pauseReq_only {pts : List Part} {s₀ : State} (k : Nat) (s : State) (ho : Moves pts s₀ s) (hp : [.serve] ⊆
      pts) :
    Moves pts s₀ (pauseReq k s) := by
  simp only [List.cons_subset, List.nil_subset, and_true] at hp
  unfold pauseReq
  repeat' first
    | split
    | simp (maxDischargeDepth := 80) only [List.cons_subset, List.nil_subset, and_self, setReq_only, ho, hp]

theorem applyCmd_only {pts : List Part} {s₀ : State} (s : State) (c : HostCmd) (ho : Moves pts s₀ s) (hp : [.regs,
      .out, .basket, .host, .knots, .serve] ⊆ pts) :
    Moves pts s₀ (applyCmd s c) := by
  simp only [List.cons_subset, List.nil_subset, and_true] at hp
  unfold applyCmd
  repeat' first
    | split
    | simp (maxDischargeDepth := 80) only [List.cons_subset, List.nil_subset, and_self, completeFlight_only,
      endReq_only, finishFlight_only, modReq_only, pauseReq_only, setReq_only, ho, hp]

theorem stepCommands_only {pts : List Part} {s₀ : State} (s : State) (ho : Moves pts s₀ s) (hp : [.regs, .out,
      .basket, .host, .knots, .serve] ⊆ pts) :
    Moves pts s₀ (stepCommands s) := by
  simp only [List.cons_subset, List.nil_subset, and_true] at hp
  unfold stepCommands
  simp (maxDischargeDepth := 80) only [FuseMoves.refl, imp_self, Moves.upd, Moves.refl, Moves.foldl,
      List.cons_subset, List.nil_subset, and_true, true_or, or_true, implies_true, and_self, applyCmd_only, ho, hp]

theorem createReq_only {pts : List Part} {s₀ : State} (s : State) (c : HandedCrop) (ho : Moves pts s₀ s) (hp :
      [.regs, .out, .host, .roi, .mem, .poison, .serve] ⊆ pts) :
    Moves pts s₀ (createReq s c) := by
  simp only [List.cons_subset, List.nil_subset, and_true] at hp
  unfold createReq
  repeat' first
    | split
    | simp (maxDischargeDepth := 80) only [FuseMoves.refl, imp_self, Moves.upd, List.cons_subset, List.nil_subset,
      and_true, true_or, or_true, and_self, State_bumpSat_only, State_emit_only, mapParcels_only, postEvent_only,
      setReq_only, wrMem_only, ho, hp]

theorem stepCreate_only {pts : List Part} {s₀ : State} (remote : List HandedCrop) (s : State) (ho : Moves pts s₀ s)
      (hp : [.regs, .out, .host, .roi, .mem, .poison, .serve] ⊆ pts) :
    Moves pts s₀ (stepCreate remote s) := by
  simp only [List.cons_subset, List.nil_subset, and_true] at hp
  unfold stepCreate
  simp (maxDischargeDepth := 80) only [FuseMoves.refl, imp_self, Moves.upd, Moves.refl, Moves.foldl,
      List.cons_subset, List.nil_subset, and_true, true_or, or_true, implies_true, and_self, createReq_only, ho, hp]

theorem formHead_only {pts : List Part} {s₀ : State} (s : State) (t : BitVec 12) (ho : Moves pts s₀ s) (hp :
      [.serve] ⊆ pts) :
    Moves pts s₀ (formHead s t) := by
  simp only [List.cons_subset, List.nil_subset, and_true] at hp
  unfold formHead
  (repeat' split) <;> simp (maxDischargeDepth := 80) only [Moves.ite_iff, List.cons_subset, List.nil_subset,
      implies_true, and_self, setReq_only, setTenant_only, ho, hp]

theorem dropHeads_only {pts : List Part} {s₀ : State} (s : State) (ho : Moves pts s₀ s) (hp : [.serve] ⊆ pts) :
    Moves pts s₀ (dropHeads s) := by
  simp only [List.cons_subset, List.nil_subset, and_true] at hp
  unfold dropHeads
  simp (maxDischargeDepth := 80) only [FuseMoves.refl, imp_self, Moves.upd, and_true, true_or, or_true, and_self,
      ho, hp]

theorem formHeads_only {pts : List Part} {s₀ : State} (s : State) (ho : Moves pts s₀ s) (hp : [.serve] ⊆ pts) :
    Moves pts s₀ (formHeads s) := by
  simp only [List.cons_subset, List.nil_subset, and_true] at hp
  unfold formHeads
  simp (maxDischargeDepth := 80) only [Moves.refl, Moves.foldl, List.cons_subset, List.nil_subset, implies_true,
      and_self, dropHeads_only, formHead_only, ho, hp]

theorem admitOne_only {pts : List Part} {s₀ : State} (k : Nat) (s : State) (ho : Moves pts s₀ s) (hp : [.serve] ⊆
      pts) :
    Moves pts s₀ (admitOne k s) := by
  simp only [List.cons_subset, List.nil_subset, and_true] at hp
  unfold admitOne
  simp (maxDischargeDepth := 80) only [FuseMoves.refl, imp_self, Moves.upd, List.cons_subset, List.nil_subset,
      and_true, true_or, or_true, and_self, setReq_only, setTenant_only, ho, hp]

theorem stepAdmit_only {pts : List Part} {s₀ : State} (a0 : Nat) (a1 : State) (ho : Moves pts s₀ a1) (hp : [.serve]
      ⊆ pts) :
    Moves pts s₀ (stepAdmit a0 a1) := by
  induction a0 generalizing a1 with
  | zero => exact ho
  | succ n ih =>
    simp only [stepAdmit]
    repeat' split
    · exact formHeads_only _ ho hp
    · exact ih _ (admitOne_only _ _ (formHeads_only _ ho hp) hp)
    · exact formHeads_only _ ho hp

theorem newXfer_only {pts : List Part} {s₀ : State} (s : State) (ho : Moves pts s₀ s) (hp : [.serve] ⊆ pts) :
    Moves pts s₀ (newXfer s).2 := by
  simp only [List.cons_subset, List.nil_subset, and_true] at hp
  simp (maxDischargeDepth := 80) only [wf_const_iff, wf_reset_iff, wf_filter_iff, wf_all_iff, rising_set_iff,
      FuseMoves.refl, imp_self, smWf_nil, rising_nil, Moves.ite_iff, Moves.upd, Moves.refl, Moves.foldl,
      List.cons_subset, List.nil_subset, and_true, true_and, true_or, or_true, implies_true, and_self,  newXfer, ho,
      hp]

theorem orderTransfer_only {pts : List Part} {s₀ : State} (kind k : Nat) (src dst : BitVec 6) (s : State) (ho :
      Moves pts s₀ s) (hp : [.out, .basket, .serve] ⊆ pts) :
    Moves pts s₀ (orderTransfer kind k src dst s) := by
  simp only [List.cons_subset, List.nil_subset, and_true] at hp
  unfold orderTransfer
  simp (maxDischargeDepth := 80) only [Moves.ite_iff, List.cons_subset, List.nil_subset, implies_true, and_self,
      newXfer_only, sendOrder_only, ho, hp]

theorem orderMove_only {pts : List Part} {s₀ : State} (k : Nat) (s : State) (ho : Moves pts s₀ s) (hp : [.out,
      .basket, .serve] ⊆ pts) :
    Moves pts s₀ (orderMove k s) := by
  simp only [List.cons_subset, List.nil_subset, and_true] at hp
  unfold orderMove
  simp (maxDischargeDepth := 80) only [Moves.ite_iff, List.cons_subset, List.nil_subset, implies_true, and_self,
      orderTransfer_only, ho, hp]

theorem takePlace_only {pts : List Part} {s₀ : State} (i : Nat) (p : PlaceDecl) (k : Nat) (x : SMap Nat × State)
      (ho : Moves pts s₀ x.2) (hp : [.out, .basket, .serve] ⊆ pts) :
    Moves pts s₀ (takePlace i p k x).2 := by
  simp only [List.cons_subset, List.nil_subset, and_true] at hp
  simp only [takePlace]
  repeat' split
  all_goals simp (maxDischargeDepth := 80) only [wf_const_iff, wf_reset_iff, wf_filter_iff, wf_all_iff,
      rising_set_iff, FuseMoves.refl, imp_self, smWf_nil, rising_nil, Moves.ite_iff, Moves.upd, Moves.refl,
      Moves.foldl, List.cons_subset, List.nil_subset, and_true, true_and, true_or, or_true, implies_true, and_self,
       orderMove_only, setReq_only, ho, hp]

theorem dispatchOne_only {pts : List Part} {s₀ : State} (views : List PoolView) (x : SMap Nat × State) (p : Nat ×
      PlaceDecl) (ho : Moves pts s₀ x.2) (hp : [.out, .basket, .serve] ⊆ pts) :
    Moves pts s₀ (dispatchOne views x p).2 := by
  unfold dispatchOne
  split
  · exact takePlace_only _ _ _ _ ho hp
  · exact ho

theorem stepDispatch_only {pts : List Part} {s₀ : State} (views : List PoolView) (s : State) (ho : Moves pts s₀ s)
      (hp : [.out, .basket, .serve] ⊆ pts) :
    Moves pts s₀ (stepDispatch views s).2 := by
  exact Moves.foldl_snd (fun p a => dispatchOne_only _ _ _ (Moves.refl _ _) hp) ho

theorem pauseFor_only {pts : List Part} {s₀ : State} (views : List PoolView) (x : SMap Nat × State) (k : Nat) (ho :
      Moves pts s₀ x.2) (hp : [.out, .basket, .serve] ⊆ pts) :
    Moves pts s₀ (pauseFor views x k).2 := by
  have hp' := hp
  simp only [List.cons_subset, List.nil_subset, and_true] at hp
  simp only [pauseFor]
  repeat' split
  all_goals first
  | exact ho
  | exact takePlace_only _ _ _ _ (setReq_only _ _ _ ho (by simp [hp])) hp'
  | exact setReq_only _ _ _ ho (by simp [hp])

theorem stepPauses_only {pts : List Part} {s₀ : State} (views : List PoolView) (a1 : Nat) (a2 : List (Nat × Req))
      (a3 : SMap Nat × State) (ho : Moves pts s₀ a3.2) (hp : [.out, .basket, .serve] ⊆ pts) :
    Moves pts s₀ (stepPauses views a1 a2 a3).2 := by
  simp only [List.cons_subset, List.nil_subset, and_true] at hp
  induction a1 generalizing views a2 a3 with
  | zero =>
    unfold stepPauses
    (repeat' split) <;> simp (maxDischargeDepth := 80) only [ho]
  | succ a1 ih =>
    unfold stepPauses
    (repeat' split) <;> simp (maxDischargeDepth := 80) only [List.cons_subset, List.nil_subset, and_self,
      pauseFor_only, ih, ho, hp]

theorem parkStore_only {pts : List Part} {s₀ : State} (k : Nat) (x : ParkSum × State) (ho : Moves pts s₀ x.2) (hp :
      [.out, .basket, .serve] ⊆ pts) :
    Moves pts s₀ (parkStore k x).2 := by
  simp only [List.cons_subset, List.nil_subset, and_true] at hp
  simp (maxDischargeDepth := 80) only [wf_const_iff, wf_reset_iff, wf_filter_iff, wf_all_iff, rising_set_iff,
      FuseMoves.refl, imp_self, smWf_nil, rising_nil, Moves.ite_iff, Moves.upd, Moves.refl, Moves.foldl,
      List.cons_subset, List.nil_subset, and_true, true_and, true_or, or_true, implies_true, and_self,  parkStore,
      sendOrder_only, setReq_only, ho, hp]

theorem parkOne_only {pts : List Part} {s₀ : State} (views : List PoolView) (taken : SMap Nat) (x : ParkSum ×
      State) (k : Nat) (ho : Moves pts s₀ x.2) (hp : [.regs, .out, .freeCtr, .basket, .host, .roi, .cores, .knots,
      .serve, .fault, .weave] ⊆ pts) :
    Moves pts s₀ (parkOne views taken x k).2 := by
  have hp' := hp
  simp only [List.cons_subset, List.nil_subset, and_true] at hp
  have hm := fun h => moveToHost_only (pts := pts) h x.2 ho (by simp [hp])
  simp only [parkOne]
  repeat' split
  all_goals first
  | exact ho
  | exact parkStore_only _ _ ho (by simp [hp])
  | exact endReq_only _ _ _ _ (hm _) (by simp [hp])
  | exact parkStore_only _ _ (hm _) (by simp [hp])
  | exact hm _

theorem stepParks_only {pts : List Part} {s₀ : State} (views : List PoolView) (taken : SMap Nat) (a2 : Nat) (a3 :
      List (Nat × Req)) (a4 : ParkSum × State) (ho : Moves pts s₀ a4.2) (hp : [.regs, .out, .freeCtr, .basket,
      .host, .roi, .cores, .knots, .serve, .fault, .weave] ⊆ pts) :
    Moves pts s₀ (stepParks views taken a2 a3 a4).2 := by
  simp only [List.cons_subset, List.nil_subset, and_true] at hp
  induction a2 generalizing views taken a3 a4 with
  | zero =>
    unfold stepParks
    (repeat' split) <;> simp (maxDischargeDepth := 80) only [ho]
  | succ a2 ih =>
    unfold stepParks
    (repeat' split) <;> simp (maxDischargeDepth := 80) only [List.cons_subset, List.nil_subset, and_self,
      parkOne_only, ih, ho, hp]

theorem workOrder_only {pts : List Part} {s₀ : State} (s : State) (k : Nat) (ho : Moves pts s₀ s) (hp : [.out,
      .basket] ⊆ pts) :
    Moves pts s₀ (workOrder s k) := by
  simp only [List.cons_subset, List.nil_subset, and_true] at hp
  unfold workOrder
  repeat' first
    | split
    | simp (maxDischargeDepth := 80) only [List.cons_subset, List.nil_subset, and_self, sendOrder_only, ho, hp]

theorem dropOrders_only {pts : List Part} {s₀ : State} (s : State) (ho : Moves pts s₀ s) (hp : [.out, .basket,
      .serve] ⊆ pts) :
    Moves pts s₀ (dropOrders s) := by
  simp only [List.cons_subset, List.nil_subset, and_true] at hp
  unfold dropOrders
  simp (maxDischargeDepth := 80) only [FuseMoves.refl, imp_self, Moves.upd, Moves.refl, Moves.foldl,
      List.cons_subset, List.nil_subset, and_true, true_or, or_true, implies_true, and_self, sendOrder_only, ho, hp]

theorem reshipOrders_only {pts : List Part} {s₀ : State} (s : State) (ho : Moves pts s₀ s) (hp : [.out, .basket,
      .serve] ⊆ pts) :
    Moves pts s₀ (reshipOrders s) := by
  simp only [List.cons_subset, List.nil_subset, and_true] at hp
  unfold reshipOrders
  simp (maxDischargeDepth := 80) only [Moves.ite_iff, Moves.refl, Moves.foldl, List.cons_subset, List.nil_subset,
      implies_true, and_self, orderMove_only, setReq_only, ho, hp]

theorem serveBoundary_only {pts : List Part} {s₀ : State} (crops : List HandedCrop) (views : List PoolView) (s :
      State) (ho : Moves pts s₀ s) (hp : [.regs, .out, .freeCtr, .basket, .host, .roi, .cores, .knots, .mem,
      .poison, .serve, .fault, .weave] ⊆ pts) :
    Moves pts s₀ (serveBoundary crops views s) := by
  simp only [List.cons_subset, List.nil_subset, and_true] at hp
  unfold serveBoundary
  simp (maxDischargeDepth := 80) only [Moves.refl, Moves.foldl, List.cons_subset, List.nil_subset, implies_true,
      and_self, adaptersTurn_only, cfgsTurn_only, dropOrders_only, formHeads_only, grammarsTurn_only,
      postTokens_only, reshipOrders_only, stepAdmit_only, stepCommands_only, stepCreate_only, stepDeadlines_only,
      stepDispatch_only, stepParks_only, stepPauses_only, stepReleases_only, stepReports_only, workOrder_only, ho,
      hp]

theorem stepBoundary_only {pts : List Part} {s₀ : State} (crops : List HandedCrop) (views : List PoolView) (s :
      State) (ho : Moves pts s₀ s) (hp : [.regs, .out, .freeCtr, .basket, .host, .roi, .cores, .knots, .mem,
      .poison, .serve, .fault, .weave] ⊆ pts) :
    Moves pts s₀ (stepBoundary crops views s) := by
  simp only [List.cons_subset, List.nil_subset, and_true] at hp
  unfold stepBoundary
  simp (maxDischargeDepth := 80) only [FuseMoves.refl, imp_self, Moves.ite_iff, Moves.upd, List.cons_subset,
      List.nil_subset, and_true, true_or, or_true, implies_true, and_self, applyFates_only, serveBoundary_only, ho,
      hp]

theorem takeWeight_only {pts : List Part} {s₀ : State} (id : Word) (s : State) (ho : Moves pts s₀ s) (hp : [.wfe] ⊆
      pts) :
    Moves pts s₀ (takeWeight id s).2 := by
  simp only [List.cons_subset, List.nil_subset, and_true] at hp
  simp (maxDischargeDepth := 80) only [wf_const_iff, wf_reset_iff, wf_filter_iff, wf_all_iff, rising_set_iff,
      FuseMoves.refl, imp_self, smWf_nil, rising_nil, Moves.ite_iff, Moves.upd, Moves.refl, Moves.foldl,
      List.cons_subset, List.nil_subset, and_true, true_and, true_or, or_true, implies_true, and_self,  takeWeight,
      ho, hp]

theorem recordAssembly_only {pts : List Part} {s₀ : State} (id : Word) (s : State) (ho : Moves pts s₀ s) (hp :
      [.regs, .out, .host, .roi, .wfe] ⊆ pts) :
    Moves pts s₀ (recordAssembly id s) := by
  simp only [List.cons_subset, List.nil_subset, and_true] at hp
  unfold recordAssembly
  repeat' first
    | simp (maxDischargeDepth := 80) only [FuseMoves.refl, imp_self, Moves.ite_iff, Moves.upd, List.cons_subset,
      List.nil_subset, and_true, true_or, or_true, implies_true, and_self, State_bumpSat_only, holdRecords_only,
      mapParcels_only, takeWeight_only, ho, hp]
    | split

theorem advanceRec_only {pts : List Part} {s₀ : State} (s : State) (ho : Moves pts s₀ s) (hp : [.host] ⊆ pts) :
    Moves pts s₀ (advanceRec s) := by
  simp only [List.cons_subset, List.nil_subset, and_true] at hp
  unfold advanceRec
  simp (maxDischargeDepth := 80) only [FuseMoves.refl, imp_self, Moves.upd, and_true, true_or, or_true, and_self,
      ho, hp]

theorem commitParcel_only {pts : List Part} {s₀ : State} (id : Word) (s : State) (ho : Moves pts s₀ s) (hp : [.out,
      .host, .roi, .serve] ⊆ pts) :
    Moves pts s₀ (commitParcel id s) := by
  simp only [List.cons_subset, List.nil_subset, and_true] at hp
  unfold commitParcel
  simp (maxDischargeDepth := 80) only [FuseMoves.refl, imp_self, Moves.ite_iff, Moves.upd, Moves.refl, Moves.foldl,
      List.cons_subset, List.nil_subset, and_true, true_or, or_true, implies_true, and_self, mapParcels_only,
      releaseReq_only, ho, hp]

theorem recordWrite_only {pts : List Part} {s₀ : State} (s : State) (ho : Moves pts s₀ s) (hp : [.regs, .out,
      .basket, .host, .roi, .cores, .knots, .serve, .fault, .weave] ⊆ pts) :
    Moves pts s₀ (recordWrite s) := by
  simp only [List.cons_subset, List.nil_subset, and_true] at hp
  unfold recordWrite
  (repeat' split) <;> simp (maxDischargeDepth := 80) only [FuseMoves.refl, imp_self, Moves.upd, List.cons_subset,
      List.nil_subset, and_true, true_or, or_true, and_self, State_emit_only, advanceRec_only, commitParcel_only,
      latch_only, putOrWait_only, weaveFault_only, ho, hp]

theorem regionReq_only {pts : List Part} {s₀ : State} (f : Flight) (crops : List (Nat × List Byte)) (s : State) (ho
      : Moves pts s₀ s) (hp : [.regs, .out, .basket, .host, .roi, .cores, .knots, .serve, .fault, .weave] ⊆ pts) :
    Moves pts s₀ (regionReq f crops s) := by
  simp only [List.cons_subset, List.nil_subset, and_true] at hp
  unfold regionReq
  repeat' first
    | split
    | simp (maxDischargeDepth := 80) only [List.cons_subset, List.nil_subset, and_self, endAfterWrites_only,
      finishFlight_only, weaveFault_only, ho, hp]

theorem relayCtrl_only {pts : List Part} {s₀ : State} (p : Port) (w : LinkWord) (s : State) (ho : Moves pts s₀ s)
      (hp : [.basket] ⊆ pts) :
    Moves pts s₀ (relayCtrl p w s) := by
  simp only [List.cons_subset, List.nil_subset, and_true] at hp
  unfold relayCtrl
  simp (maxDischargeDepth := 80) only [Moves.ite_iff, List.cons_subset, List.nil_subset, implies_true, and_self,
      floodCtrl_only, ho, hp]

theorem haltIn_only {pts : List Part} {s₀ : State} (p : Port) (w : LinkWord) (s : State) (ho : Moves pts s₀ s) (hp
      : [.regs, .out, .basket, .host, .roi, .cores, .knots, .serve, .fault, .weave] ⊆ pts) :
    Moves pts s₀ (haltIn p w s) := by
  simp only [List.cons_subset, List.nil_subset, and_true] at hp
  unfold haltIn
  simp (maxDischargeDepth := 80) only [FuseMoves.refl, imp_self, Moves.ite_iff, Moves.upd, List.cons_subset,
      List.nil_subset, and_true, true_or, or_true, implies_true, and_self, noteRestart_only, relayCtrl_only,
      stopWeave_only, ho, hp]

theorem takeResume_only {pts : List Part} {s₀ : State} (n : BitVec 15) (a : BitVec 8) (beat : BitVec 32) (s :
      State) (ho : Moves pts s₀ s) (hp : [.fault, .weave] ⊆ pts) :
    Moves pts s₀ (takeResume n a beat s) := by
  simp only [List.cons_subset, List.nil_subset, and_true] at hp
  unfold takeResume
  simp (maxDischargeDepth := 80) only [FuseMoves.refl, imp_self, Moves.ite_iff, Moves.upd, and_true, true_or,
      or_true, implies_true, and_self, ho, hp]

theorem resumeIn_only {pts : List Part} {s₀ : State} (p : Port) (w : LinkWord) (s : State) (ho : Moves pts s₀ s)
      (hp : [.basket, .fault, .weave] ⊆ pts) :
    Moves pts s₀ (resumeIn p w s) := by
  simp only [List.cons_subset, List.nil_subset, and_true] at hp
  unfold resumeIn
  simp (maxDischargeDepth := 80) only [FuseMoves.refl, imp_self, Moves.ite_iff, Moves.upd, List.cons_subset,
      List.nil_subset, and_true, true_or, or_true, implies_true, and_self, relayCtrl_only, takeResume_only, ho, hp]

theorem sendResume_only {pts : List Part} {s₀ : State} (n : BitVec 15) (alt : Option Nat) (beat : Nat) (s : State)
      (ho : Moves pts s₀ s) (hp : [.basket, .fault, .weave] ⊆ pts) :
    Moves pts s₀ (sendResume n alt beat s) := by
  simp only [List.cons_subset, List.nil_subset, and_true] at hp
  unfold sendResume
  simp (maxDischargeDepth := 80) only [FuseMoves.refl, imp_self, Moves.upd, List.cons_subset, List.nil_subset,
      and_true, true_or, or_true, and_self, floodCtrl_only, takeResume_only, ho, hp]

theorem localFault_only {pts : List Part} {s₀ : State} (f : FaultReport) (s : State) (ho : Moves pts s₀ s) (hp :
      [.regs, .out, .freeCtr, .power, .time, .basket, .host, .field, .pix, .roi, .wfe, .cores, .knots, .mem,
      .poison, .serve, .fault, .weave, .therm, .fuse, .boot] ⊆ pts) :
    Moves pts s₀ (localFault f s) := by
  simp only [List.cons_subset, List.nil_subset, and_true] at hp
  unfold localFault
  (repeat' split) <;> simp (maxDischargeDepth := 80) only [List.cons_subset, List.nil_subset, and_self,
      packageFatal_only, postEventAt_only, weaveFault_only, ho, hp]

theorem faultClear_only {pts : List Part} {s₀ : State} (s : State) (ho : Moves pts s₀ s) (hp : [.fault] ⊆ pts) :
    Moves pts s₀ (faultClear s) := by
  simp only [List.cons_subset, List.nil_subset, and_true] at hp
  unfold faultClear
  simp (maxDischargeDepth := 80) only [FuseMoves.refl, imp_self, Moves.upd, and_true, true_or, or_true, ho, hp]

theorem faultEntry_only {pts : List Part} {s₀ : State} (s : State) (k : BitVec 12) (ho : Moves pts s₀ s) (hp :
      [.regs, .out, .basket, .serve] ⊆ pts) :
    Moves pts s₀ (faultEntry s k) := by
  simp only [List.cons_subset, List.nil_subset, and_true] at hp
  unfold faultEntry
  simp (maxDischargeDepth := 80) only [Moves.ite_iff, List.cons_subset, List.nil_subset, implies_true, and_self,
      endReq_only, latch_only, setReq_only, ho, hp]

theorem recordColumn_only {pts : List Part} {s₀ : State} (n a c : Nat) (s : State) (ho : Moves pts s₀ s) (hp :
      [.regs] ⊆ pts) :
    Moves pts s₀ (recordColumn n a c s) := by
  simp only [List.cons_subset, List.nil_subset, and_true] at hp
  unfold recordColumn
  simp (maxDischargeDepth := 80) only [List.cons_subset, List.nil_subset, and_self, State_setFlag_only,
      State_setFld_only, ho, hp]

theorem strike_only {pts : List Part} {s₀ : State} (n a : Nat) (s : State) (c : BitVec 5) (ho : Moves pts s₀ s) (hp
      : [.regs] ⊆ pts) :
    Moves pts s₀ (strike n a s c) := by
  simp only [List.cons_subset, List.nil_subset, and_true] at hp
  unfold strike
  simp (maxDischargeDepth := 80) only [Moves.ite_iff, List.cons_subset, List.nil_subset, implies_true, and_self,
      State_setFlag_only, State_setFld_only, recordColumn_only, ho, hp]

theorem applyReplay_only {pts : List Part} {s₀ : State} (s : State) (x : Fin 16 × Fin 4 × ReplayResult) (ho : Moves
      pts s₀ s) (hp : [.regs] ⊆ pts) :
    Moves pts s₀ (applyReplay s x) := by
  simp only [List.cons_subset, List.nil_subset, and_true] at hp
  unfold applyReplay
  (repeat' split) <;> simp (maxDischargeDepth := 80) only [Moves.ite_iff, Moves.refl, Moves.foldl,
      List.cons_subset, List.nil_subset, implies_true, and_self, State_setFld_only, recordColumn_only, strike_only,
      ho, hp]

theorem faultCrop_only {pts : List Part} {s₀ : State} (s : State) (x : BitVec 6 × BitVec 9) (ho : Moves pts s₀ s)
      (hp : [.regs, .out, .basket, .serve] ⊆ pts) :
    Moves pts s₀ (faultCrop s x) := by
  simp only [List.cons_subset, List.nil_subset, and_true] at hp
  unfold faultCrop
  simp (maxDischargeDepth := 80) only [Moves.ite_iff, Moves.refl, Moves.foldl, List.cons_subset, List.nil_subset,
      implies_true, and_self, endReq_only, setReq_only, ho, hp]

theorem failCrop_only {pts : List Part} {s₀ : State} (s : State) (slot : Nat) (ho : Moves pts s₀ s) (hp : [.regs,
      .out, .basket, .host, .roi, .serve] ⊆ pts) :
    Moves pts s₀ (failCrop s slot) := by
  simp only [List.cons_subset, List.nil_subset, and_true] at hp
  unfold failCrop
  simp (maxDischargeDepth := 80) only [List.cons_subset, List.nil_subset, and_self, dropCrop_only, faultCrop_only,
      postEvent_only, ho, hp]

theorem checkCrops_only {pts : List Part} {s₀ : State} (bad : List (BitVec 9)) (away : List (BitVec 6 × BitVec 9))
      (s : State) (ho : Moves pts s₀ s) (hp : [.regs, .out, .basket, .host, .roi, .serve] ⊆ pts) :
    Moves pts s₀ (checkCrops bad away s) := by
  simp only [List.cons_subset, List.nil_subset, and_true] at hp
  unfold checkCrops
  simp (maxDischargeDepth := 80) only [Moves.refl, Moves.foldl, List.cons_subset, List.nil_subset, implies_true,
      and_self, failCrop_only, faultCrop_only, ho, hp]

theorem clearCore_only {pts : List Part} {s₀ : State} (n : Nat) (s : State) (ho : Moves pts s₀ s) (hp : [.regs,
      .cores, .mem, .poison] ⊆ pts) :
    Moves pts s₀ (clearCore n s) := by
  simp only [List.cons_subset, List.nil_subset, and_true] at hp
  unfold clearCore
  simp (maxDischargeDepth := 80) only [List.cons_subset, List.nil_subset, and_self, corePipelinesClear_only,
      spDiscard_only, spFill_only, ho, hp]

theorem clearCores_only {pts : List Part} {s₀ : State} (s : State) (ho : Moves pts s₀ s) (hp : [.regs, .out,
      .basket, .cores, .mem, .poison] ⊆ pts) :
    Moves pts s₀ (clearCores s) := by
  simp only [List.cons_subset, List.nil_subset, and_true] at hp
  unfold clearCores
  simp (maxDischargeDepth := 80) only [Moves.refl, Moves.foldl, List.cons_subset, List.nil_subset, implies_true,
      and_self, clearCore_only, rDiscard_only, ho, hp]

theorem signalReady_only {pts : List Part} {s₀ : State} (d : WeaveDecl) (s : State) (ho : Moves pts s₀ s) (hp :
      [.basket, .host, .knots] ⊆ pts) :
    Moves pts s₀ (signalReady d s) := by
  simp only [List.cons_subset, List.nil_subset, and_true] at hp
  unfold signalReady
  simp (maxDischargeDepth := 80) only [Moves.refl, Moves.foldl, List.cons_subset, List.nil_subset, implies_true,
      and_self, sendKnot_only, ho, hp]

theorem recoveryDone_only {pts : List Part} {s₀ : State} (r : Recovery) (s : State) (ho : Moves pts s₀ s) (hp :
      [.regs, .out, .basket, .host, .roi, .cores, .knots, .mem, .poison, .serve, .fault] ⊆ pts) :
    Moves pts s₀ (recoveryDone r s) := by
  simp only [List.cons_subset, List.nil_subset, and_true] at hp
  unfold recoveryDone
  (repeat' split) <;> simp (maxDischargeDepth := 80) only [FuseMoves.refl, imp_self, Moves.ite_iff, Moves.upd,
      Moves.refl, Moves.foldl, List.cons_subset, List.nil_subset, and_true, true_or, or_true, implies_true,
      and_self, applyReplay_only, checkCrops_only, clearCores_only, faultEntry_only, logFault_only, setLevel_only,
      signalReady_only, ho, hp]

theorem beginLoad_only {pts : List Part} {s₀ : State} (flight : Option Nat) (addr : BitVec 64) (len : Nat) (id :
      Word) (s : State) (ho : Moves pts s₀ s) (hp : [.out, .weave] ⊆ pts) :
    Moves pts s₀ (beginLoad flight addr len id s) := by
  simp only [List.cons_subset, List.nil_subset, and_true] at hp
  unfold beginLoad
  simp (maxDischargeDepth := 80) only [FuseMoves.refl, imp_self, Moves.upd, List.cons_subset, List.nil_subset,
      and_true, true_or, or_true, and_self, readImage_only, ho, hp]

theorem weaveLoad_only {pts : List Part} {s₀ : State} (f : Flight) (s : State) (ho : Moves pts s₀ s) (hp : [.regs,
      .out, .host, .weave] ⊆ pts) :
    Moves pts s₀ (weaveLoad f s) := by
  simp only [List.cons_subset, List.nil_subset, and_true] at hp
  unfold weaveLoad
  simp (maxDischargeDepth := 80) only [Moves.ite_iff, List.cons_subset, List.nil_subset, implies_true, and_self,
      beginLoad_only, finishFlight_only, setFlight_only, ho, hp]

theorem bootLoad_only {pts : List Part} {s₀ : State} (b : BitVec 4) (s : State) (ho : Moves pts s₀ s) (hp : [.regs,
      .out, .weave] ⊆ pts) :
    Moves pts s₀ (bootLoad b s) := by
  simp only [List.cons_subset, List.nil_subset, and_true] at hp
  unfold bootLoad
  simp (maxDischargeDepth := 80) only [Moves.ite_iff, List.cons_subset, List.nil_subset, implies_true, and_self,
      beginLoad_only, refuse_only, ho, hp]

theorem bootStop_only {pts : List Part} {s₀ : State} (b : BitVec 4) (s : State) (ho : Moves pts s₀ s) (hp : [.regs,
      .weave] ⊆ pts) :
    Moves pts s₀ (bootStop b s) := by
  simp only [List.cons_subset, List.nil_subset, and_true] at hp
  unfold bootStop
  simp (maxDischargeDepth := 80) only [FuseMoves.refl, imp_self, Moves.ite_iff, Moves.upd, List.cons_subset,
      List.nil_subset, and_true, true_or, or_true, implies_true, and_self, refuse_only, ho, hp]

theorem weaveImageReadDone_only {pts : List Part} {s₀ : State} (img : WeaveImage) (s : State) (ho : Moves pts s₀ s)
      (hp : [.regs, .out, .host, .knots, .weave] ⊆ pts) :
    Moves pts s₀ (weaveImageReadDone img s) := by
  simp only [List.cons_subset, List.nil_subset, and_true] at hp
  unfold weaveImageReadDone
  (repeat' split) <;> simp (maxDischargeDepth := 80) only [FuseMoves.refl, imp_self, Moves.ite_iff, Moves.upd,
      Moves.refl, Moves.foldl, List.cons_subset, List.nil_subset, and_true, true_or, or_true, implies_true,
      and_self, State_emit_only, endLoad_only, setKnot_only, ho, hp]

theorem weaveMemberCheckDone_only {pts : List Part} {s₀ : State} (img : WeaveImage) (start : BitVec 64) (s : State)
      (ho : Moves pts s₀ s) (hp : [.regs, .basket, .host, .knots, .weave, .boot] ⊆ pts) :
    Moves pts s₀ (weaveMemberCheckDone img start s) := by
  simp only [List.cons_subset, List.nil_subset, and_true] at hp
  unfold weaveMemberCheckDone
  simp (maxDischargeDepth := 80) only [FuseMoves.refl, imp_self, Moves.ite_iff, Moves.upd, List.cons_subset,
      List.nil_subset, and_true, true_or, or_true, implies_true, and_self, State_setReg_only, countCores_only,
      sendKnot_only, ho, hp]

theorem setWide_only {pts : List Part} {s₀ : State} (lo hi : Nat) (w : BitVec 64) (s : State) (ho : Moves pts s₀ s)
      (hp : [.regs] ⊆ pts) :
    Moves pts s₀ (setWide lo hi w s) := by
  simp only [List.cons_subset, List.nil_subset, and_true] at hp
  unfold setWide
  simp (maxDischargeDepth := 80) only [List.cons_subset, List.nil_subset, and_self, State_setReg_only, ho, hp]

theorem placeWheels_only {pts : List Part} {s₀ : State} (pl : Placement) (n : Nat) (s : State) (ho : Moves pts s₀
      s) (hp : [.regs] ⊆ pts) :
    Moves pts s₀ (placeWheels pl n s) := by
  simp only [List.cons_subset, List.nil_subset, and_true] at hp
  unfold placeWheels
  repeat' first
    | (simp (maxDischargeDepth := 80) only [Moves.refl, List.cons_subset, List.nil_subset, and_self, setWide_only,
      ho, hp]; done)
    | intro _
    | split
    | refine Moves.foldl (fun _ _ => ?_) ?_
    | with_reducible apply setWide_only

theorem placeRegions_only {pts : List Part} {s₀ : State} (pl : Placement) (n : Nat) (s : State) (ho : Moves pts s₀
      s) (hp : [.regs] ⊆ pts) :
    Moves pts s₀ (placeRegions pl n s) := by
  simp only [List.cons_subset, List.nil_subset, and_true] at hp
  unfold placeRegions
  (repeat' split) <;> simp (maxDischargeDepth := 80) only [Moves.refl, Moves.foldl, List.cons_subset,
      List.nil_subset, implies_true, and_self, State_setReg_only, ho, hp]

theorem placeMode_only {pts : List Part} {s₀ : State} (pl : Placement) (n : Nat) (s : State) (ho : Moves pts s₀ s)
      (hp : [.regs, .cores] ⊆ pts) :
    Moves pts s₀ (placeMode pl n s) := by
  simp only [List.cons_subset, List.nil_subset, and_true] at hp
  unfold placeMode
  (repeat' split) <;> simp (maxDischargeDepth := 80) only [List.cons_subset, List.nil_subset, and_self,
      State_setCore_only, State_setFlag_only, State_setReg_only, ho, hp]

theorem placeCore_only {pts : List Part} {s₀ : State} (pl : Placement) (load : Bool) (n : Nat) (s : State) (ho :
      Moves pts s₀ s) (hp : [.regs, .cores] ⊆ pts) :
    Moves pts s₀ (placeCore pl load n s) := by
  simp only [List.cons_subset, List.nil_subset, and_true] at hp
  unfold placeCore
  simp (maxDischargeDepth := 80) only [Moves.ite_iff, List.cons_subset, List.nil_subset, implies_true, and_self,
      State_setFld_only, placeMode_only, placeRegions_only, placeWheels_only, ho, hp]

theorem placeCores_only {pts : List Part} {s₀ : State} (pl : Placement) (load : Bool) (s : State) (ho : Moves pts
      s₀ s) (hp : [.regs, .cores, .mem, .poison] ⊆ pts) :
    Moves pts s₀ (placeCores pl load s) := by
  simp only [List.cons_subset, List.nil_subset, and_true] at hp
  unfold placeCores
  simp (maxDischargeDepth := 80) only [Moves.ite_iff, Moves.refl, Moves.foldl, List.cons_subset, List.nil_subset,
      implies_true, and_self, clearCore_only, placeCore_only, setProts_only, ho, hp]

theorem weavePorts_only {pts : List Part} {s₀ : State} (d : WeaveDecl) (s : State) (ho : Moves pts s₀ s) (hp :
      [.basket] ⊆ pts) :
    Moves pts s₀ (weavePorts d s) := by
  simp only [List.cons_subset, List.nil_subset, and_true] at hp
  unfold weavePorts
  simp (maxDischargeDepth := 80) only [Moves.ite_iff, Moves.refl, Moves.foldl, List.cons_subset, List.nil_subset,
      implies_true, and_self, State_setPort_only, ho, hp]

theorem enterAlternate_only {pts : List Part} {s₀ : State} (d : WeaveDecl) (a : Nat) (load take : Bool) (s : State)
      (ho : Moves pts s₀ s) (hp : [.regs, .basket, .cores, .mem, .poison, .weave] ⊆ pts) :
    Moves pts s₀ (enterAlternate d a load take s) := by
  simp only [List.cons_subset, List.nil_subset, and_true] at hp
  unfold enterAlternate
  repeat' first
    | split
    | simp (maxDischargeDepth := 80) only [FuseMoves.refl, imp_self, Moves.ite_iff, Moves.upd, List.cons_subset,
      List.nil_subset, and_true, true_and, true_or, or_true, implies_true, and_self, placeCores_only,
      weavePorts_only, ho, hp]

theorem loseOwner_only {pts : List Part} {s₀ : State} (s : State) (ho : Moves pts s₀ s) (hp : [.host, .roi, .serve]
      ⊆ pts) :
    Moves pts s₀ (loseOwner s) := by
  simp only [List.cons_subset, List.nil_subset, and_true] at hp
  unfold loseOwner
  simp (maxDischargeDepth := 80) only [FuseMoves.refl, imp_self, rising_nil, Moves.upd, and_true, true_or, or_true,
      implies_true, and_self, ho, hp]

theorem dropTransfers_only {pts : List Part} {s₀ : State} (s : State) (ho : Moves pts s₀ s) (hp : [.serve] ⊆ pts) :
    Moves pts s₀ (dropTransfers s) := by
  simp only [List.cons_subset, List.nil_subset, and_true] at hp
  unfold dropTransfers
  simp (maxDischargeDepth := 80) only [FuseMoves.refl, imp_self, Moves.upd, and_true, true_or, or_true, and_self,
      ho, hp]

theorem startWeave_only {pts : List Part} {s₀ : State} (d : WeaveDecl) (a : Nat) (s : State) (ho : Moves pts s₀ s)
      (hp : [.regs, .out, .basket, .host, .cores, .knots, .mem, .poison, .serve, .fault, .weave] ⊆ pts) :
    Moves pts s₀ (startWeave d a s) := by
  simp only [List.cons_subset, List.nil_subset, and_true] at hp
  unfold startWeave
  simp (maxDischargeDepth := 80) only [FuseMoves.refl, imp_self, Moves.upd, List.cons_subset, List.nil_subset,
      and_true, true_or, or_true, and_self, State_setReg_only, clearKnots_only, dropTransfers_only,
      enterAlternate_only, leaveWeave_only, ho, hp]

theorem reportLostOwners_only {pts : List Part} {s₀ : State} (d : WeaveDecl) (old new : Nat) (num : BitVec 15) (s :
      State) (ho : Moves pts s₀ s) (hp : [.regs, .out, .host] ⊆ pts) :
    Moves pts s₀ (reportLostOwners d old new num s) := by
  simp only [List.cons_subset, List.nil_subset, and_true] at hp
  unfold reportLostOwners
  (repeat' split) <;> simp (maxDischargeDepth := 80) only [Moves.refl, Moves.foldl, List.cons_subset,
      List.nil_subset, implies_true, and_self, postEvent_only, ho, hp]

theorem judgeRestart_only {pts : List Part} {s₀ : State} (d : WeaveDecl) (h : HaltInfo) (s : State) (ho : Moves pts
      s₀ s) (hp : [.regs, .out, .basket, .host, .fault, .weave] ⊆ pts) :
    Moves pts s₀ (judgeRestart d h s) := by
  simp only [List.cons_subset, List.nil_subset, and_true] at hp
  unfold judgeRestart
  repeat' first
    | split
    | simp (maxDischargeDepth := 80) only [FuseMoves.refl, imp_self, Moves.ite_iff, Moves.upd, List.cons_subset,
      List.nil_subset, and_true, true_and, true_or, or_true, implies_true, and_self, postEvent_only,
      reportLostOwners_only, sendResume_only, ho, hp]

theorem resumeWeave_only {pts : List Part} {s₀ : State} (d : WeaveDecl) (h : HaltInfo) (a : BitVec 8) (s : State)
      (ho : Moves pts s₀ s) (hp : [.regs, .out, .basket, .host, .roi, .cores, .knots, .mem, .poison, .serve,
      .fault, .weave] ⊆ pts) :
    Moves pts s₀ (resumeWeave d h a s) := by
  simp only [List.cons_subset, List.nil_subset, and_true] at hp
  unfold resumeWeave
  simp (maxDischargeDepth := 80) only [FuseMoves.refl, imp_self, Moves.ite_iff, Moves.upd, List.cons_subset,
      List.nil_subset, and_true, true_or, or_true, implies_true, and_self, State_setReg_only, enterAlternate_only,
      idleWeave_only, loseOwner_only, ho, hp]

theorem restartBeat_only {pts : List Part} {s₀ : State} (s : State) (ho : Moves pts s₀ s) (hp : [.regs, .out,
      .basket, .host, .roi, .cores, .knots, .mem, .poison, .serve, .fault, .weave] ⊆ pts) :
    Moves pts s₀ (restartBeat s) := by
  simp only [List.cons_subset, List.nil_subset, and_true] at hp
  unfold restartBeat
  repeat' first
    | split
    | simp (maxDischargeDepth := 80) only [FuseMoves.refl, imp_self, Moves.upd, List.cons_subset, List.nil_subset,
      and_true, true_or, or_true, and_self, idleWeave_only, judgeRestart_only, resumeWeave_only, ho, hp]

theorem chooseLoad_only {pts : List Part} {s₀ : State} (s : State) (ho : Moves pts s₀ s) (hp : [.regs, .out,
      .basket, .host, .fault, .weave] ⊆ pts) :
    Moves pts s₀ (chooseLoad s) := by
  simp only [List.cons_subset, List.nil_subset, and_true] at hp
  unfold chooseLoad
  (repeat' split) <;> simp (maxDischargeDepth := 80) only [List.cons_subset, List.nil_subset, and_self,
      endLoad_only, sendResume_only, ho, hp]

theorem startLoad_only {pts : List Part} {s₀ : State} (s : State) (ho : Moves pts s₀ s) (hp : [.regs, .out,
      .basket, .host, .cores, .knots, .mem, .poison, .serve, .fault, .weave] ⊆ pts) :
    Moves pts s₀ (startLoad s) := by
  simp only [List.cons_subset, List.nil_subset, and_true] at hp
  unfold startLoad
  repeat' first
    | split
    | simp (maxDischargeDepth := 80) only [FuseMoves.refl, imp_self, Moves.upd, List.cons_subset, List.nil_subset,
      and_true, true_or, or_true, and_self, completeFlight_only, idleWeave_only, startWeave_only, ho, hp]

theorem stopDue_only {pts : List Part} {s₀ : State} (s : State) (ho : Moves pts s₀ s) (hp : [.regs, .out, .basket,
      .host, .knots, .serve, .fault, .weave] ⊆ pts) :
    Moves pts s₀ (stopDue s) := by
  simp only [List.cons_subset, List.nil_subset, and_true] at hp
  unfold stopDue
  (repeat' split) <;> simp (maxDischargeDepth := 80) only [List.cons_subset, List.nil_subset, and_self,
      dropTransfers_only, idleWeave_only, ho, hp]

theorem beatStart_only {pts : List Part} {s₀ : State} (s : State) (ho : Moves pts s₀ s) (hp : [.regs, .out, .time,
      .basket, .host, .field, .roi, .wfe, .cores, .knots, .mem, .poison, .serve, .fault, .weave] ⊆ pts) :
    Moves pts s₀ (beatStart s) := by
  simp only [List.cons_subset, List.nil_subset, and_true] at hp
  unfold beatStart
  simp (maxDischargeDepth := 80) only [FuseMoves.refl, imp_self, Moves.ite_iff, Moves.upd, List.cons_subset,
      List.nil_subset, and_true, true_or, or_true, implies_true, and_self, beatPulses_only, chooseLoad_only,
      coresBeat_only, restartBeat_only, startLoad_only, startSource_only, stopDue_only, ho, hp]

end Sys2Proof.Machine
end

