-- ==== Sys2Proof/Laws/FrameRegs.lean ====
section
/-!
SUPPORT. FrameRegs.lean: what link frames, register accesses and a tick change at most, that each keeps
the canonical form, and that none clears a fuse bit: one lemma per operation.
-/

set_option linter.all false

namespace Sys2Proof.Machine

theorem looseTake_only {pts : List Part} {s₀ : State} (m : Loose) (s : State) (ho : Moves pts s₀ s) (hp : [.regs,
      .out, .basket, .host, .roi, .cores, .knots, .mem, .poison, .serve, .fault, .weave] ⊆ pts) :
    Moves pts s₀ (looseTake m s) := by
  simp only [List.cons_subset, List.nil_subset, and_true] at hp
  unfold looseTake
  (repeat' split) <;> simp (maxDischargeDepth := 80) only [List.cons_subset, List.nil_subset, and_self,
      hostFwdReq_only, hostFwdRsp_only, kvShipAck_only, kvShipEnd_only, kvShipList_only, kvShipNak_only,
      kvShipPages_only, refuse_only, winNak_only, winRead_only, winResp_only, winWrite_only, ho, hp]

theorem sendCredit_only {pts : List Part} {s₀ : State} (p : Port) (c0 c1 : Nat) (s : State) (ho : Moves pts s₀ s)
      (hp : [.out] ⊆ pts) :
    Moves pts s₀ (sendCredit p c0 c1 s) := by
  simp only [List.cons_subset, List.nil_subset, and_true] at hp
  unfold sendCredit
  simp (maxDischargeDepth := 80) only [List.cons_subset, List.nil_subset, and_self, State_emit_only, ho, hp]

theorem looseArrive_only {pts : List Part} {s₀ : State} (p : Port) (m : Loose) (s : State) (ho : Moves pts s₀ s)
      (hp : [.regs, .out, .basket, .host, .roi, .cores, .knots, .mem, .poison, .serve, .fault, .weave] ⊆ pts) :
    Moves pts s₀ (looseArrive p m s).1 := by
  simp only [List.cons_subset, List.nil_subset, and_true] at hp
  unfold looseArrive
  repeat' split
  all_goals simp (maxDischargeDepth := 80) only [wf_const_iff, wf_reset_iff, wf_filter_iff, wf_all_iff,
      rising_set_iff, FuseMoves.refl, imp_self, smWf_nil, rising_nil, Moves.ite_iff, Moves.upd, Moves.refl,
      Moves.foldl, List.cons_subset, List.nil_subset, and_true, true_and, true_or, or_true, implies_true, and_self,
       refuse_only, looseTake_only, State_setPort_only, ho, hp]

theorem looseAll_only {pts : List Part} {s₀ : State} (p : Port) (a1 : List Loose) (a2 : State) (ho : Moves pts s₀
      a2) (hp : [.regs, .out, .basket, .host, .roi, .cores, .knots, .mem, .poison, .serve, .fault, .weave] ⊆ pts) :
    Moves pts s₀ (looseAll p a1 a2).1 := by
  simp only [List.cons_subset, List.nil_subset, and_true] at hp
  induction a1 generalizing p a2 with
  | nil =>
    unfold looseAll
    simp (maxDischargeDepth := 80) only [ho]
  | cons y a1 ih =>
    unfold looseAll
    simp (maxDischargeDepth := 80) only [List.cons_subset, List.nil_subset, and_self, looseArrive_only, ih, ho, hp]

theorem looseForward_only {pts : List Part} {s₀ : State} (p : Port) (s : State) (ho : Moves pts s₀ s) (hp : [.regs,
      .out, .basket, .host, .roi, .cores, .knots, .mem, .poison, .serve, .fault, .weave] ⊆ pts) :
    Moves pts s₀ (looseForward p s) := by
  simp only [List.cons_subset, List.nil_subset, and_true] at hp
  unfold looseForward
  repeat' first
    | split
    | simp (maxDischargeDepth := 80) only [Moves.ite_iff, List.cons_subset, List.nil_subset, true_and,
      implies_true, and_self, State_setPort_only, looseTake_only, refuse_only, sendCredit_only, sendOn_only, ho, hp]

theorem staticOut_only {pts : List Part} {s₀ : State} (f pos : Nat) (w : LinkWord) (s : State) (o : Port) (ho :
      Moves pts s₀ s) (hp : [.out] ⊆ pts) :
    Moves pts s₀ (staticOut f pos w s o) := by
  simp only [List.cons_subset, List.nil_subset, and_true] at hp
  unfold staticOut
  simp (maxDischargeDepth := 80) only [Moves.ite_iff, List.cons_subset, List.nil_subset, implies_true, and_self,
      State_emit_only, ho, hp]

theorem staticIn_only {pts : List Part} {s₀ : State} (p : Port) (f : Nat) (x : Nat × LinkWord) (s : State) (ho :
      Moves pts s₀ s) (hp : [.out, .mem, .poison] ⊆ pts) :
    Moves pts s₀ (staticIn p f x s) := by
  simp only [List.cons_subset, List.nil_subset, and_true] at hp
  unfold staticIn
  repeat' first
    | split
    | simp (maxDischargeDepth := 80) only [Moves.refl, Moves.foldl, List.cons_subset, List.nil_subset,
      implies_true, and_self, staticOut_only, wrMem_only, ho, hp]

theorem ctrlTake_only {pts : List Part} {s₀ : State} (p : Port) (w : LinkWord) (s : State) (ho : Moves pts s₀ s)
      (hp : [.regs, .out, .time, .basket, .host, .roi, .cores, .knots, .serve, .fault, .weave] ⊆ pts) :
    Moves pts s₀ (ctrlTake p w s) := by
  simp only [List.cons_subset, List.nil_subset, and_true] at hp
  unfold ctrlTake
  (repeat' split) <;> simp (maxDischargeDepth := 80) only [List.cons_subset, List.nil_subset, and_self,
      haltIn_only, keyx_only, knotWordIn_only, presence_only, resumeIn_only, timeBeatWord_only, timeClockWord_only,
      timeStepWord_only, ho, hp]

theorem resendOn_only {pts : List Part} {s₀ : State} (p : Port) (s : State) (ho : Moves pts s₀ s) (hp : [.regs,
      .out, .basket] ⊆ pts) :
    Moves pts s₀ (resendOn p s) := by
  simp only [List.cons_subset, List.nil_subset, and_true] at hp
  unfold resendOn
  simp (maxDischargeDepth := 80) only [Moves.refl, Moves.foldl, List.cons_subset, List.nil_subset, implies_true,
      and_self, State_bumpSat_only, State_emit_only, State_setPort_only, ho, hp]

theorem creditsIn_only {pts : List Part} {s₀ : State} (p : Port) (f : LinkFrame) (s : State) (ho : Moves pts s₀ s)
      (hp : [.regs, .out, .basket] ⊆ pts) :
    Moves pts s₀ (creditsIn p f s) := by
  simp only [List.cons_subset, List.nil_subset, and_true] at hp
  unfold creditsIn
  simp (maxDischargeDepth := 80) only [Moves.ite_iff, List.cons_subset, List.nil_subset, implies_true, and_self,
      State_setPort_only, drainOutbox_only, resendOn_only, ho, hp]

theorem headersIn_only {pts : List Part} {s₀ : State} (p : Port) (f : LinkFrame) (ws : List LinkWord) (s : State)
      (ho : Moves pts s₀ s) (hp : [.regs, .out, .basket, .host, .roi, .cores, .knots, .serve, .fault, .weave] ⊆
      pts) :
    Moves pts s₀ (headersIn p f ws s) := by
  simp only [List.cons_subset, List.nil_subset, and_true] at hp
  unfold headersIn
  repeat' first
    | split
    | simp (maxDischargeDepth := 80) only [Moves.refl, Moves.foldl, List.cons_subset, List.nil_subset,
      implies_true, and_self, State_setPort_only, countHdr_only, laneFailure_only, ho, hp]

theorem frameBad_only {pts : List Part} {s₀ : State} (p : Port) (f : LinkFrame) (s : State) (ho : Moves pts s₀ s)
      (hp : [.regs, .out, .basket, .host, .roi, .cores, .knots, .serve, .fault, .weave] ⊆ pts) :
    Moves pts s₀ (frameBad p f s) := by
  simp only [List.cons_subset, List.nil_subset, and_true] at hp
  unfold frameBad
  simp (maxDischargeDepth := 80) only [Moves.ite_iff, List.cons_subset, List.nil_subset, implies_true, and_self,
      State_setPort_only, countChk_only, sendCredit_only, weaveFault_only, ho, hp]

theorem frameGood_only {pts : List Part} {s₀ : State} (p : Port) (f : LinkFrame) (s : State) (ho : Moves pts s₀ s)
      (hp : [.regs, .out, .basket, .host, .roi, .cores, .knots, .mem, .poison, .serve, .fault, .weave] ⊆ pts) :
    Moves pts s₀ (frameGood p f s) := by
  simp only [List.cons_subset, List.nil_subset, and_true] at hp
  unfold frameGood
  simp (maxDischargeDepth := 80) only [Moves.ite_iff, List.cons_subset, List.nil_subset, implies_true, and_self,
      State_setPort_only, looseAll_only, sendCredit_only, ho, hp]

theorem frameWord_only {pts : List Part} {s₀ : State} (p : Port) (f : LinkFrame) (s : State) (ho : Moves pts s₀ s)
      (hp : [.basket] ⊆ pts) :
    Moves pts s₀ (frameWord p f s) := by
  simp only [List.cons_subset, List.nil_subset, and_true] at hp
  unfold frameWord
  simp (maxDischargeDepth := 80) only [FuseMoves.refl, imp_self, Moves.ite_iff, Moves.upd, List.cons_subset,
      List.nil_subset, and_true, true_or, or_true, implies_true, and_self, State_setPort_only, ho, hp]

theorem linkFrame_only {pts : List Part} {s₀ : State} (p : Port) (f : LinkFrame) (s : State) (ho : Moves pts s₀ s)
      (hp : [.regs, .out, .time, .basket, .host, .roi, .cores, .knots, .mem, .poison, .serve, .fault, .weave] ⊆
      pts) :
    Moves pts s₀ (linkFrame p f s) := by
  simp only [List.cons_subset, List.nil_subset, and_true] at hp
  unfold linkFrame
  simp (maxDischargeDepth := 80) only [Moves.ite_iff, Moves.refl, Moves.foldl, List.cons_subset, List.nil_subset,
      implies_true, and_self, creditsIn_only, ctrlTake_only, frameBad_only, frameGood_only, frameWord_only,
      headersIn_only, refuse_only, staticIn_only, ho, hp]

theorem clearRc_only {pts : List Part} {s₀ : State} (off : Nat) (s : State) (ho : Moves pts s₀ s) (hp : [.regs] ⊆
      pts) :
    Moves pts s₀ (clearRc off s) := by
  simp only [List.cons_subset, List.nil_subset, and_true] at hp
  unfold clearRc
  (repeat' split) <;> simp (maxDischargeDepth := 80) only [List.cons_subset, List.nil_subset, and_self,
      State_dropSets_only, State_setReg_only, ho, hp]

theorem bar0Read_only {pts : List Part} {s₀ : State} (off : Nat) (s : State) (ho : Moves pts s₀ s) (hp : [.regs,
      .time, .field, .serve] ⊆ pts) :
    Moves pts s₀ (bar0Read off s).1 := by
  simp only [List.cons_subset, List.nil_subset, and_true] at hp
  unfold bar0Read
  repeat' split
  all_goals simp (maxDischargeDepth := 80) only [wf_const_iff, wf_reset_iff, wf_filter_iff, wf_all_iff,
      rising_set_iff, FuseMoves.refl, imp_self, smWf_nil, rising_nil, Moves.ite_iff, Moves.upd, Moves.refl,
      Moves.foldl, List.cons_subset, List.nil_subset, and_true, true_and, true_or, or_true, implies_true, and_self,
       timeNowLoRead_only, timeBeatNumLoRead_only, timeBeatStampLoRead_only, evqPop_only, encPosRead_only,
      serveStepNumLoRead_only, clearRc_only, ho, hp]

theorem gateBar2_only {pts : List Part} {s₀ : State} (off : Nat) (s : State) (ho : Moves pts s₀ s) (hp : [.out] ⊆
      pts) :
    Moves pts s₀ (gateBar2 off s) := by
  simp only [List.cons_subset, List.nil_subset, and_true] at hp
  unfold gateBar2
  (repeat' split) <;> simp (maxDischargeDepth := 80) only [List.cons_subset, List.nil_subset, and_self,
      State_emit_only, ho, hp]

theorem writeCount_only {pts : List Part} {s₀ : State} (m : Nat) (new : Word) (s : State) (ho : Moves pts s₀ s) (hp
      : [.field] ⊆ pts) :
    Moves pts s₀ (writeCount m new s) := by
  simp only [List.cons_subset, List.nil_subset, and_true] at hp
  unfold writeCount
  simp (maxDischargeDepth := 80) only [FuseMoves.refl, imp_self, Moves.upd, and_true, true_or, or_true, ho, hp]

theorem fieldEffect_only {pts : List Part} {s₀ : State} (off : Nat) (new : Word) (s : State) (ho : Moves pts s₀ s)
      (hp : [.out, .field] ⊆ pts) :
    Moves pts s₀ (fieldEffect off new s) := by
  simp only [List.cons_subset, List.nil_subset, and_true] at hp
  unfold fieldEffect
  (repeat' split) <;> simp (maxDischargeDepth := 80) only [List.cons_subset, List.nil_subset, and_self,
      driveStrobe_only, driveSync_only, writeCount_only, ho, hp]

theorem wfeEffect_only {pts : List Part} {s₀ : State} (off : Nat) (old new : Word) (s : State) (ho : Moves pts s₀
      s) (hp : [.wfe] ⊆ pts) :
    Moves pts s₀ (wfeEffect off old new s) := by
  simp only [List.cons_subset, List.nil_subset, and_true] at hp
  unfold wfeEffect
  (repeat' split) <;> simp (maxDischargeDepth := 80) only [List.cons_subset, List.nil_subset, and_self,
      State_setWfe_only, beginCal_only, ho, hp]

theorem withyEffect_only {pts : List Part} {s₀ : State} (off : Nat) (old new : Word) (s : State) (ho : Moves pts s₀
      s) (hp : [.basket] ⊆ pts) :
    Moves pts s₀ (withyEffect off old new s) := by
  simp only [List.cons_subset, List.nil_subset, and_true] at hp
  unfold withyEffect
  (repeat' split) <;> simp (maxDischargeDepth := 80) only [List.cons_subset, List.nil_subset, and_self,
      State_setPort_only, portTrain_only, ho, hp]

theorem hostEffect_only {pts : List Part} {s₀ : State} (off : Nat) (old new : Word) (s : State) (ho : Moves pts s₀
      s) (hp : [.regs, .out, .host, .boot] ⊆ pts) :
    Moves pts s₀ (hostEffect off old new s) := by
  simp only [List.cons_subset, List.nil_subset, and_true] at hp
  unfold hostEffect
  simp (maxDischargeDepth := 80) only [Moves.ite_iff, List.cons_subset, List.nil_subset, implies_true, and_self,
      postDue_only, ho, hp]

theorem coreEffect_only {pts : List Part} {s₀ : State} (src : Writer) (n o : Nat) (s : State) (ho : Moves pts s₀ s)
      (hp : [.regs] ⊆ pts) :
    Moves pts s₀ (coreEffect src n o s) := by
  simp only [List.cons_subset, List.nil_subset, and_true] at hp
  unfold coreEffect
  simp (maxDischargeDepth := 80) only [Moves.ite_iff, List.cons_subset, List.nil_subset, implies_true, and_self,
      State_setFld_only, ho, hp]

theorem writeEffect_only {pts : List Part} {s₀ : State} (src : Writer) (off : Nat) (old new : Word) (s : State) (ho
      : Moves pts s₀ s) (hp : [.regs, .out, .basket, .host, .field, .wfe, .boot] ⊆ pts) :
    Moves pts s₀ (writeEffect src off old new s) := by
  simp only [List.cons_subset, List.nil_subset, and_true] at hp
  unfold writeEffect
  simp (maxDischargeDepth := 80) only [Moves.ite_iff, List.cons_subset, List.nil_subset, implies_true, and_self,
      coreEffect_only, fieldEffect_only, hostEffect_only, wfeEffect_only, withyEffect_only, ho, hp]

theorem snapshotFor_only {pts : List Part} {s₀ : State} (off : Nat) (s : State) (ho : Moves pts s₀ s) (hp : [.pix]
      ⊆ pts) :
    Moves pts s₀ (snapshotFor off s) := by
  simp only [List.cons_subset, List.nil_subset, and_true] at hp
  unfold snapshotFor
  simp (maxDischargeDepth := 80) only [Moves.ite_iff, List.cons_subset, List.nil_subset, implies_true, and_self,
      pixSnapshot_only, ho, hp]

theorem fieldsWrite_only {pts : List Part} {s₀ : State} (src : Writer) (r : RegRow) (off : Nat) (val : Word) (be :
      BitVec 4) (s : State) (ho : Moves pts s₀ s) (hp : [.regs, .out, .basket, .host, .field, .pix, .wfe, .boot] ⊆
      pts) :
    Moves pts s₀ (fieldsWrite src r off val be s) := by
  simp only [List.cons_subset, List.nil_subset, and_true] at hp
  unfold fieldsWrite
  simp (maxDischargeDepth := 80) only [Moves.ite_iff, List.cons_subset, List.nil_subset, implies_true, and_self,
      State_setReg_only, latch_only, snapshotFor_only, writeEffect_only, ho, hp]

theorem stageLo_only {pts : List Part} {s₀ : State} (rw lo : Nat) (val : Word) (be : BitVec 4) (s : State) (ho :
      Moves pts s₀ s) (hp : [.time] ⊆ pts) :
    Moves pts s₀ (stageLo rw lo val be s) := by
  simp only [List.cons_subset, List.nil_subset, and_true] at hp
  unfold stageLo
  simp (maxDischargeDepth := 80) only [FuseMoves.refl, imp_self, Moves.upd, List.cons_subset, List.nil_subset,
      and_true, true_or, or_true, and_self, clearStage_only, ho, hp]

theorem pairWrite_only {pts : List Part} {s₀ : State} (src : Writer) (rw lo : Nat) (val : Word) (be : BitVec 4) (s
      : State) (ho : Moves pts s₀ s) (hp : [.regs, .time, .pix] ⊆ pts) :
    Moves pts s₀ (pairWrite src rw lo val be s) := by
  simp only [List.cons_subset, List.nil_subset, and_true] at hp
  unfold pairWrite
  simp (maxDischargeDepth := 80) only [Moves.ite_iff, List.cons_subset, List.nil_subset, implies_true, and_self,
      State_setReg_only, clearStage_only, refuse_only, snapshotFor_only, ho, hp]

theorem forPorts_only {pts : List Part} {s₀ : State} (mask : Nat) (f : Port → State → State) (s : State) (ho :
      Moves pts s₀ s) (hf : ∀ x0 t, Moves pts t (f x0 t)) :
    Moves pts s₀ (forPorts mask f s) := by
  unfold forPorts
  refine Moves.foldl (fun t p => ?_) ho
  split
  · exact hf _ _
  · exact Moves.refl _ _

theorem pwrEnter_only {pts : List Part} {s₀ : State} (code : Nat) (s : State) (ho : Moves pts s₀ s) (hp : [.regs,
      .power] ⊆ pts) :
    Moves pts s₀ (pwrEnter code s) := by
  simp only [List.cons_subset, List.nil_subset, and_true] at hp
  unfold pwrEnter
  (repeat' split) <;> simp (maxDischargeDepth := 80) only [List.cons_subset, List.nil_subset, and_self,
      enterDoze_only, enterSlumber_only, refuse_only, ho, hp]

theorem bootCmd_only {pts : List Part} {s₀ : State} (b : BitVec 4) (s : State) (ho : Moves pts s₀ s) (hp : [.regs,
      .out, .freeCtr, .power, .time, .basket, .host, .field, .pix, .roi, .wfe, .cores, .knots, .mem, .poison,
      .serve, .fault, .weave, .therm, .fuse, .boot] ⊆ pts) :
    Moves pts s₀ (bootCmd b s) := by
  simp only [List.cons_subset, List.nil_subset, and_true] at hp
  unfold bootCmd
  simp (maxDischargeDepth := 80) only [Moves.ite_iff, List.cons_subset, List.nil_subset, implies_true, and_self,
      bootLoad_only, bootReboot_only, bootStop_only, raiseFloor_only, refuse_only, ho, hp]

theorem onBit_only {pts : List Part} {s₀ : State} (w : Word) (i : Nat) (f : State → State) (s : State) (ho : Moves
      pts s₀ s) (hf : ∀ t, Moves pts t (f t)) :
    Moves pts s₀ (onBit w i f s) := by
  have hf' : ∀ t, Moves pts s₀ t → Moves pts s₀ (f t) := fun t h => h.trans (hf t)
  unfold onBit
  simp (maxDischargeDepth := 80) only [Moves.ite_iff, implies_true, and_self, ho, hf']

theorem wholeWrite_only {pts : List Part} {s₀ : State} (c : Code) (f : State → State) (s : State) (ho : Moves pts
      s₀ s) (hf : ∀ t, Moves pts t (f t)) (hp : [.regs] ⊆ pts) :
    Moves pts s₀ (wholeWrite c f s) := by
  simp only [List.cons_subset, List.nil_subset, and_true] at hp
  have hf' : ∀ t, Moves pts s₀ t → Moves pts s₀ (f t) := fun t h => h.trans (hf t)
  unfold wholeWrite
  simp (maxDischargeDepth := 80) only [Moves.ite_iff, List.cons_subset, List.nil_subset, implies_true, and_self,
      refuse_only, ho, hf', hp]

theorem commandWrite_only {pts : List Part} {s₀ : State} (src : Writer) (off : Nat) (w : Word) (s : State) (t :
      State)
    (hr : commandWrite src off w s = some t) (ho : Moves pts s₀ s) (hp : [.regs, .out, .freeCtr, .power, .time,
      .basket, .host, .field, .pix, .roi, .wfe, .cores, .knots, .mem, .poison, .serve, .fault, .weave, .therm,
      .fuse, .boot] ⊆ pts) :
    Moves pts s₀ t := by
  simp only [List.cons_subset, List.nil_subset, and_true] at hp
  have key : ∀ {c : Prop} [Decidable c] {u : State} {x : Option State},
      Moves pts s₀ u → (x = some t → Moves pts s₀ t) →
      (if c then some u else x) = some t → Moves pts s₀ t := by
    intro c _ u x hu hx h
    split at h
    · exact Option.some.inj h ▸ hu
    · exact hx h
  revert hr
  unfold commandWrite
  repeat' (refine key ?_ ?_)
  all_goals first
    | (intro h; cases h; done)
    | (simp (maxDischargeDepth := 80) only [Moves.refl, List.cons_subset, List.nil_subset, implies_true, and_self,
      onBit_only, wholeWrite_only, forPorts_only, clkApply_only, timeSet_only, pwrEnter_only, fuseCommand_only,
      bootCmd_only, rekey_only, retrain_only, fwdStart_only, darkCapture_only, snapWrite_only, armZ_only,
      armAt_only, ruleSwap_only, ruleRead_only, ruleWrite_only, diagCapture_only, stopRun_only, softStart_only,
      reqRead_only, newKey_only, faultClear_only, ho, hp])

theorem bootCtlWrite_only {pts : List Part} {s₀ : State} (val : Word) (be : BitVec 4) (s : State) (ho : Moves pts
      s₀ s) (hp : [.regs] ⊆ pts) :
    Moves pts s₀ (bootCtlWrite val be s) := by
  simp only [List.cons_subset, List.nil_subset, and_true] at hp
  unfold bootCtlWrite
  simp (maxDischargeDepth := 80) only [Moves.ite_iff, List.cons_subset, List.nil_subset, implies_true, and_self,
      State_setFlag_only, pairOverride_only, ho, hp]

theorem ownWrite_only {pts : List Part} {s₀ : State} (off : Nat) (val : Word) (be : BitVec 4) (s : State) (t :
      State)
    (hr : ownWrite off val be s = some t) (ho : Moves pts s₀ s) (hp : [.regs, .out, .time, .basket, .host, .roi,
      .wfe] ⊆ pts) :
    Moves pts s₀ t := by
  simp only [List.cons_subset, List.nil_subset, and_true] at hp
  unfold ownWrite at hr
  repeat' split at hr
  all_goals first
    | cases hr; done
    | (cases hr; simp (maxDischargeDepth := 80) only [wf_const_iff, wf_reset_iff, wf_filter_iff, wf_all_iff,
        rising_set_iff, FuseMoves.refl, imp_self, smWf_nil, rising_nil, Moves.ite_iff, Moves.upd, Moves.refl,
        Moves.foldl, List.cons_subset, List.nil_subset, and_true, true_and, true_or, or_true, implies_true,
      and_self,
         timeBeatLenWrite_only, timeBeatEpochWrite_only, bootCtlWrite_only, recCfgWrite_only, cryptModeWrite_only,
        wfeCtlWrite_only, ringCfgWrite_only, winCtlWrite_only, ho, hp])

theorem bar0Write_only {pts : List Part} {s₀ : State} (src : Writer) (off : Nat) (val : Word) (be : BitVec 4) (s :
      State) (ho : Moves pts s₀ s) (hp : [.regs, .out, .freeCtr, .power, .time, .basket, .host, .field, .pix, .roi,
      .wfe, .cores, .knots, .mem, .poison, .serve, .fault, .weave, .therm, .fuse, .boot] ⊆ pts) :
    Moves pts s₀ (bar0Write src off val be s) := by
  simp only [List.cons_subset, List.nil_subset, and_true] at hp
  unfold bar0Write
  split
  · exact ho
  · refine Moves.ite ho (Moves.ite ho (Moves.ite ?_ (Moves.ite ?_ (Moves.ite ?_ ?_))))
    · exact refuse_only _ _ ho (by simp [hp])
    · exact stageLo_only _ _ _ _ _ ho (by simp [hp])
    · exact pairWrite_only _ _ _ _ _ _ ho (by simp [hp])
    · split
      · rename_i h; exact ownWrite_only _ _ _ _ _ h ho (by simp [hp])
      · rename_i h; exact commandWrite_only _ _ _ _ _ h ho (by simp [hp])
      · exact fieldsWrite_only _ _ _ _ _ _ ho (by simp [hp])

theorem forwardedAccess_only {pts : List Part} {s₀ : State} (origin : BitVec 6) (off : Nat) (write : Option Word)
      (s : State) (ho : Moves pts s₀ s) (hp : [.regs, .out, .freeCtr, .power, .time, .basket, .host, .field, .pix,
      .roi, .wfe, .cores, .knots, .mem, .poison, .serve, .fault, .weave, .therm, .fuse, .boot] ⊆ pts) :
    Moves pts s₀ (forwardedAccess origin off write s) := by
  simp only [List.cons_subset, List.nil_subset, and_true] at hp
  unfold forwardedAccess
  refine Moves.ite ?_ (Moves.ite ?_ ?_)
  · exact State_emit_only _ _ (latch_only _ _ _ ho (by simp [hp])) (by simp [hp])
  · split
    · exact State_emit_only _ _ (bar0Write_only _ _ _ _ _ ho (by simp [hp])) (by simp [hp])
    · exact State_emit_only _ _ (bar0Read_only _ _ ho (by simp [hp])) (by simp [hp])
  · split
    · exact State_emit_only _ _ ho (by simp [hp])
    · exact State_emit_only _ _ ho (by simp [hp])
    · exact ho

theorem sendCtrlWords_only {pts : List Part} {s₀ : State} (p : Port) (x : LinkPort) (a2 : Nat) (a3 : List LinkWord)
      (a4 : State) (ho : Moves pts s₀ a4) (hp : [.out] ⊆ pts) :
    Moves pts s₀ (sendCtrlWords p x a2 a3 a4) := by
  simp only [List.cons_subset, List.nil_subset, and_true] at hp
  induction a3 generalizing p x a2 a4 with
  | nil =>
    unfold sendCtrlWords
    simp (maxDischargeDepth := 80) only [ho]
  | cons y a3 ih =>
    unfold sendCtrlWords
    simp (maxDischargeDepth := 80) only [List.cons_subset, List.nil_subset, and_self, State_emit_only, ih, ho, hp]

theorem streamSlot_only {pts : List Part} {s₀ : State} (p : Port) (f slot n : Nat) (s : State) (ho : Moves pts s₀
      s) (hp : [.out, .basket] ⊆ pts) :
    Moves pts s₀ (streamSlot p f slot n s) := by
  simp only [List.cons_subset, List.nil_subset, and_true] at hp
  unfold streamSlot
  simp (maxDischargeDepth := 80) only [FuseMoves.refl, imp_self, Moves.upd, Moves.refl, Moves.foldl,
      List.cons_subset, List.nil_subset, and_true, true_or, or_true, implies_true, and_self, State_emit_only, ho,
      hp]

theorem localSlots_only {pts : List Part} {s₀ : State} (p : Port) (f : Nat) (s : State) (ho : Moves pts s₀ s) (hp :
      [.out, .basket] ⊆ pts) :
    Moves pts s₀ (localSlots p f s) := by
  simp only [List.cons_subset, List.nil_subset, and_true] at hp
  unfold localSlots
  repeat' first
    | (simp (maxDischargeDepth := 80) only [Moves.ite_iff, Moves.refl, List.cons_subset, List.nil_subset,
      implies_true, and_self, streamSlot_only, ho, hp]; done)
    | intro _
    | split
    | refine Moves.foldl (fun _ _ => ?_) ?_
    | with_reducible apply streamSlot_only

theorem framePass_only {pts : List Part} {s₀ : State} (f : Nat) (p : Port) (s : State) (ho : Moves pts s₀ s) (hp :
      [.out, .basket] ⊆ pts) :
    Moves pts s₀ (framePass f p s) := by
  simp only [List.cons_subset, List.nil_subset, and_true] at hp
  unfold framePass
  simp (maxDischargeDepth := 80) only [Moves.ite_iff, List.cons_subset, List.nil_subset, implies_true, and_self,
      State_setPort_only, localSlots_only, sendCtrlWords_only, ho, hp]

theorem framesPass_only {pts : List Part} {s₀ : State} (f : Nat) (s : State) (ho : Moves pts s₀ s) (hp : [.regs,
      .out, .basket, .host, .knots] ⊆ pts) :
    Moves pts s₀ (framesPass f s) := by
  simp only [List.cons_subset, List.nil_subset, and_true] at hp
  unfold framesPass
  simp (maxDischargeDepth := 80) only [Moves.refl, Moves.foldl, List.cons_subset, List.nil_subset, implies_true,
      and_self, drainOutbox_only, framePass_only, unstall_only, ho, hp]

theorem newCycle_only {pts : List Part} {s₀ : State} (s : State) (ho : Moves pts s₀ s) (hp : [.regs] ⊆ pts) :
    Moves pts s₀ (newCycle s) := by
  simp only [List.cons_subset, List.nil_subset, and_true] at hp
  unfold newCycle
  simp (maxDischargeDepth := 80) only [FuseMoves.refl, imp_self, Moves.upd, and_true, true_or, or_true, and_self,
      ho, hp]

theorem pCycle_only {pts : List Part} {s₀ : State} (s : State) (ho : Moves pts s₀ s) (hp : [.regs, .out, .time,
      .basket, .host, .field, .pix, .roi, .wfe, .knots] ⊆ pts) :
    Moves pts s₀ (pCycle s) := by
  simp only [List.cons_subset, List.nil_subset, and_true] at hp
  unfold pCycle
  simp (maxDischargeDepth := 80) only [FuseMoves.refl, imp_self, Moves.ite_iff, Moves.upd, List.cons_subset,
      List.nil_subset, and_true, true_or, or_true, implies_true, and_self, driveCopies_only, endStopped_only,
      framesPass_only, newCycle_only, snapTrigger_only, ho, hp]

theorem aTick_only {pts : List Part} {s₀ : State} (s : State) (ho : Moves pts s₀ s) (hp : [.regs, .time] ⊆ pts) :
    Moves pts s₀ (aTick s) := by
  simp only [List.cons_subset, List.nil_subset, and_true] at hp
  unfold aTick
  simp (maxDischargeDepth := 80) only [FuseMoves.refl, imp_self, Moves.upd, List.cons_subset, List.nil_subset,
      and_true, true_or, or_true, and_self, newCycle_only, ho, hp]

theorem tick_only {pts : List Part} {s₀ : State} (s : State) (ho : Moves pts s₀ s) (hp : [.regs, .out, .time,
      .basket, .host, .field, .pix, .roi, .wfe, .knots] ⊆ pts) :
    Moves pts s₀ (tick s) := by
  simp only [List.cons_subset, List.nil_subset, and_true] at hp
  unfold tick
  (repeat' split) <;> simp (maxDischargeDepth := 80) only [List.cons_subset, List.nil_subset, and_self, aTick_only,
      pCycle_only, ho, hp]

end Sys2Proof.Machine
end

