-- ==== Sys2Proof/Tests/Slice0.lean ====
section
/-!
SUPPORT. Slice0.lean: small states; for every statement with hypotheses a state and operands that meet them; the manual's
worked examples; and an ill-formed command for each check of WellFormed.
-/

set_option Elab.async false
set_option maxRecDepth 4000
set_option linter.unusedVariables false

namespace Sys2Proof.Machine

/-- An unjoined anchor in Run, one second of belt time after reset, PLLs locked, level Hobby. -/
def Test.alone : State :=
  { State.reset with
    power := { PowerState.reset with phase := .run, strap1 := 0x41, strap2 := 0x41, pgoodA := true, pgoodB := true,
                                     railA := true, railB := true },
    boot := { BootState.reset with serving := true },
    host := { HostState.reset with bme := true, vecMask := 0, msixOn := true, funcMask := false },
    regs := [(Reg.idStatus, 2), (Reg.clkStatus, 0x0F)],
    time := { TimeState.reset with belt := 1000000000 * 65536, cclk := true } }

/-- The placement of package 1 in the one alternate of `Test.decl`. -/
def Test.placement : Placement where
  pkg := 1
  reduced := false
  classes := List.replicate 64 .w32
  modes := []
  wheels := List.replicate 16 0
  qwheels := []
  segEn := List.replicate 16 0xFFF
  prots := []
  plaits := []
  regions := List.replicate 16 []
  convs := []

/-- A weave of two packages, 1 and 2, owned by package 1, with a prefill place on 2 and a decode place on 1. -/
def Test.decl : WeaveDecl where
  weaveId := 7
  modelId := 9
  stewardGen := 0
  loadBeats := 2
  length := 4096
  mult := 48
  spread := 1
  mode := 0
  restartBeats := 4
  beatLen := 1200000
  stepLen := 300000
  readyBase := 512
  alternates := [⟨6, 2, [⟨0, true, 1⟩], [Test.placement]⟩]
  pools := 40
  reportEnd := 100
  orderEnd := 40000
  reportSlots := [10]
  orderSlots := [33000, 33010]
  lastOrderDelivered := 33500
  places := [⟨1, 1, 2, 0, 0, 1, 40000, 90000⟩, ⟨2, 1, 1, 0, 64, 1, 40000, 90000⟩]
  kvLayers := 2
  kvWidth := 64
  promptLen := [64, 128]
  eos := 4095
  mshift := 0
  maxRank := 2
  projections := [(64, 64)]
  knotLo := 0
  knotHi := 1023
  homes := [(2, 1)]
  topoKind := 0
  topoRows := 1
  topoCols := 2
  routes := [5, 4, 1]
  ports := []
  streams := []
  deliveries := []
  frameBufs := [0x50000000, 0x51000000, 0x52000000, 0x53000000]

/-- The same package, joined as principal, running `Test.decl`. -/
def Test.woven : State :=
  { Test.alone with
    basket := { BasketState.reset with joined := true, outsider := false, principal := 1, isPrincipal := true,
                                       members := [⟨1, some 0, true, 0⟩] },
    weave := { WeaveState.reset with run := some Test.decl, alt := 0, member := true, placed := some Test.placement } }

/-- The same package polling: ring pair 0 is ACTIVE with 16 and 16 entries. -/
def Test.host : State :=
  let s := (Test.alone.setReg (Reg.hostRingCfg 0) 0x10404).setReg Reg.hostCtl 1
  s.setRing 0 { Ring.reset with state := .active, phase := true }

/-- A descriptor of ring pair 0 in flight with number 0, in state `st`, with opcode `op` for this package and the given
body. -/
def Test.desc (op body : Nat) : Desc := BitVec.ofNat 512 (op + 0xFF * 2 ^ 16 + body)

/-- `Test.host` with that descriptor in flight. -/
def Test.flying (st : FlightState) (d : Desc) : State :=
  { Test.host with host := { Test.host.host with flights := [⟨0, .ring 0, d, 1, st, 0⟩], nextId := 1 } }

end Sys2Proof.Machine

open Sys2Proof Sys2Proof.Machine

namespace Sys2Proof.Tests

abbrev T : State := Test.alone

/-- The canonical form, evaluated. -/
def canonB (s : State) : Bool :=
  smWf resetVal s.regs && Memory.wf s.mem && smWf (fun _ => false) s.poison && smWf (fun _ => 0) s.knots &&
  smWf (fun _ => 0xFF) s.flash && smWf (fun _ => 0) s.fuse.copies && smWf (fun _ => 0) s.fuse.weak &&
  smWf (fun _ => 0) s.fuse.shadow && decide (Rising s.host.rings) && decide (Rising s.cores) &&
  decide (Rising s.serve.reqs)

theorem canonOf {s : State} (h : canonB s = true) : Canon s := by
  simp only [canonB, Bool.and_eq_true, decide_eq_true_eq] at h
  obtain ⟨⟨⟨⟨⟨⟨⟨⟨⟨⟨a, b⟩, c⟩, d⟩, e⟩, f⟩, g⟩, i⟩, j⟩, k⟩, l⟩ := h
  exact ⟨a, b, c, d, e, f, g, i, j, k, l⟩

end Sys2Proof.Tests

namespace Sys2Proof.Tests.Chunk01



/-- A state and operands for the hypotheses of each clause of ClockCommandsComplete. -/
theorem witness_ClockCommandsComplete :
    (∃ (s : State), Served s ∧ 16 ≤ s.fld Reg.clkCoreCfg 0 6 ∧ s.fld Reg.clkCoreCfg 0 6 ≤ 56 ∧ (s.basket.joined =
      true → s.basket.isPrincipal = true) ∧ s.weave.run = none ∧ s.weave.load = none ∧ (32 < s.fld Reg.clkCoreCfg 0 6
      → s.flag Reg.fuseStatus 18 = true)) ∧
    (∃ (s : State) (b : BitVec 64) (m : BitVec 6) (sp : BitVec 2), Canon s ∧ s.time.pendClock = some (b, m, sp) ∧
      b.toNat ≤ s.nowNs) ∧
    (∃ (s : State), Canon s ∧ s.time.relocking = true) ∧
    (∃ (p : Pll) (s : State), Canon s ∧ s.flag Reg.clkStatus (pllBit p) = true ∧ s.weave.run = none ∧ s.wfe.a.running
      = false ∧ s.wfe.b.running = false) ∧
    (∃ (p : Pll) (s : State), Canon s ∧ s.flag Reg.clkStatus (pllBit p) = true ∧ s.weave.run = none ∧ s.wfe.a.running
      = false ∧ s.wfe.b.running = false) ∧
    (∃ (s : State), Canon s ∧ s.flag Reg.clkStatus 4 = true) ∧
    (∃ (r : BitVec 32) (s : State), Canon s ∧ s.time.cclk = true ∧ r ≠ 0) :=
  ⟨⟨T.setFld Reg.clkCoreCfg 0 6 30, ⟨by decide +kernel, by decide +kernel⟩, by decide +kernel, by decide +kernel,
      by decide +kernel, by decide +kernel, by decide +kernel, by decide +kernel⟩,
   ⟨{T with time := {T.time with pendClock := some (5,40,2)}}, 5, 40, 2, canonOf (by decide +kernel),
      by decide +kernel, by decide +kernel⟩,
   ⟨{T with time := {T.time with relocking := true}}, canonOf (by decide +kernel), by decide +kernel⟩,
   ⟨.link, T, canonOf (by decide +kernel), by decide +kernel, by decide +kernel, by decide +kernel,
      by decide +kernel⟩,
   ⟨.pix, T, canonOf (by decide +kernel), by decide +kernel, by decide +kernel, by decide +kernel,
      by decide +kernel⟩,
   ⟨T.setFlag Reg.clkStatus 4 true, canonOf (by decide +kernel), by decide +kernel⟩,
   ⟨25001, T, canonOf (by decide +kernel), by decide +kernel, by decide +kernel⟩⟩

/-- A state and operands for the hypotheses of each clause of TimeReadsComplete. -/
theorem witness_TimeReadsComplete :
    (∃ (s : State), Served s) ∧
    (∃ (s : State), Served s) ∧
    (∃ (s : State), Served s) ∧
    (∃ (s : State), Served s) ∧
    (∃ (s : State), Served s) ∧
    (∃ (s : State), Served s) ∧
    (∃ (s : State), Served s) ∧
    (∃ (s : State), Served s) ∧
    (∃ (s : State), Served s) :=
  ⟨⟨T, ⟨by decide +kernel, by decide +kernel⟩⟩,
   ⟨{T with time := {T.time with beatNum := 0x123456789ABCDEF}}, ⟨by decide +kernel, by decide +kernel⟩⟩,
   ⟨{T with time := {T.time with beatStamp := 0x123456789ABCDEF}}, ⟨by decide +kernel, by decide +kernel⟩⟩,
   ⟨T, ⟨by decide +kernel, by decide +kernel⟩⟩,
   ⟨{T with time := {T.time with beatNum := 0x123456789ABCDEF}}, ⟨by decide +kernel, by decide +kernel⟩⟩,
   ⟨{T with time := {T.time with beatStamp := 0x123456789ABCDEF}}, ⟨by decide +kernel, by decide +kernel⟩⟩,
   ⟨T, ⟨by decide +kernel, by decide +kernel⟩⟩,
   ⟨{T with time := {T.time with beatNum := 0x123456789ABCDEF}}, ⟨by decide +kernel, by decide +kernel⟩⟩,
   ⟨{T with time := {T.time with beatStamp := 0x123456789ABCDEF}}, ⟨by decide +kernel, by decide +kernel⟩⟩⟩

/-- A state and operands for the hypotheses of each clause of TimeCommandsComplete. -/
theorem witness_TimeCommandsComplete :
    (∃ (s : State), Served s ∧ s.weave.run = none ∧ s.weave.load = none ∧ (s.basket.joined = true →
      s.basket.isPrincipal = true) ∧ s.time.pendStep = none ∧ s.pair Reg.timeSetLo Reg.timeSetHi % 32000 = 0 ∧
      boundaryAhead s < s.pair Reg.timeSetLo Reg.timeSetHi) ∧
    (∃ (s : State) (b set : BitVec 64), s.time.pendStep = some (b, set) ∧ b.toNat ≤ s.nowNs) ∧
    (∃ (v : Word) (s : State), Canon s ∧ Served s ∧ s.weave.run = none ∧ s.weave.load = none ∧ (s.basket.joined =
      true → s.basket.isPrincipal = true) ∧ 4096 ≤ v.toNat % 2 ^ 22 ∧ v.toNat % 2 ^ 22 ≤ 2097152) ∧
    (∃ (v : Word) (s : State), Canon s ∧ Served s ∧ s.weave.run = none ∧ s.weave.load = none ∧ (s.basket.joined =
      true → s.basket.isPrincipal = true) ∧ 4096 ≤ v.toNat % 2 ^ 22 ∧ v.toNat % 2 ^ 22 ≤ 2097152) ∧
    (∃ (v : Word) (s : State), Canon s ∧ Served s ∧ s.weave.run = none ∧ s.weave.load = none ∧ (s.basket.joined =
      true → s.basket.isPrincipal = true) ∧ ((s.stagedLo Reg.timeBeatEpochLo).toNat + v.toNat * 2 ^ 32) % 32000 = 0) ∧
    (∃ (s : State) (bd e : BitVec 64) (b : BitVec 22), Canon s ∧ (s.time.pendBeats.filter (fun x => decide (x.1.toNat
      ≤ s.nowNs))).getLast? = some (bd, b, e) ∧ s.time.pendStep = none) ∧
    (∃ (o : BitVec 16) (s : State), Canon s ∧ s.basket.joined = true ∧ s.basket.joinAt = none ∧ -128 ≤ o.toInt ∧
      o.toInt ≤ 128) ∧
    (∃ (o : BitVec 16) (s : State), Canon s ∧ s.basket.joined = true ∧ (o.toInt < -128 ∨ 128 < o.toInt) ∧ s.weave.run
      = none) :=
  ⟨⟨(T.setReg Reg.timeSetLo 3200000000), ⟨by decide +kernel, by decide +kernel⟩, by decide +kernel,
      by decide +kernel, by decide +kernel, by decide +kernel, by decide +kernel, by decide +kernel⟩,
   ⟨{T with time := {T.time with pendStep := some (5, 320000)}}, 5, 320000, by decide +kernel, by decide +kernel⟩,
   ⟨5000, T, canonOf (by decide +kernel), ⟨by decide +kernel, by decide +kernel⟩, by decide +kernel,
      by decide +kernel, by decide +kernel, by decide +kernel, by decide +kernel⟩,
   ⟨0xFFC02000, {T with basket := {T.basket with joined := true, isPrincipal := true}}, canonOf
      (by decide +kernel), ⟨by decide +kernel, by decide +kernel⟩, by decide +kernel, by decide +kernel,
      by decide +kernel, by decide +kernel, by decide +kernel⟩,
   ⟨125, T, canonOf (by decide +kernel), ⟨by decide +kernel, by decide +kernel⟩, by decide +kernel,
      by decide +kernel, by decide +kernel, by decide +kernel⟩,
   ⟨{T with time := {T.time with pendBeats := [(5, 5000, 0x1234567890)]}}, 5, 0x1234567890, 5000, canonOf
      (by decide +kernel), by decide +kernel, by decide +kernel⟩,
   ⟨100, {T with basket := {T.basket with joined := true, isPrincipal := true}}, canonOf (by decide +kernel),
      by decide +kernel, by decide +kernel, by decide +kernel, by decide +kernel⟩,
   ⟨0xFF00, {T with basket := {T.basket with joined := true, isPrincipal := true}}, canonOf (by decide +kernel),
      by decide +kernel, by decide +kernel, by decide +kernel⟩⟩

end Sys2Proof.Tests.Chunk01

namespace Sys2Proof.Tests.Chunk02

def commitRec : List Byte := leBytes 4 0x534C4F54 ++ leBytes 4 0x00010001 ++ leBytes 4 1 ++ leBytes 4 256 ++
    List.replicate 44 0
def calHdr (n : Nat) : List Byte := leBytes 4 0x43414C31 ++ leBytes 4 n ++ leBytes 4 0 ++ leBytes 4 (crc32c
    []).toNat ++ List.replicate 44 0
def calFlash : SMap Byte := ((calHdr 1 ++ leBytes 4 (crc32c (calHdr 1)).toNat).mapIdx (fun i b => (0x400000 + i,
    b))) ++ ((calHdr 2 ++ leBytes 4 (crc32c (calHdr 2)).toNat).mapIdx (fun i b => (0x1600000 + i, b)))

/-- A state and operands for the hypotheses of each clause of FuseCommandsComplete. -/
theorem witness_FuseCommandsComplete :
    (∃ (src : Writer) (w : BitVec 9) (s : State), Canon s ∧ Served s ∧ s.fuse.cmd = none) ∧
    (∃ (src : Writer) (w : BitVec 9) (s : State), Canon s ∧ Served s ∧ s.fuse.cmd = none ∧ w.toNat < 4) ∧
    (∃ (src : Writer) (w : BitVec 9) (vio : Bool) (s : State), Canon s ∧ Served s ∧ s.fuse.cmd = none ∧ fuseReserved
      w.toNat = false ∧ fuseAllowed s.lifecycle (isSteward src) w.toNat = true ∧ fuseConditions vio s = true ∧
      (fuseAccumulate w.toNat = true → s.fuseWord w.toNat &&& ~~~(s.reg Reg.fuseWdata) = 0) ∧ (fuseAccumulate w.toNat
      = false → ∀ c < 3, s.fuse.copy w.toNat c = 0 ∧ s.fuse.strict w.toNat c = 0)) ∧
    (∃ (src : Writer) (w : BitVec 9) (vio : Bool) (s : State), Canon s ∧ Served s ∧ s.fuse.cmd = none ∧ fuseReserved
      w.toNat = false ∧ fuseAllowed s.lifecycle (isSteward src) w.toNat = true ∧ fuseConditions vio s = true ∧
      (fuseAccumulate w.toNat = true → s.fuseWord w.toNat &&& ~~~(s.reg Reg.fuseWdata) = 0) ∧ (fuseAccumulate w.toNat
      = false → ∀ c < 3, s.fuse.copy w.toNat c = 0 ∧ s.fuse.strict w.toNat c = 0)) ∧
    (∃ (src : Writer) (w : BitVec 9) (vio : Bool) (s : State), Canon s ∧ Served s ∧ s.fuse.cmd = none ∧ fuseReserved
      w.toNat = false ∧ fuseAllowed s.lifecycle (isSteward src) w.toNat = true ∧ fuseConditions vio s = true ∧ (∀ c <
      3, (s.fuse.copy w.toNat c ||| s.fuse.strict w.toNat c) &&& ~~~(s.reg Reg.fuseWdata) = 0)) ∧
    (∃ (src : Writer) (w : BitVec 9) (vio : Bool) (s : State), Canon s ∧ Served s ∧ s.fuse.cmd = none ∧ s.weave.run =
      none ∧ fuseConditions vio s = true ∧ s.flag Reg.fuseStatus 17 = true ∧ s.lifecycle < bits (s.reg Reg.fuseWdata)
      0 3 ∧ bits (s.reg Reg.fuseWdata) 0 3 ≤ 2 ∧ s.fuseWord 16 &&& ~~~(lifecycleFuse (bits (s.reg Reg.fuseWdata) 0 3))
      = 0) ∧
    (∃ (src : Writer) (w : BitVec 9) (vio : Bool) (s : State), Canon s ∧ Served s ∧ s.fuse.cmd = none ∧ s.weave.run =
      none ∧ fuseConditions vio s = true ∧ s.flag Reg.fuseStatus 17 = true ∧ s.lifecycle < 3 ∧ bits (s.reg
      Reg.fuseWdata) 0 3 = 3 ∧ s.fuseWord 511 &&& ~~~(fuseCrc s.fuseWord 448 48) = 0 ∧ (∀ i < 48, verifyCode s.fuse
      (448 + i) = 0) ∧ s.fuseWord 16 &&& ~~~(0x7777#32) = 0) ∧
    (∃ (src : Writer) (w : BitVec 9) (vio : Bool) (s : State), Canon s ∧ Served s ∧ s.fuse.cmd = none ∧ w.toNat < 4 ∧
      s.lifecycle ≤ 3 ∧ fuseConditions vio s = true ∧ counterValue (counterBits s.fuseWord w.toNat) ≤ (s.reg
      Reg.fuseWdata).toNat ∧ (s.reg Reg.fuseWdata).toNat ≤ 256) ∧
    (∃ (src : Writer) (w : BitVec 9) (vio : Bool) (s : State), Canon s ∧ Served s ∧ s.fuse.cmd = none ∧ w.toNat < 4 ∧
      s.lifecycle ≤ 3 ∧ fuseConditions vio s = true ∧ counterValue (counterBits s.fuseWord w.toNat) ≤ (s.reg
      Reg.fuseWdata).toNat ∧ (s.reg Reg.fuseWdata).toNat ≤ 256) :=
  ⟨⟨.host, 6, T, canonOf (by decide +kernel), ⟨by decide +kernel, by decide +kernel⟩, by decide +kernel⟩,
   ⟨.steward, 3, T, canonOf (by decide +kernel), ⟨by decide +kernel, by decide +kernel⟩, by decide +kernel,
      by decide +kernel⟩,
   ⟨.host, 500, true, ((T.setReg Reg.fuseWdata 0x8001)), canonOf (by decide +kernel), ⟨by decide +kernel,
      by decide +kernel⟩, by decide +kernel, by decide +kernel, by decide +kernel, by decide +kernel,
      by decide +kernel, by decide +kernel⟩,
   ⟨.host, 20, true, (T.setReg Reg.fuseWdata 0x8001), canonOf (by decide +kernel), ⟨by decide +kernel,
      by decide +kernel⟩, by decide +kernel, by decide +kernel, by decide +kernel, by decide +kernel,
      by decide +kernel, by decide +kernel⟩,
   ⟨.host, 0, true,
      {(T.setReg Reg.fuseWdata 0x8001) with fuse := {T.fuse with copies := [(0, 1), (1,0x8001),(45, 0x84FBECEE), (46, 0x84FBECEE), (47, 0x84FBECEE)]}},
      canonOf (by decide +kernel), ⟨by decide +kernel, by decide +kernel⟩, by decide +kernel, by decide +kernel,
      by decide +kernel, by decide +kernel, by decide +kernel⟩,
   ⟨.host, 0, true, (T.setReg Reg.fuseWdata 2).setFlag Reg.fuseStatus 17 true, canonOf (by decide +kernel),
      ⟨by decide +kernel, by decide +kernel⟩, by decide +kernel, by decide +kernel, by decide +kernel,
      by decide +kernel, by decide +kernel, by decide +kernel, by decide +kernel⟩,
   ⟨.host, 0, true, (T.setReg Reg.fuseWdata 3).setFlag Reg.fuseStatus 17 true, canonOf (by decide +kernel),
      ⟨by decide +kernel, by decide +kernel⟩, by decide +kernel, by decide +kernel, by decide +kernel,
      by decide +kernel, by decide +kernel, by decide +kernel, by decide +kernel, by decide +kernel,
      by decide +kernel⟩,
   ⟨.host, 1, true, (T.setReg Reg.fuseWdata 40), canonOf (by decide +kernel), ⟨by decide +kernel,
      by decide +kernel⟩, by decide +kernel, by decide +kernel, by decide +kernel, by decide +kernel,
      by decide +kernel, by decide +kernel⟩,
   ⟨.host, 0, true, ((T.setReg Reg.fuseWdata 256).setFld Reg.fuseLifecycle 0 3 3), canonOf (by decide +kernel),
      ⟨by decide +kernel, by decide +kernel⟩, by decide +kernel, by decide +kernel, by decide +kernel,
      by decide +kernel, by decide +kernel, by decide +kernel⟩⟩

/-- A state and operands for the hypotheses of each clause of FuseCompletionsComplete. -/
theorem witness_FuseCompletionsComplete :
    (∃ (w : BitVec 9) (d : Word) (st : Bool) (os : List FuseOutcome) (s : State), Canon s ∧ s.fuse.cmd = some ⟨1, w,
      d, st, []⟩ ∧ fuseHidden w.toNat = false ∧ fuseReserved w.toNat = false ∧ (w.toNat < 448 ∨ 495 < w.toNat)) ∧
    (∃ (w : BitVec 9) (d : Word) (st : Bool) (os : List FuseOutcome) (s : State), Canon s ∧ s.fuse.cmd = some ⟨3, w,
      d, st, []⟩) ∧
    (∃ (w : BitVec 9) (d : Word) (st : Bool) (os : List FuseOutcome) (s : State), Canon s ∧ s.fuse.cmd = some ⟨7, w,
      d, st, []⟩) ∧
    (∃ (w : BitVec 9) (d : Word) (st : Bool) (n : BitVec 4) (s : State), Canon s ∧ s.fuse.cmd = some ⟨2, w, d, st,
      [(w.toNat, d)]⟩ ∧ (∀ c < 3, s.fuse.copy w.toNat c &&& ~~~d = 0 ∧ smGet 0 s.fuse.weak (3 * w.toNat + c) = 0)) :=
  ⟨⟨15, 0, false, [], {T with fuse := {T.fuse with cmd := some ⟨1,15,0,false,[]⟩}}, canonOf (by decide +kernel),
      by decide +kernel, by decide +kernel, by decide +kernel, by decide +kernel⟩,
   ⟨15, 0, false, [], {T with fuse := {T.fuse with cmd := some ⟨3,15,0,false,[]⟩}}, canonOf (by decide +kernel),
      by decide +kernel⟩,
   ⟨2, 0, false, [],
      {T with fuse := {T.fuse with copies := [(3*432,7),(3*432+1,7),(3*432+2,7)], cmd := some ⟨7,2,0,false,[]⟩}},
      canonOf (by decide +kernel), by decide +kernel⟩,
   ⟨500, 0x123, false, 3,
      {(T.setReg Reg.fuseWdata 0x123) with fuse := {T.fuse with copies := [(1500,3)], cmd := some ⟨2,500,0x123,false,[(500,0x123)]⟩}},
      canonOf (by decide +kernel), by decide +kernel, by decide +kernel⟩⟩

/-- A state and operands for the hypotheses of each clause of StartUpCompletes. -/
theorem witness_StartUpCompletes :
    (∃ (id : BitVec 6) (an : Bool) (s : State), s.power.phase = .inReset) ∧
    (∃ (id : BitVec 6) (an : Bool) (s : State), s.power.phase ≠ .inReset ∧ s.power.resampled = false ∧ 1000000 ≤
      s.nowNs) ∧
    (∃ (id : BitVec 6) (an : Bool) (s : State), s.power.phase ≠ .inReset ∧ s.power.resampled = false ∧ 1000000 ≤
      s.nowNs) ∧
    (∃ (s : State), Canon s ∧ s.power.phase = .rails ∧ s.power.railA = true ∧ s.power.pgoodB = true ∧ nthD false
      (regionOk s) 0 = true ∧ nthD false (regionOk s) 4 = true) ∧
    (∃ (g : RailGroup) (s : State), (s.power.phase = .rails ∨ s.power.phase = .waking) ∧ s.pgood g = false ∧
      s.power.latchNs + 1000000 ≤ s.nowNs) ∧
    (∃ (n : BitVec 2) (s : State), s.power.phase = .heldFuse n) ∧
    (∃ (f : Sfdp) (s : State), Canon s ∧ s.power.phase = .locking ∧ f.usable = true) ∧
    (∃ (b : Bool) (s : State), Canon s ∧ s.power.phase = .imaging ∧ s.boot.order = [b] ∧ commitOk b (s.flashBytes
      (commitAt b) 64) = true) ∧
    (∃ (r : SelfTest) (s : State), Canon s ∧ s.power.phase = .selfTest) ∧
    (∃ (l₁ l₂ : List Byte) (s : State), Canon s ∧ s.power.phase = .run ∧ s.flag Reg.bootStatus 5 = false ∧
      s.weave.load = none ∧ 0x1800000 ≤ s.flashSize ∧ s.calPart 0x400000 0x1200000 1 = some l₁ ∧ s.calPart 0x1600000
      0x200000 2 = some l₂) :=
  ⟨⟨5, true, State.reset, by decide +kernel⟩,
   ⟨1, true, T, by decide +kernel, by decide +kernel, by decide +kernel⟩,
   ⟨2, true, T, by decide +kernel, by decide +kernel, by decide +kernel⟩,
   ⟨{State.reset with power := {State.reset.power with phase := .rails, railA := true, railB := true, pgoodB := true}},
      canonOf (by decide +kernel), by decide +kernel, by decide +kernel, by decide +kernel, by decide +kernel,
      by decide +kernel⟩,
   ⟨.b, {T with power := {T.power with phase := .waking, pgoodB := false}}, by decide +kernel, by decide +kernel,
      by decide +kernel⟩,
   ⟨2, {T with power := {T.power with phase := .heldFuse 2}}, by decide +kernel⟩,
   ⟨⟨true,24,true,2⟩, {T with power := {T.power with phase := .locking}}, canonOf (by decide +kernel),
      by decide +kernel, by decide +kernel⟩,
   ⟨true,
      {T with power := {T.power with phase := .imaging}, boot := {T.boot with order := [true]}, flash := (commitRec ++ leBytes 4 (crc32c commitRec).toNat).mapIdx (fun i b => (0x1000 + i, b))},
      canonOf (by decide +kernel), by decide +kernel, by decide +kernel, by decide +kernel⟩,
   ⟨SelfTest.reset, {T with power := {T.power with phase := .selfTest}}, canonOf (by decide +kernel),
      by decide +kernel⟩,
   ⟨calHdr 1 ++ leBytes 4 (crc32c (calHdr 1)).toNat, calHdr 2 ++ leBytes 4 (crc32c (calHdr 2)).toNat,
      {T.setReg Reg.bootFlash 25 with flash := calFlash}, canonOf (by decide +kernel), by decide +kernel,
      by decide +kernel, by decide +kernel, by decide +kernel, by decide +kernel, by decide +kernel⟩⟩

/-- A state and operands for the hypotheses of each clause of ResetsComplete. -/
theorem witness_ResetsComplete :
    (∃ (s : State), Canon s ∧ s.anchor = true ∧ s.power.phase = .run ∧ s.power.pgoodA = true ∧ s.power.pgoodB = true
      ∧ s.fuse.cmd = none ∧ nthD false (regionOk s) 0 = true ∧ nthD false (regionOk s) 4 = true) ∧
    (∃ (s : State), Canon s ∧ Served s ∧ s.power.pgoodA = true ∧ s.power.pgoodB = true ∧ s.fuse.cmd = none ∧ nthD
      false (regionOk s) 0 = true ∧ nthD false (regionOk s) 4 = true) ∧
    (∃ (s : State), Canon s ∧ s.power.phase = .run ∧ s.power.pgoodA = true ∧ s.power.pgoodB = true ∧ s.fuse.cmd =
      none ∧ nthD false (regionOk s) 0 = true ∧ nthD false (regionOk s) 4 = true ∧ s.weave.run = none) ∧
    (∃ (ir : BitVec 4) (s : State), Canon s ∧ s.power.phase = .run ∧ s.weave.run = none ∧ s.fuse.cmd = none) ∧
    (∃ (ir : BitVec 4) (s : State), Canon s ∧ s.power.phase = .run ∧ s.weave.run = none ∧ s.fuse.cmd = none) ∧
    (∃ (s : State), s.power.phase = .heldScan ∧ s.power.pgoodA = true ∧ s.power.pgoodB = true ∧ nthD false (regionOk
      s) 0 = true ∧ nthD false (regionOk s) 4 = true) ∧
    (∃ (s : State), Canon s ∧ Served s ∧ s.fld Reg.bootStatus 0 2 ≠ 0 ∧ s.flag Reg.bootStatus 2 = false ∧ s.fuse.cmd
      = none ∧ s.lifecycle ≤ 3 ∧ fuseConditions true s = true ∧ s.floorVal < s.boot.secVer ∧ s.boot.secVer ≤ 256) ∧
    (∃ (s : State), Canon s ∧ Served s ∧ s.lifecycle = 1 ∧ s.flag Reg.bootStatus 2 = true) :=
  ⟨⟨T, canonOf (by decide +kernel), by decide +kernel, by decide +kernel, by decide +kernel, by decide +kernel,
      by decide +kernel, by decide +kernel, by decide +kernel⟩,
   ⟨T, canonOf (by decide +kernel), ⟨by decide +kernel, by decide +kernel⟩, by decide +kernel, by decide +kernel,
      by decide +kernel, by decide +kernel, by decide +kernel⟩,
   ⟨T, canonOf (by decide +kernel), by decide +kernel, by decide +kernel, by decide +kernel, by decide +kernel,
      by decide +kernel, by decide +kernel, by decide +kernel⟩,
   ⟨2, T, canonOf (by decide +kernel), by decide +kernel, by decide +kernel, by decide +kernel⟩,
   ⟨5, T, canonOf (by decide +kernel), by decide +kernel, by decide +kernel, by decide +kernel⟩,
   ⟨{T with power := {T.power with phase := .heldScan}}, by decide +kernel, by decide +kernel, by decide +kernel,
      by decide +kernel, by decide +kernel⟩,
   ⟨{(T.setFld Reg.bootStatus 0 2 1) with boot := {T.boot with secVer := 256}}, canonOf (by decide +kernel),
      ⟨by decide +kernel, by decide +kernel⟩, by decide +kernel, by decide +kernel, by decide +kernel,
      by decide +kernel, by decide +kernel, by decide +kernel, by decide +kernel⟩,
   ⟨(T.setFld Reg.fuseLifecycle 0 3 1).setFlag Reg.bootStatus 2 true, canonOf (by decide +kernel),
      ⟨by decide +kernel, by decide +kernel⟩, by decide +kernel, by decide +kernel⟩⟩

end Sys2Proof.Tests.Chunk02

namespace Sys2Proof.Tests.Chunk03

def TP (p : Phase) : State := {T with power := {T.power with phase := p}}
def W := Test.woven

/-- A state and operands for the hypotheses of each clause of SleepCommandsComplete. -/
theorem witness_SleepCommandsComplete :
    (∃ (s : State), Served s ∧ s.weave.run = none) ∧
    (∃ (s : State), Served s ∧ s.weave.run = none ∧ s.slumberBusy = false ∧ s.fld Reg.pwrWakeCfg 0 4 ≠ 0 ∧ (s.flag
      Reg.pwrWakeCfg 2 = true → s.nowNs < s.pair Reg.pwrWakeAtLo Reg.pwrWakeAtHi)) ∧
    (∃ (s : State), Canon s ∧ s.power.phase = .enteringDoze ∧ s.host.flights = []) ∧
    (∃ (s : State), Canon s ∧ s.power.phase = .enteringSlumber ∧ s.host.flights = [] ∧ s.fuse.cmd = none) ∧
    (∃ (s : State), Canon s ∧ s.anchor = true ∧ s.flag Reg.pwrWakeCfg 0 = true ∧ s.flag Reg.pwrWakeCfg 8 = false ∧
      s.power.phase = .doze) ∧
    (∃ (s : State), Canon s ∧ s.flag Reg.pwrWakeCfg 2 = true ∧ s.pair Reg.pwrWakeAtLo Reg.pwrWakeAtHi ≤ s.nowNs ∧
      s.flag Reg.pwrWakeCfg 8 = false ∧ s.power.phase = .slumber) ∧
    (∃ (i : Fin 8) (l : Bool) (s : State), Canon s ∧ s.flag Reg.pwrWakeCfg 3 = true ∧ s.fld Reg.pwrWakeCfg 4 3 =
      i.val ∧ s.flag Reg.pwrWakeCfg 7 = l ∧ s.flag Reg.pwrWakeCfg 8 = false ∧ s.power.phase = .enteringDoze) ∧
    (∃ (r : SelfTest) (s : State), Canon s ∧ s.power.phase = .waking ∧ s.boot.verified = true ∧ s.cclkRuns = true ∧
      s.power.timeoutRec = false ∧ s.basket.isPrincipal = true) ∧
    (∃ (s : State), Canon s ∧ s.power.phase = .dozeWaking ∧ s.power.latchNs + 60000 ≤ s.nowNs ∧ s.power.timeoutRec =
      false) :=
  ⟨⟨T, ⟨by decide +kernel, by decide +kernel⟩, by decide +kernel⟩,
   ⟨T.setReg Reg.pwrWakeCfg 1, ⟨by decide +kernel, by decide +kernel⟩, by decide +kernel, by decide +kernel,
      by decide +kernel, by decide +kernel⟩,
   ⟨TP .enteringDoze, canonOf (by decide +kernel), by decide +kernel, by decide +kernel⟩,
   ⟨TP .enteringSlumber, canonOf (by decide +kernel), by decide +kernel, by decide +kernel, by decide +kernel⟩,
   ⟨(TP .doze).setReg Reg.pwrWakeCfg 1, canonOf (by decide +kernel), by decide +kernel, by decide +kernel,
      by decide +kernel, by decide +kernel⟩,
   ⟨(TP .slumber).setReg Reg.pwrWakeCfg 4, canonOf (by decide +kernel), by decide +kernel, by decide +kernel,
      by decide +kernel, by decide +kernel⟩,
   ⟨5, true, (TP .enteringDoze).setReg Reg.pwrWakeCfg 0xD8, canonOf (by decide +kernel), by decide +kernel,
      by decide +kernel, by decide +kernel, by decide +kernel, by decide +kernel⟩,
   ⟨SelfTest.reset,
      {(TP .waking) with boot := {T.boot with verified := true}, basket := {T.basket with isPrincipal := true}},
      canonOf (by decide +kernel), by decide +kernel, by decide +kernel, by decide +kernel, by decide +kernel,
      by decide +kernel⟩,
   ⟨(TP .dozeWaking), canonOf (by decide +kernel), by decide +kernel, by decide +kernel, by decide +kernel⟩⟩

/-- A state and operands for the hypotheses of each clause of ThermalCommandsComplete. -/
theorem witness_ThermalCommandsComplete :
    (∃ (p l : List (BitVec 16)) (s : State), Canon s ∧ s.power.phase = .run ∧ p.length = 4 ∧ l.length = 8) ∧
    (∃ (p l : List (BitVec 16)) (s : State), Canon s ∧ s.power.phase = .run ∧ p.length = 4 ∧ l.length = 8) ∧
    (∃ (p l : List (BitVec 16)) (s : State), Canon s ∧ s.power.phase = .run ∧ p.length = 4 ∧ l.length = 8) ∧
    (∃ (s : State), Canon s ∧ 100 ≤ s.therm.altSeen ∧ s.therm.stage = 1 ∧ s.coolExists = false) ∧
    (∃ (s : State), Canon s ∧ 100 ≤ s.therm.altSeen ∧ s.therm.stage = 1 ∧ s.coolNow = false ∧ s.coolExists = true ∧
      s.fault.phase = .running) ∧
    (∃ (s : State), Canon s ∧ 2 ≤ s.therm.tripSeen ∧ s.fuse.cmd = none ∧ s.weave.run = none) ∧
    (∃ (n : Nat) (s : State), Canon s ∧ s.therm.normalNs = some n ∧ s.flag Reg.thermCtl 0 = true ∧ s.weaveActive =
      true ∧ s.coolNow = true ∧ s.therm.stage = 0 ∧ n + s.fld Reg.thermCtl 8 8 * 1000000000 ≤ s.nowNs) :=
  ⟨⟨[300,310,65000,200],[1,2,3,4,5,6,7,8],T, canonOf (by decide +kernel), by decide +kernel, by decide +kernel,
      by decide +kernel⟩,
   ⟨[300,1310,65000,200],[1,2,3,4,5,6,7,8],T, canonOf (by decide +kernel), by decide +kernel, by decide +kernel,
      by decide +kernel⟩,
   ⟨[300,310,65000,200],[1,2,3,4,5,6,7,8],{T with therm := {T.therm with stage := 2}}, canonOf (by decide +kernel),
      by decide +kernel, by decide +kernel, by decide +kernel⟩,
   ⟨{T with therm := {T.therm with stage := 1, altSeen := 100}}, canonOf (by decide +kernel), by decide +kernel,
      by decide +kernel, by decide +kernel⟩,
   ⟨{W with weave := {W.weave with run := some {Test.decl with alternates := [⟨6,0,[],[]⟩, ⟨6, 2, [], []⟩]}}, therm := {T.therm with stage := 1, altSeen := 100}},
      canonOf (by decide +kernel), by decide +kernel, by decide +kernel, by decide +kernel, by decide +kernel,
      by decide +kernel⟩,
   ⟨{T with therm := {T.therm with stage := 1, tripSeen := 2}}, canonOf (by decide +kernel), by decide +kernel,
      by decide +kernel, by decide +kernel⟩,
   ⟨5, {W.setReg Reg.thermCtl 1 with therm := {T.therm with normalNs := some 5}}, canonOf (by decide +kernel),
      by decide +kernel, by decide +kernel, by decide +kernel, by decide +kernel, by decide +kernel,
      by decide +kernel⟩⟩

end Sys2Proof.Tests.Chunk03

namespace Sys2Proof.Tests.Chunk04

def TP (p : Phase) : State := {T with power := {T.power with phase := p}}
def W := Test.woven
def P (x : PortState) : LinkPort := {LinkPort.reset with state := x}
def PT (x : LinkPort) : State := {T with basket := {T.basket with pe := x}}
def msg (t : Nat) (n : Nat) (p : Nat) := whisperMsg t n p
def J : State := {PT (P .linked) with basket := {(PT (P .linked)).basket with joined := true, pn := P .linked}}
def WN : State := ((((T.setReg (Reg.winBaseLo 3) 0x50000000).setReg (Reg.winSize 3) 12).setReg (Reg.winCtl 3)
    7).setReg (Reg.winSrcLo 3) 0xFF)
def fr : LinkFrame :=
    {frame := 9, sender := 2, principal := 1, hops := 1, credit0 := 3, credit1 := 20, ack := 4, nak := false, ctrl := [], checkOk := true, tagOk := false, headerErrs := [], otherTypes := [], hasStatic := false, statics := [], loose := [], resend := false}
def FO : State := {PT (P .linked) with basket := {(PT (P .linked)).basket with joined := true, outsider := false, principal := 3, heard := [(3, some ⟨true, 1000000000⟩)]}, power := {T.power with strap1 := 2, strap2 := 2}}
def lo : Loose := ⟨3, 2, 5, 0,0x50000000,0,false,List.replicate 32 1, []⟩

/-- A state and operands for the hypotheses of each clause of PortCommandsComplete. -/
theorem witness_PortCommandsComplete :
    (∃ (p : Port) (s : State), Canon s ∧ Served s ∧ s.flag Reg.clkStatus 2 = true ∧ ((s.port p).state = .off ∨
      (s.port p).state = .whisper)) ∧
    (∃ (p : Port) (s : State), Canon s ∧ Served s ∧ (s.port p).state ≠ .woven) ∧
    (∃ (p : Port) (lanes : BitVec 4) (d : BitVec 8) (peer : BitVec 6) (w : BitVec 2) (s : State), (s.port p).state =
      .train ∧ widthOf lanes = some w ∧ s.fld (Reg.withyPCfg (portNum p)) 2 2 ≤ w.toNat ∧ d.toNat ≤ 52) ∧
    (∃ (p : Port) (lanes : BitVec 4) (d : BitVec 8) (peer : BitVec 6) (w : BitVec 2) (s : State), (s.port p).state =
      .train ∧ widthOf lanes = some w ∧ s.fld (Reg.withyPCfg (portNum p)) 2 2 ≤ w.toNat ∧ d.toNat ≤ 52) ∧
    (∃ (p : Port) (s : State), (s.port p).state = .train ∧ (s.port p).retry = true) ∧
    (∃ (p : Port) (l : Fin 4) (hs : Bool) (s : State), (s.port p).state = .linked ∧ (s.port p).sleepNs = none) ∧
    (∃ (p : Port) (s : State), Served s ∧ ((s.port p).state = .linked ∨ (s.port p).state = .rekey)) ∧
    (∃ (p : Port) (s : State), Served s ∧ (s.port p).state = .linked) ∧
    (∃ (p : Port) (s : State), (s.port p).state = .linked ∧ (s.port p).ctr = BitVec.allOnes 64) ∧
    (∃ (p : Port) (w : LinkWord) (s : State), (s.port p).up = true ∧ ctrlSub w = 5 ∧ (s.port p).keys = none) ∧
    (∃ (p : Port) (s : State), (s.port p).state = .rekey ∧ s.flag Reg.fuseStatus 23 = true ∧ s.weave.run = none) ∧
    (∃ (v : Word) (s : State), Canon s ∧ Served s ∧ s.weave.run = none ∧ bits v 0 2 ≠ s.cryptMode ∧ bits v 0 2 ≠ 3 ∧
      (bits v 0 2 = 0 → s.flag Reg.fuseLifecycle 10 = false)) ∧
    (∃ (v : Word) (s : State), Canon s ∧ Served s ∧ s.weave.run = none ∧ bits v 0 2 ≠ s.cryptMode ∧ bits v 0 2 ≠ 3 ∧
      (bits v 0 2 = 0 → s.flag Reg.fuseLifecycle 10 = false)) :=
  ⟨⟨.e, T.setFlag Reg.clkStatus 2 true, canonOf (by decide +kernel), ⟨by decide +kernel, by decide +kernel⟩,
      by decide +kernel, by decide +kernel⟩,
   ⟨.e, PT (P .linked), canonOf (by decide +kernel), ⟨by decide +kernel, by decide +kernel⟩, by decide +kernel⟩,
   ⟨.e, 15, 52, 2, 2, PT (P .train), by decide +kernel, by decide +kernel, by decide +kernel, by decide +kernel⟩,
   ⟨.e, 3, 0, 2, 1, (PT (P .train)).setFld Reg.withyCrypt 0 2 0, by decide +kernel, by decide +kernel,
      by decide +kernel, by decide +kernel⟩,
   ⟨.e, PT {P .train with retry := true}, by decide +kernel, by decide +kernel⟩,
   ⟨.e, 3, true, PT {P .linked with lanes := 15}, by decide +kernel, by decide +kernel⟩,
   ⟨.e, PT {P .linked with lanes := 15}, ⟨by decide +kernel, by decide +kernel⟩, by decide +kernel⟩,
   ⟨.e, PT {P .linked with lanes := 15}, ⟨by decide +kernel, by decide +kernel⟩, by decide +kernel⟩,
   ⟨.e, PT {P .linked with ctr := 0xFFFFFFFFFFFFFFFF}, by decide +kernel, by decide +kernel⟩,
   ⟨.e, BitVec.ofNat 128 0x055A, PT {P .linked with ctr := 0}, by decide +kernel, by decide +kernel,
      by decide +kernel⟩,
   ⟨.e, (PT (P .rekey)).setFlag Reg.fuseStatus 23 true, by decide +kernel, by decide +kernel, by decide +kernel⟩,
   ⟨2, (PT (P .linked)), canonOf (by decide +kernel), ⟨by decide +kernel, by decide +kernel⟩, by decide +kernel,
      by decide +kernel, by decide +kernel, by decide +kernel⟩,
   ⟨0, (PT (P .linked)).setFld Reg.withyCrypt 0 2 1, canonOf (by decide +kernel), ⟨by decide +kernel,
      by decide +kernel⟩, by decide +kernel, by decide +kernel, by decide +kernel, by decide +kernel⟩⟩

/-- A state and operands for the hypotheses of each clause of WhisperCommandsComplete. -/
theorem witness_WhisperCommandsComplete :
    (∃ (s : State), s.basket.isPrincipal = true) ∧
    (∃ (p : Port) (m : WhisperMsg) (s : State), whisperOk m = true ∧ m.type = 1 ∧ s.basket.isPrincipal = false ∧
      lwByte m.payload 11 = s.basket.principal.toNat) ∧
    (∃ (p : Port) (m : WhisperMsg) (s : State), Canon s ∧ whisperOk m = true ∧ m.type = 2 ∧ smGet none
      s.basket.wakeKept (lwByte m.payload 8 % 64) ≠ some (BitVec.ofNat 8 (lwByte m.payload 9)) ∧ nbit (lwNum m.payload
      0 8) s.pkg.toNat = true ∧ s.flag Reg.pwrWakeCfg 1 = true ∧ s.flag Reg.pwrWakeCfg 8 = false ∧ s.power.phase =
      .doze) ∧
    (∃ (p : Port) (m : WhisperMsg) (s : State), whisperOk m = true ∧ m.type = 3) ∧
    (∃ (p : Port) (m : WhisperMsg) (s : State), Canon s ∧ s.anchor = true ∧ whisperOk m = true ∧ m.type = 4 ∧ (lwByte
      m.payload 1 = 0xE1 ∨ lwByte m.payload 1 = 0xE2)) :=
  ⟨⟨{(PT (P .whisper)) with basket := {(PT (P .whisper)).basket with isPrincipal := true}}, by decide +kernel⟩,
   ⟨.e, msg 1 12 (123456 + 7 * 2^88),
      {(PT (P .whisper)) with basket := {(PT (P .whisper)).basket with principal := 7}}, by decide +kernel,
      by decide +kernel, by decide +kernel, by decide +kernel⟩,
   ⟨.n, msg 2 12 (2 + 7 * 2^64),
      {(PT (P .whisper)).setReg Reg.pwrWakeCfg 2 with power := {T.power with phase := .doze}}, canonOf
      (by decide +kernel), by decide +kernel, by decide +kernel, by decide +kernel, by decide +kernel,
      by decide +kernel, by decide +kernel, by decide +kernel⟩,
   ⟨.n, msg 3 12 (2 + 7 * 2^64), T, by decide +kernel, by decide +kernel⟩,
   ⟨.n, msg 4 12 (0xE203), T, canonOf (by decide +kernel), by decide +kernel, by decide +kernel, by decide +kernel,
      by decide +kernel⟩⟩

/-- A state and operands for the hypotheses of each clause of BasketCommandsComplete. -/
theorem witness_BasketCommandsComplete :
    (∃ (s : State), (s.follows = true → s.lowestAnchor = some s.basket.principal.toNat)) ∧
    (∃ (s : State), Canon s ∧ s.follows = true ∧ s.anchor = false ∧ s.lowestAnchor = none) ∧
    (∃ (a : Nat) (s : State), s.follows = true ∧ s.anchor = false ∧ s.lowestAnchor = some a ∧ a ≠
      s.basket.principal.toNat) ∧
    (∃ (p : Port) (w : LinkWord) (s : State), ctrlSub w = 6 ∧ lwByte w 2 % 64 ≠ s.pkg.toNat ∧ s.basket.outsider =
      true ∧ s.basket.isPrincipal = false ∧ s.basket.tree = [] ∧ s.basket.heard = []) ∧
    (∃ (s : State), Canon s ∧ s.power.phase = .run ∧ s.anchor = true ∧ s.basket.isPrincipal = false ∧ s.flag
      Reg.clkStatus 3 = true ∧ s.basket.lowerHeardNs + 16000000 ≤ s.upNs ∧ s.weave.run = none) ∧
    (∃ (a : Nat) (p : Port) (s : State), s.power.phase = .run ∧ s.basket.joined = false ∧ s.lowestAnchor = some a ∧
      portOf (smGet 5 s.basket.tree a).toNat = some p ∧ (s.port p).up = true) ∧
    (∃ (p : Port) (w : LinkWord) (h : BitVec 8) (n : BitVec 64) (dv ok : Bool) (s : State), Canon s ∧ ctrlSub w = 3 ∧
      s.basket.isPrincipal = true ∧ joinVerdict s (lwByte w 2 % 64) (lwByte w 3) (lwNum w 4 8) (lwNum w 12 4) h.toNat
      n dv ok = 0 ∧ (s.basket.members.filter (fun m => !m.is (lwByte w 2 % 64) n)).length < 64) ∧
    (∃ (p : Port) (w : LinkWord) (m : BitVec 6) (sp : BitVec 2) (a : Nat) (s : State), Canon s ∧ ctrlSub w = 4 ∧
      lwByte w 2 % 64 = s.pkg.toNat ∧ s.basket.joined = false ∧ lwNum w 3 2 = 0 ∧ s.lowestAnchor = some a) ∧
    (∃ (b : BitVec 80) (n : Nat) (s : State), Canon s ∧ s.basket.joinAt = some n ∧ n ≤ s.nowNs) ∧
    (∃ (b : BitVec 80) (n : Nat) (s : State), Canon s ∧ s.basket.joinAt = some n ∧ n ≤ s.nowNs) ∧
    (∃ (p : Port) (w : LinkWord) (s : State), timeNew 1 w s = true) ∧
    (∃ (p : Port) (w : LinkWord) (s : State), timeNew 2 w s = true) ∧
    (∃ (p : Port) (w : LinkWord) (s : State), timeNew 3 w s = true) :=
  ⟨⟨FO, by decide +kernel⟩,
   ⟨{FO with basket := {FO.basket with heard := []}}, canonOf (by decide +kernel), by decide +kernel,
      by decide +kernel, by decide +kernel⟩,
   ⟨5, {FO with basket := {FO.basket with heard := [(5, some ⟨true, 1000000000⟩)]}}, by decide +kernel,
      by decide +kernel, by decide +kernel, by decide +kernel⟩,
   ⟨.e, presenceWord 5 1 0xFFFFFFFF 0, PT (P .linked), by decide +kernel, by decide +kernel, by decide +kernel,
      by decide +kernel, by decide +kernel, by decide +kernel⟩,
   ⟨T, canonOf (by decide +kernel), by decide +kernel, by decide +kernel, by decide +kernel, by decide +kernel,
      by decide +kernel, by decide +kernel⟩,
   ⟨3, .e,
      {PT (P .linked) with basket := {(PT (P .linked)).basket with heard := [(3, some ⟨true, 1000000000⟩)], tree := [(3,1)]}},
      by decide +kernel, by decide +kernel, by decide +kernel, by decide +kernel, by decide +kernel⟩,
   ⟨.e, joinWord 5 0 3 0xFFFFFFFF, 2, 77, false, true, {W with basket := {W.basket with pe := P .linked}}, canonOf
      (by decide +kernel), by decide +kernel, by decide +kernel, by decide +kernel, by decide +kernel⟩,
   ⟨.e, joinReplyWord 1 0 2 1, 40, 2, 3,
      {PT (P .linked) with basket := {(PT (P .linked)).basket with heard := [(3, some ⟨true, 1000000000⟩)], tree := [(3,1)]}},
      canonOf (by decide +kernel), by decide +kernel, by decide +kernel, by decide +kernel, by decide +kernel,
      by decide +kernel⟩,
   ⟨55, 5, {T with basket := {T.basket with joinAt := some 5}}, canonOf (by decide +kernel), by decide +kernel,
      by decide +kernel⟩,
   ⟨55, 5,
      {T with basket := {T.basket with joinAt := some 5}, time := {T.time with pendClock := some (77, 40, 2)}},
      canonOf (by decide +kernel), by decide +kernel, by decide +kernel⟩,
   ⟨.e, stepWord 64000000 96000000, J, by decide +kernel⟩,
   ⟨.e, beatWord 5000 64000000 96000000, J, by decide +kernel⟩,
   ⟨.e, clockWord 40 1 96000000, J, by decide +kernel⟩⟩

/-- A state and operands for the hypotheses of each clause of WindowCommandsComplete. -/
theorem witness_WindowCommandsComplete :
    (∃ (i : Fin 32) (v : Word) (s : State), Canon s ∧ Served s ∧ (nbit (bits v 0 3) 0 = true → s.flag (Reg.winCtl
      i.val) 0 = false → winOpenVerdict s i.val = 0)) ∧
    (∃ (q : RemoteReq) (i : Nat) (s : State), Canon s ∧ q.data.length < 2 ^ 20 ∧ winJudge s q.src (s.localAddr
      q.addr.toNat) q.data.length true = .ok i ∧ placeLocal (s.localAddr q.addr.toNat) = .store) ∧
    (∃ (q : RemoteReq) (i n off : Nat) (s : State), Canon s ∧ winJudge s q.src (s.localAddr q.addr.toNat)
      q.data.length true = .ok i ∧ placeLocal (s.localAddr q.addr.toNat) = .scratch n off ∧ s.rRoom (s.localAddr
      q.addr.toNat) q.data.length = true) ∧
    (∃ (q : RemoteReq) (i n off : Nat) (s : State), Canon s ∧ winJudge s q.src (s.localAddr q.addr.toNat) q.len false
      = .ok i ∧ placeLocal (s.localAddr q.addr.toNat) = .scratch n off ∧ s.rRoom (s.localAddr q.addr.toNat) q.len =
      true) ∧
    (∃ (q : RemoteReq) (i : Nat) (s : State), Canon s ∧ winJudge s q.src (s.localAddr q.addr.toNat) q.len false = .ok
      i ∧ placeLocal (s.localAddr q.addr.toNat) = .store ∧ s.route q.src ≠ 5) ∧
    (∃ (m : Loose) (s : State), m.type = 5 ∧ m.dst = s.pkg.setWidth 8) ∧
    (∃ (m : Loose) (s : State), Canon s ∧ s.anchor = true ∧ m.type = 7 ∧ m.dst = s.pkg.setWidth 8 ∧ m.code = eWinPerm) ∧
    (∃ (s : State), Canon s ∧ Served s ∧ s.flag Reg.withyFwdStatus 0 = false) ∧
    (∃ (tg : BitVec 6) (o : BitVec 20) (d : Word) (s : State), Canon s ∧ s.basket.fwd = some (tg, o, none)) ∧
    (∃ (s : State), Canon s ∧ s.basket.fwd ≠ none ∧ s.basket.fwdNs + 100000 ≤ s.nowNs) ∧
    (∃ (p : Port) (f : LinkFrame) (s : State), (s.port p).up = true ∧ (s.port p).naking = false ∧ (s.port p).authBad
      = false ∧ (s.port p).hdrErrs = [] ∧ s.cryptMode = 0 ∧ s.basket.outbox = [] ∧ (s.basket.joined = true ∨
      f.principal ≠ 0xFF) ∧ f.checkOk = true ∧ f.headerErrs = [] ∧ f.otherTypes = [] ∧ f.ctrl = [] ∧ f.statics = [] ∧
      f.loose = [] ∧ f.nak = false) ∧
    (∃ (p : Port) (f : LinkFrame) (s : State), Canon s ∧ (s.port p).up = true ∧ s.weave.run = none ∧ (s.port
      p).hdrErrs = [] ∧ s.basket.outbox = [] ∧ f.checkOk = false ∧ f.headerErrs = [] ∧ f.otherTypes = [] ∧ f.ctrl = []
      ∧ f.nak = false ∧ f.hasStatic = false) ∧
    (∃ (p o : Port) (m : Loose) (rest : List Loose) (s : State), (s.port p).stored = m :: rest ∧ o ≠ p ∧
      m.dst.setWidth 6 ≠ s.pkg ∧ s.basket.outsider = false ∧ portOf (s.route (m.dst.setWidth 6)) = some o ∧
      s.loosePasses (s.port o) = true ∧ looseSlots m ≤ (s.port o).credits (m.cls1 || s.dateline (m.dst.setWidth 6))) ∧
    (∃ (p o : Port) (m : Loose) (rest : List Loose) (s : State), (s.port p).stored = m :: rest ∧ o ≠ p ∧
      m.dst.setWidth 6 ≠ s.pkg ∧ s.basket.outsider = false ∧ portOf (s.route (m.dst.setWidth 6)) = some o ∧
      s.loosePasses (s.port o) = true ∧ looseSlots m ≤ (s.port o).credits (m.cls1 || s.dateline (m.dst.setWidth 6))) ∧
    (∃ (p : Port) (m : Loose) (rest : List Loose) (s : State), (s.port p).stored = m :: rest ∧ m.dst.setWidth 6 ≠
      s.pkg ∧ s.basket.outsider = true) :=
  ⟨⟨4, 3, (T.setReg (Reg.winBaseLo 4) 0x50000000).setReg (Reg.winSize 4) 12, canonOf (by decide +kernel),
      ⟨by decide +kernel, by decide +kernel⟩, by decide +kernel⟩,
   ⟨⟨2, 0x50000FF0, 0, List.replicate 16 (7, false)⟩, 3, WN, canonOf (by decide +kernel), by decide +kernel,
      by decide +kernel, by decide +kernel⟩,
   ⟨⟨2, 0x2001F8, 0, List.replicate 16 (7, true)⟩, 3, 2, 0x1F8, ((((T.setReg (Reg.winBaseLo 3) 0x200000).setReg
      (Reg.winSize 3) 12).setReg (Reg.winCtl 3) 7).setReg (Reg.winSrcLo 3) 0xFF), canonOf (by decide +kernel),
      by decide +kernel, by decide +kernel, by decide +kernel⟩,
   ⟨⟨2, 0x2001F8, 16, []⟩, 3, 2, 0x1F8, ((((T.setReg (Reg.winBaseLo 3) 0x200000).setReg (Reg.winSize 3) 12).setReg
      (Reg.winCtl 3) 7).setReg (Reg.winSrcLo 3) 0xFF), canonOf (by decide +kernel), by decide +kernel,
      by decide +kernel, by decide +kernel⟩,
   ⟨⟨2, 0x50000FF0, 16, []⟩, 3, {WN with basket := {WN.basket with tree := [(2,1)]}}, canonOf (by decide +kernel),
      by decide +kernel, by decide +kernel, by decide +kernel⟩,
   ⟨⟨5, 1, 2, 0,0,0,false,[1,2], [true]⟩, T, by decide +kernel, by decide +kernel⟩,
   ⟨⟨7, 1, 2, 0,0,eWinPerm,false,[], []⟩, T, canonOf (by decide +kernel), by decide +kernel, by decide +kernel,
      by decide +kernel, by decide +kernel⟩,
   ⟨(T.setReg Reg.withyFwdTgt 2).setReg Reg.withyFwdOfs 0x100, canonOf (by decide +kernel), ⟨by decide +kernel,
      by decide +kernel⟩, by decide +kernel⟩,
   ⟨2,0x100,55,{T with basket := {T.basket with fwd := some (2,0x100,none)}}, canonOf (by decide +kernel),
      by decide +kernel⟩,
   ⟨{T with basket := {T.basket with fwd := some (2,0x100,none)}}, canonOf (by decide +kernel), by decide +kernel,
      by decide +kernel⟩,
   ⟨.e, fr, (PT {P .linked with credits0 := 2, unacked := [(4, lo), (5, lo)]}).setFld Reg.withyCrypt 0 2 0,
      by decide +kernel, by decide +kernel, by decide +kernel, by decide +kernel, by decide +kernel,
      by decide +kernel, by decide +kernel, by decide +kernel, by decide +kernel, by decide +kernel,
      by decide +kernel, by decide +kernel, by decide +kernel, by decide +kernel⟩,
   ⟨.e, {fr with checkOk := false}, (PT {P .linked with credits0 := 2}).setFld Reg.withyCrypt 0 2 0, canonOf
      (by decide +kernel), by decide +kernel, by decide +kernel, by decide +kernel, by decide +kernel,
      by decide +kernel, by decide +kernel, by decide +kernel, by decide +kernel, by decide +kernel,
      by decide +kernel⟩,
   ⟨.e, .w, lo, [],
      ({(PT {P .linked with stored := [lo]}) with basket := {(PT {P .linked with stored := [lo]}).basket with joined := true, outsider := false, tree := [(2,3)], pw := P .linked}}).setFld
      Reg.withyCrypt 0 2 0, by decide +kernel, by decide +kernel, by decide +kernel, by decide +kernel,
      by decide +kernel, by decide +kernel, by decide +kernel⟩,
   ⟨.e, .w, {lo with cls1 := true}, [lo],
      ({(PT {P .linked with stored := [{lo with cls1 := true}, lo]}) with basket := {(PT {P .linked with stored := [{lo with cls1 := true}, lo]}).basket with joined := true, outsider := false, tree := [(2,3)], pw := P .linked}}).setFld
      Reg.withyCrypt 0 2 0, by decide +kernel, by decide +kernel, by decide +kernel, by decide +kernel,
      by decide +kernel, by decide +kernel, by decide +kernel⟩,
   ⟨.e, lo, [],
      ({(PT {P .linked with stored := [lo]}) with basket := {(PT {P .linked with stored := [lo]}).basket with joined := true, outsider := true, tree := [(2,3)], pw := P .linked}}).setFld
      Reg.withyCrypt 0 2 0, by decide +kernel, by decide +kernel, by decide +kernel⟩⟩

end Sys2Proof.Tests.Chunk04

namespace Sys2Proof.Tests.Chunk05

def W := Test.woven
def H := Test.host
def F (st : FlightState) (d : Desc) : Flight := ⟨0, .ring 0, d, 1, st, 0⟩
def FS (st : FlightState) (d : Desc) := Test.flying st d
def RA : Ring := { Ring.reset with state := .active, phase := true }
def D := Test.desc
def FF (st : FlightState) (op b : Nat) := F st (D op b)
def FG (st : FlightState) (op b : Nat) := FS st (D op b)
def Fb (st : FlightState) (op b : Nat) := (FG st op b).setReg Reg.bootStatus 0x100 |>.setReg Reg.bootFlash 25
def TR (s : State) : State := {s with basket := {s.basket with outsider := false, joined := true, isPrincipal := true, principal := 1, tree := [(2, 1)]}}
def STK (s : State) : State := {s with power := {s.power with strap1 := 2, strap2 := 2}, basket := {s.basket with outsider := false, joined := true, principal := 1, tree := [(1, 1)]}}
def DT : Desc := BitVec.ofNat 512 (2 * 2 ^ 16)
def FFT (st : FlightState) : Flight := F st DT
def FGT (st : FlightState) : State := FS st DT
def AN (st : FlightState) (op b : Nat) : State := {H with host := {H.host with flights := [⟨0, .anchor 2 7, D op b, 1, st, 0⟩], nextId := 1}}
def src256 : List Byte := (List.range 256).map (BitVec.ofNat 8)

/-- A state and operands for the hypotheses of each clause of RingCommandsComplete. -/
theorem witness_RingCommandsComplete :
    (∃ (s : State), Canon s ∧ s.anchor = true) ∧
    (∃ (s : State), Canon s ∧ s.anchor = true) ∧
    (∃ (s : State), Canon s ∧ s.anchor = true ∧ s.host.records.length ≤ 256) ∧
    (∃ (s : State), s.anchor = true) ∧
    (∃ (v : Fin 72) (x : Word) (s : State), Served s) ∧
    (∃ (v : Fin 72) (x : Word) (s : State), Served s) ∧
    (∃ (o : BitVec 14) (x : Word) (be : BitVec 4) (s : State), 16 * 72 ≤ o.toNat) ∧
    (∃ (mask : Bool) (s : State), Served s) ∧
    (∃ (mask : Bool) (s : State), Served s) ∧
    (∃ (i : Fin 64) (v : Word) (s : State), Canon s ∧ Served s ∧ s.host.bme = true ∧ ringCfgVerdict s i.val (v &&&
      0xFFF31F1F) = 0 ∧ v.getLsbD 16 = true ∧ s.flag (Reg.hostRingCfg i.val) 16 = false) ∧
    (∃ (i : Fin 64) (v : Word) (s : State), Canon s ∧ Served s ∧ (s.ring i.val).state = .active ∧ ringCfgVerdict s
      i.val (v &&& 0xFFF31F1F) = 0 ∧ v.getLsbD 16 = false ∧ s.flag (Reg.hostRingCfg i.val) 16 = true) ∧
    (∃ (i : Fin 64) (v : Word) (s : State), Canon s ∧ Served s ∧ (s.ring i.val).state = .active ∧ ringCfgVerdict s
      i.val (v &&& 0xFFF31F1F) = 0 ∧ v.getLsbD 16 = false ∧ s.flag (Reg.hostRingCfg i.val) 16 = true) ∧
    (∃ (s : State), s.polling = true) ∧
    (∃ (i : Fin 64) (l : List Byte) (s : State), Canon s ∧ (s.ring i.val).state = .active ∧ doorbellVerdict s i.val
      (BitVec.ofNat 17 (leAt l 0 4)) (BitVec.ofNat 17 (leAt l 4 4)) (BitVec.ofNat 13 (leAt l 8 4)) = 0) ∧
    (∃ (i : Fin 64) (s : State), s.polling = true ∧ (s.ring i.val).state = .active ∧ (s.ring i.val).asked = 0 ∧ 0 <
      s.fetchCount i.val) ∧
    (∃ (i : Fin 64) (ds : List Desc) (s : State), Canon s ∧ (s.ring i.val).state = .active ∧ (s.ring i.val).asked =
      ds.length ∧ ds ≠ [] ∧ s.host.flights.length + ds.length ≤ 64) ∧
    (∃ (i : Fin 64) (n : Nat) (s : State), Canon s ∧ (s.ring i.val).unsigAt = some n ∧ s.flag (Reg.hostRingCfg i.val)
      17 = true ∧ s.fld (Reg.hostRingCfg i.val) 24 8 ≠ 0 ∧ n + s.fld (Reg.hostRingCfg i.val) 24 8 * 500 * 65536 ≤
      s.nowFp ∧ s.vecOpen i.val = true) :=
  ⟨⟨FS .started 0, canonOf (by decide +kernel), by decide +kernel⟩,
   ⟨FS .started 0, canonOf (by decide +kernel), by decide +kernel⟩,
   ⟨FS .started 0, canonOf (by decide +kernel), by decide +kernel, by decide +kernel⟩,
   ⟨{H with host := {H.host with vecPend := 5}}, by decide +kernel⟩,
   ⟨2, 0, {H with host := {H.host with vecPend := 5, vecMask := 7}}, ⟨by decide +kernel, by decide +kernel⟩⟩,
   ⟨2, 1, {H with host := {H.host with vecPend := 5}}, ⟨by decide +kernel, by decide +kernel⟩⟩,
   ⟨1152, 5, 15, T, by decide +kernel⟩,
   ⟨true, {H with host := {H.host with vecPend := 5}}, ⟨by decide +kernel, by decide +kernel⟩⟩,
   ⟨false, {H with host := {H.host with vecPend := 5}}, ⟨by decide +kernel, by decide +kernel⟩⟩,
   ⟨2, 0x10404, H, canonOf (by decide +kernel), ⟨by decide +kernel, by decide +kernel⟩, by decide +kernel,
      by decide +kernel, by decide +kernel, by decide +kernel⟩,
   ⟨0, 0x404, H, canonOf (by decide +kernel), ⟨by decide +kernel, by decide +kernel⟩, by decide +kernel,
      by decide +kernel, by decide +kernel, by decide +kernel⟩,
   ⟨0, 0x404, FS .started 0, canonOf (by decide +kernel), ⟨by decide +kernel, by decide +kernel⟩,
      by decide +kernel, by decide +kernel, by decide +kernel, by decide +kernel⟩,
   ⟨(H.setRing 1 RA).setRing 3 RA, by decide +kernel⟩,
   ⟨0, leBytes 4 5 ++ leBytes 4 0 ++ leBytes 4 0, H, canonOf (by decide +kernel), by decide +kernel,
      by decide +kernel⟩,
   ⟨0, (H.setRing 0 {RA with tail := 5}), by decide +kernel, by decide +kernel, by decide +kernel,
      by decide +kernel⟩,
   ⟨0, [7,8], (H.setRing 0 {RA with tail := 5, asked := 2}), canonOf (by decide +kernel), by decide +kernel,
      by decide +kernel, by decide +kernel, by decide +kernel⟩,
   ⟨0, 5, (H.setReg (Reg.hostRingCfg 0) 0x01030404).setRing 0 {RA with unsigAt := some 5, unsig := 1}, canonOf
      (by decide +kernel), by decide +kernel, by decide +kernel, by decide +kernel, by decide +kernel,
      by decide +kernel⟩⟩

/-- A state and operands for the hypotheses of each clause of DescriptorCommandsComplete. -/
theorem witness_DescriptorCommandsComplete :
    (∃ (f : Flight) (s : State), s.flight f.id = some f ∧ f.st = .fetched ∧ s.heldBack f = false ∧ headVerdict f.desc
      = 0 ∧ (fromRing f = true → dTarget f.desc = 0xFF ∨ dTarget f.desc = s.pkg.toNat) ∧ (dWaitEn f.desc = true →
      knotMet (s.knot (dWaitKnot f.desc)) (BitVec.ofNat 32 (dWaitThr f.desc)) = true) ∧ levelVerdict s (dOp f.desc) =
      0 ∧ bodyVerdict f.desc = 0 ∧ (dOp f.desc ≠ 0x31 ∧ dOp f.desc ≠ 0x32 ∧ dOp f.desc ≠ 0x33)) ∧
    (∃ (f : Flight) (s : State), s.flight f.id = some f ∧ f.st = .fetched ∧ s.heldBack f = false ∧ headVerdict f.desc
      = 0 ∧ (fromRing f = true → dTarget f.desc = 0xFF ∨ dTarget f.desc = s.pkg.toNat) ∧ (dWaitEn f.desc = true →
      knotMet (s.knot (dWaitKnot f.desc)) (BitVec.ofNat 32 (dWaitThr f.desc)) = true) ∧ levelVerdict s (dOp f.desc) =
      0 ∧ bodyVerdict f.desc = 0 ∧ (dOp f.desc ≠ 0x31 ∧ dOp f.desc ≠ 0x32 ∧ dOp f.desc ≠ 0x33)) ∧
    (∃ (f : Flight) (s : State), s.flight f.id = some f ∧ f.st = .fetched ∧ s.heldBack f = false ∧ headVerdict f.desc
      = 0 ∧ (fromRing f = true → dTarget f.desc = 0xFF ∨ dTarget f.desc = s.pkg.toNat) ∧ dWaitEn f.desc = true ∧
      knotMet (s.knot (dWaitKnot f.desc)) (BitVec.ofNat 32 (dWaitThr f.desc)) = false) ∧
    (∃ (f : Flight) (s : State), s.flight f.id = some f ∧ f.st = .fetched ∧ s.heldBack f = false ∧ headVerdict f.desc
      = 0 ∧ (fromRing f = true → dTarget f.desc = 0xFF ∨ dTarget f.desc = s.pkg.toNat) ∧ dWaitEn f.desc = true ∧
      knotMet (s.knot (dWaitKnot f.desc)) (BitVec.ofNat 32 (dWaitThr f.desc)) = false) ∧
    (∃ (f : Flight) (n : Nat) (s : State), Canon s ∧ s.flight f.id = some f ∧ f.st = .knotWait (some n) ∧ n < s.upNs) ∧
    (∃ (f : Flight) (s : State), Canon s ∧ s.flight f.id = some f ∧ f.st = .fetched ∧ s.heldBack f = false ∧
      headVerdict f.desc = 0 ∧ fromRing f = true ∧ dTarget f.desc ≠ 0xFF ∧ dTarget f.desc ≠ s.pkg.toNat) ∧
    (∃ (f : Flight) (n : Nat) (s : State), s.flight f.id = some f ∧ f.st = .busy n ∧ n ≤ s.upNs ∧ s.route
      (BitVec.ofNat 6 (dTarget f.desc)) ≠ 5) ∧
    (∃ (a : BitVec 6) (n : Nat) (d : Desc) (l : BitVec 16) (s : State), s.basket.outsider = false) ∧
    (∃ (a : BitVec 6) (n : Nat) (d : Desc) (l : BitVec 16) (s : State), s.basket.outsider = false) ∧
    (∃ (f : Flight) (c : Code) (r : Word) (s : State), Canon s ∧ s.flight f.id = some f ∧ ((∃ n, f.st = .forwarded n)
      ∨ f.st = .taken ∨ f.st = .remote)) ∧
    (∃ (f : Flight) (c : Code) (r : Word) (s : State), Canon s ∧ s.flight f.id = some f ∧ ((∃ n, f.st = .forwarded n)
      ∨ f.st = .taken ∨ f.st = .remote)) ∧
    (∃ (f : Flight) (c : Code) (r : Word) (s : State), Canon s ∧ s.flight f.id = some f ∧ ((∃ n, f.st = .forwarded n)
      ∨ f.st = .taken ∨ f.st = .remote)) ∧
    (∃ (m : Loose) (s : State), m.type = 1 ∧ m.dst = s.pkg.setWidth 8 ∧ s.anchor = true ∧ s.host.bme = true ∧ leAt
      m.payload 0 1 = 1 ∧ s.route (m.src.setWidth 6) ≠ 5) ∧
    (∃ (m : Loose) (l : List Byte) (s : State), m.type = 1 ∧ m.dst = s.pkg.setWidth 8 ∧ s.anchor = true ∧ s.host.bme
      = true ∧ leAt m.payload 0 1 = 2 ∧ s.route (m.src.setWidth 6) ≠ 5) ∧
    (∃ (f : Flight) (m : Loose) (l : List (BitVec 32)) (c : Code) (r : Word) (n : Nat) (s : State), Canon s ∧
      s.host.flights.find? (awaits m.seq) = some f ∧ f.st = .waitRsp l c r n ∧ dSigEn f.desc = false ∧ m.type = 2 ∧
      m.dst = s.pkg.setWidth 8) ∧
    (∃ (f : Flight) (m : Loose) (l : List (BitVec 32)) (c : Code) (r : Word) (n : Nat) (s : State), Canon s ∧
      s.host.flights.find? (awaits m.seq) = some f ∧ f.st = .waitRsp l c r n ∧ dSigEn f.desc = false ∧ m.type = 2 ∧
      m.dst = s.pkg.setWidth 8) ∧
    (∃ (f : Flight) (m : Loose) (n : Nat) (s : State), s.host.flights.find? (awaits m.seq) = some f ∧ f.st =
      .waitData [(m.seq, none)] n ∧ m.type = 2 ∧ m.dst = s.pkg.setWidth 8) ∧
    (∃ (f : Flight) (n : Nat) (s : State), Canon s ∧ s.flight f.id = some f ∧ sentAt f = some n ∧ n + 100000 ≤ s.upNs) ∧
    (∃ (f : Flight) (n : Nat) (s : State), Canon s ∧ s.flight f.id = some f ∧ sentAt f = some n ∧ n + 100000 ≤ s.upNs) :=
  ⟨⟨FF .fetched 0 0, FG .fetched 0 0, by decide +kernel, by decide +kernel, by decide +kernel, by decide +kernel,
      by decide +kernel, by decide +kernel, by decide +kernel, by decide +kernel, by decide +kernel⟩,
   ⟨(⟨0, .anchor 2 7, D 0 0, 1, .fetched, 0⟩ : Flight), AN .fetched 0 0, by decide +kernel, by decide +kernel,
      by decide +kernel, by decide +kernel, by decide +kernel, by decide +kernel, by decide +kernel,
      by decide +kernel, by decide +kernel⟩,
   ⟨FF .fetched 0 (3 * 2^64 + 2^95 + 5 * 2^96), FG .fetched 0 (3 * 2^64 + 2^95 + 5 * 2^96), by decide +kernel,
      by decide +kernel, by decide +kernel, by decide +kernel, by decide +kernel, by decide +kernel,
      by decide +kernel⟩,
   ⟨(⟨0, .anchor 2 7, D 0 (3 * 2^64 + 2^95 + 5 * 2^96), 1, .fetched, 0⟩ : Flight), AN .fetched 0 (3 * 2^64 + 2^95 +
      5 * 2^96), by decide +kernel, by decide +kernel, by decide +kernel, by decide +kernel, by decide +kernel,
      by decide +kernel, by decide +kernel⟩,
   ⟨FF (.knotWait (some 5)) 0 0, 5, FG (.knotWait (some 5)) 0 0, canonOf (by decide +kernel), by decide +kernel,
      by decide +kernel, by decide +kernel⟩,
   ⟨FFT .fetched, TR (FGT .fetched), canonOf (by decide +kernel), by decide +kernel, by decide +kernel,
      by decide +kernel, by decide +kernel, by decide +kernel, by decide +kernel, by decide +kernel⟩,
   ⟨FFT (.busy 5), 5, TR (FGT (.busy 5)), by decide +kernel, by decide +kernel, by decide +kernel,
      by decide +kernel⟩,
   ⟨3, 7, D 0 0, 9, {H with basket := {H.basket with outsider := false}}, by decide +kernel⟩,
   ⟨3, 7, D 0 0, 9,
      {H with basket := {H.basket with outsider := false}, host := {H.host with flights := List.replicate 64 (FF .started 0 0)}},
      by decide +kernel⟩,
   ⟨FFT .remote, eDescRestart, 6, FGT .remote, canonOf (by decide +kernel), by decide +kernel, .inr (.inr rfl)⟩,
   ⟨FFT .taken, 0, 6, FGT .taken, canonOf (by decide +kernel), by decide +kernel, .inr (.inl rfl)⟩,
   ⟨FFT (.forwarded 5), 0, 6, FGT (.forwarded 5), canonOf (by decide +kernel), by decide +kernel, .inl ⟨5, rfl⟩⟩,
   ⟨⟨1, 1, 2, 77, 0, 0, false, [1] ++ leBytes 8 0x1234 ++ leBytes 4 3 ++ [7,8,9], []⟩,
      {H with basket := {H.basket with tree := [(2,1)]}}, by decide +kernel, by decide +kernel, by decide +kernel,
      by decide +kernel, by decide +kernel, by decide +kernel⟩,
   ⟨⟨1, 1, 2, 77, 0, 0, false, [2] ++ leBytes 8 0x1234 ++ leBytes 4 3, []⟩, [7,8,9],
      {H with basket := {H.basket with tree := [(2,1)]}}, by decide +kernel, by decide +kernel, by decide +kernel,
      by decide +kernel, by decide +kernel, by decide +kernel⟩,
   ⟨FF (.waitRsp [77] 0 6 5) 1 0, ⟨2, 1, 2, 77, 0, 0, false, [5], []⟩, [77], 0, 6, 5, FG (.waitRsp [77] 0 6 5) 1 0,
      canonOf (by decide +kernel), by decide +kernel, by decide +kernel, by decide +kernel, by decide +kernel,
      by decide +kernel⟩,
   ⟨FF (.waitRsp [76, 77] 0 6 5) 1 0, ⟨2, 1, 2, 77, 0, 0, false, [5], []⟩, [76, 77], 0, 6, 5, FG (.waitRsp [76, 77]
      0 6 5) 1 0, canonOf (by decide +kernel), by decide +kernel, by decide +kernel, by decide +kernel,
      by decide +kernel, by decide +kernel⟩,
   ⟨FF (.waitData [(77, none)] 5) 5 0, ⟨2, 1, 2, 77, 0, 0, false, [5], []⟩, 5, FG (.waitData [(77, none)] 5) 5 0,
      by decide +kernel, by decide +kernel, by decide +kernel, by decide +kernel⟩,
   ⟨FFT (.forwarded 5), 5, FGT (.forwarded 5), canonOf (by decide +kernel), by decide +kernel, by decide +kernel,
      by decide +kernel⟩,
   ⟨FF (.waitRsp [77] 0 6 5) 1 0, 5, FG (.waitRsp [77] 0 6 5) 1 0, canonOf (by decide +kernel), by decide +kernel,
      by decide +kernel, by decide +kernel⟩⟩

/-- A state and operands for the hypotheses of each clause of OpcodeCommandsComplete. -/
theorem witness_OpcodeCommandsComplete :
    (∃ (f : Flight) (s : State), Canon s ∧ Started f 0x00 s) ∧
    (∃ (f : Flight) (s : State), Canon s ∧ Started f 0x01 s ∧ s.anchor = true ∧ s.host.bme = true) ∧
    (∃ (f : Flight) (s : State), Canon s ∧ Started f 0x02 s ∧ s.anchor = true ∧ s.host.bme = true) ∧
    (∃ (f : Flight) (s : State), Canon s ∧ Started f 0x03 s ∧ s.anchor = true ∧ s.host.bme = true) ∧
    (∃ (f : Flight) (s : State), Canon s ∧ Started f 0x10 s ∧ s.weave.run = none) ∧
    (∃ (f : Flight) (s : State), Canon s ∧ Started f 0x11 s) ∧
    (∃ (f : Flight) (s : State), Canon s ∧ Started f 0x12 s ∧ f.desc.getLsbD 264 = true ∧ s.anchor = true ∧
      s.host.bme = true) ∧
    (∃ (f : Flight) (s : State), Canon s ∧ Started f 0x12 s ∧ f.desc.getLsbD 264 = false) ∧
    (∃ (f : Flight) (s : State), s.anchor = false ∧ s.route (s.homeAnchor s.pkg) ≠ 5 ∧ Started f 0x01 s) ∧
    (∃ (f : Flight) (s : State), s.anchor = false ∧ s.route (s.homeAnchor s.pkg) ≠ 5 ∧ Started f 0x02 s) ∧
    (∃ (f : Flight) (s : State), s.anchor = false ∧ s.route (s.homeAnchor s.pkg) ≠ 5 ∧ Started f 0x03 s) ∧
    (∃ (f : Flight) (s : State), s.anchor = false ∧ s.route (s.homeAnchor s.pkg) ≠ 5 ∧ Started f 0x12 s ∧
      f.desc.getLsbD 264 = true) ∧
    (∃ (w : Waiting) (l : List Waiting) (s : State), Canon s ∧ s.anchor = true ∧ s.host.bme = true ∧ takeWaiting s
      s.host.waiting = some (w, l)) ∧
    (∃ (b : BitVec 256) (l : List (BitVec 256)) (s : State), s.host.heldEv = b :: l ∧ s.anchor = false ∧
      s.basket.outsider = false ∧ s.route (s.homeAnchor s.pkg) ≠ 5) ∧
    (∃ (k : BitVec 17) (a : BitVec 16) (s : State), Canon s) ∧
    (∃ (w : LinkWord) (s : State), Canon s ∧ ctrlSub w = 2 ∧ lwByte w 3 % 64 = s.pkg.toNat) ∧
    (∃ (k : BitVec 17) (a : BitVec 64) (s : State), s.anchor = true ∧ s.host.bme = true ∧ k.toNat ∈ s.host.dirty ∧
      smGet none s.host.mirrors (k.toNat / 1024) = some a) ∧
    (∃ (v : Word) (s : State), Canon s ∧ Served s ∧ recCfgVerdict s (v &&& 0x13F0F) = 0 ∧ v.getLsbD 16 = true ∧
      s.flag Reg.hostRecCfg 16 = false) ∧
    (∃ (v : Word) (s : State), Canon s ∧ Served s ∧ recCfgVerdict s (v &&& 0x13F0F) = 0 ∧ v.getLsbD 16 = false ∧
      s.flag Reg.hostRecCfg 16 = true ∧ s.host.records.length ≤ 256) :=
  ⟨⟨FF .started 0 0, FG .started 0 0, canonOf (by decide +kernel), ⟨by decide +kernel, by decide +kernel,
      by decide +kernel, by decide +kernel⟩⟩,
   ⟨FF .started 1 (0x1000 * 2^192), FG .started 1 (0x1000 * 2^192), canonOf (by decide +kernel),
      ⟨by decide +kernel, by decide +kernel, by decide +kernel, by decide +kernel⟩, by decide +kernel,
      by decide +kernel⟩,
   ⟨FF .started 2 (0x1000 * 2^192), FG .started 2 (0x1000 * 2^192), canonOf (by decide +kernel),
      ⟨by decide +kernel, by decide +kernel, by decide +kernel, by decide +kernel⟩, by decide +kernel,
      by decide +kernel⟩,
   ⟨FF .started 3 (0x1000 * 2^192), FG .started 3 (0x1000 * 2^192), canonOf (by decide +kernel),
      ⟨by decide +kernel, by decide +kernel, by decide +kernel, by decide +kernel⟩, by decide +kernel,
      by decide +kernel⟩,
   ⟨FF .started 0x10 (5 * 2^256 + 77*(2^256 * 2^32)), FG .started 0x10 (5 * 2^256 + 77*(2^256 * 2^32)), canonOf
      (by decide +kernel), ⟨by decide +kernel, by decide +kernel, by decide +kernel, by decide +kernel⟩,
      by decide +kernel⟩,
   ⟨FF .started 0x11 (5 * 2^256 + 77*(2^256 * 2^32)),
      {FG .started 0x11 (5 * 2^256 + 77*(2^256 * 2^32)) with knots := [(5,9)]}, canonOf (by decide +kernel),
      ⟨by decide +kernel, by decide +kernel, by decide +kernel, by decide +kernel⟩⟩,
   ⟨FF .started 0x12 (0x1000*2^192 + 1 * 2^256 + 2^264),
      {FG .started 0x12 (0x1000*2^192 + 1 * 2^256 + 2^264) with knots := [(1025,9)]}, canonOf (by decide +kernel),
      ⟨by decide +kernel, by decide +kernel, by decide +kernel, by decide +kernel⟩, by decide +kernel,
      by decide +kernel, by decide +kernel⟩,
   ⟨FF .started 0x12 (2^256),
      {FG .started 0x12 (2^256) with host := {(FG .started 0x12 (2^256)).host with mirrors := [(1, some 0x5000)]}},
      canonOf (by decide +kernel), ⟨by decide +kernel, by decide +kernel, by decide +kernel, by decide +kernel⟩,
      by decide +kernel⟩,
   ⟨FF .started 0x01 (0x1000 * 2^192), STK (FG .started 0x01 (0x1000 * 2^192)), by decide +kernel,
      by decide +kernel, ⟨by decide +kernel, by decide +kernel, by decide +kernel, by decide +kernel⟩⟩,
   ⟨FF .started 0x02 (0x1000 * 2^192), STK (FG .started 0x02 (0x1000 * 2^192)), by decide +kernel,
      by decide +kernel, ⟨by decide +kernel, by decide +kernel, by decide +kernel, by decide +kernel⟩⟩,
   ⟨FF .started 0x03 (0x1000 * 2^192), STK (FG .started 0x03 (0x1000 * 2^192)), by decide +kernel,
      by decide +kernel, ⟨by decide +kernel, by decide +kernel, by decide +kernel, by decide +kernel⟩⟩,
   ⟨FF .started 0x12 (0x1000*2^192 + 1 * 2^256 + 2^264), STK (FG .started 0x12 (0x1000*2^192 + 1 * 2^256 + 2^264)),
      by decide +kernel, by decide +kernel, ⟨by decide +kernel, by decide +kernel, by decide +kernel,
      by decide +kernel⟩, by decide +kernel⟩,
   ⟨.record 5, [], {H with host := {H.host with waiting := [.record 5]}}, canonOf (by decide +kernel),
      by decide +kernel, by decide +kernel, by decide +kernel⟩,
   ⟨5, [6],
      {H with power := {H.power with strap1 := 2}, host := {H.host with heldEv := [5,6], evDropped := 3}, basket := {H.basket with principal := 1, tree := [(1,1)], outsider := false, joined := true}},
      by decide +kernel, by decide +kernel, by decide +kernel, by decide +kernel⟩,
   ⟨5, 77, {H with knots := [(5,0xFFFFFFFF)]}, canonOf (by decide +kernel)⟩,
   ⟨knotWord 2 1 9 77, {H with knots := [(5,0xFFFFFFFF)]}, canonOf (by decide +kernel), by decide +kernel,
      by decide +kernel⟩,
   ⟨1025, 0x5000,
      {H with knots := [(1025,0xFFFFFFFF)], host := {H.host with dirty := [1025], mirrors := [(1, some 0x5000)]}},
      by decide +kernel, by decide +kernel, by decide +kernel, by decide +kernel⟩,
   ⟨0x10004, H, canonOf (by decide +kernel), ⟨by decide +kernel, by decide +kernel⟩, by decide +kernel,
      by decide +kernel, by decide +kernel⟩,
   ⟨0x0004, {H.setReg Reg.hostRecCfg 0x10004 with host := {H.host with records := [⟨5, [], false, false⟩]}},
      canonOf (by decide +kernel), ⟨by decide +kernel, by decide +kernel⟩, by decide +kernel, by decide +kernel,
      by decide +kernel, by decide +kernel⟩⟩

/-- A state and operands for the hypotheses of each clause of FlashCommandsComplete. -/
theorem witness_FlashCommandsComplete :
    (∃ (f : Flight) (s : State), Canon s ∧ Started f 0x04 s ∧ s.flag Reg.bootStatus 8 = true ∧ flashRange s 4096
      (descNum f.desc 32 4) (descNum f.desc 36 4) = 0) ∧
    (∃ (f : Flight) (bytes src : List Byte) (s : State), Canon s ∧ Supplied f 0x05 bytes src s ∧ s.flag
      Reg.bootStatus 8 = true ∧ descNum f.desc 36 4 ≤ 65536 ∧ flashRange s 256 (descNum f.desc 32 4) (descNum f.desc
      36 4) = 0 ∧ src.length = descNum f.desc 36 4 ∧ (∀ k < descNum f.desc 36 4, s.flashBytes (descNum f.desc 32 4 +
      k) 1 = [0xFF])) ∧
    (∃ (f : Flight) (bytes src : List Byte) (s : State), Canon s ∧ Supplied f 0x05 bytes src s ∧ s.flag
      Reg.bootStatus 8 = true ∧ descNum f.desc 36 4 ≤ 65536 ∧ flashRange s 256 (descNum f.desc 32 4) (descNum f.desc
      36 4) = 0 ∧ src.length = descNum f.desc 36 4 ∧ (∀ k < descNum f.desc 36 4, s.flashBytes (descNum f.desc 32 4 +
      k) 1 = [0xFF])) ∧
    (∃ (f : Flight) (bytes : List Byte) (s : State), Started f 0x05 s ∧ s.anchor = false ∧ s.route (s.homeAnchor
      s.pkg) ≠ 5 ∧ 0 < descNum f.desc 36 4 ∧ descNum f.desc 36 4 ≤ 65536) ∧
    (∃ (f : Flight) (b : Bool) (o : FuseOutcome) (s : State), Canon s ∧ Started f 0x06 s ∧ descNum f.desc 32 1 =
      b.toNat ∧ descNum f.desc 33 1 = 1 ∧ s.bootedSlot ≠ some b) :=
  ⟨⟨FF .started 4 (0x1600000 * 2^256 + 0x1000 * (2^256 * 2^32)),
      {Fb .started 4 (0x1600000 * 2^256 + 0x1000 * (2^256 * 2^32)) with flash := [(0x15FFFFF,0),(0x1600000,1),(0x1600FFF,7),(0x1601000,8)]},
      canonOf (by decide +kernel), ⟨by decide +kernel, by decide +kernel, by decide +kernel, by decide +kernel⟩,
      by decide +kernel, by decide +kernel⟩,
   ⟨FF .started 5 (0x1600000 * 2^256 + 0x100 * (2^256 * 2^32)), src256, src256, Fb .started 5 (0x1600000 * 2^256 +
      0x100 * (2^256 * 2^32)), canonOf (by decide +kernel), ⟨by decide +kernel, by decide +kernel, by decide +kernel,
      .inl ⟨by decide +kernel, by decide +kernel, by decide +kernel⟩⟩, by decide +kernel, by decide +kernel,
      by decide +kernel, by decide +kernel, by decide +kernel⟩,
   ⟨FF (.gotData src256) 5 (0x1600000 * 2^256 + 0x100 * (2^256 * 2^32)), [], src256, STK (Fb (.gotData src256) 5
      (0x1600000 * 2^256 + 0x100 * (2^256 * 2^32))), canonOf (by decide +kernel), ⟨by decide +kernel,
      by decide +kernel, by decide +kernel, .inr (by decide +kernel)⟩, by decide +kernel, by decide +kernel,
      by decide +kernel, by decide +kernel, by decide +kernel⟩,
   ⟨FF .started 5 (0x1600000 * 2^256 + 0x100 * (2^256 * 2^32)), [], STK (FG .started 5 (0x1600000 * 2^256 + 0x100 *
      (2^256 * 2^32))), ⟨by decide +kernel, by decide +kernel, by decide +kernel, by decide +kernel⟩,
      by decide +kernel, by decide +kernel, by decide +kernel, by decide +kernel⟩,
   ⟨FF .started 6 (0x1 * 2^264), false, ⟨0,0,0⟩, Fb .started 6 (0x1 * 2^264), canonOf (by decide +kernel),
      ⟨by decide +kernel, by decide +kernel, by decide +kernel, by decide +kernel⟩, by decide +kernel,
      by decide +kernel, by decide +kernel⟩⟩

end Sys2Proof.Tests.Chunk05

namespace Sys2Proof.Tests.Chunk06

def W := Test.woven
def ex : Exposure :=
    {startAt := 0, lenP := 4, readP := 200000, setup := 1, source := 24, mode := 0x101, len := 1, seq := 3, windows := [(0, 0x10000, 0x10000)]}
def fm : Frame :=
    {exp := ex, stamp := 7, pos := 5, posEnd := 5, band := 0, hot := false, darkBand := 0, noDark := false, fallback := false}
def entry0 (b : Nat) : BitVec 256 := BitVec.ofNat 256 (b + (crc32c (leBytes 28 b)).toNat * 2^224)
def en1 := entry0 (3 + 2^32 + 9 * 2^40 + (16*5) * 2^64 + 0 * 2^96 + 16*2^128 + 16*2^144)
def R0 : State :=
    {((W.setReg Reg.roiCtl 1).setReg (Reg.roiClass 1) 0x00000101).setReg Reg.roiCropBaseLo 0x70000000 |>.setReg Reg.roiCropCfg 4 with pix := {T.pix with stored := [(1, some fm)]}, roi := {Test.alone.roi with bank0 := [(2, BitVec.ofNat 128 (1 + 0xFF*2^8 + 0x0F * 2^56))]}}
def m0 : Matched := ⟨fm, en1, 2, 0, 0, 0, 0, false, false⟩
def pc : Parcel :=
    {id := 9, cmp := 0, barrierNs := 0, barrierPos := 0, clearPos := none, restart := false, multi := false, overlap := false, top := [], left := [], right := [], bottom := [], dims := none, weight := none, committed := false, lost := false, labels := [] }
def cr : Crop := {owner := 1, parcel := 9, m := m0, w := 32, h := 32, scale := 256, crc := 7, done := false, commitNs := none}

theorem regions_listed (e : BitVec 256) (h : e ∈ [en1, en1]) : ∃ f m, R0.storedSeq (entryNum e 0 4) = some f ∧
    entryOk f e = true ∧ matchRegion R0 f e = some m := by
  have he : e = en1 := by simpa using h
  subst he
  obtain ⟨m, hm⟩ := Option.isSome_iff_exists.mp (by decide +kernel : (matchRegion R0 fm en1).isSome = true)
  exact ⟨fm, m, by decide +kernel, by decide +kernel, hm⟩
theorem entry_bad (f : Frame) (h : R0.storedSeq (entryNum 3 0 4) = some f) : entryOk f 3 = false := by
  have e : R0.storedSeq (entryNum 3 0 4) = some fm := by decide +kernel
  cases Option.some.inj (e.symm.trans h)
  decide +kernel

/-- A state and operands for the hypotheses of each clause of FieldCommandsComplete. -/
theorem witness_FieldCommandsComplete :
    (∃ (i : Fin 8) (l : Bool) (s : State), s.fieldOn = true ∧ s.field.raw.getLsbD i.val ≠ l ∧ s.field.levels.getLsbD
      i.val ≠ l ∧ 0 < s.filterP i.val) ∧
    (∃ (i : Fin 8) (l : Bool) (s : State), s.fieldOn = true ∧ Rising s.field.runs ∧ s.field.raw.getLsbD i.val ≠ l ∧
      s.field.levels.getLsbD i.val = l) ∧
    (∃ (i : Fin 8) (l : Bool) (n : Nat) (st : BitVec 80) (s : State), s.fieldOn = true ∧ s.field.levels.getLsbD i.val
      ≠ l ∧ n + s.filterP i.val ≤ s.time.pcyc ∧ ((s.field.raw.getLsbD i.val = l ∧ smGet none s.field.runs i.val = some
      (n, st)) ∨ (s.field.raw.getLsbD i.val ≠ l ∧ n = s.time.pcyc ∧ st = s.stampNow)) ∧ s.edgeSelected i.val l = true
      ∧ s.field.evq.length < 64) ∧
    (∃ (i : Fin 8) (l : Bool) (n : Nat) (st : BitVec 80) (s : State), s.fieldOn = true ∧ s.field.levels.getLsbD i.val
      ≠ l ∧ n + s.filterP i.val ≤ s.time.pcyc ∧ ((s.field.raw.getLsbD i.val = l ∧ smGet none s.field.runs i.val = some
      (n, st)) ∨ (s.field.raw.getLsbD i.val ≠ l ∧ n = s.time.pcyc ∧ st = s.stampNow)) ∧ s.edgeSelected i.val l = true
      ∧ s.field.evq.length < 64) ∧
    (∃ (e : FieldEvent) (q : List FieldEvent) (s : State), Served s ∧ s.field.evq = e :: q) ∧
    (∃ (a b : Bool) (s : State), s.fieldOn = true ∧ s.field.armAt = none ∧ s.field.encq = []) ∧
    (∃ (a b : Bool) (e : EncEdge) (s : State), s.fieldOn = true ∧ s.field.armAt = none ∧ s.field.encq = [e] ∧ e.ab =
      some (a, b) ∧ e.z = false ∧ s.edgeDue e = true ∧ s.flag Reg.fieldEncCfg 0 = true ∧ (∀ m < 16, s.flag
      (Reg.fieldMatchCfg m) 0 = false) ∧ a ≠ s.field.a ∧ b = s.field.b) ∧
    (∃ (a b : Bool) (e : EncEdge) (s : State), s.fieldOn = true ∧ s.field.armAt = none ∧ s.field.encq = [e] ∧ e.ab =
      some (a, b) ∧ e.z = false ∧ s.edgeDue e = true ∧ s.flag Reg.fieldEncCfg 0 = true ∧ (∀ m < 16, s.flag
      (Reg.fieldMatchCfg m) 0 = false) ∧ a = s.field.a ∧ b ≠ s.field.b) ∧
    (∃ (s : State), s.fieldOn = true ∧ s.field.armAt = none ∧ s.field.encq = []) ∧
    (∃ (e : EncEdge) (s : State), s.fieldOn = true ∧ s.field.armAt = none ∧ s.field.encq = [e] ∧ e.ab = none ∧ e.z =
      true ∧ s.edgeDue e = true ∧ s.field.armZ = true ∧ s.flag Reg.fieldEncCfg 6 = false) ∧
    (∃ (e : EncEdge) (s : State), s.fieldOn = true ∧ s.field.armAt = none ∧ s.field.encq = [e] ∧ e.ab = none ∧ e.z =
      true ∧ s.edgeDue e = true ∧ s.field.armZ = false ∧ s.flag Reg.fieldEncCfg 6 = true ∧ s.field.evq.length < 64) ∧
    (∃ (s : State), Canon s ∧ s.anchor = true ∧ s.fieldOn = true ∧ s.flag Reg.fieldEncCfg 0 = true ∧ s.flag
      Reg.fieldEncErr 16 = false) ∧
    (∃ (s : State), Canon s ∧ s.fieldOn = true) ∧
    (∃ (w : Writer) (s : State), Served s ∧ s.weaveOwns w = false ∧ s.nowFp ≤ s.pair Reg.fieldEncAtLo
      Reg.fieldEncAtHi * 65536) ∧
    (∃ (w : Writer) (s : State), Served s ∧ s.weaveOwns w = false) ∧
    (∃ (n : Nat) (s : State), s.field.armAt = some n ∧ s.fieldOn = true ∧ s.field.encq = [] ∧ n * 65536 ≤ s.nowFp) ∧
    (∃ (s : State), Served s) :=
  ⟨⟨3, true, T.setReg (Reg.fieldInCfg 3) 0x502, by decide +kernel, by decide +kernel, by decide +kernel,
      by decide +kernel⟩,
   ⟨3, false, {T with field := {T.field with raw := 8, runs := [(3, some (0, 7))]}}, by decide +kernel,
      by decide +kernel, by decide +kernel, by decide +kernel⟩,
   ⟨3, true, 0, (T.setFlag (Reg.fieldInCfg 3) 1 true).stampNow, T.setFlag (Reg.fieldInCfg 3) 1 true,
      by decide +kernel, by decide +kernel, by decide +kernel, by decide +kernel, by decide +kernel,
      by decide +kernel⟩,
   ⟨3, true, 4, 7,
      {(T.setFlag (Reg.fieldInCfg 3) 1 true).setFlag (Reg.fieldInCfg 3) 17 true with time := {T.time with pcyc := 200000}, field := {T.field with raw := 8, runs := [(3, some (4, 7))]}},
      by decide +kernel, by decide +kernel, by decide +kernel, by decide +kernel, by decide +kernel,
      by decide +kernel⟩,
   ⟨⟨3,true,true,5,6⟩, [⟨3,true,true,5,6⟩],
      {T with field := {T.field with evq := [⟨3,true,true,5,6⟩,⟨3,true,true,5,6⟩]}}, ⟨by decide +kernel,
      by decide +kernel⟩, by decide +kernel⟩,
   ⟨true, false, T, by decide +kernel, by decide +kernel, by decide +kernel⟩,
   ⟨true, false, ⟨3, 9, some (true, false), false⟩,
      {(T.setFlag Reg.fieldEncCfg 0 true).setReg Reg.fieldEncPresetLo 77 with time := {T.time with pcyc := 20}, field := {T.field with encq := [⟨3, 9, some (true, false), false⟩]}},
      by decide +kernel, by decide +kernel, by decide +kernel, by decide +kernel, by decide +kernel,
      by decide +kernel, by decide +kernel, by decide +kernel, by decide +kernel, by decide +kernel⟩,
   ⟨false, true, ⟨3, 9, some (false, true), false⟩,
      {(T.setFlag Reg.fieldEncCfg 0 true).setReg Reg.fieldEncPresetLo 77 with time := {T.time with pcyc := 20}, field := {T.field with encq := [⟨3, 9, some (false, true), false⟩]}},
      by decide +kernel, by decide +kernel, by decide +kernel, by decide +kernel, by decide +kernel,
      by decide +kernel, by decide +kernel, by decide +kernel, by decide +kernel, by decide +kernel⟩,
   ⟨T, by decide +kernel, by decide +kernel, by decide +kernel⟩,
   ⟨⟨3, 9, none, true⟩,
      {(T.setFlag Reg.fieldEncCfg 0 true).setReg Reg.fieldEncPresetLo 77 with time := {T.time with pcyc := 20}, field := {T.field with encq := [⟨3, 9, none, true⟩], armZ := true}},
      by decide +kernel, by decide +kernel, by decide +kernel, by decide +kernel, by decide +kernel,
      by decide +kernel, by decide +kernel, by decide +kernel⟩,
   ⟨⟨3, 9, none, true⟩,
      {(T.setFlag Reg.fieldEncCfg 6 true).setReg Reg.fieldEncPresetLo 77 with time := {T.time with pcyc := 20}, field := {T.field with encq := [⟨3, 9, none, true⟩]}},
      by decide +kernel, by decide +kernel, by decide +kernel, by decide +kernel, by decide +kernel,
      by decide +kernel, by decide +kernel, by decide +kernel, by decide +kernel⟩,
   ⟨(T.setFlag Reg.fieldEncCfg 0 true), canonOf (by decide +kernel), by decide +kernel, by decide +kernel,
      by decide +kernel, by decide +kernel⟩,
   ⟨(T.setFlag Reg.fieldEncErr 16 true), canonOf (by decide +kernel), by decide +kernel⟩,
   ⟨.host, T.setReg Reg.fieldEncAtLo 2000000000, ⟨by decide +kernel, by decide +kernel⟩, by decide +kernel,
      by decide +kernel⟩,
   ⟨.host, T, ⟨by decide +kernel, by decide +kernel⟩, by decide +kernel⟩,
   ⟨7, {T.setReg Reg.fieldEncPresetLo 77 with field := {T.field with armAt := some 7}}, by decide +kernel,
      by decide +kernel, by decide +kernel, by decide +kernel⟩,
   ⟨{T with field := {T.field with pos := 0x123456789ABC}}, ⟨by decide +kernel, by decide +kernel⟩⟩⟩

/-- A state and operands for the hypotheses of each clause of PixelCommandsComplete. -/
theorem witness_PixelCommandsComplete :
    (∃ (p : BitVec 2) (n : Nat) (l : List (Nat × BitVec 2)) (s : State), Canon s ∧ s.sensorsOn = true ∧ s.pix.snaps =
      (n, p) :: l ∧ n + 13 ≤ s.time.pcyc ∧ s.pix.trigNow = none ∧ s.accepts (s.exposure p.toNat 24) = true ∧
      s.restarting = false) ∧
    (∃ (w : Writer) (s : State), Served s ∧ s.weave.run = none ∧ 1 ≤ s.level ∧ s.pix.darkBusy = false ∧ s.pix.trigNow
      = none) ∧
    (∃ (sums : List (Nat × Nat)) (s : State), Canon s ∧ s.fieldOn = true ∧ s.pix.darkBusy = true ∧ storeReserved
      (s.darkTable s.pix.darkBand.toNat) sums.length = false) ∧
    (∃ (e : Exposure) (s : State), s.dueExposure = some e ∧ s.fieldOn = true) ∧
    (∃ (f : Frame) (s : State), s.pix.cur = [f] ∧ f.exp.startAt + f.exp.lenP ≤ s.time.pcyc ∧ s.fieldOn = true ∧
      s.pix.reading = none) ∧
    (∃ (rows : List (Nat × List (BitVec 12))) (f : Frame) (a : Nat) (s : State), Canon s ∧ s.fieldOn = true ∧
      s.pix.reading = some f ∧ f.exp.startAt + f.exp.lenP + f.exp.readP ≤ s.time.pcyc ∧ s.frameBase f = some a ∧
      storeReserved a (frameBytes s f rows).length = false) ∧
    (∃ (k : Fin 4) (n : Nat) (s : State), s.fieldOn = true ∧ (s.strobe k.val).starts = [n] ∧ n ≤ s.time.pcyc ∧ s.fld
      (Reg.fieldStbCfg k.val) 0 2 = 1 ∧ s.pix.darkBusy = false) ∧
    (∃ (k : Fin 4) (n : Nat) (s : State), Rising s.field.strobes ∧ s.fieldOn = true ∧ (s.strobe k.val).endAt = some n
      ∧ n ≤ s.time.pcyc ∧ s.fld (Reg.fieldStbCfg k.val) 0 2 = 1) ∧
    (∃ (j : Fin 2) (n : Nat) (s : State), s.fieldOn = true ∧ (s.sync j.val).starts = [n] ∧ n ≤ s.time.pcyc ∧
      (s.syncSrc j.val = 2 ∨ s.syncSrc j.val = 3)) ∧
    (∃ (j : Fin 2) (n : Nat) (s : State), Rising s.field.syncs ∧ s.fieldOn = true ∧ (s.sync j.val).endAt = some n ∧ n
      ≤ s.time.pcyc ∧ (s.syncSrc j.val = 2 ∨ s.syncSrc j.val = 3)) ∧
    (∃ (s : State), s.fieldOn = true ∧ s.atSecond = true ∧ s.syncSrc 0 = 4 ∧ s.syncSrc 1 ≠ 4) :=
  ⟨⟨1, 0, [(3, 2)],
      {T.setFlag Reg.pixCtl 0 true with time := {T.time with pcyc := 13}, pix := {T.pix with snaps := [(0, 1), (3, 2)]}},
      canonOf (by decide +kernel), by decide +kernel, by decide +kernel, by decide +kernel, by decide +kernel,
      by decide +kernel, by decide +kernel⟩,
   ⟨.host, T.setFlag (Reg.fieldStbCfg 2) 2 true, ⟨by decide +kernel, by decide +kernel⟩, by decide +kernel,
      by decide +kernel, by decide +kernel, by decide +kernel⟩,
   ⟨[(0,900),(5,9)],
      {T.setReg Reg.pixDarkBaseLo 0x60000000 with pix := {T.pix with darkBusy := true, darkBand := 2}}, canonOf
      (by decide +kernel), by decide +kernel, by decide +kernel, by decide +kernel⟩,
   ⟨ex, {T with pix := {T.pix with pend := [ex]}}, by decide +kernel, by decide +kernel⟩,
   ⟨fm, {T with time := {T.time with pcyc := 5}, pix := {T.pix with cur := [fm]}}, by decide +kernel,
      by decide +kernel, by decide +kernel, by decide +kernel⟩,
   ⟨[(64, List.replicate 16 5)], fm, 0x51000000,
      {W with time := {T.time with pcyc := 300000}, pix := {T.pix with reading := some fm}}, canonOf
      (by decide +kernel), by decide +kernel, by decide +kernel, by decide +kernel, by decide +kernel,
      by decide +kernel⟩,
   ⟨2, 0,
      {(T.setReg (Reg.fieldStbCfg 2) 5).setReg (Reg.fieldStbWidth 2) 100 with field := {T.field with strobes := [(2, ⟨[0],none⟩)]}},
      by decide +kernel, by decide +kernel, by decide +kernel, by decide +kernel, by decide +kernel⟩,
   ⟨2, 0,
      {(T.setReg (Reg.fieldStbCfg 2) 5).setReg (Reg.fieldStbWidth 2) 100 with field := {T.field with strobes := [(2, ⟨[],some 0⟩)]}},
      by decide +kernel, by decide +kernel, by decide +kernel, by decide +kernel, by decide +kernel⟩,
   ⟨1, 0, {(T.setReg (Reg.fieldSyncCfg 1) 0x0007000A) with field := {T.field with syncs := [(1, ⟨[0],none⟩)]}},
      by decide +kernel, by decide +kernel, by decide +kernel, by decide +kernel⟩,
   ⟨1, 0, {(T.setReg (Reg.fieldSyncCfg 1) 0x0007000A) with field := {T.field with syncs := [(1, ⟨[],some 0⟩)]}},
      by decide +kernel, by decide +kernel, by decide +kernel, by decide +kernel, by decide +kernel⟩,
   ⟨(T.setReg (Reg.fieldSyncCfg 0) 0x00070004), by decide +kernel, by decide +kernel, by decide +kernel,
      by decide +kernel⟩⟩

/-- A state and operands for the hypotheses of each clause of RegionCommandsComplete. -/
theorem witness_RegionCommandsComplete :
    (∃ (es : List (BitVec 256)) (s : State), Canon s ∧ s.flag Reg.roiCtl 0 = true ∧ es.length ≤ 64 ∧ (∀ e ∈ es, ∃ f
      m, s.storedSeq (entryNum e 0 4) = some f ∧ entryOk f e = true ∧ matchRegion s f e = some m)) ∧
    (∃ (e : BitVec 256) (s : State), Canon s ∧ s.flag Reg.roiCtl 0 = true ∧ (∀ f, s.storedSeq (entryNum e 0 4) = some
      f → entryOk f e = false)) ∧
    (∃ (e : BitVec 256) (s : State), Canon s ∧ s.flag Reg.roiCtl 0 = true ∧ (∀ f, s.storedSeq (entryNum e 0 4) = some
      f → entryOk f e = false)) ∧
    (∃ (g : Option (BitVec 6 × Word)) (m : Matched) (rest : List Matched) (o : BitVec 6) (id : Word) (s : State),
      Canon s ∧ s.roi.matched = m :: rest ∧ cropParcel s m g = some (o, id) ∧ s.freeSlots ≠ []) ∧
    (∃ (g : Option (BitVec 6 × Word)) (m : Matched) (rest : List Matched) (o : BitVec 6) (id : Word) (s : State),
      Canon s ∧ s.roi.matched = m :: rest ∧ cropParcel s m g = some (o, id) ∧ s.freeSlots ≠ []) ∧
    (∃ (g : Option (BitVec 6 × Word)) (m : Matched) (rest : List Matched) (o : BitVec 6) (id : Word) (s : State),
      Canon s ∧ s.roi.matched = m :: rest ∧ cropParcel s m g = some (o, id) ∧ s.freeSlots = []) ∧
    (∃ (k : BitVec 9) (c : Crop) (s : State), Canon s ∧ smGet none s.roi.crops k.toNat = some c ∧ c.done = false) ∧
    (∃ (k : BitVec 9) (c : Crop) (fate : CropFate) (n : Nat) (s : State), Rising s.roi.crops ∧ smGet none s.roi.crops
      k.toNat = some c ∧ c.done = true ∧ ((c.owner = s.pkg ∧ c.commitNs = some n) ∨ (c.owner ≠ s.pkg ∧ ∃ ns, fate =
      .committed ns ∧ n = ns.toNat)) ∧ n + s.fld Reg.roiCropCfg 16 16 * 1000000 ≤ s.nowNs) ∧
    (∃ (k : BitVec 9) (c : Crop) (fate : CropFate) (n : Nat) (s : State), Rising s.roi.crops ∧ smGet none s.roi.crops
      k.toNat = some c ∧ c.done = true ∧ ((c.owner = s.pkg ∧ c.commitNs = some n) ∨ (c.owner ≠ s.pkg ∧ ∃ ns, fate =
      .committed ns ∧ n = ns.toNat)) ∧ n + s.fld Reg.roiCropCfg 16 16 * 1000000 ≤ s.nowNs) ∧
    (∃ (s : State), Served s ∧ s.roi.swap = false ∧ s.ruleData.toNat &&& ruleReserved = 0 ∧ s.roi.active1 = false) ∧
    (∃ (s : State), Served s ∧ s.roi.swap = false) ∧
    (∃ (s : State), Canon s ∧ Served s) ∧
    (∃ (s : State), s.roi.swap = true) ∧
    (∃ (p : BitVec 2) (w : Fin 8) (id : Word) (pb : Pos) (f : Frame) (s : State), Canon s ∧ s.storedFrame p.toNat =
      some f ∧ s.flag Reg.roiCtl 0 = true ∧ s.flag Reg.roiProfCfg (16 + p.toNat) = true) ∧
    (∃ (x : ProfilePoint) (q : Parcel) (s : State), s.roi.parcels = [q] ∧ x.parcel = q.id ∧ x.face = 1 ∧ inWindow
      s.margin q x.x2 = true) ∧
    (∃ (q : Parcel) (s : State), s.roi.parcels = [q] ∧ q.committed = false) ∧
    (∃ (p : BitVec 2) (s : State), Served s ∧ s.lifecycle = 1 ∧ s.flag Reg.fuseLifecycle 9 = true ∧ s.roi.diag = none) ∧
    (∃ (p : BitVec 2) (f : Frame) (a : Nat) (s : State), s.anchor = true ∧ s.host.bme = true ∧ s.roi.diag = some p ∧
      s.roi.diagSeq = some f.exp.seq ∧ s.storedSeq f.exp.seq.toNat = some f ∧ s.frameBase f = some a ∧ s.poisoned a
      f.size = false) ∧
    (∃ (c : Option (Fin 16)) (a : BitVec 48) (s : State), Canon s ∧ 0x800000000000 ≤ a.toNat) :=
  ⟨⟨[en1, en1], R0, canonOf (by decide +kernel), by decide +kernel, by decide +kernel, regions_listed⟩,
   ⟨5, R0, canonOf (by decide +kernel), by decide +kernel, fun f h => nomatch (show R0.storedSeq (entryNum 5 0 4) =
      none by decide +kernel).symm.trans h⟩,
   ⟨3, R0, canonOf (by decide +kernel), by decide +kernel, entry_bad⟩,
   ⟨none, m0, [m0], 1, 9, {R0 with roi := {R0.roi with matched := [m0,m0], parcels := [pc]}}, canonOf
      (by decide +kernel), by decide +kernel, by decide +kernel, by decide +kernel⟩,
   ⟨some (2, 5), m0, [m0], 2, 5, {R0 with roi := {R0.roi with matched := [m0,m0], parcels := []}}, canonOf
      (by decide +kernel), by decide +kernel, by decide +kernel, by decide +kernel⟩,
   ⟨none, m0, [m0], 1, 9,
      {R0.setReg Reg.roiCropCfg 0 with roi := {R0.roi with matched := [m0,m0], parcels := [pc], crops := [(0, some cr)]}},
      canonOf (by decide +kernel), by decide +kernel, by decide +kernel, by decide +kernel⟩,
   ⟨3, cr, {R0 with roi := {R0.roi with crops := [(3, some cr)], parcels := [pc]}}, canonOf (by decide +kernel),
      by decide +kernel, by decide +kernel⟩,
   ⟨3, {cr with done := true, commitNs := some 5}, .held, 5,
      {R0 with roi := {R0.roi with crops := [(3, some {cr with done := true, commitNs := some 5})], handed := [3], parcels := [pc]}},
      by decide +kernel, by decide +kernel, by decide +kernel, .inl ⟨by decide +kernel, by decide +kernel⟩,
      by decide +kernel⟩,
   ⟨3, {cr with owner := 2, done := true}, .committed 5, 5,
      {R0 with roi := {R0.roi with crops := [(3, some {cr with owner := 2, done := true})], handed := [3], parcels := [pc]}},
      by decide +kernel, by decide +kernel, by decide +kernel, .inr ⟨by decide +kernel, 5, rfl, rfl⟩,
      by decide +kernel⟩,
   ⟨(T.setReg Reg.roiRuleSel 3).setReg Reg.roiRuleData0 1, ⟨by decide +kernel, by decide +kernel⟩,
      by decide +kernel, by decide +kernel, by decide +kernel⟩,
   ⟨T, ⟨by decide +kernel, by decide +kernel⟩, by decide +kernel⟩,
   ⟨{T.setReg Reg.roiRuleSel 3 with roi := {Test.alone.roi with bank1 := [(3, 0x123456789ABCDEF0123456789ABCDEF)]}},
      canonOf (by decide +kernel), ⟨by decide +kernel, by decide +kernel⟩⟩,
   ⟨{T.setReg Reg.roiRuleSel 3 with roi := {Test.alone.roi with swap := true, bank1 := [(3, 0x123456789ABCDEF0123456789ABCDEF)]}},
      by decide +kernel⟩,
   ⟨1, 0, 9, 0, fm, R0.setFlag Reg.roiProfCfg 17 true |>.setFld Reg.roiProfCfg 0 12 100, canonOf
      (by decide +kernel), by decide +kernel, by decide +kernel, by decide +kernel⟩,
   ⟨⟨9,1,16,700,5⟩, pc, {R0 with roi := {R0.roi with parcels := [pc]}}, by decide +kernel, by decide +kernel,
      by decide +kernel, by decide +kernel⟩,
   ⟨pc, {R0 with roi := {R0.roi with parcels := [pc]}}, by decide +kernel, by decide +kernel⟩,
   ⟨1, (T.setReg Reg.fuseLifecycle 0x201), ⟨by decide +kernel, by decide +kernel⟩, by decide +kernel,
      by decide +kernel, by decide +kernel⟩,
   ⟨1, fm, 0x51000000, {R0 with roi := {R0.roi with diag := some 1, diagSeq := some 3}}, by decide +kernel,
      by decide +kernel, by decide +kernel, by decide +kernel, by decide +kernel, by decide +kernel,
      by decide +kernel⟩,
   ⟨some 3, 0x800000000100, T, canonOf (by decide +kernel), by decide +kernel⟩⟩

end Sys2Proof.Tests.Chunk06

namespace Sys2Proof.Tests.Chunk07

def E1 : State := T.setReg Reg.wfeCtl 1
def in1 : Integration := ⟨[(3, 700), (90, -20)], 100, 612, false⟩
def WB : State :=
    {(E1.setReg (Reg.wfeEntry 19) 0x00050000) with time := {T.time with pcyc := 600000000}, wfe := {T.wfe with b := {T.wfe.b with running := true, entry := 3}}}
def WA : State :=
    {(E1.setReg (Reg.wfeEntry 0) 0).setReg Reg.wfeWeightCfg 1 with time := {T.time with pcyc := 600000000}, wfe := {T.wfe with a := {T.wfe.a with running := true}}}

/-- A state and operands for the hypotheses of each clause of WeighCommandsComplete. -/
theorem witness_WeighCommandsComplete :
    (∃ (val : Word) (s : State), Canon s ∧ Served s ∧ s.flag Reg.wfeCtl 0 = false ∧ val.getLsbD 0 = true ∧
      wfeCtlVerdict s (val &&& 0x1F) = 0) ∧
    (∃ (sense : Option Nat) (s : State), s.wfeOn = true ∧ s.wfe.settled = false ∧ s.wfe.settledAt + s.settleP ≤
      s.time.pcyc ∧ (s.fld Reg.wfeCtl 2 2 = 2 → ∃ n, sense = some n ∧ s.settleP ≤ n)) ∧
    (∃ (sense : Option Nat) (s : State), s.wfeOn = true ∧ s.wfe.settled = false ∧ s.wfe.settledAt + s.settleP ≤
      s.time.pcyc ∧ (s.fld Reg.wfeCtl 2 2 = 2 → ∃ n, sense = some n ∧ s.settleP ≤ n)) ∧
    (∃ (s : State), Canon s ∧ s.anchor = true ∧ s.fieldOn = true ∧ s.flag Reg.wfeCtl 1 = true) ∧
    (∃ (k : Fin 2) (uv : Nat) (s : State), s.wfeOn = true ∧ s.cmpLevelAt k.val uv ≠ s.wfe.cmpOut.getLsbD k.val ∧
      s.cmpLevelAt k.val uv ≠ s.wfe.cmpLevel.getLsbD k.val ∧ 0 < s.cmpFilterP k.val) ∧
    (∃ (k : Fin 2) (uv n fp : Nat) (r : Bool) (s : State), Canon s ∧ s.wfeOn = true ∧ s.pllsRun = true ∧ s.barriers =
      [] ∧ s.cmpLevelAt k.val uv = r ∧ s.wfe.cmpLevel.getLsbD k.val ≠ r ∧ n + s.cmpFilterP k.val ≤ s.time.pcyc ∧
      ((s.wfe.cmpOut.getLsbD k.val = r ∧ smGet none s.wfe.cmpRuns k.val = some (n, fp)) ∨ (s.wfe.cmpOut.getLsbD k.val
      ≠ r ∧ n = s.time.pcyc ∧ fp = s.nowFp)) ∧ s.seqFld false 5 3 = 1 + 2 * k.val + (if r then 0 else 1) ∧
      s.wfe.a.inRun = false ∧ s.seqFld true 5 3 ≠ 1 + 2 * k.val + (if r then 0 else 1)) ∧
    (∃ (k : Fin 2) (uv n fp : Nat) (r : Bool) (s : State), Canon s ∧ s.wfeOn = true ∧ s.pllsRun = true ∧ s.barriers =
      [] ∧ s.cmpLevelAt k.val uv = r ∧ s.wfe.cmpLevel.getLsbD k.val ≠ r ∧ n + s.cmpFilterP k.val ≤ s.time.pcyc ∧
      ((s.wfe.cmpOut.getLsbD k.val = r ∧ smGet none s.wfe.cmpRuns k.val = some (n, fp)) ∨ (s.wfe.cmpOut.getLsbD k.val
      ≠ r ∧ n = s.time.pcyc ∧ fp = s.nowFp)) ∧ s.seqFld false 5 3 = 1 + 2 * k.val + (if r then 0 else 1) ∧
      s.wfe.a.inRun = false ∧ s.seqFld true 5 3 ≠ 1 + 2 * k.val + (if r then 0 else 1)) ∧
    (∃ (s : State), Served s ∧ s.wfeOn = true ∧ s.pllsRun = true ∧ s.seqFld false 5 3 = 0 ∧ s.wfe.a.inRun = false) ∧
    (∃ (s : State), Served s ∧ s.wfeOn = true ∧ s.pllsRun = true ∧ s.seqFld true 5 3 = 0 ∧ s.wfe.b.inRun = false) ∧
    (∃ (s : State), Served s) ∧
    (∃ (s : State), Served s) ∧
    (∃ (s : State), Served s) ∧
    (∃ (s : State), Served s) ∧
    (∃ (c : Bool) (n : Nat) (s : State), Canon s ∧ (s.wfe.conv c).startAt = some n ∧ n ≤ s.time.pcyc ∧ runVerdict s c
      = 0) ∧
    (∃ (c : Bool) (l hist : List Integration) (k : Nat) (w : Word) (one : Int) (s : State), Canon s ∧ (s.wfe.conv
      c).running = true ∧ (s.wfe.conv c).entry < 16 ∧ k = 16 * c.toNat + (s.wfe.conv c).entry ∧ w = s.entryWord c
      (s.wfe.conv c).entry ∧ (s.wfe.conv c).due s.mainsP w ≤ s.time.pcyc ∧ (s.wfe.conv c).done + 1 < eCount w ∧
      (s.wfe.conv c).entry ≠ s.fld Reg.wfeWeightCfg 4 4 ∧ hist = ((s.wfe.conv c).hist ++ l).drop (((s.wfe.conv c).hist
      ++ l).length - eK w * eParts w) ∧ one = (codeOfRaw s (s.wfe.slice c).val (eGain w) (entryRaw s.mainsP w hist)).1) ∧
    (∃ (l hist : List Integration) (w : Word) (one : Int) (s : State), Canon s ∧ s.wfe.a.running = true ∧
      s.wfe.a.entry = s.fld Reg.wfeWeightCfg 4 4 ∧ w = s.entryWord false s.wfe.a.entry ∧ eAvg w = false ∧ s.wfe.a.due
      s.mainsP w ≤ s.time.pcyc ∧ s.wfe.a.done + 1 = eCount w ∧ s.wfe.a.pass = 0 ∧ s.flag Reg.wfeWeightCfg 0 = true ∧
      s.flag Reg.wfeXchk 0 = false ∧ s.wfe.wq.length < 16 ∧ hist = (s.wfe.a.hist ++ l).drop ((s.wfe.a.hist ++
      l).length - eK w * eParts w) ∧ one = (codeOfRaw s s.wfe.sliceA.val (eGain w) (entryRaw s.mainsP w hist)).1) ∧
    (∃ (s : State), s.wfeOn = true ∧ s.nowNs % 2000000000 < 3 ∧ s.flag Reg.wfeCtl 4 = true ∧ s.wfe.calFail.getLsbD
      s.wfe.sliceE.val = false) ∧
    (∃ (n : Nat) (s : State), s.wfe.elfReady = some n ∧ n + 80000 ≤ s.time.pcyc ∧ s.wfeOn = true ∧ s.flag Reg.wfeCtl
      4 = true ∧ s.wfe.rotWait = true ∧ (s.wfe.conv s.wfe.nextConv).inRun = false) ∧
    (∃ (short ref : Integration) (p : Int × Int) (s : State), Canon s ∧ s.wfeOn = true ∧ s.wfe.calBusy = true ∧
      s.wfe.calAt + 2 * (s.mainsP + 80000) ≤ s.time.pcyc ∧ s.calGains = [0] ∧ coefficients (s.calRaw short) (s.calRaw
      ref) = some p) :=
  ⟨⟨1, T, canonOf (by decide +kernel), ⟨by decide +kernel, by decide +kernel⟩, by decide +kernel,
      by decide +kernel, by decide +kernel⟩,
   ⟨none, {E1 with time := {T.time with pcyc := 800000}}, by decide +kernel, by decide +kernel, by decide +kernel,
      fun h => absurd h (by decide +kernel)⟩,
   ⟨some 400000, {E1.setReg Reg.wfeCtl 9 with time := {T.time with pcyc := 800000}}, by decide +kernel,
      by decide +kernel, by decide +kernel, fun _ => ⟨400000, rfl, by decide +kernel⟩⟩,
   ⟨T.setReg Reg.wfeCtl 3, canonOf (by decide +kernel), by decide +kernel, by decide +kernel, by decide +kernel⟩,
   ⟨0, 2000000, E1.setReg Reg.wfeCmpCfg 0x432, by decide +kernel, by decide +kernel, by decide +kernel,
      by decide +kernel⟩,
   ⟨1, 2000000, 0, E1.nowFp, true, (E1.setReg Reg.wfeCmpCfg 0x320032).setReg Reg.wfeSeqCfg (3 * 2^5), canonOf
      (by decide +kernel), by decide +kernel, by decide +kernel, by decide +kernel, by decide +kernel,
      by decide +kernel, by decide +kernel, by decide +kernel, by decide +kernel, by decide +kernel,
      by decide +kernel⟩,
   ⟨0, 0, 4, 9, false,
      {(E1.setReg Reg.wfeCmpCfg 0x320432).setReg Reg.wfeSeqCfg (2 * 2^5) with time := {T.time with pcyc := 260}, wfe := {T.wfe with cmpLevel := 1, cmpRuns := [(0, some (4, 9))]}},
      canonOf (by decide +kernel), by decide +kernel, by decide +kernel, by decide +kernel, by decide +kernel,
      by decide +kernel, by decide +kernel, by decide +kernel, by decide +kernel, by decide +kernel,
      by decide +kernel⟩,
   ⟨E1, ⟨by decide +kernel, by decide +kernel⟩, by decide +kernel, by decide +kernel, by decide +kernel,
      by decide +kernel⟩,
   ⟨E1, ⟨by decide +kernel, by decide +kernel⟩, by decide +kernel, by decide +kernel, by decide +kernel,
      by decide +kernel⟩,
   ⟨E1, ⟨by decide +kernel, by decide +kernel⟩⟩,
   ⟨E1, ⟨by decide +kernel, by decide +kernel⟩⟩,
   ⟨E1, ⟨by decide +kernel, by decide +kernel⟩⟩,
   ⟨E1, ⟨by decide +kernel, by decide +kernel⟩⟩,
   ⟨true, 5, {E1 with time := {T.time with pcyc := 6}, wfe := {T.wfe with b := {T.wfe.b with startAt := some 5}}},
      canonOf (by decide +kernel), by decide +kernel, by decide +kernel, by decide +kernel⟩,
   ⟨true, [in1], [in1], 19, 0x00050000, (codeOfRaw WB (WB.wfe.slice true).val (eGain 0x00050000) (entryRaw
      WB.mainsP 0x00050000 [in1])).1, WB, canonOf (by decide +kernel), by decide +kernel, by decide +kernel,
      by decide +kernel, by decide +kernel, by decide +kernel, by decide +kernel, by decide +kernel,
      by decide +kernel, rfl⟩,
   ⟨[in1], [in1], 0, (codeOfRaw WA WA.wfe.sliceA.val (eGain 0) (entryRaw WA.mainsP 0 [in1])).1, WA, canonOf
      (by decide +kernel), by decide +kernel, by decide +kernel, by decide +kernel, by decide +kernel,
      by decide +kernel, by decide +kernel, by decide +kernel, by decide +kernel, by decide +kernel,
      by decide +kernel, by decide +kernel, rfl⟩,
   ⟨{E1.setReg Reg.wfeCtl 17 with time := {T.time with belt := 2000000000 * 65536}}, by decide +kernel,
      by decide +kernel, by decide +kernel, by decide +kernel⟩,
   ⟨5,
      {E1.setReg Reg.wfeCtl 17 with time := {T.time with pcyc := 80005}, wfe := {T.wfe with elfReady := some 5, rotWait := true}},
      by decide +kernel, by decide +kernel, by decide +kernel, by decide +kernel, by decide +kernel,
      by decide +kernel⟩,
   ⟨⟨[], 5, 5, false⟩, ⟨[(0, 75000)], 7, 7, false⟩, (0, 2 ^ 30),
      {E1 with time := {T.time with pcyc := 900000000}, wfe := {T.wfe with calBusy := true}}, canonOf
      (by decide +kernel), by decide +kernel, by decide +kernel, by decide +kernel, by decide +kernel,
      by decide +kernel⟩⟩

end Sys2Proof.Tests.Chunk07

namespace Sys2Proof.Tests.Chunk08

def W := Test.woven
def C : State := (((W.setReg (Reg.coreSpStatus 2) 0xFFF).setReg (Reg.coreSpWheelLo 2) 0x76543215).setReg
    (Reg.coreSpWheelHi 2) 0xB0000A98).setReg (Reg.coreArrayStatus 2 1) 2
def CQ : State := ((C.setReg (Reg.coreArrayStatus 2 0) 2).setReg (Reg.coreArrayStatus 2 2) 2).setReg
    (Reg.coreArrayStatus 2 3) 2
def acc (p : SpPort) (cy : Nat) (off : BitVec 20) (d : List Byte) : SpAccess := ⟨p, cy, off, d, none, none, none,
    false, []⟩
def row512 : List Byte := (List.range 512).map (fun k => BitVec.ofNat 8 (k % 251))
def M (a : Nat) (l : List Byte) (s : State) : State := wrMem a l s
def D : State := M (spAddr 2 0x400) [1, 2, 3] C
def setC (s : State) (f : CoreState → CoreState) : State := s.setCore 2 (f (s.core 2))
def pw : BitVec 64 := BitVec.ofNat 64 (3 * 2^8 + 1 * 2^10 + 3 * 2^12 + 3 * 2^22 + 3*2^28)
def CP : State := [0, 1, 2, 3].foldl (fun s q => (s.setReg (Reg.coreSpQwheelLo 2 q) 0x76543215).setReg
    (Reg.coreSpQwheelHi 2 q) 0xB0000A98) (setC D (fun c => {c with part := true}))
def A1 (s : State) (f : ArrayState → ArrayState) : State := s.setArray 2 1 (f (s.arr 2 1))
def pr : PassRec := {word := pw, seq := 4, mode := 0, k := 0, exact := [[1,2]], made := [[1,2]], sums := [], tcol := 0}
def fld (lo v : Nat) : Nat := v * 2^(8*lo)
def cd : Desc := BitVec.ofNat 512 (1 + fld 12 1 + fld 24 1 + fld 26 1 + fld 32 0x800 + fld 36 0x1000 )
def fd : Desc := BitVec.ofNat 512 (1 + 2^18 + fld 6 8 + fld 8 8 + fld 12 1 + fld 14 8 + fld 15 8 + fld 24 1 + fld 26 1 +
    fld 32 0x2000 + fld 36 0x1000 + fld 40 0x8000)
def rd : Desc := BitVec.ofNat 512 (2 + fld 24 1 + fld 26 1 + fld 36 0x1000)
def st : SMap Byte := [(0, 30), (1, 122), (2, 1), (3, 1), (4, 1), (9, 2), (16, 64), (60, 248), (61, 125), (62, 73),
    (63, 250), (64, 1),
  (65, 1), (67, 2), (68, 1), (72, 192), (73, 237), (74, 252), (75, 48), (80, 60)]
def px : PlaitXfer := ⟨0x50000000, 0x400, 512, 1, 1, false, false, none, none, [], []⟩
def PS : State := { C.setReg Reg.plaitCtl 1 with mem := st.map (fun p => (0x50000000 + p.1, p.2)) }
def PR : PlaitRead := plaitRead (PS.plaitSrc 2 px) (leAt (bytesOf (PS.plaitSrc 2 px 0 64)) 3 1)
    (leAt (bytesOf (PS.plaitSrc 2 px 0 64)) 4 4) 1 0 (subsOf (bytesOf (PS.plaitSrc 2 px 0 64))) 512

/-- A state and operands for the hypotheses of each clause of ScratchpadCommandsComplete. -/
theorem witness_ScratchpadCommandsComplete :
    (∃ (n : Fin 16) (a : SpAccess) (q : Option (Fin 4)) (s : State), Canon s ∧ s.weaveActive = true ∧ q = (if
      s.partitioned n.val then a.quarter else none) ∧ (s.partitioned n.val = true → q.isSome = true) ∧ a.port ≠ .r ∧
      a.port ≠ .xi ∧ a.port ≠ .xo ∧ a.region = none ∧ a.data.length = (if q.isSome then 128 else 512) ∧ s.ownsSlot
      n.val a.port q a.cycle = true ∧ spJudge s n.val .row a.offset.toNat q none true = 0) ∧
    (∃ (n : Fin 16) (a : SpAccess) (q : Option (Fin 4)) (s : State), Canon s ∧ s.weaveActive = true ∧ q = (if
      s.partitioned n.val then a.quarter else none) ∧ (s.partitioned n.val = true → q.isSome = true) ∧ a.port ≠ .r ∧
      a.port ≠ .xi ∧ a.port ≠ .xo ∧ a.region = none ∧ a.data.length = (if q.isSome then 128 else 512) ∧ s.ownsSlot
      n.val a.port q a.cycle = true ∧ spJudge s n.val .row a.offset.toNat q none true = 0) ∧
    (∃ (n : Fin 16) (a : SpAccess) (q : Option (Fin 4)) (s : State), s.weaveActive = true ∧ q = (if s.partitioned
      n.val then a.quarter else none) ∧ (s.partitioned n.val = true → q.isSome = true) ∧ a.port ≠ .r ∧ a.port ≠ .xi ∧
      a.port ≠ .xo ∧ a.region = none ∧ a.data = [] ∧ a.upsets = [] ∧ s.ownsSlot n.val a.port q a.cycle = true ∧
      spJudge s n.val .row a.offset.toNat q none false = 0) ∧
    (∃ (n : Fin 16) (a : SpAccess) (q : Option (Fin 4)) (s : State), s.weaveActive = true ∧ q = (if s.partitioned
      n.val then a.quarter else none) ∧ (s.partitioned n.val = true → q.isSome = true) ∧ a.port ≠ .r ∧ a.port ≠ .xi ∧
      a.port ≠ .xo ∧ a.region = none ∧ a.data = [] ∧ a.upsets = [] ∧ s.ownsSlot n.val a.port q a.cycle = true ∧
      spJudge s n.val .row a.offset.toNat q none false = 0) ∧
    (∃ (n : Fin 16) (a : SpAccess) (r : RegionRef) (s : State), Canon s ∧ s.weaveActive = true ∧ s.partitioned n.val
      = false ∧ a.port ≠ .r ∧ a.port ≠ .xi ∧ a.port ≠ .xo ∧ a.region = some r ∧ a.data.length = 512 ∧ s.rgnLen n.val
      r.region.val ≠ 0 ∧ s.ownsSlot n.val a.port none a.cycle = true ∧ spJudge s n.val .row a.offset.toNat none (some
      r) true = 0) ∧
    (∃ (n : Fin 16) (a : SpAccess) (m : BitVec 32) (q : Option (Fin 4)) (s : State), Canon s ∧ s.weaveActive = true ∧
      q = (if s.partitioned n.val then a.quarter else none) ∧ (s.partitioned n.val = true → q.isSome = true) ∧ a.port
      ≠ .r ∧ a.port ≠ .xi ∧ a.port ≠ .xo ∧ a.region = none ∧ a.data.length = 512 ∧ s.ownsSlot n.val a.port q a.cycle =
      true ∧ spJudge s n.val (.rowMasked m) a.offset.toNat q none true = 0) ∧
    (∃ (n : Fin 16) (a : SpAccess) (m : BitVec 32) (q : Option (Fin 4)) (s : State), Canon s ∧ s.weaveActive = true ∧
      q = (if s.partitioned n.val then a.quarter else none) ∧ (s.partitioned n.val = true → q.isSome = true) ∧ a.port
      ≠ .r ∧ a.port ≠ .xi ∧ a.port ≠ .xo ∧ a.region = none ∧ a.data.length = 512 ∧ s.ownsSlot n.val a.port q a.cycle =
      true ∧ spJudge s n.val (.rowMasked m) a.offset.toNat q none true = 0) ∧
    (∃ (n : Fin 16) (a : SpAccess) (tr : Bool) (e : Nat) (q : Option (Fin 4)) (s : State), s.weaveActive = true ∧ q =
      (if s.partitioned n.val then a.quarter else none) ∧ (s.partitioned n.val = true → q.isSome = true) ∧ (s.core
      n.val).gDirty = 0 ∧ a.port ≠ .r ∧ a.port ≠ .xi ∧ a.port ≠ .xo ∧ a.region = none ∧ a.data = [] ∧ a.upsets = [] ∧
      s.ownsSlot n.val a.port q a.cycle = true ∧ spJudge s n.val (.column tr e) a.offset.toNat q none false = 0) ∧
    (∃ (n : Fin 16) (a : SpAccess) (tr : Bool) (e : Nat) (q : Option (Fin 4)) (s : State), s.weaveActive = true ∧ q =
      (if s.partitioned n.val then a.quarter else none) ∧ (s.partitioned n.val = true → q.isSome = true) ∧ (s.core
      n.val).gDirty = 0 ∧ a.port ≠ .r ∧ a.port ≠ .xi ∧ a.port ≠ .xo ∧ a.region = none ∧ a.data = [] ∧ a.upsets = [] ∧
      s.ownsSlot n.val a.port q a.cycle = true ∧ spJudge s n.val (.column tr e) a.offset.toNat q none false = 0) ∧
    (∃ (n : Fin 16) (a : SpAccess) (tr : Bool) (e : Nat) (q : Option (Fin 4)) (s : State), s.weaveActive = true ∧ q =
      (if s.partitioned n.val then a.quarter else none) ∧ (s.partitioned n.val = true → q.isSome = true) ∧ (s.core
      n.val).gDirty = 0 ∧ a.port ≠ .r ∧ a.port ≠ .xi ∧ a.port ≠ .xo ∧ a.region = none ∧ a.data = [] ∧ a.upsets = [] ∧
      s.ownsSlot n.val a.port q a.cycle = true ∧ spJudge s n.val (.column tr e) a.offset.toNat q none false = 0) ∧
    (∃ (n : Fin 16) (a : SpAccess) (tr : Bool) (e : Nat) (q : Option (Fin 4)) (s : State), Canon s ∧ s.weaveActive =
      true ∧ q = (if s.partitioned n.val then a.quarter else none) ∧ (s.partitioned n.val = true → q.isSome = true) ∧
      (s.core n.val).gDirty = 0 ∧ a.port ≠ .r ∧ a.port ≠ .xi ∧ a.port ≠ .xo ∧ a.region = none ∧ a.data.length = 16 *
      colRows q.isSome ∧ s.ownsSlot n.val a.port q a.cycle = true ∧ spJudge s n.val (.column tr e) a.offset.toNat q
      none true = 0) ∧
    (∃ (n : Fin 16) (a : SpAccess) (tr : Bool) (e : Nat) (q : Option (Fin 4)) (s : State), Canon s ∧ s.weaveActive =
      true ∧ q = (if s.partitioned n.val then a.quarter else none) ∧ (s.partitioned n.val = true → q.isSome = true) ∧
      (s.core n.val).gDirty = 0 ∧ a.port ≠ .r ∧ a.port ≠ .xi ∧ a.port ≠ .xo ∧ a.region = none ∧ a.data.length = 16 *
      colRows q.isSome ∧ s.ownsSlot n.val a.port q a.cycle = true ∧ spJudge s n.val (.column tr e) a.offset.toNat q
      none true = 0) ∧
    (∃ (n : Fin 16) (a : SpAccess) (tr : Bool) (e : Nat) (q : Option (Fin 4)) (s : State), Canon s ∧ s.weaveActive =
      true ∧ q = (if s.partitioned n.val then a.quarter else none) ∧ (s.partitioned n.val = true → q.isSome = true) ∧
      (s.core n.val).gDirty = 0 ∧ a.port ≠ .r ∧ a.port ≠ .xi ∧ a.port ≠ .xo ∧ a.region = none ∧ a.data.length = 16 *
      colRows q.isSome ∧ s.ownsSlot n.val a.port q a.cycle = true ∧ spJudge s n.val (.column tr e) a.offset.toNat q
      none true = 0) ∧
    (∃ (n : Fin 16) (a : SpAccess) (len : Nat) (s : State), s.weaveActive = true ∧ (s.core n.val).gWait = none ∧
      a.port = .g ∧ a.offset.toNat % 64 + len ≤ 64 ∧ len ≠ 0 ∧ a.offset.toNat < 0xC0000 ∧ s.segOn n.val
      (a.offset.toNat / 512) = true ∧ (s.core n.val).gTag = some (a.offset.toNat / 64) ∧ a.data = []) ∧
    (∃ (n : Fin 16) (a : SpAccess) (s : State), Canon s ∧ s.weaveActive = true ∧ (s.core n.val).gWait = none ∧ a.port
      = .g ∧ a.offset.toNat % 64 + a.data.length ≤ 64 ∧ a.data ≠ [] ∧ a.offset.toNat < 0xC0000 ∧ s.segOn n.val
      (a.offset.toNat / 512) = true ∧ (s.core n.val).gTag = some (a.offset.toNat / 64) ∧ (s.core n.val).gBuf.length =
      64) ∧
    (∃ (n : Fin 16) (a : SpAccess) (len : Nat) (s : State), Canon s ∧ s.weaveActive = true ∧ (s.core n.val).gWait =
      none ∧ a.port = .g ∧ a.offset.toNat % 64 + len ≤ 64 ∧ len ≠ 0 ∧ a.offset.toNat < 0xC0000 ∧ s.segOn n.val
      (a.offset.toNat / 512) = true ∧ (s.core n.val).gTag ≠ some (a.offset.toNat / 64)) ∧
    (∃ (n : Fin 16) (a : SpAccess) (len : Nat) (s : State), Canon s ∧ s.weaveActive = true ∧ (s.core n.val).gWait =
      none ∧ a.port = .g ∧ a.offset.toNat % 64 + len ≤ 64 ∧ len ≠ 0 ∧ a.offset.toNat < 0xC0000 ∧ s.segOn n.val
      (a.offset.toNat / 512) = true ∧ (s.core n.val).gTag ≠ some (a.offset.toNat / 64)) ∧
    (∃ (n : Fin 16) (a : SpAccess) (len cycle : Nat) (s : State), Canon s ∧ s.weaveActive = true ∧ (s.core
      n.val).gWait = some (a, len) ∧ (s.core n.val).gDirty = 0 ∧ a.offset.toNat % 64 + len ≤ 64 ∧ a.data = [] ∧
      s.ownsSlot n.val .g (s.blockQuarter n.val (a.offset.toNat / 64)) cycle = true) ∧
    (∃ (n : Fin 16) (b cycle : Nat) (s : State), Canon s ∧ s.weaveActive = true ∧ (s.core n.val).gTag = some b ∧
      (s.core n.val).gDirty ≠ 0 ∧ (s.core n.val).gBuf.length = 64 ∧ ((s.core n.val).gWait = none → (s.core
      n.val).gLast + 16 < cycle) ∧ s.ownsSlot n.val .g (s.blockQuarter n.val b) cycle = true ∧ ((s.core n.val).gFresh
      = true ∨ (s.core n.val).gDirty = BitVec.allOnes 64)) ∧
    (∃ (n : Fin 16) (b cycle : Nat) (s : State), Canon s ∧ s.weaveActive = true ∧ (s.core n.val).gTag = some b ∧
      (s.core n.val).gDirty ≠ 0 ∧ (s.core n.val).gBuf.length = 64 ∧ ((s.core n.val).gWait = none → (s.core
      n.val).gLast + 16 < cycle) ∧ s.ownsSlot n.val .g (s.blockQuarter n.val b) cycle = true ∧ ((s.core n.val).gFresh
      = true ∨ (s.core n.val).gDirty = BitVec.allOnes 64)) ∧
    (∃ (n : Fin 16) (b cycle : Nat) (s : State), Canon s ∧ s.weaveActive = true ∧ (s.core n.val).gTag = some b ∧
      (s.core n.val).gDirty ≠ 0 ∧ (s.core n.val).gBuf.length = 64 ∧ ((s.core n.val).gWait = none → (s.core
      n.val).gLast + 16 < cycle) ∧ s.ownsSlot n.val .g (s.blockQuarter n.val b) cycle = true ∧ (s.core n.val).gFresh =
      false ∧ (s.core n.val).gDirty ≠ BitVec.allOnes 64) ∧
    (∃ (n : Fin 16) (q : RReq) (rest : List RReq) (m : Fin 16) (cycle : Nat) (s : State), Canon s ∧ s.weaveRuns =
      true ∧ cycle % 16 = 15 ∧ s.ownsSlot n.val .r none cycle = true ∧ s.filling n.val = false ∧ (∀ k < 16, (s.core
      k).outq = [] ∧ (s.core k).outKnot = none) ∧ Rising (s.core m.val).fetched ∧ (s.core n.val).rq = q :: rest ∧
      q.issuer = .core m ∧ q.kind = .row ∧ q.write = false ∧ (s.core n.val).gDirty = 0 ∧ rVerdict s n.val q = 0) ∧
    (∃ (n : Fin 16) (q : RReq) (rest : List RReq) (cycle : Nat) (s : State), Canon s ∧ s.weaveRuns = true ∧ cycle %
      16 = 15 ∧ s.ownsSlot n.val .r none cycle = true ∧ s.filling n.val = false ∧ (∀ k < 16, (s.core k).outq = [] ∧
      (s.core k).outKnot = none) ∧ (s.core n.val).rq = q :: rest ∧ q.issuer = .steward ∧ q.kind = .row ∧ q.write =
      false ∧ rVerdict s n.val q = 0) ∧
    (∃ (n : Fin 16) (q : RReq) (rest : List RReq) (p : BitVec 6) (cycle : Nat) (s : State), Canon s ∧ s.weaveRuns =
      true ∧ cycle % 16 = 15 ∧ s.ownsSlot n.val .r none cycle = true ∧ s.filling n.val = false ∧ (∀ k < 16, (s.core
      k).outq = [] ∧ (s.core k).outKnot = none) ∧ (s.core n.val).rq = q :: rest ∧ q.issuer = .remote p ∧ q.kind = .row
      ∧ q.write = true ∧ q.data.length = q.len ∧ rVerdict s n.val q = 0) ∧
    (∃ (n : Fin 16) (cycle : Nat) (s : State), Canon s ∧ s.flag (Reg.coreSpCeAddr n.val) 31 = true ∧ s.slotIdle n.val
      cycle = true) :=
  ⟨⟨2, acc .s 6 0x400 row512, none, C, canonOf (by decide +kernel), by decide +kernel, by decide +kernel,
      by decide +kernel, by decide +kernel, by decide +kernel, by decide +kernel, by decide +kernel,
      by decide +kernel, by decide +kernel, by decide +kernel⟩,
   ⟨2, {acc .s 6 0x480 (List.replicate 128 7) with quarter := some 1}, some 1, CP, canonOf (by decide +kernel),
      by decide +kernel, by decide +kernel, by decide +kernel, by decide +kernel, by decide +kernel,
      by decide +kernel, by decide +kernel, by decide +kernel, by decide +kernel, by decide +kernel⟩,
   ⟨2, acc .d 16 0x400 [], none, D, by decide +kernel, by decide +kernel, by decide +kernel, by decide +kernel,
      by decide +kernel, by decide +kernel, by decide +kernel, by decide +kernel, by decide +kernel,
      by decide +kernel, by decide +kernel⟩,
   ⟨2, {acc .d 16 0x480 [] with quarter := some 1}, some 1, CP, by decide +kernel, by decide +kernel,
      by decide +kernel, by decide +kernel, by decide +kernel, by decide +kernel, by decide +kernel,
      by decide +kernel, by decide +kernel, by decide +kernel, by decide +kernel⟩,
   ⟨2, {acc .s 6 0 row512 with region := some ⟨3, 0, 1, 0⟩}, ⟨3, 0, 1, 0⟩, C.setReg (Reg.coreSpRgnCfg 2 3) 0x40005,
      canonOf (by decide +kernel), by decide +kernel, by decide +kernel, by decide +kernel, by decide +kernel,
      by decide +kernel, by decide +kernel, by decide +kernel, by decide +kernel, by decide +kernel,
      by decide +kernel⟩,
   ⟨2, acc .s 6 0x400 row512, 0x80010003, none, M (spAddr 2 0x400) [7] C, canonOf (by decide +kernel),
      by decide +kernel, by decide +kernel, by decide +kernel, by decide +kernel, by decide +kernel,
      by decide +kernel, by decide +kernel, by decide +kernel, by decide +kernel, by decide +kernel⟩,
   ⟨2, {acc .s 6 0x400 row512 with quarter := some 1}, 0x300, some 1, CP, canonOf (by decide +kernel),
      by decide +kernel, by decide +kernel, by decide +kernel, by decide +kernel, by decide +kernel,
      by decide +kernel, by decide +kernel, by decide +kernel, by decide +kernel, by decide +kernel⟩,
   ⟨2, acc .v 7 0x410 [], false, 1, none, D, by decide +kernel, by decide +kernel, by decide +kernel,
      by decide +kernel, by decide +kernel, by decide +kernel, by decide +kernel, by decide +kernel,
      by decide +kernel, by decide +kernel, by decide +kernel, by decide +kernel⟩,
   ⟨2, acc .v 7 0x410 [], true, 2, none, D, by decide +kernel, by decide +kernel, by decide +kernel,
      by decide +kernel, by decide +kernel, by decide +kernel, by decide +kernel, by decide +kernel,
      by decide +kernel, by decide +kernel, by decide +kernel, by decide +kernel⟩,
   ⟨2, {acc .v 7 0x490 [] with quarter := some 1}, false, 4, some 1, CP, by decide +kernel, by decide +kernel,
      by decide +kernel, by decide +kernel, by decide +kernel, by decide +kernel, by decide +kernel,
      by decide +kernel, by decide +kernel, by decide +kernel, by decide +kernel, by decide +kernel⟩,
   ⟨2, acc .v 7 0x410 row512, false, 1, none, D, canonOf (by decide +kernel), by decide +kernel, by decide +kernel,
      by decide +kernel, by decide +kernel, by decide +kernel, by decide +kernel, by decide +kernel,
      by decide +kernel, by decide +kernel, by decide +kernel, by decide +kernel⟩,
   ⟨2, acc .v 7 0x410 row512, true, 4, none, D, canonOf (by decide +kernel), by decide +kernel, by decide +kernel,
      by decide +kernel, by decide +kernel, by decide +kernel, by decide +kernel, by decide +kernel,
      by decide +kernel, by decide +kernel, by decide +kernel, by decide +kernel⟩,
   ⟨2, {acc .v 7 0x490 (List.replicate 128 7) with quarter := some 1}, false, 4, some 1, CP, canonOf
      (by decide +kernel), by decide +kernel, by decide +kernel, by decide +kernel, by decide +kernel,
      by decide +kernel, by decide +kernel, by decide +kernel, by decide +kernel, by decide +kernel,
      by decide +kernel, by decide +kernel⟩,
   ⟨2, acc .g 10 0x445 [], 13, setC D (fun c => {c with gTag := some 17, gBuf := List.replicate 64 (9, false)}),
      by decide +kernel, by decide +kernel, by decide +kernel, by decide +kernel, by decide +kernel,
      by decide +kernel, by decide +kernel, by decide +kernel, by decide +kernel⟩,
   ⟨2, acc .g 10 0x445 [1,2,3], setC D (fun c => {c with gTag := some 17, gBuf := List.replicate 64 (9, false)}),
      canonOf (by decide +kernel), by decide +kernel, by decide +kernel, by decide +kernel, by decide +kernel,
      by decide +kernel, by decide +kernel, by decide +kernel, by decide +kernel, by decide +kernel⟩,
   ⟨2, acc .g 10 0x445 [], 13, D, canonOf (by decide +kernel), by decide +kernel, by decide +kernel,
      by decide +kernel, by decide +kernel, by decide +kernel, by decide +kernel, by decide +kernel,
      by decide +kernel⟩,
   ⟨2, acc .g 10 0x445 [], 13, setC D (fun c =>
      {c with gTag := some 18, gBuf := List.replicate 64 (9, false), gDirty := 1}), canonOf (by decide +kernel),
      by decide +kernel, by decide +kernel, by decide +kernel, by decide +kernel, by decide +kernel,
      by decide +kernel, by decide +kernel, by decide +kernel⟩,
   ⟨2, acc .g 0 0x445 [], 13, 26, setC D (fun c => {c with gWait := some (acc .g 0 0x445 [], 13)}), canonOf
      (by decide +kernel), by decide +kernel, by decide +kernel, by decide +kernel, by decide +kernel,
      by decide +kernel, by decide +kernel⟩,
   ⟨2, 17, 26, setC D (fun c =>
      {c with gTag := some 17, gBuf := List.replicate 64 (9, false), gDirty := BitVec.allOnes 64}), canonOf
      (by decide +kernel), by decide +kernel, by decide +kernel, by decide +kernel, by decide +kernel,
      by decide +kernel, by decide +kernel, by decide +kernel⟩,
   ⟨2, 17, 26, setC D (fun c =>
      {c with gTag := some 17, gBuf := List.replicate 64 (9, false), gDirty := 0xFF, gFresh := true}), canonOf
      (by decide +kernel), by decide +kernel, by decide +kernel, by decide +kernel, by decide +kernel,
      by decide +kernel, by decide +kernel, by decide +kernel⟩,
   ⟨2, 17, 26, setC D (fun c => {c with gTag := some 17, gBuf := List.replicate 64 (9, false), gDirty := 0xFF}),
      canonOf (by decide +kernel), by decide +kernel, by decide +kernel, by decide +kernel, by decide +kernel,
      by decide +kernel, by decide +kernel, by decide +kernel, by decide +kernel⟩,
   ⟨2, ⟨.core 3, .row, 0x420, false, 64, []⟩, [], 3, 15, setC D (fun c =>
      {c with rq := [⟨.core 3, .row, 0x420, false, 64, []⟩]}), canonOf (by decide +kernel), by decide +kernel,
      by decide +kernel, by decide +kernel, by decide +kernel, by decide +kernel, by decide +kernel,
      by decide +kernel, by decide +kernel, by decide +kernel, by decide +kernel, by decide +kernel,
      by decide +kernel⟩,
   ⟨2, ⟨.steward, .row, 0x400, false, 512, []⟩, [], 15, setC D (fun c =>
      {c with rq := [⟨.steward, .row, 0x400, false, 512, []⟩]}), canonOf (by decide +kernel), by decide +kernel,
      by decide +kernel, by decide +kernel, by decide +kernel, by decide +kernel, by decide +kernel,
      by decide +kernel, by decide +kernel, by decide +kernel, by decide +kernel⟩,
   ⟨2, ⟨.remote 3, .row, 0x420, true, 4, clean [1, 2, 3, 4]⟩, [], 3, 15, setC D (fun c =>
      {c with rq := [⟨.remote 3, .row, 0x420, true, 4, clean [1, 2, 3, 4]⟩]}), canonOf (by decide +kernel),
      by decide +kernel, by decide +kernel, by decide +kernel, by decide +kernel, by decide +kernel,
      by decide +kernel, by decide +kernel, by decide +kernel, by decide +kernel, by decide +kernel,
      by decide +kernel⟩,
   ⟨2, 3, C.setReg (Reg.coreSpCeAddr 2) 0x80000005, canonOf (by decide +kernel), by decide +kernel,
      by decide +kernel⟩⟩

/-- A state and operands for the hypotheses of each clause of ArrayCommandsComplete. -/
theorem witness_ArrayCommandsComplete :
    (∃ (n : Fin 16) (w : BitVec 64) (cycle : Nat) (errs : List PassError) (s : State), Canon s ∧ s.weaveActive = true
      ∧ (s.core n.val).runs = [] ∧ (s.core n.val).landings = [] ∧ passVerdict s n.val w cycle = 0 ∧ pApx w = 0 ∧
      (gangUnits (pGang w) (pSel w)).all (fun b => !s.stepReady n.val (pGang w) b w) = true) ∧
    (∃ (n : Fin 16) (a : Fin 4) (bc : Option (Fin 4)) (col : Bool) (off : BitVec 20) (cycle : Nat) (s : State), Canon
      s ∧ s.weaveActive = true ∧ s.ownsSlot n.val (feedPort a.val) none cycle = true ∧ (s.core n.val).runs = [] ∧
      (s.core n.val).landings = [] ∧ Rising (s.core n.val).arrays ∧ (∀ b ∈ feedArrays a.val bc, (s.arr n.val b).rowq =
      []) ∧ (col = true → (s.core n.val).gDirty = 0) ∧ spJudge s n.val (if col then .column false 1 else .row)
      off.toNat none none false = 0 ∧ partVerdict s n.val (feedPort a.val) (if col then .column false 1 else .row)
      none cycle = 0) ∧
    (∃ (n : Fin 16) (a : Fin 4) (bc : Option (Fin 4)) (col : Bool) (off : BitVec 20) (cycle : Nat) (s : State), Canon
      s ∧ s.weaveActive = true ∧ s.ownsSlot n.val (feedPort a.val) none cycle = true ∧ (s.core n.val).runs = [] ∧
      (s.core n.val).landings = [] ∧ Rising (s.core n.val).arrays ∧ (∀ b ∈ feedArrays a.val bc, (s.arr n.val b).rowq =
      []) ∧ (col = true → (s.core n.val).gDirty = 0) ∧ spJudge s n.val (if col then .column false 1 else .row)
      off.toNat none none false = 0 ∧ partVerdict s n.val (feedPort a.val) (if col then .column false 1 else .row)
      none cycle = 0) ∧
    (∃ (n : Fin 16) (a : Fin 4) (bc : Option (Fin 4)) (col : Bool) (off : BitVec 20) (cycle : Nat) (s : State), Canon
      s ∧ s.weaveActive = true ∧ s.ownsSlot n.val (feedPort a.val) none cycle = true ∧ (s.core n.val).runs = [] ∧
      (s.core n.val).landings = [] ∧ Rising (s.core n.val).arrays ∧ (∀ b ∈ feedArrays a.val bc, (s.arr n.val b).colq =
      []) ∧ (col = true → (s.core n.val).gDirty = 0) ∧ spJudge s n.val (if col then .column false 1 else .row)
      off.toNat none none false = 0 ∧ partVerdict s n.val (feedPort a.val) (if col then .column false 1 else .row)
      none cycle = 0) ∧
    (∃ (n : Fin 16) (a : Fin 4) (bc : Option (Fin 4)) (col : Bool) (off : BitVec 20) (cycle : Nat) (s : State), Canon
      s ∧ s.weaveActive = true ∧ s.ownsSlot n.val (feedPort a.val) none cycle = true ∧ (s.core n.val).runs = [] ∧
      (s.core n.val).landings = [] ∧ Rising (s.core n.val).arrays ∧ (∀ b ∈ feedArrays a.val bc, (s.arr n.val b).colq =
      []) ∧ (col = true → (s.core n.val).gDirty = 0) ∧ spJudge s n.val (if col then .column false 1 else .row)
      off.toNat none none false = 0 ∧ partVerdict s n.val (feedPort a.val) (if col then .column false 1 else .row)
      none cycle = 0) ∧
    (∃ (n : Fin 16) (a : Fin 4) (bc : Option (Fin 4)) (k : Fin 4) (bf : Bool) (col : Bool) (off : BitVec 20) (cycle :
      Nat) (s : State), Canon s ∧ s.weaveActive = true ∧ s.ownsSlot n.val (feedPort a.val) none cycle = true ∧ (s.core
      n.val).runs = [] ∧ (s.core n.val).landings = [] ∧ Rising (s.core n.val).arrays ∧ (bf = false → k.val < 2) ∧ (∀ b
      ∈ feedArrays a.val bc, (s.arr n.val b).frontEnd ≤ cycle ∧ smWf (fun _ => ((0 : BitVec 16), false)) (s.arr n.val
      b).shadow = true) ∧ (col = true → (s.core n.val).gDirty = 0) ∧ spJudge s n.val (if col then .column false 1 else
      .row) off.toNat none none false = 0 ∧ partVerdict s n.val (feedPort a.val) (if col then .column false 1 else
      .row) none cycle = 0) ∧
    (∃ (n : Fin 16) (a : Fin 4) (bc : Option (Fin 4)) (k : Fin 4) (bf : Bool) (col : Bool) (off : BitVec 20) (cycle :
      Nat) (s : State), Canon s ∧ s.weaveActive = true ∧ s.ownsSlot n.val (feedPort a.val) none cycle = true ∧ (s.core
      n.val).runs = [] ∧ (s.core n.val).landings = [] ∧ Rising (s.core n.val).arrays ∧ (bf = false → k.val < 2) ∧ (∀ b
      ∈ feedArrays a.val bc, (s.arr n.val b).frontEnd ≤ cycle ∧ smWf (fun _ => ((0 : BitVec 16), false)) (s.arr n.val
      b).shadow = true) ∧ (col = true → (s.core n.val).gDirty = 0) ∧ spJudge s n.val (if col then .column false 1 else
      .row) off.toNat none none false = 0 ∧ partVerdict s n.val (feedPort a.val) (if col then .column false 1 else
      .row) none cycle = 0) ∧
    (∃ (n : Fin 16) (i : DrainInstr) (s : State), Canon s ∧ s.weaveActive = true ∧ s.ownsSlot n.val .d none i.cycle =
      true ∧ (s.core n.val).runs = [] ∧ (s.core n.val).landings = [] ∧ Rising (s.core n.val).arrays ∧ Rising (s.arr
      n.val i.array.val).drain ∧ (∀ k < i.count, (smGet DrainEntry.reset (s.arr n.val i.array.val).drain (i.first +
      k)).valid = true → (smGet DrainEntry.reset (s.arr n.val i.array.val).drain (i.first + k)).vals.length = 32) ∧
      spJudge s n.val .row i.offset.toNat none none true = 0 ∧ partVerdict s n.val .d (.rowMasked (drainMask s n.val
      i)) none i.cycle = 0 ∧ drainVerdict s n.val i = 0) ∧
    (∃ (n : Fin 16) (i : DrainInstr) (s : State), Canon s ∧ s.weaveActive = true ∧ s.ownsSlot n.val .d none i.cycle =
      true ∧ (s.core n.val).runs = [] ∧ (s.core n.val).landings = [] ∧ Rising (s.core n.val).arrays ∧ Rising (s.arr
      n.val i.array.val).drain ∧ (∀ k < i.count, (smGet DrainEntry.reset (s.arr n.val i.array.val).drain (i.first +
      k)).valid = true → (smGet DrainEntry.reset (s.arr n.val i.array.val).drain (i.first + k)).vals.length = 32) ∧
      spJudge s n.val .row i.offset.toNat none none true = 0 ∧ partVerdict s n.val .d (.rowMasked (drainMask s n.val
      i)) none i.cycle = 0 ∧ drainVerdict s n.val i = 0) ∧
    (∃ (n : Fin 16) (i : DrainInstr) (s : State), Canon s ∧ s.weaveActive = true ∧ s.ownsSlot n.val .d none i.cycle =
      true ∧ (s.core n.val).runs = [] ∧ (s.core n.val).landings = [] ∧ Rising (s.core n.val).arrays ∧ Rising (s.arr
      n.val i.array.val).drain ∧ (∀ k < i.count, (smGet DrainEntry.reset (s.arr n.val i.array.val).drain (i.first +
      k)).valid = true → (smGet DrainEntry.reset (s.arr n.val i.array.val).drain (i.first + k)).vals.length = 32) ∧
      spJudge s n.val .row i.offset.toNat none none true = 0 ∧ partVerdict s n.val .d (.rowMasked (drainMask s n.val
      i)) none i.cycle = 0 ∧ drainVerdict s n.val i = 0) ∧
    (∃ (n : Fin 16) (p : Fin 2) (off : BitVec 20) (cycle : Nat) (s : State), Canon s ∧ s.weaveActive = true ∧
      s.ownsSlot n.val .d none cycle = true ∧ partVerdict s n.val .d .row none cycle = 0 ∧ smWf (fun _ => (0 : Word))
      (s.core n.val).qsets = true ∧ spJudge s n.val .row off.toNat none none false = 0 ∧ (List.range 128).all (fun k
      => leAt (s.rdMem (spAddr n.val off.toNat) 512) (4 * k + 2) 2 / 32 % 8 == 0) = true) ∧
    (∃ (n : Fin 16) (off : BitVec 20) (cycle : Nat) (s : State), Canon s ∧ s.weaveActive = true ∧ s.ownsSlot n.val .s
      none cycle = true ∧ partVerdict s n.val .s .row none cycle = 0 ∧ spJudge s n.val .row off.toNat none none false
      = 0) ∧
    (∃ (n : Fin 16) (i : SdotInstr) (s : State), Canon s ∧ s.weaveActive = true ∧ i.format = 0 ∧ i.idx < 512 ∧
      i.upsets = [] ∧ s.ownsSlot n.val .s none i.cycle = true ∧ partVerdict s n.val .s .row none i.cycle = 0 ∧ spJudge
      s n.val .row i.offset.toNat none none false = 0 ∧ smWf (fun _ => ((0 : Word), false)) (s.core n.val).sacc = true) ∧
    (∃ (n : Fin 16) (i : SdotInstr) (s : State), Canon s ∧ s.weaveActive = true ∧ i.format = 0 ∧ i.idx < 512 ∧
      i.upsets = [] ∧ s.ownsSlot n.val .s none i.cycle = true ∧ partVerdict s n.val .s .row none i.cycle = 0 ∧ spJudge
      s n.val .row i.offset.toNat none none false = 0 ∧ smWf (fun _ => ((0 : Word), false)) (s.core n.val).sacc = true) ∧
    (∃ (n : Fin 16) (p : Fin 4) (off : BitVec 20) (cycle : Nat) (s : State), Canon s ∧ s.weaveActive = true ∧
      s.ownsSlot n.val .s none cycle = true ∧ partVerdict s n.val .s .row none cycle = 0 ∧ spJudge s n.val .row
      off.toNat none none true = 0) ∧
    (∃ (n : Fin 16) (k : BitVec 4) (s : State), Canon s ∧ s.weaveActive = true ∧ kOk k.toNat = true) ∧
    (∃ (n : Fin 16) (a : Fin 4) (p : PassRec) (rest : List PassRec) (s : State), Canon s ∧ s.weaveRuns = true ∧
      Rising (s.core n.val).arrays ∧ (s.arr n.val a.val).chkq = p :: rest ∧ (checksumOf s n.val a.val p).1 = false) ∧
    (∃ (n : Fin 16) (a : Fin 4) (p : PassRec) (rest : List PassRec) (s : State), Canon s ∧ Rising (s.core
      n.val).arrays ∧ (s.arr n.val a.val).tallyq = p :: rest ∧ (s.core n.val).escBeat + tallyEscapes p ≤ s.fld
      (Reg.coreApxEbound n.val) 0 8 ∧ (p.mode = 2 → 256 * (tallyErrors p).sum ≤ s.fld (Reg.coreApxEbound n.val) 8 8 *
      2 ^ p.k.toNat * (tallyErrors p).length)) ∧
    (∃ (n : Fin 16) (a : Fin 4) (p : PassRec) (rest : List PassRec) (s : State), Canon s ∧ Rising (s.core
      n.val).arrays ∧ (s.arr n.val a.val).tallyq = p :: rest ∧ (s.core n.val).escBeat + tallyEscapes p ≤ s.fld
      (Reg.coreApxEbound n.val) 0 8 ∧ (p.mode = 2 → 256 * (tallyErrors p).sum ≤ s.fld (Reg.coreApxEbound n.val) 8 8 *
      2 ^ p.k.toNat * (tallyErrors p).length)) :=
  ⟨⟨2, pw, 50, [], A1 C (fun x => {x with loaded := 3}), canonOf (by decide +kernel), by decide +kernel,
      by decide +kernel, by decide +kernel, by decide +kernel, by decide +kernel, by decide +kernel⟩,
   ⟨2, 1, none, false, 0x400, 33, D.setReg (Reg.coreSpWheelLo 2) 0x76543225, canonOf (by decide +kernel),
      by decide +kernel, by decide +kernel, by decide +kernel, by decide +kernel, by decide +kernel,
      by decide +kernel, by decide +kernel, by decide +kernel, by decide +kernel⟩,
   ⟨2, 1, some 3, true, 0x410, 33, D.setReg (Reg.coreSpWheelLo 2) 0x76543225, canonOf (by decide +kernel),
      by decide +kernel, by decide +kernel, by decide +kernel, by decide +kernel, by decide +kernel,
      by decide +kernel, by decide +kernel, by decide +kernel, by decide +kernel⟩,
   ⟨2, 1, none, false, 0x400, 33, D.setReg (Reg.coreSpWheelLo 2) 0x76543225, canonOf (by decide +kernel),
      by decide +kernel, by decide +kernel, by decide +kernel, by decide +kernel, by decide +kernel,
      by decide +kernel, by decide +kernel, by decide +kernel, by decide +kernel⟩,
   ⟨2, 1, some 3, true, 0x410, 33, D.setReg (Reg.coreSpWheelLo 2) 0x76543225, canonOf (by decide +kernel),
      by decide +kernel, by decide +kernel, by decide +kernel, by decide +kernel, by decide +kernel,
      by decide +kernel, by decide +kernel, by decide +kernel, by decide +kernel⟩,
   ⟨2, 1, none, 1, false, false, 0x400, 33, D.setReg (Reg.coreSpWheelLo 2) 0x76543225, canonOf (by decide +kernel),
      by decide +kernel, by decide +kernel, by decide +kernel, by decide +kernel, by decide +kernel,
      by decide +kernel, by decide +kernel, by decide +kernel, by decide +kernel, by decide +kernel⟩,
   ⟨2, 1, some 2, 3, true, true, 0x410, 33, D.setReg (Reg.coreSpWheelLo 2) 0x76543225, canonOf (by decide +kernel),
      by decide +kernel, by decide +kernel, by decide +kernel, by decide +kernel, by decide +kernel,
      by decide +kernel, by decide +kernel, by decide +kernel, by decide +kernel, by decide +kernel⟩,
   ⟨2, ⟨1, 5, 1, 0, 0, 0x400, 16⟩, A1 C (fun x =>
      {x with drain := [(5, ⟨(List.range 32).map (BitVec.ofNat 32), false, true, false, []⟩)]}), canonOf
      (by decide +kernel), by decide +kernel, by decide +kernel, by decide +kernel, by decide +kernel,
      by decide +kernel, by decide +kernel, by decide +kernel, by decide +kernel, by decide +kernel,
      by decide +kernel⟩,
   ⟨2, ⟨1, 5, 2, 3, 0, 0x400, 16⟩, A1 C (fun x =>
      {x with drain := [(5, ⟨(List.range 32).map (BitVec.ofNat 32), false, true, false, []⟩)]}), canonOf
      (by decide +kernel), by decide +kernel, by decide +kernel, by decide +kernel, by decide +kernel,
      by decide +kernel, by decide +kernel, by decide +kernel, by decide +kernel, by decide +kernel,
      by decide +kernel⟩,
   ⟨2, ⟨1, 5, 1, 2, 0, 0x400, 16⟩, A1 C (fun x =>
      {x with drain := [(5, ⟨(List.range 32).map (BitVec.ofNat 32), true, true, false, []⟩)]}), canonOf
      (by decide +kernel), by decide +kernel, by decide +kernel, by decide +kernel, by decide +kernel,
      by decide +kernel, by decide +kernel, by decide +kernel, by decide +kernel, by decide +kernel,
      by decide +kernel⟩,
   ⟨2, 1, 0x400, 16, D, canonOf (by decide +kernel), by decide +kernel, by decide +kernel, by decide +kernel,
      by decide +kernel, by decide +kernel, by decide +kernel⟩,
   ⟨2, 0x400, 6, D, canonOf (by decide +kernel), by decide +kernel, by decide +kernel, by decide +kernel,
      by decide +kernel⟩,
   ⟨2, ⟨0x400, 7, true, true, false, 0, 6, []⟩, setC D (fun c => {c with xvec := List.replicate 512 200}), canonOf
      (by decide +kernel), by decide +kernel, by decide +kernel, by decide +kernel, by decide +kernel,
      by decide +kernel, by decide +kernel, by decide +kernel, by decide +kernel⟩,
   ⟨2, ⟨0x400, 7, false, true, false, 0, 6, []⟩, setC D (fun c => {c with xvec := List.replicate 512 200}), canonOf
      (by decide +kernel), by decide +kernel, by decide +kernel, by decide +kernel, by decide +kernel,
      by decide +kernel, by decide +kernel, by decide +kernel, by decide +kernel⟩,
   ⟨2, 1, 0x400, 6, setC D (fun c => {c with sacc := [(130, (77, false))]}), canonOf (by decide +kernel),
      by decide +kernel, by decide +kernel, by decide +kernel, by decide +kernel⟩,
   ⟨2, 7, C, canonOf (by decide +kernel), by decide +kernel, by decide +kernel⟩,
   ⟨2, 1, pr, [], A1 C (fun x => {x with chkq := [pr]}), canonOf (by decide +kernel), by decide +kernel,
      by decide +kernel, by decide +kernel, by decide +kernel⟩,
   ⟨2, 1, pr, [], A1 C (fun x => {x with tallyq := [pr]}), canonOf (by decide +kernel), by decide +kernel,
      by decide +kernel, by decide +kernel, by decide +kernel⟩,
   ⟨2, 1, {pr with mode := 2, k := 3}, [], A1 C (fun x => {x with tallyq := [{pr with mode := 2, k := 3}]}),
      canonOf (by decide +kernel), by decide +kernel, by decide +kernel, by decide +kernel, by decide +kernel⟩⟩

/-- A state and operands for the hypotheses of each clause of StreamCommandsComplete. -/
theorem witness_StreamCommandsComplete :
    (∃ (n : Fin 16) (d : Desc) (cycle : Nat) (s : State), Canon s ∧ s.weaveActive = true ∧ cKind d = 1 ∧ convEmpty d
      = false ∧ freqSelected d = false ∧ cBf16 d = false ∧ convK d = 16 ∧ convBlocks d = 1 ∧ cOutH d = 1 ∧ cOutW d = 1
      ∧ convMisplaced (s.fld (Reg.coreSpStatus n.val) 0 12) d = false ∧ (s.core n.val).conv = none ∧ (s.core
      n.val).runs = [] ∧ (s.core n.val).landings = [] ∧ Rising (s.core n.val).arrays ∧ (∀ a < 4, (s.arr n.val a).drain
      = [] ∧ (s.arr n.val a).rowq = [] ∧ (s.arr n.val a).colq = []) ∧ passVerdict s n.val (convWord d 0 1 (convCols d
      0) 0) cycle = 0) ∧
    (∃ (n : Fin 16) (d : Desc) (cycle rounds : Nat) (ups : List SpUpset) (s : State), Canon s ∧ s.weaveActive = true
      ∧ cKind d = 1 ∧ freqSelected d = false ∧ convMisplaced (s.fld (Reg.coreSpStatus n.val) 0 12) d = false ∧ (∀ t,
      (s.core n.val).conv = some (d, t) → t < convRounds d)) ∧
    (∃ (n : Fin 16) (d : Desc) (cycle : Nat) (s : State), Canon s ∧ s.weaveActive = true ∧ cKind d = 1 ∧ convEmpty d
      = false ∧ freqSelected d = true ∧ convBlocks d = 1 ∧ cOutH d = 1 ∧ cOutW d = 1) ∧
    (∃ (n : Fin 16) (d : Desc) (s : State), Canon s ∧ s.weaveActive = true ∧ cKind d = 2 ∧ cCin d ≤ cBlock d ∧ cOutH
      d = 1 ∧ cOutW d = 1 ∧ cBf16 d = false) ∧
    (∃ (n : Fin 16) (x : PlaitXfer) (r : PlaitRead) (s : State), Canon s ∧ s.weaveActive = true ∧ (s.core
      n.val).gDirty = 0 ∧ x.sealing = false ∧ s.flag Reg.plaitCtl 0 = true ∧ x.isStatic = false ∧ x.knot = none ∧
      s.portRows n.val .xi = some 0 ∧ s.protTouched 0 (2 ^ 48) = false ∧ s.place (s.localAddr x.stream.toNat) = .store
      ∧ plaitRange s n.val x = 0 ∧ headerOk (bytesOf (s.plaitSrc n.val x 0 64)) = true ∧ x.rawLen = 512 ∧ plaitRead
      (s.plaitSrc n.val x) (leAt (bytesOf (s.plaitSrc n.val x 0 64)) 3 1) (leAt (bytesOf (s.plaitSrc n.val x 0 64)) 4
      4) 1 0 (subsOf (bytesOf (s.plaitSrc n.val x 0 64))) 512 = r ∧ r.code = 0 ∧ r.raw.length = 512 ∧ x.offset.toNat %
      512 = 0 ∧ spJudge s n.val .row x.offset.toNat none none true = 0) ∧
    (∃ (n : Fin 16) (x : PlaitXfer) (s : State), Canon s ∧ s.weaveActive = true ∧ (s.core n.val).gDirty = 0 ∧ (s.core
      n.val).outq = [] ∧ (s.core n.val).outKnot = none ∧ s.portRows n.val .xo = some 0 ∧ x.sealing = false ∧ s.flag
      Reg.plaitCtl 0 = true ∧ x.codec.toNat ≤ 3 ∧ x.subs = 1 ∧ x.isStatic = false ∧ x.knot = none ∧ x.upsets = [] ∧
      x.rawLen = 512 ∧ s.protTouched 0 (2 ^ 48) = false ∧ x.offset.toNat % 512 = 0 ∧ 0x4A000000 ≤ s.localAddr
      x.stream.toNat ∧ s.localAddr x.stream.toNat + 0x2000 ≤ 0xC0000000 ∧ spJudge s n.val .row x.offset.toNat none
      none false = 0) :=
  ⟨⟨2, cd, 50, M (spAddr 2 0) [1,2,3,4] (M (spAddr 2 0x800) [1, 2, 3] (setC CQ (fun c =>
      {c with qsets := (List.range 32).map (fun j => (j, 1))}))), canonOf (by decide +kernel), by decide +kernel,
      by decide +kernel, by decide +kernel, by decide +kernel, by decide +kernel, by decide +kernel,
      by decide +kernel, by decide +kernel, by decide +kernel, by decide +kernel, by decide +kernel,
      by decide +kernel, by decide +kernel, by decide +kernel, by decide +kernel, by decide +kernel⟩,
   ⟨2, cd, 50, 1, [], M (spAddr 2 0) [1,2,3,4] (M (spAddr 2 0x800) [1, 2, 3] (setC CQ (fun c =>
      {c with qsets := (List.range 32).map (fun j => (j, 1))}))), canonOf (by decide +kernel), by decide +kernel,
      by decide +kernel, by decide +kernel, by decide +kernel, fun t h => nomatch h⟩,
   ⟨2, fd, 50, M (spAddr 2 0) [1,2,3,4] (M (spAddr 2 0x800) [1, 2, 3] (setC CQ (fun c =>
      {c with qsets := (List.range 32).map (fun j => (j, 1))}))), canonOf (by decide +kernel), by decide +kernel,
      by decide +kernel, by decide +kernel, by decide +kernel, by decide +kernel, by decide +kernel,
      by decide +kernel⟩,
   ⟨2, rd, M (spAddr 2 0) [1,2,3,4] C, canonOf (by decide +kernel), by decide +kernel, by decide +kernel,
      by decide +kernel, by decide +kernel, by decide +kernel, by decide +kernel⟩,
   ⟨2, px, PR, PS, canonOf (by decide +kernel), by decide +kernel, by decide +kernel, by decide +kernel,
      by decide +kernel, by decide +kernel, by decide +kernel, by decide +kernel, by decide +kernel,
      by decide +kernel, by decide +kernel, by decide +kernel, by decide +kernel, rfl, by decide +kernel,
      by decide +kernel, by decide +kernel, by decide +kernel⟩,
   ⟨2, px, D.setReg Reg.plaitCtl 1, canonOf (by decide +kernel), by decide +kernel, by decide +kernel,
      by decide +kernel, by decide +kernel, by decide +kernel, by decide +kernel, by decide +kernel,
      by decide +kernel, by decide +kernel, by decide +kernel, by decide +kernel, by decide +kernel,
      by decide +kernel, by decide +kernel, by decide +kernel, by decide +kernel, by decide +kernel,
      by decide +kernel⟩⟩

end Sys2Proof.Tests.Chunk08

namespace Sys2Proof.Tests.Chunk09

def W := Test.woven
def H := Test.host
def F (st : FlightState) (d : Desc) : Flight := ⟨0, .ring 0, d, 1, st, 0⟩
def FS (st : FlightState) (d : Desc) := Test.flying st d
def RA : Ring := { Ring.reset with state := .active, phase := true }
def D := Test.desc
def FF (st : FlightState) (op b : Nat) := F st (D op b)
def FG (st : FlightState) (op b : Nat) := FS st (D op b)
def by' (lo v : Nat) : Nat := v * 2^(8*lo)
def gl0 : List Byte := leBytes 2 0x4752 ++ [1,1] ++ zeros 8 ++ leBytes 4 576 ++ zeros 44
def gb : Nat := by' 32 576 + by' 36 5
def GS : State :=
    {((FG .started 0x21 gb).setReg Reg.serveGrmPoolSize 4).setReg Reg.serveGrmPoolLo 0x60000000 with weave := W.weave}
def d1 : WeaveDecl := {Test.decl with projections := [(1,1)]}
def bh : List Byte := leBytes 2 0xAD47 ++ [1, 0] ++ leBytes 2 3 ++ leBytes 2 1 ++ leBytes 4 9 ++ leBytes 4 16 ++
    zeros 48
def nn : List Byte := [1,2,3,4,5,6,7,8,9,10,11,12]
def AS0 : State :=
    {((((FG .started 0x22 0).setReg Reg.serveAdpPoolSize 4).setReg Reg.serveAdpPoolLo 0x60000000).setReg (Reg.plaitProtBase 0) 0x60000001).setReg (Reg.plaitProtLimit 0) 0x60003000 |>.setFlag Reg.fuseStatus 24 true with weave := {W.weave with run := some d1}}
def ab : Nat := by' 32 96 + 3 * (2^256 * 2^32) + by' 40 (ofLe nn)
def z64 : List Byte := List.replicate 64 0
def f64 : List Byte := [0xFF] ++ List.replicate 63 0
def glb : List Byte := f64 ++ z64 ++ z64 ++ z64 ++ z64 ++ z64 ++ z64 ++ z64
def gl : List Byte := gl0 ++ (leBytes 4 549112146 ++ glb)
theorem z64_crc : (z64.foldl crcByte 3056112068#32 = 2985486523#32 ∧ z64.foldl crcByte 2399477235#32 =
    3056112068#32) ∧
    (z64.foldl crcByte 2985486523#32 = 3721826188#32 ∧ z64.foldl crcByte 3721826188#32 = 3266944372#32) ∧
    (z64.foldl crcByte 3266944372#32 = 1008662678#32 ∧ z64.foldl crcByte 1008662678#32 = 2674108434#32) ∧
    z64.foldl crcByte 2674108434#32 = 3745855149#32 := by decide +kernel
theorem gl0_crc : gl0.foldl crcByte 0xFFFFFFFF = 3770396479#32 ∧ f64.foldl crcByte 3770396479#32 = 2399477235#32 :=
    by decide +kernel
theorem gl_crc : gCrcOk gl = true := by
  obtain ⟨⟨h2, h1⟩, ⟨h3, h4⟩, ⟨h5, h6⟩, h7⟩ := z64_crc
  have e : gl.take 60 ++ gl.drop 64 = gl0 ++ f64 ++ z64 ++ z64 ++ z64 ++ z64 ++ z64 ++ z64 ++ z64 := by
    rw [show gl.take 60 = gl0 from List.take_left' rfl, show gl.drop 64 = glb by decide +kernel]
    simp [glb]
  have c : crc32c (gl.take 60 ++ gl.drop 64) = 549112146#32 := by
    rw [e, crc32c]
    simp only [List.foldl_append, gl0_crc.1, gl0_crc.2, h1, h2, h3, h4, h5, h6, h7]
    decide
  rw [gCrcOk, c]; decide +kernel
theorem gl_parts : gHeaderOk (leAt gl) 576 = true ∧ gBodyOk (leAt gl) (pruneGrammars GS).eos = true ∧ gLive (leAt
    gl) = true := by decide +kernel
theorem gl_verdict : grammarVerdict (pruneGrammars GS) 5 576 gl = 0 := by
  have hl : gl.length = 576 := by decide +kernel
  rw [grammarVerdict]
  simp only [hl, gl_parts.1, gl_parts.2.1, gl_parts.2.2, gl_crc]
  decide +kernel

def tag : List Byte := gcmTag (roundKeys (tenantKey AS0 3 9)) nn bh (zeros 16)
def blob : List Byte := bh ++ (zeros 16 ++ tag)
def AS : State := { AS0 with host := (FG .started 0x22 ab).host }
theorem gcmOpen_tag (key n a c : List Byte) :
    gcmOpen key n a c (gcmTag (roundKeys key) n a c) = some (gcmCtr (roundKeys key) n (c.length / 16 + 1) 2 c) := by
  simp [gcmOpen]
theorem blob_tail : blob.drop 64 = zeros 16 ++ tag := List.drop_left' rfl
theorem blob_tag : blob.drop 80 = tag := by
  rw [show 80 = 64 + 16 from rfl, ← List.drop_drop, blob_tail]
  exact List.drop_left' rfl
theorem adapter_opens : gcmOpen (tenantKey AS (bits (FF .started 0x22 ab).desc 288 12) d1.modelId.toNat)
      ((List.range 12).map (fun k => BitVec.ofNat 8 (descNum (FF .started 0x22 ab).desc (40 + k) 1))) (blob.take 64)
      ((blob.drop 64).take (descNum (FF .started 0x22 ab).desc 32 4 - 80))
      (blob.drop (descNum (FF .started 0x22 ab).desc 32 4 - 16)) =
    some (gcmCtr (roundKeys (tenantKey AS0 3 9)) nn 2 2 (zeros 16)) := by
  have n1 : (List.range 12).map (fun k => BitVec.ofNat 8 (descNum (FF .started 0x22 ab).desc (40 + k) 1)) = nn := by
    decide +kernel
  have n2 : bits (FF .started 0x22 ab).desc 288 12 = 3 := by decide +kernel
  have n3 : descNum (FF .started 0x22 ab).desc 32 4 = 96 := by decide +kernel
  rw [n1, n2, n3, show blob.take 64 = bh from List.take_left' rfl, blob_tail, blob_tag,
    show (zeros 16 ++ tag).take (96 - 80) = zeros 16 from List.take_left' rfl]
  exact gcmOpen_tag (tenantKey AS0 3 9) nn bh (zeros 16)

def tb : Nat := 7 * (2^256 * 2^32) + by' 38 2 + by' 40 100
def ex : Exposure :=
    {startAt := 0, lenP := 4, readP := 200000, setup := 1, source := 24, mode := 0x101, len := 1, seq := 3, windows := [(0, 0x10000, 0x10000)]}
def fm : Frame :=
    {exp := ex, stamp := 7, pos := 5, posEnd := 5, band := 0, hot := false, darkBand := 0, noDark := false, fallback := false}
def m0 : Matched := ⟨fm, 0, 2, 0, 0, 0, 0, true, false⟩
def cr : Crop := {owner := 1, parcel := 9, m := m0, w := 8, h := 8, scale := 256, crc := 7, done := true, commitNs := none}
def pc : Parcel :=
    {id := 9, cmp := 0, barrierNs := 0, barrierPos := 0, clearPos := none, restart := false, multi := false, overlap := false, top := [], left := [], right := [], bottom := [], dims := none, weight := none, committed := true, lost := false, labels := [(1, 3)] }
def rb : Nat := by' 32 128 + by' 36 9 + by' 40 0 + 0x1000 * 2^192
def RS : State := let s := (FG .started 0x30 rb).setReg Reg.roiCropBaseLo 0x70000000 |>.setReg Reg.roiCropCfg 4
  wrMem (s.cropAddr 3) (zeros 7 ++ [2]) {s with roi := {s.roi with parcels := [pc], crops := [(3, some cr)]}}
def RO : State :=
    {H.setReg Reg.hostRecCfg 0x10004 with roi := {H.roi with parcels := [{pc with committed := false, labels := []}]}}
def rc : Rec := {parcel := 9, body := zeros 0xFF8, held := false, poisoned := false}
def rch : Rec := {rc with held := true}

/-- A state and operands for the hypotheses of each clause of RequestCommandsComplete. -/
theorem witness_RequestCommandsComplete :
    (∃ (f : Flight) (table src : List Byte) (s : State), Canon s ∧ Supplied f 0x21 table src s ∧ grammarVerdict
      (pruneGrammars s) (BitVec.ofNat 8 (descNum f.desc 36 1)) (descNum f.desc 32 4) src = 0) ∧
    (∃ (f : Flight) (blob src plain : List Byte) (d : WeaveDecl) (s : State), Canon s ∧ Supplied f 0x22 blob src s ∧
      s.weave.run = some d ∧ adapterVerdict (pruneAdapters s) d (bits f.desc 288 12) (descNum f.desc 32 4) src = 0 ∧
      gcmOpen (tenantKey s (bits f.desc 288 12) d.modelId.toNat) ((List.range 12).map (fun k => BitVec.ofNat 8
      (descNum f.desc (40 + k) 1))) (src.take 64) ((src.drop 64).take (descNum f.desc 32 4 - 80)) (src.drop (descNum
      f.desc 32 4 - 16)) = some plain) ∧
    (∃ (f : Flight) (s : State), Started f 0x23 s ∧ BitVec.ofNat 8 (descNum f.desc 38 1) ≠ 0) ∧
    (∃ (f : Flight) (crops : List (Nat × List Byte)) (bytes : List Byte) (s : State), Canon s ∧ Started f 0x30 s ∧
      s.anchor = true ∧ s.host.bme = true ∧ (regionVerdict s (BitVec.ofNat 32 (descNum f.desc 36 4)) (descNum f.desc
      40 2) (descNum f.desc 32 4) crops).toOption = some (bytes, false)) ∧
    (∃ (id : Word) (q : Parcel) (s : State), Canon s ∧ s.parcel id = some q ∧ q.committed = false ∧ q.lost = false ∧
      s.host.records.any (fun r => r.parcel == id || r.held) = false ∧ s.host.records.length < s.recFree) ∧
    (∃ (r : Rec) (rest : List Rec) (body : List Byte) (s : State), Canon s ∧ s.host.records = r :: rest ∧ s.recFree ≠
      0 ∧ r.poisoned = false ∧ body = (if r.held then r.body.set 0x18 (BitVec.ofNat 8 (leAt r.body 0x18 1 + 32)) else
      r.body)) ∧
    (∃ (r : Rec) (rest : List Rec) (body : List Byte) (s : State), Canon s ∧ s.host.records = r :: rest ∧ s.recFree ≠
      0 ∧ r.poisoned = false ∧ body = (if r.held then r.body.set 0x18 (BitVec.ofNat 8 (leAt r.body 0x18 1 + 32)) else
      r.body)) ∧
    (∃ (k : BitVec 12) (s : State), Canon s ∧ releaseDue s (s.req k.toNat) = true) ∧
    (∃ (s : State), Served s ∧ s.serve.hostSlots = []) ∧
    (∃ (s : State), Canon s ∧ Served s) ∧
    (∃ (s : State), Served s) :=
  ⟨⟨FF .started 0x21 gb, gl, gl, GS, canonOf (by decide +kernel), ⟨by decide +kernel, by decide +kernel,
      by decide +kernel, .inl ⟨by decide +kernel, by decide +kernel, rfl⟩⟩, gl_verdict⟩,
   ⟨FF .started 0x22 ab, blob, blob, gcmCtr (roundKeys (tenantKey AS0 3 9)) nn 2 2 (zeros 16), d1, AS, canonOf
      (by decide +kernel), ⟨by decide +kernel, by decide +kernel, by decide +kernel, .inl ⟨by decide +kernel,
      by decide +kernel, rfl⟩⟩, by decide +kernel, by decide +kernel, adapter_opens⟩,
   ⟨FF .started 0x23 tb, FG .started 0x23 tb, ⟨by decide +kernel, by decide +kernel, by decide +kernel,
      by decide +kernel⟩, by decide +kernel⟩,
   ⟨FF .started 0x30 rb, [], zeros 7 ++ [2] ++ zeros 120, RS, canonOf (by decide +kernel), ⟨by decide +kernel,
      by decide +kernel, by decide +kernel, by decide +kernel⟩, by decide +kernel, by decide +kernel,
      by decide +kernel⟩,
   ⟨9, {pc with committed := false, labels := []}, RO, canonOf (by decide +kernel), by decide +kernel,
      by decide +kernel, by decide +kernel, by decide +kernel, by decide +kernel⟩,
   ⟨rc, [], rc.body, {RO with host := {RO.host with records := [rc]}}, canonOf (by decide +kernel),
      by decide +kernel, by decide +kernel, by decide +kernel, rfl⟩,
   ⟨rch, [], rch.body.set 0x18 (BitVec.ofNat 8 (leAt rch.body 0x18 1 + 32)),
      {RO with host := {RO.host with records := [rch]}}, canonOf (by decide +kernel), by decide +kernel,
      by decide +kernel, by decide +kernel, rfl⟩,
   ⟨5, setReq 5 {Req.reset with st := .done, finalDone := true} (T.setReg Reg.serveLinger 0), canonOf
      (by decide +kernel), by decide +kernel⟩,
   ⟨T, ⟨by decide +kernel, by decide +kernel⟩, by decide +kernel⟩,
   ⟨setReq 5 {Req.reset with st := .decode, tenant := 7, genLen := 5} (T.setReg Reg.serveReqSel 5), canonOf
      (by decide +kernel), ⟨by decide +kernel, by decide +kernel⟩⟩,
   ⟨{T with serve := {T.serve with stepNum := 0x123456789A}}, ⟨by decide +kernel, by decide +kernel⟩⟩⟩

end Sys2Proof.Tests.Chunk09

namespace Sys2Proof.Tests.Chunk10

def W : State := ((((Test.woven.setReg Reg.serveKvPoolLo 0x60000000).setReg Reg.serveKvPoolSize 100).setReg
    Reg.serveParkPoolLo 0x61000000).setReg Reg.serveParkPoolSize 50).setReg Reg.plaitCtl 1
def W3 : State :=
    {W with weave := {W.weave with run := some {Test.decl with places := Test.decl.places ++ [⟨1, 2, 1, 3, 64, 1, 40000, 90000⟩, ⟨1, 2, 2, 4, 64, 1, 40000, 90000⟩]}}}
def en : Desc := BitVec.ofNat 512 (64 * 2^48 + 10 * 2^96)
def C (l : List Ctx) (s : State) : State := {s with serve := {s.serve with ctxs := l}}
def c0 : Ctx := newCtx 2 5 en
def rw' : LinkWord := withCrc 5
def pgs : List (List Byte) := [List.replicate 4096 1, [2,3], List.replicate 4096 3, List.replicate 4096 4]
def g0 : GrammarTab := ⟨0, 1, 1, 576, 0, 1⟩
def cd : Ctx := {c0 with started := true, grmGen := 1, listFirst := 1, listPages := 1, spare := [2,3,4,5,6,7]}
def GG : State := let s := C [cd] W3
  wrMem 0x62000000 (leBytes 2 0x4752 ++ [1,1] ++ zeros 60 ++ [0xF0]) {s.setReg Reg.serveGrmPoolLo 0x62000000 with serve := {s.serve with grammars := [g0]}}
def rdy := readyCtx 2 5 en GG
def cd' : Ctx := match rdy with | some x => x.1 | none => c0
def GG' : State := match rdy with | some x => x.2 | none => GG
def cp : Ctx := {c0 with listFirst := 1, listPages := 1, pages := [2,3], held := 20}
def pcp : ParkCopy := ⟨0, 1, [1,2], 3, 20⟩
def ck : Ctx := {c0 with copy := some pcp}
def msg (k : Nat) (coded : Bool) (v : Nat) (d : List Byte) : Loose := ⟨6, 1, 2, 0, 0, 0, false, kvHead 5 k 2
    coded 77 v d ++ d, []⟩
def ce : Ctx := {cd with expect := some 77}
def pg (b : Byte) : List Byte := List.replicate 4096 b
def lst : List Byte := kvListBytes 0x4B56 2 (kvCode 64) 5 2 20 0 0 [9 + 20 * 2 ^ 20, 10 + 20 * 2 ^ 20]
def cl : Ctx := {ce with listIn := lst}
def cz : Ctx := {ce with listIn := kvListBytes 0x4B56 2 (kvCode 64) 5 2 0 0 0 []}
def cs : Ctx := {cp with sent := some (77, false)}
def cm : Ctx := {c0 with listFirst := 1, listPages := 1, making := some ⟨4, 1, [], 0, 0⟩}
def ch : Ctx := {newCtx 1 5 en with copy := some pcp}
def HP : State := C [ch] (setReq 5 {Req.reset with st := .parked, parkedCopy := some ⟨false, 1, 0, 2, 3, 0⟩}
    (((W3.setReg Reg.serveParkCfg 0x100).setReg Reg.serveParkLow 0xFFFF0000).setReg Reg.serveParkHostCfg 0x10006))

/-- A state and operands for the hypotheses of each clause of OrderCommandsComplete. -/
theorem witness_OrderCommandsComplete :
    (∃ (crops : List HandedCrop) (views : List PoolView) (s : State), s.weaveActive = true) ∧
    (∃ (w : LinkWord) (ok : Bool) (l : BitVec 48) (s : State), s.weaveActive = true ∧ wordOk w = true) ∧
    (∃ (w : LinkWord) (o : BitVec 6) (e : Desc) (pages : List (List Byte)) (ads : List AdapterPass) (pl : PlaceDecl)
      (s : State), Canon s ∧ s.weaveActive = true ∧ wordOk w = true ∧ wKind w = 1 ∧ s.placeOf w o = some pl ∧ pl.kind
      ≠ 2 ∧ s.ctx o (wReq w) = none ∧ bits w 32 12 = 0 ∧ lwByte w 6 + 1 ≤ bits e 48 12 ∧ 0 < s.kvT ∧ listPagesOf
      (s.kvData (bits e 48 12)) = 1 ∧ s.kvNeed (bits e 48 12) ≤ s.kvFree.length) ∧
    (∃ (w : LinkWord) (o : BitVec 6) (e : Desc) (pages : List (List Byte)) (ads : List AdapterPass) (pl : PlaceDecl)
      (s : State), Canon s ∧ s.weaveActive = true ∧ wordOk w = true ∧ wKind w = 1 ∧ s.placeOf w o = some pl ∧ pl.kind
      ≠ 2 ∧ s.ctx o (wReq w) = none ∧ bits w 32 12 = 0 ∧ lwByte w 6 + 1 ≤ bits e 48 12 ∧ 0 < s.kvT ∧ listPagesOf
      (s.kvData (bits e 48 12)) = 1 ∧ s.kvNeed (bits e 48 12) ≤ s.kvFree.length) ∧
    (∃ (w : LinkWord) (o : BitVec 6) (e : Desc) (toks : List (BitVec 12)) (logits : List (BitVec 32)) (pages : List
      (List Byte)) (ads : List AdapterPass) (pl : PlaceDecl) (c : Ctx) (g : GrammarTab) (d : WeaveDecl) (s s' :
      State), s.weaveActive = true ∧ s.weave.run = some d ∧ wordOk w = true ∧ wKind w = 2 ∧ s.placeOf w o = some pl ∧
      pl.kind = 2 ∧ readyCtx o (wReq w) e s = some (c, s') ∧ c.stopped = false ∧ c.started = true ∧ kvSound s' c =
      true ∧ s'.latched c = some g) ∧
    (∃ (w : LinkWord) (o : BitVec 6) (e : Desc) (c : Ctx) (s : State), s.weaveActive = true ∧ wordOk w = true ∧ wKind
      w = 3 ∧ wPkg w ≠ s.pkg.toNat ∧ s.ctx o (wReq w) = some c ∧ c.pages ≠ [] ∧ c.sent = none ∧ shipVerdict s true
      (c.pages.map (fun p => s.kvBase + 4096 * p)) = 0 ∧ s.route ((BitVec.ofNat 6 (wPkg w)).setWidth 8 |>.setWidth 6)
      ≠ 5) ∧
    (∃ (w : LinkWord) (o : BitVec 6) (c : Ctx) (s : State), s.weaveActive = true ∧ wordOk w = true ∧ wKind w = 4 ∧
      s.ctx o (wReq w) = some c ∧ c.pages ≠ [] ∧ c.making = none ∧ listPagesOf c.pages.length = 1 ∧ c.pages.length + 1
      ≤ s.parkFree.length) ∧
    (∃ (w : LinkWord) (o : BitVec 6) (c : Ctx) (p : ParkCopy) (s : State), s.weaveActive = true ∧ wordOk w = true ∧
      wKind w = 5 ∧ s.ctx o (wReq w) = some c ∧ c.copy = some p ∧ c.sent = none ∧ s.route ((BitVec.ofNat 6 (wPkg
      w)).setWidth 8 |>.setWidth 6) ≠ 5) ∧
    (∃ (w : LinkWord) (o : BitVec 6) (e : Desc) (slot : List Byte) (c : Ctx) (p : ParkCopy) (s : State),
      s.weaveActive = true ∧ wordOk w = true ∧ wKind w = 6 ∧ wPkg w ≠ s.pkg.toNat ∧ o ≠ s.pkg ∧ s.ctx o (wReq w) =
      some c ∧ c.copy = some p ∧ c.sent = none ∧ shipVerdict s true (p.pages.map (fun q => s.parkBase + 4096 * q)) = 0
      ∧ s.route ((BitVec.ofNat 6 (wPkg w)).setWidth 8 |>.setWidth 6) ≠ 5) ∧
    (∃ (w : LinkWord) (o : BitVec 6) (s : State), s.weaveActive = true ∧ wordOk w = true ∧ wKind w = 7) :=
  ⟨⟨[], [], setReq 5 {Req.reset with st := .queued, promptLen := 5, maxLen := 5} W, by decide +kernel⟩,
   ⟨rw', true, 7, W, by decide +kernel, by decide +kernel⟩,
   ⟨orderWord 5 1 1 3 0 31 0 0, 2, en, pgs, [], ⟨1, 2, 1, 3, 64, 1, 40000, 90000⟩, W3, canonOf (by decide +kernel),
      by decide +kernel, by decide +kernel, by decide +kernel, by decide +kernel, by decide +kernel,
      by decide +kernel, by decide +kernel, by decide +kernel, by decide +kernel, by decide +kernel,
      by decide +kernel⟩,
   ⟨orderWord 5 1 1 3 0 63 0 0, 2, en, pgs, [⟨0, 2, 1, 5, 0, 4, 3, [1, 2, 3]⟩], ⟨1, 2, 1, 3, 64, 1, 40000, 90000⟩,
      W3, canonOf (by decide +kernel), by decide +kernel, by decide +kernel, by decide +kernel, by decide +kernel,
      by decide +kernel, by decide +kernel, by decide +kernel, by decide +kernel, by decide +kernel,
      by decide +kernel, by decide +kernel⟩,
   ⟨orderWord 5 2 1 4 0 0 0 0, 2, en, [], [1,2,3,4,5,6,7,8], [], [], ⟨1, 2, 2, 4, 64, 1, 40000, 90000⟩, cd', g0,
      {Test.decl with places := Test.decl.places ++ [⟨1, 2, 1, 3, 64, 1, 40000, 90000⟩, ⟨1, 2, 2, 4, 64, 1, 40000, 90000⟩]},
      GG, GG', by decide +kernel, by decide +kernel, by decide +kernel, by decide +kernel, by decide +kernel,
      by decide +kernel, by decide +kernel, by decide +kernel, by decide +kernel, by decide +kernel,
      by decide +kernel⟩,
   ⟨orderWord 5 3 2 0 0 0 0 77, 2, en, cp, C [cp] W3, by decide +kernel, by decide +kernel, by decide +kernel,
      by decide +kernel, by decide +kernel, by decide +kernel, by decide +kernel, by decide +kernel,
      by decide +kernel⟩,
   ⟨orderWord 5 4 2 0 0 0 0 77, 2, cp, C [cp] W3, by decide +kernel, by decide +kernel, by decide +kernel,
      by decide +kernel, by decide +kernel, by decide +kernel, by decide +kernel, by decide +kernel⟩,
   ⟨orderWord 5 5 2 0 0 0 0 77, 2, ck, pcp, C [ck] W3, by decide +kernel, by decide +kernel, by decide +kernel,
      by decide +kernel, by decide +kernel, by decide +kernel, by decide +kernel⟩,
   ⟨orderWord 5 6 2 0 0 0 0 77, 2, en, [], ck, pcp, C [ck] W3, by decide +kernel, by decide +kernel,
      by decide +kernel, by decide +kernel, by decide +kernel, by decide +kernel, by decide +kernel,
      by decide +kernel, by decide +kernel, by decide +kernel⟩,
   ⟨orderWord 5 7 2 0 0 0 0 77, 2, C [ck] W3, by decide +kernel, by decide +kernel, by decide +kernel⟩⟩

/-- A state and operands for the hypotheses of each clause of TransferCommandsComplete. -/
theorem witness_TransferCommandsComplete :
    (∃ (m : Loose) (c : Ctx) (s : State), s.weaveActive = true ∧ kvKind m = 1 ∧ s.ctx (kvOwner m) (kvReq m) = some c
      ∧ c.expect = some (kvXfer m) ∧ m.addr.toNat = c.listIn.length ∧ (if (kvData m).isEmpty then 0 else (crc32c
      (kvData m)).toNat) = leAt m.payload 12 4 ∧ (64 ≤ (c.listIn ++ kvData m).length → 64 + 8 * leAt (c.listIn ++
      kvData m) 10 2 ≤ (c.listIn ++ kvData m).length → listOk s
      { c with listIn := c.listIn ++ kvData m, listBad := c.listBad ++ kvBad m, coded := kvCoded m } = true)) ∧
    (∃ (m : Loose) (c : Ctx) (s : State), s.weaveActive = true ∧ kvKind m = 1 ∧ s.ctx (kvOwner m) (kvReq m) = some c
      ∧ c.expect = some (kvXfer m) ∧ m.addr.toNat = c.listIn.length ∧ (if (kvData m).isEmpty then 0 else (crc32c
      (kvData m)).toNat) = leAt m.payload 12 4 ∧ (64 ≤ (c.listIn ++ kvData m).length → 64 + 8 * leAt (c.listIn ++
      kvData m) 10 2 ≤ (c.listIn ++ kvData m).length → listOk s
      { c with listIn := c.listIn ++ kvData m, listBad := c.listBad ++ kvBad m, coded := kvCoded m } = true)) ∧
    (∃ (m : Loose) (c d : Ctx) (s : State), s.weaveActive = true ∧ kvKind m = 2 ∧ s.ctx (kvOwner m) (kvReq m) = some
      c ∧ c.expect = some (kvXfer m) ∧ m.addr.toNat = c.pagesIn.length ∧ (if (kvData m).isEmpty then 0 else (crc32c
      (kvData m)).toNat) = leAt m.payload 12 4 ∧ d =
      { c with pagesIn := c.pagesIn ++ kvData m, pagesBad := c.pagesBad ++ kvBad m, coded := kvCoded m } ∧ listOk s d
      = true ∧ (inPages d).1 = 0 ∧ pagesOk d (inPages d).2 = true) ∧
    (∃ (m : Loose) (c : Ctx) (s : State), Canon s ∧ s.weaveActive = true ∧ kvKind m = 3 ∧ s.ctx (kvOwner m) (kvReq m)
      = some c ∧ c.expect = some (kvXfer m) ∧ m.addr = 0 ∧ (if (kvData m).isEmpty then 0 else (crc32c (kvData
      m)).toNat) = leAt m.payload 12 4 ∧ listOk s c = true ∧ pagesOk c (inPages c).2 = true ∧ (inPages c).1 = 0 ∧ leAt
      m.payload 8 4 = c.pagesIn.length ∧ (inPages c).2.length = leAt c.listIn 10 2 ∧ c.sealTo = none ∧ c.kvPages.Nodup
      ∧ listPagesOf (leAt c.listIn 10 2) ≤ c.listPages ∧ s.route (m.src.setWidth 6) ≠ 5 ∧ shipVerdict s (kvCoded m)
      ((c.pages ++ c.spare).map s.kvAddr) = 0) ∧
    (∃ (m : Loose) (c : Ctx) (s : State), kvKind m = 4 ∧ s.ctx (kvOwner m) (kvReq m) = some c ∧ c.sent = some (kvXfer
      m, false) ∧ c.copy = none) ∧
    (∃ (m : Loose) (c : Ctx) (s : State), kvKind m = 4 ∧ s.ctx (kvOwner m) (kvReq m) = some c ∧ c.sent = some (kvXfer
      m, true) ∧ s.flag Reg.serveParkCfg 9 = true ∧ c.sealTo = none) ∧
    (∃ (m : Loose) (c : Ctx) (b : Bool) (s : State), kvKind m = 5 ∧ s.ctx (kvOwner m) (kvReq m) = some c ∧ c.sent =
      some (kvXfer m, b)) ∧
    (∃ (o : BitVec 6) (k : BitVec 12) (c : Ctx) (p : ParkCopy) (s : State), Canon s ∧ s.weaveActive = true ∧ s.ctx o
      k.toNat = some c ∧ c.making = some p ∧ kvSound s c = true) ∧
    (∃ (n k : Nat) (p : Parked) (c : Ctx) (q : ParkCopy) (s : State), s.anchor = true ∧ s.host.bme = true ∧
      s.weaveActive = true ∧ s.flag Reg.serveParkCfg 8 = true ∧ s.parkFree.length < s.fld Reg.serveParkLow 16 16 ∧
      nextToMove s s.pkg = some (k, p) ∧ hostMoveVerdict s (64 + 4104 * p.pages) = 0 ∧ s.ctx s.pkg k = some c ∧ c.copy
      = some q ∧ anyBad (copyBytes s q) = false ∧ c.kvPages = []) :=
  ⟨⟨msg 1 true 0 [1,2,3], ce, C [ce] W3, by decide +kernel, by decide +kernel, by decide +kernel,
      by decide +kernel, by decide +kernel, by decide +kernel, by decide +kernel⟩,
   ⟨msg 1 false 0 lst, ce, C [ce] W3, by decide +kernel, by decide +kernel, by decide +kernel, by decide +kernel,
      by decide +kernel, by decide +kernel, by decide +kernel⟩,
   ⟨msg 2 false 0 (List.replicate 16 1), cl,
      {cl with pagesIn := List.replicate 16 1, pagesBad := kvBad (msg 2 false 0 (List.replicate 16 1)), coded := false},
      C [cl] W3, by decide +kernel, by decide +kernel, by decide +kernel, by decide +kernel, by decide +kernel,
      by decide +kernel, by decide +kernel, by decide +kernel, by decide +kernel, by decide +kernel⟩,
   ⟨msg 3 false 0 [], cz, C [cz] W3, canonOf (by decide +kernel), by decide +kernel, by decide +kernel,
      by decide +kernel, by decide +kernel, by decide +kernel, by decide +kernel, by decide +kernel,
      by decide +kernel, by decide +kernel, by decide +kernel, by decide +kernel, by decide +kernel,
      by decide +kernel, by decide +kernel, by decide +kernel, by decide +kernel⟩,
   ⟨msg 4 false 0 [], cs, C [cs] W3, by decide +kernel, by decide +kernel, by decide +kernel, by decide +kernel⟩,
   ⟨msg 4 false 0 [], {cp with sent := some (77, true)}, (C [{cp with sent := some (77, true)}] W3).setFlag
      Reg.serveParkCfg 9 true, by decide +kernel, by decide +kernel, by decide +kernel, by decide +kernel,
      by decide +kernel⟩,
   ⟨msg 5 false eKvPage.toNat [], cs, false, C [cs] W3, by decide +kernel, by decide +kernel, by decide +kernel⟩,
   ⟨2, 5, cm, ⟨4, 1, [], 0, 0⟩, C [cm] W3, canonOf (by decide +kernel), by decide +kernel, by decide +kernel,
      by decide +kernel, by decide +kernel⟩,
   ⟨0, 5, ⟨false, 1, 0, 2, 3, 0⟩, ch, pcp, HP, by decide +kernel, by decide +kernel, by decide +kernel,
      by decide +kernel, by decide +kernel, by decide +kernel, by decide +kernel, by decide +kernel,
      by decide +kernel, by decide +kernel, by decide +kernel⟩⟩

end Sys2Proof.Tests.Chunk10

namespace Sys2Proof.Tests.Chunk11

def W := Test.woven
def H := Test.host
def P1 : State := {T.setFlag Reg.bootStatus 5 true with basket := W.basket}
def F (st : FlightState) (d : Desc) : Flight := ⟨0, .ring 0, d, 1, st, 0⟩
def D := Test.desc
def FF (st : FlightState) (op b : Nat) := F st (D op b)
def img : WeaveImage := ⟨true, true, 0, {Test.decl with length := 4096, restartBeats := 60}⟩
def l0 : Load :=
    { decl := none, lead := true, asked := true, waits := false, flight := none, addr := 0, len := 4096, id := 7, pass := 0, startBeat := 0, alt := none }
def LS : State :=
    {P1 with weave := {P1.weave with load := some l0}, time := {P1.time with mult := 48, spread := 1, beatLen := Test.decl.beatLen}, boot := {P1.boot with stewardIf := 0}}
def h0 : HaltInfo := ⟨1, 77, 2, 2⟩
def row0 : RegRow := ⟨0,0,0,0,0,0,0,0⟩

/-- A state and operands for the hypotheses of each clause of WeaveCommandsComplete. -/
theorem witness_WeaveCommandsComplete :
    (∃ (go : Bool) (s : State), Served s ∧ s.weaveRuns = false ∧ loadVerdict s = 0 ∧ go = (!s.timePends && s.flag
      Reg.bootStatus 5 && s.host.bme)) ∧
    (∃ (go : Bool) (s : State), Served s ∧ s.weaveRuns = false ∧ loadVerdict s = 0 ∧ go = (!s.timePends && s.flag
      Reg.bootStatus 5 && s.host.bme)) ∧
    (∃ (s : State), Served s ∧ s.weaveRuns = true ∧ s.anchor = true ∧ s.basket.isPrincipal = true ∧ s.serve.reqs.any
      (fun p => p.2.st != .free) = false ∧ s.heldRecords = 0) ∧
    (∃ (f : Flight) (go : Bool) (s : State), Started f 0x20 s ∧ loadVerdict s = 0 ∧ go = (!s.timePends && s.flag
      Reg.bootStatus 5 && s.host.bme)) ∧
    (∃ (img : WeaveImage) (l : Load) (s : State), Canon s ∧ s.weave.load = some l ∧ l.lead = true ∧ l.decl = none ∧
      l.asked = true ∧ weaveImageVerdict s l img = 0) ∧
    (∃ (img : WeaveImage) (b : BitVec 64) (s : State), Canon s ∧ s.weave.load = none ∧ s.basket.joined = true ∧
      s.basket.isPrincipal = false ∧ s.aligned = true ∧ img.formatOk = true) ∧
    (∃ (img : WeaveImage) (b : BitVec 64) (s : State), s.aligned = false) ∧
    (∃ (s : State), s.cclkRuns = true ∧ s.time.beatNum.toNat < s.beatNow) ∧
    (∃ (p : Port) (w : LinkWord) (s : State), haltNum w < 0x8000 ∧ haltNew s.fault.lastNum (BitVec.ofNat 15 (haltNum
      w)) = true ∧ s.basket.lastHalt ≠ some (BitVec.ofNat 16 (haltNum w)) ∧ s.weaveRuns = true) ∧
    (∃ (p : Port) (w : LinkWord) (h : HaltInfo) (s : State), 0x8000 ≤ haltNum w ∧ s.basket.outsider = false ∧
      s.basket.lastResume ≠ some (BitVec.ofNat 16 (haltNum w), BitVec.ofNat 32 (haltBeat w)) ∧ s.weaveRuns = true ∧
      s.weave.load = none ∧ s.fault.halt = some h ∧ h.num = BitVec.ofNat 15 (haltNum w) ∧ s.fault.phase = .ready) ∧
    (∃ (f : FaultReport) (s : State), f.cls = 2 ∧ s.weaveRuns = true ∧ s.fault.phase = .running) ∧
    (∃ (d : WeaveDecl) (x : List (Fin 16 × Fin 4 × ReplayResult)) (s : State), Canon s ∧ s.weave.run = some d ∧
      s.fault.phase = .stopped ∧ s.fault.stopNs + 10000 ≤ s.nowNs ∧ s.fault.excluded = false ∧ s.roi.crops = [] ∧ (∀ i
      ∈ s.fault.implicated, ∃ y ∈ x, 4 * y.1.val + y.2.1.val = i.1)) ∧
    (∃ (d : WeaveDecl) (r : Recovery) (i : Nat × Option (BitVec 5)) (s : State), s.weave.run = some d ∧ i ∈
      s.fault.implicated ∧ (∀ y ∈ r.replays, 4 * y.1.val + y.2.1.val ≠ i.1)) ∧
    (∃ (s : State), Served s) :=
  ⟨⟨true, P1, ⟨by decide +kernel, by decide +kernel⟩, by decide +kernel, by decide +kernel, by decide +kernel⟩,
   ⟨false, {P1 with host := {P1.host with bme := false}}, ⟨by decide +kernel, by decide +kernel⟩,
      by decide +kernel, by decide +kernel, by decide +kernel⟩,
   ⟨W, ⟨by decide +kernel, by decide +kernel⟩, by decide +kernel, by decide +kernel, by decide +kernel,
      by decide +kernel, by decide +kernel⟩,
   ⟨FF .started 0x20 (2^256*4096 + (2^256 * 2^32) * 7), true,
      {Test.flying .started (D 0x20 (2^256*4096 + (2^256 * 2^32) * 7)) with basket := W.basket, regs := P1.regs},
      ⟨by decide +kernel, by decide +kernel, by decide +kernel, by decide +kernel⟩, by decide +kernel,
      by decide +kernel⟩,
   ⟨img, l0, LS, canonOf (by decide +kernel), by decide +kernel, by decide +kernel, by decide +kernel,
      by decide +kernel, by decide +kernel⟩,
   ⟨img, 9,
      {W.setFlag Reg.timeAlign 24 true with basket := {W.basket with isPrincipal := false, principal := 2, tree := [(2,1)]}},
      canonOf (by decide +kernel), by decide +kernel, by decide +kernel, by decide +kernel, by decide +kernel,
      by decide +kernel⟩,
   ⟨img, 9, T, by decide +kernel⟩,
   ⟨{T with time := {T.time with belt := 5000000000 * 65536}}, by decide +kernel, by decide +kernel⟩,
   ⟨.e, haltWord 2 2 1 77, W, by decide +kernel, by decide +kernel, by decide +kernel, by decide +kernel⟩,
   ⟨.e, resumeWord 2 1 (some 0) 99, h0, {W with fault := {W.fault with halt := some h0, phase := .ready}},
      by decide +kernel, by decide +kernel, by decide +kernel, by decide +kernel, by decide +kernel,
      by decide +kernel, by decide +kernel, by decide +kernel⟩,
   ⟨⟨eSpEcc, 2, 1, 3, 5⟩, W, by decide +kernel, by decide +kernel, by decide +kernel⟩,
   ⟨Test.decl, [(0, 3, .pass)], wrMem 5 [1,2,3]
      {W with fault := {W.fault with halt := some h0, phase := .stopped, implicated := [(3,none)]}}, canonOf
      (by decide +kernel), by decide +kernel, by decide +kernel, by decide +kernel, by decide +kernel,
      by decide +kernel, by decide +kernel⟩,
   ⟨Test.decl,
      {replays := [], badEntries := [], badTokens := [], badCrops := [], badAway := [], imageOk := true, fault := false},
      (3, none), {W with fault := {W.fault with halt := some h0, phase := .stopped, implicated := [(3,none)]}},
      by decide +kernel, by decide +kernel, by decide +kernel⟩,
   ⟨T, ⟨by decide +kernel, by decide +kernel⟩⟩⟩

/-- A state and operands for the hypotheses of each clause of RegisterCommandsComplete. -/
theorem witness_RegisterCommandsComplete :
    (∃ (src : Writer) (off : BitVec 20) (v new : Word) (be : BitVec 4) (r : RegRow) (s : State), Canon s ∧ Served s ∧
      regRow off.toNat = some r ∧ r.reaches off.toNat be = true ∧ 0x30000 ≤ off.toNat ∧ off.toNat < 0x48000 ∧ new =
      ((((mergeBytes (s.reg off.toNat) v be &&& word r.rw) ||| (s.reg off.toNat &&& ~~~(word r.rw))) &&&
      ~~~(enabledBytes v be &&& word r.w1c)) |||
      (match s.setNow off.toNat with | some x => x.2 &&& word r.w1c | none => 0)) ∧ stagedPairs.contains off.toNat =
      false ∧ stagedPairs.contains (off.toNat - 4) = false ∧ (ownWrite off.toNat v be s).isNone = true ∧ (commandWrite
      src off.toNat (enabledBytes v be) s).isNone = true ∧ writeVerdict s src off.toNat (s.reg off.toNat) new
      (mergeBytes (s.reg off.toNat) v be) = 0) ∧
    (∃ (src : Writer) (off : BitVec 20) (v : Word) (be : BitVec 4) (r : RegRow) (s : State), Served s ∧
      stagedPairs.contains off.toNat = true ∧ regRow off.toNat = some r ∧ r.reaches off.toNat be = true) ∧
    (∃ (off : BitVec 20) (s : State), Canon s ∧ Served s ∧ rcMask off.toNat ≠ 0 ∧ [Reg.timeNowLo, Reg.timeBeatNumLo,
      Reg.timeBeatStampLo, Reg.fieldEvqInfo, Reg.fieldEncPosLo, Reg.serveStepNumLo].contains off.toNat = false ∧
      s.setNow off.toNat = none) ∧
    (∃ (off : BitVec 20) (b x : Word) (s : State), Canon s ∧ Served s ∧ rcMask off.toNat ≠ 0 ∧ [Reg.timeNowLo,
      Reg.timeBeatNumLo, Reg.timeBeatStampLo, Reg.fieldEvqInfo, Reg.fieldEncPosLo, Reg.serveStepNumLo].contains
      off.toNat = false ∧ s.setNow off.toNat = some (b, x)) ∧
    (∃ (off : BitVec 20) (s : State), Served s) ∧
    (∃ (p : BitVec 6) (off : BitVec 20) (s : State), Served s ∧ s.basket.outsider = false ∧ rcMask off.toNat = 0 ∧
      [Reg.timeNowLo, Reg.timeBeatNumLo, Reg.timeBeatStampLo, Reg.fieldEvqInfo, Reg.fieldEncPosLo,
      Reg.serveStepNumLo].contains off.toNat = false ∧ s.setNow off.toNat = none) ∧
    (∃ (p : BitVec 6) (off : BitVec 20) (v : Word) (s t : State), Served s ∧ s.basket.outsider = false ∧ exec
      (.registerWrite .host off v 15) s = .next t) :=
  ⟨⟨.host, BitVec.ofNat 20 Reg.serveLinger, 77, 77, 0xF, (regRow Reg.serveLinger).getD row0, T, canonOf
      (by decide +kernel), ⟨by decide +kernel, by decide +kernel⟩, by decide +kernel, by decide +kernel,
      by decide +kernel, by decide +kernel, by decide +kernel, by decide +kernel, by decide +kernel,
      by decide +kernel, by decide +kernel, by decide +kernel⟩,
   ⟨.host, BitVec.ofNat 20 Reg.serveKvPoolLo, 0x60001234, 0xF, (regRow Reg.serveKvPoolLo).getD row0, T,
      ⟨by decide +kernel, by decide +kernel⟩, by decide +kernel, by decide +kernel, by decide +kernel⟩,
   ⟨BitVec.ofNat 20 Reg.plaitBlkDec, T.setReg Reg.plaitBlkDec 5, canonOf (by decide +kernel), ⟨by decide +kernel,
      by decide +kernel⟩, by decide +kernel, by decide +kernel, by decide +kernel⟩,
   ⟨BitVec.ofNat 20 Reg.plaitBlkDec, 5, 9, {T.setReg Reg.plaitBlkDec 14 with sets := [(Reg.plaitBlkDec, 5, 9)]},
      canonOf (by decide +kernel), ⟨by decide +kernel, by decide +kernel⟩, by decide +kernel, by decide +kernel,
      by decide +kernel⟩,
   ⟨4, T, ⟨by decide +kernel, by decide +kernel⟩⟩,
   ⟨3, BitVec.ofNat 20 Reg.serveKvPoolLo, {T with basket := {T.basket with outsider := false}}, ⟨by decide +kernel,
      by decide +kernel⟩, by decide +kernel, by decide +kernel, by decide +kernel, by decide +kernel⟩,
   ⟨3, 0x20, 5, {T with basket := {T.basket with outsider := false}},
      {T with basket := {T.basket with outsider := false}}, ⟨by decide +kernel, by decide +kernel⟩, by decide +kernel,
      rfl⟩⟩

end Sys2Proof.Tests.Chunk11

namespace Sys2Proof.Tests.Chunk12

def W : State := Test.woven
def place : Placement := { Test.placement with classes := [] }
def alt : Alternate := ⟨6, 2, [⟨0, true, 1⟩], [place]⟩

/-- A state and operands for the hypotheses of each clause of TimePassesWhenIdle. -/
theorem witness_TimePassesWhenIdle :
    (∃ (s : State), s.pending = [] ∧ s.power.phase = .inReset) ∧
    (∃ (d : Int) (s : State), s.pending = [] ∧ s.power.phase ≠ .inReset ∧ s.pllsRun = false ∧ d = clampI (-((s.reg
      Reg.timeAonInc).toNat / 1000 : Nat)) ((s.reg Reg.timeAonInc).toNat / 1000 : Nat) s.time.slew) ∧
    (∃ (d : Int) (s : State), s.pending = [] ∧ s.power.phase ≠ .inReset ∧ s.pllsRun = true ∧ d = clampI (-163) 163
      s.time.slew) ∧
    (∃ (d : Int) (s : State), s.pending = [] ∧ s.power.phase ≠ .inReset ∧ s.pllsRun = true ∧ d = clampI (-163) 163
      s.time.slew) :=
  ⟨⟨State.reset, by decide +kernel, by decide +kernel⟩,
   ⟨0, { T with regs := [] }, by decide +kernel, by decide +kernel, by decide +kernel, by decide +kernel⟩,
   ⟨0, T, by decide +kernel, by decide +kernel, by decide +kernel, by decide +kernel⟩,
   ⟨163, { T with time := { T.time with slew := 1000 } }, by decide +kernel, by decide +kernel, by decide +kernel,
      by decide +kernel⟩⟩

/-- A state and operands for the hypotheses of each clause of BootCommandRefusals. -/
theorem witness_BootCommandRefusals :
    (∃ (src : Writer) (s : State), Canon s ∧ Served s ∧ s.weave.run.isSome = true) ∧
    (∃ (src : Writer) (w : Word) (s : State), Canon s ∧ Served s ∧ 1 < popCount 4 (bits w 0 4)) ∧
    (∃ (b : BitVec 4) (s : State), Canon s ∧ Served s ∧ 1 < popCount 4 b.toNat) :=
  ⟨⟨.host, W, canonOf (by decide +kernel), ⟨by decide +kernel, by decide +kernel⟩, by decide +kernel⟩,
   ⟨.steward, 6, T, canonOf (by decide +kernel), ⟨by decide +kernel, by decide +kernel⟩, by decide +kernel⟩,
   ⟨12, T, canonOf (by decide +kernel), ⟨by decide +kernel, by decide +kernel⟩, by decide +kernel⟩⟩

/-- A state and operands for the hypotheses of each clause of BeatLengthRange. -/
theorem witness_BeatLengthRange :
    (∃ (v : Word) (s : State), Canon s ∧ Served s ∧ s.weave.run = none ∧ s.weave.load = none ∧ s.basket.joined =
      false ∧ 4096 ≤ bits v 0 22 ∧ bits v 0 22 ≤ 2097152) ∧
    (∃ (v : Word) (s : State), Canon s ∧ Served s ∧ s.weave.run = none ∧ s.weave.load = none ∧ s.basket.joined =
      false ∧ 4096 ≤ bits v 0 22 ∧ bits v 0 22 ≤ 2097152) ∧
    (∃ (v : Word) (s : State), Canon s ∧ Served s ∧ s.weave.run = none ∧ s.weave.load = none ∧ s.basket.joined =
      false ∧ (bits v 0 22 < 4096 ∨ 2097152 < bits v 0 22)) ∧
    (∃ (v : Word) (s : State), Canon s ∧ Served s ∧ s.weave.run = none ∧ s.weave.load = none ∧ s.basket.joined =
      false ∧ (bits v 0 22 < 4096 ∨ 2097152 < bits v 0 22)) :=
  ⟨⟨4096, T, canonOf (by decide +kernel), ⟨by decide +kernel, by decide +kernel⟩, by decide +kernel,
      by decide +kernel, by decide +kernel, by decide +kernel, by decide +kernel⟩,
   ⟨2097152, T, canonOf (by decide +kernel), ⟨by decide +kernel, by decide +kernel⟩, by decide +kernel,
      by decide +kernel, by decide +kernel, by decide +kernel, by decide +kernel⟩,
   ⟨4095, T, canonOf (by decide +kernel), ⟨by decide +kernel, by decide +kernel⟩, by decide +kernel,
      by decide +kernel, by decide +kernel, by decide +kernel⟩,
   ⟨2097153, T, canonOf (by decide +kernel), ⟨by decide +kernel, by decide +kernel⟩, by decide +kernel,
      by decide +kernel, by decide +kernel, by decide +kernel⟩⟩

/-- A state and operands for the hypotheses of each clause of WheelTables. -/
theorem witness_WheelTables :
    ∃ (s : State) (d : WeaveDecl) (a : Alternate) (pl : Placement), s.level = 2 ∧ s.placementIn a = some pl ∧ (∀ p ∈
      a.places, p.pkg = s.pkg → p.classes.contains .reserved = false) ∧ pl.convs = [] :=
  ⟨W, Test.decl, alt, place, by decide +kernel, by decide +kernel, by decide +kernel, by decide +kernel⟩

/-- A state and operands for the hypotheses of each clause of UnclaimedOffsets. -/
theorem witness_UnclaimedOffsets :
    (∃ (src : Writer) (off : BitVec 20) (v : Word) (be : BitVec 4) (s : State), regRow off.toNat = none) ∧
    (∃ (src : Writer) (off : BitVec 20) (v : Word) (be : BitVec 4) (r : RegRow) (s : State), regRow off.toNat = some
      r ∧ r.rw = 0 ∧ r.w1c = 0 ∧ r.wo = 0 ∧ refusedBits off.toNat = 0) ∧
    (∃ (off : BitVec 20) (s : State), Served s ∧ regRow off.toNat = none) ∧
    (∃ (off : BitVec 14) (v : Word) (be : BitVec 4) (s : State), 1152 ≤ off.toNat) ∧
    (∃ (off : BitVec 14) (s : State), Served s ∧ 1152 ≤ off.toNat ∧ (off.toNat < 0x2000 ∨ 0x200C ≤ off.toNat)) ∧
    (∃ (off : BitVec 14) (s : State), Served s ∧ 1152 ≤ off.toNat ∧ (off.toNat < 0x2000 ∨ 0x200C ≤ off.toNat)) :=
  ⟨⟨.host, 0x20, 5, 15, T, by decide +kernel⟩,
   ⟨.host, 0, 5, 15, ⟨0, 1, 4, 0, 0, 0, 0, 0⟩, T, by decide +kernel, by decide +kernel, by decide +kernel,
      by decide +kernel, by decide +kernel⟩,
   ⟨0x7FFFC, T, ⟨by decide +kernel, by decide +kernel⟩, by decide +kernel⟩,
   ⟨1152, 5, 15, T, by decide +kernel⟩,
   ⟨1152, T, ⟨by decide +kernel, by decide +kernel⟩, by decide +kernel, by decide +kernel⟩,
   ⟨0x200C, T, ⟨by decide +kernel, by decide +kernel⟩, by decide +kernel, by decide +kernel⟩⟩

/-- A state and operands for the hypotheses of each clause of AddressHoles. -/
theorem witness_AddressHoles :
    (∃ (q : RemoteReq) (s : State), Canon s ∧ q.addr.toNat < 2 ^ 36 ∧ placeLocal q.addr.toNat = .hole) ∧
    (∃ (s : State) (off : Nat), off < 2 ^ 36) :=
  ⟨⟨⟨2, 0xC0000, 0, [(1, false)]⟩, T, canonOf (by decide +kernel), by decide +kernel, by decide +kernel⟩,
   ⟨T, 2 ^ 36 - 1, by decide +kernel⟩⟩

/-- A state and operands for the hypotheses of each clause of ThermalLimits. -/
theorem witness_ThermalLimits :
    (∃ (src : Writer) (v : Word) (s : State), Canon s ∧ Served s) ∧
    (∃ (src : Writer) (v : Word) (s : State), Canon s ∧ Served s) ∧
    (∃ (src : Writer) (v : Word) (s : State), Canon s ∧ Served s) ∧
    (∃ (src : Writer) (v : Word) (s : State), Canon s ∧ Served s) ∧
    (∃ (src : Writer) (v : Word) (s : State), Canon s ∧ Served s ∧ bits v 8 8 = 0) :=
  ⟨⟨.host, 0x7D7C7B, T, canonOf (by decide +kernel), ⟨by decide +kernel, by decide +kernel⟩⟩,
   ⟨.host, 0x5F5E5D, W, canonOf (by decide +kernel), ⟨by decide +kernel, by decide +kernel⟩⟩,
   ⟨.host, 0x7D7C7B, T, canonOf (by decide +kernel), ⟨by decide +kernel, by decide +kernel⟩⟩,
   ⟨.host, 0x5F5E5D, W, canonOf (by decide +kernel), ⟨by decide +kernel, by decide +kernel⟩⟩,
   ⟨.host, 0xFF00FF, T, canonOf (by decide +kernel), ⟨by decide +kernel, by decide +kernel⟩, by decide +kernel⟩⟩

/-- A state and operands for the hypotheses of each clause of ControlQueueOrder. -/
theorem witness_ControlQueueOrder :
    ∃ (w : LinkWord) (q : List LinkWord), q.Pairwise (fun a b => ctrlPriority a ≤ ctrlPriority b) :=
  ⟨0, [0, 0], by decide +kernel⟩

/-- A state and operands for the hypotheses of each clause of IntegerReductions. -/
theorem witness_IntegerReductions :
    (∃ (op : Nat) (l : List Int), op ≠ 3 ∧ op ≠ 4) ∧
    (∃ (w : BitVec 64) (acc : Word) (a b : BitVec 16), pBf16 w = false ∧ pOp w ≠ 3 ∧ pOp w ≠ 4) ∧
    (∃ (w : BitVec 64), pBf16 w = false ∧ pOp w = 0 ∧ pSgnA w = false ∧ pSgnB w = false) :=
  ⟨⟨5, [255, 1], by decide +kernel, by decide +kernel⟩,
   ⟨0, 7, 255, 255, by decide +kernel, by decide +kernel, by decide +kernel⟩,
   ⟨0, by decide +kernel, by decide +kernel, by decide +kernel, by decide +kernel⟩⟩

/-- A state and operands for the hypotheses of each clause of MatrixSums. -/
theorem witness_MatrixSums :
    (∃ (w : BitVec 64) (old : Word) (p : BitVec 16 × BitVec 16) (ps : List (BitVec 16 × BitVec 16)), pBf16 w = false
      ∧ pOp w = 0) ∧
    (∃ (s : State) (n g base : Nat) (w : BitVec 64) (f : BitVec 16 → Int) (es : List (BitVec 16 × Bool)) (j : Nat),
      pOp w = 0 ∧ es.length = pRows w ∧ j < pCols w) ∧
    (∃ (op : Nat) (l l' : List Int), l.Perm l') :=
  ⟨⟨0, 0, (255, 255), [], by decide +kernel, by decide +kernel⟩,
   ⟨T, 0, 0, 0, 0, fun h => h.toNat, [(1, false)], 0, by decide +kernel, by decide +kernel, by decide +kernel⟩,
   ⟨0, [1, 2], [2, 1], by decide +kernel⟩⟩

end Sys2Proof.Tests.Chunk12

namespace Sys2Proof.Tests

/-- The state that a command leaves. -/
def after (c : Instr) (s : State) : State :=
  match exec c s with
  | .next t => t
  | _ => s

/-- A state whose tenant 7 has request 5 at the head of its queue. -/
def queued : State :=
  setTenant 7 { Tenant.reset with head := some 5 } (setReq 5 { Req.reset with st := .queued, tenant := 7 } T)

theorem witness_AdmissionOrder : queued.nextHead = some (5, queued.req 5) := by decide +kernel

/-- A LIST table that allows tokens 0 and 1. -/
def listTable : GrmSrc := fun o _ => if o = 3 then 1 else if o = 64 then 3 else 0

theorem witness_TokenChoice : ∃ (c : Ctx) (t : Nat) (x : BitVec 32), ([7, 9, 11] : List (BitVec 32))[t]? = some x ∧
    allowed listTable 4095 c t = true ∧
    (∀ u y, ([7, 9, 11] : List (BitVec 32))[u]? = some y → allowed listTable 4095 c u = true →
      y.toInt < x.toInt ∨ (y.toInt = x.toInt ∧ t ≤ u)) := by
  refine ⟨newCtx 2 5 0, 1, 9, rfl, by decide, ?_⟩
  intro u y hy ha
  match u with
  | 0 => cases hy; exact Or.inl (by decide)
  | 1 => cases hy; exact Or.inr ⟨rfl, Nat.le_refl 1⟩
  | 2 => exact absurd ha (by decide)
  | n + 3 => simp at hy

theorem witness_CanonKept : ∃ s t : State, Canon s ∧ step s = .next t :=
  ⟨State.reset, State.reset, canonOf (by decide +kernel), rfl⟩

theorem witness_FusesNeverCleared : ∃ s t : State, Canon s ∧ step s = .next t :=
  ⟨State.reset, State.reset, canonOf (by decide +kernel), rfl⟩

theorem witness_TimeFrame : chapter .timeNowLoRead = .time ∧ exec .timeNowLoRead T = .next (after .timeNowLoRead T) :=
  ⟨rfl, rfl⟩

theorem witness_BootFrame : chapter .thermalTrip = .boot ∧ exec .thermalTrip T = .next (after .thermalTrip T) := ⟨rfl, rfl⟩

theorem witness_WithyFrame : chapter .joinRetry = .withy ∧ exec .joinRetry T = .next (after .joinRetry T) := ⟨rfl, rfl⟩

theorem witness_HostFrame : chapter .flr = .host ∧ exec .flr T = .next (after .flr T) := ⟨rfl, rfl⟩

theorem witness_FieldFrame : chapter .evqPop = .field ∧ exec .evqPop T = .next (after .evqPop T) := ⟨rfl, rfl⟩

theorem witness_RegionFrame : chapter .swapApply = .regions ∧ exec .swapApply T = .next (after .swapApply T) := ⟨rfl, rfl⟩

theorem witness_WeighFrame : chapter .startA = .weigh ∧ exec .startA T = .next (after .startA T) := ⟨rfl, rfl⟩

theorem witness_CoreFrame : chapter (.gWriteback 2 0 []) = .cores ∧
    exec (.gWriteback 2 0 []) T = .next (after (.gWriteback 2 0 []) T) := ⟨rfl, rfl⟩

theorem witness_ServeFrame : chapter .reqRead = .serve ∧ exec .reqRead T = .next (after .reqRead T) := ⟨rfl, rfl⟩

theorem witness_FaultFrame : chapter .faultClear = .faults ∧ exec .faultClear T = .next (after .faultClear T) := ⟨rfl, rfl⟩

theorem witness_RegisterFrame : chapter (.rcFieldRead false 0) = .registers ∧
    exec (.rcFieldRead false 0) T = .next (after (.rcFieldRead false 0) T) := ⟨rfl, rfl⟩

/-! ### The manual's worked examples -/

/-- 02_time, worked example: N_P of MULT 48 at 0.5 %. -/
theorem test_period_cycles : cyclesPerPeriod 48 5 = 38304 := by decide

/-- 02_time, worked example: the strobe 600,000 c-cycles into the beat that starts at 1,000,008,000 ns stands between
1,000,509,268 and 1,000,509,269 ns. -/
theorem test_strobe_time :
    cyclesAt 48 5 (1000008000 * 65536) = 31250 * 38304 + 9588 ∧
    cyclesAt 48 5 (1000509268 * 65536) < 31250 * 38304 + 609588 ∧
    cyclesAt 48 5 (1000509269 * 65536) = 31250 * 38304 + 609588 := by decide +kernel

/-- 07_weigh, worked example: code 441,953,280 weighs 823,450 hundredths of a gram. -/
theorem test_weight : weightOf ((T.setReg Reg.wfeZero 366503876).setReg Reg.wfeSpan 46875000) 441953280 = (823450, false) := by
  decide +kernel

/-- 10_convolution, worked example: output sizes of 64 × 128 at 3 × 3, stride 2, padding 1. -/
theorem test_conv_size : convOut 64 1 1 3 1 2 = 32 ∧ convOut 128 1 1 3 1 2 = 64 := by decide

/-- 11_approximate, worked example: stress classes of the two tiles. -/
theorem test_stress : stressClass 140 3310 = 1 ∧ stressClass 600 5200 = 3 := by decide

/-- 13_requests, worked example: label A of tenant 0x0A3 is admitted at tag 5,000 with weight 8. -/
def tenants : State :=
  setTenant 0x0A3 { Tenant.reset with weight := 8, budget := 20000, spent := 19600, finish := 4950 * 65536, head := some 1 }
    (setReq 1 { Req.reset with st := .queued, tenant := 0x0A3, promptLen := 768, maxLen := 32, tag := 5000 * 65536 } T)

theorem test_admission : ((admitOne 1 tenants).tenant 0x0A3).finish = 5100 * 65536 ∧
    ((admitOne 1 tenants).tenant 0x0A3).spent = 20368 ∧ ((admitOne 1 tenants).tenant 0x0A3).exhausted = true ∧
    (admitOne 1 tenants).serve.vtime = 5000 * 65536 := by decide +kernel

/-- 13_requests, worked example: the slack of label A, 12,439 counts ahead at 30 counts per step. -/
theorem test_slack : slack (T.setReg Reg.serveDlCfg 0x0200001E)
    { Req.reset with st := .queued, promptLen := 768, maxLen := 32, dlPos := true, deadline := 12439 } = 377 := by
  decide +kernel

/-- 13_requests, worked example: rank 16 over 48 projections of 512 to 512. -/
theorem test_adapter_length : adapterLen (List.replicate 48 (512, 512)) 16 = 786816 := by decide +kernel

/-- Header of grammar 12 (15_tokens, worked example): 25 states, 6 classes, U0 of modulus 11, U1 of modulus 10. -/
def grammar12 : GrmSrc := fun o _ => if o = 4 then 25 else if o = 8 then 6 else if o = 9 then 1 else 0

/-- A check operation of unit 0: operation, weight, target 0, on a digit. -/
def op0 (op w v : Nat) (c : Ctx) : Ctx := (checkOp grammar12 (op * 2 ^ 13 + w * 2 ^ 17) v c).1

/-- 15_tokens, worked example: 8,884 bytes; the digits 4 0 7 1 2 5 3 8 6 under weights 2 to 10 give 2 mod 11, and the
check character 9 passes where 8 fails. -/
theorem test_check_digit : gLength grammar12 = 8884 ∧
    (op0 2 10 6 (op0 2 9 8 (op0 2 8 3 (op0 2 7 5 (op0 2 6 2 (op0 2 5 1 (op0 2 4 7 (op0 2 3 0
      (op0 1 2 4 (newCtx 2 5 0)))))))))).u0 = 2 ∧
    (checkOp grammar12 (4 * 2 ^ 13 + 2 ^ 17) 9 { newCtx 2 5 0 with u0 := 2 }).2 = false ∧
    (checkOp grammar12 (4 * 2 ^ 13 + 2 ^ 17) 8 { newCtx 2 5 0 with u0 := 2 }).2 = true := by decide +kernel

/-- 18_fuses, worked example: the CRC-8 of 0xA3. -/
theorem test_crc8 : crc8 0xA3 = 0x60 := by decide

/-- 21_index, worked example: the codes of E_APX_BOUND and E_POLL_RANGE. -/
theorem test_codes : eApxBound = 0x0A28 ∧ ePollRange = 0x0310 := by decide

/-- 21_index, worked example: a HOST_POLL write of 0 leaves the poll period, and HOST_ERR reads 0x0310. -/
theorem test_poll_range :
    (after (.registerWrite .host 0x6004 0 15) T).reg Reg.hostPoll = T.reg Reg.hostPoll ∧
    (after (.registerWrite .host 0x6004 0 15) T).reg Reg.hostErr = 0x310 := by decide +kernel

/-- R83: a signal wraps modulo 2^32, and a wait looks 2^31 back. -/
theorem test_knot : (signalKnot 3 5 { T with knots := [(3, 0xFFFFFFFE)] }).knot 3 = 3 ∧
    knotMet 3 0xFFFFFFFE = true ∧ knotMet 0xFFFFFFFE 3 = false := by decide +kernel

/-- R313: no bit of word 16 alone advances the lifecycle: the forms are four identical nibbles. -/
theorem test_lifecycle : lifecycleForm 0x1111 = some 1 ∧ lifecycleForm 0x1110 = none := by decide

/-- Table Scope-5: SHA-256 of "abc", the worked example of FIPS 180-4. -/
theorem test_sha256 : sha256 [0x61, 0x62, 0x63] =
      [0xba, 0x78, 0x16, 0xbf, 0x8f, 0x01, 0xcf, 0xea, 0x41, 0x41, 0x40, 0xde, 0x5d, 0xae, 0x22, 0x23,
      0xb0, 0x03, 0x61, 0xa3, 0x96, 0x17, 0x7a, 0x9c, 0xb4, 0x10, 0xff, 0x61, 0xf2, 0x00, 0x15, 0xad] := by
  decide +kernel

/-- R46: lane 0 starts with bits 30 to 8 of the seed set, so its output bits 20, 21 and 22 are the first ones that are 1. -/
theorem test_scrambler : (scrWord 0 0).toNat % 2 ^ 24 = 0x700000 := by decide +kernel

/-- R46: scrambling undoes itself, here in position 5 of a frame on two lanes. -/
theorem test_descramble : let x := { LinkPort.reset with width := 1, lanes := 3 }
    x.scramble 5 (x.scramble 5 0x123456789ABCDEF) = 0x123456789ABCDEF := by decide +kernel

/-! ### Ill-formed commands, one for each check of WellFormed -/

/-- A loose message with `n` bytes. -/
def loose (n : Nat) : Loose := ⟨6, 1, 2, 0, 0, 0, false, List.replicate n 0, []⟩

theorem test_wf_offset : (Instr.registerWrite .host 2 0 15).wf = false ∧ (Instr.loStageWrite .host 1 0 15).wf = false ∧
    (Instr.rcFieldRead false 3).wf = false ∧ (Instr.forwardedAccess 0 6 none).wf = false ∧
    (Instr.registerWrite .host 4 0 15).wf = true := by decide

theorem test_wf_bar2 : (Instr.vectorUnmask (.bar2 2 0 15)).wf = false ∧ (Instr.vectorUnmask (.bar2 12 0 15)).wf = true := by
  decide

theorem test_wf_loose : (Instr.hostFwdReq (loose 1025) .failed).wf = false ∧ (Instr.kvShipEnd (loose 1025)).wf = false ∧
    (Instr.kvShipEnd (loose 1024)).wf = true := by decide +kernel

theorem test_wf_doorbell : (Instr.doorbellReadDone 0 (.ok [1])).wf = false := by decide

theorem test_wf_sensors : (Instr.sensorSample [] []).wf = false := by decide

theorem test_wf_rows : (Instr.readoutEnd [(0, [1])]).wf = false ∧ (Instr.darkCaptureDone []).wf = false := by decide +kernel

theorem test_wf_scratchpad : (Instr.spRow 0 ⟨.s, 0, 0, List.replicate 513 0, none, none, none, false, []⟩).wf = false := by
  decide +kernel

theorem test_wf_load : (Instr.feedLoad 0 0 none 2 false 0 false 0 []).wf = false := by decide

theorem test_wf_plait : (Instr.plaitEncode 0 ⟨0, 0, 512, 1, 3, false, false, none, none, [], []⟩).wf = false := by decide

theorem test_wf_logits : (Instr.orderDecode 0 0 0 [] [] [] []).wf = false := by decide

end Sys2Proof.Tests
end

section
/-!
PROOFS. BeatLength.lean: what a refused write leaves behind, when BAR0 answers, and a write of the beat length (R10, R39).
-/

namespace Sys2Proof.Machine

/-! ### Registers after operations of other parts -/

/-- A register depends on the stored BAR0 words only. -/
theorem reg_eq_of_regs_eq {s t : State} (h : t.regs = s.regs) (off : Nat) : t.reg off = s.reg off := by
  simp only [State.reg, h]

/-- A field of a register depends on the stored BAR0 words only. -/
theorem fld_eq_of_regs_eq {s t : State} (h : t.regs = s.regs) (off lo len : Nat) :
    t.fld off lo len = s.fld off lo len := by
  simp only [fld_eq_bits, reg_eq_of_regs_eq h]

/-- A field is no wider than its length says. -/
theorem bits_mod {n : Nat} (w : BitVec n) (lo len : Nat) : bits w lo len % 2 ^ len = bits w lo len :=
  Nat.mod_mod _ _

/-- A write that enables all four bytes replaces the word (R351). -/
theorem mergeBytes_full (old val : Word) : mergeBytes old val 0xF = val := by
  have hmask : val &&& 0xFFFFFFFF#32 = val := BitVec.and_allOnes
  simp [mergeBytes, hmask]

/-! ### Refusals -/

section Refusals

/-! Of a code that is a report (not 0x0000), names an ERR register, and is latched here: a stake latches no HOST code. -/

variable {c : Code} {core r : Nat} {s : State} (hc : c ≠ 0) (hr : errReg c core = some r)
  (ha : codeBlock c = 0x03 → s.anchor = true)

include hc hr ha

/-- A reported code is set in its ERR register unless a lower one of this cycle stands there (R353). -/
theorem latch_eq :
    latch c core s = if s.lowerStands r c then s else s.hwSet r (fun w => putBits w 0 16 c.toNat) := by
  have hstake : (codeBlock c = 0x03 && !s.anchor) = false := by
    by_cases hb : codeBlock c = 0x03 <;> simp [hb, ha]
  simp only [latch, if_neg hc, hr, hstake, Bool.false_eq_true, if_false]

/-- What a report leaves in its ERR register. -/
theorem latched_latch (h : Canon s) : Latched c r s (latch c core s) := by
  rw [Latched, latch_eq hc hr ha]
  split
  · rfl
  · rw [fld_eq_bits, reg_hwSet h.regs, bits_putBits _ _ _ _ (by decide), Nat.mod_eq_of_lt c.isLt]

/-- A reported code changes no register but its ERR register. -/
theorem regsOnly_latch (h : Canon s) : RegsOnly [r] s (latch c core s) := by
  intro off hoff
  rw [latch_eq hc hr ha]
  split
  · rfl
  · exact reg_hwSet_ne h.regs _ (by simpa using hoff)

end Refusals

/-- `refuse` does what a refusal may do: the code stands in its ERR register, nothing else changes (R353, R357). -/
theorem refused_refuse {c : Code} {r : Nat} {s : State} (h : Canon s) (hc : c ≠ 0) (hr : errReg c 0 = some r)
    (ha : codeBlock c = 0x03 → s.anchor = true) : Refused c r s (refuse c s) :=
  ⟨latched_latch hc hr ha h, (refuse_only c s (Moves.refl _ s) (by simp)).only, regsOnly_latch hc hr ha h⟩

/-! ### When a write is judged -/

/-- A package in Run that serves its BARs answers at every offset (R321). -/
theorem answers_of_served {s : State} (h : Served s) (off : Nat) : s.answers off = true := by
  obtain ⟨hphase, hserving⟩ := h
  simp [State.answers, hphase, hserving]

/-- No weave runs and none is loaded: the weave checks of R36, R39 and R44 pass (R355). -/
theorem weaveBusy_of_idle {s : State} (hrun : s.weave.run = none) (hload : s.weave.load = none) :
    s.weaveBusy = false := by
  simp [State.weaveBusy, hrun, hload]

/-- A package on its own follows no principal. -/
theorem follows_of_not_joined {s : State} (h : s.basket.joined = false) : s.follows = false := by
  simp [State.follows, h]

/-! ### The beat length -/

/-- Scheduling beat values changes no register: the registers show what the write put there (log entry 63). -/
@[simp] theorem scheduleBeat_regs (b epoch : Nat) (s : State) : (scheduleBeat b epoch s).regs = s.regs := by
  obtain ⟨-, hsame⟩ := (scheduleBeat_only b epoch s (Moves.refl [.time, .basket] s) (by simp)).only
  exact (hsame .regs (by decide)).1

/-- With the weave idle and no principal above, the range is the one check left of R39. -/
theorem timeBeatLenWrite_idle {v : Word} {s : State} (hbusy : s.weaveBusy = false) (hfollows : s.follows = false) :
    timeBeatLenWrite v 0xF s = if bits v 0 22 < 4096 ∨ 2097152 < bits v 0 22 then refuse eBeatRange s
      else scheduleBeat (bits v 0 22) (s.pair Reg.timeBeatEpochLo Reg.timeBeatEpochHi)
        (s.setFld Reg.timeBeatLen 0 22 (bits v 0 22)) := by
  simp only [timeBeatLenWrite, mergeBytes_full, hbusy, hfollows, Bool.false_eq_true, if_false]

/-- A write of the beat length completes where BAR0 answers, as `timeBeatLenWrite` gives. -/
theorem completes_timeBeatLenWrite {v : Word} {be : BitVec 4} {s : State} {P : State → Prop} (hserved : Served s)
    (hP : P (timeBeatLenWrite v be s)) : Completes (.timeBeatLenWrite v be) s P := by
  refine ⟨_, rfl, ?_⟩
  rwa [if_pos (answers_of_served hserved _)]

/-- The beat length after reset (R10). -/
theorem timeBeatLen_reset : State.reset.fld Reg.timeBeatLen 0 22 = 1200000 := by decide +kernel

section JudgedByRange

/-! A write judged with the weave idle and no principal above. -/

variable {v : Word} {s : State} (hcanon : Canon s) (hbusy : s.weaveBusy = false) (hfollows : s.follows = false)

include hcanon hbusy hfollows

/-- An accepted beat length reads back from the write on (R39, log entry 63). -/
theorem timeBeatLen_of_inRange (hlo : 4096 ≤ bits v 0 22) (hhi : bits v 0 22 ≤ 2097152) :
    (timeBeatLenWrite v 0xF s).fld Reg.timeBeatLen 0 22 = bits v 0 22 := by
  have hrange : ¬(bits v 0 22 < 4096 ∨ 2097152 < bits v 0 22) := by omega
  rw [timeBeatLenWrite_idle hbusy hfollows, if_neg hrange, fld_eq_of_regs_eq (scheduleBeat_regs ..),
    fld_setFld hcanon.regs _ _ _ _ (by decide), bits_mod]

/-- A beat length outside the range is refused with E_BEAT_RANGE (R39). -/
theorem refused_timeBeatLenWrite_of_outOfRange (hrange : bits v 0 22 < 4096 ∨ 2097152 < bits v 0 22) :
    Refused eBeatRange Reg.timeErr s (timeBeatLenWrite v 0xF s) := by
  rw [timeBeatLenWrite_idle hbusy hfollows, if_pos hrange]
  exact refused_refuse hcanon (by decide) rfl (fun hblock => absurd hblock (by decide))

end JudgedByRange

/-- Settles O49: the reset value, a write inside the range and a write outside it, each by its lemma above. -/
theorem beatLengthRange : Obligations.BeatLengthRange := by
  refine ⟨timeBeatLen_reset, ?_, ?_⟩
  · intro v s hcanon hserved hrun hload hjoined hlo hhi
    exact completes_timeBeatLenWrite hserved
      (timeBeatLen_of_inRange hcanon (weaveBusy_of_idle hrun hload) (follows_of_not_joined hjoined) hlo hhi)
  · intro v s hcanon hserved hrun hload hjoined hrange
    exact completes_timeBeatLenWrite hserved
      (refused_timeBeatLenWrite_of_outOfRange hcanon (weaveBusy_of_idle hrun hload) (follows_of_not_joined hjoined)
        hrange)

end Sys2Proof.Machine
end

section
/-!
PROOFS. WheelTables.lean: which slot codes a wheel table may hold (R156), and where the test of the tables stands among
the checks of a weave load (R336, log entry 69).
-/

namespace Sys2Proof.Machine

/-! ### The slots of one table -/

/-- Slot 15 holds the code of R; every other slot holds a smaller code, since R has the largest of Table Scratch-3. -/
theorem wheelOk_iff (w : Nat) : wheelOk w = true ↔
    w >>> (4 * 15) % 16 = wheelCode .r ∧ ∀ k < 15, w >>> (4 * k) % 16 < wheelCode .r := by
  simp only [wheelOk, wheelCode, List.all_eq_true, List.mem_range]
  constructor
  · intro h
    refine ⟨by simpa using h 15 (by decide), fun k hk => ?_⟩
    simpa [hk.ne] using h k (by omega)
  · rintro ⟨hlast, hothers⟩ k hk
    by_cases h15 : k = 15
    · simpa [h15] using hlast
    · simpa [h15] using hothers k (by omega)

/-- A code is below R's exactly if it is not R's and not one of 0xC to 0xF, which no port has. -/
theorem lt_wheelCode_r_iff (c : Nat) : c < wheelCode .r ↔ c ≠ wheelCode .r ∧ c < 0xC := by
  simp only [wheelCode]
  omega

/-- The two rules of R156 on a table's 64 bits. -/
theorem wheelOk_toNat_iff (t : BitVec 64) : wheelOk t.toNat = true ↔
    bits t 60 4 = wheelCode .r ∧ ∀ k < 15, bits t (4 * k) 4 ≠ wheelCode .r ∧ bits t (4 * k) 4 < 0xC := by
  simp only [wheelOk_iff, lt_wheelCode_r_iff]
  rfl

/-- The test of all cores' tables fails exactly if some core has a table that fails. -/
theorem wheels_fail_iff (s : State) (pl : Placement) :
    (!(List.range 16).all fun n => (wheelsOf s pl n).all wheelOk) = true ↔
      ∃ n < 16, ∃ t ∈ wheelsOf s pl n, wheelOk t = false := by
  simp [List.all_eq_false]

/-! ### The test among the checks of a load -/

/-- The checks of protected ranges and coded transfers have codes of their own (R227, R228). -/
theorem plaitLoadVerdict_ne_eSpWheel (s : State) (pl : Placement) : plaitLoadVerdict s pl ≠ eSpWheel := by
  simp only [plaitLoadVerdict]
  split_ifs <;> decide

/-- At level 2, with no reserved width class and no convolution in the placement, the checks from the wheel tables on
decide. -/
theorem alternateVerdict_of_placed {s : State} {a : Alternate} {pl : Placement} (d : WeaveDecl) (hlevel : s.level = 2)
    (hplaced : s.placementIn a = some pl)
    (hclasses : ∀ p ∈ a.places, p.pkg = s.pkg → p.classes.contains .reserved = false) (hconvs : pl.convs = []) :
    alternateVerdict s d a =
      if !(List.range 16).all (fun n => (wheelsOf s pl n).all wheelOk) then eSpWheel
      else if !(List.range 16).all (fun n => regionsOk (segsOf s pl n) (regionsOf s pl n)) then eSpRegion
      else if !linksMeet s d then eWeaveLink
      else plaitLoadVerdict s pl := by
  have hreserved : (a.places.filter fun p => p.pkg == s.pkg).any (fun p => p.classes.contains .reserved) = false := by
    simpa only [List.any_eq_false, List.mem_filter, beq_iff_eq, and_imp, Bool.not_eq_true] using hclasses
  simp only [alternateVerdict, hlevel, hreserved, hplaced, hconvs, beq_self_eq_true, Bool.true_or, Bool.not_true,
    Bool.false_eq_true, if_false, List.map_nil, List.find?_nil]

/-- Of the checks that are left there, the test of the wheel tables alone answers E_SP_WHEEL. -/
theorem alternateVerdict_eq_eSpWheel_iff {s : State} {a : Alternate} {pl : Placement} (d : WeaveDecl)
    (hlevel : s.level = 2) (hplaced : s.placementIn a = some pl)
    (hclasses : ∀ p ∈ a.places, p.pkg = s.pkg → p.classes.contains .reserved = false) (hconvs : pl.convs = []) :
    alternateVerdict s d a = eSpWheel ↔ ∃ n < 16, ∃ t ∈ wheelsOf s pl n, wheelOk t = false := by
  have hregion : eSpRegion ≠ eSpWheel := by decide
  have hlink : eWeaveLink ≠ eSpWheel := by decide
  rw [alternateVerdict_of_placed d hlevel hplaced hclasses hconvs, ← wheels_fail_iff]
  split_ifs with hwheels
  · exact iff_of_true rfl hwheels
  · exact iff_of_false hregion hwheels
  · exact iff_of_false hlink hwheels
  · exact iff_of_false (plaitLoadVerdict_ne_eSpWheel s pl) hwheels

/-- Settles O51: the rules on one table's slots, and the tables of a placement among the checks of a load. -/
theorem wheelTables : Obligations.WheelTables :=
  ⟨wheelOk_toNat_iff, fun _ d _ _ hlevel hplaced hclasses hconvs =>
    alternateVerdict_eq_eSpWheel_iff d hlevel hplaced hclasses hconvs⟩

end Sys2Proof.Machine
end

section
/-!
PROOFS. IntegerReductions.lean: sums of integer terms modulo 2^32 and the neutral values (R172).
-/

namespace Sys2Proof.Machine

/-! ### Operations that sum: all but MINP and MAXP -/

section Summing

variable {op : Nat} (hminp : op ≠ 3) (hmaxp : op ≠ 4)

include hminp hmaxp

/-- Two partial results are added, with no saturation. -/
theorem reduce2_eq_add : reduce2 op = (· + ·) := by
  funext x y
  unfold reduce2
  split
  · contradiction
  · contradiction
  · rfl

/-- A sum starts at zero. -/
theorem neutral_eq_zero : neutral op = 0 := by
  unfold neutral
  split
  · contradiction
  · contradiction
  · rfl

/-- A reduction is the exact sum, cut to 32 bits once at its end. -/
theorem reduceInt_eq_ofInt_sum (l : List Int) : reduceInt op l = BitVec.ofInt 32 l.sum := by
  rw [reduceInt, reduce2_eq_add hminp hmaxp, neutral_eq_zero hminp hmaxp, List.sum_eq_foldl]

end Summing

/-- A running accumulator takes a term modulo 2^32: reading it as a signed number before the addition, and cutting the
sum after it, is addition of words. -/
theorem osAcc_eq_add {w : BitVec 64} (hint : pBf16 w = false) (hminp : pOp w ≠ 3) (hmaxp : pOp w ≠ 4) (acc : Word)
    (a b : BitVec 16) : osAcc w false acc a b =
      acc + BitVec.ofInt 32 (termOf (pOp w) (byteVal (pSgnA w) (lowByte a)) (byteVal (pSgnB w) (lowByte b))) := by
  simp only [osAcc, hint, Bool.false_eq_true, if_false, reduce2_eq_add hminp hmaxp, BitVec.ofInt_add,
    BitVec.ofInt_toInt]

/-! ### The greatest unsigned product -/

/-- 255 × 255 of OP MAC on unsigned operands enters the sum as 65,025. -/
theorem osAcc_mac_unsigned_255 {w : BitVec 64} (hint : pBf16 w = false) (hmac : pOp w = 0) (hsgnA : pSgnA w = false)
    (hsgnB : pSgnB w = false) (acc : Word) : osAcc w false acc 255 255 = acc + 65025#32 := by
  have hterm : termOf 0 (byteVal false (lowByte 255)) (byteVal false (lowByte 255)) = 65025 := by decide
  rw [osAcc_eq_add hint (by simp [hmac]) (by simp [hmac]), hmac, hsgnA, hsgnB, hterm]
  rfl

/-- Settles O50: sums and accumulation by the lemmas above; the empty reductions are the neutral values. -/
theorem integerReductions : Obligations.IntegerReductions :=
  ⟨fun _ l hminp hmaxp => reduceInt_eq_ofInt_sum hminp hmaxp l,
    fun _ acc a b hint hminp hmaxp => osAcc_eq_add hint hminp hmaxp acc a b,
    rfl, rfl,
    fun _ hint hmac hsgnA hsgnB acc => osAcc_mac_unsigned_255 hint hmac hsgnA hsgnB acc⟩

end Sys2Proof.Machine
end

section
/-!
PROOFS. FuseWords.lean: a fuse word's bits as votes of its three copies, and the bytes a region check runs over (R302).
-/

namespace Sys2Proof.Machine

/-! ### Majority of three copies -/

/-- Some two of three bits are 1 exactly if the number of bits that are 1 is at least two. -/
theorem two_of_three_iff_two_le_count (a b c : Bool) :
    (a && b || a && c || b && c) = true ↔ 2 ≤ a.toNat + b.toNat + c.toNat := by
  decide +revert

/-- The word-wide operations of the majority vote on each bit by itself. -/
theorem majority3_getLsbD_iff (a b c : Word) (i : Nat) : (majority3 a b c).getLsbD i = true ↔
    2 ≤ (a.getLsbD i).toNat + (b.getLsbD i).toNat + (c.getLsbD i).toNat := by
  simp only [majority3, BitVec.getLsbD_or, BitVec.getLsbD_and, two_of_three_iff_two_le_count]

/-- A word read at the normal margin is the majority of the copies that the fuse controller programs. -/
theorem fuseWord_eq_majority3_copy (s : State) (w : Nat) :
    s.fuseWord w = majority3 (s.fuse.copy w 0) (s.fuse.copy w 1) (s.fuse.copy w 2) := rfl

/-! ### Bytes of a region -/

/-- The words of a region in ascending order, each replaced by its four bytes. -/
theorem fuseBytes_eq_flatMap (rd : Nat → Word) (lo n : Nat) :
    fuseBytes rd lo n = (List.range n).flatMap (fun i => leBytes 4 (rd (lo + i)).toNat) :=
  List.flatMap_def.symm

/-- Settles O48: the vote on each bit of the three copies, and the check code over the region's bytes. -/
theorem fuseWords : Obligations.FuseWords := by
  constructor
  · intro s w i
    rw [fuseWord_eq_majority3_copy, majority3_getLsbD_iff]
  · intro rd lo n
    rw [fuseCrc, fuseBytes_eq_flatMap]

end Sys2Proof.Machine
end

section
/-!
PROOFS. BootCommand.lean: a write of BOOT_CMD as its commands, and the two refusals of R340.
-/

namespace Sys2Proof.Machine

/-! ### The write of the register -/

/-- The row of BOOT_CMD: four write-only bits (Table Images-11). -/
def bootCmdRow : RegRow := ⟨Reg.bootCmd, 1, 4, 0, 0, 0, 0xF, 0⟩

/-- BOOT_CMD's offset is claimed by its row. -/
theorem regRow_bootCmd : regRow Reg.bootCmd = some bootCmdRow := rfl

/-- With all four bytes enabled, a command sees the word that was written (R351). -/
theorem enabledBytes_full (val : Word) : enabledBytes val 0xF = val := mergeBytes_full 0 val

/-- A full write of BOOT_CMD reaches its command bits and is no write of a stake's HOST block, of a pair or of a register
with a rule of its own: from every writer it is the command of its four bits. -/
theorem bar0Write_bootCmd (src : Writer) (val : Word) (s : State) :
    bar0Write src Reg.bootCmd val 0xF s = bootCmd (BitVec.ofNat 4 (bits val 0 4)) s := by
  have hcommand : commandWrite src Reg.bootCmd val s = some (bootCmd (BitVec.ofNat 4 (bits val 0 4)) s) := rfl
  have hreach : bootCmdRow.reaches Reg.bootCmd 0xF = true := by decide
  have hweave : ¬(src = .weave ∧ 0x10000 ≤ Reg.bootCmd ∧ Reg.bootCmd < 0x11000) := fun h => absurd h.2 (by decide)
  have hstake : (0x6000 ≤ Reg.bootCmd && Reg.bootCmd < 0x7000 && !s.anchor) = false := rfl
  have hlo : stagedPairs.contains Reg.bootCmd = false := by decide
  have hhi : stagedPairs.contains (Reg.bootCmd - 4) = false := by decide
  have hown : ownWrite Reg.bootCmd val 0xF s = none := rfl
  simp only [bar0Write, regRow_bootCmd, hreach, if_neg hweave, hstake, hlo, hhi, hown, enabledBytes_full, hcommand,
    Bool.not_true, Bool.and_false, Bool.false_eq_true, if_false]

/-- Where BAR0 answers, a full write of BOOT_CMD completes as `bootCmd` gives. -/
theorem completes_registerWrite_bootCmd {src : Writer} {val : Word} {s : State} {P : State → Prop} (hserved : Served s)
    (hP : P (bootCmd (BitVec.ofNat 4 (bits val 0 4)) s)) : Completes (.registerWrite src 0x5008 val 0xF) s P := by
  refine ⟨_, rfl, ?_⟩
  rwa [show (0x5008 : BitVec 20).toNat = Reg.bootCmd from rfl, gateWrite, if_pos (answers_of_served hserved _),
    bar0Write_bootCmd]

/-! ### One bit -/

section OneBit

variable {b : BitVec 4} (hone : bootMany b = false)

include hone

/-- Without its bit, REBOOT does nothing. -/
theorem bootReboot_of_clear (hbit : b.getLsbD 0 = false) (s : State) : bootReboot b s = s := by
  simp only [bootReboot, hone, hbit, Bool.false_eq_true, if_false, ite_self]

/-- Without its bit, RAISE_FLOOR does nothing. -/
theorem raiseFloor_of_clear (hbit : b.getLsbD 1 = false) (s : State) : raiseFloor b s = s := by
  simp only [raiseFloor, hone, hbit, Bool.not_false, Bool.false_eq_true, if_false, if_true, ite_self]

/-- Without its bit, STOP does nothing. -/
theorem bootStop_of_clear (hbit : b.getLsbD 3 = false) (s : State) : bootStop b s = s := by
  simp only [bootStop, hone, hbit, Bool.not_false, Bool.false_eq_true, if_false, if_true, ite_self]

end OneBit

/-- Of the four commands, a write of bit 2 runs LOAD alone. -/
theorem bootCmd_load (s : State) : bootCmd 4 s = bootLoad 4 s := by
  have hone : bootMany 4 = false := by decide
  rw [bootCmd, hone, bootReboot_of_clear hone (by decide), raiseFloor_of_clear hone (by decide),
    bootStop_of_clear hone (by decide)]
  rfl

/-- While a weave runs, LOAD is refused before the checks of R335. -/
theorem bootLoad_of_weaveRuns {s : State} (hserved : Served s) (hrun : s.weave.run.isSome = true) :
    bootLoad 4 s = refuse eWeaveBusy s := by
  have hone : bootMany 4 = false := by decide
  have hbit : (4 : BitVec 4).getLsbD 2 = true := by decide
  simp only [bootLoad, answers_of_served hserved, hone, hbit, State.weaveRuns, hrun, Bool.not_true, Bool.false_eq_true,
    if_false, if_true]

/-! ### More than one bit -/

/-- Counting the bits of the command is counting the command bits of the written word. -/
theorem bootMany_ofNat_bits (w : Word) :
    bootMany (BitVec.ofNat 4 (bits w 0 4)) = decide (1 < popCount 4 (bits w 0 4)) := by
  rw [bootMany, BitVec.toNat_ofNat, bits_mod]

section ManyBits

variable {b : BitVec 4} (hmany : bootMany b = true)

include hmany

/-- The write is refused before any of its commands runs. -/
theorem bootCmd_of_many (s : State) : bootCmd b s = refuse eBootKind s := if_pos hmany

variable {s : State} (hserved : Served s)

include hserved

theorem bootLoad_of_many : bootLoad b s = refuse eBootKind s := by
  simp [bootLoad, answers_of_served hserved, hmany]

theorem bootStop_of_many : bootStop b s = refuse eBootKind s := by
  simp [bootStop, answers_of_served hserved, hmany]

theorem bootReboot_of_many : bootReboot b s = refuse eBootKind s := by
  simp [bootReboot, answers_of_served hserved, hmany]

theorem raiseFloor_of_many : raiseFloor b s = refuse eBootKind s := by
  simp [raiseFloor, answers_of_served hserved, hmany]

end ManyBits

/-! ### The refusals -/

/-- E_WEAVE_BUSY is a code of BOOT_ERR. -/
theorem refused_eWeaveBusy {s : State} (h : Canon s) : Refused eWeaveBusy Reg.bootErr s (refuse eWeaveBusy s) :=
  refused_refuse h (by decide) rfl (fun hblock => absurd hblock (by decide))

/-- E_BOOT_KIND is a code of BOOT_ERR. -/
theorem refused_eBootKind {s : State} (h : Canon s) : Refused eBootKind Reg.bootErr s (refuse eBootKind s) :=
  refused_refuse h (by decide) rfl (fun hblock => absurd hblock (by decide))

/-- Settles O47: a write of BOOT_CMD is `bootCmd`, which runs LOAD alone or refuses a write of several bits; the rows of
the four commands judge the same way. -/
theorem bootCommandRefusals : Obligations.BootCommandRefusals := by
  refine ⟨?_, ?_, ?_⟩
  · intro src s hcanon hserved hrun
    have hload : Refused eWeaveBusy Reg.bootErr s (bootLoad 4 s) := by
      rw [bootLoad_of_weaveRuns hserved hrun]
      exact refused_eWeaveBusy hcanon
    exact ⟨completes_registerWrite_bootCmd hserved ((bootCmd_load s).symm ▸ hload), _, rfl, hload⟩
  · intro src w s hcanon hserved hcount
    have hmany : bootMany (BitVec.ofNat 4 (bits w 0 4)) = true := by
      rw [bootMany_ofNat_bits]
      exact decide_eq_true hcount
    apply completes_registerWrite_bootCmd hserved
    rw [bootCmd_of_many hmany]
    exact refused_eBootKind hcanon
  · intro b s hcanon hserved hcount
    have hmany : bootMany b = true := decide_eq_true hcount
    have hrefused := refused_eBootKind hcanon
    exact ⟨⟨_, rfl, (bootLoad_of_many hmany hserved).symm ▸ hrefused⟩,
      ⟨_, rfl, (bootStop_of_many hmany hserved).symm ▸ hrefused⟩,
      ⟨_, rfl, (bootReboot_of_many hmany hserved).symm ▸ hrefused⟩,
      ⟨_, rfl, (raiseFloor_of_many hmany hserved).symm ▸ hrefused⟩⟩

end Sys2Proof.Machine
end

section
/-!
PROOFS. Rules.lean: rules for what an operation leaves alone, part by part and register by register, and for reading a
state after an update of another part.
-/

namespace Sys2Proof.Machine

/-! ### Parts -/

/-- `Only`, part by part. -/
theorem only_iff {ps : List Part} {s t : State} : Only ps s t ↔
    t.pending = s.pending ∧ (.regs ∉ ps → t.regs = s.regs ∧ t.sets = s.sets) ∧ (.out ∉ ps → t.out = s.out) ∧
    (.freeCtr ∉ ps → t.freeCtr = s.freeCtr) ∧ (.power ∉ ps → t.power = s.power) ∧ (.time ∉ ps → t.time = s.time) ∧
    (.basket ∉ ps → t.basket = s.basket) ∧ (.host ∉ ps → t.host = s.host) ∧ (.field ∉ ps → t.field = s.field) ∧
    (.pix ∉ ps → t.pix = s.pix) ∧ (.roi ∉ ps → t.roi = s.roi) ∧ (.wfe ∉ ps → t.wfe = s.wfe) ∧
    (.cores ∉ ps → t.cores = s.cores) ∧ (.knots ∉ ps → t.knots = s.knots) ∧ (.mem ∉ ps → t.mem = s.mem) ∧
    (.poison ∉ ps → t.poison = s.poison) ∧ (.serve ∉ ps → t.serve = s.serve) ∧ (.fault ∉ ps → t.fault = s.fault) ∧
    (.weave ∉ ps → t.weave = s.weave) ∧ (.therm ∉ ps → t.therm = s.therm) ∧ (.fuse ∉ ps → t.fuse = s.fuse) ∧
    (.flash ∉ ps → t.flash = s.flash) ∧ (.boot ∉ ps → t.boot = s.boot) := by
  constructor
  · rintro ⟨hq, h⟩
    exact ⟨hq, h .regs, h .out, h .freeCtr, h .power, h .time, h .basket, h .host, h .field, h .pix, h .roi, h .wfe,
      h .cores, h .knots, h .mem, h .poison, h .serve, h .fault, h .weave, h .therm, h .fuse, h .flash, h .boot⟩
  · rintro ⟨hq, hregs, hout, hfreeCtr, hpower, htime, hbasket, hhost, hfield, hpix, hroi, hwfe, hcores, hknots, hmem,
      hpoison, hserve, hfault, hweave, htherm, hfuse, hflash, hboot⟩
    refine ⟨hq, fun p hp => ?_⟩
    cases p
    case regs => exact hregs hp
    case out => exact hout hp
    case freeCtr => exact hfreeCtr hp
    case power => exact hpower hp
    case time => exact htime hp
    case basket => exact hbasket hp
    case host => exact hhost hp
    case field => exact hfield hp
    case pix => exact hpix hp
    case roi => exact hroi hp
    case wfe => exact hwfe hp
    case cores => exact hcores hp
    case knots => exact hknots hp
    case mem => exact hmem hp
    case poison => exact hpoison hp
    case serve => exact hserve hp
    case fault => exact hfault hp
    case weave => exact hweave hp
    case therm => exact htherm hp
    case fuse => exact hfuse hp
    case flash => exact hflash hp
    case boot => exact hboot hp

section Updates

variable {ps : List Part} {s t : State}

/-- A change of the power sequence. -/
theorem Moves.updPower {x : PowerState} (h : Moves ps s t) (hp : Part.power ∈ ps) : Moves ps s { t with power := x } := by
  apply Moves.upd h <;> first | exact .inl rfl | exact .inr hp

/-- A change of clocks and belt time. -/
theorem Moves.updTime {x : TimeState} (h : Moves ps s t) (hp : Part.time ∈ ps) : Moves ps s { t with time := x } := by
  apply Moves.upd h <;> first | exact .inl rfl | exact .inr hp

/-- A change of the ports and the basket. -/
theorem Moves.updBasket {x : BasketState} (h : Moves ps s t) (hp : Part.basket ∈ ps) : Moves ps s { t with basket := x } := by
  apply Moves.upd h <;> first | exact .inl rfl | exact .inr hp

/-- A change of the field inputs. -/
theorem Moves.updField {x : FieldState} (h : Moves ps s t) (hp : Part.field ∈ ps) : Moves ps s { t with field := x } := by
  apply Moves.upd h <;> first | exact .inl rfl | exact .inr hp

/-- A change of the cameras. -/
theorem Moves.updPix {x : PixState} (h : Moves ps s t) (hp : Part.pix ∈ ps) : Moves ps s { t with pix := x } := by
  apply Moves.upd h <;> first | exact .inl rfl | exact .inr hp

/-- A change of regions and parcels. -/
theorem Moves.updRoi {x : RoiState} (h : Moves ps s t) (hp : Part.roi ∈ ps) : Moves ps s { t with roi := x } := by
  apply Moves.upd h <;> first | exact .inl rfl | exact .inr hp

/-- A change of the weighing front end. -/
theorem Moves.updWfe {x : WfeState} (h : Moves ps s t) (hp : Part.wfe ∈ ps) : Moves ps s { t with wfe := x } := by
  apply Moves.upd h <;> first | exact .inl rfl | exact .inr hp

/-- A change of the restart. -/
theorem Moves.updFault {x : FaultState} (h : Moves ps s t) (hp : Part.fault ∈ ps) : Moves ps s { t with fault := x } := by
  apply Moves.upd h <;> first | exact .inl rfl | exact .inr hp

/-- A change of the weave. -/
theorem Moves.updWeave {x : WeaveState} (h : Moves ps s t) (hp : Part.weave ∈ ps) : Moves ps s { t with weave := x } := by
  apply Moves.upd h <;> first | exact .inl rfl | exact .inr hp

/-- A change of the thermal block. -/
theorem Moves.updTherm {x : ThermState} (h : Moves ps s t) (hp : Part.therm ∈ ps) : Moves ps s { t with therm := x } := by
  apply Moves.upd h <;> first | exact .inl rfl | exact .inr hp

/-- A change of start-up. -/
theorem Moves.updBoot {x : BootState} (h : Moves ps s t) (hp : Part.boot ∈ ps) : Moves ps s { t with boot := x } := by
  apply Moves.upd h <;> first | exact .inl rfl | exact .inr hp

/-- A change of what has been sent. -/
theorem Moves.updOut {x : List Out} (h : Moves ps s t) (hp : Part.out ∈ ps) : Moves ps s { t with out := x } := by
  apply Moves.upd h <;> first | exact .inl rfl | exact .inr hp

end Updates

/-! ### Registers -/

/-- From `s` to `t` at most the named BAR0 words change, and the words of `t` are in canonical form. -/
structure RegMoves (offs : List Nat) (s t : State) : Prop where
  wf   : smWf resetVal t.regs = true
  only : RegsOnly offs s t

namespace RegMoves

variable {offs : List Nat} {s t u : State}

theorem refl (offs : List Nat) (h : smWf resetVal s.regs = true) : RegMoves offs s s := ⟨h, fun _ _ => rfl⟩

/-- A change of another part. -/
theorem congr (h : RegMoves offs s t) (hu : u.regs = t.regs) : RegMoves offs s u :=
  ⟨by rw [hu]; exact h.wf, fun off hoff => by rw [reg_eq_of_regs_eq hu, h.only off hoff]⟩

theorem trans (h : RegMoves offs s t) (k : RegMoves offs t u) : RegMoves offs s u :=
  ⟨k.wf, fun off hoff => (k.only off hoff).trans (h.only off hoff)⟩

theorem mono {offs' : List Nat} (h : RegMoves offs s t) (hsub : offs ⊆ offs') : RegMoves offs' s t :=
  ⟨h.wf, fun off hoff => h.only off fun hmem => hoff (hsub hmem)⟩

theorem setReg (h : RegMoves offs s t) {off : Nat} (w : Word) (hoff : off ∈ offs) : RegMoves offs s (t.setReg off w) :=
  ⟨setReg_wf h.wf .., fun o ho => by
    have hne : o ≠ off := by rintro rfl; exact ho hoff
    rw [reg_setReg_ne h.wf w hne, h.only o ho]⟩

theorem setFld (h : RegMoves offs s t) {off : Nat} (lo len v : Nat) (hoff : off ∈ offs) :
    RegMoves offs s (t.setFld off lo len v) := h.setReg _ hoff

theorem setFlag (h : RegMoves offs s t) {off : Nat} (i : Nat) (b : Bool) (hoff : off ∈ offs) :
    RegMoves offs s (t.setFlag off i b) := h.setReg _ hoff

theorem hwSet (h : RegMoves offs s t) {off : Nat} (f : Word → Word) (hoff : off ∈ offs) :
    RegMoves offs s (t.hwSet off f) := (h.setReg (f (t.reg off)) hoff).congr rfl

theorem bumpAt (h : RegMoves offs s t) {off : Nat} (lo len n : Nat) (hoff : off ∈ offs) :
    RegMoves offs s (t.bumpAt off lo len n) := h.hwSet _ hoff

theorem bumpSat (h : RegMoves offs s t) {off : Nat} (len n : Nat) (hoff : off ∈ offs) :
    RegMoves offs s (t.bumpSat off len n) := h.bumpAt 0 len n hoff

theorem ite {c : Prop} [Decidable c] (ht : RegMoves offs s t) (hu : RegMoves offs s u) :
    RegMoves offs s (if c then t else u) := by split <;> assumption

theorem foldl {α : Type} {f : State → α → State} {l : List α} (hf : ∀ t a, RegMoves offs s t → RegMoves offs s (f t a))
    (h : RegMoves offs s t) : RegMoves offs s (l.foldl f t) := by
  induction l generalizing t with
  | nil => exact h
  | cons a l ih => exact ih (hf t a h)

theorem latch (h : RegMoves offs s t) (c : Code) (core : Nat) (hoff : ∀ r, errReg c core = some r → r ∈ offs) :
    RegMoves offs s (latch c core t) := by
  unfold Machine.latch
  split_ifs
  · exact h
  · exact h
  · split
    · next r hr => exact RegMoves.ite h (h.hwSet _ (hoff r hr))
    · exact h

end RegMoves

/-- A change that touches other parts leaves the BAR0 words alone. -/
theorem RegMoves.of_moves {offs : List Nat} {ps : List Part} {s t u : State} (h : RegMoves offs s t) (hm : Moves ps t u)
    (hp : .regs ∉ ps) : RegMoves offs s u := h.congr (hm.only.2 .regs hp).1

/-- Registers read the same after a change of other parts. -/
@[simp] theorem reg_mk (s : State) (pending sets out freeCtr power time basket host field pix roi wfe cores knots mem poison
    serve fault weave therm fuse flash boot) (off : Nat) :
    (State.mk pending s.regs sets out freeCtr power time basket host field pix roi wfe cores knots mem poison serve fault
      weave therm fuse flash boot).reg off = s.reg off := rfl

@[simp] theorem fld_mk (s : State) (pending sets out freeCtr power time basket host field pix roi wfe cores knots mem poison
    serve fault weave therm fuse flash boot) (off lo len : Nat) :
    (State.mk pending s.regs sets out freeCtr power time basket host field pix roi wfe cores knots mem poison serve fault
      weave therm fuse flash boot).fld off lo len = s.fld off lo len := rfl

@[simp] theorem flag_mk (s : State) (pending sets out freeCtr power time basket host field pix roi wfe cores knots mem
    poison serve fault weave therm fuse flash boot) (off i : Nat) :
    (State.mk pending s.regs sets out freeCtr power time basket host field pix roi wfe cores knots mem poison serve fault
      weave therm fuse flash boot).flag off i = s.flag off i := rfl

/-- A completion entry, or an answer, changes no BAR0 word: the status alone does. -/
theorem finishFlight_regs (f : Flight) (status : Code) (result : Word) (s : State) :
    (finishFlight f status result s).regs = (latch status 0 s).regs := by
  have hput : ∀ i body irq u, (cqPut i body irq u).regs = u.regs := fun i body irq u =>
    ((cqPut_only i body irq u (.refl [.out, .host] u) (by simp)).only.2 .regs (by decide)).1
  have hdrain : ∀ i u, (drainCheck i u).regs = u.regs := fun i u =>
    ((drainCheck_only i u (.refl [.host] u) (by simp)).only.2 .regs (by decide)).1
  unfold finishFlight
  split
  · rw [hdrain, hput]
  · rfl

/-- A load ends with its code in the ERR register of that code (R335, R353). -/
theorem RegMoves.endLoad {offs : List Nat} {s t : State} (h : RegMoves offs s t) {c : Code} {r : Nat}
    (hc : errReg c 0 = some r) (hr : r ∈ offs) : RegMoves offs s (endLoad c t) := by
  have hlatch : ∀ u, RegMoves offs s u → RegMoves offs s (Machine.latch c 0 u) := fun u hu =>
    hu.latch c 0 fun q hq => by rw [hc] at hq; cases hq; exact hr
  unfold Machine.endLoad
  split
  · exact h
  · dsimp only
    split_ifs
    · exact h.congr rfl
    · split
      · refine RegMoves.congr ?_ (finishFlight_regs ..)
        exact hlatch _ (h.congr rfl)
      · exact hlatch _ (h.congr rfl)

/-! ### Reading back what stands in a register -/

section Reading

variable {s : State} (h : smWf resetVal s.regs = true) {off o : Nat} (hne : o ≠ off)

include h in
theorem flag_setFlag_false (i : Nat) (hi : i < 32) : (s.setFlag off i false).flag off i = false :=
  flag_setFlag h off i false hi

include h hne

theorem flag_setFld_reg_ne (lo len v i : Nat) : (s.setFld off lo len v).flag o i = s.flag o i :=
  flag_setReg_ne h _ i hne

theorem flag_setFlag_reg_ne (j : Nat) (b : Bool) (i : Nat) : (s.setFlag off j b).flag o i = s.flag o i :=
  flag_setReg_ne h _ i hne

theorem fld_setFlag_reg_ne (j : Nat) (b : Bool) (lo len : Nat) : (s.setFlag off j b).fld o lo len = s.fld o lo len :=
  fld_setReg_ne h _ lo len hne

theorem fld_bumpSat_reg_ne (len n lo len' : Nat) : (s.bumpSat off len n).fld o lo len' = s.fld o lo len' := by
  rw [fld_eq_bits, reg_bumpSat_ne h _ _ hne, fld_eq_bits]

theorem flag_bumpSat_reg_ne (len n i : Nat) : (s.bumpSat off len n).flag o i = s.flag o i := by
  rw [State.flag, reg_bumpSat_ne h _ _ hne, State.flag]

end Reading

/-! ### Commands -/

/-- A command completes as the state that it answers. -/
theorem completes_of_next {c : Instr} {s t : State} {P : State → Prop} (h : exec c s = .next t) (hP : P t) :
    Completes c s P := ⟨t, h, hP⟩

/-- A command completes as the state that its operation is known to give. -/
theorem completes_of_eq {c : Instr} {s t u : State} {P : State → Prop} (h : exec c s = .next u) (hu : u = t) (hP : P t) :
    Completes c s P := ⟨u, h, hu ▸ hP⟩

/-- On a package in Run that serves its BARs, a write's command runs (R321). -/
theorem gateWrite_of_served {s : State} (h : Served s) (off : Nat) (f : State → State) : gateWrite off f s = f s :=
  if_pos (answers_of_served h off)

/-- On a package in Run that serves its BARs, a read returns its data (R321). -/
theorem gateRead_of_served {s : State} (h : Served s) (off : Nat) (f : State → State × Word) :
    gateRead off f s = (f s).1.emit (.readData off (f s).2) := if_pos (answers_of_served h off)

end Sys2Proof.Machine
end

section
/-!
PROOFS. ExecMoves.lean: what each command changes at most, and that no step breaks the canonical form or clears a fuse bit.
-/

namespace Sys2Proof.Machine

/-! ### Outcomes that need no case of their own -/

/-- The state that a command answers is the only one. -/
theorem moves_of_next {ps : List Part} {s t u : State} (h : (Host.Outcome.next u : Outcome) = .next t) (hm : Moves ps s u) :
    Moves ps s t := by
  cases h; exact hm

/-- A list of parts that a computation finds in another. -/
theorem parts_subset {ps qs : List Part} (h : ps.all (qs.contains ·) = true) : ps ⊆ qs := by
  intro p hp
  simpa using List.all_eq_true.1 h p hp

/-- A command that changes something only where a condition holds. -/
theorem moves_of_ite {ps : List Part} {c : Prop} [Decidable c] {s t u : State}
    (h : (if c then (Host.Outcome.next u : Outcome) else .next s) = .next t) (hm : Moves ps s u) : Moves ps s t := by
  split at h
  · exact moves_of_next h hm
  · exact moves_of_next h (Moves.refl ps s)

/-! ### Commands that the lemmas on shared operations do not cover in one -/

theorem resetNAssert_moves (s : State) : Moves (touched .resetNAssert) s (resetNAssert s) := by
  have habort : Moves (touched .resetNAssert) s (fuseAbort s) := fuseAbort_only s (.refl ..) (parts_subset rfl)
  refine habort.trans ⟨only_iff.2 (by simp [touched, resetNAssert]), fun h => ?_, fun _ _ => and_not_self_word _⟩
  · exact ⟨rfl, rfl, rfl, rfl, h.flash, h.copies, h.weak, rfl, rising_nil, rising_nil, rising_nil⟩

theorem loStageWrite_moves (src : Writer) (off : BitVec 20) (val : Word) (be : BitVec 4) (s t : State)
    (h : exec (.loStageWrite src off val be) s = .next t) : Moves (touched (.loStageWrite src off val be)) s t := by
  refine moves_of_next h (gateWrite_only _ _ _ (.refl ..) fun u => ?_)
  refine Moves.ite ?_ (bar0Write_only _ _ _ _ _ (.refl ..) (parts_subset rfl))
  split
  · exact Moves.ite (.refl ..) (stageLo_only _ _ _ _ _ (.refl ..) (parts_subset rfl))
  · exact .refl ..

theorem pllLockLoss_moves (p : Pll) (s t : State) (h : exec (.pllLockLoss p) s = .next t) :
    Moves (touched (.pllLockLoss p)) s t := by
  cases p with
  | pix =>
    refine moves_of_next h (pllLockLoss_only _ _ (Moves.ite ?_ (.refl ..)) (parts_subset rfl))
    exact abortRun_only _ _ (abortRun_only _ _ (.refl ..) (parts_subset rfl)) (parts_subset rfl)
  | _ => exact moves_of_next h (pllLockLoss_only _ _ (.refl ..) (parts_subset rfl))

theorem beltSecond_moves (s t : State) (h : exec .beltSecond s = .next t) : Moves (touched .beltSecond) s t := by
  have hsync : ∀ (j : Fin 2) (x : Strobe) (u : State), Moves (touched .beltSecond) u (driveSync j (u.setSync j.val x)) :=
    fun j x u => driveSync_only _ _ (State_setSync_only _ _ _ (.refl ..) (parts_subset rfl)) (parts_subset rfl)
  exact moves_of_ite h ((Moves.ite (hsync ..) (.refl ..)).trans (Moves.ite (hsync ..) (.refl ..)))

theorem integrationStart_moves (s t : State) (h : exec .integrationStart s = .next t) :
    Moves (touched .integrationStart) s t := by
  simp only [exec, execIntegrationStart] at h
  split at h
  · exact moves_of_ite h (driveExposing_only _ ((Moves.refl ..).updPix (by decide)) (parts_subset rfl))
  · exact moves_of_next h (.refl ..)

theorem integrationEnd_moves (s t : State) (h : exec .integrationEnd s = .next t) :
    Moves (touched .integrationEnd) s t := by
  simp only [exec, execIntegrationEnd] at h
  split at h
  · exact moves_of_ite h (driveExposing_only _ ((Moves.refl ..).updPix (by decide)) (parts_subset rfl))
  · exact moves_of_next h (.refl ..)

theorem feedLoad_moves {n : Fin 16} {a : Fin 4} {bc : Option (Fin 4)} {k : Fin 4} {bf col : Bool} {off : BitVec 20}
    {cycle : Nat} {ups : List SpUpset} {s t : State} (h : exec (.feedLoad n a bc k bf off col cycle ups) s = .next t) :
    Moves (touched (.feedLoad n a bc k bf off col cycle ups)) s t := by
  simp only [exec, execFeedLoad] at h
  split at h
  · exact moves_of_next h (.refl ..)
  · exact moves_of_next h (feed_only _ _ _ _ _ _ _ _ _ _ _ (.refl ..) (parts_subset rfl))
/-! ### Every command -/

/-- What each command does is one operation, or a choice between two: the lemma on the operation names the parts that
it changes. -/
theorem exec_moves {c : Instr} {s t : State} (h : exec c s = .next t) : Moves (touched c) s t :=
  match c with
  | .coldStart .. => moves_of_next h (coldStart_only _ _ _ (.refl ..) (parts_subset rfl))
  | .strapResample .. => moves_of_next h (strapResample_only _ _ _ (.refl ..) (parts_subset rfl))
  | .pgoodRise .. => moves_of_next h (pgoodRise_only _ _ (.refl ..) (parts_subset rfl))
  | .railTimeout .. => moves_of_next h (railTimeout_only _ _ (.refl ..) (parts_subset rfl))
  | .faultBeacon => moves_of_next h (faultBeacon_only _ (.refl ..) (parts_subset rfl))
  | .pllLock .. => moves_of_next h (pllLock_only _ _ _ (.refl ..) (parts_subset rfl))
  | .imageVerifyDone => moves_of_next h (imageVerifyDone_only _ (.refl ..) (parts_subset rfl))
  | .selftestDone .. => moves_of_next h (selftestDone_only _ _ (.refl ..) (parts_subset rfl))
  | .calLoadDone => moves_of_next h (calLoadDone_only _ (.refl ..) (parts_subset rfl))
  | .perstAssert => moves_of_next h (perstAssert_only _ (.refl ..) (parts_subset rfl))
  | .bootReboot .. => moves_of_next h (bootReboot_only _ _ (.refl ..) (parts_subset rfl))
  | .bootRaiseFloor .. => moves_of_next h (raiseFloor_only _ _ (.refl ..) (parts_subset rfl))
  | .pairOverride => moves_of_next h (pairOverride_only _ (.refl ..) (parts_subset rfl))
  | .watchdogExpiry | .packageFatal => moves_of_next h (packageFatal_only _ _ (.refl ..) (parts_subset rfl))
  | .railFault => moves_of_next h (railFault_only _ (.refl ..) (parts_subset rfl))
  | .pwrEnterDoze =>
    moves_of_next h (gateWrite_only _ _ _ (.refl ..) (fun _ => enterDoze_only _ (.refl ..) (parts_subset rfl)))
  | .pwrEnterSlumber =>
    moves_of_next h (gateWrite_only _ _ _ (.refl ..) (fun _ => enterSlumber_only _ (.refl ..) (parts_subset rfl)))
  | .powerEntryComplete => moves_of_next h (entryComplete_only _ (.refl ..) (parts_subset rfl))
  | .pcieWake => moves_of_next h (pcieWake_only _ (.refl ..) (parts_subset rfl))
  | .wakeTimer => moves_of_next h (wakeTimer_only _ (.refl ..) (parts_subset rfl))
  | .fieldInputWake .. => moves_of_next h (fieldInputWake_only _ _ _ (.refl ..) (parts_subset rfl))
  | .wakeComplete .. => moves_of_next h (wakeComplete_only _ _ (.refl ..) (parts_subset rfl))
  | .dozeWakeComplete => moves_of_next h (dozeWakeComplete_only _ (.refl ..) (parts_subset rfl))
  | .sensorSample .. => moves_of_next h (sensorSample_only _ _ _ (.refl ..) (parts_subset rfl))
  | .thermalAlternate => moves_of_next h (thermalAlternate_only _ (.refl ..) (parts_subset rfl))
  | .thermalTrip => moves_of_next h (thermalTrip_only _ (.refl ..) (parts_subset rfl))
  | .thermalReturn => moves_of_next h (thermalReturn_only _ (.refl ..) (parts_subset rfl))
  | .fuseRead .. | .fuseProgram .. | .fuseVerify .. | .fuseRepair .. | .fuseAdvance .. | .fuseCtrSet ..
  | .fuseCtrRead .. =>
    moves_of_next h (fuseCmd_only _ _ _ _ _ (.refl ..) (parts_subset rfl))
  | .fuseCmdDone .. => moves_of_next h (fuseDone_only _ _ (.refl ..) (parts_subset rfl))
  | .bscanInstruction .. => moves_of_next h (bscanInstruction_only _ _ (.refl ..) (parts_subset rfl))
  | .testLogicReset => moves_of_next h (testLogicReset_only _ (.refl ..) (parts_subset rfl))
  | .resetNAssert => moves_of_next h (resetNAssert_moves _)
  | .bootLoad .. => moves_of_next h (bootLoad_only _ _ (.refl ..) (parts_subset rfl))
  | .bootStop .. => moves_of_next h (bootStop_only _ _ (.refl ..) (parts_subset rfl))
  | .beatStart => moves_of_next h (beatStart_only _ (.refl ..) (parts_subset rfl))
  | .halt .. => moves_of_next h (haltIn_only _ _ _ (.refl ..) (parts_subset rfl))
  | .resume .. => moves_of_next h (resumeIn_only _ _ _ (.refl ..) (parts_subset rfl))
  | .weaveLoad .. =>
    moves_of_next h (doWork_only _ _ _ _ (.refl ..) (fun _ _ => weaveLoad_only _ _ (.refl ..) (parts_subset rfl)))
  | .localFault .. => moves_of_next h (localFault_only _ _ (.refl ..) (parts_subset rfl))
  | .recoveryDone .. => moves_of_next h (recoveryDone_only _ _ (.refl ..) (parts_subset rfl))
  | .faultClear =>
    moves_of_next h (gateWrite_only _ _ _ (.refl ..) (fun _ => faultClear_only _ (.refl ..) (parts_subset rfl)))
  | .weaveImageReadDone .. => moves_of_next h (weaveImageReadDone_only _ _ (.refl ..) (parts_subset rfl))
  | .weaveMemberCheckDone .. => moves_of_next h (weaveMemberCheckDone_only _ _ _ (.refl ..) (parts_subset rfl))
  | .registerWrite .. =>
    moves_of_next h (gateWrite_only _ _ _ (.refl ..) (fun _ => bar0Write_only _ _ _ _ _ (.refl ..) (parts_subset rfl)))
  | .loStageWrite .. => loStageWrite_moves _ _ _ _ _ _ h
  | .rcFieldRead .. =>
    moves_of_next h (Moves.ite (gateBar2_only _ _ (.refl ..) (parts_subset rfl)) (gateRead_only _ _ _ (.refl ..)
      (fun _ => bar0Read_only _ _ (.refl ..) (parts_subset rfl)) (parts_subset rfl)))
  | .forwardedAccess .. => moves_of_next h (forwardedAccess_only _ _ _ _ (.refl ..) (parts_subset rfl))
  | .clkApply =>
    moves_of_next h (gateWrite_only _ _ _ (.refl ..) (fun _ => clkApply_only _ (.refl ..) (parts_subset rfl)))
  | .pllRelock => moves_of_next h (pllRelock_only _ (.refl ..) (parts_subset rfl))
  | .pllRelockDone => moves_of_next h (pllRelockDone_only _ (.refl ..) (parts_subset rfl))
  | .refFail .. => moves_of_next h (refFail_only _ _ (.refl ..) (parts_subset rfl))
  | .aclkMeasure .. => moves_of_next h (aclkMeasure_only _ _ (.refl ..) (parts_subset rfl))
  | .timeNowLoRead =>
    moves_of_next h (gateRead_only _ _ _ (.refl ..) (fun _ => timeNowLoRead_only _ (.refl ..) (parts_subset rfl))
      (parts_subset rfl))
  | .timeBeatNumLoRead =>
    moves_of_next h (gateRead_only _ _ _ (.refl ..) (fun _ => timeBeatNumLoRead_only _ (.refl ..) (parts_subset rfl))
      (parts_subset rfl))
  | .timeBeatStampLoRead =>
    moves_of_next h (gateRead_only _ _ _ (.refl ..) (fun _ => timeBeatStampLoRead_only _ (.refl ..)
      (parts_subset rfl)) (parts_subset rfl))
  | .timeSet =>
    moves_of_next h (gateWrite_only _ _ _ (.refl ..) (fun _ => timeSet_only _ (.refl ..) (parts_subset rfl)))
  | .timeStepApply => moves_of_next h (timeStepApply_only _ (.refl ..) (parts_subset rfl))
  | .timeBeatLenWrite .. =>
    moves_of_next h (Moves.ite (timeBeatLenWrite_only _ _ _ (.refl ..) (parts_subset rfl)) (.refl ..))
  | .timeBeatEpochWrite .. =>
    moves_of_next h (Moves.ite (timeBeatEpochWrite_only _ _ _ (.refl ..) (parts_subset rfl)) (.refl ..))
  | .beatValuesApply => moves_of_next h (beatValuesApply_only _ (.refl ..) (parts_subset rfl))
  | .alignAchieved .. => moves_of_next h (alignAchieved_only _ _ (.refl ..) (parts_subset rfl))
  | .alignLoss .. => moves_of_next h (alignLoss_only _ _ (.refl ..) (parts_subset rfl))
  | .pllLockLoss .. => pllLockLoss_moves _ _ _ h
  | .wfeEnable .. =>
    moves_of_next h (gateWrite_only _ _ _ (.refl ..) (fun _ => wfeCtlWrite_only _ _ _ (.refl ..) (parts_subset rfl)))
  | .refSettledTimer .. => moves_of_next h (refSettledTimer_only _ _ (.refl ..) (parts_subset rfl))
  | .excTrip => moves_of_next h (excTrip_only _ (.refl ..) (parts_subset rfl))
  | .comparatorChange .. => moves_of_next h (comparatorChange_only _ _ _ (.refl ..) (parts_subset rfl))
  | .startA | .startB =>
    moves_of_next h (gateWrite_only _ _ _ (.refl ..) (fun _ => softStart_only _ _ (.refl ..) (parts_subset rfl)))
  | .stopA | .stopB =>
    moves_of_next h (gateWrite_only _ _ _ (.refl ..) (fun _ => stopRun_only _ _ (.refl ..) (parts_subset rfl)))
  | .runStart .. => moves_of_next h (runStart_only _ _ (.refl ..) (parts_subset rfl))
  | .resultWrite .. => moves_of_next h (resultWrite_only _ _ _ (.refl ..) (parts_subset rfl))
  | .rotationDue => moves_of_next h (Moves.ite (rotationDue_only _ (.refl ..) (parts_subset rfl)) (.refl ..))
  | .rotationHandover => moves_of_next h (rotationHandover_only _ (.refl ..) (parts_subset rfl))
  | .calibrationDone .. => moves_of_next h (calibrationDone_only _ _ (.refl ..) (parts_subset rfl))
  | .whisperTimeTx => moves_of_next h (whisperTimeTx_only _ (.refl ..) (parts_subset rfl))
  | .whisperTime .. => moves_of_next h (whisperTime_only _ _ _ (.refl ..) (parts_subset rfl))
  | .whisperWake .. => moves_of_next h (whisperWake_only _ _ _ (.refl ..) (parts_subset rfl))
  | .whisperSleep .. => moves_of_next h (whisperSleep_only _ _ _ (.refl ..) (parts_subset rfl))
  | .whisperPresence .. => moves_of_next h (whisperPresence_only _ _ _ (.refl ..) (parts_subset rfl))
  | .portEnable .. => moves_of_next h (portEnable_only _ _ (.refl ..) (parts_subset rfl))
  | .portDisable .. => moves_of_next h (portDisable_only _ _ (.refl ..) (parts_subset rfl))
  | .trainingComplete .. => moves_of_next h (trainingComplete_only _ _ _ _ _ (.refl ..) (parts_subset rfl))
  | .trainRetry .. => moves_of_next h (trainRetry_only _ _ (.refl ..) (parts_subset rfl))
  | .laneFailure .. => moves_of_next h (laneFailure_only _ _ _ _ (.refl ..) (parts_subset rfl))
  | .retrain .. => moves_of_next h (retrain_only _ _ (.refl ..) (parts_subset rfl))
  | .rekey .. => moves_of_next h (rekey_only _ _ (.refl ..) (parts_subset rfl))
  | .counterWrap .. => moves_of_next h (counterWrap_only _ _ (.refl ..) (parts_subset rfl))
  | .keyx .. => moves_of_next h (keyx_only _ _ _ (.refl ..) (parts_subset rfl))
  | .keyExchangeDone .. => moves_of_next h (keyExchangeDone_only _ _ _ (.refl ..) (parts_subset rfl))
  | .cryptModeWrite .. => moves_of_next h (cryptModeWrite_only _ _ _ (.refl ..) (parts_subset rfl))
  | .linkFrame .. => moves_of_next h (linkFrame_only _ _ _ (.refl ..) (parts_subset rfl))
  | .looseForward .. => moves_of_next h (looseForward_only _ _ (.refl ..) (parts_subset rfl))
  | .winWrite .. => moves_of_next h (winWrite_only _ _ (.refl ..) (parts_subset rfl))
  | .winRead .. => moves_of_next h (winRead_only _ _ (.refl ..) (parts_subset rfl))
  | .winResp .. => moves_of_next h (winResp_only _ _ (.refl ..) (parts_subset rfl))
  | .winNak .. => moves_of_next h (winNak_only _ _ (.refl ..) (parts_subset rfl))
  | .winCtlWrite .. => moves_of_next h (winCtlWrite_only _ _ _ _ (.refl ..) (parts_subset rfl))
  | .join .. => moves_of_next h (join_only _ _ _ _ _ _ _ (.refl ..) (parts_subset rfl))
  | .joinReply .. => moves_of_next h (joinReply_only _ _ _ _ _ _ (.refl ..) (parts_subset rfl))
  | .presence .. => moves_of_next h (presence_only _ _ _ (.refl ..) (parts_subset rfl))
  | .presenceFlood => moves_of_next h (presenceFlood_only _ (.refl ..) (parts_subset rfl))
  | .principalClaim => moves_of_next h (principalClaim_only _ (.refl ..) (parts_subset rfl))
  | .joinRetry => moves_of_next h (joinRetry_only _ (.refl ..) (parts_subset rfl))
  | .joinSwitch .. => moves_of_next h (joinSwitch_only _ _ (.refl ..) (parts_subset rfl))
  | .timeStepWord .. => moves_of_next h (timeStepWord_only _ _ _ (.refl ..) (parts_subset rfl))
  | .timeBeatWord .. => moves_of_next h (timeBeatWord_only _ _ _ (.refl ..) (parts_subset rfl))
  | .timeClockWord .. => moves_of_next h (timeClockWord_only _ _ _ (.refl ..) (parts_subset rfl))
  | .fwdRead | .fwdWrite => moves_of_next h (fwdStart_only _ _ (.refl ..) (parts_subset rfl))
  | .fwdResponse .. => moves_of_next h (fwdResponse_only _ _ _ (.refl ..) (parts_subset rfl))
  | .fwdTimeout => moves_of_next h (fwdTimeout_only _ (.refl ..) (parts_subset rfl))
  | .hostFwdReq .. => moves_of_next h (hostFwdReq_only _ _ _ (.refl ..) (parts_subset rfl))
  | .hostFwdRsp .. => moves_of_next h (hostFwdRsp_only _ _ (.refl ..) (parts_subset rfl))
  | .hostFwdTimeout .. => moves_of_next h (hostFwdTimeout_only _ _ (.refl ..) (parts_subset rfl))
  | .knot .. => moves_of_next h (knotWordIn_only _ _ (.refl ..) (parts_subset rfl))
  | .flr => moves_of_next h (flr_only _ (.refl ..) (parts_subset rfl))
  | .bmeClear => moves_of_next h (bmeClear_only _ (.refl ..) (parts_subset rfl))
  | .bmeSet => moves_of_next h (bmeSet_only _ (.refl ..) (parts_subset rfl))
  | .ringEnable .. | .ringDisable .. => moves_of_next h (ringCfgWrite_only _ _ _ _ (.refl ..) (parts_subset rfl))
  | .doorbellPoll => moves_of_next h (doorbellPoll_only _ (.refl ..) (parts_subset rfl))
  | .doorbellReadDone .. => moves_of_next h (doorbellReadDone_only _ _ _ (.refl ..) (parts_subset rfl))
  | .descriptorFetch .. => moves_of_next h (descriptorFetch_only _ _ (.refl ..) (parts_subset rfl))
  | .descriptorFetchDone .. => moves_of_next h (descriptorFetchDone_only _ _ _ (.refl ..) (parts_subset rfl))
  | .descriptorStart .. => moves_of_next h (descriptorStart_only _ _ (.refl ..) (parts_subset rfl))
  | .knotWaitTimeout .. => moves_of_next h (knotWaitTimeout_only _ _ (.refl ..) (parts_subset rfl))
  | .forwardResend .. => moves_of_next h (forwardResend_only _ _ (.refl ..) (parts_subset rfl))
  | .nop .. | .knotRead .. =>
    moves_of_next h (doWork_only _ _ _ _ (.refl ..) (fun _ _ => completeFlight_only _ _ _ _ (.refl ..)
      (parts_subset rfl)))
  | .identity .. | .status .. | .selftest .. =>
    moves_of_next h (doWork_only _ _ _ _ (.refl ..) (fun _ _ => endAfterWrites_only _ _ _ _ (.refl ..)
      (parts_subset rfl)))
  | .flashErase .. =>
    moves_of_next h (doWork_only _ _ _ _ (.refl ..) (fun _ _ => flashErase_only _ _ (.refl ..) (parts_subset rfl)))
  | .flashWrite .. =>
    moves_of_next h (withSource_only _ _ _ _ _ _ _ (.refl ..) (fun _ _ _ => flashWrite_only _ _ _ _ (.refl ..)
      (parts_subset rfl)) (parts_subset rfl))
  | .imageCommit .. =>
    moves_of_next h (doWork_only _ _ _ _ (.refl ..) (fun _ _ => imageCommit_only _ _ _ _ (.refl ..) (parts_subset rfl)))
  | .knotSet .. =>
    moves_of_next h (doWork_only _ _ _ _ (.refl ..) (fun _ _ => knotSet_only _ _ (.refl ..) (parts_subset rfl)))
  | .mirror .. =>
    moves_of_next h (doWork_only _ _ _ _ (.refl ..) (fun _ _ => mirror_only _ _ (.refl ..) (parts_subset rfl)))
  | .deferredEntryPost => moves_of_next h (deferredEntryPost_only _ (.refl ..) (parts_subset rfl))
  | .stakeEventSend => moves_of_next h (stakeEventSend_only _ (.refl ..) (parts_subset rfl))
  | .coalesceTimeout .. => moves_of_next h (coalesceTimeout_only _ _ (.refl ..) (parts_subset rfl))
  | .knotSignal .. => moves_of_next h (knotSignal_only _ _ _ _ (.refl ..) (parts_subset rfl))
  | .mirrorWrite .. => moves_of_next h (mirrorWrite_only _ _ (.refl ..) (parts_subset rfl))
  | .recRingEnable .. | .recRingDisable .. => moves_of_next h (recCfgWrite_only _ _ _ (.refl ..) (parts_subset rfl))
  | .forwardedDescriptor .. => moves_of_next h (forwardedDescriptor_only _ _ _ _ _ (.refl ..) (parts_subset rfl))
  | .forwardedDescriptorAnswer .. =>
    moves_of_next h (forwardedDescriptorAnswer_only _ _ _ (.refl ..) (parts_subset rfl))
  | .vectorUnmask .. =>
    moves_of_next h (gateWrite_only _ _ _ (.refl ..) (fun _ => msixWrite_only _ _ (.refl ..) (parts_subset rfl)))
  | .grammarLoad .. =>
    moves_of_next h (withSource_only _ _ _ _ _ _ _ (.refl ..) (fun _ _ _ => grammarLoad_only _ _ _ (.refl ..)
      (parts_subset rfl)) (parts_subset rfl))
  | .adapterLoad .. =>
    moves_of_next h (withSource_only _ _ _ _ _ _ _ (.refl ..) (fun _ _ _ => adapterLoad_only _ _ _ (.refl ..)
      (parts_subset rfl)) (parts_subset rfl))
  | .tenantCfg .. =>
    moves_of_next h (doWork_only _ _ _ _ (.refl ..) (fun _ _ => tenantCfg_only _ _ (.refl ..) (parts_subset rfl)))
  | .regionReq .. =>
    moves_of_next h (doWork_only _ _ _ _ (.refl ..) (fun _ _ => regionReq_only _ _ _ (.refl ..) (parts_subset rfl)))
  | .recordWrite => moves_of_next h (recordWrite_only _ (.refl ..) (parts_subset rfl))
  | .lingerExpiry .. => moves_of_next h (Moves.ite (releaseReq_only _ _ (.refl ..) (parts_subset rfl)) (.refl ..))
  | .recordAssembly .. => moves_of_next h (recordAssembly_only _ _ (.refl ..) (parts_subset rfl))
  | .stepBoundary .. => moves_of_next h (stepBoundary_only _ _ _ (.refl ..) (parts_subset rfl))
  | .placeReport .. => moves_of_next h (placeReport_only _ _ _ _ (.refl ..) (parts_subset rfl))
  | .orderChunk .. =>
    moves_of_next h (onOrder_only _ _ _ _ (.refl ..) (fun _ => orderChunk_only _ _ _ _ _ _ (indexCrop_only _ _ _ _
      (.refl ..) (parts_subset rfl)) (parts_subset rfl)) (parts_subset rfl))
  | .orderDecode .. =>
    moves_of_next h (onOrder_only _ _ _ _ (.refl ..) (fun _ => orderDecode_only _ _ _ _ _ _ _ _ (.refl ..)
      (parts_subset rfl)) (parts_subset rfl))
  | .orderShip .. =>
    moves_of_next h (onOrder_only _ _ _ _ (.refl ..) (fun _ => orderShip_only _ _ _ _ (.refl ..) (parts_subset rfl))
      (parts_subset rfl))
  | .orderParkStore .. =>
    moves_of_next h (onOrder_only _ _ _ _ (.refl ..) (fun _ => orderParkStore_only _ _ _ (.refl ..)
      (parts_subset rfl)) (parts_subset rfl))
  | .orderParkHost .. =>
    moves_of_next h (onOrder_only _ _ _ _ (.refl ..) (fun _ => orderParkHost_only _ _ _ (.refl ..) (parts_subset rfl))
      (parts_subset rfl))
  | .orderUnpark .. =>
    moves_of_next h (onOrder_only _ _ _ _ (.refl ..) (fun _ => orderUnpark_only _ _ _ _ _ (.refl ..)
      (parts_subset rfl)) (parts_subset rfl))
  | .orderDrop .. =>
    moves_of_next h (onOrder_only _ _ _ _ (.refl ..) (fun _ => dropCtx_only _ _ _ (.refl ..) (parts_subset rfl))
      (parts_subset rfl))
  | .kvShipList .. => moves_of_next h (kvShipList_only _ _ (.refl ..) (parts_subset rfl))
  | .kvShipPages .. => moves_of_next h (kvShipPages_only _ _ (.refl ..) (parts_subset rfl))
  | .kvShipEnd .. => moves_of_next h (kvShipEnd_only _ _ (.refl ..) (parts_subset rfl))
  | .kvShipAck .. => moves_of_next h (kvShipAck_only _ _ (.refl ..) (parts_subset rfl))
  | .kvShipNak .. => moves_of_next h (kvShipNak_only _ _ (.refl ..) (parts_subset rfl))
  | .parkCopyDone .. => moves_of_next h (parkCopyDone_only _ _ _ (.refl ..) (parts_subset rfl))
  | .hostParkMove .. => moves_of_next h (Moves.ite (moveToHost_only _ _ (.refl ..) (parts_subset rfl)) (.refl ..))
  | .newKey => moves_of_next h (gateWrite_only _ _ _ (.refl ..) (fun _ => newKey_only _ (.refl ..) (parts_subset rfl)))
  | .reqRead =>
    moves_of_next h (gateWrite_only _ _ _ (.refl ..) (fun _ => reqRead_only _ (.refl ..) (parts_subset rfl)))
  | .serveStepNumLoRead =>
    moves_of_next h (gateRead_only _ _ _ (.refl ..) (fun _ => serveStepNumLoRead_only _ (.refl ..) (parts_subset rfl))
      (parts_subset rfl))
  | .fieldInputEdge .. =>
    moves_of_next h (Moves.ite (fieldInputEdge_only _ _ _ (.refl ..) (parts_subset rfl)) (.refl ..))
  | .evqPop =>
    moves_of_next h (gateRead_only _ _ _ (.refl ..) (fun _ => evqPop_only _ (.refl ..) (parts_subset rfl))
      (parts_subset rfl))
  | .encoderEdge .. | .zPulse .. =>
    moves_of_next h (Moves.ite (encoderCycle_only _ (Moves.ite (sampleEdge_only _ _ _ (.refl ..) (parts_subset rfl))
      (.refl ..)) (parts_subset rfl)) (.refl ..))
  | .encLoss =>
    moves_of_ite h (postEvent_only _ _ _ (State_setFlag_only _ _ _ _ (.refl ..) (parts_subset rfl)) (parts_subset rfl))
  | .encSignalReturn =>
    moves_of_next h (Moves.ite (State_setFlag_only _ _ _ _ (.refl ..) (parts_subset rfl)) (.refl ..))
  | .armAt .. => moves_of_next h (Moves.ite (armAt_only _ _ (.refl ..) (parts_subset rfl)) (.refl ..))
  | .armZ .. => moves_of_next h (Moves.ite (armZ_only _ _ (.refl ..) (parts_subset rfl)) (.refl ..))
  | .presetLoad => moves_of_next h (Moves.ite (encoderCycle_only _ (.refl ..) (parts_subset rfl)) (.refl ..))
  | .snap => moves_of_next h (Moves.ite (snapTrigger_only _ _ (.refl ..) (parts_subset rfl)) (.refl ..))
  | .darkCapture .. => moves_of_next h (Moves.ite (darkCapture_only _ (.refl ..) (parts_subset rfl)) (.refl ..))
  | .darkCaptureDone .. =>
    moves_of_next h (Moves.ite (darkCaptureDone_only _ _ (.refl ..) (parts_subset rfl)) (.refl ..))
  | .integrationStart => integrationStart_moves _ _ h
  | .integrationEnd => integrationEnd_moves _ _ h
  | .readoutEnd .. => moves_of_next h (Moves.ite (readoutEnd_only _ _ (.refl ..) (parts_subset rfl)) (.refl ..))
  | .strobeStart .. | .strobeEnd .. =>
    moves_of_ite h (driveStrobe_only _ _ (State_setStrobe_only _ _ _ (.refl ..) (parts_subset rfl)) (parts_subset rfl))
  | .syncPulseStart .. | .syncPulseEnd .. =>
    moves_of_ite h (driveSync_only _ _ (State_setSync_only _ _ _ (.refl ..) (parts_subset rfl)) (parts_subset rfl))
  | .beltSecond => beltSecond_moves _ _ h
  | .fieldEncPosLoRead =>
    moves_of_next h (gateRead_only _ _ _ (.refl ..) (fun _ => encPosRead_only _ (.refl ..) (parts_subset rfl))
      (parts_subset rfl))
  | .regionList .. => moves_of_next h (regionList_only _ _ (.refl ..) (parts_subset rfl))
  | .cropCut .. => moves_of_next h (cropCut_only _ _ (.refl ..) (parts_subset rfl))
  | .cropDone .. => moves_of_next h (cropDone_only _ _ (.refl ..) (parts_subset rfl))
  | .cropHoldExpiry .. => moves_of_next h (cropHoldExpiry_only _ _ _ (.refl ..) (parts_subset rfl))
  | .ruleWrite =>
    moves_of_next h (gateWrite_only _ _ _ (.refl ..) (fun _ => ruleWrite_only _ (.refl ..) (parts_subset rfl)))
  | .ruleSwap =>
    moves_of_next h (gateWrite_only _ _ _ (.refl ..) (fun _ => ruleSwap_only _ (.refl ..) (parts_subset rfl)))
  | .ruleRead =>
    moves_of_next h (gateWrite_only _ _ _ (.refl ..) (fun _ => ruleRead_only _ (.refl ..) (parts_subset rfl)))
  | .swapApply => moves_of_next h (Moves.ite ((Moves.refl ..).updRoi (by decide)) (.refl ..))
  | .profileExtract .. => moves_of_next h (profileExtract_only _ _ _ _ _ (.refl ..) (parts_subset rfl))
  | .profileFuse .. =>
    moves_of_next h (Moves.foldl (fun _ _ => fusePoint_only _ _ (.refl ..) (parts_subset rfl)) (.refl ..))
  | .boxFit .. => moves_of_next h (mapParcels_only _ _ _ (.refl ..) (parts_subset rfl))
  | .diagCapture .. =>
    moves_of_next h (gateWrite_only _ _ _ (.refl ..) (fun _ => diagCapture_only _ _ (.refl ..) (parts_subset rfl)))
  | .diagWrite => moves_of_next h (diagWrite_only _ (.refl ..) (parts_subset rfl))
  | .coreHostWrite .. => moves_of_next h (coreHostWrite_only _ _ (.refl ..) (parts_subset rfl))
  | .spRow .. | .spRowMasked .. | .spColumn .. => moves_of_next h (spAccess_only _ _ _ _ (.refl ..) (parts_subset rfl))
  | .spNarrow .. => moves_of_next h (spNarrow_only _ _ _ _ (.refl ..) (parts_subset rfl))
  | .rSlotServe .. => moves_of_next h (Moves.ite (rSlotServe_only _ _ _ _ (.refl ..) (parts_subset rfl)) (.refl ..))
  | .gWriteback .. => moves_of_next h (gWriteback_only _ _ _ _ (.refl ..) (parts_subset rfl))
  | .ceWriteback .. => moves_of_next h (ceWriteback_only _ _ _ _ (.refl ..) (parts_subset rfl))
  | .pass .. => moves_of_next h (passInstr_only _ _ _ _ _ _ (.refl ..) (parts_subset rfl))
  | .feedRowq .. | .feedColq .. => moves_of_next h (feed_only _ _ _ _ _ _ _ _ _ _ _ (.refl ..) (parts_subset rfl))
  | .feedLoad .. => feedLoad_moves h
  | .drain .. => moves_of_next h (drainInstr_only _ _ _ (.refl ..) (parts_subset rfl))
  | .qload .. => moves_of_next h (qload_only _ _ _ _ _ _ (.refl ..) (parts_subset rfl))
  | .xload .. => moves_of_next h (xload_only _ _ _ _ _ _ (.refl ..) (parts_subset rfl))
  | .sdot .. => moves_of_next h (sdot_only _ _ _ (.refl ..) (parts_subset rfl))
  | .sout .. => moves_of_next h (sout_only _ _ _ _ _ _ (.refl ..) (parts_subset rfl))
  | .apxset .. => moves_of_next h (apxset_only _ _ _ (.refl ..) (parts_subset rfl))
  | .checksumVerdict .. => moves_of_next h (checksumVerdict_only _ _ _ (.refl ..) (parts_subset rfl))
  | .tallyVerdict .. => moves_of_next h (tallyVerdict_only _ _ _ (.refl ..) (parts_subset rfl))
  | .convExecute .. => moves_of_next h (convExecute_only _ _ _ _ _ _ (.refl ..) (parts_subset rfl))
  | .resampleExecute .. => moves_of_next h (resampleExecute_only _ _ _ _ (.refl ..) (parts_subset rfl))
  | .plaitDecode .. => moves_of_next h (plaitDecode_only _ _ _ (.refl ..) (parts_subset rfl))
  | .plaitEncode .. => moves_of_next h (plaitEncode_only _ _ _ (.refl ..) (parts_subset rfl))

/-! ### Steps -/

/-- The queue is no part of the canonical form. -/
theorem Canon.withPending {s : State} (h : Canon s) (q : List Instr) : Canon { s with pending := q } :=
  ⟨h.regs, h.mem, h.poison, h.knots, h.flash, h.copies, h.weak, h.shadow, h.rings, h.cores, h.reqs⟩

/-- A step is a tick or a command's effect: either keeps the canonical form and every fuse bit. -/
theorem step_keeps {s t : State} (hs : Canon s) (h : step s = .next t) : Canon t ∧ FusesKept s t := by
  unfold step at h
  split at h
  · have hm : Moves [.regs, .out, .time, .basket, .host, .field, .pix, .roi, .wfe, .knots] s t :=
      moves_of_next h (tick_only s (.refl ..) (List.Subset.refl _))
    exact ⟨hm.canon hs, hm.fuses hs⟩
  · next c rest _ =>
    have hq := hs.withPending rest
    exact ⟨(exec_moves h).canon hq, (exec_moves h).fuses hq⟩

/-- Settles O34: `step_keeps`, from the effects of a tick and of every command. -/
theorem canonKept : Obligations.CanonKept := fun _ _ hs h => (step_keeps hs h).1

/-- Settles O35: `step_keeps`, from the effects of a tick and of every command. -/
theorem fusesNeverCleared : Obligations.FusesNeverCleared := fun _ _ hs h => (step_keeps hs h).2

/-! ### Frames, chapter by chapter -/

/-- Settles O36. -/
theorem timeFrame : Obligations.TimeFrame := fun _ _ _ _ h => (exec_moves h).only

/-- Settles O37. -/
theorem bootFrame : Obligations.BootFrame := fun _ _ _ _ h => (exec_moves h).only

/-- Settles O38. -/
theorem withyFrame : Obligations.WithyFrame := fun _ _ _ _ h => (exec_moves h).only

/-- Settles O39. -/
theorem hostFrame : Obligations.HostFrame := fun _ _ _ _ h => (exec_moves h).only

/-- Settles O40. -/
theorem fieldFrame : Obligations.FieldFrame := fun _ _ _ _ h => (exec_moves h).only

/-- Settles O41. -/
theorem regionFrame : Obligations.RegionFrame := fun _ _ _ _ h => (exec_moves h).only

/-- Settles O42. -/
theorem weighFrame : Obligations.WeighFrame := fun _ _ _ _ h => (exec_moves h).only

/-- Settles O43. -/
theorem coreFrame : Obligations.CoreFrame := fun _ _ _ _ h => (exec_moves h).only

/-- Settles O44. -/
theorem serveFrame : Obligations.ServeFrame := fun _ _ _ _ h => (exec_moves h).only

/-- Settles O45. -/
theorem faultFrame : Obligations.FaultFrame := fun _ _ _ _ h => (exec_moves h).only

end Sys2Proof.Machine
end

section
/-!
PROOFS. Time.lean: clocks, belt time and the beat: what each command of 02_time does where it has its effect.
-/

namespace Sys2Proof.Machine

/-! ### Who may schedule -/

/-- A package that leads its basket, or stands alone, follows nobody. -/
theorem follows_of_leads {s : State} (h : s.basket.joined = true → s.basket.isPrincipal = true) : s.follows = false := by
  cases hj : s.basket.joined <;> simp_all [State.follows]

/-- A TIME word that is flooded leaves clocks and belt time alone. -/
@[simp] theorem floodTime_time (except : Option Port) (w : LinkWord) (s : State) : (floodTime except w s).time = s.time :=
  (floodTime_only except w s (.refl [.basket] s) (by simp)).only.2 .time (by decide)

@[simp] theorem floodTime_regs (except : Option Port) (w : LinkWord) (s : State) : (floodTime except w s).regs = s.regs :=
  ((floodTime_only except w s (.refl [.basket] s) (by simp)).only.2 .regs (by decide)).1

/-- A TIME word is flooded where the package is joined. -/
theorem ite_floodTime_moves {ps : List Part} {c : Prop} [Decidable c] {s t : State} (h : Moves ps s t)
    (hp : .basket ∈ ps) (w : LinkWord) : Moves ps s (if c then floodTime none w t else t) :=
  Moves.ite (floodTime_only none w t h (by simpa using hp)) h

/-! ### Loads that wait (R355) -/

@[simp] theorem readImage_regs (s : State) : (readImage s).regs = s.regs :=
  ((readImage_only s (.refl [.out, .weave] s) (by simp)).only.2 .regs (by decide)).1

/-- The judgement of a load that waited reports in BOOT_ERR alone. -/
theorem RegMoves.wakeLoad {offs : List Nat} {s t : State} (h : RegMoves offs s t) (hr : Reg.bootErr ∈ offs) :
    RegMoves offs s (wakeLoad t) := by
  unfold Machine.wakeLoad
  split
  · split_ifs
    · exact h
    · exact h.endLoad rfl hr
    · exact h.congr (readImage_regs _)
  · exact h

@[simp] theorem wakeLoad_time (s : State) : (wakeLoad s).time = s.time :=
  (wakeLoad_only s (.refl [.regs, .out, .host, .weave] s) (by simp)).only.2 .time (by decide)

theorem wakeLoad_of_no_load {s : State} (h : s.weave.load = none) : wakeLoad s = s := by
  simp [Machine.wakeLoad, h]

/-! ### CLK commands -/

theorem clkApply_accepted {s : State} (hlo : 16 ≤ s.fld Reg.clkCoreCfg 0 6) (hhi : s.fld Reg.clkCoreCfg 0 6 ≤ 56)
    (hlead : s.basket.joined = true → s.basket.isPrincipal = true) (hbusy : s.weaveBusy = false)
    (htrim : 32 < s.fld Reg.clkCoreCfg 0 6 → s.flag Reg.fuseStatus 18 = true) :
    clkApply s = (let t := if s.basket.joined then boundaryAhead s else nextBoundary s
      let u := { s with time := { s.time with pendClock := some (BitVec.ofNat 64 t,
        BitVec.ofNat 6 (s.fld Reg.clkCoreCfg 0 6), BitVec.ofNat 2 (s.fld Reg.clkCoreCfg 8 2)) } }
      if s.basket.joined then
        floodTime none (clockWord (s.fld Reg.clkCoreCfg 0 6) (s.fld Reg.clkCoreCfg 8 2) t) u else u) := by
  have hrange : ¬(s.fld Reg.clkCoreCfg 0 6 < 16 ∨ 56 < s.fld Reg.clkCoreCfg 0 6) := by omega
  have htrims : ¬(32 < s.fld Reg.clkCoreCfg 0 6 ∧ !s.flag Reg.fuseStatus 18) := by
    rintro ⟨h, hf⟩
    simp [htrim h] at hf
  simp only [clkApply, if_neg hrange, follows_of_leads hlead, hbusy, if_neg htrims, Bool.false_eq_true, if_false]

theorem pllRelock_due {s : State} {b : BitVec 64} {m : BitVec 6} {sp : BitVec 2}
    (hpend : s.time.pendClock = some (b, m, sp)) (hdue : b.toNat ≤ s.nowNs) : pllRelock s = relockTo m sp s := by
  simp [pllRelock, hpend, Nat.not_lt.2 hdue]

section Relock

variable {s : State} (h : smWf resetVal s.regs = true) (m : BitVec 6) (sp : BitVec 2)

theorem relockTo_frame : Only [.time, .regs] s (relockTo m sp s) := only_iff.2 (by simp [relockTo])

include h

theorem relockTo_regs : RegMoves [Reg.clkCoreCfg, Reg.clkStatus] s (relockTo m sp s) :=
  ((((RegMoves.refl _ h).setFld 0 6 m.toNat (by simp)).setFld 8 2 sp.toNat (by simp)).setFlag 0 false (by simp)).congr rfl

theorem relockTo_mult : (relockTo m sp s).fld Reg.clkCoreCfg 0 6 = m.toNat := by
  have h1 := setFld_wf h Reg.clkCoreCfg 0 6 m.toNat
  have h2 := setFld_wf h1 Reg.clkCoreCfg 8 2 sp.toNat
  calc (relockTo m sp s).fld Reg.clkCoreCfg 0 6
      = ((s.setFld Reg.clkCoreCfg 0 6 m.toNat).setFld Reg.clkCoreCfg 8 2 sp.toNat).fld Reg.clkCoreCfg 0 6 :=
        fld_setFlag_reg_ne h2 (by decide) ..
    _ = (s.setFld Reg.clkCoreCfg 0 6 m.toNat).fld Reg.clkCoreCfg 0 6 :=
        fld_setFld_ne h1 _ _ _ _ _ _ (by decide) (by decide)
    _ = m.toNat := by rw [fld_setFld h _ _ _ _ (by decide), Nat.mod_eq_of_lt m.isLt]

theorem relockTo_spread : (relockTo m sp s).fld Reg.clkCoreCfg 8 2 = sp.toNat := by
  have h1 := setFld_wf h Reg.clkCoreCfg 0 6 m.toNat
  have h2 := setFld_wf h1 Reg.clkCoreCfg 8 2 sp.toNat
  calc (relockTo m sp s).fld Reg.clkCoreCfg 8 2
      = ((s.setFld Reg.clkCoreCfg 0 6 m.toNat).setFld Reg.clkCoreCfg 8 2 sp.toNat).fld Reg.clkCoreCfg 8 2 :=
        fld_setFlag_reg_ne h2 (by decide) ..
    _ = sp.toNat := by rw [fld_setFld h1 _ _ _ _ (by decide), Nat.mod_eq_of_lt sp.isLt]

/-- CORE_LOCK reads 0 while the PLL relocks. -/
theorem relockTo_unlocked : (relockTo m sp s).flag Reg.clkStatus 0 = false :=
  flag_setFlag (setFld_wf (setFld_wf h ..) ..) _ _ _ (by decide)

end Relock

/-- The core PLL has locked again, before a load that waited is judged (R44). -/
def relocked (s : State) : State :=
  { s.setFlag Reg.clkStatus 0 true with
    time := { s.time with relocking := false, cclk := true, beatNum := BitVec.ofNat 64 s.beatNow } }

theorem pllRelockDone_eq {s : State} (h : s.time.relocking = true) : pllRelockDone s = wakeLoad (relocked s) := if_pos h

theorem relocked_regs {s : State} (h : smWf resetVal s.regs = true) : RegMoves [Reg.clkStatus] s (relocked s) :=
  ((RegMoves.refl _ h).setFlag 0 true (by simp)).congr rfl

theorem pllRelockDone_completes {s : State} (hs : Canon s) (h : s.time.relocking = true) :
    Completes .pllRelockDone s (fun t =>
      t.time = { s.time with relocking := false, cclk := true, beatNum := BitVec.ofNat 64 s.beatNow } ∧
      t.flag Reg.clkStatus 0 = true ∧
      (s.weave.load = none → Only [.time, .regs] s t ∧ RegsOnly [Reg.clkStatus] s t)) := by
  refine completes_of_eq rfl (pllRelockDone_eq h) ⟨wakeLoad_time _, ?_, fun hload => ?_⟩
  · have hwake : RegMoves [Reg.bootErr] (relocked s) (wakeLoad (relocked s)) :=
      (RegMoves.refl _ (relocked_regs hs.regs).wf).wakeLoad (by simp)
    rw [State.flag, hwake.only _ (by decide)]
    exact flag_setFlag hs.regs Reg.clkStatus 0 true (by decide)
  · rw [wakeLoad_of_no_load (by simpa [relocked] using hload)]
    exact ⟨only_iff.2 (by simp [relocked]), (relocked_regs hs.regs).only⟩

/-! ### Losses (R29) -/

/-- A source is marked lost and the loss is counted. -/
def lossCounted (i : Nat) (s : State) : State := (s.setFlag Reg.clkStatus i false).bumpSat Reg.clkLossCnt 16 1

section Loss

variable {s : State} (h : smWf resetVal s.regs = true) (i : Nat)

theorem lossCounted_only : Only [.regs] s (lossCounted i s) := by
  have hm : Moves [.regs] s (lossCounted i s) :=
    State_bumpSat_only _ _ _ _ (State_setFlag_only _ _ _ _ (.refl ..) (by simp)) (by simp)
  exact hm.only

include h

theorem lossCounted_regs : RegMoves [Reg.clkStatus, Reg.clkLossCnt] s (lossCounted i s) :=
  ((RegMoves.refl _ h).setFlag i false (by simp)).bumpSat 16 1 (by simp)

theorem lossCounted_flag (hi : i < 32) : (lossCounted i s).flag Reg.clkStatus i = false := by
  rw [lossCounted, flag_bumpSat_reg_ne (setFlag_wf h ..) (by decide), flag_setFlag h _ _ _ hi]

theorem lossCounted_count :
    (lossCounted i s).fld Reg.clkLossCnt 0 16 = min (s.fld Reg.clkLossCnt 0 16 + 1) 65535 := by
  rw [lossCounted, fld_bumpSat (setFlag_wf h ..) _ _ _ (by decide), fld_setFlag_reg_ne h (by decide)]
  rfl

end Loss

/-- With no run in progress, the end of both converters' runs changes nothing but the converters. -/
theorem abortRuns_moves {s : State} (ha : s.wfe.a.running = false) (hb : s.wfe.b.running = false) :
    Moves [.wfe] s (abortRun true (abortRun false s)) := by
  have hidle : ∀ c u, (u.wfe.conv c).running = false → abortRun c u = endRun c u := fun c u hu => by
    simp [abortRun, hu]
  have hother : (endRun false s).wfe.b = s.wfe.b := by
    simp [endRun, closeEntry, WfeState.conv, State.setConv, State.setWfe, ha]
  rw [hidle false s ha, hidle true _ (by simp [WfeState.conv, hother, hb])]
  exact endRun_only _ _ (endRun_only _ _ (.refl ..) (by simp)) (by simp)

theorem pllLockLoss_completes {p : Pll} {s : State} (hs : Canon s) (hlock : s.flag Reg.clkStatus (pllBit p) = true)
    (hrun : s.weave.run = none) (ha : s.wfe.a.running = false) (hb : s.wfe.b.running = false) :
    Completes (.pllLockLoss p) s (fun t =>
      t.flag Reg.clkStatus (pllBit p) = false ∧
      t.fld Reg.clkLossCnt 0 16 = min (s.fld Reg.clkLossCnt 0 16 + 1) 65535 ∧
      Only [.regs, .wfe] s t ∧ RegsOnly [Reg.clkStatus, Reg.clkLossCnt] s t) := by
  obtain ⟨u, hu, hexec⟩ : ∃ u, Moves [.wfe] s u ∧ exec (.pllLockLoss p) s = .next (pllLockLoss p u) := by
    cases p with
    | pix => exact ⟨_, Moves.ite (abortRuns_moves ha hb) (.refl ..), rfl⟩
    | _ => exact ⟨s, .refl .., rfl⟩
  have hregs : u.regs = s.regs := (hu.only.2 .regs (by decide)).1
  have hwf : smWf resetVal u.regs = true := hregs ▸ hs.regs
  have hbit : pllBit p < 32 := by cases p <;> decide
  have hloss : pllLockLoss p u = lossCounted (pllBit p) u := by
    have hweave : u.weave = s.weave := hu.only.2 .weave (by decide)
    have hflag : u.flag Reg.clkStatus (pllBit p) = true := by rw [← hlock, State.flag, reg_eq_of_regs_eq hregs, State.flag]
    simp [pllLockLoss, hflag, State.weaveRuns, hweave, hrun, lossCounted]
  refine completes_of_eq hexec hloss ⟨lossCounted_flag hwf _ hbit, ?_, ?_, ?_⟩
  · rw [lossCounted_count hwf, fld_eq_of_regs_eq hregs]
  · exact (hu.only.mono (by simp)).trans ((lossCounted_only _).mono (by simp))
  · exact (((RegMoves.refl _ hs.regs).congr hregs).trans (lossCounted_regs hwf _)).only

theorem refFail_tree {s : State} (h : s.flag Reg.clkStatus 4 = true) : refFail .tree s = lossCounted 4 s := if_pos h

theorem aclkMeasure_completes {s : State} (hs : Canon s) {r : BitVec 32} (hclk : s.time.cclk = true) (hr : r ≠ 0) :
    Completes (.aclkMeasure r) s (fun t =>
      t.reg Reg.timeAonInc = BitVec.ofNat 32 (r.toNat * 1280) ∧ t.flag Reg.clkStatus 6 = true ∧
      Only [.regs] s t ∧ RegsOnly [Reg.timeAonInc, Reg.clkAclkPpm, Reg.clkStatus] s t) := by
  have hr' : r.toNat ≠ 0 := fun h0 => hr (BitVec.eq_of_toNat_eq h0)
  have hrun : s.cclkRuns = true ∧ r.toNat ≠ 0 := ⟨hclk, hr'⟩
  have h1 := setReg_wf hs.regs Reg.timeAonInc (BitVec.ofNat 32 (r.toNat * 1280))
  refine ⟨_, rfl, ?_⟩
  simp only [aclkMeasure, if_pos hrun]
  refine ⟨?_, flag_setFlag (setFld_wf h1 ..) _ _ _ (by decide), ?_, ?_⟩
  · rw [reg_setFlag_ne (setFld_wf h1 ..) _ _ (by decide), reg_setFld_ne h1 _ _ _ (by decide), reg_setReg hs.regs]
  · exact only_iff.2 (by simp [State.setFlag, State.setFld, State.setReg])
  · exact ((((RegMoves.refl _ hs.regs).setReg _ (by simp)).setFld _ _ _ (by simp)).setFlag _ _ (by simp)).only

/-! ### Boundaries -/

/-- A quotient rounded up is the least whole number of divisors that reaches the dividend. -/
theorem ceilDiv_le_iff {a b k : Nat} (hb : 0 < b) : ceilDiv a b ≤ k ↔ a ≤ k * b := by
  rw [ceilDiv, ← Nat.lt_succ_iff, Nat.div_lt_iff_lt_mul hb, Nat.succ_mul]
  omega

/-- The least multiple of `p` that reaches `x` on a scale finer by `q`. -/
theorem ceilDiv_mul_least {x p q : Nat} (hp : 0 < p) (hq : 0 < q) :
    x ≤ ceilDiv x (p * q) * p * q ∧ ∀ n, n % p = 0 → x ≤ n * q → ceilDiv x (p * q) * p ≤ n := by
  have hle := fun k => ceilDiv_le_iff (a := x) (k := k) (Nat.mul_pos hp hq)
  refine ⟨by simpa [Nat.mul_assoc] using (hle _).1 le_rfl, fun n hn hreach => ?_⟩
  obtain ⟨k, rfl⟩ := Nat.dvd_of_mod_eq_zero hn
  rw [Nat.mul_comm p k] at hreach ⊢
  exact Nat.mul_le_mul_right p ((hle k).2 (by rwa [← Nat.mul_assoc]))

/-- Settles O57: the boundary is a rounded-up quotient times the period, by `ceilDiv_mul_least`. -/
theorem scheduleBoundary : Obligations.ScheduleBoundary := fun s =>
  ⟨Nat.mul_mod_left .., ceilDiv_mul_least (by norm_num) (by norm_num)⟩

/-! ### Reads of belt time -/

/-- The high half of a 64-bit word. -/
theorem ofNat_bits_32_32 (x : BitVec 64) : BitVec.ofNat 32 (bits x 32 32) = (x >>> 32).setWidth 32 := by
  apply BitVec.eq_of_toNat_eq
  simp [bits]

/-- The low half of a 64-bit word. -/
theorem ofNat_toNat_32 (x : BitVec 64) : BitVec.ofNat 32 x.toNat = x.setWidth 32 := by
  apply BitVec.eq_of_toNat_eq
  simp

/-- Settles O2: on a served package a read is `gateRead_of_served`. -/
theorem timeReadsComplete : Obligations.TimeReadsComplete := by
  refine ⟨fun s hserved => congrArg _ (gateRead_of_served hserved ..), fun s hserved => ?_, fun s hserved => ?_⟩
  · exact completes_of_eq rfl (gateRead_of_served hserved ..) ⟨ofNat_bits_32_32 _,
      by rw [emit_out, ← ofNat_toNat_32]; rfl, only_iff.2 (by simp [timeBeatNumLoRead])⟩
  · exact completes_of_eq rfl (gateRead_of_served hserved ..) ⟨ofNat_bits_32_32 _,
      by rw [emit_out, ← ofNat_toNat_32]; rfl, only_iff.2 (by simp [timeBeatStampLoRead])⟩

/-! ### SET and the step (R36) -/

theorem timeSet_accepted {s : State} (hbusy : s.weaveBusy = false) (hfollows : s.follows = false)
    (hpend : s.time.pendStep = none) (halign : s.pair Reg.timeSetLo Reg.timeSetHi % 32000 = 0)
    (hahead : boundaryAhead s < s.pair Reg.timeSetLo Reg.timeSetHi) :
    timeSet s = (let u := { s with time := { s.time with
        pendStep := some (BitVec.ofNat 64 (boundaryAhead s), BitVec.ofNat 64 (s.pair Reg.timeSetLo Reg.timeSetHi)) } }
      if s.basket.joined then
        floodTime none (stepWord (boundaryAhead s) (s.pair Reg.timeSetLo Reg.timeSetHi)) u else u) := by
  simp only [timeSet, hbusy, hfollows, hpend, halign, Nat.not_le.2 hahead, Option.isSome_none, Bool.false_eq_true,
    ne_eq, not_true_eq_false, if_false]

/-- Beat values that take effect change no other part of belt time; those whose boundary lies ahead go on waiting. -/
theorem takeBeats_time (ns : Nat) (s : State) : ∃ b e, (takeBeats ns s).time = { s.time with
    pendBeats := s.time.pendBeats.filter (fun x => decide (ns < x.1.toNat)), beatLen := b, epoch := e } := by
  unfold takeBeats
  dsimp only
  split
  · exact ⟨_, _, by unfold takeBeat; split <;> rfl⟩
  · exact ⟨_, _, rfl⟩

/-- With no beat values waiting, none take effect. -/
theorem takeBeats_of_none {ns : Nat} {s : State} (h : s.time.pendBeats = []) : (takeBeats ns s).time = s.time ∧
    takeBeats ns s = { s with time := (takeBeats ns s).time } := by
  have hnone : takeBeats ns s = { s with time := { s.time with pendBeats := [] } } := by simp [takeBeats, h]
  rw [hnone, ← h]
  exact ⟨rfl, rfl⟩

/-- What follows a step of belt time, or a boundary: due beat values take effect, the counter is computed afresh, and a
load that waited is judged (R36, R39, R355). -/
def settleBeats (s : State) : State := wakeLoad (recomputeBeat (takeBeats s.nowNs s))

section SettleBeats

variable (s : State)

theorem settleBeats_time : ∃ b e n, (settleBeats s).time = { s.time with
    pendBeats := s.time.pendBeats.filter (fun x => decide (s.nowNs < x.1.toNat)), beatLen := b, epoch := e, beatNum := n } := by
  obtain ⟨b, e, htime⟩ := takeBeats_time s.nowNs s
  refine ⟨b, e, BitVec.ofNat 64 (takeBeats s.nowNs s).beatNow, ?_⟩
  rw [settleBeats, wakeLoad_time, recomputeBeat, htime]

theorem settleBeats_nowNs : (settleBeats s).nowNs = s.nowNs := by
  obtain ⟨b, e, n, htime⟩ := settleBeats_time s
  simp only [State.nowNs, htime]

/-- The counter stands for the values and the belt time that it was computed from (R40). -/
theorem settleBeats_beatNum : (settleBeats s).time.beatNum = BitVec.ofNat 64 (settleBeats s).beatNow := by
  simp only [settleBeats, State.beatNow, State.nowFp, wakeLoad_time]
  rfl

theorem settleBeats_only (hbeats : s.time.pendBeats = []) (hload : s.weave.load = none) :
    Only [.time] s (settleBeats s) := by
  obtain ⟨-, hother⟩ := takeBeats_of_none (ns := s.nowNs) hbeats
  rw [settleBeats, hother, wakeLoad_of_no_load (by exact hload)]
  exact (((Moves.refl ..).updTime (by simp)).updTime (by simp)).only

end SettleBeats

/-- The step at its boundary, up to the beat values. -/
def stepped (set : BitVec 64) (s : State) : State :=
  stepBelt (BitVec.ofNat 80 (max s.nowFp (set.toNat * 65536))) { s with time := { s.time with pendStep := none } }

theorem stepped_nowNs (set : BitVec 64) (s : State) : (stepped set s).nowNs = max s.nowNs set.toNat := by
  have hmax : max s.nowFp (set.toNat * 65536) < 2 ^ 80 := max_lt s.time.belt.isLt (by have := set.isLt; omega)
  have hbelt : (stepped set s).time.belt.toNat = max s.nowFp (set.toNat * 65536) :=
    (BitVec.toNat_ofNat ..).trans (Nat.mod_eq_of_lt hmax)
  have hfp : s.nowNs = s.nowFp / 65536 := rfl
  rw [State.nowNs, hbelt, hfp]
  omega

theorem timeStepApply_due {s : State} {b set : BitVec 64} (hpend : s.time.pendStep = some (b, set))
    (hdue : b.toNat ≤ s.nowNs) : timeStepApply s = settleBeats (stepped set s) := by
  simp only [timeStepApply, hpend, Nat.not_lt.2 hdue, if_false]
  rfl

theorem timeStepApply_completes {s : State} {b set : BitVec 64} (hpend : s.time.pendStep = some (b, set))
    (hdue : b.toNat ≤ s.nowNs) :
    Completes .timeStepApply s (fun t =>
      t.nowNs = max s.nowNs set.toNat ∧ t.time.slew = s.time.slew ∧ t.time.pendStep = none ∧
      t.time.pendBeats = s.time.pendBeats.filter (fun x => decide (max s.nowNs set.toNat < x.1.toNat)) ∧
      t.time.beatNum = BitVec.ofNat 64 t.beatNow ∧
      (s.time.pendBeats = [] → s.weave.load = none → Only [.time] s t)) := by
  obtain ⟨bl, ep, n, htime⟩ := settleBeats_time (stepped set s)
  refine completes_of_eq rfl (timeStepApply_due hpend hdue) ⟨?_, ?_, ?_, ?_, settleBeats_beatNum _, fun hbeats hload => ?_⟩
  · rw [settleBeats_nowNs, stepped_nowNs]
  · rw [htime]; rfl
  · rw [htime]; rfl
  · rw [htime, stepped_nowNs]; rfl
  · have hstep : Moves [.time] s (stepped set s) :=
      stepBelt_only _ _ ((Moves.refl ..).updTime (by simp)) (by simp)
    exact hstep.only.trans (settleBeats_only _ hbeats hload)

/-! ### Beat values (R39) -/

/-- A principal or a package on its own puts accepted beat values behind those that wait. -/
theorem scheduleBeat_pendBeats (b epoch : Nat) (s : State) : (scheduleBeat b epoch s).time = { s.time with
    pendBeats := s.time.pendBeats ++
      [(BitVec.ofNat 64 (boundaryAhead s), BitVec.ofNat 22 b, BitVec.ofNat 64 epoch)] } := by
  unfold scheduleBeat
  dsimp only
  split
  · rw [floodTime_time]; rfl
  · rfl

theorem ofNat_22_bits (v : Word) : BitVec.ofNat 22 (bits v 0 22) = BitVec.ofNat 22 v.toNat := by
  apply BitVec.eq_of_toNat_eq
  simp [bits]

theorem timeBeatLenWrite_completes {v : Word} {s : State} (hs : Canon s) (hserved : Served s) (hrun : s.weave.run = none)
    (hload : s.weave.load = none) (hlead : s.basket.joined = true → s.basket.isPrincipal = true)
    (hlo : 4096 ≤ v.toNat % 2 ^ 22) (hhi : v.toNat % 2 ^ 22 ≤ 2097152) :
    Completes (.timeBeatLenWrite v 15) s (fun t =>
      t.fld Reg.timeBeatLen 0 22 = v.toNat % 2 ^ 22 ∧
      t.time.pendBeats = s.time.pendBeats ++
        [(BitVec.ofNat 64 (boundaryAhead s), BitVec.ofNat 22 v.toNat,
          BitVec.ofNat 64 (s.pair Reg.timeBeatEpochLo Reg.timeBeatEpochHi))] ∧
      t.time.beatLen = s.time.beatLen ∧ Only [.time, .basket, .regs] s t ∧ RegsOnly [Reg.timeBeatLen] s t) := by
  have hrange : ¬(bits v 0 22 < 4096 ∨ 2097152 < bits v 0 22) := by
    rw [show bits v 0 22 = v.toNat % 2 ^ 22 from rfl]
    omega
  have heq := timeBeatLenWrite_idle (v := v) (weaveBusy_of_idle hrun hload) (follows_of_leads hlead)
  rw [if_neg hrange] at heq
  refine completes_timeBeatLenWrite hserved ?_
  rw [heq]
  refine ⟨?_, ?_, ?_, ?_, ?_⟩
  · rw [fld_eq_of_regs_eq (scheduleBeat_regs ..), fld_setFld hs.regs _ _ _ _ (by decide), bits_mod]
    rfl
  · rw [scheduleBeat_pendBeats, ofNat_22_bits]
    rfl
  · rw [scheduleBeat_pendBeats]
    rfl
  · exact (scheduleBeat_only _ _ _ (State_setFld_only _ _ _ _ _ (.refl ..) (by simp)) (by simp)).only
  · exact (((RegMoves.refl _ hs.regs).setFld 0 22 _ (by simp)).congr (scheduleBeat_regs ..)).only

/-- A 64-bit word from its halves. -/
theorem ofNat_64_halves (lo hi : Word) : BitVec.ofNat 64 (lo.toNat + hi.toNat * 2 ^ 32) = hi ++ lo := by
  apply BitVec.eq_of_toNat_eq
  have hlo := lo.isLt
  have hhi := hi.isLt
  rw [BitVec.toNat_append, ← Nat.shiftLeft_add_eq_or_of_lt hlo, BitVec.toNat_ofNat, Nat.shiftLeft_eq]
  omega

theorem timeBeatEpochWrite_accepted {v : Word} {s : State} (hbusy : s.weaveBusy = false) (hfollows : s.follows = false)
    (halign : ((s.stagedLo Reg.timeBeatEpochLo).toNat + v.toNat * 2 ^ 32) % 32000 = 0) :
    timeBeatEpochWrite v 15 s = scheduleBeat (s.fld Reg.timeBeatLen 0 22)
      ((s.stagedLo Reg.timeBeatEpochLo).toNat + v.toNat * 2 ^ 32)
      (((clearStage Reg.timeBeatEpochLo s).setReg Reg.timeBeatEpochLo (s.stagedLo Reg.timeBeatEpochLo)).setReg
        Reg.timeBeatEpochHi v) := by
  have hbusy' : (clearStage Reg.timeBeatEpochLo s).weaveBusy = false := hbusy
  have hfollows' : (clearStage Reg.timeBeatEpochLo s).follows = false := hfollows
  simp only [timeBeatEpochWrite, mergeBytes_full, hbusy', hfollows', halign, Bool.false_eq_true, ne_eq,
    not_true_eq_false, if_false]
  rfl

theorem timeBeatEpochWrite_completes {v : Word} {s : State} (hs : Canon s) (hserved : Served s)
    (hrun : s.weave.run = none) (hload : s.weave.load = none)
    (hlead : s.basket.joined = true → s.basket.isPrincipal = true)
    (halign : ((s.stagedLo Reg.timeBeatEpochLo).toNat + v.toNat * 2 ^ 32) % 32000 = 0) :
    Completes (.timeBeatEpochWrite v 15) s (fun t =>
      t.reg Reg.timeBeatEpochLo = s.stagedLo Reg.timeBeatEpochLo ∧ t.reg Reg.timeBeatEpochHi = v ∧
      t.time.pendBeats = s.time.pendBeats ++
        [(BitVec.ofNat 64 (boundaryAhead s), BitVec.ofNat 22 (s.fld Reg.timeBeatLen 0 22),
          v ++ s.stagedLo Reg.timeBeatEpochLo)] ∧
      t.time.epoch = s.time.epoch ∧ Only [.time, .basket, .regs] s t ∧
      RegsOnly [Reg.timeBeatEpochLo, Reg.timeBeatEpochHi] s t) := by
  have h1 : smWf resetVal ((clearStage Reg.timeBeatEpochLo s).setReg Reg.timeBeatEpochLo
    (s.stagedLo Reg.timeBeatEpochLo)).regs = true := smSet_wf hs.regs
  have haccepted := timeBeatEpochWrite_accepted (weaveBusy_of_idle hrun hload) (follows_of_leads hlead) halign
  refine completes_of_eq rfl ((if_pos (answers_of_served hserved _)).trans haccepted) ⟨?_, ?_, ?_, ?_, ?_, ?_⟩
  · rw [reg_eq_of_regs_eq (scheduleBeat_regs ..), reg_setReg_ne h1 _ (by decide)]
    exact reg_setReg (s := clearStage Reg.timeBeatEpochLo s) hs.regs _ _
  · rw [reg_eq_of_regs_eq (scheduleBeat_regs ..), reg_setReg h1]
  · rw [scheduleBeat_pendBeats, ofNat_64_halves]
    rfl
  · rw [scheduleBeat_pendBeats]
    rfl
  · exact (scheduleBeat_only _ _ _ (State_setReg_only _ _ _ (State_setReg_only _ _ _
      ((Moves.refl ..).updTime (by simp)) (by simp)) (by simp)) (by simp)).only
  · have hstage : RegMoves [Reg.timeBeatEpochLo, Reg.timeBeatEpochHi] s (clearStage Reg.timeBeatEpochLo s) :=
      (RegMoves.refl _ hs.regs).congr rfl
    exact (((hstage.setReg _ (by simp)).setReg _ (by simp)).congr (scheduleBeat_regs ..)).only

section BeatsDue

variable {s : State} {bd e : BitVec 64} {b : BitVec 22}

theorem takeBeats_due {ns : Nat}
    (h : (s.time.pendBeats.filter (fun x => decide (x.1.toNat ≤ ns))).getLast? = some (bd, b, e)) :
    takeBeats ns s = takeBeat b e { s with time := { s.time with
      pendBeats := s.time.pendBeats.filter (fun x => decide (ns < x.1.toNat)) } } := by
  simp only [takeBeats, h]

theorem takeBeat_time (b : BitVec 22) (e : BitVec 64) (s : State) :
    (takeBeat b e s).time = { s.time with beatLen := b, epoch := e } := by
  unfold takeBeat
  split <;> rfl

theorem takeBeat_moves (b : BitVec 22) (e : BitVec 64) (s : State) : Moves [.time, .regs] s (takeBeat b e s) :=
  takeBeat_only _ _ _ (.refl ..) (by simp)

theorem showBeat_regMoves (h : smWf resetVal s.regs = true) (b : BitVec 22) (e : BitVec 64) :
    RegMoves [Reg.timeBeatLen, Reg.timeBeatEpochLo, Reg.timeBeatEpochHi] s (showBeat b e s) :=
  (((RegMoves.refl _ h).setFld 0 22 _ (by simp)).setReg _ (by simp)).setReg _ (by simp)

theorem takeBeat_regMoves (h : smWf resetVal s.regs = true) (b : BitVec 22) (e : BitVec 64) :
    RegMoves [Reg.timeBeatLen, Reg.timeBeatEpochLo, Reg.timeBeatEpochHi] s (takeBeat b e s) := by
  unfold takeBeat
  exact (RegMoves.ite (showBeat_regMoves h b e) (.refl _ h)).congr rfl

/-- The registers of the beat values show what `showBeat` put there (Table Time-5). -/
theorem showBeat_reads (h : smWf resetVal s.regs = true) (b : BitVec 22) (e : BitVec 64) :
    (showBeat b e s).fld Reg.timeBeatLen 0 22 = b.toNat ∧ (showBeat b e s).reg Reg.timeBeatEpochLo = e.setWidth 32 ∧
      (showBeat b e s).reg Reg.timeBeatEpochHi = (e >>> 32).setWidth 32 := by
  have h1 := setFld_wf h Reg.timeBeatLen 0 22 b.toNat
  have h2 := setReg_wf h1 Reg.timeBeatEpochLo (BitVec.ofNat 32 e.toNat)
  refine ⟨?_, ?_, ?_⟩
  · rw [showBeat, fld_setReg_ne h2 _ _ _ (by decide), fld_setReg_ne h1 _ _ _ (by decide), fld_setFld h _ _ _ _ (by decide),
      Nat.mod_eq_of_lt b.isLt]
  · rw [showBeat, reg_setReg_ne h2 _ (by decide), reg_setReg h1, ofNat_toNat_32]
  · rw [showBeat, reg_setReg h2, ofNat_bits_32_32]

theorem beatValuesApply_due (h : (s.time.pendBeats.filter (fun x => decide (x.1.toNat ≤ s.nowNs))).getLast? = some (bd, b, e))
    (hstep : s.time.pendStep = none) : beatValuesApply s = settleBeats s := by
  have hmem := List.mem_filter.1 (List.mem_of_getLast? h)
  have hany : s.time.pendBeats.any (fun x => decide (x.1.toNat ≤ s.nowNs)) = true :=
    List.any_eq_true.2 ⟨_, hmem.1, hmem.2⟩
  simp only [beatValuesApply, hany, hstep, Bool.not_true, Bool.false_eq_true, if_false]
  rfl

theorem beatValuesApply_completes (hs : Canon s)
    (hdue : (s.time.pendBeats.filter (fun x => decide (x.1.toNat ≤ s.nowNs))).getLast? = some (bd, b, e))
    (hstep : s.time.pendStep = none) :
    Completes .beatValuesApply s (fun t =>
      t.time.beatLen = b ∧ t.time.epoch = e ∧ t.time.belt = s.time.belt ∧
      t.time.pendBeats = s.time.pendBeats.filter (fun x => decide (s.nowNs < x.1.toNat)) ∧
      t.time.beatNum = BitVec.ofNat 64 t.beatNow ∧
      (t.time.pendBeats = [] → t.fld Reg.timeBeatLen 0 22 = b.toNat ∧ t.reg Reg.timeBeatEpochLo = e.setWidth 32 ∧
        t.reg Reg.timeBeatEpochHi = (e >>> 32).setWidth 32) ∧
      (s.weave.load = none → Only [.time, .regs] s t ∧
        RegsOnly [Reg.timeBeatLen, Reg.timeBeatEpochLo, Reg.timeBeatEpochHi] s t)) := by
  obtain ⟨u, hu⟩ : ∃ u : State, u = { s with time := { s.time with
      pendBeats := s.time.pendBeats.filter (fun x => decide (s.nowNs < x.1.toNat)) } } := ⟨_, rfl⟩
  have htake : takeBeats s.nowNs s = takeBeat b e u := by rw [takeBeats_due hdue, hu]
  have hmoves : Moves [.time, .regs] s u := hu ▸ (Moves.refl ..).updTime (by simp)
  have hregs : u.regs = s.regs := by rw [hu]
  have hwf : smWf resetVal u.regs = true := hregs ▸ hs.regs
  have hsettled : settleBeats s = wakeLoad (recomputeBeat (takeBeat b e u)) := by rw [settleBeats, htake]
  have htime : (settleBeats s).time = { u.time with
      beatLen := b, epoch := e, beatNum := BitVec.ofNat 64 (takeBeat b e u).beatNow } := by
    rw [hsettled, wakeLoad_time, recomputeBeat, takeBeat_time]
  have hwake : RegMoves [Reg.bootErr] (takeBeat b e u) (settleBeats s) := by
    have hcounted : RegMoves [Reg.bootErr] (takeBeat b e u) (recomputeBeat (takeBeat b e u)) :=
      (RegMoves.refl _ (takeBeat_regMoves hwf b e).wf).congr rfl
    exact hsettled ▸ hcounted.wakeLoad (by simp)
  refine completes_of_eq rfl (beatValuesApply_due hdue hstep)
    ⟨by rw [htime], by rw [htime], by rw [htime, hu], by rw [htime, hu], settleBeats_beatNum s, fun hnone => ?_, fun hload => ?_⟩
  · have hnone' : u.time.pendBeats = [] := by rw [htime] at hnone; exact hnone
    have hshow : (takeBeat b e u).regs = (showBeat b e u).regs := by simp [takeBeat, hnone']
    obtain ⟨hlen, hlo, hhi⟩ := showBeat_reads hwf b e
    refine ⟨?_, ?_, ?_⟩
    · rw [fld_eq_bits, hwake.only _ (by decide), ← fld_eq_bits, fld_eq_of_regs_eq hshow, hlen]
    · rw [hwake.only _ (by decide), reg_eq_of_regs_eq hshow, hlo]
    · rw [hwake.only _ (by decide), reg_eq_of_regs_eq hshow, hhi]
  · have hnoload : (recomputeBeat (takeBeat b e u)).weave.load = none := by
      have := (takeBeat_moves b e u).only.2 .weave (by decide)
      rw [show (recomputeBeat (takeBeat b e u)).weave = (takeBeat b e u).weave from rfl, this, hu]
      exact hload
    rw [hsettled, wakeLoad_of_no_load hnoload]
    exact ⟨((hmoves.trans (takeBeat_moves b e u)).trans ((Moves.refl ..).updTime (by simp))).only,
      ((((RegMoves.refl _ hs.regs).congr hregs).trans (takeBeat_regMoves hwf b e)).congr rfl).only⟩

end BeatsDue

/-! ### Alignment (R34, R35) -/

section Alignment

variable {s : State} (o : BitVec 16) (aligned : Bool)

/-- An offset measured to the principal: the register, ALIGNED, and the correction that is slewed in. -/
theorem offsetMeasured_spec (hs : Canon s) : (fun t : State =>
      t.fld Reg.timeAlign 0 16 = o.toNat ∧ t.flag Reg.timeAlign 24 = aligned ∧
      t.time = { s.time with slew := -(o.toInt * 256) } ∧ Only [.regs, .time] s t ∧
      RegsOnly [Reg.timeAlign] s t) ((slewOffset o s).setFlag Reg.timeAlign 24 aligned) := by
  have h1 : smWf resetVal (slewOffset o s).regs = true := setFld_wf hs.regs Reg.timeAlign 0 16 o.toNat
  refine ⟨?_, flag_setFlag h1 _ _ _ (by decide), rfl, ?_, ?_⟩
  · rw [State.setFlag, fld_setFld_ne h1 _ _ _ _ _ _ (by decide) (by decide)]
    exact (fld_setFld hs.regs _ _ _ _ (by decide)).trans (Nat.mod_eq_of_lt o.isLt)
  · exact only_iff.2 (by simp [slewOffset])
  · have hslew : RegMoves [Reg.timeAlign] s (slewOffset o s) :=
      ((RegMoves.refl _ hs.regs).setFld 0 16 o.toNat (by simp)).congr rfl
    exact (hslew.setFlag 24 aligned (by simp)).only

end Alignment

theorem alignAchieved_within {o : BitVec 16} {s : State} (hjoined : s.basket.joined = true)
    (hstep : s.basket.joinAt = none) (hlo : -128 ≤ o.toInt) (hhi : o.toInt ≤ 128) :
    alignAchieved o s = (slewOffset o s).setFlag Reg.timeAlign 24 true := by
  simp [alignAchieved, hjoined, hstep, offsetOk, hlo, hhi]

theorem alignLoss_beyond {o : BitVec 16} {s : State} (hjoined : s.basket.joined = true)
    (hout : o.toInt < -128 ∨ 128 < o.toInt) (hrun : s.weave.run = none) :
    alignLoss o s = (slewOffset o s).setFlag Reg.timeAlign 24 false := by
  have hok : offsetOk o = false := by
    simp only [offsetOk, Bool.and_eq_false_iff, decide_eq_false_iff_not]
    omega
  simp [alignLoss, hjoined, hok, State.weaveRuns, slewOffset, hrun]

/-- Settles O3, each clause by the lemma on its command. -/
theorem timeCommandsComplete : Obligations.TimeCommandsComplete := by
  refine ⟨?_, fun s b set => timeStepApply_completes, fun v s => timeBeatLenWrite_completes,
    fun v s => timeBeatEpochWrite_completes, fun s bd e b => beatValuesApply_completes, ?_, ?_⟩
  · intro s hserved hrun hload hlead hpend halign hahead
    have haccepted := timeSet_accepted (weaveBusy_of_idle hrun hload) (follows_of_leads hlead) hpend halign hahead
    refine completes_of_eq rfl ((gateWrite_of_served hserved ..).trans haccepted) ⟨?_, fun hj => ?_, ?_⟩
    · dsimp only
      split <;> simp
    · simp [hj, floodTime]
    · exact (ite_floodTime_moves ((Moves.refl _ s).updTime (by simp)) (by simp) _).only
  · intro o s hs hjoined hstep hlo hhi
    exact completes_of_eq rfl (alignAchieved_within hjoined hstep hlo hhi) (offsetMeasured_spec o true hs)
  · intro o s hs hjoined hout hrun
    exact completes_of_eq rfl (alignLoss_beyond hjoined hout hrun) (offsetMeasured_spec o false hs)

/-- Settles O1, each clause by the lemma on its command. -/
theorem clockCommandsComplete : Obligations.ClockCommandsComplete := by
  refine ⟨?_, ?_, fun s => pllRelockDone_completes, fun p s => pllLockLoss_completes, ?_,
    fun r s hs => aclkMeasure_completes hs⟩
  · intro s hserved hlo hhi hlead hrun hload htrim
    have heq := clkApply_accepted hlo hhi hlead (weaveBusy_of_idle hrun hload) htrim
    refine completes_of_eq rfl ((gateWrite_of_served hserved ..).trans heq) ⟨?_, ?_, ?_, ?_, ?_⟩
    · split <;> simp
    · intro hj
      simp [hj, floodTime]
    · split <;> simp
    · split <;> simp
    · exact (ite_floodTime_moves ((Moves.refl _ s).updTime (by simp)) (by simp) _).only
  · intro s b m sp hs hpend hdue
    exact completes_of_eq rfl (pllRelock_due hpend hdue) ⟨rfl, relockTo_mult hs.regs m sp,
      relockTo_spread hs.regs m sp, relockTo_unlocked hs.regs m sp, relockTo_frame m sp, (relockTo_regs hs.regs m sp).only⟩
  · intro s hs hflag
    exact completes_of_eq rfl (refFail_tree hflag) ⟨lossCounted_flag hs.regs 4 (by decide),
      lossCounted_count hs.regs 4, lossCounted_only 4, (lossCounted_regs hs.regs 4).only⟩

end Sys2Proof.Machine
end

section
/-!
PROOFS. Steps.lean: what a step is, that every command answers, how time passes, and the machine after reset.
-/

namespace Sys2Proof.Machine

/-! ### A step -/

/-- Settles O30: a step runs the front command by definition. -/
theorem stepTakesTheFront : Obligations.StepTakesTheFront := fun _ _ _ => rfl

/-- A choice between two answers is an answer. -/
theorem ite_answers {c : Prop} [Decidable c] {s t : State} :
    ∃ u : State, (if c then Host.Outcome.next s else .next t : Outcome) = .next u := by
  split
  · exact ⟨s, rfl⟩
  · exact ⟨t, rfl⟩

/-- An integration start answers with a due exposure, and without one. -/
theorem integrationStart_answers (s : State) : ∃ t, execIntegrationStart s = .next t := by
  unfold execIntegrationStart
  split
  · exact ite_answers
  · exact ⟨s, rfl⟩

/-- An integration end answers with an exposure that is over, and without one. -/
theorem integrationEnd_answers (s : State) : ∃ t, execIntegrationEnd s = .next t := by
  unfold execIntegrationEnd
  split
  · exact ite_answers
  · exact ⟨s, rfl⟩

/-- Settles O33: most commands are `.next` of their operation; nine judge first whether they act at all. -/
theorem everyCommandAnswers : Obligations.EveryCommandAnswers := by
  intro c s
  cases c
  case encLoss => exact ite_answers
  case integrationStart => exact integrationStart_answers s
  case integrationEnd => exact integrationEnd_answers s
  case strobeStart => exact ite_answers
  case strobeEnd => exact ite_answers
  case syncPulseStart => exact ite_answers
  case syncPulseEnd => exact ite_answers
  case beltSecond => exact ite_answers
  case feedLoad => exact ite_answers
  all_goals exact ⟨_, rfl⟩

/-! ### Time -/

/-- A step with no command waiting is one tick. -/
theorem step_of_idle {s : State} (h : s.pending = []) : step s = .next (tick s) := by rw [step, h]

theorem tick_of_inReset {s : State} (h : s.power.phase = .inReset) : tick s = s := by simp [tick, h]

theorem tick_of_running {s : State} (h : s.power.phase ≠ .inReset) : tick s = if s.pllsRun then pCycle s else aTick s := by
  unfold tick
  split
  · contradiction
  · rfl

/-- What happens on a p-cycle edge besides belt time moves no clock. -/
theorem pCycle_time (s : State) : (pCycle s).time = { s.time with
    belt := BitVec.ofNat 80 (s.nextEdge + slewStep s.time.slew).toNat, pcyc := s.time.pcyc + 1,
    slew := s.time.slew - slewStep s.time.slew, corr := s.time.corr + slewStep s.time.slew } := by
  have hruns (u : State) : (endStopped (driveCopies u)).time = u.time :=
    (endStopped_only _ (driveCopies_only u (.refl [.out, .field, .wfe] u) (by simp)) (by simp)).only.2 .time (by decide)
  have hsnap (n : Nat) (u : State) : (snapTrigger n u).time = u.time :=
    (snapTrigger_only n u (.refl [.regs, .field, .pix, .roi] u) (by simp)).only.2 .time (by decide)
  have hframes (n : Nat) (u : State) : (framesPass n u).time = u.time :=
    (framesPass_only n u (.refl [.regs, .out, .basket, .host, .knots] u) (by simp)).only.2 .time (by decide)
  unfold pCycle
  dsimp only
  split_ifs <;> simp only [hframes, hsnap, hruns]

/-- Settles O31: a tick is nothing with RESET_N low, an a-tick while the PLLs stand, a p-cycle while they run. -/
theorem timePassesWhenIdle : Obligations.TimePassesWhenIdle := by
  refine ⟨?_, ?_, ?_⟩
  · intro s hidle hreset
    rw [step_of_idle hidle, tick_of_inReset hreset]
  · rintro d s hidle hrun hplls rfl
    rw [step_of_idle hidle, tick_of_running hrun, hplls]
    rfl
  · rintro d s hidle hrun hplls rfl
    rw [step_of_idle hidle, tick_of_running hrun, if_pos hplls]
    exact ⟨_, rfl, pCycle_time s, (pCycle_only s (.refl _ s) (List.Subset.refl _)).only⟩

/-! ### The machine after reset -/

/-- No word, byte, mark, knot or fuse of the state after reset departs from its default. -/
theorem canon_reset : Canon State.reset :=
  ⟨rfl, rfl, rfl, rfl, rfl, rfl, rfl, rfl, rising_nil, rising_nil, rising_nil⟩

/-- Settles O32: the fields of the state after reset, and its empty lists. -/
theorem resetState : Obligations.ResetState :=
  ⟨rfl, fun _ => rfl, canon_reset, rfl, rfl, rfl, rfl, rfl, fun _ => rfl, fun _ => rfl⟩

end Sys2Proof.Machine
end

section
/-!
PROOFS. Registers.lean: writes and reads of BAR0 and BAR2 words: registers without a rule of their own, offsets that no
register claims, and the limits of THERM (R7, R301, R351, R356).
-/

namespace Sys2Proof.Machine

/-! ### The word that a write leaves (R351) -/

/-- What a write of `val` makes of a register without a rule of its own: RW fields take the enabled bytes, W1C bits clear
but for those that hardware sets in the same cycle. -/
def fieldsWord (r : RegRow) (off : Nat) (val : Word) (be : BitVec 4) (s : State) : Word :=
  (((mergeBytes (s.reg off) val be &&& word r.rw) ||| (s.reg off &&& ~~~(word r.rw))) &&&
      ~~~(enabledBytes val be &&& word r.w1c)) |||
    (match s.setNow off with
      | some x => x.2 &&& word r.w1c
      | none => 0)

/-- A register of RW fields alone, written whole. -/
theorem fieldsWord_full {r : RegRow} (hw1c : r.w1c = 0) (off : Nat) (val : Word) (s : State) :
    fieldsWord r off val 0xF s = (val &&& word r.rw) ||| (s.reg off &&& ~~~(word r.rw)) := by
  have hnone : word 0 = 0 := rfl
  unfold fieldsWord
  rw [mergeBytes_full, hw1c, hnone]
  have hall (x : Word) : x &&& ~~~(0#32) = x := BitVec.and_allOnes
  cases s.setNow off <;> simp only [BitVec.ofNat_eq_ofNat, BitVec.and_zero, BitVec.or_zero, hall]

/-- A field reads as written where all its bits are RW. -/
theorem bits_merge {lo len : Nat} {m : Word} (hm : ∀ i < len, m.getLsbD (lo + i) = true) (v old : Word) :
    bits ((v &&& m) ||| (old &&& ~~~m)) lo len = bits v lo len := by
  apply Nat.eq_of_testBit_eq
  intro i
  unfold bits
  simp only [Nat.testBit_mod_two_pow, Nat.testBit_shiftRight, BitVec.testBit_toNat]
  by_cases hi : i < len
  · simp [hm i hi]
  · simp [hi]

/-! ### Writes of registers without a rule of their own -/

section Fields

variable {src : Writer} {r : RegRow} {off : Nat} {val : Word} {be : BitVec 4} {s : State}

/-- The whole word is judged, and then set (R357). -/
theorem fieldsWrite_eq (src : Writer) (r : RegRow) (off : Nat) (val : Word) (be : BitVec 4) (s : State) :
    fieldsWrite src r off val be s =
      if writeVerdict s src off (s.reg off) (fieldsWord r off val be s) (mergeBytes (s.reg off) val be) ≠ 0 then
        latch (writeVerdict s src off (s.reg off) (fieldsWord r off val be s) (mergeBytes (s.reg off) val be))
          (coreOf off) s
      else if fieldOwned off && off < 0xE000 && 0xD000 ≤ off && s.weaveOwns src then s
      else writeEffect src off (s.reg off) (fieldsWord r off val be s)
        ((snapshotFor off s).setReg off (fieldsWord r off val be s)) := by
  unfold fieldsWrite fieldsWord
  cases s.setNow off <;> rfl

/-- Registers from PLAIT on have no effect besides the fields set. -/
theorem fieldsWrite_accepted (hlo : 0x30000 ≤ off)
    (hc : writeVerdict s src off (s.reg off) (fieldsWord r off val be s) (mergeBytes (s.reg off) val be) = 0) :
    fieldsWrite src r off val be s = s.setReg off (fieldsWord r off val be s) := by
  have howned : (fieldOwned off && off < 0xE000 && 0xD000 ≤ off && s.weaveOwns src) = false := by
    have : ¬off < 0xE000 := by omega
    simp [this]
  have hsnap : snapshotFor off s = s := if_neg (by omega)
  have heffect (old new : Word) (u : State) : writeEffect src off old new u = u := by
    unfold writeEffect
    repeat rw [if_neg (by omega)]
  rw [fieldsWrite_eq, hc, howned, hsnap, heffect]
  simp

/-- A refused write reports its code and changes nothing else (R357). -/
theorem fieldsWrite_refused {c : Code} (hc : c ≠ 0)
    (hv : writeVerdict s src off (s.reg off) (fieldsWord r off val be s) (mergeBytes (s.reg off) val be) = c) :
    fieldsWrite src r off val be s = latch c (coreOf off) s := by
  rw [fieldsWrite_eq, hv, if_pos hc]

/-- From PLAIT on, a write that reaches its register is judged by the register's fields. -/
theorem bar0Write_of_fields (hrow : regRow off = some r) (hreach : r.reaches off be = true) (hlo : 0x30000 ≤ off)
    (hpair : stagedPairs.contains off = false) (hhigh : stagedPairs.contains (off - 4) = false)
    (hown : ownWrite off val be s = none) (hcmd : commandWrite src off (enabledBytes val be) s = none) :
    bar0Write src off val be s = fieldsWrite src r off val be s := by
  have hweave : ¬(src = .weave ∧ 0x10000 ≤ off ∧ off < 0x11000) := by omega
  have hstake : (0x6000 ≤ off && off < 0x7000 && !s.anchor) = false := by
    have : ¬off < 0x7000 := by omega
    simp [this]
  simp only [bar0Write, hrow, hreach, if_neg hweave, hstake, hpair, hhigh, hown, hcmd, Bool.not_true, Bool.and_false,
    Bool.false_eq_true, if_false]

end Fields

/-- A register set has changed alone. -/
theorem setReg_only {s : State} (h : Canon s) (off : Nat) (w : Word) :
    Only [.regs] s (s.setReg off w) ∧ RegsOnly [off] s (s.setReg off w) :=
  ⟨(State_setReg_only s off w (.refl [.regs] s) (by simp)).only,
    ((RegMoves.refl [off] h.regs).setReg w (List.mem_singleton_self off)).only⟩

/-! ### Reads -/

/-- The registers whose read does more than return a word and clear RC fields. -/
abbrev latchingReads : List Nat :=
  [Reg.timeNowLo, Reg.timeBeatNumLo, Reg.timeBeatStampLo, Reg.fieldEvqInfo, Reg.fieldEncPosLo, Reg.serveStepNumLo]

theorem bar0Read_of_plain {off : Nat} (h : latchingReads.contains off = false) (s : State) :
    bar0Read off s = (clearRc off s, s.readWord off) := by
  simp only [List.contains_eq_mem, decide_eq_false_iff_not, List.mem_cons, List.not_mem_nil, or_false, not_or] at h
  obtain ⟨h1, h2, h3, h4, h5, h6⟩ := h
  simp only [bar0Read, if_neg h1, if_neg h2, if_neg h3, if_neg h4, if_neg h5, if_neg h6]

/-- Every latching read is a read of a register. -/
theorem latchingReads_claimed : ∀ off ∈ latchingReads, regRow off ≠ none := by decide +kernel

/-- A read of BAR2 in Run returns its word (R65). -/
theorem gateBar2_of_served {s : State} (h : Served s) (off : Nat) :
    gateBar2 off s = s.emit (.readData (0x100000 + off) (bar2Word s off)) := if_pos (answers_of_served h _)

/-- Offsets of BAR2 outside the table and the pending bits read as zero (R65). -/
theorem bar2Word_unclaimed {off : Nat} (hlo : 1152 ≤ off) (hpend : off < 0x2000 ∨ 0x200C ≤ off) (s : State) :
    bar2Word s off = 0 := by
  rw [bar2Word, if_neg (by omega), if_neg (by omega)]

/-! ### Unclaimed and read-only words (R7) -/

/-- A write reaches no bit of a word that has none to write. -/
theorem reaches_of_readOnly {r : RegRow} {off : Nat} (hrw : r.rw = 0) (hw1c : r.w1c = 0) (hwo : r.wo = 0)
    (href : refusedBits off = 0) (be : BitVec 4) : r.reaches off be = false := by
  have hzero : word 0 = 0 := rfl
  simp [RegRow.reaches, hrw, hw1c, hwo, href, hzero, enabledBytes, mergeBytes]

/-- A write that changes nothing where BAR0 answers changes nothing anywhere. -/
theorem gateWrite_of_id {off : Nat} {f : State → State} {s : State} (h : f s = s) : gateWrite off f s = s := by
  rw [gateWrite, h, ite_self]

/-- An unclaimed offset clears nothing and reads as zero. -/
theorem bar0Read_unclaimed {off : Nat} (h : regRow off = none) (s : State) : bar0Read off s = (s, 0) := by
  have hplain : latchingReads.contains off = false := by
    rw [List.contains_eq_mem, decide_eq_false_iff_not]
    exact fun hmem => latchingReads_claimed off hmem h
  have hmask : rcMask off = 0 := by rw [rcMask, h]
  have hview : s.view off = 0 := by simp [State.view, h]
  have hword : s.readWord off = 0 := by
    unfold State.readWord
    rw [hview, hmask]
    split <;> simp
  rw [bar0Read_of_plain hplain, hword, clearRc, if_pos hmask]

/-- Settles O52: no write reaches an unclaimed or a read-only word, and an unclaimed word reads as zero. -/
theorem unclaimedOffsets : Obligations.UnclaimedOffsets := by
  refine ⟨?_, ?_, ?_, ?_, ?_⟩
  · intro src off v be s hrow
    exact congrArg _ (gateWrite_of_id (by rw [bar0Write, hrow]))
  · intro src off v be r s hrow hrw hw1c hwo href
    refine congrArg _ (gateWrite_of_id ?_)
    simp [bar0Write, hrow, reaches_of_readOnly hrw hw1c hwo href]
  · intro off s hserved hrow
    refine congrArg _ ((gateRead_of_served hserved _ _).trans ?_)
    rw [bar0Read_unclaimed hrow]
    rfl
  · intro off v be s hlo
    exact congrArg Host.Outcome.next (gateWrite_of_id (f := bar2Write off.toNat v be) (if_pos hlo))
  · intro off s hserved hlo hpend
    have hoff : (off.setWidth 20).toNat % 0x4000 = off.toNat := by simp; omega
    refine congrArg _ ((gateBar2_of_served hserved _).trans ?_)
    rw [hoff, bar2Word_unclaimed hlo hpend]
    rfl

/-! ### The limits of THERM (R301) -/

section Therm

variable {src : Writer} {v : Word} {s : State}

/-- The registers of THERM that hold RW fields. -/
def thermCtlRow : RegRow := ⟨Reg.thermCtl, 1, 4, 0xFF01, 0, 0, 0, 0x3C00⟩
def thermLimitLRow : RegRow := ⟨Reg.thermLimitL, 1, 4, 0xFFFFFF, 0, 0, 0, 0x78695F⟩
def thermLimitPRow : RegRow := ⟨Reg.thermLimitP, 1, 4, 0xFFFFFF, 0, 0, 0, 0x5A4441⟩

/-- A full write of a register from PLAIT on that no rule of its own governs completes as its fields are judged. -/
theorem completes_registerWrite_fields {r : RegRow} {off : BitVec 20} {P : State → Prop} (hserved : Served s)
    (hrow : regRow off.toNat = some r) (hreach : r.reaches off.toNat 0xF = true) (hlo : 0x30000 ≤ off.toNat)
    (hpair : stagedPairs.contains off.toNat = false) (hhigh : stagedPairs.contains (off.toNat - 4) = false)
    (hown : ownWrite off.toNat v 0xF s = none) (hcmd : commandWrite src off.toNat (enabledBytes v 0xF) s = none)
    (hP : P (fieldsWrite src r off.toNat v 0xF s)) : Completes (.registerWrite src off v 0xF) s P :=
  completes_of_eq rfl ((gateWrite_of_served hserved _ _).trans
    (bar0Write_of_fields hrow hreach hlo hpair hhigh hown hcmd)) hP

/-- Limits are judged as written. -/
theorem limitsOk_merge (old : Word) (top : Nat) : limitsOk ((v &&& 0xFFFFFF) ||| (old &&& ~~~0xFFFFFF)) top = true ↔
    bits v 0 8 < bits v 8 8 ∧ bits v 8 8 < bits v 16 8 ∧ bits v 16 8 ≤ top := by
  rw [limitsOk, bits_merge (by decide), bits_merge (by decide), bits_merge (by decide)]
  simp only [Bool.and_eq_true, decide_eq_true_eq, and_assoc]

/-- E_THERM_LIMIT is a code of THERM_ERR. -/
theorem refused_eThermLimit (h : Canon s) : Refused eThermLimit Reg.thermErr s (refuse eThermLimit s) :=
  refused_refuse h (by decide) rfl (fun hblock => absurd hblock (by decide))

/-- A write of the limits of a die, whose verdict is the order of the three limits and the die's top. -/
theorem thermLimit_judged {r : RegRow} {off top : Nat} (h : Canon s) (hlo : 0x30000 ≤ off) (hcore : coreOf off = 0)
    (hw1c : r.w1c = 0) (hrw : r.rw = 0xFFFFFF)
    (hverdict : ∀ new raw, writeVerdict s src off (s.reg off) new raw = if limitsOk new top then 0 else eThermLimit) :
    if bits v 0 8 < bits v 8 8 ∧ bits v 8 8 < bits v 16 8 ∧ bits v 16 8 ≤ top
    then (fieldsWrite src r off v 0xF s).fld off 0 24 = bits v 0 24 ∧ Only [.regs] s (fieldsWrite src r off v 0xF s) ∧
      RegsOnly [off] s (fieldsWrite src r off v 0xF s)
    else Refused eThermLimit Reg.thermErr s (fieldsWrite src r off v 0xF s) := by
  have hmask : word r.rw = 0xFFFFFF := by rw [hrw]; rfl
  have hword := fieldsWord_full hw1c off v s
  rw [hmask] at hword
  split
  · next hok =>
    rw [fieldsWrite_accepted hlo (by rw [hverdict, hword, if_pos ((limitsOk_merge _ top).2 hok)])]
    refine ⟨?_, setReg_only h _ _⟩
    rw [fld_eq_bits, reg_setReg h.regs, hword, bits_merge (by decide)]
  · next hbad =>
    rw [fieldsWrite_refused (c := eThermLimit) (by decide)
      (by rw [hverdict, hword, if_neg (fun hok => hbad ((limitsOk_merge _ top).1 hok))]), hcore]
    exact refused_eThermLimit h

/-- A RETURN_S of 0 is refused. -/
theorem thermCtl_zero_refused (h : Canon s) (hzero : bits v 8 8 = 0) :
    Refused eThermLimit Reg.thermErr s (fieldsWrite src thermCtlRow Reg.thermCtl v 0xF s) := by
  have hverdict (new raw old : Word) :
      writeVerdict s src Reg.thermCtl old new raw = if bits new 8 8 = 0 then eThermLimit else 0 := rfl
  have hnew : bits (fieldsWord thermCtlRow Reg.thermCtl v 0xF s) 8 8 = 0 := by
    rw [fieldsWord_full rfl, bits_merge (by decide), hzero]
  rw [fieldsWrite_refused (c := eThermLimit) (by decide) (by rw [hverdict, if_pos hnew])]
  exact refused_eThermLimit h

end Therm

/-- Settles O59: the three registers are judged by THERM's verdict, which sees the limits as written. -/
theorem thermalLimits : Obligations.ThermalLimits := by
  refine ⟨?_, ?_, ?_⟩
  · intro src v s hcanon hserved
    exact completes_registerWrite_fields (r := thermLimitLRow) hserved rfl (by decide) (by decide) (by decide) (by decide)
      rfl rfl (thermLimit_judged hcanon (by decide) rfl rfl rfl fun _ _ => rfl)
  · intro src v s hcanon hserved
    exact completes_registerWrite_fields (r := thermLimitPRow) hserved rfl (by decide) (by decide) (by decide) (by decide)
      rfl rfl (thermLimit_judged hcanon (by decide) rfl rfl rfl fun _ _ => rfl)
  · intro src v s hcanon hserved hzero
    exact completes_registerWrite_fields (r := thermCtlRow) hserved rfl (by decide) (by decide) (by decide) (by decide)
      rfl rfl (thermCtl_zero_refused hcanon hzero)

/-! ### Register accesses that complete -/

section Forwarded

variable {s : State} (h : Served s) (hin : s.basket.outsider = false) (p : BitVec 6) (off : Nat)

include h hin

/-- Where BAR0 answers, a write forwarded to a package in the basket is a local one with its response (R63). -/
theorem forwardedWrite_of_served (v : Word) :
    forwardedAccess p off (some v) s = (bar0Write .host off v 0xF s).emit (.fwdResponse p 0 0) := by
  have hinside : ¬(s.basket.outsider && !outsiderBlock off) = true := by simp [hin]
  exact (if_neg hinside).trans (if_pos (answers_of_served h off))

/-- A forwarded read returns its data in the response (R63). -/
theorem forwardedRead_of_served :
    forwardedAccess p off none s = (bar0Read off s).1.emit (.fwdResponse p 0 (bar0Read off s).2) := by
  have hinside : ¬(s.basket.outsider && !outsiderBlock off) = true := by simp [hin]
  exact (if_neg hinside).trans (if_pos (answers_of_served h off))

end Forwarded

section Reading

variable {off : Nat} {s : State}

/-- A read clears the RC fields (Table Scope-1). -/
theorem clearRc_of_idle (hmask : rcMask off ≠ 0) (hset : s.setNow off = none) :
    clearRc off s = s.setReg off (s.reg off &&& ~~~(rcMask off)) := by
  simp only [clearRc, if_neg hmask, hset]

/-- What hardware set in the cycle of the read stays for the next read (R6). -/
theorem clearRc_of_set {b x : Word} (hmask : rcMask off ≠ 0) (hset : s.setNow off = some (b, x)) :
    clearRc off s = (s.setReg off ((s.reg off &&& ~~~(rcMask off)) ||| (x &&& rcMask off))).dropSets off := by
  simp only [clearRc, if_neg hmask, hset]

theorem readWord_of_idle (hset : s.setNow off = none) : s.readWord off = s.view off := by
  simp only [State.readWord, hset]

theorem readWord_of_set {b x : Word} (hset : s.setNow off = some (b, x)) :
    s.readWord off = ((s.view off &&& ~~~(rcMask off)) ||| (b &&& rcMask off)) := by
  simp only [State.readWord, hset]

end Reading

/-- A read of a plain register on a served package. -/
theorem rcFieldRead_completes {off : BitVec 20} {s u : State} {w : Word} {P : State → Prop} (hserved : Served s)
    (hplain : latchingReads.contains off.toNat = false) (hclear : clearRc off.toNat s = u)
    (hword : s.readWord off.toNat = w) (hP : P (u.emit (.readData off.toNat w))) :
    Completes (.rcFieldRead false off) s P := by
  refine completes_of_eq rfl (gateRead_of_served hserved _ _) ?_
  rwa [bar0Read_of_plain hplain, hclear, hword]

/-- A register that a read has set, and the answer. -/
theorem read_frame {s u : State} {off : Nat} (h : Canon s) (w x : Word) (hu : u.regs = (s.setReg off w).regs)
    (hout : u.out = s.out) (hm : Moves [.regs, .out] s (u.emit (.readData off x))) :
    (u.emit (.readData off x)).reg off = w ∧ (u.emit (.readData off x)).out = s.out ++ [.readData off x] ∧
    Only [.regs, .out] s (u.emit (.readData off x)) ∧ RegsOnly [off] s (u.emit (.readData off x)) := by
  refine ⟨?_, by rw [emit_out, hout], hm.only, ?_⟩
  · rw [reg_eq_of_regs_eq ((emit_regs u _).trans hu), reg_setReg h.regs]
  · exact (((RegMoves.refl [off] h.regs).setReg w (List.mem_singleton_self off)).congr hu).only

/-- Settles O29: a register without a rule of its own takes its fields, a low half waits in the stage, a read clears RC
fields and returns the word, and a forwarded access is a local one with its response. -/
theorem registerCommandsComplete : Obligations.RegisterCommandsComplete := by
  refine ⟨?_, ?_, ?_, ?_, ?_, ?_, ?_⟩
  · rintro src off v new be r s hcanon hserved hrow hreach hlo - rfl hpair hhigh hown hcmd hverdict
    refine completes_of_eq rfl ((gateWrite_of_served hserved _ _).trans ((bar0Write_of_fields hrow hreach hlo hpair hhigh
      (Option.isNone_iff_eq_none.1 hown) (Option.isNone_iff_eq_none.1 hcmd)).trans (fieldsWrite_accepted hlo hverdict))) ?_
    exact ⟨reg_setReg hcanon.regs _ _, setReg_only hcanon _ _⟩
  · intro src off v be r s hserved hpair hrow hreach
    have hrun : execLoStageWrite src off v be s = .next (stageLo r.rw off.toNat v be s) := by
      rw [execLoStageWrite, gateWrite_of_served hserved]
      simp only [if_pos hpair, hrow, hreach, Bool.not_true, Bool.false_eq_true, if_false]
    refine completes_of_next hrun ⟨?_, rfl, ?_⟩
    · simp [State.stagedLo, stageLo]
    · exact only_iff.2 (by simp [stageLo, clearStage])
  · intro off s hcanon hserved hmask hplain hset
    refine rcFieldRead_completes hserved hplain (clearRc_of_idle hmask hset) (readWord_of_idle hset) ?_
    exact read_frame hcanon _ _ rfl rfl
      (State_emit_only _ _ (State_setReg_only s _ _ (.refl [.regs, .out] s) (by simp)) (by simp))
  · intro off b x s hcanon hserved hmask hplain hset
    refine rcFieldRead_completes hserved hplain (clearRc_of_set hmask hset) (readWord_of_set hset) ?_
    exact read_frame hcanon _ _ rfl rfl (State_emit_only _ _ (State_dropSets_only _ _
      (State_setReg_only s _ _ (.refl [.regs, .out] s) (by simp)) (by simp)) (by simp))
  · intro off s hserved
    exact congrArg _ (gateBar2_of_served hserved _)
  · intro p off s hserved hin hmask hplain hset
    refine congrArg _ ((forwardedRead_of_served hserved hin p _).trans ?_)
    rw [bar0Read_of_plain hplain, clearRc, if_pos hmask, readWord_of_idle hset]
    rfl
  · intro p off v s t hserved hin hlocal
    obtain rfl : gateWrite off.toNat (bar0Write .host off.toNat v 15) s = t := Host.Outcome.next.inj hlocal
    rw [gateWrite_of_served hserved]
    exact congrArg _ (forwardedWrite_of_served hserved hin p _ v)

end Sys2Proof.Machine
end

section
/-!
PROOFS. Orders.lean: the order of CTRL words at an egress, the two greatest logits of a grammar step, and sums over the
steps and rows of an array (R59, R172, R175, R266).
-/

namespace Sys2Proof.Machine

/-! ### CTRL words (R59) -/

/-- In an ordered queue a word stands behind every word of its own or a higher priority and ahead of every other. -/
theorem ctrlInsert_eq_filter (w : LinkWord) (q : List LinkWord)
    (hq : q.Pairwise (fun a b => ctrlPriority a ≤ ctrlPriority b)) : ctrlInsert w q =
      q.filter (fun v => ctrlPriority v ≤ ctrlPriority w) ++ w :: q.filter (fun v => ctrlPriority w < ctrlPriority v) := by
  induction q with
  | nil => rfl
  | cons v q ih =>
    obtain ⟨hv, hq⟩ := List.pairwise_cons.1 hq
    by_cases hlt : ctrlPriority w < ctrlPriority v
    · have hall : ∀ u ∈ v :: q, ctrlPriority w < ctrlPriority u := by
        simpa [hlt] using fun u hu => Nat.lt_of_lt_of_le hlt (hv u hu)
      have hahead : (v :: q).filter (fun u => ctrlPriority u ≤ ctrlPriority w) = [] := by
        simpa [List.filter_eq_nil_iff] using hall
      have hbehind : (v :: q).filter (fun u => ctrlPriority w < ctrlPriority u) = v :: q := by
        simpa [List.filter_eq_self] using hall
      rw [hahead, hbehind, ctrlInsert, if_pos hlt, List.nil_append]
    · rw [ctrlInsert, if_neg hlt, ih hq]
      simp [hlt, Nat.not_lt.1 hlt]

/-- Settles O56: the queue is the words ahead, the new word and the words behind, each in order. -/
theorem controlQueueOrder : Obligations.ControlQueueOrder := by
  intro w q hq
  refine ⟨?_, ctrlInsert_eq_filter w q hq⟩
  rw [ctrlInsert_eq_filter w q hq, List.pairwise_append, List.pairwise_cons]
  refine ⟨hq.filter _, ⟨?_, hq.filter _⟩, ?_⟩
  · intro v hv
    exact Nat.le_of_lt (by simpa using (List.mem_filter.1 hv).2)
  · intro u hu v hv
    have hu : ctrlPriority u ≤ ctrlPriority w := by simpa using (List.mem_filter.1 hu).2
    rcases List.mem_cons.1 hv with rfl | hv
    · exact hu
    · exact hu.trans (Nat.le_of_lt (by simpa using (List.mem_filter.1 hv).2))

/-! ### The two greatest logits (R266) -/

/-- Token `u` is allowed and has logit `i`. -/
def HasLogit (ok : Nat → Bool) (logits : List (BitVec 32)) (u : Nat) (i : Int) : Prop :=
  ∃ y, logits[u]? = some y ∧ ok u = true ∧ y.toInt = i

/-- Token `t` has the greatest logit of the allowed tokens, and is the lowest of those that have it. -/
def IsGreatestLogit (ok : Nat → Bool) (logits : List (BitVec 32)) (t : Nat) (l1 : Int) : Prop :=
  HasLogit ok logits t l1 ∧ ∀ u i, HasLogit ok logits u i → i < l1 ∨ (i = l1 ∧ t ≤ u)

/-- What `topTwo` finds: no allowed token; one alone; or the first and the greatest logit of the others. -/
def IsTopTwo (ok : Nat → Bool) (logits : List (BitVec 32)) : Option (Nat × Int) × Option Int → Prop
  | (none, l2) => l2 = none ∧ ∀ u i, ¬HasLogit ok logits u i
  | (some (t, l1), none) => IsGreatestLogit ok logits t l1 ∧ ∀ u i, HasLogit ok logits u i → u = t
  | (some (t, l1), some v) => IsGreatestLogit ok logits t l1 ∧ (∃ u, u ≠ t ∧ HasLogit ok logits u v) ∧
      ∀ u i, u ≠ t → HasLogit ok logits u i → i ≤ v

section TopTwo

variable {ok : Nat → Bool} {logits : List (BitVec 32)}

theorem HasLogit.lt_length {u : Nat} {i : Int} (h : HasLogit ok logits u i) : u < logits.length := by
  obtain ⟨y, hy, -⟩ := h
  exact (List.getElem?_eq_some_iff.1 hy).1

/-- One more logit adds its own token. -/
theorem hasLogit_append (x : BitVec 32) (u : Nat) (i : Int) : HasLogit ok (logits ++ [x]) u i ↔
    HasLogit ok logits u i ∨ (u = logits.length ∧ ok u = true ∧ x.toInt = i) := by
  unfold HasLogit
  rcases Nat.lt_trichotomy u logits.length with hlt | rfl | hgt
  · simp [List.getElem?_append_left hlt, hlt.ne]
  · simp
  · have h1 : (logits ++ [x])[u]? = none := by simp; omega
    have h2 : logits[u]? = none := by simp; omega
    simp [h1, h2, hgt.ne']

/-- What one logit makes of the two greatest so far. -/
def topStep (ok : Nat → Bool) (best : Option (Nat × Int) × Option Int) (x : BitVec 32 × Nat) :
    Option (Nat × Int) × Option Int :=
  if !ok x.2 then best
  else match best with
    | (none, _) => (some (x.2, x.1.toInt), none)
    | (some (t, l1), l2) =>
      if l1 < x.1.toInt then (some (x.2, x.1.toInt), some l1)
      else match l2 with
        | some v => (some (t, l1), some (max v x.1.toInt))
        | none => (some (t, l1), some x.1.toInt)

theorem topTwo_eq_foldl : topTwo ok logits = logits.zipIdx.foldl (topStep ok) (none, none) := rfl

/-- A token that is not allowed changes nothing. -/
theorem isTopTwo_append_of_barred {best : Option (Nat × Int) × Option Int} (h : IsTopTwo ok logits best) (x : BitVec 32)
    (hok : ok logits.length = false) : IsTopTwo ok (logits ++ [x]) best := by
  have hsame : ∀ u i, HasLogit ok (logits ++ [x]) u i ↔ HasLogit ok logits u i := by
    intro u i
    rw [hasLogit_append]
    constructor
    · rintro (h | ⟨rfl, hu, -⟩)
      · exact h
      · simp [hok] at hu
    · exact .inl
  have heq : HasLogit ok (logits ++ [x]) = HasLogit ok logits := funext₂ fun u i => propext (hsame u i)
  unfold IsTopTwo IsGreatestLogit at *
  rwa [heq]

/-- An allowed token takes its place among the two greatest. -/
theorem isTopTwo_append_of_allowed {best : Option (Nat × Int) × Option Int} (h : IsTopTwo ok logits best) (x : BitVec 32)
    (hok : ok logits.length = true) : IsTopTwo ok (logits ++ [x]) (topStep ok best (x, logits.length)) := by
  have hadd := hasLogit_append (ok := ok) (logits := logits) x
  have hnew : HasLogit ok (logits ++ [x]) logits.length x.toInt := (hadd _ _).2 (.inr ⟨rfl, hok, rfl⟩)
  have hlen : ∀ u i, HasLogit ok logits u i → u < logits.length := fun u i => HasLogit.lt_length
  match best, h with
  | (none, _), ⟨_, hnone⟩ =>
    simp only [topStep, hok, Bool.not_true, Bool.false_eq_true, if_false, IsTopTwo, IsGreatestLogit]
    grind
  | (some (t, l1), l2), h =>
    simp only [topStep, hok, Bool.not_true, Bool.false_eq_true, if_false]
    cases l2 with
    | none =>
      obtain ⟨⟨htop, hmax⟩, honly⟩ := h
      split
      · simp only [IsTopTwo, IsGreatestLogit]
        grind
      · simp only [IsTopTwo, IsGreatestLogit]
        grind
    | some v =>
      obtain ⟨⟨htop, hmax⟩, ⟨u, hu, hv⟩, hnext⟩ := h
      split
      · simp only [IsTopTwo, IsGreatestLogit]
        grind
      · simp only [IsTopTwo, IsGreatestLogit]
        grind

theorem isTopTwo_topTwo (ok : Nat → Bool) (logits : List (BitVec 32)) : IsTopTwo ok logits (topTwo ok logits) := by
  induction logits using List.reverseRecOn with
  | nil => exact ⟨rfl, by rintro u i ⟨y, hy, -⟩; simp at hy⟩
  | append_singleton l x ih =>
    rw [topTwo_eq_foldl, List.zipIdx_append, List.foldl_append, ← topTwo_eq_foldl]
    simp only [List.zipIdx_singleton, List.foldl_cons, List.foldl_nil, Nat.zero_add]
    cases hok : ok l.length with
    | false =>
      simp only [topStep, hok, Bool.not_false, if_true]
      exact isTopTwo_append_of_barred ih x hok
    | true => exact isTopTwo_append_of_allowed ih x hok

/-- The greatest logit and the lowest token that has it are found, whatever follows them. -/
theorem topTwo_eq_of_greatest {t : Nat} {l1 : Int} (h : IsGreatestLogit ok logits t l1) :
    ∃ l2, topTwo ok logits = (some (t, l1), l2) ∧ IsTopTwo ok logits (some (t, l1), l2) := by
  have hfound := isTopTwo_topTwo ok logits
  obtain ⟨htop, hmax⟩ := h
  match heq : topTwo ok logits with
  | (none, _) =>
    rw [heq] at hfound
    exact absurd htop (hfound.2 _ _)
  | (some (t', l1'), l2) =>
    rw [heq] at hfound
    have hgreatest : IsGreatestLogit ok logits t' l1' := by
      cases l2 with
      | none => exact hfound.1
      | some v => exact hfound.1
    obtain ⟨htop', hmax'⟩ := hgreatest
    have h1 := hmax _ _ htop'
    have h2 := hmax' _ _ htop
    obtain rfl : t' = t := by omega
    obtain rfl : l1' = l1 := by omega
    exact ⟨l2, rfl, hfound⟩

/-- Where one token alone is allowed, the margin is the greatest. -/
theorem marginOf_alone {t : Nat} {l1 : Int} {l2 : Option Int} (h : IsTopTwo ok logits (some (t, l1), l2))
    (hone : ∀ u i, HasLogit ok logits u i → u = t) (m : Nat) : marginOf l1 l2 m = 65535 := by
  cases l2 with
  | none => rfl
  | some v =>
    obtain ⟨-, ⟨u, hu, hv⟩, -⟩ := h
    exact absurd (hone u v hv) hu

/-- The margin is taken to the greatest logit of the other allowed tokens. -/
theorem marginOf_next {t u : Nat} {l1 v : Int} {l2 : Option Int} (h : IsTopTwo ok logits (some (t, l1), l2)) (hu : u ≠ t)
    (hv : HasLogit ok logits u v) (hnext : ∀ w i, w ≠ t → HasLogit ok logits w i → i ≤ v) (m : Nat) :
    marginOf l1 l2 m = min 65535 ((l1 - v).toNat / 2 ^ m) := by
  cases l2 with
  | none => exact absurd (h.2 u v hv) hu
  | some v' =>
    obtain ⟨-, ⟨w, hw, hv'⟩, hnext'⟩ := h
    obtain rfl : v' = v := le_antisymm (hnext w v' hw hv') (hnext' u v hu hv)
    rw [marginOf, Nat.shiftRight_eq_div_pow]

end TopTwo

/-! ### The grammar step (R266, R267) -/

/-- A check operation appends no token and moves no automaton. -/
theorem checkOp_genLen (g : GrmSrc) (e v : Nat) (c : Ctx) : (checkOp g e v c).1.genLen = c.genLen := by
  unfold checkOp
  dsimp only
  split
  · split_ifs <;> rfl
  · split_ifs <;> rfl
  · split_ifs <;> rfl
  · rfl
  · rfl

theorem advance_genLen (g : GrmSrc) (t : Nat) (c : Ctx) : (advance g t c).1.genLen = c.genLen := by
  unfold advance
  split_ifs
  · rfl
  · exact checkOp_genLen ..

/-- A token moves the automaton of a table of kind 0. -/
theorem advance_auto {g : GrmSrc} (hkind : gKind g ≠ 1) (t : Nat) (c : Ctx) :
    (advance g t c).1.auto = teNext (gEntry g c.auto (gClass g t)) := by
  rw [advance, if_neg hkind]

section GrammarStep

variable (g : GrmSrc) (eos m ctr : Nat) (c : Ctx) {logits : List (BitVec 32)} {t : Nat} {l1 : Int} {l2 : Option Int}
  (h : topTwo (allowed g eos c) logits = (some (t, l1), l2))

include h

theorem grammarStep_margin : (grammarStep g eos m ctr c logits).margin = marginOf l1 l2 m := by
  simp only [grammarStep, h]
  split_ifs <;> rfl

theorem grammarStep_token : (grammarStep g eos m ctr c logits).token = if t = eos then none else some t := by
  simp only [grammarStep, h]
  split_ifs <;> rfl

theorem grammarStep_genLen :
    (grammarStep g eos m ctr c logits).ctx.genLen = if t = eos then c.genLen else c.genLen + 1 := by
  simp only [grammarStep, h]
  split_ifs
  · rfl
  · exact congrArg (· + 1) (advance_genLen g t c)

theorem grammarStep_auto (hne : t ≠ eos) (hkind : gKind g ≠ 1) :
    (grammarStep g eos m ctr c logits).ctx.auto = teNext (gEntry g c.auto (gClass g t)) := by
  simp only [grammarStep, h, if_neg hne]
  exact advance_auto hkind t c

end GrammarStep

/-- Settles O54: the token with the greatest logit is the one that `topTwo` finds, and the margin is the distance to what
stands next to it. -/
theorem tokenChoice : Obligations.TokenChoice := by
  intro g eos m ctr c logits t x hx hok hmax
  have hgreatest : IsGreatestLogit (allowed g eos c) logits t x.toInt := by
    refine ⟨⟨x, hx, hok, rfl⟩, ?_⟩
    rintro u i ⟨y, hy, hu, rfl⟩
    exact hmax u y hy hu
  obtain ⟨l2, hfound, htwo⟩ := topTwo_eq_of_greatest hgreatest
  refine ⟨grammarStep_token g eos m ctr c hfound, grammarStep_genLen g eos m ctr c hfound,
    grammarStep_auto g eos m ctr c hfound, ?_, ?_⟩
  · intro hone
    rw [grammarStep_margin g eos m ctr c hfound]
    exact marginOf_alone htwo (fun u i ⟨y, hy, hu, _⟩ => hone u y hy hu) m
  · intro u y hu hy hallowed hnext
    rw [grammarStep_margin g eos m ctr c hfound]
    refine marginOf_next htwo hu ⟨y, hy, hallowed, rfl⟩ ?_ m
    rintro w i hw ⟨z, hz, hzok, rfl⟩
    exact hnext w z hw hz hzok

/-! ### Sums of an array (R172, R175) -/

/-- The product that one step of an OS pass adds on integers. -/
def macTerm (w : BitVec 64) (q : BitVec 16 × BitVec 16) : Int :=
  byteVal (pSgnA w) (lowByte q.1) * byteVal (pSgnB w) (lowByte q.2)

/-- Steps that go on with a pass add their products. -/
theorem foldl_osAcc {w : BitVec 64} (hint : pBf16 w = false) (hmac : pOp w = 0) (ps : List (BitVec 16 × BitVec 16))
    (acc : Int) : ps.foldl (fun acc q => osAcc w false acc q.1 q.2) (BitVec.ofInt 32 acc) =
      BitVec.ofInt 32 (acc + (ps.map (macTerm w)).sum) := by
  induction ps generalizing acc with
  | nil => simp
  | cons p ps ih =>
    have hstep : osAcc w false (BitVec.ofInt 32 acc) p.1 p.2 = BitVec.ofInt 32 (acc + macTerm w p) := by
      rw [osAcc_eq_add hint (by simp [hmac]) (by simp [hmac]), hmac, BitVec.ofInt_add]
      rfl
    rw [List.foldl_cons, hstep, ih, List.map_cons, List.sum_cons, Int.add_assoc]

/-- The step that starts a pass sets its product. -/
theorem osAcc_start {w : BitVec 64} (hint : pBf16 w = false) (hmac : pOp w = 0) (old : Word) (p : BitVec 16 × BitVec 16) :
    osAcc w true old p.1 p.2 = BitVec.ofInt 32 (macTerm w p) := by
  simp [osAcc, hint, hmac, reduce2, neutral, termOf, macTerm]

theorem nthD_eq_getElem {α : Type} (d : α) (l : List α) (i : Nat) (h : i < l.length) : nthD d l i = l[i] := by
  induction l generalizing i with
  | nil => simp at h
  | cons a l ih =>
    cases i with
    | zero => rfl
    | succ n => exact ih n (by simpa using h)

/-- Entries of a row against a column of values, by position. -/
theorem zipWith_map_range {α β γ : Type} (f : α → β → γ) (d : α) (es : List α) (x : Nat → β) (n : Nat) (h : es.length = n) :
    List.zipWith f es ((List.range n).map x) = (List.range n).map (fun i => f (nthD d es i) (x i)) := by
  apply List.ext_getElem
  · simp [h]
  · intro i h1 h2
    have hi : i < es.length := by simpa [h] using h2
    simp [nthD_eq_getElem d es i hi]

/-- A reduction takes its terms in any order. -/
theorem reduce2_rightCommutative (op : Nat) : RightCommutative (reduce2 op) := by
  by_cases hminp : op = 3
  · subst hminp
    exact ⟨min_right_comm⟩
  by_cases hmaxp : op = 4
  · subst hmaxp
    exact ⟨max_right_comm⟩
  rw [reduce2_eq_add hminp hmaxp]
  exact ⟨Int.add_right_comm⟩

/-- Settles O58: an OS pass by induction over its steps, an IS row by its positions, and the order of terms by the
reductions' commutativity. -/
theorem matrixSums : Obligations.MatrixSums := by
  refine ⟨?_, ?_, ?_⟩
  · intro w old p ps hint hmac
    rw [osAcc_start hint hmac, foldl_osAcc hint hmac]
    rfl
  · intro s n g base w f es j hmac hlen hj
    have hcol : s.stationCol n g base w j = (List.range (pRows w)).map (fun i => s.station n g base i j) := rfl
    rw [isRow, List.getElem?_map, List.getElem?_range hj, Option.map_some]
    dsimp only
    rw [hmac, hcol, zipWith_map_range _ (0, false) es _ _ hlen, reduceInt_eq_ofInt_sum (by decide) (by decide)]
    rfl
  · intro op l l' hperm
    have := reduce2_rightCommutative op
    rw [reduceInt, reduceInt, hperm.foldl_eq]

end Sys2Proof.Machine
end

section
/-!
PROOFS. Fuses.lean: the commands of the fuse controller where they are accepted, and their ends (R303 to R318).
-/

namespace Sys2Proof.Machine

/-! ### A command starts (R307, R308) -/

section Start

variable {src : Writer} {w : BitVec 9} {vio : Bool} {op : Nat} {plan : List (Nat × Word)} {s : State}

/-- A command that the judgement accepts waits in the controller with its plan. -/
theorem fuseCommand_accepted {d : Word} {steward : Bool} (hop : op ≠ 0)
    (hjudge : fuseJudge op w.toNat d steward vio s = .ok plan) : fuseCommand op w.toNat d steward vio s =
      { s.setFlag Reg.fuseStatus 0 true with
        fuse := { s.fuse with cmd := some ⟨BitVec.ofNat 4 op, w, d, steward, plan⟩ } } := by
  simp [fuseCommand, hop, hjudge]

/-- On a served package an accepted command is taken. -/
theorem fuseStarted_of_accepted (h : Canon s) (hserved : Served s) (hop : op ≠ 0)
    (hjudge : fuseJudge op w.toNat (s.reg Reg.fuseWdata) (isSteward src) vio s = .ok plan) :
    FuseStarted (BitVec.ofNat 4 op) w (isSteward src) plan s (fuseCmd op src w vio s) := by
  rw [fuseCmd, gateWrite_of_served hserved, fuseCommand_accepted hop hjudge]
  refine ⟨rfl, flag_setFlag h.regs _ _ _ (by decide), ?_, ?_⟩
  · exact only_iff.2 (by simp)
  · exact (((RegMoves.refl [Reg.fuseStatus] h.regs).setFlag 0 true (List.mem_singleton_self _)).congr rfl).only

end Start

section Judge

variable {w : Nat} {d : Word} {steward vio : Bool} {s : State} (hfree : s.fuse.cmd = none)

include hfree

/-- A free controller takes READ and VERIFY of every word. -/
theorem fuseJudge_sense (op : Nat) (hop : op = 1 ∨ op = 3) : fuseJudge op w d steward vio s = .ok [] := by
  rcases hop with rfl | rfl <;> simp [fuseJudge, hfree, fuseProgramming, fusePlan]

/-- CTR_READ names one of the four counters. -/
theorem fuseJudge_ctrRead (hw : w < 4) : fuseJudge 7 w d steward vio s = .ok [] := by
  simp [fuseJudge, hfree, fuseProgramming, fusePlan, Nat.not_le.2 hw]

/-- PROGRAM and REPAIR are left to their word rules once class, lock and conditions hold. -/
theorem fuseJudge_word (op : Nat) (hop : op = 2 ∨ op = 4) (hres : fuseReserved w = false)
    (hallow : fuseAllowed s.lifecycle steward w = true) (hcond : fuseConditions vio s = true) :
    fuseJudge op w d steward vio s = fusePlan op w d s := by
  rcases hop with rfl | rfl <;> simp [fuseJudge, hfree, hres, hallow, hcond]

/-- ADVANCE to a higher state, while the lifecycle region passes, is left to the plan of its words. -/
theorem fuseJudge_advance {t : Nat} (hidle : s.weave.run = none) (hcond : fuseConditions vio s = true)
    (hregion : s.flag Reg.fuseStatus 17 = true) (ht : bits d 0 3 = t) (hup : s.lifecycle < t) (htop : t ≤ 3) :
    fuseJudge 5 w d steward vio s = advancePlan s t := by
  have hlc : s.lifecycle ≠ 4 := by omega
  have hzero : t ≠ 0 := by omega
  simp [fuseJudge, hfree, hregion, hcond, ht, hlc, hzero, State.weaveRuns, hidle, fusePlan, Nat.not_le.2 hup,
    show ¬5 ≤ t by omega]

/-- CTR_SET of one of the four counters. -/
theorem fuseJudge_ctrSet (hw : w < 4) (hlc : s.lifecycle ≤ 3) (hcond : fuseConditions vio s = true)
    (hlo : counterValue (counterBits s.fuseWord w) ≤ d.toNat) (hhi : d.toNat ≤ 256) :
    fuseJudge 6 w d steward vio s = .ok (counterPlan w d.toNat) := by
  have hallow : fuseAllowed s.lifecycle steward (416 + 8 * w) = true := by
    interval_cases w <;> simpa [fuseAllowed] using hlc
  simp [fuseJudge, hfree, hallow, hcond, fusePlan, Nat.not_le.2 hw, Nat.not_lt.2 hlo, Nat.not_lt.2 hhi]

end Judge

section Plan

variable {w : Nat} {d : Word} {s : State}

/-- PROGRAM of an accumulating word keeps the bits that stand in it (R309). -/
theorem fusePlan_accumulate (hacc : fuseAccumulate w = true) (hkeep : s.fuseWord w &&& ~~~d = 0) :
    fusePlan 2 w d s = .ok [(w, d)] := by
  simp [fusePlan, hacc, hkeep]

/-- PROGRAM of any other word wants it blank (R309). -/
theorem fusePlan_blank (hacc : fuseAccumulate w = false) (hblank : ∀ c < 3, s.fuse.copy w c = 0 ∧ s.fuse.strict w c = 0) :
    fusePlan 2 w d s = .ok [(w, d)] := by
  have hall : (List.range 3).all (fun c => s.fuse.copy w c == 0 && s.fuse.strict w c == 0) = true := by
    simpa using hblank
  simp only [fusePlan, hacc, hall, Bool.false_eq_true, if_false, if_true]

/-- REPAIR keeps the bits of every copy, at the normal and at the strict margin (R312). -/
theorem fusePlan_repair (hkeep : ∀ c < 3, (s.fuse.copy w c ||| s.fuse.strict w c) &&& ~~~d = 0) :
    fusePlan 4 w d s = .ok [(w, d)] := by
  have hany : (List.range 3).any (fun c => ((s.fuse.copy w c ||| s.fuse.strict w c) &&& ~~~d) != 0) = false := by
    simpa using hkeep
  simp only [fusePlan, hany, Bool.false_eq_true, if_false]

/-- Below FIELD-LOCKED an ADVANCE programs the lifecycle word alone (R313). -/
theorem advancePlan_unsealed {t : Nat} (ht : t ≤ 2) (hkeep : s.fuseWord 16 &&& ~~~(lifecycleFuse t) = 0) :
    advancePlan s t = .ok [(16, lifecycleFuse t)] := by
  simp [advancePlan, show ¬3 ≤ t by omega, show t ≠ 4 by omega, hkeep]

/-- The step to FIELD-LOCKED seals the customer words first (R314). -/
theorem advancePlan_sealed (hregion : s.flag Reg.fuseStatus 17 = true) (hlc : s.lifecycle < 3)
    (hseal : s.fuseWord 511 &&& ~~~(fuseCrc s.fuseWord 448 48) = 0) (hmargin : ∀ i < 48, verifyCode s.fuse (448 + i) = 0)
    (hkeep : s.fuseWord 16 &&& ~~~(0x7777#32) = 0) :
    advancePlan s 3 = .ok [(511, fuseCrc s.fuseWord 448 48), (16, 0x7777)] := by
  have hfrom : advanceFrom s = s.lifecycle := if_pos hregion
  have hany : (List.range 48).any (fun i => verifyCode s.fuse (448 + i) != 0) = false := by
    simpa using hmargin
  have hlife : lifecycleFuse 3 = 0x7777#32 := rfl
  unfold advancePlan
  dsimp only
  rw [hfrom, hseal, hany, hlife, hkeep]
  simp [hlc]

end Plan

/-- Settles O4: each command passes the checks of R308 in order, and the controller takes it with the words of its own
rule. -/
theorem fuseCommandsComplete : Obligations.FuseCommandsComplete := by
  refine ⟨?_, ?_, ?_, ?_, ?_, ?_, ?_⟩
  · intro src w s hcanon hserved hfree
    exact ⟨completes_of_next rfl (fuseStarted_of_accepted hcanon hserved (by decide) (fuseJudge_sense hfree 1 (.inl rfl))),
      completes_of_next rfl (fuseStarted_of_accepted hcanon hserved (by decide) (fuseJudge_sense hfree 3 (.inr rfl)))⟩
  · intro src w s hcanon hserved hfree hw
    exact completes_of_next rfl (fuseStarted_of_accepted hcanon hserved (by decide) (fuseJudge_ctrRead hfree hw))
  · intro src w vio s hcanon hserved hfree hres hallow hcond hacc hblank
    refine completes_of_next rfl (fuseStarted_of_accepted hcanon hserved (by decide)
      ((fuseJudge_word hfree 2 (.inl rfl) hres hallow hcond).trans ?_))
    cases hclass : fuseAccumulate w.toNat with
    | true => exact fusePlan_accumulate hclass (hacc hclass)
    | false => exact fusePlan_blank hclass (hblank hclass)
  · intro src w vio s hcanon hserved hfree hres hallow hcond hkeep
    exact completes_of_next rfl (fuseStarted_of_accepted hcanon hserved (by decide)
      ((fuseJudge_word hfree 4 (.inr rfl) hres hallow hcond).trans (fusePlan_repair hkeep)))
  · intro src w vio s hcanon hserved hfree hidle hcond hregion hup htop hkeep
    exact completes_of_next rfl (fuseStarted_of_accepted hcanon hserved (by decide)
      ((fuseJudge_advance hfree hidle hcond hregion rfl hup (by omega)).trans (advancePlan_unsealed htop hkeep)))
  · intro src w vio s hcanon hserved hfree hidle hcond hregion hlc ht hseal hmargin hkeep
    exact completes_of_next rfl (fuseStarted_of_accepted hcanon hserved (by decide)
      ((fuseJudge_advance hfree hidle hcond hregion ht hlc (by decide)).trans
        (advancePlan_sealed hregion hlc hseal hmargin hkeep)))
  · intro src w vio s hcanon hserved hfree hw hlc hcond hlo hhi
    exact completes_of_next rfl (fuseStarted_of_accepted hcanon hserved (by decide)
      (fuseJudge_ctrSet hfree hw hlc hcond hlo hhi))

/-! ### A command ends (R310) -/

section End

variable {s : State} (h : smWf resetVal s.regs = true) {code : Code} (pulses : Nat)

/-- BUSY is clear, the controller is free, and FUSE_RESULT holds the code and the pulses. -/
def fuseResult (code : Code) (pulses : Nat) (s : State) : State :=
  State.setReg { s.setFlag Reg.fuseStatus 0 false with fuse := { s.fuse with cmd := none } } Reg.fuseResult
    (BitVec.ofNat 32 (code.toNat + min pulses 15 * 2 ^ 16))

/-- PROGRAM and REPAIR clear FUSE_WDATA besides. -/
theorem fuseEnd_of_cmd {c : FuseCmd} (hcmd : s.fuse.cmd = some c) : fuseEnd code pulses s =
    if c.op.toNat = 2 ∨ c.op.toNat = 4 then (latch code 0 (fuseResult code pulses s)).setReg Reg.fuseWdata 0
    else latch code 0 (fuseResult code pulses s) := by
  simp only [fuseEnd, hcmd, Bool.or_eq_true, decide_eq_true_eq]
  rfl

include h

theorem fuseResult_wf : smWf resetVal (fuseResult code pulses s).regs = true :=
  setReg_wf (s := { s.setFlag Reg.fuseStatus 0 false with fuse := { s.fuse with cmd := none } }) (setFlag_wf h _ _ _) _ _

theorem fuseResult_moves : RegMoves [Reg.fuseResult, Reg.fuseStatus] s (fuseResult code pulses s) :=
  have hbusy : RegMoves [Reg.fuseResult, Reg.fuseStatus] s
      { s.setFlag Reg.fuseStatus 0 false with fuse := { s.fuse with cmd := none } } :=
    ((RegMoves.refl _ h).setFlag (off := Reg.fuseStatus) 0 false (by simp)).congr rfl
  hbusy.setReg (off := Reg.fuseResult) _ (by simp)

/-- An outcome is reported in FUSE_ERR, if it is one. -/
theorem latch_fuseResult_moves (hcode : code = 0 ∨ errReg code 0 = some Reg.fuseErr) :
    RegMoves [Reg.fuseErr] (fuseResult code pulses s) (latch code 0 (fuseResult code pulses s)) := by
  have hrefl := RegMoves.refl [Reg.fuseErr] (fuseResult_wf h (code := code) pulses)
  rcases hcode with rfl | hcode
  · exact hrefl
  · exact hrefl.latch code 0 fun r hr => by rw [hcode] at hr; simp [← Option.some.inj hr]

theorem fuseResult_reg_result :
    (fuseResult code pulses s).reg Reg.fuseResult = BitVec.ofNat 32 (code.toNat + min pulses 15 * 2 ^ 16) :=
  reg_setReg (s := { s.setFlag Reg.fuseStatus 0 false with fuse := { s.fuse with cmd := none } }) (setFlag_wf h _ _ _) _ _

theorem fuseResult_busy : (fuseResult code pulses s).flag Reg.fuseStatus 0 = false :=
  (flag_setReg_ne (s := { s.setFlag Reg.fuseStatus 0 false with fuse := { s.fuse with cmd := none } })
    (setFlag_wf h _ _ _) _ 0 (by decide)).trans (flag_setFlag h _ _ _ (by decide))

end End

/-- FUSE_RESULT's low half is the code. -/
theorem fuseCode_of_result {s : State} {code : Code} {pulses : Nat}
    (h : s.reg Reg.fuseResult = BitVec.ofNat 32 (code.toNat + min pulses 15 * 2 ^ 16)) :
    s.fld Reg.fuseResult 0 16 = code.toNat := by
  have hcode := code.isLt
  have hfit : code.toNat + min pulses 15 * 2 ^ 16 < 2 ^ 32 := by omega
  rw [fld_eq_bits, h, bits, BitVec.toNat_ofNat, Nat.mod_eq_of_lt hfit]
  omega

/-! ### Commands that sense (R303, R304, R311, R318) -/

/-- A command that only senses leaves its data in FUSE_RDATA and ends. -/
theorem fuseDone_sense {s : State} {c : FuseCmd} (hcmd : s.fuse.cmd = some c) (hop : fuseProgramming c.op.toNat = false)
    (os : List FuseOutcome) {code : Code} {v : Word}
    (hsense : senseResult c s = (code, v)) :
    fuseDone os s = latch code 0 (fuseResult code 0 (s.setReg Reg.fuseRdata v)) := by
  have hcmd' : (s.setReg Reg.fuseRdata v).fuse.cmd = some c := hcmd
  have hwd : ¬(c.op.toNat = 2 ∨ c.op.toNat = 4) := by
    simp only [fuseProgramming, Bool.or_eq_false_iff, decide_eq_false_iff_not] at hop
    omega
  simp only [fuseDone, hcmd, hop, hsense, Bool.false_eq_true, if_false]
  rw [fuseEnd_of_cmd 0 hcmd', if_neg hwd]

section Sensed

variable {s : State} (h : smWf resetVal s.regs = true) {code : Code} (v : Word)
  (hcode : code = 0 ∨ errReg code 0 = some Reg.fuseErr)

theorem sensed_fuse :
    (latch code 0 (fuseResult code 0 (s.setReg Reg.fuseRdata v))).fuse = { s.fuse with cmd := none } :=
  (latch_only code 0 _ (.refl [.regs] _) (by simp)).only.2 .fuse (by decide)

theorem sensed_only : Only [.regs, .fuse] s (latch code 0 (fuseResult code 0 (s.setReg Reg.fuseRdata v))) := by
  have hresult : Only [.regs, .fuse] s (fuseResult code 0 (s.setReg Reg.fuseRdata v)) :=
    only_iff.2 (by simp [fuseResult])
  exact hresult.trans ((latch_only code 0 _ (.refl [.regs] _) (by simp)).only.mono (by simp))

include h hcode

/-- The data stand in FUSE_RDATA and the code in FUSE_RESULT, and BUSY is clear. -/
theorem sensed_reads :
    (latch code 0 (fuseResult code 0 (s.setReg Reg.fuseRdata v))).reg Reg.fuseRdata = v ∧
    (latch code 0 (fuseResult code 0 (s.setReg Reg.fuseRdata v))).reg Reg.fuseResult = BitVec.ofNat 32 (code.toNat + 0) ∧
    (latch code 0 (fuseResult code 0 (s.setReg Reg.fuseRdata v))).flag Reg.fuseStatus 0 = false := by
  have h1 := setReg_wf h Reg.fuseRdata v
  have hlatch := latch_fuseResult_moves h1 0 hcode
  have hresult := fuseResult_moves h1 (code := code) 0
  refine ⟨?_, ?_, ?_⟩
  · rw [hlatch.only _ (by decide), hresult.only _ (by decide), reg_setReg h]
  · rw [hlatch.only _ (by decide), fuseResult_reg_result h1]
    simp
  · rw [State.flag, hlatch.only _ (by decide)]
    exact fuseResult_busy h1 0

end Sensed

/-- VERIFY's outcome is 0x0000 or a code of FUSE_ERR (R311). -/
theorem verifyCode_isFuseCode (f : FuseState) (w : Nat) :
    verifyCode f w = 0 ∨ errReg (verifyCode f w) 0 = some Reg.fuseErr := by
  unfold verifyCode
  dsimp only
  split_ifs
  · exact .inr rfl
  · exact .inl rfl
  · exact .inr rfl

/-! ### PROGRAM (R309, R310) -/

section Program

variable {f : FuseState} {d : Word} {k : Nat}

/-- Copies and weak marks are in canonical form. -/
def FuseWf (f : FuseState) : Prop := smWf (fun _ => 0) f.copies = true ∧ smWf (fun _ => 0) f.weak = true

/-- Pulses on the missing bits of a copy that holds no other bits leave the value. -/
theorem or_missing_bits {old d : Word} (hkeep : old &&& ~~~d = 0) : old ||| (d &&& (~~~old ||| 0) &&& ~~~0) = d := by
  apply BitVec.eq_of_getLsbD_eq
  intro i hi
  have hbit : (old &&& ~~~d).getLsbD i = false := by rw [hkeep]; exact BitVec.getLsbD_zero
  simp only [BitVec.ofNat_eq_ofNat, BitVec.or_zero, BitVec.getLsbD_or, BitVec.getLsbD_and, BitVec.getLsbD_not,
    BitVec.getLsbD_zero, hi, decide_true, Bool.true_and, Bool.not_false, Bool.and_true] at hbit ⊢
  cases hold : old.getLsbD i <;> simp_all

theorem blowCopy_wf (hwf : FuseWf f) : FuseWf (blowCopy false k d 0 0 f) :=
  ⟨smSet_wf_const _ _ hwf.1, smSet_wf_const _ _ hwf.2⟩

/-- Pulses that all take leave the value in the copy, at both margins. -/
theorem blowCopy_takes (hwf : FuseWf f) (hkeep : smGet 0 f.copies k &&& ~~~d = 0) (hweak : smGet 0 f.weak k = 0) :
    smGet 0 (blowCopy false k d 0 0 f).copies k = d ∧ smGet 0 (blowCopy false k d 0 0 f).weak k = 0 := by
  constructor
  · exact (smGet_smSet (d := fun _ => 0) hwf.1).trans (or_missing_bits hkeep)
  · refine (smGet_smSet (d := fun _ => 0) hwf.2).trans ?_
    rw [hweak]
    simp

theorem blowCopy_ne (hwf : FuseWf f) {l : Nat} (hl : l ≠ k) :
    smGet 0 (blowCopy false k d 0 0 f).copies l = smGet 0 f.copies l ∧
    smGet 0 (blowCopy false k d 0 0 f).weak l = smGet 0 f.weak l := by
  unfold blowCopy
  exact ⟨smGet_smSet_ne (d := fun _ => 0) hwf.1 hl, smGet_smSet_ne (d := fun _ => 0) hwf.2 hl⟩

/-- The pulses on a word are those on its three copies. -/
theorem blowWord_eq (w : Nat) (d : Word) (n : BitVec 4) (f : FuseState) : blowWord false w d ⟨n, 0, 0⟩ f =
    blowCopy false (3 * w + 2) d 0 0 (blowCopy false (3 * w + 1) d 0 0 (blowCopy false (3 * w + 0) d 0 0 f)) := by
  have hzero (c : Nat) : BitVec.ofNat 32 (bits (0 : BitVec 96) (32 * c) 32) = 0 := by simp [bits]
  unfold blowWord
  dsimp only
  simp only [hzero]
  rfl

/-- The three copies of a word, and what stands at every other place. -/
structure WordBlown (w : Nat) (d : Word) (f g : FuseState) : Prop where
  copies : ∀ c < 3, smGet 0 g.copies (3 * w + c) = d
  weak   : ∀ c < 3, smGet 0 g.weak (3 * w + c) = 0
  others : ∀ k, k / 3 ≠ w → smGet 0 g.copies k = smGet 0 f.copies k
  cmd    : g.cmd = f.cmd

theorem wordBlown_blowWord {w : Nat} (hwf : FuseWf f)
    (hkeep : ∀ c < 3, smGet 0 f.copies (3 * w + c) &&& ~~~d = 0 ∧ smGet 0 f.weak (3 * w + c) = 0) (n : BitVec 4) :
    WordBlown w d f (blowWord false w d ⟨n, 0, 0⟩ f) := by
  obtain ⟨hkeep0, hweak0⟩ := hkeep 0 (by decide)
  obtain ⟨hkeep1, hweak1⟩ := hkeep 1 (by decide)
  obtain ⟨hkeep2, hweak2⟩ := hkeep 2 (by decide)
  rw [blowWord_eq]
  set g0 := blowCopy false (3 * w + 0) d 0 0 f
  set g1 := blowCopy false (3 * w + 1) d 0 0 g0
  have hwf0 : FuseWf g0 := blowCopy_wf hwf
  have hwf1 : FuseWf g1 := blowCopy_wf hwf0
  have hat0 := blowCopy_takes hwf hkeep0 hweak0
  have hne0 (l : Nat) (hl : l ≠ 3 * w + 0) := blowCopy_ne (d := d) hwf hl
  have hat1 := blowCopy_takes (k := 3 * w + 1) (d := d) hwf0 (by rw [(hne0 _ (by omega)).1]; exact hkeep1)
    (by rw [(hne0 _ (by omega)).2]; exact hweak1)
  have hne1 (l : Nat) (hl : l ≠ 3 * w + 1) := blowCopy_ne (d := d) hwf0 hl
  have hat2 := blowCopy_takes (k := 3 * w + 2) (d := d) hwf1
    (by rw [(hne1 _ (by omega)).1, (hne0 _ (by omega)).1]; exact hkeep2)
    (by rw [(hne1 _ (by omega)).2, (hne0 _ (by omega)).2]; exact hweak2)
  have hne2 (l : Nat) (hl : l ≠ 3 * w + 2) := blowCopy_ne (d := d) hwf1 hl
  refine ⟨?_, ?_, ?_, rfl⟩
  · intro c hc
    interval_cases c
    · rw [(hne2 _ (by omega)).1, (hne1 _ (by omega)).1]; exact hat0.1
    · rw [(hne2 _ (by omega)).1]; exact hat1.1
    · exact hat2.1
  · intro c hc
    interval_cases c
    · rw [(hne2 _ (by omega)).2, (hne1 _ (by omega)).2]; exact hat0.2
    · rw [(hne2 _ (by omega)).2]; exact hat1.2
    · exact hat2.2
  · intro k hk
    rw [(hne2 _ (by omega)).1, (hne1 _ (by omega)).1, (hne0 _ (by omega)).1]

/-- A word whose copies all hold the value and no weak bit is programmed (R310). -/
theorem programCode_of_copies {w : Nat} (hcopies : ∀ c < 3, smGet 0 f.copies (3 * w + c) = d)
    (hweak : ∀ c < 3, smGet 0 f.weak (3 * w + c) = 0) : programCode f w d = 0 := by
  have hcopy : ∀ c < 3, f.copy w c = d := hcopies
  have hstrict : ∀ c < 3, f.strict w c = d := fun c hc => by
    rw [FuseState.strict, hcopy c hc, hweak c hc]
    exact BitVec.xor_zero
  have hmaj : majority3 d d d = d := by simp [majority3]
  have hall : (List.range 3).all (fun c => f.copy w c == d && f.strict w c == d) = true := by
    simpa using fun c hc => ⟨hcopy c hc, hstrict c hc⟩
  simp only [programCode, hcopy 0 (by decide), hcopy 1 (by decide), hcopy 2 (by decide), hmaj, hall, ne_eq,
    not_true_eq_false, if_false, if_true]

/-- With nothing missing, the copies hold the value already. -/
theorem eq_of_no_missing {old d : Word} (hkeep : old &&& ~~~d = 0) (hatt : d &&& (~~~old ||| 0) = 0) : old = d := by
  have hor := or_missing_bits hkeep
  rw [hatt] at hor
  simpa using hor

/-- A plan of one word whose pulses all take programs it, whether or not anything was missing. -/
theorem blowPlan_takes {w : Nat} (hwf : FuseWf f)
    (hkeep : ∀ c < 3, smGet 0 f.copies (3 * w + c) &&& ~~~d = 0 ∧ smGet 0 f.weak (3 * w + c) = 0) (n : BitVec 4) :
    ∃ g p, blowPlan false [(w, d)] [⟨n, 0, 0⟩] f = (g, 0, p) ∧ WordBlown w d f g := by
  by_cases hnone : (List.range 3).all (fun c => attempted false (3 * w + c) d f == 0) = true
  · have hatt : ∀ c < 3, d &&& (~~~(smGet 0 f.copies (3 * w + c)) ||| 0) = 0 := by
      simpa [attempted] using hnone
    refine ⟨f, 0, by simp only [blowPlan, hnone, if_true], ?_, fun c hc => (hkeep c hc).2, fun _ _ => rfl, rfl⟩
    exact fun c hc => eq_of_no_missing (hkeep c hc).1 (hatt c hc)
  · have hblown := wordBlown_blowWord hwf hkeep n
    refine ⟨_, max n.toNat 0, ?_, hblown⟩
    have hcode := programCode_of_copies hblown.copies hblown.weak
    have hfail : (0 : Code) ≠ eFuseProgramFail := by decide
    simp only [blowPlan, if_neg hnone, List.headD_cons, hcode, if_neg hfail, if_true]

end Program

/-- Settles O5: sensing commands leave their data and code, and a PROGRAM leaves its word in every copy. -/
theorem fuseCompletionsComplete : Obligations.FuseCompletionsComplete := by
  refine ⟨?_, ?_, ?_, ?_⟩
  · intro w d st os s hcanon hcmd hhidden hres hword
    have hsense : senseResult ⟨1, w, d, st, []⟩ s = (0, s.fuseWord w.toNat) := by
      have hcust : ¬(448 ≤ w.toNat ∧ w.toNat ≤ 495 ∧ !s.flag Reg.fuseStatus 22) := by omega
      simp only [senseResult, hhidden, hres, if_neg hcust, Bool.or_self, Bool.false_eq_true, if_false]
      rfl
    have hdone := fuseDone_sense hcmd rfl os hsense
    obtain ⟨hdata, hresult, hbusy⟩ := sensed_reads hcanon.regs (s.fuseWord w.toNat) (.inl rfl)
    refine completes_of_eq rfl hdone ⟨hdata, hresult, hbusy, sensed_fuse _,
      sensed_only _, ?_⟩
    have hmoves := ((RegMoves.refl [Reg.fuseRdata, Reg.fuseResult, Reg.fuseStatus] hcanon.regs).setReg
      (s.fuseWord w.toNat) (by simp : Reg.fuseRdata ∈ _)).trans
      ((fuseResult_moves (setReg_wf hcanon.regs _ _) (code := 0) 0).mono (by simp))
    exact hmoves.only
  · intro w d st os s hcanon hcmd
    have hsense : senseResult ⟨3, w, d, st, []⟩ s =
      (verifyCode s.fuse w.toNat, if fuseHidden w.toNat then 0 else s.fuseWord w.toNat) := rfl
    have hdone := fuseDone_sense hcmd rfl os hsense
    have hcode := verifyCode_isFuseCode s.fuse w.toNat
    obtain ⟨-, hresult, hbusy⟩ := sensed_reads hcanon.regs
      (if fuseHidden w.toNat then 0 else s.fuseWord w.toNat) hcode
    exact completes_of_eq rfl hdone ⟨fuseCode_of_result (pulses := 0) hresult, hbusy, sensed_fuse _,
      sensed_only _⟩
  · intro w d st os s hcanon hcmd
    set code : Code := if counterForm (counterBits s.fuseWord w.toNat) then 0 else eFuseCounterGap with hgap
    have hsense : senseResult ⟨7, w, d, st, []⟩ s =
      (code, BitVec.ofNat 32 (counterValue (counterBits s.fuseWord w.toNat))) := rfl
    have hdone := fuseDone_sense hcmd rfl os hsense
    have hcode : code = 0 ∨ errReg code 0 = some Reg.fuseErr := by
      rw [hgap]
      split
      · exact .inl rfl
      · exact .inr rfl
    obtain ⟨hdata, -, hbusy⟩ := sensed_reads hcanon.regs
      (BitVec.ofNat 32 (counterValue (counterBits s.fuseWord w.toNat))) hcode
    exact completes_of_eq rfl hdone ⟨hdata, hbusy, sensed_fuse _, sensed_only _⟩
  · intro w d st n s hcanon hcmd hkeep
    obtain ⟨g, p, hplan, hblown⟩ := blowPlan_takes ⟨hcanon.copies, hcanon.weak⟩ hkeep n
    have hcmd' : ({ s with fuse := g } : State).fuse.cmd = some ⟨2, w, d, st, [(w.toNat, d)]⟩ := hblown.cmd.trans hcmd
    have hdone : fuseDone [⟨n, 0, 0⟩] s = (fuseResult 0 p { s with fuse := g }).setReg Reg.fuseWdata 0 := by
      have hrun : fuseDone [⟨n, 0, 0⟩] s = fuseEnd 0 p { s with fuse := g } := by
        unfold fuseDone
        rw [hcmd]
        exact congrArg (fun r : FuseState × Code × Nat => fuseEnd r.2.1 r.2.2 { s with fuse := r.1 }) hplan
      rw [hrun, fuseEnd_of_cmd p hcmd', if_pos (.inl rfl)]
      rfl
    have h0 : smWf resetVal ({ s with fuse := g } : State).regs = true := hcanon.regs
    have h1 := fuseResult_wf h0 (code := 0) p
    refine completes_of_eq rfl hdone ⟨hblown.copies, ?_, hblown.others, rfl, ?_, reg_setReg h1 _ _, ?_, ?_, ?_⟩
    · have hword : majority3 (smGet 0 g.copies (3 * w.toNat)) (smGet 0 g.copies (3 * w.toNat + 1))
          (smGet 0 g.copies (3 * w.toNat + 2)) = d := by
        have h0 : smGet 0 g.copies (3 * w.toNat) = d := hblown.copies 0 (by decide)
        rw [h0, hblown.copies 1 (by decide), hblown.copies 2 (by decide)]
        simp [majority3]
      exact hword
    · refine (fld_setReg_ne h1 _ _ _ (by decide)).trans ?_
      exact fuseCode_of_result (pulses := p) (fuseResult_reg_result h0 p)
    · exact (flag_setReg_ne h1 _ _ (by decide)).trans (fuseResult_busy h0 p)
    · exact only_iff.2 (by simp [fuseResult])
    · have hmoves : RegMoves [Reg.fuseResult, Reg.fuseStatus, Reg.fuseWdata] { s with fuse := g }
          (fuseResult 0 p { s with fuse := g }) := (fuseResult_moves h0 p).mono (by simp)
      exact (hmoves.setReg (off := Reg.fuseWdata) 0 (by simp)).only

end Sys2Proof.Machine
end

section
/-!
PROOFS. Events.lean: rules for what goes out, for EVENTs of an anchor, and for writes of device memory.
-/

namespace Sys2Proof.Machine

/-! ### What goes out -/

/-- What has gone out stays out. -/
def OutGrows (s t : State) : Prop := ∃ l, t.out = s.out ++ l

namespace OutGrows

variable {s t u : State}

theorem refl (s : State) : OutGrows s s := ⟨[], (List.append_nil _).symm⟩

theorem trans (h : OutGrows s t) (k : OutGrows t u) : OutGrows s u := by
  obtain ⟨l, hl⟩ := h
  obtain ⟨m, hm⟩ := k
  exact ⟨l ++ m, by rw [hm, hl, List.append_assoc]⟩

theorem of_eq (h : t.out = s.out) : OutGrows s t := ⟨[], by rw [h, List.append_nil]⟩

theorem emit (s : State) (o : Out) : OutGrows s (s.emit o) := ⟨[o], rfl⟩

/-- What is out in one state is out in the next. -/
theorem mem (h : OutGrows s t) {o : Out} (ho : o ∈ s.out) : o ∈ t.out := by
  obtain ⟨l, hl⟩ := h
  rw [hl]
  exact List.mem_append_left _ ho

end OutGrows

theorem outGrows_fireVector (v : Nat) (s : State) : OutGrows s (fireVector v s) := by
  unfold fireVector
  split
  · exact .emit s _
  · exact .refl s

theorem outGrows_fireFor (c : Code) (s : State) : OutGrows s (fireFor c s) := by
  unfold fireFor
  split
  · exact .refl s
  · exact outGrows_fireVector _ s

theorem outGrows_cqPut (i : Nat) (body : BitVec 256) (irq : Bool) (s : State) : OutGrows s (cqPut i body irq s) := by
  unfold cqPut
  dsimp only
  split
  · exact OutGrows.trans ⟨[_], rfl⟩ (outGrows_fireVector _ _)
  · exact ⟨[_], rfl⟩

theorem outGrows_postWaiting (s : State) : OutGrows s (postWaiting s) := by
  unfold postWaiting
  split
  · exact (OutGrows.of_eq rfl).trans (outGrows_cqPut ..)
  · exact .refl s

theorem outGrows_postAll (n : Nat) (s : State) : OutGrows s (postAll n s) := by
  induction n generalizing s with
  | zero => exact .refl s
  | succ n ih => exact (outGrows_postWaiting s).trans (ih _)

theorem outGrows_drainWaiting (s : State) : OutGrows s (drainWaiting s) := by
  unfold drainWaiting
  split
  · exact outGrows_postAll _ s
  · exact .refl s

theorem outGrows_enqueueEvent (body : BitVec 256) (s : State) : OutGrows s (enqueueEvent body s) := by
  unfold enqueueEvent
  split
  · exact .refl s
  · dsimp only
    split_ifs
    · exact (outGrows_drainWaiting s).trans (outGrows_cqPut ..)
    · exact (outGrows_drainWaiting s).trans (.of_eq rfl)
    · exact (outGrows_drainWaiting s).trans (.of_eq rfl)

/-- A vector that is open sends its message when it fires (R82). -/
theorem msix_mem_fireVector {v : Nat} {s : State} (h : s.vecOpen v = true) : Out.msix v ∈ (fireVector v s).out := by
  rw [fireVector, if_pos h]
  simp

/-! ### EVENTs (R79 to R82) -/

/-- An EVENT that finds no room is counted in HOST_EVT_LOST; no other register changes with it. -/
theorem RegMoves.enqueueEvent {offs : List Nat} {s t : State} (h : RegMoves offs s t) (body : BitVec 256)
    (hlost : Reg.hostEvtLost ∈ offs) : RegMoves offs s (enqueueEvent body t) := by
  have hdrain : RegMoves offs s (drainWaiting t) :=
    h.of_moves (drainWaiting_only t (.refl [.out, .host] t) (by simp)) (by decide)
  unfold Machine.enqueueEvent
  split
  · exact h
  · dsimp only
    split_ifs
    · exact hdrain.of_moves (cqPut_only _ _ _ _ (.refl [.out, .host] _) (by simp)) (by decide)
    · exact hdrain.congr rfl
    · exact hdrain.bumpSat 16 1 hlost

/-- An EVENT reports in the ERR register of its code, and may be counted as lost. -/
theorem RegMoves.postEventAt {offs : List Nat} {s t : State} (h : RegMoves offs s t) (c : Code) (core : Nat)
    (detail : BitVec 128) (hoff : ∀ r, errReg c core = some r → r ∈ offs) (hlost : Reg.hostEvtLost ∈ offs) :
    RegMoves offs s (postEventAt c core detail t) := by
  have hlatch := h.latch c core hoff
  unfold Machine.postEventAt
  dsimp only
  split_ifs
  · exact RegMoves.enqueueEvent (hlatch.of_moves (fireFor_only _ _ (.refl [.out, .host] _) (by simp)) (by decide)) _ hlost
  · exact hlatch.congr rfl
  · exact hlatch.congr rfl

theorem RegMoves.postEvent {offs : List Nat} {s t : State} (h : RegMoves offs s t) (c : Code) (detail : BitVec 128)
    (hoff : ∀ r, errReg c 0 = some r → r ∈ offs) (hlost : Reg.hostEvtLost ∈ offs) :
    RegMoves offs s (postEvent c detail t) := h.postEventAt c 0 detail hoff hlost

theorem outGrows_postEvent (c : Code) (detail : BitVec 128) (s : State) : OutGrows s (postEvent c detail s) := by
  have hlatch : OutGrows s (latch c 0 s) := .of_eq (latch_out ..)
  unfold postEvent postEventAt
  dsimp only
  split_ifs
  · exact hlatch.trans ((outGrows_fireFor c _).trans (outGrows_enqueueEvent ..))
  · exact hlatch.trans (.of_eq rfl)
  · exact hlatch.trans (.of_eq rfl)

/-- The code that a report leaves depends on its ERR register and on the sets of the cycle alone. -/
theorem Latched.congr {c : Code} {r : Nat} {s s' t t' : State} (h : Latched c r s t) (hs : s.reg r = s'.reg r)
    (hsets : s.sets = s'.sets) (ht : t.reg r = t'.reg r) : Latched c r s' t' := by
  have hlow : s'.lowerStands r c = s.lowerStands r c := by
    simp only [State.lowerStands, State.setNow, hsets]
  simp only [Latched, fld_eq_bits, hlow, ← hs, ← ht] at h ⊢
  exact h

/-- An anchor posts an EVENT: the code stands in its ERR register, and its vector fires. -/
theorem posted_postEvent {c : Code} {r : Nat} {s : State} (h : Canon s) (hanchor : s.anchor = true) (hc : c ≠ 0)
    (hr : errReg c 0 = some r) (hne : r ≠ Reg.hostEvtLost) (detail : BitVec 128) : Posted c r s (postEvent c detail s) := by
  have hlatched : Latched c r s (latch c 0 s) := latched_latch hc hr (fun _ => hanchor) h
  have hwf : smWf resetVal (latch c 0 s).regs = true := (latch_only c 0 s (.refl [.regs] s) (by simp)).canon h |>.regs
  have hanchor' : (latch c 0 s).anchor = true := by rw [State.anchor, latch_power]; exact hanchor
  have hpost : postEvent c detail s =
      enqueueEvent (eventEntry (latch c 0 s) c 0 detail) (fireVector (vectorOf c) (latch c 0 s)) := by
    simp only [postEvent, postEventAt, hanchor', if_true, fireFor, if_neg hc]
  rw [hpost]
  refine ⟨hlatched.congr rfl rfl ?_, fun hopen => ?_⟩
  · have hfire : RegMoves [Reg.hostEvtLost] (latch c 0 s) (fireVector (vectorOf c) (latch c 0 s)) :=
      (RegMoves.refl _ hwf).of_moves (fireVector_only _ _ (.refl [.out, .host] _) (by simp)) (by decide)
    exact ((hfire.enqueueEvent _ (by simp)).only r (by simpa using hne)).symm
  · refine (outGrows_enqueueEvent _ _).mem (msix_mem_fireVector ?_)
    rwa [State.vecOpen, latch_host]

/-- An EVENT after operations that leave its ERR register and the vectors alone. -/
theorem Posted.congr {c : Code} {r : Nat} {s s' t : State} (h : Posted c r s t) (hs : s.reg r = s'.reg r)
    (hsets : s.sets = s'.sets) (hhost : s.host = s'.host) : Posted c r s' t := by
  obtain ⟨hlatched, hfires⟩ := h
  refine ⟨hlatched.congr hs hsets rfl, fun hopen => hfires ?_⟩
  rwa [State.vecOpen, hhost]

/-! ### Device memory -/

theorem smGetAll_one {α : Type} (d : α) (m : SMap α) (k : Nat) : smGetAll d m k 1 = [smGet d m k] := rfl

/-- Bytes that have been written read back. -/
theorem rdMem_wrMemP {s : State} (h : Memory.wf s.mem = true) (a : Nat) (l : List Byte) (bad : Bool) :
    (wrMemP a l bad s).rdMem a l.length = l := smGetAll_smSetAll h

/-- A write leaves bytes outside its range alone. -/
theorem rdMem_wrMemP_ne {s : State} (h : Memory.wf s.mem = true) {a x : Nat} {l : List Byte} (bad : Bool)
    (hx : x < a ∨ a + l.length ≤ x) : (wrMemP a l bad s).rdMem x 1 = s.rdMem x 1 :=
  congrArg (fun b => [b]) (smGet_smSetAll_ne h hx)

/-- Bytes read one by one. -/
theorem rdMem_congr {s t : State} {a n : Nat} (h : ∀ x, a ≤ x → x < a + n → t.rdMem x 1 = s.rdMem x 1) :
    t.rdMem a n = s.rdMem a n := by
  unfold State.rdMem at h ⊢
  induction n generalizing a with
  | zero => rfl
  | succ n ih =>
    have hhead := h a (le_refl a) (by omega)
    rw [smGetAll_one, smGetAll_one, List.cons.injEq] at hhead
    rw [smGetAll, smGetAll, hhead.1, ih fun x hlo hhi => h x (by omega) (by omega)]

/-- From `s` to `t` at most the `n` bytes from `a` change, and the memory of `t` is in canonical form. -/
structure MemMoves (a n : Nat) (s t : State) : Prop where
  wf   : Memory.wf t.mem = true
  only : BytesOnly a n s t

namespace MemMoves

variable {a n : Nat} {s t u : State}

theorem refl (a n : Nat) (h : Memory.wf s.mem = true) : MemMoves a n s s := ⟨h, fun _ _ => rfl⟩

/-- A change of another part. -/
theorem congr (h : MemMoves a n s t) (hu : u.mem = t.mem) : MemMoves a n s u := by
  refine ⟨by rw [hu]; exact h.wf, fun x hx => ?_⟩
  rw [← h.only x hx]
  unfold State.rdMem
  rw [hu]

theorem of_moves (h : MemMoves a n s t) {ps : List Part} (hm : Moves ps t u) (hp : .mem ∉ ps) : MemMoves a n s u :=
  h.congr (hm.only.2 .mem hp)

theorem trans (h : MemMoves a n s t) (k : MemMoves a n t u) : MemMoves a n s u :=
  ⟨k.wf, fun x hx => (k.only x hx).trans (h.only x hx)⟩

/-- A larger range. -/
theorem mono {a' n' : Nat} (h : MemMoves a n s t) (hlo : a' ≤ a) (hhi : a + n ≤ a' + n') : MemMoves a' n' s t :=
  ⟨h.wf, fun x hx => h.only x (by omega)⟩

theorem wrMemP (h : MemMoves a n s t) {b : Nat} {l : List Byte} (bad : Bool) (hlo : a ≤ b) (hhi : b + l.length ≤ a + n) :
    MemMoves a n s (wrMemP b l bad t) := by
  have hwf : Memory.wf (Machine.wrMemP b l bad t).mem = true := smSetAll_wf h.wf
  exact ⟨hwf, fun x hx => (rdMem_wrMemP_ne h.wf bad (by omega)).trans (h.only x hx)⟩

theorem foldl {α : Type} {f : State → α → State} {l : List α}
    (hf : ∀ t x, x ∈ l → MemMoves a n s t → MemMoves a n s (f t x)) (h : MemMoves a n s t) :
    MemMoves a n s (l.foldl f t) := by
  induction l generalizing t with
  | nil => exact h
  | cons x l ih => exact ih (fun t y hy => hf t y (List.mem_cons_of_mem _ hy)) (hf t x (List.mem_cons_self ..) h)

end MemMoves

end Sys2Proof.Machine
end

section
/-!
PROOFS. StartUp.lean: what each event of start-up does where it has its effect (R14, R24, R287, R303 to R306, R321 to R330).
-/

namespace Sys2Proof.Machine

/-! ### Rails (R287, R321) -/

/-- With RESET_N released the straps are taken, and both rail enables rise. -/
theorem coldStart_eq {s : State} (h : s.power.phase = .inReset) (id : BitVec 6) (an : Bool) : coldStart id an s =
    { s with
      power := { s.power with strap1 := BitVec.ofNat 7 (id.toNat + an.toNat * 64),
                              strap2 := BitVec.ofNat 7 (id.toNat + an.toNat * 64), phase := .rails, railA := true,
                              railB := true, latchNs := s.nowNs }
      out := s.out ++ [.ball .fault false, .ball .railenA true, .ball .railenB true] } := by
  unfold coldStart
  split
  · simp [raiseRails, State.emit, State.nowNs]
  · contradiction

/-- The two straps are the low bits and bit 6 of what the balls give (R14). -/
theorem strap_pkg (id : BitVec 6) (an : Bool) : (BitVec.ofNat 7 (id.toNat + an.toNat * 64)).setWidth 6 = id := by
  apply BitVec.eq_of_toNat_eq
  have hid := id.isLt
  cases an <;> simp
  omega

theorem strap_anchor (id : BitVec 6) (an : Bool) : (BitVec.ofNat 7 (id.toNat + an.toNat * 64)).getLsbD 6 = an := by
  have hlow : id.toNat.testBit 6 = false := Nat.testBit_lt_two_pow id.isLt
  have hhigh : (id.toNat + 2 ^ 6).testBit 6 = true := by
    rw [Nat.add_comm, Nat.testBit_two_pow_add_eq, hlow, Bool.not_false]
  rw [BitVec.getLsbD_ofNat]
  cases an
  · exact hlow
  · exact hhigh

/-- The second sample is kept; a difference is reported (R341). -/
theorem strapResample_eq {s : State} (h : s.power.phase ≠ .inReset) (hfirst : s.power.resampled = false)
    (hlate : 1000000 ≤ s.nowNs) (id : BitVec 6) (an : Bool) : strapResample id an s =
      if BitVec.ofNat 7 (id.toNat + an.toNat * 64) = s.power.strap1 then
        { s with power := { s.power with strap2 := BitVec.ofNat 7 (id.toNat + an.toNat * 64), resampled := true } }
      else
        postEvent eIdStrap (BitVec.ofNat 128 (s.power.strap1.toNat + (BitVec.ofNat 7 (id.toNat + an.toNat * 64)).toNat * 2 ^ 8))
          { s with power := { s.power with strap2 := BitVec.ofNat 7 (id.toNat + an.toNat * 64), resampled := true } } := by
  have hnow : ¬s.nowNs < 1000000 := Nat.not_lt.2 hlate
  unfold strapResample
  split
  · contradiction
  · simp [hfirst, hnow]

theorem strapResample_completes {s : State} (h : s.power.phase ≠ .inReset) (hfirst : s.power.resampled = false)
    (hlate : 1000000 ≤ s.nowNs) (id : BitVec 6) (an : Bool) :
    (strapResample id an s).power =
      { s.power with strap2 := BitVec.ofNat 7 (id.toNat + an.toNat * 64), resampled := true } ∧
    Only [.regs, .out, .power, .host] s (strapResample id an s) ∧
    (BitVec.ofNat 7 (id.toNat + an.toNat * 64) = s.power.strap1 → Only [.power] s (strapResample id an s)) := by
  rw [strapResample_eq h hfirst hlate]
  split
  · exact ⟨rfl, only_iff.2 (by simp), fun _ => only_iff.2 (by simp)⟩
  · next hne =>
    set u : State :=
      { s with power := { s.power with strap2 := BitVec.ofNat 7 (id.toNat + an.toNat * 64), resampled := true } }
    have hpost := (postEvent_only eIdStrap (BitVec.ofNat 128 (s.power.strap1.toNat +
      (BitVec.ofNat 7 (id.toNat + an.toNat * 64)).toNat * 2 ^ 8)) u (.refl [.regs, .out, .host] u) (by simp)).only
    have hu : Only [.regs, .out, .power, .host] s u := only_iff.2 (by simp [u])
    exact ⟨hpost.2 .power (by decide), hu.trans (hpost.mono (by simp)), fun heq => absurd heq hne⟩

/-- Power-good still low after 1.0 ms: both enables drop, and the package is in Slumber. -/
theorem railTimeout_eq {g : RailGroup} {s : State} (hphase : s.power.phase = .rails ∨ s.power.phase = .waking)
    (hlow : s.pgood g = false) (hlate : s.power.latchNs + 1000000 ≤ s.nowNs) : railTimeout g s =
      { s with
        power := { s.power with phase := .slumber, railA := false, railB := false, pgoodA := false, pgoodB := false,
                                timeoutRec := true }
        out := s.out ++ [.ball .railenA false, .ball .railenB false] } := by
  have hnow : ¬(s.pgood g || s.nowNs < s.power.latchNs + 1000000) = true := by simp [hlow, hlate]
  unfold railTimeout
  rw [if_neg hnow]
  rcases hphase with hphase | hphase <;> simp [hphase, setPhase, dropRails, State.emit]

/-! ### Fuse sensing (R303, R305, R306) -/

/-- What a sparse map holds that is made of a list of rising keys. -/
theorem smGet_filterMap {α : Type} [DecidableEq α] (d : α) (f : Nat → α) (l : List Nat) (hl : l.Pairwise (· < ·)) (k : Nat)
    (hk : k ∈ l) : smGet d (l.filterMap (fun w => if f w = d then none else some (w, f w))) k = f k := by
  induction l with
  | nil => simp at hk
  | cons a l ih =>
    obtain ⟨hhead, htail⟩ := List.pairwise_cons.1 hl
    have hbelow : smGet d (l.filterMap (fun w => if f w = d then none else some (w, f w))) a = d := by
      apply smGet_below
      intro q hq
      obtain ⟨w, hw, hqw⟩ := List.mem_filterMap.1 hq
      split at hqw
      · simp at hqw
      · cases hqw
        exact hhead w hw
    by_cases hfa : f a = d
    · rw [List.filterMap_cons, if_pos hfa]
      rcases List.mem_cons.1 hk with rfl | hk
      · exact hbelow.trans hfa.symm
      · exact ih htail hk
    · rw [List.filterMap_cons, if_neg hfa, smGet]
      rcases List.mem_cons.1 hk with rfl | hk
      · simp
      · have hlt := hhead k hk
        rw [if_neg (by omega), if_neg (by omega)]
        exact ih htail hk

/-- The shadow holds words 0 to 415 as the array reads. -/
theorem smGet_senseShadow (s : State) {w : Nat} (hw : w < 416) : smGet 0 (senseShadow s) w = s.fuseWord w :=
  smGet_filterMap 0 s.fuseWord _ List.pairwise_lt_range w (List.mem_range.2 hw)

theorem verdictBits_testBit (l : List Bool) (i : Nat) : (verdictBits l).testBit i = nthD false l i := by
  induction l generalizing i with
  | nil => simp [verdictBits, nthD]
  | cons b l ih =>
    cases i with
    | zero => cases b <;> simp [verdictBits, nthD, Nat.testBit_zero]
    | succ n =>
      have hhalf : (b.toNat + 2 * verdictBits l) / 2 = verdictBits l := by
        have hb := Bool.toNat_lt b
        omega
      rw [verdictBits, Nat.testBit_succ, hhalf, ih, nthD]

/-- Verdict `i` stands in bit 16 + i. -/
theorem verdictWord_getLsbD (l : List Bool) {i : Nat} (hi : i < 16) :
    (BitVec.ofNat 32 (verdictBits l * 2 ^ 16)).getLsbD (16 + i) = nthD false l i := by
  rw [BitVec.getLsbD_ofNat, Nat.testBit_mul_two_pow, verdictBits_testBit]
  simp [show 16 + i < 32 by omega]

/-- Registers of the array widths, and of the cores that a failing fault map forces. -/
def arrayRegs : List Nat :=
  (List.range 64).map (fun i => Reg.coreArrayStatus (i / 4) (i % 4)) ++ (List.range 16).map Reg.coreStatus

/-- Registers of the cores stand above those of FUSE, ID and CLK. -/
theorem not_mem_arrayRegs {off : Nat} (h : off < 0x20000) : off ∉ arrayRegs := by
  simp only [arrayRegs, List.mem_append, List.mem_map, not_or, not_exists, not_and]
  refine ⟨fun i _ heq => ?_, fun n _ heq => ?_⟩
  · simp only [Reg.coreArrayStatus] at heq
    omega
  · simp only [Reg.coreStatus] at heq
    omega

theorem RegMoves.senseArrays {s t : State} (h : RegMoves arrayRegs s t) (ok : Bool) :
    RegMoves arrayRegs s (senseArrays ok t) := by
  have hwidth (l : List Nat) (hl : ∀ i ∈ l, i < 64) (t : State) (h : RegMoves arrayRegs s t) : RegMoves arrayRegs s
      (l.foldl (fun s i => s.setReg (Reg.coreArrayStatus (i / 4) (i % 4)) (arrayStatus (s.fuseWord (96 + i)))) t) := by
    induction l generalizing t with
    | nil => exact h
    | cons i l ih =>
      refine ih (fun j hj => hl j (List.mem_cons_of_mem _ hj)) _ (h.setReg _ ?_)
      exact List.mem_append_left _ (List.mem_map.2 ⟨i, List.mem_range.2 (hl i (List.mem_cons_self ..)), rfl⟩)
  have hforced (l : List Nat) (hl : ∀ i ∈ l, i < 16) (t : State) (h : RegMoves arrayRegs s t) : RegMoves arrayRegs s
      (l.foldl (fun s n => s.setFlag (Reg.coreStatus n) 1 true) t) := by
    induction l generalizing t with
    | nil => exact h
    | cons i l ih =>
      refine ih (fun j hj => hl j (List.mem_cons_of_mem _ hj)) _ (h.setFlag _ _ ?_)
      exact List.mem_append_right _ (List.mem_map.2 ⟨i, List.mem_range.2 (hl i (List.mem_cons_self ..)), rfl⟩)
  have harrays := hwidth (List.range 64) (fun i hi => List.mem_range.1 hi) t h
  unfold Machine.senseArrays
  dsimp only
  split
  · exact harrays
  · exact hforced (List.range 16) (fun i hi => List.mem_range.1 hi) _ harrays

/-- A shadow and a patch summary stand, and FUSE_STATUS holds a word. -/
def takeShadow (shadow : SMap Word) (gen : BitVec 8) (dup : Bool) (status : Word) (s : State) : State :=
  State.setReg { s with fuse := { s.fuse with shadow := shadow }, boot := { s.boot with patchGen := gen, dupDue := dup } }
    Reg.fuseStatus status

theorem takeShadow_fuse (shadow : SMap Word) (gen : BitVec 8) (dup : Bool) (status : Word) (s : State) :
    (takeShadow shadow gen dup status s).fuse = { s.fuse with shadow := shadow } := rfl

theorem takeShadow_power (shadow : SMap Word) (gen : BitVec 8) (dup : Bool) (status : Word) (s : State) :
    (takeShadow shadow gen dup status s).power = s.power := rfl

theorem takeShadow_time (shadow : SMap Word) (gen : BitVec 8) (dup : Bool) (status : Word) (s : State) :
    (takeShadow shadow gen dup status s).time = s.time := rfl

theorem takeShadow_serving (shadow : SMap Word) (gen : BitVec 8) (dup : Bool) (status : Word) (s : State) :
    (takeShadow shadow gen dup status s).boot.serving = s.boot.serving := rfl

theorem takeShadow_moves {s : State} (h : Canon s) (shadow : SMap Word) (gen : BitVec 8) (dup : Bool) (status : Word) :
    RegMoves [Reg.fuseStatus] s (takeShadow shadow gen dup status s) :=
  ((RegMoves.refl [Reg.fuseStatus] h.regs).setReg (off := Reg.fuseStatus) status (by simp)).congr rfl

theorem takeShadow_status {s : State} (h : Canon s) (shadow : SMap Word) (gen : BitVec 8) (dup : Bool) (status : Word) :
    (takeShadow shadow gen dup status s).reg Reg.fuseStatus = status :=
  reg_setReg (s := { s with fuse := _, boot := _ }) h.regs _ _

/-- Sensing up to the verdicts. -/
def sensedStatus (s : State) : State :=
  takeShadow (senseShadow s)
    (BitVec.ofNat 8 ((patchesUsed s.fuseWord).foldl (fun m p => max m (bits (nthD 0 p.2 0) 24 8)) 0))
    (patchDup (patchesUsed s.fuseWord) []).isSome (BitVec.ofNat 32 (verdictBits (regionOk s) * 2 ^ 16)) s

/-- Sensing up to the array widths. -/
def sensedPatches (s : State) : State :=
  let rd := s.fuseWord
  let used := patchesUsed rd
  let gen := used.foldl (fun m p => max m (bits (nthD 0 p.2 0) 24 8)) 0
  let u := (sensedStatus s).setReg Reg.fuseLifecycle (lifecycleWord (nthD false (regionOk s) 1) (rd 16) (rd 17))
  let u := u.setReg Reg.fusePatch (BitVec.ofNat 32 (gen + used.length * 2 ^ 8
    + match patchDup used [] with | some e => 2 ^ 15 + e * 2 ^ 16 | none => 0))
  let u := u.setReg Reg.fuseDisagree (BitVec.ofNat 32 (disagreeCount u.fuse))
  u.setReg Reg.bootFloor (BitVec.ofNat 32 (counterValue (counterBits rd 0)))

/-- Sensing up to the identity. -/
def sensedTables (s : State) : State := senseArrays (nthD false (regionOk s) 3) (sensedPatches s)

/-- Sensing up to the keys. -/
def sensedId (s : State) : State :=
  (((sensedTables s).setReg Reg.idDevice (s.fuseWord 1)).setReg Reg.idSerialLo (s.fuseWord 0)).setReg Reg.idSerialHi
    (s.fuseWord 2)

/-- The parking key's verdict stands in SERVE; failing trims give the safe MULT. -/
def takeTrims (key trims : Bool) (s : State) : State :=
  if trims then s.setFlag Reg.serveAdpStatus 0 key
  else
    let u := (s.setFlag Reg.serveAdpStatus 0 key).setFld Reg.clkCoreCfg 0 6 32
    { u with time := { u.time with mult := 32 } }

theorem takeTrims_belt (key trims : Bool) (s : State) : (takeTrims key trims s).time.belt = s.time.belt := by
  cases trims <;> rfl

theorem takeTrims_only (key trims : Bool) (s : State) : Only [.regs, .time] s (takeTrims key trims s) := by
  unfold takeTrims
  split
  · exact (State_setFlag_only _ _ _ _ (.refl [.regs, .time] s) (by simp)).only
  · exact ((State_setFld_only _ _ _ _ _ (State_setFlag_only _ _ _ _ (.refl [.regs, .time] s) (by simp))
      (by simp)).updTime (by simp)).only

theorem takeTrims_moves (key trims : Bool) {s : State} (h : smWf resetVal s.regs = true) :
    RegMoves [Reg.serveAdpStatus, Reg.clkCoreCfg] s (takeTrims key trims s) := by
  have hkeys : RegMoves [Reg.serveAdpStatus, Reg.clkCoreCfg] s (s.setFlag Reg.serveAdpStatus 0 key) :=
    (RegMoves.refl _ h).setFlag _ _ (by simp)
  unfold takeTrims
  split
  · exact hkeys
  · exact (hkeys.setFld (off := Reg.clkCoreCfg) 0 6 32 (by simp)).congr rfl

/-- Sensing up to the verdict over the whole: identity, keys and trims. -/
def sensedTrims (s : State) : State :=
  takeTrims (nthD false (regionOk s) 8) (nthD false (regionOk s) 2) (sensedId s)

/-- FAULT rises, and the package goes on to its PLLs. -/
def startLocking (s : State) : State :=
  { s.emit (.ball .fault true) with power := { s.power with phase := .locking } }

@[simp] theorem startLocking_power (s : State) : (startLocking s).power = { s.power with phase := .locking } := rfl
@[simp] theorem startLocking_fuse (s : State) : (startLocking s).fuse = s.fuse := rfl
@[simp] theorem startLocking_time (s : State) : (startLocking s).time = s.time := rfl
@[simp] theorem startLocking_boot (s : State) : (startLocking s).boot = s.boot := rfl
@[simp] theorem startLocking_reg (s : State) (off : Nat) : (startLocking s).reg off = s.reg off := rfl
@[simp] theorem startLocking_flag (s : State) (off i : Nat) : (startLocking s).flag off i = s.flag off i := rfl

/-- With the identity and the patch regions good, start-up goes on to the PLLs. -/
theorem senseFuses_good {s : State} (hid : nthD false (regionOk s) 0 = true) (hpatch : nthD false (regionOk s) 4 = true) :
    senseFuses s = startLocking (sensedTrims s) := by
  unfold senseFuses
  dsimp only
  rw [hid, hpatch]
  rfl

section Sensed

variable {s : State} (h : Canon s)

include h

theorem sensedStatus_wf : smWf resetVal (sensedStatus s).regs = true := (takeShadow_moves h ..).wf

theorem sensedPatches_moves :
    RegMoves [Reg.fuseLifecycle, Reg.fusePatch, Reg.fuseDisagree, Reg.bootFloor] (sensedStatus s) (sensedPatches s) := by
  unfold sensedPatches
  dsimp only
  refine RegMoves.setReg ?_ _ (by simp)
  refine RegMoves.setReg ?_ _ (by simp)
  refine RegMoves.setReg ?_ _ (by simp)
  exact (RegMoves.refl _ (sensedStatus_wf h)).setReg _ (by simp)

theorem sensedTables_moves :
    RegMoves ([Reg.fuseLifecycle, Reg.fusePatch, Reg.fuseDisagree, Reg.bootFloor] ++ arrayRegs) (sensedStatus s)
      (sensedTables s) := by
  have hpatches := sensedPatches_moves h
  have harrays := RegMoves.senseArrays (RegMoves.refl arrayRegs hpatches.wf) (nthD false (regionOk s) 3)
  exact (hpatches.mono (List.subset_append_left ..)).trans (harrays.mono (List.subset_append_right ..))

theorem sensedId_reads : (sensedId s).reg Reg.idDevice = s.fuseWord 1 ∧ (sensedId s).reg Reg.idSerialLo = s.fuseWord 0 ∧
    (sensedId s).reg Reg.idSerialHi = s.fuseWord 2 := by
  have h1 := setReg_wf (sensedTables_moves h).wf Reg.idDevice (s.fuseWord 1)
  have h2 := setReg_wf h1 Reg.idSerialLo (s.fuseWord 0)
  refine ⟨?_, ?_, reg_setReg h2 _ _⟩
  · rw [sensedId, reg_setReg_ne h2 _ (by decide), reg_setReg_ne h1 _ (by decide), reg_setReg (sensedTables_moves h).wf]
  · rw [sensedId, reg_setReg_ne h2 _ (by decide), reg_setReg h1]

theorem sensedId_moves : RegMoves [Reg.idDevice, Reg.idSerialLo, Reg.idSerialHi] (sensedTables s) (sensedId s) :=
  (((RegMoves.refl _ (sensedTables_moves h).wf).setReg _ (by simp)).setReg _ (by simp)).setReg _ (by simp)

theorem sensedTrims_moves : RegMoves [Reg.serveAdpStatus, Reg.clkCoreCfg] (sensedId s) (sensedTrims s) :=
  takeTrims_moves _ _ (sensedId_moves h).wf

/-- The verdicts stand in FUSE_STATUS, whatever else is sensed. -/
theorem sensedTrims_verdict {i : Nat} (hi : i < 16) :
    (sensedTrims s).flag Reg.fuseStatus (16 + i) = nthD false (regionOk s) i := by
  have htables : Reg.fuseStatus ∉ [Reg.fuseLifecycle, Reg.fusePatch, Reg.fuseDisagree, Reg.bootFloor] ++ arrayRegs := by
    rw [List.mem_append, not_or]
    exact ⟨by decide, not_mem_arrayRegs (by decide)⟩
  have hreg : (sensedTrims s).reg Reg.fuseStatus = BitVec.ofNat 32 (verdictBits (regionOk s) * 2 ^ 16) := by
    rw [(sensedTrims_moves h).only _ (by decide), (sensedId_moves h).only _ (by decide),
      (sensedTables_moves h).only _ htables, sensedStatus, takeShadow_status h]
  rw [State.flag, hreg, verdictWord_getLsbD _ hi]

/-- The identity stands in ID. -/
theorem sensedTrims_id : (sensedTrims s).reg Reg.idDevice = s.fuseWord 1 ∧
    (sensedTrims s).reg Reg.idSerialLo = s.fuseWord 0 ∧ (sensedTrims s).reg Reg.idSerialHi = s.fuseWord 2 := by
  obtain ⟨hdevice, hlo, hhi⟩ := sensedId_reads h
  have hsame := (sensedTrims_moves h).only
  exact ⟨(hsame _ (by decide)).trans hdevice, (hsame _ (by decide)).trans hlo, (hsame _ (by decide)).trans hhi⟩

end Sensed

/-- From the verdicts on, only registers and the trims' MULT change. -/
theorem sensedPatches_only (s : State) : Only [.regs] (sensedStatus s) (sensedPatches s) := by
  unfold sensedPatches
  dsimp only
  generalize sensedStatus s = u
  exact (State_setReg_only _ _ _ (State_setReg_only _ _ _ (State_setReg_only _ _ _ (State_setReg_only _ _ _
    (.refl [.regs] u) (by simp)) (by simp)) (by simp)) (by simp)).only

theorem sensedTrims_only (s : State) : Only [.regs, .time] (sensedStatus s) (sensedTrims s) := by
  have htables : Only [.regs] (sensedPatches s) (sensedTables s) :=
    (senseArrays_only _ _ (.refl [.regs] _) (by simp)).only
  have hid : Only [.regs] (sensedTables s) (sensedId s) := by
    unfold sensedId
    generalize sensedTables s = u
    exact (State_setReg_only _ _ _ (State_setReg_only _ _ _ (State_setReg_only _ _ _ (.refl [.regs] u) (by simp))
      (by simp)) (by simp)).only
  have htrims : Only [.regs, .time] (sensedId s) (sensedTrims s) := takeTrims_only _ _ _
  exact ((sensedPatches_only s).trans (htables.trans hid)).mono (by simp) |>.trans htrims

/-- What is sensed besides registers: the shadow stands, and no fuse changes. -/
theorem sensedTrims_fuse (s : State) : (sensedTrims s).fuse = (sensedStatus s).fuse :=
  (sensedTrims_only s).2 .fuse (by decide)

theorem sensedTrims_power (s : State) : (sensedTrims s).power = (sensedStatus s).power :=
  (sensedTrims_only s).2 .power (by decide)

/-- Sensing with good identity and patches: what it leaves (R303, R305). -/
theorem senseFuses_completes {s : State} (h : Canon s) (hid : nthD false (regionOk s) 0 = true)
    (hpatch : nthD false (regionOk s) 4 = true) :
    (senseFuses s).power = { s.power with phase := .locking } ∧
    (∀ w < 416, (senseFuses s).shadowWord w = s.fuseWord w) ∧ (senseFuses s).reg Reg.idDevice = s.fuseWord 1 ∧
    (senseFuses s).reg Reg.idSerialLo = s.fuseWord 0 ∧ (senseFuses s).reg Reg.idSerialHi = s.fuseWord 2 ∧
    (∀ i < 9, (senseFuses s).flag Reg.fuseStatus (16 + i) = nthD false (regionOk s) i) ∧
    (senseFuses s).fuse.copies = s.fuse.copies := by
  obtain ⟨hdevice, hlo, hhi⟩ := sensedTrims_id h
  rw [senseFuses_good hid hpatch]
  refine ⟨?_, fun w hw => ?_, (startLocking_reg _ _).trans hdevice, (startLocking_reg _ _).trans hlo,
    (startLocking_reg _ _).trans hhi, fun i hi => ?_, ?_⟩
  · rw [startLocking_power, sensedTrims_power, sensedStatus, takeShadow_power]
  · rw [State.shadowWord, startLocking_fuse, sensedTrims_fuse, sensedStatus, takeShadow_fuse]
    exact smGet_senseShadow s hw
  · rw [startLocking_flag]
    exact sensedTrims_verdict h (by omega)
  · rw [startLocking_fuse, sensedTrims_fuse, sensedStatus, takeShadow_fuse]

/-- The second of the two power-good inputs rises: the fuses are sensed. -/
theorem pgoodRise_eq {s : State} (hphase : s.power.phase = .rails) (hrail : s.power.railA = true)
    (hb : s.power.pgoodB = true) : pgoodRise .a s = senseFuses (setPgood .a s) := by
  have hgood : ((setPgood .a s).power.pgoodA && (setPgood .a s).power.pgoodB) = true := by
    simp [setPgood, hrail, hb]
  have hphase' : (setPgood .a s).power.phase = .rails := hphase
  unfold pgoodRise
  dsimp only
  rw [if_pos hgood, hphase']

/-! ### A package held in reset (R306) -/

theorem faultPulses_eq (n : Nat) (s : State) : faultPulses n s = { s with
    out := s.out ++ (List.replicate n [Out.ball .fault false, Out.ball .fault true]).flatten } := by
  induction n generalizing s with
  | zero => simp [faultPulses]
  | succ n ih =>
    rw [faultPulses, ih]
    simp [State.emit, List.replicate_succ]

theorem faultBeacon_eq {n : BitVec 2} {s : State} (h : s.power.phase = .heldFuse n) : faultBeacon s = { s with
    out := s.out ++ (List.replicate n.toNat [Out.ball .fault false, Out.ball .fault true]).flatten
      ++ allPorts.map (fun p => Out.whisper p (whisperMsg 4 2 (s.pkg.toNat + (0xE0 + n.toNat) * 2 ^ 8))) } := by
  unfold faultBeacon
  split
  · next k hk =>
    obtain rfl : n = k := by rw [h] at hk; cases hk; rfl
    rw [faultPulses_eq]
    simp [allPorts, State.emit]
  · next hk => exact absurd h (hk n)

/-! ### PLL locks and flash parameters (R28, R322) -/

/-- The lock bits are set; no other register changes. -/
theorem RegMoves.setLocks {s t : State} {offs : List Nat} (h : RegMoves offs s t) (plls : BitVec 3)
    (hoff : Reg.clkStatus ∈ offs) : RegMoves offs s (setLocks plls t) := by
  have hlocks := (h.setFld 0 3 (t.fld Reg.clkStatus 0 3 ||| plls.toNat) hoff).setFlag 3 true hoff
  unfold Machine.setLocks
  dsimp only
  split
  · exact (hlocks.setFlag 5 true hoff).congr rfl
  · exact hlocks

/-- All three PLLs lock. -/
theorem setLocks_all {s : State} (h : smWf resetVal s.regs = true) :
    (setLocks 7 s).fld Reg.clkStatus 0 3 = 7 ∧ (setLocks 7 s).flag Reg.clkStatus 3 = true := by
  have hall : (s.fld Reg.clkStatus 0 3 ||| (7 : BitVec 3).toNat) % 2 ^ 3 = 7 := by
    have hlt : s.fld Reg.clkStatus 0 3 < 8 := Nat.mod_lt _ (by decide)
    revert hlt
    generalize s.fld Reg.clkStatus 0 3 = x
    intro hlt
    interval_cases x <;> rfl
  have h1 := setFld_wf h Reg.clkStatus 0 3 (s.fld Reg.clkStatus 0 3 ||| (7 : BitVec 3).toNat)
  have h2 := setFlag_wf h1 Reg.clkStatus 3 true
  have hfld := (fld_setFld h Reg.clkStatus 0 3 (s.fld Reg.clkStatus 0 3 ||| (7 : BitVec 3).toNat) (by decide)).trans hall
  have hfld2 := (fld_setFld_ne h1 Reg.clkStatus 3 1 true.toNat 0 3 (by decide) (by decide)).trans hfld
  have hflag2 := flag_setFlag h1 Reg.clkStatus 3 true (by decide)
  unfold setLocks
  dsimp only
  split
  · exact ⟨(fld_setFld_ne h2 Reg.clkStatus 5 1 true.toNat 0 3 (by decide) (by decide)).trans hfld2,
      (flag_setFlag_ne h2 Reg.clkStatus 3 5 true (by decide) (by decide)).trans hflag2⟩
  · exact ⟨hfld2, hflag2⟩

/-- Usable flash parameters stand in BOOT_FLASH. -/
theorem takeSfdp_usable {f : Sfdp} (hf : f.usable = true) (s : State) : takeSfdp f s =
    State.setFlag (State.setReg { s with boot := { s.boot with sfdp := f } } Reg.bootFlash (BitVec.ofNat 32
      (f.log2Size.toNat + f.addr4.toNat * 2 ^ 8 + f.io.toNat * 2 ^ 9 + (if f.io = 0 then 50 else 104) * 2 ^ 16)))
      Reg.bootStatus 8 true := by
  simp [takeSfdp, hf]

/-- The size stands in the low byte of BOOT_FLASH. -/
theorem flashWord_size (f : Sfdp) : bits (BitVec.ofNat 32
    (f.log2Size.toNat + f.addr4.toNat * 2 ^ 8 + f.io.toNat * 2 ^ 9 + (if f.io = 0 then 50 else 104) * 2 ^ 16)) 0 8 =
    f.log2Size.toNat := by
  have hsize := f.log2Size.isLt
  have hio := f.io.isLt
  have hmhz : (if f.io = 0 then 50 else 104) ≤ 104 := by split <;> decide
  have haddr := Bool.toNat_le f.addr4
  revert hmhz
  generalize (if f.io = 0 then 50 else 104) = mhz
  intro hmhz
  rw [bits, BitVec.toNat_ofNat, Nat.shiftRight_zero]
  omega

/-- At a cold start the third lock leads on to the images: the flash parameters and the order of the slots stand. -/
theorem pllLock_eq {f : Sfdp} {s : State} (h : Canon s) (hphase : s.power.phase = .locking) : pllLock 7 f s =
    setPhase .imaging { takeSfdp f (setLocks 7 s) with
      boot := { (takeSfdp f (setLocks 7 s)).boot with order := slotOrder (takeSfdp f (setLocks 7 s)) } } := by
  unfold pllLock
  simp only [hphase, (setLocks_all h.regs).1, if_true]

/-- The order of the slots depends on the flash alone. -/
theorem slotOrder_congr {s t : State} (h : t.flash = s.flash) : slotOrder t = slotOrder s := by
  unfold slotOrder State.flashBytes
  rw [h]

section PllLock

variable {f : Sfdp} {s : State} (h : Canon s) (hf : f.usable = true)

include h hf

theorem takeSfdp_moves :
    RegMoves [Reg.clkStatus, Reg.bootFlash, Reg.bootStatus] s (takeSfdp f (setLocks 7 s)) := by
  have hlocks := RegMoves.setLocks (RegMoves.refl [Reg.clkStatus, Reg.bootFlash, Reg.bootStatus] h.regs) 7 (by simp)
  have hboot : RegMoves [Reg.clkStatus, Reg.bootFlash, Reg.bootStatus] s
    { setLocks 7 s with boot := { (setLocks 7 s).boot with sfdp := f } } := hlocks.congr rfl
  rw [takeSfdp_usable hf]
  exact (hboot.setReg (off := Reg.bootFlash) _ (by simp)).setFlag (off := Reg.bootStatus) 8 true (by simp)

/-- The locks, the flash size and the discovery's outcome stand in their registers. -/
theorem takeSfdp_reads : (takeSfdp f (setLocks 7 s)).fld Reg.clkStatus 0 3 = 7 ∧
    (takeSfdp f (setLocks 7 s)).flag Reg.clkStatus 3 = true ∧ (takeSfdp f (setLocks 7 s)).flag Reg.bootStatus 8 = true ∧
    (takeSfdp f (setLocks 7 s)).fld Reg.bootFlash 0 8 = f.log2Size.toNat := by
  obtain ⟨hlocks, hcount⟩ := setLocks_all h.regs
  have hu : smWf resetVal ({ setLocks 7 s with boot := { (setLocks 7 s).boot with sfdp := f } } : State).regs = true :=
    (RegMoves.setLocks (RegMoves.refl [Reg.clkStatus] h.regs) 7 (by simp)).wf
  have hflash := setReg_wf hu Reg.bootFlash (BitVec.ofNat 32
    (f.log2Size.toNat + f.addr4.toNat * 2 ^ 8 + f.io.toNat * 2 ^ 9 + (if f.io = 0 then 50 else 104) * 2 ^ 16))
  rw [takeSfdp_usable hf]
  refine ⟨?_, ?_, flag_setFlag hflash _ _ _ (by decide), ?_⟩
  · rw [fld_setFlag_reg_ne hflash (by decide), fld_setReg_ne hu _ _ _ (by decide)]
    exact hlocks
  · rw [flag_setFlag_reg_ne hflash (by decide), flag_setReg_ne hu _ _ (by decide)]
    exact hcount
  · rw [fld_setFlag_reg_ne hflash (by decide), fld_eq_bits, reg_setReg hu, flashWord_size]

end PllLock

/-! ### Images (R323, R324) -/

/-- The register of a slot's outcome. -/
abbrev slotReg (b : Bool) : Nat := if b then Reg.bootSlotB else Reg.bootSlotA

theorem imageVerifyDone_eq {b : Bool} {s : State} (hphase : s.power.phase = .imaging) (horder : s.boot.order = [b]) :
    imageVerifyDone s = { trySlots [b] false s with power := { (trySlots [b] false s).power with phase := .selfTest } } := by
  unfold imageVerifyDone
  simp only [hphase, horder]

/-- The one candidate runs if its images pass, and the boot ROM serves if they do not. -/
theorem trySlots_one (b : Bool) (s : State) : trySlots [b] false s =
    if slotVerdict s b = 0 then takeImages b false (s.setReg (slotReg b) (BitVec.ofNat 32 (slotVerdict s b).toNat))
    else serveRom (s.setReg (slotReg b) (BitVec.ofNat 32 (slotVerdict s b).toNat)) := rfl

/-- The tuple stands in its two registers. -/
def setTuple (lo hi : Word) (s : State) : State := (s.setReg Reg.bootTupleLo lo).setReg Reg.bootTupleHi hi

theorem RegMoves.setTuple {offs : List Nat} {s t : State} (h : RegMoves offs s t) (lo hi : Word)
    (hlo : Reg.bootTupleLo ∈ offs) (hhi : Reg.bootTupleHi ∈ offs) : RegMoves offs s (setTuple lo hi t) :=
  (h.setReg lo hlo).setReg hi hhi

/-- Images that run: versions and pairing in BOOT's state, RUNNING and FALLBACK in BOOT_STATUS, and the tuple. -/
theorem takeImages_eq (b fallback : Bool) (s : State) : ∃ boot lo hi, boot.verified = true ∧ takeImages b fallback s =
    setTuple lo hi (State.setFlag (State.setFld { s with boot := boot } Reg.bootStatus 0 2 (if b then 2 else 1))
      Reg.bootStatus 4 fallback) := ⟨_, _, _, rfl, rfl⟩

/-- BOOT's state and registers with the boot ROM serving. -/
def romServes (boot : BootState) (lo hi : Word) (s : State) : State :=
  setTuple lo hi (State.setFld { s with boot := boot } Reg.bootStatus 0 2 0)

/-- No image runs: the boot ROM serves, and the load is reported. -/
theorem serveRom_eq (s : State) : ∃ boot lo hi, boot.verified = true ∧ boot.paired = false ∧
    serveRom s = latch eBootNoImage 0 (romServes boot lo hi s) := ⟨_, _, _, rfl, rfl, rfl⟩

theorem romServes_moves {s : State} (h : smWf resetVal s.regs = true) (boot : BootState) (lo hi : Word) :
    RegMoves [Reg.bootStatus, Reg.bootTupleLo, Reg.bootTupleHi] s (romServes boot lo hi s) := by
  have hboot : RegMoves [Reg.bootStatus, Reg.bootTupleLo, Reg.bootTupleHi] s { s with boot := boot } :=
    (RegMoves.refl _ h).congr rfl
  exact (hboot.setFld (off := Reg.bootStatus) 0 2 0 (by simp)).setTuple lo hi (by simp) (by simp)

theorem romServes_running {s : State} (h : smWf resetVal s.regs = true) (boot : BootState) (lo hi : Word) :
    (romServes boot lo hi s).fld Reg.bootStatus 0 2 = 0 := by
  have hboot : smWf resetVal ({ s with boot := boot } : State).regs = true := h
  have h1 := setFld_wf hboot Reg.bootStatus 0 2 0
  have h2 := setReg_wf h1 Reg.bootTupleLo lo
  rw [romServes, setTuple, fld_setReg_ne h2 _ _ _ (by decide), fld_setReg_ne h1 _ _ _ (by decide),
    fld_setFld hboot _ _ _ _ (by decide)]
  rfl

/-- What the registers hold once the images run. -/
theorem takeImages_reads {s : State} (h : smWf resetVal s.regs = true) (b fallback : Bool) :
    RegMoves [Reg.bootStatus, Reg.bootTupleLo, Reg.bootTupleHi] s (takeImages b fallback s) ∧
    (takeImages b fallback s).fld Reg.bootStatus 0 2 = (if b then 2 else 1) ∧
    (takeImages b fallback s).boot.verified = true := by
  obtain ⟨boot, lo, hi, hverified, heq⟩ := takeImages_eq b fallback s
  have hu : smWf resetVal ({ s with boot := boot } : State).regs = true := h
  have h1 := setFld_wf hu Reg.bootStatus 0 2 (if b then 2 else 1)
  have h2 := setFlag_wf h1 Reg.bootStatus 4 fallback
  have h3 := setReg_wf h2 Reg.bootTupleLo lo
  rw [heq]
  refine ⟨?_, ?_, hverified⟩
  · have hstatus : RegMoves [Reg.bootStatus, Reg.bootTupleLo, Reg.bootTupleHi] s { s with boot := boot } :=
      (RegMoves.refl _ h).congr rfl
    exact ((hstatus.setFld (off := Reg.bootStatus) 0 2 _ (by simp)).setFlag (off := Reg.bootStatus) 4 fallback
      (by simp)).setTuple lo hi (by simp) (by simp)
  · rw [setTuple, fld_setReg_ne h3 _ _ _ (by decide), fld_setReg_ne h2 _ _ _ (by decide), State.setFlag,
      fld_setFld_ne h1 _ _ _ _ _ _ (by decide) (by decide), fld_setFld hu _ _ _ _ (by decide)]
    cases b <;> rfl

/-- What the registers hold once the boot ROM serves. -/
theorem serveRom_reads {s : State} (h : Canon s) :
    RegMoves [Reg.bootStatus, Reg.bootTupleLo, Reg.bootTupleHi, Reg.bootErr] s (serveRom s) ∧
    (serveRom s).fld Reg.bootStatus 0 2 = 0 ∧ (serveRom s).boot.verified = true ∧ (serveRom s).boot.paired = false ∧
    Latched eBootNoImage Reg.bootErr s (serveRom s) := by
  obtain ⟨boot, lo, hi, hverified, hpaired, heq⟩ := serveRom_eq s
  have hmoves := romServes_moves h.regs boot lo hi
  have hrunning := romServes_running h.regs boot lo hi
  have hcanon : Canon (romServes boot lo hi s) := { h with regs := hmoves.wf }
  have hlatch : RegMoves [Reg.bootErr] (romServes boot lo hi s) (latch eBootNoImage 0 (romServes boot lo hi s)) :=
    (RegMoves.refl _ hcanon.regs).latch _ _ fun r hr => by simp [← Option.some.inj hr]
  rw [heq]
  refine ⟨(hmoves.mono (by simp)).trans (hlatch.mono (by simp)), ?_, ?_, ?_, ?_⟩
  · rw [fld_eq_bits, hlatch.only _ (by decide), ← fld_eq_bits, hrunning]
  · rw [latch_boot]
    exact hverified
  · rw [latch_boot]
    exact hpaired
  · exact (latched_latch (by decide) rfl (fun hblock => absurd hblock (by decide)) hcanon).congr
      (hmoves.only _ (by decide)) rfl rfl

/-- The outcome of reading the images: the slot's verdict and what runs. -/
theorem trySlots_one_reads {s : State} (h : Canon s) (b : Bool) :
    (trySlots [b] false s).boot.verified = true ∧
    (trySlots [b] false s).reg (slotReg b) = BitVec.ofNat 32 (slotVerdict s b).toNat ∧
    (slotVerdict s b = 0 → (trySlots [b] false s).fld Reg.bootStatus 0 2 = (if b then 2 else 1)) ∧
    (slotVerdict s b ≠ 0 → (trySlots [b] false s).fld Reg.bootStatus 0 2 = 0 ∧ (trySlots [b] false s).boot.paired = false ∧
      Latched eBootNoImage Reg.bootErr s (trySlots [b] false s)) := by
  have hslot := reg_setReg h.regs (slotReg b) (BitVec.ofNat 32 (slotVerdict s b).toNat)
  have hcanon : Canon (s.setReg (slotReg b) (BitVec.ofNat 32 (slotVerdict s b).toNat)) :=
    { h with regs := setReg_wf h.regs _ _ }
  have herr : slotReg b ≠ Reg.bootErr := by cases b <;> decide
  rw [trySlots_one]
  by_cases hverdict : slotVerdict s b = 0
  · obtain ⟨hmoves, hrunning, hverified⟩ := takeImages_reads hcanon.regs b false
    rw [if_pos hverdict]
    refine ⟨hverified, (hmoves.only _ ?_).trans hslot, fun _ => hrunning, fun hne => absurd hverdict hne⟩
    cases b <;> decide
  · obtain ⟨hmoves, hrunning, hverified, hpaired, hlatched⟩ := serveRom_reads hcanon
    rw [if_neg hverdict]
    refine ⟨hverified, (hmoves.only _ ?_).trans hslot, fun heq => absurd heq hverdict, fun _ => ⟨hrunning, hpaired, ?_⟩⟩
    · cases b <;> decide
    · exact hlatched.congr (reg_setReg_ne h.regs _ herr.symm) rfl rfl

/-! ### The self-test and the service level (R24, R326) -/

/-- The level depends on a few registers, the self-test's outcome, the running weave and the anchor strap. -/
theorem levelNow_congr {s t : State} (hstatus : t.reg Reg.bootStatus = s.reg Reg.bootStatus)
    (hlife : t.reg Reg.fuseLifecycle = s.reg Reg.fuseLifecycle)
    (harrays : ∀ n a, t.reg (Reg.coreArrayStatus n a) = s.reg (Reg.coreArrayStatus n a))
    (htest : t.boot.test = s.boot.test) (hcores : t.boot.coresIn = s.boot.coresIn) (hweave : t.weave = s.weave)
    (hpower : t.power.strap1 = s.power.strap1) : t.levelNow = s.levelNow := by
  have hgood (n : Nat) : t.goodArrays n = s.goodArrays n := by
    have hone (a : Nat) : t.arrayGood n a = s.arrayGood n a := by
      have hwidth : t.fld (Reg.coreArrayStatus n a) 0 2 = s.fld (Reg.coreArrayStatus n a) 0 2 := by
        rw [fld_eq_bits, harrays, fld_eq_bits]
      unfold State.arrayGood
      rw [hwidth, htest]
    simp only [State.goodArrays, funext hone]
  have hcounted (n : Nat) : t.counted n = s.counted n := by simp only [State.counted, hcores]
  have hpkg : t.pkg = s.pkg := by simp only [State.pkg, hpower]
  have hanchor : t.anchor = s.anchor := by simp only [State.anchor, hpower]
  have hwfe : t.usesWfe = s.usesWfe := by simp only [State.usesWfe, State.alternate, hweave, hpkg]
  have hports : t.usedPorts = s.usedPorts := by simp only [State.usedPorts, hweave, hpkg]
  have hfull : t.fullUnits = s.fullUnits := by
    simp only [State.fullUnits, htest, hcounted, hgood, hwfe, hports, hanchor]
  have hreduced : t.reducedUnits = s.reducedUnits := by
    simp only [State.reducedUnits, htest, hcounted, hgood]
  have hlc : t.lifecycle = s.lifecycle := by rw [State.lifecycle, fld_eq_bits, hlife, ← fld_eq_bits, State.lifecycle]
  have hrunning : t.fld Reg.bootStatus 0 2 = s.fld Reg.bootStatus 0 2 := by rw [fld_eq_bits, hstatus, fld_eq_bits]
  have hflag (i : Nat) : t.flag Reg.bootStatus i = s.flag Reg.bootStatus i := by rw [State.flag, hstatus, State.flag]
  unfold State.levelNow
  rw [hlc, hrunning, hflag, hflag, htest, hfull, hreduced]

/-- The level is set as the units that pass give it. -/
theorem setLevel_reads {s : State} (h : smWf resetVal s.regs = true) :
    RegMoves [Reg.idStatus] s (setLevel s) ∧ (setLevel s).flag Reg.idStatus 3 = true ∧ (setLevel s).level = s.levelNow := by
  have h1 := setFld_wf h Reg.idStatus 0 2 s.levelNow
  have hlevel : s.levelNow < 2 ^ 2 := by
    unfold State.levelNow
    dsimp only
    split_ifs <;> decide
  refine ⟨((RegMoves.refl _ h).setFld _ _ _ (by simp)).setFlag _ _ (by simp), flag_setFlag h1 _ _ _ (by decide), ?_⟩
  refine (fld_setFld_ne h1 _ _ _ _ _ _ (by decide) (by decide)).trans ?_
  rw [fld_setFld h _ _ _ _ (by decide), Nat.mod_eq_of_lt hlevel]

/-- Reports that were due leave in the ERR registers of BOOT. -/
theorem RegMoves.postDue {offs : List Nat} {s t : State} (h : RegMoves offs s t) (hboot : Reg.bootErr ∈ offs)
    (hfuse : Reg.fuseErr ∈ offs) (hlost : Reg.hostEvtLost ∈ offs) : RegMoves offs s (postDue t) := by
  have hpost (c : Code) (r : Nat) (hc : errReg c 0 = some r) (hr : r ∈ offs) (due : Bool) (u : State)
      (hu : RegMoves offs s u) : RegMoves offs s (if due then Machine.postEvent c 0 u else u) :=
    RegMoves.ite (hu.postEvent c 0 (fun q hq => by rw [hc] at hq; exact Option.some.inj hq ▸ hr) hlost) hu
  exact hpost eBootUntested _ rfl hboot _ _ (hpost ePatchDup _ rfl hfuse _ _ (h.congr rfl))

/-- Of BOOT's state, reports that went out are no longer due. -/
theorem postDue_boot (s : State) : (postDue s).boot = { s.boot with dupDue := false, untestedDue := false } := by
  have hpost (c : Code) (due : Bool) (u : State) : (if due then postEvent c 0 u else u).boot = u.boot := by
    split
    · exact (postEvent_only c 0 u (.refl [.regs, .out, .host] u) (by simp)).only.2 .boot (by decide)
    · rfl
  exact (hpost _ _ _).trans (hpost _ _ _)

theorem postDue_frame (s : State) : Only [.regs, .out, .host, .boot] s (postDue s) :=
  (postDue_only s (.refl _ s) (List.Subset.refl _)).only

/-- What the self-test leaves before the level is judged. -/
def testStands (r : SelfTest) (s : State) : State :=
  let untested := s.fld Reg.bootStatus 0 2 ≠ 0 && !s.boot.paired
  State.setFlag { s with boot := { s.boot with test := r, testNs := s.nowNs, serving := true, untestedDue := untested } }
    Reg.bootStatus 2 untested

theorem judgeSelfTest_eq (r : SelfTest) (s : State) :
    judgeSelfTest r s = if s.anchor then setLevel (testStands r s) else postDue (setLevel (testStands r s)) := rfl

/-- Registers on which the level rests are no ERR registers, nor ID_STATUS. -/
theorem arrayStatus_not_mem {offs : List Nat} (h : ∀ o ∈ offs, o < 0x20000) (n a : Nat) : Reg.coreArrayStatus n a ∉ offs := by
  intro hmem
  have hlt := h _ hmem
  unfold Reg.coreArrayStatus at hlt
  omega

/-- After the self-test the package serves, and its level is what the units that pass give. -/
theorem judgeSelfTest_completes (r : SelfTest) {s : State} (h : Canon s) :
    (judgeSelfTest r s).boot.serving = true ∧ (judgeSelfTest r s).boot.test = r ∧
    (judgeSelfTest r s).boot.testNs = s.nowNs ∧ (judgeSelfTest r s).flag Reg.idStatus 3 = true ∧
    (judgeSelfTest r s).level = (judgeSelfTest r s).levelNow ∧ (judgeSelfTest r s).power = s.power := by
  have hregs : smWf resetVal (testStands r s).regs = true :=
    setFlag_wf (s := { s with boot := _ }) h.regs _ _ _
  obtain ⟨hlevelRegs, hset, hlevel⟩ := setLevel_reads hregs
  have hnow : (setLevel (testStands r s)).levelNow = (testStands r s).levelNow :=
    levelNow_congr (hlevelRegs.only _ (by decide)) (hlevelRegs.only _ (by decide))
      (fun n a => hlevelRegs.only _ (arrayStatus_not_mem (by decide) n a)) rfl rfl rfl rfl
  rw [judgeSelfTest_eq]
  split
  · exact ⟨rfl, rfl, rfl, hset, hlevel.trans hnow.symm, rfl⟩
  · have hdue := RegMoves.postDue (RegMoves.refl [Reg.bootErr, Reg.fuseErr, Reg.hostEvtLost] hlevelRegs.wf) (by simp)
      (by simp) (by simp)
    have hboot := postDue_boot (setLevel (testStands r s))
    have hframe := postDue_frame (setLevel (testStands r s))
    have hkeep : (postDue (setLevel (testStands r s))).levelNow = (setLevel (testStands r s)).levelNow :=
      levelNow_congr (hdue.only _ (by decide)) (hdue.only _ (by decide))
        (fun n a => hdue.only _ (arrayStatus_not_mem (by decide) n a)) (by rw [hboot]) (by rw [hboot])
        (hframe.2 .weave (by decide)) (by rw [hframe.2 .power (by decide)])
    have hid := hdue.only Reg.idStatus (by decide)
    refine ⟨by rw [hboot]; rfl, by rw [hboot]; rfl, by rw [hboot]; rfl, ?_, ?_, ?_⟩
    · rw [State.flag, hid]
      exact hset
    · rw [hkeep, hnow, ← hlevel, State.level, fld_eq_bits, hid]
      rfl
    · exact hframe.2 .power (by decide)

/-- The start-up self-test ends in Run. -/
theorem selftestDone_eq {s : State} (h : s.power.phase = .selfTest) (r : SelfTest) : selftestDone r s =
    { judgeSelfTest r s with power := { (judgeSelfTest r s).power with phase := .run } } := by
  unfold selftestDone
  simp only [h]

/-! ### The calibration record (R330) -/

theorem smGetAll_length {α : Type} (d : α) (m : SMap α) (k n : Nat) : (smGetAll d m k n).length = n := by
  induction n generalizing k with
  | zero => rfl
  | succ n ih => rw [smGetAll, List.length_cons, ih]

/-- A part that passes is no longer than its place in the flash. -/
theorem calPart_length {s : State} {off max num : Nat} {l : List Byte} (h : s.calPart off max num = some l) :
    l.length ≤ max := by
  unfold State.calPart at h
  dsimp only at h
  split at h
  · next hok =>
    obtain ⟨-, -, hlen, -⟩ := hok
    cases h
    rwa [State.flashBytes, smGetAll_length]
  · simp at h

/-- A part that passes is copied, and its bit is set. -/
theorem calCopy_some (l : List Byte) (dst okBit : Nat) (s : State) :
    calCopy (some l) dst okBit s = (wrMem dst l s).setFlag Reg.bootStatus okBit true := rfl

/-- The record as both parts leave it. -/
def calStands (l₁ l₂ : List Byte) (s : State) : State :=
  ((((calCopy (some l₂) 0x41200000 7 (calCopy (some l₁) 0x40000000 6 s)).setReg Reg.roiTriBaseLo 0x41200040).setReg
    Reg.roiTriBaseHi 0).setFlag Reg.bootStatus 5 true)

theorem calLoadDone_eq {l₁ l₂ : List Byte} {s : State} (hphase : s.power.phase = .run)
    (hfirst : s.flag Reg.bootStatus 5 = false) (hload : s.weave.load = none) (hsize : 0x1800000 ≤ s.flashSize)
    (h1 : s.calPart 0x400000 0x1200000 1 = some l₁) (h2 : s.calPart 0x1600000 0x200000 2 = some l₂) :
    calLoadDone s = calStands l₁ l₂ s := by
  have hidle : readImage (calStands l₁ l₂ s) = calStands l₁ l₂ s := by
    have hnone : (calStands l₁ l₂ s).weave.load = none := hload
    unfold readImage
    rw [hnone]
  rw [← hidle]
  unfold calLoadDone
  rw [hphase]
  dsimp only
  rw [hfirst]
  simp only [hsize, if_true, h1, h2, Option.isSome_some, Bool.false_eq_true, if_false]
  rfl

section Calibration

variable {s : State} (h : Canon s) {l₁ l₂ : List Byte}

/-- The memory with both parts. -/
theorem calStands_rdMem (a n : Nat) :
    (calStands l₁ l₂ s).rdMem a n = (wrMem 0x41200000 l₂ (wrMem 0x40000000 l₁ s)).rdMem a n := rfl

include h

/-- Both parts stand in the calibration area. -/
theorem calStands_memory (hlen : l₁.length ≤ 0x1200000) :
    (calStands l₁ l₂ s).rdMem 0x40000000 l₁.length = l₁ ∧ (calStands l₁ l₂ s).rdMem 0x41200000 l₂.length = l₂ := by
  have hwf : Memory.wf (wrMem 0x40000000 l₁ s).mem = true := smSetAll_wf h.mem
  rw [calStands_rdMem, calStands_rdMem]
  refine ⟨?_, rdMem_wrMemP hwf _ _ _⟩
  refine (rdMem_congr fun x _ hx => rdMem_wrMemP_ne hwf false (.inl ?_)).trans (rdMem_wrMemP h.mem _ _ _)
  omega

theorem calStands_moves :
    RegMoves [Reg.bootStatus, Reg.roiTriBaseLo, Reg.roiTriBaseHi] s (calStands l₁ l₂ s) := by
  have h1 : RegMoves [Reg.bootStatus, Reg.roiTriBaseLo, Reg.roiTriBaseHi] s (wrMem 0x40000000 l₁ s) :=
    (RegMoves.refl _ h.regs).congr rfl
  have h2 : RegMoves [Reg.bootStatus, Reg.roiTriBaseLo, Reg.roiTriBaseHi] s
      (wrMem 0x41200000 l₂ (calCopy (some l₁) 0x40000000 6 s)) :=
    (h1.setFlag (off := Reg.bootStatus) 6 true (by simp)).congr rfl
  exact (((h2.setFlag (off := Reg.bootStatus) 7 true (by simp)).setReg (off := Reg.roiTriBaseLo) _ (by simp)).setReg
    (off := Reg.roiTriBaseHi) _ (by simp)).setFlag (off := Reg.bootStatus) 5 true (by simp)

/-- LOADED, both parts and the integrator part's address stand in their registers. -/
theorem calStands_reads : (calStands l₁ l₂ s).flag Reg.bootStatus 5 = true ∧
    (calStands l₁ l₂ s).flag Reg.bootStatus 6 = true ∧ (calStands l₁ l₂ s).flag Reg.bootStatus 7 = true ∧
    (calStands l₁ l₂ s).reg Reg.roiTriBaseLo = 0x41200040 ∧ (calStands l₁ l₂ s).reg Reg.roiTriBaseHi = 0 := by
  have h1 : smWf resetVal (wrMem 0x40000000 l₁ s).regs = true := h.regs
  have h2 : smWf resetVal (wrMem 0x41200000 l₂ (calCopy (some l₁) 0x40000000 6 s)).regs = true := setFlag_wf h1 _ _ _
  have h3 := setFlag_wf h2 Reg.bootStatus 7 true
  have h4 := setReg_wf h3 Reg.roiTriBaseLo 0x41200040
  have h5 := setReg_wf h4 Reg.roiTriBaseHi 0
  have h6 : (wrMem 0x41200000 l₂ (calCopy (some l₁) 0x40000000 6 s)).flag Reg.bootStatus 6 = true :=
    flag_setFlag h1 Reg.bootStatus 6 true (by decide)
  refine ⟨flag_setFlag h5 _ _ _ (by decide), ?_, ?_, ?_, ?_⟩
  · rw [calStands, calCopy_some, flag_setFlag_ne h5 _ _ _ _ (by decide) (by decide), flag_setReg_ne h4 _ _ (by decide),
      flag_setReg_ne h3 _ _ (by decide), flag_setFlag_ne h2 _ _ _ _ (by decide) (by decide), h6]
  · rw [calStands, calCopy_some, flag_setFlag_ne h5 _ _ _ _ (by decide) (by decide), flag_setReg_ne h4 _ _ (by decide),
      flag_setReg_ne h3 _ _ (by decide), flag_setFlag h2 _ _ _ (by decide)]
  · rw [calStands, calCopy_some, reg_setFlag_ne h5 _ _ (by decide), reg_setReg_ne h4 _ (by decide), reg_setReg h3]
  · rw [calStands, calCopy_some, reg_setFlag_ne h5 _ _ (by decide), reg_setReg h4]

end Calibration

/-- Settles O6: each event of start-up by the equation of its operation and what its registers read. -/
theorem startUpCompletes : Obligations.StartUpCompletes := by
  refine ⟨?_, ?_, ?_, ?_, ?_, ?_, ?_, ?_, ?_⟩
  · intro id an s hphase
    refine completes_of_eq rfl (coldStart_eq hphase id an) ⟨strap_pkg id an, strap_anchor id an, rfl, rfl, rfl, rfl, rfl, ?_⟩
    exact only_iff.2 (by simp)
  · intro id an s hphase hfirst hlate
    obtain ⟨hpower, honly, hsame⟩ := strapResample_completes hphase hfirst hlate id an
    refine completes_of_next rfl ⟨hpower, ?_, ?_, honly, hsame⟩
    · rw [State.pkg, hpower, State.pkg]
    · rw [State.anchor, hpower, State.anchor]
  · intro s hcanon hphase hrail hb hid hpatch
    have hcanon' : Canon (setPgood .a s) := { hcanon with }
    have hstatus := senseFuses_completes hcanon' hid hpatch
    have hpower : (setPgood .a s).power = { s.power with pgoodA := true } := by simp [setPgood, hrail]
    rw [hpower] at hstatus
    exact completes_of_eq rfl (pgoodRise_eq hphase hrail hb) hstatus
  · intro g s hphase hlow hlate
    exact completes_of_eq rfl (railTimeout_eq hphase hlow hlate) ⟨rfl, rfl, only_iff.2 (by simp)⟩
  · intro n s hphase
    exact completes_of_eq rfl (faultBeacon_eq hphase) ⟨rfl, only_iff.2 (by simp)⟩
  · intro f s hcanon hphase hf
    have hmoves := takeSfdp_moves hcanon hf
    obtain ⟨hlocks, hcount, hfound, hsize⟩ := takeSfdp_reads hcanon hf
    have hframe : Only [.regs, .power, .time, .boot] s (pllLock 7 f s) := (exec_moves (c := .pllLock 7 f) rfl).only
    have heq := pllLock_eq (f := f) hcanon hphase
    have hflash : (takeSfdp f (setLocks 7 s)).flash = s.flash :=
      (takeSfdp_only f _ (setLocks_only 7 s (.refl [.regs, .time, .boot] s) (by simp)) (by simp)).only.2 .flash (by decide)
    have hboot : (takeSfdp f (setLocks 7 s)).boot.sfdp = f := by rw [takeSfdp_usable hf]; rfl
    rw [heq] at hframe
    exact completes_of_eq rfl heq ⟨rfl, hlocks, hcount, hfound, hsize, hboot, slotOrder_congr hflash, hframe, hmoves.only⟩
  · intro b s hcanon hphase horder _
    obtain ⟨hverified, hslot, hruns, hfails⟩ := trySlots_one_reads hcanon b
    have hframe : Only [.regs, .power, .boot] s (imageVerifyDone s) := (exec_moves (c := .imageVerifyDone) rfl).only
    have heq := imageVerifyDone_eq hphase horder
    rw [heq] at hframe
    exact completes_of_eq rfl heq ⟨rfl, hverified, hslot, hruns, hfails, hframe⟩
  · intro r s hcanon hphase
    obtain ⟨hserving, htest, htime, hset, hlevel, -⟩ := judgeSelfTest_completes r hcanon
    have hframe : Only [.regs, .out, .power, .host, .boot] s (selftestDone r s) :=
      (exec_moves (c := .selftestDone r) rfl).only
    have heq := selftestDone_eq hphase r
    have hnow : ({ judgeSelfTest r s with power := { (judgeSelfTest r s).power with phase := .run } } : State).levelNow =
        (judgeSelfTest r s).levelNow := levelNow_congr rfl rfl (fun _ _ => rfl) rfl rfl rfl rfl
    rw [heq] at hframe
    exact completes_of_eq rfl heq ⟨rfl, hserving, htest, htime, hset, hlevel.trans hnow.symm, hframe⟩
  · intro l₁ l₂ s hcanon hphase hfirst hload hsize h1 h2
    obtain ⟨hmem1, hmem2⟩ := calStands_memory (l₂ := l₂) hcanon (calPart_length h1)
    obtain ⟨hloaded, hbaora, hinteg, hlo, hhi⟩ := calStands_reads (l₁ := l₁) (l₂ := l₂) hcanon
    exact completes_of_eq rfl (calLoadDone_eq hphase hfirst hload hsize h1 h2)
      ⟨hmem1, hmem2, hloaded, hbaora, hinteg, hlo, hhi, only_iff.2 (by simp [calStands, calCopy, wrMem]),
        (calStands_moves hcanon).only⟩

end Sys2Proof.Machine
end

section
/-!
PROOFS. Resets.lean: resets, package-fatal faults and boundary scan (R274, R312, R321, R325, R327, R344, R350).
-/

namespace Sys2Proof.Machine

/-! ### The domains outside the always-on one -/

/-- With no fuse command running there is none to cut short. -/
theorem fuseAbort_of_free {s : State} (h : s.fuse.cmd = none) : fuseAbort s = s := by
  unfold fuseAbort
  rw [h]

/-- What a map holds of the keys that stay. -/
theorem smGet_filter {α : Type} [DecidableEq α] {d : Nat → α} {m : SMap α} (h : smWf d m = true) {p : Nat → Bool} {k : Nat}
    (hk : p k = true) (e : α) : smGet e (m.filter (fun q => p q.1)) k = smGet e m k := by
  induction m with
  | nil => rfl
  | cons q m ih =>
    obtain ⟨j, w⟩ := q
    have hrest := ih (smWf_tail h)
    by_cases hj : p j = true
    · rw [List.filter_cons_of_pos (by simpa using hj), smGet, smGet, hrest]
    · rw [List.filter_cons_of_neg (by simpa using hj), hrest]
      have hne : k ≠ j := by rintro rfl; exact hj hk
      by_cases hlt : k < j
      · have hbelow : smGet e m k = e := smGet_below e fun q hq => hlt.trans (smWf_head_lt h q hq)
        rw [smGet, if_pos hlt, hbelow]
      · rw [smGet, if_neg hlt, if_neg hne]

/-- Keys that go read as the default. -/
theorem smGet_filter_of_gone {α : Type} (m : SMap α) {p : Nat → Bool} {k : Nat} (hk : p k = false) (e : α) :
    smGet e (m.filter (fun q => p q.1)) k = e := by
  induction m with
  | nil => rfl
  | cons q m ih =>
    obtain ⟨j, w⟩ := q
    by_cases hj : p j = true
    · have hne : k ≠ j := by rintro rfl; rw [hj] at hk; simp at hk
      rw [List.filter_cons_of_pos (by simpa using hj), smGet, ih]
      simp [hne]
    · rw [List.filter_cons_of_neg (by simpa using hj), ih]

/-- Words of the TIME and PWR blocks but for TIME_ALIGN. -/
def aonKeeps (off : Nat) : Bool := decide (0x2000 ≤ off ∧ off < 0x4000 ∧ off ≠ 0x2040)

theorem aonRegs_eq (m : SMap Word) : aonRegs m = m.filter (fun q => aonKeeps q.1) := rfl

section DomainReset

variable {s u : State} (h : Canon u) (ph : Phase) (hfree : u.fuse.cmd = none)

include hfree in
/-- The power sequence stands in its new phase. -/
theorem domainReset_power : (domainReset ph u).power = { u.power with phase := ph } := by
  unfold domainReset
  rw [fuseAbort_of_free hfree]

include hfree in
theorem domainReset_fuse : (domainReset ph u).fuse = { u.fuse with shadow := [], cmd := none } := by
  unfold domainReset
  rw [fuseAbort_of_free hfree]

include hfree in
theorem domainReset_regs : (domainReset ph u).regs = aonRegs u.regs := by
  unfold domainReset
  rw [fuseAbort_of_free hfree]

include hfree in
theorem domainReset_belt : (domainReset ph u).time.belt = u.time.belt := by
  unfold domainReset
  rw [fuseAbort_of_free hfree]

include hfree in
theorem domainReset_flash : (domainReset ph u).flash = u.flash := by
  unfold domainReset
  rw [fuseAbort_of_free hfree]

theorem domainReset_canon : Canon u → Canon (domainReset ph u) :=
  (domainReset_only ph u (.refl _ u) (List.Subset.refl _)).canon

include h hfree

/-- The reset of the domains keeps what it is to keep. -/
theorem domainsReset_domainReset (hbelt : u.time.belt = s.time.belt) (hcopies : u.fuse.copies = s.fuse.copies)
    (hflash : u.flash = s.flash) (hregs : ∀ off, 0x2000 ≤ off → off < 0x4000 → off ≠ Reg.timeAlign → u.reg off = s.reg off) :
    DomainsReset s (domainReset ph u) := by
  have hreg (off : Nat) : (domainReset ph u).reg off = smGet (resetVal off) (aonRegs u.regs) off := by
    rw [State.reg, domainReset_regs ph hfree]
  refine ⟨rfl, rfl, rfl, rfl, rfl, rfl, rfl, ?_, ?_, ?_, ?_, fun off hlo hhi hne => ?_⟩
  · rw [domainReset_belt ph hfree, hbelt]
  · rw [domainReset_fuse ph hfree]
    exact hcopies
  · rw [domainReset_flash ph hfree, hflash]
  · rw [hreg, aonRegs_eq, smGet_filter_of_gone _ (by decide)]
  · rw [hreg, aonRegs_eq, smGet_filter h.regs (by simpa [aonKeeps] using ⟨hlo, hhi, hne⟩)]
    exact hregs off hlo hhi hne

end DomainReset

/-! ### The way to the PLLs (R321) -/

/-- The region checks rest on the fuse copies alone. -/
theorem regionOk_congr {s t : State} (h : t.fuse.copies = s.fuse.copies) : regionOk t = regionOk s := by
  have hword : t.fuseWord = s.fuseWord := by
    funext w
    simp only [State.fuseWord, h]
  unfold regionOk
  rw [hword]

/-- With both rail groups good, the sequence starts at fuse sensing. -/
theorem startSequence_of_good {s : State} (ha : s.power.pgoodA = true) (hb : s.power.pgoodB = true) :
    startSequence s = senseFuses s := if_pos (by rw [ha, hb]; rfl)

section Sensing

variable {s u : State} (hid : nthD false (regionOk u) 0 = true) (hpatch : nthD false (regionOk u) 4 = true)

include hid hpatch

/-- Sensing with good identity and patches goes on to the PLLs. -/
theorem senseFuses_power : (senseFuses u).power = { u.power with phase := .locking } := by
  rw [senseFuses_good hid hpatch, startLocking_power, sensedTrims_power, sensedStatus, takeShadow_power]

theorem senseFuses_copies : (senseFuses u).fuse.copies = u.fuse.copies := by
  rw [senseFuses_good hid hpatch, startLocking_fuse, sensedTrims_fuse, sensedStatus, takeShadow_fuse]

/-- Of time, sensing changes the MULT in force alone. -/
theorem senseFuses_belt : (senseFuses u).time.belt = u.time.belt := by
  have hpatches : (sensedPatches u).time = (sensedStatus u).time := (sensedPatches_only u).2 .time (by decide)
  have htables : (sensedTables u).time = (sensedPatches u).time :=
    (senseArrays_only _ _ (.refl [.regs] _) (by simp)).only.2 .time (by decide)
  have hkeys : (sensedId u).time = (sensedTables u).time := by
    unfold sensedId
    generalize sensedTables u = v
    rfl
  rw [senseFuses_good hid hpatch, startLocking_time, sensedTrims, takeTrims_belt, hkeys, htables, hpatches, sensedStatus,
    takeShadow_time]

/-- Sensing changes no register of the TIME and PWR blocks. -/
theorem senseFuses_keeps (h : Canon u) {off : Nat} (hlo : 0x2000 ≤ off) (hhi : off < 0x4000) :
    (senseFuses u).reg off = u.reg off := by
  rw [senseFuses_good hid hpatch, startLocking_reg, (sensedTrims_moves h).only off, (sensedId_moves h).only off,
    (sensedTables_moves h).only off, sensedStatus, (takeShadow_moves h ..).only off]
  · simp only [Reg.fuseStatus, List.mem_singleton]
    omega
  · rw [List.mem_append, not_or]
    refine ⟨?_, not_mem_arrayRegs (by omega)⟩
    simp only [Reg.fuseLifecycle, Reg.fusePatch, Reg.fuseDisagree, Reg.bootFloor, List.mem_cons, List.not_mem_nil, or_false, not_or]
    omega
  · simp only [Reg.idDevice, Reg.idSerialLo, Reg.idSerialHi, List.mem_cons, List.not_mem_nil, or_false, not_or]
    omega
  · simp only [Reg.serveAdpStatus, Reg.clkCoreCfg, List.mem_cons, List.not_mem_nil, or_false, not_or]
    omega

theorem senseFuses_serving : (senseFuses u).boot.serving = u.boot.serving := by
  have hboot : (sensedTrims u).boot = (sensedStatus u).boot := (sensedTrims_only u).2 .boot (by decide)
  rw [senseFuses_good hid hpatch, startLocking_boot, hboot, sensedStatus, takeShadow_serving]

/-- Sensing after a reset of the domains undoes none of it. -/
theorem DomainsReset.senseFuses (h : DomainsReset s u) (hcanon : Canon u) : DomainsReset s (senseFuses u) := by
  obtain ⟨hhost, hcores, hknots, hmem, hweave, hreqs, hserving, hbelt, hcopies, hflash, halign, hregs⟩ := h
  have honly := (senseFuses_only u (.refl [.regs, .out, .power, .time, .fuse, .boot] u) (by simp)).only.2
  refine ⟨(honly .host (by decide)).trans hhost, (honly .cores (by decide)).trans hcores,
    (honly .knots (by decide)).trans hknots, (honly .mem (by decide)).trans hmem,
    (honly .weave (by decide)).trans hweave, ?_, (senseFuses_serving hid hpatch).trans hserving,
    (senseFuses_belt hid hpatch).trans hbelt, (senseFuses_copies hid hpatch).trans hcopies,
    (honly .flash (by decide)).trans hflash, ?_, fun off hlo hhi hne => ?_⟩
  · have hserve : (Machine.senseFuses u).serve = u.serve := honly .serve (by decide)
    rw [hserve, hreqs]
  · rw [senseFuses_keeps hid hpatch hcanon (by decide) (by decide), halign]
  · rw [senseFuses_keeps hid hpatch hcanon hlo hhi, hregs off hlo hhi hne]

end Sensing

/-- A reset of the domains of a package in Run, and the sequence up to the PLLs. -/
theorem domainReset_start {s u : State} (h : Canon u) (ph : Phase) (hfree : u.fuse.cmd = none)
    (ha : u.power.pgoodA = true) (hb : u.power.pgoodB = true) (hid : nthD false (regionOk u) 0 = true)
    (hpatch : nthD false (regionOk u) 4 = true) (hreset : DomainsReset s (domainReset ph u)) :
    (startSequence (domainReset ph u)).power.phase = .locking ∧ DomainsReset s (startSequence (domainReset ph u)) := by
  have hpower := domainReset_power ph hfree
  have hregion : regionOk (domainReset ph u) = regionOk u := regionOk_congr (by rw [domainReset_fuse ph hfree])
  rw [startSequence_of_good (by rw [hpower]; exact ha) (by rw [hpower]; exact hb)]
  rw [← hregion] at hid hpatch
  exact ⟨by rw [senseFuses_power hid hpatch], hreset.senseFuses hid hpatch (domainReset_canon ph h)⟩

/-- The domains of a state, reset from that state. -/
theorem domainsReset_self {s : State} (h : Canon s) (ph : Phase) (hfree : s.fuse.cmd = none) :
    DomainsReset s (domainReset ph s) :=
  domainsReset_domainReset h ph hfree rfl rfl rfl fun _ _ _ _ => rfl

/-- A warm reset in Run. -/
theorem warmReset_completes {s : State} (h : Canon s) (hphase : s.power.phase = .run) (ha : s.power.pgoodA = true)
    (hb : s.power.pgoodB = true) (hfree : s.fuse.cmd = none) (hid : nthD false (regionOk s) 0 = true)
    (hpatch : nthD false (regionOk s) 4 = true) :
    (warmReset s).power.phase = .locking ∧ DomainsReset s (warmReset s) := by
  have hwarm : warmReset s = startSequence (domainReset .run s) := by
    unfold warmReset
    rw [hphase]
  rw [hwarm]
  exact domainReset_start h .run hfree ha hb hid hpatch (domainsReset_self h .run hfree)

/-! ### Package-fatal faults (R274, R344) -/

/-- A fault's record reports in the ERR register of its code, and may be counted as a lost EVENT. -/
theorem RegMoves.logFault {offs : List Nat} {s t : State} (h : RegMoves offs s t) (f : FaultReport)
    (hoff : ∀ r, errReg f.code (faultCore f) = some r → r ∈ offs) (hlost : Reg.hostEvtLost ∈ offs) :
    RegMoves offs s (logFault f t) := by
  unfold Machine.logFault
  refine RegMoves.postEventAt ?_ _ _ _ hoff hlost
  exact h.congr rfl

theorem logFault_frame (f : FaultReport) (s : State) : Moves [.regs, .out, .host, .fault] s (logFault f s) :=
  logFault_only f s (.refl _ s) (List.Subset.refl _)

/-- Every port of a package-fatal package is held. -/
def holdPorts (b : BasketState) (s : State) : State :=
  { s with basket := { s.basket with pn := holdPort b.pn, pe := holdPort b.pe, ps := holdPort b.ps, pw := holdPort b.pw } }

/-- With no weave running there is nothing to halt. -/
theorem packageFault_of_idle {s : State} (hidle : s.weave.run = none) (f : FaultReport) (ph : Phase) :
    packageFault f ph s = holdPorts s.basket (domainReset ph (logFault f s)) := by
  have hweave : (logFault f s).weaveRuns = false := by
    have hsame : (logFault f s).weave = s.weave := (logFault_frame f s).only.2 .weave (by decide)
    rw [State.weaveRuns, hsame, hidle]
    rfl
  have hbasket : (logFault f s).basket = s.basket := (logFault_frame f s).only.2 .basket (by decide)
  unfold packageFault holdPorts
  simp only [hweave, Bool.false_and, Bool.false_eq_true, if_false, hbasket]

theorem holdPorts_port (s : State) (b : BasketState) (p : Port) :
    (holdPorts b s).port p = holdPort (State.port { s with basket := b } p) := by cases p <;> rfl

/-- Held ports besides, the domains stay reset. -/
theorem DomainsReset.holdPorts {s t : State} (h : DomainsReset s t) (b : BasketState) : DomainsReset s (holdPorts b t) := h

section PackageFatal

variable {s : State} (h : Canon s) (hfree : s.fuse.cmd = none) (f : FaultReport)
  (herr : ∀ r, errReg f.code (faultCore f) = some r → r = Reg.faultErr ∨ r = Reg.idErr ∨ r = Reg.thermErr)

include h hfree herr

/-- A fault's record touches nothing that the reset of the domains keeps. -/
theorem domainsReset_logFault (ph : Phase) : DomainsReset s (domainReset ph (logFault f s)) := by
  have hframe := logFault_frame f s
  have hfuse : (logFault f s).fuse = s.fuse := hframe.only.2 .fuse (by decide)
  have hlog := (RegMoves.refl [Reg.faultErr, Reg.idErr, Reg.thermErr, Reg.hostEvtLost] h.regs).logFault f
    (fun r hr => by rcases herr r hr with rfl | rfl | rfl <;> simp) (by simp)
  refine domainsReset_domainReset (hframe.canon h) ph (by rw [hfuse, hfree]) ?_ (by rw [hfuse]) ?_ ?_
  · have htime : (logFault f s).time = s.time := hframe.only.2 .time (by decide)
    rw [htime]
  · exact hframe.only.2 .flash (by decide)
  · intro off hlo hhi _
    refine hlog.only off ?_
    simp only [Reg.faultErr, Reg.idErr, Reg.thermErr, Reg.hostEvtLost, List.mem_cons, List.not_mem_nil, or_false, not_or]
    omega

variable (hidle : s.weave.run = none)

include hidle

/-- A package-fatal cause in Run: the domains are reset, the ports held, and the sequence goes on to the PLLs. -/
theorem packageFatal_completes (hphase : s.power.phase = .run) (ha : s.power.pgoodA = true) (hb : s.power.pgoodB = true)
    (hid : nthD false (regionOk s) 0 = true) (hpatch : nthD false (regionOk s) 4 = true) :
    (packageFatal f s).power.phase = .locking ∧ DomainsReset s (packageFatal f s) ∧
    ∀ p, (packageFatal f s).port p = holdPort (s.port p) := by
  have hframe := logFault_frame f s
  have hfuse : (logFault f s).fuse = s.fuse := hframe.only.2 .fuse (by decide)
  have hpower : (logFault f s).power = s.power := hframe.only.2 .power (by decide)
  have hcmd : (logFault f s).fuse.cmd = none := by rw [hfuse, hfree]
  have hfatal : packageFatal f s = startSequence (holdPorts s.basket (domainReset .fatal (logFault f s))) := by
    unfold packageFatal
    rw [hphase, ← packageFault_of_idle hidle]
  have hreset := (domainsReset_logFault h hfree f herr .fatal).holdPorts s.basket
  have hcanon : Canon (holdPorts s.basket (domainReset .fatal (logFault f s))) :=
    { domainReset_canon .fatal (hframe.canon h) with }
  have hpower' : (holdPorts s.basket (domainReset .fatal (logFault f s))).power = { s.power with phase := .fatal } := by
    rw [← hpower]
    exact domainReset_power .fatal hcmd
  have hregion : regionOk (holdPorts s.basket (domainReset .fatal (logFault f s))) = regionOk s := by
    refine regionOk_congr ?_
    have hcopies : (domainReset .fatal (logFault f s)).fuse.copies = (logFault f s).fuse.copies := by
      rw [domainReset_fuse .fatal hcmd]
    rw [← hfuse, ← hcopies]
    rfl
  have hports (p : Port) := holdPorts_port (domainReset .fatal (logFault f s)) s.basket p
  rw [hfatal]
  revert hreset hcanon hpower' hregion hports
  generalize holdPorts s.basket (domainReset .fatal (logFault f s)) = u
  intro hreset hcanon hpower' hregion hports
  rw [← hregion] at hid hpatch
  rw [startSequence_of_good (by rw [hpower']; exact ha) (by rw [hpower']; exact hb)]
  refine ⟨by rw [senseFuses_power hid hpatch], hreset.senseFuses hid hpatch hcanon, fun p => ?_⟩
  have hbasket : (senseFuses u).basket = u.basket :=
    (senseFuses_only u (.refl [.regs, .out, .power, .time, .fuse, .boot] u) (by simp)).only.2 .basket (by decide)
  have hport : (senseFuses u).port p = u.port p := by cases p <;> simp only [State.port, hbasket]
  rw [hport, hports]
  cases p <;> rfl

end PackageFatal

/-! ### Boundary scan (R350) -/

/-- An instruction that takes the pins of an idle package holds it with its domains reset. -/
theorem bscanInstruction_eq {s : State} (hphase : s.power.phase = .run) (hidle : s.weave.run = none) (ir : BitVec 4) :
    bscanInstruction ir s =
      if scanTakesPins ir then domainReset .heldScan { s with power := { s.power with ir := ir } }
      else { s with power := { s.power with ir := ir } } := by
  have hweave : ({ s with power := { s.power with ir := ir } } : State).weaveRuns = false := by
    simp [State.weaveRuns, hidle]
  unfold bscanInstruction
  rw [hphase]
  dsimp only
  rw [hweave, if_neg Bool.false_ne_true]

theorem bscanInstruction_completes {s : State} (h : Canon s) (hphase : s.power.phase = .run) (hidle : s.weave.run = none)
    (hfree : s.fuse.cmd = none) (ir : BitVec 4) : (bscanInstruction ir s).power.ir = ir ∧
    (scanTakesPins ir = true →
      (bscanInstruction ir s).power.phase = .heldScan ∧ DomainsReset s (bscanInstruction ir s)) ∧
    (scanTakesPins ir = false →
      (bscanInstruction ir s).power.phase = .run ∧ Only [.power] s (bscanInstruction ir s)) := by
  rw [bscanInstruction_eq hphase hidle]
  cases htakes : scanTakesPins ir with
  | false =>
    rw [if_neg Bool.false_ne_true]
    exact ⟨rfl, fun htrue => absurd htrue Bool.false_ne_true, fun _ => ⟨hphase, only_iff.2 (by simp)⟩⟩
  | true =>
    rw [if_pos rfl]
    have hcanon : Canon { s with power := { s.power with ir := ir } } := { h with }
    have hpower := domainReset_power (u := { s with power := { s.power with ir := ir } }) .heldScan hfree
    refine ⟨by rw [hpower], fun _ => ⟨by rw [hpower], ?_⟩, fun hfalse => absurd hfalse.symm Bool.false_ne_true⟩
    exact domainsReset_domainReset hcanon .heldScan hfree rfl rfl rfl fun _ _ _ _ => rfl

/-- Test-Logic-Reset lets a held package go on to its PLLs. -/
theorem testLogicReset_completes {s : State} (hphase : s.power.phase = .heldScan) (ha : s.power.pgoodA = true)
    (hb : s.power.pgoodB = true) (hid : nthD false (regionOk s) 0 = true) (hpatch : nthD false (regionOk s) 4 = true) :
    (testLogicReset s).power = { s.power with ir := 0xF, phase := .locking } := by
  have hrun : testLogicReset s = startSequence { s with power := { s.power with ir := 0xF } } := by
    unfold testLogicReset
    dsimp only
    rw [hphase]
  have hregion : regionOk { s with power := { s.power with ir := 0xF } } = regionOk s := regionOk_congr rfl
  rw [← hregion] at hid hpatch
  rw [hrun, startSequence_of_good (by exact ha) (by exact hb), senseFuses_power hid hpatch]

/-! ### RAISE_FLOOR and PAIR_OVERRIDE (R325, R327) -/

/-- RAISE_FLOOR is a CTR_SET of counter 0 by the steward. -/
theorem raiseFloor_eq {s : State} (hserved : Served s) (hruns : s.fld Reg.bootStatus 0 2 ≠ 0)
    (htested : s.flag Reg.bootStatus 2 = false) (habove : s.floorVal < s.boot.secVer) :
    raiseFloor 2 s = fuseCommand 6 0 (BitVec.ofNat 32 s.boot.secVer) true true s := by
  have hmany : bootMany 2 = false := by decide
  have hbit : (2 : BitVec 4).getLsbD 1 = true := by decide
  simp only [raiseFloor, answers_of_served hserved, hmany, hbit, if_neg hruns, htested, if_neg (Nat.not_le.2 habove),
    Bool.not_true, Bool.false_eq_true, if_false]

theorem raiseFloor_completes {s : State} (h : Canon s) (hserved : Served s) (hruns : s.fld Reg.bootStatus 0 2 ≠ 0)
    (htested : s.flag Reg.bootStatus 2 = false) (hfree : s.fuse.cmd = none) (hlc : s.lifecycle ≤ 3)
    (hcond : fuseConditions true s = true) (habove : s.floorVal < s.boot.secVer) (htop : s.boot.secVer ≤ 256) :
    raiseFloor 2 s = { s.setFlag Reg.fuseStatus 0 true with fuse := { s.fuse with
      cmd := some ⟨6, 0, BitVec.ofNat 32 s.boot.secVer, true, counterPlan 0 s.boot.secVer⟩ } } ∧
    RegMoves [Reg.fuseStatus] s (raiseFloor 2 s) := by
  have htarget : (BitVec.ofNat 32 s.boot.secVer).toNat = s.boot.secVer := by
    rw [BitVec.toNat_ofNat, Nat.mod_eq_of_lt (by omega)]
  have hjudge : fuseJudge 6 0 (BitVec.ofNat 32 s.boot.secVer) true true s = .ok (counterPlan 0 s.boot.secVer) := by
    have hctr := fuseJudge_ctrSet (w := 0) (d := BitVec.ofNat 32 s.boot.secVer) (steward := true) hfree (by decide) hlc hcond
      (by rw [htarget]; exact Nat.le_of_lt habove) (by rw [htarget]; exact htop)
    rwa [htarget] at hctr
  have heq := fuseCommand_accepted (w := 0) (by decide) hjudge
  rw [raiseFloor_eq hserved hruns htested habove]
  refine ⟨heq, ?_⟩
  rw [show (0 : Nat) = (0 : BitVec 9).toNat from rfl, heq]
  exact ((RegMoves.refl [Reg.fuseStatus] h.regs).setFlag 0 true (by simp)).congr rfl

/-- An accepted override is kept, and the level is judged anew. -/
theorem pairOverride_eq {s : State} (hserved : Served s) (hlc : s.lifecycle = 1) (huntested : s.flag Reg.bootStatus 2 = true) :
    pairOverride s = setLevel ((s.setFlag Reg.bootCtl 0 true).setFlag Reg.bootStatus 3 true) := by
  simp [pairOverride, answers_of_served hserved, hlc, huntested]

theorem pairOverride_completes {s : State} (h : Canon s) :
    let t := setLevel ((s.setFlag Reg.bootCtl 0 true).setFlag Reg.bootStatus 3 true)
    t.flag Reg.bootCtl 0 = true ∧ t.flag Reg.bootStatus 3 = true ∧ t.flag Reg.idStatus 3 = true ∧ t.level = t.levelNow ∧
    Only [.regs] s t ∧ RegsOnly [Reg.bootCtl, Reg.bootStatus, Reg.idStatus] s t := by
  have h1 := setFlag_wf h.regs Reg.bootCtl 0 true
  have h2 := setFlag_wf h1 Reg.bootStatus 3 true
  obtain ⟨hmoves, hset, hlevel⟩ := setLevel_reads h2
  have hnow : (setLevel ((s.setFlag Reg.bootCtl 0 true).setFlag Reg.bootStatus 3 true)).levelNow =
      ((s.setFlag Reg.bootCtl 0 true).setFlag Reg.bootStatus 3 true).levelNow :=
    levelNow_congr (hmoves.only _ (by decide)) (hmoves.only _ (by decide))
      (fun n a => hmoves.only _ (arrayStatus_not_mem (by decide) n a)) rfl rfl rfl rfl
  refine ⟨?_, ?_, hset, hlevel.trans hnow.symm, ?_, ?_⟩
  · rw [State.flag, hmoves.only _ (by decide), ← State.flag, flag_setFlag_reg_ne h1 (by decide),
      flag_setFlag h.regs _ _ _ (by decide)]
  · rw [State.flag, hmoves.only _ (by decide), ← State.flag, flag_setFlag h1 _ _ _ (by decide)]
  · exact (setLevel_only _ (State_setFlag_only _ _ _ _ (State_setFlag_only _ _ _ _ (.refl [.regs] s) (by simp))
      (by simp)) (by simp)).only
  · have hflags : RegMoves [Reg.bootCtl, Reg.bootStatus, Reg.idStatus] s
        ((s.setFlag Reg.bootCtl 0 true).setFlag Reg.bootStatus 3 true) :=
      ((RegMoves.refl _ h.regs).setFlag 0 true (by simp)).setFlag 3 true (by simp)
    exact (hflags.trans (hmoves.mono (by simp))).only

/-- Settles O7: the reset of the domains, the way from it to the PLLs, and the two BOOT commands. -/
theorem resetsComplete : Obligations.ResetsComplete := by
  refine ⟨?_, ?_, ?_, ?_, ?_, ?_, ?_, ?_⟩
  · intro s
    have habort := (fuseAbort_only s (.refl [.freeCtr, .fuse] s) (by simp)).only
    exact completes_of_next rfl ⟨rfl, rfl, rfl, rfl, rfl, rfl, rfl, rfl, rfl, rfl, rfl, habort.2 .flash (by decide), habort.1⟩
  · intro s hcanon hanchor hphase ha hb hfree hid hpatch
    exact completes_of_eq rfl (if_pos hanchor) (warmReset_completes hcanon hphase ha hb hfree hid hpatch)
  · intro s hcanon hserved ha hb hfree hid hpatch
    have hmany : bootMany 1 = false := by decide
    have hbit : (1 : BitVec 4).getLsbD 0 = true := by decide
    have hreboot : bootReboot 1 s = warmReset s := by
      simp only [bootReboot, answers_of_served hserved, hmany, hbit, Bool.not_true, Bool.false_eq_true, if_false, if_true]
    exact completes_of_eq rfl hreboot (warmReset_completes hcanon hserved.1 ha hb hfree hid hpatch)
  · intro s hcanon hphase ha hb hfree hid hpatch hidle
    have hrail : railFault s = packageFatal ⟨eFaultRail, 3, 9, 0, 0⟩ s := by
      unfold railFault
      rw [hphase]
    refine ⟨completes_of_next rfl (packageFatal_completes hcanon hfree _ (fun r hr => .inl ?_) hidle hphase ha hb hid hpatch),
      completes_of_eq rfl hrail (packageFatal_completes hcanon hfree _ (fun r hr => .inl ?_) hidle hphase ha hb hid hpatch),
      completes_of_next rfl (packageFatal_completes hcanon hfree _ (fun r hr => ?_) hidle hphase ha hb hid hpatch)⟩
    · exact (Option.some.inj hr).symm
    · exact (Option.some.inj hr).symm
    · cases hr
  · intro ir s hcanon hphase hidle hfree
    exact completes_of_next rfl (bscanInstruction_completes hcanon hphase hidle hfree ir)
  · intro s hphase ha hb hid hpatch
    have hpower := testLogicReset_completes hphase ha hb hid hpatch
    exact completes_of_next rfl ⟨by rw [hpower], by rw [hpower], (exec_moves (c := .testLogicReset) rfl).only⟩
  · intro s hcanon hserved hruns htested hfree hlc hcond habove htop
    obtain ⟨heq, hmoves⟩ := raiseFloor_completes hcanon hserved hruns htested hfree hlc hcond habove htop
    rw [heq] at hmoves
    exact completes_of_eq rfl heq ⟨rfl, flag_setFlag hcanon.regs _ _ _ (by decide), only_iff.2 (by simp), hmoves.only⟩
  · intro s hcanon hserved hlc huntested
    exact completes_of_eq rfl (pairOverride_eq hserved hlc huntested) (pairOverride_completes hcanon)

end Sys2Proof.Machine
end

section
/-!
PROOFS. Power.lean: Doze, Slumber and the wakes from them (R287 to R295), and the throttle order (R95, R296 to R300).
-/

namespace Sys2Proof.Machine

/-! ### Operations on every port -/

/-- An operation that treats each port by itself, done on all four. -/
theorem foldl_allPorts_port {f : State → Port → State} {g : Port → State → LinkPort}
    (hsame : ∀ s p, (f s p).port p = g p s) (hother : ∀ s p q, q ≠ p → (f s p).port q = s.port q)
    (hkeep : ∀ s p q, q ≠ p → g q (f s p) = g q s) (s : State) (q : Port) : (allPorts.foldl f s).port q = g q s := by
  have hrun : allPorts.foldl f s = f (f (f (f s .n) .e) .s) .w := rfl
  rw [hrun]
  cases q
  · rw [hother _ _ _ (by decide), hother _ _ _ (by decide), hother _ _ _ (by decide), hsame]
  · rw [hother _ _ _ (by decide), hother _ _ _ (by decide), hsame, hkeep _ _ _ (by decide)]
  · rw [hother _ _ _ (by decide), hsame, hkeep _ _ _ (by decide), hkeep _ _ _ (by decide)]
  · rw [hsame, hkeep _ _ _ (by decide), hkeep _ _ _ (by decide), hkeep _ _ _ (by decide)]

/-- Every port goes to sleep by its own WHISPER_EN and state. -/
theorem sleepPorts_port (s : State) (p : Port) :
    (sleepPorts s).port p = sleepPort (s.flag (Reg.withyPCfg (portNum p)) 1) (s.port p) := by
  have hsend (u : State) (p q : Port) (m : WhisperMsg) :
      (if (u.port p).state == .off then u else u.emit (.whisper p m)).port q = u.port q := by
    split <;> rfl
  have hregs (u : State) (p : Port) (m : WhisperMsg) :
      (if (u.port p).state == .off then u else u.emit (.whisper p m)).regs = u.regs := by
    split <;> rfl
  refine foldl_allPorts_port (g := fun p s => sleepPort (s.flag (Reg.withyPCfg (portNum p)) 1) (s.port p)) ?_ ?_ ?_ s p
  · intro u q
    rw [setPort_port, hsend]
  · intro u q r hne
    rw [setPort_port_ne _ _ _ _ hne, hsend]
  · intro u q r hne
    have hflag : ((if (u.port q).state == .off then u else u.emit (.whisper q (whisperMsg 3 0 0))).setPort q
        (sleepPort (u.flag (Reg.withyPCfg (portNum q)) 1)
          ((if (u.port q).state == .off then u else u.emit (.whisper q (whisperMsg 3 0 0))).port q))).flag
          (Reg.withyPCfg (portNum r)) 1 = u.flag (Reg.withyPCfg (portNum r)) 1 := by
      rw [State.flag, reg_eq_of_regs_eq (setPort_regs ..), reg_eq_of_regs_eq (hregs ..), State.flag]
    dsimp only
    rw [hflag, setPort_port_ne _ _ _ _ hne, hsend]

/-- A port that sleeps is OFF or whispers. -/
theorem sleepPort_state (we : Bool) (x : LinkPort) : (sleepPort we x).state = .off ∨ (sleepPort we x).state = .whisper := by
  unfold sleepPort
  dsimp only
  split
  · exact .inr rfl
  · exact .inl rfl

theorem sleepPorts_frame (s : State) : Moves [.out, .basket] s (sleepPorts s) :=
  sleepPorts_only s (.refl _ s) (List.Subset.refl _)

theorem sleepPorts_regs (s : State) : (sleepPorts s).regs = s.regs :=
  ((sleepPorts_frame s).only.2 .regs (by decide)).1

/-! ### Sleep (R288, R289) -/

theorem enterDoze_eq {s : State} (hphase : s.power.phase = .run) (hidle : s.weave.run = none) :
    enterDoze s = setPhase .enteringDoze s := by
  have hweave : s.weaveRuns = false := by rw [State.weaveRuns, hidle]; rfl
  unfold enterDoze
  rw [hphase]
  dsimp only
  rw [hweave, if_neg Bool.false_ne_true]

theorem enterSlumber_eq {s : State} (hphase : s.power.phase = .run) (hidle : s.weave.run = none)
    (hbusy : s.slumberBusy = false) (hsource : s.fld Reg.pwrWakeCfg 0 4 ≠ 0)
    (htimer : s.flag Reg.pwrWakeCfg 2 = true → s.nowNs < s.pair Reg.pwrWakeAtLo Reg.pwrWakeAtHi) :
    enterSlumber s = setPhase .enteringSlumber s := by
  have hweave : s.weaveRuns = false := by rw [State.weaveRuns, hidle]; rfl
  have hpast : (s.flag Reg.pwrWakeCfg 2 && decide (s.pair Reg.pwrWakeAtLo Reg.pwrWakeAtHi ≤ s.nowNs)) = false := by
    cases htime : s.flag Reg.pwrWakeCfg 2 with
    | false => rfl
    | true => simpa using htimer htime
  unfold enterSlumber
  rw [hphase]
  dsimp only
  rw [hweave, hbusy, if_neg Bool.false_ne_true, if_neg Bool.false_ne_true, if_neg hsource, hpast,
    if_neg Bool.false_ne_true]

/-- PWR_SLEEPS has counted the entry, and every port sleeps. -/
def sleepCounted (s : State) : State := sleepPorts (s.setReg Reg.pwrSleeps (s.reg Reg.pwrSleeps + 1))

theorem sleepCounted_frame (s : State) : Moves [.regs, .out, .basket] s (sleepCounted s) :=
  sleepPorts_only _ (State_setReg_only s _ _ (.refl [.regs, .out, .basket] s) (by simp)) (by simp)

theorem sleepCounted_wf {s : State} (h : smWf resetVal s.regs = true) : smWf resetVal (sleepCounted s).regs = true := by
  rw [sleepCounted, sleepPorts_regs]
  exact setReg_wf h _ _

theorem sleepCounted_reg {s : State} (h : smWf resetVal s.regs = true) :
    (sleepCounted s).reg Reg.pwrSleeps = s.reg Reg.pwrSleeps + 1 := by
  rw [sleepCounted, reg_eq_of_regs_eq (sleepPorts_regs _), reg_setReg h]

theorem entryComplete_doze {s : State} (hphase : s.power.phase = .enteringDoze) (hflights : s.host.flights = []) :
    entryComplete s = dozeNow (sleepCounted s) := by
  unfold entryComplete
  rw [hphase, hflights]
  rfl

theorem entryComplete_slumber {s : State} (hphase : s.power.phase = .enteringSlumber) (hflights : s.host.flights = []) :
    entryComplete s = slumberNow (sleepCounted s) := by
  unfold entryComplete
  rw [hphase, hflights]
  rfl

/-- Words of the power domain that Doze keeps. -/
def dozeKeeps (off : Nat) : Bool := decide (¬(0xC000 ≤ off ∧ off < 0xD000) ∧ ¬(0x10000 ≤ off ∧ off < 0x11000))

theorem losePads_regs (s : State) : (losePads s).regs = s.regs.filter (fun q => dozeKeeps q.1) := rfl

section Doze

variable {s : State} (h : smWf resetVal s.regs = true)

include h

theorem losePads_wf : smWf resetVal (losePads s).regs = true := by
  rw [losePads_regs]
  exact smWf_filter _ h

/-- The power domain's words stand in Doze. -/
theorem losePads_reg {off : Nat} (hoff : dozeKeeps off = true) : (losePads s).reg off = s.reg off := by
  rw [State.reg, losePads_regs, smGet_filter h hoff, State.reg]

theorem dozeNow_reg {off : Nat} (hoff : dozeKeeps off = true) (hne : off ≠ Reg.clkStatus) :
    (dozeNow s).reg off = s.reg off :=
  (reg_setFld_ne (losePads_wf h) 0 3 0 hne).trans (losePads_reg h hoff)

/-- The PLLs have stopped. -/
theorem dozeNow_locks : (dozeNow s).fld Reg.clkStatus 0 3 = 0 := fld_setFld (losePads_wf h) Reg.clkStatus 0 3 0 (by decide)

end Doze

/-- What Doze leaves of the other parts. -/
theorem dozeNow_power (s : State) : (dozeNow s).power = { s.power with phase := .doze, railA := false, pgoodA := false } := rfl
theorem dozeNow_time (s : State) : (dozeNow s).time = { s.time with cclk := false } := rfl
theorem dozeNow_wfe (s : State) : (dozeNow s).wfe = WfeState.reset := rfl
theorem dozeNow_pix (s : State) : (dozeNow s).pix = PixState.reset := rfl
theorem dozeNow_port (s : State) (p : Port) : (dozeNow s).port p = s.port p := by cases p <;> rfl

/-- The store stands in Doze. -/
theorem dozeNow_rdMem {s : State} (h : Memory.wf s.mem = true) {a : Nat} (ha : 0x1000000 ≤ a) :
    (dozeNow s).rdMem a 1 = s.rdMem a 1 := by
  have hmem : (dozeNow s).mem = s.mem.filter (fun q => (fun k => decide (0x1000000 ≤ k)) q.1) := rfl
  unfold State.rdMem
  rw [hmem, smGetAll_one, smGetAll_one,
    smGet_filter (p := fun k => decide (0x1000000 ≤ k)) (d := fun _ => 0) h (by simpa using ha)]

/-- The entry to Doze ends. -/
theorem entryComplete_doze_completes {s : State} (h : Canon s) (hphase : s.power.phase = .enteringDoze)
    (hflights : s.host.flights = []) :
    (entryComplete s).power = { s.power with phase := .doze, railA := false, pgoodA := false } ∧
    (entryComplete s).reg Reg.pwrSleeps = s.reg Reg.pwrSleeps + 1 ∧ (entryComplete s).fld Reg.clkStatus 0 3 = 0 ∧
    (entryComplete s).wfe = WfeState.reset ∧ (entryComplete s).pix = PixState.reset ∧
    (entryComplete s).time = { s.time with cclk := false } ∧
    (∀ p, ((entryComplete s).port p).state = .off ∨ ((entryComplete s).port p).state = .whisper) ∧
    (∀ a, 0x1000000 ≤ a → (entryComplete s).rdMem a 1 = s.rdMem a 1) := by
  have hframe := (sleepCounted_frame s).only.2
  have hpower : (sleepCounted s).power = s.power := hframe .power (by decide)
  have htime : (sleepCounted s).time = s.time := hframe .time (by decide)
  have hmem : (sleepCounted s).mem = s.mem := hframe .mem (by decide)
  have hwf := sleepCounted_wf h.regs
  rw [entryComplete_doze hphase hflights]
  refine ⟨?_, ?_, dozeNow_locks hwf, dozeNow_wfe _, dozeNow_pix _, ?_, fun p => ?_, fun a ha => ?_⟩
  · rw [dozeNow_power, hpower]
  · rw [dozeNow_reg hwf (by decide) (by decide), sleepCounted_reg h.regs]
  · rw [dozeNow_time, htime]
  · rw [dozeNow_port, sleepCounted, sleepPorts_port]
    exact sleepPort_state _ _
  · rw [dozeNow_rdMem (by rw [hmem]; exact h.mem) ha]
    unfold State.rdMem
    rw [hmem]

/-- In Slumber only the always-on domain runs: what stays of registers is its words and BOOT_FLASH. -/
theorem slumberNow_reg {s : State} (h : smWf resetVal s.regs = true) (hfree : s.fuse.cmd = none) {off : Nat}
    (hoff : aonKeeps off = true) (hne : off ≠ Reg.bootFlash) : (slumberNow s).reg off = s.reg off := by
  have hregs : (slumberNow s).regs = smSet (resetVal Reg.bootFlash) (aonRegs s.regs) Reg.bootFlash (s.reg Reg.bootFlash) := by
    rw [← domainReset_regs .slumber hfree]
    rfl
  have hwf : smWf resetVal (aonRegs s.regs) = true := smWf_filter _ h
  rw [State.reg, hregs, smGet_smSet_ne hwf hne, aonRegs_eq, smGet_filter h hoff, State.reg]

/-- What Slumber keeps of the other parts. -/
theorem slumberNow_rails (s : State) : (slumberNow s).power.railA = false ∧ (slumberNow s).power.railB = false := ⟨rfl, rfl⟩

theorem slumberNow_lost (s : State) :
    (slumberNow s).mem = [] ∧ (slumberNow s).cores = [] ∧ (slumberNow s).weave = WeaveState.reset := ⟨rfl, rfl, rfl⟩

theorem slumberNow_basket (s : State) : (slumberNow s).basket.principal = s.basket.principal ∧
    (slumberNow s).basket.isPrincipal = s.basket.isPrincipal := ⟨rfl, rfl⟩

theorem slumberNow_bme (s : State) : (slumberNow s).host.bme = s.host.bme := rfl

theorem slumberNow_copies_domainReset (s : State) :
    (slumberNow s).fuse.copies = (domainReset .slumber s).fuse.copies := rfl

section SlumberNow

variable {s : State} (hfree : s.fuse.cmd = none)

include hfree

theorem slumberNow_phase : (slumberNow s).power.phase = .slumber :=
  congrArg PowerState.phase (domainReset_power .slumber hfree)

theorem slumberNow_belt : (slumberNow s).time.belt = s.time.belt := domainReset_belt .slumber hfree

theorem slumberNow_copies : (slumberNow s).fuse.copies = s.fuse.copies :=
  (slumberNow_copies_domainReset s).trans (by rw [domainReset_fuse .slumber hfree])

theorem slumberNow_flash : (slumberNow s).flash = s.flash := domainReset_flash .slumber hfree

end SlumberNow

/-- The ports alone go to sleep: who leads the basket stays. -/
theorem sleepPorts_principal (s : State) : (sleepPorts s).basket.principal = s.basket.principal ∧
    (sleepPorts s).basket.isPrincipal = s.basket.isPrincipal := by
  have hone (u : State) (p : Port) (we : Bool) (m : WhisperMsg) :
      ((if (u.port p).state == .off then u else u.emit (.whisper p m)).setPort p
        (sleepPort we ((if (u.port p).state == .off then u else u.emit (.whisper p m)).port p))).basket.principal =
          u.basket.principal ∧
      ((if (u.port p).state == .off then u else u.emit (.whisper p m)).setPort p
        (sleepPort we ((if (u.port p).state == .off then u else u.emit (.whisper p m)).port p))).basket.isPrincipal =
          u.basket.isPrincipal := by
    split <;> cases p <;> exact ⟨rfl, rfl⟩
  have hall (l : List Port) (u : State) :
      (l.foldl (fun s p =>
        let we := s.flag (Reg.withyPCfg (portNum p)) 1
        let s := if (s.port p).state == .off then s else s.emit (.whisper p (whisperMsg 3 0 0))
        s.setPort p (sleepPort we (s.port p))) u).basket.principal = u.basket.principal ∧
      (l.foldl (fun s p =>
        let we := s.flag (Reg.withyPCfg (portNum p)) 1
        let s := if (s.port p).state == .off then s else s.emit (.whisper p (whisperMsg 3 0 0))
        s.setPort p (sleepPort we (s.port p))) u).basket.isPrincipal = u.basket.isPrincipal := by
    induction l generalizing u with
    | nil => exact ⟨rfl, rfl⟩
    | cons p l ih =>
      obtain ⟨h1, h2⟩ := ih _
      obtain ⟨k1, k2⟩ := hone u p (u.flag (Reg.withyPCfg (portNum p)) 1) (whisperMsg 3 0 0)
      exact ⟨h1.trans k1, h2.trans k2⟩
  exact hall allPorts s

/-- The entry to Slumber ends. -/
theorem entryComplete_slumber_completes {s : State} (h : Canon s) (hphase : s.power.phase = .enteringSlumber)
    (hflights : s.host.flights = []) (hfree : s.fuse.cmd = none) :
    (entryComplete s).power.phase = .slumber ∧ (entryComplete s).power.railA = false ∧
    (entryComplete s).power.railB = false ∧ (entryComplete s).reg Reg.pwrSleeps = s.reg Reg.pwrSleeps + 1 ∧
    (entryComplete s).basket.principal = s.basket.principal ∧
    (entryComplete s).basket.isPrincipal = s.basket.isPrincipal ∧ (entryComplete s).host.bme = s.host.bme ∧
    (entryComplete s).mem = [] ∧ (entryComplete s).cores = [] ∧ (entryComplete s).weave = WeaveState.reset ∧
    (entryComplete s).time.belt = s.time.belt ∧ (entryComplete s).fuse.copies = s.fuse.copies ∧
    (entryComplete s).flash = s.flash := by
  have hframe := (sleepCounted_frame s).only.2
  have hhost : (sleepCounted s).host = s.host := hframe .host (by decide)
  have htime : (sleepCounted s).time = s.time := hframe .time (by decide)
  have hfuse : (sleepCounted s).fuse = s.fuse := hframe .fuse (by decide)
  have hflash : (sleepCounted s).flash = s.flash := hframe .flash (by decide)
  have hcmd : (sleepCounted s).fuse.cmd = none := by rw [hfuse, hfree]
  have hbasket := sleepPorts_principal (s.setReg Reg.pwrSleeps (s.reg Reg.pwrSleeps + 1))
  have hreg := slumberNow_reg (sleepCounted_wf h.regs) hcmd (off := Reg.pwrSleeps) (by decide) (by decide)
  rw [entryComplete_slumber hphase hflights]
  exact ⟨slumberNow_phase hcmd, (slumberNow_rails _).1, (slumberNow_rails _).2, hreg.trans (sleepCounted_reg h.regs),
    (slumberNow_basket _).1.trans hbasket.1, (slumberNow_basket _).2.trans hbasket.2,
    (slumberNow_bme _).trans (congrArg HostState.bme hhost), (slumberNow_lost _).1, (slumberNow_lost _).2.1,
    (slumberNow_lost _).2.2, (slumberNow_belt hcmd).trans (congrArg TimeState.belt htime),
    (slumberNow_copies hcmd).trans (congrArg FuseState.copies hfuse), (slumberNow_flash hcmd).trans hflash⟩

/-! ### Wakes (R292, R293, R295) -/

/-- The wake source and the moment of the latch are noted. -/
def wakeNoted (code : Nat) (s : State) : State :=
  { s.setFld Reg.pwrStatus 4 3 code with power := { s.power with latchNs := s.nowNs } }

theorem wakeNoted_moves {s : State} (h : smWf resetVal s.regs = true) (code : Nat) :
    RegMoves [Reg.pwrStatus] s (wakeNoted code s) :=
  ((RegMoves.refl _ h).setFld (off := Reg.pwrStatus) 4 3 code (by simp)).congr rfl

theorem wakeNoted_source {s : State} (h : smWf resetVal s.regs = true) (code : Nat) :
    (wakeNoted code s).fld Reg.pwrStatus 4 3 = code % 8 := fld_setFld h Reg.pwrStatus 4 3 code (by decide)

section Wakes

variable {s : State} (h : smWf resetVal s.regs = true) (hflood : s.flag Reg.pwrWakeCfg 8 = false) (code : Nat)

include h hflood

/-- With FLOOD clear the other packages are not woken. -/
theorem floodWake_wakeNoted : floodWake code (wakeNoted code s) = wakeNoted code s := by
  have hsame : (wakeNoted code s).flag Reg.pwrWakeCfg 8 = false := by
    rw [State.flag, (wakeNoted_moves h code).only _ (by decide), ← State.flag, hflood]
  rw [floodWake, hsame, Bool.not_false, if_pos rfl]

theorem wakeLatch_doze (hphase : s.power.phase = .doze) : wakeLatch code s = setPhase .dozeWaking
    (({ wakeNoted code s with power := { (wakeNoted code s).power with railA := true } } : State).emit
      (.ball .railenA true)) := by
  unfold wakeLatch
  rw [hphase]
  dsimp only
  rw [← wakeNoted, floodWake_wakeNoted h hflood]

theorem wakeLatch_slumber (hphase : s.power.phase = .slumber) :
    wakeLatch code s = setPhase .waking (raiseRails (wakeNoted code s)) := by
  unfold wakeLatch
  rw [hphase]
  dsimp only
  rw [← wakeNoted, floodWake_wakeNoted h hflood]

theorem wakeLatch_enteringDoze (hphase : s.power.phase = .enteringDoze) :
    wakeLatch code s = setPhase .run (wakeNoted code s) := by
  unfold wakeLatch
  rw [hphase]
  dsimp only
  rw [← wakeNoted, floodWake_wakeNoted h hflood]

end Wakes

theorem pcieWake_enabled {s : State} (hanchor : s.anchor = true) (hen : s.flag Reg.pwrWakeCfg 0 = true) :
    pcieWake s = wakeLatch 1 s := by rw [pcieWake, hanchor, hen, Bool.and_self, if_pos rfl]

theorem wakeTimer_due {s : State} (hen : s.flag Reg.pwrWakeCfg 2 = true)
    (hdue : s.pair Reg.pwrWakeAtLo Reg.pwrWakeAtHi ≤ s.nowNs) : wakeTimer s = wakeLatch 3 s := by
  rw [wakeTimer, hen, decide_eq_true hdue, Bool.and_self, if_pos rfl]

theorem fieldInputWake_selected {i : Fin 8} {l : Bool} {s : State} (hen : s.flag Reg.pwrWakeCfg 3 = true)
    (hsel : s.fld Reg.pwrWakeCfg 4 3 = i.val) (hlevel : s.flag Reg.pwrWakeCfg 7 = l) :
    fieldInputWake i l s = wakeLatch 4 s := by
  simp [fieldInputWake, hen, hsel, hlevel]

/-- PWR_WAKE_US stands. -/
theorem wakeUs_fld {s : State} (h : smWf resetVal s.regs = true) :
    (wakeUs s).fld Reg.pwrWakeUs 0 16 = min 65535 ((s.nowNs - s.power.latchNs) / 1000) := by
  rw [wakeUs, fld_setFld h _ _ _ _ (by decide), Nat.mod_eq_of_lt (by omega)]

theorem reportTimeout_of_none {s : State} (h : s.power.timeoutRec = false) : reportTimeout s = s := by
  rw [reportTimeout, h, if_neg Bool.false_ne_true]

theorem setLocks_belt (plls : BitVec 3) (s : State) : (setLocks plls s).time.belt = s.time.belt := by
  unfold setLocks
  dsimp only
  split <;> rfl

/-- A Doze wake, with its PLLs locked. -/
def dozeWoken (s : State) : State := wakeUs (setPhase .run (setLocks 7 s))

theorem dozeWakeComplete_eq {s : State} (hphase : s.power.phase = .dozeWaking) (hdue : s.power.latchNs + 60000 ≤ s.nowNs)
    (hrec : s.power.timeoutRec = false) : dozeWakeComplete s = dozeWoken s := by
  have hpower : (setLocks 7 s).power = s.power :=
    (setLocks_only 7 s (.refl [.regs, .time] s) (by simp)).only.2 .power (by decide)
  unfold dozeWakeComplete
  rw [hphase]
  dsimp only
  rw [if_neg (by omega)]
  exact reportTimeout_of_none ((congrArg PowerState.timeoutRec hpower).trans hrec)

section DozeWoken

variable {s : State} (h : smWf resetVal s.regs = true)

theorem dozeWoken_power : (dozeWoken s).power = { s.power with phase := .run } := by
  have hpower : (setLocks 7 s).power = s.power :=
    (setLocks_only 7 s (.refl [.regs, .time] s) (by simp)).only.2 .power (by decide)
  rw [← hpower]
  rfl

include h

theorem dozeWoken_moves : RegMoves [Reg.clkStatus, Reg.pwrWakeUs] s (dozeWoken s) := by
  have hlocks := (RegMoves.refl [Reg.clkStatus, Reg.pwrWakeUs] h).setLocks 7 (by simp)
  have hrun : RegMoves [Reg.clkStatus, Reg.pwrWakeUs] s (setPhase .run (setLocks 7 s)) := hlocks.congr rfl
  exact hrun.setFld (off := Reg.pwrWakeUs) _ _ _ (by simp)

theorem dozeWoken_reads : (dozeWoken s).fld Reg.clkStatus 0 3 = 7 ∧
    (dozeWoken s).fld Reg.pwrWakeUs 0 16 = min 65535 ((s.nowNs - s.power.latchNs) / 1000) := by
  have hlocks := (RegMoves.refl [Reg.clkStatus] h).setLocks 7 (by simp)
  have hwf : smWf resetVal (setPhase .run (setLocks 7 s)).regs = true := hlocks.wf
  have hpower : (setLocks 7 s).power = s.power :=
    (setLocks_only 7 s (.refl [.regs, .time] s) (by simp)).only.2 .power (by decide)
  have hnow : (setPhase .run (setLocks 7 s)).nowNs = s.nowNs := by
    rw [State.nowNs, State.nowNs, ← setLocks_belt 7 s]
    rfl
  have hlatch : (setPhase .run (setLocks 7 s)).power.latchNs = s.power.latchNs := by rw [← hpower]; rfl
  refine ⟨(fld_setReg_ne hwf _ 0 3 (by decide)).trans (setLocks_all h).1, ?_⟩
  rw [dozeWoken, wakeUs_fld hwf, hnow, hlatch]

end DozeWoken

/-- The self-test of a wake is judged, and the package stands in Run. -/
def wakeJudged (r : SelfTest) (s : State) : State := wakeUs (setPhase .run (judgeSelfTest r (recomputeBeat s)))

/-- The principal stands in its own basket again. -/
def leadAgain (s : State) : State :=
  leadTime { s with basket := { s.basket with joined := true, outsider := false, principal := s.pkg } }

section WakeJudged

variable (r : SelfTest) (s : State)

theorem wakeJudged_frame : Moves [.regs, .out, .host, .boot, .power, .time] s (wakeJudged r s) := by
  have hjudge := judgeSelfTest_only (pts := [.regs, .out, .host, .boot, .power, .time]) r (recomputeBeat s)
    (Moves.updTime (.refl _ s) (by simp)) (by simp)
  exact State_setFld_only _ _ _ _ _ (hjudge.updPower (by simp)) (by simp)

theorem wakeJudged_time : (wakeJudged r s).time = (recomputeBeat s).time :=
  (judgeSelfTest_only r (recomputeBeat s) (.refl [.regs, .out, .host, .boot] _) (by simp)).only.2 .time (by decide)

theorem wakeJudged_power {s : State} (h : Canon s) : (wakeJudged r s).power = { s.power with phase := .run } := by
  have hpower := (judgeSelfTest_completes r (s := recomputeBeat s) { h with }).2.2.2.2.2
  have heq : (wakeJudged r s).power = { (judgeSelfTest r (recomputeBeat s)).power with phase := .run } := rfl
  rw [heq, hpower]
  rfl

theorem wakeJudged_boot {s : State} (h : Canon s) :
    (wakeJudged r s).boot.serving = true ∧ (wakeJudged r s).boot.test = r := by
  obtain ⟨hserving, htest, -⟩ := judgeSelfTest_completes r (s := recomputeBeat s) { h with }
  exact ⟨hserving, htest⟩

theorem wakeJudged_wf {s : State} (h : Canon s) : smWf resetVal (wakeJudged r s).regs = true :=
  ((wakeJudged_frame r s).canon h).regs

theorem wakeJudged_wakeUs {s : State} (h : Canon s) :
    (wakeJudged r s).fld Reg.pwrWakeUs 0 16 = min 65535 ((s.nowNs - s.power.latchNs) / 1000) := by
  have hpower := (judgeSelfTest_completes r (s := recomputeBeat s) { h with }).2.2.2.2.2
  have hjudge := judgeSelfTest_only r (recomputeBeat s) (.refl [.regs, .out, .host, .boot] _) (by simp)
  have hwf : smWf resetVal (setPhase .run (judgeSelfTest r (recomputeBeat s))).regs = true :=
    (hjudge.canon (t := judgeSelfTest r (recomputeBeat s)) (s := recomputeBeat s) { h with }).regs
  have hnow : (setPhase .run (judgeSelfTest r (recomputeBeat s))).nowNs = s.nowNs := by
    have htime : (setPhase .run (judgeSelfTest r (recomputeBeat s))).time = (recomputeBeat s).time :=
      hjudge.only.2 .time (by decide)
    rw [State.nowNs, htime]
    rfl
  have hlatch : (setPhase .run (judgeSelfTest r (recomputeBeat s))).power.latchNs = s.power.latchNs := by
    have heq : (setPhase .run (judgeSelfTest r (recomputeBeat s))).power.latchNs =
      (judgeSelfTest r (recomputeBeat s)).power.latchNs := rfl
    rw [heq, hpower]
    rfl
  rw [wakeJudged, wakeUs_fld hwf, hnow, hlatch]

end WakeJudged

theorem wakeComplete_eq {s : State} (hcanon : Canon s) (hphase : s.power.phase = .waking) (hver : s.boot.verified = true)
    (hclk : s.cclkRuns = true) (hrec : s.power.timeoutRec = false) (hlead : s.basket.isPrincipal = true) (r : SelfTest) :
    wakeComplete r s = leadAgain (wakeJudged r s) := by
  have hnone : (wakeJudged r s).power.timeoutRec = false := by rw [wakeJudged_power r hcanon]; exact hrec
  have hprincipal : (wakeJudged r s).basket.isPrincipal = true := by
    rw [(wakeJudged_frame r s).only.2 .basket (by decide)]
    exact hlead
  unfold wakeComplete
  rw [hphase]
  dsimp only
  rw [hver, hclk, Bool.and_self, if_pos rfl, ← wakeJudged, reportTimeout_of_none hnone]
  exact if_pos hprincipal

section LeadAgain

variable (s : State)

theorem leadAgain_frame : Only [.regs, .basket] s (leadAgain s) := only_iff.2 (by simp [leadAgain, leadTime])

theorem leadAgain_basket : (leadAgain s).basket.joined = true ∧ (leadAgain s).basket.principal = s.pkg := ⟨rfl, rfl⟩

variable {s} (h : smWf resetVal s.regs = true)

include h

theorem leadAgain_moves : RegMoves [Reg.clkStatus, Reg.timeAlign] s (leadAgain s) := by
  have h0 : RegMoves [Reg.clkStatus, Reg.timeAlign] s
      { s with basket := { s.basket with joined := true, outsider := false, principal := s.pkg } } :=
    (RegMoves.refl _ h).congr rfl
  exact ((h0.setFlag (off := Reg.clkStatus) 4 false (by simp)).setFlag (off := Reg.timeAlign) 24 true (by simp)).setFlag
    (off := Reg.timeAlign) 25 true (by simp)

/-- The principal leads belt time and counts as aligned. -/
theorem leadAgain_leads : (leadAgain s).aligned = true ∧ (leadAgain s).flag Reg.clkStatus 4 = false := by
  have h1 : smWf resetVal (State.setFlag
      { s with basket := { s.basket with joined := true, outsider := false, principal := s.pkg } }
      Reg.clkStatus 4 false).regs = true := setFlag_wf (s := { s with basket := _ }) h _ _ _
  have h2 := setFlag_wf h1 Reg.timeAlign 24 true
  have hsaved := flag_setFlag (s := { s with basket := { s.basket with joined := true, outsider := false, principal := s.pkg } })
    h Reg.clkStatus 4 false (by decide)
  refine ⟨(flag_setFlag_ne h2 Reg.timeAlign 24 25 true (by decide) (by decide)).trans
    (flag_setFlag h1 Reg.timeAlign 24 true (by decide)), ?_⟩
  exact (flag_setFlag_reg_ne h2 (by decide) 25 true 4).trans ((flag_setFlag_reg_ne h1 (by decide) 24 true 4).trans hsaved)

end LeadAgain

/-- The principal package reaches Run from Slumber. -/
theorem wakeComplete_completes {s : State} (h : Canon s) (hphase : s.power.phase = .waking) (hver : s.boot.verified = true)
    (hclk : s.cclkRuns = true) (hrec : s.power.timeoutRec = false) (hlead : s.basket.isPrincipal = true) (r : SelfTest) :
    (wakeComplete r s).power = { s.power with phase := .run } ∧ (wakeComplete r s).boot.serving = true ∧
    (wakeComplete r s).boot.test = r ∧ (wakeComplete r s).basket.joined = true ∧
    (wakeComplete r s).basket.principal = s.pkg ∧ (wakeComplete r s).aligned = true ∧
    (wakeComplete r s).flag Reg.clkStatus 4 = false ∧
    (wakeComplete r s).time.beatNum = BitVec.ofNat 64 s.beatNow ∧
    (wakeComplete r s).fld Reg.pwrWakeUs 0 16 = min 65535 ((s.nowNs - s.power.latchNs) / 1000) := by
  have hframe := leadAgain_frame (wakeJudged r s)
  have hwf := wakeJudged_wf r h
  obtain ⟨haligned, hlost⟩ := leadAgain_leads hwf
  obtain ⟨hjoined, hprincipal⟩ := leadAgain_basket (wakeJudged r s)
  obtain ⟨hserving, htest⟩ := wakeJudged_boot r h
  have hpower := hframe.2 .power (by decide)
  have hboot := hframe.2 .boot (by decide)
  have htime := hframe.2 .time (by decide)
  have hus := (leadAgain_moves hwf).only Reg.pwrWakeUs (by decide)
  have hpkg : (wakeJudged r s).pkg = s.pkg := by rw [State.pkg, wakeJudged_power r h, State.pkg]
  rw [wakeComplete_eq h hphase hver hclk hrec hlead]
  refine ⟨hpower.trans (wakeJudged_power r h), ?_, ?_, hjoined, hprincipal.trans hpkg, haligned, hlost, ?_, ?_⟩
  · rw [hboot, hserving]
  · rw [hboot, htest]
  · rw [htime, wakeJudged_time]
    rfl
  · rw [fld_eq_bits, hus, ← fld_eq_bits, wakeJudged_wakeUs r h]

/-- Settles O8: entries, their ends and wakes, each by the equation of its operation. -/
theorem sleepCommandsComplete : Obligations.SleepCommandsComplete := by
  refine ⟨?_, ?_, ?_, ?_, ?_, ?_, ?_, ?_, ?_⟩
  · intro s hs hidle
    have heq := (gateWrite_of_served hs Reg.pwrCmd enterDoze).trans (enterDoze_eq hs.1 hidle)
    exact completes_of_eq rfl heq ⟨rfl, only_iff.2 (by simp [setPhase])⟩
  · intro s hs hidle hbusy hsource htimer
    have heq := (gateWrite_of_served hs Reg.pwrCmd enterSlumber).trans (enterSlumber_eq hs.1 hidle hbusy hsource htimer)
    exact completes_of_eq rfl heq ⟨rfl, only_iff.2 (by simp [setPhase])⟩
  · intro s hcanon hphase hflights
    obtain ⟨hpower, hsleeps, hlocks, hwfe, hpix, htime, hports, hstore⟩ :=
      entryComplete_doze_completes hcanon hphase hflights
    have hframe := sleepCounted_frame s
    refine completes_of_next rfl ⟨hpower, hsleeps, hlocks, hwfe, hpix, htime, hports, hstore, ?_⟩
    rw [entryComplete_doze hphase hflights]
    have hdoze : Only [.regs, .out, .power, .time, .mem, .poison, .pix, .wfe] (sleepCounted s) (dozeNow (sleepCounted s)) :=
      only_iff.2 (by simp [dozeNow, setPhase, losePads])
    exact (hframe.only.mono (by simp)).trans (hdoze.mono (by simp))
  · intro s hcanon hphase hflights hfree
    exact completes_of_next rfl (entryComplete_slumber_completes hcanon hphase hflights hfree)
  · intro s hcanon hanchor hen hflood hphase
    have hmoves := wakeNoted_moves hcanon.regs 1
    refine completes_of_eq rfl ((pcieWake_enabled hanchor hen).trans (wakeLatch_doze hcanon.regs hflood 1 hphase))
      ⟨rfl, wakeNoted_source hcanon.regs 1, rfl, only_iff.2 (by simp [setPhase, wakeNoted]), (hmoves.congr rfl).only⟩
  · intro s hcanon hen hdue hflood hphase
    have hmoves := wakeNoted_moves hcanon.regs 3
    refine completes_of_eq rfl ((wakeTimer_due hen hdue).trans (wakeLatch_slumber hcanon.regs hflood 3 hphase))
      ⟨rfl, wakeNoted_source hcanon.regs 3, ?_, only_iff.2 (by simp [setPhase, wakeNoted, raiseRails]), (hmoves.congr rfl).only⟩
    simp [setPhase, raiseRails, wakeNoted, State.emit]
  · intro i l s hcanon hen hsel hlevel hflood hphase
    have hmoves := wakeNoted_moves hcanon.regs 4
    exact completes_of_eq rfl ((fieldInputWake_selected hen hsel hlevel).trans
      (wakeLatch_enteringDoze hcanon.regs hflood 4 hphase))
      ⟨rfl, wakeNoted_source hcanon.regs 4, only_iff.2 (by simp [setPhase, wakeNoted]), (hmoves.congr rfl).only⟩
  · intro r s hcanon hphase hver hclk hrec hlead
    exact completes_of_next rfl (wakeComplete_completes hcanon hphase hver hclk hrec hlead r)
  · intro s hcanon hphase hdue hrec
    obtain ⟨hlocks, hus⟩ := dozeWoken_reads hcanon.regs
    have hframe : Only [.regs, .power, .time] s (dozeWoken s) := by
      have hlocked := setLocks_only 7 s (.refl [.regs, .power, .time] s) (by simp)
      exact (State_setFld_only _ _ _ _ _ (hlocked.updPower (by simp)) (by simp)).only
    exact completes_of_eq rfl (dozeWakeComplete_eq hphase hdue hrec)
      ⟨dozeWoken_power, hlocks, hus, hframe, (dozeWoken_moves hcanon.regs).only⟩

end Sys2Proof.Machine
end

section
/-!
PROOFS. Stops.lean: the stop of R277 and a HALT that the package raises (R275 to R277): the registers that they change,
and what they leave of the restart.
-/

namespace Sys2Proof.Machine

/-! ### Registers of a stop -/

/-- Descriptors that complete with a code report it in its ERR register. -/
theorem RegMoves.finishWhere {offs : List Nat} {s t : State} (h : RegMoves offs s t) (p : Flight → Bool) {c : Code}
    (hoff : ∀ r, errReg c 0 = some r → r ∈ offs) : RegMoves offs s (finishWhere p c t) := by
  unfold Machine.finishWhere
  exact RegMoves.foldl (fun u f hu => (hu.latch c 0 hoff).congr (finishFlight_regs f c 0 u)) h

/-- Knots that are cleared end the descriptors that wait on them, with E_DESC_RESTART. -/
theorem RegMoves.clearKnots {offs : List Nat} {s t : State} (h : RegMoves offs s t) (lo hi : Nat) (hhost : Reg.hostErr ∈ offs) :
    RegMoves offs s (clearKnots lo hi t) := by
  unfold Machine.clearKnots
  refine RegMoves.finishWhere (c := eDescRestart) ?_ _ fun r hr => by cases hr; exact hhost
  exact h.congr rfl

/-- A load that a stop ends reports E_WEAVE_BUSY. -/
theorem RegMoves.haltLoad {offs : List Nat} {s t : State} (h : RegMoves offs s t) (hboot : Reg.bootErr ∈ offs) :
    RegMoves offs s (haltLoad t) := by
  unfold Machine.haltLoad
  split
  · exact RegMoves.ite (h.endLoad rfl hboot) h
  · exact h

/-- The words that a stop changes: the ERR registers of HOST and BOOT, and FAULT_RESTARTS. -/
def stopRegs : List Nat := [Reg.hostErr, Reg.bootErr, Reg.faultRestarts]

/-! ### The stop (R277) -/

/-- What a stop ends: sequencers, the work of the step, descriptors that use a core, and the weave's knots. -/
def stopWork (s : State) : State :=
  let s := dropPartial (abandonPlait (abandonWork (unweave (haltLoad s))))
  let s := finishWhere (fun f => !opSurvivesStop (dOp f.desc)) eDescRestart s
  match s.weaveKnots with
  | some (lo, hi) => clearKnots lo hi s
  | none => s

theorem stopWeave_eq (s : State) : stopWeave s =
    { (stopWork s).setReg Reg.faultRestarts ((stopWork s).reg Reg.faultRestarts + 1) with
      fault := { (stopWork s).fault with phase := .stopped, stopNs := (stopWork s).nowNs, excluded := false, judged := false,
                                         resume := none } } := rfl

theorem stopWork_frame (s : State) :
    Moves [.regs, .out, .basket, .host, .roi, .cores, .knots, .serve, .weave] s (stopWork s) := by
  have hload := haltLoad_only s (.refl [.regs, .out, .basket, .host, .roi, .cores, .knots, .serve, .weave] s) (by simp)
  have hwork := dropPartial_only _ (abandonPlait_only _ (abandonWork_only _ (unweave_only _ hload (by simp)) (by simp)) (by simp))
    (by simp)
  have hdesc := finishWhere_only (fun f => !opSurvivesStop (dOp f.desc)) eDescRestart _ hwork (by simp)
  unfold stopWork
  dsimp only
  split
  · exact clearKnots_only _ _ _ hdesc (by simp)
  · exact hdesc

theorem RegMoves.stopWork {offs : List Nat} {s t : State} (h : RegMoves offs s t) (hoffs : stopRegs ⊆ offs) :
    RegMoves offs s (stopWork t) := by
  have hhost : Reg.hostErr ∈ offs := hoffs (by simp [stopRegs])
  have hload := h.haltLoad (hoffs (by simp [stopRegs]))
  have hplain : Moves [.basket, .roi, .cores, .serve] (Machine.haltLoad t)
      (dropPartial (abandonPlait (abandonWork (unweave (Machine.haltLoad t))))) :=
    dropPartial_only _ (abandonPlait_only _ (abandonWork_only _ (unweave_only _ (.refl _ _) (by simp)) (by simp)) (by simp))
      (by simp)
  have hdesc := (hload.of_moves hplain (by decide)).finishWhere (fun f => !opSurvivesStop (dOp f.desc)) (c := eDescRestart)
    fun r hr => by cases hr; exact hhost
  unfold Machine.stopWork
  dsimp only
  split
  · exact hdesc.clearKnots _ _ hhost
  · exact hdesc

theorem RegMoves.stopWeave {offs : List Nat} {s t : State} (h : RegMoves offs s t) (hoffs : stopRegs ⊆ offs) :
    RegMoves offs s (stopWeave t) := by
  rw [stopWeave_eq]
  exact ((h.stopWork hoffs).setReg (off := Reg.faultRestarts) _ (hoffs (by simp [stopRegs]))).congr rfl

/-- The restart that a stop opens. -/
theorem stopWeave_fault (s : State) : (stopWeave s).fault =
    { s.fault with phase := .stopped, stopNs := s.nowNs, excluded := false, judged := false, resume := none } := by
  have hfault : (stopWork s).fault = s.fault := (stopWork_frame s).only.2 .fault (by decide)
  have htime : (stopWork s).time = s.time := (stopWork_frame s).only.2 .time (by decide)
  have hnow : (stopWork s).nowNs = s.nowNs := by rw [State.nowNs, htime, State.nowNs]
  rw [stopWeave_eq, ← hfault, ← hnow]

/-! ### HALT (R275, R277) -/

/-- HALT number `num` has left on every port and is remembered. -/
def haltSent (cls : Nat) (s : State) : State :=
  let num := s.fault.lastNum + 1
  let s' := floodCtrl none (haltWord s.pkg.toNat cls num.toNat (s.beat % 2 ^ 32)) s
  noteRestart num { s' with basket := { s'.basket with lastHalt := some (BitVec.ofNat 16 num.toNat) } }

theorem haltSent_frame (cls : Nat) (s : State) : Moves [.basket, .fault] s (haltSent cls s) := by
  have hflood := floodCtrl_only none (haltWord s.pkg.toNat cls (s.fault.lastNum + 1).toNat (s.beat % 2 ^ 32)) s
    (.refl [.basket, .fault] s) (by simp)
  exact noteRestart_only _ _ (hflood.updBasket (by simp)) (by simp)

/-- A restart number is remembered: the rest of the restart stands. -/
theorem noteRestart_fault (num : BitVec 15) (s : State) : ∃ l, (noteRestart num s).fault = { s.fault with recent := l } := by
  unfold noteRestart
  split
  · exact ⟨_, rfl⟩
  · exact ⟨_, rfl⟩

theorem haltSent_fault (cls : Nat) (s : State) : ∃ l, (haltSent cls s).fault = { s.fault with recent := l } := by
  have hflood : (floodCtrl none (haltWord s.pkg.toNat cls (s.fault.lastNum + 1).toNat (s.beat % 2 ^ 32)) s).fault = s.fault :=
    (floodCtrl_only none _ s (.refl [.basket] s) (by simp)).only.2 .fault (by decide)
  rw [← hflood]
  exact noteRestart_fault _ _

theorem raiseHalt_eq (cls : Nat) (s : State) : raiseHalt cls s = stopWeave { haltSent cls s with
    fault := { (haltSent cls s).fault with
      halt := some ⟨s.fault.lastNum + 1, BitVec.ofNat 32 (s.beat % 2 ^ 32), (haltSent cls s).pkg, BitVec.ofNat 8 cls⟩ } } :=
  rfl

theorem RegMoves.raiseHalt {offs : List Nat} {s t : State} (h : RegMoves offs s t) (cls : Nat) (hoffs : stopRegs ⊆ offs) :
    RegMoves offs s (raiseHalt cls t) := by
  rw [raiseHalt_eq]
  exact RegMoves.stopWeave ((h.of_moves (haltSent_frame cls t) (by decide)).congr rfl) hoffs

/-- The restart that a HALT of this package opens. -/
theorem raiseHalt_fault (cls : Nat) (s : State) : (raiseHalt cls s).fault.phase = .stopped ∧
    (raiseHalt cls s).fault.stopNs = s.nowNs ∧ (raiseHalt cls s).fault.log = s.fault.log ∧
    (raiseHalt cls s).fault.halt =
      some ⟨s.fault.lastNum + 1, BitVec.ofNat 32 (s.beat % 2 ^ 32), s.pkg, BitVec.ofNat 8 cls⟩ := by
  have htime : (haltSent cls s).time = s.time := (haltSent_frame cls s).only.2 .time (by decide)
  have hpower : (haltSent cls s).power = s.power := (haltSent_frame cls s).only.2 .power (by decide)
  have hpkg : (haltSent cls s).pkg = s.pkg := by rw [State.pkg, hpower, State.pkg]
  obtain ⟨l, hfault⟩ := haltSent_fault cls s
  rw [raiseHalt_eq, stopWeave_fault, hpkg]
  refine ⟨rfl, ?_, ?_, rfl⟩
  · simp only [State.nowNs, htime]
  · simp only [hfault]

end Sys2Proof.Machine
end

section
/-!
PROOFS. Thermal.lean: sensor samples, the pixel band and the throttle order (R95, R296 to R300).
-/

namespace Sys2Proof.Machine

/-! ### EVENTs of a code in its ERR register (R353) -/

/-- The code of an EVENT stands in its ERR register, on an anchor and on a stake. -/
theorem latched_postEventAt {c : Code} {core r : Nat} {s : State} (h : Canon s) (ha : codeBlock c = 0x03 → s.anchor = true)
    (hc : c ≠ 0) (hr : errReg c core = some r) (hne : r ≠ Reg.hostEvtLost) (detail : BitVec 128) :
    Latched c r s (postEventAt c core detail s) := by
  have hlatched : Latched c r s (latch c core s) := latched_latch hc hr ha h
  have hwf : smWf resetVal (latch c core s).regs = true :=
    ((latch_only c core s (.refl [.regs] s) (by simp)).canon h).regs
  have hpost : RegMoves [Reg.hostEvtLost] (latch c core s) (postEventAt c core detail s) := by
    have hrefl := RegMoves.refl [Reg.hostEvtLost] hwf
    unfold postEventAt
    dsimp only
    split_ifs
    · exact RegMoves.enqueueEvent (hrefl.of_moves (fireFor_only _ _ (.refl [.out, .host] _) (by simp)) (by decide)) _ (by simp)
    · exact hrefl.congr rfl
    · exact hrefl.congr rfl
  exact hlatched.congr rfl rfl (hpost.only r (by simpa using hne)).symm

/-! ### Sensor readings (R296) -/

/-- The same field of a row of registers is written, one register each. -/
theorem foldl_setFld {r : Nat → Nat} (hr : Function.Injective r) (v : Nat → Nat) (lo : Nat) {len : Nat}
    (hlen : lo + len ≤ 32) (n : Nat) {s : State} (h : smWf resetVal s.regs = true) :
    RegMoves ((List.range n).map r) s ((List.range n).foldl (fun s k => s.setFld (r k) lo len (v k)) s) ∧
    ∀ k < n, ((List.range n).foldl (fun s k => s.setFld (r k) lo len (v k)) s).fld (r k) lo len = v k % 2 ^ len := by
  induction n with
  | zero => exact ⟨RegMoves.refl _ h, by simp⟩
  | succ n ih =>
    obtain ⟨hmoves, hreads⟩ := ih
    rw [List.range_succ, List.foldl_append, List.foldl_cons, List.foldl_nil]
    refine ⟨(hmoves.mono (by simp)).setFld lo len _ (by simp), fun k hk => ?_⟩
    rcases Nat.lt_succ_iff_lt_or_eq.1 hk with hlt | rfl
    · have hne : r k ≠ r n := fun heq => absurd (hr heq) (by omega)
      exact (fld_setReg_ne hmoves.wf _ lo len hne).trans (hreads k hlt)
    · exact fld_setFld hmoves.wf _ _ _ _ hlen

/-- The hottest reading is a 16-bit code. -/
theorem hottest_range (l : List (BitVec 16)) : -32768 ≤ hottest l ∧ hottest l < 32768 := by
  have hfold : ∀ m : Int, -32768 ≤ m ∧ m < 32768 →
      -32768 ≤ l.foldl (fun m v => max m v.toInt) m ∧ l.foldl (fun m v => max m v.toInt) m < 32768 := by
    induction l with
    | nil => exact fun m hm => hm
    | cons v l ih =>
      intro m hm
      have hlo := v.le_toInt
      have hhi := v.toInt_lt
      exact ih _ (by dsimp only; omega)
  exact hfold _ (by decide)

/-- A code of a value within range gives the value back. -/
theorem signed_codeOf {v : Int} (hlo : -32768 ≤ v) (hhi : v < 32768) : signed 16 (codeOf 16 v) = v := by
  rw [signed, codeOf, BitVec.ofNat_toNat, BitVec.setWidth_eq]
  exact BitVec.toInt_ofInt_eq_self (by decide) (by simpa using hlo) (by simpa using hhi)

/-- THERM_MAX holds the hottest reading of each die. -/
def thermMaxWord (p l : List (BitVec 16)) : Word :=
  BitVec.ofNat 32 (codeOf 16 (hottest p) + codeOf 16 (hottest l) * 2 ^ 16)

theorem thermMaxWord_fields (p l : List (BitVec 16)) :
    signed 16 (bits (thermMaxWord p l) 0 16) = hottest p ∧ signed 16 (bits (thermMaxWord p l) 16 16) = hottest l := by
  have hp : codeOf 16 (hottest p) < 65536 := BitVec.isLt _
  have hl : codeOf 16 (hottest l) < 65536 := BitVec.isLt _
  have hlow : bits (thermMaxWord p l) 0 16 = codeOf 16 (hottest p) := by
    simp only [bits, thermMaxWord, BitVec.toNat_ofNat, Nat.shiftRight_eq_div_pow]
    omega
  have hhigh : bits (thermMaxWord p l) 16 16 = codeOf 16 (hottest l) := by
    simp only [bits, thermMaxWord, BitVec.toNat_ofNat, Nat.shiftRight_eq_div_pow]
    omega
  rw [hlow, hhigh]
  exact ⟨signed_codeOf (hottest_range p).1 (hottest_range p).2, signed_codeOf (hottest_range l).1 (hottest_range l).2⟩

/-- The sensor registers. -/
def sensorRegs : List Nat := (List.range 4).map Reg.thermP ++ (List.range 8).map Reg.thermL ++ [Reg.thermMax]

/-- A row of readings stands in a row of registers. -/
def sensorRow (r : Nat → Nat) (l : List (BitVec 16)) (n : Nat) (s : State) : State :=
  (List.range n).foldl (fun s k => s.setFld (r k) 0 16 (nthD 0 l k).toNat) s

theorem storeSensors_eq (p l : List (BitVec 16)) (s : State) : storeSensors p l s =
    (sensorRow Reg.thermL l 8 (sensorRow Reg.thermP p 4 s)).setReg Reg.thermMax (thermMaxWord (p.take 4) (l.take 8)) := rfl

theorem sensorRow_sets (r : Nat → Nat) (l : List (BitVec 16)) (n : Nat) (s : State) : (sensorRow r l n s).sets = s.sets := by
  unfold sensorRow
  induction n with
  | zero => rfl
  | succ n ih => rw [List.range_succ, List.foldl_append, List.foldl_cons, List.foldl_nil, setFld_sets, ih]

theorem sensorRow_reads {r : Nat → Nat} (hr : Function.Injective r) (l : List (BitVec 16)) (n : Nat) {s : State}
    (h : smWf resetVal s.regs = true) : RegMoves ((List.range n).map r) s (sensorRow r l n s) ∧
    ∀ k < n, (sensorRow r l n s).fld (r k) 0 16 = (nthD 0 l k).toNat := by
  obtain ⟨hmoves, hreads⟩ := foldl_setFld hr (fun k => (nthD 0 l k).toNat) 0 (len := 16) (by decide) n h
  exact ⟨hmoves, fun k hk => (hreads k hk).trans (Nat.mod_eq_of_lt (nthD 0 l k).isLt)⟩

theorem thermP_injective : Function.Injective Reg.thermP := fun a b hab => by
  simp only [Reg.thermP] at hab
  omega

theorem thermL_injective : Function.Injective Reg.thermL := fun a b hab => by
  simp only [Reg.thermL] at hab
  omega

theorem storeSensors_sets (p l : List (BitVec 16)) (s : State) : (storeSensors p l s).sets = s.sets := by
  rw [storeSensors_eq, setReg_sets, sensorRow_sets, sensorRow_sets]

section Sensors

variable {s : State} (h : smWf resetVal s.regs = true) (p l : List (BitVec 16))

include h

theorem storeSensors_moves : RegMoves sensorRegs s (storeSensors p l s) := by
  have hP := (sensorRow_reads thermP_injective p 4 h).1
  have hL := (sensorRow_reads thermL_injective l 8 hP.wf).1
  have hboth := (hP.mono (offs' := sensorRegs) (by simp [sensorRegs])).trans (hL.mono (offs' := sensorRegs) (by simp [sensorRegs]))
  rw [storeSensors_eq]
  exact hboth.setReg (off := Reg.thermMax) _ (by simp [sensorRegs])

theorem storeSensors_reads :
    (∀ k < 4, (storeSensors p l s).fld (Reg.thermP k) 0 16 = (nthD 0 p k).toNat) ∧
    (∀ k < 8, (storeSensors p l s).fld (Reg.thermL k) 0 16 = (nthD 0 l k).toNat) ∧
    (storeSensors p l s).reg Reg.thermMax = thermMaxWord (p.take 4) (l.take 8) := by
  obtain ⟨hP, hreadP⟩ := sensorRow_reads thermP_injective p 4 h
  obtain ⟨hL, hreadL⟩ := sensorRow_reads thermL_injective l 8 hP.wf
  rw [storeSensors_eq]
  refine ⟨fun k hk => ?_, fun k hk => ?_, reg_setReg hL.wf _ _⟩
  · have hout : Reg.thermP k ∉ (List.range 8).map Reg.thermL := by
      simp only [List.mem_map, List.mem_range, Reg.thermL, Reg.thermP, not_exists, not_and]
      omega
    have hne : Reg.thermP k ≠ Reg.thermMax := by simp only [Reg.thermP, Reg.thermMax]; omega
    rw [fld_setReg_ne hL.wf _ 0 16 hne, fld_eq_bits, hL.only _ hout, ← fld_eq_bits, hreadP k hk]
  · have hne : Reg.thermL k ≠ Reg.thermMax := by simp only [Reg.thermL, Reg.thermMax]; omega
    rw [fld_setReg_ne hL.wf _ 0 16 hne, hreadL k hk]

end Sensors

/-! ### The throttle (R297) -/

theorem thermLimit_congr {s t : State} {off : Nat} (h : t.reg off = s.reg off) (i : Nat) :
    t.thermLimit off i = s.thermLimit off i := by
  rw [State.thermLimit, fld_eq_bits, h, ← fld_eq_bits, State.thermLimit]

/-- What a sample says of a threshold rests on the limits alone. -/
theorem thermAtLeast_congr {s t : State} (hP : t.reg Reg.thermLimitP = s.reg Reg.thermLimitP)
    (hL : t.reg Reg.thermLimitL = s.reg Reg.thermLimitL) (p l : Int) (i : Nat) :
    thermAtLeast t p l i = thermAtLeast s p l i := by
  have hp : t.thermLimit Reg.thermLimitP i = s.thermLimit Reg.thermLimitP i := thermLimit_congr hP i
  have hl : t.thermLimit Reg.thermLimitL i = s.thermLimit Reg.thermLimitL i := thermLimit_congr hL i
  rw [thermAtLeast, hp, hl, thermAtLeast]

theorem thermBelow_congr {s t : State} (hP : t.reg Reg.thermLimitP = s.reg Reg.thermLimitP)
    (hL : t.reg Reg.thermLimitL = s.reg Reg.thermLimitL) (p l : Int) (i : Nat) :
    thermBelow t p l i = thermBelow s p l i := by
  have hp : t.thermLimit Reg.thermLimitP i = s.thermLimit Reg.thermLimitP i := thermLimit_congr hP i
  have hl : t.thermLimit Reg.thermLimitL i = s.thermLimit Reg.thermLimitL i := thermLimit_congr hL i
  rw [thermBelow, hp, hl, thermBelow]

/-- Samples at ALT and TRIP are counted, and the moment of the first sample at NORMAL stands. -/
def throttleCounted (p l : Int) (s : State) : State :=
  { s with therm := { s.therm with
    sampled := true, altSeen := if thermAtLeast s p l 1 then s.therm.altSeen + 1 else 0,
    tripSeen := if thermAtLeast s p l 2 then s.therm.tripSeen + 1 else 0,
    normalNs := if s.therm.stage = 0 && s.therm.normalNs.isNone then some s.nowNs else s.therm.normalNs } }

/-- WARN stands. -/
def warned (s : State) : State := { s with therm := { s.therm with stage := 1, normalNs := none } }

theorem throttle_eq (p l : Int) (s : State) : throttle p l s =
    if s.therm.stage = 0 then
      if thermAtLeast s p l 0 then postEvent eThermWarn 0 (warned (throttleCounted p l s)) else throttleCounted p l s
    else if thermBelow s p l (s.therm.stage.toNat - 1) then fallStage (throttleCounted p l s)
    else throttleCounted p l s := rfl

/-- The throttle touches no register but THERM_ERR and HOST_EVT_LOST. -/
theorem RegMoves.throttle {offs : List Nat} {s t : State} (h : RegMoves offs s t) (p l : Int) (herr : Reg.thermErr ∈ offs)
    (hlost : Reg.hostEvtLost ∈ offs) : RegMoves offs s (throttle p l t) := by
  have hcounted : RegMoves offs s (throttleCounted p l t) := h.congr rfl
  have hwarned : RegMoves offs s (warned (throttleCounted p l t)) := hcounted.congr rfl
  have hfallen : RegMoves offs s (fallStage (throttleCounted p l t)) := hcounted.congr rfl
  have hevent := hwarned.postEvent eThermWarn 0 (fun r hr => by cases hr; exact herr) hlost
  rw [throttle_eq]
  exact RegMoves.ite (RegMoves.ite hevent hcounted) (RegMoves.ite hfallen hcounted)

/-- At NORMAL, a sample at WARN enters WARN. -/
theorem throttle_warn {s : State} (h : Canon s) {p l : Int} (hstage : s.therm.stage = 0)
    (hhot : thermAtLeast s p l 0 = true) :
    (throttle p l s).therm.stage = 1 ∧ Latched eThermWarn Reg.thermErr s (throttle p l s) := by
  have hcanon : Canon (warned (throttleCounted p l s)) := { h with }
  have hlatch : Latched eThermWarn Reg.thermErr (warned (throttleCounted p l s))
      (postEvent eThermWarn 0 (warned (throttleCounted p l s))) :=
    latched_postEventAt hcanon (fun hb => absurd hb (by decide)) (by decide) rfl (by decide) 0
  have htherm : (postEvent eThermWarn 0 (warned (throttleCounted p l s))).therm = (warned (throttleCounted p l s)).therm :=
    (postEvent_only eThermWarn 0 _ (.refl [.regs, .out, .host] _) (by simp)).only.2 .therm (by decide)
  rw [throttle_eq, if_pos hstage, if_pos hhot]
  exact ⟨by rw [htherm]; rfl, hlatch.congr rfl rfl rfl⟩

/-- At NORMAL, a sample below WARN leaves the stage. -/
theorem throttle_normal {s : State} {p l : Int} (hstage : s.therm.stage = 0) (hcool : thermAtLeast s p l 0 = false) :
    (throttle p l s).therm.stage = 0 := by
  rw [throttle_eq, if_pos hstage, if_neg (by rw [hcool]; exact Bool.false_ne_true)]
  exact hstage

/-- In ALTERNATE, a sample well below ALT falls back to WARN. -/
theorem throttle_fall {s : State} {p l : Int} (hstage : s.therm.stage = 2) (hcool : thermBelow s p l 1 = true) :
    (throttle p l s).therm.stage = 1 := by
  have hbelow : thermBelow s p l (s.therm.stage.toNat - 1) = true := by rw [hstage]; exact hcool
  rw [throttle_eq, if_neg (by rw [hstage]; decide), if_pos hbelow]
  have hfall : (fallStage (throttleCounted p l s)).therm.stage = s.therm.stage - 1 := rfl
  rw [hfall, hstage]
  rfl

theorem bandSample_regs (x : Int) (s : State) : (bandSample x s).regs = s.regs := rfl
theorem bandSample_sets (x : Int) (s : State) : (bandSample x s).sets = s.sets := rfl
theorem bandSample_pix (x : Int) (s : State) : (bandSample x s).pix =
    { s.pix with band := BitVec.ofNat 3 (bandStep x s.pix.band.toNat), hot := decide (700 ≤ x) } := rfl

/-- A sample in Run. -/
def sampleStored (p l : List (BitVec 16)) (s : State) : State := bandSample (hottest p) (storeSensors p l s)

theorem sensorSample_run {p l : List (BitVec 16)} {s : State} (hphase : s.power.phase = .run) (hp : p.length = 4)
    (hl : l.length = 8) : sensorSample p l s = throttle (hottest p) (hottest l) (sampleStored p l s) := by
  unfold sensorSample
  rw [hphase, List.take_of_length_le (le_of_eq hp), List.take_of_length_le (le_of_eq hl)]
  rfl

theorem sampleStored_frame (p l : List (BitVec 16)) (s : State) : Moves [.regs, .pix] s (sampleStored p l s) :=
  bandSample_only _ _ (storeSensors_only p l s (.refl [.regs, .pix] s) (by simp)) (by simp)

/-- A sample stores its readings, moves the band and drives the throttle. -/
theorem sensorSample_completes {p l : List (BitVec 16)} {s : State} (h : Canon s) (hphase : s.power.phase = .run)
    (hp : p.length = 4) (hl : l.length = 8) :
    (∀ k < 4, (sensorSample p l s).fld (Reg.thermP k) 0 16 = (nthD 0 p k).toNat) ∧
    (∀ k < 8, (sensorSample p l s).fld (Reg.thermL k) 0 16 = (nthD 0 l k).toNat) ∧
    signed 16 ((sensorSample p l s).fld Reg.thermMax 0 16) = hottest p ∧ (sensorSample p l s).hottestL = hottest l ∧
    (sensorSample p l s).pix.band = BitVec.ofNat 3 (bandStep (hottest p) s.pix.band.toNat) ∧
    (sensorSample p l s).pix.hot = decide (700 ≤ hottest p) ∧
    (s.therm.stage = 0 → thermAtLeast s (hottest p) (hottest l) 0 = true →
      (sensorSample p l s).therm.stage = 1 ∧ Latched eThermWarn Reg.thermErr s (sensorSample p l s)) ∧
    (s.therm.stage = 0 → thermAtLeast s (hottest p) (hottest l) 0 = false → (sensorSample p l s).therm.stage = 0) ∧
    (s.therm.stage = 2 → thermBelow s (hottest p) (hottest l) 1 = true → (sensorSample p l s).therm.stage = 1) := by
  have hstored := storeSensors_moves h.regs p l
  obtain ⟨hP, hL, hmax⟩ := storeSensors_reads h.regs p l
  have hpix : (storeSensors p l s).pix = s.pix := (storeSensors_only p l s (.refl [.regs] s) (by simp)).only.2 .pix (by decide)
  have hmoves : RegMoves sensorRegs s (sampleStored p l s) := hstored.congr (bandSample_regs ..)
  have hread (off : Nat) : (sampleStored p l s).reg off = (storeSensors p l s).reg off :=
    reg_eq_of_regs_eq (bandSample_regs ..) off
  have hband := bandSample_pix (hottest p) (storeSensors p l s)
  rw [← sampleStored] at hband
  have hcanon := (sampleStored_frame p l s).canon h
  have htherm : (sampleStored p l s).therm = s.therm := (sampleStored_frame p l s).only.2 .therm (by decide)
  have hsets : (sampleStored p l s).sets = s.sets :=
    (bandSample_sets ..).trans (storeSensors_sets p l s)
  have hlimP : (sampleStored p l s).reg Reg.thermLimitP = s.reg Reg.thermLimitP := hmoves.only _ (by decide)
  have hlimL : (sampleStored p l s).reg Reg.thermLimitL = s.reg Reg.thermLimitL := hmoves.only _ (by decide)
  have hthrottle := (RegMoves.refl [Reg.thermErr, Reg.hostEvtLost] hcanon.regs).throttle (hottest p) (hottest l) (by simp)
    (by simp)
  have hpixKept : (throttle (hottest p) (hottest l) (sampleStored p l s)).pix = (sampleStored p l s).pix :=
    (throttle_only _ _ _ (.refl [.regs, .out, .host, .therm] _) (by simp)).only.2 .pix (by decide)
  have hmaxKept := hthrottle.only Reg.thermMax (by decide)
  obtain ⟨hmaxP, hmaxL⟩ := thermMaxWord_fields (p.take 4) (l.take 8)
  rw [List.take_of_length_le (le_of_eq hp), List.take_of_length_le (le_of_eq hl)] at hmax hmaxP hmaxL
  rw [sensorSample_run hphase hp hl]
  refine ⟨fun k hk => ?_, fun k hk => ?_, ?_, ?_, ?_, ?_, fun hstage hhot => ?_, fun hstage hcool => ?_, fun hstage hcool => ?_⟩
  · have hkept := hthrottle.only (Reg.thermP k)
      (by simp only [Reg.thermP, Reg.thermErr, Reg.hostEvtLost, List.mem_cons, List.not_mem_nil, or_false, not_or]; omega)
    rw [fld_eq_bits, hkept, hread, ← fld_eq_bits, hP k hk]
  · have hkept := hthrottle.only (Reg.thermL k)
      (by simp only [Reg.thermL, Reg.thermErr, Reg.hostEvtLost, List.mem_cons, List.not_mem_nil, or_false, not_or]; omega)
    rw [fld_eq_bits, hkept, hread, ← fld_eq_bits, hL k hk]
  · rw [fld_eq_bits, hmaxKept, hread, hmax, hmaxP]
  · rw [State.hottestL, fld_eq_bits, hmaxKept, hread, hmax, hmaxL]
  · rw [hpixKept, hband, hpix]
  · rw [hpixKept, hband]
  · have hnow : thermAtLeast (sampleStored p l s) (hottest p) (hottest l) 0 = true := by
      rw [thermAtLeast_congr hlimP hlimL, hhot]
    obtain ⟨hwarn, hlatched⟩ := throttle_warn hcanon (by rw [htherm, hstage]) hnow
    exact ⟨hwarn, hlatched.congr (hmoves.only _ (by decide)) hsets rfl⟩
  · exact throttle_normal (by rw [htherm, hstage]) (by rw [thermAtLeast_congr hlimP hlimL, hcool])
  · exact throttle_fall (by rw [htherm, hstage]) (by rw [thermBelow_congr hlimP hlimL, hcool])

/-! ### A thermal HALT (R299, R300) -/

/-- A fault's record stands first in the log. -/
theorem logFault_fault (f : FaultReport) (s : State) :
    (logFault f s).fault = { s.fault with log := (faultRecord s f s.restartNum.toNat :: s.fault.log).take 16 } := by
  unfold logFault
  exact (postEventAt_only _ _ _ _ (.refl [.regs, .out, .host] _) (by simp)).only.2 .fault (by decide)

/-- The record of a fault comes with its code in its ERR register. -/
theorem latched_logFault {f : FaultReport} {r : Nat} {s : State} (h : Canon s) (ha : codeBlock f.code = 0x03 → s.anchor = true)
    (hc : f.code ≠ 0) (hr : errReg f.code (faultCore f) = some r) (hne : r ≠ Reg.hostEvtLost) :
    Latched f.code r s (logFault f s) := by
  have hcanon : Canon ({ s with fault := { s.fault with
      log := (faultRecord s f s.restartNum.toNat :: s.fault.log).take 16 } } : State) := { h with }
  exact (latched_postEventAt hcanon ha hc hr hne (faultDetail f)).congr rfl rfl rfl

/-- The record of a thermal HALT. -/
def thermFault (c : Code) : FaultReport := ⟨c, 2, 6, 0, 0⟩

theorem thermalHalt_running {c : Code} {s : State} (h : s.fault.phase = .running) :
    thermalHalt c s = raiseHalt 2 ((logFault (thermFault c) s).bumpSat Reg.thermAltCnt 16 1) := by
  have hphase : ((logFault (thermFault c) s).fault.phase == .running) = true := by
    rw [logFault_fault, h]
    rfl
  rw [thermalHalt, ← thermFault, hphase, if_pos rfl]

section ThermalHalt

variable {c : Code} {s : State} (h : Canon s) (hphase : s.fault.phase = .running)

/-- The words that a thermal HALT changes. -/
def haltRegs : List Nat := [Reg.thermErr, Reg.hostEvtLost, Reg.thermAltCnt] ++ stopRegs

include hphase

/-- A thermal HALT opens the next restart. -/
theorem thermalHalt_restart : (thermalHalt c s).fault.phase = .stopped ∧ (thermalHalt c s).fault.halt =
    some ⟨s.fault.lastNum + 1, BitVec.ofNat 32 s.beat, s.pkg, 2⟩ := by
  have hlog := (logFault_frame (thermFault c) s).only.2
  have hpower : (logFault (thermFault c) s).power = s.power := hlog .power (by decide)
  have htime : (logFault (thermFault c) s).time = s.time := hlog .time (by decide)
  have hbump := bumpSat_fault (logFault (thermFault c) s) Reg.thermAltCnt 16 1
  obtain ⟨hstop, -, -, hhalt⟩ := raiseHalt_fault 2 ((logFault (thermFault c) s).bumpSat Reg.thermAltCnt 16 1)
  rw [thermalHalt_running hphase]
  refine ⟨hstop, hhalt.trans ?_⟩
  have hnum : ((logFault (thermFault c) s).bumpSat Reg.thermAltCnt 16 1).fault.lastNum = s.fault.lastNum := by
    rw [hbump, logFault_fault]
  have hbeat : ((logFault (thermFault c) s).bumpSat Reg.thermAltCnt 16 1).beat = s.beat := by
    rw [State.beat, bumpSat_time, htime, State.beat]
  have hpkg : ((logFault (thermFault c) s).bumpSat Reg.thermAltCnt 16 1).pkg = s.pkg := by
    rw [State.pkg, bumpSat_power, hpower, State.pkg]
  have hword : BitVec.ofNat 32 (s.beat % 2 ^ 32) = BitVec.ofNat 32 s.beat := by
    rw [← BitVec.toNat_inj, BitVec.toNat_ofNat, BitVec.toNat_ofNat, Nat.mod_mod]
  rw [hnum, hbeat, hpkg, hword]
  rfl

include h

/-- A thermal HALT is counted, and its code stands in THERM_ERR. -/
theorem thermalHalt_reports (hc : errReg c 0 = some Reg.thermErr) (hc' : codeBlock c ≠ 0x03) (hne : c ≠ 0) :
    Latched c Reg.thermErr s (thermalHalt c s) ∧
    (thermalHalt c s).fld Reg.thermAltCnt 0 16 = min (s.fld Reg.thermAltCnt 0 16 + 1) 65535 := by
  have hcore : errReg (thermFault c).code (faultCore (thermFault c)) = some Reg.thermErr := hc
  have hlog : RegMoves [Reg.thermErr, Reg.hostEvtLost] s (logFault (thermFault c) s) :=
    (RegMoves.refl _ h.regs).logFault _ (fun r hr => by rw [hcore] at hr; cases hr; simp) (by simp)
  have hlatched := latched_logFault h (fun hb => absurd hb hc') hne hcore (by decide)
  have hbump := (RegMoves.refl [Reg.thermAltCnt] hlog.wf).bumpSat (off := Reg.thermAltCnt) 16 1 (by simp)
  have hhalt := (RegMoves.refl stopRegs hbump.wf).raiseHalt 2 (List.Subset.refl _)
  rw [thermalHalt_running hphase]
  refine ⟨hlatched.congr rfl rfl ?_, ?_⟩
  · rw [hhalt.only _ (by decide), hbump.only _ (by decide)]
  · rw [fld_eq_bits, hhalt.only _ (by decide), ← fld_eq_bits, fld_bumpSat hlog.wf _ _ _ (by decide), fld_eq_bits,
      hlog.only _ (by decide), ← fld_eq_bits]
    rfl

end ThermalHalt

/-! ### ALTERNATE and the return (R297, R299, R300) -/

/-- ALTERNATE stands. -/
def alternateStage (s : State) : State := { s with therm := { s.therm with stage := 2, normalNs := none } }

/-- ALTERNATE stands, with no alternate to run. -/
def noAlternate (s : State) : State := { s with therm := { s.therm with noAlt := true } }

section Alternate

variable {s : State} (hseen : 100 ≤ s.therm.altSeen) (hstage : s.therm.stage = 1)

include hseen hstage

theorem thermalAlternate_enter : thermalAlternate s = if s.coolNow then alternateStage s
    else if s.coolExists then thermalHalt eThermAlternate (alternateStage s)
    else postEvent eThermNoAlternate 0 (noAlternate (alternateStage s)) := by
  have hnot : ¬(decide (s.therm.altSeen < 100) || decide ((2 : BitVec 2) ≤ s.therm.stage)) = true := by
    rw [hstage, decide_eq_false (by omega)]
    decide
  unfold thermalAlternate
  rw [if_neg hnot]
  rfl

end Alternate

/-- A placement that runs is an alternate of the weave. -/
theorem coolNow_of_coolExists {s : State} (h : s.coolExists = false) : s.coolNow = false := by
  unfold State.coolNow
  split
  · next a ha =>
    unfold State.alternate at ha
    unfold State.coolExists at h
    split at ha
    · next d hd =>
      rw [hd] at h
      simp only [List.any_eq_false, Bool.not_eq_true] at h
      exact h a (List.mem_of_getElem? ha)
    · simp at ha
  · rfl

theorem thermalReturn_eq {n : Nat} {s : State} (hsince : s.therm.normalNs = some n) (hen : s.flag Reg.thermCtl 0 = true)
    (hweave : s.weaveActive = true) (hcool : s.coolNow = true) (hstage : s.therm.stage = 0)
    (hlate : n + s.fld Reg.thermCtl 8 8 * 1000000000 ≤ s.nowNs) : thermalReturn s = thermalHalt eThermReturn s := by
  unfold thermalReturn
  rw [hsince]
  dsimp only
  rw [hen, hweave, hcool, hstage, decide_eq_true hlate]
  rfl

/-! ### TRIP (R298) -/

/-- Every port of a package held by TRIP whispers. -/
def tripPorts (s : State) : State := allPorts.foldl (fun s p => s.setPort p (whisperPort (s.port p))) s

theorem tripPorts_port (s : State) (p : Port) : (tripPorts s).port p = whisperPort (s.port p) :=
  foldl_allPorts_port (g := fun p s => whisperPort (s.port p)) (fun u q => setPort_port ..)
    (fun u q r hne => setPort_port_ne _ _ _ _ hne) (fun u q r hne => by rw [setPort_port_ne _ _ _ _ hne]) s p

theorem tripPorts_frame (s : State) : Only [.basket] s (tripPorts s) := by
  refine only_iff.2 ?_
  simp [tripPorts, allPorts]

theorem DomainsReset.tripPorts {s t : State} (h : DomainsReset s t) : DomainsReset s (tripPorts t) := by
  obtain ⟨-, hsame⟩ := tripPorts_frame t
  have hregs := (hsame .regs (by decide)).1
  have hreg (off : Nat) : (Machine.tripPorts t).reg off = t.reg off := reg_eq_of_regs_eq hregs off
  unfold DomainsReset at h ⊢
  rw [hsame .host (by decide), hsame .cores (by decide), hsame .knots (by decide), hsame .mem (by decide),
    hsame .weave (by decide), hsame .serve (by decide), hsame .boot (by decide), hsame .time (by decide),
    hsame .fuse (by decide), hsame .flash (by decide), hreg]
  simp only [hreg]
  exact h

theorem whisperPort_holdPort_peer (x : LinkPort) : (whisperPort (holdPort x)).peer = x.peer := by
  unfold whisperPort holdPort
  split <;> rfl

theorem holdPorts_power (b : BasketState) (s : State) : (holdPorts b s).power = s.power := rfl

theorem thermalTrip_eq {s : State} (hseen : 2 ≤ s.therm.tripSeen) (hidle : s.weave.run = none) :
    thermalTrip s = tripPorts (holdPorts s.basket (domainReset .heldTrip (logFault ⟨eThermTrip, 3, 6, 0, 0⟩ s))) := by
  rw [← packageFault_of_idle hidle]
  exact if_neg (by omega)

/-- Settles O9: samples, ALTERNATE, TRIP and the return, each by the equation of its operation. -/
theorem thermalCommandsComplete : Obligations.ThermalCommandsComplete := by
  refine ⟨?_, ?_, ?_, ?_, ?_⟩
  · intro p l s hcanon hphase hp hl
    exact completes_of_next rfl (sensorSample_completes hcanon hphase hp hl)
  · intro s hcanon hseen hstage hnone
    have heq : thermalAlternate s = postEvent eThermNoAlternate 0 (noAlternate (alternateStage s)) := by
      rw [thermalAlternate_enter hseen hstage, hnone, coolNow_of_coolExists hnone]
      rfl
    have hmid : Canon (noAlternate (alternateStage s)) := { hcanon with }
    have hpost := postEvent_only eThermNoAlternate 0 (noAlternate (alternateStage s)) (.refl [.regs, .out, .host] _) (by simp)
    have hlatch : Latched eThermNoAlternate Reg.thermErr (noAlternate (alternateStage s))
        (postEvent eThermNoAlternate 0 (noAlternate (alternateStage s))) :=
      latched_postEventAt hmid (fun hb => absurd hb (by decide)) (by decide) rfl (by decide) 0
    have hframe : Only [.regs, .out, .host, .therm] s (postEvent eThermNoAlternate 0 (noAlternate (alternateStage s))) :=
      (postEvent_only eThermNoAlternate 0 _ (.updTherm (.updTherm (.refl _ s) (by simp)) (by simp)) (by simp)).only
    exact completes_of_eq rfl heq ⟨hpost.only.2 .therm (by decide), hlatch.congr rfl rfl rfl, hframe⟩
  · intro s hcanon hseen hstage hcool hexists hphase
    have heq : thermalAlternate s = thermalHalt eThermAlternate (alternateStage s) := by
      rw [thermalAlternate_enter hseen hstage, hcool, hexists]
      rfl
    have hmid : Canon (alternateStage s) := { hcanon with }
    have hrun : (alternateStage s).fault.phase = .running := hphase
    obtain ⟨hstop, hhalt⟩ := thermalHalt_restart (c := eThermAlternate) hrun
    obtain ⟨-, hcount⟩ := thermalHalt_reports (c := eThermAlternate) hmid hrun rfl (by decide) (by decide)
    have htherm : (thermalHalt eThermAlternate (alternateStage s)).therm = (alternateStage s).therm :=
      (thermalHalt_only eThermAlternate _ (.refl [.regs, .out, .basket, .host, .roi, .cores, .knots, .serve, .fault, .weave] _)
        (by simp)).only.2 .therm (by decide)
    exact completes_of_eq rfl heq ⟨htherm, hstop, hhalt, hcount⟩
  · intro s hcanon hseen hfree hidle
    have hreset := domainsReset_logFault hcanon hfree ⟨eThermTrip, 3, 6, 0, 0⟩
      (fun r hr => .inr (.inr (by cases hr; rfl))) .heldTrip
    have hfuse : (logFault ⟨eThermTrip, 3, 6, 0, 0⟩ s).fuse = s.fuse := (logFault_frame _ s).only.2 .fuse (by decide)
    have hpower := domainReset_power (u := logFault ⟨eThermTrip, 3, 6, 0, 0⟩ s) .heldTrip (by rw [hfuse, hfree])
    have hheld := holdPorts_port (domainReset .heldTrip (logFault ⟨eThermTrip, 3, 6, 0, 0⟩ s)) s.basket
    have heq := thermalTrip_eq hseen hidle
    generalize domainReset .heldTrip (logFault ⟨eThermTrip, 3, 6, 0, 0⟩ s) = u at *
    refine completes_of_eq rfl heq ⟨?_, (hreset.holdPorts s.basket).tripPorts, fun p => ?_, fun p => ?_⟩
    · rw [(tripPorts_frame _).2 .power (by decide), holdPorts_power, hpower]
    · rw [tripPorts_port]
      rfl
    · rw [tripPorts_port, hheld, whisperPort_holdPort_peer]
      cases p <;> rfl
  · intro n s hcanon hsince hen hweave hcool hstage hlate
    have hphase : s.fault.phase = .running := by
      simp only [State.weaveActive, Bool.and_eq_true, beq_iff_eq] at hweave
      exact hweave.2
    obtain ⟨hstop, hhalt⟩ := thermalHalt_restart (c := eThermReturn) hphase
    obtain ⟨hlatched, -⟩ := thermalHalt_reports (c := eThermReturn) hcanon hphase rfl (by decide) (by decide)
    have htherm : (thermalHalt eThermReturn s).therm = s.therm :=
      (thermalHalt_only eThermReturn _ (.refl [.regs, .out, .basket, .host, .roi, .cores, .knots, .serve, .fault, .weave] _)
        (by simp)).only.2 .therm (by decide)
    exact completes_of_eq rfl (thermalReturn_eq hsince hen hweave hcool hstage hlate) ⟨hstop, hhalt, hlatched, htherm⟩

end Sys2Proof.Machine
end

section
/-!
PROOFS. Ports.lean: rules for one port and for CTRL words (R59), port states and sessions (R50, R57, R58, Table Withy-4),
and whisper messages (R30, R34, R37, R51, R290, R306).
-/

namespace Sys2Proof.Machine

/-! ### One port -/

/-- What the basket holds beside its ports. -/
def State.beyondPorts (s : State) : BasketState :=
  { s.basket with pn := LinkPort.reset, pe := LinkPort.reset, ps := LinkPort.reset, pw := LinkPort.reset }

theorem setPort_beyondPorts (s : State) (p : Port) (x : LinkPort) : (s.setPort p x).beyondPorts = s.beyondPorts := by
  cases p <;> rfl

namespace PortOnly

variable {p : Port} {s t u : State}

theorem refl (p : Port) (s : State) : PortOnly p s s := fun _ _ => rfl

theorem trans (h : PortOnly p s t) (k : PortOnly p t u) : PortOnly p s u := fun q hq => (k q hq).trans (h q hq)

theorem setPort (p : Port) (s : State) (x : LinkPort) : PortOnly p s (s.setPort p x) :=
  fun q hq => setPort_port_ne s p q x hq

/-- A change beside the ports. -/
theorem congr (h : PortOnly p s t) (hu : ∀ q, u.port q = t.port q) : PortOnly p s u := fun q hq => (hu q).trans (h q hq)

end PortOnly

/-- The ports depend on the basket alone. -/
theorem port_congr {s t : State} (h : t.basket = s.basket) (p : Port) : t.port p = s.port p := by
  cases p <;> simp only [State.port, h]

theorem port_setFlag (s : State) (off i : Nat) (b : Bool) (p : Port) : (s.setFlag off i b).port p = s.port p :=
  port_congr (setFlag_basket ..) p

theorem outbox_congr {s t : State} (h : t.beyondPorts = s.beyondPorts) : t.basket.outbox = s.basket.outbox := by
  have hout : t.beyondPorts.outbox = s.beyondPorts.outbox := by rw [h]
  exact hout

theorem setPort_only (s : State) (p : Port) (x : LinkPort) : Only [.basket] s (s.setPort p x) :=
  (State_setPort_only s p x (.refl [.basket] s) (by simp)).only

/-- What holds between a port before and after an operation on it alone holds when all four are done. -/
theorem foldl_allPorts_rel {f : State → Port → State} {R : LinkPort → LinkPort → Prop}
    (hsame : ∀ s p, R (s.port p) ((f s p).port p)) (hother : ∀ s p, PortOnly p s (f s p)) (s : State) (q : Port) :
    R (s.port q) ((allPorts.foldl f s).port q) := by
  have hrun : allPorts.foldl f s = f (f (f (f s .n) .e) .s) .w := rfl
  rw [hrun]
  cases q
  · rw [hother _ .w _ (by decide), hother _ .s _ (by decide), hother _ .e _ (by decide)]
    exact hsame ..
  · rw [hother _ .w _ (by decide), hother _ .s _ (by decide), ← hother s .n _ (by decide)]
    exact hsame ..
  · rw [hother _ .w _ (by decide), ← hother s .n _ (by decide), ← hother (f s .n) .e _ (by decide)]
    exact hsame ..
  · rw [← hother s .n _ (by decide), ← hother (f s .n) .e _ (by decide), ← hother (f (f s .n) .e) .s _ (by decide)]
    exact hsame ..

/-! ### CTRL words (R59) -/

/-- A CTRL word queues at its port where that is up. -/
theorem sendCtrl_port (p : Port) (w : LinkWord) (s : State) : (sendCtrl p w s).port p =
    if (s.port p).up then { s.port p with ctrlq := (ctrlInsert w (s.port p).ctrlq).take 64 } else s.port p := by
  unfold sendCtrl
  dsimp only
  split <;> simp only [setPort_port]

theorem sendCtrl_portOnly (p : Port) (w : LinkWord) (s : State) : PortOnly p s (sendCtrl p w s) := by
  unfold sendCtrl
  dsimp only
  split
  · exact PortOnly.setPort p s _
  · exact PortOnly.refl p s

theorem sendCtrl_beyondPorts (p : Port) (w : LinkWord) (s : State) : (sendCtrl p w s).beyondPorts = s.beyondPorts := by
  unfold sendCtrl
  dsimp only
  split
  · exact setPort_beyondPorts ..
  · rfl

theorem sendCtrl_frame (p : Port) (w : LinkWord) (s : State) : Moves [.basket] s (sendCtrl p w s) :=
  sendCtrl_only p w s (.refl _ s) (List.Subset.refl _)

/-- A flooded word queues at every port that is up, but for the one excepted. -/
theorem flooded_floodCtrl (except : Option Port) (w : LinkWord) (s : State) : Flooded except w s (floodCtrl except w s) := by
  intro q
  refine foldl_allPorts_port (g := fun q s => if except ≠ some q ∧ (s.port q).up = true
    then { s.port q with ctrlq := (ctrlInsert w (s.port q).ctrlq).take 64 } else s.port q) ?_ ?_ ?_ s q
  · intro u p
    by_cases hp : except = some p
    · simp [hp]
    · rw [if_neg hp, sendCtrl_port]
      simp [hp]
  · intro u p r hne
    split
    · rfl
    · exact sendCtrl_portOnly p w u r hne
  · intro u p r hne
    have hport : (if except = some p then u else sendCtrl p w u).port r = u.port r := by
      split
      · rfl
      · exact sendCtrl_portOnly p w u r hne
    dsimp only
    rw [hport]

theorem floodCtrl_beyondPorts (except : Option Port) (w : LinkWord) (s : State) :
    (floodCtrl except w s).beyondPorts = s.beyondPorts := by
  have hfold : ∀ (l : List Port) (u : State),
      (l.foldl (fun s p => if except = some p then s else sendCtrl p w s) u).beyondPorts = u.beyondPorts := by
    intro l
    induction l with
    | nil => exact fun u => rfl
    | cons p l ih =>
      intro u
      rw [List.foldl_cons, ih]
      split
      · rfl
      · exact sendCtrl_beyondPorts ..
  exact hfold allPorts s

theorem floodCtrl_frame (except : Option Port) (w : LinkWord) (s : State) : Moves [.basket] s (floodCtrl except w s) :=
  floodCtrl_only except w s (.refl _ s) (List.Subset.refl _)

/-! ### Sessions (R57, R58) -/

/-- In a port nothing but its egress queue of CTRL words changes. -/
def QueueOnly (x y : LinkPort) : Prop := y = { x with ctrlq := y.ctrlq }

theorem QueueOnly.refl (x : LinkPort) : QueueOnly x x := rfl

theorem QueueOnly.trans {x y z : LinkPort} (h : QueueOnly x y) (k : QueueOnly y z) : QueueOnly x z := by
  unfold QueueOnly at *
  rw [k, h]

theorem queueOnly_sendCtrl (p : Port) (w : LinkWord) (s : State) : QueueOnly (s.port p) ((sendCtrl p w s).port p) := by
  rw [sendCtrl_port]
  split <;> rfl

/-- The words of a key exchange queue at their port: nothing else changes. -/
theorem startKeyx_moves (p : Port) (s : State) : QueueOnly (s.port p) ((startKeyx p s).port p) ∧ PortOnly p s (startKeyx p s) ∧
    (startKeyx p s).beyondPorts = s.beyondPorts ∧ Moves [.basket] s (startKeyx p s) := by
  have hfold : ∀ (l : List Nat) (f : State → Nat → LinkWord) (u : State),
      QueueOnly (u.port p) ((l.foldl (fun s i => sendCtrl p (f s i) s) u).port p) ∧
      PortOnly p u (l.foldl (fun s i => sendCtrl p (f s i) s) u) ∧
      (l.foldl (fun s i => sendCtrl p (f s i) s) u).beyondPorts = u.beyondPorts ∧
      Moves [.basket] u (l.foldl (fun s i => sendCtrl p (f s i) s) u) := by
    intro l f
    induction l with
    | nil => exact fun u => ⟨.refl _, .refl _ _, rfl, .refl _ u⟩
    | cons i l ih =>
      intro u
      obtain ⟨hqueue, honly, hbeyond, hframe⟩ := ih (sendCtrl p (f u i) u)
      exact ⟨(queueOnly_sendCtrl ..).trans hqueue, PortOnly.trans (sendCtrl_portOnly p (f u i) u) honly,
        hbeyond.trans (sendCtrl_beyondPorts ..), (sendCtrl_frame p (f u i) u).trans hframe⟩
  unfold startKeyx
  split
  · exact ⟨.refl _, .refl _ _, rfl, .refl _ s⟩
  · exact hfold _ (fun s i => keyxWord i (Config.keyxContent (portNum p) (s.port p).epoch.toNat i % 2 ^ 104)) s

theorem startKeyx_off {s : State} (h : s.cryptMode = 0) (p : Port) : startKeyx p s = s := if_pos h

/-- The port with its session fresh, and its unacknowledged messages back in the outbox. -/
def sessionBegun (p : Port) (s : State) : State :=
  { s.setPort p (freshSession (s.port p)) with
    basket := { (s.setPort p (freshSession (s.port p))).basket with
      outbox := (s.port p).unacked.map (fun u => u.2) ++ s.basket.outbox } }

theorem newSession_eq (p : Port) (s : State) : newSession p s = startKeyx p (sessionBegun p s) := rfl

theorem sessionBegun_port (p : Port) (s : State) (q : Port) :
    (sessionBegun p s).port q = (s.setPort p (freshSession (s.port p))).port q := by cases q <;> rfl

theorem sessionBegun_frame (p : Port) (s : State) : Moves [.basket] s (sessionBegun p s) :=
  (State_setPort_only s p _ (.refl _ s) (List.Subset.refl _)).updBasket (by simp)

section NewSession

variable (p : Port) (s : State)

/-- A new session changes nothing of its port but what a session holds, and its CTRL queue. -/
theorem newSession_port : QueueOnly (freshSession (s.port p)) ((newSession p s).port p) := by
  have hkeyx := (startKeyx_moves p (sessionBegun p s)).1
  rwa [sessionBegun_port, setPort_port] at hkeyx

theorem newSession_portOnly : PortOnly p s (newSession p s) :=
  ((PortOnly.setPort p s _).congr (sessionBegun_port p s)).trans (startKeyx_moves p _).2.1

theorem newSession_outbox :
    (newSession p s).basket.outbox = (s.port p).unacked.map (fun u => u.2) ++ s.basket.outbox :=
  congrArg BasketState.outbox (startKeyx_moves p (sessionBegun p s)).2.2.1

theorem newSession_frame : Moves [.basket] s (newSession p s) :=
  (sessionBegun_frame p s).trans (startKeyx_moves p _).2.2.2

theorem newSession_regs : (newSession p s).regs = s.regs := ((newSession_frame p s).only.2 .regs (by decide)).1

/-- With MODE OFF no key exchange begins. -/
theorem newSession_off (h : s.cryptMode = 0) : (newSession p s).port p = freshSession (s.port p) := by
  have hmode : (sessionBegun p s).cryptMode = 0 := by
    have hregs : (sessionBegun p s).regs = s.regs := ((sessionBegun_frame p s).only.2 .regs (by decide)).1
    rw [State.cryptMode, fld_eq_bits, reg_eq_of_regs_eq hregs, ← fld_eq_bits]
    exact h
  rw [newSession_eq, startKeyx_off hmode, sessionBegun_port, setPort_port]

end NewSession

/-! ### Port states (R50, Table Withy-4) -/

theorem withyPCfg_ne (p : Port) : Reg.clkStatus ≠ Reg.withyPCfg (portNum p) := by cases p <;> decide

/-- EN of a port is set. -/
def portEnabled (p : Port) (s : State) : State := s.setFlag (Reg.withyPCfg (portNum p)) 0 true

theorem portEnable_eq {p : Port} {s : State} (h : Canon s) (hs : Served s) (hlock : s.flag Reg.clkStatus 2 = true)
    (hdown : (s.port p).state = .off ∨ (s.port p).state = .whisper) :
    portEnable p s = (portEnabled p s).setPort p { s.port p with state := .train, retry := false } := by
  have hen : (portEnabled p s).flag (Reg.withyPCfg (portNum p)) 0 = true := flag_setFlag h.regs _ _ _ (by decide)
  have hlock' : (portEnabled p s).flag Reg.clkStatus 2 = true :=
    (flag_setFlag_reg_ne h.regs (withyPCfg_ne p) 0 true 2).trans hlock
  have hport : (portEnabled p s).port p = s.port p := port_setFlag ..
  unfold portEnable
  rw [answers_of_served hs, if_pos rfl, ← portEnabled, portTrain, hen, hlock', hport, Bool.and_self, if_pos rfl]
  rcases hdown with hdown | hdown <;> rw [hdown]

theorem portDisable_eq {p : Port} {s : State} (hs : Served s) (hfree : (s.port p).state ≠ .woven) :
    portDisable p s = (s.setFlag (Reg.withyPCfg (portNum p)) 0 false).setPort p (offPort (s.port p)) := by
  have hwoven : ((s.port p).state == .woven) = false := by simpa using hfree
  unfold portDisable
  rw [answers_of_served hs, hwoven]
  rfl

/-- A trained port, before its session begins. -/
def trainedPort (lanes : BitVec 4) (d : BitVec 8) (peer : BitVec 6) (w : BitVec 2) (x : LinkPort) : LinkPort :=
  { x with state := .linked, width := w, lanes := lanes, d := d.setWidth 6, peer := peer, retry := false, sleepNs := none,
           peerIn := false, ctrlq := [] }

/-- The port in LINKED, with its new session. -/
def trained (p : Port) (lanes : BitVec 4) (d : BitVec 8) (peer : BitVec 6) (w : BitVec 2) (s : State) : State :=
  newSession p (s.setPort p (trainedPort lanes d peer w (s.port p)))

theorem trainingComplete_eq {p : Port} {lanes : BitVec 4} {d : BitVec 8} {w : BitVec 2} {s : State}
    (hstate : (s.port p).state = .train) (hwidth : widthOf lanes = some w)
    (hmin : s.fld (Reg.withyPCfg (portNum p)) 2 2 ≤ w.toNat) (hd : d.toNat ≤ 52) (peer : BitVec 6) :
    trainingComplete p lanes d peer s = trained p lanes d peer w s := by
  unfold trainingComplete
  dsimp only
  rw [hstate, hwidth]
  dsimp only
  rw [if_neg (by omega), if_neg (by omega)]
  rfl

section Trained

variable (p : Port) (lanes : BitVec 4) (d : BitVec 8) (peer : BitVec 6) (w : BitVec 2) (s : State)

theorem trained_port : QueueOnly (freshSession (trainedPort lanes d peer w (s.port p))) ((trained p lanes d peer w s).port p) := by
  have hport := newSession_port p (s.setPort p (trainedPort lanes d peer w (s.port p)))
  rwa [setPort_port] at hport

theorem trained_off (h : s.cryptMode = 0) : ((trained p lanes d peer w s).port p).ctrlq = [] := by
  have hmode : (s.setPort p (trainedPort lanes d peer w (s.port p))).cryptMode = 0 := by
    rw [State.cryptMode, fld_eq_bits, reg_eq_of_regs_eq (setPort_regs ..), ← fld_eq_bits]
    exact h
  rw [trained, newSession_off _ _ hmode, setPort_port]
  rfl

theorem trained_outbox :
    (trained p lanes d peer w s).basket.outbox = (s.port p).unacked.map (fun u => u.2) ++ s.basket.outbox := by
  rw [trained, newSession_outbox, setPort_port, outbox_congr (setPort_beyondPorts s p _)]
  rfl

theorem trained_frame : PortOnly p s (trained p lanes d peer w s) ∧ Only [.basket] s (trained p lanes d peer w s) :=
  ⟨PortOnly.trans (PortOnly.setPort p s _) (newSession_portOnly p _), (setPort_only s p _).trans (newSession_frame p _).only⟩

end Trained

theorem trainRetry_eq {p : Port} {s : State} (hstate : (s.port p).state = .train) (hretry : (s.port p).retry = true) :
    trainRetry p s = s.setPort p { s.port p with retry := false } := by
  unfold trainRetry
  dsimp only
  rw [hstate, hretry]
  rfl

theorem laneFailure_linked {p : Port} {s : State} (hstate : (s.port p).state = .linked) (hawake : (s.port p).sleepNs = none)
    (l : Fin 4) (hs : Bool) : laneFailure p l hs s = s.setPort p { s.port p with
      state := .train, lanes := (s.port p).lanes &&& ~~~(BitVec.ofNat 4 (2 ^ l.val)), retry := false } := by
  have hpeer : peerSleeps s (s.port p) = false := by rw [peerSleeps, hawake]
  unfold laneFailure
  dsimp only
  rw [hpeer, Bool.and_false, if_neg Bool.false_ne_true, hstate]

theorem retrain_eq {p : Port} {s : State} (hs : Served s)
    (hstate : (s.port p).state = .linked ∨ (s.port p).state = .rekey) :
    retrain p s = s.setPort p { s.port p with state := .train } := by
  unfold retrain
  dsimp only
  rw [answers_of_served hs, Bool.not_true, if_neg Bool.false_ne_true]
  rcases hstate with hstate | hstate <;> rw [hstate]

/-- A port in REKEY, with its new session. -/
def rekeyed (p : Port) (s : State) : State := newSession p (s.setPort p { s.port p with state := .rekey })

theorem enterRekey_linked {p : Port} {s : State} (hstate : (s.port p).state = .linked) : enterRekey p s = rekeyed p s := by
  unfold enterRekey
  dsimp only
  rw [hstate]
  rfl

theorem rekeyed_completes (p : Port) (s : State) :
    ((rekeyed p s).port p).state = .rekey ∧ ((rekeyed p s).port p).epoch = (s.port p).epoch + 1 ∧
    ((rekeyed p s).port p).ctr = 0 ∧ ((rekeyed p s).port p).keys = none ∧ PortOnly p s (rekeyed p s) ∧
    Only [.basket] s (rekeyed p s) := by
  have hport := newSession_port p (s.setPort p { s.port p with state := .rekey })
  rw [setPort_port] at hport
  rw [rekeyed, hport]
  exact ⟨rfl, rfl, rfl, rfl, (PortOnly.setPort p s _).trans (newSession_portOnly p _),
    (setPort_only s p _).trans (newSession_frame p _).only⟩

theorem keyx_eq {p : Port} {w : LinkWord} {s : State} (hup : (s.port p).up = true) (hsub : ctrlSub w = 5)
    (hkeys : (s.port p).keys = none) : keyx p w s = s.setPort p { s.port p with keyxIn := (s.port p).keyxIn ++ [w] } := by
  simp [keyx, hup, hsub, hkeys]

theorem keyExchangeDone_rekey {p : Port} {s : State} (hstate : (s.port p).state = .rekey)
    (hkey : s.flag Reg.fuseStatus 23 = true) (hidle : s.weave.run = none) : keyExchangeDone p true s =
      s.setPort p { s.port p with state := .linked, keys := some (sessionKeys p (s.port p)), keyxIn := [] } := by
  have huses : s.weaveUses p = false := by simp [State.weaveUses, State.weaveActive, hidle]
  unfold keyExchangeDone
  dsimp only
  rw [hstate, hkey, huses]
  rfl

/-! ### MODE of WITHY_CRYPT (R58) -/

/-- Every port that is up begins a new session. -/
def allSessions (s : State) : State := allPorts.foldl (fun s p => if (s.port p).up then newSession p s else s) s

theorem cryptModeWrite_eq {v : Word} {s : State} (hs : Served s) (hidle : s.weave.run = none)
    (hchange : bits v 0 2 ≠ s.cryptMode) (hmode : bits v 0 2 ≠ 3)
    (hoff : bits v 0 2 = 0 → s.flag Reg.fuseLifecycle 10 = false) :
    cryptModeWrite v 15 s = allSessions (s.setFld Reg.withyCrypt 0 2 (bits v 0 2)) := by
  have hweave : s.weaveRuns = false := by rw [State.weaveRuns, hidle]; rfl
  have hneeded : (decide (bits v 0 2 = 0) && s.flag Reg.fuseLifecycle 10) = false := by
    by_cases h0 : bits v 0 2 = 0
    · rw [hoff h0, Bool.and_false]
    · rw [decide_eq_false h0, Bool.false_and]
  unfold cryptModeWrite
  have hword : mergeBytes (s.reg Reg.withyCrypt) v 15 = v := mergeBytes_full _ _
  rw [hword, answers_of_served hs]
  dsimp only
  rw [if_neg hchange, hweave, hneeded, if_neg hmode, takeMode, if_neg hchange]
  rfl

theorem allSessions_frame (s : State) : Moves [.basket] s (allSessions s) := by
  refine Moves.foldl (fun u p => ?_) (.refl _ s)
  split
  · exact newSession_frame p u
  · exact .refl _ u

/-- Each port that is up has its own new session; the others are as they were. -/
theorem allSessions_port (s : State) (p : Port) :
    ((s.port p).up = true → QueueOnly (freshSession (s.port p)) ((allSessions s).port p)) ∧
    ((s.port p).up = false → (allSessions s).port p = s.port p) := by
  refine foldl_allPorts_rel (R := fun x y => (x.up = true → QueueOnly (freshSession x) y) ∧ (x.up = false → y = x))
    (fun u q => ?_) (fun u q => ?_) s p
  · split
    · next hup => exact ⟨fun _ => newSession_port q u, fun hdown => absurd (hup.symm.trans hdown) (by decide)⟩
    · next hdown => exact ⟨fun hup => absurd hup hdown, fun _ => rfl⟩
  · split
    · exact newSession_portOnly q u
    · exact PortOnly.refl q u

/-- Settles O10: each port command by the equation of its operation, and what a new session holds. -/
theorem portCommandsComplete : Obligations.PortCommandsComplete := by
  refine ⟨?_, ?_, ?_, ?_, ?_, ?_, ?_, ?_, ?_, ?_, ?_⟩
  · intro p s hcanon hs hlock hdown
    have hmoves : RegMoves [Reg.withyPCfg (portNum p)] s (portEnabled p s) :=
      (RegMoves.refl _ hcanon.regs).setFlag 0 true (by simp)
    have hen : (portEnabled p s).flag (Reg.withyPCfg (portNum p)) 0 = true := flag_setFlag hcanon.regs _ _ _ (by decide)
    refine completes_of_eq rfl (portEnable_eq hcanon hs hlock hdown) ⟨?_, setPort_port .., ?_, ?_, ?_⟩
    · rw [State.flag, reg_eq_of_regs_eq (setPort_regs ..), ← State.flag, hen]
    · exact PortOnly.trans (PortOnly.congr (PortOnly.refl p s) (port_setFlag s _ 0 true)) (PortOnly.setPort p _ _)
    · exact (State_setPort_only _ p _ (State_setFlag_only _ _ _ _ (.refl [.regs, .basket] s) (by simp)) (by simp)).only
    · exact (hmoves.congr (setPort_regs ..)).only
  · intro p s hcanon hs hfree
    have hmoves : RegMoves [Reg.withyPCfg (portNum p)] s (s.setFlag (Reg.withyPCfg (portNum p)) 0 false) :=
      (RegMoves.refl _ hcanon.regs).setFlag 0 false (by simp)
    refine completes_of_eq rfl (portDisable_eq hs hfree) ⟨?_, ?_, ?_, ?_, ?_, ?_⟩
    · rw [State.flag, reg_eq_of_regs_eq (setPort_regs ..), ← State.flag, flag_setFlag hcanon.regs _ _ _ (by decide)]
    · rw [setPort_port]
      rfl
    · rw [setPort_port]
      rfl
    · exact PortOnly.trans (PortOnly.congr (PortOnly.refl p s) (port_setFlag s _ 0 false)) (PortOnly.setPort p _ _)
    · exact (State_setPort_only _ p _ (State_setFlag_only _ _ _ _ (.refl [.regs, .basket] s) (by simp)) (by simp)).only
    · exact (hmoves.congr (setPort_regs ..)).only
  · intro p lanes d peer w s hstate hwidth hmin hd
    have hfields := trained_port p lanes d peer w s
    obtain ⟨honly, hframe⟩ := trained_frame p lanes d peer w s
    refine completes_of_eq rfl (trainingComplete_eq hstate hwidth hmin hd peer) ?_
    refine ⟨?_, ?_, ?_, ?_, ?_, ?_, ?_, ?_, ?_, ?_, trained_outbox p lanes d peer w s, trained_off p lanes d peer w s,
      honly, hframe⟩
    all_goals
      rw [hfields]
      rfl
  · intro p s hstate hretry
    exact congrArg Host.Outcome.next (trainRetry_eq hstate hretry)
  · intro p l hs s hstate hawake
    exact congrArg Host.Outcome.next (laneFailure_linked hstate hawake l hs)
  · intro p s hs hstate
    exact congrArg Host.Outcome.next (retrain_eq hs hstate)
  · intro p s hs hstate
    have heq : rekey p s = rekeyed p s := (if_pos (answers_of_served hs _)).trans (enterRekey_linked hstate)
    exact completes_of_eq rfl heq (rekeyed_completes p s)
  · intro p s hstate hctr
    have heq : counterWrap p s = rekeyed p s := (if_pos hctr).trans (enterRekey_linked hstate)
    exact completes_of_eq rfl heq (rekeyed_completes p s)
  · intro p w s hup hsub hkeys
    exact congrArg Host.Outcome.next (keyx_eq hup hsub hkeys)
  · intro p s hstate hkey hidle
    exact congrArg Host.Outcome.next (keyExchangeDone_rekey hstate hkey hidle)
  · intro v s hcanon hs hidle hchange hmode hoff
    have hmoves : RegMoves [Reg.withyCrypt] s (s.setFld Reg.withyCrypt 0 2 (bits v 0 2)) :=
      (RegMoves.refl _ hcanon.regs).setFld 0 2 _ (by simp)
    have hframe := allSessions_frame (s.setFld Reg.withyCrypt 0 2 (bits v 0 2))
    have hregs := (hframe.only.2 .regs (by decide)).1
    have hport (p : Port) : (s.setFld Reg.withyCrypt 0 2 (bits v 0 2)).port p = s.port p := port_congr (setFld_basket ..) p
    refine completes_of_eq rfl (cryptModeWrite_eq hs hidle hchange hmode hoff)
      ⟨?_, fun p hup => ?_, fun p hup => ?_, ?_, (hmoves.congr hregs).only⟩
    · rw [State.cryptMode, fld_eq_bits, reg_eq_of_regs_eq hregs, ← fld_eq_bits, fld_setFld hcanon.regs _ _ _ _ (by decide),
        bits_mod]
    · have hfresh := (allSessions_port (s.setFld Reg.withyCrypt 0 2 (bits v 0 2)) p).1 (by rw [hport, hup])
      rw [hport] at hfresh
      rw [hfresh]
      exact ⟨rfl, rfl, rfl, rfl⟩
    · rw [(allSessions_port _ p).2 (by rw [hport, hup]), hport]
    · exact ((State_setFld_only _ _ _ _ _ (.refl [.regs, .basket] s) (by simp)).only).trans (hframe.only.mono (by simp))

end Sys2Proof.Machine
end

section
/-!
PROOFS. Whisper.lean: whisper messages (R30, R34, R37, R51, R290, R292, R306).
-/

namespace Sys2Proof.Machine

/-- A message goes out on every port that a condition selects. -/
theorem foldl_emit {c : Port → Bool} {o : Port → Out} {f : State → Port → State} {s : State} (l : List Port)
    (hf : ∀ u p, u.basket = s.basket → f u p = if c p = true then u.emit (o p) else u) :
    l.foldl f s = { s with out := s.out ++ (l.filter c).map o } := by
  have hrun : ∀ (l : List Port) (u : State), u.basket = s.basket →
      l.foldl f u = { u with out := u.out ++ (l.filter c).map o } := by
    intro l
    induction l with
    | nil =>
      intro u _
      simp
    | cons p l ih =>
      intro u hu
      rw [List.foldl_cons, hf u p hu, List.filter_cons]
      split
      · rw [ih _ (by exact hu)]
        simp [State.emit]
      · exact ih u hu
  exact hrun l s rfl

theorem whisperTimeTx_eq {s : State} (h : s.basket.isPrincipal = true) : whisperTimeTx s =
    { s with out := s.out ++ (allPorts.filter (fun p => (s.port p).state == .whisper)).map (fun p =>
      Out.whisper p (whisperMsg 1 12 (s.nowNs % 2 ^ 64 + s.nowFp % 65536 * 2 ^ 64 + s.pkg.toNat * 2 ^ 88))) } := by
  unfold whisperTimeTx
  rw [if_pos h]
  exact foldl_emit allPorts fun u p hu => by rw [port_congr hu]

/-- Belt time of the principal, as a whisper TIME message gives it over a port. -/
def whisperedNow (p : Port) (m : WhisperMsg) (s : State) : Nat :=
  lwNum m.payload 0 8 * 65536 + lwNum m.payload 8 2 + (s.port p).d.toNat * 65536

/-- The increment per a-tick that a whisper TIME message leaves. -/
def whisperedInc (p : Port) (m : WhisperMsg) (s : State) : Word :=
  match s.time.lastWhisper with
  | some (t0, k0) =>
    if k0 < s.time.aticks ∧ t0 < whisperedNow p m s then
      BitVec.ofNat 32 ((whisperedNow p m s - t0) / (s.time.aticks - k0)) else s.reg Reg.timeAonInc
  | none => s.reg Reg.timeAonInc

/-- A whisper TIME message of the principal is taken. -/
def whisperTimed (p : Port) (m : WhisperMsg) (s : State) : State :=
  let s' := if s.cclkRuns then s else s.setReg Reg.timeAonInc (whisperedInc p m s)
  { s' with time := { s'.time with
    slew := (whisperedNow p m s : Int) - s'.nowFp,
    lastWhisper := if s'.cclkRuns then none else some (whisperedNow p m s, s'.time.aticks) } }

theorem whisperTime_eq {p : Port} {m : WhisperMsg} {s : State} (hok : whisperOk m = true) (htype : m.type = 1)
    (hfollow : s.basket.isPrincipal = false) (hfrom : lwByte m.payload 11 = s.basket.principal.toNat) :
    whisperTime p m s = whisperTimed p m s := by
  unfold whisperTime
  rw [hok, htype, hfollow, hfrom, Bool.not_true, if_neg Bool.false_ne_true, if_neg (by simp)]
  rfl

theorem whisperTimed_completes (p : Port) (m : WhisperMsg) (s : State) :
    s.nowFp + (whisperTimed p m s).time.slew = (whisperedNow p m s : Nat) ∧
    (whisperTimed p m s).time.belt = s.time.belt ∧ (s.cclkRuns = true → (whisperTimed p m s).regs = s.regs) ∧
    Only [.regs, .time] s (whisperTimed p m s) := by
  unfold whisperTimed
  dsimp only
  split
  · exact ⟨by omega, rfl, fun _ => rfl, only_iff.2 (by simp)⟩
  · next hstopped =>
    refine ⟨?_, rfl, fun hruns => absurd hruns hstopped, only_iff.2 (by simp)⟩
    have hnow : (s.setReg Reg.timeAonInc (whisperedInc p m s)).nowFp = s.nowFp := rfl
    rw [hnow]
    omega

/-- A whisper WAKE is kept by its origin. -/
def wakeRemembered (m : WhisperMsg) (s : State) : State :=
  { s with
    basket := { s.basket with
      wakeKept := smSet none s.basket.wakeKept (lwByte m.payload 8 % 64) (some (BitVec.ofNat 8 (lwByte m.payload 9))) } }

/-- A whisper WAKE is kept, and goes on over the other ports. -/
def wakeForwarded (p : Port) (m : WhisperMsg) (s : State) : State :=
  { wakeRemembered m s with
    out := s.out ++ (allPorts.filter (fun q => decide (q ≠ p) && (s.port q).state == .whisper)).map (fun q =>
      Out.whisper q m) }

theorem whisperWake_eq {p : Port} {m : WhisperMsg} {s : State} (hok : whisperOk m = true) (htype : m.type = 2)
    (hnew : smGet none s.basket.wakeKept (lwByte m.payload 8 % 64) ≠ some (BitVec.ofNat 8 (lwByte m.payload 9)))
    (hmask : nbit (lwNum m.payload 0 8) s.pkg.toNat = true) (hen : s.flag Reg.pwrWakeCfg 1 = true) :
    whisperWake p m s = wakeLatch 2 (wakeForwarded p m s) := by
  have hfold : allPorts.foldl (fun s q => if q ≠ p ∧ (s.port q).state == .whisper then s.emit (.whisper q m) else s)
      (wakeRemembered m s) = wakeForwarded p m s := by
    refine foldl_emit (c := fun q => decide (q ≠ p) && (s.port q).state == .whisper) (o := fun q => .whisper q m) allPorts
      fun u q hu => ?_
    have hport : u.port q = s.port q := (port_congr hu q).trans (by cases q <;> rfl)
    rw [hport]
    simp
  unfold whisperWake
  rw [hok, htype, Bool.not_true, if_neg Bool.false_ne_true, if_neg (by simp)]
  dsimp only
  rw [if_neg hnew, ← wakeRemembered, hfold]
  have hpkg : (wakeForwarded p m s).pkg = s.pkg := rfl
  have hflag : (wakeForwarded p m s).flag Reg.pwrWakeCfg 1 = true := hen
  rw [hpkg, hmask, hflag]
  rfl

theorem whisperSleep_eq {p : Port} {m : WhisperMsg} {s : State} (hok : whisperOk m = true) (htype : m.type = 3) :
    whisperSleep p m s = s.setPort p { s.port p with sleepNs := some s.nowNs } := by
  simp [whisperSleep, hok, htype]

theorem whisperPresence_eq {p : Port} {m : WhisperMsg} {s : State} (hok : whisperOk m = true) (htype : m.type = 4)
    (hheld : lwByte m.payload 1 = 0xE1 ∨ lwByte m.payload 1 = 0xE2) :
    whisperPresence p m s = postEvent eFuseBeacon (BitVec.ofNat 128 (lwNum m.payload 0 2)) s := by
  unfold whisperPresence
  rw [hok, Bool.not_true, if_neg Bool.false_ne_true]
  exact if_pos ⟨htype, by omega, by omega⟩

/-- Settles O11: each message by the equation of its operation. -/
theorem whisperCommandsComplete : Obligations.WhisperCommandsComplete := by
  refine ⟨?_, ?_, ?_, ?_, ?_⟩
  · intro s hlead
    exact completes_of_eq rfl (whisperTimeTx_eq hlead) ⟨rfl, only_iff.2 (by simp)⟩
  · intro p m s hok htype hfollow hfrom
    exact completes_of_eq rfl (whisperTime_eq hok htype hfollow hfrom) (whisperTimed_completes p m s)
  · intro p m s hcanon hok htype hnew hmask hen hflood hphase
    have hregs : smWf resetVal (wakeForwarded p m s).regs = true := hcanon.regs
    have hflood' : (wakeForwarded p m s).flag Reg.pwrWakeCfg 8 = false := hflood
    have hphase' : (wakeForwarded p m s).power.phase = .doze := hphase
    refine completes_of_eq rfl ((whisperWake_eq hok htype hnew hmask hen).trans (wakeLatch_doze hregs hflood' 2 hphase'))
      ⟨rfl, wakeNoted_source hregs 2, rfl, rfl, only_iff.2 (by simp [setPhase, wakeNoted, wakeForwarded, wakeRemembered])⟩
  · intro p m s hok htype
    exact congrArg Host.Outcome.next (whisperSleep_eq hok htype)
  · intro p m s hcanon hanchor hok htype hheld
    exact completes_of_eq rfl (whisperPresence_eq hok htype hheld)
      ⟨posted_postEvent hcanon hanchor (by decide) rfl (by decide) _,
        (postEvent_only _ _ _ (.refl [.regs, .out, .host] s) (by simp)).only⟩

end Sys2Proof.Machine
end

section
/-!
PROOFS. Basket.lean: forming and joining a basket (R15, R16, R28, R34, R52, R53) and TIME words (R33, R36, R39, R59).
-/

namespace Sys2Proof.Machine

/-! ### PRESENCE (R15, R16, R52) -/

theorem followPrincipal_same {s : State} (h : s.follows = true → s.lowestAnchor = some s.basket.principal.toNat) :
    followPrincipal s = s := by
  unfold followPrincipal
  split
  · next hfollows =>
    rw [h hfollows]
    exact if_pos (.inl rfl)
  · rfl

/-- The lowest anchor that the package hears is its principal, and the route towards that its upstream port. -/
def turnedTo (a : Nat) (s : State) : State :=
  { s with basket := { s.basket with
    principal := BitVec.ofNat 6 a, upstream := (portOf (smGet 5 s.basket.tree a).toNat).getD s.basket.upstream } }

theorem followPrincipal_other {a : Nat} {s : State} (hfollows : s.follows = true) (hstake : s.anchor = false)
    (hlow : s.lowestAnchor = some a) (hne : a ≠ s.basket.principal.toNat) : followPrincipal s = turnedTo a s := by
  unfold followPrincipal
  rw [if_pos hfollows, hlow]
  exact if_neg (by simp [hne, hstake])

/-- Following touches the principal and the upstream port alone. -/
theorem followPrincipal_cases (s : State) : followPrincipal s = s ∨ ∃ a, followPrincipal s = turnedTo a s := by
  unfold followPrincipal
  split
  · split
    · split
      · exact .inl rfl
      · exact .inr ⟨_, rfl⟩
    · exact .inl rfl
  · exact .inl rfl

theorem dropLostBasket_kept {s : State} (h : s.follows = true → s.anchor = false → s.lowestAnchor ≠ none) :
    dropLostBasket s = s := by
  refine if_neg ?_
  simp only [Bool.and_eq_true, Bool.not_eq_true', Option.isNone_iff_eq_none]
  rintro ⟨⟨hfollows, hstake⟩, hnone⟩
  exact h hfollows hstake hnone

theorem dropLostBasket_lost {s : State} (hfollows : s.follows = true) (hstake : s.anchor = false)
    (hnone : s.lowestAnchor = none) : dropLostBasket s = becomeOutsider s := by
  rw [dropLostBasket, hfollows, hstake, hnone]
  rfl

/-- The word that a package floods of itself. -/
def State.ownPresence (s : State) : LinkWord := presenceWord s.pkg.toNat s.anchor.toNat s.basketId.toNat s.tuple

theorem presenceFlood_eq (s : State) : presenceFlood s =
    floodCtrl none (followPrincipal (dropLostBasket s)).ownPresence (followPrincipal (dropLostBasket s)) := rfl

/-- A package that leaves its basket. -/
def leftBasket (s : State) : State :=
  ((s.setFlag Reg.clkStatus 4 false).setFlag Reg.timeAlign 24 false).setFlag Reg.timeAlign 25 false

theorem becomeOutsider_eq (s : State) : becomeOutsider s = { leftBasket (quitWeave s) with
    basket := { (leftBasket (quitWeave s)).basket with joined := false, outsider := true, joinAt := none } } := rfl

theorem leftBasket_flags {s : State} (h : smWf resetVal s.regs = true) :
    (leftBasket s).flag Reg.clkStatus 4 = false ∧ (leftBasket s).flag Reg.timeAlign 24 = false := by
  have h1 := setFlag_wf h Reg.clkStatus 4 false
  have h2 := setFlag_wf h1 Reg.timeAlign 24 false
  refine ⟨(flag_setFlag_reg_ne h2 (by decide) 25 false 4).trans ((flag_setFlag_reg_ne h1 (by decide) 24 false 4).trans
    (flag_setFlag h _ _ _ (by decide))), ?_⟩
  exact (flag_setFlag_ne h2 Reg.timeAlign 24 25 false (by decide) (by decide)).trans (flag_setFlag h1 _ _ _ (by decide))

theorem becomeOutsider_completes {s : State} (h : Canon s) :
    (becomeOutsider s).basket.joined = false ∧ (becomeOutsider s).basket.outsider = true ∧
    (becomeOutsider s).flag Reg.clkStatus 4 = false ∧ (becomeOutsider s).aligned = false := by
  have hquit := quitWeave_only s (.refl [.regs, .out, .basket, .host, .roi, .knots, .serve, .fault, .weave] s) (by simp)
  obtain ⟨htree, haligned⟩ := leftBasket_flags (hquit.canon h).regs
  rw [becomeOutsider_eq]
  exact ⟨rfl, rfl, htree, haligned⟩

theorem floodCtrl_flag (e : Option Port) (w : LinkWord) (s : State) (off i : Nat) :
    (floodCtrl e w s).flag off i = s.flag off i := by
  rw [State.flag, reg_eq_of_regs_eq ((floodCtrl_frame e w s).only.2 .regs (by decide)).1, State.flag]

theorem basket_congr {s t : State} (h : t.beyondPorts = s.beyondPorts) :
    t.basket.joined = s.basket.joined ∧ t.basket.outsider = s.basket.outsider ∧
    t.basket.principal = s.basket.principal ∧ t.basket.lastTime = s.basket.lastTime ∧
    t.basket.members = s.basket.members ∧ t.basket.isPrincipal = s.basket.isPrincipal := by
  have hjoined : t.beyondPorts.joined = s.beyondPorts.joined := by rw [h]
  have houtsider : t.beyondPorts.outsider = s.beyondPorts.outsider := by rw [h]
  have hprincipal : t.beyondPorts.principal = s.beyondPorts.principal := by rw [h]
  have htime : t.beyondPorts.lastTime = s.beyondPorts.lastTime := by rw [h]
  have hmembers : t.beyondPorts.members = s.beyondPorts.members := by rw [h]
  have hlead : t.beyondPorts.isPrincipal = s.beyondPorts.isPrincipal := by rw [h]
  exact ⟨hjoined, houtsider, hprincipal, htime, hmembers, hlead⟩

/-! ### TIME words (R33, R36, R39, R59) -/

theorem port_floodTime (e : Option Port) (w : LinkWord) (s : State) (p : Port) :
    (floodTime e w s).port p = (floodCtrl e w s).port p := by cases p <;> rfl

/-- A TIME word leaves on the other ports and is remembered. -/
theorem floodTime_completes (e : Option Port) (w : LinkWord) (s : State) :
    Flooded e w s (floodTime e w s) ∧ (floodTime e w s).basket.lastTime = some w ∧
    Only [.basket] s (floodTime e w s) := by
  refine ⟨fun p => (port_floodTime e w s p).trans (flooded_floodCtrl e w s p), rfl, ?_⟩
  exact ((floodCtrl_frame e w s).updBasket (by simp)).only

/-- The ports do not see a change of belt time. -/
theorem Flooded.updTime {e : Option Port} {w : LinkWord} {s t : State} (h : Flooded e w s t) (x : TimeState) :
    Flooded e w s { t with time := x } := fun p => (show _ = t.port p by cases p <;> rfl).trans (h p)

/-! ### JOIN and JOIN_REPLY (R52, R53) -/

theorem joinRetry_eq {a : Nat} {p : Port} {s : State} (hphase : s.power.phase = .run) (hout : s.basket.joined = false)
    (hlow : s.lowestAnchor = some a) (hroute : portOf (smGet 5 s.basket.tree a).toNat = some p) (hup : (s.port p).up = true) :
    joinRetry s = s.setPort p { s.port p with
      ctrlq := (ctrlInsert (joinWord s.pkg.toNat s.anchor.toNat s.tuple s.basketId.toNat) (s.port p).ctrlq).take 64 } := by
  unfold joinRetry
  rw [hphase, hout, hlow]
  dsimp only
  rw [if_neg Bool.false_ne_true, hroute]
  exact if_pos hup

/-- The members of a basket and their count. -/
theorem setMembers_frame (ms : List Member) (s : State) : Moves [.regs, .basket] s (setMembers ms s) :=
  setMembers_only ms s (.refl _ s) (List.Subset.refl _)

theorem setMembers_count {ms : List Member} {s : State} (h : smWf resetVal s.regs = true) (hlen : ms.length < 128) :
    (setMembers ms s).fld Reg.withyJoinStatus 16 7 = ms.length :=
  (fld_setFld h Reg.withyJoinStatus 16 7 ms.length (by decide)).trans (Nat.mod_eq_of_lt hlen)

theorem setMembers_moves {s : State} (h : smWf resetVal s.regs = true) (ms : List Member) :
    RegMoves [Reg.withyJoinStatus] s (setMembers ms s) :=
  ((RegMoves.refl _ h).setFld (off := Reg.withyJoinStatus) 16 7 ms.length (by simp)).congr rfl

theorem port_setMembers (ms : List Member) (s : State) (p : Port) : (setMembers ms s).port p = s.port p := by
  cases p <;> rfl

/-- What an outsider that heard nothing before keeps of a PRESENCE word. -/
def firstHeard (p : Port) (w : LinkWord) (s : State) : State :=
  let q := lwByte w 2 % 64
  let same := lwNum w 4 4 = s.basketId.toNat
  { s with basket := { s.basket with
    tree := smSet 5 s.basket.tree q (BitVec.ofNat 3 (portNum p)),
    heard := if same then smSet none s.basket.heard q (some ⟨lwByte w 3 == 1, s.upNs⟩) else s.basket.heard,
    lowerHeardNs := if lwByte w 3 = 1 && same && decide (q < s.pkg.toNat) then s.upNs else s.basket.lowerHeardNs } }

theorem presence_outsider {p : Port} {w : LinkWord} {s : State} (hsub : ctrlSub w = 6)
    (hother : lwByte w 2 % 64 ≠ s.pkg.toNat) (hout : s.basket.outsider = true) (hlead : s.basket.isPrincipal = false)
    (htree : s.basket.tree = []) : presence p w s = followPrincipal (firstHeard p w s) := by
  have hknown : smGet 5 s.basket.tree (lwByte w 2 % 64) = 5 := by rw [htree]; rfl
  unfold presence
  dsimp only
  have hkept (x : Bool) : ¬(x && !s.basket.outsider) = true := by rw [hout]; simp
  have hstake (x : Bool) : ¬(x && s.basket.isPrincipal) = true := by rw [hlead]; simp
  rw [if_neg (by simp [hsub]), if_neg hother, hknown, if_pos rfl, if_neg (hkept _), if_neg (hstake _)]
  rfl

theorem lowestAnchor_congr {s t : State} (hheard : t.basket.heard = s.basket.heard) (htime : t.time = s.time) :
    t.lowestAnchor = s.lowestAnchor := by
  have hup : t.upNs = s.upNs := by rw [State.upNs, htime, State.upNs]
  have hfresh : t.fresh = s.fresh := by
    funext x
    rw [State.fresh, hup, State.fresh]
  unfold State.lowestAnchor State.freshAnchors
  rw [hheard, hfresh]

/-- An anchor of its basket is the first that the outsider hears. -/
theorem firstHeard_lowest {p : Port} {w : LinkWord} {s : State} (hheard : s.basket.heard = [])
    (hsame : lwNum w 4 4 = s.basketId.toNat) (hrole : lwByte w 3 = 1) :
    (firstHeard p w s).lowestAnchor = some (lwByte w 2 % 64) := by
  have hnow : (firstHeard p w s).upNs = s.upNs := rfl
  have honly : (firstHeard p w s).basket.heard = [(lwByte w 2 % 64, some ⟨lwByte w 3 == 1, s.upNs⟩)] := by
    unfold firstHeard
    dsimp only
    rw [if_pos hsame, hheard]
    rfl
  have hfresh : (firstHeard p w s).fresh ⟨true, s.upNs⟩ = true := by
    simp [State.fresh, hnow]
  simp [State.lowestAnchor, State.freshAnchors, honly, hfresh, hrole]

/-! ### The principal role (R16) -/

/-- The anchor stands as principal of its basket. -/
def claimed (s : State) : State :=
  { s with basket := { s.basket with isPrincipal := true, joined := true, outsider := false, principal := s.pkg,
                                     hops := 0, joinAt := none } }

/-- The members of the basket that an anchor claims. -/
def claimedMembers (s : State) : List Member :=
  ⟨s.pkg, some (BitVec.ofNat 64 (s.pair Reg.idSerialLo Reg.idSerialHi)), true, 0⟩ :: s.takenOver

theorem principalClaim_eq {s : State} (hphase : s.power.phase = .run) (hanchor : s.anchor = true)
    (hlead : s.basket.isPrincipal = false) (href : s.flag Reg.clkStatus 3 = true)
    (hlate : s.basket.lowerHeardNs + 16000000 ≤ s.upNs) (hidle : s.weave.run = none) :
    principalClaim s = leadTime (setMembers (claimedMembers s) (claimed s)) := by
  have hweave : (leadTime (setMembers (claimedMembers s) (claimed s))).weaveRuns = false := by
    have hsame : (leadTime (setMembers (claimedMembers s) (claimed s))).weave = s.weave := rfl
    rw [State.weaveRuns, hsame, hidle]
    rfl
  have hgo : principalClaim s = if (leadTime (setMembers (claimedMembers s) (claimed s))).weaveRuns &&
      (leadTime (setMembers (claimedMembers s) (claimed s))).fault.phase == .running
      then weaveFault (clockFault 3) (leadTime (setMembers (claimedMembers s) (claimed s)))
      else leadTime (setMembers (claimedMembers s) (claimed s)) := by
    unfold principalClaim
    rw [hphase]
    dsimp only
    rw [hanchor, hlead, href, decide_eq_true hlate]
    rfl
  rw [hgo, hweave, Bool.false_and, if_neg Bool.false_ne_true]

/-- Of the packages that an anchor takes over with its basket at most three are anchors. -/
theorem takenOver_anchors (s : State) : (s.takenOver.filter (fun m => m.anchor)).length ≤ 3 := by
  unfold State.takenOver
  split
  · dsimp only
    generalize s.basket.heard.filterMap _ = heard
    rw [List.map_append, List.filter_append, List.length_append]
    have hstakes : ((heard.filter (fun x => !x.2)).map
        (fun (x : Nat × Bool) => (⟨BitVec.ofNat 6 x.1, none, x.2, 0⟩ : Member))).filter (fun m => m.anchor) = [] := by
      simp only [List.filter_eq_nil_iff, List.mem_map, List.mem_filter, forall_exists_index, and_imp]
      rintro m x - hstake rfl
      simpa using hstake
    rw [hstakes, List.length_nil, Nat.zero_add]
    refine (List.length_filter_le _ _).trans ?_
    rw [List.length_map, List.length_take]
    omega
  · simp

theorem takenOver_outsider {s : State} (h : s.basket.joined = false) : s.takenOver = [] := by
  simp [State.takenOver, h]

section Claim

variable {s : State} (h : Canon s)

include h

theorem claimed_wf : smWf resetVal (claimed s).regs = true := h.regs

theorem claimed_moves : RegMoves [Reg.withyJoinStatus, Reg.timeAlign, Reg.clkStatus] s
    (leadTime (setMembers (claimedMembers s) (claimed s))) := by
  have hclaimed : RegMoves [Reg.withyJoinStatus, Reg.timeAlign, Reg.clkStatus] s (claimed s) :=
    (RegMoves.refl _ h.regs).congr rfl
  have hmembers := (setMembers_moves (claimed_wf h) (claimedMembers s)).mono
    (offs' := [Reg.withyJoinStatus, Reg.timeAlign, Reg.clkStatus]) (by simp)
  exact (((hclaimed.trans hmembers).setFlag (off := Reg.clkStatus) 4 false (by simp)).setFlag
    (off := Reg.timeAlign) 24 true (by simp)).setFlag (off := Reg.timeAlign) 25 true (by simp)

end Claim

/-- A package that leads belt time: its flags. -/
theorem leadTime_reads {s : State} (h : smWf resetVal s.regs = true) : (leadTime s).flag Reg.clkStatus 4 = false ∧
    (leadTime s).aligned = true ∧ (leadTime s).flag Reg.timeAlign 25 = true ∧
    ∀ off, off ≠ Reg.clkStatus → off ≠ Reg.timeAlign → (leadTime s).reg off = s.reg off := by
  have h1 := setFlag_wf h Reg.clkStatus 4 false
  have h2 := setFlag_wf h1 Reg.timeAlign 24 true
  refine ⟨(flag_setFlag_reg_ne h2 (by decide) 25 true 4).trans ((flag_setFlag_reg_ne h1 (by decide) 24 true 4).trans
    (flag_setFlag h _ _ _ (by decide))), ?_, flag_setFlag h2 _ _ _ (by decide), fun off hclk halign => ?_⟩
  · exact (flag_setFlag_ne h2 Reg.timeAlign 24 25 true (by decide) (by decide)).trans (flag_setFlag h1 _ _ _ (by decide))
  · exact (reg_setFlag_ne h2 25 true halign).trans ((reg_setFlag_ne h1 24 true halign).trans (reg_setFlag_ne h 4 false hclk))

/-! ### JOIN at the principal -/

/-- The members once package `q` with its serial has joined. -/
def joinedMembers (w : LinkWord) (h : BitVec 8) (n : BitVec 64) (s : State) : List Member :=
  s.basket.members.filter (fun m => !m.is (lwByte w 2 % 64) n) ++ [⟨BitVec.ofNat 6 (lwByte w 2), some n, lwByte w 3 == 1, h⟩]

/-- The accepted package has its reply. -/
def joinAnswered (p : Port) (w : LinkWord) (h : BitVec 8) (s : State) : State :=
  sendCtrl p (joinReplyWord (lwByte w 2 % 64) (0 : Code).toNat h.toNat (Config.treePort (lwByte w 2 % 64) h.toNat % 4)) s

theorem join_accepted {p : Port} {w : LinkWord} {h : BitVec 8} {n : BitVec 64} {dv ok : Bool} {s : State}
    (hsub : ctrlSub w = 3) (hlead : s.basket.isPrincipal = true)
    (hok : joinVerdict s (lwByte w 2 % 64) (lwByte w 3) (lwNum w 4 8) (lwNum w 12 4) h.toNat n dv ok = 0) :
    ∃ word, join p w h n dv ok s = sendCtrl p word (setMembers (joinedMembers w h n s) (joinAnswered p w h s)) := by
  have hmembers : (joinAnswered p w h s).basket.members = s.basket.members :=
    (basket_congr (sendCtrl_beyondPorts ..)).2.2.2.2.1
  have hbyte : BitVec.ofNat 6 (lwByte w 2 % 64) = BitVec.ofNat 6 (lwByte w 2) := by
    rw [← BitVec.toNat_inj, BitVec.toNat_ofNat, BitVec.toNat_ofNat, Nat.mod_mod]
  have hlatch : latch 0 0 s = s := if_pos rfl
  unfold join
  dsimp only
  rw [if_neg (by simp [hsub]), if_pos hlead, hok, hlatch, if_pos rfl, ← joinAnswered, hmembers, hbyte, ← joinedMembers]
  exact ⟨_, rfl⟩

/-! ### JOIN_REPLY -/

/-- The package is joined over port `p`, and switches at the next boundary. -/
def joinedBy (p : Port) (w : LinkWord) (a : Nat) (s : State) : State :=
  { s.setFld Reg.withyJoinStatus 0 16 0 with basket := { s.basket with
    joined := true, outsider := false, joinAt := some (nextBoundary s), hops := BitVec.ofNat 8 (lwByte w 5), upstream := p,
    principal := BitVec.ofNat 6 a } }

/-- What waited of its own is dropped, and the basket's MULT and SPREAD wait for the boundary. -/
def adoptClock (b : Nat) (m : BitVec 6) (sp : BitVec 2) (s : State) : State :=
  { s with time := { s.time with
    pendStep := none, pendBeats := [],
    pendClock := if m = s.time.mult ∧ sp = s.time.spread then none else some (BitVec.ofNat 64 b, m, sp) } }

theorem joinReply_accepted {p : Port} {w : LinkWord} {a : Nat} {s : State} (h : Canon s) (hsub : ctrlSub w = 4)
    (hself : lwByte w 2 % 64 = s.pkg.toNat) (hout : s.basket.joined = false) (hok : lwNum w 3 2 = 0)
    (hlow : s.lowestAnchor = some a) (m : BitVec 6) (sp : BitVec 2) :
    joinReply p w (BitVec.ofNat 2 s.cryptMode) m sp s = adoptClock (nextBoundary s) m sp (joinedBy p w a s) := by
  have hmode : (BitVec.ofNat 2 s.cryptMode).toNat = s.cryptMode := by
    rw [BitVec.toNat_ofNat]
    exact Nat.mod_eq_of_lt (Nat.mod_lt _ (by decide))
  have hkeep : (joinedBy p w a s).cryptMode = s.cryptMode :=
    fld_setReg_ne h.regs _ 0 2 (by decide)
  have htake : takeMode s.cryptMode (joinedBy p w a s) = joinedBy p w a s := if_pos hkeep.symm
  have hlow' : (s.setFld Reg.withyJoinStatus 0 16 0).lowestAnchor = some a := hlow
  unfold joinReply
  dsimp only
  rw [if_neg (by simp [hsub]), if_neg (by simp [hself]), if_neg (by simp [hout]), if_neg (by simp [hok]), hlow', hmode]
  exact congrArg (adoptClock (nextBoundary s) m sp) htake

/-! ### The switch to the time tree (R28, R34) -/

/-- Belt time is the principal's, and the reference is the time-tree clock. -/
def switched (belt : BitVec 80) (s : State) : State :=
  let s := (s.setFlag Reg.clkStatus 4 true).setFlag Reg.timeAlign 24 false
  let s := { s with basket := { s.basket with joinAt := none } }
  let s := stepBelt belt { s with time := { s.time with slew := 0 } }
  { s with time := { s.time with
    pendBeats := s.time.pendBeats.map (fun (x : BitVec 64 × BitVec 22 × BitVec 64) => (resolveAgain s.nowNs x.1, x.2)) } }

/-- MULT and SPREAD that wait are taken. -/
def pendingRelock (s : State) : State :=
  match s.time.pendClock with
  | some (_, m, sp) => relockTo m sp s
  | none => s

theorem joinSwitch_due {b : BitVec 80} {n : Nat} {s : State} (hat : s.basket.joinAt = some n) (hdue : n ≤ s.nowNs) :
    joinSwitch b s = if (pendingRelock (switched b s)).cclkRuns then recomputeBeat (pendingRelock (switched b s))
      else pendingRelock (switched b s) := by
  unfold joinSwitch
  rw [hat]
  exact if_neg (by omega)

theorem joinSwitch_relock {b : BitVec 80} {n : Nat} {c : BitVec 64} {m : BitVec 6} {sp : BitVec 2} {s : State}
    (hat : s.basket.joinAt = some n) (hdue : n ≤ s.nowNs) (hclock : s.time.pendClock = some (c, m, sp)) :
    joinSwitch b s = relockTo m sp (switched b s) := by
  have hpend : (switched b s).time.pendClock = some (c, m, sp) := hclock
  have hrelock : pendingRelock (switched b s) = relockTo m sp (switched b s) := by rw [pendingRelock, hpend]
  rw [joinSwitch_due hat hdue, hrelock]
  exact if_neg Bool.false_ne_true

theorem joinSwitch_keep {b : BitVec 80} {n : Nat} {s : State} (hat : s.basket.joinAt = some n) (hdue : n ≤ s.nowNs)
    (hclock : s.time.pendClock = none) :
    joinSwitch b s = if s.cclkRuns then recomputeBeat (switched b s) else switched b s := by
  have hpend : (switched b s).time.pendClock = none := hclock
  have hkeep : pendingRelock (switched b s) = switched b s := by rw [pendingRelock, hpend]
  rw [joinSwitch_due hat hdue, hkeep]
  rfl

section Switch

variable {s : State} (h : smWf resetVal s.regs = true) (b : BitVec 80)

include h

theorem switched_moves : RegMoves [Reg.clkStatus, Reg.timeAlign] s (switched b s) := by
  have hmoves := ((RegMoves.refl [Reg.clkStatus, Reg.timeAlign] h).setFlag (off := Reg.clkStatus) 4 true (by simp)).setFlag
    (off := Reg.timeAlign) 24 false (by simp)
  exact hmoves.congr rfl

theorem switched_reads : (switched b s).flag Reg.clkStatus 4 = true ∧ (switched b s).aligned = false := by
  have h1 := setFlag_wf h Reg.clkStatus 4 true
  exact ⟨(flag_setFlag_reg_ne h1 (by decide) 24 false 4).trans (flag_setFlag h Reg.clkStatus 4 true (by decide)),
    flag_setFlag h1 Reg.timeAlign 24 false (by decide)⟩

end Switch

/-- A relock changes no flag but CORE_LOCK. -/
theorem relockTo_flag {s : State} (h : smWf resetVal s.regs = true) (m : BitVec 6) (sp : BitVec 2) {off i : Nat}
    (hcfg : off ≠ Reg.clkCoreCfg) (hi : off = Reg.clkStatus ∧ i ≠ 0 ∧ i < 32 ∨ off ≠ Reg.clkStatus) :
    (relockTo m sp s).flag off i = s.flag off i := by
  have h1 := setFld_wf h Reg.clkCoreCfg 0 6 m.toNat
  have h2 := setFld_wf h1 Reg.clkCoreCfg 8 2 sp.toNat
  have hfields : ((s.setFld Reg.clkCoreCfg 0 6 m.toNat).setFld Reg.clkCoreCfg 8 2 sp.toNat).flag off i = s.flag off i :=
    (flag_setFld_reg_ne h1 hcfg 8 2 sp.toNat i).trans (flag_setFld_reg_ne h hcfg 0 6 m.toNat i)
  rcases hi with ⟨rfl, hne, hlt⟩ | hne
  · exact (flag_setFlag_ne h2 Reg.clkStatus i 0 false hlt hne).trans hfields
  · exact (flag_setFlag_reg_ne h2 hne 0 false i).trans hfields

/-- A switch ends with belt time of the principal. -/
theorem joinSwitch_completes {b : BitVec 80} {n : Nat} {s : State} (h : Canon s) (hat : s.basket.joinAt = some n)
    (hdue : n ≤ s.nowNs) :
    (joinSwitch b s).time.belt = b ∧ (joinSwitch b s).time.slew = 0 ∧ (joinSwitch b s).flag Reg.clkStatus 4 = true ∧
    (joinSwitch b s).aligned = false ∧ (joinSwitch b s).basket = { s.basket with joinAt := none } ∧
    (joinSwitch b s).time.pendClock = none ∧
    (∀ c m sp, s.time.pendClock = some (c, m, sp) →
      (joinSwitch b s).time.mult = m ∧ (joinSwitch b s).time.spread = sp ∧ (joinSwitch b s).time.cclk = false) ∧
    (s.time.pendClock = none → (joinSwitch b s).time.mult = s.time.mult ∧ (joinSwitch b s).time.spread = s.time.spread ∧
      (s.time.cclk = true → (joinSwitch b s).time.beatNum = BitVec.ofNat 64 (joinSwitch b s).beatNow)) ∧
    RegsOnly [Reg.clkStatus, Reg.clkCoreCfg, Reg.timeAlign] s (joinSwitch b s) := by
  have hmoves := (switched_moves h.regs b).mono (offs' := [Reg.clkStatus, Reg.clkCoreCfg, Reg.timeAlign]) (by simp)
  obtain ⟨htree, haligned⟩ := switched_reads h.regs b
  cases hclock : s.time.pendClock with
  | none =>
    have hpend : (switched b s).time.pendClock = none := hclock
    rw [joinSwitch_keep hat hdue hclock]
    split
    · refine ⟨rfl, rfl, htree, haligned, rfl, hpend, by simp, fun _ => ⟨rfl, rfl, fun _ => rfl⟩, (hmoves.congr rfl).only⟩
    · next hstopped =>
      refine ⟨rfl, rfl, htree, haligned, rfl, hpend, by simp, fun _ => ⟨rfl, rfl, fun hruns => ?_⟩, hmoves.only⟩
      exact absurd hruns hstopped
  | some x =>
    obtain ⟨c, m, sp⟩ := x
    have hrelock := relockTo_regs hmoves.wf (m := m) (sp := sp)
    rw [joinSwitch_relock hat hdue hclock]
    refine ⟨rfl, rfl, ?_, ?_, rfl, rfl, ?_, by simp, ?_⟩
    · exact (relockTo_flag hmoves.wf m sp (by decide) (by decide)).trans htree
    · exact (relockTo_flag hmoves.wf m sp (by decide) (by decide)).trans haligned
    · rintro c' m' sp' heq
      cases heq
      exact ⟨rfl, rfl, rfl⟩
    · exact (hmoves.trans (hrelock.mono (by simp))).only

/-- Settles O12: basket words and TIME words, each by the equation of its operation. -/
theorem basketCommandsComplete : Obligations.BasketCommandsComplete := by
  refine ⟨?_, ?_, ?_, ?_, ?_, ?_, ?_, ?_, ?_, ?_, ?_, ?_⟩
  · intro s hlow
    have hkept : dropLostBasket s = s := dropLostBasket_kept fun hfollows _ hnone => by
      rw [hlow hfollows] at hnone
      cases hnone
    have heq : presenceFlood s = floodCtrl none s.ownPresence s := by
      rw [presenceFlood_eq, hkept, followPrincipal_same hlow]
    exact completes_of_eq rfl heq ⟨flooded_floodCtrl none s.ownPresence s, (floodCtrl_frame ..).only⟩
  · intro s hcanon hfollows hstake hnone
    obtain ⟨hjoined, hout, htree, haligned⟩ := becomeOutsider_completes hcanon
    have hidle : (becomeOutsider s).follows = false := by rw [State.follows, hjoined, Bool.false_and]
    have heq : presenceFlood s = floodCtrl none (becomeOutsider s).ownPresence (becomeOutsider s) := by
      rw [presenceFlood_eq, dropLostBasket_lost hfollows hstake hnone,
        followPrincipal_same fun hf => absurd (hidle.symm.trans hf) (by decide)]
    obtain ⟨hj, ho, -⟩ := basket_congr (floodCtrl_beyondPorts none (becomeOutsider s).ownPresence (becomeOutsider s))
    refine completes_of_eq rfl heq ⟨hj.trans hjoined, ho.trans hout, ?_, ?_⟩
    · rw [floodCtrl_flag, htree]
    · rw [State.aligned, floodCtrl_flag]
      exact haligned
  · intro a s hfollows hstake hlow hne
    have hkept : dropLostBasket s = s := dropLostBasket_kept fun _ _ hnone => by
      rw [hlow] at hnone
      cases hnone
    have heq : presenceFlood s = floodCtrl none (turnedTo a s).ownPresence (turnedTo a s) := by
      rw [presenceFlood_eq, hkept, followPrincipal_other hfollows hstake hlow hne]
    obtain ⟨hj, -, hprincipal, -⟩ := basket_congr (floodCtrl_beyondPorts none (turnedTo a s).ownPresence (turnedTo a s))
    have hjoined : s.basket.joined = true := by
      rw [State.follows, Bool.and_eq_true] at hfollows
      exact hfollows.1
    have hturned : Only [.basket] s (turnedTo a s) := only_iff.2 (by simp [turnedTo])
    exact completes_of_eq rfl heq ⟨hprincipal, hj.trans hjoined, hturned.trans (floodCtrl_frame ..).only⟩
  · intro p w s hsub hother hout hlead htree hheard
    have hfirst : Only [.basket] s (firstHeard p w s) := only_iff.2 (by simp [firstHeard])
    have hstands : smGet 5 (firstHeard p w s).basket.tree (lwByte w 2 % 64) = BitVec.ofNat 3 (portNum p) := by
      have hset : (firstHeard p w s).basket.tree = smSet 5 [] (lwByte w 2 % 64) (BitVec.ofNat 3 (portNum p)) := by
        rw [← htree]
        rfl
      rw [hset]
      exact smGet_smSet (d := fun _ => 5) (m := []) rfl
    have hports (q : Port) : (firstHeard p w s).port q = s.port q := by cases q <;> rfl
    have hlow := firstHeard_lowest (p := p) (w := w) hheard
    rcases followPrincipal_cases (firstHeard p w s) with hsame | ⟨a, hturn⟩
    · exact completes_of_eq rfl ((presence_outsider hsub hother hout hlead htree).trans hsame)
        ⟨hstands, hlow, hports, hfirst⟩
    · have hturned : Only [.basket] (firstHeard p w s) (turnedTo a (firstHeard p w s)) := only_iff.2 (by simp [turnedTo])
      refine completes_of_eq rfl ((presence_outsider hsub hother hout hlead htree).trans hturn)
        ⟨hstands, fun hid hrole => ?_, fun q => ?_, hfirst.trans hturned⟩
      · exact (lowestAnchor_congr rfl rfl).trans (hlow hid hrole)
      · exact (show _ = (firstHeard p w s).port q by cases q <;> rfl).trans (hports q)
  · intro s hcanon hphase hanchor hlead href hlate hidle
    have hmembers := setMembers_moves (claimed_wf hcanon) (claimedMembers s)
    obtain ⟨htree, haligned, hleads, hsame⟩ := leadTime_reads hmembers.wf
    refine completes_of_eq rfl (principalClaim_eq hphase hanchor hlead href hlate hidle)
      ⟨rfl, rfl, takenOver_anchors s, fun hout => ?_, htree, haligned, hleads, ?_, (claimed_moves hcanon).only⟩
    · have hcount : (claimedMembers s).length = 1 := by rw [claimedMembers, takenOver_outsider hout]; rfl
      rw [fld_eq_bits, hsame _ (by decide) (by decide), ← fld_eq_bits,
        setMembers_count (claimed_wf hcanon) (by rw [hcount]; decide), hcount]
    · exact only_iff.2 (by simp [leadTime, setMembers, claimed])
  · intro a p s hphase hout hlow hroute hup
    exact congrArg Host.Outcome.next (joinRetry_eq hphase hout hlow hroute hup)
  · intro p w h n dv ok s hcanon hsub hlead hok hroom
    obtain ⟨word, heq⟩ := join_accepted (p := p) hsub hlead hok
    have hanswer := sendCtrl_frame p (joinReplyWord (lwByte w 2 % 64) (0 : Code).toNat h.toNat
      (Config.treePort (lwByte w 2 % 64) h.toNat % 4)) s
    have hregs : (joinAnswered p w h s).regs = s.regs := (hanswer.only.2 .regs (by decide)).1
    have hwf : smWf resetVal (joinAnswered p w h s).regs = true := by rw [hregs]; exact hcanon.regs
    have hmembers := setMembers_moves hwf (joinedMembers w h n s)
    have hlast := sendCtrl_frame p word (setMembers (joinedMembers w h n s) (joinAnswered p w h s))
    have hlastRegs := (hlast.only.2 .regs (by decide)).1
    have hlist : (sendCtrl p word (setMembers (joinedMembers w h n s) (joinAnswered p w h s))).basket.members =
        joinedMembers w h n s := (basket_congr (sendCtrl_beyondPorts ..)).2.2.2.2.1
    have hlen : (joinedMembers w h n s).length < 128 := by
      rw [joinedMembers, List.length_append]
      exact Nat.lt_of_lt_of_le (Nat.add_lt_add_right hroom 1) (by decide)
    refine completes_of_eq rfl heq ⟨hlist, ?_, ?_, ?_, ?_⟩
    · rw [hlist, fld_eq_bits, reg_eq_of_regs_eq hlastRegs, ← fld_eq_bits, setMembers_count hwf hlen]
    · exact PortOnly.trans (PortOnly.congr (sendCtrl_portOnly p _ s) (port_setMembers _ _)) (sendCtrl_portOnly p word _)
    · exact (hanswer.only.mono (by simp)).trans ((setMembers_frame _ _).only.trans (hlast.only.mono (by simp)))
    · have hanswered : RegMoves [Reg.withyJoinStatus] s (joinAnswered p w h s) :=
        (RegMoves.refl _ hcanon.regs).congr hregs
      exact ((hanswered.trans hmembers).congr hlastRegs).only
  · intro p w m sp a s hcanon hsub hself hout hok hlow
    refine completes_of_eq rfl (joinReply_accepted hcanon hsub hself hout hok hlow m sp) ⟨rfl, rfl, ?_, ?_, ?_⟩
    · exact fld_setFld hcanon.regs Reg.withyJoinStatus 0 16 0 (by decide)
    · exact only_iff.2 (by simp [adoptClock, joinedBy])
    · have hmoves := (RegMoves.refl [Reg.withyJoinStatus] hcanon.regs).setFld (off := Reg.withyJoinStatus) 0 16 0 (by simp)
      exact (hmoves.congr rfl).only
  · intro b n s hcanon hat hdue
    obtain ⟨hbelt, hslew, htree, haligned, hbasket, hclock, hrelock, hkeep, hregs⟩ := joinSwitch_completes (b := b) hcanon hat hdue
    exact completes_of_next rfl ⟨hbelt, hslew, htree, haligned, hbasket, hclock, hrelock, hkeep,
      (exec_moves (c := .joinSwitch b) rfl).only, hregs⟩
  · intro p w s hnew
    obtain ⟨hflood, hlast, hframe⟩ := floodTime_completes (some p) w s
    refine completes_of_eq rfl (if_pos hnew) ⟨rfl, ?_, hlast, hflood.updTime _, ?_⟩
    · simp only [floodTime_time]
    · exact (hframe.mono (by simp)).trans (only_iff.2 (by simp))
  · intro p w s hnew
    obtain ⟨hflood, hlast, hframe⟩ := floodTime_completes (some p) w s
    refine completes_of_eq rfl (if_pos hnew) ⟨?_, hlast, hflood.updTime _, ?_⟩
    · simp only [pushBeat, floodTime_time]
    · exact (hframe.mono (by simp)).trans (only_iff.2 (by simp [pushBeat]))
  · intro p w s hnew
    obtain ⟨hflood, hlast, hframe⟩ := floodTime_completes (some p) w s
    refine completes_of_eq rfl (if_pos hnew) ⟨rfl, ?_, hlast, hflood.updTime _, ?_⟩
    · simp only [floodTime_time]
    · exact (hframe.mono (by simp)).trans (only_iff.2 (by simp))

end Sys2Proof.Machine
end

section
/-!
PROOFS. Memory.lean: maps whose keys rise, cores, and device memory with its poison marks (R273).
-/

namespace Sys2Proof.Machine

/-! ### Maps whose keys rise -/

section Rising

variable {α : Type} [DecidableEq α] {d : α} {m : SMap α} {k : Nat} {v : α}

/-- A read after a write of the same key gives the value written. -/
theorem smGet_smSet_rising (h : Rising m) : smGet d (smSet d m k v) k = v := by
  induction m with
  | nil => simp only [smSet]; split <;> simp_all [smGet]
  | cons p m ih =>
    obtain ⟨j, w⟩ := p
    obtain ⟨hlt, htail⟩ := List.pairwise_cons.1 h
    simp only [smSet]
    split
    · split
      · simp_all [smGet]
      · simp [smGet]
    · split
      · next hkj =>
        subst hkj
        split
        · next hv => rw [hv, smGet_below d hlt]
        · simp [smGet]
      · simp_all [smGet]

/-- A write leaves every other key alone. -/
theorem smGet_smSet_ne_rising {l : Nat} {e : α} (h : Rising m) (hl : l ≠ k) : smGet e (smSet d m k v) l = smGet e m l := by
  induction m with
  | nil => simp only [smSet]; split <;> simp_all [smGet]
  | cons p m ih =>
    obtain ⟨j, w⟩ := p
    obtain ⟨hlt, htail⟩ := List.pairwise_cons.1 h
    simp only [smSet]
    split
    · split
      · rfl
      · next hkj _ =>
        simp only [smGet]
        by_cases h1 : l < k
        · rw [if_pos h1, if_pos (by omega)]
        · rw [if_neg h1, if_neg hl]
    · split
      · next hkj =>
        subst hkj
        split
        · simp only [smGet]
          by_cases h1 : l < k
          · rw [if_pos h1]
            exact smGet_below _ fun q hq => Nat.lt_trans h1 (hlt q hq)
          · rw [if_neg h1, if_neg hl]
        · simp only [smGet, if_neg hl]
      · simp only [smGet, ih htail]

end Rising

/-! ### Cores -/

/-- A core that has been set. -/
theorem core_setCore {s : State} (h : Rising s.cores) (n : Nat) (c : CoreState) : (s.setCore n c).core n = c :=
  smGet_smSet_rising h

theorem core_setCore_ne {s : State} (h : Rising s.cores) {n k : Nat} (c : CoreState) (hne : k ≠ n) :
    (s.setCore n c).core k = s.core k := smGet_smSet_ne_rising h hne

theorem core_congr {s t : State} (h : t.cores = s.cores) (n : Nat) : t.core n = s.core n := by
  rw [State.core, h, State.core]

theorem setCore_only (s : State) (n : Nat) (c : CoreState) : Only [.cores] s (s.setCore n c) :=
  (State_setCore_only s n c (.refl [.cores] s) (by simp)).only

theorem setCore_rising {s : State} (h : Rising s.cores) (n : Nat) (c : CoreState) : Rising (s.setCore n c).cores :=
  smSet_rising n c h

/-! ### Device memory -/

theorem smGetAll_append {α : Type} (d : α) (m : SMap α) (k a b : Nat) :
    smGetAll d m k (a + b) = smGetAll d m k a ++ smGetAll d m (k + a) b := by
  induction a generalizing k with
  | zero => simp [smGetAll]
  | succ a ih =>
    have hsum : a + 1 + b = (a + b) + 1 := by omega
    have hkey : k + 1 + a = k + (a + 1) := by omega
    rw [hsum, smGetAll, ih, smGetAll, List.cons_append, hkey]

/-- A range read in two parts. -/
theorem rdMem_add (s : State) (a n k : Nat) : s.rdMem a (n + k) = s.rdMem a n ++ s.rdMem (a + n) k :=
  smGetAll_append 0 s.mem a n k

/-- Bytes outside what an operation writes read as before. -/
theorem MemMoves.rdMem_eq {a n b k : Nat} {s t : State} (h : MemMoves a n s t) (hout : b + k ≤ a ∨ a + n ≤ b) :
    t.rdMem b k = s.rdMem b k := rdMem_congr fun x hlo hhi => h.only x (by omega)

theorem wrMem_moves {s : State} (h : Memory.wf s.mem = true) (a : Nat) (l : List Byte) :
    MemMoves a l.length s (wrMem a l s) := (MemMoves.refl a l.length h).wrMemP false (le_refl _) (le_refl _)

theorem rdMem_wrMem {s : State} (h : Memory.wf s.mem = true) (a : Nat) (l : List Byte) :
    (wrMem a l s).rdMem a l.length = l := rdMem_wrMemP h a l false

theorem wrMemP_frame (a : Nat) (l : List Byte) (bad : Bool) (s : State) : Only [.mem, .poison] s (wrMemP a l bad s) :=
  only_iff.2 (by simp [wrMemP])

/-- Chunks that are written without a mark are not poisoned. -/
theorem poisoned_wrMem {s : State} (h : smWf (fun _ => false) s.poison = true) (a : Nat) (l : List Byte) :
    (wrMem a l s).poisoned a l.length = false := by
  have hclear : ∀ (cs : List Nat) (m : SMap Bool), smWf (fun _ => false) m = true → ∀ c,
      smGet false (cs.foldl (fun m c => smSet false m c false) m) c = if c ∈ cs then false else smGet false m c := by
    intro cs
    induction cs with
    | nil => simp
    | cons b cs ih =>
      intro m hm c
      rw [List.foldl_cons, ih _ (smSet_wf (d := fun _ => false) hm)]
      by_cases hc : c = b
      · subst hc
        rw [smGet_smSet (d := fun _ => false) hm]
        simp
      · rw [smGet_smSet_ne (d := fun _ => false) hm hc]
        simp [hc]
  have hpoison : (wrMem a l s).poison = (chunks a l.length).foldl (fun m c => smSet false m c false) s.poison := rfl
  rw [State.poisoned, hpoison]
  simp only [List.any_eq_false, hclear _ _ h]
  intro c hc
  simp [hc]

theorem bytesOf_length (l : Marked) : (bytesOf l).length = l.length := by simp [bytesOf]

/-- Marked bytes change no byte beyond them, and read back. -/
theorem writeMarked_moves (n : Nat) : ∀ (a : Nat) (l : Marked) (s : State), l.length ≤ n → Memory.wf s.mem = true →
    MemMoves a l.length s (writeMarked n a l s) ∧ (writeMarked n a l s).rdMem a l.length = bytesOf l ∧
    Only [.mem, .poison] s (writeMarked n a l s) := by
  induction n with
  | zero =>
    intro a l s hlen h
    obtain rfl : l = [] := List.length_eq_zero_iff.1 (by omega)
    exact ⟨.refl _ _ h, rfl, .refl _ s⟩
  | succ n ih =>
    intro a l s hlen h
    by_cases hnil : l = []
    · subst hnil
      exact ⟨.refl _ _ h, rfl, .refl _ s⟩
    · have hstep : writeMarked (n + 1) a l s = writeMarked n (a + (16 - a % 16)) (l.drop (16 - a % 16))
          (wrMemP a (bytesOf (l.take (16 - a % 16))) (anyBad (l.take (16 - a % 16))) s) := by
        have hempty : l.isEmpty = false := by simpa using hnil
        rw [writeMarked, hempty, if_neg Bool.false_ne_true]
      have hpos : 0 < 16 - a % 16 := by omega
      generalize 16 - a % 16 = k at hstep hpos
      have hcut : (bytesOf (l.take k)).length = min k l.length := by rw [bytesOf_length, List.length_take]
      have hrest : (l.drop k).length = l.length - k := List.length_drop
      have hhead : MemMoves a l.length s (wrMemP a (bytesOf (l.take k)) (anyBad (l.take k)) s) :=
        (MemMoves.refl a l.length h).wrMemP _ (le_refl a) (by omega)
      obtain ⟨hmoves, hreads, honly⟩ := ih (a + k) (l.drop k) _ (by omega) hhead.wf
      rw [hstep]
      refine ⟨?_, ?_, (wrMemP_frame ..).trans honly⟩
      · by_cases hk : k ≤ l.length
        · exact hhead.trans (hmoves.mono (by omega) (by omega))
        · have hdrop : l.drop k = [] := List.drop_eq_nil_of_le (by omega)
          rw [hdrop] at hmoves ⊢
          exact hhead.trans ⟨hmoves.wf, fun x _ => hmoves.only x (by simp only [List.length_nil]; omega)⟩
      · have hsplit : bytesOf l = bytesOf (l.take k) ++ bytesOf (l.drop k) := by
          rw [bytesOf, bytesOf, bytesOf, ← List.map_append, List.take_append_drop]
        have hsum : l.length = (bytesOf (l.take k)).length + (l.drop k).length := by omega
        have hfirst := rdMem_wrMemP h a (bytesOf (l.take k)) (anyBad (l.take k))
        rw [hsplit, hsum, rdMem_add, hmoves.rdMem_eq (b := a) (k := (bytesOf (l.take k)).length) (by omega), hfirst]
        by_cases hk : k ≤ l.length
        · have hlen' : (bytesOf (l.take k)).length = k := by omega
          rw [hlen', hreads]
        · have hdrop : l.drop k = [] := List.drop_eq_nil_of_le (by omega)
          rw [hdrop]
          rfl

/-- What a write of marked bytes leaves. -/
theorem wrMarked_completes {s : State} (h : Canon s) (a : Nat) (l : Marked) :
    MemMoves a l.length s (wrMarked a l s) ∧ (wrMarked a l s).rdMem a l.length = bytesOf l ∧
    (anyBad l = false → (wrMarked a l s).poisoned a l.length = false) ∧ Only [.mem, .poison] s (wrMarked a l s) := by
  unfold wrMarked
  split
  · next hbad =>
    obtain ⟨hmoves, hreads, honly⟩ := writeMarked_moves l.length a l s (le_refl _) h.mem
    exact ⟨hmoves, hreads, fun hclean => absurd (hbad.symm.trans hclean) (by decide), honly⟩
  · have hmoves := wrMem_moves h.mem a (bytesOf l)
    have hreads := rdMem_wrMem h.mem a (bytesOf l)
    have hpoison := poisoned_wrMem h.poison a (bytesOf l)
    rw [bytesOf_length] at hmoves hreads hpoison
    exact ⟨hmoves, hreads, fun _ => hpoison, wrMemP_frame ..⟩

end Sys2Proof.Machine
end

section
/-!
PROOFS. Windows.lean: windows and remote access (R60 to R62), loose messages (R54 to R56), and forwarded register access (R63).
-/

namespace Sys2Proof.Machine

/-! ### Loose messages (R54 to R56) -/

theorem drainOutbox_nil (s : State) : drainOutbox [] s = { s with basket := { s.basket with outbox := [] } } := rfl

theorem drainOutbox_nil_port (s : State) (p : Port) : (drainOutbox [] s).port p = s.port p := by cases p <;> rfl

theorem drainOutbox_nil_of_empty {s : State} (h : s.basket.outbox = []) : drainOutbox [] s = s := by
  rw [drainOutbox_nil, ← h]

/-- A message counted in the sequence of this package. -/
def seqCounted (s : State) : State := { s with basket := { s.basket with looseSeq := s.basket.looseSeq + 1 } }

theorem seqCounted_port (s : State) (p : Port) : (seqCounted s).port p = s.port p := by cases p <;> rfl

theorem looseWay_congr {s t : State} (hroute : ∀ d, t.route d = s.route d) (hport : ∀ p, t.port p = s.port p)
    (hdate : ∀ d, t.dateline d = s.dateline d) (hjoined : t.basket.joined = s.basket.joined)
    (hmode : t.cryptMode = s.cryptMode) (m : Loose) : t.looseWay m = s.looseWay m := by
  have hpass (x : LinkPort) : t.loosePasses x = s.loosePasses x := by
    rw [State.loosePasses, State.payloadPasses, hjoined, hmode, State.loosePasses, State.payloadPasses]
  unfold State.looseWay State.egress
  simp only [hroute, hport, hdate, hpass]

/-- A message sent on over a port is kept there until its ACK, and spends credits of its class. -/
def sentPort (m : Loose) (x : LinkPort) : LinkPort :=
  { x with credits0 := if m.cls1 then x.credits0 else x.credits0 - looseSlots m,
           credits1 := if m.cls1 then x.credits1 - looseSlots m else x.credits1,
           unacked := x.unacked ++ [(x.ctr + 1, m)] }

theorem sendOn_eq (p : Port) (m : Loose) (s : State) : sendOn p m s = (s.setPort p (sentPort m (s.port p))).emit (.loose p m) :=
  rfl

theorem sendOn_frame (p : Port) (m : Loose) (s : State) : Moves [.out, .basket] s (sendOn p m s) :=
  sendOn_only p m s (.refl _ s) (List.Subset.refl _)

theorem sendOn_looseSeq (p : Port) (m : Loose) (s : State) : (sendOn p m s).basket.looseSeq = s.basket.looseSeq := by
  cases p <;> rfl

theorem drainOutbox_looseSeq (l : List Loose) (s : State) : (drainOutbox l s).basket.looseSeq = s.basket.looseSeq := by
  induction l generalizing s with
  | nil => rfl
  | cons m l ih =>
    unfold drainOutbox
    split
    · rw [ih, emit_basket, latch_basket]
    · split
      · rw [ih, sendOn_looseSeq]
      · rfl

theorem port_emit (s : State) (o : Out) (p : Port) : (s.emit o).port p = s.port p := by cases p <;> rfl

section SendLoose

variable {m : Loose} {s : State} (hway : s.route (m.dst.setWidth 6) ≠ 5)

include hway

theorem sendLoose_local (hlocal : s.route (m.dst.setWidth 6) = 4) : sendLoose m s = (seqCounted s).emit (.message m) := by
  have hlocal' : (seqCounted s).route (m.dst.setWidth 6) = 4 := hlocal
  unfold sendLoose
  dsimp only
  rw [if_neg hway]
  exact if_pos hlocal'

theorem sendLoose_alone (haway : s.route (m.dst.setWidth 6) ≠ 4) (hempty : s.basket.outbox = []) :
    sendLoose m s = drainOutbox [m] (seqCounted s) := by
  have haway' : ¬(seqCounted s).route (m.dst.setWidth 6) = 4 := haway
  have hempty' : (seqCounted s).basket.outbox ++ [m] = [m] := by
    have hsame : (seqCounted s).basket.outbox = s.basket.outbox := rfl
    rw [hsame, hempty, List.nil_append]
  unfold sendLoose
  dsimp only
  rw [if_neg hway, ← seqCounted]
  exact (if_neg haway').trans (congrArg (fun l => drainOutbox l (seqCounted s)) hempty')

theorem drainOutbox_way {o : Port} {x : Loose} (hfound : s.looseWay m = some (o, x)) :
    drainOutbox [m] s = drainOutbox [] (sendOn o x s) := by
  simp only [drainOutbox, if_neg hway, hfound]

theorem drainOutbox_stays (hnone : s.looseWay m = none) :
    drainOutbox [m] s = { s with basket := { s.basket with outbox := [m] } } := by
  simp only [drainOutbox, if_neg hway, hnone]

/-- A message of this package with a route is on its way. -/
theorem sent_sendLoose : Sent m s (sendLoose m s) ∧ (s.basket.outbox = [] → (sendLoose m s).regs = s.regs) := by
  have hsame : (seqCounted s).looseWay m = s.looseWay m :=
    looseWay_congr (fun _ => rfl) (seqCounted_port s) (fun _ => rfl) rfl rfl m
  have hway' : (seqCounted s).route (m.dst.setWidth 6) ≠ 5 := hway
  have hseq : (sendLoose m s).basket.looseSeq = s.basket.looseSeq + 1 := by
    unfold sendLoose
    dsimp only
    rw [if_neg hway]
    split
    · rfl
    · rw [drainOutbox_looseSeq]
  refine ⟨⟨hseq, fun hlocal => ?_, fun haway hempty => ?_⟩, fun hempty => ?_⟩
  · rw [sendLoose_local hway hlocal]
    exact ⟨rfl, rfl⟩
  · rw [sendLoose_alone hway haway hempty]
    split
    · next o x hfound =>
      rw [drainOutbox_way hway' (hsame.trans hfound)]
      refine ⟨?_, rfl, fun q hq => ?_, ?_⟩
      · rw [drainOutbox_nil, sendOn_eq]
        simp [seqCounted]
      · rw [drainOutbox_nil_port, sendOn_eq, port_emit, setPort_port_ne _ _ _ _ hq, seqCounted_port]
      · rw [drainOutbox_nil_port, sendOn_eq, port_emit, setPort_port, seqCounted_port]
        rfl
    · next hnone =>
      rw [drainOutbox_stays hway' (hsame.trans hnone)]
      exact ⟨rfl, rfl, fun p => by cases p <;> rfl⟩
  · by_cases hlocal : s.route (m.dst.setWidth 6) = 4
    · rw [sendLoose_local hway hlocal]
      rfl
    · rw [sendLoose_alone hway hlocal hempty]
      cases hfound : s.looseWay m with
      | none =>
        rw [drainOutbox_stays hway' (hsame.trans hfound)]
        rfl
      | some ox =>
        rw [drainOutbox_way hway' (hsame.trans hfound), drainOutbox_nil, sendOn_eq]
        simp [seqCounted]

end SendLoose

/-! ### Windows (R60 to R62) -/

theorem winCtlWrite_eq {i : Fin 32} {v : Word} {s : State} (hs : Served s)
    (hopen : nbit (bits v 0 3) 0 = true → s.flag (Reg.winCtl i.val) 0 = false → winOpenVerdict s i.val = 0) :
    winCtlWrite i v 15 s = s.setFld (Reg.winCtl i.val) 0 3 (bits v 0 3) := by
  have hword : mergeBytes (s.reg (Reg.winCtl i.val)) v 15 = v := mergeBytes_full _ _
  unfold winCtlWrite
  dsimp only
  rw [answers_of_served hs, hword, Bool.not_true, if_neg Bool.false_ne_true]
  refine if_neg ?_
  split
  · next hopens =>
    rw [Bool.and_eq_true, Bool.not_eq_true'] at hopens
    simpa using hopen hopens.1 hopens.2
  · simp

/-- A window that admits an access is one of the 32. -/
theorem winJudge_lt {s : State} {src : BitVec 6} {a len i : Nat} {write : Bool} (h : winJudge s src a len write = .ok i) :
    i < 32 := by
  unfold winJudge at h
  generalize (if write = true then 2 else 1) = perm at h
  split at h
  · simp at h
  · split at h
    · simp at h
    · split at h
      · simp at h
      · next j hj =>
        split at h
        · simp at h
        · split at h
          · simp at h
          · cases h
            have hmem := List.mem_of_find?_eq_some hj
            simpa using hmem

theorem winCount_moves {s : State} (h : smWf resetVal s.regs = true) (i : Nat) :
    RegMoves [Reg.winHits i] s (winCount i s) :=
  (RegMoves.refl _ h).bumpSat (off := Reg.winHits i) 32 1 (by simp)

theorem winCount_frame (i : Nat) (s : State) : Only [.regs] s (winCount i s) :=
  (winCount_only i s (.refl [.regs] s) (by simp)).only

/-- The hits of a window count up. -/
theorem winCount_reg {s : State} (h : smWf resetVal s.regs = true) (i : Nat) :
    ((winCount i s).reg (Reg.winHits i)).toNat = min (2 ^ 32 - 1) ((s.reg (Reg.winHits i)).toNat + 1) := by
  have hfld := fld_bumpSat h (Reg.winHits i) 32 1 (by decide)
  have hfull (w : Word) : bits w 0 32 = w.toNat := by
    rw [bits, Nat.shiftRight_zero, Nat.mod_eq_of_lt w.isLt]
  rw [fld_eq_bits, fld_eq_bits, hfull, hfull] at hfld
  rw [winCount, hfld, Nat.min_comm]

section Remote

variable {q : RemoteReq} {i : Nat} {s : State}

theorem winWrite_store (hok : winJudge s q.src (s.localAddr q.addr.toNat) q.data.length true = .ok i)
    (hplace : placeLocal (s.localAddr q.addr.toNat) = .store) :
    winWrite q s = wrMarked (s.localAddr q.addr.toNat) q.data (winCount i s) := by
  have hroom : s.rRoom (s.localAddr q.addr.toNat) q.data.length = true := by rw [State.rRoom, hplace]
  unfold winWrite
  dsimp only
  rw [hok]
  dsimp only
  rw [hroom, hplace]
  rfl

theorem winWrite_scratch {n off : Nat} (hok : winJudge s q.src (s.localAddr q.addr.toNat) q.data.length true = .ok i)
    (hplace : placeLocal (s.localAddr q.addr.toNat) = .scratch n off)
    (hroom : s.rRoom (s.localAddr q.addr.toNat) q.data.length = true) :
    winWrite q s = queueR n (remoteReqs q.src off q.data.length (some q.data)) (winCount i s) := by
  unfold winWrite
  dsimp only
  rw [hok]
  dsimp only
  rw [hroom, hplace]
  rfl

theorem winRead_scratch {n off : Nat} (hok : winJudge s q.src (s.localAddr q.addr.toNat) q.len false = .ok i)
    (hplace : placeLocal (s.localAddr q.addr.toNat) = .scratch n off)
    (hroom : s.rRoom (s.localAddr q.addr.toNat) q.len = true) :
    winRead q s = queueR n (remoteReqs q.src off q.len none) (winCount i s) := by
  unfold winRead
  dsimp only
  rw [hok]
  dsimp only
  rw [hroom, hplace]
  rfl

theorem winRead_store (hok : winJudge s q.src (s.localAddr q.addr.toNat) q.len false = .ok i)
    (hplace : placeLocal (s.localAddr q.addr.toNat) = .store) :
    winRead q s = sendLoose (s.mkMarked 5 q.src q.addr (s.rdMarked (s.localAddr q.addr.toNat) q.len)) (winCount i s) := by
  have hroom : s.rRoom (s.localAddr q.addr.toNat) q.len = true := by rw [State.rRoom, hplace]
  unfold winRead
  dsimp only
  rw [hok]
  dsimp only
  rw [hroom, hplace]
  rfl

end Remote

/-- Requests join the R queue of their core. -/
theorem queueR_completes {s : State} (h : Rising s.cores) (n : Nat) (qs : List RReq) :
    ((queueR n qs s).core n).rq = (s.core n).rq ++ qs ∧ Only [.cores] s (queueR n qs s) := by
  rw [queueR, core_setCore h]
  exact ⟨rfl, setCore_only ..⟩

/-- An access that is counted queues at its core. -/
theorem winCount_queueR {s : State} (h : Canon s) (i n : Nat) (qs : List RReq) :
    ((queueR n qs (winCount i s)).core n).rq = (s.core n).rq ++ qs ∧
    Only [.regs, .cores] s (queueR n qs (winCount i s)) ∧ RegsOnly [Reg.winHits i] s (queueR n qs (winCount i s)) := by
  have hcores : Rising (winCount i s).cores := h.cores
  obtain ⟨hrq, honly⟩ := queueR_completes hcores n qs
  exact ⟨hrq, ((winCount_frame i s).mono (by simp)).trans (honly.mono (by simp)),
    ((winCount_moves h.regs i).congr (honly.2 .regs (by decide)).1).only⟩

theorem winHits_ne {i : Nat} (h : i < 32) : Reg.withyCrypt ≠ Reg.winHits i := by
  simp only [Reg.withyCrypt, Reg.winHits]
  omega

/-- A message goes its way whatever the windows have counted. -/
theorem Sent.of_winCount {m : Loose} {i : Nat} {s t : State} (h : Sent m (winCount i s) t) (hcanon : Canon s)
    (hi : i < 32) : Sent m s t := by
  have hmode : (winCount i s).cryptMode = s.cryptMode := by
    rw [State.cryptMode, fld_eq_bits, (winCount_moves hcanon.regs i).only _ (by simpa using winHits_ne hi), ← fld_eq_bits,
      State.cryptMode]
  have hport (p : Port) : (winCount i s).port p = s.port p := by cases p <;> rfl
  have hway : (winCount i s).looseWay m = s.looseWay m :=
    looseWay_congr (s := s) (t := winCount i s) (fun _ => rfl) hport (fun _ => rfl) rfl hmode m
  unfold Sent at h ⊢
  rw [hway] at h
  simp only [PortOnly, hport] at h ⊢
  exact h

/-! ### Forwarded register access (R63) -/

/-- An access has left for its target, and BUSY stands. -/
def fwdBusy (d : Option Word) (s : State) : State :=
  let tgt : BitVec 6 := BitVec.ofNat 6 (s.fld Reg.withyFwdTgt 0 6)
  let ofs : BitVec 20 := BitVec.ofNat 20 (s.fld Reg.withyFwdOfs 2 18 * 4)
  { s.setReg Reg.withyFwdStatus 1 with
    basket := { s.basket with fwd := some (tgt, ofs, d), fwdNs := s.nowNs }, out := s.out ++ [.fwdAccess tgt ofs d] }

theorem fwdStart_read {s : State} (hs : Served s) (hidle : s.flag Reg.withyFwdStatus 0 = false) :
    fwdStart false s = fwdBusy none s := by
  unfold fwdStart
  rw [answers_of_served hs, hidle]
  rfl

theorem fwdStart_write {s : State} (hs : Served s) (hidle : s.flag Reg.withyFwdStatus 0 = false) :
    fwdStart true s = fwdBusy (some (s.reg Reg.withyFwdData)) s := by
  unfold fwdStart
  rw [answers_of_served hs, hidle]
  rfl

/-- An access has ended with a code. -/
def fwdEnded (c : Code) (s : State) : State :=
  { s.setReg Reg.withyFwdStatus (BitVec.ofNat 32 (c.toNat * 2 ^ 16)) with basket := { s.basket with fwd := none } }

theorem fwdResponse_read {tg : BitVec 6} {o : BitVec 20} {s : State} (h : s.basket.fwd = some (tg, o, none)) (d : Word) :
    fwdResponse 0 d s = fwdEnded 0 (s.setReg Reg.withyFwdData d) := by
  unfold fwdResponse
  rw [h]
  rfl

theorem fwdTimeout_eq {s : State} (hfwd : s.basket.fwd ≠ none) (hlate : s.basket.fwdNs + 100000 ≤ s.nowNs) :
    fwdTimeout s = fwdEnded eFwdTimeout (latch eFwdTimeout 0 s) := by
  have hsome : s.basket.fwd.isSome = true := Option.isSome_iff_ne_none.2 hfwd
  unfold fwdTimeout
  rw [hsome, decide_eq_true hlate]
  rfl

/-- CODE and BUSY of WITHY_FWD_STATUS once an access has ended. -/
theorem fwdEnded_reads {s : State} (h : smWf resetVal s.regs = true) (c : Code) :
    (fwdEnded c s).fld Reg.withyFwdStatus 16 16 = c.toNat ∧ (fwdEnded c s).flag Reg.withyFwdStatus 0 = false := by
  have hreg : (fwdEnded c s).reg Reg.withyFwdStatus = BitVec.ofNat 32 (c.toNat * 2 ^ 16) := reg_setReg h _ _
  have hlt := c.isLt
  constructor
  · rw [fld_eq_bits, hreg, bits, BitVec.toNat_ofNat, Nat.shiftRight_eq_div_pow]
    omega
  · rw [State.flag, hreg, BitVec.getLsbD_ofNat, Nat.testBit_zero]
    simp only [Nat.zero_lt_succ, decide_true, Bool.true_and, decide_eq_false_iff_not]
    omega

end Sys2Proof.Machine
end

section
/-!
PROOFS. LinkFrames.lean: link frames received whole (R47 to R50, R55, R56) and the loose messages that an ingress stores (R54,
R55).
-/

namespace Sys2Proof.Machine

theorem setPort_setPort (s : State) (p : Port) (x y : LinkPort) : (s.setPort p x).setPort p y = s.setPort p y := by
  cases p <;> rfl

/-- The distance to the principal, where a frame of the upstream port gives it. -/
def hopsTaken (p : Port) (f : LinkFrame) (s : State) : State :=
  { s with basket := { s.basket with
    hops := if s.follows = true ∧ s.basket.upstream = p ∧ f.hops ≠ 0xFF then f.hops + 1 else s.basket.hops } }

/-- A port once the FRAME word and the CREDIT words of a frame are taken, with no header error. -/
def framePort (f : LinkFrame) (x : LinkPort) : LinkPort :=
  { x with peer := f.sender.setWidth 6, peerIn := f.principal != 0xFF, rxCtr := x.rxCtr + 1,
           credits0 := min 16 (x.credits0 + f.credit0.toNat), credits1 := min 16 (x.credits1 + f.credit1.toNat),
           unacked := x.unacked.filter (fun u => decide (f.ack < u.1)), hdrErrs := [] }

theorem frameWord_eq (p : Port) (f : LinkFrame) (s : State) : frameWord p f s = (hopsTaken p f s).setPort p
    { s.port p with peer := f.sender.setWidth 6, peerIn := f.principal != 0xFF, rxCtr := (s.port p).rxCtr + 1 } := by
  have hfollows (x : LinkPort) : (s.setPort p x).follows = s.follows := by cases p <;> rfl
  have hup (x : LinkPort) : (s.setPort p x).basket.upstream = s.basket.upstream := by cases p <;> rfl
  unfold frameWord hopsTaken
  dsimp only
  rw [hfollows, hup]
  by_cases htaken : s.follows = true ∧ s.basket.upstream = p ∧ f.hops ≠ 0xFF
  · rw [if_pos htaken, if_pos (by simpa [and_assoc] using htaken)]
    cases p <;> rfl
  · rw [if_neg htaken, if_neg (by simpa [and_assoc] using htaken)]

section QuietFrame

variable {p : Port} {f : LinkFrame} {s : State} (hout : s.basket.outbox = []) (hnak : f.nak = false)

include hout hnak

theorem creditsIn_quiet : creditsIn p f s = s.setPort p { s.port p with
    credits0 := min 16 ((s.port p).credits0 + f.credit0.toNat), credits1 := min 16 ((s.port p).credits1 + f.credit1.toNat),
    unacked := (s.port p).unacked.filter (fun u => decide (f.ack < u.1)) } := by
  have hkeep (x : LinkPort) : (s.setPort p x).basket.outbox = [] := (outbox_congr (setPort_beyondPorts s p x)).trans hout
  unfold creditsIn
  dsimp only
  rw [hnak, Bool.false_and, Bool.false_and, if_neg Bool.false_ne_true, hkeep, drainOutbox_nil_of_empty (hkeep _)]

end QuietFrame

theorem headersIn_quiet {p : Port} {f : LinkFrame} {s : State} (hlog : (s.port p).hdrErrs = []) (herr : f.headerErrs = []) :
    headersIn p f [] s = s.setPort p { s.port p with hdrErrs := [] } := by
  have hlanes : headerLanes (s.port p) f [] = [] := by simp [headerLanes, herr]
  have hgood : badLane ([] : List (Fin 4 × Nat)) = none := rfl
  unfold headersIn
  dsimp only
  rw [hlanes, hlog]
  simp only [List.map_nil, List.filter_nil, List.append_nil, List.foldl_nil, hgood]

/-- The FRAME word and the CREDIT words of a frame are taken. -/
def frameTaken (p : Port) (f : LinkFrame) (s : State) : State := (hopsTaken p f s).setPort p (framePort f (s.port p))

section FrameTaken

variable (p : Port) (f : LinkFrame) (s : State)

theorem hopsTaken_port (q : Port) : (hopsTaken p f s).port q = s.port q := by cases q <;> rfl

theorem frameTaken_port : (frameTaken p f s).port p = framePort f (s.port p) := setPort_port ..

theorem frameTaken_portOnly : PortOnly p s (frameTaken p f s) :=
  PortOnly.trans (PortOnly.congr (PortOnly.refl p s) (hopsTaken_port p f s)) (PortOnly.setPort p _ _)

theorem frameTaken_frame : Moves [.basket] s (frameTaken p f s) :=
  State_setPort_only _ p _ (.updBasket (.refl _ s) (by simp)) (by simp)

theorem frameTaken_regs : (frameTaken p f s).regs = s.regs := setPort_regs ..

theorem frameTaken_out : (frameTaken p f s).out = s.out := setPort_out ..

theorem frameTaken_cryptMode : (frameTaken p f s).cryptMode = s.cryptMode := by
  rw [State.cryptMode, fld_eq_bits, reg_eq_of_regs_eq (frameTaken_regs p f s), ← fld_eq_bits, State.cryptMode]

theorem frameTaken_basket : (frameTaken p f s).basket.joined = s.basket.joined ∧
    (frameTaken p f s).basket.hops =
      (if s.follows = true ∧ s.basket.upstream = p ∧ f.hops ≠ 0xFF then f.hops + 1 else s.basket.hops) := by
  cases p <;> exact ⟨rfl, rfl⟩

end FrameTaken

/-- A frame with no service word, no header error and no static word passes: what is left is its loose slots. -/
theorem linkFrame_quiet {p : Port} {f : LinkFrame} {s : State} (hup : (s.port p).up = true) (hlog : (s.port p).hdrErrs = [])
    (hout : s.basket.outbox = []) (herr : f.headerErrs = []) (htypes : f.otherTypes = []) (hctrl : f.ctrl = [])
    (hnak : f.nak = false) (hstat : f.statics = [] ∨ s.weaveActive = false) : linkFrame p f s =
      if frameFails f [] s then frameBad p f (frameTaken p f s)
      else frameGood p f (frameTaken p f s) := by
  have hblocks : badBlocks f [] = false := by simp [badBlocks, htypes]
  have hword : frameWord p f s = (hopsTaken p f s).setPort p
      { s.port p with peer := f.sender.setWidth 6, peerIn := f.principal != 0xFF, rxCtr := (s.port p).rxCtr + 1 } :=
    frameWord_eq p f s
  have hactive : (frameWord p f s).weaveActive = s.weaveActive := by
    have honly := (frameWord_only p f s (.refl [.basket] s) (by simp)).only.2
    rw [State.weaveActive, honly .weave (by decide), honly .fault (by decide), State.weaveActive]
  have hstatics (g : State → Nat × LinkWord → State) (b : Bool) :
      (if ((frameWord p f s).weaveActive && b) = true then f.statics.foldl g (frameWord p f s) else frameWord p f s) =
        frameWord p f s := by
    rcases hstat with hnone | hidle
    · rw [hnone, List.foldl_nil, ite_self]
    · rw [hactive, hidle, Bool.false_and, if_neg Bool.false_ne_true]
  have hempty : (frameWord p f s).basket.outbox = [] := by
    rw [hword, outbox_congr (setPort_beyondPorts ..)]
    exact hout
  have hcredits := creditsIn_quiet (p := p) hempty hnak
  rw [hword, setPort_port, setPort_setPort, ← hword] at hcredits
  have hheaders := headersIn_quiet (p := p) (f := f) (s := creditsIn p f (frameWord p f s))
    (by rw [hcredits, setPort_port]; exact hlog) herr
  rw [hcredits, setPort_port, setPort_setPort, ← hcredits] at hheaders
  unfold linkFrame
  dsimp only
  rw [hup, hctrl, List.zipIdx_nil, List.map_nil, hblocks, hstatics]
  simp only [Bool.not_true, Bool.false_eq_true, if_false, List.foldl_nil, hheaders]
  rfl

/-- A good frame with no loose slot. -/
theorem frameGood_empty {p : Port} {f : LinkFrame} {s : State} (hloose : f.loose = [])
    (hnaking : (s.port p).naking = false) (hpass : s.loosePasses (s.port p) = true) :
    frameGood p f s = s.setPort p { s.port p with naking := false, lastGood := (s.port p).rxCtr } := by
  unfold frameGood
  dsimp only
  rw [hnaking, hpass, hloose, Bool.false_and, Bool.not_true, Bool.or_false, if_neg Bool.false_ne_true]
  rfl

/-- A frame that fails and holds no static slot. -/
theorem frameBad_loose {p : Port} {f : LinkFrame} {s : State} (hstat : f.hasStatic = false) : frameBad p f s =
    ((countChk p s).setPort p { s.port p with naking := true }).emit (.credit p 0 0 (s.port p).lastGood true) := by
  have hport : (countChk p s).port p = s.port p := by cases p <;> rfl
  unfold frameBad sendCredit
  dsimp only
  rw [hstat, if_neg Bool.false_ne_true, hport, setPort_port]

/-- Frame errors of a port are counted in the high half of its ERRCNT. -/
theorem countChk_reads {s : State} (h : smWf resetVal s.regs = true) (p : Port) :
    RegMoves [Reg.withyPErrcnt (portNum p)] s (countChk p s) ∧ (countChk p s).fld (Reg.withyPErrcnt (portNum p)) 16 16 =
      min 65535 (s.fld (Reg.withyPErrcnt (portNum p)) 16 16 + 1) := by
  refine ⟨(RegMoves.refl _ h).bumpAt 16 16 1 (by simp), ?_⟩
  rw [fld_eq_bits, countChk, State.bumpAt, reg_hwSet h, bits_putBits _ _ _ _ (by decide), ← fld_eq_bits, Nat.min_comm,
    Nat.mod_eq_of_lt (Nat.lt_of_le_of_lt (Nat.min_le_left ..) (by decide))]
  rfl

/-- A good frame that holds nothing more: the port, the distance to the principal, and nothing else. -/
theorem frameGood_completes {p : Port} {f : LinkFrame} {s : State} (hup : (s.port p).up = true)
    (hnaking : (s.port p).naking = false) (hgood : (s.port p).authBad = false) (hlog : (s.port p).hdrErrs = [])
    (hmode : s.cryptMode = 0) (hjoined : s.basket.joined = true ∨ f.principal ≠ 0xFF) (hloose : f.loose = []) :
    (frameGood p f (frameTaken p f s)).port p = { s.port p with
      peer := f.sender.setWidth 6, peerIn := f.principal != 0xFF, rxCtr := (s.port p).rxCtr + 1,
      lastGood := (s.port p).rxCtr + 1, credits0 := min 16 ((s.port p).credits0 + f.credit0.toNat),
      credits1 := min 16 ((s.port p).credits1 + f.credit1.toNat),
      unacked := (s.port p).unacked.filter (fun u => decide (f.ack < u.1)) } ∧
    (frameGood p f (frameTaken p f s)).basket.hops =
      (if s.follows = true ∧ s.basket.upstream = p ∧ f.hops ≠ 0xFF then f.hops + 1 else s.basket.hops) ∧
    PortOnly p s (frameGood p f (frameTaken p f s)) ∧ Only [.basket] s (frameGood p f (frameTaken p f s)) := by
  have hpass : (frameTaken p f s).loosePasses ((frameTaken p f s).port p) = true := by
    have hup' : (framePort f (s.port p)).up = true := hup
    have hgood' : (framePort f (s.port p)).authBad = false := hgood
    have hbasket : (s.basket.joined || (framePort f (s.port p)).peerIn) = true := by
      rcases hjoined with hjoined | hjoined
      · rw [hjoined, Bool.true_or]
      · exact Bool.or_eq_true_iff.2 (.inr (bne_iff_ne.2 hjoined))
    rw [State.loosePasses, State.payloadPasses, frameTaken_port, frameTaken_cryptMode, hmode, (frameTaken_basket p f s).1,
      hup', hgood', hbasket]
    rfl
  have hnaking' : ((frameTaken p f s).port p).naking = false := by
    rw [frameTaken_port]
    exact hnaking
  rw [frameGood_empty hloose hnaking' hpass, frameTaken_port]
  refine ⟨?_, ?_, PortOnly.trans (frameTaken_portOnly p f s) (PortOnly.setPort p _ _),
    (frameTaken_frame p f s).only.trans (setPort_only ..)⟩
  · rw [setPort_port, framePort]
    simp only [hnaking, hlog]
  · rw [← (frameTaken_basket p f s).2]
    cases p <;> rfl

/-- A frame that fails: the port asks for a resend, and the failure is counted. -/
theorem frameBad_completes {p : Port} {f : LinkFrame} {s : State} (h : smWf resetVal s.regs = true)
    (hstat : f.hasStatic = false) :
    ((frameBad p f (frameTaken p f s)).port p).naking = true ∧
    ((frameBad p f (frameTaken p f s)).port p).lastGood = (s.port p).lastGood ∧
    (frameBad p f (frameTaken p f s)).fld (Reg.withyPErrcnt (portNum p)) 16 16 =
      min 65535 (s.fld (Reg.withyPErrcnt (portNum p)) 16 16 + 1) ∧
    (frameBad p f (frameTaken p f s)).out = s.out ++ [.credit p 0 0 (s.port p).lastGood true] ∧
    PortOnly p s (frameBad p f (frameTaken p f s)) ∧ Only [.regs, .out, .basket] s (frameBad p f (frameTaken p f s)) := by
  have hregs := frameTaken_regs p f s
  have hport := frameTaken_port p f s
  have hout := frameTaken_out p f s
  have honly := frameTaken_portOnly p f s
  have hframe := (frameTaken_frame p f s).only
  have hlast : ((frameTaken p f s).port p).lastGood = (s.port p).lastGood := by rw [hport]; rfl
  have hfld : (frameTaken p f s).fld (Reg.withyPErrcnt (portNum p)) 16 16 = s.fld (Reg.withyPErrcnt (portNum p)) 16 16 := by
    rw [fld_eq_bits, reg_eq_of_regs_eq hregs, ← fld_eq_bits]
  have hcount := (countChk_reads (s := frameTaken p f s) (by rw [hregs]; exact h) p).2
  generalize frameTaken p f s = u at *
  have hcounted (q : Port) : (countChk p u).port q = u.port q := by cases q <;> rfl
  have hchk := countChk_only p u (.refl [.regs, .out, .basket] u) (by simp)
  have hset := State_setPort_only _ p { u.port p with naking := true } hchk (by simp)
  rw [frameBad_loose hstat]
  refine ⟨?_, ?_, ?_, ?_, PortOnly.trans honly ?_, (hframe.mono (by simp)).trans (hset.updOut (by simp)).only⟩
  · rw [port_emit, setPort_port]
  · rw [port_emit, setPort_port]
    exact hlast
  · have hsame (x : LinkPort) (o : Out) : (((countChk p u).setPort p x).emit o).regs = (countChk p u).regs := setPort_regs ..
    rw [fld_eq_bits, reg_eq_of_regs_eq (hsame _ _), ← fld_eq_bits, hcount, hfld]
  · rw [emit_out, setPort_out, hlast, ← hout]
    rfl
  · intro q hq
    rw [port_emit, setPort_port_ne _ _ _ _ hq, hcounted]

/-! ### Stored messages (R54, R55) -/

/-- The oldest message has left ingress `p`, and its credits go back. -/
def dropStored (p : Port) (m : Loose) (rest : List Loose) (s : State) : State :=
  sendCredit p (creditOf m).1 (creditOf m).2 (s.setPort p { s.port p with stored := rest })

theorem dropStored_eq (p : Port) (m : Loose) (rest : List Loose) (s : State) : dropStored p m rest s =
    (s.setPort p { s.port p with stored := rest }).emit
      (.credit p (creditOf m).1 (creditOf m).2 (s.port p).lastGood (s.port p).naking) := by
  rw [dropStored, sendCredit, setPort_port]

theorem dropStored_port (p : Port) (m : Loose) (rest : List Loose) (s : State) :
    (dropStored p m rest s).port p = { s.port p with stored := rest } ∧ PortOnly p s (dropStored p m rest s) := by
  rw [dropStored_eq]
  refine ⟨by rw [port_emit, setPort_port], fun q hq => by rw [port_emit, setPort_port_ne _ _ _ _ hq]⟩

theorem dropStored_frame (p : Port) (m : Loose) (rest : List Loose) (s : State) :
    Only [.out, .basket] s (dropStored p m rest s) := by
  rw [dropStored_eq]
  exact (Moves.updOut (State_setPort_only s p _ (.refl [.out, .basket] s) (by simp)) (by simp)).only

theorem looseForward_way {p o : Port} {m x : Loose} {rest : List Loose} {s : State} (hstored : (s.port p).stored = m :: rest)
    (hother : m.dst.setWidth 6 ≠ s.pkg) (hmember : s.basket.outsider = false)
    (hroute : portOf (s.route (m.dst.setWidth 6)) = some o) (hway : s.looseWay m = some (o, x)) :
    looseForward p s = sendOn o x (dropStored p m rest s) := by
  unfold looseForward
  rw [hstored]
  dsimp only
  rw [if_neg hother, hmember, if_neg Bool.false_ne_true, hroute]
  dsimp only
  rw [hway]
  rfl

theorem looseForward_outsider {p : Port} {m : Loose} {rest : List Loose} {s : State}
    (hstored : (s.port p).stored = m :: rest) (hother : m.dst.setWidth 6 ≠ s.pkg) (hout : s.basket.outsider = true) :
    looseForward p s = dropStored p m rest s := by
  unfold looseForward
  rw [hstored]
  dsimp only
  rw [if_neg hother, hout, if_pos rfl]
  rfl

/-- Settles O13: windows, forwarded access and link frames, each by the equation of its operation. -/
theorem windowCommandsComplete : Obligations.WindowCommandsComplete := by
  refine ⟨?_, ?_, ?_, ?_, ?_, ?_, ?_, ?_, ?_, ?_, ?_, ?_, ?_, ?_⟩
  · intro i v s hcanon hs hopen
    have hmoves := (RegMoves.refl [Reg.winCtl i.val] hcanon.regs).setFld (off := Reg.winCtl i.val) 0 3 (bits v 0 3) (by simp)
    refine completes_of_eq rfl (winCtlWrite_eq hs hopen) ⟨?_, only_iff.2 (by simp), hmoves.only⟩
    rw [fld_setFld hcanon.regs _ _ _ _ (by decide), bits_mod]
  · intro q i s hcanon _ hok hplace
    have hcounted : Canon (winCount i s) := { hcanon with regs := (winCount_moves hcanon.regs i).wf }
    obtain ⟨hmoves, hreads, hclean, honly⟩ := wrMarked_completes hcounted (s.localAddr q.addr.toNat) q.data
    have hregs := (honly.2 .regs (by decide)).1
    have hbytes : BytesOnly (s.localAddr q.addr.toNat) q.data.length s (winCount i s) := fun _ _ => rfl
    refine completes_of_eq rfl (winWrite_store hok hplace)
      ⟨hreads, hclean, fun x hx => (hmoves.only x hx).trans (hbytes x hx), ?_, ?_, ?_⟩
    · rw [reg_eq_of_regs_eq hregs, winCount_reg hcanon.regs]
    · exact ((winCount_frame i s).mono (by simp)).trans (honly.mono (by simp))
    · exact ((winCount_moves hcanon.regs i).congr hregs).only
  · intro q i n off s hcanon hok hplace hroom
    exact completes_of_eq rfl (winWrite_scratch hok hplace hroom) (winCount_queueR hcanon i n _)
  · intro q i n off s hcanon hok hplace hroom
    exact completes_of_eq rfl (winRead_scratch hok hplace hroom) (winCount_queueR hcanon i n _)
  · intro q i s hcanon hok hplace hroute
    have hdst : (s.mkMarked 5 q.src q.addr (s.rdMarked (s.localAddr q.addr.toNat) q.len)).dst.setWidth 6 = q.src := by
      have hcast : (q.src.setWidth 8).setWidth 6 = q.src := by
        rw [← BitVec.toNat_inj]
        simp only [BitVec.toNat_setWidth]
        omega
      exact hcast
    have hroute' : (winCount i s).route ((s.mkMarked 5 q.src q.addr (s.rdMarked (s.localAddr q.addr.toNat) q.len)).dst.setWidth 6)
        ≠ 5 := by
      rw [hdst]
      exact hroute
    obtain ⟨hsent, hregs⟩ := sent_sendLoose hroute'
    refine completes_of_eq rfl (winRead_store hok hplace) ⟨hsent.of_winCount hcanon (winJudge_lt hok), fun hempty => ?_, ?_⟩
    · exact ((winCount_moves hcanon.regs i).congr (hregs hempty)).only
    · have hframe := sendLoose_only (s.mkMarked 5 q.src q.addr (s.rdMarked (s.localAddr q.addr.toNat) q.len)) (winCount i s)
        (.refl [.regs, .out, .basket] _) (by simp)
      exact ((winCount_frame i s).mono (by simp)).trans hframe.only
  · intro m s htype hdst
    exact congrArg Host.Outcome.next (if_pos ⟨htype, hdst⟩)
  · intro m s hcanon hanchor htype hdst hcode
    have hemit : Canon (s.emit (.issuerCode eWinPerm)) := { hcanon with }
    have heq : winNak m s = postEvent eWinPerm (BitVec.ofNat 128 (m.src.toNat + m.addr.toNat * 2 ^ 8))
        (s.emit (.issuerCode eWinPerm)) := by
      rw [winNak, if_pos ⟨htype, hdst⟩, hcode]
    refine completes_of_eq rfl heq ⟨?_, ?_, ?_⟩
    · exact (outGrows_postEvent ..).mem (by simp)
    · exact (posted_postEvent hemit hanchor (by decide) rfl (by decide) _).congr rfl rfl rfl
    · exact (postEvent_only _ _ _ (.updOut (.refl [.regs, .out, .host] s) (by simp)) (by simp)).only
  · intro s hcanon hs hidle
    have hread (d : Option Word) : (fwdBusy d s).reg Reg.withyFwdStatus = 1 := reg_setReg hcanon.regs _ _
    have hframe (d : Option Word) : Only [.regs, .out, .basket] s (fwdBusy d s) := only_iff.2 (by simp [fwdBusy])
    exact ⟨completes_of_eq rfl (fwdStart_read hs hidle) ⟨hread none, rfl, rfl, hframe none⟩,
      completes_of_eq rfl (fwdStart_write hs hidle) ⟨hread _, rfl, rfl, hframe _⟩⟩
  · intro tg o d s hcanon hfwd
    have hdata := setReg_wf hcanon.regs Reg.withyFwdData d
    have hmoves : RegMoves [Reg.withyFwdData, Reg.withyFwdStatus] s (fwdEnded 0 (s.setReg Reg.withyFwdData d)) := by
      have hregs := ((RegMoves.refl [Reg.withyFwdData, Reg.withyFwdStatus] hcanon.regs).setReg
        (off := Reg.withyFwdData) d (by simp)).setReg (off := Reg.withyFwdStatus) 0 (by simp)
      exact hregs.congr rfl
    refine completes_of_eq rfl (fwdResponse_read hfwd d) ⟨?_, reg_setReg hdata _ _, rfl, ?_, hmoves.only⟩
    · exact (reg_setReg_ne hdata _ (by decide)).trans (reg_setReg hcanon.regs _ _)
    · exact only_iff.2 (by simp [fwdEnded])
  · intro s hcanon hfwd hlate
    have hlatch := latch_only eFwdTimeout 0 s (.refl [.regs] s) (by simp)
    obtain ⟨hcode, hbusy⟩ := fwdEnded_reads (hlatch.canon hcanon).regs eFwdTimeout
    refine completes_of_eq rfl (fwdTimeout_eq hfwd hlate) ⟨hcode, hbusy, ?_, ?_⟩
    · rw [fwdEnded, latch_basket]
    · exact (hlatch.only.mono (by simp)).trans (only_iff.2 (by simp [fwdEnded]))
  · intro p f s hup hnaking hgood hlog hmode hout hjoined hcheck herr htypes hctrl hstat hloose hnak
    have hok : frameFails f [] s = false := by simp [frameFails, hcheck, hmode, badBlocks, htypes]
    have hquiet := linkFrame_quiet hup hlog hout herr htypes hctrl hnak (.inl hstat)
    rw [hok, if_neg Bool.false_ne_true] at hquiet
    exact completes_of_eq rfl hquiet (frameGood_completes hup hnaking hgood hlog hmode hjoined hloose)
  · intro p f s hcanon hup hidle hlog hout hcheck herr htypes hctrl hnak hstat
    have hactive : s.weaveActive = false := by simp [State.weaveActive, hidle]
    have hbad : frameFails f [] s = true := by simp [frameFails, hcheck]
    have hquiet := linkFrame_quiet hup hlog hout herr htypes hctrl hnak (.inr hactive)
    rw [hbad, if_pos rfl] at hquiet
    exact completes_of_eq rfl hquiet (frameBad_completes hcanon.regs hstat)
  · intro p o m rest s hstored hne hother hmember hroute hpass hcredit
    have hway : s.looseWay m = some (o, { m with cls1 := m.cls1 || s.dateline (m.dst.setWidth 6) }) := by
      have hslots : looseSlots ({ m with cls1 := m.cls1 || s.dateline (m.dst.setWidth 6) } : Loose) = looseSlots m := rfl
      unfold State.looseWay State.egress
      dsimp only
      rw [hroute]
      dsimp only
      rw [hpass, hslots, decide_eq_true hcredit]
      rfl
    obtain ⟨hport, honly⟩ := dropStored_port p m rest s
    refine completes_of_eq rfl (looseForward_way hstored hother hmember hroute hway) ⟨?_, ?_, ?_, ?_⟩
    · rw [sendOn_eq, port_emit, setPort_port_ne _ _ _ _ hne.symm, hport]
    · rw [sendOn_eq, port_emit, setPort_port, honly o hne]
      rfl
    · rw [sendOn_eq, emit_out, setPort_out, dropStored_eq]
      simp
    · exact (dropStored_frame ..).trans (sendOn_frame ..).only
  · intro p m rest s hstored hother hout
    obtain ⟨hport, honly⟩ := dropStored_port p m rest s
    refine completes_of_eq rfl (looseForward_outsider hstored hother hout) ⟨hport, ?_, honly, dropStored_frame ..⟩
    rw [dropStored_eq]
    simp

end Sys2Proof.Machine
end

section
/-!
PROOFS. Host.lean: records that find no slot, and the host commands (R66 to R78, R82 to R87, R286).
-/

namespace Sys2Proof.Machine

/-! ### A record that is lost -/

/-- Of 257 records held the last one is lost (R87). -/
theorem holdList_replicate {r : Rec} (hr : r.held = true) (n h : Nat) (hn : h + n = 256) :
    holdList 0 h (List.replicate (n + 1) r) = (List.replicate n r, [r.parcel]) := by
  induction n generalizing h with
  | zero => simp [holdList, hr, show 256 ≤ h by omega]
  | succ n ih =>
    rw [List.replicate_succ, holdList]
    simp only [hr, Bool.true_or, Bool.true_and, decide_eq_true_eq, if_neg (show ¬256 ≤ h by omega), if_true]
    rw [ih (h + 1) (by omega)]
    obtain ⟨parcel, body, held, poisoned⟩ := r
    subst hr
    rfl

/-- A record that is held. -/
def heldRec : Rec := ⟨0, [], true, false⟩

/-- A served anchor with ring pairs 0 and 1 ACTIVE, events enabled on ring pair 1, and the given records. -/
def twoRings (l : List Rec) : State := { State.reset with
  regs := [(Reg.hostEvtCfg, 0x101), (Reg.hostRingCfg 0, 0x10404), (Reg.hostRingCfg 1, 0x10404)],
  power := { State.reset.power with phase := .run, strap1 := 0x40 },
  boot := { State.reset.boot with serving := true },
  host := { State.reset.host with bme := true, records := l,
                                  rings := [(0, { Ring.reset with state := .active }), (1, { Ring.reset with state := .active })] } }

theorem canon_twoRings (l : List Rec) : Canon (twoRings l) where
  regs := show smWf resetVal [(Reg.hostEvtCfg, 0x101), (Reg.hostRingCfg 0, 0x10404), (Reg.hostRingCfg 1, 0x10404)] = true by
    decide
  mem := canon_reset.mem
  poison := canon_reset.poison
  knots := canon_reset.knots
  flash := canon_reset.flash
  copies := canon_reset.copies
  weak := canon_reset.weak
  shadow := canon_reset.shadow
  rings := by simp [twoRings, Rising]
  cores := canon_reset.cores
  reqs := canon_reset.reqs

/-- `twoRings` after a write that clears EN of ring pair 0. -/
def ringZeroOff (l : List Rec) : State :=
  ((twoRings l).setReg (Reg.hostRingCfg 0) 0x404).setRing 0 { Ring.reset with state := .disabled }

theorem ringCfgWrite_twoRings (l : List Rec) : ringCfgWrite 0 0x404 15 (twoRings l) = holdRecords (ringZeroOff l) := by
  have hreg : (twoRings l).reg (Reg.hostRingCfg 0) = 0x10404 := rfl
  have hverdict : ringCfgVerdict (twoRings l) 0 0x404 = 0 := (rfl : _ = ringCfgVerdict (twoRings []) 0 0x404).trans (by decide)
  have hserved : (twoRings l).answers (Reg.hostRingCfg 0) = true := rfl
  have hnew : mergeBytes (0x10404 : Word) 0x404 15 &&& 0xFFF31F1F = 0x404 := by decide
  simp only [ringCfgWrite, hreg, hserved, hnew, hverdict]
  rfl

theorem recFree_ringZeroOff (l : List Rec) : (ringZeroOff l).recFree = 0 := by
  have hoff : (ringZeroOff l).flag Reg.hostRecCfg 16 = false :=
    (rfl : _ = (ringZeroOff []).flag Reg.hostRecCfg 16).trans (by decide)
  simp [State.recFree, hoff]

/-- The EVENT of a lost record takes an entry of completion ring 1. -/
theorem write_loseRecord : ((loseRecord (ringZeroOff (List.replicate 256 heldRec)) 0).ring 1).write = 1 := by
  decide

/-- Refutes O14: the clause of RING_DISABLE says that every other ring pair stays as it was, however many records are
held. Where 257 are held, the disable discards one (R87), and the EVENT that reports it is written to the event ring,
whose write position moves. -/
theorem not_ringCommandsComplete : ¬ Obligations.RingCommandsComplete := by
  unfold Obligations.RingCommandsComplete
  rintro ⟨-, -, -, -, -, -, -, hdisable, -⟩
  obtain ⟨t, ht, -, -, hother, -⟩ := hdisable 0 0x404 (twoRings (List.replicate 257 heldRec)) (canon_twoRings _)
    ⟨rfl, rfl⟩ rfl rfl rfl rfl
  have hlost : holdRecords (ringZeroOff (List.replicate 257 heldRec)) =
      loseRecord (ringZeroOff (List.replicate 256 heldRec)) 0 := by
    unfold holdRecords
    rw [recFree_ringZeroOff, show (ringZeroOff (List.replicate 257 heldRec)).host.records = List.replicate 257 heldRec from rfl,
      holdList_replicate rfl 256 0 rfl]
    rfl
  have heq : t = loseRecord (ringZeroOff (List.replicate 256 heldRec)) 0 := by
    rw [← hlost, ← ringCfgWrite_twoRings]
    injection ht with ht
    exact ht.symm
  have hwrite : ((twoRings (List.replicate 257 heldRec)).ring 1).write = 1 := by
    rw [← hother 1 (by decide), heq, write_loseRecord]
  exact absurd hwrite (by unfold twoRings; decide)

/-! ### The start of a descriptor that another anchor forwarded -/

/-- A descriptor that package 1 has forwarded, not started yet. -/
def forwardedFlight (d : Desc) : Flight := ⟨0, .anchor 1 0, d, 0, .fetched, 0⟩

/-- The reset state with one descriptor in flight. -/
def withFlight (f : Flight) : State := { State.reset with host := { State.reset.host with flights := [f] } }

/-- Every number that an empty descriptor holds is zero. -/
theorem descNum_zero (lo n : Nat) : descNum 0#512 lo n = 0 := by simp [descNum, bits]

theorem headVerdict_zero : headVerdict 0#512 = 0 := by
  simp [headVerdict, descBodyMask, dOp, dTarget, descNum_zero]

/-- The start of a NOP that another anchor forwarded is answered to that anchor. -/
theorem judgeStart_forwardedFlight {d : Desc} (hop : dOp d = 0) (s : State) :
    judgeStart (forwardedFlight d) s = setFlight 0 .started (s.emit (.fwdAnswer 1 0 .started)) := by
  simp [judgeStart, forwardedFlight, levelVerdict, bodyVerdict, opThumbling, hop]

/-- Refutes O15: its first clause says that the start of a descriptor changes its state and nothing else. Where another
anchor forwarded the descriptor, the start also emits the answer that tells that anchor of it (R77). -/
theorem not_descriptorCommandsComplete : ¬ Obligations.DescriptorCommandsComplete := by
  unfold Obligations.DescriptorCommandsComplete
  rintro ⟨hstart, -⟩
  obtain ⟨d, hd⟩ : ∃ d : Desc, d = 0#512 := ⟨_, rfl⟩
  have hop : dOp d = 0 := by rw [hd]; exact descNum_zero 0 1
  have hhead : headVerdict d = 0 := by rw [hd, headVerdict_zero]
  have hwait : dWaitEn d = false := by simp [hd, dWaitEn]
  have hfree : (withFlight (forwardedFlight d)).heldBack (forwardedFlight d) = false := by
    simp [State.heldBack, withFlight, forwardedFlight]
  have hflight : (withFlight (forwardedFlight d)).flight 0 = some (forwardedFlight d) := rfl
  have h := hstart (forwardedFlight d) (withFlight (forwardedFlight d)) rfl rfl hfree hhead (fun h => nomatch h)
    (fun h => absurd (hwait.symm.trans h) Bool.false_ne_true) (by simp [levelVerdict, forwardedFlight, hop, opThumbling])
    (by simp [bodyVerdict, forwardedFlight, hop]) (by simp [forwardedFlight, hop])
  have hanswer : exec (.descriptorStart 0) (withFlight (forwardedFlight d)) =
      .next (judgeStart (forwardedFlight d) (withFlight (forwardedFlight d))) := by
    show Host.Outcome.next (descriptorStart 0 _) = _
    simp only [descriptorStart, hflight, hfree]
    simp [forwardedFlight, hwait, hhead, fromRing]
  rw [show exec (.descriptorStart (forwardedFlight d).id) (withFlight (forwardedFlight d)) = _ from hanswer,
    judgeStart_forwardedFlight hop] at h
  injection h with h
  have hout : ([] : List Out) ++ [.fwdAnswer 1 0 .started] = [] := congrArg State.out h
  cases hout

end Sys2Proof.Machine
end

section
/-!
PROOFS. Cores.lean: scratchpads, arrays and streams of a core (R154 to R219).
-/

namespace Sys2Proof.Machine

/-! ### A round that drains more than its output -/

/-- A convolution of one pixel: 16 channels in, one out, a 1 × 1 filter; input, weights and output in rows 0, 1 and 2. -/
def onePixelConv : Desc := BitVec.ofNat 512 (1 + 15 * 2 ^ 80 + 2 ^ 192 + 2 ^ 208 + 512 * 2 ^ 256 + 1024 * 2 ^ 288)

/-- A weave with nothing in it. -/
def emptyWeave : WeaveDecl where
  weaveId := 0
  modelId := 0
  stewardGen := 0
  loadBeats := 0
  length := 0
  mult := 0
  spread := 0
  mode := 0
  restartBeats := 0
  beatLen := 0
  stepLen := 0
  readyBase := 0
  alternates := []
  pools := 0
  reportEnd := 0
  orderEnd := 0
  reportSlots := []
  orderSlots := []
  lastOrderDelivered := 0
  places := []
  kvLayers := 0
  kvWidth := 0
  promptLen := []
  eos := 0
  mshift := 0
  maxRank := 0
  projections := []
  knotLo := 0
  knotHi := 0
  homes := []
  topoKind := 0
  topoRows := 0
  topoCols := 0
  routes := []
  ports := []
  streams := []
  deliveries := []
  frameBufs := []

/-- Core 0 with a result of 600 lanes on its way to entry 0 of the drain buffer of array 0. -/
def wideLanding : CoreState :=
  { CoreState.reset with landings := [⟨0, 0, 0, List.replicate 600 0, false, false, false, none⟩] }

/-- A running weave on `wideLanding`, with powered segments and working arrays; one byte stands behind the row of the
output. -/
def wideState : State := { State.reset with
  regs := [(Reg.coreArrayStatus 0 0, 2), (Reg.coreArrayStatus 0 1, 2), (Reg.coreArrayStatus 0 2, 2),
    (Reg.coreArrayStatus 0 3, 2), (Reg.coreSpStatus 0, 0xFFF)],
  weave := { WeaveState.reset with run := some emptyWeave, member := true },
  mem := [(1536, 1)],
  cores := [(0, wideLanding)] }

theorem canon_wideState : Canon wideState where
  regs := by decide +kernel
  mem := by decide +kernel
  poison := canon_reset.poison
  knots := canon_reset.knots
  flash := canon_reset.flash
  copies := canon_reset.copies
  weak := canon_reset.weak
  shadow := canon_reset.shadow
  rings := canon_reset.rings
  cores := List.pairwise_singleton ..
  reqs := canon_reset.reqs

/-- The one output row of `onePixelConv`. -/
theorem outSize_onePixelConv : spAddr 0 (cOfs onePixelConv 2) + outSize onePixelConv = 1536 := by decide +kernel

/-- The drain of the round clears the byte behind its output row. -/
theorem rdMem_convExecute_wideState : (convExecute 0 onePixelConv 0 1 [] wideState).rdMem 1536 1 = [0] := by
  decide +kernel

/-- Refutes O24: its second clause says of every state that the rounds of a convolution write nothing but the output
tensor. A drain writes as many lanes as its entry holds, so in a state whose drain buffer takes a result of more than 32
lanes (here 600) the round writes bytes behind its output. -/
theorem not_streamCommandsComplete : ¬ Obligations.StreamCommandsComplete := by
  unfold Obligations.StreamCommandsComplete
  rintro ⟨-, hround, -⟩
  obtain ⟨t, ht, hbytes, -⟩ := hround 0 onePixelConv 0 1 [] wideState canon_wideState rfl (by decide +kernel)
    (by decide +kernel) (by decide +kernel) (fun t ht => nomatch ht)
  injection ht with ht
  have hkept : (convExecute 0 onePixelConv 0 1 [] wideState).rdMem 1536 1 = wideState.rdMem 1536 1 := by
    rw [show convExecute 0 onePixelConv 0 1 [] wideState = t from ht]
    exact hbytes 1536 (.inr outSize_onePixelConv.le)
  rw [rdMem_convExecute_wideState] at hkept
  exact absurd hkept (by decide +kernel)

end Sys2Proof.Machine
end

section
/-!
PROOFS. Weave.lean: loads and their image, the member's check, HALT and RESUME words, faults of WEAVE class and recovery
(R38, R275 to R280, R285, R335 to R339).
-/

namespace Sys2Proof.Machine

/-! ### Loads (R335) -/

/-- The load that begins. -/
def freshLoad (flight : Option Nat) (addr : BitVec 64) (len : Nat) (id : Word) (go waits : Bool) : Load :=
  { decl := none, lead := true, asked := go, waits := waits, flight := flight, addr := addr, len := len, id := id, pass := 0,
    startBeat := 0, alt := none }

/-- A load begins, and the read of its image is issued where nothing holds it back. -/
theorem beginLoad_eq (flight : Option Nat) (addr : BitVec 64) (len : Nat) (id : Word) (s : State) {go : Bool}
    (hgo : go = (!s.timePends && s.flag Reg.bootStatus 5 && s.host.bme)) :
    beginLoad flight addr len id s = { s with
      weave := { s.weave with load := some (freshLoad flight addr len id go s.timePends) }
      out := s.out ++ (if go then [.imageRead addr len] else []) } := by
  subst hgo
  cases hp : s.timePends <;> cases hf : s.flag Reg.bootStatus 5 <;> cases hb : s.host.bme <;>
    simp [beginLoad, readImage, freshLoad, hp, hf, hb, State.emit]

theorem exec_bootLoad {s : State} (hserved : Served s) (hruns : s.weaveRuns = false)
    (hverdict : loadVerdict s = 0) :
    exec (.bootLoad 4) s = .next (beginLoad none (BitVec.ofNat 64 (s.pair Reg.bootWeaveAddrLo Reg.bootWeaveAddrHi))
      (s.fld Reg.bootWeaveLen 0 27) (s.reg Reg.bootWeaveIdReq) s) := by
  have hmany : bootMany 4#4 = false := by decide
  simp [exec, execBootLoad, bootLoad, answers_of_served hserved, hmany, hruns, hverdict]

theorem find_updFirst {α : Type} (p : α → Bool) {f : α → α} (hf : ∀ a, p (f a) = p a) (l : List α) :
    (updFirst p f l).find? p = (l.find? p).map f := by
  induction l with
  | nil => rfl
  | cons a l ih =>
    cases h : p a
    · simpa [updFirst, h, List.find?_cons] using ih
    · simp [updFirst, h, hf]

/-- A descriptor in flight in its new state. -/
theorem flight_setFlight {f : Flight} {s : State} (h : s.flight f.id = some f) (st : FlightState) :
    (setFlight f.id st s).flight f.id = some { f with st := st } := by
  have hfind : (setFlight f.id st s).flight f.id = (s.flight f.id).map (fun f => { f with st := st }) :=
    find_updFirst (fun f' : Flight => f'.id == f.id) (f := fun f => { f with st := st }) (fun _ => rfl) s.host.flights
  rw [hfind, h, Option.map_some]

theorem exec_weaveLoad {f : Flight} {s : State} (hf : Started f 0x20 s) (hverdict : loadVerdict s = 0) :
    exec (.weaveLoad f.id) s = .next (beginLoad (some f.id) (BitVec.ofNat 64 (dAddr f.desc)) (descNum f.desc 32 4)
      (BitVec.ofNat 32 (descNum f.desc 36 4)) (setFlight f.id .loading s)) := by
  obtain ⟨hfind, hst, hop, -⟩ := hf
  simp [exec, execWeaveLoad, doWork, hfind, hst, hop, weaveLoad, hverdict]

/-- BOOT_CMD.LOAD on the principal. -/
theorem completes_bootLoad {go : Bool} {s : State} (hserved : Served s) (hruns : s.weaveRuns = false)
    (hverdict : loadVerdict s = 0) (hgo : go = (!s.timePends && s.flag Reg.bootStatus 5 && s.host.bme)) :
    Completes (.bootLoad 4) s (fun t =>
      t.weave = { s.weave with load := some { decl := none, lead := true, asked := go, waits := s.timePends, flight := none, addr := BitVec.ofNat 64 (s.pair Reg.bootWeaveAddrLo Reg.bootWeaveAddrHi), len := s.fld Reg.bootWeaveLen 0 27, id := s.reg Reg.bootWeaveIdReq, pass := 0, startBeat := 0, alt := none } } ∧
      t.out = s.out ++ (if go then [.imageRead (BitVec.ofNat 64 (s.pair Reg.bootWeaveAddrLo Reg.bootWeaveAddrHi))
        (s.fld Reg.bootWeaveLen 0 27)] else []) ∧ Only [.out, .weave] s t) :=
  completes_of_eq (exec_bootLoad hserved hruns hverdict) (beginLoad_eq _ _ _ _ _ hgo)
    ⟨rfl, rfl, only_iff.2 (by simp)⟩

/-- WEAVE_LOAD on the principal. -/
theorem completes_weaveLoad {f : Flight} {go : Bool} {s : State} (hf : Started f 0x20 s) (hverdict : loadVerdict s = 0)
    (hgo : go = (!s.timePends && s.flag Reg.bootStatus 5 && s.host.bme)) :
    Completes (.weaveLoad f.id) s (fun t =>
      t.flight f.id = some { f with st := .loading } ∧
      t.weave.load.map (fun l => (l.flight, l.addr, l.len, l.id)) = some (some f.id, BitVec.ofNat 64 (dAddr f.desc),
        descNum f.desc 32 4, BitVec.ofNat 32 (descNum f.desc 36 4)) ∧
      t.weave.load.map (fun l => (l.asked, l.waits)) = some (go, s.timePends) ∧
      t.out = s.out ++ (if go then [.imageRead (BitVec.ofNat 64 (dAddr f.desc)) (descNum f.desc 32 4)] else []) ∧
      Only [.out, .host, .weave] s t) :=
  completes_of_eq (exec_weaveLoad hf hverdict) (beginLoad_eq _ _ _ _ (setFlight f.id .loading s) hgo)
    ⟨flight_setFlight hf.1 .loading, rfl, rfl, rfl, only_iff.2 (by simp)⟩

/-- BOOT_CMD.STOP on the principal: the weave ends at the end of the next beat (R339). -/
theorem exec_bootStop {s : State} (hserved : Served s) (hruns : s.weaveRuns = true) (hanchor : s.anchor = true)
    (hlead : s.basket.isPrincipal = true) (hfree : s.serve.reqs.any (fun p => p.2.st != .free) = false)
    (hheld : s.heldRecords = 0) :
    exec (.bootStop 8) s = .next { s with weave := { s.weave with stopBeat := some (s.time.beatNum + 1) } } := by
  have hmany : bootMany 8#4 = false := by decide
  simp [exec, execBootStop, bootStop, answers_of_served hserved, hmany, hruns, hanchor, hlead, hfree, hheld]

/-! ### The image and the member's check (R335, R336) -/

theorem setKnot_knots (k : Nat) (v : Word) (s : State) : (setKnot k v s).knots = smSet 0 s.knots k v := by
  unfold setKnot
  dsimp only
  split <;> rfl

/-- The knots from `base` on that have been set to 0. -/
theorem foldl_setKnot_zero {s : State} (h : smWf (fun _ => 0) s.knots = true) (base n : Nat) :
    let t := (List.range n).foldl (fun s p => setKnot (base + p) 0 s) s
    smWf (fun _ => 0) t.knots = true ∧ ∀ p < n, t.knot (base + p) = 0 := by
  induction n with
  | zero => exact ⟨h, fun p hp => absurd hp (Nat.not_lt_zero p)⟩
  | succ n ih =>
    obtain ⟨hwf, hzero⟩ := ih
    rw [List.range_succ, List.foldl_append]
    simp only [List.foldl_cons, List.foldl_nil, State.knot, setKnot_knots]
    refine ⟨smSet_wf (d := fun _ => 0) hwf, fun p hp => ?_⟩
    rcases Nat.lt_succ_iff_lt_or_eq.1 hp with hlt | rfl
    · rw [smGet_smSet_ne (d := fun _ => 0) hwf (by omega)]
      exact hzero p hlt
    · exact smGet_smSet (d := fun _ => 0) hwf

/-- The load of an accepted image. -/
def acceptedLoad (img : WeaveImage) (l : Load) (s : State) : Load :=
  { l with decl := some img.decl, startBeat := BitVec.ofNat 64 s.beat + img.decl.loadBeats.setWidth 64 }

/-- An accepted image: the ready knots are 0, and the image goes out (R335, R337). -/
theorem completes_weaveImageReadDone {img : WeaveImage} {l : Load} {s : State} (hcanon : Canon s)
    (hload : s.weave.load = some l) (hlead : l.lead = true) (hdecl : l.decl = none) (hasked : l.asked = true)
    (hverdict : weaveImageVerdict s l img = 0) :
    Completes (.weaveImageReadDone img) s (fun t =>
      t.weave = { s.weave with load := some { l with decl := some img.decl, startBeat := BitVec.ofNat 64 s.beat + img.decl.loadBeats.setWidth 64 } } ∧
      (∀ p < 64, t.knot (img.decl.readyBase.toNat + p) = 0) ∧
      t.out = s.out ++ [.imageSend img.decl.weaveId (BitVec.ofNat 64 s.beat + img.decl.loadBeats.setWidth 64)] ∧
      Only [.out, .host, .knots, .weave] s t) := by
  have hframe : Moves [.out, .host, .knots, .weave] s
      ((List.range 64).foldl (fun s p => setKnot (img.decl.readyBase.toNat + p) 0 s) s) :=
    Moves.foldl (fun u p => setKnot_only _ _ u (.refl ..) (by simp)) (.refl ..)
  have hkept : Moves [.host, .knots] s
      ((List.range 64).foldl (fun s p => setKnot (img.decl.readyBase.toNat + p) 0 s) s) :=
    Moves.foldl (fun u p => setKnot_only _ _ u (.refl ..) (by simp)) (.refl ..)
  obtain ⟨-, hzero⟩ := foldl_setKnot_zero hcanon.knots img.decl.readyBase.toNat 64
  generalize hu : (List.range 64).foldl (fun s p => setKnot (img.decl.readyBase.toNat + p) 0 s) s = u at hframe hkept hzero
  have hweave : u.weave = s.weave := hkept.only.2 .weave (by decide)
  have hout : u.out = s.out := hkept.only.2 .out (by decide)
  have hexec : exec (.weaveImageReadDone img) s = .next (State.emit
      { u with weave := { u.weave with load := some (acceptedLoad img l s) } } (.imageSend img.decl.weaveId (BitVec.ofNat 64 s.beat + img.decl.loadBeats.setWidth 64))) := by
    simp only [exec, execWeaveImageReadDone, weaveImageReadDone, hload, hlead, hasked, hdecl, hverdict, Bool.not_true,
      Option.isSome_none, Bool.or_self, Bool.false_eq_true, ne_eq, not_true_eq_false, if_false, hu, acceptedLoad]
  refine completes_of_next hexec ⟨?_, hzero, ?_, ((hframe.updWeave (by simp)).updOut (by simp)).only⟩
  · rw [emit_weave, hweave, acceptedLoad]
  · rw [emit_out, hout]

/-- A sum of distinct powers of two, bit by bit. -/
theorem testBit_foldl_flags (p : Nat → Bool) (k : Nat) :
    (List.range k).foldl (fun m n => if p n then m + 2 ^ n else m) 0 < 2 ^ k ∧
    ∀ i < k, ((List.range k).foldl (fun m n => if p n then m + 2 ^ n else m) 0).testBit i = p i := by
  induction k with
  | zero => exact ⟨Nat.one_pos, fun i hi => absurd hi (Nat.not_lt_zero i)⟩
  | succ k ih =>
    rw [List.range_succ, List.foldl_append]
    generalize (List.range k).foldl (fun m n => if p n then m + 2 ^ n else m) 0 = m at ih ⊢
    obtain ⟨hlt, hbits⟩ := ih
    simp only [List.foldl_cons, List.foldl_nil]
    cases hk : p k
    · refine ⟨by rw [Nat.pow_succ]; simp; omega, fun i hi => ?_⟩
      rcases Nat.lt_succ_iff_lt_or_eq.1 hi with h | rfl
      · exact hbits i h
      · rw [hk]; exact Nat.testBit_lt_two_pow hlt
    · refine ⟨by rw [Nat.pow_succ]; simp; omega, fun i hi => ?_⟩
      simp only [if_true]
      rw [Nat.add_comm]
      rcases Nat.lt_succ_iff_lt_or_eq.1 hi with h | rfl
      · rw [Nat.testBit_two_pow_add_gt h, hbits i h]
      · rw [Nat.testBit_two_pow_add_eq, Nat.testBit_lt_two_pow hlt, hk, Bool.not_false]

/-- The cores whose EN stands are in the count. -/
def coresCounted (s : State) : State :=
  { s with boot := { s.boot with
      coresIn := BitVec.ofNat 16 ((List.range 16).foldl (fun m n => if s.flag (Reg.coreCtl n) 0 then m + 2 ^ n else m) 0) } }

theorem countCores_eq (s : State) : countCores s =
    if (coresCounted s).levelNow < (coresCounted s).level then setLevel (coresCounted s) else coresCounted s := rfl

theorem coresCounted_bit (s : State) {n : Nat} (hn : n < 16) :
    (coresCounted s).boot.coresIn.getLsbD n = s.flag (Reg.coreCtl n) 0 := by
  rw [coresCounted, BitVec.getLsbD_ofNat, (testBit_foldl_flags (fun n => s.flag (Reg.coreCtl n) 0) 16).2 n hn]
  simp [hn]

/-- The cores that a load counts are those whose EN stands, and the level never rises (R24, R192). -/
theorem countCores_reads {s : State} (hwf : smWf resetVal s.regs = true) :
    RegMoves [Reg.idStatus] s (countCores s) ∧ (countCores s).level ≤ s.level ∧
    ∀ n < 16, (countCores s).boot.coresIn.getLsbD n = s.flag (Reg.coreCtl n) 0 := by
  have hlevel : (coresCounted s).level = s.level := rfl
  have hcounted : RegMoves [Reg.idStatus] s (coresCounted s) := .congr (.refl _ hwf) rfl
  have hbits := fun n (hn : n < 16) => coresCounted_bit s hn
  generalize hu : coresCounted s = u at hlevel hcounted hbits
  rw [countCores_eq, hu]
  split
  · next hlt =>
    obtain ⟨hmoves, -, hset⟩ := setLevel_reads hcounted.wf
    exact ⟨hcounted.trans hmoves, by omega, fun n hn => by rw [← hbits n hn]; rfl⟩
  · exact ⟨hcounted, Nat.le_of_eq hlevel, hbits⟩

/-- The load of a member that has checked its image. -/
def memberLoad (img : WeaveImage) (b : BitVec 64) (amount : Nat) : Load :=
  { decl := if img.formatOk then some img.decl else none, lead := false, asked := false, waits := false, flight := none,
    addr := 0, len := img.decl.length, id := img.decl.weaveId, pass := BitVec.ofNat 16 amount, startBeat := b, alt := none }

/-- A member whose cores are counted holds its verdict and its load. -/
def memberChecked (img : WeaveImage) (b : BitVec 64) (u : State) : State :=
  { u.setReg Reg.bootWeaveStatus
      (BitVec.ofNat 32 ((memberVerdict u img).2.toNat + (memberVerdict u img).1 % 32768 * 2 ^ 16)) with
    weave := { u.weave with load := some (memberLoad img b (memberVerdict u img).1) } }

theorem exec_weaveMemberCheckDone {img : WeaveImage} {b : BitVec 64} {s : State} (hload : s.weave.load = none)
    (hjoined : s.basket.joined = true) (hmember : s.basket.isPrincipal = false) (haligned : s.aligned = true) :
    exec (.weaveMemberCheckDone img b) s = .next (sendKnot (memberChecked img b (countCores s)).basket.principal
      (img.decl.readyBase.toNat + (memberChecked img b (countCores s)).pkg.toNat)
      (memberVerdict (countCores s) img).1 (memberChecked img b (countCores s))) := by
  have hweave : (countCores s).weave = s.weave :=
    (countCores_only s (.refl [.regs, .boot] s) (by simp)).only.2 .weave (by decide)
  have hnone : (countCores s).weave.load = none := by rw [hweave, hload]
  generalize hu : countCores s = u at hnone
  simp only [exec, execWeaveMemberCheckDone, weaveMemberCheckDone, hload, hjoined, hmember, haligned, Bool.not_false,
    Bool.not_true, Bool.and_self, Bool.or_self, Bool.false_eq_true, if_false, hu, setReg_weave, hnone]
  rfl

theorem memberChecked_frame (img : WeaveImage) (b : BitVec 64) (u : State) :
    Moves [.regs, .weave] u (memberChecked img b u) :=
  (State_setReg_only u _ _ (.refl ..) (by simp)).updWeave (by simp)

/-- A member has checked an image that it loads: its verdict in BOOT_WEAVE_STATUS, and its load (R336). -/
theorem completes_weaveMemberCheckDone {img : WeaveImage} {b : BitVec 64} {s : State} (hcanon : Canon s)
    (hload : s.weave.load = none) (hjoined : s.basket.joined = true) (hmember : s.basket.isPrincipal = false)
    (haligned : s.aligned = true) (hformat : img.formatOk = true) :
    Completes (.weaveMemberCheckDone img b) s (fun t =>
      (let v := memberVerdict (countCores s) img
       t.reg Reg.bootWeaveStatus = BitVec.ofNat 32 (v.2.toNat + v.1 % 32768 * 2 ^ 16) ∧
       t.weave.load.map (fun l => (l.decl, l.lead, l.pass, l.startBeat)) =
        some (some img.decl, false, BitVec.ofNat 16 v.1, b)) ∧
      (∀ n < 16, t.boot.coresIn.getLsbD n = s.flag (Reg.coreCtl n) 0) ∧ t.level ≤ s.level ∧
      Only [.regs, .basket, .host, .knots, .weave, .boot] s t ∧ RegsOnly [Reg.bootWeaveStatus, Reg.idStatus] s t) := by
  obtain ⟨hcount, hlevel, hcores⟩ := countCores_reads hcanon.regs
  have hframe := countCores_only s (.refl [.regs, .basket, .host, .knots, .weave, .boot] s) (by simp)
  have hexec := exec_weaveMemberCheckDone (img := img) (b := b) hload hjoined hmember haligned
  generalize countCores s = u at *
  have hchecked := memberChecked_frame img b u
  have hmarked : RegMoves [Reg.bootWeaveStatus] u (memberChecked img b u) :=
    ((RegMoves.refl _ hcount.wf).setReg _ (by simp)).congr rfl
  have hstatus : (memberChecked img b u).reg Reg.bootWeaveStatus = BitVec.ofNat 32
      ((memberVerdict u img).2.toNat + (memberVerdict u img).1 % 32768 * 2 ^ 16) := reg_setReg hcount.wf _ _
  have hverdict : (memberChecked img b u).weave.load = some (memberLoad img b (memberVerdict u img).1) := rfl
  generalize memberChecked img b u = v at *
  have hsend : Moves [.basket, .host, .knots] v
      (sendKnot v.basket.principal (img.decl.readyBase.toNat + v.pkg.toNat) (memberVerdict u img).1 v) :=
    sendKnot_only _ _ _ v (.refl ..) (by simp)
  have hregs := (hcount.mono (offs' := [Reg.bootWeaveStatus, Reg.idStatus]) (by simp)).trans
    ((hmarked.mono (by simp)).of_moves hsend (by decide))
  have honly : Only [.regs, .basket, .host, .knots, .weave, .boot] s
      (sendKnot v.basket.principal (img.decl.readyBase.toNat + v.pkg.toNat) (memberVerdict u img).1 v) :=
    hframe.only.trans ((hchecked.only.mono (by simp)).trans (hsend.only.mono (by simp)))
  have hidStatus : v.fld Reg.idStatus 0 2 = u.fld Reg.idStatus 0 2 := by
    rw [fld_eq_bits, hmarked.only Reg.idStatus (by decide), fld_eq_bits]
  have hsame := hsend.only.2 .regs (by decide)
  have hweave := hsend.only.2 .weave (by decide)
  have hboot := hsend.only.2 .boot (by decide)
  have hboot' := hchecked.only.2 .boot (by decide)
  refine completes_of_next hexec ⟨⟨?_, ?_⟩, fun n hn => ?_, ?_, honly, hregs.only⟩
  · rw [reg_eq_of_regs_eq hsame.1, hstatus]
  · rw [hweave, hverdict, memberLoad, hformat]; rfl
  · rw [hboot, hboot', hcores n hn]
  · rw [State.level, fld_eq_of_regs_eq hsame.1, hidStatus]; exact hlevel

/-! ### HALT and RESUME words (R275, R277, R280) -/

theorem stopWork_lastHalt (s : State) : (stopWork s).basket.lastHalt = s.basket.lastHalt := by
  have hload : (haltLoad s).basket = s.basket :=
    (haltLoad_only s (.refl [.regs, .out, .host, .weave] s) (by simp)).only.2 .basket (by decide)
  have hplain : (unweave (haltLoad s)).basket.lastHalt = s.basket.lastHalt := congrArg (·.lastHalt) (a₁ := (haltLoad s).basket) hload
  have hrest : Moves [.regs, .out, .host, .roi, .cores, .knots, .serve] (unweave (haltLoad s)) (stopWork s) := by
    have hwork := dropPartial_only _ (abandonPlait_only _ (abandonWork_only _ (.refl
      [.regs, .out, .host, .roi, .cores, .knots, .serve] (unweave (haltLoad s))) (by simp)) (by simp)) (by simp)
    have hdesc := finishWhere_only (fun f => !opSurvivesStop (dOp f.desc)) eDescRestart _ hwork (by simp)
    unfold stopWork
    dsimp only
    split
    · exact clearKnots_only _ _ _ hdesc (by simp)
    · exact hdesc
  rw [hrest.only.2 .basket (by decide), hplain]

/-- A stop leaves the number of the last HALT word. -/
theorem stopWeave_lastHalt (s : State) : (stopWeave s).basket.lastHalt = s.basket.lastHalt := by
  rw [stopWeave_eq]
  exact stopWork_lastHalt s

/-- A new HALT word of number `n` has been forwarded and is remembered. -/
def haltHeard (p : Port) (w : LinkWord) (s : State) : State :=
  noteRestart (BitVec.ofNat 15 (haltNum w)) { relayCtrl p w s with
    basket := { (relayCtrl p w s).basket with lastHalt := some (BitVec.ofNat 16 (haltNum w)) } }

theorem haltHeard_frame (p : Port) (w : LinkWord) (s : State) : Moves [.basket, .fault] s (haltHeard p w s) :=
  noteRestart_only _ _ ((relayCtrl_only p w s (.refl ..) (by simp)).updBasket (by simp)) (by simp)

theorem haltHeard_lastHalt (p : Port) (w : LinkWord) (s : State) :
    (haltHeard p w s).basket.lastHalt = some (BitVec.ofNat 16 (haltNum w)) :=
  congrArg BasketState.lastHalt ((noteRestart_only _ _ (.refl [.fault] _) (by simp)).only.2 .basket (by decide))

/-- The restart that a HALT word opens. -/
def haltInfo (w : LinkWord) : HaltInfo :=
  ⟨BitVec.ofNat 15 (haltNum w), BitVec.ofNat 32 (haltBeat w), BitVec.ofNat 6 (haltOrigin w), BitVec.ofNat 8 (haltCls w)⟩

theorem haltIn_eq {p : Port} {w : LinkWord} {s : State} (hnum : haltNum w < 0x8000)
    (hnew : haltNew s.fault.lastNum (BitVec.ofNat 15 (haltNum w)) = true)
    (hlast : s.basket.lastHalt ≠ some (BitVec.ofNat 16 (haltNum w))) (hruns : s.weaveRuns = true) :
    haltIn p w s = stopWeave { haltHeard p w s with fault := { (haltHeard p w s).fault with halt := some (haltInfo w) } } := by
  have hsame : (haltHeard p w s).weaveRuns = true := by
    rw [State.weaveRuns, (haltHeard_frame p w s).only.2 .weave (by decide), ← State.weaveRuns, hruns]
  have hlow : ¬ 0x8000 ≤ haltNum w := by omega
  have hfresh : (s.basket.lastHalt == some (BitVec.ofNat 16 (haltNum w))) = false := beq_false_of_ne hlast
  unfold haltIn
  simp only [hlow, hnew, hfresh, decide_false, Bool.not_true, Bool.or_self, Bool.false_eq_true, if_false]
  exact (if_neg (by rw [← haltHeard, hsame]; simp))

/-- A HALT word stops the weave (R275, R277). -/
theorem completes_halt {p : Port} {w : LinkWord} {s : State} (hnum : haltNum w < 0x8000)
    (hnew : haltNew s.fault.lastNum (BitVec.ofNat 15 (haltNum w)) = true)
    (hlast : s.basket.lastHalt ≠ some (BitVec.ofNat 16 (haltNum w))) (hruns : s.weaveRuns = true) :
    Completes (.halt p w) s (fun t =>
      t.fault.phase = .stopped ∧ t.fault.stopNs = s.nowNs ∧
      t.fault.halt = some ⟨BitVec.ofNat 15 (haltNum w), BitVec.ofNat 32 (haltBeat w), BitVec.ofNat 6 (haltOrigin w),
        BitVec.ofNat 8 (haltCls w)⟩ ∧
      t.basket.lastHalt = some (BitVec.ofNat 16 (haltNum w)) ∧
      Only (touched (.halt p w)) s t) := by
  have hexec : exec (.halt p w) s = .next (haltIn p w s) := rfl
  have honly := (exec_moves hexec).only
  rw [haltIn_eq hnum hnew hlast hruns] at hexec honly
  have htime : (haltHeard p w s).time = s.time := (haltHeard_frame p w s).only.2 .time (by decide)
  refine completes_of_next hexec ⟨?_, ?_, ?_, ?_, honly⟩
  · rw [stopWeave_fault]
  · rw [stopWeave_fault]
    exact congrArg (fun x : TimeState => x.belt.toNat / 65536) htime
  · rw [stopWeave_fault, haltInfo]
  · rw [stopWeave_lastHalt]
    exact haltHeard_lastHalt p w s

/-- A RESUME word for the restart in progress of a package that is ready is forwarded and taken (R275, R280). -/
theorem completes_resume {p : Port} {w : LinkWord} {h : HaltInfo} {s : State} (hnum : 0x8000 ≤ haltNum w)
    (hin : s.basket.outsider = false)
    (hlast : s.basket.lastResume ≠ some (BitVec.ofNat 16 (haltNum w), BitVec.ofNat 32 (haltBeat w)))
    (hruns : s.weaveRuns = true) (hload : s.weave.load = none) (hhalt : s.fault.halt = some h)
    (hthis : h.num = BitVec.ofNat 15 (haltNum w)) (hphase : s.fault.phase = .ready) :
    Completes (.resume p w) s (fun t =>
      t.fault = { s.fault with resume := some (resumeAlt w, BitVec.ofNat 32 (haltBeat w)) } ∧ Flooded (some p) w s t ∧
      t.basket.lastResume = some (BitVec.ofNat 16 (haltNum w), BitVec.ofNat 32 (haltBeat w)) ∧
      Only [.basket, .fault] s t) := by
  have hflood := flooded_floodCtrl (some p) w s
  have hframe := floodCtrl_only (some p) w s (.refl [.basket, .fault] s) (by simp)
  have hkept := floodCtrl_frame (some p) w s
  have hexec : exec (.resume p w) s = .next (resumeIn p w s) := rfl
  have hlow : ¬ haltNum w < 0x8000 := by omega
  have hfresh : (s.basket.lastResume == some (BitVec.ofNat 16 (haltNum w), BitVec.ofNat 32 (haltBeat w))) = false :=
    beq_false_of_ne hlast
  simp only [resumeIn, hlow, hfresh, decide_false, Bool.or_self, Bool.false_eq_true, if_false, relayCtrl, hin] at hexec
  generalize floodCtrl (some p) w s = u at *
  have hfault : u.fault = s.fault := hkept.only.2 .fault (by decide)
  have hweave : u.weave = s.weave := hkept.only.2 .weave (by decide)
  have hruns' : s.weave.run ≠ none := Option.isSome_iff_ne_none.1 hruns
  have htake : takeResume (BitVec.ofNat 15 (haltNum w)) (resumeAlt w) (BitVec.ofNat 32 (haltBeat w))
      { u with basket := { u.basket with lastResume := some (BitVec.ofNat 16 (haltNum w), BitVec.ofNat 32 (haltBeat w)) } } =
      { u with basket := { u.basket with lastResume := some (BitVec.ofNat 16 (haltNum w), BitVec.ofNat 32 (haltBeat w)) },
               fault := { s.fault with resume := some (resumeAlt w, BitVec.ofNat 32 (haltBeat w)) } } := by
    simp [takeResume, hweave, hload, hfault, hhalt, hphase, State.weaveRuns, hthis, hruns']
  rw [htake] at hexec
  exact completes_of_next hexec ⟨rfl, hflood, rfl, hframe.only.trans (only_iff.2 (by simp))⟩

/-! ### Faults of WEAVE class (R275, R285) -/

theorem completes_localFault {f : FaultReport} {s : State} (hcls : f.cls = 2) (hruns : s.weaveRuns = true)
    (hphase : s.fault.phase = .running) :
    Completes (.localFault f) s (fun t =>
      t.fault.phase = .stopped ∧ t.fault.stopNs = s.nowNs ∧
      t.fault.log = (faultRecord s f (s.fault.lastNum + 1).toNat :: s.fault.log).take 16 ∧
      t.fault.halt = some ⟨s.fault.lastNum + 1, BitVec.ofNat 32 (s.beat % 2 ^ 32), s.pkg, 2⟩) := by
  have hframe := logFault_frame f s
  have hlog := logFault_fault f s
  have htime : (logFault f s).time = s.time := hframe.only.2 .time (by decide)
  have hpower : (logFault f s).power = s.power := hframe.only.2 .power (by decide)
  have hweave : (logFault f s).weave = s.weave := hframe.only.2 .weave (by decide)
  have hexec : exec (.localFault f) s = .next (raiseHalt 2 (logFault f s)) := by
    have hruns' : (logFault f s).weaveRuns = true := by rw [State.weaveRuns, hweave, ← State.weaveRuns, hruns]
    have hphase' : (logFault f s).fault.phase = .running := by rw [hlog, hphase]
    simp [exec, execLocalFault, localFault, hcls, weaveFault, hruns', hphase']
  have hnum : s.restartNum = s.fault.lastNum + 1 := by simp [State.restartNum, hruns, hphase]
  obtain ⟨hstop, hns, hsame, hhalt⟩ := raiseHalt_fault 2 (logFault f s)
  refine completes_of_next hexec ⟨hstop, ?_, ?_, ?_⟩
  · rw [hns, State.nowNs, htime, State.nowNs]
  · rw [hsame, hlog, hnum]
  · rw [hhalt, hlog, State.beat, htime, State.pkg, hpower]
    rfl

/-! ### The start of a beat (R38) -/

/-- The beat after the last has started: its number and its stamp. -/
theorem completes_beatStart {s : State} (hclk : s.cclkRuns = true) (hdue : s.time.beatNum.toNat < s.beatNow) :
    Completes .beatStart s (fun t =>
      t.time = { s.time with beatNum := s.time.beatNum + 1,
                             beatStamp := BitVec.ofNat 64 (s.beatStampOf s.time.beatNum.toNat) }) := by
  have hexec : exec .beatStart s = .next (beatStart s) := rfl
  have hnot : ¬ s.beatNow ≤ s.time.beatNum.toNat := by omega
  simp only [beatStart, hclk, hnot, decide_false, Bool.not_true, Bool.or_self, Bool.false_eq_true, if_false] at hexec
  refine completes_of_next hexec ?_
  obtain ⟨u, hu⟩ : ∃ u, u = { s with time := { s.time with
    beatNum := s.time.beatNum + 1, beatStamp := BitVec.ofNat 64 (s.beatStampOf s.time.beatNum.toNat) } } := ⟨_, rfl⟩
  have hload := startLoad_only _ (chooseLoad_only _ (restartBeat_only _ (stopDue_only u (.refl
    [.regs, .out, .basket, .host, .field, .roi, .wfe, .cores, .knots, .mem, .poison, .serve, .fault, .weave] u)
    (by simp)) (by simp)) (by simp)) (by simp)
  have hall := startSource_only 6 none _ (beatPulses_only _ (coresBeat_only _ hload (by simp)) (by simp)) (by simp)
  rw [← hu]
  exact (hall.only.2 .time (by decide)).trans (by rw [hu])

/-! ### Recovery (R278) -/

/-- A core as a restart leaves it (R168). -/
def CoreCleared (c : CoreState) : Prop :=
  c.runs = [] ∧ c.landings = [] ∧ c.sacc = [] ∧ c.rq = [] ∧ c.gTag = none

/-- The zero fill of a core: its registers and its core apart, nothing else of the cores changes, and its memory reads 0. -/
theorem spFill_reads {s : State} (hs : Canon s) (n : Nat) :
    (spFill n s).mem = (zeroMem (spAddr n 0) 0xC0000 s).mem ∧
    (∃ e, (spFill n s).core n = { s.core n with fillEnd := e }) ∧ ∀ k, k ≠ n → (spFill n s).core k = s.core k := by
  unfold spFill
  obtain ⟨u, hu⟩ : ∃ u, u = (zeroMem (spAddr n 0) 0xC0000 s).setFld (Reg.coreSpStatus n) 0 12
    ((zeroMem (spAddr n 0) 0xC0000 s).fld (Reg.coreSpCfg n) 16 12) := ⟨_, rfl⟩
  have hcores : u.cores = s.cores := by rw [hu]; rfl
  have hmem : u.mem = (zeroMem (spAddr n 0) 0xC0000 s).mem := by rw [hu]; rfl
  have hcore (k : Nat) : u.core k = s.core k := core_congr hcores k
  have hrise : Rising u.cores := hcores ▸ hs.cores
  dsimp only
  rw [← hu]
  obtain ⟨e, he⟩ : ∃ e, e = u.nowNs +
    u.cycleNs (128 * popCount 12 ((zeroMem (spAddr n 0) 0xC0000 s).fld (Reg.coreSpCfg n) 16 12)) := ⟨_, rfl⟩
  rw [← he]
  have hregs : Moves [.regs] (u.setCore n { u.core n with fillEnd := e })
      ((List.range 32).foldl (fun s j => (s.setReg (Reg.coreSpRgnHead n j) 0).setReg (Reg.coreSpRgnTail n j) 0)
        (u.setCore n { u.core n with fillEnd := e })) :=
    Moves.foldl (fun v j => State_setReg_only _ _ _ (State_setReg_only v _ _ (.refl ..) (by simp)) (by simp)) (.refl ..)
  have hkept := hregs.only.2 .cores (by decide)
  refine ⟨(hregs.only.2 .mem (by decide)).trans hmem, ⟨e, ?_⟩, fun k hk => ?_⟩
  · rw [core_congr hkept, core_setCore hrise, hcore]
  · rw [core_congr hkept, core_setCore_ne hrise _ hk, hcore]

/-- A core that a restart empties. -/
theorem clearCore_reads {s : State} (hs : Canon s) (n : Nat) :
    (clearCore n (rDiscard n s)).mem = (zeroMem (spAddr n 0) 0xC0000 s).mem ∧
    CoreCleared ((clearCore n (rDiscard n s)).core n) ∧
    ∀ k, k ≠ n → (clearCore n (rDiscard n s)).core k = s.core k := by
  have hanswers : Moves [.regs, .out, .basket] (s.setCore n { s.core n with rq := [] }) (rDiscard n s) := by
    unfold rDiscard
    refine Moves.foldl (fun u q => ?_) (.refl ..)
    split
    · exact sendLoose_only _ u (.refl ..) (by simp)
    · exact .refl ..
  have hmem : (rDiscard n s).mem = s.mem := hanswers.only.2 .mem (by decide)
  have hcores := hanswers.only.2 .cores (by decide)
  have hown : (rDiscard n s).core n = { s.core n with rq := [] } := by rw [core_congr hcores, core_setCore hs.cores]
  have hother (k : Nat) (hk : k ≠ n) : (rDiscard n s).core k = s.core k := by
    rw [core_congr hcores, core_setCore_ne hs.cores _ hk]
  have hcanon : Canon (rDiscard n s) :=
    (rDiscard_only n s (.refl [.regs, .out, .basket, .cores] s) (by simp)).canon hs
  generalize rDiscard n s = u at hmem hcores hown hother hcanon
  have hdiscard : Canon (spDiscard n u) := (spDiscard_only n u (.refl [.cores] u) (by simp)).canon hcanon
  obtain ⟨hzero, ⟨e, hfill⟩, hrest⟩ := spFill_reads hdiscard n
  have hfilled : Canon (spFill n (spDiscard n u)) :=
    (spFill_only n _ (.refl [.regs, .cores, .mem, .poison] _) (by simp)).canon hdiscard
  refine ⟨?_, ?_, fun k hk => ?_⟩
  · rw [clearCore, corePipelinesClear, setCore_mem, hzero]
    simp only [zeroMem, spDiscard, setCore_mem, hmem]
  · rw [clearCore, corePipelinesClear, core_setCore hfilled.cores, hfill, spDiscard, core_setCore hcanon.cores, hown]
    exact ⟨rfl, rfl, rfl, rfl, rfl⟩
  · rw [clearCore, corePipelinesClear, core_setCore_ne hfilled.cores _ hk, hrest k hk, spDiscard,
      core_setCore_ne hcanon.cores _ hk, hother k hk]

/-- Keys that a filter drops read as the default. -/
theorem smGet_filter_dropped {α : Type} (d : α) (m : SMap α) {p : Nat × α → Bool} {k : Nat} (hk : ∀ v, p (k, v) = false) :
    smGet d (m.filter p) k = d := by
  have hkeys : ∀ q ∈ m.filter p, q.1 ≠ k := by
    rintro ⟨j, v⟩ hq rfl
    exact absurd (List.mem_filter.1 hq).2 (by simp [hk v])
  generalize m.filter p = l at hkeys
  induction l with
  | nil => rfl
  | cons q l ih =>
    obtain ⟨j, v⟩ := q
    have hne : j ≠ k := hkeys (j, v) (by simp)
    simp only [smGet, hne.symm, if_false]
    split
    · rfl
    · exact ih fun q hq => hkeys q (List.mem_cons_of_mem _ hq)

/-- A range that is filled with zeros reads 0, and so does what read 0 before. -/
theorem smGet_zeroMem {s : State} (hs : Canon s) (a n x : Nat) (h : (a ≤ x ∧ x < a + n) ∨ smGet 0 s.mem x = 0) :
    smGet 0 (zeroMem a n s).mem x = 0 := by
  by_cases hx : a ≤ x ∧ x < a + n
  · exact smGet_filter_dropped 0 s.mem fun v => decide_eq_false (by dsimp only; omega)
  · refine Eq.trans ?_ (h.resolve_left hx)
    exact smGet_filter (d := fun _ => 0) hs.mem (p := fun k => decide (k < a ∨ a + n ≤ k))
      (decide_eq_true (by omega)) 0

/-- The cores below `n` are as a restart leaves them, their scratchpads filled with zeros. -/
theorem foldl_clearCore {s : State} (hs : Canon s) (n : Nat) :
    let t := (List.range n).foldl (fun s n => clearCore n (rDiscard n s)) s
    Canon t ∧ (∀ k < n, CoreCleared (t.core k)) ∧
    ∀ x < n * 0x100000, x % 0x100000 < 0xC0000 → smGet 0 t.mem x = 0 := by
  induction n with
  | zero => exact ⟨hs, fun k hk => absurd hk (Nat.not_lt_zero k), fun x hx => absurd hx (by omega)⟩
  | succ n ih =>
    rw [List.range_succ, List.foldl_append]
    obtain ⟨hcanon, hcores, hmem⟩ := ih
    simp only [List.foldl_cons, List.foldl_nil]
    generalize (List.range n).foldl (fun s n => clearCore n (rDiscard n s)) s = u at hcanon hcores hmem
    obtain ⟨hzero, hown, hother⟩ := clearCore_reads hcanon n
    have hmoves : Moves [.regs, .out, .basket, .cores, .mem, .poison] u (clearCore n (rDiscard n u)) :=
      clearCore_only n _ (rDiscard_only n u (.refl ..) (by simp)) (by simp)
    refine ⟨hmoves.canon hcanon, fun k hk => ?_, fun x hx hlow => ?_⟩
    · rcases Nat.lt_succ_iff_lt_or_eq.1 hk with h | rfl
      · rw [hother k (Nat.ne_of_lt h)]
        exact hcores k h
      · exact hown
    · rw [hzero]
      refine smGet_zeroMem hcanon _ _ _ ?_
      rcases Nat.lt_or_ge x (n * 0x100000) with h | h
      · exact .inr (hmem x h hlow)
      · exact .inl (by unfold spAddr; omega)

/-- Every core and its scratchpad as a restart leaves them (R168). -/
theorem clearCores_reads {s : State} (hs : Canon s) :
    (∀ k < 16, CoreCleared ((clearCores s).core k)) ∧
    ∀ x < 0x1000000, x % 0x100000 < 0xC0000 → smGet 0 (clearCores s).mem x = 0 := by
  obtain ⟨-, hcores, hmem⟩ := foldl_clearCore hs 16
  unfold clearCores
  exact ⟨hcores, hmem⟩

theorem replaysAll_of_covered {s : State} {r : Recovery}
    (h : ∀ i ∈ s.fault.implicated, ∃ y ∈ r.replays, 4 * y.1.val + y.2.1.val = i.1) : replaysAll s r = true := by
  simp only [replaysAll, List.all_eq_true, List.any_eq_true, beq_iff_eq]
  exact h

/-- Without a crop there is none to fail its check. -/
theorem checkCrops_of_none {s : State} (h : s.roi.crops = []) : checkCrops [] [] s = s := by
  simp [checkCrops, h]

/-- A recovery that finds nothing wrong. -/
def cleanRecovery (x : List (Fin 16 × Fin 4 × ReplayResult)) : Recovery :=
  { imageOk := true, badCrops := [], badAway := [], badEntries := [], badTokens := [], replays := x, fault := false }

/-- No array is implicated any more. -/
def noneImplicated (s : State) : State := { s with fault := { s.fault with implicated := [] } }

/-- The end of a recovery whose crops have been checked. -/
def signalled (d : WeaveDecl) (s : State) : State :=
  if s.fault.excluded then { s with fault := { s.fault with phase := .recovering, excluded := true } }
  else signalReady d { s with fault := { s.fault with phase := .ready } }

theorem recoveryDone_clean {d : WeaveDecl} {x : List (Fin 16 × Fin 4 × ReplayResult)} {s : State}
    (hrun : s.weave.run = some d) (hphase : s.fault.phase = .stopped) (hlate : s.fault.stopNs + 10000 ≤ s.nowNs)
    (hall : replaysAll s (cleanRecovery x) = true) :
    recoveryDone (cleanRecovery x) s =
      signalled d (setLevel (checkCrops [] [] (clearCores (noneImplicated (x.foldl applyReplay s))))) := by
  have hearly : ¬ s.nowNs < s.fault.stopNs + 10000 := by omega
  unfold recoveryDone signalled noneImplicated
  simp only [hrun, hphase, hearly, hall]
  simp [cleanRecovery]

/-- The steps of R278 have run: the package is ready, and its cores are empty. -/
theorem completes_recoveryDone {d : WeaveDecl} {x : List (Fin 16 × Fin 4 × ReplayResult)} {s : State} (hcanon : Canon s)
    (hrun : s.weave.run = some d) (hphase : s.fault.phase = .stopped) (hlate : s.fault.stopNs + 10000 ≤ s.nowNs)
    (hin : s.fault.excluded = false) (hcrops : s.roi.crops = [])
    (hreplays : ∀ i ∈ s.fault.implicated, ∃ y ∈ x, 4 * y.1.val + y.2.1.val = i.1) :
    Completes (.recoveryDone (cleanRecovery x)) s (fun t =>
      t.fault = { s.fault with phase := .ready, implicated := [] } ∧
      (∀ x, x < 0x1000000 → x % 0x100000 < 0xC0000 → t.rdMem x 1 = [0]) ∧
      (∀ n < 16, (t.core n).runs = [] ∧ (t.core n).landings = [] ∧ (t.core n).sacc = [] ∧ (t.core n).rq = [] ∧
        (t.core n).gTag = none)) := by
  have hall : replaysAll s (cleanRecovery x) = true := replaysAll_of_covered hreplays
  have hreplay : Moves [.regs] s (x.foldl applyReplay s) := Moves.foldl (fun u y => applyReplay_only u y (.refl ..) (by simp)) (.refl ..)
  obtain ⟨u, hu⟩ : ∃ u, u = noneImplicated (x.foldl applyReplay s) := ⟨_, rfl⟩
  have hstart : Moves [.regs, .fault] s u := by
    rw [hu]
    exact (Moves.foldl (fun u y => applyReplay_only u y (.refl ..) (by simp)) (.refl ..) : Moves [.regs, .fault] s _).updFault
      (by simp)
  have hufault : u.fault = { s.fault with implicated := [] } := by
    rw [hu, noneImplicated, hreplay.only.2 .fault (by decide)]
  have hclear : Moves [.regs, .out, .basket, .cores, .mem, .poison] u (clearCores u) :=
    clearCores_only u (.refl ..) (by simp)
  obtain ⟨hcleared, hzero⟩ := clearCores_reads (hstart.canon hcanon)
  have hnone : (clearCores u).roi.crops = [] := by
    rw [hclear.only.2 .roi (by decide), hstart.only.2 .roi (by decide), hcrops]
  have hlevel : Moves [.regs] (clearCores u) (setLevel (clearCores u)) := setLevel_only _ (.refl ..) (by simp)
  have hfault : (setLevel (clearCores u)).fault = { s.fault with implicated := [] } := by
    rw [hlevel.only.2 .fault (by decide), hclear.only.2 .fault (by decide), hufault]
  have hexec : exec (.recoveryDone (cleanRecovery x)) s = .next (signalReady d { setLevel (clearCores u) with
        fault := { (setLevel (clearCores u)).fault with phase := .ready } }) := by
    refine congrArg Host.Outcome.next ?_
    rw [recoveryDone_clean hrun hphase hlate hall, ← hu, checkCrops_of_none hnone, signalled, hfault, if_neg (by simp [hin])]
  have hcores : (setLevel (clearCores u)).cores = (clearCores u).cores := hlevel.only.2 .cores (by decide)
  have hmem : (setLevel (clearCores u)).mem = (clearCores u).mem := hlevel.only.2 .mem (by decide)
  generalize setLevel (clearCores u) = v at hexec hfault hcores hmem
  have hsignal : Moves [.basket, .host, .knots] { v with fault := { v.fault with phase := .ready } }
      (signalReady d { v with fault := { v.fault with phase := .ready } }) := signalReady_only d _ (.refl ..) (by simp)
  have hsame : (signalReady d { v with fault := { v.fault with phase := .ready } }).mem = v.mem :=
    hsignal.only.2 .mem (by decide)
  have hsame' : (signalReady d { v with fault := { v.fault with phase := .ready } }).cores = v.cores :=
    hsignal.only.2 .cores (by decide)
  refine completes_of_next hexec ⟨?_, fun a ha hlow => ?_, fun n hn => ?_⟩
  · rw [hsignal.only.2 .fault (by decide), hfault]
  · rw [State.rdMem, smGetAll_one, hsame, hmem, hzero a ha hlow]
  · rw [core_congr (hsame'.trans hcores)]
    exact hcleared n hn

/-- A recovery that leaves an implicated array without its replay has not ended. -/
theorem exec_recoveryDone_missing {d : WeaveDecl} {r : Recovery} {i : Nat × Option (BitVec 5)} {s : State}
    (hrun : s.weave.run = some d) (hi : i ∈ s.fault.implicated) (hno : ∀ y ∈ r.replays, 4 * y.1.val + y.2.1.val ≠ i.1) :
    exec (.recoveryDone r) s = .next s := by
  have hall : replaysAll s r = false := by
    by_contra hall
    simp only [Bool.not_eq_false, replaysAll, List.all_eq_true, List.any_eq_true, beq_iff_eq] at hall
    obtain ⟨y, hy, heq⟩ := hall i hi
    exact hno y hy heq
  simp [exec, execRecoveryDone, recoveryDone, hrun, hall]

/-- FAULT_CMD.CLEAR empties the log (R285). -/
theorem exec_faultClear {s : State} (h : Served s) : exec .faultClear s = .next { s with fault := { s.fault with log := [] } } :=
  congrArg Host.Outcome.next (gateWrite_of_served h _ _)

/-! ### The obligation -/

/-- Settles O28: each clause is the lemma on its command; a stop, a HALT of the package itself and the EVENT of a fault are
those of the lemmas on them, and a recovery empties the cores one after the other. -/
theorem weaveCommandsComplete : Obligations.WeaveCommandsComplete := by
  unfold Obligations.WeaveCommandsComplete
  refine ⟨fun _ _ hserved hruns hverdict hgo => completes_bootLoad hserved hruns hverdict hgo,
    fun _ hserved hruns hanchor hlead hfree hheld => exec_bootStop hserved hruns hanchor hlead hfree hheld,
    fun _ _ _ hf hverdict hgo => completes_weaveLoad hf hverdict hgo,
    fun _ _ _ hcanon hload hlead hdecl hasked hverdict => completes_weaveImageReadDone hcanon hload hlead hdecl hasked hverdict,
    fun _ _ _ hcanon hload hjoined hmember haligned hformat =>
      completes_weaveMemberCheckDone hcanon hload hjoined hmember haligned hformat,
    fun img b s haligned => ?_, fun _ hclk hdue => completes_beatStart hclk hdue,
    fun _ _ _ hnum hnew hlast hruns => completes_halt hnum hnew hlast hruns,
    fun _ _ _ _ hnum hin hlast hruns hload hhalt hthis hphase => completes_resume hnum hin hlast hruns hload hhalt hthis hphase,
    fun _ _ hcls hruns hphase => completes_localFault hcls hruns hphase,
    fun _ _ _ hcanon hrun hphase hlate hin hcrops hreplays =>
      completes_recoveryDone hcanon hrun hphase hlate hin hcrops hreplays,
    fun _ _ _ _ hrun hi hno => exec_recoveryDone_missing hrun hi hno, fun _ hserved => exec_faultClear hserved⟩
  simp [exec, execWeaveMemberCheckDone, weaveMemberCheckDone, haligned]

end Sys2Proof.Machine
end

section
/-!
PROOFS. Transfers.lean: contexts, pages and lists of a cache, and the messages of its transfer (R251 to R257).
-/

namespace Sys2Proof.Machine

/-! ### Contexts -/

section Contexts

variable {owner : BitVec 6} {req : Nat} {c : Ctx} {s : State}

theorem ctx_owner (h : s.ctx owner req = some c) : c.owner = owner := by
  have := List.find?_some h
  simp only [Bool.and_eq_true, beq_iff_eq] at this
  exact this.1

theorem ctx_req (h : s.ctx owner req = some c) : c.req.toNat = req := by
  have := List.find?_some h
  simp only [Bool.and_eq_true, beq_iff_eq] at this
  exact this.2

theorem ctx_congr {t : State} (h : t.serve = s.serve) (owner : BitVec 6) (req : Nat) : t.ctx owner req = s.ctx owner req := by
  rw [State.ctx, h, State.ctx]

/-- A context that has been put. -/
theorem ctx_putCtx (howner : c.owner = owner) (hreq : c.req.toNat = req) (s : State) :
    (putCtx c s).ctx owner req = some c := by
  subst howner hreq
  have hgone : (s.serve.ctxs.filter (fun d => !(d.owner == c.owner && d.req == c.req))).find?
      (fun d => d.owner == c.owner && d.req.toNat == c.req.toNat) = none := by
    rw [List.find?_eq_none]
    intro d hd
    have := (List.mem_filter.1 hd).2
    simp only [Bool.not_eq_true', Bool.and_eq_false_iff, beq_eq_false_iff_ne, ne_eq] at this
    simp only [Bool.and_eq_true, beq_iff_eq, not_and]
    intro ho hr
    rcases this with h | h
    · exact h ho
    · exact h (BitVec.eq_of_toNat_eq hr)
  rw [State.ctx, putCtx]
  dsimp only
  rw [List.find?_append, hgone]
  simp

/-- A context that takes the place of the one it was made from. -/
theorem ctx_putCtx_of {d : Ctx} (h : s.ctx owner req = some c) (howner : d.owner = c.owner) (hreq : d.req = c.req)
    (u : State) : (putCtx d u).ctx owner req = some d :=
  ctx_putCtx (howner.trans (ctx_owner h)) ((congrArg BitVec.toNat hreq).trans (ctx_req h)) u

/-- A context that has been dropped. -/
theorem ctx_dropCtx (owner : BitVec 6) (req : Nat) (s : State) : (dropCtx owner req s).ctx owner req = none := by
  rw [State.ctx, dropCtx, List.find?_eq_none]
  intro d hd
  have := (List.mem_filter.1 hd).2
  simpa only [Bool.not_eq_true', Bool.not_eq_true] using this

theorem find_filter_of_imp {α : Type} {p q : α → Bool} (h : ∀ a, q a = true → p a = true) (l : List α) :
    (l.filter p).find? q = l.find? q := by
  induction l with
  | nil => rfl
  | cons a l ih =>
    cases hq : q a
    · cases hp : p a
      · simp [hp, hq, ih]
      · simp [hp, hq, ih]
    · simp [h a hq, hq]

/-- A dropped context leaves every other. -/
theorem ctx_dropCtx_ne {k : Nat} (hne : k ≠ req) (s : State) : (dropCtx owner req s).ctx owner k = s.ctx owner k := by
  rw [State.ctx, dropCtx, State.ctx]
  refine find_filter_of_imp (fun d hd => ?_) _
  simp only [Bool.and_eq_true, beq_iff_eq] at hd
  simp [hd.1, hd.2, hne]

theorem putCtx_frame (c : Ctx) (s : State) : Only [.serve] s (putCtx c s) := only_iff.2 (by simp [putCtx])

theorem dropCtx_frame (owner : BitVec 6) (req : Nat) (s : State) : Only [.serve] s (dropCtx owner req s) :=
  only_iff.2 (by simp [dropCtx])

end Contexts

/-! ### Reports (R247) -/

/-- What a stream word changes depends on the weave, the package's own name and the streams alone. -/
theorem pushStream_basket_congr {s t : State} (hbasket : t.basket = s.basket) (hweave : t.weave = s.weave)
    (hpower : t.power = s.power) (order : Bool) (dst : BitVec 6) (w : LinkWord) :
    (pushStream order dst w t).basket = (pushStream order dst w s).basket := by
  have hpkg : t.pkg = s.pkg := by rw [State.pkg, hpower, State.pkg]
  unfold pushStream
  rw [hweave, hpkg, hbasket]
  split
  · rfl
  · exact hbasket

theorem pushStream_out (order : Bool) (dst : BitVec 6) (w : LinkWord) (s : State) :
    (pushStream order dst w s).out = s.out :=
  (pushStream_only order dst w s (.refl [.basket] s) (by simp)).only.2 .out (by decide)

/-- A report that leaves after operations that touch neither the streams nor what has been sent. -/
theorem reported_sendReport {s t : State} (o : BitVec 6) (w : LinkWord) (hout : t.out = s.out) (hbasket : t.basket = s.basket)
    (hweave : t.weave = s.weave) (hpower : t.power = s.power) : Reported o w s (sendReport o w t) := by
  refine ⟨?_, ?_⟩
  · rw [sendReport, emit_out, pushStream_out, hout]
  · rw [sendReport, emit_basket]
    exact pushStream_basket_congr hbasket hweave hpower false o w

theorem reportWord_congr {s t : State} (hpower : t.power = s.power) (req kind flags tokens margin reason : Nat) :
    reportWord t req kind flags tokens margin reason = reportWord s req kind flags tokens margin reason := by
  rw [reportWord, State.pkg, hpower, reportWord, State.pkg]

theorem sendReport_frame (o : BitVec 6) (w : LinkWord) (s : State) : Moves [.out, .basket] s (sendReport o w s) :=
  (State_emit_only _ _ (pushStream_only _ _ _ s (.refl ..) (by simp)) (by simp))

/-! ### Messages of a transfer (R252, R253) -/

/-- A loose message that is refused reports its code in the ERR register of WITHY. -/
theorem RegMoves.sendLoose {offs : List Nat} {s t : State} (h : RegMoves offs s t) (m : Loose)
    (hoff : Reg.withyErr ∈ offs) : RegMoves offs s (sendLoose m t) := by
  have hlatch {u : State} (hu : RegMoves offs s u) : RegMoves offs s ((Machine.latch eRouteNone 0 u).emit (.issuerCode eRouteNone)) :=
    (hu.latch eRouteNone 0 fun r hr => by cases hr; exact hoff).congr rfl
  have hdrain : ∀ (l : List Loose) {u : State}, RegMoves offs s u → RegMoves offs s (drainOutbox l u) := by
    intro l
    induction l with
    | nil => exact fun hu => hu.congr rfl
    | cons m l ih =>
      intro u hu
      rw [drainOutbox]
      split
      · exact ih (hlatch hu)
      · split
        · exact ih (hu.of_moves (sendOn_frame _ _ _) (by decide))
        · exact hu.congr rfl
  unfold Machine.sendLoose
  dsimp only
  split
  · exact hlatch h
  · split
    · exact h.congr rfl
    · exact hdrain _ (h.congr rfl)

/-- A message of a transfer that this package expects passes the checks on its place and its CRC. -/
theorem onShip_expected {kind : Nat} {m : Loose} {place : Ctx → Nat} {k : Ctx → State → State} {c : Ctx} {s : State}
    (hactive : s.weaveActive = true) (hkind : kvKind m = kind) (hctx : s.ctx (kvOwner m) (kvReq m) = some c)
    (hexpect : c.expect = some (kvXfer m)) (hplace : m.addr.toNat = place c)
    (hcrc : (if (kvData m).isEmpty then 0 else (crc32c (kvData m)).toNat) = leAt m.payload 12 4) :
    onShip kind m place k s = k c s := by
  unfold onShip
  simp only [hactive, hkind, Bool.not_true, bne_self_eq_false, Bool.or_self, Bool.false_eq_true, if_false, hctx, hexpect]
  rw [if_neg (by rw [hplace]; simp), if_neg (by rw [hcrc]; simp)]

/-! ### Pages and their list (R251) -/

section Pages

variable {s t : State}

theorem pair_congr {lo hi : Nat} (hlo : t.reg lo = s.reg lo) (hhi : t.reg hi = s.reg hi) : t.pair lo hi = s.pair lo hi := by
  simp only [State.pair, hlo, hhi]

theorem kvAddr_congr (hregs : t.regs = s.regs) (p : Nat) : t.kvAddr p = s.kvAddr p := by
  rw [State.kvAddr, State.kvBase, pair_congr (reg_eq_of_regs_eq hregs _) (reg_eq_of_regs_eq hregs _), State.kvAddr, State.kvBase]

theorem pageRun_mem {a n p : Nat} : p ∈ pageRun a n ↔ a ≤ p ∧ p < a + n := by
  simp only [pageRun, List.mem_map, List.mem_range]
  constructor
  · rintro ⟨i, hi, rfl⟩
    omega
  · intro h
    exact ⟨p - a, by omega, by omega⟩

theorem wrMarked_frame (a : Nat) (l : Marked) (s : State) : Moves [.mem, .poison] s (wrMarked a l s) :=
  wrMarked_only a l s (.refl ..) (by simp)

/-- The pages of a list take their contents, one after the other. -/
def putPages (pages : List Nat) (full : List Marked) (s : State) : State :=
  full.zipIdx.foldl (fun s p => wrMarked (s.kvAddr (nthD 0 pages p.2)) p.1 s) s

theorem putPages_frame (pages : List Nat) (full : List Marked) (s : State) :
    Moves [.mem, .poison] s (putPages pages full s) :=
  Moves.foldl (fun u _ => wrMarked_frame _ _ u) (.refl ..)

theorem putPages_concat (pages : List Nat) (full : List Marked) (x : Marked) (s : State) :
    putPages pages (full ++ [x]) s =
      wrMarked (s.kvAddr (nthD 0 pages full.length)) x (putPages pages full s) := by
  have hregs := (putPages_frame pages full s).only.2 .regs (by decide)
  rw [putPages, List.zipIdx_append, List.foldl_append, ← putPages]
  simp only [List.zipIdx_singleton, List.foldl_cons, List.foldl_nil, Nat.zero_add, kvAddr_congr hregs.1]

theorem nthD_append_left {α : Type} (d : α) {l : List α} {i : Nat} (h : i < l.length) (l' : List α) :
    nthD d (l ++ l') i = nthD d l i := by
  rw [nthD_eq_getElem d _ _ (by simp; omega), nthD_eq_getElem d _ _ h, List.getElem_append_left]

theorem nthD_length_append {α : Type} (d x : α) (l : List α) : nthD d (l ++ [x]) l.length = x := by
  rw [nthD_eq_getElem d _ _ (by simp)]
  simp

theorem nthD_inj {l : List Nat} (h : l.Nodup) {i j : Nat} (hi : i < l.length) (hj : j < l.length) (hne : i ≠ j) :
    nthD 0 l i ≠ nthD 0 l j := by
  rw [nthD_eq_getElem 0 l i hi, nthD_eq_getElem 0 l j hj]
  exact fun heq => hne ((List.Nodup.getElem_inj_iff h).1 heq)

/-- Distinct pages read as they were written. -/
theorem putPages_reads (hs : Canon s) {pages : List Nat} (hnodup : pages.Nodup) (full : List Marked)
    (hsize : ∀ l ∈ full, l.length = 4096) (hfit : full.length ≤ pages.length) :
    ∀ i < full.length, (putPages pages full s).rdMem (s.kvAddr (nthD 0 pages i)) 4096 = bytesOf (nthD [] full i) := by
  induction full using List.reverseRecOn with
  | nil => exact fun i hi => absurd hi (Nat.not_lt_zero i)
  | append_singleton full x ih =>
    rw [List.length_append, List.length_singleton] at hfit
    have hold := ih (fun l hl => hsize l (List.mem_append_left _ hl)) (by omega)
    have hx : x.length = 4096 := hsize x (by simp)
    obtain ⟨hmoves, hreads, -⟩ := wrMarked_completes ((putPages_frame pages full s).canon hs)
      (s.kvAddr (nthD 0 pages full.length)) x
    intro i hi
    rw [List.length_append, List.length_singleton] at hi
    rw [putPages_concat]
    rcases Nat.lt_succ_iff_lt_or_eq.1 hi with h | rfl
    · have hne := nthD_inj hnodup (i := i) (j := full.length) (by omega) (by omega) (by omega)
      rw [nthD_append_left [] h, ← hold i h]
      exact hmoves.rdMem_eq (by rw [hx]; unfold State.kvAddr; omega)
    · rw [nthD_length_append, ← hreads, hx]

theorem marked_length : ∀ (l : List Byte) (ms : List Bool), (marked l ms).length = l.length
  | [], _ => rfl
  | _ :: l, [] => congrArg (· + 1) (marked_length l [])
  | _ :: l, _ :: ms => congrArg (· + 1) (marked_length l ms)

theorem bytesOf_marked : ∀ (l : List Byte) (ms : List Bool), bytesOf (marked l ms) = l
  | [], _ => rfl
  | b :: l, [] => congrArg (b :: ·) (bytesOf_marked l [])
  | b :: l, _ :: ms => congrArg (b :: ·) (bytesOf_marked l ms)

theorem leBytes_length (n v : Nat) : (leBytes n v).length = n := by
  induction n generalizing v with
  | zero => rfl
  | succ n ih => rw [leBytes, List.length_cons, ih]

theorem kvListBytes_length (magic l code req owner tokens parcel genLen : Nat) (es : List Nat) :
    (kvListBytes magic l code req owner tokens parcel genLen es).length = 64 + 8 * es.length := by
  have hents : ((es.map (leBytes 8)).flatten).length = 8 * es.length := by
    rw [List.length_flatten, List.map_map]
    simp [Function.comp_def, leBytes_length, Nat.mul_comm]
  simp only [kvListBytes, List.length_append, leBytes_length, hents, List.length_singleton]

theorem listPagesOf_spec (n : Nat) : 64 + 8 * n ≤ 4096 * listPagesOf n := by
  unfold listPagesOf ceilDiv
  omega

theorem fullPage_length (p : Marked) : (fullPage p).length = 4096 := by
  simp only [fullPage, List.length_append, List.length_take, clean, List.length_map, List.length_replicate]
  omega

theorem nthD_map {α β : Type} (d : α) (e : β) (f : α → β) {l : List α} {i : Nat} (h : i < l.length) :
    nthD e (l.map f) i = f (nthD d l i) := by
  rw [nthD_eq_getElem e _ _ (by simpa using h), nthD_eq_getElem d _ _ h, List.getElem_map]

theorem nthD_take {α : Type} (d : α) {l : List α} {n i : Nat} (hi : i < n) (hn : n ≤ l.length) :
    nthD d (l.take n) i = nthD d l i := by
  rw [nthD_eq_getElem d _ _ (by rw [List.length_take]; omega), nthD_eq_getElem d _ _ (by omega), List.getElem_take]

/-- A context without pages that takes contents: the pages come from its reservation, and the list names them. -/
theorem writeKv_fresh {c : Ctx} {held : Nat} {contents : List Marked} (hs : Canon s) (hpages : c.pages = [])
    (hfit : contents.length ≤ c.spare.length) (hnodup : (pageRun c.listFirst c.listPages ++ c.spare).Nodup)
    (hlist : listPagesOf contents.length ≤ c.listPages) :
    (∀ i < contents.length, (writeKv c held 0 contents s).rdMem (s.kvAddr (nthD 0 c.spare i)) 4096 =
      bytesOf (fullPage (nthD [] contents i))) ∧
    (writeKv c held 0 contents s).ctx c.owner c.req.toNat =
      some { c with held := held, pages := c.spare.take contents.length, spare := c.spare.drop contents.length } := by
  obtain ⟨a, ms, es, hes, heq⟩ : ∃ a ms es, es.length = contents.length ∧ writeKv c held 0 contents s =
      putCtx { c with held := held, pages := c.spare.take contents.length, spare := c.spare.drop contents.length }
        (wrMarked ((putPages (c.spare.take contents.length) (contents.map fullPage) s).kvAddr c.listFirst)
          (markList ms (ctxList (putPages (c.spare.take contents.length)
          (contents.map fullPage) s) a 0x4B56 0 es)) (putPages (c.spare.take contents.length) (contents.map fullPage) s)) := by
    simp only [writeKv, putPages, hpages, List.length_nil, Nat.zero_add, Nat.sub_zero, List.nil_append]
    refine ⟨_, _, _, ?_, rfl⟩
    rw [List.length_map, List.length_range, List.length_take]
    omega
  obtain ⟨hnodupList, hnodupSpare, hdisjoint⟩ := List.nodup_append.1 hnodup
  have hlen : (c.spare.take contents.length).length = contents.length := by rw [List.length_take]; omega
  have hframe := putPages_frame (c.spare.take contents.length) (contents.map fullPage) s
  have hreads := putPages_reads hs (List.Nodup.sublist (List.take_sublist _ _) hnodupSpare) (contents.map fullPage)
    (fun l hl => by obtain ⟨p, -, rfl⟩ := List.mem_map.1 hl; exact fullPage_length p) (by rw [List.length_map, hlen])
  generalize putPages (c.spare.take contents.length) (contents.map fullPage) s = u at heq hframe hreads
  rw [kvAddr_congr (hframe.only.2 .regs (by decide)).1] at heq
  obtain ⟨hmoves, -, -⟩ := wrMarked_completes (hframe.canon hs) (s.kvAddr c.listFirst) (markList ms (ctxList u a 0x4B56 0 es))
  have hlistlen : (markList ms (ctxList u a 0x4B56 0 es)).length ≤ 4096 * c.listPages := by
    rw [markList, marked_length, ctxList, kvListBytes_length, hes]
    exact (listPagesOf_spec _).trans (Nat.mul_le_mul_left _ hlist)
  rw [heq]
  generalize wrMarked (s.kvAddr c.listFirst) (markList ms (ctxList u a 0x4B56 0 es)) u = v at hmoves
  refine ⟨fun i hi => ?_, ctx_putCtx rfl rfl _⟩
  · have hpage : nthD 0 c.spare i ∈ c.spare := by
      rw [nthD_eq_getElem 0 _ _ (by omega)]
      exact List.getElem_mem _
    have hout : ¬(c.listFirst ≤ nthD 0 c.spare i ∧ nthD 0 c.spare i < c.listFirst + c.listPages) := fun hin =>
      hdisjoint _ (pageRun_mem.2 hin) _ hpage rfl
    have hi' := hreads i (by rw [List.length_map]; exact hi)
    rw [nthD_take 0 hi hfit, nthD_map [] [] fullPage hi] at hi'
    rw [← hi', ← hmoves.rdMem_eq (b := s.kvAddr (nthD 0 c.spare i)) (k := 4096) (by unfold State.kvAddr; omega)]
    rfl

end Pages

/-! ### Parts of a transfer (R253) -/

/-- A LIST message, not yet whole or in order. -/
theorem completes_kvShipList {m : Loose} {c : Ctx} {s : State} (hactive : s.weaveActive = true) (hkind : kvKind m = 1)
    (hctx : s.ctx (kvOwner m) (kvReq m) = some c) (hexpect : c.expect = some (kvXfer m))
    (hplace : m.addr.toNat = c.listIn.length)
    (hcrc : (if (kvData m).isEmpty then 0 else (crc32c (kvData m)).toNat) = leAt m.payload 12 4)
    (hlist : 64 ≤ (c.listIn ++ kvData m).length → 64 + 8 * leAt (c.listIn ++ kvData m) 10 2 ≤ (c.listIn ++ kvData m).length →
      listOk s { c with listIn := c.listIn ++ kvData m, listBad := c.listBad ++ kvBad m, coded := kvCoded m } = true) :
    Completes (.kvShipList m) s (fun t =>
      t.ctx (kvOwner m) (kvReq m) =
        some { c with listIn := c.listIn ++ kvData m, listBad := c.listBad ++ kvBad m, coded := kvCoded m } ∧
      Only [.serve] s t) := by
  obtain ⟨d, hd⟩ : ∃ d, d = { c with listIn := c.listIn ++ kvData m, listBad := c.listBad ++ kvBad m, coded := kvCoded m } :=
    ⟨_, rfl⟩
  have hexec : exec (.kvShipList m) s = .next (putCtx d s) := by
    refine congrArg Host.Outcome.next ?_
    rw [kvShipList, onShip_expected hactive hkind hctx hexpect hplace hcrc]
    dsimp only
    refine (if_neg ?_).trans (by rw [hd])
    simp only [Bool.and_eq_true, decide_eq_true_eq, Bool.not_eq_true', not_and, Bool.not_eq_false, and_imp]
    exact hlist
  rw [← hd]
  exact completes_of_next hexec ⟨ctx_putCtx_of hctx (by rw [hd]) (by rw [hd]) s, putCtx_frame d s⟩

/-- A PAGES message whose blocks pass. -/
theorem completes_kvShipPages {m : Loose} {c d : Ctx} {s : State} (hactive : s.weaveActive = true) (hkind : kvKind m = 2)
    (hctx : s.ctx (kvOwner m) (kvReq m) = some c) (hexpect : c.expect = some (kvXfer m))
    (hplace : m.addr.toNat = c.pagesIn.length)
    (hcrc : (if (kvData m).isEmpty then 0 else (crc32c (kvData m)).toNat) = leAt m.payload 12 4)
    (hd : d = { c with pagesIn := c.pagesIn ++ kvData m, pagesBad := c.pagesBad ++ kvBad m, coded := kvCoded m })
    (hlist : listOk s d = true) (hblocks : (inPages d).1 = 0) (hpages : pagesOk d (inPages d).2 = true) :
    Completes (.kvShipPages m) s (fun t => t.ctx (kvOwner m) (kvReq m) = some d ∧ Only [.serve] s t) := by
  have hexec : exec (.kvShipPages m) s = .next (putCtx d s) := by
    refine congrArg Host.Outcome.next ?_
    rw [kvShipPages, onShip_expected hactive hkind hctx hexpect hplace hcrc]
    dsimp only
    rw [← hd, hlist, hpages, hblocks]
    simp
  exact completes_of_next hexec ⟨ctx_putCtx_of hctx (by rw [hd]) (by rw [hd]) s, putCtx_frame d s⟩

/-! ### The end of a transfer (R253, R254) -/

/-- The context that a received cache is placed into. -/
def Ctx.received (c : Ctx) : Ctx :=
  { c with spare := c.pages ++ c.spare, pages := [], expect := none, listIn := [], listBad := [], pagesIn := [],
           pagesBad := [], started := false, stopped := false,
           genLen := if leAt c.listIn 0 2 = 0x504B then leAt c.listIn 16 2 else c.genLen }

theorem placeCache_eq (c : Ctx) (ps : List Marked) (s : State) :
    placeCache c ps s = writeKv c.received (leAt c.listIn 8 2) 0 ps s := rfl

/-- Pieces of a string that holds them whole. -/
theorem pieces_whole {α : Type} (n : Nat) (hn : 0 < n) : ∀ (f : Nat) (l : List α), n * f ≤ l.length →
    (pieces n f l).length = f ∧ ∀ p ∈ pieces n f l, p.length = n := by
  intro f
  induction f with
  | zero => exact fun l _ => ⟨rfl, fun p hp => absurd hp (by simp [pieces])⟩
  | succ f ih =>
    intro l hl
    have hlen : n + n * f ≤ l.length := by rw [Nat.mul_succ] at hl; omega
    have hne : l.isEmpty = false := by
      rw [List.isEmpty_eq_false_iff]
      rintro rfl
      simp only [List.length_nil] at hlen
      omega
    obtain ⟨hcount, hsize⟩ := ih (l.drop n) (by rw [List.length_drop]; omega)
    rw [pieces, hne, if_neg Bool.false_ne_true]
    refine ⟨by rw [List.length_cons, hcount], fun p hp => ?_⟩
    rcases List.mem_cons.1 hp with rfl | hp
    · rw [List.length_take]; omega
    · exact hsize p hp

theorem inMarked_whole (c : Ctx) : ∀ p ∈ inMarked c, p.length = 4096 :=
  (pieces_whole 4096 (by decide) _ _ (by omega)).2

theorem inPages_bytes (c : Ctx) : (inPages c).2 = (inMarked c).map bytesOf := rfl

theorem fullPage_whole {p : Marked} (h : p.length = 4096) : fullPage p = p := by
  rw [fullPage, h, List.take_of_length_le (by omega)]
  simp [clean]

/-- The end of a transfer that arrived in order: the cache stands in the reserved pages, ACK and the ARRIVED report leave. -/
theorem completes_kvShipEnd {m : Loose} {c : Ctx} {s : State} (hs : Canon s) (hactive : s.weaveActive = true)
    (hkind : kvKind m = 3) (hctx : s.ctx (kvOwner m) (kvReq m) = some c) (hexpect : c.expect = some (kvXfer m))
    (hplace : m.addr = 0) (hcrc : (if (kvData m).isEmpty then 0 else (crc32c (kvData m)).toNat) = leAt m.payload 12 4)
    (hlist : listOk s c = true) (hpages : pagesOk c (inPages c).2 = true) (hblocks : (inPages c).1 = 0)
    (htotal : leAt m.payload 8 4 = c.pagesIn.length) (hcount : (inPages c).2.length = leAt c.listIn 10 2)
    (hseal : c.sealTo = none) (hnodup : c.kvPages.Nodup) (hroom : listPagesOf (leAt c.listIn 10 2) ≤ c.listPages)
    (hroute : s.route (m.src.setWidth 6) ≠ 5) (hship : shipVerdict s (kvCoded m) ((c.pages ++ c.spare).map s.kvAddr) = 0) :
    Completes (.kvShipEnd m) s (fun t =>
      (∀ i < leAt c.listIn 10 2, t.rdMem (s.kvAddr (nthD 0 (c.pages ++ c.spare) i)) 4096 = nthD [] (inPages c).2 i) ∧
      ((t.ctx (kvOwner m) (kvReq m)).map (fun d => (d.held, d.pages, d.expect))) =
        some (leAt c.listIn 8 2, (c.pages ++ c.spare).take (leAt c.listIn 10 2), none) ∧
      (∃ u, Sent (s.mkLoose 6 (m.src.setWidth 6) 0 0
          (kvHead c.req.toNat 4 c.owner.toNat false (kvXfer m) 0 [])) s u ∧
        Reported c.owner (reportWord s c.req.toNat 0 16 0 0 0) u t) ∧
      Only [.regs, .out, .basket, .mem, .poison, .serve] s t) := by
  have hsent : Sent (s.mkLoose 6 (m.src.setWidth 6) 0 0 (kvHead c.req.toNat 4 c.owner.toNat false (kvXfer m) 0 [])) s
      (kvNote c 4 (m.src.setWidth 6) false (kvXfer m) 0 s) :=
    (sent_sendLoose (by simpa [State.mkLoose] using hroute)).1
  have hnote := kvNote_only c 4 (m.src.setWidth 6) false (kvXfer m) 0 s (.refl [.regs, .out, .basket] s) (by simp)
  have hexec : exec (.kvShipEnd m) s = .next (sendReport c.owner
      (reportWord (placeCache c (inMarked c) (kvNote c 4 (m.src.setWidth 6) false (kvXfer m) 0 s)) c.req.toNat 0 16 0 0 0)
      (placeCache c (inMarked c) (kvNote c 4 (m.src.setWidth 6) false (kvXfer m) 0 s))) := by
    refine congrArg Host.Outcome.next ?_
    rw [kvShipEnd, onShip_expected hactive hkind hctx hexpect (by rw [hplace]; rfl) hcrc]
    dsimp only
    rw [hlist, hpages, hblocks, hship, htotal, hcount, hseal]
    simp
  have hregs : RegMoves [Reg.withyErr] s (kvNote c 4 (m.src.setWidth 6) false (kvXfer m) 0 s) :=
    (RegMoves.refl _ hs.regs).sendLoose _ (by simp)
  generalize kvNote c 4 (m.src.setWidth 6) false (kvXfer m) 0 s = u at hsent hnote hexec hregs
  have haddr (p : Nat) : u.kvAddr p = s.kvAddr p := by
    rw [State.kvAddr, State.kvBase, pair_congr (hregs.only _ (by decide)) (hregs.only _ (by decide)), State.kvAddr, State.kvBase]
  have hpower : u.power = s.power := hnote.only.2 .power (by decide)
  have hcount' : (inMarked c).length = leAt c.listIn 10 2 := by rw [← hcount, inPages_bytes, List.length_map]
  have hfit : leAt c.listIn 10 2 ≤ (c.pages ++ c.spare).length := by
    simp only [listOk, hseal, Option.isSome_none, Bool.false_or, Bool.and_eq_true, decide_eq_true_eq] at hlist
    rw [List.length_append]
    exact hlist.1.2
  have hreserved : (pageRun c.listFirst c.listPages ++ (c.pages ++ c.spare)).Nodup := by
    rw [← List.append_assoc]
    exact hnodup
  obtain ⟨hreads, hput⟩ := writeKv_fresh (c := c.received) (held := leAt c.listIn 8 2) (hnote.canon hs) rfl
    (by rw [hcount']; exact hfit) hreserved (by rw [hcount']; exact hroom)
  have hframe := placeCache_only c (inMarked c) u (.refl [.mem, .poison, .serve] u) (by simp)
  have hall := hnote.only.mono (ps := [.regs, .out, .basket, .mem, .poison, .serve]) (by simp) |>.trans
    ((hframe.only.mono (by simp)).trans ((sendReport_frame c.owner
      (reportWord (placeCache c (inMarked c) u) c.req.toNat 0 16 0 0 0) (placeCache c (inMarked c) u)).only.mono (by simp)))
  rw [← placeCache_eq] at hreads hput
  generalize placeCache c (inMarked c) u = v at hexec hframe hreads hput hall
  have hmem := (sendReport_frame c.owner (reportWord v c.req.toNat 0 16 0 0 0) v).only.2 .mem (by decide)
  have hserve := (sendReport_frame c.owner (reportWord v c.req.toNat 0 16 0 0 0) v).only.2 .serve (by decide)
  have hword : reportWord v c.req.toNat 0 16 0 0 0 = reportWord s c.req.toNat 0 16 0 0 0 :=
    reportWord_congr ((hframe.only.2 .power (by decide)).trans hpower) ..
  refine completes_of_next hexec ⟨fun i hi => ?_, ?_, ⟨u, hsent, ?_⟩, hall⟩
  · have hi' : i < (inMarked c).length := by rw [hcount']; exact hi
    have hpage : nthD [] (inMarked c) i ∈ inMarked c := by
      rw [nthD_eq_getElem [] _ _ hi']
      exact List.getElem_mem _
    have hread := hreads i hi'
    rw [haddr, fullPage_whole (inMarked_whole c _ hpage)] at hread
    rw [inPages_bytes, nthD_map [] [] bytesOf hi', State.rdMem, hmem]
    exact hread
  · rw [ctx_congr hserve, ← ctx_owner hctx, ← ctx_req hctx]
    have hput' : v.ctx c.owner c.req.toNat = _ := hput
    rw [hput', hcount']
    rfl
  · rw [hword]
    exact reported_sendReport _ _ (hframe.only.2 .out (by decide)) (hframe.only.2 .basket (by decide))
      (hframe.only.2 .weave (by decide)) (hframe.only.2 .power (by decide))

/-! ### ACK and NAK (R253, R254) -/

/-- An ACK for pages that were sent: the context goes, and the SENT report leaves. -/
theorem completes_kvShipAck {m : Loose} {c : Ctx} {s : State} (hkind : kvKind m = 4)
    (hctx : s.ctx (kvOwner m) (kvReq m) = some c) (hsent : c.sent = some (kvXfer m, false)) (hcopy : c.copy = none) :
    Completes (.kvShipAck m) s (fun t =>
      t.ctx (kvOwner m) (kvReq m) = none ∧
      Reported c.owner (reportWord s c.req.toNat 0 32 0 0 0) s t ∧ Only [.out, .basket, .serve] s t) := by
  have hexec : exec (.kvShipAck m) s = .next (dropCtx c.owner c.req.toNat
      (sendReport c.owner (reportWord s c.req.toNat 0 32 0 0 0) s)) := by
    simp [exec, execKvShipAck, kvShipAck, hkind, hctx, hsent, hcopy]
  obtain ⟨hout, hbasket⟩ := reported_sendReport (s := s) (t := s) c.owner (reportWord s c.req.toNat 0 32 0 0 0) rfl rfl rfl rfl
  have hframe := sendReport_frame c.owner (reportWord s c.req.toNat 0 32 0 0 0) s
  refine completes_of_next hexec ⟨?_, ⟨hout, hbasket⟩,
    (hframe.only.mono (by simp)).trans ((dropCtx_frame _ _ _).mono (by simp))⟩
  rw [← ctx_owner hctx, ← ctx_req hctx]
  exact ctx_dropCtx _ _ _

/-- An ACK for a park copy that KEEP holds. -/
theorem exec_kvShipAck_kept {m : Loose} {c : Ctx} {s : State} (hkind : kvKind m = 4)
    (hctx : s.ctx (kvOwner m) (kvReq m) = some c) (hsent : c.sent = some (kvXfer m, true))
    (hkeep : s.flag Reg.serveParkCfg 9 = true) (hseal : c.sealTo = none) :
    exec (.kvShipAck m) s = .next (putCtx { c with sent := none } s) := by
  simp [exec, execKvShipAck, kvShipAck, hkind, hctx, hsent, hkeep, hseal]

/-- A NAK gives its code to the issuer. -/
theorem exec_kvShipNak {m : Loose} {c : Ctx} {b : Bool} {s : State} (hkind : kvKind m = 5)
    (hctx : s.ctx (kvOwner m) (kvReq m) = some c) (hsent : c.sent = some (kvXfer m, b)) :
    exec (.kvShipNak m) s = .next { s with out := s.out ++ [.issuerCode (BitVec.ofNat 16 (leAt m.payload 8 2))] } := by
  simp [exec, execKvShipNak, kvShipNak, hkind, hctx, hsent, State.emit]

/-! ### Parking (R255 to R257) -/

/-- The pages of a park copy hold those of the cache. -/
def copyPagesTo (p : ParkCopy) (c : Ctx) (s : State) : State :=
  (List.zip p.pages c.pages).foldl (fun s x => wrMarked (s.parkBase + 4096 * x.1) (s.rdMarked (s.kvAddr x.2) 4096) s) s

theorem copyPagesTo_frame (p : ParkCopy) (c : Ctx) (s : State) : Moves [.mem, .poison] s (copyPagesTo p c s) :=
  Moves.foldl (fun u _ => wrMarked_frame _ _ u) (.refl ..)

/-- The first bytes of a range. -/
theorem rdMem_take (s : State) (a : Nat) {n k : Nat} (h : n ≤ k) : s.rdMem a n = (s.rdMem a k).take n := by
  obtain ⟨j, rfl⟩ := Nat.exists_eq_add_of_le h
  rw [rdMem_add, State.rdMem, List.take_append_of_le_length (by rw [smGetAll_length]), List.take_of_length_le (by rw [smGetAll_length])]

theorem kvListBytes_magic (magic l code req owner tokens parcel genLen : Nat) (es : List Nat) :
    (kvListBytes magic l code req owner tokens parcel genLen es).take 2 = leBytes 2 magic := by
  simp only [kvListBytes, List.append_assoc]
  rw [List.take_append_of_le_length (by rw [leBytes_length]), List.take_of_length_le (by rw [leBytes_length])]

/-- A copy that is complete: its list stands in the park pool, the KV pages are free, and PARKED is reported. -/
theorem completes_parkCopyDone {o : BitVec 6} {k : BitVec 12} {c : Ctx} {p : ParkCopy} {s : State} (hs : Canon s)
    (hactive : s.weaveActive = true) (hctx : s.ctx o k.toNat = some c) (hmaking : c.making = some p)
    (hsound : kvSound s c = true) :
    Completes (.parkCopyDone o k) s (fun t =>
      t.ctx o k.toNat = some { c.freed with making := none, copy := some p, stopped := false } ∧
      leAt (t.rdMem (s.parkBase + 4096 * p.first) 2) 0 2 = 0x504B ∧
      Reported o (reportWord s k.toNat 0 32 0 0 0) s t ∧ Only [.out, .basket, .mem, .poison, .serve] s t) := by
  have hframe := copyPagesTo_frame p c s
  obtain ⟨ms, es, hexec⟩ : ∃ ms es, exec (.parkCopyDone o k) s = .next
      (let u := wrMarked ((copyPagesTo p c s).parkBase + 4096 * p.first)
          (markList ms (ctxList (copyPagesTo p c s) c 0x504B p.genLen es)) (copyPagesTo p c s)
       let v := putCtx { c.freed with making := none, copy := some p, stopped := false } u
       sendReport o (reportWord v k.toNat 0 32 0 0 0) v) := by
    simp only [exec, execParkCopyDone, parkCopyDone, hactive, hctx, hmaking, hsound, Bool.not_true, Bool.false_eq_true,
      if_false, copyPagesTo]
    exact ⟨_, _, rfl⟩
  have hbase : (copyPagesTo p c s).parkBase = s.parkBase := by
    have hregs := (hframe.only.2 .regs (by decide)).1
    rw [State.parkBase, pair_congr (reg_eq_of_regs_eq hregs _) (reg_eq_of_regs_eq hregs _), State.parkBase]
  have hcanon := hframe.canon hs
  generalize copyPagesTo p c s = u at hframe hexec hbase hcanon
  obtain ⟨-, hreads, -⟩ := wrMarked_completes hcanon (s.parkBase + 4096 * p.first) (markList ms (ctxList u c 0x504B p.genLen es))
  have hmark := wrMarked_frame (s.parkBase + 4096 * p.first) (markList ms (ctxList u c 0x504B p.genLen es)) u
  have hlen : 2 ≤ (markList ms (ctxList u c 0x504B p.genLen es)).length := by
    rw [markList, marked_length, ctxList, kvListBytes_length]
    omega
  have hbytes : bytesOf (markList ms (ctxList u c 0x504B p.genLen es)) = ctxList u c 0x504B p.genLen es := by
    rw [markList, bytesOf_marked]
  rw [hbase] at hexec
  dsimp only at hexec
  have hmagic : (wrMarked (s.parkBase + 4096 * p.first) (markList ms (ctxList u c 0x504B p.genLen es)) u).rdMem
      (s.parkBase + 4096 * p.first) 2 = leBytes 2 0x504B := by
    rw [rdMem_take _ _ hlen, hreads, hbytes, ctxList, kvListBytes_magic]
  generalize wrMarked (s.parkBase + 4096 * p.first) (markList ms (ctxList u c 0x504B p.genLen es)) u = v at hexec hmark hmagic
  have hput := putCtx_frame { c.freed with making := none, copy := some p, stopped := false } v
  have hctx' : (putCtx { c.freed with making := none, copy := some p, stopped := false } v).ctx o k.toNat =
    some { c.freed with making := none, copy := some p, stopped := false } :=
    ctx_putCtx_of (d := { c.freed with making := none, copy := some p, stopped := false }) hctx rfl rfl v
  generalize putCtx { c.freed with making := none, copy := some p, stopped := false } v = w at hexec hput hctx'
  have honly : Only [.mem, .poison, .serve] s w :=
    (hframe.only.mono (by simp)).trans ((hmark.only.mono (by simp)).trans (hput.mono (by simp)))
  rw [reportWord_congr (s := s) (honly.2 .power (by decide))] at hexec
  have hreport := sendReport_frame o (reportWord s k.toNat 0 32 0 0 0) w
  have hmem : (sendReport o (reportWord s k.toNat 0 32 0 0 0) w).mem = v.mem :=
    (hreport.only.2 .mem (by decide)).trans (hput.2 .mem (by decide))
  refine completes_of_next hexec ⟨?_, ?_, reported_sendReport _ _ (honly.2 .out (by decide)) (honly.2 .basket (by decide))
    (honly.2 .weave (by decide)) (honly.2 .power (by decide)), (honly.mono (by simp)).trans (hreport.only.mono (by simp))⟩
  · rw [ctx_congr (hreport.only.2 .serve (by decide)), hctx']
  · rw [State.rdMem, hmem, ← State.rdMem, hmagic]
    decide

/-- A value other than the default reads back from any map. -/
theorem smGet_smSet_value {α : Type} [DecidableEq α] {d v : α} (hv : v ≠ d) (m : SMap α) (k : Nat) :
    smGet d (smSet d m k v) k = v := by
  induction m with
  | nil => simp [smSet, hv, smGet]
  | cons p m ih =>
    obtain ⟨j, w⟩ := p
    simp only [smSet]
    simp only [hv, if_false]
    split
    · simp [smGet]
    · split
      · simp [smGet]
      · next hlt hne => simp [smGet, hlt, hne, ih]

/-- On an anchor on PCIe a write of host memory leaves at once (R67, R68). -/
theorem hostPut_anchor {s : State} (hanchor : s.anchor = true) (hbme : s.host.bme = true) (addr : BitVec 64)
    (bytes : List Byte) : hostPut addr bytes s = s.emit (.hostWrite addr bytes) := by
  rw [hostPut, hanchor, hbme]
  rfl

/-- A context sealed into a host slot: its bytes, then its commit word (R257). -/
theorem sealSlot_anchor {s : State} (hanchor : s.anchor = true) (hbme : s.host.bme = true) (k req : Nat) (plain : List Byte) :
    (∃ x, (sealSlot k req plain s).out = s.out ++ [.hostWrite (BitVec.ofNat 64 (s.slotAddr k + 8)) x,
      .hostWrite (BitVec.ofNat 64 (s.slotAddr k)) (leBytes 8 (slotCommit req x))]) ∧
    smGet none (sealSlot k req plain s).serve.hostSlots k = some (BitVec.ofNat 12 req) ∧
    Only [.out, .serve] s (sealSlot k req plain s) := by
  have hsecond (o : Out) (addr : BitVec 64) (bytes : List Byte) :
      hostPut addr bytes (s.emit o) = (s.emit o).emit (.hostWrite addr bytes) :=
    hostPut_anchor (s := s.emit o) hanchor hbme addr bytes
  unfold sealSlot
  simp only [hostPut_anchor hanchor hbme, hsecond]
  exact ⟨⟨_, List.append_assoc ..⟩, smGet_smSet_value (by simp) _ _, only_iff.2 (by simp)⟩

/-- The context of the store tier that expires first moves to a free host slot (R257). -/
theorem completes_hostParkMove {n k : Nat} {p : Parked} {c : Ctx} {q : ParkCopy} {s : State} (hanchor : s.anchor = true)
    (hbme : s.host.bme = true) (hactive : s.weaveActive = true) (henabled : s.flag Reg.serveParkCfg 8 = true)
    (hlow : s.parkFree.length < s.fld Reg.serveParkLow 16 16) (hnext : nextToMove s s.pkg = some (k, p))
    (hverdict : hostMoveVerdict s (64 + 4104 * p.pages) = 0) (hctx : s.ctx s.pkg k = some c) (hcopy : c.copy = some q)
    (hclean : anyBad (copyBytes s q) = false) (hpages : c.kvPages = []) :
    Completes (.hostParkMove s.pkg n) s (fun t =>
      t.ctx s.pkg k = none ∧ smGet none t.serve.hostSlots s.pickSlot = some (BitVec.ofNat 12 k) ∧
      SlotWritten (s.slotAddr s.pickSlot) k s t ∧
      Only [.out, .freeCtr, .serve] s t) := by
  obtain ⟨u, hu⟩ : ∃ u : State, u = { s with freeCtr := s.freeCtr + 1 } := ⟨_, rfl⟩
  have hexec : exec (.hostParkMove s.pkg n) s = .next (dropCtx s.pkg k (inHostSlot k s.pickSlot
      (sealSlot s.pickSlot k (bytesOf (copyBytes u q)) u))) := by
    have hmove : moveToHost s.pkg s = (dropCtx s.pkg k (inHostSlot k s.pickSlot
        (sealSlot s.pickSlot k (bytesOf (copyBytes u q)) u)), true) := by
      have hctx' : u.ctx s.pkg k = some c := by rw [hu]; exact hctx
      have hclean' : anyBad (copyBytes u q) = false := by rw [hu]; exact hclean
      have hpkg : u.pkg = s.pkg := by rw [hu]; rfl
      simp only [moveToHost, hnext, hverdict, ← hu, ne_eq, not_true_eq_false, if_false, if_true, hpkg, hctx', hcopy, hclean',
        hpages, Bool.false_eq_true, List.isEmpty_nil]
      have hframe := inHostSlot_only k s.pickSlot _ (sealSlot_only s.pickSlot k (bytesOf (copyBytes u q)) u
        (.refl [.regs, .out, .basket, .serve] u) (by simp)) (by simp)
      rw [State.pkg, hframe.only.2 .power (by decide), ← State.pkg, hpkg]
    simp [exec, execHostParkMove, hactive, henabled, hlow, hmove]
  obtain ⟨⟨x, hout⟩, hslot, hframe⟩ := sealSlot_anchor (s := u) (by rw [hu]; exact hanchor) (by rw [hu]; exact hbme)
    s.pickSlot k (bytesOf (copyBytes u q))
  generalize sealSlot s.pickSlot k (bytesOf (copyBytes u q)) u = v at hexec hout hslot hframe
  have hstart : Only [.freeCtr] s u := hu ▸ only_iff.2 (by simp)
  have hin := inHostSlot_only k s.pickSlot v (.refl [.serve] v) (by simp)
  have hslots : (inHostSlot k s.pickSlot v).serve.hostSlots = v.serve.hostSlots := by
    unfold inHostSlot
    dsimp only
    split <;> rfl
  refine completes_of_next hexec ⟨ctx_dropCtx _ _ _, ?_, ⟨x, ?_⟩, ?_⟩
  · exact (congrArg (smGet none · s.pickSlot) hslots).trans hslot
  · refine (hin.only.2 .out (by decide)).trans (hout.trans ?_)
    rw [hu]
    rfl
  · exact (hstart.mono (by simp)).trans ((hframe.mono (by simp)).trans ((hin.only.mono (by simp)).trans
      ((dropCtx_frame ..).mono (by simp))))

/-! ### The obligation -/

/-- Settles O27: each clause is the lemma on its command. A received cache takes distinct pages outside its list, so that
each reads back whole; a list's magic stands because the list is written last. -/
theorem transferCommandsComplete : Obligations.TransferCommandsComplete := by
  unfold Obligations.TransferCommandsComplete
  exact ⟨fun _ _ _ hactive hkind hctx hexpect hplace hcrc hlist =>
      completes_kvShipList hactive hkind hctx hexpect hplace hcrc hlist,
    fun _ _ _ _ hactive hkind hctx hexpect hplace hcrc hd hlist hblocks hpages =>
      completes_kvShipPages hactive hkind hctx hexpect hplace hcrc hd hlist hblocks hpages,
    fun _ _ _ hs hactive hkind hctx hexpect hplace hcrc hlist hpages hblocks htotal hcount hseal hnodup hroom hroute hship =>
      completes_kvShipEnd hs hactive hkind hctx hexpect hplace hcrc hlist hpages hblocks htotal hcount hseal hnodup hroom
        hroute hship,
    fun _ _ _ hkind hctx hsent hcopy => completes_kvShipAck hkind hctx hsent hcopy,
    fun _ _ _ hkind hctx hsent hkeep hseal => exec_kvShipAck_kept hkind hctx hsent hkeep hseal,
    fun _ _ _ _ hkind hctx hsent => exec_kvShipNak hkind hctx hsent,
    fun _ _ _ _ _ hs hactive hctx hmaking hsound => completes_parkCopyDone hs hactive hctx hmaking hsound,
    fun _ _ _ _ _ _ hanchor hbme hactive henabled hlow hnext hverdict hctx hcopy hclean hpages =>
      completes_hostParkMove hanchor hbme hactive henabled hlow hnext hverdict hctx hcopy hclean hpages⟩

end Sys2Proof.Machine
end

section
/-!
PROOFS. StepOrders.lean: the pages that an order takes, the orders of a step (R246 to R248, R252, R255 to R257, R260, R265),
and what a step boundary empties (R233, R245).
-/

namespace Sys2Proof.Machine

/-! ### Allocation (R249) -/

theorem nthD_mem {l : List Nat} {i : Nat} (h : i < l.length) : nthD 0 l i ∈ l := by
  rw [nthD_eq_getElem 0 l i h]
  exact List.getElem_mem h

/-- A run of one page is one of the free pages. -/
theorem allocRun_one (ctr : Nat) {free : List Nat} (h : 0 < free.length) :
    ∃ p ∈ free, allocRun ctr 1 free = some (p, free.filter (fun q => decide (q < p ∨ p + 1 ≤ q))) := by
  have hstarts : free.filter (fun p => (List.range 1).all (fun i => free.contains (p + i))) = free := by
    rw [List.filter_eq_self]
    intro p hp
    simpa using hp
  have hne : free.isEmpty = false := by
    rw [List.isEmpty_eq_false_iff]
    exact List.ne_nil_of_length_pos h
  refine ⟨nthD 0 free (Config.pagePick ctr 1 % free.length), nthD_mem (Nat.mod_lt _ h), ?_⟩
  rw [allocRun, hstarts]
  dsimp only
  rw [hne, if_neg Bool.false_ne_true]

theorem length_filter_ne {l : List Nat} (hnodup : l.Nodup) {p : Nat} (hp : p ∈ l) :
    (l.filter (· != p)).length + 1 = l.length := by
  rw [← List.Nodup.erase_eq_filter hnodup, List.length_erase_of_mem hp]
  have := List.length_pos_of_mem hp
  omega

/-- Enough free pages give as many distinct ones. -/
theorem allocPages_some (ctr n : Nat) : ∀ {free : List Nat}, free.Nodup → n ≤ free.length →
    ∃ ps rest, allocPages ctr n free = some (ps, rest) ∧ ps.length = n ∧ ps.Nodup ∧ ∀ p ∈ ps, p ∈ free := by
  induction n with
  | zero => exact fun _ _ => ⟨[], _, rfl, rfl, List.nodup_nil, fun p hp => absurd hp List.not_mem_nil⟩
  | succ n ih =>
    intro free hnodup hroom
    obtain ⟨p, hp⟩ : ∃ p, p = nthD 0 free (Config.pagePick ctr n % free.length) := ⟨_, rfl⟩
    have hmem : p ∈ free := hp ▸ nthD_mem (Nat.mod_lt _ (by omega))
    have hlen := length_filter_ne hnodup hmem
    obtain ⟨ps, rest, hrest, hcount, hdistinct, hfree⟩ := ih (hnodup.filter (· != p)) (by omega)
    have hne : free.isEmpty = false := by
      rw [List.isEmpty_eq_false_iff]
      rintro rfl
      simp at hroom
    refine ⟨p :: ps, rest, ?_, by rw [List.length_cons, hcount], List.nodup_cons.2 ⟨fun hin => ?_, hdistinct⟩, fun q hq => ?_⟩
    · rw [allocPages, hne, if_neg Bool.false_ne_true]
      dsimp only
      rw [← hp, hrest, Option.map_some]
    · simpa using (List.mem_filter.1 (hfree p hin)).2
    · rcases List.mem_cons.1 hq with rfl | hq
      · exact hmem
      · exact (List.mem_filter.1 (hfree q hq)).1

theorem freeOf_nodup (size : Nat) (used : List Nat) : (freeOf size used).Nodup := List.nodup_range.filter _

/-- A list of one page and the pages that it names, from the free ones. -/
theorem alloc_both (ctr n : Nat) {free : List Nat} (hnodup : free.Nodup) (hroom : n + 1 ≤ free.length) :
    ∃ p ps rest rest', allocRun ctr 1 free = some (p, rest) ∧ allocPages ctr n rest = some (ps, rest') ∧ p ∈ free ∧
      ps.length = n ∧ (p :: ps).Nodup ∧ ∀ q ∈ ps, q ∈ free := by
  obtain ⟨p, hp, hrun⟩ := allocRun_one ctr (by omega : 0 < free.length)
  have hother : free.filter (fun q => decide (q < p ∨ p + 1 ≤ q)) = free.filter (· != p) := by
    refine List.filter_congr fun q _ => ?_
    rw [Bool.eq_iff_iff]
    simp only [decide_eq_true_eq, bne_iff_ne, ne_eq]
    omega
  have hlen := length_filter_ne hnodup hp
  obtain ⟨ps, rest', halloc, hcount, hdistinct, hfree⟩ := allocPages_some ctr n (hnodup.filter (· != p)) (by omega)
  refine ⟨p, ps, _, rest', hrun, by rw [hother]; exact halloc, hp, hcount,
    List.nodup_cons.2 ⟨fun hin => ?_, hdistinct⟩, fun q hq => (List.mem_filter.1 (hfree q hq)).1⟩
  simpa using (List.mem_filter.1 (hfree p hin)).2

/-- A new context reserves its list and its pages. -/
theorem reserve_new {c : Ctx} {s : State} {tokens : Nat} (hpages : c.pages = []) (hspare : c.spare = [])
    (hnolist : c.listPages = 0) (hone : listPagesOf (s.kvData tokens) = 1) (hroom : s.kvNeed tokens ≤ s.kvFree.length) :
    ∃ p ps, reserve tokens c s = some (putCtx { c with listFirst := p, listPages := 1, spare := ps }
        { s with freeCtr := s.freeCtr + 1 }) ∧ ps.length = s.kvData tokens ∧ (p :: ps).Nodup := by
  rw [State.kvNeed, hone] at hroom
  obtain ⟨p, ps, rest, rest', hrun, halloc, -, hcount, hdistinct, -⟩ :=
    alloc_both s.freeCtr (s.kvData tokens) (freeOf_nodup s.kvSize _) hroom
  refine ⟨p, ps, ?_, hcount, hdistinct⟩
  have hrun' : allocRun s.freeCtr 1 s.kvFree = some (p, rest) := hrun
  simp [reserve, hpages, hspare, hnolist, hone, hrun', halloc]

/-! ### What an order does first -/

/-- An order with an intact CRC and its own kind acts while the weave runs (R246). -/
theorem onOrder_acts {kind : Nat} {w : LinkWord} {k : State → State} {s : State} (hactive : s.weaveActive = true)
    (hok : wordOk w = true) (hkind : wKind w = kind) : onOrder kind w k s = k s := by
  simp [onOrder, hactive, hok, hkind]

/-- A report word joins the reports of the step (R247). -/
theorem exec_placeReport {w : LinkWord} {ok : Bool} {l : BitVec 48} {s : State} (hactive : s.weaveActive = true)
    (hok : wordOk w = true) :
    exec (.placeReport w ok l) s =
      .next { s with serve := { s.serve with reports := s.serve.reports ++ [(w, ok, l)] } } := by
  simp [exec, execPlaceReport, placeReport, hactive, hok]

/-! ### Adapters (R242) -/

theorem adaptEntries_cores {s t : State} (h : t.cores = s.cores) (u : AdapterPass) (p : AdapterPart) (bad : Bool) :
    (adaptEntries u p bad t).cores = (adaptEntries u p bad s).cores := by
  simp only [adaptEntries, State.arr, State.setArray, State.core, State.setCore, h]

/-- Two states give an adapter the same to work on. -/
structure AdaptAlike (s t : State) : Prop where
  mem : t.mem = s.mem
  poison : t.poison = s.poison
  regs : t.regs = s.regs
  weave : t.weave = s.weave
  cores : t.cores = s.cores

theorem AdaptAlike.adaptOne {s t : State} (h : AdaptAlike s t) (a : AdapterRun) (u : AdapterPass) :
    AdaptAlike (Machine.adaptOne a s u) (Machine.adaptOne a t u) := by
  have hs := (adaptOne_only a s u (.refl [.cores] s) (by simp)).only
  have ht := (adaptOne_only a t u (.refl [.cores] t) (by simp)).only
  have hmarked (x n : Nat) : t.rdMarked x n = s.rdMarked x n := by
    rw [State.rdMarked, State.rdMem, h.mem, h.poison, ← State.rdMem, ← State.rdMarked]
  have hbase : t.adpBase = s.adpBase := by
    rw [State.adpBase, pair_congr (reg_eq_of_regs_eq h.regs _) (reg_eq_of_regs_eq h.regs _), State.adpBase]
  refine ⟨(ht.2 .mem (by decide)).trans (h.mem.trans (hs.2 .mem (by decide)).symm),
    (ht.2 .poison (by decide)).trans (h.poison.trans (hs.2 .poison (by decide)).symm),
    (ht.2 .regs (by decide)).1.trans (h.regs.trans (hs.2 .regs (by decide)).1.symm),
    (ht.2 .weave (by decide)).trans (h.weave.trans (hs.2 .weave (by decide)).symm), ?_⟩
  unfold Machine.adaptOne
  rw [h.weave]
  split
  · exact h.cores
  · split
    · exact h.cores
    · dsimp only
      rw [hmarked, hbase]
      exact adaptEntries_cores h.cores ..

/-- What the adapters of a step add depends on memory, the weave, the cores and the tables of adapters alone. -/
theorem adapt_cores {s t : State} (h : AdaptAlike s t) (htable : t.serve.adapters = s.serve.adapters)
    (tenant : BitVec 12) (gen : BitVec 8) (us : List AdapterPass) :
    (adapt tenant gen us t).cores = (adapt tenant gen us s).cores := by
  have hfold (a : AdapterRun) : ∀ (l : List AdapterPass) {s t : State}, AdaptAlike s t →
      AdaptAlike (l.foldl (adaptOne a) s) (l.foldl (adaptOne a) t) := by
    intro l
    induction l with
    | nil => exact fun h => h
    | cons u l ih => exact fun h => ih (h.adaptOne a u)
  unfold adapt
  rw [State.adapterAt, htable, ← State.adapterAt]
  split
  · exact h.cores
  · split
    · exact h.cores
    · exact (hfold _ us h).cores

/-! ### CHUNK orders (R248) -/

section Pools

variable {s t : State}

theorem kvL_congr (h : t.weave = s.weave) : t.kvL = s.kvL := by rw [State.kvL, h, State.kvL]

theorem kvT_congr (h : t.weave = s.weave) : t.kvT = s.kvT := by rw [State.kvT, State.kvD, h, State.kvT, State.kvD]

theorem kvData_congr (h : t.weave = s.weave) (tokens : Nat) : t.kvData tokens = s.kvData tokens := by
  rw [State.kvData, kvL_congr h, kvT_congr h, State.kvData]

theorem kvFree_congr (hregs : t.regs = s.regs) (hserve : t.serve = s.serve) : t.kvFree = s.kvFree := by
  rw [State.kvFree, State.kvSize, fld_eq_of_regs_eq hregs, hserve, State.kvFree, State.kvSize]

theorem kvSound_of_empty {c : Ctx} (h : c.pages = []) : kvSound s c = true := by simp [kvSound, h]

end Pools

theorem ceilDiv_eq_of_lt {n k : Nat} (hk : 0 < k) : n / k + 1 = ceilDiv (n + 1) k := by
  unfold ceilDiv
  rw [show n + 1 + k - 1 = n + k by omega, Nat.add_div_right n hk]

theorem listPagesOf_mono {m n : Nat} (h : m ≤ n) : listPagesOf m ≤ listPagesOf n := by
  unfold listPagesOf ceilDiv
  exact Nat.div_le_div_right (by omega)

theorem computed_length (bad : Bool) (n : Nat) (pages : List (List Byte)) : (computed bad n pages).length = n := by
  simp [computed]

theorem bytesOf_fullPage_map (l : List Byte) (bad : Bool) :
    bytesOf (fullPage (l.map (fun b => (b, bad)))) = fillUp 4096 (l.take 4096) := by
  simp only [bytesOf, fullPage, clean, fillUp, List.map_append, List.map_take, List.map_map, List.map_replicate,
    List.length_map, List.length_take, Function.comp_def, List.map_id']
  congr 2
  omega

theorem nthD_computed (bad : Bool) {n i : Nat} (h : i < n) (pages : List (List Byte)) :
    nthD [] (computed bad n pages) i = (nthD [] pages i).map (fun b => (b, bad)) := by
  rw [computed, nthD_map 0 [] (fun i => (nthD [] pages i).map (fun b => (b, bad))) (by simpa using h),
    nthD_eq_getElem 0 _ _ (by simpa using h), List.getElem_range]

theorem wReq_lt (w : LinkWord) : wReq w < 4096 := by
  exact Nat.mod_lt _ (by decide)

/-- A first chunk: the pages of its tokens are written, and the chunk is reported. -/
theorem completes_orderChunk {w : LinkWord} {o : BitVec 6} {e : Desc} {pages : List (List Byte)} {ads : List AdapterPass}
    {pl : PlaceDecl} {s : State} (hs : Canon s) (hactive : s.weaveActive = true) (hok : wordOk w = true) (hkind : wKind w = 1)
    (hplace : s.placeOf w o = some pl) (hpl : pl.kind ≠ 2) (hctx : s.ctx o (wReq w) = none) (hfirst : bits w 32 12 = 0)
    (hlen : lwByte w 6 + 1 ≤ bits e 48 12) (htokens : 0 < s.kvT) (hone : listPagesOf (s.kvData (bits e 48 12)) = 1)
    (hroom : s.kvNeed (bits e 48 12) ≤ s.kvFree.length) :
    Completes (.orderChunk w o e pages ads) s (fun t =>
      ((t.ctx o (wReq w)).map (fun c => (c.held, c.adGen))) = some (lwByte w 6 + 1, BitVec.ofNat 8 (lwByte w 7)) ∧
      Reported o (reportWord s (wReq w) pl.kind.val
        (1 + (if bits e 48 12 ≤ lwByte w 6 + 1 then 2 else 0)) (lwByte w 6 + 1) 0 0) s t ∧
      t.cores = (adapt (BitVec.ofNat 12 (bits e 16 12)) (BitVec.ofNat 8 (lwByte w 7)) ads
        (indexCrop o (wReq w) e s)).cores ∧
      (∀ i < (lwByte w 6 / s.kvT + 1) * s.kvL,
        t.rdMem (s.kvAddr (nthD 0 ((t.ctx o (wReq w)).map (fun c => c.pages) |>.getD []) i)) 4096 =
          fillUp 4096 ((nthD [] pages i).take 4096)) ∧
      Only [.out, .freeCtr, .basket, .cores, .mem, .poison, .serve] s t) := by
  have hcrop := indexCrop_only o (wReq w) e s (.refl [.freeCtr, .mem, .poison, .serve] s) (by simp)
  have hstore := (indexCrop_only o (wReq w) e s (.refl [.mem, .poison] s) (by simp)).only
  generalize hu : indexCrop o (wReq w) e s = u at hcrop hstore
  have hregs : u.regs = s.regs := (hstore.2 .regs (by decide)).1
  have hserve : u.serve = s.serve := hstore.2 .serve (by decide)
  have hweave : u.weave = s.weave := hstore.2 .weave (by decide)
  have hpower : u.power = s.power := hstore.2 .power (by decide)
  obtain ⟨p, ps, hreserve, hcount, hnodup⟩ := reserve_new (c := newCtx o (wReq w) e) (s := u) (tokens := bits e 48 12)
    rfl rfl rfl (by rw [kvData_congr hweave, hone])
    (by rw [State.kvNeed, kvData_congr hweave, kvFree_congr hregs hserve]; exact hroom)
  rw [kvData_congr hweave] at hcount
  obtain ⟨c, hc⟩ : ∃ c, c = { newCtx o (wReq w) e with listFirst := p, listPages := 1, spare := ps } := ⟨_, rfl⟩
  obtain ⟨a, ha⟩ : ∃ a, a = putCtx c { u with freeCtr := u.freeCtr + 1 } := ⟨_, rfl⟩
  obtain ⟨d, hd⟩ : ∃ d, d = { c with adGen := BitVec.ofNat 8 (lwByte w 7) } := ⟨_, rfl⟩
  have hreq : c.req.toNat = wReq w := by
    rw [hc]
    exact Nat.mod_eq_of_lt (wReq_lt w)
  have hput : a.ctx o (wReq w) = some c := by
    rw [ha]
    exact ctx_putCtx (by rw [hc]; rfl) hreq _
  rw [← hc, ← ha] at hreserve
  have hmoves := reserve_only _ _ _ _ hreserve hcrop (by simp)
  have hreserved : Only [.freeCtr, .mem, .poison, .serve] s a := hmoves.only
  obtain ⟨contents, hcontents⟩ : ∃ l, l = computed (kvPoisoned a c) ((lwByte w 6 / s.kvT + 1) * s.kvL) pages := ⟨_, rfl⟩
  obtain ⟨b, hb⟩ : ∃ b, b = adapt (BitVec.ofNat 12 (bits e 16 12)) (BitVec.ofNat 8 (lwByte w 7)) ads a := ⟨_, rfl⟩
  obtain ⟨v, hv⟩ : ∃ v, v = writeKv d (lwByte w 6 + 1) 0 contents b := ⟨_, rfl⟩
  have hexec : exec (.orderChunk w o e pages ads) s = .next (sendReport o (reportWord v (wReq w) pl.kind.val
      (1 + (if bits e 48 12 ≤ lwByte w 6 + 1 then 2 else 0)) (lwByte w 6 + 1) 0 0) v) := by
    have hplace' : u.placeOf w o = some pl := by
      rw [State.placeOf, hweave, State.pkg, hpower]
      exact hplace
    have hctx' : u.ctx o (wReq w) = none := (ctx_congr hserve _ _).trans hctx
    have hreserve' : reserve (newCtx o (wReq w) e).promptLen (newCtx o (wReq w) e) u = some a := hreserve
    have hgeo : a.weave = s.weave := hreserved.2 .weave (by decide)
    have htenant : c.tenant = BitVec.ofNat 12 (bits e 16 12) := by rw [hc]; rfl
    have hprompt : c.promptLen = bits e 48 12 := by rw [hc]; rfl
    have hsound : kvSound a c = true := kvSound_of_empty (by rw [hc]; rfl)
    refine congrArg Host.Outcome.next ?_
    rw [onOrder_acts hactive hok hkind, hu, orderChunk]
    simp only [hplace', hpl, if_false, hctx', hreserve', hput, hsound, Bool.not_true, Bool.false_eq_true, hfirst,
      Nat.zero_div, Nat.zero_mul, Nat.zero_add, Nat.sub_zero, Nat.add_sub_cancel, kvT_congr hgeo, kvL_congr hgeo, ← hd]
    rw [htenant, hprompt, ← hcontents, ← hb, ← hv]
  have hadapt := adapt_only (BitVec.ofNat 12 (bits e 16 12)) (BitVec.ofNat 8 (lwByte w 7)) ads a (.refl [.cores] a) (by simp)
  rw [← hb] at hadapt
  have hsb : Only [.freeCtr, .cores, .mem, .poison, .serve] s b := (hreserved.mono (by simp)).trans (hadapt.only.mono (by simp))
  have hwritten := writeKv_only d (lwByte w 6 + 1) 0 contents b (.refl [.mem, .poison, .serve] b) (by simp)
  rw [← hv] at hwritten
  have hsv : Only [.freeCtr, .cores, .mem, .poison, .serve] s v := (hsb.mono (by simp)).trans (hwritten.only.mono (by simp))
  have hlength : contents.length = (lwByte w 6 / s.kvT + 1) * s.kvL := by rw [hcontents, computed_length]
  have hshort : contents.length ≤ ps.length := by
    rw [hlength, hcount, State.kvData, ceilDiv_eq_of_lt htokens, Nat.mul_comm]
    exact Nat.mul_le_mul_left _ (Nat.div_le_div_right (by omega))
  have hspare : d.spare = ps := by rw [hd, hc]
  have hcanon : Canon b := hadapt.canon (hmoves.canon hs)
  obtain ⟨hreads, hctx'⟩ := writeKv_fresh (c := d) (held := lwByte w 6 + 1) (contents := contents) hcanon
    (by rw [hd, hc]; rfl) (by rw [hspare]; exact hshort) (by rw [hd, hc]; simpa [pageRun] using hnodup)
    (by
      rw [hd, hc]
      exact (listPagesOf_mono (hshort.trans hcount.le)).trans hone.le)
  rw [← hv, hspare] at hreads hctx'
  have howner : d.owner = o := by rw [hd, hc]; rfl
  have hreq' : d.req.toNat = wReq w := by rw [hd]; exact hreq
  rw [howner, hreq'] at hctx'
  have haddr (q : Nat) : b.kvAddr q = s.kvAddr q := kvAddr_congr (hsb.2 .regs (by decide)).1 q
  have hcores : v.cores = (adapt (BitVec.ofNat 12 (bits e 16 12)) (BitVec.ofNat 8 (lwByte w 7)) ads u).cores := by
    have hput : AdaptAlike u a ∧ a.serve.adapters = u.serve.adapters := by
      rw [ha]
      exact ⟨⟨rfl, rfl, rfl, rfl, rfl⟩, rfl⟩
    rw [← adapt_cores hput.1 hput.2, ← hb]
    exact hwritten.only.2 .cores (by decide)
  rw [reportWord_congr (s := s) (hsv.2 .power (by decide))] at hexec
  have hreport := (sendReport_frame o (reportWord s (wReq w) pl.kind.val
    (1 + (if bits e 48 12 ≤ lwByte w 6 + 1 then 2 else 0)) (lwByte w 6 + 1) 0 0) v).only
  have hctxt := (ctx_congr (hreport.2 .serve (by decide)) o (wReq w)).trans hctx'
  refine completes_of_next hexec ⟨by rw [hctxt, hd]; rfl, reported_sendReport _ _ (hsv.2 .out (by decide))
    (hsv.2 .basket (by decide)) (hsv.2 .weave (by decide)) (hsv.2 .power (by decide)),
    (hreport.2 .cores (by decide)).trans hcores, fun i hi => ?_, (hsv.mono (by simp)).trans (hreport.mono (by simp))⟩
  have hi' : i < contents.length := hlength ▸ hi
  rw [hctxt, State.rdMem, hreport.2 .mem (by decide), ← State.rdMem]
  have hread := hreads i hi'
  rw [haddr, hcontents, nthD_computed _ hi, bytesOf_fullPage_map] at hread
  rw [← hread, Option.map_some, Option.getD_some]
  congr 2
  exact nthD_take 0 hi' hshort

/-! ### Transfers that an order begins (R252, R257, R260) -/

/-- The routes stand as they were. -/
structure RoutesKept (s t : State) : Prop where
  power : t.power = s.power
  weave : t.weave = s.weave
  tree : t.basket.tree = s.basket.tree

theorem RoutesKept.refl (s : State) : RoutesKept s s := ⟨rfl, rfl, rfl⟩

theorem RoutesKept.trans {s t u : State} (h : RoutesKept s t) (h' : RoutesKept t u) : RoutesKept s u :=
  ⟨h'.power.trans h.power, h'.weave.trans h.weave, h'.tree.trans h.tree⟩

theorem RoutesKept.route {s t : State} (h : RoutesKept s t) (dst : BitVec 6) : t.route dst = s.route dst := by
  rw [State.route, State.pkg, h.power, h.weave, h.tree, State.route, State.pkg]

theorem routesKept_latch (c : Code) (d : Nat) (s : State) : RoutesKept s (latch c d s) :=
  ⟨latch_power .., latch_weave .., congrArg _ (latch_basket ..)⟩

theorem routesKept_refused (s : State) : RoutesKept s ((latch eRouteNone 0 s).emit (.issuerCode eRouteNone)) :=
  (routesKept_latch eRouteNone 0 s).trans (t := latch eRouteNone 0 s) ⟨rfl, rfl, rfl⟩

theorem routesKept_sendOn (p : Port) (m : Loose) (s : State) : RoutesKept s (sendOn p m s) := by
  cases p <;> exact ⟨rfl, rfl, rfl⟩

theorem routesKept_drainOutbox (l : List Loose) (s : State) : RoutesKept s (drainOutbox l s) := by
  induction l generalizing s with
  | nil => exact ⟨rfl, rfl, rfl⟩
  | cons m l ih =>
    unfold drainOutbox
    split
    · exact (routesKept_refused s).trans (ih _)
    · split
      · exact (routesKept_sendOn _ _ s).trans (ih _)
      · exact ⟨rfl, rfl, rfl⟩

theorem routesKept_sendLoose (m : Loose) (s : State) : RoutesKept s (sendLoose m s) := by
  unfold sendLoose
  dsimp only
  split
  · exact routesKept_refused s
  · split
    · exact ⟨rfl, rfl, rfl⟩
    · exact RoutesKept.trans (t := seqCounted s) ⟨rfl, rfl, rfl⟩ (routesKept_drainOutbox _ _)

theorem routesKept_sendPart (c : Ctx) (kind : Nat) (dst : BitVec 6) (coded : Bool) (x : Word) (f o : Nat) (l : Marked)
    (s : State) : RoutesKept s (sendPart c kind dst coded x f o l s) := by
  induction f generalizing o l s with
  | zero => exact .refl s
  | succ f ih =>
    rw [sendPart]
    split
    · exact .refl s
    · exact (routesKept_sendLoose _ s).trans (ih _ _ _)

/-- The message that left or waits last. -/
def LastSent (m : Loose) (t : State) : Prop :=
  t.out.getLast? = some (.message m) ∨ (∃ o b, t.out.getLast? = some (.loose o { m with cls1 := b })) ∨
    t.basket.outbox.getLast? = some m

/-- The last message of an outbox leaves last, or waits last. -/
theorem lastSent_drainOutbox {m : Loose} (l : List Loose) {s : State} (hroute : s.route (m.dst.setWidth 6) ≠ 5) :
    LastSent m (drainOutbox (l ++ [m]) s) := by
  induction l generalizing s with
  | nil =>
    rw [List.nil_append]
    cases hway : s.looseWay m with
    | none =>
      rw [drainOutbox_stays hroute hway]
      exact .inr (.inr rfl)
    | some q =>
      obtain ⟨o, x⟩ := q
      have hx : ∃ b, x = { m with cls1 := b } := by
        unfold State.looseWay at hway
        dsimp only at hway
        split at hway
        · split at hway
          · cases hway
            exact ⟨_, rfl⟩
          · cases hway
        · cases hway
      obtain ⟨b, rfl⟩ := hx
      rw [drainOutbox_way hroute hway, drainOutbox_nil]
      refine .inr (.inl ⟨o, b, ?_⟩)
      rw [sendOn_eq, emit_out]
      exact List.getLast?_concat ..
  | cons a l ih =>
    rw [List.cons_append, drainOutbox]
    split
    · exact ih (by rw [(routesKept_refused s).route]; exact hroute)
    · split
      · exact ih (by rw [(routesKept_sendOn _ _ s).route]; exact hroute)
      · refine .inr (.inr ?_)
        rw [← List.cons_append]
        exact List.getLast?_concat ..

theorem lastSent_sendLoose {m : Loose} {s : State} (hroute : s.route (m.dst.setWidth 6) ≠ 5) :
    LastSent m (sendLoose m s) := by
  unfold sendLoose
  dsimp only
  rw [if_neg hroute]
  split
  · refine .inl ?_
    rw [emit_out]
    exact List.getLast?_concat ..
  · exact lastSent_drainOutbox _ hroute

theorem ofLe_leBytes (n v : Nat) : ofLe (leBytes n v) = v % 256 ^ n := by
  induction n generalizing v with
  | zero => rw [leBytes, ofLe, Nat.pow_zero, Nat.mod_one]
  | succ n ih =>
    have hpow : 256 ^ (n + 1) = 256 * 256 ^ n := Nat.pow_succ'
    rw [leBytes, ofLe, ih, BitVec.toNat_ofNat, hpow, Nat.mod_mul]

theorem leAt_leBytes (n v : Nat) (l : List Byte) : leAt (leBytes n v ++ l) 0 n = v % 256 ^ n := by
  rw [leAt, List.drop_zero, List.take_left' (leBytes_length n v), ofLe_leBytes]

theorem leAt_append (a l : List Byte) (lo n : Nat) (h : a.length ≤ lo) : leAt (a ++ l) lo n = leAt l (lo - a.length) n := by
  rw [leAt, List.drop_append, List.drop_of_length_le h, List.nil_append, leAt]

theorem kvHead_kind {req kind : Nat} (hreq : req < 4096) (hkind : kind < 16) (owner : Nat) (coded : Bool) (x : Word) (v : Nat)
    (data : List Byte) : leAt (kvHead req kind owner coded x v data) 0 2 / 4096 = kind := by
  simp only [kvHead, List.append_assoc, leAt_leBytes]
  omega

theorem kvHead_xfer (req kind owner : Nat) (coded : Bool) (x : Word) (v : Nat) (data : List Byte) :
    BitVec.ofNat 32 (leAt (kvHead req kind owner coded x v data) 4 4) = x := by
  simp only [kvHead, List.append_assoc]
  rw [leAt_append _ _ _ _ (by rw [leBytes_length]; decide), leAt_append _ _ _ _ (by simp only [leBytes_length]; decide),
    leAt_append _ _ _ _ (by simp only [leBytes_length]; decide)]
  simp only [leBytes_length]
  rw [leAt_leBytes]
  exact BitVec.eq_of_toNat_eq (by simp [Nat.mod_eq_of_lt x.isLt])

/-- A cache that is sent ends with its END message. -/
theorem endSent_sendCache (c : Ctx) (dst : BitVec 6) (coded : Bool) (x : Word) (list raw : Marked) {s : State}
    (hroute : s.route ((dst.setWidth 8).setWidth 6) ≠ 5) : EndSent dst x (sendCache c dst coded x list raw s) := by
  unfold sendCache kvNote
  dsimp only
  generalize hpart : (if coded then markedStream 3 raw else raw) = part
  have hkept := (routesKept_sendPart c 1 dst coded x (list.length / 992 + 1) 0 list s).trans
    (routesKept_sendPart c 2 dst coded x (part.length / 992 + 1) 0 part _)
  generalize sendPart c 2 dst coded x (part.length / 992 + 1) 0 part _ = t at hkept ⊢
  exact ⟨t.mkLoose 6 dst 0 0 (kvHead c.req.toNat 3 c.owner.toNat coded x part.length []), rfl, rfl,
    kvHead_kind c.req.isLt (by decide) _ _ _ _ _, kvHead_xfer ..,
    lastSent_sendLoose (by rw [hkept.route]; exact hroute)⟩

section Ship

variable {w : LinkWord} {o : BitVec 6} {e : Desc} {c : Ctx} {s : State} (hctx : s.ctx o (wReq w) = some c)
  (hunsent : c.sent = none) (hroute : s.route ((BitVec.ofNat 6 (wPkg w)).setWidth 8 |>.setWidth 6) ≠ 5)

/-- What a cache that leaves does: its context names the transfer, and its END leaves last. -/
def Shipped (w : LinkWord) (o : BitVec 6) (d : Ctx) (s t : State) : Prop :=
  t.ctx o (wReq w) = some d ∧ EndSent (BitVec.ofNat 6 (wPkg w)) (wXfer w) t ∧ Only [.regs, .out, .basket, .serve] s t

include hctx hroute in
theorem shipped_sendCache {d : Ctx} (howner : d.owner = c.owner) (hreq : d.req = c.req) (a : Ctx) (coded : Bool)
    (list raw : Marked) :
    Shipped w o d s (sendCache a (BitVec.ofNat 6 (wPkg w)) coded (wXfer w) list raw (putCtx d s)) := by
  have hframe := sendCache_only a (BitVec.ofNat 6 (wPkg w)) coded (wXfer w) list raw (putCtx d s)
    (.refl [.regs, .out, .basket] _) (by simp)
  exact ⟨(ctx_congr (hframe.only.2 .serve (by decide)) _ _).trans (ctx_putCtx_of hctx howner hreq s),
    endSent_sendCache a _ coded _ list raw hroute,
    ((putCtx_frame d s).mono (by simp)).trans (hframe.only.mono (by simp))⟩

/-- The holder sends a cache from its pages. -/
theorem shipFrom_pages {a : Ctx} {dst : BitVec 6} {x : Word} (hsent : a.sent = none) (hpages : a.pages ≠ [])
    (hverdict : shipVerdict s true (a.pages.map (fun p => s.kvBase + 4096 * p)) = 0) :
    ∃ list raw, shipFrom a false true dst x s = sendCache a dst true x list raw (putCtx { a with sent := some (x, false) } s) := by
  have hne : a.pages.isEmpty = false := List.isEmpty_eq_false_iff.2 hpages
  simp only [shipFrom, hne, hverdict, hsent, Bool.false_eq_true, if_false, ne_eq, not_true_eq_false, Option.isSome_none]
  exact ⟨_, _, rfl⟩

/-- The holder sends a park copy. -/
theorem shipFrom_copy {a : Ctx} {p : ParkCopy} {dst : BitVec 6} {x : Word} {coded : Bool} (hsent : a.sent = none)
    (hcopy : a.copy = some p) (hverdict : shipVerdict s coded (p.pages.map (fun q => s.parkBase + 4096 * q)) = 0) :
    ∃ list raw, shipFrom a true coded dst x s =
      sendCache a dst coded x list raw (putCtx { a with sent := some (x, true) } s) := by
  simp only [shipFrom, hcopy, hverdict, hsent, Bool.false_eq_true, if_false, if_true, ne_eq, not_true_eq_false,
    Option.isSome_none, Option.map_some]
  exact ⟨_, _, rfl⟩

include hctx hunsent hroute in
theorem shipped_shipFrom_pages (hpages : c.pages ≠ [])
    (hverdict : shipVerdict s true (c.pages.map (fun p => s.kvBase + 4096 * p)) = 0) :
    Shipped w o { c with sent := some (wXfer w, false) } s
      (shipFrom c false true (BitVec.ofNat 6 (wPkg w)) (wXfer w) s) := by
  obtain ⟨list, raw, heq⟩ := shipFrom_pages hunsent hpages hverdict
  rw [heq]
  exact shipped_sendCache hctx hroute (d := { c with sent := some (wXfer w, false) }) rfl rfl c true list raw

include hctx hunsent hroute in
theorem shipped_shipFrom_copy {p : ParkCopy} (hcopy : c.copy = some p) (x : Option Nat) (coded : Bool)
    (hverdict : shipVerdict s coded (p.pages.map (fun q => s.parkBase + 4096 * q)) = 0) :
    Shipped w o { c with sealTo := x, sent := some (wXfer w, true) } s
      (shipFrom { c with sealTo := x } true coded (BitVec.ofNat 6 (wPkg w)) (wXfer w) s) := by
  obtain ⟨list, raw, heq⟩ := shipFrom_copy (a := { c with sealTo := x }) (dst := BitVec.ofNat 6 (wPkg w)) (x := wXfer w)
    hunsent hcopy hverdict
  rw [heq]
  exact shipped_sendCache hctx hroute (d := { c with sealTo := x, sent := some (wXfer w, true) }) rfl rfl
    { c with sealTo := x } coded list raw

variable (hactive : s.weaveActive = true) (hok : wordOk w = true)

include hctx hunsent hroute hactive hok

/-- A SHIP order at the holder. -/
theorem completes_orderShip (hkind : wKind w = 3) (haway : wPkg w ≠ s.pkg.toNat) (hpages : c.pages ≠ [])
    (hverdict : shipVerdict s true (c.pages.map (fun p => s.kvBase + 4096 * p)) = 0) :
    Completes (.orderShip w o e) s (Shipped w o { c with sent := some (wXfer w, false) } s) := by
  have hexec : exec (.orderShip w o e) s = .next (shipFrom c false true (BitVec.ofNat 6 (wPkg w)) (wXfer w) s) := by
    refine congrArg Host.Outcome.next ?_
    rw [onOrder_acts hactive hok hkind, orderShip, if_neg haway, hctx]
  exact completes_of_next hexec (shipped_shipFrom_pages hctx hunsent hroute hpages hverdict)

/-- A PARK_HOST order at the holder: the copy goes uncompressed. -/
theorem completes_orderParkHost {p : ParkCopy} (hkind : wKind w = 5) (hcopy : c.copy = some p) :
    Completes (.orderParkHost w o) s (Shipped w o { c with sealTo := some 0, sent := some (wXfer w, true) } s) := by
  have hexec : exec (.orderParkHost w o) s =
      .next (shipFrom { c with sealTo := some 0 } true false (BitVec.ofNat 6 (wPkg w)) (wXfer w) s) := by
    refine congrArg Host.Outcome.next ?_
    rw [onOrder_acts hactive hok hkind, orderParkHost, hctx]
  exact completes_of_next hexec (shipped_shipFrom_copy hctx hunsent hroute hcopy (some 0) false rfl)

/-- An UNPARK order at the holder of a store-tier copy. -/
theorem completes_orderUnpark {p : ParkCopy} {slot : List Byte} (hkind : wKind w = 6) (haway : wPkg w ≠ s.pkg.toNat)
    (howner : o ≠ s.pkg) (hcopy : c.copy = some p)
    (hverdict : shipVerdict s true (p.pages.map (fun q => s.parkBase + 4096 * q)) = 0) :
    Completes (.orderUnpark w o e slot) s (Shipped w o { c with sealTo := none, sent := some (wXfer w, true) } s) := by
  have hexec : exec (.orderUnpark w o e slot) s =
      .next (shipFrom { c with sealTo := none } true true (BitVec.ofNat 6 (wPkg w)) (wXfer w) s) := by
    refine congrArg Host.Outcome.next ?_
    rw [onOrder_acts hactive hok hkind, orderUnpark]
    simp [howner, hctx, hcopy, haway]
  exact completes_of_next hexec (shipped_shipFrom_copy hctx hunsent hroute hcopy none true hverdict)

end Ship

/-! ### DECODE orders (R265) -/

theorem grmSrc_congr {s t : State} (hmem : t.mem = s.mem) (hregs : t.regs = s.regs) (g : GrammarTab) :
    t.grmSrc g = s.grmSrc g := by
  funext a n
  rw [State.grmSrc, State.rdMem, hmem, State.grmBase, pair_congr (reg_eq_of_regs_eq hregs _) (reg_eq_of_regs_eq hregs _),
    ← State.grmBase, ← State.rdMem, State.grmSrc]

theorem eos_congr {s t : State} (h : t.weave = s.weave) : t.eos = s.eos := by rw [State.eos, h, State.eos]

theorem latched_congr {s t : State} (h : t.serve = s.serve) (c : Ctx) : t.latched c = s.latched c := by
  rw [State.latched, h, State.latched]

/-- The report of a decode step's outcome. -/
def decodeReport (s : State) (c : Ctx) (r : GrmStep) : LinkWord :=
  reportWord s c.req.toNat 2 ((if r.token.isSome then 4 else 0) + (if r.reason = 0 then 0 else 8)) (r.token.getD 0) r.margin
    r.reason

/-- A decode with a latched table: one grammar step, its page, its report. -/
theorem decodeToken_latched {c : Ctx} {g : GrammarTab} {d : WeaveDecl} {s : State} (hlatched : s.latched c = some g)
    (hrun : s.weave.run = some d) (logits : List (BitVec 32)) (pages : List (List Byte)) :
    ∃ v, decodeToken c logits pages s = sendReport c.owner (decodeReport v c
        (grammarStep (s.grmSrc g) s.eos d.mshift.toNat s.freeCtr c logits)) v ∧
      Only [.freeCtr, .mem, .poison, .serve] s v := by
  unfold decodeToken
  simp only [hlatched, hrun, decodeReport]
  generalize grammarStep (s.grmSrc g) s.eos d.mshift.toNat s.freeCtr c logits = r
  obtain ⟨u, hu⟩ : ∃ u : State, u = { s with freeCtr := s.freeCtr + 1 } := ⟨_, rfl⟩
  have hstart : Only [.freeCtr, .mem, .poison, .serve] s u := hu ▸ only_iff.2 (by simp)
  rw [← hu]
  refine ⟨_, rfl, hstart.trans ?_⟩
  split
  · exact (writeKv_only _ _ _ _ u (.refl [.freeCtr, .mem, .poison, .serve] u) (by simp)).only
  · exact (putCtx_frame _ u).mono (by simp)

/-- A DECODE order for a request whose table is latched: one token is chosen and reported. -/
theorem completes_orderDecode {w : LinkWord} {o : BitVec 6} {e : Desc} {toks : List (BitVec 12)} {logits : List (BitVec 32)}
    {pages : List (List Byte)} {ads : List AdapterPass} {pl : PlaceDecl} {c : Ctx} {g : GrammarTab} {d : WeaveDecl}
    {s s' : State} (hactive : s.weaveActive = true) (hrun : s.weave.run = some d) (hok : wordOk w = true)
    (hkind : wKind w = 2) (hplace : s.placeOf w o = some pl) (hpl : pl.kind = 2)
    (hready : readyCtx o (wReq w) e s = some (c, s')) (hgoing : c.stopped = false) (hstarted : c.started = true)
    (hsound : kvSound s' c = true) (hlatched : s'.latched c = some g) :
    Completes (.orderDecode w o e toks logits pages ads) s (fun t =>
      Reported c.owner (decodeReport s c (grammarStep (s'.grmSrc g) s.eos d.mshift.toNat s'.freeCtr c logits)) s t ∧
      t.cores = (adapt c.tenant (BitVec.ofNat 8 (lwByte w 7)) ads s').cores ∧
      Only [.out, .freeCtr, .basket, .cores, .mem, .poison, .serve] s t) := by
  have hexec : exec (.orderDecode w o e toks logits pages ads) s =
      .next (decodeToken c logits pages (adapt c.tenant (BitVec.ofNat 8 (lwByte w 7)) ads s')) := by
    refine congrArg Host.Outcome.next ?_
    rw [onOrder_acts hactive hok hkind, orderDecode]
    simp [hplace, hpl, hready, hgoing, hsound, beginDecode, hstarted]
  have hfirst := (readyCtx_only _ _ _ _ _ _ hready (.refl [.freeCtr, .mem, .poison, .serve] s) (by simp)).only
  have hadapt := (adapt_only c.tenant (BitVec.ofNat 8 (lwByte w 7)) ads s' (.refl [.cores] s') (by simp)).only
  generalize adapt c.tenant (BitVec.ofNat 8 (lwByte w 7)) ads s' = b at hexec hadapt
  have hweave : b.weave = s.weave := (hadapt.2 .weave (by decide)).trans (hfirst.2 .weave (by decide))
  obtain ⟨v, heq, hv⟩ := decodeToken_latched (s := b) (d := d) (c := c) (g := g)
    ((latched_congr (hadapt.2 .serve (by decide)) c).trans hlatched) (by rw [hweave]; exact hrun) logits pages
  rw [grmSrc_congr (hadapt.2 .mem (by decide)) (hadapt.2 .regs (by decide)).1, eos_congr hweave,
    hadapt.2 .freeCtr (by decide)] at heq
  have hsv : Only [.freeCtr, .cores, .mem, .poison, .serve] s v :=
    (hfirst.mono (by simp)).trans ((hadapt.mono (by simp)).trans (hv.mono (by simp)))
  rw [heq, decodeReport, reportWord_congr (s := s) (hsv.2 .power (by decide)), ← decodeReport] at hexec
  have hreport := (sendReport_frame c.owner (decodeReport s c
    (grammarStep (s'.grmSrc g) s.eos d.mshift.toNat s'.freeCtr c logits)) v).only
  exact completes_of_next hexec ⟨reported_sendReport _ _ (hsv.2 .out (by decide)) (hsv.2 .basket (by decide))
    (hsv.2 .weave (by decide)) (hsv.2 .power (by decide)),
    (hreport.2 .cores (by decide)).trans (hv.2 .cores (by decide)), (hsv.mono (by simp)).trans (hreport.mono (by simp))⟩

/-! ### PARK_STORE and DROP orders (R246, R256) -/

/-- A PARK_STORE order: a copy begins on free park pages. -/
theorem completes_orderParkStore {w : LinkWord} {o : BitVec 6} {c : Ctx} {s : State} (hactive : s.weaveActive = true)
    (hok : wordOk w = true) (hkind : wKind w = 4) (hctx : s.ctx o (wReq w) = some c) (hpages : c.pages ≠ [])
    (hmaking : c.making = none) (hone : listPagesOf c.pages.length = 1) (hroom : c.pages.length + 1 ≤ s.parkFree.length) :
    Completes (.orderParkStore w o) s (fun t =>
      ((t.ctx o (wReq w)).bind (fun c => c.making)).map (fun p =>
        (p.pages.length, p.listPages, p.genLen, p.pages.all (fun q => s.parkFree.contains q))) =
        some (c.pages.length, 1, c.genLen, true) ∧
      (t.ctx o (wReq w)).map (fun d => { d with making := none }) = some c ∧ Only [.freeCtr, .serve] s t) := by
  obtain ⟨f, ps, rest, rest', hrun, halloc, -, hcount, -, hfree⟩ :=
    alloc_both s.freeCtr c.pages.length (freeOf_nodup s.parkSize _) hroom
  obtain ⟨d, hd⟩ : ∃ d, d = { c with making := some ⟨f, 1, ps, c.genLen, c.held⟩ } := ⟨_, rfl⟩
  have hexec : exec (.orderParkStore w o) s = .next (putCtx d { s with freeCtr := s.freeCtr + 1 }) := by
    have hne : c.pages.isEmpty = false := List.isEmpty_eq_false_iff.2 hpages
    have hrun' : allocRun s.freeCtr 1 s.parkFree = some (f, rest) := hrun
    refine congrArg Host.Outcome.next ?_
    rw [onOrder_acts hactive hok hkind, orderParkStore, hctx]
    simp only [hne, hmaking, Option.isSome_none, Bool.or_self, Bool.false_eq_true, if_false, hone, hrun', halloc, ← hd]
  have hput : (putCtx d { s with freeCtr := s.freeCtr + 1 }).ctx o (wReq w) = some d :=
    ctx_putCtx_of hctx (by rw [hd]) (by rw [hd]) _
  have hall : ps.all (fun q => s.parkFree.contains q) = true := by
    rw [List.all_eq_true]
    exact fun q hq => List.contains_iff_mem.2 (hfree q hq)
  refine completes_of_next hexec ⟨?_, ?_, only_iff.2 (by simp [putCtx])⟩
  · rw [hput, hd]
    simp only [Option.bind_some, Option.map_some, hcount, hall]
  · rw [hput, hd, Option.map_some, ← hmaking]

/-- A DROP order: the request's context goes, and no other. -/
theorem completes_orderDrop {w : LinkWord} {o : BitVec 6} {s : State} (hactive : s.weaveActive = true)
    (hok : wordOk w = true) (hkind : wKind w = 7) :
    Completes (.orderDrop w o) s (fun t =>
      t.ctx o (wReq w) = none ∧ (∀ k, k ≠ wReq w → t.ctx o k = s.ctx o k) ∧ Only [.serve] s t) := by
  have hexec : exec (.orderDrop w o) s = .next (dropCtx o (wReq w) s) := by
    refine congrArg Host.Outcome.next ?_
    rw [onOrder_acts hactive hok hkind]
  exact completes_of_next hexec ⟨ctx_dropCtx .., fun k hk => ctx_dropCtx_ne hk s, dropCtx_frame ..⟩

end Sys2Proof.Machine
end

section
/-!
PROOFS. Boundary.lean: a step boundary empties the reports, the host commands and the crops handed over, and counts one step
(R233, R245).
-/

namespace Sys2Proof.Machine

/-! ### The lists of a step -/

/-- The count of steps stands, and a list of the step that is empty stays empty. -/
structure ListsKept (s t : State) : Prop where
  num : t.serve.stepNum = s.serve.stepNum
  reports : s.serve.reports = [] → t.serve.reports = []
  cmds : s.serve.cmds = [] → t.serve.cmds = []
  handed : s.roi.handed = [] → t.roi.handed = []

theorem ListsKept.refl (s : State) : ListsKept s s := ⟨rfl, id, id, id⟩

theorem ListsKept.trans {s t u : State} (h : ListsKept s t) (h' : ListsKept t u) : ListsKept s u :=
  ⟨h'.num.trans h.num, fun hs => h'.reports (h.reports hs), fun hs => h'.cmds (h.cmds hs), fun hs => h'.handed (h.handed hs)⟩

theorem ListsKept.of_moves {ps : List Part} {s t : State} (h : Moves ps s t) (hserve : Part.serve ∉ ps)
    (hroi : Part.roi ∉ ps) : ListsKept s t := by
  have hs : t.serve = s.serve := h.only.2 .serve hserve
  have hr : t.roi = s.roi := h.only.2 .roi hroi
  exact ⟨congrArg _ hs, fun h => (congrArg _ hs).trans h, fun h => (congrArg _ hs).trans h, fun h => (congrArg _ hr).trans h⟩

theorem ListsKept.foldl {α : Type} {f : State → α → State} (hf : ∀ t a, ListsKept t (f t a)) (l : List α) (s : State) :
    ListsKept s (l.foldl f s) := by
  induction l generalizing s with
  | nil => exact .refl s
  | cons a l ih => exact (hf s a).trans (ih _)

theorem ListsKept.foldl_snd {α β : Type} {f : β × State → α → β × State} (hf : ∀ x a, ListsKept x.2 (f x a).2)
    (l : List α) (x : β × State) : ListsKept x.2 (l.foldl f x).2 := by
  induction l generalizing x with
  | nil => exact .refl _
  | cons a l ih => exact (hf x a).trans (ih _)

/-! ### Requests, tenants and contexts -/

theorem listsKept_setReq (k : Nat) (r : Req) (s : State) : ListsKept s (setReq k r s) := ⟨rfl, id, id, id⟩

theorem listsKept_modReq (k : Nat) (f : Req → Req) (s : State) : ListsKept s (modReq k f s) := ⟨rfl, id, id, id⟩

theorem listsKept_setTenant (k : Nat) (x : Tenant) (s : State) : ListsKept s (setTenant k x s) := ⟨rfl, id, id, id⟩

theorem listsKept_putCtx (c : Ctx) (s : State) : ListsKept s (putCtx c s) := ⟨rfl, id, id, id⟩

theorem listsKept_dropCtx (o : BitVec 6) (k : Nat) (s : State) : ListsKept s (dropCtx o k s) := ⟨rfl, id, id, id⟩

theorem listsKept_dropAt (k : Nat) (l : List (BitVec 8)) (s : State) : ListsKept s (dropAt k l s) := ⟨rfl, id, id, id⟩

theorem listsKept_mapParcels (p : Parcel → Bool) (f : Parcel → Parcel) (s : State) : ListsKept s (mapParcels p f s) :=
  ⟨rfl, id, id, id⟩

theorem listsKept_latch (c : Code) (d : Nat) (s : State) : ListsKept s (latch c d s) :=
  .of_moves (latch_only c d s (.refl [.regs] s) (by simp)) (by decide) (by decide)

theorem listsKept_emit (o : Out) (s : State) : ListsKept s (s.emit o) := ⟨rfl, id, id, id⟩

theorem listsKept_hostPut (a : BitVec 64) (l : List Byte) (s : State) : ListsKept s (hostPut a l s) :=
  .of_moves (hostPut_only a l s (.refl [.regs, .out, .basket] s) (by simp)) (by decide) (by decide)

theorem listsKept_finishFlight (f : Flight) (c : Code) (r : Word) (s : State) : ListsKept s (finishFlight f c r s) :=
  .of_moves (finishFlight_only f c r s (.refl [.regs, .out, .host] s) (by simp)) (by decide) (by decide)

theorem listsKept_completeFlight (f : Flight) (c : Code) (r : Word) (s : State) : ListsKept s (completeFlight f c r s) :=
  .of_moves (completeFlight_only f c r s (.refl [.regs, .out, .host, .knots] s) (by simp)) (by decide) (by decide)

theorem listsKept_putOrWait (w : Waiting) (s : State) : ListsKept s (putOrWait w s) :=
  .of_moves (putOrWait_only w s (.refl [.out, .host] s) (by simp)) (by decide) (by decide)

theorem listsKept_sendOrder (p : BitVec 6) (w : LinkWord) (s : State) : ListsKept s (sendOrder p w s) :=
  .of_moves (sendOrder_only p w s (.refl [.out, .basket] s) (by simp)) (by decide) (by decide)

theorem listsKept_postEvent (c : Code) (d : BitVec 128) (s : State) : ListsKept s (postEvent c d s) :=
  .of_moves (postEvent_only c d s (.refl [.regs, .out, .host] s) (by simp)) (by decide) (by decide)

theorem listsKept_wrMem (a : Nat) (l : List Byte) (s : State) : ListsKept s (wrMem a l s) :=
  .of_moves (wrMem_only a l s (.refl [.mem, .poison] s) (by simp)) (by decide) (by decide)

theorem listsKept_putOrDrop (k : Nat) (w : Waiting) (s : State) : ListsKept s (putOrDrop k w s) := by
  have hdrain : ListsKept s (drainWaiting s) :=
    .of_moves (drainWaiting_only s (.refl [.out, .host] s) (by simp)) (by decide) (by decide)
  unfold putOrDrop
  dsimp only
  split
  · exact hdrain.trans (.of_moves (cqPut_only _ _ _ _ (.refl [.out, .host] _) (by simp)) (by decide) (by decide))
  · exact hdrain.trans (listsKept_modReq ..)

theorem listsKept_freeSlot (k : Nat) (s : State) : ListsKept s (freeSlot k s) :=
  (listsKept_hostPut _ _ s).trans ⟨rfl, id, id, id⟩

theorem listsKept_freeHostCopy (k : Nat) (s : State) : ListsKept s (freeHostCopy k s) := by
  unfold freeHostCopy
  split
  · split
    · exact listsKept_freeSlot _ s
    · exact .refl s
  · exact .refl s

theorem listsKept_dropMove (k : Nat) (s : State) : ListsKept s (dropMove k s) := by
  unfold dropMove
  split
  · exact listsKept_dropCtx _ _ s
  · exact .refl s

theorem listsKept_endReq (k : Nat) (st : ReqSt) (c : Code) (s : State) : ListsKept s (endReq k st c s) :=
  (listsKept_latch c 0 s).trans <| (listsKept_freeHostCopy k _).trans <| (listsKept_dropMove k _).trans <|
    (listsKept_dropAt k _ _).trans (listsKept_setReq ..)

theorem listsKept_postFinal (k : Nat) (s : State) : ListsKept s (postFinal k s) := by
  unfold postFinal
  dsimp only
  split
  · exact listsKept_setReq ..
  · exact (listsKept_setReq ..).trans (.foldl (fun _ _ => listsKept_putOrWait _ _) _ _)

theorem listsKept_releaseReq (k : Nat) (s : State) : ListsKept s (releaseReq k s) := by
  have hpost : ListsKept s (if (s.req k).finalDone then s else postFinal k s) := by
    split
    · exact .refl s
    · exact listsKept_postFinal k s
  unfold releaseReq
  generalize (if (s.req k).finalDone then s else postFinal k s) = t at hpost
  refine hpost.trans (ListsKept.trans (t := if (t.req k).st = .done then dropAt k [(t.req k).kvPkg] t else t) ?_
    (listsKept_setReq ..))
  split
  · exact listsKept_dropAt ..
  · exact .refl t

theorem listsKept_postStep (k : Nat) (s : State) : ListsKept s (postStep k s) := by
  unfold postStep
  dsimp only
  split
  · exact .refl s
  · exact (listsKept_setReq ..).trans (.foldl (fun _ _ => listsKept_putOrDrop _ _ _) _ _)

theorem listsKept_postTokens (s : State) : ListsKept s (postTokens s) := by
  refine .foldl (fun t k => ?_) _ s
  dsimp only
  split
  · split
    · exact .refl t
    · exact listsKept_postFinal k t
  · exact listsKept_postStep k t

/-! ### Fates, reports and releases -/

theorem listsKept_applyFate (mark : Bool) (s : State) (k : Nat) : ListsKept s (applyFate mark s k) := by
  unfold applyFate
  dsimp only
  split
  · exact (listsKept_setReq ..).trans (listsKept_mapParcels ..)
  · exact listsKept_setReq ..

theorem listsKept_applyFates (s : State) : ListsKept s (applyFates s) := by
  have hmid : ListsKept s (if s.serve.fates = 3 then
      s.reqKeys.foldl (fun s k => if (s.req k).live then endReq k .cancelled eWeaveSwitch s else s) s
      else s.reqKeys.foldl (applyFate (s.serve.fates == 1)) s) := by
    split
    · refine .foldl (fun t k => ?_) _ s
      split
      · exact listsKept_endReq ..
      · exact .refl t
    · exact .foldl (fun t k => listsKept_applyFate _ t k) _ s
  unfold applyFates
  dsimp only
  split
  · exact .refl s
  · exact hmid.trans ⟨rfl, id, id, id⟩

theorem listsKept_chargeToken (k : Nat) (s : State) : ListsKept s (chargeToken k s) := by
  unfold chargeToken
  dsimp only
  split
  · exact .refl s
  · exact (listsKept_setTenant ..).trans (listsKept_setReq ..)

theorem listsKept_reportArrived (k : Nat) (l : BitVec 48) (s : State) : ListsKept s (reportArrived k l s) := by
  unfold reportArrived
  dsimp only
  split
  · split <;> exact listsKept_setReq ..
  · split
    · exact .refl s
    · split
      · exact listsKept_setReq ..
      · exact (listsKept_freeHostCopy k s).trans (listsKept_setReq ..)
  · exact .refl s

theorem listsKept_reportParked (k : Nat) (l : BitVec 48) (s : State) : ListsKept s (reportParked k l s) := by
  unfold reportParked
  dsimp only
  refine (listsKept_freeHostCopy k s).trans (ListsKept.trans ?_ (listsKept_setReq ..))
  split
  · exact .refl _
  · exact listsKept_dropAt ..

theorem ListsKept.ite {p : Prop} [Decidable p] {s t u : State} (ht : ListsKept s t) (hu : ListsKept s u) :
    ListsKept s (if p then t else u) := by
  split
  · exact ht
  · exact hu

theorem listsKept_applyReport (s : State) (x : LinkWord × Bool × BitVec 48) : ListsKept s (applyReport s x) := by
  unfold applyReport
  extract_lets w k flag value margin r₀ s₁ r₁ s₂ r₂ q₂ s₃ r₃ q₃ s₄ s₅ r₅ s₆ r₆
  have h₁ : ListsKept s s₁ := .ite (listsKept_setReq ..) (.refl s)
  have h₂ : ListsKept s₁ s₂ := .ite (listsKept_setReq ..) (.refl s₁)
  have h₃ : ListsKept s₂ s₃ := .ite ((listsKept_setReq ..).trans (listsKept_chargeToken ..)) (.refl s₂)
  have h₄ : ListsKept s₃ s₄ := .ite ((listsKept_setReq ..).trans (listsKept_endReq ..)) (.refl s₃)
  have h₅ : ListsKept s₄ s₅ := .ite (listsKept_reportArrived ..) (.refl s₄)
  have h₆ : ListsKept s₅ s₆ := .ite (listsKept_reportParked ..) (.refl s₅)
  exact h₁.trans <| h₂.trans <| h₃.trans <| h₄.trans <| h₅.trans <| h₆.trans <|
    .ite (.refl s₆) (.ite (listsKept_setReq ..) (.ite (listsKept_endReq ..) (.refl s₆)))

/-- The first step leaves no report. -/
theorem stepReports_lists (s : State) : ListsKept s (stepReports s) ∧ (stepReports s).serve.reports = [] := by
  unfold stepReports
  extract_lets s₁ l
  have h₁ : ListsKept s s₁ := .foldl (fun t k => .ite (listsKept_endReq ..) (.refl t)) _ s
  have hfold := ListsKept.foldl listsKept_applyReport l { s₁ with serve := { s₁.serve with reports := [] } }
  exact ⟨h₁.trans (.trans (t := { s₁ with serve := { s₁.serve with reports := [] } }) ⟨rfl, fun _ => rfl, id, id⟩ hfold),
    hfold.reports rfl⟩

theorem listsKept_stepReleases (s : State) : ListsKept s (stepReleases s) := by
  unfold stepReleases
  extract_lets s₁
  have h₁ : ListsKept s s₁ := .foldl (fun t k => .ite (listsKept_releaseReq ..) (.refl t)) _ s
  exact h₁.trans ⟨rfl, id, id, id⟩

theorem listsKept_cfgsTurn (s : State) : ListsKept s (cfgsTurn s) := by
  unfold cfgsTurn
  refine ListsKept.trans (t := { s with serve := { s.serve with cfgs := [] } }) ⟨rfl, id, id, id⟩ (.foldl (fun t c => ?_) _ _)
  split
  · exact .refl t
  · exact (listsKept_setTenant ..).trans (listsKept_completeFlight ..)

theorem listsKept_adaptersTurn (s : State) : ListsKept s (adaptersTurn s) := ⟨rfl, id, id, id⟩

theorem listsKept_grammarsTurn (s : State) : ListsKept s (grammarsTurn s) := ⟨rfl, id, id, id⟩

theorem listsKept_stepDeadlines (s : State) : ListsKept s (stepDeadlines s) :=
  .foldl (fun t _ => .ite (.refl t) (.ite (listsKept_endReq ..) (.ite (listsKept_endReq ..) (.refl t)))) _ s

theorem listsKept_pauseReq (k : Nat) (s : State) : ListsKept s (pauseReq k s) := by
  unfold pauseReq
  dsimp only
  split <;> exact listsKept_setReq ..

theorem listsKept_applyCmd (s : State) (c : HostCmd) : ListsKept s (applyCmd s c) := by
  unfold applyCmd
  extract_lets k s₁ r
  have h₁ : ListsKept s s₁ := listsKept_modReq ..
  refine h₁.trans ?_
  split
  · exact .refl s₁
  · refine .ite (listsKept_finishFlight ..) (.ite (listsKept_finishFlight ..) ?_)
    split
    · exact (listsKept_endReq ..).trans (listsKept_completeFlight ..)
    · exact (listsKept_pauseReq ..).trans (listsKept_completeFlight ..)
    · exact (listsKept_setReq ..).trans (listsKept_completeFlight ..)

/-- The fifth step leaves no host command. -/
theorem stepCommands_lists (s : State) : ListsKept s (stepCommands s) ∧ (stepCommands s).serve.cmds = [] := by
  unfold stepCommands
  extract_lets l q s₁ pick
  have hfold := ListsKept.foldl listsKept_applyCmd (pick 0 ++ pick 1 ++ pick 2) s₁
  exact ⟨.trans (t := s₁) ⟨rfl, id, fun _ => rfl, id⟩ hfold, hfold.cmds rfl⟩

/-! ### New requests, admission -/

theorem listsKept_createReq (s : State) (c : HandedCrop) : ListsKept s (createReq s c) := by
  unfold createReq
  extract_lets h
  split
  · exact .refl s
  · refine .ite (.refl s) ?_
    split
    · exact (ListsKept.of_moves (State_bumpSat_only s _ _ _ (.refl [.regs] s) (by simp)) (by decide) (by decide)).trans
        (listsKept_postEvent ..)
    · extract_lets h r s₁ s₂
      have h₁ : ListsKept s s₁ := ⟨rfl, id, id, id⟩
      exact h₁.trans <| (listsKept_mapParcels ..).trans <| .ite (listsKept_wrMem ..) (listsKept_emit ..)

/-- The sixth step leaves no crop handed over. -/
theorem stepCreate_lists (remote : List HandedCrop) (s : State) :
    ListsKept s (stepCreate remote s) ∧ (stepCreate remote s).roi.handed = [] := by
  have hfold := ListsKept.foldl listsKept_createReq (s.ownHanded ++ remote) { s with roi := { s.roi with handed := [] } }
  exact ⟨.trans (t := { s with roi := { s.roi with handed := [] } }) ⟨rfl, id, id, fun _ => rfl⟩ hfold, hfold.handed rfl⟩

theorem listsKept_formHeads (s : State) : ListsKept s (formHeads s) := by
  refine ListsKept.trans (t := dropHeads s) ⟨rfl, id, id, id⟩ (.foldl (fun t k => ?_) _ _)
  unfold formHead
  dsimp only
  split
  · exact .refl t
  · exact .ite (.refl t) ((listsKept_setTenant ..).trans (listsKept_setReq ..))

theorem listsKept_admitOne (k : Nat) (s : State) : ListsKept s (admitOne k s) := ⟨rfl, id, id, id⟩

theorem listsKept_stepAdmit (n : Nat) (s : State) : ListsKept s (stepAdmit n s) := by
  induction n generalizing s with
  | zero => exact .refl s
  | succ n ih =>
    rw [stepAdmit]
    refine (listsKept_formHeads s).trans (.ite (.refl _) ?_)
    split
    · exact (listsKept_admitOne ..).trans (ih _)
    · exact .refl _

/-! ### Orders, dispatch and pauses -/

theorem listsKept_orderTransfer (kind k : Nat) (src dst : BitVec 6) (s : State) :
    ListsKept s (orderTransfer kind k src dst s) := by
  unfold orderTransfer
  refine ListsKept.trans (t := (newXfer s).2) ⟨rfl, id, id, id⟩ ((listsKept_sendOrder ..).trans (.ite (.refl _) (listsKept_sendOrder ..)))

theorem listsKept_orderMove (k : Nat) (s : State) : ListsKept s (orderMove k s) :=
  .ite (listsKept_orderTransfer ..) (.ite (listsKept_orderTransfer ..) (.refl s))

theorem listsKept_reshipOrders (s : State) : ListsKept s (reshipOrders s) :=
  .foldl (fun t _ => .ite ((listsKept_setReq ..).trans (listsKept_orderMove ..)) (.refl t)) _ s

theorem ListsKept.ite_snd {α : Type} {p : Prop} [Decidable p] {s : State} {x y : α × State} (hx : ListsKept s x.2)
    (hy : ListsKept s y.2) : ListsKept s (if p then x else y).2 := by
  split
  · exact hx
  · exact hy

theorem listsKept_takePlace (i : Nat) (p : PlaceDecl) (k : Nat) (x : SMap Nat × State) :
    ListsKept x.2 (takePlace i p k x).2 := by
  unfold takePlace
  dsimp only
  exact .ite_snd (listsKept_setReq ..) (.ite_snd ((listsKept_setReq ..).trans (listsKept_orderMove ..))
    (.ite_snd (listsKept_setReq ..) (.ite_snd (listsKept_setReq ..) ((listsKept_setReq ..).trans (listsKept_orderMove ..)))))

theorem listsKept_stepDispatch (views : List PoolView) (s : State) : ListsKept s (stepDispatch views s).2 := by
  refine ListsKept.foldl_snd (fun x p => ?_) s.freePlaces ([], s)
  unfold dispatchOne
  split
  · exact listsKept_takePlace ..
  · exact .refl x.2

theorem listsKept_pauseFor (views : List PoolView) (x : SMap Nat × State) (k : Nat) :
    ListsKept x.2 (pauseFor views x k).2 := by
  unfold pauseFor
  dsimp only
  split
  · exact .refl x.2
  · refine .ite_snd (.refl x.2) ?_
    split
    · exact .refl x.2
    · split
      · exact listsKept_setReq ..
      · split
        · exact .ite_snd ((listsKept_setReq ..).trans (listsKept_takePlace _ _ _ (x.1, setReq _ _ x.2))) (listsKept_setReq ..)
        · exact listsKept_setReq ..

theorem listsKept_stepPauses (views : List PoolView) (n : Nat) (l : List (Nat × Req)) (x : SMap Nat × State) :
    ListsKept x.2 (stepPauses views n l x).2 := by
  induction n generalizing l x with
  | zero => exact .refl x.2
  | succ n ih =>
    rw [stepPauses]
    split
    · exact (listsKept_pauseFor ..).trans (ih _ _)
    · exact .refl x.2

/-! ### Parking -/

theorem listsKept_stopWork (s : State) : ListsKept s (stopWork s) := by
  have hload : ListsKept s (unweave (haltLoad s)) :=
    .of_moves (unweave_only _ (haltLoad_only s (.refl [.regs, .out, .basket, .host, .weave] s) (by simp)) (by simp))
      (by decide) (by decide)
  have hwork : ListsKept s (abandonPlait (abandonWork (unweave (haltLoad s)))) :=
    (hload.trans ⟨rfl, fun _ => rfl, fun _ => rfl, id⟩ : ListsKept s (abandonWork (unweave (haltLoad s)))).trans
      (.of_moves (abandonPlait_only _ (.refl [.cores] _) (by simp)) (by decide) (by decide))
  have hcrops : ListsKept s (dropPartial (abandonPlait (abandonWork (unweave (haltLoad s))))) :=
    hwork.trans ⟨rfl, id, id, id⟩
  unfold stopWork
  generalize dropPartial (abandonPlait (abandonWork (unweave (haltLoad s)))) = t at hcrops ⊢
  have hdesc : ListsKept s (finishWhere (fun f => !opSurvivesStop (dOp f.desc)) eDescRestart t) :=
    hcrops.trans (.of_moves (finishWhere_only _ _ t (.refl [.regs, .out, .host] t) (by simp)) (by decide) (by decide))
  dsimp only
  split
  · exact hdesc.trans (.of_moves (clearKnots_only _ _ _ (.refl [.regs, .out, .host, .knots] _) (by simp)) (by decide)
      (by decide))
  · exact hdesc

theorem listsKept_raiseHalt (cls : Nat) (s : State) : ListsKept s (raiseHalt cls s) := by
  have hsent : ListsKept s (haltSent cls s) := .of_moves (haltSent_frame cls s) (by decide) (by decide)
  rw [raiseHalt_eq, stopWeave_eq]
  obtain ⟨t, ht⟩ : ∃ t : State, t = { haltSent cls s with fault := { (haltSent cls s).fault with
    halt := some ⟨s.fault.lastNum + 1, BitVec.ofNat 32 (s.beat % 2 ^ 32), (haltSent cls s).pkg, BitVec.ofNat 8 cls⟩ } } :=
    ⟨_, rfl⟩
  have hstart : ListsKept s t := hsent.trans (by rw [ht]; exact ⟨rfl, id, id, id⟩)
  rw [← ht]
  have hstop := hstart.trans (listsKept_stopWork t)
  generalize stopWork t = u at hstop ⊢
  exact hstop.trans ⟨rfl, id, id, id⟩

theorem listsKept_unitFault (kind unit : Nat) (c : Code) (s : State) : ListsKept s (unitFault kind unit c s) := by
  unfold unitFault weaveFault
  generalize (⟨c, 2, BitVec.ofNat 8 kind, BitVec.ofNat 8 unit, 0⟩ : FaultReport) = f
  have hlog : ListsKept s (logFault f s) :=
    .of_moves (logFault_only f s (.refl [.regs, .out, .host, .fault] s) (by simp)) (by decide) (by decide)
  dsimp only
  generalize logFault f s = t at hlog ⊢
  exact .ite hlog (.ite (hlog.trans (listsKept_raiseHalt 2 t)) (.ite hlog (hlog.trans ⟨rfl, id, id, id⟩)))

theorem listsKept_sealSlot (k req : Nat) (plain : List Byte) (s : State) : ListsKept s (sealSlot k req plain s) :=
  (listsKept_hostPut ..).trans ((listsKept_hostPut ..).trans ⟨rfl, id, id, id⟩)

theorem listsKept_inHostSlot (req k : Nat) (s : State) : ListsKept s (inHostSlot req k s) := by
  unfold inHostSlot
  dsimp only
  split
  · exact ⟨rfl, id, id, id⟩
  · exact .refl s

theorem listsKept_moveToHost (holder : BitVec 6) (s : State) : ListsKept s (moveToHost holder s).1 := by
  obtain ⟨u, hu⟩ : ∃ u : State, u = { s with freeCtr := s.freeCtr + 1 } := ⟨_, rfl⟩
  have hpage : ListsKept s u := by rw [hu]; exact ⟨rfl, id, id, id⟩
  unfold moveToHost
  dsimp only
  rw [← hu]
  split
  · exact .refl s
  · split
    · exact listsKept_postEvent ..
    · split
      · split
        · split
          · split
            · exact hpage.trans (listsKept_unitFault ..)
            · exact (hpage.trans ((listsKept_sealSlot ..).trans (listsKept_inHostSlot ..))).trans
                (.ite (listsKept_dropCtx ..) (listsKept_putCtx ..))
          · exact hpage
        · exact hpage
      · refine ListsKept.trans (ListsKept.trans ?_ (listsKept_putCtx ..)) (listsKept_sendOrder ..)
        exact ⟨rfl, id, id, id⟩

theorem listsKept_parkStore (k : Nat) (x : ParkSum × State) : ListsKept x.2 (parkStore k x).2 :=
  (listsKept_setReq ..).trans (listsKept_sendOrder ..)

theorem listsKept_parkOne (views : List PoolView) (taken : SMap Nat) (x : ParkSum × State) (k : Nat) :
    ListsKept x.2 (parkOne views taken x k).2 := by
  unfold parkOne
  dsimp only
  refine .ite_snd (.refl x.2) (.ite_snd (listsKept_parkStore ..) (.ite_snd (.refl x.2) (.ite_snd ?_ (.ite_snd ?_ ?_))))
  · exact (listsKept_moveToHost ..).trans (listsKept_endReq ..)
  · exact (listsKept_moveToHost _ x.2).trans (listsKept_parkStore k (x.1, (moveToHost _ x.2).1))
  · exact listsKept_moveToHost ..

theorem listsKept_stepParks (views : List PoolView) (taken : SMap Nat) (n : Nat) (l : List (Nat × Req))
    (x : ParkSum × State) : ListsKept x.2 (stepParks views taken n l x).2 := by
  induction n generalizing l x with
  | zero => exact .refl x.2
  | succ n ih =>
    rw [stepParks]
    split
    · exact (listsKept_parkOne ..).trans (ih _ _)
    · exact .refl x.2

theorem listsKept_workOrder (s : State) (k : Nat) : ListsKept s (workOrder s k) := by
  unfold workOrder
  dsimp only
  split
  · exact .refl s
  · split
    · exact .refl s
    · exact .ite (listsKept_sendOrder ..) (.ite (listsKept_sendOrder ..) (.refl s))

theorem listsKept_dropOrders (s : State) : ListsKept s (dropOrders s) :=
  .trans (t := { s with serve := { s.serve with drops := [] } }) ⟨rfl, id, id, id⟩ (.foldl (fun _ _ => listsKept_sendOrder ..) _ _)

/-! ### The boundary -/

/-- The boundary up to the new requests. -/
def boundaryRequests (crops : List HandedCrop) (s : State) : State :=
  let s := stepReleases (stepReports s)
  let s := grammarsTurn (adaptersTurn (cfgsTurn s))
  stepCreate crops (stepCommands (stepDeadlines s))

/-- The boundary from admission on; `n` bounds the admissions. -/
def boundaryOrders (n : Nat) (views : List PoolView) (s : State) : State :=
  let s := formHeads (stepAdmit n s)
  let s := reshipOrders s
  let x := stepDispatch views s
  let u := x.2.urgent
  let x := stepPauses views u.length u x
  let l := x.2.parkable
  let y := stepParks views x.1 l.length l (x.2.parkSum, x.2)
  let s := dropOrders (y.2.reqKeys.foldl workOrder y.2)
  postTokens s

theorem serveBoundary_eq (crops : List HandedCrop) (views : List PoolView) (s : State) :
    serveBoundary crops views s = boundaryOrders 4096 views (boundaryRequests crops s) := rfl

theorem boundaryRequests_lists (crops : List HandedCrop) (s : State) :
    (boundaryRequests crops s).serve.stepNum = s.serve.stepNum ∧ (boundaryRequests crops s).serve.reports = [] ∧
      (boundaryRequests crops s).serve.cmds = [] ∧ (boundaryRequests crops s).roi.handed = [] := by
  unfold boundaryRequests
  extract_lets s₁ s₂
  obtain ⟨hreports, hnone⟩ := stepReports_lists s
  obtain ⟨hcommands, hidle⟩ := stepCommands_lists (stepDeadlines s₂)
  obtain ⟨hcreate, hempty⟩ := stepCreate_lists crops (stepCommands (stepDeadlines s₂))
  have h₁ : ListsKept (stepReports s) s₁ := listsKept_stepReleases _
  have h₂ : ListsKept s₁ s₂ := (listsKept_cfgsTurn s₁).trans ((listsKept_adaptersTurn _).trans (listsKept_grammarsTurn _))
  have hall := h₁.trans (h₂.trans ((listsKept_stepDeadlines s₂).trans (hcommands.trans hcreate)))
  exact ⟨hall.num.trans hreports.num, hall.reports hnone, hcreate.cmds hidle, hempty⟩

theorem listsKept_boundaryOrders (n : Nat) (views : List PoolView) (s : State) : ListsKept s (boundaryOrders n views s) := by
  unfold boundaryOrders
  extract_lets s₄ s₅ x₁ u x₂ l y s₆
  have h₄ : ListsKept s s₄ := (listsKept_stepAdmit n s).trans (listsKept_formHeads _)
  have h₅ : ListsKept s₄ s₅ := listsKept_reshipOrders s₄
  have h₆ : ListsKept s₅ x₁.2 := listsKept_stepDispatch views s₅
  have h₇ : ListsKept x₁.2 x₂.2 := listsKept_stepPauses views _ u x₁
  have h₈ : ListsKept x₂.2 y.2 := listsKept_stepParks views x₂.1 _ l (x₂.2.parkSum, x₂.2)
  have h₉ : ListsKept y.2 s₆ := (ListsKept.foldl listsKept_workOrder _ y.2).trans (listsKept_dropOrders _)
  exact h₄.trans (h₅.trans (h₆.trans (h₇.trans (h₈.trans (h₉.trans (listsKept_postTokens s₆))))))

theorem serveBoundary_lists (crops : List HandedCrop) (views : List PoolView) (s : State) :
    (serveBoundary crops views s).serve.stepNum = s.serve.stepNum ∧ (serveBoundary crops views s).serve.reports = [] ∧
      (serveBoundary crops views s).serve.cmds = [] ∧ (serveBoundary crops views s).roi.handed = [] := by
  rw [serveBoundary_eq]
  obtain ⟨hnum, hreports, hcmds, hhanded⟩ := boundaryRequests_lists crops s
  have h := listsKept_boundaryOrders 4096 views (boundaryRequests crops s)
  exact ⟨h.num.trans hnum, h.reports hreports, h.cmds hcmds, h.handed hhanded⟩

/-- A step boundary counts the step and empties the lists that it serves. -/
theorem completes_stepBoundary {crops : List HandedCrop} {views : List PoolView} {s : State} (hactive : s.weaveActive = true) :
    Completes (.stepBoundary crops views) s (fun t =>
      t.serve.stepNum = s.serve.stepNum + 1 ∧ t.serve.reports = [] ∧ t.serve.cmds = [] ∧ t.roi.handed = [] ∧
      Only (touched (.stepBoundary crops views)) s t) := by
  obtain ⟨u, hu⟩ : ∃ u : State, u = { s with serve := { s.serve with stepNum := s.serve.stepNum + 1 } } := ⟨_, rfl⟩
  have hexec : exec (.stepBoundary crops views) s = .next (serveBoundary crops views (applyFates u)) := by
    refine congrArg Host.Outcome.next ?_
    rw [stepBoundary, hactive, ← hu]
    rfl
  have hcount : u.serve.stepNum = s.serve.stepNum + 1 := by rw [hu]
  obtain ⟨hnum, hlists⟩ := serveBoundary_lists crops views (applyFates u)
  have hmoves : Moves (touched (.stepBoundary crops views)) s (serveBoundary crops views (applyFates u)) :=
    exec_moves (c := .stepBoundary crops views) hexec
  exact completes_of_next hexec ⟨hnum.trans ((listsKept_applyFates u).num.trans hcount), hlists.1, hlists.2.1, hlists.2.2,
    hmoves.only⟩

/-! ### The obligation -/

/-- Settles O26: each clause is the lemma on its command. A boundary empties each list where it serves it, and nothing after
that adds to one; a chunk's pages are distinct and lie outside its list; a cache that is sent ends with its END message,
which leaves last or waits last. -/
theorem orderCommandsComplete : Obligations.OrderCommandsComplete := by
  unfold Obligations.OrderCommandsComplete
  exact ⟨fun _ _ _ hactive => completes_stepBoundary hactive,
    fun _ _ _ _ hactive hok => exec_placeReport hactive hok,
    fun _ _ _ _ _ _ _ hs hactive hok hkind hplace hpl hctx hfirst hlen htokens hone hroom =>
      completes_orderChunk hs hactive hok hkind hplace hpl hctx hfirst hlen htokens hone hroom,
    fun _ _ _ _ _ _ _ _ _ _ _ _ _ hactive hrun hok hkind hplace hpl hready hgoing hstarted hsound hlatched =>
      completes_orderDecode hactive hrun hok hkind hplace hpl hready hgoing hstarted hsound hlatched,
    fun _ _ _ _ _ hactive hok hkind haway hctx hpages hunsent hverdict hroute =>
      completes_orderShip hctx hunsent hroute hactive hok hkind haway hpages hverdict,
    fun _ _ _ _ hactive hok hkind hctx hpages hmaking hone hroom =>
      completes_orderParkStore hactive hok hkind hctx hpages hmaking hone hroom,
    fun _ _ _ _ _ hactive hok hkind hctx hcopy hunsent hroute =>
      completes_orderParkHost hctx hunsent hroute hactive hok hkind hcopy,
    fun _ _ _ _ _ _ _ hactive hok hkind haway howner hctx hcopy hunsent hverdict hroute =>
      completes_orderUnpark hctx hunsent hroute hactive hok hkind haway howner hcopy hverdict,
    fun _ _ _ hactive hok hkind => completes_orderDrop hactive hok hkind⟩

end Sys2Proof.Machine
end

section
/-!
PROOFS. Descriptors.lean: how a descriptor leaves: its entry in the completion ring, or its answer to another anchor (R73, R75,
R77, R78), and the work that leads there.
-/

namespace Sys2Proof.Machine

/-! ### Ring pairs -/

/-- The words that a completion entry is written by. -/
def RingWord (off : Nat) : Prop :=
  ∃ i : Fin 64, off = Reg.hostRingCfg i.val ∨ off = Reg.hostRingCqLo i.val ∨ off = Reg.hostRingCqHi i.val

/-- No ERR register stands among them. -/
theorem not_ringWord_errReg {c : Code} {r : Nat} (h : errReg c 0 = some r) : ¬RingWord r := by
  rintro ⟨⟨i, hi⟩, hr⟩
  unfold errReg at h
  split at h <;> cases h <;>
    simp only [Reg.hostRingCfg, Reg.hostRingCqLo, Reg.hostRingCqHi, Reg.fuseErr, Reg.bootErr, Reg.hostErr, Reg.withyErr,
      Reg.winErr, Reg.pixErr, Reg.fieldErr, Reg.roiErr, Reg.wfeErr, Reg.coreSpErr, Reg.coreErr, Reg.plaitErr, Reg.serveErr,
      Reg.faultErr, Reg.thermErr, Reg.idErr, Reg.clkErr, Reg.timeErr, Reg.pwrErr] at hr <;>
    (try split at hr) <;> omega

/-- Two states agree on the ring pairs and on what their entries say. -/
structure RingsAlike (s t : State) : Prop where
  wf : smWf resetVal t.regs = true
  rising : Rising t.host.rings
  rings : t.host.rings = s.host.rings
  time : t.time = s.time
  power : t.power = s.power
  words : ∀ off, RingWord off → t.reg off = s.reg off

namespace RingsAlike

variable {s t u : State}

theorem refl (hs : Canon s) : RingsAlike s s := ⟨hs.regs, hs.rings, rfl, rfl, rfl, fun _ _ => rfl⟩

/-- Steps that touch neither the registers nor the host part, time and power. -/
theorem of_only {ps : List Part} (h : RingsAlike s t) (hm : Only ps t u)
    (hout : Part.regs ∉ ps ∧ Part.host ∉ ps ∧ Part.time ∉ ps ∧ Part.power ∉ ps) : RingsAlike s u := by
  obtain ⟨hregs, hhost, htime, hpower⟩ := hout
  have hr : u.regs = t.regs := (hm.2 .regs hregs).1
  have hh : u.host = t.host := hm.2 .host hhost
  exact ⟨by rw [hr]; exact h.wf, by rw [hh]; exact h.rising, (congrArg _ hh).trans h.rings,
    (hm.2 .time htime).trans h.time, (hm.2 .power hpower).trans h.power,
    fun off hoff => (reg_eq_of_regs_eq hr off).trans (h.words off hoff)⟩

theorem of_moves {ps : List Part} (h : RingsAlike s t) (hm : Moves ps t u)
    (hout : Part.regs ∉ ps ∧ Part.host ∉ ps ∧ Part.time ∉ ps ∧ Part.power ∉ ps) : RingsAlike s u := h.of_only hm.only hout

/-- A state with the same registers, ring pairs, time and power. -/
theorem congr (h : RingsAlike s t) (hregs : u.regs = t.regs) (hrings : u.host.rings = t.host.rings) (htime : u.time = t.time)
    (hpower : u.power = t.power) : RingsAlike s u :=
  ⟨by rw [hregs]; exact h.wf, by rw [hrings]; exact h.rising, hrings.trans h.rings, htime.trans h.time, hpower.trans h.power,
    fun off hoff => (reg_eq_of_regs_eq hregs off).trans (h.words off hoff)⟩

theorem latch (h : RingsAlike s t) (c : Code) : RingsAlike s (latch c 0 t) := by
  have hm : RegMoves ((errReg c 0).toList) t (Machine.latch c 0 t) :=
    (RegMoves.refl _ h.wf).latch c 0 (fun r hr => by rw [hr]; simp)
  refine ⟨hm.wf, by rw [latch_host]; exact h.rising, by rw [latch_host]; exact h.rings, by rw [latch_time]; exact h.time,
    by rw [latch_power]; exact h.power, fun off hoff => (hm.only off ?_).trans (h.words off hoff)⟩
  cases hr : errReg c 0 with
  | none => simp
  | some r =>
    rw [Option.toList_some, List.mem_singleton]
    rintro rfl
    exact not_ringWord_errReg hr hoff

theorem cqSize (h : RingsAlike s t) (i : Fin 64) : t.cqSize i.val = s.cqSize i.val := by
  rw [State.cqSize, State.fld, h.words _ ⟨i, .inl rfl⟩, State.cqSize, State.fld]

theorem cqAddr (h : RingsAlike s t) (i : Fin 64) : t.pair (Reg.hostRingCqLo i.val) (Reg.hostRingCqHi i.val) =
    s.pair (Reg.hostRingCqLo i.val) (Reg.hostRingCqHi i.val) :=
  pair_congr (h.words _ ⟨i, .inr (.inl rfl)⟩) (h.words _ ⟨i, .inr (.inr rfl)⟩)

theorem ring (h : RingsAlike s t) (i : Nat) : t.ring i = s.ring i := by rw [State.ring, h.rings, State.ring]

theorem descEntry (h : RingsAlike s t) (f : Flight) (i : Nat) (status : Code) (result : Word) :
    descEntry t f i status result = Machine.descEntry s f i status result := by
  simp only [Machine.descEntry, State.pkg, State.nowNs, h.time, h.power]

end RingsAlike

/-! ### An entry in a completion ring (R73, R78) -/

theorem ring_setRing {s : State} (h : Rising s.host.rings) (i : Nat) (r : Ring) : (s.setRing i r).ring i = r :=
  smGet_smSet_rising h

theorem fireVector_rings (v : Nat) (s : State) : (fireVector v s).host.rings = s.host.rings ∧
    (fireVector v s).host.flights = s.host.flights := by
  unfold fireVector
  split <;> exact ⟨rfl, rfl⟩

/-- An entry stands at the write position, which moves on by one. -/
theorem cqPut_writes {s : State} (h : Rising s.host.rings) (i : Nat) (body : BitVec 256) (irq : Bool) :
    ((cqPut i body irq s).ring i).write = posNext (s.cqSize i) (s.ring i).write ∧
    Out.hostWrite (BitVec.ofNat 64 (s.pair (Reg.hostRingCqLo i) (Reg.hostRingCqHi i) + 32 * bits (s.ring i).write 0 16))
      (leBytes 32 (body ||| (if (s.ring i).phase then BitVec.ofNat 256 (2 ^ 24) else 0)).toNat) ∈ (cqPut i body irq s).out ∧
    (cqPut i body irq s).host.flights = s.host.flights := by
  unfold cqPut
  extract_lets r size entry addr wrapped n fire r' s'
  have hring : (s'.ring i).write = posNext size r.write := congrArg Ring.write (ring_setRing h i r')
  have hout : Out.hostWrite (BitVec.ofNat 64 addr) (leBytes 32 entry.toNat) ∈ s'.out :=
    List.mem_append_right _ (List.mem_singleton_self _)
  split
  · obtain ⟨hrings, hflights⟩ := fireVector_rings i s'
    refine ⟨?_, (outGrows_fireVector i s').mem hout, hflights⟩
    rw [State.ring, hrings]
    exact hring
  · exact ⟨hring, hout, rfl⟩

theorem drainCheck_write {s : State} (h : Rising s.host.rings) (i : Nat) :
    ((drainCheck i s).ring i).write = (s.ring i).write ∧ (drainCheck i s).out = s.out ∧
    (drainCheck i s).host.flights = s.host.flights := by
  unfold drainCheck
  split
  · exact ⟨by rw [ring_setRing h], rfl, rfl⟩
  · exact ⟨rfl, rfl, rfl⟩

theorem cqPut_rising {s : State} (h : Rising s.host.rings) (i : Nat) (body : BitVec 256) (irq : Bool) :
    Rising (cqPut i body irq s).host.rings := by
  unfold cqPut
  extract_lets r size entry addr wrapped n fire r' s'
  have hs : Rising s'.host.rings := smSet_rising i r' h
  split
  · rw [(fireVector_rings i s').1]
    exact hs
  · exact hs

/-! ### The end of a descriptor (R75, R77, R78) -/

theorem flight_filter_self (id : Nat) (l : List Flight) :
    (l.filter (fun g => g.id != id)).find? (fun f => f.id == id) = none := by
  rw [List.find?_eq_none]
  intro f hf
  simpa using (List.mem_filter.1 hf).2

/-- A state without a descriptor. -/
def departed (f : Flight) (s : State) : State :=
  { s with host := { s.host with flights := s.host.flights.filter (fun g => g.id != f.id) } }

theorem departed_frame (f : Flight) (s : State) : Moves [.host] s (departed f s) :=
  Moves.updHost (.refl ..) (by simp) id

theorem flight_departed (f : Flight) (s : State) : (departed f s).flight f.id = none := flight_filter_self ..

section Finish

variable {f : Flight} (status : Code) (result : Word) (s : State)

theorem finishFlight_ring {i : Fin 64} (h : f.origin = .ring i) : finishFlight f status result s =
    drainCheck i.val (cqPut i.val (descEntry (latch status 0 s) f i.val status result) (dIrq f.desc)
      (departed f (latch status 0 s))) := by
  simp only [finishFlight, h]
  rfl

theorem finishFlight_anchor {p : BitVec 6} {num : Nat} (h : f.origin = .anchor p num) : finishFlight f status result s =
    (departed f (latch status 0 s)).emit (.fwdAnswer p num (.done status result)) := by
  simp only [finishFlight, h]
  rfl

end Finish

/-- A descriptor that leaves has its entry, or its answer. -/
theorem descDone_finishFlight {s t : State} (h : RingsAlike s t) (f : Flight) (status : Code) (result : Word) :
    DescDone f status result s (finishFlight f status result t) := by
  have hl := h.latch status
  have hgone := flight_departed f (latch status 0 t)
  have halike : RingsAlike s (departed f (latch status 0 t)) := hl.congr rfl rfl rfl rfl
  cases horigin : f.origin with
  | ring i =>
    rw [finishFlight_ring _ _ _ horigin, hl.descEntry]
    generalize departed f (latch status 0 t) = v at hgone halike
    obtain ⟨hwrite, hout, hflights⟩ := cqPut_writes halike.rising i.val (descEntry s f i.val status result) (dIrq f.desc)
    have hrising := cqPut_rising halike.rising i.val (descEntry s f i.val status result) (dIrq f.desc)
    generalize cqPut i.val (descEntry s f i.val status result) (dIrq f.desc) v = w at hwrite hout hflights hrising
    obtain ⟨hring, hkeep, hsame⟩ := drainCheck_write hrising i.val
    rw [halike.cqSize, halike.ring] at hwrite
    rw [halike.cqAddr, halike.ring] at hout
    simp only [DescDone, horigin]
    refine ⟨?_, hring.trans hwrite, by rw [hkeep]; exact hout⟩
    rw [State.flight, hsame, hflights]
    exact hgone
  | anchor p num =>
    rw [finishFlight_anchor _ _ _ horigin]
    simp only [DescDone, horigin]
    exact ⟨hgone, List.mem_append_right _ (List.mem_singleton_self _)⟩

/-- A descriptor that signals no knot ends with its entry alone. -/
theorem completeFlight_unsigned {f : Flight} (h : dSigEn f.desc = false) (status : Code) (result : Word) (s : State) :
    completeFlight f status result s = finishFlight f status result s := by
  simp [completeFlight, h]

/-- Status 0x0000 reaches no ERR register. -/
theorem finishFlight_zero_frame (f : Flight) (result : Word) (s : State) :
    Moves [.out, .host] s (finishFlight f 0 result s) := by
  have hzero : latch 0 0 s = s := rfl
  have hgone : Moves [.out, .host] s (departed f s) := Moves.updHost (.refl ..) (by simp) id
  cases horigin : f.origin with
  | ring i =>
    rw [finishFlight_ring _ _ _ horigin, hzero]
    exact drainCheck_only _ _ (cqPut_only _ _ _ _ hgone (by simp)) (by simp)
  | anchor p num =>
    rw [finishFlight_anchor _ _ _ horigin, hzero]
    exact State_emit_only _ _ hgone (by simp)

theorem outGrows_finishFlight (f : Flight) (status : Code) (result : Word) (s : State) :
    OutGrows s (finishFlight f status result s) := by
  have hgone : OutGrows s (departed f (latch status 0 s)) := .of_eq (latch_out ..)
  cases horigin : f.origin with
  | ring i =>
    rw [finishFlight_ring _ _ _ horigin]
    exact (hgone.trans (outGrows_cqPut ..)).trans (.of_eq ((drainCheck_only _ _ (.refl [.host] _) (by simp)).only.2 .out (by decide)))
  | anchor p num =>
    rw [finishFlight_anchor _ _ _ horigin]
    exact hgone.trans (.emit _ _)

/-! ### The work of a started descriptor -/

theorem doWork_started {f : Flight} {op : Nat} {s : State} (h : Started f op s) (k : Flight → State → State) :
    doWork op f.id k s = k f s := by
  obtain ⟨hflight, hst, hop, -⟩ := h
  simp [doWork, hflight, hst, hop]

/-- Writes to host memory leave at once on an anchor, and the descriptor ends. -/
theorem endAfterWrites_anchor {f : Flight} {s : State} (hanchor : s.anchor = true) (hbme : s.host.bme = true) (addr : Nat)
    (bytes : List Byte) (result : Word) : endAfterWrites f [(addr, bytes)] result s =
      completeFlight f 0 result (s.emit (.hostWrite (BitVec.ofNat 64 addr) bytes)) := by
  simp only [endAfterWrites, hanchor, if_true, List.foldl_cons, List.foldl_nil, hostPut_anchor hanchor hbme]

/-- A descriptor whose work writes one buffer to host memory: its entry follows, and the buffer is out. -/
theorem written_endAfterWrites {f : Flight} {s : State} (hs : Canon s) (hsig : dSigEn f.desc = false)
    (hanchor : s.anchor = true) (hbme : s.host.bme = true) (addr : Nat) (bytes : List Byte) (result : Word) :
    DescDone f 0 result s (endAfterWrites f [(addr, bytes)] result s) ∧
      Out.hostWrite (BitVec.ofNat 64 addr) bytes ∈ (endAfterWrites f [(addr, bytes)] result s).out ∧
      Only [.out, .host] s (endAfterWrites f [(addr, bytes)] result s) := by
  have hput : Moves [.out] s (s.emit (.hostWrite (BitVec.ofNat 64 addr) bytes)) := State_emit_only _ _ (.refl ..) (by simp)
  rw [endAfterWrites_anchor hanchor hbme, completeFlight_unsigned hsig]
  exact ⟨descDone_finishFlight ((RingsAlike.refl hs).of_moves hput (by decide)) f 0 result,
    (outGrows_finishFlight ..).mem (List.mem_append_right _ (List.mem_singleton_self _)),
    (hput.only.mono (by simp)).trans (finishFlight_zero_frame ..).only⟩

/-- A descriptor whose work changes nothing that an entry says. -/
theorem done_completeFlight {f : Flight} {s t : State} {ps : List Part} (hs : Canon s) (hsig : dSigEn f.desc = false)
    (hmoves : Moves ps s t) (hps : Part.regs ∉ ps ∧ Part.host ∉ ps ∧ Part.time ∉ ps ∧ Part.power ∉ ps) (result : Word) :
    DescDone f 0 result s (completeFlight f 0 result t) ∧ Moves [.out, .host] t (completeFlight f 0 result t) := by
  rw [completeFlight_unsigned hsig]
  exact ⟨descDone_finishFlight ((RingsAlike.refl hs).of_moves hmoves hps) f 0 result, finishFlight_zero_frame ..⟩

end Sys2Proof.Machine
end

section
/-!
PROOFS. Opcodes.lean: the opcodes of 04_host, waiting entries, knots and the record ring (R74, R80 to R88, R286).
-/

namespace Sys2Proof.Machine

/-! ### What a completion leaves of the host attachment -/

/-- What entries and vectors change of a host attachment. -/
structure EntryChange (x y : HostState) : Prop where
  mirrors : y.mirrors = x.mirrors
  dirty : y.dirty = x.dirty
  records : y.records = x.records
  waiting : y.waiting = x.waiting
  bme : y.bme = x.bme
  recPos : y.recPos = x.recPos

theorem EntryChange.trans {x y z : HostState} (h : EntryChange x y) (h' : EntryChange y z) : EntryChange x z :=
  ⟨h'.mirrors.trans h.mirrors, h'.dirty.trans h.dirty, h'.records.trans h.records, h'.waiting.trans h.waiting,
    h'.bme.trans h.bme, h'.recPos.trans h.recPos⟩

theorem entryChange_fireVector (v : Nat) (s : State) : EntryChange s.host (fireVector v s).host := by
  unfold fireVector
  split <;> exact ⟨rfl, rfl, rfl, rfl, rfl, rfl⟩

theorem entryChange_cqPut (i : Nat) (body : BitVec 256) (irq : Bool) (s : State) :
    EntryChange s.host (cqPut i body irq s).host := by
  unfold cqPut
  extract_lets r size entry addr wrapped n fire r' s'
  have hs : EntryChange s.host s'.host := ⟨rfl, rfl, rfl, rfl, rfl, rfl⟩
  split
  · exact hs.trans (entryChange_fireVector i s')
  · exact hs

theorem entryChange_drainCheck (i : Nat) (s : State) : EntryChange s.host (drainCheck i s).host := by
  unfold drainCheck
  split <;> exact ⟨rfl, rfl, rfl, rfl, rfl, rfl⟩

theorem entryChange_finishFlight (f : Flight) (status : Code) (result : Word) (s : State) :
    EntryChange s.host (finishFlight f status result s).host := by
  have hgone : EntryChange s.host (departed f (latch status 0 s)).host := by
    rw [departed, latch_host]
    exact ⟨rfl, rfl, rfl, rfl, rfl, rfl⟩
  cases horigin : f.origin with
  | ring i =>
    rw [finishFlight_ring _ _ _ horigin]
    exact hgone.trans ((entryChange_cqPut ..).trans (entryChange_drainCheck ..))
  | anchor p num =>
    rw [finishFlight_anchor _ _ _ horigin]
    exact hgone

/-! ### Buffers and knots -/

section Opcodes

variable {f : Flight} {s : State} (hs : Canon s)

include hs

theorem completes_nop (hf : Started f 0x00 s) :
    Completes (.nop f.id) s (fun t => DescDone f 0 0 s t ∧ Only [.out, .host] s t) := by
  have hexec : exec (.nop f.id) s = .next (completeFlight f 0 0 s) :=
    congrArg Host.Outcome.next (doWork_started hf _)
  obtain ⟨hdone, hmoves⟩ := done_completeFlight hs hf.2.2.2 (.refl [] s) (by decide) 0
  exact completes_of_next hexec ⟨hdone, hmoves.only⟩

theorem completes_identity (hf : Started f 0x01 s) (hanchor : s.anchor = true) (hbme : s.host.bme = true) :
    Completes (.identity f.id) s (fun t => DescDone f 0 0 s t ∧
      Out.hostWrite (BitVec.ofNat 64 (dAddr f.desc)) (identityBytes s) ∈ t.out ∧ Only [.out, .host] s t) :=
  completes_of_next (congrArg Host.Outcome.next (doWork_started hf _))
    (written_endAfterWrites hs hf.2.2.2 hanchor hbme _ _ 0)

theorem completes_status (hf : Started f 0x02 s) (hanchor : s.anchor = true) (hbme : s.host.bme = true) :
    Completes (.status f.id) s (fun t => DescDone f 0 0 s t ∧
      Out.hostWrite (BitVec.ofNat 64 (dAddr f.desc)) (statusBytes s) ∈ t.out ∧ Only [.out, .host] s t) :=
  completes_of_next (congrArg Host.Outcome.next (doWork_started hf _))
    (written_endAfterWrites hs hf.2.2.2 hanchor hbme _ _ 0)

theorem completes_selftest (hf : Started f 0x03 s) (hanchor : s.anchor = true) (hbme : s.host.bme = true) :
    Completes (.selftest f.id) s (fun t => DescDone f 0 0 s t ∧
      Out.hostWrite (BitVec.ofNat 64 (dAddr f.desc)) (selftestBytes s) ∈ t.out ∧ Only [.out, .host] s t) :=
  completes_of_next (congrArg Host.Outcome.next (doWork_started hf _))
    (written_endAfterWrites hs hf.2.2.2 hanchor hbme _ _ 0)

/-- A knot that is set: the descriptors that wait on it may go on. -/
theorem completes_knotSet (hf : Started f 0x10 s) (hrun : s.weave.run = none) :
    Completes (.knotSet f.id) s (fun t => DescDone f 0 0 s t ∧
      t.knot (bits f.desc 256 17) = BitVec.ofNat 32 (descNum f.desc 36 4) ∧
      (∀ k, k ≠ bits f.desc 256 17 → t.knot k = s.knot k) ∧ Only [.out, .host, .knots] s t) := by
  obtain ⟨u, hu⟩ : ∃ u, u = setKnot (bits f.desc 256 17) (BitVec.ofNat 32 (descNum f.desc 36 4)) s := ⟨_, rfl⟩
  obtain ⟨v, hv⟩ : ∃ v : State, v = { u with host := { u.host with
    flights := readyFlights (bits f.desc 256 17) (BitVec.ofNat 32 (descNum f.desc 36 4)) u.host.flights } } := ⟨_, rfl⟩
  have hidle : s.weaveRuns = false := by simp [State.weaveRuns, hrun]
  have hexec : exec (.knotSet f.id) s = .next (completeFlight f 0 0 v) := by
    refine congrArg Host.Outcome.next ((doWork_started hf knotSet).trans ?_)
    rw [hv, hu, knotSet, hidle]
    rfl
  have hknots : v.knots = smSet 0 s.knots (bits f.desc 256 17) (BitVec.ofNat 32 (descNum f.desc 36 4)) := by
    rw [hv, hu]
    exact setKnot_knots ..
  have hmoves := setKnot_only (bits f.desc 256 17) (BitVec.ofNat 32 (descNum f.desc 36 4)) s (.refl [.host, .knots] s) (by simp)
  rw [← hu] at hmoves
  have honly : Only [.host, .knots] s v := hmoves.only.trans (by rw [hv]; exact only_iff.2 (by simp))
  have halike : RingsAlike s v := by
    have hrings : u.host.rings = s.host.rings := by
      rw [hu, setKnot]
      dsimp only
      split <;> rfl
    exact (RingsAlike.refl hs).congr (honly.2 .regs (by decide)).1 (by rw [hv]; exact hrings) (honly.2 .time (by decide))
      (honly.2 .power (by decide))
  have hend := finishFlight_zero_frame f 0 v
  rw [completeFlight_unsigned hf.2.2.2] at hexec
  have hsame : (finishFlight f 0 0 v).knots = v.knots := hend.only.2 .knots (by decide)
  refine completes_of_next hexec ⟨descDone_finishFlight halike f 0 0, ?_, fun k hk => ?_,
    (honly.mono (by simp)).trans (hend.only.mono (by simp))⟩
  · rw [State.knot, hsame, hknots]
    exact smGet_smSet hs.knots
  · rw [State.knot, hsame, hknots]
    exact smGet_smSet_ne hs.knots hk

theorem completes_knotRead (hf : Started f 0x11 s) :
    Completes (.knotRead f.id) s (fun t => DescDone f 0 (s.knot (bits f.desc 256 17)) s t ∧ Only [.out, .host] s t) := by
  have hexec : exec (.knotRead f.id) s = .next (completeFlight f 0 (s.knot (bits f.desc 256 17)) s) :=
    congrArg Host.Outcome.next (doWork_started hf _)
  obtain ⟨hdone, hmoves⟩ := done_completeFlight hs hf.2.2.2 (.refl [] s) (by decide) (s.knot (bits f.desc 256 17))
  exact completes_of_next hexec ⟨hdone, hmoves.only⟩

/-! ### Mirrors (R85) -/

/-- Page `n` of the knots is bound to a host page, or to none. -/
def bindPage (n : Nat) (a : Option (BitVec 64)) (s : State) : State :=
  { s with host := { s.host with mirrors := smSet none s.host.mirrors n a, dirty := s.host.dirty.filter (fun k => k / 1024 != n) } }

omit hs in
theorem bindPage_frame (n : Nat) (a : Option (BitVec 64)) : Moves [.host] s (bindPage n a s) :=
  Moves.updHost (.refl ..) (by simp) id

theorem completes_mirror_bind (hf : Started f 0x12 s) (henable : f.desc.getLsbD 264 = true) (hanchor : s.anchor = true)
    (hbme : s.host.bme = true) :
    Completes (.mirror f.id) s (fun t => DescDone f 0 0 s t ∧
      t.host.mirrors = smSet none s.host.mirrors (descNum f.desc 32 1) (some (BitVec.ofNat 64 (dAddr f.desc))) ∧
      Out.hostWrite (BitVec.ofNat 64 (dAddr f.desc)) (knotPage (descNum f.desc 32 1) s) ∈ t.out ∧
      Only [.out, .host] s t) := by
  obtain ⟨u, hu⟩ : ∃ u, u = bindPage (descNum f.desc 32 1) (some (BitVec.ofNat 64 (dAddr f.desc))) s := ⟨_, rfl⟩
  have hexec : exec (.mirror f.id) s =
      .next (endAfterWrites f [(dAddr f.desc, knotPage (descNum f.desc 32 1) s)] 0 u) := by
    refine congrArg Host.Outcome.next ((doWork_started hf mirror).trans ?_)
    rw [hu, mirror, henable]
    rfl
  have hbind := bindPage_frame (s := s) (descNum f.desc 32 1) (some (BitVec.ofNat 64 (dAddr f.desc)))
  have hmirrors : u.host.mirrors = smSet none s.host.mirrors (descNum f.desc 32 1) (some (BitVec.ofNat 64 (dAddr f.desc))) := by
    rw [hu, bindPage]
  have halike : RingsAlike s u := by
    rw [hu]
    exact (RingsAlike.refl hs).congr rfl rfl rfl rfl
  rw [← hu] at hbind
  rw [endAfterWrites_anchor (by rw [hu]; exact hanchor) (by rw [hu]; exact hbme), completeFlight_unsigned hf.2.2.2] at hexec
  have hput : Moves [.out] u (u.emit (.hostWrite (BitVec.ofNat 64 (dAddr f.desc)) (knotPage (descNum f.desc 32 1) s))) :=
    State_emit_only _ _ (.refl ..) (by simp)
  have hkeep := entryChange_finishFlight f 0 0 (u.emit (.hostWrite (BitVec.ofNat 64 (dAddr f.desc)) (knotPage (descNum f.desc 32 1) s)))
  exact completes_of_next hexec ⟨descDone_finishFlight (halike.of_moves hput (by decide)) f 0 0,
    hkeep.mirrors.trans hmirrors, (outGrows_finishFlight ..).mem (List.mem_append_right _ (List.mem_singleton_self _)),
    (hbind.only.mono (by simp)).trans ((hput.only.mono (by simp)).trans (finishFlight_zero_frame ..).only)⟩

theorem completes_mirror_free (hf : Started f 0x12 s) (hdisable : f.desc.getLsbD 264 = false) :
    Completes (.mirror f.id) s (fun t => DescDone f 0 0 s t ∧
      t.host.mirrors = smSet none s.host.mirrors (descNum f.desc 32 1) none ∧ Only [.out, .host] s t) := by
  obtain ⟨u, hu⟩ : ∃ u, u = bindPage (descNum f.desc 32 1) none s := ⟨_, rfl⟩
  have hexec : exec (.mirror f.id) s = .next (completeFlight f 0 0 u) := by
    refine congrArg Host.Outcome.next ((doWork_started hf mirror).trans ?_)
    rw [hu, mirror, hdisable]
    rfl
  have hbind := bindPage_frame (s := s) (descNum f.desc 32 1) none
  have hmirrors : u.host.mirrors = smSet none s.host.mirrors (descNum f.desc 32 1) none := by rw [hu, bindPage]
  have halike : RingsAlike s u := by
    rw [hu]
    exact (RingsAlike.refl hs).congr rfl rfl rfl rfl
  rw [← hu] at hbind
  rw [completeFlight_unsigned hf.2.2.2] at hexec
  exact completes_of_next hexec ⟨descDone_finishFlight halike f 0 0, (entryChange_finishFlight ..).mirrors.trans hmirrors,
    (hbind.only.mono (by simp)).trans (finishFlight_zero_frame ..).only⟩

end Opcodes

section Stake

variable {f : Flight} {s : State}

theorem homeAnchor_congr {t : State} (hbasket : t.basket = s.basket) (hweave : t.weave = s.weave) (p : BitVec 6) :
    t.homeAnchor p = s.homeAnchor p := by
  unfold State.homeAnchor
  rw [hbasket, hweave]

/-- On a stake the buffer goes to the home anchor, and the descriptor waits for the responses (R68). -/
theorem waitsForWrites_endAfterWrites {t : State} (hflight : t.flight f.id = some f) (hmoves : Only [.host] s t)
    (hstake : s.anchor = false) (hroute : s.route (s.homeAnchor s.pkg) ≠ 5) (addr : Nat) (bytes : List Byte) :
    WaitsForWrites f s (endAfterWrites f [(addr, bytes)] 0 t) := by
  have hpower : t.power = s.power := hmoves.2 .power (by decide)
  have hanchor : t.anchor = false := by rw [State.anchor, hpower]; exact hstake
  have hpkg : t.pkg = s.pkg := by rw [State.pkg, hpower, State.pkg]
  have hhome : t.homeAnchor t.pkg = s.homeAnchor s.pkg := by
    rw [hpkg]
    exact homeAnchor_congr (hmoves.2 .basket (by decide)) (hmoves.2 .weave (by decide)) _
  have hroute' : t.route (t.homeAnchor t.pkg) ≠ 5 := by
    rw [hhome, (RoutesKept.mk hpower (hmoves.2 .weave (by decide)) (congrArg _ (hmoves.2 .basket (by decide)))).route]
    exact hroute
  have hput := hostPut_only (BitVec.ofNat 64 addr) bytes t (.refl [.regs, .out, .basket] t) (by simp)
  have heq : endAfterWrites f [(addr, bytes)] 0 t = setFlight f.id (.waitRsp
      (seqsBetween t.basket.looseSeq (hostPut (BitVec.ofNat 64 addr) bytes t).basket.looseSeq) 0 0
      (hostPut (BitVec.ofNat 64 addr) bytes t).upNs) (hostPut (BitVec.ofNat 64 addr) bytes t) := by
    simp only [endAfterWrites, hanchor, Bool.false_eq_true, if_false, List.isEmpty_cons, hroute', List.foldl_cons, List.foldl_nil]
  rw [heq]
  generalize hostPut (BitVec.ofNat 64 addr) bytes t = u at hput
  have hup : u.upNs = s.upNs := by
    rw [State.upNs, hput.only.2 .time (by decide), hmoves.2 .time (by decide), State.upNs]
  have hflight' : u.flight f.id = some f := by
    rw [State.flight, hput.only.2 .host (by decide)]
    exact hflight
  rw [hup]
  refine ⟨⟨_, flight_setFlight hflight' _⟩, (hmoves.mono (by simp)).trans ((hput.only.mono (by simp)).trans ?_)⟩
  exact only_iff.2 (by simp [setFlight])

/-- The opcodes with a buffer, on a stake. -/
theorem completes_stakeOpcodes (hstake : s.anchor = false) (hroute : s.route (s.homeAnchor s.pkg) ≠ 5) :
    (Started f 0x01 s → Completes (.identity f.id) s (WaitsForWrites f s)) ∧
    (Started f 0x02 s → Completes (.status f.id) s (WaitsForWrites f s)) ∧
    (Started f 0x03 s → Completes (.selftest f.id) s (WaitsForWrites f s)) ∧
    (Started f 0x12 s → f.desc.getLsbD 264 = true → Completes (.mirror f.id) s (WaitsForWrites f s)) := by
  have hself : Only [.host] s s := (Moves.refl [.host] s).only
  have hwait (hflight : s.flight f.id = some f) (bytes : List Byte) :=
    waitsForWrites_endAfterWrites hflight hself hstake hroute (dAddr f.desc) bytes
  refine ⟨fun hf => completes_of_next (congrArg Host.Outcome.next (doWork_started hf _)) (hwait hf.1 (identityBytes s)),
    fun hf => completes_of_next (congrArg Host.Outcome.next (doWork_started hf _)) (hwait hf.1 (statusBytes s)),
    fun hf => completes_of_next (congrArg Host.Outcome.next (doWork_started hf _)) (hwait hf.1 (selftestBytes s)), fun hf henable => ?_⟩
  have hexec : exec (.mirror f.id) s = .next (endAfterWrites f [(dAddr f.desc, knotPage (descNum f.desc 32 1) s)] 0
      (bindPage (descNum f.desc 32 1) (some (BitVec.ofNat 64 (dAddr f.desc))) s)) := by
    refine congrArg Host.Outcome.next ((doWork_started hf mirror).trans ?_)
    rw [mirror, henable]
    rfl
  have hflight : (bindPage (descNum f.desc 32 1) (some (BitVec.ofNat 64 (dAddr f.desc))) s).flight f.id = some f := by
    rw [State.flight, bindPage]
    exact hf.1
  have hbind := (bindPage_frame (s := s) (descNum f.desc 32 1) (some (BitVec.ofNat 64 (dAddr f.desc)))).only
  generalize bindPage (descNum f.desc 32 1) (some (BitVec.ofNat 64 (dAddr f.desc))) s = u at hexec hflight hbind
  exact completes_of_next hexec (waitsForWrites_endAfterWrites hflight hbind hstake hroute _ _)

end Stake

/-! ### Waiting entries and held events (R80, R81) -/

/-- The first waiting entry that fits is written. -/
theorem completes_deferredEntryPost {w : Waiting} {l : List Waiting} {s : State} (hs : Canon s) (hanchor : s.anchor = true)
    (htake : takeWaiting s s.host.waiting = some (w, l)) :
    Completes .deferredEntryPost s (fun t =>
      t.host.waiting = l ∧ (t.ring (waitRing s w)).write = posNext (s.cqSize (waitRing s w)) (s.ring (waitRing s w)).write ∧
      Only [.out, .host] s t) := by
  obtain ⟨u, hu⟩ : ∃ u : State, u = { s with host := { s.host with waiting := l } } := ⟨_, rfl⟩
  have hexec : exec .deferredEntryPost s = .next (cqPut (waitRing s w) (waitBody w) false u) := by
    refine congrArg Host.Outcome.next ?_
    rw [deferredEntryPost, if_pos hanchor, postWaiting, htake, hu]
  have hstart : Only [.host] s u := by rw [hu]; exact only_iff.2 (by simp)
  have hrings : u.host.rings = s.host.rings := by rw [hu]
  have hwaiting : u.host.waiting = l := by rw [hu]
  have hsize : u.cqSize (waitRing s w) = s.cqSize (waitRing s w) := by
    rw [State.cqSize, fld_eq_of_regs_eq (hstart.2 .regs (by decide)).1, State.cqSize]
  obtain ⟨hwrite, -, -⟩ := cqPut_writes (s := u) (by rw [hrings]; exact hs.rings) (waitRing s w) (waitBody w) false
  have hframe := cqPut_only (waitRing s w) (waitBody w) false u (.refl [.out, .host] u) (by simp)
  rw [hsize, State.ring, State.ring, hrings] at hwrite
  exact completes_of_next hexec ⟨(entryChange_cqPut ..).waiting.trans hwaiting, hwrite,
    (hstart.mono (by simp)).trans hframe.only⟩

/-- A message on its way is on its way from any state with the same routes and ports. -/
theorem sent_congr {m : Loose} {s s' t : State} (h : Sent m s t) (hs : Only [.host] s' s) : Sent m s' t := by
  have hbasket : s.basket = s'.basket := hs.2 .basket (by decide)
  have hroutes : RoutesKept s' s :=
    ⟨hs.2 .power (by decide), hs.2 .weave (by decide), congrArg _ hbasket⟩
  have hport (p : Port) : s.port p = s'.port p := by
    cases p <;> simp only [State.port, hbasket]
  have hway : s.looseWay m = s'.looseWay m := by
    refine looseWay_congr (fun d => hroutes.route d) hport (fun d => ?_) (by rw [hbasket]) ?_ m
    · unfold State.dateline
      rw [hs.2 .weave (by decide)]
    · rw [State.cryptMode, fld_eq_of_regs_eq (hs.2 .regs (by decide)).1, State.cryptMode]
  obtain ⟨hseq, hlocal, haway⟩ := h
  refine ⟨by rw [hseq, hbasket], fun hr => ?_, fun hr hempty => ?_⟩
  · rw [← hbasket, ← hs.2 .out (by decide)]
    exact hlocal (by rw [hroutes.route]; exact hr)
  · have h := haway (by rw [hroutes.route]; exact hr) (by rw [hbasket]; exact hempty)
    rw [hway] at h
    rw [← hs.2 .out (by decide)]
    split
    next o x hfound =>
      rw [hfound] at h
      obtain ⟨hout, hbox, hother, hthis⟩ := h
      exact ⟨hout, hbox, fun q hq => (hother q hq).trans (hport q), by rw [hthis, hport]⟩
    next hnone =>
      rw [hnone] at h
      exact ⟨h.1, h.2.1, fun p => (h.2.2 p).trans (hport p)⟩

/-- A held event leaves for the home anchor. -/
theorem completes_stakeEventSend {b : BitVec 256} {l : List (BitVec 256)} {s : State} (hheld : s.host.heldEv = b :: l)
    (hstake : s.anchor = false) (hinside : s.basket.outsider = false) (hroute : s.route (s.homeAnchor s.pkg) ≠ 5) :
    Completes .stakeEventSend s (fun t =>
      t.host = { s.host with heldEv := l, evDropped := 0 } ∧
      Sent (s.mkLoose 1 (s.homeAnchor s.pkg) 0 0 (fwdPayload 0 0 32
        (leBytes 32 (putBits b 48 16 (min s.host.evDropped 0xFFFF)).toNat))) s t ∧
      Only [.regs, .out, .basket, .host] s t) := by
  obtain ⟨m, hm⟩ : ∃ m, m = s.mkLoose 1 (s.homeAnchor s.pkg) 0 0 (fwdPayload 0 0 32
    (leBytes 32 (putBits b 48 16 (min s.host.evDropped 0xFFFF)).toNat)) := ⟨_, rfl⟩
  obtain ⟨u, hu⟩ : ∃ u : State, u = { s with host := { s.host with heldEv := l, evDropped := 0 } } := ⟨_, rfl⟩
  have hexec : exec .stakeEventSend s = .next (sendLoose m u) := by
    refine congrArg Host.Outcome.next ?_
    rw [stakeEventSend, hheld, hm, hu]
    simp only [hstake, hinside, hroute, Bool.or_false, decide_false, Bool.false_eq_true, if_false]
    rfl
  have hstart : Only [.host] s u := by rw [hu]; exact only_iff.2 (by simp)
  have hdst : m.dst.setWidth 6 = s.homeAnchor s.pkg := by
    rw [hm, State.mkLoose, BitVec.setWidth_setWidth_of_le _ (by decide), BitVec.setWidth_eq]
  have hroutes : RoutesKept s u :=
    ⟨hstart.2 .power (by decide), hstart.2 .weave (by decide), congrArg _ (hstart.2 .basket (by decide))⟩
  have hsent : Sent m u (sendLoose m u) := (sent_sendLoose (by rw [hdst, hroutes.route]; exact hroute)).1
  have hframe := sendLoose_only m u (.refl [.regs, .out, .basket] u) (by simp)
  rw [← hm]
  refine completes_of_next hexec ⟨(hframe.only.2 .host (by decide)).trans (by rw [hu]), sent_congr hsent hstart,
    (hstart.mono (by simp)).trans (hframe.only.mono (by simp))⟩

/-! ### Signals and mirror writes (R83, R85) -/

/-- A signal adds its amount to its knot and to no other. -/
theorem signalKnot_reads {s : State} (hs : Canon s) (k amount : Nat) :
    (signalKnot k amount s).knot k = s.knot k + BitVec.ofNat 32 amount ∧
    (∀ j, j ≠ k → (signalKnot k amount s).knot j = s.knot j) ∧ Only [.host, .knots] s (signalKnot k amount s) := by
  have hknots : (signalKnot k amount s).knots = smSet 0 s.knots k (s.knot k + BitVec.ofNat 32 amount) :=
    setKnot_knots k _ s
  refine ⟨?_, fun j hj => ?_, (signalKnot_only k amount s (.refl [.host, .knots] s) (by simp)).only⟩
  · rw [State.knot, hknots]
    exact smGet_smSet hs.knots
  · rw [State.knot, hknots]
    exact smGet_smSet_ne hs.knots hj

theorem completes_knotSignal {k : BitVec 17} {a : BitVec 16} {s : State} (hs : Canon s) :
    Completes (.knotSignal k a none) s (fun t =>
      t.knot k.toNat = s.knot k.toNat + BitVec.ofNat 32 a.toNat ∧ (∀ j, j ≠ k.toNat → t.knot j = s.knot j) ∧
      Only [.host, .knots] s t) := by
  have hexec : exec (.knotSignal k a none) s = .next (signalKnot k.toNat a.toNat s) := by
    refine congrArg Host.Outcome.next ?_
    rw [knotSignal, Option.getD_none, sendKnot, if_pos rfl]
  exact completes_of_next hexec (signalKnot_reads hs k.toNat a.toNat)

theorem completes_knot {w : LinkWord} {s : State} (hs : Canon s) (hsub : ctrlSub w = 2)
    (hdst : lwByte w 3 % 64 = s.pkg.toNat) :
    Completes (.knot w) s (fun t =>
      t.knot (lwNum w 4 3 % 2 ^ 17) = s.knot (lwNum w 4 3 % 2 ^ 17) + BitVec.ofNat 32 (lwNum w 7 2) ∧
      Only [.host, .knots] s t) := by
  have hhere : BitVec.ofNat 6 (lwByte w 3) = s.pkg :=
    BitVec.eq_of_toNat_eq (by rw [BitVec.toNat_ofNat]; exact hdst)
  have hexec : exec (.knot w) s = .next (signalKnot (lwNum w 4 3 % 2 ^ 17) (lwNum w 7 2) s) := by
    refine congrArg Host.Outcome.next ?_
    rw [knotWordIn, if_neg (by simp [hsub])]
    dsimp only
    rw [if_pos hhere]
  obtain ⟨hknot, -, hframe⟩ := signalKnot_reads hs (lwNum w 4 3 % 2 ^ 17) (lwNum w 7 2)
  exact completes_of_next hexec ⟨hknot, hframe⟩

theorem completes_mirrorWrite {k : BitVec 17} {a : BitVec 64} {s : State} (hanchor : s.anchor = true)
    (hbme : s.host.bme = true) (hdirty : k.toNat ∈ s.host.dirty) (hbound : smGet none s.host.mirrors (k.toNat / 1024) = some a) :
    Completes (.mirrorWrite k) s (fun t =>
      t.out = s.out ++ [.hostWrite (a + BitVec.ofNat 64 (4 * (k.toNat % 1024))) (leBytes 4 (s.knot k.toNat).toNat)] ∧
      k.toNat ∉ t.host.dirty ∧ Only [.out, .host] s t) := by
  obtain ⟨u, hu⟩ : ∃ u : State, u = { s with host := { s.host with dirty := s.host.dirty.filter (fun j => j != k.toNat) } } :=
    ⟨_, rfl⟩
  have hexec : exec (.mirrorWrite k) s =
      .next (u.emit (.hostWrite (a + BitVec.ofNat 64 (4 * (k.toNat % 1024))) (leBytes 4 (s.knot k.toNat).toNat))) := by
    refine congrArg Host.Outcome.next ?_
    rw [← hostPut_anchor (by rw [hu]; exact hanchor) (by rw [hu]; exact hbme), hu, mirrorWrite]
    simp [hdirty, hbound, hbme]
  refine completes_of_next hexec ⟨by rw [hu]; rfl, ?_, by rw [hu]; exact only_iff.2 (by simp [State.emit])⟩
  rw [emit_host, hu]
  simp

/-! ### The record ring (R87) -/

section RecordRing

variable {v : Word} {s : State} (hs : Canon s) (hserved : Served s) (hverdict : recCfgVerdict s (v &&& 0x13F0F) = 0)

/-- A write of HOST_REC_CFG that passes its checks. -/
def recCfgSet (v : Word) (s : State) : State := s.setReg Reg.hostRecCfg (v &&& 0x13F0F)

theorem recCfg_enables (h : v.getLsbD 16 = true) : (v &&& 0x13F0F).getLsbD 16 = true := by
  rw [BitVec.getLsbD_and, h]
  rfl

theorem recCfg_disables (h : v.getLsbD 16 = false) : (v &&& 0x13F0F).getLsbD 16 = false := by
  rw [BitVec.getLsbD_and, h]
  rfl

include hs in
theorem recCfgSet_reads : (recCfgSet v s).reg Reg.hostRecCfg = v &&& 0x13F0F ∧
    Only [.regs] s (recCfgSet v s) ∧ RegsOnly [Reg.hostRecCfg] s (recCfgSet v s) :=
  ⟨smGet_smSet hs.regs, setReg_only hs _ _⟩

include hs hserved hverdict

/-- Enabling starts at slot 0 of lap 1. -/
theorem completes_recRingEnable (hon : v.getLsbD 16 = true) (hoff : s.flag Reg.hostRecCfg 16 = false) :
    Completes (.recRingEnable v 15) s (fun t =>
      t.reg Reg.hostRecCfg = v &&& 0x13F0F ∧ t.host = { s.host with recPos := 0, recLap := 1, recHead := 0 } ∧
      Only [.regs, .host] s t ∧ RegsOnly [Reg.hostRecCfg] s t) := by
  obtain ⟨hreads, honly, hregs⟩ := recCfgSet_reads (v := v) hs
  have hold : (s.reg Reg.hostRecCfg).getLsbD 16 = false := hoff
  have hexec : exec (.recRingEnable v 15) s = .next { recCfgSet v s with
      host := { (recCfgSet v s).host with recPos := 0, recLap := 1, recHead := 0 } } := by
    refine congrArg Host.Outcome.next ?_
    simp only [recCfgWrite, answers_of_served hserved, mergeBytes_full, hverdict, recCfg_enables hon, hold, Bool.not_true,
      Bool.not_false, Bool.false_eq_true, if_false, ne_eq, not_true_eq_false, Bool.and_self, if_true, recCfgSet]
  generalize recCfgSet v s = u at hreads honly hregs hexec
  have hhost : u.host = s.host := honly.2 .host (by decide)
  exact completes_of_next hexec ⟨hreads, by rw [hhost],
    (honly.mono (by simp)).trans (only_iff.2 (by simp)), fun off h => hregs off h⟩

omit hs hserved hverdict in
/-- With no slot free every record is held, and up to 256 none is lost. -/
theorem holdList_none (l : List Rec) (h : Nat) (hroom : h + l.length ≤ 256) :
    holdList 0 h l = (l.map (fun r => { r with held := true }), []) := by
  induction l generalizing h with
  | nil => rfl
  | cons r l ih =>
    rw [List.length_cons] at hroom
    have hfew : ¬256 ≤ h := by omega
    rw [holdList]
    simp only [beq_self_eq_true, Bool.or_true, Bool.true_and, decide_eq_true_eq, hfew, if_false, if_true, Nat.zero_sub]
    rw [ih (h + 1) (by omega)]
    rfl

/-- Disabling keeps every uncommitted record held. -/
theorem completes_recRingDisable (hoff : v.getLsbD 16 = false) (hon : s.flag Reg.hostRecCfg 16 = true)
    (hfew : s.host.records.length ≤ 256) :
    Completes (.recRingDisable v 15) s (fun t =>
      t.reg Reg.hostRecCfg = v &&& 0x13F0F ∧ t.host.records = s.host.records.map (fun r => { r with held := true }) ∧
      Only [.regs, .host] s t ∧ RegsOnly [Reg.hostRecCfg] s t) := by
  obtain ⟨hreads, honly, hregs⟩ := recCfgSet_reads (v := v) hs
  have hold : (s.reg Reg.hostRecCfg).getLsbD 16 = true := hon
  have hexec : exec (.recRingDisable v 15) s = .next (holdRecords (recCfgSet v s)) := by
    refine congrArg Host.Outcome.next ?_
    simp only [recCfgWrite, answers_of_served hserved, mergeBytes_full, hverdict, recCfg_disables hoff, hold, Bool.not_true,
      Bool.not_false, Bool.false_eq_true, if_false, ne_eq, not_true_eq_false, Bool.and_self, if_true, recCfgSet]
  generalize recCfgSet v s = u at hreads honly hregs hexec
  have hhost : u.host = s.host := honly.2 .host (by decide)
  have hfree : u.recFree = 0 := by
    have hflag : u.flag Reg.hostRecCfg 16 = false := by rw [State.flag, hreads]; exact recCfg_disables hoff
    simp [State.recFree, hflag]
  have hheld : holdRecords u = { u with host := { u.host with records := s.host.records.map (fun r => { r with held := true }) } } := by
    rw [holdRecords, hfree, holdList_none _ 0 (by rw [hhost]; omega), hhost]
    rfl
  rw [hheld] at hexec
  exact completes_of_next hexec ⟨hreads, rfl, (honly.mono (by simp)).trans (only_iff.2 (by simp)), fun off h => hregs off h⟩

end RecordRing

/-! ### The obligation -/

/-- Settles O16: each clause is the lemma on its command. A descriptor that signals no knot ends with its entry alone, and
status 0x0000 reaches no ERR register. -/
theorem opcodeCommandsComplete : Obligations.OpcodeCommandsComplete := by
  unfold Obligations.OpcodeCommandsComplete
  exact ⟨fun _ _ hs hf => completes_nop hs hf,
    fun _ _ hs hf hanchor hbme => completes_identity hs hf hanchor hbme,
    fun _ _ hs hf hanchor hbme => completes_status hs hf hanchor hbme,
    fun _ _ hs hf hanchor hbme => completes_selftest hs hf hanchor hbme,
    fun _ _ hs hf hrun => completes_knotSet hs hf hrun,
    fun _ _ hs hf => completes_knotRead hs hf,
    fun _ _ hs hf henable hanchor hbme => completes_mirror_bind hs hf henable hanchor hbme,
    fun _ _ hs hf hdisable => completes_mirror_free hs hf hdisable,
    fun _ _ hstake hroute => completes_stakeOpcodes hstake hroute,
    fun _ _ _ hs hanchor _ htake => completes_deferredEntryPost hs hanchor htake,
    fun _ _ _ hheld hstake hinside hroute => completes_stakeEventSend hheld hstake hinside hroute,
    fun _ _ _ hs => completes_knotSignal hs,
    fun _ _ hs hsub hdst => completes_knot hs hsub hdst,
    fun _ _ _ hanchor hbme hdirty hbound => completes_mirrorWrite hanchor hbme hdirty hbound,
    fun _ _ hs hserved hverdict hon hoff => completes_recRingEnable hs hserved hverdict hon hoff,
    fun _ _ hs hserved hverdict hoff hon hfew => completes_recRingDisable hs hserved hverdict hoff hon hfew⟩

end Sys2Proof.Machine
end

section
/-!
PROOFS. Requests.lean: grammar tables, adapters, tenants, records and requests as the owner keeps them (R86, R126, R128, R229,
R232, R239, R241, R245, R258, R263).
-/

namespace Sys2Proof.Machine

/-! ### Bytes that a descriptor's work reads (R68) -/

theorem hostGet_frame (n : Nat) (a : BitVec 64) (len : Nat) (s : State) : Moves [.out] s (hostGet n a len s) :=
  hostGet_only n a len s (.refl ..) (by simp)

/-- A supplied descriptor goes on with its bytes; only reads of host memory have left. -/
theorem withSource_supplied {f : Flight} {op : Nat} {bytes src : List Byte} {s : State} (h : Supplied f op bytes src s)
    (addr len : Flight → Nat) (k : Flight → List Byte → State → State) :
    ∃ u, withSource op f.id addr len bytes k s = k f src u ∧ Moves [.out] s u := by
  obtain ⟨hflight, hop, -, hgot⟩ := h
  rcases hgot with ⟨hst, hanchor, rfl⟩ | hst
  · exact ⟨_, by simp [withSource, hflight, hop, hst, hanchor]; rfl, hostGet_frame ..⟩
  · exact ⟨s, by simp [withSource, hflight, hop, hst], .refl ..⟩

/-- A descriptor whose work stores bytes in a pool: they read back there, no other byte has changed, and the entry follows. -/
theorem loaded_finishFlight {f : Flight} {s w v : State} {a : Nat} {l : List Byte} (hs : Canon s)
    (hw : Only [.out, .freeCtr, .serve] s w) (hv : Only [.serve] (wrMem a l w) v) :
    DescDone f 0 0 s (finishFlight f 0 0 v) ∧ (finishFlight f 0 0 v).rdMem a l.length = l ∧
      BytesOnly a l.length s (finishFlight f 0 0 v) ∧ (finishFlight f 0 0 v).serve = v.serve ∧
      Only [.out, .freeCtr, .host, .mem, .poison, .serve] s (finishFlight f 0 0 v) := by
  have hwf : Memory.wf w.mem = true := by rw [hw.2 .mem (by decide)]; exact hs.mem
  have hwrite : Only [.mem, .poison] w (wrMem a l w) := (wrMem_only a l w (.refl [.mem, .poison] w) (by simp)).only
  have hsv : Only [.out, .freeCtr, .mem, .poison, .serve] s v :=
    (hw.mono (by simp)).trans ((hwrite.mono (by simp)).trans (hv.mono (by simp)))
  have hend := (finishFlight_zero_frame f 0 v).only
  have hmem : (finishFlight f 0 0 v).mem = (wrMem a l w).mem := (hend.2 .mem (by decide)).trans (hv.2 .mem (by decide))
  refine ⟨descDone_finishFlight ((RingsAlike.refl hs).of_only hsv (by decide)) f 0 0, ?_, fun x hx => ?_,
    hend.2 .serve (by decide), (hsv.mono (by simp)).trans (hend.mono (by simp))⟩
  · rw [State.rdMem, hmem]
    exact rdMem_wrMem hwf a l
  · have hkeep := (wrMem_moves hwf a l).only x hx
    rw [State.rdMem, hmem, ← State.rdMem, hkeep, State.rdMem, hw.2 .mem (by decide), State.rdMem]

/-! ### Grammar tables (R263) -/

section Grammar

variable {s u : State}

/-- The verdict on a table depends on the tables, the contexts, the weave, the registers and the count of draws alone. -/
theorem grammarVerdict_congr (h : Only [.out] s u) (id : BitVec 8) (len : Nat) (table : List Byte) :
    grammarVerdict (pruneGrammars u) id len table = grammarVerdict (pruneGrammars s) id len table := by
  have hserve : (pruneGrammars u).serve = (pruneGrammars s).serve := by
    rw [pruneGrammars, pruneGrammars]
    unfold grmHeld
    rw [h.2 .serve (by decide)]
  have hweave : (pruneGrammars u).weave = (pruneGrammars s).weave := h.2 .weave (by decide)
  have hregs : (pruneGrammars u).regs = (pruneGrammars s).regs := (h.2 .regs (by decide)).1
  have hfree : (pruneGrammars u).freeCtr = (pruneGrammars s).freeCtr := h.2 .freeCtr (by decide)
  have hsize : (pruneGrammars u).grmSize = (pruneGrammars s).grmSize := fld_eq_of_regs_eq hregs ..
  have hpages : (pruneGrammars u).grmFree = (pruneGrammars s).grmFree := by
    rw [State.grmFree, hsize, hserve, State.grmFree]
  unfold grammarVerdict
  rw [eos_congr hweave, hsize, hserve, hfree, hpages]

/-- The pool with an accepted table in it, from page `p` on. -/
def tableStored (p : Nat) (table : List Byte) (s : State) : State :=
  wrMem (s.grmBase + 4096 * p) table { pruneGrammars s with freeCtr := s.freeCtr + 1 }

/-- A table joins those of the pool. -/
def tableAdded (g : GrammarTab) (t : State) : State :=
  { t with serve := { t.serve with grammars := t.serve.grammars ++ [g] } }

/-- An accepted table is stored and pending, and its descriptor ends. -/
theorem grammarLoad_accepted {f : Flight} {table : List Byte}
    (hverdict : grammarVerdict (pruneGrammars u) (BitVec.ofNat 8 (descNum f.desc 36 1)) (descNum f.desc 32 4) table = 0) :
    table.length = descNum f.desc 32 4 ∧ ∃ p gen, grammarLoad f table u = completeFlight f 0 0
      (tableAdded ⟨BitVec.ofNat 8 (descNum f.desc 36 1), gen, 0, descNum f.desc 32 4, p, ceilDiv (descNum f.desc 32 4) 4096⟩
        (tableStored p table u)) := by
  have hlen : table.length = descNum f.desc 32 4 := by
    by_contra hne
    simp [grammarVerdict, hne, eGrmFormat] at hverdict
  have hroom : ∃ p rest, allocRun (pruneGrammars u).freeCtr (ceilDiv (descNum f.desc 32 4) 4096) (pruneGrammars u).grmFree =
      some (p, rest) := by
    cases halloc : allocRun (pruneGrammars u).freeCtr (ceilDiv (descNum f.desc 32 4) 4096) (pruneGrammars u).grmFree with
    | some x => exact ⟨x.1, x.2, rfl⟩
    | none =>
      exfalso
      unfold grammarVerdict at hverdict
      simp only [halloc, Option.isNone_none, if_true] at hverdict
      revert hverdict
      repeat' split
      all_goals decide
  obtain ⟨p, rest, halloc⟩ := hroom
  refine ⟨hlen, p, ?_⟩
  unfold grammarLoad
  simp only [hverdict, ne_eq, not_true_eq_false, if_false, halloc]
  exact ⟨_, rfl⟩

/-- A loaded grammar table stands in the pool as its source, and is pending. -/
theorem completes_grammarLoad {f : Flight} {table src : List Byte} (hs : Canon s) (hf : Supplied f 0x21 table src s)
    (hverdict : grammarVerdict (pruneGrammars s) (BitVec.ofNat 8 (descNum f.desc 36 1)) (descNum f.desc 32 4) src = 0) :
    Completes (.grammarLoad f.id table) s (fun t => DescDone f 0 0 s t ∧
      (∃ g ∈ t.serve.grammars, g.id = BitVec.ofNat 8 (descNum f.desc 36 1) ∧ g.role = 0 ∧ g.len = src.length ∧
        t.rdMem (s.grmBase + 4096 * g.first) src.length = src ∧
        BytesOnly (s.grmBase + 4096 * g.first) src.length s t) ∧
      Only [.out, .freeCtr, .host, .mem, .poison, .serve] s t) := by
  obtain ⟨u, hwork, hread⟩ := withSource_supplied hf (fun f => dAddr f.desc) (fun f => descNum f.desc 32 4) grammarLoad
  rw [← grammarVerdict_congr hread.only] at hverdict
  obtain ⟨hlen, p, gen, hload⟩ := grammarLoad_accepted hverdict
  have hbase : u.grmBase = s.grmBase := by
    have hregs : u.regs = s.regs := (hread.only.2 .regs (by decide)).1
    rw [State.grmBase, pair_congr (reg_eq_of_regs_eq hregs _) (reg_eq_of_regs_eq hregs _), State.grmBase]
  obtain ⟨g, hg⟩ : ∃ g : GrammarTab, g = ⟨BitVec.ofNat 8 (descNum f.desc 36 1), gen, 0, descNum f.desc 32 4, p,
    ceilDiv (descNum f.desc 32 4) 4096⟩ := ⟨_, rfl⟩
  obtain ⟨w, hw⟩ : ∃ w : State, w = { pruneGrammars u with freeCtr := u.freeCtr + 1 } := ⟨_, rfl⟩
  have hfirst : Only [.out, .freeCtr, .serve] s w := (hread.only.mono (by simp)).trans
    (by rw [hw]; exact only_iff.2 (by simp [pruneGrammars]))
  have hstored : tableStored p src u = wrMem (s.grmBase + 4096 * p) src w := by rw [tableStored, hbase, hw]
  rw [← hg, hstored] at hload
  obtain ⟨hdone, hreads, hbytes, hserve, honly⟩ := loaded_finishFlight (f := f) (a := s.grmBase + 4096 * p) (l := src)
    (v := tableAdded g (wrMem (s.grmBase + 4096 * p) src w)) hs hfirst (only_iff.2 (by simp [tableAdded]))
  have hexec : exec (.grammarLoad f.id table) s =
      .next (finishFlight f 0 0 (tableAdded g (wrMem (s.grmBase + 4096 * p) src w))) := by
    refine congrArg Host.Outcome.next (hwork.trans (hload.trans ?_))
    exact completeFlight_unsigned hf.2.2.1 ..
  have hpage : g.first = p := by rw [hg]
  refine completes_of_next hexec ⟨hdone, ⟨g, ?_, by rw [hg], by rw [hg], by rw [hg, hlen], by rw [hpage]; exact hreads,
    by rw [hpage]; exact hbytes⟩, honly⟩
  rw [hserve]
  exact List.mem_append_right _ (List.mem_singleton_self g)

end Grammar

/-! ### Adapters (R241) -/

section Adapters

variable {s u : State}

theorem pruneAdapters_serve (h : u.serve = s.serve) : (pruneAdapters u).serve = (pruneAdapters s).serve := by
  rw [pruneAdapters, pruneAdapters]
  unfold adapterHeld State.tenant
  rw [h]

/-- The verdict on a blob depends on the requests, the pool, the registers and the count of draws alone. -/
theorem adapterVerdict_congr (h : Only [.out] s u) (d : WeaveDecl) (tenant len : Nat) (b : List Byte) :
    adapterVerdict (pruneAdapters u) d tenant len b = adapterVerdict (pruneAdapters s) d tenant len b := by
  have hserve := pruneAdapters_serve (h.2 .serve (by decide) : u.serve = s.serve)
  have hregs : (pruneAdapters u).regs = (pruneAdapters s).regs := (h.2 .regs (by decide)).1
  have hfree : (pruneAdapters u).freeCtr = (pruneAdapters s).freeCtr := h.2 .freeCtr (by decide)
  have hsize : (pruneAdapters u).adpSize = (pruneAdapters s).adpSize := fld_eq_of_regs_eq hregs ..
  have hpages : (pruneAdapters u).adpFree = (pruneAdapters s).adpFree := by
    rw [State.adpFree, hsize, hserve, State.adpFree]
  have hbase : (pruneAdapters u).adpBase = (pruneAdapters s).adpBase :=
    pair_congr (reg_eq_of_regs_eq hregs _) (reg_eq_of_regs_eq hregs _)
  have hprot (a n : Nat) : (pruneAdapters u).protCovers a n = (pruneAdapters s).protCovers a n := by
    unfold State.protCovers
    simp only [reg_eq_of_regs_eq hregs, fld_eq_of_regs_eq hregs]
  have hpool : (pruneAdapters u).adpPoolOk = (pruneAdapters s).adpPoolOk := by
    rw [State.adpPoolOk, hsize, hbase, hprot, State.adpPoolOk]
  have hkey : (pruneAdapters u).flag Reg.fuseStatus 24 = (pruneAdapters s).flag Reg.fuseStatus 24 := by
    rw [State.flag, reg_eq_of_regs_eq hregs, State.flag]
  unfold adapterVerdict
  rw [hpool, hkey, hfree, hpages]

theorem tenantKey_congr (h : u.fuse = s.fuse) (tenant model : Nat) : tenantKey u tenant model = tenantKey s tenant model := by
  unfold tenantKey rootKey State.shadowWord
  rw [h]

/-- An opened adapter joins those of its pool, and its generation waits for the step boundary. -/
def adapterAdded (a : AdapterRun) (tenant : Nat) (x : Tenant) (t : State) : State :=
  let t := setTenant tenant { x with pendGen := some (a.gen, a.rank) } t
  { t with serve := { t.serve with adapters := t.serve.adapters ++ [a] } }

/-- The pool with an opened adapter in it, from page `p` on. -/
def adapterStored (p : Nat) (plain : List Byte) (s : State) : State :=
  wrMem (s.adpBase + 4096 * p) plain { pruneAdapters s with freeCtr := s.freeCtr + 1 }

theorem adapterVerdict_alloc {d : WeaveDecl} {tenant len : Nat} {b : List Byte} (h : adapterVerdict s d tenant len b = 0) :
    ∃ p rest, allocRun s.freeCtr (ceilDiv (leAt b 12 4) 4096) s.adpFree = some (p, rest) := by
  cases halloc : allocRun s.freeCtr (ceilDiv (leAt b 12 4) 4096) s.adpFree with
  | some x => exact ⟨x.1, x.2, rfl⟩
  | none =>
    exfalso
    unfold adapterVerdict at h
    simp only [halloc, Option.isNone_none, if_true] at h
    revert h
    repeat' split
    all_goals decide

theorem adapterLoad_opened {f : Flight} {src plain : List Byte} {d : WeaveDecl} (hrun : u.weave.run = some d)
    (hverdict : adapterVerdict (pruneAdapters u) d (bits f.desc 288 12) (descNum f.desc 32 4) src = 0)
    (hopen : gcmOpen (tenantKey u (bits f.desc 288 12) d.modelId.toNat)
      ((List.range 12).map (fun k => BitVec.ofNat 8 (descNum f.desc (40 + k) 1))) (src.take 64)
      ((src.drop 64).take (descNum f.desc 32 4 - 80)) (src.drop (descNum f.desc 32 4 - 16)) = some plain) :
    ∃ p gen x, adapterLoad f src u = completeFlight f 0 0 (adapterAdded ⟨BitVec.ofNat 12 (bits f.desc 288 12), gen,
      BitVec.ofNat 3 (leAt src 3 1), p, ceilDiv (leAt src 12 4) 4096⟩ (bits f.desc 288 12) x (adapterStored p plain u)) := by
  obtain ⟨p, rest, halloc⟩ := adapterVerdict_alloc hverdict
  obtain ⟨w, hw⟩ : ∃ w : State, w = { pruneAdapters u with freeCtr := (pruneAdapters u).freeCtr + 1 } := ⟨_, rfl⟩
  have hkey : tenantKey w (bits f.desc 288 12) d.modelId.toNat = tenantKey u (bits f.desc 288 12) d.modelId.toNat :=
    tenantKey_congr (by rw [hw]; rfl) _ _
  refine ⟨p, ?_⟩
  unfold adapterLoad
  simp only [hrun, hverdict, ne_eq, not_true_eq_false, if_false, halloc, ← hw, hkey, hopen]
  subst hw
  exact ⟨_, _, rfl⟩

/-- A loaded adapter stands in the pool opened, and its generation is pending. -/
theorem completes_adapterLoad {f : Flight} {blob src plain : List Byte} {d : WeaveDecl} (hs : Canon s)
    (hf : Supplied f 0x22 blob src s) (hrun : s.weave.run = some d)
    (hverdict : adapterVerdict (pruneAdapters s) d (bits f.desc 288 12) (descNum f.desc 32 4) src = 0)
    (hopen : gcmOpen (tenantKey s (bits f.desc 288 12) d.modelId.toNat)
      ((List.range 12).map (fun k => BitVec.ofNat 8 (descNum f.desc (40 + k) 1))) (src.take 64)
      ((src.drop 64).take (descNum f.desc 32 4 - 80)) (src.drop (descNum f.desc 32 4 - 16)) = some plain) :
    Completes (.adapterLoad f.id blob) s (fun t => DescDone f 0 0 s t ∧
      (∃ a ∈ t.serve.adapters, a.tenant = BitVec.ofNat 12 (bits f.desc 288 12) ∧
        (t.tenant (bits f.desc 288 12)).pendGen = some (a.gen, BitVec.ofNat 3 (leAt src 3 1)) ∧
        t.rdMem (s.adpBase + 4096 * a.first) plain.length = plain ∧
        BytesOnly (s.adpBase + 4096 * a.first) plain.length s t) ∧
      Only [.out, .freeCtr, .host, .mem, .poison, .serve] s t) := by
  obtain ⟨u, hwork, hread⟩ := withSource_supplied hf (fun f => dAddr f.desc) (fun f => descNum f.desc 32 4) adapterLoad
  rw [← adapterVerdict_congr hread.only] at hverdict
  rw [← tenantKey_congr (hread.only.2 .fuse (by decide))] at hopen
  obtain ⟨p, gen, x, hload⟩ := adapterLoad_opened (by rw [hread.only.2 .weave (by decide)]; exact hrun) hverdict hopen
  have hbase : u.adpBase = s.adpBase := by
    have hregs : u.regs = s.regs := (hread.only.2 .regs (by decide)).1
    rw [State.adpBase, pair_congr (reg_eq_of_regs_eq hregs _) (reg_eq_of_regs_eq hregs _), State.adpBase]
  obtain ⟨a, ha⟩ : ∃ a : AdapterRun, a = ⟨BitVec.ofNat 12 (bits f.desc 288 12), gen, BitVec.ofNat 3 (leAt src 3 1), p,
    ceilDiv (leAt src 12 4) 4096⟩ := ⟨_, rfl⟩
  obtain ⟨w, hw⟩ : ∃ w : State, w = { pruneAdapters u with freeCtr := u.freeCtr + 1 } := ⟨_, rfl⟩
  have hfirst : Only [.out, .freeCtr, .serve] s w := (hread.only.mono (by simp)).trans
    (by rw [hw]; exact only_iff.2 (by simp [pruneAdapters]))
  have hstored : adapterStored p plain u = wrMem (s.adpBase + 4096 * p) plain w := by rw [adapterStored, hbase, hw]
  rw [← ha, hstored] at hload
  obtain ⟨v, hv⟩ : ∃ v, v = adapterAdded a (bits f.desc 288 12) x (wrMem (s.adpBase + 4096 * p) plain w) := ⟨_, rfl⟩
  obtain ⟨hdone, hreads, hbytes, hserve, honly⟩ := loaded_finishFlight (f := f) (a := s.adpBase + 4096 * p) (l := plain)
    (v := v) hs hfirst (by rw [hv]; exact only_iff.2 (by simp [adapterAdded, setTenant]))
  have hexec : exec (.adapterLoad f.id blob) s = .next (finishFlight f 0 0 v) := by
    refine congrArg Host.Outcome.next (hwork.trans (hload.trans ?_))
    rw [hv]
    exact completeFlight_unsigned hf.2.2.1 ..
  have hpage : a.first = p := by rw [ha]
  have hrank : a.rank = BitVec.ofNat 3 (leAt src 3 1) := by rw [ha]
  refine completes_of_next hexec ⟨hdone, ⟨a, ?_, by rw [ha], ?_, by rw [hpage]; exact hreads, by rw [hpage]; exact hbytes⟩,
    honly⟩
  · rw [hserve, hv]
    exact List.mem_append_right _ (List.mem_singleton_self a)
  · rw [State.tenant, hserve, ← hrank, hv]
    have hne : ({ x with pendGen := some (a.gen, a.rank) } : Tenant) ≠ Tenant.reset := fun heq => by
      have := congrArg Tenant.pendGen heq
      cases this
    exact congrArg Tenant.pendGen (smGet_smSet_value hne _ _)

end Adapters

/-! ### Tenants, requests and keys (R229, R239, R245, R258) -/

/-- An accepted TENANT_CFG waits for the step boundary. -/
theorem completes_tenantCfg {f : Flight} {s : State} (hf : Started f 0x23 s) (hweight : BitVec.ofNat 8 (descNum f.desc 38 1) ≠ 0) :
    Completes (.tenantCfg f.id) s (fun t =>
      t.flight f.id = some { f with st := .pendingCmd } ∧
      t.serve = { s.serve with cfgs := s.serve.cfgs ++ [⟨f.id, BitVec.ofNat 12 (bits f.desc 288 12),
        BitVec.ofNat 8 (descNum f.desc 38 1), BitVec.ofNat 32 (descNum f.desc 40 4)⟩] } ∧ Only [.host, .serve] s t) := by
  obtain ⟨u, hu⟩ : ∃ u : State, u = { s with serve := { s.serve with cfgs := s.serve.cfgs ++ [⟨f.id,
    BitVec.ofNat 12 (bits f.desc 288 12), BitVec.ofNat 8 (descNum f.desc 38 1), BitVec.ofNat 32 (descNum f.desc 40 4)⟩] } } :=
    ⟨_, rfl⟩
  have hexec : exec (.tenantCfg f.id) s = .next (setFlight f.id .pendingCmd u) := by
    refine congrArg Host.Outcome.next ((doWork_started hf tenantCfg).trans ?_)
    rw [tenantCfg, hu]
    dsimp only
    rw [if_neg hweight]
  refine completes_of_next hexec ⟨flight_setFlight (by rw [hu]; exact hf.1) _, by rw [hu]; rfl, ?_⟩
  rw [hu]
  exact only_iff.2 (by simp [setFlight])

theorem exec_newKey {s : State} (hserved : Served s) (hslots : s.serve.hostSlots = []) :
    exec .newKey s = .next (let v := s.serve
      { s with freeCtr := s.freeCtr + 1,
               serve := { v with parkEpoch := v.parkEpoch + 1, parkKey := s.freeCtr + 1, parkCtr := 0, exhausted := false } }) := by
  refine congrArg Host.Outcome.next ?_
  rw [gateWrite_of_served hserved, newKey, hslots]
  rfl

theorem exec_serveStepNumLoRead {s : State} (hserved : Served s) :
    exec .serveStepNumLoRead s = .next (let v := s.serve
      { s with serve := { v with stepHi := BitVec.ofNat 32 (bits v.stepNum 32 32) },
               out := s.out ++ [.readData Reg.serveStepNumLo (BitVec.ofNat 32 v.stepNum.toNat)] }) := by
  refine congrArg Host.Outcome.next ?_
  rw [gateRead_of_served hserved]
  rfl


theorem ofLe_lt (l : List Byte) : ofLe l < 256 ^ l.length := by
  induction l with
  | nil => exact Nat.one_pos
  | cons b l ih =>
    have hb : b.toNat < 256 := b.isLt
    rw [ofLe, List.length_cons, Nat.pow_succ']
    omega

theorem leAt_lt (l : List Byte) (lo n : Nat) : leAt l lo n < 256 ^ n :=
  (ofLe_lt _).trans_le (Nat.pow_le_pow_right (by decide) (by rw [List.length_take]; omega))

/-- A row of registers is written, one after the other. -/
theorem foldl_setReg {r : Nat → Nat} (hr : Function.Injective r) (v : Nat → Word) (n : Nat) {s : State}
    (h : smWf resetVal s.regs = true) :
    RegMoves ((List.range n).map r) s ((List.range n).foldl (fun s k => s.setReg (r k) (v k)) s) ∧
    (∀ k < n, ((List.range n).foldl (fun s k => s.setReg (r k) (v k)) s).reg (r k) = v k) ∧
    Only [.regs] s ((List.range n).foldl (fun s k => s.setReg (r k) (v k)) s) := by
  induction n with
  | zero => exact ⟨RegMoves.refl _ h, by simp, (Moves.refl [.regs] s).only⟩
  | succ n ih =>
    obtain ⟨hmoves, hreads, honly⟩ := ih
    rw [List.range_succ, List.foldl_append, List.foldl_cons, List.foldl_nil]
    refine ⟨(hmoves.mono (by simp)).setReg _ (by simp), fun k hk => ?_,
      honly.trans (State_setReg_only _ _ _ (.refl [.regs] _) (by simp)).only⟩
    rcases Nat.lt_succ_iff_lt_or_eq.1 hk with hlt | rfl
    · have hne : r k ≠ r n := fun heq => absurd (hr heq) (by omega)
      rw [reg_setReg_ne hmoves.wf _ hne]
      exact hreads k hlt
    · exact reg_setReg hmoves.wf _ _

/-- REQ_READ: the selected entry stands in its registers. -/
theorem completes_reqRead {s : State} (hs : Canon s) (hserved : Served s) :
    Completes .reqRead s (fun t =>
      (∀ i < 16, (t.reg (Reg.serveReqData i)).toNat = leAt (reqBytes (s.req (s.fld Reg.serveReqSel 0 12))) (4 * i) 4) ∧
      Only [.regs] s t ∧ RegsOnly ((List.range 16).map Reg.serveReqData) s t) := by
  have hinj : Function.Injective Reg.serveReqData := fun a b h => by
    simp only [Reg.serveReqData] at h
    omega
  obtain ⟨hmoves, hreads, honly⟩ := foldl_setReg hinj
    (fun i => BitVec.ofNat 32 (leAt (reqBytes (s.req (s.fld Reg.serveReqSel 0 12))) (4 * i) 4)) 16 hs.regs
  have hexec : exec .reqRead s = .next ((List.range 16).foldl (fun t i => t.setReg (Reg.serveReqData i)
      (BitVec.ofNat 32 (leAt (reqBytes (s.req (s.fld Reg.serveReqSel 0 12))) (4 * i) 4))) s) := by
    refine congrArg Host.Outcome.next ?_
    rw [gateWrite_of_served hserved]
    rfl
  refine completes_of_next hexec ⟨fun i hi => ?_, honly, hmoves.only⟩
  rw [hreads i hi, BitVec.toNat_ofNat]
  exact Nat.mod_eq_of_lt (leAt_lt _ _ 4)

/-- A request that lingered long enough is released. -/
theorem completes_lingerExpiry {k : BitVec 12} {s : State} (hs : Canon s) (hdue : releaseDue s (s.req k.toNat) = true) :
    Completes (.lingerExpiry k) s (fun t =>
      t.req k.toNat = Req.reset ∧ (∀ j, j ≠ k.toNat → t.req j = s.req j) ∧ Only [.serve] s t) := by
  have hfinal : (s.req k.toNat).finalDone = true := by
    unfold releaseDue at hdue
    simp only [Bool.and_eq_true] at hdue
    exact hdue.1.2
  obtain ⟨u, hu⟩ : ∃ u, u = (if (s.req k.toNat).st = .done then dropAt k.toNat [(s.req k.toNat).kvPkg] s else s) := ⟨_, rfl⟩
  have hexec : exec (.lingerExpiry k) s = .next (setReq k.toNat Req.reset u) := by
    refine congrArg Host.Outcome.next ?_
    rw [if_pos hdue, releaseReq, if_pos hfinal, hu]
  have hreqs : u.serve.reqs = s.serve.reqs := by
    rw [hu]
    split <;> rfl
  have honly : Only [.serve] s u := by
    rw [hu]
    split
    · exact only_iff.2 (by simp [dropAt])
    · exact (Moves.refl [.serve] s).only
  have hrising : Rising u.serve.reqs := by rw [hreqs]; exact hs.reqs
  refine completes_of_next hexec ⟨smGet_smSet_rising hrising, fun j hj => ?_, honly.trans (only_iff.2 (by simp [setReq]))⟩
  rw [State.req, setReq]
  dsimp only
  rw [smGet_smSet_ne_rising hrising hj, hreqs, State.req]

/-- The crops that a REGION_REQ names leave for the host. -/
theorem completes_regionReq {f : Flight} {crops : List (Nat × List Byte)} {bytes : List Byte} {s : State} (hs : Canon s)
    (hf : Started f 0x30 s) (hanchor : s.anchor = true) (hbme : s.host.bme = true)
    (hverdict : (regionVerdict s (BitVec.ofNat 32 (descNum f.desc 36 4)) (descNum f.desc 40 2) (descNum f.desc 32 4)
      crops).toOption = some (bytes, false)) :
    Completes (.regionReq f.id crops) s (fun t => DescDone f 0 (BitVec.ofNat 32 bytes.length) s t ∧
      Out.hostWrite (BitVec.ofNat 64 (dAddr f.desc)) bytes ∈ t.out ∧ Only [.out, .host] s t) := by
  have hok : regionVerdict s (BitVec.ofNat 32 (descNum f.desc 36 4)) (descNum f.desc 40 2) (descNum f.desc 32 4) crops =
      .ok (bytes, false) := by
    cases h : regionVerdict s (BitVec.ofNat 32 (descNum f.desc 36 4)) (descNum f.desc 40 2) (descNum f.desc 32 4) crops with
    | error c => rw [h] at hverdict; cases hverdict
    | ok x => rw [h] at hverdict; cases hverdict; rfl
  have hexec : exec (.regionReq f.id crops) s =
      .next (endAfterWrites f [(dAddr f.desc, bytes)] (BitVec.ofNat 32 bytes.length) s) := by
    refine congrArg Host.Outcome.next ((doWork_started hf _).trans ?_)
    rw [regionReq]
    simp only [hok, Bool.false_eq_true, if_false]
  exact completes_of_next hexec (written_endAfterWrites hs hf.2.2.2 hanchor hbme _ _ _)

end Sys2Proof.Machine
end

section
/-!
PROOFS. Records.lean: the record of a parcel and its place in the record ring (R86, R87, R126).
-/

namespace Sys2Proof.Machine

/-! ### Fields of little-endian bytes -/

theorem leBytes_drop (k n v : Nat) : (leBytes n v).drop k = leBytes (n - k) (v / 256 ^ k) := by
  induction k generalizing n v with
  | zero => simp
  | succ k ih =>
    cases n with
    | zero => simp [leBytes]
    | succ n => rw [leBytes, List.drop_succ_cons, ih, Nat.succ_sub_succ, Nat.div_div_eq_div_mul, Nat.pow_succ']

theorem leBytes_take (k n v : Nat) (h : k ≤ n) : (leBytes n v).take k = leBytes k v := by
  induction k generalizing n v with
  | zero => rfl
  | succ k ih =>
    cases n with
    | zero => omega
    | succ n => rw [leBytes, leBytes, List.take_succ_cons, ih _ _ (by omega)]

/-- Bytes within a little-endian number that others follow. -/
theorem leAt_within {n v lo k : Nat} (h : lo + k ≤ n) (l : List Byte) : leAt (leBytes n v ++ l) lo k = v / 256 ^ lo % 256 ^ k := by
  rw [leAt, List.drop_append_of_le_length (by rw [leBytes_length]; omega),
    List.take_append_of_le_length (by rw [List.length_drop, leBytes_length]; omega), leBytes_drop, leBytes_take _ _ _ (by omega),
    ofLe_leBytes]

/-! ### Labels -/

theorem insertBy_length {α : Type} (lt : α → α → Bool) (a : α) (l : List α) : (insertBy lt a l).length = l.length + 1 := by
  induction l with
  | nil => rfl
  | cons b l ih =>
    rw [insertBy]
    split
    · rfl
    · rw [List.length_cons, ih, List.length_cons]

theorem sortBy_length {α : Type} (lt : α → α → Bool) (l : List α) : (sortBy lt l).length = l.length := by
  induction l with
  | nil => rfl
  | cons a l ih => rw [sortBy, List.foldr_cons, ← sortBy, insertBy_length, ih, List.length_cons]

theorem entriesOf_length (l : List (Nat × Req)) : (entriesOf l).length = min 8 l.length := by
  rw [entriesOf, sortBy_length, List.length_take]

theorem labelEntry_length (view : Int) (q : Parcel) (noD : Bool) (p : Nat × Req) : (labelEntry view q noD p).length = 448 := by
  simp only [labelEntry, packTokens, List.length_append, leBytes_length]

theorem labels_length (view : Int) (q : Parcel) (noD : Bool) (ls : List (Nat × Req)) :
    ((ls.map (labelEntry view q noD)).flatten).length = 448 * ls.length := by
  induction ls with
  | nil => rfl
  | cons p ls ih => rw [List.map_cons, List.flatten_cons, List.length_append, labelEntry_length, ih, List.length_cons]; omega

/-! ### The body of a record (Table Host-9) -/

/-- A record begins with its version, its owner, its labels, its parcel and where that passed. -/
theorem recordBody_head (s : State) (q : Parcel) (ls : List (Nat × Req)) : ∃ r, recordBody s q ls =
    leBytes 4 (1 + s.pkg.toNat * 2 ^ 16 + ls.length * 2 ^ 24) ++ (leBytes 4 q.id.toNat ++
      (leBytes 8 q.barrierNs.toNat ++ (leBytes 8 q.barrierPos.toNat ++ r))) := by
  unfold recordBody
  extract_lets noD d bad xchk flags value head labels
  simp only [head, List.append_assoc]
  exact ⟨_, rfl⟩

theorem recordBody_length (s : State) (q : Parcel) {ls : List (Nat × Req)} (h : ls.length ≤ 8) :
    (recordBody s q ls).length = 0xFF8 := by
  unfold recordBody
  extract_lets noD d bad xchk flags value head labels
  have hlabels : labels.length = 448 * ls.length := labels_length _ _ _ ls
  have hhead : head.length = 128 := by simp only [head, List.length_append, leBytes_length]
  rw [List.length_append, List.length_append, zeros, List.length_replicate, hhead, hlabels]
  omega

/-- What a record begins with, field by field. -/
theorem recordBody_reads (s : State) (q : Parcel) {ls : List (Nat × Req)} (h : ls.length ≤ 8) :
    leAt (recordBody s q ls) 0 2 = 1 ∧ leAt (recordBody s q ls) 2 1 = s.pkg.toNat ∧
    leAt (recordBody s q ls) 3 1 = ls.length ∧ leAt (recordBody s q ls) 4 4 = q.id.toNat ∧
    leAt (recordBody s q ls) 8 8 = q.barrierNs.toNat ∧ leAt (recordBody s q ls) 16 8 = q.barrierPos.toNat := by
  obtain ⟨r, hr⟩ := recordBody_head s q ls
  have hpkg := s.pkg.isLt
  have hid := q.id.isLt
  have hns := q.barrierNs.isLt
  have hpos := q.barrierPos.isLt
  rw [hr]
  refine ⟨?_, ?_, ?_, ?_, ?_, ?_⟩
  · rw [leAt_within (by decide)]
    omega
  · rw [leAt_within (by decide)]
    omega
  · rw [leAt_within (by decide)]
    omega
  · rw [leAt_append _ _ _ _ (by rw [leBytes_length]), leBytes_length, leAt_within (by decide)]
    omega
  · rw [leAt_append _ _ _ _ (by rw [leBytes_length]; decide), leBytes_length, leAt_append _ _ _ _ (by rw [leBytes_length]),
      leBytes_length, leAt_within (by decide)]
    omega
  · rw [leAt_append _ _ _ _ (by rw [leBytes_length]; decide), leBytes_length,
      leAt_append _ _ _ _ (by rw [leBytes_length]; decide), leBytes_length, leAt_append _ _ _ _ (by rw [leBytes_length]),
      leBytes_length, leAt_within (by decide)]
    omega

/-! ### Assembly (R126, R87) -/

/-- Records that find room are not held, and none is lost. -/
theorem holdList_room {l : List Rec} (hfree : ∀ r ∈ l, r.held = false) {n : Nat} (hroom : l.length ≤ n) (h : Nat) :
    holdList n h l = (l, []) := by
  induction l generalizing n h with
  | nil => rfl
  | cons r l ih =>
    rw [List.length_cons] at hroom
    have hheld : r.held = false := hfree r (by simp)
    have hn : (n == 0) = false := by rw [beq_eq_false_iff_ne]; omega
    rw [holdList]
    simp only [hheld, hn, Bool.or_self, Bool.false_and, Bool.false_eq_true, if_false]
    rw [ih (fun r hr => hfree r (by simp [hr])) (by omega)]
    dsimp only
    rw [← hheld]

theorem recFree_congr {s t : State} (hregs : RegMoves [Reg.roiLabelDrop] s t) (hpower : t.power = s.power)
    (hrings : t.host.rings = s.host.rings) (hbme : t.host.bme = s.host.bme) (hpos : t.host.recPos = s.host.recPos)
    (hhead : t.host.recHead = s.host.recHead) : t.recFree = s.recFree := by
  have hcfg : t.reg Reg.hostRecCfg = s.reg Reg.hostRecCfg := hregs.only _ (by decide)
  have hanchor : t.anchor = s.anchor := by rw [State.anchor, hpower, State.anchor]
  have hflag : t.flag Reg.hostRecCfg 16 = s.flag Reg.hostRecCfg 16 := by rw [State.flag, hcfg, State.flag]
  have hslots : t.recSlots = s.recSlots := by rw [State.recSlots, State.fld, hcfg, State.recSlots, State.fld]
  have hring : t.ring t.recRing = s.ring s.recRing := by
    rw [State.ring, hrings, State.recRing, State.fld, hcfg, State.ring, State.recRing, State.fld]
  rw [State.recFree, hanchor, hbme, hflag, hring, hslots, hpos, hhead, State.recFree]

theorem labelsOf_congr {s t : State} (h : t.serve = s.serve) (id : Word) : t.labelsOf id = s.labelsOf id := by
  rw [State.labelsOf, h, State.labelsOf]

theorem parcel_id {s : State} {id : Word} {q : Parcel} (h : s.parcel id = some q) : q.id = id := by
  simpa using List.find?_some h

/-- A parcel's record is assembled and waits for the engine. -/
theorem completes_recordAssembly {id : Word} {q : Parcel} {s : State} (hs : Canon s) (hparcel : s.parcel id = some q)
    (hopen : q.committed = false) (hkept : q.lost = false)
    (hnone : s.host.records.any (fun r => r.parcel == id || r.held) = false) (hroom : s.host.records.length < s.recFree) :
    Completes (.recordAssembly id) s (fun t =>
      (∃ r ∈ t.host.records, t.host.records = s.host.records ++ [r] ∧ r.parcel = id ∧ r.held = false ∧ r.body.length = 0xFF8 ∧
        leAt r.body 0 2 = 1 ∧ leAt r.body 2 1 = s.pkg.toNat ∧ leAt r.body 3 1 = min 8 (s.labelsOf id).length ∧
        leAt r.body 4 4 = id.toNat ∧ leAt r.body 8 8 = q.barrierNs.toNat ∧ leAt r.body 16 8 = q.barrierPos.toNat) ∧
      Only [.regs, .host, .roi, .wfe] s t ∧ RegsOnly [Reg.roiLabelDrop] s t) := by
  have hfresh : s.host.records.any (fun r => r.parcel == id) = false := by
    rw [List.any_eq_false] at hnone ⊢
    intro r hr h
    exact hnone r hr (by rw [h, Bool.true_or])
  have hfree : ∀ r ∈ s.host.records, r.held = false := by
    rw [List.any_eq_false] at hnone
    intro r hr
    have := hnone r hr
    simp only [Bool.or_eq_true, not_or, Bool.not_eq_true] at this
    exact this.2
  obtain ⟨w, hw⟩ : ∃ w, w = (takeWeight id s).1 := ⟨_, rfl⟩
  obtain ⟨s₁, hs₁⟩ : ∃ u, u = (takeWeight id s).2 := ⟨_, rfl⟩
  obtain ⟨ls, hls⟩ : ∃ ls, ls = entriesOf (s₁.labelsOf id) := ⟨_, rfl⟩
  obtain ⟨s₂, hs₂⟩ : ∃ u, u = s₁.bumpSat Reg.roiLabelDrop 32 ((s₁.labelsOf id).length - 8) := ⟨_, rfl⟩
  obtain ⟨p, hp⟩ : ∃ p : Parcel, p = { q with weight := w, labels := ls.map (fun x => (x.2.cutPkg, x.2.slot)) } := ⟨_, rfl⟩
  obtain ⟨s₃, hs₃⟩ : ∃ u, u = mapParcels (fun x => x.id == id) (fun _ => p) s₂ := ⟨_, rfl⟩
  obtain ⟨r, hr⟩ : ∃ r : Rec, r = ⟨id, recordBody s₃ p ls, false, ls.any (labelPoisoned s₃)⟩ := ⟨_, rfl⟩
  obtain ⟨s₄, hs₄⟩ : ∃ u : State, u = { s₃ with host := { s₃.host with records := s₃.host.records ++ [r] } } := ⟨_, rfl⟩
  have hexec : exec (.recordAssembly id) s = .next (holdRecords s₄) := by
    refine congrArg Host.Outcome.next ?_
    have hdue : (q.committed || q.lost || s.host.records.any (fun r => r.parcel == id)) = false := by
      rw [hopen, hkept, hfresh]
      rfl
    rw [recordAssembly, hparcel]
    dsimp only
    rw [hdue, if_neg Bool.false_ne_true]
    subst hs₄ hr hs₃ hp hs₂ hls hs₁ hw
    rfl
  have hfew : ls.length ≤ 8 := by rw [hls, entriesOf_length]; omega
  have h₁ : Only [.wfe] s s₁ := by rw [hs₁]; exact (takeWeight_only id s (.refl [.wfe] s) (by simp)).only
  have h₂ : RegMoves [Reg.roiLabelDrop] s s₂ := by
    rw [hs₂]
    exact RegMoves.bumpSat ((RegMoves.refl _ hs.regs).congr (h₁.2 .regs (by decide)).1) _ _ (by simp)
  have h₃ : Only [.regs, .roi] s₁ s₃ := by
    rw [hs₃, hs₂]
    exact (mapParcels_only _ _ _ (State_bumpSat_only s₁ _ _ _ (.refl [.regs, .roi] s₁) (by simp)) (by simp)).only
  have hsame : Only [.regs, .roi, .wfe] s s₃ := (h₁.mono (by simp)).trans (h₃.mono (by simp))
  have h₄ : Only [.regs, .host, .roi, .wfe] s s₄ := (hsame.mono (by simp)).trans (by rw [hs₄]; exact only_iff.2 (by simp))
  have hhost : s₃.host = s.host := hsame.2 .host (by decide)
  have hregs : RegMoves [Reg.roiLabelDrop] s s₄ := h₂.congr (by rw [hs₄, hs₃]; rfl)
  have hrecords : s₄.host.records = s.host.records ++ [r] := by rw [hs₄, hhost]
  have hheld : holdRecords s₄ = s₄ := by
    have hall : ∀ x ∈ s₄.host.records, x.held = false := by
      rw [hrecords]
      intro x hx
      rcases List.mem_append.1 hx with hx | hx
      · exact hfree x hx
      · rw [List.mem_singleton.1 hx, hr]
    have hspace : s₄.recFree = s.recFree :=
      recFree_congr hregs (h₄.2 .power (by decide)) (by rw [hs₄, hhost]) (by rw [hs₄, hhost]) (by rw [hs₄, hhost])
        (by rw [hs₄, hhost])
    rw [holdRecords, hspace, holdList_room hall (by rw [hrecords, List.length_append, List.length_singleton]; omega) 0]
    rfl
  rw [hheld] at hexec
  obtain ⟨hone, hpkg, hcount, hid, hns, hpos⟩ := recordBody_reads s₃ p hfew
  refine completes_of_next hexec ⟨⟨r, by rw [hrecords]; exact List.mem_append_right _ (List.mem_singleton_self r), hrecords,
    by rw [hr], by rw [hr], ?_⟩, h₄, hregs.only⟩
  have hbody : r.body = recordBody s₃ p ls := by rw [hr]
  rw [hbody]
  refine ⟨recordBody_length s₃ p hfew, hone, ?_, ?_, ?_, ?_, ?_⟩
  · rw [hpkg, State.pkg, hsame.2 .power (by decide), State.pkg]
  · rw [hcount, hls, entriesOf_length, labelsOf_congr (h₁.2 .serve (by decide))]
  · rw [hid, hp, ← parcel_id hparcel]
  · rw [hns, hp]
  · rw [hpos, hp]

/-! ### The record ring -/

/-- What the entries, ends and releases behind a record leave as it was. -/
structure RecordsKept (s t : State) : Prop where
  records : t.host.records = s.host.records
  recPos : t.host.recPos = s.host.recPos
  parcels : t.roi.parcels = s.roi.parcels
  grows : OutGrows s t

theorem RecordsKept.refl (s : State) : RecordsKept s s := ⟨rfl, rfl, rfl, .refl s⟩

theorem RecordsKept.trans {s t u : State} (h : RecordsKept s t) (h' : RecordsKept t u) : RecordsKept s u :=
  ⟨h'.records.trans h.records, h'.recPos.trans h.recPos, h'.parcels.trans h.parcels, h.grows.trans h'.grows⟩

theorem RecordsKept.foldl {α : Type} {f : State → α → State} (hf : ∀ t a, RecordsKept t (f t a)) (l : List α)
    (s : State) : RecordsKept s (l.foldl f s) := by
  induction l generalizing s with
  | nil => exact .refl s
  | cons a l ih => exact (hf s a).trans (ih _)

theorem recordsKept_cqPut (i : Nat) (body : BitVec 256) (irq : Bool) (s : State) : RecordsKept s (cqPut i body irq s) :=
  ⟨(entryChange_cqPut ..).records, (entryChange_cqPut ..).recPos,
    congrArg _ ((cqPut_only i body irq s (.refl [.out, .host] s) (by simp)).only.2 .roi (by decide)), outGrows_cqPut ..⟩

theorem recordsKept_postWaiting (s : State) : RecordsKept s (postWaiting s) := by
  unfold postWaiting
  split
  next w l _ =>
    have hleft : RecordsKept s { s with host := { s.host with waiting := l } } := ⟨rfl, rfl, rfl, .of_eq rfl⟩
    exact hleft.trans (recordsKept_cqPut ..)
  next => exact .refl s

theorem recordsKept_drainWaiting (s : State) : RecordsKept s (drainWaiting s) := by
  have hall : ∀ n u, RecordsKept u (postAll n u) := by
    intro n
    induction n with
    | zero => exact .refl
    | succ n ih => exact fun u => (recordsKept_postWaiting u).trans (ih _)
  unfold drainWaiting
  split
  · exact hall _ s
  · exact .refl s

theorem recordsKept_putOrWait (w : Waiting) (s : State) : RecordsKept s (putOrWait w s) := by
  unfold putOrWait
  dsimp only
  split
  · exact (recordsKept_drainWaiting s).trans (recordsKept_cqPut ..)
  · exact (recordsKept_drainWaiting s).trans ⟨rfl, rfl, rfl, .of_eq rfl⟩

theorem recordsKept_setReq (k : Nat) (r : Req) (s : State) : RecordsKept s (setReq k r s) := ⟨rfl, rfl, rfl, .of_eq rfl⟩

theorem recordsKept_postFinal (k : Nat) (s : State) : RecordsKept s (postFinal k s) := by
  unfold postFinal
  dsimp only
  split
  · exact recordsKept_setReq ..
  · exact (recordsKept_setReq ..).trans (.foldl (fun _ _ => recordsKept_putOrWait _ _) _ _)

theorem recordsKept_releaseReq (k : Nat) (s : State) : RecordsKept s (releaseReq k s) := by
  have hpost : RecordsKept s (if (s.req k).finalDone then s else postFinal k s) := by
    split
    · exact .refl s
    · exact recordsKept_postFinal k s
  unfold releaseReq
  generalize (if (s.req k).finalDone then s else postFinal k s) = t at hpost
  refine hpost.trans (RecordsKept.trans (t := if (t.req k).st = .done then dropAt k [(t.req k).kvPkg] t else t) ?_
    (recordsKept_setReq ..))
  split
  · exact ⟨rfl, rfl, rfl, .of_eq rfl⟩
  · exact .refl t

/-- Committing a parcel's record keeps the ring, and marks the parcel and no other. -/
theorem commitParcel_keeps (id : Word) (s : State) :
    (commitParcel id s).host.records = s.host.records ∧ (commitParcel id s).host.recPos = s.host.recPos ∧
    (commitParcel id s).roi.parcels = s.roi.parcels.map (fun q => if q.id == id then { q with committed := true } else q) ∧
    OutGrows s (commitParcel id s) := by
  unfold commitParcel
  extract_lets s₁ crops roi s₂
  have hrel : RecordsKept s₂ (s₂.reqKeys.foldl (fun s k =>
      let r := s.req k
      if r.parcel = id ∧ r.st.ended = true then releaseReq k s else s) s₂) := by
    refine .foldl (fun t k => ?_) _ s₂
    dsimp only
    split
    · exact recordsKept_releaseReq k t
    · exact .refl t
  have hgrow : OutGrows s s₂ := .of_eq rfl
  exact ⟨hrel.records, hrel.recPos, hrel.parcels, hgrow.trans hrel.grows⟩

theorem parcel_committed {s t : State} {id : Word}
    (h : t.roi.parcels = s.roi.parcels.map (fun q => if q.id == id then { q with committed := true } else q)) :
    t.parcel id = (s.parcel id).map (fun q => { q with committed := true }) := by
  have hid : ((fun q : Parcel => q.id == id) ∘ fun q => if q.id == id then { q with committed := true } else q) =
      fun q => q.id == id := by
    funext q
    show ((if q.id == id then { q with committed := true } else q).id == id) = (q.id == id)
    split <;> rfl
  rw [State.parcel, State.parcel, h, List.find?_map, hid]
  cases hfound : s.roi.parcels.find? (fun q : Parcel => q.id == id) with
  | none => rfl
  | some q =>
    have hq : (q.id == id) = true := List.find?_some (p := fun q : Parcel => q.id == id) hfound
    simp only [Option.map_some, hq, if_true]

theorem completes_recordWrite {r : Rec} {rest : List Rec} {body : List Byte} {s : State}
    (hrecords : s.host.records = r :: rest) (hroom : s.recFree ≠ 0) (hclean : r.poisoned = false)
    (hbody : body = (if r.held then r.body.set 0x18 (BitVec.ofNat 8 (leAt r.body 0x18 1 + 32)) else r.body)) :
    Completes .recordWrite s (fun t =>
      t.host.records = rest ∧ t.host.recPos = recNext s.recSlots s.host.recPos ∧
      Out.hostWrite (BitVec.ofNat 64 (s.pair Reg.hostRecBaseLo Reg.hostRecBaseHi + 4096 * bits s.host.recPos 0 12))
        body ∈ t.out ∧
      Out.hostWrite (BitVec.ofNat 64 (s.pair Reg.hostRecBaseLo Reg.hostRecBaseHi + 4096 * bits s.host.recPos 0 12 + 0xFF8))
        (leBytes 8 ((crc32c body).toNat + s.host.recLap.toNat * 2 ^ 32 + 0xA5C3 * 2 ^ 48)) ∈ t.out ∧
      t.parcel r.parcel = (s.parcel r.parcel).map (fun q => { q with committed := true }) ∧
      Only [.out, .host, .roi, .serve] s t) := by
  obtain ⟨a, ha⟩ : ∃ a, a = s.pair Reg.hostRecBaseLo Reg.hostRecBaseHi + 4096 * bits s.host.recPos 0 12 := ⟨_, rfl⟩
  obtain ⟨mark, hmark⟩ : ∃ l, l = leBytes 8 ((crc32c body).toNat + s.host.recLap.toNat * 2 ^ 32 + 0xA5C3 * 2 ^ 48) :=
    ⟨_, rfl⟩
  obtain ⟨s₁, hs₁⟩ : ∃ u : State, u = (s.emit (.hostWrite (BitVec.ofNat 64 a) body)).emit
    (.hostWrite (BitVec.ofNat 64 (a + 0xFF8)) mark) := ⟨_, rfl⟩
  obtain ⟨e, he⟩ : ∃ e, e = recordEntry s₁ r.parcel (crc32c body) := ⟨_, rfl⟩
  obtain ⟨s₂, hs₂⟩ : ∃ u : State, u = advanceRec { s₁ with host := { s₁.host with records := rest } } := ⟨_, rfl⟩
  have hexec : exec .recordWrite s = .next (commitParcel r.parcel (putOrWait (.record e) s₂)) := by
    refine congrArg Host.Outcome.next ?_
    rw [recordWrite, hrecords]
    dsimp only
    rw [if_neg hroom, hclean, if_neg Bool.false_ne_true, ← hbody]
    subst hs₂ he hs₁ hmark ha
    rfl
  have h₁ : Only [.out] s s₁ := by rw [hs₁]; exact only_iff.2 (by simp)
  have hring : s₁.host = s.host := h₁.2 .host (by decide)
  have hreg : s₁.regs = s.regs := (h₁.2 .regs (by decide)).1
  have h₂ : Only [.host] s₁ s₂ := by rw [hs₂]; exact only_iff.2 (by simp [advanceRec])
  have hmid : Only [.out, .host, .roi, .serve] s s₂ := (h₁.mono (by simp)).trans (h₂.mono (by simp))
  have hput := recordsKept_putOrWait (.record e) s₂
  obtain ⟨hrec, hpos, hparcels, hgrow⟩ := commitParcel_keeps r.parcel (putOrWait (.record e) s₂)
  have houts : OutGrows s₁ (commitParcel r.parcel (putOrWait (.record e) s₂)) :=
    (OutGrows.of_eq (by rw [hs₂]; rfl)).trans (hput.grows.trans hgrow)
  have hmem : ∀ o, o ∈ s₁.out → o ∈ (commitParcel r.parcel (putOrWait (.record e) s₂)).out := fun o h => houts.mem h
  rw [← ha, ← hmark]
  refine completes_of_next hexec ⟨?_, ?_, hmem _ ?_, hmem _ ?_, ?_, ?_⟩
  · rw [hrec, hput.records, hs₂]; rfl
  · rw [hpos, hput.recPos, hs₂, advanceRec]
    show recNext s₁.recSlots s₁.host.recPos = _
    rw [hring, State.recSlots, fld_eq_of_regs_eq hreg, State.recSlots]
  · rw [hs₁]; simp [State.emit]
  · rw [hs₁]; simp [State.emit]
  · refine parcel_committed ?_
    rw [hparcels, hput.parcels, hs₂, advanceRec]
    exact congrArg _ (congrArg _ (h₁.2 .roi (by decide)))
  · exact hmid.trans (commitParcel_only _ _ (putOrWait_only _ _ (.refl [.out, .host, .roi, .serve] s₂) (by simp)) (by simp)).only

/-! ### The statement -/

/-- Settles O25: each command of requests, tenants, records and tables is one lemma. -/
theorem requestCommandsComplete : Obligations.RequestCommandsComplete := by
  unfold Obligations.RequestCommandsComplete
  refine ⟨?_, ?_, ?_, ?_, ?_, ?_, ?_, ?_, ?_, ?_⟩
  · exact fun f table src s hs hsup hok => completes_grammarLoad hs hsup hok
  · exact fun f blob src plain d s hs hsup hrun hok hopen => completes_adapterLoad hs hsup hrun hok hopen
  · exact fun f s hf hid => completes_tenantCfg hf hid
  · exact fun f crops bytes s hs hf hanchor hbme hok => completes_regionReq hs hf hanchor hbme hok
  · exact fun id q s hs hparcel hopen hkept hnone hroom => completes_recordAssembly hs hparcel hopen hkept hnone hroom
  · exact fun r rest body s _ hrecords hroom hclean hbody => completes_recordWrite hrecords hroom hclean hbody
  · exact fun k s hs hdue => completes_lingerExpiry hs hdue
  · exact fun s hs hnone => exec_newKey hs hnone
  · exact fun s hs hserved => completes_reqRead hs hserved
  · exact fun s hs => exec_serveStepNumLoRead hs

end Sys2Proof.Machine
end

section
/-!
PROOFS. Flash.lean: erasing, writing and committing the flash (R322, R331 to R333).
-/

namespace Sys2Proof.Machine

/-! ### Flash bytes -/

theorem flashBytes_length (s : State) (off n : Nat) : (s.flashBytes off n).length = n := smGetAll_length ..

/-- One byte of the flash decides what a range of it reads. -/
theorem flashBytes_eq {s t : State} {off n : Nat} (h : ∀ k < n, s.flashBytes (off + k) 1 = t.flashBytes (off + k) 1) :
    s.flashBytes off n = t.flashBytes off n := by
  induction n generalizing off with
  | zero => rfl
  | succ n ih =>
    have hhead : smGet 0xFF s.flash off = smGet 0xFF t.flash off := by simpa [State.flashBytes, smGetAll] using h 0 (by omega)
    have htail := ih (off := off + 1) (fun k hk => by
      rw [Nat.add_right_comm]
      exact h (k + 1) (by omega))
    exact congrArg₂ List.cons hhead htail

theorem flashBytes_congr {s t : State} (h : t.flash = s.flash) (off n : Nat) : t.flashBytes off n = s.flashBytes off n := by
  rw [State.flashBytes, h, State.flashBytes]

section Put

variable {s : State} (hs : smWf (fun _ => (0xFF : Byte)) s.flash = true)

include hs

theorem putFlash_wf (off : Nat) (l : List Byte) : smWf (fun _ => (0xFF : Byte)) (putFlash off l s).flash = true :=
  smSetAll_wf hs

theorem flashBytes_putFlash (off : Nat) (l : List Byte) : (putFlash off l s).flashBytes off l.length = l :=
  smGetAll_smSetAll hs

theorem flashBytes_putFlash_ne {off a : Nat} {l : List Byte} (h : a < off ∨ off + l.length ≤ a) :
    (putFlash off l s).flashBytes a 1 = s.flashBytes a 1 :=
  congrArg (fun b => [b]) (smGet_smSetAll_ne hs h)

theorem flashBytes_eraseFlash (off len a : Nat) :
    (eraseFlash off len s).flashBytes a 1 = if a < off ∨ off + len ≤ a then s.flashBytes a 1 else [0xFF] := by
  rw [State.flashBytes, State.flashBytes, smGetAll_one, smGetAll_one, eraseFlash]
  split
  next h => rw [smGet_filter hs (p := fun k => decide (k < off ∨ off + len ≤ k)) (decide_eq_true h)]
  next h => rw [smGet_filter_of_gone _ (p := fun k => decide (k < off ∨ off + len ≤ k)) (decide_eq_false h)]

theorem eraseFlash_wf (off len : Nat) : smWf (fun _ => (0xFF : Byte)) (eraseFlash off len s).flash = true :=
  smWf_filter _ hs

end Put

/-! ### FLASH_ERASE (R331) -/

/-- The erase of a commit sector keeps every byte from 0x2000 on. -/
theorem eraseCommit_keeps {s : State} (hs : smWf (fun _ => (0xFF : Byte)) s.flash = true) (off len : Nat) (b : Bool) :
    smWf (fun _ => (0xFF : Byte)) (eraseCommit off len b s).flash = true ∧
      (∀ a, 0x2000 ≤ a → (eraseCommit off len b s).flashBytes a 1 = s.flashBytes a 1) ∧
      Moves [.flash] s (eraseCommit off len b s) := by
  unfold eraseCommit
  split
  · refine ⟨eraseFlash_wf hs _ _, fun a ha => ?_, eraseFlash_only _ _ _ (.refl ..) (by simp)⟩
    rw [flashBytes_eraseFlash hs, if_pos]
    cases b <;> simp only [commitAt, Bool.false_eq_true, if_true, if_false] <;> omega
  · exact ⟨hs, fun _ _ => rfl, .refl ..⟩

theorem completes_flashErase {f : Flight} {s : State} (hs : Canon s) (hf : Started f 0x04 s)
    (hfound : s.flag Reg.bootStatus 8 = true) (hrange : flashRange s 4096 (descNum f.desc 32 4) (descNum f.desc 36 4) = 0) :
    Completes (.flashErase f.id) s (fun t => DescDone f 0 0 s t ∧
      (∀ a, descNum f.desc 32 4 ≤ a → a < descNum f.desc 32 4 + descNum f.desc 36 4 → t.flashBytes a 1 = [0xFF]) ∧
      (∀ a, 0x2000 ≤ a → a < descNum f.desc 32 4 ∨ descNum f.desc 32 4 + descNum f.desc 36 4 ≤ a →
        t.flashBytes a 1 = s.flashBytes a 1) ∧ Only [.out, .host, .flash] s t) := by
  generalize hoff : descNum f.desc 32 4 = off at hrange ⊢
  generalize hlen : descNum f.desc 36 4 = len at hrange ⊢
  obtain ⟨u, hu⟩ : ∃ u, u = eraseCommit off len true (eraseCommit off len false s) := ⟨_, rfl⟩
  have hexec : exec (.flashErase f.id) s = .next (completeFlight f 0 0 (eraseFlash off len u)) := by
    refine congrArg Host.Outcome.next ((doWork_started hf flashErase).trans ?_)
    rw [hu, flashErase, hoff, hlen, hfound, hrange]
    rfl
  obtain ⟨hwf₁, hkeep₁, hm₁⟩ := eraseCommit_keeps hs.flash off len false
  obtain ⟨hwf, hkeep₂, hm₂⟩ := eraseCommit_keeps hwf₁ off len true
  rw [← hu] at hwf hkeep₂ hm₂
  have hmoves : Moves [.flash] s (eraseFlash off len u) := (hm₁.trans hm₂).trans (eraseFlash_only _ _ _ (.refl ..) (by simp))
  obtain ⟨hdone, hend⟩ := done_completeFlight hs hf.2.2.2 hmoves (by decide) 0
  have hflash := flashBytes_congr (hend.only.2 .flash (by decide))
  refine completes_of_next hexec ⟨hdone, fun a hlo hhi => ?_, fun a ha hout => ?_, (hmoves.only.mono (by simp)).trans (hend.only.mono (by simp))⟩
  · rw [hflash, flashBytes_eraseFlash hwf, if_neg (by omega)]
  · rw [hflash, flashBytes_eraseFlash hwf, if_pos hout, hkeep₂ a ha, hkeep₁ a ha]

/-! ### FLASH_WRITE (R332) -/

theorem smSetAll_append {α : Type} [DecidableEq α] (d : α) (m : SMap α) (k : Nat) (a b : List α) :
    smSetAll d m k (a ++ b) = smSetAll d (smSetAll d m k a) (k + a.length) b := by
  induction a generalizing m k with
  | nil => rfl
  | cons v a ih => rw [List.cons_append, smSetAll, smSetAll, ih, List.length_cons, Nat.add_assoc, Nat.add_comm 1]

theorem putFlash_append (off : Nat) (a b : List Byte) (s : State) :
    putFlash off (a ++ b) s = putFlash (off + a.length) b (putFlash off a s) := by
  simp only [putFlash, smSetAll_append]

theorem cutBytes_flatten (k n : Nat) (l : List Byte) : (cutBytes k n l).flatten = l.take (k * n) := by
  induction n generalizing l with
  | zero => simp [cutBytes]
  | succ n ih => rw [cutBytes, List.flatten_cons, ih, ← List.take_add, Nat.mul_succ, Nat.add_comm]

theorem cutBytes_length (k n : Nat) (l : List Byte) : (cutBytes k n l).length = n := by
  induction n generalizing l with
  | zero => rfl
  | succ n ih => rw [cutBytes, List.length_cons, ih]

theorem length_of_mem_cutBytes {k n : Nat} {l : List Byte} (h : k * n ≤ l.length) : ∀ p ∈ cutBytes k n l, p.length = k := by
  induction n generalizing l with
  | zero => simp [cutBytes]
  | succ n ih =>
    rw [Nat.mul_succ] at h
    intro p hp
    rcases List.mem_cons.1 hp with rfl | hp
    · rw [List.length_take]; omega
    · exact ih (by rw [List.length_drop]; omega) p hp

/-- Pages of an erased range are all programmed. -/
theorem writePages_erased {pages : List (List Byte)} {off done : Nat} {s : State}
    (hs : smWf (fun _ => (0xFF : Byte)) s.flash = true) (hpages : ∀ p ∈ pages, p.length = 256)
    (herased : ∀ k < 256 * pages.length, s.flashBytes (off + k) 1 = [0xFF]) :
    writePages pages off done none s = (putFlash off pages.flatten s, 0, done + 256 * pages.length) := by
  induction pages generalizing off done s with
  | nil => rfl
  | cons p l ih =>
    have hp : p.length = 256 := hpages p (by simp)
    rw [List.length_cons] at herased
    have hblank : (s.flashBytes off 256).any (fun b => b != 0xFF) = false := by
      rw [List.any_eq_false]
      intro b hb
      have heach : s.flashBytes off 256 = ({ s with flash := [] } : State).flashBytes off 256 :=
        flashBytes_eq (fun k hk => (herased k (by omega)).trans rfl)
      have hff : ∀ n o, ∀ x ∈ ({ s with flash := [] } : State).flashBytes o n, x = 0xFF := by
        intro n
        induction n with
        | zero => exact fun o x hx => absurd hx (by simp [State.flashBytes, smGetAll])
        | succ n ih =>
          intro o x hx
          rcases List.mem_cons.1 hx with rfl | hx
          · rfl
          · exact ih _ _ hx
      rw [heach] at hb
      simp [hff _ _ _ hb]
    rw [writePages, hblank, if_neg Bool.false_ne_true]
    rw [ih (putFlash_wf hs off p) (fun q hq => hpages q (by simp [hq])) (fun k hk => ?_), List.flatten_cons, putFlash_append,
      hp, List.length_cons, Nat.mul_succ, Nat.add_assoc,
        Nat.add_comm 256]
    · rw [flashBytes_putFlash_ne hs (by omega), Nat.add_assoc]
      exact herased _ (by omega)

theorem flashRange_congr {s u : State} (h : Only [.out] s u) (gran off len : Nat) :
    flashRange u gran off len = flashRange s gran off len := by
  have hregs := (h.2 .regs (by decide)).1
  have hslot : u.bootedSlot = s.bootedSlot := by rw [State.bootedSlot, fld_eq_of_regs_eq hregs, State.bootedSlot]
  have hsize : u.flashSize = s.flashSize := by
    unfold State.flashSize
    simp only [fld_eq_of_regs_eq hregs]
  have hlife : u.lifecycle = s.lifecycle := by
    unfold State.lifecycle
    simp only [fld_eq_of_regs_eq hregs]
  unfold flashRange
  rw [hsize, hslot, hlife]

theorem completes_flashWrite {f : Flight} {bytes src : List Byte} {s : State} (hs : Canon s)
    (hf : Supplied f 0x05 bytes src s) (hfound : s.flag Reg.bootStatus 8 = true) (hshort : descNum f.desc 36 4 ≤ 65536)
    (hrange : flashRange s 256 (descNum f.desc 32 4) (descNum f.desc 36 4) = 0) (hsrc : src.length = descNum f.desc 36 4)
    (herased : ∀ k < descNum f.desc 36 4, s.flashBytes (descNum f.desc 32 4 + k) 1 = [0xFF]) :
    Completes (.flashWrite f.id bytes none) s (fun t => DescDone f 0 (BitVec.ofNat 32 (descNum f.desc 36 4)) s t ∧
      t.flashBytes (descNum f.desc 32 4) (descNum f.desc 36 4) = src ∧
      (∀ a, a < descNum f.desc 32 4 ∨ descNum f.desc 32 4 + descNum f.desc 36 4 ≤ a →
        t.flashBytes a 1 = s.flashBytes a 1) ∧ Only [.out, .host, .flash] s t) := by
  obtain ⟨u, hwork, hread⟩ := withSource_supplied hf (fun f => dAddr f.desc) flashReads (fun f b => flashWrite b none f)
  generalize hoff : descNum f.desc 32 4 = off at hrange herased ⊢
  generalize hlen : descNum f.desc 36 4 = len at hshort hrange hsrc herased ⊢
  have hflash : u.flash = s.flash := hread.only.2 .flash (by decide)
  have hwf : smWf (fun _ => (0xFF : Byte)) u.flash = true := by rw [hflash]; exact hs.flash
  have hpages : 256 * (len / 256) = len := by
    have hmod : len % 256 = 0 := by
      by_contra hne
      simp [flashRange, hne, eFlashRange] at hrange
    omega
  have hfull : src ++ zeros (len - src.length) = src := by rw [hsrc, Nat.sub_self]; exact List.append_nil _
  have hwrite : writePages (cutBytes 256 (len / 256) src) off 0 none u = (putFlash off src u, 0, len) := by
    rw [writePages_erased hwf (length_of_mem_cutBytes (by omega)), cutBytes_flatten, cutBytes_length, hpages, Nat.zero_add,
      List.take_of_length_le (by omega)]
    intro k hk
    rw [cutBytes_length, hpages] at hk
    rw [flashBytes_congr hflash]
    exact herased k hk
  have hexec : exec (.flashWrite f.id bytes none) s = .next (completeFlight f 0 (BitVec.ofNat 32 len) (putFlash off src u)) := by
    refine congrArg Host.Outcome.next (hwork.trans ?_)
    have hfound' : u.flag Reg.bootStatus 8 = true := by
      rw [State.flag, reg_eq_of_regs_eq (hread.only.2 .regs (by decide)).1]
      exact hfound
    have hrange' := (flashRange_congr hread.only 256 off len).trans hrange
    rw [flashWrite, hoff, hlen, hfound', hrange', hfull, hwrite]
    simp only [Nat.not_lt.2 hshort, Bool.not_true, Bool.false_eq_true, ne_eq, not_true_eq_false, if_false, if_true]
  have hput : Only [.flash] u (putFlash off src u) := (putFlash_only _ _ _ (.refl [.flash] u) (by simp)).only
  have hmoves : Only [.out, .flash] s (putFlash off src u) := (hread.only.mono (by simp)).trans (hput.mono (by simp))
  rw [completeFlight_unsigned hf.2.2.1] at hexec
  have hdone := descDone_finishFlight ((RingsAlike.refl hs).of_only hmoves (by decide)) f 0 (BitVec.ofNat 32 len)
  have hend := finishFlight_zero_frame f (BitVec.ofNat 32 len) (putFlash off src u)
  have hsame := flashBytes_congr (hend.only.2 .flash (by decide))
  refine completes_of_next hexec ⟨hdone, ?_, fun a hout => ?_, (hmoves.mono (by simp)).trans (hend.only.mono (by simp))⟩
  · rw [hsame, ← hsrc, flashBytes_putFlash hwf]
  · rw [hsame, flashBytes_putFlash_ne hwf (by omega), flashBytes_congr hflash]

/-- On a stake the source is asked for at the home anchor, and the descriptor waits for the data (R68). -/
theorem completes_flashWrite_stake {f : Flight} {bytes : List Byte} {s : State} (hf : Started f 0x05 s)
    (hstake : s.anchor = false) (hroute : s.route (s.homeAnchor s.pkg) ≠ 5) (hsome : 0 < descNum f.desc 36 4)
    (hshort : descNum f.desc 36 4 ≤ 65536) :
    Completes (.flashWrite f.id bytes none) s (fun t =>
      (∃ l, t.flight f.id = some { f with st := .waitData l s.upNs }) ∧ Only [.regs, .out, .basket, .host] s t) := by
  obtain ⟨hflight, hst, hop, -⟩ := hf
  have hreads : flashReads f = descNum f.desc 36 4 := if_neg (by omega)
  obtain ⟨u, hu⟩ : ∃ u, u = fwdReads (flashReads f / 992 + 1) (BitVec.ofNat 64 (dAddr f.desc)) (flashReads f) s := ⟨_, rfl⟩
  have hexec : exec (.flashWrite f.id bytes none) s = .next (setFlight f.id
      (.waitData ((seqsBetween s.basket.looseSeq u.basket.looseSeq).map (fun x => (x, none))) u.upNs) u) := by
    refine congrArg Host.Outcome.next ?_
    have hne : flashReads f ≠ 0 := by omega
    simp only [withSource, hflight, hop, hst, hstake, hne, hroute, bne_self_eq_false, Bool.false_eq_true, if_false, ← hu]
  have hmoves : Moves [.regs, .out, .basket] s u := by rw [hu]; exact fwdReads_only _ _ _ _ (.refl ..) (by simp)
  have hup : u.upNs = s.upNs := by rw [State.upNs, hmoves.only.2 .time (by decide), State.upNs]
  have hflight' : u.flight f.id = some f := by
    rw [State.flight, hmoves.only.2 .host (by decide)]
    exact hflight
  rw [hup] at hexec
  exact completes_of_next hexec ⟨⟨_, flight_setFlight hflight' _⟩,
    (hmoves.only.mono (by simp)).trans (only_iff.2 (by simp [setFlight]))⟩

/-! ### IMAGE_COMMIT (R333) -/

/-- Both sequences of a digest hold four words. -/
def ShaMix.full (m : ShaMix) : Prop := m.up.length = 4 ∧ m.dn.length = 4

theorem ShaMix.full_round {m : ShaMix} (h : m.full) (k : Word) : (m.round k).full := by
  obtain ⟨hup, hdn⟩ := h
  unfold ShaMix.round
  split
  · exact ⟨rfl, rfl⟩
  · exact ⟨hup, hdn⟩

theorem ShaMix.full_rounds (ks w : List Word) {m : ShaMix} (h : m.full) : (shaRounds ks w m).full := by
  induction ks generalizing w m with
  | nil => exact h
  | cons k ks ih => exact ih _ (full_round h _)

theorem ShaMix.full_fold (ks : List Word) (n : Nat) (l : List Byte) {m : ShaMix} (h : m.full) : (shaFold ks n l m).full := by
  induction n generalizing l m with
  | zero => exact h
  | succ n ih =>
    have hrounds := full_rounds ks (bigWords 16 l) h
    refine ih _ ⟨?_, ?_⟩
    · rw [ShaMix.plus, List.length_zipWith, h.1, hrounds.1]; rfl
    · rw [ShaMix.plus, List.length_zipWith, h.2, hrounds.2]; rfl

theorem smallPrimes_length : smallPrimes.length = 64 := by decide +kernel

theorem ShaMix.full_start : ShaMix.start.full := by
  have h := smallPrimes_length
  constructor <;> simp only [ShaMix.start, List.length_take, List.length_drop, List.length_map] <;> omega

theorem sha256_length (l : List Byte) : (sha256 l).length = 32 := by
  unfold sha256
  extract_lets tail m
  obtain ⟨hup, hdn⟩ : m.full := ShaMix.full_fold _ _ _ ShaMix.full_start
  have hword : ∀ ws : List Word, (ws.flatMap (fun w => (leBytes 4 w.toNat).reverse)).length = 4 * ws.length := by
    intro ws
    induction ws with
    | nil => rfl
    | cons w ws ih => rw [List.flatMap_cons, List.length_append, ih, List.length_reverse, leBytes_length, List.length_cons]; omega
  rw [hword, List.length_append, hup, hdn]

/-- A commit record without its check sum. -/
def commitHead (b : Bool) (seq : Word) (content : List Byte) : List Byte :=
  leBytes 4 0x534C4F54 ++ leBytes 1 b.toNat ++ leBytes 1 0 ++ leBytes 2 1 ++ leBytes 4 seq.toNat
    ++ leBytes 4 content.length ++ sha256 content ++ zeros 12

theorem commitHead_length (b : Bool) (seq : Word) (content : List Byte) : (commitHead b seq content).length = 60 := by
  simp only [commitHead, List.length_append, leBytes_length, sha256_length, zeros, List.length_replicate]

theorem commitRecord_eq (b : Bool) (seq : Word) (content : List Byte) : commitRecord b seq content =
    commitHead b seq content ++ leBytes 4 (crc32c (commitHead b seq content)).toNat := rfl

theorem commitRecord_length (b : Bool) (seq : Word) (content : List Byte) : (commitRecord b seq content).length = 64 := by
  rw [commitRecord_eq, List.length_append, commitHead_length, leBytes_length]

theorem contentLen_bounds (l : List Byte) : 256 ≤ contentLen l := le_max_left ..

/-- What a commit record says of its slot. -/
theorem commitRecord_reads {b : Bool} {seq : Word} {content : List Byte} (hlo : 256 ≤ content.length)
    (hhi : content.length ≤ 1048576) :
    commitOk b (commitRecord b seq content) = true ∧ leAt (commitRecord b seq content) 8 4 = seq.toNat := by
  have hseq := seq.isLt
  have hhead := commitHead_length b seq content
  have hbytes : ∃ r, commitRecord b seq content = leBytes 4 0x534C4F54 ++ (leBytes 1 b.toNat ++ (leBytes 1 0 ++ (leBytes 2 1 ++
      (leBytes 4 seq.toNat ++ (leBytes 4 content.length ++ r))))) := by
    rw [commitRecord_eq, commitHead]
    simp only [List.append_assoc]
    exact ⟨_, rfl⟩
  have hmagic : leAt (commitRecord b seq content) 0 4 = 0x534C4F54 := by
    obtain ⟨r, hr⟩ := hbytes
    rw [hr, leAt_leBytes]
    decide
  have hslot : leAt (commitRecord b seq content) 4 1 = b.toNat := by
    obtain ⟨r, hr⟩ := hbytes
    rw [hr, leAt_append _ _ _ _ ((leBytes_length ..).trans_le (by decide)), leBytes_length, leAt_leBytes]
    cases b <;> rfl
  have hzero : leAt (commitRecord b seq content) 5 1 = 0 := by
    obtain ⟨r, hr⟩ := hbytes
    rw [hr]
    iterate 2 rw [leAt_append _ _ _ _ ((leBytes_length ..).trans_le (by decide)), leBytes_length]
    rw [leAt_leBytes]
    decide
  have hone : leAt (commitRecord b seq content) 6 2 = 1 := by
    obtain ⟨r, hr⟩ := hbytes
    rw [hr]
    iterate 3 rw [leAt_append _ _ _ _ ((leBytes_length ..).trans_le (by decide)), leBytes_length]
    rw [leAt_leBytes]
    decide
  have hnum : leAt (commitRecord b seq content) 8 4 = seq.toNat := by
    obtain ⟨r, hr⟩ := hbytes
    rw [hr]
    iterate 4 rw [leAt_append _ _ _ _ ((leBytes_length ..).trans_le (by decide)), leBytes_length]
    rw [leAt_leBytes]
    exact Nat.mod_eq_of_lt hseq
  have hlen : leAt (commitRecord b seq content) 12 4 = content.length := by
    obtain ⟨r, hr⟩ := hbytes
    rw [hr]
    iterate 5 rw [leAt_append _ _ _ _ ((leBytes_length ..).trans_le (by decide)), leBytes_length]
    rw [leAt_leBytes]
    omega
  have hpad : ((commitRecord b seq content).drop 48).take 12 = zeros 12 := by
    have hbody : (leBytes 4 0x534C4F54 ++ leBytes 1 b.toNat ++ leBytes 1 0 ++ leBytes 2 1 ++ leBytes 4 seq.toNat
        ++ leBytes 4 content.length ++ sha256 content).length = 48 := by
      simp only [List.length_append, leBytes_length, sha256_length]
    rw [commitRecord_eq, commitHead, List.append_assoc, List.drop_left' hbody]
    exact List.take_left' (List.length_replicate ..)
  have hsum : leAt (commitRecord b seq content) 60 4 = (crc32c ((commitRecord b seq content).take 60)).toNat := by
    rw [commitRecord_eq, leAt_append _ _ _ _ (by omega), hhead, ← List.append_nil (leBytes 4 _), leAt_leBytes, List.append_nil,
      List.take_left' hhead]
    exact Nat.mod_eq_of_lt (BitVec.isLt _)
  refine ⟨?_, hnum⟩
  unfold commitOk
  rw [hmagic, hslot, hzero, hone, hlen, hpad, hsum]
  simp only [beq_self_eq_true, Bool.and_true, Bool.true_and, decide_eq_true hlo, decide_eq_true hhi]
  rfl

/-- A slot whose content passes is committed: the record stands at its place. -/
theorem completes_imageCommit {f : Flight} {b : Bool} {o : FuseOutcome} {s : State} (hs : Canon s) (hf : Started f 0x06 s)
    (hslot : descNum f.desc 32 1 = b.toNat) (hkind : descNum f.desc 33 1 = 1) (hidle : s.bootedSlot ≠ some b) :
    Completes (.imageCommit f.id true o) s (fun t =>
      (contentVerdict s.floorVal (s.slotContent b 0x100000) = 0 →
        DescDone f 0 (nextSeq s) s t ∧ commitOk b (t.flashBytes (commitAt b) 64) = true ∧
        leAt (t.flashBytes (commitAt b) 64) 8 4 = (nextSeq s).toNat) ∧
      (contentVerdict s.floorVal (s.slotContent b 0x100000) ≠ 0 →
        DescDone f (contentVerdict s.floorVal (s.slotContent b 0x100000)) 0 s t ∧ t.flash = s.flash)) := by
  have hexec : exec (.imageCommit f.id true o) s = .next (commitSlot b true f s) := by
    refine congrArg Host.Outcome.next ((doWork_started hf _).trans ?_)
    rw [imageCommit, hslot, hkind]
    cases b <;> rfl
  generalize hcontent : s.slotContent b 0x100000 = slot at *
  rw [commitSlot, if_neg hidle, hcontent] at hexec
  by_cases hok : contentVerdict s.floorVal slot = 0
  · obtain ⟨content, hc⟩ : ∃ content, content = slot.take (contentLen slot) := ⟨_, rfl⟩
    obtain ⟨r, hr⟩ : ∃ r, r = commitRecord b (nextSeq s) content := ⟨_, rfl⟩
    have hsize : r.length = 64 := by rw [hr, commitRecord_length]
    obtain ⟨v, hv⟩ : ∃ v, v = eraseFlash (commitAt b) 4096 s := ⟨_, rfl⟩
    have hwf : smWf (fun _ => (0xFF : Byte)) v.flash = true := by rw [hv]; exact eraseFlash_wf hs.flash _ _
    obtain ⟨u, hu⟩ : ∃ u : State, u = { putFlash (commitAt b) r v with freeCtr := v.freeCtr + 1 } := ⟨_, rfl⟩
    have hexec' : exec (.imageCommit f.id true o) s = .next (completeFlight f 0 (nextSeq s) u) := by
      rw [hexec, hu, hr, hc, hv]
      simp only [hok, ne_eq, not_true_eq_false, if_false, if_true]
    have hlen : content.length = min (contentLen slot) 1048576 := by
      rw [hc, List.length_take, ← hcontent, State.slotContent, flashBytes_length]
    have hlo := contentLen_bounds slot
    have hmoves : Only [.flash, .freeCtr] s u := by rw [hu, hv]; exact only_iff.2 (by simp [putFlash, eraseFlash])
    have hflash : u.flashBytes (commitAt b) 64 = r := by
      have hput := flashBytes_putFlash hwf (commitAt b) r
      rw [hsize] at hput
      exact (flashBytes_congr (by rw [hu]) _ _).trans hput
    rw [completeFlight_unsigned hf.2.2.2] at hexec'
    have hend := finishFlight_zero_frame f (nextSeq s) u
    refine completes_of_next hexec' ⟨fun _ => ⟨descDone_finishFlight ((RingsAlike.refl hs).of_only hmoves (by decide)) f 0 _, ?_⟩,
      fun hne => absurd hok hne⟩
    rw [flashBytes_congr (hend.only.2 .flash (by decide)), hflash, hr]
    exact commitRecord_reads (by omega) (by omega)
  · have hexec' : exec (.imageCommit f.id true o) s = .next (finishFlight f (contentVerdict s.floorVal slot) 0 s) := by
      rw [hexec]
      simp only [hok, ne_eq, not_false_eq_true, if_true]
    refine completes_of_next hexec' ⟨fun h => absurd h hok, fun _ => ⟨descDone_finishFlight (.refl hs) f _ 0, ?_⟩⟩
    exact (finishFlight_only f _ 0 s (.refl [.regs, .out, .host] s) (by simp)).only.2 .flash (by decide)

/-- Settles O17: erase, write on an anchor and on a stake, and commit are one lemma each. -/
theorem flashCommandsComplete : Obligations.FlashCommandsComplete := by
  unfold Obligations.FlashCommandsComplete
  refine ⟨?_, ?_, ?_, ?_⟩
  · exact fun f s hs hf hfound hrange => completes_flashErase hs hf hfound hrange
  · exact fun f bytes src s hs hf hfound hshort hrange hsrc herased =>
      completes_flashWrite hs hf hfound hshort hrange hsrc herased
  · exact fun f bytes s hf hstake hroute hsome hshort => completes_flashWrite_stake hf hstake hroute hsome hshort
  · exact fun f b o s hs hf hslot hkind hidle => completes_imageCommit hs hf hslot hkind hidle

end Sys2Proof.Machine
end

section
/-!
PROOFS. Fields.lean: field inputs, the encoder and its presets, strobes, sync outputs and exposures (R90, R91, R93, R97, R100 to
R104, R107 to R109).
-/

namespace Sys2Proof.Machine

/-! ### What a trigger reads -/

section Reads

variable {s t : State} (hregs : t.regs = s.regs) (htime : t.time = s.time) (hat : t.pix.oldAt = s.pix.oldAt)
  (hold : t.pix.oldRegs = s.pix.oldRegs)

include hregs htime hat hold

theorem pixReg_congr (off : Nat) : t.pixReg off = s.pixReg off := by
  rw [State.pixReg, hat, hold, htime, reg_eq_of_regs_eq hregs, State.pixReg]

theorem exposure_congr (setup src : Nat) : t.exposure setup src = s.exposure setup src := by
  unfold State.exposure State.setupWindows
  simp only [pixReg_congr hregs htime hat hold, htime, reg_eq_of_regs_eq hregs]

theorem accepts_congr (e : Exposure) (hpend : t.pix.pend = s.pix.pend) (hcur : t.pix.cur = s.pix.cur)
    (hbusy : t.pix.darkBusy = s.pix.darkBusy) (hend : t.pix.readEnd = s.pix.readEnd) : t.accepts e = s.accepts e := by
  unfold State.accepts
  rw [pixReg_congr hregs htime hat hold, hpend, hcur, hbusy, hend]

end Reads

/-- The filtered levels, the events and the position stay. -/
structure InputsKept (s t : State) : Prop where
  levels : t.field.levels = s.field.levels
  evq : t.field.evq = s.field.evq
  pos : t.field.pos = s.field.pos

theorem InputsKept.refl (s : State) : InputsKept s s := ⟨rfl, rfl, rfl⟩

theorem InputsKept.trans {s t u : State} (h : InputsKept s t) (h' : InputsKept t u) : InputsKept s u :=
  ⟨h'.levels.trans h.levels, h'.evq.trans h.evq, h'.pos.trans h.pos⟩

theorem InputsKept.of_moves {ps : List Part} {s t : State} (h : Moves ps s t) (hfield : Part.field ∉ ps) : InputsKept s t := by
  have hsame : t.field = s.field := h.only.2 .field hfield
  exact ⟨by rw [hsame], by rw [hsame], by rw [hsame]⟩

theorem InputsKept.foldl {α : Type} {f : State → α → State} (hf : ∀ t a, InputsKept t (f t a)) (l : List α) (s : State) :
    InputsKept s (l.foldl f s) := by
  induction l generalizing s with
  | nil => exact .refl s
  | cons a l ih => exact (hf s a).trans (ih _)

theorem inputsKept_addStarts (l : List (Nat × Nat)) (s : State) : InputsKept s (addStarts l s) := by
  refine .foldl (fun t p => ?_) l s
  exact ⟨rfl, rfl, rfl⟩

theorem inputsKept_dropStarts (l : List (Nat × Nat)) (s : State) : InputsKept s (dropStarts l s) := by
  refine .foldl (fun t p => ?_) l s
  exact ⟨rfl, rfl, rfl⟩

theorem inputsKept_decideTrigger (src setup mask : Nat) (s : State) : InputsKept s (decideTrigger src setup mask s) := by
  unfold decideTrigger
  extract_lets e ok reg starts counted now v
  have hv : InputsKept s v := by
    show InputsKept s (if ok then _ else _)
    split
    · exact .of_moves (acceptExposure_only e s (.refl [.regs, .pix, .roi] s) (by simp)) (by decide)
    · refine .of_moves (ps := [.regs, .roi]) (countDropped_only _ _ ?_ (by simp)) (by decide)
      split
      · exact markRestart_only s (.refl ..) (by simp)
      · exact .refl ..
  refine InputsKept.trans ?_ (inputsKept_addStarts _ _)
  exact hv.trans ⟨rfl, rfl, rfl⟩

theorem inputsKept_undoTrigger (x : TrigNow) (s : State) : InputsKept s (undoTrigger x s) := by
  have hrest : InputsKept (dropStarts x.strobes s) (undoTrigger x s) := by
    unfold undoTrigger
    generalize dropStarts x.strobes s = u
    dsimp only
    split
    · split <;> exact ⟨rfl, rfl, rfl⟩
    all_goals exact ⟨rfl, rfl, rfl⟩
  exact (inputsKept_dropStarts ..).trans hrest

theorem inputsKept_trigger (src setup mask : Nat) (s : State) : InputsKept s (trigger src setup mask s) := by
  unfold trigger
  split
  · exact .refl s
  · split
    · split
      · split
        · exact .refl s
        · exact (inputsKept_undoTrigger ..).trans (inputsKept_decideTrigger ..)
      · exact inputsKept_decideTrigger ..
    · exact inputsKept_decideTrigger ..

/-- The next frame of an accepted exposure (R91). -/
structure FrameTaken (e : Exposure) (s t : State) : Prop where
  pend : t.pix.pend = s.pix.pend ++ [e]
  readEnd : t.pix.readEnd = e.startAt + e.lenP + e.readP
  snaps : t.pix.snaps = s.pix.snaps
  frames : smWf resetVal s.regs = true → t.reg Reg.pixFrames = s.reg Reg.pixFrames + 1
  moves : smWf resetVal s.regs = true → RegMoves [Reg.pixFrames] s t
  only : Only [.regs, .field, .pix, .roi] s t

theorem acceptExposure_takes (e : Exposure) (s : State) : FrameTaken e s (acceptExposure e s) := by
  have honly := (acceptExposure_only e s (.refl [.regs, .pix, .roi] s) (by simp)).only
  have hregs : (acceptExposure e s).regs = (s.setReg Reg.pixFrames (s.reg Reg.pixFrames + 1)).regs := by
    unfold acceptExposure
    dsimp only
    split <;> rfl
  have hpix : (acceptExposure e s).pix = { s.pix with pend := s.pix.pend ++ [e], readEnd := e.startAt + e.lenP + e.readP } := by
    unfold acceptExposure
    dsimp only
    split <;> rfl
  refine ⟨by rw [hpix], by rw [hpix], by rw [hpix], fun hwf => ?_, fun hwf => ?_, honly.mono (by simp)⟩
  · rw [reg_eq_of_regs_eq hregs]
    exact reg_setReg hwf ..
  · exact ((RegMoves.refl _ hwf).setReg (off := Reg.pixFrames) _ (by simp)).congr hregs

theorem addStarts_regs (l : List (Nat × Nat)) (s : State) : (addStarts l s).regs = s.regs ∧ (addStarts l s).pix = s.pix := by
  have h := (addStarts_only l s (.refl [.field] s) (by simp)).only
  exact ⟨(h.2 .regs (by decide)).1, h.2 .pix (by decide)⟩

/-- The first trigger of a p-cycle, where it is accepted. -/
theorem trigger_accepted {src setup mask : Nat} {s : State} (hon : s.sensorsOn = true) (hfirst : s.pix.trigNow = none)
    (haccepts : s.accepts (s.exposure setup src) = true) (hruns : s.restarting = false) :
    FrameTaken (s.exposure setup src) s (trigger src setup mask s) := by
  have htake := acceptExposure_takes (s.exposure setup src) s
  have heq : ∃ now starts, trigger src setup mask s = addStarts starts { acceptExposure (s.exposure setup src) s with
      pix := { (acceptExposure (s.exposure setup src) s).pix with trigNow := some now } } := by
    simp only [trigger, hon, hfirst, decideTrigger, haccepts, hruns, Bool.not_true, Bool.false_eq_true, if_false, Bool.not_false,
      Bool.and_self, if_true]
    exact ⟨_, _, rfl⟩
  obtain ⟨now, starts, heq⟩ := heq
  rw [heq]
  generalize acceptExposure (s.exposure setup src) s = u at htake
  obtain ⟨v, hv⟩ : ∃ v : State, v = { u with pix := { u.pix with trigNow := some now } } := ⟨_, rfl⟩
  obtain ⟨hregs, hpix⟩ := addStarts_regs starts v
  have hmoves := (addStarts_only starts v (.refl [.field] v) (by simp)).only
  have hvregs : v.regs = u.regs := by rw [hv]
  have hvonly : Only [.pix] u v := by rw [hv]; exact only_iff.2 (by simp)
  rw [← hv]
  refine ⟨?_, ?_, ?_, fun hwf => ?_, fun hwf => (htake.moves hwf).congr (hregs.trans hvregs),
    htake.only.trans ((hvonly.mono (by simp)).trans (hmoves.mono (by simp)))⟩
  · rw [hpix, hv]; exact htake.pend
  · rw [hpix, hv]; exact htake.readEnd
  · rw [hpix, hv]; exact htake.snaps
  · rw [reg_eq_of_regs_eq (hregs.trans hvregs)]
    exact htake.frames hwf

/-! ### Field inputs (R100, R101) -/

theorem copyLevel_keeps (i : Nat) (level : Bool) (s : State) : InputsKept s (copyLevel i level s) := by
  have hgo (j : Fin 2) (u : State) : InputsKept u (if u.syncSrc j.val = 5 ∧ u.fld (Reg.fieldSyncCfg j.val) 8 3 = i then
      { u with field := { u.field with copyDue := u.field.copyDue ++ [(u.time.pcyc + 3, j, i, level)] } } else u) := by
    split
    · exact ⟨rfl, rfl, rfl⟩
    · exact .refl u
  exact (hgo 0 s).trans (hgo 1 _)

theorem matchPulses_keeps (mask : Nat) (s : State) : InputsKept s (matchPulses mask s) := by
  have hgo (j : Nat) (u : State) : InputsKept u (if nbit mask j && u.syncSrc j == 3 then syncPulse j (u.time.pcyc + 3) u else u) := by
    split
    · exact ⟨rfl, rfl, rfl⟩
    · exact .refl u
  exact (hgo 0 s).trans (hgo 1 _)

/-- A sample of a new level begins its run. -/
theorem sampleInput_new {i : Nat} {l : Bool} {s : State} (hraw : s.field.raw.getLsbD i ≠ l) (hlevel : s.field.levels.getLsbD i ≠ l) :
    sampleInput i l s = { s with field := { s.field with
      raw := putBits s.field.raw i 1 l.toNat, runs := smSet none s.field.runs i (some (s.time.pcyc, s.stampNow)) } } := by
  simp [sampleInput, hraw, hlevel]

/-- A return to the filtered level ends the run. -/
theorem sampleInput_back {i : Nat} {l : Bool} {s : State} (hraw : s.field.raw.getLsbD i ≠ l) (hlevel : s.field.levels.getLsbD i = l) :
    sampleInput i l s = { s with field := { s.field with
      raw := putBits s.field.raw i 1 l.toNat, runs := smSet none s.field.runs i none } } := by
  simp [sampleInput, hraw, hlevel]

theorem exec_fieldInputEdge_new {i : Fin 8} {l : Bool} {s : State} (hon : s.fieldOn = true)
    (hraw : s.field.raw.getLsbD i.val ≠ l) (hlevel : s.field.levels.getLsbD i.val ≠ l) (hfilter : 0 < s.filterP i.val) :
    exec (.fieldInputEdge i l) s = .next (let f := s.field
      { s with field := { f with raw := putBits f.raw i.val 1 l.toNat,
                                 runs := smSet none f.runs i.val (some (s.time.pcyc, s.stampNow)) } }) := by
  refine congrArg Host.Outcome.next ?_
  have hsoon : ¬s.time.pcyc + s.filterP i.val ≤ s.time.pcyc := by omega
  rw [if_pos hon, fieldInputEdge, sampleInput_new hraw hlevel]
  dsimp only
  rw [smGet_smSet_value (by simp)]
  exact if_neg hsoon

theorem exec_fieldInputEdge_back {i : Fin 8} {l : Bool} {s : State} (hon : s.fieldOn = true) (hruns : Rising s.field.runs)
    (hraw : s.field.raw.getLsbD i.val ≠ l) (hlevel : s.field.levels.getLsbD i.val = l) :
    exec (.fieldInputEdge i l) s = .next (let f := s.field
      { s with field := { f with raw := putBits f.raw i.val 1 l.toNat, runs := smSet none f.runs i.val none } }) := by
  refine congrArg Host.Outcome.next ?_
  rw [if_pos hon, fieldInputEdge, sampleInput_back hraw hlevel]
  dsimp only
  rw [smGet_smSet_rising hruns]

/-- The level of input `i` after it has passed its filter. -/
theorem levels_passed {i : Fin 8} {l : Bool} (w : BitVec 8) (j : Nat) (hj : j < 8) :
    (putBits w i.val 1 l.toNat).getLsbD j = if j = i.val then l else w.getLsbD j := by
  rw [getLsbD_putBits _ _ _ _ _ hj]
  by_cases h : j = i.val
  · rw [if_pos (by omega), if_pos h, h, Nat.sub_self]
    cases l <;> rfl
  · rw [if_neg (by omega), if_neg h]

/-- What a passed edge leaves before its trigger: the level, the event, and nothing outside the field part. -/
theorem passInput_passes {i : Fin 8} {l : Bool} {stamp : BitVec 80} {s : State} (hlevel : s.field.levels.getLsbD i.val ≠ l)
    (hsel : s.edgeSelected i.val l = true) (hroom : s.field.evq.length < 64) :
    ∃ u, passInput i.val stamp s = (if s.flag (Reg.fieldInCfg i.val) 17 then
        trigger (16 + i.val) (s.fld (Reg.fieldInCfg i.val) 20 2) (s.fld (Reg.fieldInCfg i.val) 24 4) u else u) ∧
      Only [.field] s u ∧ u.field.levels = putBits s.field.levels i.val 1 l.toNat ∧
      u.field.evq = s.field.evq ++ [⟨BitVec.ofNat 4 i.val, l, true, stamp, s.field.pos⟩] ∧ u.field.pos = s.field.pos := by
  have hl : (!s.field.levels.getLsbD i.val) = l := by
    revert hlevel
    cases s.field.levels.getLsbD i.val <;> cases l <;> decide
  obtain ⟨s₁, hs₁⟩ : ∃ v : State, v = { s with field := { s.field with
    levels := putBits s.field.levels i.val 1 l.toNat, runs := smSet none s.field.runs i.val none } } := ⟨_, rfl⟩
  obtain ⟨s₂, hs₂⟩ : ∃ v, v = copyLevel i.val l s₁ := ⟨_, rfl⟩
  obtain ⟨s₃, hs₃⟩ : ∃ v : State, v = { s₂ with field := { s₂.field with
    evq := s₂.field.evq ++ [⟨BitVec.ofNat 4 i.val, l, true, stamp, s₂.field.pos⟩] } } := ⟨_, rfl⟩
  have h₁ : Only [.field] s s₁ := by rw [hs₁]; exact only_iff.2 (by simp)
  have h₂ : Only [.field] s₁ s₂ := by rw [hs₂]; exact (copyLevel_only _ _ _ (.refl [.field] s₁) (by simp)).only
  have h₃ : Only [.field] s₂ s₃ := by rw [hs₃]; exact only_iff.2 (by simp)
  obtain ⟨hlev₂, hevq₂, hpos₂⟩ : InputsKept s₁ s₂ := by rw [hs₂]; exact copyLevel_keeps ..
  have hevq : s₂.field.evq = s.field.evq := by rw [hevq₂, hs₁]
  have hpos : s₂.field.pos = s.field.pos := by rw [hpos₂, hs₁]
  have hsel₂ : s₂.edgeSelected i.val l = true := by
    unfold State.edgeSelected State.flag
    simp only [reg_eq_of_regs_eq ((h₁.trans h₂).2 .regs (by decide)).1]
    exact hsel
  have hqueue : queueEvent ⟨BitVec.ofNat 4 i.val, l, true, stamp, s₂.field.pos⟩ s₂ = s₃ := by
    rw [queueEvent, hevq, if_pos hroom, hs₃, hevq]
  have hfld (lo len : Nat) : ∀ v, Only [.field] s v → v.fld (Reg.fieldInCfg i.val) lo len = s.fld (Reg.fieldInCfg i.val) lo len :=
    fun v hv => fld_eq_of_regs_eq (hv.2 .regs (by decide)).1 ..
  obtain ⟨u, hu⟩ : ∃ v, v = matchPulses (s₃.fld (Reg.fieldInCfg i.val) 28 2) s₃ := ⟨_, rfl⟩
  have h₄ : Only [.field] s₃ u := by rw [hu]; exact (matchPulses_only _ _ (.refl [.field] s₃) (by simp)).only
  obtain ⟨hlev₄, hevq₄, hpos₄⟩ : InputsKept s₃ u := by rw [hu]; exact matchPulses_keeps ..
  have honly : Only [.field] s u := (h₁.trans h₂).trans (h₃.trans h₄)
  have hflag : u.flag (Reg.fieldInCfg i.val) 17 = s.flag (Reg.fieldInCfg i.val) 17 := by
    rw [State.flag, reg_eq_of_regs_eq (honly.2 .regs (by decide)).1, State.flag]
  refine ⟨u, ?_, honly, ?_, ?_, ?_⟩
  · rw [← hfld 20 2 u honly, ← hfld 24 4 u honly, ← hflag, hu, ← hqueue, passInput, hl, ← hs₁, ← hs₂, hsel₂]
    rfl
  · rw [hlev₄, hs₃, hlev₂, hs₁]
  · rw [hevq₄, hs₃, hevq, hpos]
  · rw [hpos₄, hs₃, hpos]

/-- An edge that passes its filter: its level stands, its event waits, and its trigger takes the next frame. -/
theorem completes_fieldInputEdge {i : Fin 8} {l : Bool} {n : Nat} {st : BitVec 80} {s : State} (hon : s.fieldOn = true)
    (hlevel : s.field.levels.getLsbD i.val ≠ l) (hdue : n + s.filterP i.val ≤ s.time.pcyc)
    (hrun : (s.field.raw.getLsbD i.val = l ∧ smGet none s.field.runs i.val = some (n, st)) ∨
      (s.field.raw.getLsbD i.val ≠ l ∧ n = s.time.pcyc ∧ st = s.stampNow))
    (hsel : s.edgeSelected i.val l = true) (hroom : s.field.evq.length < 64) :
    Completes (.fieldInputEdge i l) s (fun t =>
      t.field.levels.getLsbD i.val = l ∧ (∀ j < 8, j ≠ i.val → t.field.levels.getLsbD j = s.field.levels.getLsbD j) ∧
      t.field.evq = s.field.evq ++ [⟨BitVec.ofNat 4 i.val, l, true, st, s.field.pos⟩] ∧ t.field.pos = s.field.pos ∧
      (s.flag (Reg.fieldInCfg i.val) 17 = false → Only [.field] s t) ∧
      (s.flag (Reg.fieldInCfg i.val) 17 = true → s.sensorsOn = true → s.pix.trigNow = none → s.restarting = false →
        s.accepts (s.exposure (s.fld (Reg.fieldInCfg i.val) 20 2) (16 + i.val)) = true →
        t.pix.pend = s.pix.pend ++ [s.exposure (s.fld (Reg.fieldInCfg i.val) 20 2) (16 + i.val)] ∧
        Only [.regs, .field, .pix, .roi] s t)) := by
  obtain ⟨v, hv⟩ : ∃ v, v = sampleInput i.val l s := ⟨_, rfl⟩
  have hsample : Only [.field] s v ∧ InputsKept s v ∧ smGet none v.field.runs i.val = some (n, st) := by
    rcases hrun with ⟨hraw, hget⟩ | ⟨hraw, rfl, rfl⟩
    · have hsame : v = s := by rw [hv, sampleInput, if_pos (beq_iff_eq.2 hraw)]
      rw [hsame]
      exact ⟨(Moves.refl [.field] s).only, .refl s, hget⟩
    · rw [hv, sampleInput_new hraw hlevel]
      exact ⟨only_iff.2 (by simp), ⟨rfl, rfl, rfl⟩, smGet_smSet_value (by simp) ..⟩
  obtain ⟨honly, ⟨hlevels, hevq, hpos⟩, hget⟩ := hsample
  have hregs : v.regs = s.regs := (honly.2 .regs (by decide)).1
  have htime : v.time = s.time := honly.2 .time (by decide)
  have hpix : v.pix = s.pix := honly.2 .pix (by decide)
  have hdue' : n + v.filterP i.val ≤ v.time.pcyc := by
    rw [State.filterP, pixReg_congr hregs htime (by rw [hpix]) (by rw [hpix]), htime]
    exact hdue
  have hsel' : v.edgeSelected i.val l = true := by
    unfold State.edgeSelected State.flag
    simp only [reg_eq_of_regs_eq hregs]
    exact hsel
  obtain ⟨u, hpass, hu, hulev, huevq, hupos⟩ := passInput_passes (stamp := st) (i := i) (l := l) (s := v)
    (by rw [hlevels]; exact hlevel) hsel' (by rw [hevq]; exact hroom)
  have hflag : v.flag (Reg.fieldInCfg i.val) 17 = s.flag (Reg.fieldInCfg i.val) 17 := by
    rw [State.flag, reg_eq_of_regs_eq hregs, State.flag]
  rw [hflag, fld_eq_of_regs_eq hregs, fld_eq_of_regs_eq hregs] at hpass
  rw [hlevels] at hulev
  rw [hevq, hpos] at huevq
  have hsu : Only [.field] s u := honly.trans hu
  have hexec : exec (.fieldInputEdge i l) s = .next (passInput i.val st v) := by
    refine congrArg Host.Outcome.next ?_
    rw [if_pos hon, fieldInputEdge, ← hv, hget]
    exact if_pos hdue'
  have hkeep : InputsKept u (passInput i.val st v) := by
    rw [hpass]
    split
    · exact inputsKept_trigger ..
    · exact .refl u
  refine completes_of_next hexec ⟨?_, fun j hj hne => ?_, hkeep.evq.trans huevq, hkeep.pos.trans (hupos.trans hpos),
    fun hoff => ?_, fun htrig hsens hfirst hruns haccepts => ?_⟩
  · rw [hkeep.levels, hulev, levels_passed _ _ i.isLt, if_pos rfl]
  · rw [hkeep.levels, hulev, levels_passed _ _ hj, if_neg hne]
  · rw [hpass, hoff]
    exact hsu
  · have hupix : u.pix = s.pix := hsu.2 .pix (by decide)
    have huregs : u.regs = s.regs := (hsu.2 .regs (by decide)).1
    have hutime : u.time = s.time := hsu.2 .time (by decide)
    have hexp (a b : Nat) : u.exposure a b = s.exposure a b := exposure_congr huregs hutime (by rw [hupix]) (by rw [hupix]) a b
    have huon : u.sensorsOn = true := by
      unfold State.sensorsOn State.fieldOn
      rw [hsu.2 .power (by decide)]
      exact hsens
    have hurun : u.restarting = false := by
      unfold State.restarting
      rw [hsu.2 .fault (by decide)]
      exact hruns
    have htake := trigger_accepted (src := 16 + i.val) (setup := s.fld (Reg.fieldInCfg i.val) 20 2)
      (mask := s.fld (Reg.fieldInCfg i.val) 24 4) huon (by rw [hupix]; exact hfirst)
      (by rw [hexp, accepts_congr huregs hutime (by rw [hupix]) (by rw [hupix]) _ (by rw [hupix]) (by rw [hupix]) (by rw [hupix])
            (by rw [hupix])]
          exact haccepts) hurun
    rw [hpass, htrig, if_pos rfl]
    exact ⟨by rw [htake.pend, hexp, hupix], (hsu.mono (by simp)).trans htake.only⟩

/-! ### Reads (R101, R102) -/

theorem exec_evqPop {e : FieldEvent} {q : List FieldEvent} {s : State} (hs : Served s) (hq : s.field.evq = e :: q) :
    exec .evqPop s = .next (let f := s.field
      { s with field := { f with evq := q, latch := e },
               out := s.out ++ [.readData Reg.fieldEvqInfo
                 (BitVec.ofNat 32 (e.src.toNat + e.rising.toNat * 2 ^ 4 + 2 ^ 8 + q.length * 2 ^ 16))] }) := by
  refine congrArg Host.Outcome.next ((gateRead_of_served hs _ _).trans ?_)
  rw [evqPop, hq]
  rfl

theorem completes_fieldEncPosLoRead {s : State} (hs : Served s) :
    Completes .fieldEncPosLoRead s (fun t =>
      t.field = { s.field with posHi := (s.field.pos >>> 32).setWidth 16 } ∧
      t.out = s.out ++ [.readData Reg.fieldEncPosLo (s.field.pos.setWidth 32)] ∧ Only [.out, .field] s t) := by
  refine completes_of_next (congrArg Host.Outcome.next (gateRead_of_served hs _ _)) ⟨?_, ?_, only_iff.2 (by simp [encPosRead])⟩
  · have hhigh : BitVec.ofNat 16 (bits s.field.pos 32 16) = (s.field.pos >>> 32).setWidth 16 := by
      apply BitVec.eq_of_toNat_eq
      simp [bits]
    simp only [encPosRead, hhigh]
    rfl
  · have hlow : BitVec.ofNat 32 s.field.pos.toNat = s.field.pos.setWidth 32 := by
      apply BitVec.eq_of_toNat_eq
      simp
    simp only [encPosRead, hlow]
    rfl

/-! ### The encoder (R102, R103) -/

section Encoder

variable {s : State} (hon : s.fieldOn = true)

/-- Without a preset that waits, the edges that are due are taken. -/
theorem encoderCycle_one {e : EncEdge} (harm : s.field.armAt = none) (hq : s.field.encq = [e]) (hdue : s.edgeDue e = true) :
    encoderCycle s = takeEdge { s with field := { s.field with encq := [] } } e := by
  have hnone : loadPreset s = s := by rw [loadPreset, harm]
  rw [encoderCycle, hnone]
  simp only [hq, List.takeWhile_cons, List.dropWhile_cons, hdue, if_true, List.takeWhile_nil, List.dropWhile_nil,
    List.foldl_cons, List.foldl_nil]

/-- An edge that has just been sampled waits. -/
theorem encoderCycle_sampled {ab : Option (Bool × Bool)} {z : Bool} (harm : s.field.armAt = none) (hq : s.field.encq = []) :
    encoderCycle (sampleEdge ab z s) = { s with field := { s.field with encq := [⟨s.time.pcyc, s.stampNow, ab, z⟩] } } := by
  have hsample : sampleEdge ab z s = { s with field := { s.field with encq := [⟨s.time.pcyc, s.stampNow, ab, z⟩] } } := by
    rw [sampleEdge, hq]
    rfl
  have hwait : State.edgeDue { s with field := { s.field with encq := [⟨s.time.pcyc, s.stampNow, ab, z⟩] } }
      ⟨s.time.pcyc, s.stampNow, ab, z⟩ = false := by
    refine decide_eq_false ?_
    show ¬(s.time.pcyc + 2 + _ ≤ s.time.pcyc)
    omega
  have hnone : loadPreset (sampleEdge ab z s) = sampleEdge ab z s := by
    rw [loadPreset, hsample]
    dsimp only
    rw [harm]
  rw [encoderCycle, hnone, hsample]
  simp only [List.takeWhile_cons, List.dropWhile_cons, hwait, Bool.false_eq_true, if_false, List.foldl_nil]

include hon

theorem exec_encoderEdge_sample {a b : Bool} (harm : s.field.armAt = none) (hq : s.field.encq = []) :
    exec (.encoderEdge (some (a, b))) s =
      .next { s with field := { s.field with encq := [⟨s.time.pcyc, s.stampNow, some (a, b), false⟩] } } := by
  refine congrArg Host.Outcome.next ?_
  rw [if_pos hon]
  exact encoderCycle_sampled harm hq

theorem exec_zPulse_sample (harm : s.field.armAt = none) (hq : s.field.encq = []) :
    exec (.zPulse true) s =
      .next { s with field := { s.field with encq := [⟨s.time.pcyc, s.stampNow, none, true⟩] } } := by
  refine congrArg Host.Outcome.next ?_
  rw [if_pos hon]
  exact encoderCycle_sampled harm hq

theorem exec_zPulse_preset {e : EncEdge} (harm : s.field.armAt = none) (hq : s.field.encq = [e]) (hab : e.ab = none)
    (hz : e.z = true) (hdue : s.edgeDue e = true) (harmed : s.field.armZ = true) (hqueue : s.flag Reg.fieldEncCfg 6 = false) :
    exec (.zPulse false) s = .next { s with field := { s.field with pos := s.preset, armZ := false, encq := [] } } := by
  refine congrArg Host.Outcome.next ?_
  have hflag (f : FieldState) : State.flag { s with field := f } Reg.fieldEncCfg 6 = false := hqueue
  rw [if_pos hon]
  refine (encoderCycle_one harm hq hdue).trans ?_
  simp only [takeEdge, hab, hz, harmed, hflag, Bool.and_self, Bool.and_false, if_true, Bool.false_eq_true, if_false]
  rfl

theorem exec_zPulse_queue {e : EncEdge} (harm : s.field.armAt = none) (hq : s.field.encq = [e]) (hab : e.ab = none)
    (hz : e.z = true) (hdue : s.edgeDue e = true) (hfree : s.field.armZ = false) (hqueue : s.flag Reg.fieldEncCfg 6 = true)
    (hroom : s.field.evq.length < 64) :
    exec (.zPulse false) s = .next (let f := s.field
      { s with field := { f with evq := f.evq ++ [⟨8, true, true, e.stamp, f.pos⟩], encq := [] } }) := by
  refine congrArg Host.Outcome.next ?_
  have hflag (f : FieldState) : State.flag { s with field := f } Reg.fieldEncCfg 6 = true := hqueue
  rw [if_pos hon]
  refine (encoderCycle_one harm hq hdue).trans ?_
  simp only [takeEdge, hab, hz, hfree, hflag, Bool.and_self, Bool.and_false, if_true, Bool.false_eq_true, if_false, queueEvent, hroom]

/-- One level of A or B changes: the position counts, and no unit is armed. -/
theorem completes_encoderEdge_count {a b : Bool} {e : EncEdge} {up : Bool} (harm : s.field.armAt = none)
    (hq : s.field.encq = [e]) (hab : e.ab = some (a, b)) (hz : e.z = false) (hdue : s.edgeDue e = true)
    (hmatch : ∀ m < 16, s.flag (Reg.fieldMatchCfg m) 0 = false)
    (hlevels : encoderLevels a b { s with field := { s.field with encq := [] } } =
      encoderCount up { s with field := { s.field with encq := [], a := a, b := b } }) :
    Completes (.encoderEdge none) s (fun t =>
      t.field.pos = (if up then s.field.pos + 1 else s.field.pos - 1) ∧
      t.field = { s.field with a := a, b := b, encq := [], pos := t.field.pos } ∧ Only [.field] s t) := by
  obtain ⟨u, hu⟩ : ∃ v : State, v = { s with field := { s.field with
    encq := [], a := a, b := b, pos := if up then s.field.pos + 1 else s.field.pos - 1 } } := ⟨_, rfl⟩
  have hnone : (List.range 16).filter (fun m => u.matchHit m up) = [] := by
    rw [List.filter_eq_nil_iff]
    intro m hm
    have hoff : u.reg (Reg.fieldMatchCfg m) = s.reg (Reg.fieldMatchCfg m) := by rw [hu]; rfl
    have hdis : (s.reg (Reg.fieldMatchCfg m)).getLsbD 0 = false := hmatch m (List.mem_range.1 hm)
    simp only [State.matchHit, hoff, hdis, Bool.false_and, Bool.false_eq_true, not_false_eq_true]
  have hcount : encoderCount up { s with field := { s.field with encq := [], a := a, b := b } } = u := by
    rw [encoderCount]
    dsimp only
    rw [← hu, hnone]
    rfl
  have hexec : exec (.encoderEdge none) s = .next u := by
    refine congrArg Host.Outcome.next ?_
    rw [if_pos hon]
    refine (encoderCycle_one harm hq hdue).trans ?_
    simp only [takeEdge, hab, hz, Bool.false_and, Bool.false_eq_true, if_false, hlevels, hcount]
  exact completes_of_next hexec ⟨by rw [hu], by rw [hu], by rw [hu]; exact only_iff.2 (by simp)⟩

theorem completes_encoderEdge {a b : Bool} {e : EncEdge} (harm : s.field.armAt = none) (hq : s.field.encq = [e])
    (hab : e.ab = some (a, b)) (hz : e.z = false) (hdue : s.edgeDue e = true) (hen : s.flag Reg.fieldEncCfg 0 = true)
    (hmatch : ∀ m < 16, s.flag (Reg.fieldMatchCfg m) 0 = false) :
    (a ≠ s.field.a ∧ b = s.field.b → Completes (.encoderEdge none) s (fun t =>
      t.field.pos = (if (a != b) != (s.pixReg Reg.fieldEncCfg).getLsbD 1 then s.field.pos + 1 else s.field.pos - 1) ∧
      t.field = { s.field with a := a, b := b, encq := [], pos := t.field.pos } ∧ Only [.field] s t)) ∧
    (a = s.field.a ∧ b ≠ s.field.b → Completes (.encoderEdge none) s (fun t =>
      t.field.pos = (if (b == a) != (s.pixReg Reg.fieldEncCfg).getLsbD 1 then s.field.pos + 1 else s.field.pos - 1) ∧
      t.field = { s.field with a := a, b := b, encq := [], pos := t.field.pos } ∧ Only [.field] s t)) := by
  have hflag (f : FieldState) : State.flag { s with field := f } Reg.fieldEncCfg 0 = true := hen
  have hpix (f : FieldState) : State.pixReg { s with field := f } Reg.fieldEncCfg = s.pixReg Reg.fieldEncCfg := rfl
  constructor
  · rintro ⟨ha, hb⟩
    refine completes_encoderEdge_count hon harm hq hab hz hdue hmatch ?_
    simp only [encoderLevels, hflag, hpix, bne_iff_ne.2 ha, hb, bne_self_eq_false, Bool.and_false, Bool.not_true, Bool.false_eq_true,
      if_false, if_true]
  · rintro ⟨ha, hb⟩
    refine completes_encoderEdge_count hon harm hq hab hz hdue hmatch ?_
    simp only [encoderLevels, hflag, hpix, bne_iff_ne.2 hb, ha, bne_self_eq_false, Bool.false_and, Bool.not_true, Bool.false_eq_true,
      if_false, if_true]

omit hon in
theorem loadPreset_due {n : Nat} (harm : s.field.armAt = some n) (hdue : n * 65536 ≤ s.nowFp) :
    loadPreset s = { s with field := { s.field with pos := s.preset, armAt := none } } := by
  unfold loadPreset
  simp only [harm, hdue, if_true]

omit hon in
/-- Without edges on their way, a p-cycle loads the preset alone. -/
theorem encoderCycle_idle {p : Pos} (hload : loadPreset s = { s with field := { s.field with pos := p, armAt := none } })
    (hq : s.field.encq = []) : encoderCycle s = { s with field := { s.field with pos := p, armAt := none } } := by
  rw [encoderCycle, hload]
  simp only [hq, List.takeWhile_nil, List.dropWhile_nil, List.foldl_nil]

theorem exec_presetLoad {n : Nat} (harm : s.field.armAt = some n) (hq : s.field.encq = []) (hdue : n * 65536 ≤ s.nowFp) :
    exec .presetLoad s = .next { s with field := { s.field with pos := s.preset, armAt := none } } :=
  congrArg Host.Outcome.next ((if_pos hon).trans (encoderCycle_idle (loadPreset_due harm hdue) hq))

theorem completes_encLoss (hs : Canon s) (hanchor : s.anchor = true) (hen : s.flag Reg.fieldEncCfg 0 = true)
    (hfirst : s.flag Reg.fieldEncErr 16 = false) :
    Completes .encLoss s (fun t => t.flag Reg.fieldEncErr 16 = true ∧ Posted eEncLoss Reg.fieldErr s t ∧
      Only [.regs, .out, .host] s t) := by
  obtain ⟨u, hu⟩ : ∃ u, u = s.setFlag Reg.fieldEncErr 16 true := ⟨_, rfl⟩
  have hexec : exec .encLoss s = .next (postEvent eEncLoss 0 u) := by
    show execEncLoss s = _
    rw [execEncLoss, hon, hen, hfirst, hu]
    rfl
  have hset : RegMoves [Reg.fieldEncErr] s u := by
    rw [hu]
    exact (RegMoves.refl _ hs.regs).setFlag (off := Reg.fieldEncErr) 16 true (by simp)
  have honly : Only [.regs] s u := by rw [hu]; exact only_iff.2 (by simp)
  have hmoves : Moves [.regs] s u := by rw [hu]; exact State_setFlag_only _ _ _ _ (.refl ..) (by simp)
  have hposted : Posted eEncLoss Reg.fieldErr u (postEvent eEncLoss 0 u) :=
    posted_postEvent (hmoves.canon hs) (by rw [State.anchor, honly.2 .power (by decide)]; exact hanchor) (by decide) (by decide)
      (by decide) 0
  have hframe := postEvent_only eEncLoss 0 u (.refl [.regs, .out, .host] u) (by simp)
  have hkeep : RegMoves [Reg.fieldErr, Reg.hostEvtLost] u (postEvent eEncLoss 0 u) :=
    RegMoves.postEvent (RegMoves.refl _ hset.wf) _ _ (by decide) (by decide)
  refine completes_of_next hexec ⟨?_, hposted.congr (hset.only _ (by decide)) (by rw [hu]; rfl) (by rw [hu]; rfl),
    (honly.mono (by simp)).trans (hframe.only.mono (by simp))⟩
  rw [State.flag, hkeep.only _ (by decide), hu]
  exact flag_setFlag hs.regs _ _ true (by decide)

theorem completes_encSignalReturn (hs : Canon s) :
    Completes .encSignalReturn s (fun t =>
      t.flag Reg.fieldEncErr 16 = false ∧ Only [.regs] s t ∧ RegsOnly [Reg.fieldEncErr] s t) := by
  have hexec : exec .encSignalReturn s = .next (s.setFlag Reg.fieldEncErr 16 false) :=
    congrArg Host.Outcome.next (if_pos hon)
  exact completes_of_next hexec ⟨flag_setFlag hs.regs _ _ false (by decide), only_iff.2 (by simp),
    ((RegMoves.refl _ hs.regs).setFlag (off := Reg.fieldEncErr) 16 false (by simp)).only⟩

end Encoder

theorem exec_armAt {w : Writer} {s : State} (hs : Served s) (hfree : s.weaveOwns w = false)
    (hahead : s.nowFp ≤ s.pair Reg.fieldEncAtLo Reg.fieldEncAtHi * 65536) :
    exec (.armAt w) s = .next { s with field := { s.field with armAt := some (s.pair Reg.fieldEncAtLo Reg.fieldEncAtHi) } } := by
  refine congrArg Host.Outcome.next ?_
  have hok : armAtVerdict w s = 0 := by
    rw [armAtVerdict, hfree, if_neg Bool.false_ne_true, if_neg (Nat.not_lt.2 hahead)]
  rw [if_pos (answers_of_served hs _), armAt, hok]
  rfl

theorem exec_armZ {w : Writer} {s : State} (hs : Served s) (hfree : s.weaveOwns w = false) :
    exec (.armZ w) s = .next { s with field := { s.field with armZ := true } } := by
  refine congrArg Host.Outcome.next ?_
  rw [if_pos (answers_of_served hs _), armZ, hfree]
  rfl

/-- Settles O18: each command of the field inputs and the encoder is one lemma. -/
theorem fieldCommandsComplete : Obligations.FieldCommandsComplete := by
  unfold Obligations.FieldCommandsComplete
  refine ⟨?_, ?_, ?_, ?_, ?_, ?_, ?_, ?_, ?_, ?_, ?_, ?_, ?_, ?_, ?_⟩
  · exact fun i l s hon hraw hlevel hfilter => exec_fieldInputEdge_new hon hraw hlevel hfilter
  · exact fun i l s hon hruns hraw hlevel => exec_fieldInputEdge_back hon hruns hraw hlevel
  · exact fun i l n st s hon hlevel hdue hrun hsel hroom => completes_fieldInputEdge hon hlevel hdue hrun hsel hroom
  · exact fun e q s hs hq => exec_evqPop hs hq
  · exact fun a b s hon harm hq => exec_encoderEdge_sample hon harm hq
  · exact fun a b e s hon harm hq hab hz hdue hen hmatch => completes_encoderEdge hon harm hq hab hz hdue hen hmatch
  · exact fun s hon harm hq => exec_zPulse_sample hon harm hq
  · exact fun e s hon harm hq hab hz hdue harmed hqueue => exec_zPulse_preset hon harm hq hab hz hdue harmed hqueue
  · exact fun e s hon harm hq hab hz hdue hfree hqueue hroom => exec_zPulse_queue hon harm hq hab hz hdue hfree hqueue hroom
  · exact fun s hs hanchor hon hen hfirst => completes_encLoss hon hs hanchor hen hfirst
  · exact fun s hs hon => completes_encSignalReturn hon hs
  · exact fun w s hs hfree hahead => exec_armAt hs hfree hahead
  · exact fun w s hs hfree => exec_armZ hs hfree
  · exact fun n s harm hon hq hdue => exec_presetLoad hon harm hq hdue
  · exact fun s hs => completes_fieldEncPosLoRead hs

end Sys2Proof.Machine
end

section
/-!
PROOFS. Pixels.lean: exposures, dark capture, strobes and sync outputs (R90, R91, R93, R97, R107 to R109).
-/

namespace Sys2Proof.Machine

/-! ### Exposures (R90, R91, R93, R109) -/

theorem completes_snap {p : BitVec 2} {n : Nat} {l : List (Nat × BitVec 2)} {s : State} (hs : Canon s) (hon : s.sensorsOn = true)
    (hsnaps : s.pix.snaps = (n, p) :: l) (hdue : n + 13 ≤ s.time.pcyc) (hfirst : s.pix.trigNow = none)
    (haccepts : s.accepts (s.exposure p.toNat 24) = true) (hruns : s.restarting = false) :
    Completes .snap s (fun t =>
      t.pix.snaps = l ∧ t.pix.pend = s.pix.pend ++ [s.exposure p.toNat 24] ∧
      t.pix.readEnd = (s.exposure p.toNat 24).startAt + (s.exposure p.toNat 24).lenP + (s.exposure p.toNat 24).readP ∧
      t.reg Reg.pixFrames = s.reg Reg.pixFrames + 1 ∧ Only [.regs, .field, .pix, .roi] s t ∧
      RegsOnly [Reg.pixFrames] s t) := by
  have hfield : s.fieldOn = true := by
    unfold State.sensorsOn at hon
    exact (Bool.and_eq_true_iff.1 hon).1
  obtain ⟨u, hu⟩ : ∃ u : State, u = { s with pix := { s.pix with snaps := l } } := ⟨_, rfl⟩
  have hexec : exec .snap s = .next (trigger 24 p.toNat 0xF u) := by
    refine congrArg Host.Outcome.next ?_
    rw [if_pos hfield, snapTrigger, hsnaps, hu]
    exact if_pos hdue
  have honly : Only [.pix] s u := by rw [hu]; exact only_iff.2 (by simp)
  have hregs : u.regs = s.regs := (honly.2 .regs (by decide)).1
  have hexp : u.exposure p.toNat 24 = s.exposure p.toNat 24 :=
    exposure_congr hregs (honly.2 .time (by decide)) (by rw [hu]) (by rw [hu]) _ _
  have hok : u.accepts (u.exposure p.toNat 24) = true := by
    rw [hexp, accepts_congr hregs (honly.2 .time (by decide)) (by rw [hu]) (by rw [hu]) _ (by rw [hu]) (by rw [hu]) (by rw [hu])
      (by rw [hu])]
    exact haccepts
  have hsens : u.sensorsOn = true := by
    unfold State.sensorsOn State.fieldOn
    rw [honly.2 .power (by decide)]
    exact hon
  have hrun : u.restarting = false := by
    unfold State.restarting
    rw [honly.2 .fault (by decide)]
    exact hruns
  have htake := trigger_accepted (mask := 0xF) hsens (by rw [hu]; exact hfirst) hok hrun
  have hwf : smWf resetVal u.regs = true := by rw [hregs]; exact hs.regs
  refine completes_of_next hexec ⟨by rw [htake.snaps, hu], by rw [htake.pend, hexp, hu], by rw [htake.readEnd, hexp], ?_,
    (honly.mono (by simp)).trans htake.only, fun off hoff => ?_⟩
  · rw [htake.frames hwf, reg_eq_of_regs_eq hregs]
  · rw [(htake.moves hwf).only off hoff, reg_eq_of_regs_eq hregs]

theorem completes_integrationStart {e : Exposure} {s : State} (hdue : s.dueExposure = some e) (hon : s.fieldOn = true) :
    Completes .integrationStart s (fun t =>
      t.pix = { s.pix with pend := s.pix.pend.erase e, cur := s.pix.cur ++ [s.frameOf e] } ∧ Only [.out, .pix] s t) := by
  obtain ⟨u, hu⟩ : ∃ u : State, u = { s with pix := { s.pix with pend := s.pix.pend.erase e, cur := s.pix.cur ++ [s.frameOf e] } } :=
    ⟨_, rfl⟩
  have hexec : exec .integrationStart s = .next (driveExposing u) := by
    show execIntegrationStart s = _
    rw [execIntegrationStart, hdue, hu]
    exact if_pos hon
  have hframe := (driveExposing_only u (.refl [.out] u) (by simp)).only
  have honly : Only [.pix] s u := by rw [hu]; exact only_iff.2 (by simp)
  exact completes_of_next hexec ⟨by rw [hframe.2 .pix (by decide), hu], (honly.mono (by simp)).trans (hframe.mono (by simp))⟩

theorem completes_integrationEnd {f : Frame} {s : State} (hcur : s.pix.cur = [f])
    (hdue : f.exp.startAt + f.exp.lenP ≤ s.time.pcyc) (hon : s.fieldOn = true) (hidle : s.pix.reading = none) :
    Completes .integrationEnd s (fun t =>
      t.pix = { s.pix with cur := [], reading := some { f with posEnd := s.field.pos } } ∧ Only [.out, .pix] s t) := by
  obtain ⟨u, hu⟩ : ∃ u : State, u = { s with pix := { s.pix with cur := [], reading := some { f with posEnd := s.field.pos } } } :=
    ⟨_, rfl⟩
  have hexec : exec .integrationEnd s = .next (driveExposing u) := by
    show execIntegrationEnd s = _
    have hfind : s.pix.cur.find? (fun f => decide (f.exp.startAt + f.exp.lenP ≤ s.time.pcyc)) = some f := by
      simp [hcur, hdue]
    have hgone : s.pix.cur.erase f = [] := by rw [hcur, List.erase_cons_head]
    rw [execIntegrationEnd, hfind]
    dsimp only
    rw [hon, hidle, hgone, hu]
    rfl
  have hframe := (driveExposing_only u (.refl [.out] u) (by simp)).only
  have honly : Only [.pix] s u := by rw [hu]; exact only_iff.2 (by simp)
  exact completes_of_next hexec ⟨by rw [hframe.2 .pix (by decide), hu], (honly.mono (by simp)).trans (hframe.mono (by simp))⟩

/-- A write of a local engine outside the reserved range. -/
theorem engineStore_of_open {a : Nat} {l : List Byte} (h : storeReserved a l.length = false) (kind : Nat) (s : State) :
    engineStore kind a l s = wrMem a l s := by
  rw [engineStore, h, if_neg Bool.false_ne_true]

theorem completes_readoutEnd {rows : List (Nat × List (BitVec 12))} {f : Frame} {a : Nat} {s : State} (hs : Canon s)
    (hon : s.fieldOn = true) (hread : s.pix.reading = some f)
    (hdue : f.exp.startAt + f.exp.lenP + f.exp.readP ≤ s.time.pcyc) (hbase : s.frameBase f = some a)
    (hopen : storeReserved a (frameBytes s f rows).length = false) :
    Completes (.readoutEnd rows) s (fun t =>
      t.rdMem a (frameBytes s f rows).length = frameBytes s f rows ∧ BytesOnly a (frameBytes s f rows).length s t ∧
      t.pix = { s.pix with reading := none, stored := smSet none s.pix.stored f.exp.setup.toNat (some f) } ∧
      Only [.pix, .mem, .poison] s t) := by
  generalize hl : frameBytes s f rows = l at *
  obtain ⟨u, hu⟩ : ∃ u, u = wrMem a l s := ⟨_, rfl⟩
  obtain ⟨v, hv⟩ : ∃ v : State, v = { u with pix := { u.pix with reading := none, stored := smSet none u.pix.stored f.exp.setup.toNat (some f) } } :=
    ⟨_, rfl⟩
  have hexec : exec (.readoutEnd rows) s = .next v := by
    refine congrArg Host.Outcome.next ?_
    rw [if_pos hon, readoutEnd, hread]
    dsimp only
    rw [if_neg (Nat.not_lt.2 hdue), hbase]
    dsimp only
    rw [hl, engineStore_of_open hopen, hv, hu]
  have honly : Only [.mem, .poison] s u := by rw [hu]; exact (wrMem_only a l s (.refl [.mem, .poison] s) (by simp)).only
  have hmem : v.mem = u.mem := by rw [hv]
  have hpix : u.pix = s.pix := honly.2 .pix (by decide)
  refine completes_of_next hexec ⟨?_, fun x hx => ?_, by rw [hv, hpix],
    (honly.mono (by simp)).trans (by rw [hv]; exact only_iff.2 (by simp))⟩
  · rw [State.rdMem, hmem, hu]
    exact rdMem_wrMem hs.mem a l
  · rw [State.rdMem, hmem, hu]
    exact (wrMem_moves hs.mem a l).only x hx

/-! ### Dark capture (R97) -/

/-- The strobes are driven one after the other. -/
theorem foldl_driveStrobe (l : List (Fin 4)) (s : State) (active : Fin 4 → Bool)
    (h : ∀ k, s.strobeActive k.val = active k) :
    (l.foldl (fun s k => driveStrobe k s) s).out =
      s.out ++ l.map (fun k => Out.ball (.stb k) (active k != s.flag (Reg.fieldStbCfg k.val) 2)) ∧
    Only [.out] s (l.foldl (fun s k => driveStrobe k s) s) := by
  induction l generalizing s with
  | nil => exact ⟨(List.append_nil _).symm, (Moves.refl [.out] s).only⟩
  | cons k l ih =>
    have hstep : Only [.out] s (driveStrobe k s) := only_iff.2 (by simp [driveStrobe])
    obtain ⟨hout, honly⟩ := ih (driveStrobe k s) (fun j => h j)
    refine ⟨?_, hstep.trans honly⟩
    rw [List.foldl_cons, hout, List.map_cons, driveStrobe, h k]
    simp [State.emit]

theorem completes_darkCapture {w : Writer} {s : State} (hs : Served s) (hrun : s.weave.run = none) (hlevel : 1 ≤ s.level)
    (hidle : s.pix.darkBusy = false) (hfirst : s.pix.trigNow = none) :
    Completes (.darkCapture w) s (fun t =>
      t.pix = { s.pix with darkBusy := true, darkBand := s.pix.band } ∧
      t.out = s.out ++ ([0, 1, 2, 3] : List (Fin 4)).map (fun k =>
        Out.ball (.stb k) (s.flag (Reg.fieldStbCfg k.val) 2)) ∧ Only [.out, .pix] s t) := by
  obtain ⟨u, hu⟩ : ∃ u : State, u = { s with pix := { s.pix with darkBusy := true, darkBand := s.pix.band } } := ⟨_, rfl⟩
  have hverdict : darkVerdict s = 0 := by
    simp [darkVerdict, State.weaveRuns, hrun, hidle, Nat.not_lt.2 hlevel]
  have hexec : exec (.darkCapture w) s = .next (([0, 1, 2, 3] : List (Fin 4)).foldl (fun s k => driveStrobe k s) u) := by
    refine congrArg Host.Outcome.next ?_
    have hkeep : dropTrigger s = s := by rw [dropTrigger, hfirst]
    rw [if_pos (answers_of_served hs _), darkCapture, hverdict, if_neg (by simp), hkeep, hu]
  obtain ⟨hout, hframe⟩ := foldl_driveStrobe [0, 1, 2, 3] u (fun _ => false) (fun k => by rw [hu]; rfl)
  have honly : Only [.pix] s u := by rw [hu]; exact only_iff.2 (by simp)
  refine completes_of_next hexec ⟨by rw [hframe.2 .pix (by decide), hu], ?_, (honly.mono (by simp)).trans (hframe.mono (by simp))⟩
  rw [hout, hu]
  simp only [Bool.false_bne]
  rfl

theorem completes_darkCaptureDone {sums : List (Nat × Nat)} {s : State} (hs : Canon s) (hon : s.fieldOn = true)
    (hbusy : s.pix.darkBusy = true) (hopen : storeReserved (s.darkTable s.pix.darkBand.toNat) sums.length = false) :
    Completes (.darkCaptureDone sums) s (fun t =>
      t.rdMem (s.darkTable s.pix.darkBand.toNat) sums.length = sums.map darkRateOf ∧
      BytesOnly (s.darkTable s.pix.darkBand.toNat) sums.length s t ∧
      t.flag Reg.pixStatus (8 + s.pix.darkBand.toNat) = true ∧ t.pix = { s.pix with darkBusy := false } ∧
      Only [.regs, .out, .pix, .mem, .poison] s t ∧ RegsOnly [Reg.pixStatus] s t) := by
  generalize ha : s.darkTable s.pix.darkBand.toNat = a at *
  obtain ⟨u, hu⟩ : ∃ u, u = wrMem a (sums.map darkRateOf) s := ⟨_, rfl⟩
  obtain ⟨v, hv⟩ : ∃ v, v = u.setFlag Reg.pixStatus (8 + s.pix.darkBand.toNat) true := ⟨_, rfl⟩
  obtain ⟨w, hw⟩ : ∃ w : State, w = { v with pix := { v.pix with darkBusy := false } } := ⟨_, rfl⟩
  have hexec : exec (.darkCaptureDone sums) s = .next (([0, 1, 2, 3] : List (Fin 4)).foldl (fun s k => driveStrobe k s) w) := by
    refine congrArg Host.Outcome.next ?_
    have hopen' : storeReserved a (sums.map darkRateOf).length = false := by rw [List.length_map]; exact hopen
    rw [if_pos hon, darkCaptureDone, if_pos hbusy]
    dsimp only
    rw [ha, engineStore_of_open hopen', hw, hv, hu]
  have h₁ : Only [.mem, .poison] s u := by rw [hu]; exact (wrMem_only a _ s (.refl [.mem, .poison] s) (by simp)).only
  have h₂ : Only [.regs] u v := by rw [hv]; exact only_iff.2 (by simp)
  have h₃ : Only [.pix] v w := by rw [hw]; exact only_iff.2 (by simp)
  obtain ⟨-, hframe⟩ := foldl_driveStrobe [0, 1, 2, 3] w (fun k => w.strobeActive k.val) (fun _ => rfl)
  generalize ([0, 1, 2, 3] : List (Fin 4)).foldl (fun s k => driveStrobe k s) w = t at hexec hframe
  have huregs : u.regs = s.regs := (h₁.2 .regs (by decide)).1
  have hwf : smWf resetVal u.regs = true := by rw [huregs]; exact hs.regs
  have hregs : t.regs = v.regs := (hframe.2 .regs (by decide)).1.trans (h₃.2 .regs (by decide)).1
  have hmem : t.mem = u.mem := (hframe.2 .mem (by decide)).trans ((h₃.2 .mem (by decide)).trans (h₂.2 .mem (by decide)))
  have hpix : v.pix = s.pix := (h₂.2 .pix (by decide)).trans (h₁.2 .pix (by decide))
  refine completes_of_next hexec ⟨?_, fun x hx => ?_, ?_, by rw [hframe.2 .pix (by decide), hw, hpix],
    ((h₁.mono (by simp)).trans (h₂.mono (by simp))).trans ((h₃.mono (by simp)).trans (hframe.mono (by simp))), fun off hoff => ?_⟩
  · have hback := rdMem_wrMem hs.mem a (sums.map darkRateOf)
    rw [List.length_map] at hback
    rw [State.rdMem, hmem, hu]
    exact hback
  · rw [State.rdMem, hmem, hu]
    exact (wrMem_moves hs.mem a _).only x (by rw [List.length_map]; exact hx)
  · have hband := s.pix.darkBand.isLt
    rw [State.flag, reg_eq_of_regs_eq hregs, hv]
    exact flag_setFlag hwf _ _ true (by omega)
  · have hmoves : RegMoves [Reg.pixStatus] u v := by
      rw [hv]
      exact (RegMoves.refl _ hwf).setFlag (off := Reg.pixStatus) _ true (by simp)
    rw [reg_eq_of_regs_eq hregs, hmoves.only off hoff, reg_eq_of_regs_eq huregs]

/-! ### Strobes and sync outputs (R107, R108) -/

theorem takeDue_one {now n width : Nat} {x : Strobe} (hx : x.starts = [n]) (h : n ≤ now) : takeDue now width x = ⟨[], some (n + width)⟩ := by
  simp [takeDue, hx, h]

theorem due_one {now n : Nat} {x : Strobe} (hx : x.starts = [n]) (h : n ≤ now) : x.due now = true := by
  simp [Strobe.due, hx, h]

theorem over_of_ended {now n : Nat} {x : Strobe} (hx : x.endAt = some n) (h : n ≤ now) : x.over now = true := by
  simp [Strobe.over, hx, h]

theorem strobe_setStrobe {s : State} (k : Nat) {x : Strobe} (h : Rising s.field.strobes ∨ x ≠ Strobe.reset) :
    (s.setStrobe k x).strobe k = x := by
  rcases h with h | h
  · exact smGet_smSet_rising h
  · exact smGet_smSet_value h ..

theorem sync_setSync {s : State} (k : Nat) {x : Strobe} (h : Rising s.field.syncs ∨ x ≠ Strobe.reset) :
    (s.setSync k x).sync k = x := by
  rcases h with h | h
  · exact smGet_smSet_rising h
  · exact smGet_smSet_value h ..

theorem timed_ne_reset (l : List Nat) (n : Nat) : (⟨l, some n⟩ : Strobe) ≠ Strobe.reset := by
  intro h
  cases congrArg Strobe.endAt h

/-- BELT_SECOND at one output: the pulse rises where the output's source is the belt second. -/
def secondPulse (j : Fin 2) (s : State) : State :=
  if s.syncSrc j.val = 4 then
    driveSync j (s.setSync j.val { s.sync j.val with endAt := some (s.time.pcyc + s.fld (Reg.fieldSyncCfg j.val) 16 16) })
  else s

section Outputs

variable {s : State} (hon : s.fieldOn = true)

/-- A strobe in MODE TRIGGERED follows its width; a dark capture holds it inactive. -/
theorem driven_strobe {k : Fin 4} {x : Strobe} (hx : Rising s.field.strobes ∨ x ≠ Strobe.reset)
    (hmode : s.fld (Reg.fieldStbCfg k.val) 0 2 = 1) :
    ((driveStrobe k (s.setStrobe k.val x)).strobe k.val = x) ∧
    (driveStrobe k (s.setStrobe k.val x)).out = s.out ++ [.ball (.stb k)
      ((if s.pix.darkBusy then false else x.endAt.isSome) != s.flag (Reg.fieldStbCfg k.val) 2)] ∧
    Only [.out, .field] s (driveStrobe k (s.setStrobe k.val x)) := by
  have hset := strobe_setStrobe (s := s) k.val hx
  refine ⟨hset, ?_, only_iff.2 (by simp [driveStrobe, State.setStrobe])⟩
  have hfld : (s.setStrobe k.val x).fld (Reg.fieldStbCfg k.val) 0 2 = 1 := hmode
  have hactive : (s.setStrobe k.val x).strobeActive k.val = (if s.pix.darkBusy then false else x.endAt.isSome) := by
    rw [State.strobeActive, hset, hfld]
    rfl
  rw [driveStrobe, hactive]
  rfl

/-- A sync output with timed pulses follows its width. -/
theorem driven_sync {j : Fin 2} {x : Strobe} (hx : Rising s.field.syncs ∨ x ≠ Strobe.reset)
    (hsrc : s.syncSrc j.val = 2 ∨ s.syncSrc j.val = 3 ∨ s.syncSrc j.val = 4) :
    ((driveSync j (s.setSync j.val x)).sync j.val = x) ∧
    (driveSync j (s.setSync j.val x)).out = s.out ++ [.ball (.sync j) (x.endAt.isSome != s.flag (Reg.fieldSyncCfg j.val) 3)] ∧
    Only [.out, .field] s (driveSync j (s.setSync j.val x)) := by
  have hset := sync_setSync (s := s) j.val hx
  refine ⟨hset, ?_, only_iff.2 (by simp [driveSync, State.setSync])⟩
  have hsame : (s.setSync j.val x).syncSrc j.val = s.syncSrc j.val := rfl
  have hactive : (s.setSync j.val x).syncActive j.val = x.endAt.isSome := by
    rw [State.syncActive, hset, hsame]
    rcases hsrc with h | h | h <;> rw [h] <;> rfl
  rw [driveSync, hactive]
  rfl

include hon

theorem completes_strobeStart {k : Fin 4} {n : Nat} (hstarts : (s.strobe k.val).starts = [n]) (hdue : n ≤ s.time.pcyc)
    (hmode : s.fld (Reg.fieldStbCfg k.val) 0 2 = 1) (hidle : s.pix.darkBusy = false) :
    Completes (.strobeStart k) s (fun t =>
      t.strobe k.val = ⟨[], some (n + s.fld (Reg.fieldStbWidth k.val) 0 22)⟩ ∧
      t.out = s.out ++ [.ball (.stb k) (!s.flag (Reg.fieldStbCfg k.val) 2)] ∧ Only [.out, .field] s t) := by
  have hexec : exec (.strobeStart k) s =
      .next (driveStrobe k (s.setStrobe k.val ⟨[], some (n + s.fld (Reg.fieldStbWidth k.val) 0 22)⟩)) := by
    show execStrobeStart k s = _
    rw [execStrobeStart, hon, due_one hstarts hdue, takeDue_one hstarts hdue]
    rfl
  obtain ⟨hset, hout, honly⟩ := driven_strobe (k := k) (.inr (timed_ne_reset [] (n + s.fld (Reg.fieldStbWidth k.val) 0 22))) hmode
  refine completes_of_next hexec ⟨hset, ?_, honly⟩
  rw [hout, hidle]
  simp

theorem completes_strobeEnd {k : Fin 4} {n : Nat} (hs : Rising s.field.strobes) (hend : (s.strobe k.val).endAt = some n)
    (hdue : n ≤ s.time.pcyc) (hmode : s.fld (Reg.fieldStbCfg k.val) 0 2 = 1) :
    Completes (.strobeEnd k) s (fun t =>
      t.strobe k.val = { s.strobe k.val with endAt := none } ∧
      t.out = s.out ++ [.ball (.stb k) (s.flag (Reg.fieldStbCfg k.val) 2)] ∧ Only [.out, .field] s t) := by
  have hexec : exec (.strobeEnd k) s = .next (driveStrobe k (s.setStrobe k.val { s.strobe k.val with endAt := none })) := by
    show execStrobeEnd k s = _
    rw [execStrobeEnd, hon, over_of_ended hend hdue]
    rfl
  obtain ⟨hset, hout, honly⟩ := driven_strobe (k := k) (x := { s.strobe k.val with endAt := none }) (.inl hs) hmode
  refine completes_of_next hexec ⟨hset, ?_, honly⟩
  rw [hout]
  simp

theorem completes_syncPulseStart {j : Fin 2} {n : Nat} (hstarts : (s.sync j.val).starts = [n]) (hdue : n ≤ s.time.pcyc)
    (hsrc : s.syncSrc j.val = 2 ∨ s.syncSrc j.val = 3) :
    Completes (.syncPulseStart j) s (fun t =>
      t.sync j.val = ⟨[], some (n + s.fld (Reg.fieldSyncCfg j.val) 16 16)⟩ ∧
      t.out = s.out ++ [.ball (.sync j) (!s.flag (Reg.fieldSyncCfg j.val) 3)] ∧ Only [.out, .field] s t) := by
  have hexec : exec (.syncPulseStart j) s =
      .next (driveSync j (s.setSync j.val ⟨[], some (n + s.fld (Reg.fieldSyncCfg j.val) 16 16)⟩)) := by
    show execSyncPulseStart j s = _
    rw [execSyncPulseStart, hon, due_one hstarts hdue, takeDue_one hstarts hdue]
    rfl
  obtain ⟨hset, hout, honly⟩ := driven_sync (j := j) (.inr (timed_ne_reset [] (n + s.fld (Reg.fieldSyncCfg j.val) 16 16)))
    (hsrc.imp_right .inl)
  refine completes_of_next hexec ⟨hset, ?_, honly⟩
  rw [hout]
  simp

theorem completes_syncPulseEnd {j : Fin 2} {n : Nat} (hs : Rising s.field.syncs) (hend : (s.sync j.val).endAt = some n)
    (hdue : n ≤ s.time.pcyc) (hsrc : s.syncSrc j.val = 2 ∨ s.syncSrc j.val = 3) :
    Completes (.syncPulseEnd j) s (fun t =>
      t.sync j.val = { s.sync j.val with endAt := none } ∧
      t.out = s.out ++ [.ball (.sync j) (s.flag (Reg.fieldSyncCfg j.val) 3)] ∧ Only [.out, .field] s t) := by
  have hexec : exec (.syncPulseEnd j) s = .next (driveSync j (s.setSync j.val { s.sync j.val with endAt := none })) := by
    show execSyncPulseEnd j s = _
    rw [execSyncPulseEnd, hon, over_of_ended hend hdue]
    rfl
  obtain ⟨hset, hout, honly⟩ := driven_sync (j := j) (x := { s.sync j.val with endAt := none }) (.inl hs) (hsrc.imp_right .inl)
  refine completes_of_next hexec ⟨hset, ?_, honly⟩
  rw [hout]
  simp

omit hon in
/-- A pulse of a whole second on one output (R108). -/
theorem secondPulse_eq {j : Fin 2} (hsrc : s.syncSrc j.val = 4) :
    secondPulse j s = driveSync j (s.setSync j.val ⟨(s.sync j.val).starts, some (s.time.pcyc + s.fld (Reg.fieldSyncCfg j.val) 16 16)⟩) :=
  if_pos hsrc

theorem completes_beltSecond (hsecond : s.atSecond = true) (hsrc : s.syncSrc 0 = 4) (hother : s.syncSrc 1 ≠ 4) :
    Completes .beltSecond s (fun t =>
      (t.sync 0).endAt = some (s.time.pcyc + s.fld (Reg.fieldSyncCfg 0) 16 16) ∧
      t.out = s.out ++ [.ball (.sync 0) (!s.flag (Reg.fieldSyncCfg 0) 3)] ∧ Only [.out, .field] s t) := by
  have hexec : exec .beltSecond s = .next (secondPulse 1 (secondPulse 0 s)) := by
    show execBeltSecond s = _
    rw [execBeltSecond, hon, hsecond]
    rfl
  rw [secondPulse_eq (j := 0) hsrc, secondPulse, if_neg (by exact hother)] at hexec
  obtain ⟨hset, hout, honly⟩ := driven_sync (s := s) (j := 0)
    (.inr (timed_ne_reset (s.sync 0).starts (s.time.pcyc + s.fld (Reg.fieldSyncCfg 0) 16 16))) (.inr (.inr hsrc))
  refine completes_of_next hexec ⟨congrArg Strobe.endAt hset, hout.trans ?_, honly⟩
  simp

end Outputs

/-- Settles O19: exposures, dark capture, strobes and sync outputs are one lemma each. -/
theorem pixelCommandsComplete : Obligations.PixelCommandsComplete := by
  unfold Obligations.PixelCommandsComplete
  refine ⟨?_, ?_, ?_, ?_, ?_, ?_, ?_, ?_, ?_, ?_, ?_⟩
  · exact fun p n l s hs hon hsnaps hdue hfirst haccepts hruns => completes_snap hs hon hsnaps hdue hfirst haccepts hruns
  · exact fun w s hs hrun hlevel hidle hfirst => completes_darkCapture hs hrun hlevel hidle hfirst
  · exact fun sums s hs hon hbusy hopen => completes_darkCaptureDone hs hon hbusy hopen
  · exact fun e s hdue hon => completes_integrationStart hdue hon
  · exact fun f s hcur hdue hon hidle => completes_integrationEnd hcur hdue hon hidle
  · exact fun rows f a s hs hon hread hdue hbase hopen => completes_readoutEnd hs hon hread hdue hbase hopen
  · exact fun k n s hon hstarts hdue hmode hidle => completes_strobeStart hon hstarts hdue hmode hidle
  · exact fun k n s hs hon hend hdue hmode => completes_strobeEnd hon hs hend hdue hmode
  · exact fun j n s hon hstarts hdue hsrc => completes_syncPulseStart hon hstarts hdue hsrc
  · exact fun j n s hs hon hend hdue hsrc => completes_syncPulseEnd hon hs hend hdue hsrc
  · exact fun s hon hsecond hsrc hother => completes_beltSecond hon hsecond hsrc hother

end Sys2Proof.Machine
end

section
/-!
PROOFS. Regions.lean: regions, rules, crops, profiles, boxes and the closed write path (R112 to R121, R123, R124, R127, R129).
-/

namespace Sys2Proof.Machine

/-! ### Counters and maps -/

theorem reg_toNat_eq_fld (s : State) (off : Nat) : (s.reg off).toNat = s.fld off 0 32 := by
  rw [fld_eq_bits]
  simp [bits]
  omega

/-- A counter of a whole word. -/
theorem toNat_reg_bumpSat {s : State} (h : smWf resetVal s.regs = true) (off n : Nat) :
    ((s.bumpSat off 32 n).reg off).toNat = min (2 ^ 32 - 1) ((s.reg off).toNat + n) := by
  rw [reg_toNat_eq_fld, reg_toNat_eq_fld, fld_bumpSat h off 32 n (le_refl _), min_comm]

/-- A counter that takes nothing keeps its value. -/
theorem reg_bumpSat_zero {s : State} (h : smWf resetVal s.regs = true) (off o : Nat) : (s.bumpSat off 32 0).reg o = s.reg o := by
  by_cases ho : o = off
  · subst ho
    apply BitVec.eq_of_toNat_eq
    rw [toNat_reg_bumpSat h]
    have := (s.reg o).isLt
    omega
  · exact reg_bumpSat_ne h 32 0 ho

/-- Setting a key to a value other than the default leaves every other key alone, whatever the order of the map. -/
theorem smGet_smSet_ne_value {α : Type} [DecidableEq α] {d v : α} (hv : v ≠ d) (m : SMap α) {k l : Nat} (hl : l ≠ k) :
    smGet d (smSet d m k v) l = smGet d m l := by
  induction m with
  | nil => simp [smSet, hv, smGet, hl]
  | cons p m ih =>
    obtain ⟨j, w⟩ := p
    simp only [smSet, hv, if_false]
    split
    · simp only [smGet, hl, if_false]
      split
      · rw [if_pos (by omega)]
      · rfl
    · split
      · next hkj => subst hkj; simp only [smGet, hl, if_false]
      · simp only [smGet, ih]

/-! ### The region list (R112 to R114) -/

/-- Matched regions join the queue. -/
def withMatched (l : List Matched) (s : State) : State :=
  { s with roi := { s.roi with matched := s.roi.matched ++ l } }

/-- The region that an entry of the list gives. -/
def regionOf (s : State) (e : BitVec 256) : Option Matched :=
  (s.storedSeq (entryNum e 0 4)).bind (fun f => matchRegion s f e)

theorem takeRegion_matched {s : State} {e : BitVec 256} {f : Frame} {m : Matched} (hf : s.storedSeq (entryNum e 0 4) = some f)
    (hok : entryOk f e = true) (hm : matchRegion s f e = some m) : takeRegion s e = withMatched [m] s := by
  have hsome : (s.storedSeq (entryNum e 0 4)).filter (fun f => entryOk f e) = some f := by
    rw [hf]
    simp [hok]
  rw [takeRegion, hsome]
  dsimp only
  rw [hm]
  rfl

/-- The regions that entries give, one after the other. -/
theorem foldl_takeRegion (es : List (BitVec 256)) (s : State)
    (h : ∀ e ∈ es, ∃ f m, s.storedSeq (entryNum e 0 4) = some f ∧ entryOk f e = true ∧ matchRegion s f e = some m) :
    es.foldl takeRegion s = withMatched (es.filterMap (regionOf s)) s := by
  induction es generalizing s with
  | nil => simp [withMatched]
  | cons e es ih =>
    obtain ⟨f, m, hf, hok, hm⟩ := h e (by simp)
    have hregion : regionOf s e = some m := by rw [regionOf, hf, Option.bind_some, hm]
    have hsame : regionOf (withMatched [m] s) = regionOf s := rfl
    rw [List.foldl_cons, takeRegion_matched hf hok hm, ih (withMatched [m] s) (fun e' he' => h e' (by simp [he'])), List.filterMap_cons_some hregion,
      hsame]
    simp only [withMatched, List.append_assoc, List.singleton_append]

section Lists

variable {s : State} (hs : Canon s) (hen : s.flag Reg.roiCtl 0 = true)

include hs hen

theorem completes_regionList {es : List (BitVec 256)} (hlen : es.length ≤ 64)
    (hall : ∀ e ∈ es, ∃ f m, s.storedSeq (entryNum e 0 4) = some f ∧ entryOk f e = true ∧ matchRegion s f e = some m) :
    Completes (.regionList es) s (fun t =>
      t.roi = { s.roi with matched := s.roi.matched ++ es.filterMap (fun e =>
        (s.storedSeq (entryNum e 0 4)).bind (fun f => matchRegion s f e)) } ∧ Only [.regs, .roi] s t ∧ RegsOnly [] s t) := by
  obtain ⟨u, hu⟩ : ∃ u, u = withMatched (es.filterMap (regionOf s)) s := ⟨_, rfl⟩
  have hexec : exec (.regionList es) s = .next (u.bumpSat Reg.roiEntryBad 32 0) := by
    refine congrArg Host.Outcome.next ?_
    rw [regionList, if_pos hen, List.take_of_length_le hlen, foldl_takeRegion es s hall, ← hu, Nat.sub_eq_zero_of_le hlen]
  have hregs : u.regs = s.regs := by rw [hu]; rfl
  have hwf : smWf resetVal u.regs = true := by rw [hregs]; exact hs.regs
  have honly : Only [.roi] s u := by rw [hu]; exact only_iff.2 (by simp [withMatched])
  refine completes_of_next hexec ⟨by rw [hu]; rfl, (honly.mono (by simp)).trans (only_iff.2 (by simp)), fun off _ => ?_⟩
  rw [reg_bumpSat_zero hwf, reg_eq_of_regs_eq hregs]

/-- An entry that fails its checks is skipped, counted and reported. -/
theorem completes_regionList_bad {e : BitVec 256} (hbad : ∀ f, s.storedSeq (entryNum e 0 4) = some f → entryOk f e = false) :
    Completes (.regionList [e]) s (fun t =>
      (t.reg Reg.roiEntryBad).toNat = min (2 ^ 32 - 1) ((s.reg Reg.roiEntryBad).toNat + 1) ∧
      Only [.regs, .out, .host] s t) := by
  obtain ⟨u, hu⟩ : ∃ u, u = s.bumpSat Reg.roiEntryBad 32 1 := ⟨_, rfl⟩
  have hnone : (s.storedSeq (entryNum e 0 4)).filter (fun f => entryOk f e) = none := by
    cases hf : s.storedSeq (entryNum e 0 4) with
    | none => rfl
    | some f => simp [hbad f hf]
  have hstep : takeRegion s e = postEvent eRegionEntry 0 u := by rw [takeRegion, hnone, hu]
  have hexec : exec (.regionList [e]) s = .next ((postEvent eRegionEntry 0 u).bumpSat Reg.roiEntryBad 32 0) := by
    refine congrArg Host.Outcome.next ?_
    rw [regionList, if_pos hen]
    show (takeRegion s e).bumpSat Reg.roiEntryBad 32 0 = _
    rw [hstep]
  have hwf : smWf resetVal u.regs = true := by rw [hu]; exact bumpSat_wf hs.regs _ _ _
  have hpost : RegMoves [Reg.roiErr, Reg.hostEvtLost] u (postEvent eRegionEntry 0 u) :=
    RegMoves.postEvent (RegMoves.refl _ hwf) _ _ (by decide) (by decide)
  have hframe := (postEvent_only eRegionEntry 0 u (.refl [.regs, .out, .host] u) (by simp)).only
  have honly : Only [.regs] s u := by rw [hu]; exact only_iff.2 (by simp)
  refine completes_of_next hexec ⟨?_, (honly.mono (by simp)).trans (hframe.trans (only_iff.2 (by simp)))⟩
  rw [reg_bumpSat_zero hpost.wf, hpost.only _ (by decide), hu, toNat_reg_bumpSat hs.regs]

end Lists

/-! ### Crops (R116 to R119) -/

section Crops

variable {s : State}

/-- The crop of a region that finds a slot. -/
def cropOf (s : State) (o : BitVec 6) (id : Word) (m : Matched) : Crop :=
  { owner := o, parcel := id, m := m, w := (s.classGeom (entryNum m.entry 4 1)).1, h := (s.classGeom (entryNum m.entry 4 1)).2.1,
    scale := BitVec.ofNat 16 (cropScale m.entry (s.classGeom (entryNum m.entry 4 1)).1 (s.classGeom (entryNum m.entry 4 1)).2.1),
    crc := crc32c ((cropPixels s m).map (fun x => x.1)), done := false, commitNs := none }

theorem cropPixels_congr {t : State} (h : Only [.freeCtr, .roi] s t) (m : Matched) : cropPixels t m = cropPixels s m := by
  have hregs : t.regs = s.regs := (h.2 .regs (by decide)).1
  have hpixel (f : Frame) (w : Nat) (c r : Int) : t.pixel f w c r = s.pixel f w c r := by
    unfold State.pixel State.pixelAddr State.frameBase State.rdMem State.poisoned
    rw [h.2 .weave (by decide), h.2 .mem (by decide), h.2 .poison (by decide)]
  unfold cropPixels
  rw [State.classGeom, reg_eq_of_regs_eq hregs, ← State.classGeom]
  simp only [bilinear, hpixel]

/-- The queue of matched regions has moved on, and the parcel is marked. -/
def cropStarted (o : BitVec 6) (id : Word) (multi : Bool) (rest : List Matched) (s : State) : State :=
  markMulti o id multi { s with roi := { s.roi with matched := rest } }

theorem cropStarted_frame (o : BitVec 6) (id : Word) (multi : Bool) (rest : List Matched) (s : State) :
    Only [.roi] s (cropStarted o id multi rest s) := only_iff.2 (by simp [cropStarted, markMulti, mapParcels])

theorem exec_cropCut {g : Option (BitVec 6 × Word)} {m : Matched} {rest : List Matched} {o : BitVec 6} {id : Word}
    (hmatched : s.roi.matched = m :: rest) (hparcel : cropParcel s m g = some (o, id)) :
    exec (.cropCut g) s = .next (takeCrop m o id (cropStarted o id m.multi rest s)) := by
  refine congrArg Host.Outcome.next ?_
  have hsame : cropParcel { s with roi := { s.roi with matched := rest } } m g = some (o, id) := hparcel
  rw [cropCut, hmatched]
  dsimp only
  rw [hsame]
  rfl

/-- A parcel that a region of several rules marks. -/
theorem multi_marked {o : BitVec 6} {id : Word} {rest : List Matched} (howner : o = s.pkg) :
    ∀ q ∈ (cropStarted o id true rest s).roi.parcels, q.id = id → q.multi = true := by
  intro q hq hid
  obtain ⟨p, hp, rfl⟩ := List.mem_map.1 hq
  have hpkg : (o == ({ s with roi := { s.roi with matched := rest } } : State).pkg) = true := beq_iff_eq.2 howner
  rw [hpkg] at hid ⊢
  by_cases h : (p.id == id) = true
  · simp [h]
  · rw [if_neg (by simp [h])] at hid
    exact absurd (beq_iff_eq.2 hid) h

theorem cropSlots_congr {t : State} (h : t.regs = s.regs) : t.cropSlots = s.cropSlots := by
  rw [State.cropSlots, fld_eq_of_regs_eq h, State.cropSlots]

theorem cropAddr_congr {t : State} (h : t.regs = s.regs) (k : Nat) : t.cropAddr k = s.cropAddr k := by
  rw [State.cropAddr, State.cropBase, pair_congr (reg_eq_of_regs_eq h _) (reg_eq_of_regs_eq h _), State.cropAddr, State.cropBase]

theorem nthD_mod_mem {l : List Nat} (h : l ≠ []) (i : Nat) : nthD 0 l (i % l.length) ∈ l :=
  nthD_mem (Nat.mod_lt _ (List.length_pos_iff.2 h))

/-- A region that finds a slot: the slot is its crop's, and the pixels stand in it. -/
theorem completes_cropCut {g : Option (BitVec 6 × Word)} {m : Matched} {rest : List Matched} {o : BitVec 6} {id : Word}
    (hs : Canon s) (hmatched : s.roi.matched = m :: rest) (hparcel : cropParcel s m g = some (o, id)) (hfree : s.freeSlots ≠ []) :
    Completes (.cropCut g) s (fun t =>
      t.roi.matched = rest ∧ t.roi.handed = s.roi.handed ∧
      (∃ k ∈ s.freeSlots, t.freeSlots = s.freeSlots.filter (fun j => j != k) ∧
        (smGet none t.roi.crops k).map (fun c => (c.owner, c.parcel, c.m, c.done)) = some (o, id, m, false) ∧
        t.rdMem (s.cropAddr k + 64) (cropPixels s m).length = (cropPixels s m).map (fun x => x.1) ∧
        BytesOnly (s.cropAddr k + 64) (cropPixels s m).length s t) ∧
      (o = s.pkg → m.multi = true → ∀ q ∈ t.roi.parcels, q.id = id → q.multi = true) ∧
      Only [.freeCtr, .roi, .mem, .poison] s t) := by
  obtain ⟨u, hu⟩ : ∃ u, u = cropStarted o id m.multi rest s := ⟨_, rfl⟩
  have hsu : Only [.roi] s u := by rw [hu]; exact cropStarted_frame ..
  have hregs : u.regs = s.regs := (hsu.2 .regs (by decide)).1
  have hcrops : u.roi.crops = s.roi.crops := by rw [hu]; rfl
  have hslots : u.freeSlots = s.freeSlots := by rw [State.freeSlots, cropSlots_congr hregs, hcrops, State.freeSlots]
  obtain ⟨k, hk⟩ : ∃ k, k = nthD 0 s.freeSlots (Config.cropPick u.freeCtr % s.freeSlots.length) := ⟨_, rfl⟩
  have hmem : k ∈ s.freeSlots := by rw [hk]; exact nthD_mod_mem hfree _
  obtain ⟨v, hv⟩ : ∃ v : State, v = { u with freeCtr := u.freeCtr + 1, roi := { u.roi with
    crops := smSet none u.roi.crops k (some (cropOf u o id m)) } } := ⟨_, rfl⟩
  have hpixels : cropPixels u m = cropPixels s m := cropPixels_congr (hsu.mono (by simp)) m
  have hexec : exec (.cropCut g) s = .next (wrMarked (s.cropAddr k + 64) (cropPixels s m) v) := by
    have htake : takeCrop m o id u = wrMarked (u.cropAddr k + 64) (cropPixels u m) v := by
      unfold takeCrop
      rw [hslots, hv, hk]
      cases hl : s.freeSlots with
      | nil => exact absurd hl hfree
      | cons a l => rfl
    rw [exec_cropCut hmatched hparcel, ← hu, htake, hpixels, cropAddr_congr hregs]
  have huv : Only [.freeCtr, .roi] u v := by rw [hv]; exact only_iff.2 (by simp)
  have hsv : Only [.freeCtr, .roi] s v := (hsu.mono (by simp)).trans huv
  have hvmem : v.mem = s.mem := hsv.2 .mem (by decide)
  have hwf : Canon v := by
    obtain ⟨h1, h2, h3, h4, h5, h6, h7, h8, h9, h10, h11⟩ := hs
    have hfuse := hsv.2 .fuse (by decide)
    exact ⟨by rw [(hsv.2 .regs (by decide)).1]; exact h1, by rw [hvmem]; exact h2, by rw [hsv.2 .poison (by decide)]; exact h3,
      by rw [hsv.2 .knots (by decide)]; exact h4, by rw [hsv.2 .flash (by decide)]; exact h5, by rw [hfuse]; exact h6,
      by rw [hfuse]; exact h7, by rw [hfuse]; exact h8, by rw [hsv.2 .host (by decide)]; exact h9,
      by rw [hsv.2 .cores (by decide)]; exact h10, by rw [hsv.2 .serve (by decide)]; exact h11⟩
  obtain ⟨hmoves, hreads, -, hwrite⟩ := wrMarked_completes hwf (s.cropAddr k + 64) (cropPixels s m)
  generalize wrMarked (s.cropAddr k + 64) (cropPixels s m) v = t at hexec hmoves hreads hwrite
  have hroi : t.roi = v.roi := hwrite.2 .roi (by decide)
  have htregs : t.regs = s.regs := (hwrite.2 .regs (by decide)).1.trans (hsv.2 .regs (by decide)).1
  have hcropsT : t.roi.crops = smSet none s.roi.crops k (some (cropOf u o id m)) := by rw [hroi, hv, ← hcrops]
  have hget : smGet none t.roi.crops k = some (cropOf u o id m) := by
    rw [hcropsT]
    exact smGet_smSet_value (by simp) ..
  refine completes_of_next hexec ⟨by rw [hroi, hv, hu]; rfl, by rw [hroi, hv, hu]; rfl, ⟨k, hmem, ?_, ?_, ?_, ?_⟩,
    fun howner hmulti => ?_, (hsv.mono (by simp)).trans (hwrite.mono (by simp))⟩
  · rw [State.freeSlots, cropSlots_congr htregs, State.freeSlots, List.filter_filter]
    refine List.filter_congr fun j _ => ?_
    by_cases hj : j = k
    · rw [hj, hget]
      simp
    · rw [hcropsT, smGet_smSet_ne_value (by simp) _ hj]
      simp [hj]
  · rw [hget]
    rfl
  · exact hreads
  · intro x hx
    rw [hmoves.only x hx, State.rdMem, hvmem, ← State.rdMem]
  · rw [hroi, hv]
    show ∀ q ∈ u.roi.parcels, _
    rw [hu, hmulti]
    exact multi_marked howner

/-- A region that finds no free slot is counted and reported. -/
theorem completes_cropCut_full {g : Option (BitVec 6 × Word)} {m : Matched} {rest : List Matched} {o : BitVec 6} {id : Word}
    (hs : Canon s) (hmatched : s.roi.matched = m :: rest) (hparcel : cropParcel s m g = some (o, id)) (hfull : s.freeSlots = []) :
    Completes (.cropCut g) s (fun t =>
      t.roi.matched = rest ∧ t.roi.crops = s.roi.crops ∧
      (t.reg Reg.roiCropFullCnt).toNat = min (2 ^ 32 - 1) ((s.reg Reg.roiCropFullCnt).toNat + 1) ∧
      (o = s.pkg → m.multi = true → ∀ q ∈ t.roi.parcels, q.id = id → q.multi = true) ∧
      Only [.regs, .out, .host, .roi] s t) := by
  obtain ⟨u, hu⟩ : ∃ u, u = cropStarted o id m.multi rest s := ⟨_, rfl⟩
  obtain ⟨v, hv⟩ : ∃ v, v = u.bumpSat Reg.roiCropFullCnt 32 1 := ⟨_, rfl⟩
  have hsu : Only [.roi] s u := by rw [hu]; exact cropStarted_frame ..
  have hregs : u.regs = s.regs := (hsu.2 .regs (by decide)).1
  have hcrops : u.roi.crops = s.roi.crops := by rw [hu]; rfl
  have hslots : u.freeSlots = [] := by rw [State.freeSlots, cropSlots_congr hregs, hcrops, ← State.freeSlots]; exact hfull
  have hexec : exec (.cropCut g) s = .next (postEvent eCropFull (id.setWidth 128) v) := by
    rw [exec_cropCut hmatched hparcel, ← hu, takeCrop, hslots, hv]
  have hwfu : smWf resetVal u.regs = true := by rw [hregs]; exact hs.regs
  have hwf : smWf resetVal v.regs = true := by rw [hv]; exact bumpSat_wf hwfu _ _ _
  have hpost : RegMoves [Reg.roiErr, Reg.hostEvtLost] v (postEvent eCropFull (id.setWidth 128) v) :=
    RegMoves.postEvent (RegMoves.refl _ hwf) _ _ (by decide) (by decide)
  have hframe := (postEvent_only eCropFull (id.setWidth 128) v (.refl [.regs, .out, .host] v) (by simp)).only
  have huv : Only [.regs] u v := by rw [hv]; exact only_iff.2 (by simp)
  have hroi : (postEvent eCropFull (id.setWidth 128) v).roi = u.roi := (hframe.2 .roi (by decide)).trans (huv.2 .roi (by decide))
  refine completes_of_next hexec ⟨by rw [hroi, hu]; rfl, by rw [hroi, hcrops], ?_, fun howner hmulti => ?_,
    (hsu.mono (by simp)).trans ((huv.mono (by simp)).trans (hframe.mono (by simp)))⟩
  · rw [hpost.only _ (by decide), hv, toNat_reg_bumpSat hwfu, reg_eq_of_regs_eq hregs]
  · rw [hroi, hu, hmulti]
    exact multi_marked howner

theorem cropHeader_length (s : State) (c : Crop) (req : Nat) : (cropHeader s c req).length = 64 := by
  unfold cropHeader
  extract_lets e f h
  have hbody : h.length = 60 := by simp only [h, List.length_append, leBytes_length]
  rw [List.length_append, hbody, leBytes_length]

theorem cropHeader_congr {t : State} (h : t.power = s.power) (c : Crop) (req : Nat) : cropHeader t c req = cropHeader s c req := by
  have hpkg : t.pkg = s.pkg := by rw [State.pkg, h, State.pkg]
  unfold cropHeader
  rw [hpkg]

theorem completes_cropDone {k : BitVec 9} {c : Crop} (hs : Canon s) (hc : smGet none s.roi.crops k.toNat = some c)
    (hopen : c.done = false) :
    Completes (.cropDone k) s (fun t =>
      smGet none t.roi.crops k.toNat = some { c with done := true } ∧
      t.rdMem (s.cropAddr k.toNat) 64 = cropHeader s c 0 ∧ BytesOnly (s.cropAddr k.toNat) 64 s t ∧
      (c.owner = s.pkg → t.roi.handed = s.roi.handed ++ [k] ∧ t.out = s.out) ∧
      (c.owner ≠ s.pkg → t.roi.handed = s.roi.handed ∧ t.out = s.out ++ [.crop c.owner (handedCrop s k c)]) ∧
      Only [.out, .roi, .mem, .poison] s t) := by
  obtain ⟨u, hu⟩ : ∃ u : State, u = { s with roi := { s.roi with crops := smSet none s.roi.crops k.toNat (some { c with done := true }) } } :=
    ⟨_, rfl⟩
  obtain ⟨v, hv⟩ : ∃ v, v = wrMem (s.cropAddr k.toNat) (cropHeader s c 0) u := ⟨_, rfl⟩
  have hsu : Only [.roi] s u := by rw [hu]; exact only_iff.2 (by simp)
  have hwf : Memory.wf u.mem = true := by rw [hsu.2 .mem (by decide)]; exact hs.mem
  have huv : Only [.mem, .poison] u v := by rw [hv]; exact (wrMem_only _ _ u (.refl [.mem, .poison] u) (by simp)).only
  have hsv : Only [.roi, .mem, .poison] s v := (hsu.mono (by simp)).trans (huv.mono (by simp))
  have hpkg : v.pkg = s.pkg := by rw [State.pkg, hsv.2 .power (by decide), State.pkg]
  have hexec : exec (.cropDone k) s = .next (if c.owner = v.pkg then { v with roi := { v.roi with handed := v.roi.handed ++ [k] } }
      else v.emit (.crop c.owner (handedCrop v k c))) := by
    refine congrArg Host.Outcome.next ?_
    have haddr : u.cropAddr k.toNat = s.cropAddr k.toNat := cropAddr_congr (hsu.2 .regs (by decide)).1 _
    have hstep : wrMem (u.cropAddr k.toNat) (cropHeader u { c with done := true } 0) u = v := by
      rw [haddr, cropHeader_congr (hsu.2 .power (by decide)), hv]
      rfl
    rw [cropDone, hc]
    dsimp only
    rw [hopen, if_neg Bool.false_ne_true, ← hstep, hu]
    rfl
  rw [hpkg] at hexec
  obtain ⟨t, ht⟩ : ∃ t, t = (if c.owner = s.pkg then { v with roi := { v.roi with handed := v.roi.handed ++ [k] } }
      else v.emit (.crop c.owner (handedCrop v k c))) := ⟨_, rfl⟩
  have htcrops : t.roi.crops = v.roi.crops ∧ t.mem = v.mem := by
    rw [ht]
    split <;> exact ⟨rfl, rfl⟩
  have hvt : Only [.out, .roi] v t := by
    rw [ht]
    split <;> exact only_iff.2 (by simp)
  have hroi : v.roi = u.roi := huv.2 .roi (by decide)
  have hout : v.out = s.out := hsv.2 .out (by decide)
  have hhanded : v.roi.handed = s.roi.handed := by rw [hroi, hu]
  have hback := rdMem_wrMem hwf (s.cropAddr k.toNat) (cropHeader s c 0)
  have hbytes := (wrMem_moves hwf (s.cropAddr k.toNat) (cropHeader s c 0)).only
  rw [cropHeader_length] at hback hbytes
  rw [← ht] at hexec
  refine completes_of_next hexec ⟨?_, ?_, fun x hx => ?_, fun howner => ?_, fun howner => ?_,
    (hsv.mono (by simp)).trans (hvt.mono (by simp))⟩
  · rw [htcrops.1, hroi, hu]
    exact smGet_smSet_value (by simp) ..
  · rw [State.rdMem, htcrops.2, hv]
    exact hback
  · rw [State.rdMem, htcrops.2, hv, ← State.rdMem, hbytes x hx, State.rdMem, hsu.2 .mem (by decide), State.rdMem]
  · rw [ht, if_pos howner]
    exact ⟨by rw [hhanded], hout⟩
  · rw [ht, if_neg howner]
    refine ⟨hhanded, ?_⟩
    show v.out ++ _ = _
    rw [hout, handedCrop, cropHeader_congr (hsv.2 .power (by decide)), handedCrop]

theorem completes_cropHoldExpiry {k : BitVec 9} {c : Crop} {fate : CropFate} {n : Nat} (hs : Rising s.roi.crops)
    (hc : smGet none s.roi.crops k.toNat = some c) (hdone : c.done = true)
    (hwhen : (c.owner = s.pkg ∧ c.commitNs = some n) ∨ (c.owner ≠ s.pkg ∧ ∃ ns, fate = .committed ns ∧ n = ns.toNat))
    (hpast : n + s.fld Reg.roiCropCfg 16 16 * 1000000 ≤ s.nowNs) :
    Completes (.cropHoldExpiry k fate) s (fun t =>
      smGet none t.roi.crops k.toNat = none ∧ k ∉ t.roi.handed ∧
      (∀ j, j ≠ k.toNat → smGet none t.roi.crops j = smGet none s.roi.crops j) ∧ Only [.roi] s t) := by
  have hhold : s.holdPast n = true := decide_eq_true hpast
  have hover : s.holdOver k.toNat c fate = true := by
    rcases hwhen with ⟨howner, hcommit⟩ | ⟨howner, ns, rfl, rfl⟩
    · simp [State.holdOver, hdone, howner, hcommit, hhold]
    · simp [State.holdOver, hdone, howner, hhold]
  have hexec : exec (.cropHoldExpiry k fate) s = .next (dropCrop k.toNat s) := by
    refine congrArg Host.Outcome.next ?_
    rw [cropHoldExpiry, hc]
    exact if_pos hover
  refine completes_of_next hexec ⟨smGet_smSet_rising hs, fun hmem => ?_, fun j hj => smGet_smSet_ne_rising hs hj,
    only_iff.2 (by simp [dropCrop])⟩
  have hkept := (List.mem_filter.1 hmem).2
  simp at hkept

end Crops

/-! ### The rule banks (R115) -/

section Rules

variable {s : State}

theorem exec_ruleWrite (hs : Served s) (hidle : s.roi.swap = false) (hfield : s.ruleData.toNat &&& ruleReserved = 0)
    (hbank : s.roi.active1 = false) :
    exec .ruleWrite s = .next (let r := s.roi
      { s with roi := { r with bank1 := smSet 0 r.bank1 (s.fld Reg.roiRuleSel 0 8) s.ruleData } }) := by
  refine congrArg Host.Outcome.next ((gateWrite_of_served hs _ _).trans ?_)
  have hinactive : s.roi.inactive = s.roi.bank1 := by rw [RoiState.inactive, hbank, if_neg Bool.false_ne_true]
  rw [ruleWrite, hidle, if_neg Bool.false_ne_true]
  dsimp only
  rw [if_neg (not_not.2 hfield), hbank, if_neg Bool.false_ne_true, hinactive]

theorem exec_ruleSwap (hs : Served s) (hidle : s.roi.swap = false) :
    exec .ruleSwap s = .next { s with roi := { s.roi with swap := true } } := by
  refine congrArg Host.Outcome.next ((gateWrite_of_served hs _ _).trans ?_)
  rw [ruleSwap, hidle, if_neg Bool.false_ne_true]

/-- A rule in four words is the rule again. -/
theorem ruleWords_join (r : BitVec 128) : BitVec.ofNat 128 ((BitVec.ofNat 32 (bits r 0 32)).toNat
    + (BitVec.ofNat 32 (bits r 32 32)).toNat * 2 ^ 32 + (BitVec.ofNat 32 (bits r 64 32)).toNat * 2 ^ 64
    + (BitVec.ofNat 32 (bits r 96 32)).toNat * 2 ^ 96) = r := by
  have hlt := r.isLt
  apply BitVec.eq_of_toNat_eq
  simp only [bits, BitVec.toNat_ofNat, Nat.shiftRight_eq_div_pow]
  omega

theorem completes_ruleRead (hs : Canon s) (hserved : Served s) :
    Completes .ruleRead s (fun t =>
      t.ruleData = smGet 0 s.roi.inactive (s.fld Reg.roiRuleSel 0 8) ∧ Only [.regs] s t ∧
      RegsOnly [Reg.roiRuleData0, Reg.roiRuleData1, Reg.roiRuleData2, Reg.roiRuleData3] s t) := by
  obtain ⟨r, hr⟩ : ∃ r, r = smGet 0 s.roi.inactive (s.fld Reg.roiRuleSel 0 8) := ⟨_, rfl⟩
  obtain ⟨s₀, h₀⟩ : ∃ u, u = s.setReg Reg.roiRuleData0 (BitVec.ofNat 32 (bits r 0 32)) := ⟨_, rfl⟩
  obtain ⟨s₁, h₁⟩ : ∃ u, u = s₀.setReg Reg.roiRuleData1 (BitVec.ofNat 32 (bits r 32 32)) := ⟨_, rfl⟩
  obtain ⟨s₂, h₂⟩ : ∃ u, u = s₁.setReg Reg.roiRuleData2 (BitVec.ofNat 32 (bits r 64 32)) := ⟨_, rfl⟩
  obtain ⟨s₃, h₃⟩ : ∃ u, u = s₂.setReg Reg.roiRuleData3 (BitVec.ofNat 32 (bits r 96 32)) := ⟨_, rfl⟩
  have hexec : exec .ruleRead s = .next s₃ := by
    refine congrArg Host.Outcome.next ((gateWrite_of_served hserved _ _).trans ?_)
    rw [h₃, h₂, h₁, h₀, hr]
    rfl
  have m₀ : RegMoves [Reg.roiRuleData0] s s₀ := by
    rw [h₀]; exact (RegMoves.refl _ hs.regs).setReg (off := Reg.roiRuleData0) _ (by simp)
  have m₁ : RegMoves [Reg.roiRuleData1] s₀ s₁ := by
    rw [h₁]; exact (RegMoves.refl _ m₀.wf).setReg (off := Reg.roiRuleData1) _ (by simp)
  have m₂ : RegMoves [Reg.roiRuleData2] s₁ s₂ := by
    rw [h₂]; exact (RegMoves.refl _ m₁.wf).setReg (off := Reg.roiRuleData2) _ (by simp)
  have m₃ : RegMoves [Reg.roiRuleData3] s₂ s₃ := by
    rw [h₃]; exact (RegMoves.refl _ m₂.wf).setReg (off := Reg.roiRuleData3) _ (by simp)
  have hall : RegMoves [Reg.roiRuleData0, Reg.roiRuleData1, Reg.roiRuleData2, Reg.roiRuleData3] s s₃ :=
    ((m₀.mono (by simp)).trans (m₁.mono (by simp))).trans ((m₂.mono (by simp)).trans (m₃.mono (by simp)))
  refine completes_of_next hexec ⟨?_, by rw [h₃, h₂, h₁, h₀]; exact only_iff.2 (by simp), hall.only⟩
  have r₀ : s₃.reg Reg.roiRuleData0 = BitVec.ofNat 32 (bits r 0 32) := by
    rw [m₃.only _ (by decide), m₂.only _ (by decide), m₁.only _ (by decide), h₀, reg_setReg hs.regs]
  have r₁ : s₃.reg Reg.roiRuleData1 = BitVec.ofNat 32 (bits r 32 32) := by
    rw [m₃.only _ (by decide), m₂.only _ (by decide), h₁, reg_setReg m₀.wf]
  have r₂ : s₃.reg Reg.roiRuleData2 = BitVec.ofNat 32 (bits r 64 32) := by
    rw [m₃.only _ (by decide), h₂, reg_setReg m₁.wf]
  have r₃ : s₃.reg Reg.roiRuleData3 = BitVec.ofNat 32 (bits r 96 32) := by
    rw [h₃, reg_setReg m₂.wf]
  rw [State.ruleData, r₀, r₁, r₂, r₃, ← hr]
  exact ruleWords_join r

theorem completes_swapApply (hswap : s.roi.swap = true) :
    Completes .swapApply s (fun t =>
      t.roi.active = s.roi.inactive ∧ t.roi.inactive = s.roi.active ∧ t.roi.swap = false ∧ Only [.roi] s t) := by
  have hexec : exec .swapApply s = .next { s with roi := { s.roi with swap := false, active1 := !s.roi.active1 } } :=
    congrArg Host.Outcome.next (if_pos hswap)
  refine completes_of_next hexec ⟨?_, ?_, rfl, only_iff.2 (by simp)⟩ <;>
    simp only [RoiState.active, RoiState.inactive] <;> cases s.roi.active1 <;> rfl

end Rules

/-! ### Profiles and boxes (R120, R121, R123, R124) -/

theorem foldl_emitProfile (l : List ProfilePoint) (s : State) :
    (l.foldl (fun s p => s.emit (.profile p)) s).out = s.out ++ l.map Out.profile ∧
      Only [.out] s (l.foldl (fun s p => s.emit (.profile p)) s) := by
  induction l generalizing s with
  | nil => exact ⟨(List.append_nil _).symm, (Moves.refl [.out] s).only⟩
  | cons p l ih =>
    obtain ⟨hout, honly⟩ := ih (s.emit (.profile p))
    refine ⟨?_, Only.trans (only_iff.2 (by simp)) honly⟩
    rw [List.foldl_cons, hout]
    simp [State.emit]

theorem completes_profileExtract {p : BitVec 2} {w : Fin 8} {id : Word} {pb : Pos} {f : Frame} {s : State} (hs : Canon s)
    (hf : s.storedFrame p.toNat = some f) (hen : s.flag Reg.roiCtl 0 = true) (hprof : s.flag Reg.roiProfCfg (16 + p.toNat) = true) :
    Completes (.profileExtract p w id pb) s (fun t =>
      t.out = s.out ++ (profilePoints s f w.val id pb).1.map Out.profile ∧
      (t.reg Reg.roiMultipeak).toNat =
        min (2 ^ 32 - 1) ((s.reg Reg.roiMultipeak).toNat + (profilePoints s f w.val id pb).2) ∧
      Only [.regs, .out] s t ∧ RegsOnly [Reg.roiMultipeak] s t) := by
  obtain ⟨u, hu⟩ : ∃ u, u = s.bumpSat Reg.roiMultipeak 32 (profilePoints s f w.val id pb).2 := ⟨_, rfl⟩
  have hexec : exec (.profileExtract p w id pb) s =
      .next ((profilePoints s f w.val id pb).1.foldl (fun s p => s.emit (.profile p)) u) := by
    refine congrArg Host.Outcome.next ?_
    rw [profileExtract, hf]
    dsimp only
    rw [hen, hprof, hu]
    rfl
  obtain ⟨hout, honly⟩ := foldl_emitProfile (profilePoints s f w.val id pb).1 u
  have hregs := (honly.2 .regs (by decide)).1
  have hsu : Only [.regs] s u := by rw [hu]; exact only_iff.2 (by simp)
  have hmoves : RegMoves [Reg.roiMultipeak] s u := by
    rw [hu]
    exact RegMoves.bumpSat (RegMoves.refl _ hs.regs) _ _ (by simp)
  refine completes_of_next hexec ⟨by rw [hout, hsu.2 .out (by decide)], ?_, (hsu.mono (by simp)).trans (honly.mono (by simp)),
    fun off hoff => ?_⟩
  · rw [reg_eq_of_regs_eq hregs, hu, toNat_reg_bumpSat hs.regs]
  · rw [reg_eq_of_regs_eq hregs, hmoves.only off hoff]

theorem completes_profileFuse {x : ProfilePoint} {q : Parcel} {s : State} (hparcels : s.roi.parcels = [q]) (hid : x.parcel = q.id)
    (hface : x.face = 1) (hwin : inWindow s.margin q x.x2 = true) :
    Completes (.profileFuse [x]) s (fun t =>
      t.roi = { s.roi with parcels :=
        [{ q with left := addFace (fun a b => decide (b < a)) (x.x2 / 8) x.y q.left }] } ∧ Only [.roi] s t) := by
  have hsame : x.x2 + 2 * posDiff q.barrierPos q.barrierPos = x.x2 := by simp [posDiff]
  have hexec : exec (.profileFuse [x]) s = .next (mapParcels (fun t => t.id == q.id) (fuseInto x x.x2) s) := by
    refine congrArg Host.Outcome.next ?_
    have hparcel : s.parcel x.parcel = some q := by rw [State.parcel, hparcels]; simp [hid]
    rw [List.foldl_cons, List.foldl_nil, fusePoint, hparcel]
    dsimp only
    rw [hparcels, List.find?_cons_of_pos (by rw [hsame]; exact hwin)]
    dsimp only
    rw [hsame]
  refine completes_of_next hexec ⟨?_, only_iff.2 (by simp [mapParcels])⟩
  rw [mapParcels, hparcels]
  simp only [List.map_cons, List.map_nil, beq_self_eq_true, if_true, fuseInto, hface]
  rfl

theorem completes_boxFit {q : Parcel} {s : State} (hparcels : s.roi.parcels = [q]) (hopen : q.committed = false) :
    Completes (.boxFit q.id) s (fun t =>
      t.roi = { s.roi with parcels := [{ q with dims := boxOf q s.nowNs }] } ∧ Only [.roi] s t) := by
  refine completes_of_next (t := mapParcels (fun p => p.id == q.id && !p.committed) (fun p => { p with dims := boxOf p s.nowNs }) s)
    rfl ⟨?_, only_iff.2 (by simp [mapParcels])⟩
  rw [mapParcels, hparcels]
  simp only [List.map_cons, List.map_nil, beq_self_eq_true, hopen, Bool.not_false, Bool.and_self, if_true]

/-! ### The diagnostic and the closed write path (R127, R129) -/

theorem exec_diagCapture {p : BitVec 2} {s : State} (hs : Served s) (hlife : s.lifecycle = 1)
    (hfuse : s.flag Reg.fuseLifecycle 9 = true) (hidle : s.roi.diag = none) :
    exec (.diagCapture p) s = .next { s with roi := { s.roi with diag := some p, diagSeq := none, diagUsed := true } } := by
  refine congrArg Host.Outcome.next ((gateWrite_of_served hs _ _).trans ?_)
  rw [diagCapture, hlife, hfuse, hidle]
  rfl

theorem completes_diagWrite {f : Frame} {a : Nat} {s : State} (hanchor : s.anchor = true) (hbme : s.host.bme = true)
    (hseq : s.roi.diagSeq = some f.exp.seq) (hstored : s.storedSeq f.exp.seq.toNat = some f)
    (hbase : s.frameBase f = some a) (hclean : s.poisoned a f.size = false) :
    Completes .diagWrite s (fun t =>
      t.roi = { s.roi with diag := none, diagSeq := none } ∧
      t.out = s.out ++ [.hostWrite (BitVec.ofNat 64 (s.pair Reg.roiDiagBufLo Reg.roiDiagBufHi)) (s.rdMem a f.size)] ∧
      Only [.out, .roi] s t) := by
  obtain ⟨u, hu⟩ : ∃ u : State, u = { s with roi := { s.roi with diag := none, diagSeq := none } } := ⟨_, rfl⟩
  have honly : Only [.roi] s u := by rw [hu]; exact only_iff.2 (by simp)
  have hexec : exec .diagWrite s = .next (u.emit (.hostWrite (BitVec.ofNat 64 (s.pair Reg.roiDiagBufLo Reg.roiDiagBufHi))
      (s.rdMem a f.size))) := by
    refine congrArg Host.Outcome.next ?_
    have hframe : s.roi.diagSeq.bind (fun q => s.storedSeq q.toNat) = some f := by rw [hseq]; exact hstored
    have hclean' : u.poisoned a f.size = false := by rw [hu]; exact hclean
    have hpair : u.pair Reg.roiDiagBufLo Reg.roiDiagBufHi = s.pair Reg.roiDiagBufLo Reg.roiDiagBufHi := by rw [hu]; rfl
    have hread : u.rdMem a f.size = s.rdMem a f.size := by rw [hu]; rfl
    rw [diagWrite, hframe]
    dsimp only
    rw [hbase]
    dsimp only
    rw [diagFrame]
    dsimp only
    rw [← hu, hclean', if_neg Bool.false_ne_true, hpair, hread,
      hostPut_anchor (by rw [State.anchor, honly.2 .power (by decide)]; exact hanchor) (by rw [honly.2 .host (by decide)]; exact hbme)]
  refine completes_of_next hexec ⟨by rw [hu]; rfl, ?_, (honly.mono (by simp)).trans (only_iff.2 (by simp))⟩
  show u.out ++ _ = _
  rw [honly.2 .out (by decide)]

theorem completes_coreHostWrite {c : Option (Fin 16)} {a : BitVec 48} {s : State} (hs : Canon s) (ha : 0x800000000000 ≤ a.toNat) :
    Completes (.coreHostWrite c a) s (fun t =>
      t.out = s.out ++ [.issuerCode eEgressPath] ∧ Latched eEgressPath Reg.roiErr s t ∧
      Only [.regs, .out] s t ∧ RegsOnly [Reg.roiErr] s t) := by
  have hexec : exec (.coreHostWrite c a) s = .next ((refuse eEgressPath s).emit (.issuerCode eEgressPath)) :=
    congrArg Host.Outcome.next (if_pos ha)
  obtain ⟨hlatched, honly, hregs⟩ : Refused eEgressPath Reg.roiErr s (refuse eEgressPath s) :=
    refused_refuse hs (by decide) (by decide) (fun h => absurd h (by decide))
  generalize refuse eEgressPath s = u at hexec hlatched honly hregs
  refine completes_of_next hexec ⟨?_, hlatched.congr rfl rfl rfl, (honly.mono (by simp)).trans (only_iff.2 (by simp)), hregs⟩
  show u.out ++ _ = _
  rw [honly.2 .out (by decide)]

/-- Settles O20: regions, crops, rules, profiles, boxes and the closed write path are one lemma each. -/
theorem regionCommandsComplete : Obligations.RegionCommandsComplete := by
  unfold Obligations.RegionCommandsComplete
  refine ⟨?_, ?_, ?_, ?_, ?_, ?_, ?_, ?_, ?_, ?_, ?_, ?_, ?_, ?_, ?_, ?_⟩
  · exact fun es s hs hen hlen hall => completes_regionList hs hen hlen hall
  · exact fun e s hs hen hbad => completes_regionList_bad hs hen hbad
  · exact fun g m rest o id s hs hmatched hparcel hfree => completes_cropCut hs hmatched hparcel hfree
  · exact fun g m rest o id s hs hmatched hparcel hfull => completes_cropCut_full hs hmatched hparcel hfull
  · exact fun k c s hs hc hopen => completes_cropDone hs hc hopen
  · exact fun k c fate n s hs hc hdone hwhen hpast => completes_cropHoldExpiry hs hc hdone hwhen hpast
  · exact fun s hs hidle hfield hbank => exec_ruleWrite hs hidle hfield hbank
  · exact fun s hs hidle => exec_ruleSwap hs hidle
  · exact fun s hs hserved => completes_ruleRead hs hserved
  · exact fun s hswap => completes_swapApply hswap
  · exact fun p w id pb f s hs hf hen hprof => completes_profileExtract hs hf hen hprof
  · exact fun x q s hparcels hid hface hwin => completes_profileFuse hparcels hid hface hwin
  · exact fun q s hparcels hopen => completes_boxFit hparcels hopen
  · exact fun p s hs hlife hfuse hidle => exec_diagCapture hs hlife hfuse hidle
  · exact fun p f a s hanchor hbme _ hseq hstored hbase hclean => completes_diagWrite hanchor hbme hseq hstored hbase hclean
  · exact fun c a s hs ha => completes_coreHostWrite hs ha

end Sys2Proof.Machine
end

section
/-!
PROOFS. Weigh.lean: the weigh front end (R131, R133, R135, R137 to R141, R144, R145).
-/

namespace Sys2Proof.Machine

/-! ### Converters -/

section Conv

variable (s : State) (c : Bool) (x : Conv)

@[simp] theorem conv_setConv : (s.setConv c x).wfe.conv c = x := by cases c <;> rfl

@[simp] theorem conv_setConv_other : (s.setConv c x).wfe.conv (!c) = s.wfe.conv (!c) := by cases c <;> rfl

@[simp] theorem slice_setConv (d : Bool) : (s.setConv c x).wfe.slice d = s.wfe.slice d := by cases c <;> rfl

@[simp] theorem wq_setConv : (s.setConv c x).wfe.wq = s.wfe.wq := by cases c <;> rfl

@[simp] theorem setConv_regs : (s.setConv c x).regs = s.regs := rfl

theorem setConv_frame : Only [.wfe] s (s.setConv c x) := (State_setConv_only s c x (.refl [.wfe] s) (by simp)).only

end Conv

/-! ### Enable and reference (R131, R135) -/

theorem completes_wfeEnable {val : Word} {s : State} (hs : Canon s) (hserved : Served s) (hoff : s.flag Reg.wfeCtl 0 = false)
    (hon : val.getLsbD 0 = true) (hverdict : wfeCtlVerdict s (val &&& 0x1F) = 0) :
    Completes (.wfeEnable val 0xF) s (fun t =>
      t.reg Reg.wfeCtl = val &&& 0x1F ∧ (t.wfe.sliceA, t.wfe.sliceB, t.wfe.sliceE) = (0, 1, 2) ∧
      t.wfe.settled = false ∧ t.wfe.settledAt = s.time.pcyc ∧ t.wfe.calBusy = true ∧ t.wfe.rotCnt = 0 ∧
      Only [.regs, .wfe] s t ∧ RegsOnly [Reg.wfeCtl] s t) := by
  have hbit : (val &&& 0x1F).getLsbD 0 = true := by
    rw [BitVec.getLsbD_and, hon]
    rfl
  have hold : (s.reg Reg.wfeCtl).getLsbD 0 = false := hoff
  obtain ⟨u, hu⟩ : ∃ u, u = s.setReg Reg.wfeCtl (val &&& 0x1F) := ⟨_, rfl⟩
  have hsettle : ∃ v, exec (.wfeEnable val 0xF) s = .next (wfeStart v) ∧ Moves [.wfe] u v := by
    obtain ⟨v, hv⟩ : ∃ v, v = (if bits (val &&& 0x1F) 1 3 ≠ bits (s.reg Reg.wfeCtl) 1 3 then setSettled false u else u) := ⟨_, rfl⟩
    obtain ⟨w, hw⟩ : ∃ w, w = (if (val &&& 0x1F).getLsbD 1 && !(s.reg Reg.wfeCtl).getLsbD 1 then
      v.setWfe { v.wfe with excOver := false } else v) := ⟨_, rfl⟩
    refine ⟨w, ?_, ?_⟩
    · refine congrArg Host.Outcome.next ((gateWrite_of_served hserved _ _).trans ?_)
      rw [wfeCtlWrite, mergeBytes_full]
      dsimp only
      rw [hverdict, if_neg (not_not.2 rfl), ← hu, ← hv, ← hw, hbit, hold]
      rfl
    · have huv : Moves [.wfe] u v := by
        rw [hv]
        split
        · exact setSettled_only _ _ (.refl ..) (by simp)
        · exact .refl ..
      rw [hw]
      split
      · exact State_setWfe_only _ _ huv (by simp)
      · exact huv
  obtain ⟨v, hexec, huv⟩ := hsettle
  have hstart := (wfeStart_only v (.refl [.wfe] v) (by simp)).only
  have hreg : (wfeStart v).regs = u.regs := (hstart.2 .regs (by decide)).1.trans (huv.only.2 .regs (by decide)).1
  have hsu : Only [.regs] s u := by rw [hu]; exact (State_setReg_only _ _ _ (.refl [.regs] s) (by simp)).only
  have htime : v.time = s.time := (huv.only.2 .time (by decide)).trans (hsu.2 .time (by decide))
  have hmoves : RegMoves [Reg.wfeCtl] s u := by
    rw [hu]
    exact (RegMoves.refl _ hs.regs).setReg (off := Reg.wfeCtl) _ (by simp)
  refine completes_of_next hexec ⟨?_, rfl, rfl, congrArg (fun x : TimeState => x.pcyc) htime, rfl, rfl,
    (hsu.mono (by simp)).trans ((huv.only.mono (by simp)).trans (hstart.mono (by simp))), (hmoves.congr hreg).only⟩
  rw [reg_eq_of_regs_eq hreg, hu, reg_setReg hs.regs]

theorem exec_refSettledTimer {sense : Option Nat} {s : State} (hon : s.wfeOn = true) (hsettled : s.wfe.settled = false)
    (hpast : s.wfe.settledAt + s.settleP ≤ s.time.pcyc)
    (hsense : s.fld Reg.wfeCtl 2 2 = 2 → ∃ n, sense = some n ∧ s.settleP ≤ n) :
    exec (.refSettledTimer sense) s = .next { s with wfe := { s.wfe with settled := true, settledAt := s.time.pcyc } } := by
  refine congrArg Host.Outcome.next (if_pos ?_)
  rw [hon, hsettled, decide_eq_true hpast]
  by_cases hratio : s.fld Reg.wfeCtl 2 2 = 2
  · obtain ⟨n, rfl, hn⟩ := hsense hratio
    simp [hn]
  · simp [hratio]

theorem completes_excTrip {s : State} (hs : Canon s) (hanchor : s.anchor = true) (hon : s.fieldOn = true)
    (hexc : s.flag Reg.wfeCtl 1 = true) :
    Completes .excTrip s (fun t =>
      t.flag Reg.wfeCtl 1 = false ∧
      t.wfe = { s.wfe with settled := false, settledAt := s.time.pcyc, excOver := true } ∧
      Posted eWfeExc Reg.wfeErr s t ∧ Only [.regs, .out, .host, .wfe] s t) := by
  obtain ⟨u, hu⟩ : ∃ u : State, u = { s.setFlag Reg.wfeCtl 1 false with
    wfe := { s.wfe with settled := false, settledAt := s.time.pcyc, excOver := true } } := ⟨_, rfl⟩
  have hexec : exec .excTrip s = .next (postEvent eWfeExc 0 u) := by
    refine congrArg Host.Outcome.next ?_
    rw [excTrip, hon, hexc, hu]
    rfl
  have hsu : Moves [.regs, .wfe] s u := by
    rw [hu]
    exact Moves.updWfe (State_setFlag_only _ _ _ _ (.refl [.regs, .wfe] s) (by simp)) (by simp)
  have hset : RegMoves [Reg.wfeCtl] s u := by
    rw [hu]
    exact ((RegMoves.refl _ hs.regs).setFlag (off := Reg.wfeCtl) 1 false (by simp)).congr rfl
  have hposted : Posted eWfeExc Reg.wfeErr u (postEvent eWfeExc 0 u) :=
    posted_postEvent (hsu.canon hs) (by rw [State.anchor, hsu.only.2 .power (by decide)]; exact hanchor) (by decide) (by decide)
      (by decide) 0
  have hframe := postEvent_only eWfeExc 0 u (.refl [.regs, .out, .host] u) (by simp)
  have hkeep : RegMoves [Reg.wfeErr, Reg.hostEvtLost] u (postEvent eWfeExc 0 u) :=
    RegMoves.postEvent (RegMoves.refl _ hset.wf) _ _ (by decide) (by decide)
  refine completes_of_next hexec ⟨?_, (hframe.only.2 .wfe (by decide)).trans (by rw [hu]),
    hposted.congr (hset.only _ (by decide)) (by rw [hu]; rfl) (by rw [hu]; rfl),
    (hsu.only.mono (by simp)).trans (hframe.only.mono (by simp))⟩
  rw [State.flag, hkeep.only _ (by decide), hu]
  exact flag_setFlag hs.regs _ _ false (by decide)

/-! ### Starts and stops (R139, R141) -/

section Starts

variable {s : State}

/-- A start event of an idle converter is taken. -/
theorem startConv_idle {c beat : Bool} {cmp : Option (Fin 2)} (hon : s.wfeOn = true) (hpll : s.pllsRun = true)
    (hidle : (s.wfe.conv c).inRun = false) : startConv c beat cmp s = s.setConv c { s.wfe.conv c with
      startAt := some (s.time.pcyc + 32), startNs := BitVec.ofNat 64 s.nowNs, startPos := s.field.pos, cmp := cmp,
      intruded := false } := by
  rw [startConv, hon, hpll, hidle]
  rfl

theorem softStart_eq {c : Bool} (hon : s.wfeOn = true) (hpll : s.pllsRun = true) (hsrc : s.seqFld c 5 3 = 0)
    (hidle : (s.wfe.conv c).inRun = false) : softStart c s = s.setConv c { s.wfe.conv c with
      startAt := some (s.time.pcyc + 32), startNs := BitVec.ofNat 64 s.nowNs, startPos := s.field.pos, cmp := none,
      intruded := false } := by
  rw [softStart, if_pos hsrc, startConv_idle hon hpll hidle]

theorem exec_startA (hs : Served s) (hon : s.wfeOn = true) (hpll : s.pllsRun = true) (hsrc : s.seqFld false 5 3 = 0)
    (hidle : s.wfe.a.inRun = false) :
    exec .startA s = .next (s.setConv false { s.wfe.a with
      startAt := some (s.time.pcyc + 32), startNs := BitVec.ofNat 64 s.nowNs, startPos := s.field.pos,
      cmp := none, intruded := false }) :=
  congrArg Host.Outcome.next ((gateWrite_of_served hs _ _).trans (softStart_eq hon hpll hsrc hidle))

theorem exec_startB (hs : Served s) (hon : s.wfeOn = true) (hpll : s.pllsRun = true) (hsrc : s.seqFld true 5 3 = 0)
    (hidle : s.wfe.b.inRun = false) :
    exec .startB s = .next (s.setConv true { s.wfe.b with
      startAt := some (s.time.pcyc + 32), startNs := BitVec.ofNat 64 s.nowNs, startPos := s.field.pos,
      cmp := none, intruded := false }) :=
  congrArg Host.Outcome.next ((gateWrite_of_served hs _ _).trans (softStart_eq hon hpll hsrc hidle))

theorem exec_stopA (hs : Served s) : exec .stopA s = .next (s.setConv false { s.wfe.a with stopping := s.wfe.a.inRun }) :=
  congrArg Host.Outcome.next (gateWrite_of_served hs _ _)

theorem exec_stopB (hs : Served s) : exec .stopB s = .next (s.setConv true { s.wfe.b with stopping := s.wfe.b.inRun }) :=
  congrArg Host.Outcome.next (gateWrite_of_served hs _ _)

end Starts

/-! ### Rotation and calibration (R144, R145) -/

theorem exec_rotationDue {s : State} (hon : s.wfeOn = true) (hnow : s.nowNs % 2000000000 < 3) (hrot : s.flag Reg.wfeCtl 4 = true)
    (hgood : s.wfe.calFail.getLsbD s.wfe.sliceE.val = false) :
    exec .rotationDue s = .next { s with wfe := { s.wfe with rotWait := true } } := by
  refine congrArg Host.Outcome.next ((if_pos hnow).trans ?_)
  rw [rotationDue, hon, hgood, hrot]
  rfl

theorem completes_rotationHandover {n : Nat} {s : State} (hready : s.wfe.elfReady = some n) (hparked : n + 80000 ≤ s.time.pcyc)
    (hon : s.wfeOn = true) (hrot : s.flag Reg.wfeCtl 4 = true) (hwait : s.wfe.rotWait = true)
    (hidle : (s.wfe.conv s.wfe.nextConv).inRun = false) :
    Completes .rotationHandover s (fun t =>
      t.wfe.slice s.wfe.nextConv = s.wfe.sliceE ∧ t.wfe.sliceE = s.wfe.slice s.wfe.nextConv ∧
      t.wfe.slice (!s.wfe.nextConv) = s.wfe.slice (!s.wfe.nextConv) ∧ t.wfe.rotCnt = s.wfe.rotCnt + 1 ∧
      t.wfe.rotWait = false ∧ t.wfe.calBusy = true ∧ t.wfe.calAt = s.time.pcyc ∧ Only [.wfe] s t) := by
  obtain ⟨w, hw⟩ : ∃ w : WfeState, w = (if s.wfe.nextConv then { s.wfe with sliceB := s.wfe.sliceE, sliceE := s.wfe.sliceB }
    else { s.wfe with sliceA := s.wfe.sliceE, sliceE := s.wfe.sliceA }) := ⟨_, rfl⟩
  have hexec : exec .rotationHandover s =
      .next (beginCal (s.setWfe { w with rotWait := false, rotCnt := s.wfe.rotCnt + 1 })) := by
    refine congrArg Host.Outcome.next ?_
    have hopen : (!s.wfeOn || !s.flag Reg.wfeCtl 4 || !s.wfe.rotWait || (s.wfe.conv s.wfe.nextConv).inRun
        || decide (s.time.pcyc < n + 80000)) = false := by
      rw [hon, hrot, hwait, hidle, decide_eq_false (Nat.not_lt.2 hparked)]
      rfl
    unfold rotationHandover
    dsimp only
    split
    next h => rw [hready] at h; cases h
    next m h =>
      rw [hready] at h
      cases h
      rw [hopen, if_neg Bool.false_ne_true, hw]
  refine completes_of_next hexec ⟨?_, ?_, ?_, rfl, rfl, rfl, rfl, only_iff.2 (by simp [beginCal, State.setWfe])⟩
  all_goals
    rw [hw]
    cases s.wfe.nextConv <;> rfl

theorem completes_calibrationDone {short ref : Integration} {p : Int × Int} {s : State} (hs : Canon s) (hon : s.wfeOn = true)
    (hbusy : s.wfe.calBusy = true) (hpast : s.wfe.calAt + 2 * (s.mainsP + 80000) ≤ s.time.pcyc) (hgains : s.calGains = [0])
    (hcoef : coefficients (s.calRaw short) (s.calRaw ref) = some p) :
    Completes (.calibrationDone [(0, short, ref)]) s (fun t =>
      t.reg (Reg.wfeSGOfs (8 * s.wfe.sliceE.val)) = BitVec.ofInt 32 p.1 ∧
      t.reg (Reg.wfeSGGc (8 * s.wfe.sliceE.val)) = BitVec.ofInt 32 p.2 ∧
      t.wfe.calBusy = false ∧ t.wfe.elfReady = some s.time.pcyc ∧ t.wfe.calFail.getLsbD s.wfe.sliceE.val = false ∧
      Only [.regs, .wfe] s t ∧
      RegsOnly [Reg.wfeSGOfs (8 * s.wfe.sliceE.val), Reg.wfeSGGc (8 * s.wfe.sliceE.val)] s t) := by
  have he := s.wfe.sliceE.isLt
  generalize hslice : s.wfe.sliceE.val = e at *
  obtain ⟨u, hu⟩ : ∃ u, u = s.setReg (Reg.wfeSGOfs (8 * e)) (BitVec.ofInt 32 p.1) := ⟨_, rfl⟩
  obtain ⟨v, hv⟩ : ∃ v, v = u.setReg (Reg.wfeSGGc (8 * e)) (BitVec.ofInt 32 p.2) := ⟨_, rfl⟩
  obtain ⟨w, hw⟩ : ∃ w : WfeState, w = { s.wfe with
      calBusy := false, calFail := s.wfe.calFail &&& ~~~(BitVec.ofNat 3 (2 ^ e)),
      calNs := smSet none s.wfe.calNs e (some s.nowNs), elfReady := some s.time.pcyc } := ⟨_, rfl⟩
  obtain ⟨t, ht⟩ : ∃ t : State, t = { v with wfe := w } := ⟨_, rfl⟩
  have hexec : exec (.calibrationDone [(0, short, ref)]) s = .next t := by
    refine congrArg Host.Outcome.next ?_
    have hopen : (!s.wfeOn || !s.wfe.calBusy || decide (s.time.pcyc < s.wfe.calAt + 1 * 2 * (s.mainsP + 80000))
        || !(([0] : List Nat).all (fun g => ([(0, short, ref)] : List (Fin 8 × Integration × Integration)).any (fun r => r.1.val == g)))) = false := by
      rw [hon, hbusy, decide_eq_false (by omega)]
      rfl
    have hlist : (([(0, short, ref)] : List (Fin 8 × Integration × Integration)).filter (fun r => ([0] : List Nat).contains r.1.val)).map
        (fun r => (r.1.val, coefficients (s.calRaw r.2.1) (s.calRaw r.2.2))) = [(0, some p)] := by
      rw [← hcoef]
      rfl
    unfold calibrationDone
    rw [hgains]
    dsimp only
    rw [List.length_singleton, hopen, if_neg Bool.false_ne_true, hlist, hslice, ht, hw, hv, hu]
    rfl
  have hne : Reg.wfeSGOfs (8 * e) ≠ Reg.wfeSGGc (8 * e) := by simp only [Reg.wfeSGOfs, Reg.wfeSGGc]; omega
  have hsu : RegMoves [Reg.wfeSGOfs (8 * e)] s u := by
    rw [hu]; exact (RegMoves.refl _ hs.regs).setReg (off := Reg.wfeSGOfs (8 * e)) _ (by simp)
  have huv : RegMoves [Reg.wfeSGGc (8 * e)] u v := by
    rw [hv]; exact (RegMoves.refl _ hsu.wf).setReg (off := Reg.wfeSGGc (8 * e)) _ (by simp)
  have hregs : t.regs = v.regs := by rw [ht]
  refine completes_of_next hexec ⟨?_, ?_, by rw [ht, hw], by rw [ht, hw], ?_, by rw [ht, hv, hu]; exact only_iff.2 (by simp),
    (((hsu.mono (by simp)).trans (huv.mono (by simp))).congr hregs).only⟩
  · rw [reg_eq_of_regs_eq hregs, huv.only _ (by simpa using hne), hu, reg_setReg hs.regs]
  · rw [reg_eq_of_regs_eq hregs, hv, reg_setReg hsu.wf]
  · rw [ht, hw]
    show (s.wfe.calFail &&& ~~~(BitVec.ofNat 3 (2 ^ e))).getLsbD e = false
    rw [BitVec.getLsbD_and, BitVec.getLsbD_not, BitVec.getLsbD_ofNat, Nat.testBit_two_pow_self]
    simp [he]

/-! ### Comparators (R140) -/

section Comparator

variable {s : State}

/-- A sample of a new level begins its run. -/
theorem sampleCmp_new {k uv : Nat} (hout : s.cmpLevelAt k uv ≠ s.wfe.cmpOut.getLsbD k)
    (hlevel : s.cmpLevelAt k uv ≠ s.wfe.cmpLevel.getLsbD k) :
    sampleCmp k uv s = { s with wfe := { s.wfe with
      cmpOut := putBits s.wfe.cmpOut k 1 (s.cmpLevelAt k uv).toNat,
      cmpRuns := smSet none s.wfe.cmpRuns k (some (s.time.pcyc, s.nowFp)) } } := by
  have h1 : (s.wfe.cmpOut.getLsbD k == s.cmpLevelAt k uv) = false := beq_eq_false_iff_ne.2 (Ne.symm hout)
  have h2 : (s.wfe.cmpLevel.getLsbD k == s.cmpLevelAt k uv) = false := beq_eq_false_iff_ne.2 (Ne.symm hlevel)
  unfold sampleCmp
  dsimp only
  rw [h1, h2]
  rfl

theorem exec_comparatorChange_new {k : Fin 2} {uv : Nat} (hon : s.wfeOn = true)
    (hout : s.cmpLevelAt k.val uv ≠ s.wfe.cmpOut.getLsbD k.val) (hlevel : s.cmpLevelAt k.val uv ≠ s.wfe.cmpLevel.getLsbD k.val)
    (hfilter : 0 < s.cmpFilterP k.val) :
    exec (.comparatorChange k uv) s = .next (let w := s.wfe
      { s with wfe := { w with cmpOut := putBits w.cmpOut k.val 1 (s.cmpLevelAt k.val uv).toNat,
                               cmpRuns := smSet none w.cmpRuns k.val (some (s.time.pcyc, s.nowFp)) } }) := by
  refine congrArg Host.Outcome.next ?_
  have hsoon : ¬s.time.pcyc + s.cmpFilterP k.val ≤ s.time.pcyc := by omega
  rw [comparatorChange, hon]
  dsimp only
  rw [if_neg (by simp), sampleCmp_new hout hlevel]
  dsimp only
  rw [smGet_smSet_value (by simp)]
  exact if_neg hsoon

/-- The five registers of comparator `k`'s last change. -/
def cmpRegs (k : Nat) : List Nat :=
  [Reg.wfeCmpEvt k, Reg.wfeCmpTimeLo k, Reg.wfeCmpTimeHi k, Reg.wfeCmpPosLo k, Reg.wfeCmpPosHi k]

/-- The registers of a comparator's last change, which rose if `r`, `t` ns after the start, at position `pos`. -/
def latchChange (k : Nat) (r : Bool) (t : Nat) (pos : Pos) (s : State) : State :=
  let s := s.hwSet (Reg.wfeCmpEvt k) (fun w => putBits w 0 2 (1 + 2 * r.toNat))
  let s := (s.setReg (Reg.wfeCmpTimeLo k) ((BitVec.ofNat 64 t).setWidth 32)).setReg (Reg.wfeCmpTimeHi k) (BitVec.ofNat 32 (t / 2 ^ 32))
  (s.setReg (Reg.wfeCmpPosLo k) (pos.setWidth 32)).setReg (Reg.wfeCmpPosHi k) (BitVec.ofNat 32 (pos.toNat / 2 ^ 32))

theorem latchChange_reads (hwf : smWf resetVal s.regs = true) (k : Nat) (r : Bool) (t : Nat) (pos : Pos) :
    (latchChange k r t pos s).fld (Reg.wfeCmpEvt k) 0 2 = 1 + 2 * r.toNat ∧
    (latchChange k r t pos s).pair (Reg.wfeCmpTimeLo k) (Reg.wfeCmpTimeHi k) = t % 2 ^ 64 ∧
    (latchChange k r t pos s).pair (Reg.wfeCmpPosLo k) (Reg.wfeCmpPosHi k) = pos.toNat ∧
    RegMoves (cmpRegs k) s (latchChange k r t pos s) ∧ Moves [.regs] s (latchChange k r t pos s) := by
  obtain ⟨a, ha⟩ : ∃ u, u = s.hwSet (Reg.wfeCmpEvt k) (fun w => putBits w 0 2 (1 + 2 * r.toNat)) := ⟨_, rfl⟩
  obtain ⟨b, hb⟩ : ∃ u, u = a.setReg (Reg.wfeCmpTimeLo k) ((BitVec.ofNat 64 t).setWidth 32) := ⟨_, rfl⟩
  obtain ⟨c, hc⟩ : ∃ u, u = b.setReg (Reg.wfeCmpTimeHi k) (BitVec.ofNat 32 (t / 2 ^ 32)) := ⟨_, rfl⟩
  obtain ⟨d, hd⟩ : ∃ u, u = c.setReg (Reg.wfeCmpPosLo k) (pos.setWidth 32) := ⟨_, rfl⟩
  obtain ⟨e, he⟩ : ∃ u, u = d.setReg (Reg.wfeCmpPosHi k) (BitVec.ofNat 32 (pos.toNat / 2 ^ 32)) := ⟨_, rfl⟩
  have heq : latchChange k r t pos s = e := by rw [he, hd, hc, hb, ha]; rfl
  have ma : RegMoves [Reg.wfeCmpEvt k] s a := by
    rw [ha]; exact (RegMoves.refl _ hwf).hwSet (off := Reg.wfeCmpEvt k) _ (by simp)
  have mb : RegMoves [Reg.wfeCmpTimeLo k] a b := by
    rw [hb]; exact (RegMoves.refl _ ma.wf).setReg (off := Reg.wfeCmpTimeLo k) _ (by simp)
  have mc : RegMoves [Reg.wfeCmpTimeHi k] b c := by
    rw [hc]; exact (RegMoves.refl _ mb.wf).setReg (off := Reg.wfeCmpTimeHi k) _ (by simp)
  have md : RegMoves [Reg.wfeCmpPosLo k] c d := by
    rw [hd]; exact (RegMoves.refl _ mc.wf).setReg (off := Reg.wfeCmpPosLo k) _ (by simp)
  have me : RegMoves [Reg.wfeCmpPosHi k] d e := by
    rw [he]; exact (RegMoves.refl _ md.wf).setReg (off := Reg.wfeCmpPosHi k) _ (by simp)
  have hall : RegMoves (cmpRegs k) s e :=
    (ma.mono (by simp [cmpRegs])).trans <| (mb.mono (by simp [cmpRegs])).trans <| (mc.mono (by simp [cmpRegs])).trans <|
      (md.mono (by simp [cmpRegs])).trans (me.mono (by simp [cmpRegs]))
  have hmoves : Moves [.regs] s e := by
    rw [he, hd, hc, hb, ha]
    refine State_setReg_only _ _ _ (State_setReg_only _ _ _ (State_setReg_only _ _ _ (State_setReg_only _ _ _ ?_ (by simp))
      (by simp)) (by simp)) (by simp)
    exact State_hwSet_only _ _ _ (.refl ..) (by simp)
  have evtReg : e.reg (Reg.wfeCmpEvt k) = a.reg (Reg.wfeCmpEvt k) := by
    rw [me.only _ (by simp [Reg.wfeCmpEvt, Reg.wfeCmpPosHi]), md.only _ (by simp [Reg.wfeCmpEvt, Reg.wfeCmpPosLo]),
      mc.only _ (by simp [Reg.wfeCmpEvt, Reg.wfeCmpTimeHi]), mb.only _ (by simp [Reg.wfeCmpEvt, Reg.wfeCmpTimeLo])]
  have timeLo : e.reg (Reg.wfeCmpTimeLo k) = (BitVec.ofNat 64 t).setWidth 32 := by
    rw [me.only _ (by simp [Reg.wfeCmpTimeLo, Reg.wfeCmpPosHi]), md.only _ (by simp [Reg.wfeCmpTimeLo, Reg.wfeCmpPosLo]),
      mc.only _ (by simp [Reg.wfeCmpTimeLo, Reg.wfeCmpTimeHi]), hb, reg_setReg ma.wf]
  have timeHi : e.reg (Reg.wfeCmpTimeHi k) = BitVec.ofNat 32 (t / 2 ^ 32) := by
    rw [me.only _ (by simp [Reg.wfeCmpTimeHi, Reg.wfeCmpPosHi]), md.only _ (by simp [Reg.wfeCmpTimeHi, Reg.wfeCmpPosLo]), hc,
      reg_setReg mb.wf]
  have posLo : e.reg (Reg.wfeCmpPosLo k) = pos.setWidth 32 := by
    rw [me.only _ (by simp [Reg.wfeCmpPosLo, Reg.wfeCmpPosHi]), hd, reg_setReg mc.wf]
  have posHi : e.reg (Reg.wfeCmpPosHi k) = BitVec.ofNat 32 (pos.toNat / 2 ^ 32) := by rw [he, reg_setReg md.wf]
  have hpos := pos.isLt
  rw [heq]
  refine ⟨?_, ?_, ?_, hall, hmoves⟩
  · rw [fld_eq_bits, evtReg, ha, reg_hwSet hwf, bits_putBits _ _ _ _ (by decide)]
    cases r <;> rfl
  · rw [State.pair, timeLo, timeHi]
    simp only [BitVec.toNat_setWidth, BitVec.toNat_ofNat]
    omega
  · rw [State.pair, posLo, posHi]
    simp only [BitVec.toNat_setWidth, BitVec.toNat_ofNat]
    omega

/-- A start event that the sequence of A selects, and that of B does not. -/
theorem startSource_a {src : Nat} {cmp : Option (Fin 2)} (ha : s.seqFld false 5 3 = src) (hb : s.seqFld true 5 3 ≠ src)
    (hon : s.wfeOn = true) (hpll : s.pllsRun = true) (hidle : s.wfe.a.inRun = false) :
    startSource src cmp s = s.setConv false { s.wfe.a with
      startAt := some (s.time.pcyc + 32), startNs := BitVec.ofNat 64 s.nowNs, startPos := s.field.pos, cmp := cmp,
      intruded := false } := by
  obtain ⟨x, hx⟩ : ∃ x : Conv, x = { s.wfe.a with
      startAt := some (s.time.pcyc + 32), startNs := BitVec.ofNat 64 s.nowNs, startPos := s.field.pos, cmp := cmp,
      intruded := false } := ⟨_, rfl⟩
  have hstart : startConv false (decide (src = 6)) cmp s = s.setConv false x := by
    rw [startConv_idle (c := false) hon hpll hidle, hx]
    rfl
  have hkeep : (s.setConv false x).seqFld true 5 3 = s.seqFld true 5 3 := rfl
  rw [← hx]
  simp only [startSource, ha, if_true, hstart, hkeep, hb, if_false]

/-- The level of comparator `k` after its change has passed. -/
theorem cmpLevel_passed (k : Fin 2) (w : BitVec 2) (r : Bool) : (putBits w k.val 1 r.toNat).getLsbD k.val = r := by
  rw [getLsbD_putBits _ _ _ _ _ k.isLt, if_pos (by omega), Nat.sub_self]
  cases r <;> rfl

/-- A filtered change without barriers: its registers, and a start of converter A. -/
theorem passCmp_starts {k : Fin 2} {fp : Nat} {r : Bool} (hs : Canon s) (hon : s.wfeOn = true) (hpll : s.pllsRun = true)
    (hnone : s.barriers = []) (hlevel : s.wfe.cmpLevel.getLsbD k.val ≠ r)
    (ha : s.seqFld false 5 3 = 1 + 2 * k.val + (if r then 0 else 1)) (hidle : s.wfe.a.inRun = false)
    (hb : s.seqFld true 5 3 ≠ 1 + 2 * k.val + (if r then 0 else 1)) :
    (passCmp k fp s).wfe.cmpLevel.getLsbD k.val = r ∧ (passCmp k fp s).fld (Reg.wfeCmpEvt k.val) 0 2 = 1 + 2 * r.toNat ∧
      (passCmp k fp s).pair (Reg.wfeCmpTimeLo k.val) (Reg.wfeCmpTimeHi k.val) = (fp - 100 * 65536) / 65536 % 2 ^ 64 ∧
      (passCmp k fp s).pair (Reg.wfeCmpPosLo k.val) (Reg.wfeCmpPosHi k.val) = s.field.pos.toNat ∧
      (passCmp k fp s).wfe.a.startAt = some (s.time.pcyc + 32) ∧ (passCmp k fp s).wfe.a.cmp = some k ∧
      (passCmp k fp s).wfe.a.startPos = s.field.pos ∧ (passCmp k fp s).wfe.b = s.wfe.b ∧
      Only [.regs, .wfe] s (passCmp k fp s) ∧ RegsOnly (cmpRegs k.val) s (passCmp k fp s) := by
  have hr : (!s.wfe.cmpLevel.getLsbD k.val) = r := by
    revert hlevel
    cases s.wfe.cmpLevel.getLsbD k.val <;> cases r <;> decide
  obtain ⟨ns, hns⟩ : ∃ n, n = (fp - 100 * 65536) / 65536 := ⟨_, rfl⟩
  obtain ⟨w, hw⟩ : ∃ w : WfeState, w = { s.wfe with
    cmpLevel := putBits s.wfe.cmpLevel k.val 1 r.toNat, cmpRuns := smSet none s.wfe.cmpRuns k.val none } := ⟨_, rfl⟩
  obtain ⟨u, hu⟩ : ∃ u, u = s.setWfe w := ⟨_, rfl⟩
  obtain ⟨v, hv⟩ : ∃ v, v = latchChange k.val r ns s.field.pos u := ⟨_, rfl⟩
  have hsu : Only [.wfe] s u := by rw [hu]; exact only_iff.2 (by simp [State.setWfe])
  have huregs : u.regs = s.regs := (hsu.2 .regs (by decide)).1
  have huwfe : u.wfe = w := by rw [hu]; rfl
  obtain ⟨hevt, htime, hpos, hregs, hmoves⟩ := latchChange_reads (s := u) (by rw [huregs]; exact hs.regs) k.val r ns s.field.pos
  rw [← hv] at hevt htime hpos hregs hmoves
  have hsv : Only [.regs, .wfe] s v := (hsu.mono (by simp)).trans (hmoves.only.mono (by simp))
  have hkeep (off : Nat) (hoff : off ∉ cmpRegs k.val) : v.reg off = s.reg off :=
    (hregs.only off hoff).trans (reg_eq_of_regs_eq huregs off)
  have hvwfe : v.wfe = w := (hmoves.only.2 .wfe (by decide)).trans huwfe
  have hk := k.isLt
  have hseq (c : Bool) : v.seqFld c 5 3 = s.seqFld c 5 3 := by
    rw [State.seqFld, State.fld, hkeep _ (by
      simp only [cmpRegs, Reg.wfeSeqCfg, Reg.wfeCmpEvt, Reg.wfeCmpTimeLo, Reg.wfeCmpTimeHi, Reg.wfeCmpPosLo, Reg.wfeCmpPosHi,
        List.mem_cons, List.not_mem_nil, or_false]
      omega), State.seqFld, State.fld]
  have hvon : v.wfeOn = true := by
    have hctl : v.flag Reg.wfeCtl 0 = s.flag Reg.wfeCtl 0 := by
      rw [State.flag, hkeep _ (by
        simp only [cmpRegs, Reg.wfeCtl, Reg.wfeCmpEvt, Reg.wfeCmpTimeLo, Reg.wfeCmpTimeHi, Reg.wfeCmpPosLo, Reg.wfeCmpPosHi,
          List.mem_cons, List.not_mem_nil, or_false]
        omega), State.flag]
    unfold State.wfeOn State.sensorsOn State.fieldOn
    rw [hctl, hsv.2 .power (by decide)]
    exact hon
  have hvpll : v.pllsRun = true := by
    rw [State.pllsRun, State.flag, hkeep _ (by
      simp only [cmpRegs, Reg.clkStatus, Reg.wfeCmpEvt, Reg.wfeCmpTimeLo, Reg.wfeCmpTimeHi, Reg.wfeCmpPosLo, Reg.wfeCmpPosHi,
        List.mem_cons, List.not_mem_nil, or_false]
      omega)]
    exact hpll
  have hvnone : v.barriers = [] := by
    rw [State.barriers, State.alternate, hsv.2 .weave (by decide), State.pkg, hsv.2 .power (by decide)]
    exact hnone
  have hva : v.wfe.a = s.wfe.a := by rw [hvwfe, hw]
  have hpass : passCmp k fp s = v.setConv false { v.wfe.a with
      startAt := some (v.time.pcyc + 32), startNs := BitVec.ofNat 64 v.nowNs, startPos := v.field.pos, cmp := some k,
      intruded := false } := by
    rw [← startSource_a (s := v) ((hseq false).trans ha) (by rw [hseq]; exact hb) hvon hvpll (by rw [hva]; exact hidle)]
    have hbarrier : barrierChange k r (BitVec.ofNat 64 ns) s.field.pos v = v := by
      rw [barrierChange, hvnone]
      rfl
    unfold passCmp
    dsimp only
    rw [hr, ← hns, ← hw, ← hu]
    show startSource _ _ (barrierChange k r (BitVec.ofNat 64 ns) s.field.pos (latchChange k.val r ns s.field.pos u)) = _
    rw [← hv, hbarrier]
  have hend := (setConv_frame v false { v.wfe.a with
      startAt := some (v.time.pcyc + 32), startNs := BitVec.ofNat 64 v.nowNs, startPos := v.field.pos, cmp := some k,
      intruded := false })
  rw [hpass]
  refine ⟨?_, hevt, htime.trans (by rw [hns]), hpos, ?_, rfl, ?_, ?_, hsv.trans (hend.mono (by simp)), fun off hoff => hkeep off hoff⟩
  · show v.wfe.cmpLevel.getLsbD k.val = r
    rw [hvwfe, hw]
    exact cmpLevel_passed k _ r
  · show some (v.time.pcyc + 32) = _
    rw [hsv.2 .time (by decide)]
  · show v.field.pos = _
    rw [hsv.2 .field (by decide)]
  · show v.wfe.b = _
    rw [hvwfe, hw]

theorem completes_comparatorChange {k : Fin 2} {uv n fp : Nat} {r : Bool} (hs : Canon s) (hon : s.wfeOn = true)
    (hpll : s.pllsRun = true) (hnone : s.barriers = []) (hnow : s.cmpLevelAt k.val uv = r)
    (hlevel : s.wfe.cmpLevel.getLsbD k.val ≠ r) (hdue : n + s.cmpFilterP k.val ≤ s.time.pcyc)
    (hrun : (s.wfe.cmpOut.getLsbD k.val = r ∧ smGet none s.wfe.cmpRuns k.val = some (n, fp)) ∨
      (s.wfe.cmpOut.getLsbD k.val ≠ r ∧ n = s.time.pcyc ∧ fp = s.nowFp))
    (ha : s.seqFld false 5 3 = 1 + 2 * k.val + (if r then 0 else 1)) (hidle : s.wfe.a.inRun = false)
    (hb : s.seqFld true 5 3 ≠ 1 + 2 * k.val + (if r then 0 else 1)) :
    Completes (.comparatorChange k uv) s (fun t =>
      t.wfe.cmpLevel.getLsbD k.val = r ∧ t.fld (Reg.wfeCmpEvt k.val) 0 2 = 1 + 2 * r.toNat ∧
      t.pair (Reg.wfeCmpTimeLo k.val) (Reg.wfeCmpTimeHi k.val) = (fp - 100 * 65536) / 65536 % 2 ^ 64 ∧
      t.pair (Reg.wfeCmpPosLo k.val) (Reg.wfeCmpPosHi k.val) = s.field.pos.toNat ∧
      t.wfe.a.startAt = some (s.time.pcyc + 32) ∧ t.wfe.a.cmp = some k ∧ t.wfe.a.startPos = s.field.pos ∧
      t.wfe.b = s.wfe.b ∧ Only [.regs, .wfe] s t ∧
      RegsOnly [Reg.wfeCmpEvt k.val, Reg.wfeCmpTimeLo k.val, Reg.wfeCmpTimeHi k.val, Reg.wfeCmpPosLo k.val,
        Reg.wfeCmpPosHi k.val] s t) := by
  obtain ⟨v, hv⟩ : ∃ v, v = sampleCmp k.val uv s := ⟨_, rfl⟩
  have hsample : Moves [.wfe] s v ∧ v.wfe.cmpLevel = s.wfe.cmpLevel ∧ v.wfe.a = s.wfe.a ∧ v.wfe.b = s.wfe.b ∧
      smGet none v.wfe.cmpRuns k.val = some (n, fp) := by
    rcases hrun with ⟨hout, hget⟩ | ⟨hout, rfl, rfl⟩
    · have hsame : v = s := by
        rw [hv]
        unfold sampleCmp
        rw [hnow, if_pos (beq_iff_eq.2 hout)]
      rw [hsame]
      exact ⟨.refl .., rfl, rfl, rfl, hget⟩
    · rw [hv, sampleCmp_new (by rw [hnow]; exact Ne.symm hout) (by rw [hnow]; exact Ne.symm hlevel)]
      exact ⟨Moves.updWfe (.refl ..) (by simp), rfl, rfl, rfl, smGet_smSet_value (by simp) ..⟩
  obtain ⟨hmoves, hlev, hva, hvb, hget⟩ := hsample
  have honly := hmoves.only
  have hregs : v.regs = s.regs := (honly.2 .regs (by decide)).1
  have htime : v.time = s.time := honly.2 .time (by decide)
  have hpix : v.pix = s.pix := honly.2 .pix (by decide)
  have hdue' : n + v.cmpFilterP k.val ≤ v.time.pcyc := by
    rw [State.cmpFilterP, pixReg_congr hregs htime (by rw [hpix]) (by rw [hpix]), htime]
    exact hdue
  have hexec : exec (.comparatorChange k uv) s = .next (passCmp k fp v) := by
    refine congrArg Host.Outcome.next ?_
    rw [comparatorChange, hon]
    dsimp only
    rw [if_neg (by simp), ← hv, hget]
    exact if_pos hdue'
  have hseq (c : Bool) : v.seqFld c 5 3 = s.seqFld c 5 3 := fld_eq_of_regs_eq hregs ..
  have hvon : v.wfeOn = true := by
    unfold State.wfeOn State.sensorsOn State.fieldOn State.flag
    rw [reg_eq_of_regs_eq hregs, honly.2 .power (by decide)]
    exact hon
  have hvpll : v.pllsRun = true := by
    rw [State.pllsRun, State.flag, reg_eq_of_regs_eq hregs]
    exact hpll
  have hvnone : v.barriers = [] := by
    rw [State.barriers, State.alternate, honly.2 .weave (by decide), State.pkg, honly.2 .power (by decide)]
    exact hnone
  obtain ⟨h1, h2, h3, h4, h5, h6, h7, h8, h9, h10⟩ := passCmp_starts (fp := fp) (hmoves.canon hs) hvon hvpll hvnone
    (by rw [hlev]; exact hlevel) ((hseq false).trans ha) (by rw [hva]; exact hidle) (by rw [hseq]; exact hb)
  have hfield : v.field = s.field := honly.2 .field (by decide)
  rw [hfield] at h4 h7
  rw [htime] at h5
  exact completes_of_next hexec ⟨h1, h2, h3, h4, h5, h6, h7, h8.trans hvb, (honly.mono (by simp)).trans h9,
    fun off hoff => (h10 off hoff).trans (reg_eq_of_regs_eq hregs off)⟩

end Comparator

/-! ### The start of a run (R138, R139) -/

/-- NUM and VALID of a status register are cleared. -/
def clearStat (k : Nat) (s : State) : State := (s.setFld k 0 8 0).setFlag k 8 false

theorem clearStat_moves {s : State} (hwf : smWf resetVal s.regs = true) (k : Nat) :
    RegMoves [k] s (clearStat k s) ∧ (clearStat k s).fld k 0 9 = 0 ∧ Only [.regs] s (clearStat k s) := by
  have hfirst : RegMoves [k] s (s.setFld k 0 8 0) := (RegMoves.refl _ hwf).setFld (off := k) 0 8 0 (by simp)
  refine ⟨hfirst.setFlag (off := k) 8 false (by simp), ?_, only_iff.2 (by simp [clearStat])⟩
  have hreg : (clearStat k s).reg k = putBits (putBits (s.reg k) 0 8 0) 8 1 0 := by
    have hmid : (s.setFld k 0 8 0).reg k = putBits (s.reg k) 0 8 0 := reg_setReg hwf ..
    rw [← hmid]
    exact reg_setReg hfirst.wf ..
  rw [fld_eq_bits, hreg]
  apply Nat.eq_of_testBit_eq
  intro i
  rw [bits, Nat.testBit_mod_two_pow, Nat.zero_testBit, Nat.shiftRight_zero]
  by_cases hi : i < 9
  · have hbit := getLsbD_putBits (putBits (s.reg k) 0 8 0) 8 1 0 i (by omega)
    have hlow := getLsbD_putBits (s.reg k) 0 8 0 i (by omega)
    rw [BitVec.getLsbD] at hbit
    rw [hbit, hlow]
    by_cases h8 : i = 8
    · simp [h8]
    · simp [hi, show ¬8 ≤ i by omega, show i < 8 by omega]
  · simp [hi]

/-- The status registers of a pass are cleared. -/
theorem foldl_clearStat {r : Nat → Nat} (hr : Function.Injective r) (n : Nat) {s : State} (hwf : smWf resetVal s.regs = true) :
    RegMoves ((List.range n).map r) s ((List.range n).foldl (fun s e => clearStat (r e) s) s) ∧
    (∀ e < n, ((List.range n).foldl (fun s e => clearStat (r e) s) s).fld (r e) 0 9 = 0) ∧
    Only [.regs] s ((List.range n).foldl (fun s e => clearStat (r e) s) s) := by
  induction n with
  | zero => exact ⟨RegMoves.refl _ hwf, by simp, (Moves.refl [.regs] s).only⟩
  | succ n ih =>
    obtain ⟨hmoves, hreads, honly⟩ := ih
    rw [List.range_succ, List.foldl_append, List.foldl_cons, List.foldl_nil]
    generalize (List.range n).foldl (fun s e => clearStat (r e) s) s = u at hmoves hreads honly
    obtain ⟨hstep, hzero, hframe⟩ := clearStat_moves hmoves.wf (r n)
    refine ⟨(hmoves.mono (by simp)).trans (hstep.mono (by simp)), fun e he => ?_, honly.trans hframe⟩
    rcases Nat.lt_succ_iff_lt_or_eq.1 he with hlt | rfl
    · have hne : r e ≠ r n := fun heq => absurd (hr heq) (by omega)
      rw [State.fld, hstep.only _ (by simpa using hne), ← State.fld]
      exact hreads e hlt
    · exact hzero

theorem rstat_injective (c : Bool) : Function.Injective (fun e => Reg.wfeRstat (16 * c.toNat + e)) := by
  intro a b h
  simp only [Reg.wfeRstat] at h
  omega

theorem beginPass_clears {s : State} (hwf : smWf resetVal s.regs = true) (c : Bool) :
    RegMoves ((List.range (s.seqLast c + 1)).map (fun e => Reg.wfeRstat (16 * c.toNat + e))) s (beginPass c s) ∧
    (∀ e ≤ s.seqLast c, (beginPass c s).fld (Reg.wfeRstat (16 * c.toNat + e)) 0 9 = 0) ∧ Only [.regs] s (beginPass c s) := by
  obtain ⟨hmoves, hreads, honly⟩ := foldl_clearStat (rstat_injective c) (s.seqLast c + 1) hwf
  exact ⟨hmoves, fun e he => hreads e (by omega), honly⟩

theorem completes_runStart {c : Bool} {n : Nat} {s : State} (hs : Canon s) (hstart : (s.wfe.conv c).startAt = some n)
    (hdue : n ≤ s.time.pcyc) (hverdict : runVerdict s c = 0) :
    Completes (.runStart c) s (fun t =>
      (t.wfe.conv c).running = true ∧ (t.wfe.conv c).startAt = none ∧ (t.wfe.conv c).runAt = n ∧
      (t.wfe.conv c).entry = 0 ∧ (t.wfe.conv c).entryAt = n ∧ (t.wfe.conv c).blank = false ∧
      t.wfe.conv (!c) = s.wfe.conv (!c) ∧ (∀ e ≤ s.seqLast c, t.fld (Reg.wfeRstat (16 * c.toNat + e)) 0 9 = 0) ∧
      Only [.regs, .wfe] s t ∧
      RegsOnly ((List.range (s.seqLast c + 1)).map (fun e => Reg.wfeRstat (16 * c.toNat + e))) s t) := by
  obtain ⟨x, hx⟩ : ∃ x : Conv, x = { s.wfe.conv c with running := true, startAt := none, runAt := n, pass := 0, wres := [] } :=
    ⟨_, rfl⟩
  obtain ⟨u, hu⟩ : ∃ u, u = s.setConv c x := ⟨_, rfl⟩
  obtain ⟨v, hv⟩ : ∃ v, v = beginPass c u := ⟨_, rfl⟩
  have hregs : u.regs = s.regs := by rw [hu]; rfl
  have hlast : u.seqLast c = s.seqLast c := fld_eq_of_regs_eq hregs ..
  have hexec : exec (.runStart c) s = .next (beginEntry c 0 n false v) := by
    refine congrArg Host.Outcome.next ?_
    unfold runStart
    dsimp only
    split
    next h => rw [hstart] at h; cases h
    next m h =>
      rw [hstart] at h
      cases h
      rw [if_neg (Nat.not_lt.2 hdue), hverdict, if_neg (not_not.2 rfl), ← hx, ← hu, ← hv]
  obtain ⟨hmoves, hreads, hpass⟩ := beginPass_clears (s := u) (by rw [hregs]; exact hs.regs) c
  rw [hlast, ← hv] at hmoves
  rw [hlast, ← hv] at hreads
  rw [← hv] at hpass
  have hvwfe : v.wfe = u.wfe := hpass.2 .wfe (by decide)
  have hvc : v.wfe.conv c = x := by rw [hvwfe, hu, conv_setConv]
  have hend := (beginEntry_only c 0 n false v (.refl [.wfe] v) (by simp)).only
  have hsu : Only [.wfe] s u := by rw [hu]; exact setConv_frame ..
  have hconv : (beginEntry c 0 n false v).wfe.conv c =
      { x with entry := 0, entryAt := n, blank := false, done := 0, sum := 0, flags := 0, hist := [] } := by
    rw [beginEntry, conv_setConv, hvc]
  have hregsEnd : (beginEntry c 0 n false v).regs = v.regs := (hend.2 .regs (by decide)).1
  refine completes_of_next hexec ⟨by rw [hconv, hx], by rw [hconv, hx], by rw [hconv, hx], by rw [hconv], by rw [hconv],
    by rw [hconv], ?_, fun e he => ?_, (hsu.mono (by simp)).trans ((hpass.mono (by simp)).trans (hend.mono (by simp))),
    fun off hoff => ?_⟩
  · rw [beginEntry, conv_setConv_other, hvwfe, hu, conv_setConv_other]
  · rw [fld_eq_of_regs_eq hregsEnd]
    exact hreads e he
  · rw [reg_eq_of_regs_eq hregsEnd, hmoves.only off hoff, reg_eq_of_regs_eq hregs]

end Sys2Proof.Machine
end

section
/-!
PROOFS. Results.lean: the results of the weigh front end and the weights that follow from them (R133, R138, R143, R147 to R149).
-/

namespace Sys2Proof.Machine

/-! ### A result in its registers (R138) -/

/-- The registers of result `k`. -/
def resultRegs (k : Nat) : List Nat := [Reg.wfeRes k, Reg.wfeRstat k, Reg.wfeRtimeLo k, Reg.wfeRtimeHi k]

/-- The status word of a result. -/
def statWord (num : Nat) (flags : BitVec 6) (slice : Fin 3) : Nat :=
  min num 255 + 2 ^ 8 + flags.toNat * 2 ^ 9 + slice.val * 2 ^ 16

section Stat

variable (num : Nat) (flags : BitVec 6) (slice : Fin 3)

theorem statWord_lt : statWord num flags slice < 2 ^ 32 := by
  have hflags := flags.isLt
  have hslice := slice.isLt
  unfold statWord
  omega

theorem bits_statWord_num : bits (BitVec.ofNat 32 (statWord num flags slice)) 0 8 = min num 255 := by
  have hlt := statWord_lt num flags slice
  have hflags := flags.isLt
  have hslice := slice.isLt
  rw [bits, BitVec.toNat_ofNat, Nat.mod_eq_of_lt hlt, Nat.shiftRight_eq_div_pow]
  unfold statWord
  omega

theorem bits_statWord_slice : bits (BitVec.ofNat 32 (statWord num flags slice)) 16 2 = slice.val := by
  have hlt := statWord_lt num flags slice
  have hflags := flags.isLt
  have hslice := slice.isLt
  rw [bits, BitVec.toNat_ofNat, Nat.mod_eq_of_lt hlt, Nat.shiftRight_eq_div_pow]
  unfold statWord
  omega

theorem getLsbD_statWord_valid : (BitVec.ofNat 32 (statWord num flags slice)).getLsbD 8 = true := by
  have hflags := flags.isLt
  have hvalid : statWord num flags slice / 2 ^ 8 % 2 = 1 := by
    unfold statWord
    omega
  rw [BitVec.getLsbD_ofNat, Nat.testBit_eq_decide_div_mod_eq, hvalid]
  rfl

theorem getLsbD_statWord_wire : (BitVec.ofNat 32 (statWord num flags slice)).getLsbD 11 = flags.getLsbD 2 := by
  have hflags := flags.isLt
  rw [BitVec.getLsbD_ofNat, BitVec.getLsbD, Nat.testBit_eq_decide_div_mod_eq, Nat.testBit_eq_decide_div_mod_eq]
  have hsame : statWord num flags slice / 2 ^ 11 % 2 = flags.toNat / 2 ^ 2 % 2 := by
    unfold statWord
    omega
  rw [hsame]
  rfl

end Stat

theorem storeResult_reads {s : State} (hwf : smWf resetVal s.regs = true) (c : Bool) (e num : Nat) (code : Int)
    (flags : BitVec 6) {k : Nat} (hk : k = 16 * c.toNat + e) :
    (storeResult c e num code flags true s).reg (Reg.wfeRes k) = BitVec.ofInt 32 code ∧
    (storeResult c e num code flags true s).reg (Reg.wfeRstat k) = BitVec.ofNat 32 (statWord num flags (s.wfe.slice c)) ∧
    (storeResult c e num code flags true s).pair (Reg.wfeRtimeLo k) (Reg.wfeRtimeHi k) = s.nowNs % 2 ^ 64 ∧
    RegMoves (resultRegs k) s (storeResult c e num code flags true s) ∧
    Only [.regs] s (storeResult c e num code flags true s) := by
  subst hk
  obtain ⟨k, hk⟩ : ∃ k, k = 16 * c.toNat + e := ⟨_, rfl⟩
  obtain ⟨a, ha⟩ : ∃ u, u = s.setReg (Reg.wfeRes k) (BitVec.ofInt 32 code) := ⟨_, rfl⟩
  obtain ⟨b, hb⟩ : ∃ u, u = a.setReg (Reg.wfeRstat k) (BitVec.ofNat 32 (statWord num flags (s.wfe.slice c))) := ⟨_, rfl⟩
  obtain ⟨d, hd⟩ : ∃ u, u = b.setReg (Reg.wfeRtimeLo k) (BitVec.ofNat 32 s.nowNs) := ⟨_, rfl⟩
  obtain ⟨f, hf⟩ : ∃ u, u = d.setReg (Reg.wfeRtimeHi k) (BitVec.ofNat 32 (s.nowNs / 2 ^ 32)) := ⟨_, rfl⟩
  have heq : storeResult c e num code flags true s = f := by rw [hf, hd, hb, ha, hk]; rfl
  have ma : RegMoves [Reg.wfeRes k] s a := by rw [ha]; exact (RegMoves.refl _ hwf).setReg (off := Reg.wfeRes k) _ (by simp)
  have mb : RegMoves [Reg.wfeRstat k] a b := by
    rw [hb]; exact (RegMoves.refl _ ma.wf).setReg (off := Reg.wfeRstat k) _ (by simp)
  have md : RegMoves [Reg.wfeRtimeLo k] b d := by
    rw [hd]; exact (RegMoves.refl _ mb.wf).setReg (off := Reg.wfeRtimeLo k) _ (by simp)
  have mf : RegMoves [Reg.wfeRtimeHi k] d f := by
    rw [hf]; exact (RegMoves.refl _ md.wf).setReg (off := Reg.wfeRtimeHi k) _ (by simp)
  have hall : RegMoves (resultRegs k) s f :=
    (ma.mono (by simp [resultRegs])).trans <| (mb.mono (by simp [resultRegs])).trans <|
      (md.mono (by simp [resultRegs])).trans (mf.mono (by simp [resultRegs]))
  have hlo : f.reg (Reg.wfeRtimeLo k) = BitVec.ofNat 32 s.nowNs := by
    rw [mf.only _ (by simp [Reg.wfeRtimeLo, Reg.wfeRtimeHi]), hd, reg_setReg mb.wf]
  have hhi : f.reg (Reg.wfeRtimeHi k) = BitVec.ofNat 32 (s.nowNs / 2 ^ 32) := by rw [hf, reg_setReg md.wf]
  rw [heq, ← hk]
  refine ⟨?_, ?_, ?_, hall, by rw [hf, hd, hb, ha]; exact only_iff.2 (by simp)⟩
  · rw [mf.only _ (by simp [Reg.wfeRes, Reg.wfeRtimeHi]), md.only _ (by simp [Reg.wfeRes, Reg.wfeRtimeLo]),
      mb.only _ (by simp [Reg.wfeRes, Reg.wfeRstat]), ha, reg_setReg hwf]
  · rw [mf.only _ (by simp [Reg.wfeRstat, Reg.wfeRtimeHi]), md.only _ (by simp [Reg.wfeRstat, Reg.wfeRtimeLo]), hb,
      reg_setReg ma.wf]
  · rw [State.pair, hlo, hhi]
    simp only [BitVec.toNat_ofNat]
    omega

/-! ### From the integrations to the registers (R133, R137, R143) -/

/-- OPEN is bit 2 of a result's flags. -/
theorem resultFlags_wire (s : State) (c : Bool) (w : Word) (code : Int) (overload : Bool) :
    (resultFlags s c w code overload).getLsbD 2 = (eOwc w != 0 && decide (s.fld Reg.wfeOwLimit 0 31 ≤ code.natAbs)) := by
  have hbit : ∀ a b d e : Bool, (BitVec.ofNat 6 (a.toNat + 2 * b.toNat + 4 * d.toNat + 16 * e.toNat)).getLsbD 2 = d := by decide
  exact hbit ..

/-- The converter has counted a result of code `one` with flags `f`, and the result stands in its registers. -/
def resultStored (c : Bool) (w : Word) (hist : List Integration) (one : Int) (f : BitVec 6) (s : State) : State :=
  let x := s.wfe.conv c
  storeResult c x.entry (x.done + 1) (if eAvg w then (x.sum + one) / ((x.done + 1 : Nat) : Int) else one)
    (if eAvg w then x.flags ||| f else f) true
    (s.setConv c { x with done := x.done + 1, sum := x.sum + one, flags := x.flags ||| f, hist := hist })

/-- The weight step of a result of the weight entry, and the next entry after the last result. -/
def afterResult (c : Bool) (w : Word) (x : Conv) (due : Nat) (code : Int) (s : State) : State :=
  let s := if x.entry = s.fld Reg.wfeWeightCfg 4 4 then weightStep c x.entry x.done due code s else s
  if x.done + 1 < eCount w then s else nextEntry c s

/-- A result that is due: its code and flags, its registers, an open wire, and what follows it. -/
theorem resultWrite_due {c : Bool} {l hist : List Integration} {w : Word} {one : Int} {s : State}
    (hrun : (s.wfe.conv c).running = true) (hw : w = s.entryWord c (s.wfe.conv c).entry)
    (hdue : (s.wfe.conv c).due s.mainsP w ≤ s.time.pcyc)
    (hhist : hist = ((s.wfe.conv c).hist ++ l).drop (((s.wfe.conv c).hist ++ l).length - eK w * eParts w))
    (hone : one = (codeOfRaw s (s.wfe.slice c).val (eGain w) (entryRaw s.mainsP w hist)).1) :
    ∃ f : BitVec 6, f.getLsbD 2 = (eOwc w != 0 && decide (s.fld Reg.wfeOwLimit 0 31 ≤ one.natAbs)) ∧
      resultWrite c l s = afterResult c w (s.wfe.conv c) ((s.wfe.conv c).due s.mainsP w)
        (if eAvg w then ((s.wfe.conv c).sum + one) / (((s.wfe.conv c).done + 1 : Nat) : Int) else one)
        (if f.getLsbD 2 then openWire w (resultStored c w hist one f s) else resultStored c w hist one f s) := by
  obtain ⟨f, hf⟩ : ∃ f, f = resultFlags s c w one (hist.any (fun i => i.overload) ||
    (codeOfRaw s (s.wfe.slice c).val (eGain w) (entryRaw s.mainsP w hist)).2) := ⟨_, rfl⟩
  refine ⟨f, by rw [hf]; exact resultFlags_wire .., ?_⟩
  have hopen : (!(s.wfe.conv c).running || decide (s.time.pcyc < (s.wfe.conv c).due s.mainsP w)) = false := by
    rw [hrun, decide_eq_false (Nat.not_lt.2 hdue)]
    rfl
  unfold resultWrite
  dsimp only
  rw [← hw, hopen, if_neg Bool.false_ne_true, ← hhist, ← hone, ← hf]
  rfl

/-! ### Open wires (R143) -/

theorem openWire_marks {w : Word} {s : State} (hwf : smWf resetVal s.regs = true) :
    RegMoves [Reg.wfeOpen, Reg.wfeErr, Reg.hostEvtLost] s (openWire w s) ∧
    (eCh w ≤ 7 → (openWire w s).flag Reg.wfeOpen (eCh w) = true) ∧ Only [.regs, .out, .host] s (openWire w s) := by
  obtain ⟨u, hu⟩ : ∃ u, u = (if eCh w ≤ 7 then s.hwSet Reg.wfeOpen (fun x => putBits x (eCh w) 1 1) else s) := ⟨_, rfl⟩
  have hsu : RegMoves [Reg.wfeOpen] s u := by
    rw [hu]
    exact .ite ((RegMoves.refl _ hwf).hwSet (off := Reg.wfeOpen) _ (by simp)) (.refl _ hwf)
  have hpost : RegMoves [Reg.wfeErr, Reg.hostEvtLost] u (openWire w s) := by
    rw [openWire, ← hu]
    exact RegMoves.postEvent (RegMoves.refl _ hsu.wf) _ _ (by decide) (by decide)
  refine ⟨(hsu.mono (by simp)).trans (hpost.mono (by simp)), fun hch => ?_,
    (openWire_only w s (.refl [.regs, .out, .host] s) (by simp)).only⟩
  rw [State.flag, hpost.only _ (by decide), hu, if_pos hch, reg_hwSet hwf, getLsbD_putBits _ _ _ _ _ (by omega),
    if_pos (by omega), Nat.sub_self]
  rfl

/-- The result of a converter, with its open wire. -/
theorem resultStored_reads {c : Bool} {w : Word} {hist : List Integration} {one : Int} {f : BitVec 6} {s t : State} {k : Nat}
    (hs : Canon s) (hentry : (s.wfe.conv c).entry < 16) (hk : k = 16 * c.toNat + (s.wfe.conv c).entry)
    (ht : t = if f.getLsbD 2 then openWire w (resultStored c w hist one f s) else resultStored c w hist one f s) :
    t.reg (Reg.wfeRes k) = BitVec.ofInt 32 (if eAvg w then ((s.wfe.conv c).sum + one) / (((s.wfe.conv c).done + 1 : Nat) : Int) else one) ∧
    t.reg (Reg.wfeRstat k) = BitVec.ofNat 32 (statWord ((s.wfe.conv c).done + 1)
      (if eAvg w then (s.wfe.conv c).flags ||| f else f) (s.wfe.slice c)) ∧
    t.pair (Reg.wfeRtimeLo k) (Reg.wfeRtimeHi k) = s.nowNs % 2 ^ 64 ∧
    t.wfe = (s.setConv c { s.wfe.conv c with
      done := (s.wfe.conv c).done + 1, sum := (s.wfe.conv c).sum + one, flags := (s.wfe.conv c).flags ||| f, hist := hist }).wfe ∧
    Only [.regs, .out, .host, .wfe] s t ∧ RegMoves (resultRegs k ++ [Reg.wfeOpen, Reg.wfeErr, Reg.hostEvtLost]) s t ∧
    (f.getLsbD 2 = false → Only [.regs, .wfe] s t ∧ RegMoves (resultRegs k) s t) ∧
    (f.getLsbD 2 = true → eCh w ≤ 7 → t.flag Reg.wfeOpen (eCh w) = true) := by
  obtain ⟨u, hu⟩ : ∃ u, u = s.setConv c { s.wfe.conv c with
    done := (s.wfe.conv c).done + 1, sum := (s.wfe.conv c).sum + one, flags := (s.wfe.conv c).flags ||| f, hist := hist } :=
    ⟨_, rfl⟩
  obtain ⟨v, hv⟩ : ∃ v, v = resultStored c w hist one f s := ⟨_, rfl⟩
  have hstored : v = storeResult c (s.wfe.conv c).entry ((s.wfe.conv c).done + 1)
      (if eAvg w then ((s.wfe.conv c).sum + one) / (((s.wfe.conv c).done + 1 : Nat) : Int) else one)
      (if eAvg w then (s.wfe.conv c).flags ||| f else f) true u := by rw [hv, hu]; rfl
  have hsu : Only [.wfe] s u := by rw [hu]; exact setConv_frame ..
  have huregs : u.regs = s.regs := (hsu.2 .regs (by decide)).1
  obtain ⟨hres, hstat, htime, hregs, honly⟩ := storeResult_reads (s := u) (by rw [huregs]; exact hs.regs) c
    (s.wfe.conv c).entry ((s.wfe.conv c).done + 1)
    (if eAvg w then ((s.wfe.conv c).sum + one) / (((s.wfe.conv c).done + 1 : Nat) : Int) else one)
    (if eAvg w then (s.wfe.conv c).flags ||| f else f) hk
  rw [← hstored] at hres hstat htime hregs honly
  have hsv : RegMoves (resultRegs k) s v := ⟨hregs.wf, fun off hoff => (hregs.only off hoff).trans (reg_eq_of_regs_eq huregs off)⟩
  have hslice : u.wfe.slice c = s.wfe.slice c := by rw [hu, slice_setConv]
  have hns : u.nowNs = s.nowNs := by rw [State.nowNs, hsu.2 .time (by decide), State.nowNs]
  rw [hslice] at hstat
  rw [hns] at htime
  have hvwfe : v.wfe = u.wfe := honly.2 .wfe (by decide)
  have hsvOnly : Only [.regs, .wfe] s v := (hsu.mono (by simp)).trans (honly.mono (by simp))
  have hklt : k < 32 := by
    rw [hk]
    cases c <;> simp only [Bool.toNat_false, Bool.toNat_true] <;> omega
  rw [← hv] at ht
  cases hwire : f.getLsbD 2 with
  | false =>
    rw [hwire, if_neg Bool.false_ne_true] at ht
    subst ht
    exact ⟨hres, hstat, htime, hvwfe.trans (by rw [hu]), hsvOnly.mono (by simp), hsv.mono (by simp),
      fun _ => ⟨hsvOnly, hsv⟩, fun h => absurd h (by decide)⟩
  | true =>
    rw [hwire, if_pos rfl] at ht
    obtain ⟨hopen, hflag, hframe⟩ := openWire_marks (w := w) hsv.wf
    rw [← ht] at hopen hflag hframe
    have hkeep (off : Nat) (hoff : 0x10400 ≤ off) : t.reg off = v.reg off := hopen.only off (by
      simp only [Reg.wfeOpen, Reg.wfeErr, Reg.hostEvtLost, List.mem_cons, List.not_mem_nil, or_false]
      omega)
    refine ⟨?_, ?_, ?_, ?_, (hsvOnly.mono (by simp)).trans (hframe.mono (by simp)), (hsv.mono (by simp)).trans (hopen.mono (by simp)),
      fun h => absurd h (by decide), fun _ hch => hflag hch⟩
    · rw [hkeep _ (by simp only [Reg.wfeRes]; omega), hres]
    · rw [hkeep _ (by simp only [Reg.wfeRstat]; omega), hstat]
    · rw [pair_congr (hkeep _ (by simp only [Reg.wfeRtimeLo]; omega)) (hkeep _ (by simp only [Reg.wfeRtimeHi]; omega)), htime]
    · rw [hframe.2 .wfe (by decide), hvwfe, hu]

/-- A result that is not the last of its entry, outside the weight entry. -/
theorem completes_resultWrite {c : Bool} {l hist : List Integration} {k : Nat} {w : Word} {one : Int} {s : State} (hs : Canon s)
    (hrun : (s.wfe.conv c).running = true) (hentry : (s.wfe.conv c).entry < 16) (hk : k = 16 * c.toNat + (s.wfe.conv c).entry)
    (hw : w = s.entryWord c (s.wfe.conv c).entry) (hdue : (s.wfe.conv c).due s.mainsP w ≤ s.time.pcyc)
    (hmore : (s.wfe.conv c).done + 1 < eCount w) (hother : (s.wfe.conv c).entry ≠ s.fld Reg.wfeWeightCfg 4 4)
    (hhist : hist = ((s.wfe.conv c).hist ++ l).drop (((s.wfe.conv c).hist ++ l).length - eK w * eParts w))
    (hone : one = (codeOfRaw s (s.wfe.slice c).val (eGain w) (entryRaw s.mainsP w hist)).1) :
    Completes (.resultWrite c l) s (fun t =>
      t.reg (Reg.wfeRes k) = BitVec.ofInt 32
        (if eAvg w then ((s.wfe.conv c).sum + one) / (((s.wfe.conv c).done + 1 : Nat) : Int) else one) ∧
      t.fld (Reg.wfeRstat k) 0 8 = min ((s.wfe.conv c).done + 1) 255 ∧ t.flag (Reg.wfeRstat k) 8 = true ∧
      t.fld (Reg.wfeRstat k) 16 2 = (s.wfe.slice c).val ∧
      t.pair (Reg.wfeRtimeLo k) (Reg.wfeRtimeHi k) = s.nowNs % 2 ^ 64 ∧
      (t.wfe.conv c).done = (s.wfe.conv c).done + 1 ∧ (t.wfe.conv c).running = true ∧
      t.wfe.conv (!c) = s.wfe.conv (!c) ∧ Only [.regs, .out, .host, .wfe] s t ∧
      (eOwc w = 0 → Only [.regs, .wfe] s t ∧
        RegsOnly [Reg.wfeRes k, Reg.wfeRstat k, Reg.wfeRtimeLo k, Reg.wfeRtimeHi k] s t) ∧
      (eOwc w ≠ 0 → s.fld Reg.wfeOwLimit 0 31 ≤ one.natAbs →
        t.flag (Reg.wfeRstat k) 11 = true ∧ (eCh w ≤ 7 → t.flag Reg.wfeOpen (eCh w) = true))) := by
  obtain ⟨f, hwire, hresult⟩ := resultWrite_due hrun hw hdue hhist hone
  obtain ⟨t, ht⟩ : ∃ t, t = if f.getLsbD 2 then openWire w (resultStored c w hist one f s) else resultStored c w hist one f s :=
    ⟨_, rfl⟩
  obtain ⟨hres, hstat, htime, hwfe, honly, hregs, hquiet, hopen⟩ := resultStored_reads hs hentry hk ht
  rw [← ht] at hresult
  have hklt : k < 32 := by
    rw [hk]
    cases c <;> simp only [Bool.toNat_false, Bool.toNat_true] <;> omega
  have hcfg : t.fld Reg.wfeWeightCfg 4 4 = s.fld Reg.wfeWeightCfg 4 4 := by
    rw [State.fld, hregs.only _ (by
      simp only [resultRegs, Reg.wfeWeightCfg, Reg.wfeRes, Reg.wfeRstat, Reg.wfeRtimeLo, Reg.wfeRtimeHi, Reg.wfeOpen, Reg.wfeErr,
        Reg.hostEvtLost, List.cons_append, List.nil_append, List.mem_cons, List.not_mem_nil, or_false]
      omega), State.fld]
  have hafter : resultWrite c l s = t := by
    rw [hresult, afterResult, hcfg, if_neg hother]
    exact if_pos hmore
  have hexec : exec (.resultWrite c l) s = .next t := congrArg Host.Outcome.next hafter
  refine completes_of_next hexec ⟨hres, ?_, ?_, ?_, htime, ?_, ?_, ?_, honly, fun howc => ?_, fun howc hlimit => ?_⟩
  · rw [fld_eq_bits, hstat, bits_statWord_num]
  · rw [State.flag, hstat, getLsbD_statWord_valid]
  · rw [fld_eq_bits, hstat, bits_statWord_slice]
  · rw [hwfe, conv_setConv]
  · rw [hwfe, conv_setConv]
    exact hrun
  · rw [hwfe, conv_setConv_other]
  · obtain ⟨h1, h2⟩ := hquiet (by rw [hwire, howc]; rfl)
    exact ⟨h1, h2.only⟩
  · have hset : f.getLsbD 2 = true := by
      rw [hwire, decide_eq_true hlimit, Bool.and_true]
      exact bne_iff_ne.2 howc
    refine ⟨?_, hopen hset⟩
    rw [State.flag, hstat, getLsbD_statWord_wire]
    split
    · rw [BitVec.getLsbD_or, hset, Bool.or_true]
    · exact hset

/-! ### The weight of a run (R148, R149) -/

theorem wq_closeEntry (c : Bool) (s : State) : (closeEntry c s).wfe.wq = s.wfe.wq := by
  rw [closeEntry]
  split <;> rfl

theorem wq_beginPass (c : Bool) (s : State) : (beginPass c s).wfe = s.wfe :=
  (beginPass_only c s (.refl [.regs] s) (by simp)).only.2 .wfe (by decide)

theorem wq_endRun (c : Bool) (s : State) : (endRun c s).wfe.wq = s.wfe.wq := by
  rw [endRun, wq_setConv, wq_closeEntry]

theorem wq_beginEntry (c : Bool) (e at' : Nat) (blank : Bool) (s : State) : (beginEntry c e at' blank s).wfe.wq = s.wfe.wq := by
  rw [beginEntry, wq_setConv]

/-- The end of an entry leaves the weights that wait. -/
theorem wq_nextEntry (c : Bool) (s : State) : (nextEntry c s).wfe.wq = s.wfe.wq := by
  simp only [nextEntry]
  split
  · rw [wq_beginEntry, wq_closeEntry]
  · split
    · rw [wq_beginEntry, wq_closeEntry, wq_beginPass, wq_setConv]
    · exact wq_endRun c s

/-- A weight that finds room joins the queue. -/
theorem wq_queueWeight {s : State} (hroom : s.wfe.wq.length < 16) (x : Weight) :
    (queueWeight x s).wfe.wq = s.wfe.wq ++ [x] := by
  rw [queueWeight, if_pos hroom]
  rfl

/-- The weight of one converter's run. -/
theorem wq_computeWeight {a b : Int} {fa fb : BitVec 6} {s : State} (hone : s.flag Reg.wfeXchk 0 = false)
    (hroom : s.wfe.wq.length < 16) :
    ∃ x : Weight, (computeWeight a b fa fb s).wfe.wq = s.wfe.wq ++ [x] ∧ x.value = BitVec.ofInt 32 (weightOf s a).1 ∧
      x.startNs = s.wfe.a.startNs ∧ x.startPos = s.wfe.a.startPos ∧ x.cmp = s.wfe.a.cmp := by
  obtain ⟨x, u, hqueue, hwfe, hvalue, hns, hpos, hcmp⟩ : ∃ (x : Weight) (u : State), computeWeight a b fa fb s = queueWeight x u ∧
      u.wfe = s.wfe ∧ x.value = BitVec.ofInt 32 (weightOf s (if s.flag Reg.wfeXchk 0 then (a + b) / 2 else a)).1 ∧
      x.startNs = s.wfe.a.startNs ∧ x.startPos = s.wfe.a.startPos ∧ x.cmp = s.wfe.a.cmp :=
    ⟨_, _, rfl, rfl, rfl, rfl, rfl, rfl⟩
  rw [hone, if_neg Bool.false_ne_true] at hvalue
  exact ⟨x, by rw [hqueue, wq_queueWeight (by rw [hwfe]; exact hroom), hwfe], hvalue, hns, hpos, hcmp⟩

/-- ZERO and SPAN decide a weight. -/
theorem weightOf_congr {s t : State} (hzero : t.pixReg Reg.wfeZero = s.pixReg Reg.wfeZero)
    (hspan : t.pixReg Reg.wfeSpan = s.pixReg Reg.wfeSpan) (code : Int) : weightOf t code = weightOf s code := by
  rw [weightOf, hzero, hspan, weightOf]

/-- The last result of the weight entry in the first pass of A's run, with A alone: the weight is queued. -/
theorem completes_resultWrite_weight {l hist : List Integration} {w : Word} {one : Int} {s : State} (hs : Canon s)
    (hrun : s.wfe.a.running = true) (hentry : s.wfe.a.entry = s.fld Reg.wfeWeightCfg 4 4)
    (hw : w = s.entryWord false s.wfe.a.entry) (havg : eAvg w = false) (hdue : s.wfe.a.due s.mainsP w ≤ s.time.pcyc)
    (hlast : s.wfe.a.done + 1 = eCount w) (hpass : s.wfe.a.pass = 0) (hweigh : s.flag Reg.wfeWeightCfg 0 = true)
    (halone : s.flag Reg.wfeXchk 0 = false) (hroom : s.wfe.wq.length < 16)
    (hhist : hist = (s.wfe.a.hist ++ l).drop ((s.wfe.a.hist ++ l).length - eK w * eParts w))
    (hone : one = (codeOfRaw s s.wfe.sliceA.val (eGain w) (entryRaw s.mainsP w hist)).1) :
    Completes (.resultWrite false l) s (fun t => ∃ x : Weight, t.wfe.wq = s.wfe.wq ++ [x] ∧
      x.value = BitVec.ofInt 32 (weightOf s one).1 ∧ x.startNs = s.wfe.a.startNs ∧ x.startPos = s.wfe.a.startPos ∧
      x.cmp = s.wfe.a.cmp ∧ Only [.regs, .out, .host, .wfe] s t) := by
  have hsmall : s.wfe.a.entry < 16 := by
    rw [hentry]
    exact Nat.mod_lt _ (by decide)
  obtain ⟨f, hwire, hresult⟩ := resultWrite_due (c := false) hrun hw hdue hhist hone
  obtain ⟨t, ht⟩ : ∃ t, t = if f.getLsbD 2 then openWire w (resultStored false w hist one f s)
    else resultStored false w hist one f s := ⟨_, rfl⟩
  obtain ⟨hres, hstat, htime, hwfe, honly, hregs, hquiet, hopen⟩ := resultStored_reads (c := false) hs hsmall rfl ht
  rw [← ht] at hresult
  have hkeep (off : Nat) (hlow : 0x10014 ≤ off) (hhigh : off < 0x10400) (hne : off ≠ 0x1003C) : t.reg off = s.reg off :=
    hregs.only off (by
      simp only [resultRegs, Reg.wfeRes, Reg.wfeRstat, Reg.wfeRtimeLo, Reg.wfeRtimeHi, Reg.wfeOpen, Reg.wfeErr, Reg.hostEvtLost,
        List.cons_append, List.nil_append, List.mem_cons, List.not_mem_nil, or_false]
      omega)
  have hpix (off : Nat) (hoff : t.reg off = s.reg off) : t.pixReg off = s.pixReg off := by
    rw [State.pixReg, hoff, honly.2 .pix (by decide), honly.2 .time (by decide), State.pixReg]
  have ha : t.wfe.a = { s.wfe.a with
      done := s.wfe.a.done + 1, sum := s.wfe.a.sum + one, flags := s.wfe.a.flags ||| f, hist := hist } := by
    rw [hwfe]
    rfl
  have hwq : t.wfe.wq = s.wfe.wq := by rw [hwfe, wq_setConv]
  have hcfg : t.fld Reg.wfeWeightCfg 4 4 = s.fld Reg.wfeWeightCfg 4 4 := by
    rw [State.fld, hkeep _ (by decide) (by decide) (by decide), State.fld]
  have hxchk : t.flag Reg.wfeXchk 0 = false := by
    rw [State.flag, hkeep _ (by decide) (by decide) (by decide)]
    exact halone
  have hon : t.flag Reg.wfeWeightCfg 0 = true := by
    rw [State.flag, hkeep _ (by decide) (by decide) (by decide)]
    exact hweigh
  have hword : t.entryWord false s.wfe.a.entry = w := by
    rw [hw, State.entryWord, hkeep _ (by simp only [Reg.wfeEntry, Bool.toNat_false]; omega)
      (by simp only [Reg.wfeEntry, Bool.toNat_false]; omega) (by simp only [Reg.wfeEntry, Bool.toNat_false]; omega), State.entryWord]
  obtain ⟨x, hqueue, hvalue, hns, hpos, hcmp⟩ := wq_computeWeight (a := one) (b := 0) (fa := t.resFlags false s.wfe.a.entry) (fb := 0)
    hxchk (hwq ▸ hroom)
  have hstep : weightStep false s.wfe.a.entry s.wfe.a.done (s.wfe.a.due s.mainsP w) one t =
      computeWeight one 0 (t.resFlags false s.wfe.a.entry) 0 t := by
    have hpassT : (t.wfe.conv false).pass = 0 := by
      show t.wfe.a.pass = 0
      rw [ha]
      exact hpass
    simp only [weightStep, hxchk, hon, hword, hlast, hpassT, decide_true, Bool.not_false, Bool.true_and, if_true]
  have hcode : (if eAvg w then ((s.wfe.conv false).sum + one) / (((s.wfe.conv false).done + 1 : Nat) : Int) else one) = one := by
    rw [havg, if_neg Bool.false_ne_true]
  have hafter : resultWrite false l s = nextEntry false (computeWeight one 0 (t.resFlags false s.wfe.a.entry) 0 t) := by
    rw [hresult, hcode, afterResult, hcfg, if_pos (show (s.wfe.conv false).entry = _ from hentry)]
    rw [if_neg (show ¬ (s.wfe.conv false).done + 1 < eCount w from Nat.not_lt.2 (Nat.le_of_eq hlast.symm))]
    exact congrArg (nextEntry false) hstep
  refine completes_of_next (t := resultWrite false l s) rfl ⟨x, ?_, ?_, ?_, ?_, ?_,
    (resultWrite_only false l s (.refl [.regs, .out, .host, .wfe] s) (by simp)).only⟩
  · rw [hafter, wq_nextEntry, hqueue, hwq]
  · rw [hvalue, weightOf_congr (hpix _ (hkeep _ (by decide) (by decide) (by decide)))
      (hpix _ (hkeep _ (by decide) (by decide) (by decide)))]
  · rw [hns, ha]
  · rw [hpos, ha]
  · rw [hcmp, ha]

/-- Settles O21: each command of the weigh front end has its effect; a result goes through its registers to the weight. -/
theorem weighCommandsComplete : Obligations.WeighCommandsComplete := by
  unfold Obligations.WeighCommandsComplete
  refine ⟨?_, ?_, ?_, ?_, ?_, ?_, ?_, ?_, ?_, ?_, ?_, ?_, ?_, ?_, ?_⟩
  · intro val s hs hserved hoff hon hverdict
    exact completes_wfeEnable hs hserved hoff hon hverdict
  · intro sense s hon hsettled hpast hsense
    exact exec_refSettledTimer hon hsettled hpast hsense
  · intro s hs hanchor hfield hexc
    exact completes_excTrip hs hanchor hfield hexc
  · intro k uv s hon hout hlevel hfilter
    exact exec_comparatorChange_new hon hout hlevel hfilter
  · intro k uv n fp r s hs hon hpll hnone hnow hlevel hdue hrun ha hidle hb
    exact completes_comparatorChange hs hon hpll hnone hnow hlevel hdue hrun ha hidle hb
  · intro s hs hon hpll hsrc hidle
    exact exec_startA hs hon hpll hsrc hidle
  · intro s hs hon hpll hsrc hidle
    exact exec_startB hs hon hpll hsrc hidle
  · intro s hs
    exact exec_stopA hs
  · intro s hs
    exact exec_stopB hs
  · intro c n s hs hstart hdue hverdict
    exact completes_runStart hs hstart hdue hverdict
  · intro c l hist k w one s hs hrun hentry hk hw hdue hmore hother hhist hone
    exact completes_resultWrite hs hrun hentry hk hw hdue hmore hother hhist hone
  · intro l hist w one s hs hrun hentry hw havg hdue hlast hpass hweigh halone hroom hhist hone
    exact completes_resultWrite_weight hs hrun hentry hw havg hdue hlast hpass hweigh halone hroom hhist hone
  · intro s hon hnow hrot hgood
    exact exec_rotationDue hon hnow hrot hgood
  · intro n s hready hparked hon hrot hwait hidle
    exact completes_rotationHandover hready hparked hon hrot hwait hidle
  · intro short ref p s hs hon hbusy hpast hgains hcoef
    exact completes_calibrationDone hs hon hbusy hpast hgains hcoef

end Sys2Proof.Machine
end

section
/-!
PROOFS. Scratch.lean: accesses of the scratchpads in their slots, the gather buffer and the R slot (R154 to R166).
-/

namespace Sys2Proof.Machine

/-! ### Slots (R157) -/

/-- An access in a slot is noted under these keys: the quarter that it names, the quarters whose slot its port holds, or the
core's. -/
def usedKeys (n : Nat) (p : SpPort) (q : Option (Fin 4)) (cycle : Nat) (s : State) : List (Option (Fin 4)) :=
  if s.partitioned n then
    (if q.isSome then [q] else (quarters.filter (fun q => s.holdsSlot n p (some q) cycle)).map some)
  else [none]

/-- The slot of c-cycle `cycle` has been used in the wheel, or in a quarter. -/
def markSlot (n cycle : Nat) (s : State) (k : Option (Fin 4)) : State :=
  s.setCore n { s.core n with used := smSet 0 (s.core n).used (slotKey k) (cycle + 1) }

theorem useSlot_eq (n : Nat) (p : SpPort) (q : Option (Fin 4)) (cycle : Nat) (s : State) :
    useSlot n p q cycle s = (usedKeys n p q cycle s).foldl (markSlot n cycle) s := by
  unfold useSlot usedKeys
  split
  · cases q with
    | none => rw [if_neg (by decide), List.foldl_map]; rfl
    | some q => rfl
  · rfl

/-- A core with a used slot is no core at reset. -/
theorem markSlot_ne_reset (c : CoreState) (k cycle : Nat) : { c with used := smSet 0 c.used k (cycle + 1) } ≠ CoreState.reset := by
  intro h
  have hused : smSet 0 c.used k (cycle + 1) = [] := congrArg CoreState.used h
  have hread := smGet_smSet_value (d := 0) (Nat.succ_ne_zero cycle) c.used k
  rw [hused] at hread
  exact Nat.succ_ne_zero cycle hread.symm

/-- Slots that are marked show in `used` alone. -/
theorem foldl_markSlot (n cycle : Nat) (l : List (Option (Fin 4))) : ∀ s : State,
    (l.foldl (markSlot n cycle) s).core n = { s.core n with
      used := l.foldl (fun m k => smSet 0 m (slotKey k) (cycle + 1)) (s.core n).used } ∧
    (∀ k ≠ n, (l.foldl (markSlot n cycle) s).core k = s.core k) := by
  induction l with
  | nil => exact fun s => ⟨rfl, fun _ _ => rfl⟩
  | cons a l ih =>
    intro s
    obtain ⟨hcore, hother⟩ := ih (markSlot n cycle s a)
    have hne := markSlot_ne_reset (s.core n) (slotKey a) cycle
    have hself : (markSlot n cycle s a).core n = { s.core n with used := smSet 0 (s.core n).used (slotKey a) (cycle + 1) } :=
      smGet_smSet_value hne _ _
    have hrest (k : Nat) (hk : k ≠ n) : (markSlot n cycle s a).core k = s.core k :=
      smGet_smSet_ne_value hne _ hk
    exact ⟨by rw [List.foldl_cons, hcore, hself]; rfl, fun k hk => by rw [List.foldl_cons, hother k hk, hrest k hk]⟩

section Slot

variable (n : Nat) (p : SpPort) (q : Option (Fin 4)) (cycle : Nat) (s : State)

theorem useSlot_frame : Only [.cores] s (useSlot n p q cycle s) :=
  (useSlot_only n p q cycle s (.refl [.cores] s) (by simp)).only

theorem useSlot_core_self : (useSlot n p q cycle s).core n = { s.core n with
    used := (usedKeys n p q cycle s).foldl (fun m k => smSet 0 m (slotKey k) (cycle + 1)) (s.core n).used } := by
  rw [useSlot_eq]
  exact (foldl_markSlot n cycle _ s).1

theorem useSlot_core_ne {k : Nat} (hk : k ≠ n) : (useSlot n p q cycle s).core k = s.core k := by
  rw [useSlot_eq]
  exact (foldl_markSlot n cycle _ s).2 k hk

end Slot

/-! ### What an access finds and moves -/

theorem rdMarked_congr {s t : State} (hmem : t.mem = s.mem) (hpoison : t.poison = s.poison) (a n : Nat) :
    t.rdMarked a n = s.rdMarked a n := by
  rw [State.rdMarked, State.rdMem, hmem, hpoison, State.rdMarked, State.rdMem]

/-- A slot's use moves no byte. -/
theorem rdMarked_useSlot (n : Nat) (p : SpPort) (q : Option (Fin 4)) (cycle : Nat) (s : State) (a len : Nat) :
    (useSlot n p q cycle s).rdMarked a len = s.rdMarked a len :=
  rdMarked_congr ((useSlot_frame n p q cycle s).2 .mem (by decide)) ((useSlot_frame n p q cycle s).2 .poison (by decide)) a len

/-- A read that no upset disturbs. -/
theorem spRead_clean (s : State) (n : Nat) (g : SpGeom) :
    spRead s n g [] = ⟨g.trans.elim id (toTransposed g.rows.length)
      (g.rows.map (fun r => s.rdMarked (spAddr n (512 * r + g.lo)) g.len)).flatten, none, none⟩ := by
  have hrow (r : Nat) : rowRead s n g.lo g.len [] r = (s.rdMarked (spAddr n (512 * r + g.lo)) g.len, false, false) := rfl
  have hnone (f : Nat × Marked × Bool × Bool → Bool) (hf : ∀ r, f (r, rowRead s n g.lo g.len [] r) = false) :
      (g.rows.map (fun r => (r, rowRead s n g.lo g.len [] r))).find? f = none := by
    simp [List.find?_eq_none, hf]
  unfold spRead
  extract_lets rs l
  have hl : l = (g.rows.map (fun r => s.rdMarked (spAddr n (512 * r + g.lo)) g.len)).flatten := by
    simp only [l, rs, List.map_map]
    rfl
  rw [hnone _ fun r => by rw [hrow], hnone _ fun r => by rw [hrow], ← hl]
  cases g.trans <;> rfl

theorem spErrors_clean (n : Nat) (data : Marked) (s : State) : spErrors n ⟨data, none, none⟩ s = s := rfl

/-- The checks of a judged access: its bytes lie in the scratchpad and its alignment holds. -/
theorem of_spJudge {s : State} {n off : Nat} {kind : RKind} {q : Option (Fin 4)} {rg : Option RegionRef} {write : Bool}
    (h : spJudge s n kind off q rg write = 0) : off < 0xC0000 ∧ spVerdict kind off q write = 0 := by
  unfold spJudge at h
  by_cases hhole : 0xC0000 ≤ off
  · rw [if_pos hhole] at h
    dsimp only at h
    rw [if_pos (show eAddrHole ≠ 0 by decide)] at h
    exact absurd h (by decide)
  · rw [if_neg hhole] at h
    by_cases hverdict : spVerdict kind off q write = 0
    · exact ⟨by omega, hverdict⟩
    · rw [if_pos hverdict] at h
      exact absurd h hverdict

/-- An access that passes its checks is made in its slot. -/
theorem spAccess_granted {n : Nat} {a : SpAccess} {kind : RKind} {q : Option (Fin 4)} {s : State} {w : Bool}
    (hw : spWrites a = w)
    (hactive : s.weaveActive = true) (hq : q = (if s.partitioned n then a.quarter else none))
    (hpart : s.partitioned n = true → q.isSome = true) (hr : a.port ≠ .r) (hxi : a.port ≠ .xi) (hxo : a.port ≠ .xo)
    (hslot : s.ownsSlot n a.port q a.cycle = true) (hjudge : spJudge s n kind a.offset.toNat q a.region w = 0) :
    spAccess n a kind s =
      (if w then spDoWrite n a (spPlan s n kind a.offset.toNat q a.region w)
        (spBefore n a kind (spPlan s n kind a.offset.toNat q a.region w) (useSlot n a.port q a.cycle s))
      else spDoRead n a (spPlan s n kind a.offset.toNat q a.region w)
        (spBefore n a kind (spPlan s n kind a.offset.toNat q a.region w) (useSlot n a.port q a.cycle s))) := by
  have hverdict : partVerdict s n a.port kind q a.cycle = 0 := by
    unfold partVerdict
    cases hp : s.partitioned n with
    | false => rfl
    | true =>
      obtain ⟨x, rfl⟩ := Option.isSome_iff_exists.1 (hpart hp)
      rfl
  have hpeer (len : Nat) : peerVerdict s a len = 0 := by
    unfold peerVerdict
    split
    · next h _ => exact absurd h hxi
    · rfl
  have hready (len : Nat) : dmaReady s n a len = true := by
    unfold dmaReady
    split
    · next h _ => exact absurd h hxi
    · next h _ => exact absurd h hxo
    · rfl
  subst hw
  unfold spAccess
  simp only [← hq, hactive, hr, hslot, hjudge, hverdict, hpeer, hready, Bool.not_true, if_false, ne_eq, not_true_eq_false,
    Bool.false_eq_true]

/-! ### Marks of what is written (R273) -/

theorem bytesOf_map (l : List Byte) (bad : Bool) : bytesOf (l.map (fun b => (b, bad))) = l := by
  simp only [bytesOf, List.map_map]
  exact List.map_id l

theorem anyBad_map (l : List Byte) (bad : Bool) (h : l ≠ []) : anyBad (l.map (fun b => (b, bad))) = bad := by
  cases bad <;> simp [anyBad, List.eq_nil_iff_forall_not_mem] at h ⊢
  exact h

/-- A chunk that gets a mark is marked, and a mark stays where only marks are set. -/
theorem smGet_foldl_mark (cs : List Nat) : ∀ {m : SMap Bool}, smWf (fun _ => false) m = true → ∀ c,
    (smGet false m c = true ∨ c ∈ cs) → smGet false (cs.foldl (fun m c => smSet false m c true) m) c = true := by
  induction cs with
  | nil => exact fun _ c hc => hc.resolve_right (by simp)
  | cons b cs ih =>
    intro m hm c hc
    refine ih (smSet_wf (d := fun _ => false) hm) c ?_
    by_cases hcb : c = b
    · subst hcb
      exact .inl (smGet_smSet (d := fun _ => false) hm)
    · rw [smGet_smSet_ne (d := fun _ => false) hm hcb]
      exact hc.imp_right fun h => (List.mem_cons.1 h).resolve_left hcb

theorem poison_wf_foldl (bad : Bool) (cs : List Nat) : ∀ {m : SMap Bool}, smWf (fun _ => false) m = true →
    smWf (fun _ => false) (cs.foldl (fun m c => smSet false m c bad) m) = true := by
  induction cs with
  | nil => exact fun h => h
  | cons b cs ih => exact fun h => ih (smSet_wf (d := fun _ => false) h)

/-- Marked bytes leave every mark that stood. -/
theorem writeMarked_keeps_mark (n : Nat) : ∀ (a : Nat) (l : List Byte) (s : State), smWf (fun _ => false) s.poison = true →
    ∀ c, smGet false s.poison c = true → smGet false (writeMarked n a (l.map (fun b => (b, true))) s).poison c = true := by
  induction n with
  | zero => exact fun _ _ _ _ _ h => h
  | succ n ih =>
    intro a l s hwf c hc
    rw [writeMarked]
    split
    · exact hc
    · next hne =>
      obtain ⟨k, hk⟩ : ∃ k, k = 16 - a % 16 := ⟨_, rfl⟩
      have hl : l ≠ [] := by simpa using hne
      have hcut : l.take k ≠ [] := by
        simp only [ne_eq, List.take_eq_nil_iff, hl, or_false]
        omega
      dsimp only
      rw [← hk, ← List.map_drop, ← List.map_take, anyBad_map _ _ hcut, bytesOf_map]
      exact ih _ _ _ (poison_wf_foldl true _ hwf) c (smGet_foldl_mark _ hwf c (.inl hc))

/-- Bytes of one mark leave their chunks with that mark. -/
theorem poisoned_wrMarked {s : State} (h : Canon s) (a : Nat) {l : List Byte} (hne : l ≠ []) (bad : Bool) :
    (wrMarked a (l.map (fun b => (b, bad))) s).poisoned a l.length = bad := by
  cases bad with
  | false =>
    have hclean := (wrMarked_completes h a (l.map (fun b => (b, false)))).2.2.1 (anyBad_map l false hne)
    rwa [List.length_map] at hclean
  | true =>
    have hpos : 0 < l.length := List.length_pos_iff.2 hne
    rw [State.poisoned, List.any_eq_true]
    refine ⟨a / 16, ?_, ?_⟩
    · rw [chunks, if_neg (by omega), List.mem_map]
      exact ⟨0, List.mem_range.2 (by omega), by omega⟩
    · obtain ⟨n, hn⟩ : ∃ n, l.length = n + 1 := ⟨l.length - 1, by omega⟩
      obtain ⟨k, hk⟩ : ∃ k, k = 16 - a % 16 := ⟨_, rfl⟩
      have hcut : l.take k ≠ [] := by
        simp only [ne_eq, List.take_eq_nil_iff, hne, or_false]
        omega
      have hlen : 0 < (l.take k).length := List.length_pos_iff.2 hcut
      rw [wrMarked, anyBad_map l true hne, if_pos rfl, List.length_map, hn, writeMarked, if_neg (by simpa using hne)]
      dsimp only
      rw [← hk, ← List.map_drop, ← List.map_take, anyBad_map _ _ hcut, bytesOf_map]
      refine writeMarked_keeps_mark n _ _ _ (poison_wf_foldl true _ h.poison) _ (smGet_foldl_mark _ h.poison _ (.inr ?_))
      rw [chunks, if_neg (by omega), List.mem_map]
      exact ⟨0, List.mem_range.2 (by omega), by omega⟩

/-! ### Rows (R154) -/

theorem useSlot_canon {s : State} (hs : Canon s) (n : Nat) (p : SpPort) (q : Option (Fin 4)) (cycle : Nat) :
    Canon (useSlot n p q cycle s) := (useSlot_only n p q cycle s (.refl [.cores] s) (by simp)).canon hs

/-- A write of the port's own data. -/
theorem spDoWrite_own {n : Nat} {a : SpAccess} (hxi : a.port ≠ .xi) (hregion : a.region = none) (g : SpGeom) (s : State) :
    spDoWrite n a g s = spWrite n g (a.data.map (fun b => (b, a.bad))) s := by
  unfold spDoWrite
  simp only [hregion]
  split
  · next h _ => exact absurd h hxi
  · rfl

/-- A write of the port's own data through a region. -/
theorem spDoWrite_region {n : Nat} {a : SpAccess} {r : RegionRef} (hxi : a.port ≠ .xi) (hregion : a.region = some r) (g : SpGeom)
    (s : State) : spDoWrite n a g s = rgnAdvance n r true (spWrite n g (a.data.map (fun b => (b, a.bad))) s) := by
  unfold spDoWrite
  simp only [hregion]
  split
  · next h _ => exact absurd h hxi
  · rfl

/-- A read for the port itself, with no upset. -/
theorem spDoRead_own {n : Nat} {a : SpAccess} (hxo : a.port ≠ .xo) (hregion : a.region = none) (hups : a.upsets = []) (g : SpGeom)
    (s : State) : spDoRead n a g s = s.emit (.spData n (spRead s n g []).data) := by
  unfold spDoRead
  rw [hups, spRead_clean]
  simp only [hregion, spErrors_clean]
  split
  · next h _ => exact absurd h hxo
  · rfl

/-- A row, written in one piece. -/
theorem spWrite_row (n r lo : Nat) {len : Nat} {l : Marked} (hlen : l.length = len) (s : State) :
    spWrite n ⟨[r], lo, len, none, none⟩ l s = wrMarked (spAddr n (512 * r + lo)) l s := by
  have htake : (l.drop (len * 0)).take len = l := by
    rw [Nat.mul_zero, List.drop_zero, List.take_of_length_le (by omega)]
  exact congrArg (fun x => wrMarked (spAddr n (512 * r + lo)) x s) htake

/-- Bytes of a row or of a quarter's part of it. -/
def rowLen (q : Option (Fin 4)) : Nat := if q.isSome then 128 else 512

/-- First byte in its row of a row access. -/
def rowLo (q : Option (Fin 4)) (off : Nat) : Nat := if q.isSome then off % 512 else 0

theorem rowLen_pos (q : Option (Fin 4)) : 0 < rowLen q := by
  unfold rowLen
  split <;> decide

theorem spPlan_row (s : State) (n off : Nat) (q : Option (Fin 4)) (write : Bool) :
    spPlan s n .row off q none write = ⟨[off / 512], rowLo q off, rowLen q, none, none⟩ := rfl

/-- An aligned row access starts at its offset. -/
theorem rowLo_eq {off : Nat} {q : Option (Fin 4)} {write : Bool} (h : spVerdict .row off q write = 0) :
    512 * (off / 512) + rowLo q off = off := by
  unfold spVerdict at h
  dsimp only at h
  unfold rowLo
  cases q with
  | some x => simp only [Option.isSome_some, if_true]; omega
  | none =>
    by_cases halign : off % 512 = 0
    · simp only [Option.isSome_none, Bool.false_eq_true, if_false]
      omega
    · simp only [Option.isSome_none, Bool.false_eq_true, if_false] at h
      rw [if_pos halign] at h
      exact absurd h (by decide)

/-- What ADVANCE leaves in the pointer's register (R163). -/
theorem rgnAdvance_reads {m : Nat} {r : RegionRef} {t : State} (hwf : smWf resetVal t.regs = true) :
    (rgnAdvance m r true t).fld (Reg.coreSpRgnTail m r.region.val) 0 12 = (if r.advance = 0
      then t.fld (Reg.coreSpRgnTail m r.region.val) 0 12
      else ((t.fld (Reg.coreSpRgnTail m r.region.val) 0 12 + r.advance) % (2 * t.rgnLen m r.region.val)) % 2 ^ 12) ∧
    Only [.regs] t (rgnAdvance m r true t) ∧ RegMoves [Reg.coreSpRgnTail m r.region.val] t (rgnAdvance m r true t) := by
  unfold rgnAdvance
  by_cases hadv : r.advance = 0
  · rw [if_pos hadv, if_pos hadv]
    exact ⟨rfl, .refl _ t, .refl _ hwf⟩
  · simp only [if_neg hadv, if_true]
    refine ⟨?_, only_iff.2 (by simp), (RegMoves.refl _ hwf).setFld _ _ _ (by simp)⟩
    rw [fld_eq_bits, State.setFld, reg_setReg hwf, bits_putBits _ _ _ _ (by decide)]

/-! ### Chunks (R154, R155) -/

/-- Chunks are written one after the other, `st` bytes apart. -/
def writeChunks (base st : Nat) (d : Nat → Marked) (l : List Nat) (s : State) : State :=
  l.foldl (fun s i => wrMarked (base + st * i) (d i) s) s

/-- Chunks that do not meet read back, and no other byte changes. -/
theorem writeChunks_reads {base st : Nat} {d : Nat → Marked} (hst : 16 ≤ st) : ∀ (l : List Nat) {s : State}, Canon s → l.Nodup →
    (∀ i ∈ l, (d i).length = 16) →
    (∀ i ∈ l, (writeChunks base st d l s).rdMem (base + st * i) 16 = bytesOf (d i)) ∧
    (∀ x k, (∀ i ∈ l, x + k ≤ base + st * i ∨ base + st * i + 16 ≤ x) → (writeChunks base st d l s).rdMem x k = s.rdMem x k) ∧
    Only [.mem, .poison] s (writeChunks base st d l s) := by
  intro l
  induction l with
  | nil => exact fun _ _ _ => ⟨by simp, fun _ _ _ => rfl, .refl _ _⟩
  | cons a l ih =>
    intro s hs hnodup hlen
    obtain ⟨hnew, hrest⟩ := List.nodup_cons.1 hnodup
    obtain ⟨u, hu⟩ : ∃ u, u = wrMarked (base + st * a) (d a) s := ⟨_, rfl⟩
    have hcanon : Canon u := by rw [hu]; exact (wrMarked_only _ _ s (.refl [.mem, .poison] s) (by simp)).canon hs
    obtain ⟨hmoves, hhead, -, honly⟩ := wrMarked_completes hs (base + st * a) (d a)
    rw [hlen a (by simp), ← hu] at hmoves hhead
    rw [← hu] at honly
    obtain ⟨hreads, hkeeps, hframe⟩ := ih hcanon hrest fun i hi => hlen i (List.mem_cons_of_mem a hi)
    have hstep : writeChunks base st d (a :: l) s = writeChunks base st d l u := by rw [hu]; rfl
    rw [hstep]
    refine ⟨fun i hi => ?_, fun x k hout => ?_, honly.trans hframe⟩
    · by_cases hil : i ∈ l
      · exact hreads i hil
      · obtain rfl : i = a := (List.mem_cons.1 hi).resolve_right hil
        refine (hkeeps _ _ fun j hj => ?_).trans hhead
        have hne : i ≠ j := fun h => hnew (h ▸ hj)
        rcases Nat.lt_or_gt_of_ne hne with hlt | hgt
        · have := Nat.mul_le_mul_left st (Nat.succ_le_of_lt hlt)
          rw [Nat.mul_succ] at this
          omega
        · have := Nat.mul_le_mul_left st (Nat.succ_le_of_lt hgt)
          rw [Nat.mul_succ] at this
          omega
    · rw [hkeeps x k fun i hi => hout i (List.mem_cons_of_mem a hi), hmoves.rdMem_eq (hout a (by simp))]

/-- A chunk of data, with its mark. -/
def chunkOf (data : List Byte) (bad : Bool) (i : Nat) : Marked := ((data.map (fun b => (b, bad))).drop (16 * i)).take 16

theorem bytesOf_chunkOf (data : List Byte) (bad : Bool) (i : Nat) : bytesOf (chunkOf data bad i) = (data.drop (16 * i)).take 16 := by
  rw [chunkOf, ← List.map_drop, ← List.map_take, bytesOf_map]

theorem chunkOf_length {data : List Byte} {n i : Nat} (hlen : data.length = 16 * n) (hi : i < n) (bad : Bool) :
    (chunkOf data bad i).length = 16 := by
  simp only [chunkOf, List.length_take, List.length_drop, List.length_map, hlen]
  omega

/-! ### The gather buffer before other accesses (R159) -/

/-- With no written bytes in the gather buffer nothing precedes an access. -/
theorem gBefore_clean {n : Nat} {s : State} (hclean : (s.core n).gDirty = 0) (g : SpGeom) : gBefore n g s = s := by
  have hflush : gFlush n s = s := by rw [gFlush, if_pos hclean]
  unfold gBefore
  split
  · rfl
  · rw [hflush, ite_self]

/-! ### Columns (R155) -/

theorem length_flatten_map_range {α : Type} {n k : Nat} {f : Nat → List α} (hf : ∀ i < n, (f i).length = k) :
    ((List.range n).map f).flatten.length = n * k := by
  induction n with
  | zero => simp
  | succ n ih =>
    rw [List.range_succ, List.map_append, List.flatten_append, List.length_append, ih fun i hi => hf i (by omega), Nat.succ_mul]
    simp [hf n (by omega)]

theorem fromTransposed_map {α β : Type} (f : α → β) (n e : Nat) (l : List α) :
    fromTransposed n e (l.map f) = (fromTransposed n e l).map f := by
  simp only [fromTransposed, List.map_flatten, List.map_map, ← List.map_drop, ← List.map_take, Function.comp_def]

theorem fromTransposed_length {α : Type} {n e : Nat} {l : List α} (he : e = 1 ∨ e = 2 ∨ e = 4) (hl : l.length = 16 * n) :
    (fromTransposed n e l).length = 16 * n := by
  have hchunk : ∀ i < n, (((List.range (16 / e)).map (fun j => (l.drop (e * (j * n + i))).take e)).flatten).length = 16 := by
    intro i hi
    have hfull : 16 / e * e = 16 := by rcases he with rfl | rfl | rfl <;> rfl
    refine (length_flatten_map_range (k := e) fun j hj => ?_).trans hfull
    have hpos : e * (j * n + i) + e ≤ 16 * n := by
      have hrow : j * n + i + 1 ≤ (16 / e) * n := by
        have := Nat.mul_le_mul_right n (Nat.succ_le_of_lt hj)
        rw [Nat.succ_mul] at this
        omega
      calc e * (j * n + i) + e = e * (j * n + i + 1) := by rw [Nat.mul_succ]
        _ ≤ e * ((16 / e) * n) := Nat.mul_le_mul_left e hrow
        _ = 16 * n := by rw [← Nat.mul_assoc, Nat.mul_comm e, hfull]
    rw [List.length_take, List.length_drop, hl]
    omega
  rw [fromTransposed, length_flatten_map_range hchunk, Nat.mul_comm]

theorem zipIdx_map_range {α : Type} (f : Nat → α) (n : Nat) :
    ((List.range n).map f).zipIdx = (List.range n).map (fun i => (f i, i)) := by
  apply List.ext_getElem
  · simp
  · simp

/-- The rows of a column, and its place in them. -/
theorem spPlan_column (s : State) (n off : Nat) (tr : Bool) (e : Nat) (q : Option (Fin 4)) (write : Bool) :
    spPlan s n (.column tr e) off q none write =
      ⟨(List.range (colRows q.isSome)).map (fun k => off / 512 + k), off % 512 / 16 * 16, 16, none, if tr then some e else none⟩ := rfl

/-- An aligned column starts at its offset, with elements of 1, 2 or 4 bytes. -/
theorem column_aligned {off e : Nat} {tr : Bool} {q : Option (Fin 4)} {write : Bool} (h : spVerdict (.column tr e) off q write = 0) :
    (∀ i, 512 * (off / 512 + i) + off % 512 / 16 * 16 = off + 512 * i) ∧ (e = 1 ∨ e = 2 ∨ e = 4) := by
  unfold spVerdict at h
  dsimp only at h
  by_cases hbad : off % 16 ≠ 0 ∨ (e ≠ 1 ∧ e ≠ 2 ∧ e ≠ 4)
  · rw [if_pos hbad] at h
    exact absurd h (by decide)
  · exact ⟨fun i => by omega, by omega⟩

section Row

variable {n : Fin 16} {a : SpAccess} {q : Option (Fin 4)} {s : State} (hactive : s.weaveActive = true)
  (hr : a.port ≠ .r) (hxi : a.port ≠ .xi) (hxo : a.port ≠ .xo)
include hactive hr hxi hxo

theorem completes_spRow_write (hs : Canon s) (hq : q = (if s.partitioned n.val then a.quarter else none))
    (hpart : s.partitioned n.val = true → q.isSome = true) (hregion : a.region = none)
    (hlen : a.data.length = (if q.isSome then 128 else 512)) (hslot : s.ownsSlot n.val a.port q a.cycle = true)
    (hjudge : spJudge s n.val .row a.offset.toNat q none true = 0) :
    Completes (.spRow n a) s (fun t =>
      t.rdMem (spAddr n.val a.offset.toNat) a.data.length = a.data ∧
      t.poisoned (spAddr n.val a.offset.toNat) a.data.length = a.bad ∧
      BytesOnly (spAddr n.val a.offset.toNat) a.data.length s t ∧
      t.cores = (useSlot n.val a.port q a.cycle s).cores ∧ Only [.cores, .mem, .poison] s t) := by
  have hlen' : a.data.length = rowLen q := hlen
  have hne : a.data ≠ [] := List.length_pos_iff.1 (by rw [hlen']; exact rowLen_pos q)
  have hplace := rowLo_eq (of_spJudge hjudge).2
  obtain ⟨u, hu⟩ : ∃ u, u = useSlot n.val a.port q a.cycle s := ⟨_, rfl⟩
  have hcanon : Canon u := by rw [hu]; exact useSlot_canon hs ..
  have hframe : Only [.cores] s u := by rw [hu]; exact useSlot_frame ..
  obtain ⟨hmoves, hreads, -, honly⟩ := wrMarked_completes hcanon (spAddr n.val a.offset.toNat) (a.data.map (fun b => (b, a.bad)))
  have hpoison := poisoned_wrMarked hcanon (spAddr n.val a.offset.toNat) hne a.bad
  have hexec : exec (.spRow n a) s = .next (wrMarked (spAddr n.val a.offset.toNat) (a.data.map (fun b => (b, a.bad))) u) := by
    have hw : spWrites a = true := by simp [spWrites, hne]
    refine congrArg Host.Outcome.next ?_
    rw [spAccess_granted hw hactive hq hpart hr hxi hxo hslot (by rw [hregion]; exact hjudge), if_pos rfl, hregion, spPlan_row,
      spDoWrite_own hxi hregion, ← hu, spWrite_row _ _ _ (by rw [List.length_map]; exact hlen'), hplace]
    have hbefore : spBefore n.val a .row ⟨[a.offset.toNat / 512], rowLo q a.offset.toNat, rowLen q, none, none⟩ u = u := by
      unfold spBefore
      simp [hxi, hxo]
    rw [hbefore]
  rw [List.length_map] at hmoves hreads
  refine completes_of_next hexec ⟨by rw [hreads, bytesOf_map], hpoison, fun x hx => ?_, ?_, ?_⟩
  · rw [hmoves.only x hx, State.rdMem, hframe.2 .mem (by decide), State.rdMem]
  · rw [honly.2 .cores (by decide), hu]
  · exact (hframe.mono (by simp)).trans (honly.mono (by simp))

theorem completes_spRow_read (hq : q = (if s.partitioned n.val then a.quarter else none))
    (hpart : s.partitioned n.val = true → q.isSome = true) (hregion : a.region = none) (hdata : a.data = [])
    (hups : a.upsets = []) (hslot : s.ownsSlot n.val a.port q a.cycle = true)
    (hjudge : spJudge s n.val .row a.offset.toNat q none false = 0) :
    Completes (.spRow n a) s (fun t =>
      t.out = s.out ++ [.spData n.val (s.rdMarked (spAddr n.val a.offset.toNat) (if q.isSome then 128 else 512))] ∧
      t.cores = (useSlot n.val a.port q a.cycle s).cores ∧ Only [.out, .cores] s t) := by
  have hplace := rowLo_eq (of_spJudge hjudge).2
  obtain ⟨u, hu⟩ : ∃ u, u = useSlot n.val a.port q a.cycle s := ⟨_, rfl⟩
  have hframe : Only [.cores] s u := by rw [hu]; exact useSlot_frame ..
  have hexec : exec (.spRow n a) s =
      .next (u.emit (.spData n.val (s.rdMarked (spAddr n.val a.offset.toNat) (if q.isSome then 128 else 512)))) := by
    have hw : spWrites a = false := by simp [spWrites, hdata, hxi]
    have hbefore : spBefore n.val a .row ⟨[a.offset.toNat / 512], rowLo q a.offset.toNat, rowLen q, none, none⟩ u = u := by
      unfold spBefore
      simp [hxi, hxo]
    have hread : (spRead u n.val ⟨[a.offset.toNat / 512], rowLo q a.offset.toNat, rowLen q, none, none⟩ []).data =
        s.rdMarked (spAddr n.val a.offset.toNat) (if q.isSome then 128 else 512) := by
      rw [spRead_clean]
      simp only [List.map_cons, List.map_nil, List.flatten_cons, List.flatten_nil, List.append_nil, Option.elim, id_eq, hplace, hu,
        rdMarked_useSlot]
      rfl
    refine congrArg Host.Outcome.next ?_
    rw [spAccess_granted hw hactive hq hpart hr hxi hxo hslot (by rw [hregion]; exact hjudge), if_neg Bool.false_ne_true, hregion,
      spPlan_row, spDoRead_own hxo hregion hups, ← hu, hbefore, hread]
  refine completes_of_next hexec ⟨?_, by rw [hu]; rfl, (hframe.mono (by simp)).trans (only_iff.2 (by simp))⟩
  show u.out ++ _ = _
  rw [hframe.2 .out (by decide)]

theorem completes_spRow_region {r : RegionRef} (hs : Canon s) (hshared : s.partitioned n.val = false) (hregion : a.region = some r)
    (hlen : a.data.length = 512) (hrgn : s.rgnLen n.val r.region.val ≠ 0) (hslot : s.ownsSlot n.val a.port none a.cycle = true)
    (hjudge : spJudge s n.val .row a.offset.toNat none (some r) true = 0) :
    Completes (.spRow n a) s (fun t =>
      t.rdMem (spAddr n.val (512 * rgnRow s n.val r true 0)) 512 = a.data ∧
      BytesOnly (spAddr n.val (512 * rgnRow s n.val r true 0)) 512 s t ∧
      t.fld (Reg.coreSpRgnTail n.val r.region.val) 0 12 = (if r.advance = 0
        then s.fld (Reg.coreSpRgnTail n.val r.region.val) 0 12
        else (s.fld (Reg.coreSpRgnTail n.val r.region.val) 0 12 + r.advance) % (2 * s.rgnLen n.val r.region.val)) ∧
      Only [.regs, .cores, .mem, .poison] s t ∧ RegsOnly [Reg.coreSpRgnTail n.val r.region.val] s t) := by
  have hne : a.data ≠ [] := List.length_pos_iff.1 (by omega)
  obtain ⟨u, hu⟩ : ∃ u, u = useSlot n.val a.port none a.cycle s := ⟨_, rfl⟩
  have hcanon : Canon u := by rw [hu]; exact useSlot_canon hs ..
  have hframe : Only [.cores] s u := by rw [hu]; exact useSlot_frame ..
  obtain ⟨b, hb⟩ : ∃ b, b = spAddr n.val (512 * rgnRow s n.val r true 0) := ⟨_, rfl⟩
  obtain ⟨v, hv⟩ : ∃ v, v = wrMarked b (a.data.map (fun b => (b, a.bad))) u := ⟨_, rfl⟩
  obtain ⟨hmoves, hreads, -, honly⟩ := wrMarked_completes hcanon b (a.data.map (fun b => (b, a.bad)))
  rw [List.length_map, hlen, ← hv] at hmoves hreads
  rw [← hv] at honly
  have hregs : v.regs = s.regs := (honly.2 .regs (by decide)).1.trans (hframe.2 .regs (by decide)).1
  obtain ⟨htail, hadv, hrm⟩ := rgnAdvance_reads (m := n.val) (r := r) (t := v) (by rw [hregs]; exact hs.regs)
  have hexec : exec (.spRow n a) s = .next (rgnAdvance n.val r true v) := by
    have hw : spWrites a = true := by simp [spWrites, hne]
    have hbefore (g : SpGeom) : spBefore n.val a .row g u = u := by
      unfold spBefore
      simp [hxi, hxo]
    have hplan : spPlan s n.val .row a.offset.toNat none (some r) true = ⟨[rgnRow s n.val r true 0], 0, 512, none, none⟩ := rfl
    refine congrArg Host.Outcome.next ?_
    rw [spAccess_granted (q := none) hw hactive (by rw [hshared, if_neg Bool.false_ne_true]) (fun h => absurd (hshared.symm.trans h) (by decide)) hr
      hxi hxo hslot (by rw [hregion]; exact hjudge), if_pos rfl, hregion, hplan, spDoWrite_region hxi hregion, ← hu, hbefore,
      spWrite_row _ _ _ (by rw [List.length_map]; exact hlen), Nat.add_zero, ← hb, ← hv]
  have hsmall : 2 * s.rgnLen n.val r.region.val < 2 ^ 12 := by
    have hrow : s.rgnLen n.val r.region.val < 2 ^ 11 := Nat.mod_lt _ (by decide)
    omega
  have hrdMem (x k : Nat) : (rgnAdvance n.val r true v).rdMem x k = v.rdMem x k := by
    rw [State.rdMem, hadv.2 .mem (by decide), State.rdMem]
  rw [← hb]
  refine completes_of_next hexec ⟨by rw [hrdMem, hreads, bytesOf_map], fun x hx => ?_, ?_, ?_, ?_⟩
  · rw [hrdMem, hmoves.only x hx, State.rdMem, hframe.2 .mem (by decide), State.rdMem]
  · have hlen' : v.rgnLen n.val r.region.val = s.rgnLen n.val r.region.val := fld_eq_of_regs_eq hregs ..
    rw [htail, hlen', fld_eq_of_regs_eq hregs, Nat.mod_eq_of_lt (Nat.lt_trans (Nat.mod_lt _ (by omega)) hsmall)]
  · exact (hframe.mono (by simp)).trans ((honly.mono (by simp)).trans (hadv.mono (by simp)))
  · intro off hoff
    rw [hrm.only off hoff, reg_eq_of_regs_eq hregs]

theorem completes_spRowMasked {m : BitVec 32} (hs : Canon s) (hq : q = (if s.partitioned n.val then a.quarter else none))
    (hpart : s.partitioned n.val = true → q.isSome = true) (hregion : a.region = none) (hlen : a.data.length = 512)
    (hslot : s.ownsSlot n.val a.port q a.cycle = true)
    (hjudge : spJudge s n.val (.rowMasked m) a.offset.toNat q none true = 0) :
    Completes (.spRowMasked n a m) s (fun t =>
      (∀ k < 32, t.rdMem (spAddr n.val a.offset.toNat + 16 * k) 16 =
        if m.getLsbD k then (a.data.drop (16 * k)).take 16
        else s.rdMem (spAddr n.val a.offset.toNat + 16 * k) 16) ∧
      BytesOnly (spAddr n.val a.offset.toNat) 512 s t ∧
      t.cores = (useSlot n.val a.port q a.cycle s).cores ∧ Only [.cores, .mem, .poison] s t) := by
  have hne : a.data ≠ [] := List.length_pos_iff.1 (by omega)
  have halign : 512 * (a.offset.toNat / 512) = a.offset.toNat := by
    have hverdict := (of_spJudge hjudge).2
    unfold spVerdict at hverdict
    dsimp only at hverdict
    by_cases hoff : a.offset.toNat % 512 = 0
    · omega
    · rw [if_pos (.inl hoff)] at hverdict
      exact absurd hverdict (by decide)
  obtain ⟨u, hu⟩ : ∃ u, u = useSlot n.val a.port q a.cycle s := ⟨_, rfl⟩
  have hcanon : Canon u := by rw [hu]; exact useSlot_canon hs ..
  have hframe : Only [.cores] s u := by rw [hu]; exact useSlot_frame ..
  have hmem (x k : Nat) : u.rdMem x k = s.rdMem x k := by rw [State.rdMem, hframe.2 .mem (by decide), State.rdMem]
  obtain ⟨t, ht⟩ : ∃ t, t = writeChunks (spAddr n.val a.offset.toNat) 16 (chunkOf a.data a.bad)
    ((List.range 32).filter (fun c => m.getLsbD c)) u := ⟨_, rfl⟩
  obtain ⟨hreads, hkeeps, honly⟩ := writeChunks_reads (base := spAddr n.val a.offset.toNat) (d := chunkOf a.data a.bad) (le_refl 16)
    ((List.range 32).filter (fun c => m.getLsbD c)) hcanon (List.nodup_range.filter _)
    fun i hi => chunkOf_length (n := 32) hlen (List.mem_range.1 (List.mem_filter.1 hi).1) a.bad
  rw [← ht] at hreads hkeeps honly
  have hexec : exec (.spRowMasked n a m) s = .next t := by
    have hw : spWrites a = true := by simp [spWrites, hne]
    have hbefore (g : SpGeom) : spBefore n.val a (.rowMasked m) g u = u := by
      unfold spBefore
      simp [hxi, hxo]
    have hplan : spPlan s n.val (.rowMasked m) a.offset.toNat q none true = ⟨[a.offset.toNat / 512], 0, 512, some m, none⟩ := rfl
    have hwrite : spWrite n.val ⟨[a.offset.toNat / 512], 0, 512, some m, none⟩ (a.data.map (fun b => (b, a.bad))) u = t := by
      have hbase : spAddr n.val a.offset.toNat = spAddr n.val (512 * (a.offset.toNat / 512)) := by rw [halign]
      rw [ht, writeChunks, List.foldl_filter, hbase]
      rfl
    refine congrArg Host.Outcome.next ?_
    rw [spAccess_granted hw hactive hq hpart hr hxi hxo hslot (by rw [hregion]; exact hjudge), if_pos rfl, hregion, hplan,
      spDoWrite_own hxi hregion, ← hu, hbefore, hwrite]
  refine completes_of_next hexec ⟨fun k hk => ?_, fun x hx => ?_, ?_, (hframe.mono (by simp)).trans (honly.mono (by simp))⟩
  · by_cases hbit : m.getLsbD k = true
    · rw [if_pos hbit, hreads k (List.mem_filter.2 ⟨List.mem_range.2 hk, hbit⟩), bytesOf_chunkOf]
    · rw [if_neg hbit, hkeeps, hmem]
      intro i hi
      have hne : i ≠ k := fun h => hbit (h ▸ (List.mem_filter.1 hi).2)
      omega
  · rw [hkeeps, hmem]
    intro i hi
    have hlt := List.mem_range.1 (List.mem_filter.1 hi).1
    omega
  · rw [honly.2 .cores (by decide), hu]

theorem completes_spColumn_read {tr : Bool} {e : Nat} (hq : q = (if s.partitioned n.val then a.quarter else none))
    (hpart : s.partitioned n.val = true → q.isSome = true) (hclean : (s.core n.val).gDirty = 0)
    (hregion : a.region = none) (hdata : a.data = []) (hups : a.upsets = []) (hslot : s.ownsSlot n.val a.port q a.cycle = true)
    (hjudge : spJudge s n.val (.column tr e) a.offset.toNat q none false = 0) :
    Completes (.spColumn n a tr e) s (fun t =>
      t.out = s.out ++ [.spData n.val ((if tr then toTransposed (colRows q.isSome) e else id)
        ((List.range (colRows q.isSome)).map (fun i =>
          s.rdMarked (spAddr n.val (a.offset.toNat + 512 * i)) 16)).flatten)] ∧
      t.cores = (useSlot n.val a.port q a.cycle s).cores ∧ Only [.out, .cores] s t) := by
  obtain ⟨hplace, -⟩ := column_aligned (of_spJudge hjudge).2
  obtain ⟨u, hu⟩ : ∃ u, u = useSlot n.val a.port q a.cycle s := ⟨_, rfl⟩
  have hframe : Only [.cores] s u := by rw [hu]; exact useSlot_frame ..
  obtain ⟨l, hl⟩ : ∃ l, l = (if tr then toTransposed (colRows q.isSome) e else id)
    ((List.range (colRows q.isSome)).map (fun i => s.rdMarked (spAddr n.val (a.offset.toNat + 512 * i)) 16)).flatten := ⟨_, rfl⟩
  have hread : (spRead u n.val (spPlan s n.val (.column tr e) a.offset.toNat q none false) []).data = l := by
    rw [spRead_clean, spPlan_column]
    simp only [List.map_map, Function.comp_def, List.length_map, List.length_range, hplace, hu, rdMarked_useSlot, hl]
    cases tr <;> rfl
  have hexec : exec (.spColumn n a tr e) s = .next (u.emit (.spData n.val l)) := by
    have hw : spWrites a = false := by simp [spWrites, hdata, hxi]
    have hbefore (g : SpGeom) : spBefore n.val a (.column tr e) g u = u :=
      gBefore_clean (by rw [hu, useSlot_core_self]; exact hclean) g
    refine congrArg Host.Outcome.next ?_
    rw [spAccess_granted hw hactive hq hpart hr hxi hxo hslot (by rw [hregion]; exact hjudge), if_neg Bool.false_ne_true, hregion,
      spDoRead_own hxo hregion hups, ← hu, hbefore, hread]
  rw [← hl]
  refine completes_of_next hexec ⟨?_, by rw [hu]; rfl, (hframe.mono (by simp)).trans (only_iff.2 (by simp))⟩
  show u.out ++ _ = _
  rw [hframe.2 .out (by decide)]

theorem completes_spColumn_write {tr : Bool} {e : Nat} (hs : Canon s) (hq : q = (if s.partitioned n.val then a.quarter else none))
    (hpart : s.partitioned n.val = true → q.isSome = true) (hclean : (s.core n.val).gDirty = 0) (hregion : a.region = none)
    (hlen : a.data.length = 16 * colRows q.isSome) (hslot : s.ownsSlot n.val a.port q a.cycle = true)
    (hjudge : spJudge s n.val (.column tr e) a.offset.toNat q none true = 0) :
    Completes (.spColumn n a tr e) s (fun t =>
      (∀ i < colRows q.isSome, t.rdMem (spAddr n.val (a.offset.toNat + 512 * i)) 16 =
        ((if tr then fromTransposed (colRows q.isSome) e a.data else a.data).drop (16 * i)).take 16) ∧
      (∀ x, (∀ i < colRows q.isSome, x < spAddr n.val (a.offset.toNat + 512 * i) ∨
          spAddr n.val (a.offset.toNat + 512 * i) + 16 ≤ x) → t.rdMem x 1 = s.rdMem x 1) ∧
      t.cores = (useSlot n.val a.port q a.cycle s).cores ∧ Only [.cores, .mem, .poison] s t) := by
  have hpos : 0 < colRows q.isSome := by
    unfold colRows
    split <;> decide
  have hne : a.data ≠ [] := List.length_pos_iff.1 (by omega)
  obtain ⟨hplace, hesize⟩ := column_aligned (of_spJudge hjudge).2
  obtain ⟨u, hu⟩ : ∃ u, u = useSlot n.val a.port q a.cycle s := ⟨_, rfl⟩
  have hcanon : Canon u := by rw [hu]; exact useSlot_canon hs ..
  have hframe : Only [.cores] s u := by rw [hu]; exact useSlot_frame ..
  have hmem (x k : Nat) : u.rdMem x k = s.rdMem x k := by rw [State.rdMem, hframe.2 .mem (by decide), State.rdMem]
  obtain ⟨d, hd⟩ : ∃ d, d = if tr then fromTransposed (colRows q.isSome) e a.data else a.data := ⟨_, rfl⟩
  have hdlen : d.length = 16 * colRows q.isSome := by
    rw [hd]
    split
    · exact fromTransposed_length hesize hlen
    · exact hlen
  have haddr (i : Nat) : spAddr n.val a.offset.toNat + 512 * i = spAddr n.val (a.offset.toNat + 512 * i) := Nat.add_assoc ..
  obtain ⟨t, ht⟩ : ∃ t, t = writeChunks (spAddr n.val a.offset.toNat) 512 (chunkOf d a.bad) (List.range (colRows q.isSome)) u := ⟨_, rfl⟩
  obtain ⟨hreads, hkeeps, honly⟩ := writeChunks_reads (base := spAddr n.val a.offset.toNat) (st := 512) (d := chunkOf d a.bad)
    (by decide) (List.range (colRows q.isSome)) hcanon List.nodup_range fun i hi => chunkOf_length hdlen (List.mem_range.1 hi) a.bad
  rw [← ht] at hreads hkeeps honly
  have hwrite : spWrite n.val (spPlan s n.val (.column tr e) a.offset.toNat q none true) (a.data.map (fun b => (b, a.bad))) u = t := by
    have hdata : (if tr then fromTransposed (colRows q.isSome) e (a.data.map (fun b => (b, a.bad))) else a.data.map (fun b => (b, a.bad))) =
        d.map (fun b => (b, a.bad)) := by
      rw [hd, fromTransposed_map]
      split <;> rfl
    rw [spPlan_column]
    unfold spWrite
    dsimp only
    rw [zipIdx_map_range, List.foldl_map, ht, writeChunks, List.length_map, List.length_range]
    simp only [hplace, haddr, chunkOf, ← hdata]
    cases tr <;> rfl
  have hexec : exec (.spColumn n a tr e) s = .next t := by
    have hw : spWrites a = true := by simp [spWrites, hne]
    have hbefore (g : SpGeom) : spBefore n.val a (.column tr e) g u = u :=
      gBefore_clean (by rw [hu, useSlot_core_self]; exact hclean) g
    refine congrArg Host.Outcome.next ?_
    rw [spAccess_granted hw hactive hq hpart hr hxi hxo hslot (by rw [hregion]; exact hjudge), if_pos rfl, hregion,
      spDoWrite_own hxi hregion, ← hu, hbefore, hwrite]
  refine completes_of_next hexec ⟨fun i hi => ?_, fun x hx => ?_, by rw [honly.2 .cores (by decide), hu],
    (hframe.mono (by simp)).trans (honly.mono (by simp))⟩
  · rw [← haddr, hreads i (List.mem_range.2 hi), bytesOf_chunkOf, hd]
  · rw [hkeeps, hmem]
    intro i hi
    have hout := hx i (List.mem_range.1 hi)
    rw [← haddr] at hout
    omega

end Row

end Sys2Proof.Machine
end

section
/-!
PROOFS. Gather.lean: the gather buffer of a core, its NARROW accesses and its slots (R159).
-/

namespace Sys2Proof.Machine

/-! ### NARROW accesses -/

section Narrow

variable {n : Fin 16} {a : SpAccess} {len : Nat} {s : State} (hactive : s.weaveActive = true) (hwait : (s.core n.val).gWait = none)
  (hport : a.port = .g) (hfits : a.offset.toNat % 64 + len ≤ 64) (hlen : len ≠ 0) (hrange : a.offset.toNat < 0xC0000)
  (hseg : s.segOn n.val (a.offset.toNat / 512) = true)
include hactive hwait hport hfits hlen hrange hseg

/-- A NARROW access that passes its checks is served from the held block, or waits for its own. -/
theorem spNarrow_granted : spNarrow n.val a len s =
    (if (s.core n.val).gTag = some (a.offset.toNat / 64) then gServe n.val a len a.cycle s
    else s.setCore n.val { s.core n.val with gWait := some (a, len) }) := by
  have hbad : ¬ (a.port ≠ .g ∨ 64 < a.offset.toNat % 64 + len ∨ len = 0) := by
    rintro (h | h | h)
    · exact h hport
    · omega
    · exact hlen h
  unfold spNarrow
  dsimp only
  rw [hactive, hwait, if_neg (by decide), if_neg hbad, if_neg (Nat.not_le.2 hrange), hseg, if_neg (by decide)]

theorem exec_spNarrow_read (htag : (s.core n.val).gTag = some (a.offset.toNat / 64)) (hdata : a.data = []) :
    exec (.spNarrow n a len) s = .next { s with out := s.out ++ [.spData n.val
      (((s.core n.val).gBuf.drop (a.offset.toNat % 64)).take len)] } := by
  refine congrArg Host.Outcome.next ?_
  rw [spNarrow_granted hactive hwait hport hfits hlen hrange hseg, if_pos htag, gServe, hdata]
  rfl

theorem completes_spNarrow_waits (hs : Canon s) (htag : (s.core n.val).gTag ≠ some (a.offset.toNat / 64)) :
    Completes (.spNarrow n a len) s (fun t =>
      t.core n.val = { s.core n.val with gWait := some (a, len) } ∧ Only [.cores] s t) := by
  have hexec : exec (.spNarrow n a len) s = .next (s.setCore n.val { s.core n.val with gWait := some (a, len) }) := by
    refine congrArg Host.Outcome.next ?_
    rw [spNarrow_granted hactive hwait hport hfits hlen hrange hseg, if_neg htag]
  exact completes_of_next hexec ⟨core_setCore hs.cores .., setCore_only ..⟩

end Narrow

/-- Bytes that merge into a buffer. -/
theorem nthD_merge {α : Type} {d : α} {buf l : List α} {lo k : Nat} (hfits : lo + l.length ≤ buf.length) (hk : k < buf.length) :
    nthD d (buf.take lo ++ l ++ buf.drop (lo + l.length)) k =
      if lo ≤ k ∧ k < lo + l.length then nthD d l (k - lo) else nthD d buf k := by
  have hhead : (buf.take lo).length = lo := by rw [List.length_take]; omega
  have hfront : (buf.take lo ++ l).length = lo + l.length := by rw [List.length_append, hhead]
  rw [nthD_eq_getElem d _ k (by rw [List.length_append, hfront, List.length_drop]; omega), nthD_eq_getElem d buf k hk]
  by_cases hin : lo ≤ k ∧ k < lo + l.length
  · rw [if_pos hin, nthD_eq_getElem d l (k - lo) (by omega), List.getElem_append_left (by omega),
      List.getElem_append_right (by omega)]
    simp only [hhead]
  · rw [if_neg hin]
    by_cases hlow : k < lo
    · rw [List.getElem_append_left (by omega), List.getElem_append_left (by omega), List.getElem_take]
    · rw [List.getElem_append_right (by omega), List.getElem_drop]
      congr 1
      omega

/-- The marks of the bytes that a NARROW write sets. -/
theorem getLsbD_mergeMask {lo len k : Nat} (hk : k < 64) :
    (BitVec.ofNat 64 ((2 ^ len - 1) * 2 ^ lo)).getLsbD k = decide (lo ≤ k ∧ k < lo + len) := by
  rw [BitVec.getLsbD_ofNat, Nat.testBit_mul_two_pow, Nat.testBit_two_pow_sub_one, decide_eq_true hk, Bool.true_and,
    ← Bool.decide_and]
  congr 1
  simp only [eq_iff_iff]
  omega

theorem completes_spNarrow_write {n : Fin 16} {a : SpAccess} {s : State} (hs : Canon s) (hactive : s.weaveActive = true)
    (hwait : (s.core n.val).gWait = none) (hport : a.port = .g) (hfits : a.offset.toNat % 64 + a.data.length ≤ 64)
    (hdata : a.data ≠ []) (hrange : a.offset.toNat < 0xC0000) (hseg : s.segOn n.val (a.offset.toNat / 512) = true)
    (htag : (s.core n.val).gTag = some (a.offset.toNat / 64)) (hbuf : (s.core n.val).gBuf.length = 64) :
    Completes (.spNarrow n a a.data.length) s (fun t =>
      (∀ k < 64, nthD (0, false) (t.core n.val).gBuf k =
        if a.offset.toNat % 64 ≤ k ∧ k < a.offset.toNat % 64 + a.data.length
        then (nthD 0 a.data (k - a.offset.toNat % 64), a.bad) else nthD (0, false) (s.core n.val).gBuf k) ∧
      (∀ k < 64, (t.core n.val).gDirty.getLsbD k = ((s.core n.val).gDirty.getLsbD k ||
        decide (a.offset.toNat % 64 ≤ k ∧ k < a.offset.toNat % 64 + a.data.length))) ∧ Only [.cores] s t) := by
  obtain ⟨l, hl⟩ : ∃ l, l = a.data.map (fun b => (b, a.bad)) := ⟨_, rfl⟩
  have hlen : l.length = a.data.length := by rw [hl, List.length_map]
  have hexec : exec (.spNarrow n a a.data.length) s = .next (gMerge n.val (a.offset.toNat % 64) a.cycle l s) := by
    refine congrArg Host.Outcome.next ?_
    rw [spNarrow_granted hactive hwait hport hfits (by simpa using hdata) hrange hseg, if_pos htag, gServe, List.take_length, ← hl,
      if_neg (by simpa using hdata)]
  refine completes_of_next hexec ⟨fun k hk => ?_, fun k hk => ?_, setCore_only ..⟩
  · rw [gMerge, core_setCore hs.cores]
    dsimp only
    rw [nthD_merge (by omega) (by omega), hlen]
    split
    · next hin => rw [hl, nthD_map 0 (0, false) (fun b => (b, a.bad)) (by omega)]
    · rfl
  · rw [gMerge, core_setCore hs.cores]
    dsimp only
    rw [BitVec.getLsbD_or, hlen, getLsbD_mergeMask hk]

/-! ### The G slots -/

theorem rdMarked_length (s : State) (a n : Nat) : (s.rdMarked a n).length = n := by
  rw [State.rdMarked, List.length_map, List.length_zipIdx, State.rdMem, smGetAll_length]

theorem rdMem_getElem (s : State) (a n i : Nat) (h : i < (s.rdMem a n).length) : (s.rdMem a n)[i] = smGet 0 s.mem (a + i) := by
  unfold State.rdMem at h ⊢
  induction n generalizing a i with
  | zero => simp [smGetAll] at h
  | succ n ih =>
    cases i with
    | zero => rfl
    | succ i =>
      simp only [smGetAll, List.getElem_cons_succ]
      rw [ih (a + 1) i (by simpa [smGetAll] using h)]
      congr 1
      omega

/-- A part of what a range reads is what the part's range reads. -/
theorem rdMarked_slice (s : State) {a n i k : Nat} (h : i + k ≤ n) : ((s.rdMarked a n).drop i).take k = s.rdMarked (a + i) k := by
  apply List.ext_getElem
  · rw [List.length_take, List.length_drop, rdMarked_length, rdMarked_length]
    omega
  · intro j h1 h2
    simp only [List.getElem_take, List.getElem_drop, State.rdMarked, List.getElem_map, List.getElem_zipIdx, rdMem_getElem, Nat.zero_add,
      Nat.add_assoc]

/-- A block is read in one piece. -/
theorem spRead_block (s : State) (n b : Nat) : spRead s n (blockGeom b) [] = ⟨s.rdMarked (spAddr n (64 * b)) 64, none, none⟩ := by
  have hplace : 512 * (64 * b / 512) + 64 * b % 512 = 64 * b := Nat.div_add_mod ..
  rw [spRead_clean]
  simp only [blockGeom, List.map_cons, List.map_nil, List.flatten_cons, List.flatten_nil, List.append_nil, Option.elim, id_eq, hplace]

theorem gLoad_clean (n b : Nat) (s : State) : gLoad n b [] s = s.setCore n { s.core n with
    gTag := some b, gBuf := s.rdMarked (spAddr n (64 * b)) 64, gDirty := 0, gFresh := false } := by
  rw [gLoad, spRead_block]
  rfl

/-- A G slot that is owned is used for the block that it works on. -/
theorem gWriteback_owned {n b cycle : Nat} {ups : List SpUpset} {s : State} (hactive : s.weaveActive = true)
    (hblock : gBlock (s.core n) = b) (hslot : s.ownsSlot n .g (s.blockQuarter n b) cycle = true) :
    gWriteback n cycle ups s = gSlot n cycle ups (useSlot n .g (s.blockQuarter n b) cycle s) := by
  unfold gWriteback
  dsimp only
  rw [hblock, hactive, hslot, if_neg (by decide)]

theorem completes_gWriteback_load {n : Fin 16} {a : SpAccess} {len cycle : Nat} {s : State} (hs : Canon s)
    (hactive : s.weaveActive = true) (hwait : (s.core n.val).gWait = some (a, len)) (hclean : (s.core n.val).gDirty = 0)
    (hfits : a.offset.toNat % 64 + len ≤ 64) (hdata : a.data = [])
    (hslot : s.ownsSlot n.val .g (s.blockQuarter n.val (a.offset.toNat / 64)) cycle = true) :
    Completes (.gWriteback n cycle []) s (fun t =>
      t.out = s.out ++ [.spData n.val (s.rdMarked (spAddr n.val a.offset.toNat) len)] ∧
      (t.core n.val).gTag = some (a.offset.toNat / 64) ∧ (t.core n.val).gWait = none ∧
      (t.core n.val).gBuf = s.rdMarked (spAddr n.val (64 * (a.offset.toNat / 64))) 64 ∧ Only [.out, .cores] s t) := by
  have hblock : gBlock (s.core n.val) = a.offset.toNat / 64 := by
    unfold gBlock
    rw [hwait, hclean]
    split
    · next h _ => cases h; rfl
    · next h _ => cases h; rfl
    · next h => cases h
  obtain ⟨u, hu⟩ : ∃ u, u = useSlot n.val .g (s.blockQuarter n.val (a.offset.toNat / 64)) cycle s := ⟨_, rfl⟩
  obtain ⟨b, hb⟩ : ∃ b, b = a.offset.toNat / 64 := ⟨_, rfl⟩
  have hcanon : Canon u := by rw [hu]; exact useSlot_canon hs ..
  have hframe : Only [.cores] s u := by rw [hu]; exact useSlot_frame ..
  have hread (x k : Nat) : u.rdMarked x k = s.rdMarked x k := by rw [hu, rdMarked_useSlot]
  have hcore : (u.core n.val).gWait = some (a, len) ∧ (u.core n.val).gDirty = 0 := by
    rw [hu, useSlot_core_self]
    exact ⟨hwait, hclean⟩
  obtain ⟨v, hv⟩ : ∃ v, v = gLoad n.val b [] u := ⟨_, rfl⟩
  have hvcore : v.core n.val = { u.core n.val with
      gTag := some b, gBuf := s.rdMarked (spAddr n.val (64 * b)) 64, gDirty := 0, gFresh := false } := by
    rw [hv, gLoad_clean, core_setCore hcanon.cores, hread]
  have hvrising : Rising v.cores := by
    rw [hv, gLoad_clean]
    exact setCore_rising hcanon.cores ..
  have huv : Only [.cores] u v := by rw [hv, gLoad_clean]; exact setCore_only ..
  obtain ⟨w, hw⟩ : ∃ w, w = v.setCore n.val { v.core n.val with gWait := none } := ⟨_, rfl⟩
  have hwcore : w.core n.val = { v.core n.val with gWait := none } := by rw [hw, core_setCore hvrising]
  have hsw : Only [.cores] s w := hframe.trans (huv.trans (by rw [hw]; exact setCore_only ..))
  have hslice : ((w.core n.val).gBuf.drop (a.offset.toNat % 64)).take len = s.rdMarked (spAddr n.val a.offset.toNat) len := by
    have hplace : spAddr n.val (64 * b) + a.offset.toNat % 64 = spAddr n.val a.offset.toNat := by
      unfold spAddr
      omega
    rw [hwcore, hvcore]
    exact (rdMarked_slice s hfits).trans (by rw [hplace])
  have hexec : exec (.gWriteback n cycle []) s = .next (w.emit (.spData n.val (s.rdMarked (spAddr n.val a.offset.toNat) len))) := by
    refine congrArg Host.Outcome.next ?_
    rw [gWriteback_owned hactive hblock hslot, ← hu]
    unfold gSlot
    simp only [hcore.1, hcore.2, ne_eq, not_true_eq_false, if_false]
    rw [← hb, ← hv, ← hw, gServe, hdata, ← hslice]
    rfl
  refine completes_of_next hexec ⟨?_, ?_, ?_, ?_, (hsw.mono (by simp)).trans (only_iff.2 (by simp))⟩
  · show w.out ++ _ = _
    rw [hsw.2 .out (by decide)]
  · show (w.core n.val).gTag = _
    rw [hwcore, hvcore, hb]
  · show (w.core n.val).gWait = _
    rw [hwcore]
  · show (w.core n.val).gBuf = _
    rw [hwcore, hvcore, hb]

/-- With written bytes in the held block a G slot works towards its write-back. -/
theorem gSlot_back {n cycle : Nat} {ups : List SpUpset} {u : State} (hdirty : (u.core n).gDirty ≠ 0)
    (hlast : (u.core n).gWait = none → (u.core n).gLast + 16 < cycle) : gSlot n cycle ups u = gBack n ups u := by
  unfold gSlot
  dsimp only
  split
  · rw [if_pos hdirty]
  · next h => rw [if_pos ⟨hdirty, hlast h⟩]

theorem gBlock_dirty {c : CoreState} {b : Nat} (htag : c.gTag = some b) (hdirty : c.gDirty ≠ 0) : gBlock c = b := by
  unfold gBlock
  rw [htag]
  split
  · next h => cases h; exact if_neg hdirty
  · next h => cases h
  · rfl

section Back

variable {n : Fin 16} {b cycle : Nat} {s : State} (hs : Canon s) (hactive : s.weaveActive = true)
  (htag : (s.core n.val).gTag = some b) (hdirty : (s.core n.val).gDirty ≠ 0) (hbuf : (s.core n.val).gBuf.length = 64)
  (hlast : (s.core n.val).gWait = none → (s.core n.val).gLast + 16 < cycle)
  (hslot : s.ownsSlot n.val .g (s.blockQuarter n.val b) cycle = true)
include hs hactive htag hdirty hbuf hlast hslot

theorem completes_gWriteback_write (hfull : (s.core n.val).gFresh = true ∨ (s.core n.val).gDirty = BitVec.allOnes 64) :
    Completes (.gWriteback n cycle []) s (fun t =>
      t.rdMem (spAddr n.val (64 * b)) 64 = bytesOf (s.core n.val).gBuf ∧ BytesOnly (spAddr n.val (64 * b)) 64 s t ∧
      t.core n.val = { (useSlot n.val .g (s.blockQuarter n.val b) cycle s).core n.val with
        gDirty := 0, gFresh := false } ∧ Only [.cores, .mem, .poison] s t) := by
  obtain ⟨u, hu⟩ : ∃ u, u = useSlot n.val .g (s.blockQuarter n.val b) cycle s := ⟨_, rfl⟩
  have hcanon : Canon u := by rw [hu]; exact useSlot_canon hs ..
  have hframe : Only [.cores] s u := by rw [hu]; exact useSlot_frame ..
  have hcore := useSlot_core_self n.val .g (s.blockQuarter n.val b) cycle s
  rw [← hu] at hcore
  have hmem (x k : Nat) : u.rdMem x k = s.rdMem x k := by rw [State.rdMem, hframe.2 .mem (by decide), State.rdMem]
  obtain ⟨v, hv⟩ : ∃ v, v = wrMarked (spAddr n.val (64 * b)) (s.core n.val).gBuf u := ⟨_, rfl⟩
  obtain ⟨hmoves, hreads, -, honly⟩ := wrMarked_completes hcanon (spAddr n.val (64 * b)) (s.core n.val).gBuf
  rw [← hv, hbuf] at hmoves hreads
  rw [← hv] at honly
  have hvcores : v.cores = u.cores := honly.2 .cores (by decide)
  have hexec : exec (.gWriteback n cycle []) s = .next (v.setCore n.val { v.core n.val with gDirty := 0, gFresh := false }) := by
    refine congrArg Host.Outcome.next ?_
    have hback : gBack n.val [] u = gWrite n.val u := by
      unfold gBack
      dsimp only
      rw [hcore, if_pos]
      simpa using hfull
    rw [gWriteback_owned hactive (gBlock_dirty htag hdirty) hslot, ← hu, gSlot_back (by rw [hcore]; exact hdirty)
      (by rw [hcore]; exact hlast), hback]
    have hutag : (u.core n.val).gTag = some b := by rw [hcore]; exact htag
    have hubuf : (u.core n.val).gBuf = (s.core n.val).gBuf := by rw [hcore]
    unfold gWrite
    simp only [hutag, hubuf, ← hv]
  have hrd (x k : Nat) : (v.setCore n.val { v.core n.val with gDirty := 0, gFresh := false }).rdMem x k = v.rdMem x k := rfl
  refine completes_of_next hexec ⟨by rw [hrd, hreads], fun x hx => by rw [hrd, hmoves.only x hx, hmem], ?_, ?_⟩
  · rw [core_setCore (by rw [hvcores]; exact hcanon.cores), core_congr hvcores, hu]
  · exact (hframe.mono (by simp)).trans ((honly.mono (by simp)).trans ((setCore_only ..).mono (by simp)))

theorem completes_gWriteback_merge (hstale : (s.core n.val).gFresh = false) (hpart : (s.core n.val).gDirty ≠ BitVec.allOnes 64) :
    Completes (.gWriteback n cycle []) s (fun t =>
      (∀ i < 64, nthD (0, false) (t.core n.val).gBuf i =
        if (s.core n.val).gDirty.getLsbD i then nthD (0, false) (s.core n.val).gBuf i
        else nthD (0, false) (s.rdMarked (spAddr n.val (64 * b)) 64) i) ∧
      (t.core n.val).gFresh = true ∧ (t.core n.val).gDirty = (s.core n.val).gDirty ∧ Only [.cores] s t) := by
  obtain ⟨u, hu⟩ : ∃ u, u = useSlot n.val .g (s.blockQuarter n.val b) cycle s := ⟨_, rfl⟩
  have hcanon : Canon u := by rw [hu]; exact useSlot_canon hs ..
  have hframe : Only [.cores] s u := by rw [hu]; exact useSlot_frame ..
  have hcore := useSlot_core_self n.val .g (s.blockQuarter n.val b) cycle s
  rw [← hu] at hcore
  have hread : u.rdMarked (spAddr n.val (64 * b)) 64 = s.rdMarked (spAddr n.val (64 * b)) 64 := by rw [hu, rdMarked_useSlot]
  obtain ⟨l, hl⟩ : ∃ l, l = (List.zipWith (fun x y => (x, y)) (s.core n.val).gBuf
    (s.rdMarked (spAddr n.val (64 * b)) 64)).zipIdx.map (fun x => if (s.core n.val).gDirty.getLsbD x.2 then x.1.1 else x.1.2) := ⟨_, rfl⟩
  have hexec : exec (.gWriteback n cycle []) s = .next (u.setCore n.val { u.core n.val with gBuf := l, gFresh := true }) := by
    refine congrArg Host.Outcome.next ?_
    have hback : gBack n.val [] u = gMergeLoad n.val [] u := by
      unfold gBack
      dsimp only
      rw [hcore, if_neg]
      simpa [hstale] using hpart
    rw [gWriteback_owned hactive (gBlock_dirty htag hdirty) hslot, ← hu, gSlot_back (by rw [hcore]; exact hdirty)
      (by rw [hcore]; exact hlast), hback]
    have hutag : (u.core n.val).gTag = some b := by rw [hcore]; exact htag
    have hubuf : (u.core n.val).gBuf = (s.core n.val).gBuf := by rw [hcore]
    have hudirty : (u.core n.val).gDirty = (s.core n.val).gDirty := by rw [hcore]
    unfold gMergeLoad
    simp only [hutag, spRead_block, hread, hubuf, hudirty, ← hl, spErrors_clean]
  refine completes_of_next hexec ⟨fun i hi => ?_, ?_, ?_, hframe.trans (setCore_only ..)⟩
  · rw [core_setCore hcanon.cores]
    dsimp only
    have hlen := rdMarked_length s (spAddr n.val (64 * b)) 64
    rw [nthD_eq_getElem _ l i (by rw [hl]; simp [hbuf, hlen, hi]), nthD_eq_getElem _ _ i (by omega), nthD_eq_getElem _ _ i (by omega)]
    simp only [hl, List.getElem_map, List.getElem_zipIdx, List.getElem_zipWith, Nat.zero_add]
  · rw [core_setCore hcanon.cores]
  · rw [core_setCore hcanon.cores, hcore]

end Back

end Sys2Proof.Machine
end

section
/-!
PROOFS. RSlot.lean: the R queues of the scratchpads and their slot, and the write-back of a corrected row (R158, R166).
-/

namespace Sys2Proof.Machine

/-! ### The request that is taken -/

/-- The oldest request leaves the queue, and the slot has been used. -/
def rTaken (n cycle : Nat) (rest : List RReq) (s : State) : State :=
  useSlot n .r none cycle (s.setCore n { s.core n with rq := rest })

theorem segOn_congr {s t : State} (h : t.regs = s.regs) (n r : Nat) : t.segOn n r = s.segOn n r := by
  rw [State.segOn, fld_eq_of_regs_eq h, State.segOn]

theorem spJudge_congr {s t : State} (h : t.regs = s.regs) (n off : Nat) (kind : RKind) (q : Option (Fin 4)) (write : Bool) :
    spJudge t n kind off q none write = spJudge s n kind off q none write := by
  unfold spJudge
  simp only [segOn_congr h]

theorem rVerdict_congr {s t : State} (h : t.regs = s.regs) (n : Nat) (q : RReq) : rVerdict t n q = rVerdict s n q := by
  unfold rVerdict
  simp only [spJudge_congr h, segOn_congr h]

section Taken

variable (n cycle : Nat) (rest : List RReq) (s : State)

theorem rTaken_frame : Only [.cores] s (rTaken n cycle rest s) := (setCore_only ..).trans (useSlot_frame ..)

variable {s} (hs : Canon s)
include hs

theorem rTaken_canon : Canon (rTaken n cycle rest s) :=
  useSlot_canon ((State_setCore_only s n _ (.refl [.cores] s) (by simp)).canon hs) ..

/-- Taking a request changes the queue and the used slot of its core. -/
theorem rTaken_core_self : (rTaken n cycle rest s).core n = { (useSlot n .r none cycle s).core n with rq := rest } := by
  obtain ⟨u, hu⟩ : ∃ u, u = s.setCore n { s.core n with rq := rest } := ⟨_, rfl⟩
  have hcore : u.core n = { s.core n with rq := rest } := by rw [hu, core_setCore hs.cores]
  have hregs : u.regs = s.regs := by rw [hu]; rfl
  have hpart : u.partitioned n = s.partitioned n := by rw [State.partitioned, hcore, State.partitioned]
  have hholds (q : Option (Fin 4)) : u.holdsSlot n .r q cycle = s.holdsSlot n .r q cycle := by
    have hcode : u.slotCode n q cycle = s.slotCode n q cycle := by
      unfold State.slotCode
      simp only [fld_eq_of_regs_eq hregs]
    rw [State.holdsSlot, State.slotFree, hcode, hcore, State.holdsSlot, State.slotFree]
  have hkeys : usedKeys n .r none cycle u = usedKeys n .r none cycle s := by
    unfold usedKeys
    simp only [hpart, hholds]
  rw [rTaken, ← hu, useSlot_core_self, useSlot_core_self, hkeys, hcore]

theorem rTaken_core_ne {k : Nat} (hk : k ≠ n) : (rTaken n cycle rest s).core k = s.core k := by
  rw [rTaken, useSlot_core_ne _ _ _ _ _ hk, core_setCore_ne hs.cores _ hk]

/-- What a core holds beside its queue and its used slot stays. -/
theorem rTaken_core {α : Type} (f : CoreState → α) (hf : ∀ c rq used, f { c with rq := rq, used := used } = f c) (k : Nat) :
    f ((rTaken n cycle rest s).core k) = f (s.core k) := by
  by_cases hk : k = n
  · subst hk
    rw [rTaken_core_self _ _ _ hs, useSlot_core_self]
    exact hf (s.core k) rest _
  · rw [rTaken_core_ne _ _ _ hs hk]

end Taken

/-- With no write that waits and no transfer that ends, nothing follows a served request. -/
theorem pushOuts_idle {s : State} (h : ∀ k < 16, (s.core k).outq = [] ∧ (s.core k).outKnot = none) : pushOuts s = s := by
  have hstep : ∀ k < 16, outDone k (pushOut (s.core k).outq.length k s) = s := by
    intro k hk
    obtain ⟨hq, hknot⟩ := h k hk
    rw [hq]
    unfold outDone
    simp only [List.length_nil, pushOut, hknot]
  have hfold : ∀ l : List Nat, (∀ k ∈ l, k < 16) → l.foldl (fun s n => outDone n (pushOut (s.core n).outq.length n s)) s = s := by
    intro l
    induction l with
    | nil => exact fun _ => rfl
    | cons a l ih =>
      intro hl
      rw [List.foldl_cons, hstep a (hl a (by simp))]
      exact ih fun k hk => hl k (List.mem_cons_of_mem a hk)
  exact hfold (List.range 16) fun k hk => List.mem_range.1 hk

section Serve

variable {n : Fin 16} {q : RReq} {rest : List RReq} {cycle : Nat} {s : State} (hruns : s.weaveRuns = true)
  (hcycle : cycle % 16 = 15) (hslot : s.ownsSlot n.val .r none cycle = true) (hfill : s.filling n.val = false)
  (hidle : ∀ k < 16, (s.core k).outq = [] ∧ (s.core k).outKnot = none) (hrq : (s.core n.val).rq = q :: rest)
  (hverdict : rVerdict s n.val q = 0)
include hruns hcycle hslot hfill hidle hrq hverdict

/-- In its slot the oldest request is served. -/
theorem exec_rSlotServe {t : State} (ht : t = rServe n.val q [] (rTaken n.val cycle rest s))
    (hout : ∀ k < 16, (t.core k).outq = (s.core k).outq ∧ (t.core k).outKnot = (s.core k).outKnot) :
    exec (.rSlotServe n cycle []) s = .next t := by
  have hregs : (rTaken n.val cycle rest s).regs = s.regs := ((rTaken_frame n.val cycle rest s).2 .regs (by decide)).1
  have hserved : rSlotServe n.val cycle [] s = t := by
    unfold rSlotServe
    simp only [hrq, hcycle, hslot, hfill, ne_eq, not_true_eq_false, decide_false, Bool.not_true, Bool.false_and, Bool.or_self,
      Bool.false_eq_true, if_false]
    rw [← rTaken, rVerdict_congr hregs, hverdict, if_neg (by decide), ← ht]
    exact pushOuts_idle fun k hk => by rw [(hout k hk).1, (hout k hk).2]; exact hidle k hk
  show Host.Outcome.next _ = _
  rw [hruns, if_pos rfl, hserved]

variable (hs : Canon s)
include hs

theorem completes_rSlotServe_core {m : Fin 16} (hfetched : Rising (s.core m.val).fetched) (hissuer : q.issuer = .core m)
    (hkind : q.kind = .row) (hread : q.write = false) (hclean : (s.core n.val).gDirty = 0) :
    Completes (.rSlotServe n cycle []) s (fun t =>
      smGet [] (t.core m.val).fetched (rowKey n.val (q.offset.toNat / 512)) =
        s.rdMarked (spAddr n.val q.offset.toNat) q.len ∧
      (t.core n.val).rq = rest ∧ Only [.cores] s t) := by
  obtain ⟨u, hu⟩ : ∃ u, u = rTaken n.val cycle rest s := ⟨_, rfl⟩
  have hcanon : Canon u := by rw [hu]; exact rTaken_canon _ _ _ hs
  have hframe : Only [.cores] s u := by rw [hu]; exact rTaken_frame ..
  have hplace : 512 * (q.offset.toNat / 512) + q.offset.toNat % 512 = q.offset.toNat := Nat.div_add_mod ..
  obtain ⟨t, ht⟩ : ∃ t, t = u.setCore m.val { u.core m.val with
      fetched := smSet [] (u.core m.val).fetched (rowKey n.val (q.offset.toNat / 512))
        (s.rdMarked (spAddr n.val q.offset.toNat) q.len) } := ⟨_, rfl⟩
  have hserve : t = rServe n.val q [] (rTaken n.val cycle rest s) := by
    have hgather (g : SpGeom) : gBefore n.val g u = u :=
      gBefore_clean (by rw [hu, rTaken_core _ _ _ hs CoreState.gDirty (fun _ _ _ => rfl)]; exact hclean) g
    have hdata : u.rdMarked (spAddr n.val q.offset.toNat) q.len = s.rdMarked (spAddr n.val q.offset.toNat) q.len :=
      rdMarked_congr (hframe.2 .mem (by decide)) (hframe.2 .poison (by decide)) ..
    unfold rServe rGeom rDeliver
    simp only [hissuer, hkind, hread, ← hu, hgather, spRead_clean, List.map_cons, List.map_nil, List.flatten_cons, List.flatten_nil,
      List.append_nil, hplace, Option.elim, id_eq, hdata, spErrors_clean, if_true, Bool.false_eq_true, if_false]
    exact ht
  have hcore (k : Nat) : t.core k = if k = m.val then { u.core m.val with
      fetched := smSet [] (u.core m.val).fetched (rowKey n.val (q.offset.toNat / 512))
        (s.rdMarked (spAddr n.val q.offset.toNat) q.len) } else u.core k := by
    rw [ht]
    split
    · next hk => rw [hk, core_setCore hcanon.cores]
    · next hk => rw [core_setCore_ne hcanon.cores _ hk]
  have hkeep {α : Type} (f : CoreState → α) (hf : ∀ c rq used, f { c with rq := rq, used := used } = f c)
      (hf' : ∀ c x, f { c with fetched := x } = f c) (k : Nat) : f (t.core k) = f (s.core k) := by
    have huk : f (u.core k) = f (s.core k) := by rw [hu]; exact rTaken_core _ _ _ hs f hf k
    rw [hcore]
    split
    · next hk => rw [hf', ← hk, huk]
    · exact huk
  refine completes_of_next (exec_rSlotServe hruns hcycle hslot hfill hidle hrq hverdict hserve fun k _ =>
    ⟨hkeep CoreState.outq (fun _ _ _ => rfl) (fun _ _ => rfl) k, hkeep CoreState.outKnot (fun _ _ _ => rfl) (fun _ _ => rfl) k⟩)
    ⟨?_, ?_, hframe.trans (by rw [ht]; exact setCore_only ..)⟩
  · have hold : (u.core m.val).fetched = (s.core m.val).fetched := by
      rw [hu]
      exact rTaken_core _ _ _ hs CoreState.fetched (fun _ _ _ => rfl) _
    rw [hcore, if_pos rfl]
    dsimp only
    rw [hold, smGet_smSet_rising hfetched]
  · have hself : (u.core n.val).rq = rest := by rw [hu, rTaken_core_self _ _ _ hs]
    rw [hcore]
    split
    · next hk => rw [← hk]; exact hself
    · exact hself

theorem completes_rSlotServe_steward (hissuer : q.issuer = .steward) (hkind : q.kind = .row) (hread : q.write = false) :
    Completes (.rSlotServe n cycle []) s (fun t =>
      t.out = s.out ++ [.issuerData (s.rdMarked (spAddr n.val q.offset.toNat) 512)] ∧
      t.core n.val = { (useSlot n.val .r none cycle s).core n.val with rq := rest } ∧ Only [.out, .cores] s t) := by
  obtain ⟨u, hu⟩ : ∃ u, u = rTaken n.val cycle rest s := ⟨_, rfl⟩
  have hframe : Only [.cores] s u := by rw [hu]; exact rTaken_frame ..
  have hplace : 512 * (q.offset.toNat / 512) + rowLo none q.offset.toNat = q.offset.toNat := by
    have hjudge : spJudge s n.val .row q.offset.toNat none none false = 0 := by
      unfold rVerdict at hverdict
      simpa only [hissuer, hkind, hread] using hverdict
    exact rowLo_eq (of_spJudge hjudge).2
  obtain ⟨t, ht⟩ : ∃ t, t = u.emit (.issuerData (s.rdMarked (spAddr n.val q.offset.toNat) 512)) := ⟨_, rfl⟩
  have hserve : t = rServe n.val q [] (rTaken n.val cycle rest s) := by
    have hgeom : rGeom q = ⟨[q.offset.toNat / 512], rowLo none q.offset.toNat, 512, none, none⟩ := by
      unfold rGeom
      simp only [hissuer, hkind]
      rfl
    have hdata : u.rdMarked (spAddr n.val q.offset.toNat) 512 = s.rdMarked (spAddr n.val q.offset.toNat) 512 :=
      rdMarked_congr (hframe.2 .mem (by decide)) (hframe.2 .poison (by decide)) ..
    unfold rServe rDeliver
    rw [hgeom]
    simp only [hissuer, hkind, hread, ← hu, spRead_clean, List.map_cons, List.map_nil, List.flatten_cons, List.flatten_nil,
      List.append_nil, hplace, Option.elim, id_eq, hdata, spErrors_clean, Bool.false_eq_true, if_false]
    exact ht
  have hcore (k : Nat) : t.core k = u.core k := core_congr (by rw [ht]; rfl) k
  refine completes_of_next (exec_rSlotServe hruns hcycle hslot hfill hidle hrq hverdict hserve fun k _ => ?_) ⟨?_, ?_, ?_⟩
  · rw [hcore, hu]
    exact ⟨rTaken_core _ _ _ hs CoreState.outq (fun _ _ _ => rfl) k, rTaken_core _ _ _ hs CoreState.outKnot (fun _ _ _ => rfl) k⟩
  · rw [ht]
    show u.out ++ _ = _
    rw [hframe.2 .out (by decide)]
  · rw [hcore, hu, rTaken_core_self _ _ _ hs]
  · rw [ht]
    exact (hframe.mono (by simp)).trans (only_iff.2 (by simp))

theorem completes_rSlotServe_write {p : BitVec 6} (hissuer : q.issuer = .remote p) (hkind : q.kind = .row) (hwrite : q.write = true)
    (hlen : q.data.length = q.len) :
    Completes (.rSlotServe n cycle []) s (fun t =>
      t.rdMem (spAddr n.val q.offset.toNat) q.len = bytesOf q.data ∧
      BytesOnly (spAddr n.val q.offset.toNat) q.len s t ∧
      t.core n.val = { (useSlot n.val .r none cycle s).core n.val with rq := rest } ∧
      Only [.cores, .mem, .poison] s t) := by
  obtain ⟨u, hu⟩ : ∃ u, u = rTaken n.val cycle rest s := ⟨_, rfl⟩
  have hcanon : Canon u := by rw [hu]; exact rTaken_canon _ _ _ hs
  have hframe : Only [.cores] s u := by rw [hu]; exact rTaken_frame ..
  have hmem (x k : Nat) : u.rdMem x k = s.rdMem x k := by rw [State.rdMem, hframe.2 .mem (by decide), State.rdMem]
  have hplace : 512 * (q.offset.toNat / 512) + q.offset.toNat % 512 = q.offset.toNat := Nat.div_add_mod ..
  obtain ⟨t, ht⟩ : ∃ t, t = wrMarked (spAddr n.val q.offset.toNat) q.data u := ⟨_, rfl⟩
  obtain ⟨hmoves, hreads, -, honly⟩ := wrMarked_completes hcanon (spAddr n.val q.offset.toNat) q.data
  rw [← ht, hlen] at hmoves hreads
  rw [← ht] at honly
  have hserve : t = rServe n.val q [] (rTaken n.val cycle rest s) := by
    have hgeom : rGeom q = ⟨[q.offset.toNat / 512], q.offset.toNat % 512, q.len, none, none⟩ := by
      unfold rGeom
      simp only [hissuer, hkind]
    unfold rServe
    rw [hgeom, hwrite, if_pos rfl, spWrite_row _ _ _ hlen, hplace]
    simp only [hissuer, hkind, ← hu, Bool.false_eq_true, if_false]
    exact ht
  have hcore (k : Nat) : t.core k = u.core k := core_congr (honly.2 .cores (by decide)) k
  refine completes_of_next (exec_rSlotServe hruns hcycle hslot hfill hidle hrq hverdict hserve fun k _ => ?_)
    ⟨hreads, fun x hx => by rw [hmoves.only x hx, hmem], ?_, (hframe.mono (by simp)).trans (honly.mono (by simp))⟩
  · rw [hcore, hu]
    exact ⟨rTaken_core _ _ _ hs CoreState.outq (fun _ _ _ => rfl) k, rTaken_core _ _ _ hs CoreState.outKnot (fun _ _ _ => rfl) k⟩
  · rw [hcore, hu, rTaken_core_self _ _ _ hs]

end Serve

/-- The write-back of a corrected row whose read finds no error. -/
theorem completes_ceWriteback {n : Fin 16} {cycle : Nat} {s : State} (hs : Canon s) (hdue : s.flag (Reg.coreSpCeAddr n.val) 31 = true)
    (hidle : s.slotIdle n.val cycle = true) :
    Completes (.ceWriteback n cycle []) s (fun t =>
      t.reg (Reg.coreSpCeAddr n.val) = 0 ∧ Only [.regs] s t ∧ RegsOnly [Reg.coreSpCeAddr n.val] s t) := by
  have hexec : exec (.ceWriteback n cycle []) s = .next (s.setReg (Reg.coreSpCeAddr n.val) 0) := by
    refine congrArg Host.Outcome.next ?_
    unfold ceWriteback
    dsimp only
    rw [hdue, hidle, if_neg (by decide), spRead_clean, spErrors_clean]
    rfl
  exact completes_of_next hexec ⟨reg_setReg hs.regs _ _, only_iff.2 (by simp),
    ((RegMoves.refl [Reg.coreSpCeAddr n.val] hs.regs).setReg (off := Reg.coreSpCeAddr n.val) 0 (by simp)).only⟩

/-- Settles O22: each access of a scratchpad has its effect in the slot of its port, the gather buffer's slots load and write
back its block, and slot 15 serves the R queue. -/
theorem scratchpadCommandsComplete : Obligations.ScratchpadCommandsComplete := by
  unfold Obligations.ScratchpadCommandsComplete
  refine ⟨?_, ?_, ?_, ?_, ?_, ?_, ?_, ?_, ?_, ?_, ?_, ?_, ?_, ?_, ?_, ?_⟩
  · intro n a q s hs hactive hq hpart hr hxi hxo hregion hlen hslot hjudge
    exact completes_spRow_write hactive hr hxi hxo hs hq hpart hregion hlen hslot hjudge
  · intro n a q s hactive hq hpart hr hxi hxo hregion hdata hups hslot hjudge
    exact completes_spRow_read hactive hr hxi hxo hq hpart hregion hdata hups hslot hjudge
  · intro n a r s hs hactive hshared hr hxi hxo hregion hlen hrgn hslot hjudge
    exact completes_spRow_region hactive hr hxi hxo hs hshared hregion hlen hrgn hslot hjudge
  · intro n a m q s hs hactive hq hpart hr hxi hxo hregion hlen hslot hjudge
    exact completes_spRowMasked hactive hr hxi hxo hs hq hpart hregion hlen hslot hjudge
  · intro n a tr e q s hactive hq hpart hclean hr hxi hxo hregion hdata hups hslot hjudge
    exact completes_spColumn_read hactive hr hxi hxo hq hpart hclean hregion hdata hups hslot hjudge
  · intro n a tr e q s hs hactive hq hpart hclean hr hxi hxo hregion hlen hslot hjudge
    exact completes_spColumn_write hactive hr hxi hxo hs hq hpart hclean hregion hlen hslot hjudge
  · intro n a len s hactive hwait hport hfits hlen hrange hseg htag hdata
    exact exec_spNarrow_read hactive hwait hport hfits hlen hrange hseg htag hdata
  · intro n a s hs hactive hwait hport hfits hdata hrange hseg htag hbuf
    exact completes_spNarrow_write hs hactive hwait hport hfits hdata hrange hseg htag hbuf
  · intro n a len s hs hactive hwait hport hfits hlen hrange hseg htag
    exact completes_spNarrow_waits hactive hwait hport hfits hlen hrange hseg hs htag
  · intro n a len cycle s hs hactive hwait hclean hfits hdata hslot
    exact completes_gWriteback_load hs hactive hwait hclean hfits hdata hslot
  · intro n b cycle s hs hactive htag hdirty hbuf hlast hslot hfull
    exact completes_gWriteback_write hs hactive htag hdirty hbuf hlast hslot hfull
  · intro n b cycle s hs hactive htag hdirty hbuf hlast hslot hstale hpart
    exact completes_gWriteback_merge hs hactive htag hdirty hbuf hlast hslot hstale hpart
  · intro n q rest m cycle s hs hruns hcycle hslot hfill hidle hfetched hrq hissuer hkind hread hclean hverdict
    exact completes_rSlotServe_core hruns hcycle hslot hfill hidle hrq hverdict hs hfetched hissuer hkind hread hclean
  · intro n q rest cycle s hs hruns hcycle hslot hfill hidle hrq hissuer hkind hread hverdict
    exact completes_rSlotServe_steward hruns hcycle hslot hfill hidle hrq hverdict hs hissuer hkind hread
  · intro n q rest p cycle s hs hruns hcycle hslot hfill hidle hrq hissuer hkind hwrite hlen hverdict
    exact completes_rSlotServe_write hruns hcycle hslot hfill hidle hrq hverdict hs hissuer hkind hwrite hlen
  · intro n cycle s hs hdue hidle
    exact completes_ceWriteback hs hdue hidle

end Sys2Proof.Machine
end

section
/-!
PROOFS. ArrayReads.lean: arrays of a core, reads of the sequencer's instructions, and a core that no pass occupies (R176,
R177, R183).
-/

namespace Sys2Proof.Machine

/-! ### Arrays of a core -/

section Arr

variable {s : State} (hcores : Rising s.cores) (n a : Nat) (x : ArrayState)
include hcores

theorem core_setArray : (s.setArray n a x).core n = { s.core n with arrays := smSet ArrayState.reset (s.core n).arrays a x } :=
  core_setCore hcores ..

theorem core_setArray_ne {k : Nat} (hk : k ≠ n) : (s.setArray n a x).core k = s.core k := core_setCore_ne hcores _ hk

/-- An array that has been set. -/
theorem arr_setArray (harrays : Rising (s.core n).arrays) : (s.setArray n a x).arr n a = x := by
  rw [State.arr, core_setArray hcores, CoreState.array, smGet_smSet_rising harrays]

theorem arr_setArray_ne (harrays : Rising (s.core n).arrays) {b : Nat} (hb : b ≠ a) : (s.setArray n a x).arr n b = s.arr n b := by
  rw [State.arr, core_setArray hcores, CoreState.array, smGet_smSet_ne_rising harrays hb]
  rfl

end Arr

theorem arr_congr {s t : State} {n : Nat} (h : t.core n = s.core n) (a : Nat) : t.arr n a = s.arr n a := by
  rw [State.arr, h, State.arr]

/-! ### A core that no pass occupies (R177, R183) -/

/-- From `s` to `t` no core reads differently, and nothing else changes. -/
structure CoresAlike (s t : State) : Prop where
  eq    : t = { s with cores := t.cores }
  only  : Only [.cores] s t
  core  : ∀ k, t.core k = s.core k
  canon : Canon t

namespace CoresAlike

variable {s t u : State}

theorem refl (hs : Canon s) : CoresAlike s s := ⟨rfl, .refl _ s, fun _ => rfl, hs⟩

theorem trans (h : CoresAlike s t) (k : CoresAlike t u) : CoresAlike s u :=
  ⟨k.eq.trans (by rw [h.eq]), h.only.trans k.only, fun i => (k.core i).trans (h.core i), k.canon⟩

/-- A core that is stored as it stands. -/
theorem setCore (hs : Canon s) {n : Nat} {c : CoreState} (hc : c = s.core n) : CoresAlike s (s.setCore n c) := by
  refine ⟨rfl, setCore_only .., fun k => ?_, (State_setCore_only s n c (.refl [.cores] s) (by simp)).canon hs⟩
  by_cases hk : k = n
  · rw [hk, core_setCore hs.cores, hc]
  · rw [core_setCore_ne hs.cores _ hk]

variable (h : CoresAlike s t)
include h

theorem regs : t.regs = s.regs := (h.only.2 .regs (by decide)).1

theorem reg (off : Nat) : t.reg off = s.reg off := reg_eq_of_regs_eq h.regs off

theorem arr (n a : Nat) : t.arr n a = s.arr n a := arr_congr (h.core n) a

theorem rdMem (a n : Nat) : t.rdMem a n = s.rdMem a n := by
  rw [State.rdMem, h.only.2 .mem (by decide), State.rdMem]

theorem rdMarked (a n : Nat) : t.rdMarked a n = s.rdMarked a n :=
  rdMarked_congr (h.only.2 .mem (by decide)) (h.only.2 .poison (by decide)) a n

theorem holdsSlot (n : Nat) (p : SpPort) (q : Option (Fin 4)) (cycle : Nat) : t.holdsSlot n p q cycle = s.holdsSlot n p q cycle := by
  have hcode : t.slotCode n q cycle = s.slotCode n q cycle := by
    unfold State.slotCode
    simp only [fld_eq_of_regs_eq h.regs]
  rw [State.holdsSlot, State.slotFree, hcode, h.core, State.holdsSlot, State.slotFree]

theorem partitioned (n : Nat) : t.partitioned n = s.partitioned n := by
  rw [State.partitioned, h.core, State.partitioned]

theorem partVerdict (n : Nat) (p : SpPort) (kind : RKind) (q : Option (Fin 4)) (cycle : Nat) :
    partVerdict t n p kind q cycle = Machine.partVerdict s n p kind q cycle := by
  unfold Machine.partVerdict
  simp only [h.partitioned, h.holdsSlot]

/-- A slot is used alike. -/
theorem useSlot_core (n : Nat) (p : SpPort) (q : Option (Fin 4)) (cycle : Nat) :
    (useSlot n p q cycle t).core n = (useSlot n p q cycle s).core n := by
  have hkeys : usedKeys n p q cycle t = usedKeys n p q cycle s := by
    unfold usedKeys
    simp only [h.partitioned, h.holdsSlot]
  rw [useSlot_core_self, useSlot_core_self, hkeys, h.core]

end CoresAlike

section Idle

variable {n : Nat} {s : State} (hs : Canon s) (hruns : (s.core n).runs = []) (hland : (s.core n).landings = [])

include hs hruns in
theorem stepsTo_idle (c : Nat) : CoresAlike s (stepsTo n c s) := by
  have heq : stepsTo n c s = s.setCore n { s.core n with runs := [] } := by
    unfold stepsTo
    simp only [hruns, List.foldl_nil]
  rw [heq]
  exact .setCore hs (by rw [← hruns])

include hs hland in
theorem landUpTo_idle (c : Nat) : CoresAlike s (landUpTo n c s) := by
  have heq : landUpTo n c s = s.setCore n { s.core n with landings := [] } := by
    unfold landUpTo
    simp only [hland, List.filter_nil, List.foldl_nil]
  rw [heq]
  exact .setCore hs (by rw [← hland])

include hs hruns hland in
/-- With no pass and no result on its way nothing happens up to a c-cycle. -/
theorem coreTo_idle (c : Nat) : CoresAlike s (coreTo n c s) := by
  have hsteps := stepsTo_idle hs hruns c
  exact hsteps.trans (landUpTo_idle hsteps.canon (by rw [hsteps.core]; exact hland) c)

end Idle

/-! ### Marks of a chunk (R273) -/

/-- A read is marked where one of its chunks is. -/
theorem anyBad_rdMarked (s : State) (a n : Nat) : anyBad (s.rdMarked a n) = s.poisoned a n := by
  rw [Bool.eq_iff_iff]
  unfold anyBad State.rdMarked State.poisoned chunks
  simp only [List.any_eq_true, List.mem_map]
  constructor
  · rintro ⟨-, ⟨⟨b, i⟩, hi, rfl⟩, hbad⟩
    have hlt : i < n := by
      have := (List.mem_zipIdx hi).2.1
      simpa [State.rdMem, smGetAll_length] using this
    refine ⟨(a + i) / 16, ?_, hbad⟩
    rw [if_neg (by omega), List.mem_map]
    exact ⟨(a + i) / 16 - a / 16, List.mem_range.2 (by omega), by omega⟩
  · rintro ⟨c, hc, hbad⟩
    by_cases hn : n = 0
    · rw [if_pos hn] at hc
      simp at hc
    rw [if_neg hn, List.mem_map] at hc
    obtain ⟨j, hj, rfl⟩ := hc
    have hj := List.mem_range.1 hj
    obtain ⟨i, hi, hplace⟩ : ∃ i < n, (a + i) / 16 = j + a / 16 := by
      by_cases hzero : j = 0
      · exact ⟨0, by omega, by omega⟩
      · exact ⟨16 * (j + a / 16) - a, by omega, by omega⟩
    have hlen : i < (s.rdMem a n).length := by rw [State.rdMem, smGetAll_length]; exact hi
    refine ⟨((s.rdMem a n)[i], smGet false s.poison ((a + i) / 16)), ⟨((s.rdMem a n)[i], i), ?_, rfl⟩, ?_⟩
    · exact List.mem_zipIdx_iff_getElem?.2 (List.getElem?_eq_getElem hlen)
    · rw [hplace]
      exact hbad

theorem bytesOf_rdMarked (s : State) (a n : Nat) : bytesOf (s.rdMarked a n) = s.rdMem a n := by
  simp only [bytesOf, State.rdMarked, List.map_map]
  exact List.zipIdx_map_fst 0 _

/-- The bytes of one chunk share its mark. -/
theorem rdMarked_chunk (s : State) {a : Nat} (ha : a % 16 = 0) :
    s.rdMarked a 16 = (bytesOf (s.rdMarked a 16)).map (fun b => (b, anyBad (s.rdMarked a 16))) := by
  have hbad : anyBad (s.rdMarked a 16) = smGet false s.poison (a / 16) := by
    have hone : chunks a 16 = [a / 16] := by
      have hcount : (a + 16 - 1) / 16 - a / 16 + 1 = 1 := by omega
      rw [chunks, if_neg (by decide), hcount]
      simp
    rw [anyBad_rdMarked, State.poisoned, hone]
    simp
  rw [bytesOf_rdMarked, hbad]
  apply List.ext_getElem
  · rw [rdMarked_length, List.length_map, State.rdMem, smGetAll_length]
  · intro i h1 h2
    have hi : i < 16 := by rw [rdMarked_length] at h1; exact h1
    have hplace : (a + i) / 16 = a / 16 := by omega
    simp only [State.rdMarked, List.getElem_map, List.getElem_zipIdx, Nat.zero_add, hplace]

end Sys2Proof.Machine
end

section
/-!
PROOFS. Spindle.lean: rows that the sequencer's instructions read, the set words and the spindle path (R185, R186), and APXSET
(R217).
-/

namespace Sys2Proof.Machine

/-! ### Reads of the sequencer's instructions -/

/-- What a row read finds. -/
theorem readChunks_row {s : State} {n off cycle : Nat} {p : SpPort} (hjudge : spJudge s n .row off none none false = 0)
    (hpart : partVerdict s n p .row none cycle = 0) :
    readChunks s n p off false cycle [] = .ok ⟨s.rdMarked (spAddr n off) 512, none, none⟩ := by
  have hplace := rowLo_eq (of_spJudge hjudge).2
  unfold readChunks
  simp only [Bool.false_eq_true, if_false, hjudge, hpart, ne_eq, not_true_eq_false, spPlan_row, spRead_clean, List.map_cons, List.map_nil,
    List.flatten_cons, List.flatten_nil, List.append_nil, Option.elim, id_eq, hplace]
  rfl

/-- The step of an instruction that reads a row in its slot. -/
theorem onRow_granted {s : State} {n off cycle : Nat} {p : SpPort} {k : SpRead → State → State} (hactive : s.weaveActive = true)
    (hslot : s.ownsSlot n p none cycle = true) (hjudge : spJudge s n .row off none none false = 0)
    (hpart : partVerdict s n p .row none cycle = 0) :
    onRow n p off cycle [] k s = k ⟨s.rdMarked (spAddr n off) 512, none, none⟩ (useSlot n p none cycle s) := by
  unfold onRow
  rw [hactive, hslot, if_neg (by decide), readChunks_row hjudge hpart]
  rfl

theorem smGetAll_eq_map {α : Type} (d : α) (m : SMap α) (k n : Nat) : smGetAll d m k n = (List.range n).map (fun i => smGet d m (k + i)) := by
  induction n generalizing k with
  | zero => rfl
  | succ n ih =>
    rw [smGetAll, ih, List.range_succ_eq_map, List.map_cons, List.map_map]
    congr 1
    apply List.map_congr_left
    intro i _
    simp only [Function.comp_apply]
    congr 1
    omega

/-- A value of a range that was set. -/
theorem smGet_smSetAll {α : Type} [DecidableEq α] {d : α} {m : SMap α} {k i : Nat} {vs : List α} (h : smWf (fun _ => d) m = true)
    (hi : i < vs.length) : smGet d (smSetAll d m k vs) (k + i) = vs[i] := by
  have hall := smGetAll_smSetAll (k := k) (vs := vs) h
  rw [smGetAll_eq_map] at hall
  have hget : ((List.range vs.length).map (fun i => smGet d (smSetAll d m k vs) (k + i)))[i]'(by simpa using hi) = vs[i] := by
    simp only [hall]
  simpa using hget

/-! ### QLOAD (R185) -/

theorem ofLe_append (a b : List Byte) : ofLe (a ++ b) = ofLe a + 256 ^ a.length * ofLe b := by
  induction a with
  | nil => simp [ofLe]
  | cons x a ih =>
    rw [List.cons_append, ofLe, ih, ofLe, List.length_cons, Nat.pow_succ']
    ring

/-- A number of four bytes from its halves. -/
theorem leAt_halves {l : List Byte} {lo : Nat} (h : lo + 4 ≤ l.length) : leAt l lo 4 = leAt l lo 2 + 65536 * leAt l (lo + 2) 2 := by
  have hcut : (l.drop lo).take 4 = (l.drop lo).take 2 ++ (l.drop (lo + 2)).take 2 := by
    rw [← List.drop_drop, ← List.take_add]
  have hlen : ((l.drop lo).take 2).length = 2 := by
    rw [List.length_take, List.length_drop]
    omega
  rw [leAt, hcut, ofLe_append, hlen]
  rfl

section Port

variable {n : Fin 16} {off : BitVec 20} {cycle : Nat} {s : State} (hactive : s.weaveActive = true)
include hactive

theorem completes_qload {p : Fin 2} (hslot : s.ownsSlot n.val .d none cycle = true)
    (hpart : partVerdict s n.val .d .row none cycle = 0) (hwf : smWf (fun _ => (0 : Word)) (s.core n.val).qsets = true)
    (hs : Canon s) (hjudge : spJudge s n.val .row off.toNat none none false = 0)
    (hfields : (List.range 128).all (fun k => leAt (s.rdMem (spAddr n.val off.toNat) 512) (4 * k + 2) 2 / 32 % 8 == 0) = true) :
    Completes (.qload n p off cycle []) s (fun t =>
      (∀ k < 128, smGet 0 (t.core n.val).qsets (128 * p.val + k) =
        BitVec.ofNat 32 (leAt (s.rdMem (spAddr n.val off.toNat) 512) (4 * k) 4)) ∧
      (t.core n.val).used = ((useSlot n.val .d none cycle s).core n.val).used ∧ Only [.cores] s t) := by
  obtain ⟨u, hu⟩ : ∃ u, u = useSlot n.val .d none cycle s := ⟨_, rfl⟩
  have hcanon : Canon u := by rw [hu]; exact useSlot_canon hs ..
  have hframe : Only [.cores] s u := by rw [hu]; exact useSlot_frame ..
  have hqsets : (u.core n.val).qsets = (s.core n.val).qsets := by rw [hu, useSlot_core_self]
  obtain ⟨ws, hws⟩ : ∃ ws, ws = (List.range 128).map (fun k => BitVec.ofNat 32 (leAt (s.rdMem (spAddr n.val off.toNat) 512) (4 * k) 4)) :=
    ⟨_, rfl⟩
  have hgood : ws.any (fun w => bits w 21 3 != 0) = false := by
    rw [hws, List.any_eq_false]
    intro w hw
    obtain ⟨k, hk, rfl⟩ := List.mem_map.1 hw
    have hk := List.mem_range.1 hk
    have hfield := (List.all_eq_true.1 hfields) k (List.mem_range.2 hk)
    have hhalf := leAt_halves (l := s.rdMem (spAddr n.val off.toNat) 512) (lo := 4 * k) (by rw [State.rdMem, smGetAll_length]; omega)
    have hlow := leAt_lt (s.rdMem (spAddr n.val off.toNat) 512) (4 * k) 2
    have hhigh := leAt_lt (s.rdMem (spAddr n.val off.toNat) 512) (4 * k + 2) 2
    have hzero : leAt (s.rdMem (spAddr n.val off.toNat) 512) (4 * k + 2) 2 / 32 % 8 = 0 := by simpa using hfield
    have hbits : bits (BitVec.ofNat 32 (leAt (s.rdMem (spAddr n.val off.toNat) 512) (4 * k) 4)) 21 3 = 0 := by
      rw [bits, BitVec.toNat_ofNat, Nat.shiftRight_eq_div_pow]
      omega
    rw [hbits]
    decide
  have hexec : exec (.qload n p off cycle []) s =
      .next (u.setCore n.val { u.core n.val with qsets := smSetAll 0 (u.core n.val).qsets (128 * p.val) ws }) := by
    refine congrArg Host.Outcome.next ?_
    unfold qload
    rw [onRow_granted hactive hslot hjudge hpart, ← hu]
    simp only [bytesOf_rdMarked, ← hws, hgood, Bool.false_eq_true, if_false]
  refine completes_of_next hexec ⟨fun k hk => ?_, ?_, hframe.trans (setCore_only ..)⟩
  · have hlen : k < ws.length := by rw [hws]; simpa using hk
    rw [core_setCore hcanon.cores]
    dsimp only
    rw [smGet_smSetAll (by rw [hqsets]; exact hwf) hlen]
    simp only [hws, List.getElem_map, List.getElem_range]
  · rw [core_setCore hcanon.cores, hu]

/-! ### XLOAD, SDOT, SOUT (R186) -/

theorem onSpindle_granted {k : State → State} (hslot : s.ownsSlot n.val .s none cycle = true) :
    onSpindle n.val false cycle k s = k s := by
  unfold onSpindle
  rw [hactive, hslot, if_neg (by decide), if_neg (by decide)]

theorem completes_xload (hs : Canon s) (hslot : s.ownsSlot n.val .s none cycle = true)
    (hpart : partVerdict s n.val .s .row none cycle = 0) (hjudge : spJudge s n.val .row off.toNat none none false = 0) :
    Completes (.xload n off 0 cycle []) s (fun t =>
      t.core n.val = { (useSlot n.val .s none cycle s).core n.val with
        xvec := s.rdMem (spAddr n.val off.toNat) 512, xbad := s.poisoned (spAddr n.val off.toNat) 512 } ∧
      Only [.cores] s t) := by
  obtain ⟨u, hu⟩ : ∃ u, u = useSlot n.val .s none cycle s := ⟨_, rfl⟩
  have hcanon : Canon u := by rw [hu]; exact useSlot_canon hs ..
  have hframe : Only [.cores] s u := by rw [hu]; exact useSlot_frame ..
  have hexec : exec (.xload n off 0 cycle []) s = .next (u.setCore n.val { u.core n.val with
      xvec := s.rdMem (spAddr n.val off.toNat) 512, xbad := s.poisoned (spAddr n.val off.toNat) 512 }) := by
    refine congrArg Host.Outcome.next ?_
    unfold xload
    rw [bne_self_eq_false, onSpindle_granted hactive hslot, onRow_granted hactive hslot hjudge hpart, ← hu]
    simp only [bytesOf_rdMarked, anyBad_rdMarked]
  exact completes_of_next hexec ⟨by rw [core_setCore hcanon.cores, hu], hframe.trans (setCore_only ..)⟩

theorem completes_sout {p : Fin 4} (hs : Canon s) (hslot : s.ownsSlot n.val .s none cycle = true)
    (hpart : partVerdict s n.val .s .row none cycle = 0) (hjudge : spJudge s n.val .row off.toNat none none true = 0) :
    Completes (.sout n p.val off 0 cycle) s (fun t =>
      t.rdMem (spAddr n.val off.toNat) 512 = ((List.range 128).map (fun k =>
        leBytes 4 (smGet (0, false) (s.core n.val).sacc (128 * p.val + k)).1.toNat)).flatten ∧
      BytesOnly (spAddr n.val off.toNat) 512 s t ∧ t.cores = (useSlot n.val .s none cycle s).cores ∧
      Only [.cores, .mem, .poison] s t) := by
  obtain ⟨u, hu⟩ : ∃ u, u = useSlot n.val .s none cycle s := ⟨_, rfl⟩
  have hcanon : Canon u := by rw [hu]; exact useSlot_canon hs ..
  have hframe : Only [.cores] s u := by rw [hu]; exact useSlot_frame ..
  have hmem (x k : Nat) : u.rdMem x k = s.rdMem x k := by rw [State.rdMem, hframe.2 .mem (by decide), State.rdMem]
  obtain ⟨l, hl⟩ : ∃ l, l = ((smGetAll (0, false) (s.core n.val).sacc (128 * p.val) 128).map
    (fun v => (leBytes 4 v.1.toNat).map (fun b => (b, v.2)))).flatten := ⟨_, rfl⟩
  have hbytes : bytesOf l = ((List.range 128).map (fun k =>
      leBytes 4 (smGet (0, false) (s.core n.val).sacc (128 * p.val + k)).1.toNat)).flatten := by
    rw [hl, smGetAll_eq_map]
    simp only [bytesOf, List.map_flatten, List.map_map, Function.comp_def, List.map_id']
  have hlen : l.length = 512 := by
    rw [← bytesOf_length, hbytes, length_flatten_map_range (k := 4) fun i _ => leBytes_length ..]
  obtain ⟨hmoves, hreads, -, honly⟩ := wrMarked_completes hcanon (spAddr n.val off.toNat) l
  rw [hlen] at hmoves hreads
  have hexec : exec (.sout n p.val off 0 cycle) s = .next (wrMarked (spAddr n.val off.toNat) l u) := by
    have hbad : ((0 : Nat) != 0 || decide (3 < p.val)) = false := by
      rw [decide_eq_false (by omega)]
      rfl
    refine congrArg Host.Outcome.next ?_
    unfold sout
    rw [hbad, onSpindle_granted hactive hslot]
    dsimp only
    rw [hjudge, hpart, if_neg (by decide), if_neg (by decide), ← hl, ← hu]
  exact completes_of_next hexec ⟨by rw [hreads, hbytes], fun x hx => by rw [hmoves.only x hx, hmem],
    by rw [honly.2 .cores (by decide), hu], (hframe.mono (by simp)).trans (honly.mono (by simp))⟩

end Port

theorem completes_sdot {n : Fin 16} {i : SdotInstr} {s : State} (hs : Canon s) (hactive : s.weaveActive = true) (hformat : i.format = 0)
    (hidx : i.idx < 512) (hups : i.upsets = []) (hslot : s.ownsSlot n.val .s none i.cycle = true)
    (hpart : partVerdict s n.val .s .row none i.cycle = 0) (hjudge : spJudge s n.val .row i.offset.toNat none none false = 0)
    (hwf : smWf (fun _ => ((0 : Word), false)) (s.core n.val).sacc = true) :
    Completes (.sdot n i) s (fun t =>
      (smGet (0, false) (t.core n.val).sacc i.idx).1 = BitVec.ofInt 32
        ((if i.init then 0 else (smGet (0, false) (s.core n.val).sacc i.idx).1.toInt) +
          (List.zipWith (fun a b => byteVal i.sgnW a * byteVal i.sgnX b)
            (s.rdMem (spAddr n.val i.offset.toNat) 512) (s.core n.val).xvec).foldl (· + ·) 0) ∧
      (∀ k, k ≠ i.idx → smGet (0, false) (t.core n.val).sacc k = smGet (0, false) (s.core n.val).sacc k) ∧
      Only [.cores] s t) := by
  obtain ⟨u, hu⟩ : ∃ u, u = useSlot n.val .s none i.cycle s := ⟨_, rfl⟩
  have hcanon : Canon u := by rw [hu]; exact useSlot_canon hs ..
  have hframe : Only [.cores] s u := by rw [hu]; exact useSlot_frame ..
  have hsacc : (u.core n.val).sacc = (s.core n.val).sacc := by rw [hu, useSlot_core_self]
  have hxvec : (u.core n.val).xvec = (s.core n.val).xvec := by rw [hu, useSlot_core_self]
  obtain ⟨v, hv⟩ : ∃ v, v = sdotSum (u.core n.val) i (s.rdMarked (spAddr n.val i.offset.toNat) 512) := ⟨_, rfl⟩
  have hexec : exec (.sdot n i) s =
      .next (u.setCore n.val { u.core n.val with sacc := smSet (0, false) (u.core n.val).sacc i.idx v }) := by
    have hgood : (i.format != 0 || decide (511 < i.idx)) = false := by
      rw [hformat, decide_eq_false (by omega)]
      rfl
    refine congrArg Host.Outcome.next ?_
    unfold sdot
    rw [hgood, onSpindle_granted hactive hslot, hups, onRow_granted hactive hslot hjudge hpart, ← hu, hv]
  refine completes_of_next hexec ⟨?_, fun k hk => ?_, hframe.trans (setCore_only ..)⟩
  · rw [core_setCore hcanon.cores]
    dsimp only
    rw [hsacc, smGet_smSet (d := fun _ => (0, false)) hwf, hv, sdotSum, hxvec, hsacc, bytesOf_rdMarked]
    cases i.init <;> rfl
  · rw [core_setCore hcanon.cores]
    dsimp only
    rw [hsacc, smGet_smSet_ne (d := fun _ => (0, false)) hwf hk]

/-! ### APXSET (R217) -/

theorem completes_apxset {n : Fin 16} {k : BitVec 4} {s : State} (hs : Canon s) (hactive : s.weaveActive = true)
    (hk : kOk k.toNat = true) :
    Completes (.apxset n k) s (fun t =>
      t.fld (Reg.coreApxCfg n.val) 8 4 = k.toNat ∧ Only [.regs] s t ∧ RegsOnly [Reg.coreApxCfg n.val] s t) := by
  have hexec : exec (.apxset n k) s = .next (s.setFld (Reg.coreApxCfg n.val) 8 4 k.toNat) := by
    refine congrArg Host.Outcome.next ?_
    unfold apxset
    rw [hactive, hk, if_neg (by decide), if_pos rfl]
  refine completes_of_next hexec ⟨?_, only_iff.2 (by simp),
    ((RegMoves.refl [Reg.coreApxCfg n.val] hs.regs).setFld _ _ _ (by simp)).only⟩
  rw [fld_eq_bits, State.setFld, reg_setReg hs.regs, bits_putBits _ _ _ _ (by decide)]
  exact Nat.mod_eq_of_lt k.isLt

end Sys2Proof.Machine
end

section
/-!
PROOFS. Feeds.lean: feeds of the queues and of the shadow tiles (R176).
-/

namespace Sys2Proof.Machine

/-! ### The chunks of a feed -/

/-- A piece of a list made of pieces of one length. -/
theorem flatten_slice {α : Type} {m k i : Nat} {f : Nat → List α} (hf : ∀ i < m, (f i).length = k) (hi : i < m) :
    (((List.range m).map f).flatten.drop (k * i)).take k = f i := by
  obtain ⟨r, rfl⟩ : ∃ r, m = i + (1 + r) := ⟨m - i - 1, by omega⟩
  have hhead : ((List.range i).map f).flatten.length = k * i := by
    rw [length_flatten_map_range fun j hj => hf j (by omega), Nat.mul_comm]
  have hmid : f i = f (i + 0) := rfl
  rw [List.range_add, List.map_append, List.flatten_append, List.drop_left' hhead, List.range_add, List.map_append, List.map_append,
    List.flatten_append, List.take_left' (by simpa using hf i hi)]
  simp

/-- Bytes between one chunk of a feed and the next. -/
def feedStride (col : Bool) : Nat := if col then 512 else 16

/-- Chunk `i` of what a feed reads. -/
def feedChunk (s : State) (n off : Nat) (col : Bool) (i : Nat) : Marked := s.rdMarked (spAddr n (off + feedStride col * i)) 16

/-- The chunks of a feed, each with its mark. -/
def feedChunks (s : State) (n off : Nat) (col : Bool) : List (List Byte × Bool) :=
  (List.range 32).map (fun i => (bytesOf (feedChunk s n off col i), anyBad (feedChunk s n off col i)))

/-- What a feed reads: a row's 32 chunks, or the chunks of a column. -/
theorem readChunks_feed {s : State} {n off cycle : Nat} {p : SpPort} {col : Bool}
    (hjudge : spJudge s n (if col then .column false 1 else .row) off none none false = 0)
    (hpart : partVerdict s n p (if col then .column false 1 else .row) none cycle = 0) :
    ∃ data, readChunks s n p off col cycle [] = .ok ⟨data, none, none⟩ ∧
      SpRead.chunks ⟨data, none, none⟩ = feedChunks s n off col := by
  cases col with
  | false =>
    refine ⟨_, readChunks_row hjudge hpart, ?_⟩
    refine List.map_congr_left fun i hi => ?_
    have hi := List.mem_range.1 hi
    have haddr : spAddr n off + 16 * i = spAddr n (off + 16 * i) := Nat.add_assoc ..
    have hslice : ((s.rdMarked (spAddr n off) 512).drop (16 * i)).take 16 = feedChunk s n off false i := by
      rw [rdMarked_slice s (by omega), haddr]
      rfl
    dsimp only
    rw [hslice]
  | true =>
    obtain ⟨hplace, -⟩ := column_aligned (of_spJudge hjudge).2
    refine ⟨((List.range 32).map (feedChunk s n off true)).flatten, ?_, ?_⟩
    · simp only [if_true] at hjudge hpart
      unfold readChunks
      simp only [if_true, hjudge, hpart, ne_eq, not_true_eq_false, if_false, spPlan_column, spRead_clean, List.map_map, Function.comp_def,
        hplace, Bool.false_eq_true, Option.elim, id_eq]
      rfl
    · refine List.map_congr_left fun i hi => ?_
      dsimp only
      rw [flatten_slice (f := feedChunk s n off true) (fun j _ => rdMarked_length ..) (List.mem_range.1 hi)]

/-! ### The arrays that take them -/

theorem feedArrays_nodup (a : Nat) (bc : Option (Fin 4)) : (feedArrays a bc).Nodup := by
  unfold feedArrays
  split
  · unfold gangArrays
    split
    · simp
    · split
      · simp
      · decide
  · simp

/-- Arrays that are set one after the other. -/
theorem arr_foldl_setArray {n : Nat} (f : ArrayState → ArrayState) : ∀ (l : List Nat) {s : State}, l.Nodup → Canon s →
    Rising (s.core n).arrays →
    (∀ b ∈ l, (l.foldl (fun t b => t.setArray n b (f (t.arr n b))) s).arr n b = f (s.arr n b)) ∧
    (∀ b, b ∉ l → (l.foldl (fun t b => t.setArray n b (f (t.arr n b))) s).arr n b = s.arr n b) ∧
    ((l.foldl (fun t b => t.setArray n b (f (t.arr n b))) s).core n).used = (s.core n).used ∧
    Only [.cores] s (l.foldl (fun t b => t.setArray n b (f (t.arr n b))) s) := by
  intro l
  induction l with
  | nil => exact fun _ _ _ => ⟨by simp, fun _ _ => rfl, rfl, .refl _ _⟩
  | cons a l ih =>
    intro s hnodup hs harrays
    obtain ⟨hnew, hrest⟩ := List.nodup_cons.1 hnodup
    obtain ⟨u, hu⟩ : ∃ u, u = s.setArray n a (f (s.arr n a)) := ⟨_, rfl⟩
    have hcanon : Canon u := by rw [hu]; exact (State_setArray_only s n a _ (.refl [.cores] s) (by simp)).canon hs
    have hcore : u.core n = { s.core n with arrays := smSet ArrayState.reset (s.core n).arrays a (f (s.arr n a)) } := by
      rw [hu, core_setArray hs.cores]
    have hself : u.arr n a = f (s.arr n a) := by rw [hu, arr_setArray hs.cores _ _ _ harrays]
    have hother (b : Nat) (hb : b ≠ a) : u.arr n b = s.arr n b := by rw [hu, arr_setArray_ne hs.cores _ _ _ harrays hb]
    obtain ⟨hin, hout, hused, honly⟩ := ih hrest hcanon (by rw [hcore]; exact smSet_rising _ _ harrays)
    rw [List.foldl_cons, ← hu]
    refine ⟨fun b hb => ?_, fun b hb => ?_, by rw [hused, hcore], Only.trans (by rw [hu]; exact setCore_only ..) honly⟩
    · by_cases hba : b = a
      · subst hba
        rw [hout b hnew, hself]
      · rw [hin b ((List.mem_cons.1 hb).resolve_left hba), hother b hba]
    · obtain ⟨hba, hbl⟩ := not_or.1 (mt List.mem_cons.2 hb)
      rw [hout b hbl, hother b hba]

/-! ### Queues and shadow tiles -/

/-- Entries that join queues, each queue once. -/
theorem smGet_foldl_join {α : Type} [DecidableEq α] {g : Nat → List α} : ∀ (l : List Nat) (q : SMap (List α)), l.Nodup →
    (∀ i ∈ l, g i ≠ []) → ∀ j,
    smGet [] (l.foldl (fun q i => smSet [] q i (smGet [] q i ++ g i)) q) j = if j ∈ l then smGet [] q j ++ g j else smGet [] q j := by
  intro l
  induction l with
  | nil => exact fun _ _ _ _ => rfl
  | cons a l ih =>
    intro q hnodup hne j
    obtain ⟨hnew, hrest⟩ := List.nodup_cons.1 hnodup
    have hvalue : smGet [] q a ++ g a ≠ [] := by
      simp only [ne_eq, List.append_eq_nil_iff, hne a (by simp), and_false, not_false_eq_true]
    rw [List.foldl_cons, ih _ hrest fun i hi => hne i (List.mem_cons_of_mem a hi)]
    by_cases hja : j = a
    · subst hja
      rw [if_neg hnew, if_pos (by simp), smGet_smSet_value hvalue]
    · rw [smGet_smSet_ne_value hvalue _ hja]
      simp only [List.mem_cons, hja, false_or]

theorem bytesOf_feedChunk_length (s : State) (n off : Nat) (col : Bool) (i : Nat) : (bytesOf (feedChunk s n off col i)).length = 16 := by
  rw [bytesOf_length, feedChunk, rdMarked_length]

/-- Empty queues take the chunks of a feed. -/
theorem fillQueues_feed {s : State} {n off : Nat} {col : Bool}
    (hjudge : spJudge s n (if col then .column false 1 else .row) off none none false = 0) {i : Nat} (hi : i < 32) :
    smGet [] (fillQueues (feedChunks s n off col) []) i = feedChunk s n off col i := by
  have halign : spAddr n (off + feedStride col * i) % 16 = 0 := by
    cases col with
    | false =>
      have hplace := rowLo_eq (of_spJudge hjudge).2
      simp only [spAddr, feedStride, rowLo, Option.isSome_none, Bool.false_eq_true, if_false] at hplace ⊢
      omega
    | true =>
      obtain ⟨hplace, -⟩ := column_aligned (of_spJudge hjudge).2
      have := hplace 0
      simp only [spAddr, feedStride, if_true]
      omega
  have hjoin : fillQueues (feedChunks s n off col) [] = (List.range 32).foldl (fun q i => smSet [] q i (smGet [] q i ++
      (bytesOf (feedChunk s n off col i)).map (fun b => (b, anyBad (feedChunk s n off col i))))) [] := by
    rw [fillQueues, feedChunks, zipIdx_map_range, List.foldl_map]
  have hne (j : Nat) : (bytesOf (feedChunk s n off col j)).map (fun b => (b, anyBad (feedChunk s n off col j))) ≠ [] := by
    rw [← List.length_pos_iff, List.length_map, bytesOf_feedChunk_length]
    decide
  rw [hjoin, smGet_foldl_join _ _ List.nodup_range fun j _ => hne j, if_pos (List.mem_range.2 hi)]
  exact (rdMarked_chunk s halign).symm

/-- Rows of values that are set one after the other, each in its own 32 places. -/
theorem smGet_foldl_rows {α : Type} [DecidableEq α] {d : α} {o w : Nat} (ho : o + w ≤ 32) {v : Nat → List α}
    (hv : ∀ i, (v i).length = w) : ∀ (l : List Nat) {m : SMap α}, l.Nodup → smWf (fun _ => d) m = true →
    (∀ i ∈ l, ∀ j < w, smGet d (l.foldl (fun m i => smSetAll d m (32 * i + o) (v i)) m) (32 * i + o + j) = nthD d (v i) j) ∧
    (∀ x, (∀ i ∈ l, x < 32 * i + o ∨ 32 * i + o + w ≤ x) →
      smGet d (l.foldl (fun m i => smSetAll d m (32 * i + o) (v i)) m) x = smGet d m x) := by
  intro l
  induction l with
  | nil => exact fun _ _ => ⟨by simp, fun _ _ => rfl⟩
  | cons a l ih =>
    intro m hnodup hwf
    obtain ⟨hnew, hrest⟩ := List.nodup_cons.1 hnodup
    obtain ⟨hin, hout⟩ := ih hrest (smSetAll_wf (k := 32 * a + o) (vs := v a) hwf)
    rw [List.foldl_cons]
    refine ⟨fun i hi j hj => ?_, fun x hx => ?_⟩
    · by_cases hil : i ∈ l
      · exact hin i hil j hj
      · obtain rfl : i = a := (List.mem_cons.1 hi).resolve_right hil
        rw [hout _ fun k hk => by have : i ≠ k := fun h => hil (h ▸ hk); omega, smGet_smSetAll hwf (by rw [hv]; exact hj),
          nthD_eq_getElem]
    · rw [hout x fun i hi => hx i (List.mem_cons_of_mem a hi), smGet_smSetAll_ne hwf (by rw [hv]; exact hx a (by simp))]

/-- Values of a chunk in a shadow row: eight of BF16, or sixteen bytes. -/
def shadowVals (bf : Bool) (c : List Byte) : List (BitVec 16) :=
  if bf then (List.range 8).map (fun k => BitVec.ofNat 16 (leAt c (2 * k) 2)) else c.map (fun b => b.setWidth 16)

theorem shadowVals_length {c : List Byte} (hc : c.length = 16) (bf : Bool) : (shadowVals bf c).length = if bf then 8 else 16 := by
  cases bf with
  | true => simp [shadowVals]
  | false => simp [shadowVals, hc]

theorem nthD_shadowVals {c : List Byte} (hc : c.length = 16) (bf : Bool) {j : Nat} (hj : j < if bf then 8 else 16) :
    nthD 0 (shadowVals bf c) j = if bf then BitVec.ofNat 16 (leAt c (2 * j) 2) else (nthD 0 c j).setWidth 16 := by
  cases bf with
  | true => exact (nthD_map 0 0 (fun k => BitVec.ofNat 16 (leAt c (2 * k) 2)) (by simpa using hj)).trans (by
      rw [nthD_eq_getElem _ _ _ (by simpa using hj), List.getElem_range]
      rfl)
  | false => exact nthD_map (0 : Byte) 0 (fun b => b.setWidth 16) (by rw [hc]; exact hj)

/-- A shadow tile that takes the chunks of a feed. -/
theorem loadShadow_feed {s : State} {n off blk : Nat} {col bf : Bool} (x : ArrayState) (hblk : blk < 4) (hint : bf = false → blk < 2)
    (hwf : smWf (fun _ => ((0 : BitVec 16), false)) x.shadow = true) {i j : Nat} (hi : i < 32) (hj : j < if bf then 8 else 16) :
    smGet (0, false) (loadShadow blk bf (feedChunks s n off col) x).shadow (32 * i + (if bf then 8 else 16) * blk + j) =
      (nthD 0 (shadowVals bf (bytesOf (feedChunk s n off col i))) j, anyBad (feedChunk s n off col i)) := by
  have hshadow : (loadShadow blk bf (feedChunks s n off col) x).shadow = (List.range 32).foldl (fun m i =>
      smSetAll (0, false) m (32 * i + (if bf then 8 else 16) * blk)
        ((shadowVals bf (bytesOf (feedChunk s n off col i))).map (fun v => (v, anyBad (feedChunk s n off col i))))) x.shadow := by
    rw [loadShadow, feedChunks, zipIdx_map_range, List.foldl_map]
    rfl
  have hfits : (if bf then 8 else 16) * blk + (if bf then 8 else 16) ≤ 32 := by
    cases bf with
    | true => simp only [if_true]; omega
    | false =>
      have := hint rfl
      simp only [Bool.false_eq_true, if_false]
      omega
  rw [hshadow, (smGet_foldl_rows hfits (fun k => by rw [List.length_map, shadowVals_length (bytesOf_feedChunk_length ..)]) (List.range 32)
    List.nodup_range hwf).1 i (List.mem_range.2 hi) j hj,
    nthD_map 0 _ (fun v => (v, anyBad (feedChunk s n off col i))) (by rw [shadowVals_length (bytesOf_feedChunk_length ..)]; exact hj)]

section Feed

variable {n : Fin 16} {a : Fin 4} {bc : Option (Fin 4)} {col : Bool} {off : BitVec 20} {cycle : Nat} {s : State} (hs : Canon s)
  (hactive : s.weaveActive = true) (hslot : s.ownsSlot n.val (feedPort a.val) none cycle = true)
  (hruns : (s.core n.val).runs = []) (hland : (s.core n.val).landings = []) (harrays : Rising (s.core n.val).arrays)
  (hclean : col = true → (s.core n.val).gDirty = 0)
  (hjudge : spJudge s n.val (if col then .column false 1 else .row) off.toNat none none false = 0)
  (hpart : partVerdict s n.val (feedPort a.val) (if col then .column false 1 else .row) none cycle = 0)
include hs hactive hslot hruns hland harrays hclean hjudge hpart

/-- An accepted feed: each array that it fills takes its chunks. -/
theorem feed_granted {bad : Code} {ok : ArrayState → Bool} {take : List (List Byte × Bool) → ArrayState → ArrayState}
    (hok : ∀ b ∈ feedArrays a.val bc, ok (s.arr n.val b) = true) {t : State}
    (ht : t = feed n.val a.val bc off.toNat col cycle [] bad ok take s) :
    (∀ b ∈ feedArrays a.val bc, t.arr n.val b = take (feedChunks s n.val off.toNat col) (s.arr n.val b)) ∧
    (∀ b, b ∉ feedArrays a.val bc → t.arr n.val b = s.arr n.val b) ∧
    (t.core n.val).used = ((useSlot n.val (feedPort a.val) none cycle s).core n.val).used ∧ Only [.cores] s t := by
  have hidle := coreTo_idle hs hruns hland cycle
  obtain ⟨u, hu⟩ : ∃ u, u = coreTo n.val cycle s := ⟨_, rfl⟩
  rw [← hu] at hidle
  obtain ⟨data, hread, hchunks⟩ := readChunks_feed (s := u) (by rw [spJudge_congr hidle.regs]; exact hjudge)
    (by rw [hidle.partVerdict]; exact hpart)
  have hsame : feedChunks u n.val off.toNat col = feedChunks s n.val off.toNat col := by
    unfold feedChunks feedChunk
    simp only [hidle.rdMarked]
  have hbefore : (if col then gBefore n.val (spPlan u n.val (.column false 1) off.toNat none none false) u else u) = u := by
    split
    · next hcol => exact gBefore_clean (by rw [hidle.core]; exact hclean hcol) _
    · rfl
  obtain ⟨v, hv⟩ : ∃ v, v = useSlot n.val (feedPort a.val) none cycle u := ⟨_, rfl⟩
  have hvcanon : Canon v := by rw [hv]; exact useSlot_canon hidle.canon ..
  have hvcore : (v.core n.val).arrays = (s.core n.val).arrays := by rw [hv, useSlot_core_self, hidle.core]
  have hvarr (b : Nat) : v.arr n.val b = s.arr n.val b := by rw [State.arr, CoreState.array, hvcore]; rfl
  have hfeed : t = (feedArrays a.val bc).foldl
      (fun t b => t.setArray n.val b (take (feedChunks s n.val off.toNat col) (t.arr n.val b))) v := by
    rw [ht]
    unfold feed
    dsimp only
    rw [hactive, hslot, if_neg (by decide), ← hu, hbefore, hread]
    dsimp only
    rw [if_pos (List.all_eq_true.2 fun b hb => by rw [hidle.arr]; exact hok b hb), spErrors_clean, hchunks, hsame, ← hv]
  obtain ⟨hin, hout, hused, honly⟩ := arr_foldl_setArray (n := n.val) (take (feedChunks s n.val off.toNat col)) (feedArrays a.val bc)
    (feedArrays_nodup ..) hvcanon (by rw [hvcore]; exact harrays)
  rw [← hfeed] at hin hout hused honly
  exact ⟨fun b hb => by rw [hin b hb, hvarr], fun b hb => by rw [hout b hb, hvarr], by rw [hused, hv, hidle.useSlot_core],
    hidle.only.trans (Only.trans (by rw [hv]; exact useSlot_frame ..) honly)⟩

theorem completes_feedRowq (hempty : ∀ b ∈ feedArrays a.val bc, (s.arr n.val b).rowq = []) :
    Completes (.feedRowq n a bc off col cycle []) s (fun t =>
      (∀ b ∈ feedArrays a.val bc, ∀ i < 32, smGet [] (t.arr n.val b).rowq i =
        s.rdMarked (spAddr n.val (off.toNat + (if col then 512 else 16) * i)) 16) ∧
      (∀ b, b ∉ feedArrays a.val bc → t.arr n.val b = s.arr n.val b) ∧
      (t.core n.val).used = ((useSlot n.val (feedPort a.val) none cycle s).core n.val).used ∧ Only [.cores] s t) := by
  obtain ⟨t, ht⟩ : ∃ t, t = feed n.val a.val bc off.toNat col cycle [] eFeedOverflow (fun x => x.rowq.isEmpty)
    (fun c x => { x with rowq := fillQueues c x.rowq }) s := ⟨_, rfl⟩
  obtain ⟨hin, hout, hused, honly⟩ := feed_granted hs hactive hslot hruns hland harrays hclean hjudge hpart
    (fun b hb => by rw [hempty b hb]; rfl) ht
  have hexec : exec (.feedRowq n a bc off col cycle []) s = .next t := by
    rw [ht]
    rfl
  refine completes_of_next hexec ⟨fun b hb i hi => ?_, hout, hused, honly⟩
  rw [hin b hb]
  dsimp only
  rw [hempty b hb, fillQueues_feed hjudge hi]
  rfl

theorem completes_feedColq (hempty : ∀ b ∈ feedArrays a.val bc, (s.arr n.val b).colq = []) :
    Completes (.feedColq n a bc off col cycle []) s (fun t =>
      (∀ b ∈ feedArrays a.val bc, ∀ i < 32, smGet [] (t.arr n.val b).colq i =
        s.rdMarked (spAddr n.val (off.toNat + (if col then 512 else 16) * i)) 16) ∧
      (∀ b, b ∉ feedArrays a.val bc → t.arr n.val b = s.arr n.val b) ∧
      (t.core n.val).used = ((useSlot n.val (feedPort a.val) none cycle s).core n.val).used ∧ Only [.cores] s t) := by
  obtain ⟨t, ht⟩ : ∃ t, t = feed n.val a.val bc off.toNat col cycle [] eFeedOverflow (fun x => x.colq.isEmpty)
    (fun c x => { x with colq := fillQueues c x.colq }) s := ⟨_, rfl⟩
  obtain ⟨hin, hout, hused, honly⟩ := feed_granted hs hactive hslot hruns hland harrays hclean hjudge hpart
    (fun b hb => by rw [hempty b hb]; rfl) ht
  have hexec : exec (.feedColq n a bc off col cycle []) s = .next t := by
    rw [ht]
    rfl
  refine completes_of_next hexec ⟨fun b hb i hi => ?_, hout, hused, honly⟩
  rw [hin b hb]
  dsimp only
  rw [hempty b hb, fillQueues_feed hjudge hi]
  rfl

theorem completes_feedLoad {k : Fin 4} {bf : Bool} (hint : bf = false → k.val < 2)
    (hready : ∀ b ∈ feedArrays a.val bc, (s.arr n.val b).frontEnd ≤ cycle ∧
      smWf (fun _ => ((0 : BitVec 16), false)) (s.arr n.val b).shadow = true) :
    Completes (.feedLoad n a bc k bf off col cycle []) s (fun t =>
      (∀ b ∈ feedArrays a.val bc,
        (∀ i < 32, ∀ j < (if bf then 8 else 16),
          smGet (0, false) (t.arr n.val b).shadow (32 * i + (if bf then 8 else 16) * k.val + j) =
            (if bf then BitVec.ofNat 16 (leAt (s.rdMem (spAddr n.val (off.toNat + (if col then 512 else 16) * i)) 16) (2 * j) 2)
              else (nthD 0 (s.rdMem (spAddr n.val (off.toNat + (if col then 512 else 16) * i)) 16) j).setWidth 16,
             s.poisoned (spAddr n.val (off.toNat + (if col then 512 else 16) * i)) 16)) ∧
        (t.arr n.val b).loaded = (s.arr n.val b).loaded ||| BitVec.ofNat 4 (2 ^ k.val)) ∧
      (∀ b, b ∉ feedArrays a.val bc → t.arr n.val b = s.arr n.val b) ∧ Only [.cores] s t) := by
  obtain ⟨t, ht⟩ : ∃ t, t = feed n.val a.val bc off.toNat col cycle [] eFeedShadow (fun x => decide (x.frontEnd ≤ cycle))
    (loadShadow k.val bf) s := ⟨_, rfl⟩
  obtain ⟨hin, hout, -, honly⟩ := feed_granted hs hactive hslot hruns hland harrays hclean hjudge hpart
    (fun b hb => decide_eq_true (hready b hb).1) ht
  have hexec : exec (.feedLoad n a bc k bf off col cycle []) s = .next t := by
    have hgood : ¬ (!bf && decide (2 ≤ k.val)) = true := by
      cases bf with
      | true => simp
      | false => simpa using hint rfl
    show execFeedLoad n a bc k bf off col cycle [] s = _
    rw [execFeedLoad, if_neg (by simpa using hgood), ht]
  refine completes_of_next hexec ⟨fun b hb => ⟨fun i hi j hj => ?_, by rw [hin b hb]; rfl⟩, hout, honly⟩
  rw [hin b hb, loadShadow_feed _ k.isLt hint (hready b hb).2 hi hj, nthD_shadowVals (bytesOf_feedChunk_length ..) bf hj, feedChunk,
    bytesOf_rdMarked, anyBad_rdMarked]
  rfl

end Feed

end Sys2Proof.Machine
end

section
/-!
PROOFS. Drains.lean: drains of the arrays' results (R184, R185).
-/

namespace Sys2Proof.Machine

/-! ### Bytes of an entry -/

/-- Bytes that an entry of a drain takes in its row. -/
def drainSize (f : Fin 4) : Nat := 512 / drainCap f

theorem drainSize_mul (f : Fin 4) : drainSize f * drainCap f = 512 := by
  unfold drainSize drainCap
  split
  · rfl
  · split <;> rfl

theorem drainBytes_congr {c c' : CoreState} (h : c'.qsets = c.qsets) (i : DrainInstr) (lanes : Nat) (e : DrainEntry) :
    drainBytes c' i lanes e = drainBytes c i lanes e := by
  unfold drainBytes
  rw [h]

theorem length_flatten_map {α : Type} (k : Nat) (f : α → List Byte) (hf : ∀ x, (f x).length = k) (l : List α) :
    (l.map f).flatten.length = l.length * k := by
  induction l with
  | nil => simp
  | cons a l ih => rw [List.map_cons, List.flatten_cons, List.length_append, ih, hf, List.length_cons, Nat.succ_mul, Nat.add_comm]

/-- An entry of 32 values fills its place. -/
theorem drainBytes_length {c : CoreState} {i : DrainInstr} {e : DrainEntry} (h : e.vals.length = 32) :
    (drainBytes c i 32 e).length = drainSize i.format := by
  unfold drainBytes
  split
  · next hf =>
    obtain hf : i.format = 2 := Fin.ext hf
    rw [length_flatten_map 2 _ (fun _ => leBytes_length ..), h, hf]
    rfl
  · next hf =>
    obtain hf : i.format = 3 := Fin.ext hf
    rw [List.length_map, List.length_zipIdx, h, hf]
    rfl
  · next h2 h3 =>
    have hcap : drainCap i.format = 4 := by
      rw [drainCap, if_neg fun hf => h2 (by rw [hf]; rfl), if_neg fun hf => h3 (by rw [hf]; rfl)]
    rw [length_flatten_map 4 _ (fun _ => leBytes_length ..), h, drainSize, hcap]

/-! ### Entry after entry -/

section Drain

variable (n : Nat) (i : DrainInstr)

/-- Entry `k` of the drain buffer that a drain takes. -/
def State.drainEntry (s : State) (k : Nat) : DrainEntry := smGet DrainEntry.reset (s.arr n i.array.val).drain k

/-- Place of entry `k` of a drain. -/
def drainAddr (k : Nat) : Nat := spAddr n (i.offset.toNat + drainSize i.format * k)

/-- One entry of a drain: a valid one is written and becomes not valid. -/
def drainStep (s : State) (k : Nat) : State :=
  let e := s.drainEntry n i (i.first + k)
  if e.valid then
    wrMemP (drainAddr n i k) (drainBytes (s.core n) i 32 e) e.poisoned
      (s.setArray n i.array.val { s.arr n i.array.val with
        drain := smSet DrainEntry.reset (s.arr n i.array.val).drain (i.first + k) DrainEntry.reset,
        drained := if e.seqs.isEmpty then (s.arr n i.array.val).drained
          else (s.arr n i.array.val).drained ++ [(e.seqs, drainAddr n i k, drainSize i.format)] })
  else s

theorem drainRow_eq (s : State) : drainRow n i 32 s = (List.range i.count).foldl (drainStep n i) s := rfl

/-- After its first `m` entries a drain has written the valid ones among them, and they are not valid any more. -/
structure DrainedTo (m : Nat) (s t : State) : Prop where
  canon    : Canon t
  qsets    : (t.core n).qsets = (s.core n).qsets
  landings : (t.core n).landings = (s.core n).landings
  arrays   : Rising (t.core n).arrays
  drain    : Rising (t.arr n i.array.val).drain
  kept     : ∀ k, k < i.first ∨ i.first + m ≤ k → t.drainEntry n i k = s.drainEntry n i k
  gone     : ∀ k < m, (t.drainEntry n i (i.first + k)).valid = false
  written  : ∀ k < m, t.rdMem (drainAddr n i k) (drainSize i.format) =
    if (s.drainEntry n i (i.first + k)).valid then drainBytes (s.core n) i 32 (s.drainEntry n i (i.first + k))
    else s.rdMem (drainAddr n i k) (drainSize i.format)
  outside  : ∀ x l, x + l ≤ drainAddr n i 0 ∨ drainAddr n i m ≤ x → t.rdMem x l = s.rdMem x l
  only     : Only [.cores, .mem, .poison] s t

variable {n i}

theorem DrainedTo.zero {s : State} (hs : Canon s) (harrays : Rising (s.core n).arrays)
    (hdrain : Rising (s.arr n i.array.val).drain) : DrainedTo n i 0 s s :=
  ⟨hs, rfl, rfl, harrays, hdrain, fun _ _ => rfl, fun _ h => absurd h (Nat.not_lt_zero _), fun _ h => absurd h (Nat.not_lt_zero _),
    fun _ _ _ => rfl, .refl _ s⟩

theorem drainAddr_succ (k : Nat) : drainAddr n i (k + 1) = drainAddr n i k + drainSize i.format := by
  have hmul := Nat.mul_add_one (drainSize i.format) k
  unfold drainAddr spAddr
  omega

theorem drainAddr_le {k m : Nat} (h : k < m) : drainAddr n i k + drainSize i.format ≤ drainAddr n i m := by
  rw [← drainAddr_succ]
  exact Nat.add_le_add_left (Nat.add_le_add_left (Nat.mul_le_mul_left _ h) _) _

theorem DrainedTo.succ {m : Nat} {s t : State} (h : DrainedTo n i m s t)
    (hvals : (s.drainEntry n i (i.first + m)).valid = true → (s.drainEntry n i (i.first + m)).vals.length = 32) :
    DrainedTo n i (m + 1) s (drainStep n i t m) := by
  have hentry : t.drainEntry n i (i.first + m) = s.drainEntry n i (i.first + m) := h.kept _ (.inr (le_refl _))
  have hfirst : drainAddr n i 0 ≤ drainAddr n i m := Nat.add_le_add_left (Nat.add_le_add_left (Nat.mul_le_mul_left _ (Nat.zero_le m)) _) _
  have hnext := drainAddr_succ (n := n) (i := i) m
  cases hvalid : (s.drainEntry n i (i.first + m)).valid with
  | false =>
    have hstep : drainStep n i t m = t := by
      unfold drainStep
      dsimp only
      rw [hentry, hvalid, if_neg Bool.false_ne_true]
    rw [hstep]
    refine ⟨h.canon, h.qsets, h.landings, h.arrays, h.drain, fun k hk => h.kept k (by omega), fun k hk => ?_, fun k hk => ?_,
      fun x l hx => h.outside x l (by omega), h.only⟩
    · rcases Nat.lt_succ_iff_lt_or_eq.1 hk with hlt | rfl
      · exact h.gone k hlt
      · rw [hentry, hvalid]
    · rcases Nat.lt_succ_iff_lt_or_eq.1 hk with hlt | rfl
      · exact h.written k hlt
      · rw [hvalid, if_neg Bool.false_ne_true]
        exact h.outside _ _ (.inr (le_refl _))
  | true =>
    obtain ⟨x, hx⟩ : ∃ x : ArrayState, x = { t.arr n i.array.val with
      drain := smSet DrainEntry.reset (t.arr n i.array.val).drain (i.first + m) DrainEntry.reset,
      drained := if (s.drainEntry n i (i.first + m)).seqs.isEmpty then (t.arr n i.array.val).drained
        else (t.arr n i.array.val).drained ++ [((s.drainEntry n i (i.first + m)).seqs, drainAddr n i m, drainSize i.format)] } := ⟨_, rfl⟩
    obtain ⟨u, hu⟩ : ∃ u, u = t.setArray n i.array.val x := ⟨_, rfl⟩
    obtain ⟨b, hb⟩ : ∃ b, b = drainBytes (s.core n) i 32 (s.drainEntry n i (i.first + m)) := ⟨_, rfl⟩
    have hlen : b.length = drainSize i.format := by rw [hb]; exact drainBytes_length (hvals hvalid)
    obtain ⟨v, hv⟩ : ∃ v, v = wrMemP (drainAddr n i m) b (s.drainEntry n i (i.first + m)).poisoned u := ⟨_, rfl⟩
    have hstep : drainStep n i t m = v := by
      unfold drainStep
      dsimp only
      rw [hentry, hvalid, if_pos rfl, drainBytes_congr h.qsets, ← hx, ← hu, ← hb, ← hv]
    have hmoves : Moves [.cores, .mem, .poison] t v := by
      rw [hv]
      exact wrMemP_only _ _ _ _ (by rw [hu]; exact State_setArray_only t n _ _ (.refl _ t) (by simp)) (by simp)
    have hutMem (y l : Nat) : u.rdMem y l = t.rdMem y l := by rw [hu]; rfl
    have huwf : Memory.wf u.mem = true := by rw [hu]; exact h.canon.mem
    have hwrite : MemMoves (drainAddr n i m) (drainSize i.format) u v := by
      rw [hv]
      exact (MemMoves.refl _ _ huwf).wrMemP _ (le_refl _) (by omega)
    have hread : v.rdMem (drainAddr n i m) (drainSize i.format) = b := by
      rw [hv, ← hlen]
      exact rdMem_wrMemP huwf ..
    have hvcore : v.core n = u.core n := core_congr (by rw [hv]; rfl) n
    have hucore : u.core n = { t.core n with arrays := smSet ArrayState.reset (t.core n).arrays i.array.val x } := by
      rw [hu, core_setArray h.canon.cores]
    have hvarr : v.arr n i.array.val = x := by rw [arr_congr hvcore, hu, arr_setArray h.canon.cores _ _ _ h.arrays]
    have hvdrain : (v.arr n i.array.val).drain = smSet DrainEntry.reset (t.arr n i.array.val).drain (i.first + m) DrainEntry.reset := by
      rw [hvarr, hx]
    have hother (k : Nat) (hk : k ≠ i.first + m) : v.drainEntry n i k = t.drainEntry n i k := by
      rw [State.drainEntry, hvdrain, smGet_smSet_ne_rising h.drain hk, State.drainEntry]
    rw [hstep]
    refine ⟨hmoves.canon h.canon, by rw [hvcore, hucore]; exact h.qsets, by rw [hvcore, hucore]; exact h.landings,
      by rw [hvcore, hucore]; exact smSet_rising _ _ h.arrays, by rw [hvdrain]; exact smSet_rising _ _ h.drain,
      fun k hk => by rw [hother k (by omega), h.kept k (by omega)], fun k hk => ?_, fun k hk => ?_, fun y l hy => ?_,
      h.only.trans hmoves.only⟩
    · rcases Nat.lt_succ_iff_lt_or_eq.1 hk with hlt | rfl
      · rw [hother _ (by omega)]
        exact h.gone k hlt
      · rw [State.drainEntry, hvdrain, smGet_smSet_rising h.drain]
        rfl
    · rcases Nat.lt_succ_iff_lt_or_eq.1 hk with hlt | rfl
      · have hplace := drainAddr_le (n := n) (i := i) hlt
        rw [hwrite.rdMem_eq (.inl hplace), hutMem]
        exact h.written k hlt
      · rw [hvalid, if_pos rfl, hread, hb]
    · rw [hwrite.rdMem_eq (by omega), hutMem]
      exact h.outside y l (by omega)

theorem drainedTo_foldl {s : State} (hs : Canon s) (harrays : Rising (s.core n).arrays) (hdrain : Rising (s.arr n i.array.val).drain)
    (m : Nat) (hvals : ∀ k < m, (s.drainEntry n i (i.first + k)).valid = true → (s.drainEntry n i (i.first + k)).vals.length = 32) :
    DrainedTo n i m s ((List.range m).foldl (drainStep n i) s) := by
  induction m with
  | zero => exact .zero hs harrays hdrain
  | succ m ih =>
    rw [List.range_succ, List.foldl_append]
    exact (ih fun k hk => hvals k (by omega)).succ (hvals m (by omega))

end Drain

/-- A drain whose checks hold. -/
theorem drainInstr_granted {n : Nat} {i : DrainInstr} {s : State} (hs : Canon s) (hactive : s.weaveActive = true)
    (hslot : s.ownsSlot n .d none i.cycle = true) (hruns : (s.core n).runs = []) (hland : (s.core n).landings = [])
    (hjudge : spJudge s n .row i.offset.toNat none none true = 0)
    (hpart : partVerdict s n .d (.rowMasked (drainMask s n i)) none i.cycle = 0) (hverdict : drainVerdict s n i = 0) :
    ∃ u, CoresAlike s u ∧ drainInstr n i s = landUpTo n i.cycle (drainRow n i 32 (useSlot n .d none i.cycle u)) := by
  have hsteps := stepsTo_idle hs hruns i.cycle
  have hidle := hsteps.trans (landUpTo_idle (n := n) hsteps.canon (by rw [hsteps.core]; exact hland) (i.cycle - 1))
  obtain ⟨u, hu⟩ : ∃ u, u = landUpTo n (i.cycle - 1) (stepsTo n i.cycle s) := ⟨_, rfl⟩
  rw [← hu] at hidle
  have hmask : drainMask u n i = drainMask s n i := by
    unfold drainMask
    simp only [hidle.arr]
  have hcheck : drainVerdict u n i = 0 := by
    rw [← hverdict]
    unfold drainVerdict
    simp only [hidle.arr]
  refine ⟨u, hidle, ?_⟩
  unfold drainInstr
  dsimp only
  rw [hactive, hslot, if_neg (by decide), ← hu, spJudge_congr hidle.regs, hjudge, if_neg (by decide), hmask, hidle.partVerdict, hpart,
    if_neg (by decide), hcheck, if_neg (by decide)]

theorem completes_drain {n : Fin 16} {i : DrainInstr} {s : State} (hs : Canon s) (hactive : s.weaveActive = true)
    (hslot : s.ownsSlot n.val .d none i.cycle = true) (hruns : (s.core n.val).runs = []) (hland : (s.core n.val).landings = [])
    (harrays : Rising (s.core n.val).arrays) (hdrain : Rising (s.arr n.val i.array.val).drain)
    (hvals : ∀ k < i.count, (smGet DrainEntry.reset (s.arr n.val i.array.val).drain (i.first + k)).valid = true →
      (smGet DrainEntry.reset (s.arr n.val i.array.val).drain (i.first + k)).vals.length = 32)
    (hjudge : spJudge s n.val .row i.offset.toNat none none true = 0)
    (hpart : partVerdict s n.val .d (.rowMasked (drainMask s n.val i)) none i.cycle = 0) (hverdict : drainVerdict s n.val i = 0) :
    Completes (.drain n i) s (fun t =>
      (∀ k < i.count,
        t.rdMem (spAddr n.val (i.offset.toNat + 512 / drainCap i.format * k)) (512 / drainCap i.format) =
          (if (smGet DrainEntry.reset (s.arr n.val i.array.val).drain (i.first + k)).valid
            then drainBytes (s.core n.val) i 32 (smGet DrainEntry.reset (s.arr n.val i.array.val).drain (i.first + k))
            else s.rdMem (spAddr n.val (i.offset.toNat + 512 / drainCap i.format * k)) (512 / drainCap i.format)) ∧
        (i.format = 0 → (smGet DrainEntry.reset (s.arr n.val i.array.val).drain (i.first + k)).valid = true →
          t.rdMem (spAddr n.val (i.offset.toNat + 128 * k)) 128 =
            ((smGet DrainEntry.reset (s.arr n.val i.array.val).drain (i.first + k)).vals.map
              (fun v => leBytes 4 v.toNat)).flatten) ∧
        (smGet DrainEntry.reset (t.arr n.val i.array.val).drain (i.first + k)).valid = false) ∧
      (∀ k, k < i.first ∨ i.first + i.count ≤ k → smGet DrainEntry.reset (t.arr n.val i.array.val).drain k =
        smGet DrainEntry.reset (s.arr n.val i.array.val).drain k) ∧
      BytesOnly (spAddr n.val i.offset.toNat) 512 s t ∧ Only [.cores, .mem, .poison] s t) := by
  obtain ⟨u, hidle, hinstr⟩ := drainInstr_granted hs hactive hslot hruns hland hjudge hpart hverdict
  obtain ⟨v, hv⟩ : ∃ v, v = useSlot n.val .d none i.cycle u := ⟨_, rfl⟩
  have hvcanon : Canon v := by rw [hv]; exact useSlot_canon hidle.canon ..
  have hvframe : Only [.cores] s v := hidle.only.trans (by rw [hv]; exact useSlot_frame ..)
  have hvcore : (v.core n.val).arrays = (s.core n.val).arrays ∧ (v.core n.val).qsets = (s.core n.val).qsets ∧
      (v.core n.val).landings = [] := by
    rw [hv, useSlot_core_self, hidle.core]
    exact ⟨rfl, rfl, hland⟩
  obtain ⟨hvarrays, hvqsets, hvland⟩ := hvcore
  have hvarr : v.arr n.val i.array.val = s.arr n.val i.array.val := by rw [State.arr, CoreState.array, hvarrays]; rfl
  have hventry (k : Nat) : v.drainEntry n.val i k = s.drainEntry n.val i k := by rw [State.drainEntry, hvarr, State.drainEntry]
  have hvmem (x l : Nat) : v.rdMem x l = s.rdMem x l := by rw [State.rdMem, hvframe.2 .mem (by decide), State.rdMem]
  obtain ⟨w, hw⟩ : ∃ w, w = drainRow n.val i 32 v := ⟨_, rfl⟩
  have hdone := drainedTo_foldl (n := n.val) (i := i) hvcanon (by rw [hvarrays]; exact harrays) (by rw [hvarr]; exact hdrain) i.count
    fun k hk => by rw [hventry]; exact hvals k hk
  rw [← drainRow_eq, ← hw] at hdone
  have hlast := landUpTo_idle (n := n.val) hdone.canon (by rw [hdone.landings]; exact hvland) i.cycle
  obtain ⟨t, ht⟩ : ∃ t, t = landUpTo n.val i.cycle w := ⟨_, rfl⟩
  rw [← ht] at hlast
  have htentry (k : Nat) : smGet DrainEntry.reset (t.arr n.val i.array.val).drain k = w.drainEntry n.val i k := by
    rw [hlast.arr, State.drainEntry]
  have hexec : exec (.drain n i) s = .next t := by
    refine congrArg Host.Outcome.next ?_
    rw [hinstr, ← hv, ← hw, ← ht]
  have hwritten (k : Nat) (hk : k < i.count) : t.rdMem (drainAddr n.val i k) (drainSize i.format) =
      if (s.drainEntry n.val i (i.first + k)).valid then drainBytes (s.core n.val) i 32 (s.drainEntry n.val i (i.first + k))
      else s.rdMem (drainAddr n.val i k) (drainSize i.format) := by
    rw [hlast.rdMem, hdone.written k hk, hventry, hvmem, drainBytes_congr hvqsets]
  have hcount : i.count ≤ drainCap i.format := by
    by_contra hbad
    unfold drainVerdict at hverdict
    dsimp only at hverdict
    rw [if_pos (.inl (by omega))] at hverdict
    exact absurd hverdict (by decide)
  refine completes_of_next hexec ⟨fun k hk => ⟨hwritten k hk, fun hformat hvalid => ?_, ?_⟩, fun k hk => ?_, fun x hx => ?_, ?_⟩
  · have hbytes := hwritten k hk
    have hsize : drainSize i.format = 128 := by rw [hformat]; rfl
    rw [drainAddr, hsize, State.drainEntry, hvalid, if_pos rfl] at hbytes
    rw [hbytes]
    unfold drainBytes
    rw [hformat]
    rfl
  · rw [htentry]
    exact hdone.gone k hk
  · rw [htentry, hdone.kept k hk, hventry, State.drainEntry]
  · rw [hlast.rdMem, hdone.outside x 1, hvmem]
    have hfull : drainSize i.format * i.count ≤ 512 := by
      rw [← drainSize_mul i.format]
      exact Nat.mul_le_mul_left _ hcount
    simp only [drainAddr, spAddr, Nat.mul_zero, Nat.add_zero] at hx ⊢
    omega
  · exact (hvframe.mono (by simp)).trans (hdone.only.trans (hlast.only.mono (by simp)))

end Sys2Proof.Machine
end

section
/-!
PROOFS. Verdicts.lean: the verdicts over a pass: checksums (R188) and the shadow tally (R213 to R215).
-/

namespace Sys2Proof.Machine

/-! ### Checksums (R188) -/

/-- A map whose values change by a function that keeps the default. -/
theorem smGet_map_values {α : Type} {d : α} (f : α → α) (hd : f d = d) (m : SMap α) (k : Nat) :
    smGet d (m.map (fun e => (e.1, f e.2))) k = f (smGet d m k) := by
  induction m with
  | nil => exact hd.symm
  | cons e m ih =>
    obtain ⟨j, v⟩ := e
    simp only [List.map_cons, smGet, ih]
    split
    · exact hd.symm
    · split <;> rfl

/-- An entry without the verdicts that it waits for of one pass. -/
def DrainEntry.settled (seq : Word) (e : DrainEntry) : DrainEntry := { e with seqs := e.seqs.filter (fun q => q != seq) }

/-- The verdict of a pass of one array touches what that array's results wait for. -/
theorem settlePass_reads {n a : Nat} {seq : Word} {s : State} (hs : Canon s) (harrays : Rising (s.core n).arrays) :
    (∃ l, (settlePass n a seq s).arr n a = { s.arr n a with
      drain := (s.arr n a).drain.map (fun e => (e.1, e.2.settled seq)), drained := l }) ∧
    (∀ b ≠ a, (settlePass n a seq s).arr n b = s.arr n b) ∧ Only [.cores] s (settlePass n a seq s) := by
  obtain ⟨c, hc⟩ : ∃ c, c = { s.core n with landings := (s.core n).landings.map (fun l : Landing =>
    if l.array = a ∧ l.seq = some seq then { l with seq := none } else l) } := ⟨_, rfl⟩
  obtain ⟨u, hu⟩ : ∃ u, u = s.setCore n c := ⟨_, rfl⟩
  have hcanon : Canon u := by rw [hu]; exact (State_setCore_only s n _ (.refl [.cores] s) (by simp)).canon hs
  have hcore : (u.core n).arrays = (s.core n).arrays := by rw [hu, core_setCore hs.cores, hc]
  have harr (b : Nat) : u.arr n b = s.arr n b := by rw [State.arr, CoreState.array, hcore]; rfl
  obtain ⟨x, hx⟩ : ∃ x : ArrayState, x = { s.arr n a with
    drain := (s.arr n a).drain.map (fun e => (e.1, e.2.settled seq)),
    drained := ((s.arr n a).drained.map (fun d => (d.1.filter (fun q => q != seq), d.2))).filter (fun d => !d.1.isEmpty) } := ⟨_, rfl⟩
  have hsettle : settlePass n a seq s = u.setArray n a x := by
    rw [hx, ← harr a, hu, hc]
    rfl
  rw [hsettle]
  refine ⟨⟨_, (arr_setArray hcanon.cores n a x (by rw [hcore]; exact harrays)).trans hx⟩, fun b hb => ?_,
    Only.trans (by rw [hu]; exact setCore_only ..) (setCore_only ..)⟩
  rw [arr_setArray_ne hcanon.cores n a x (by rw [hcore]; exact harrays) hb, harr]

theorem completes_checksumVerdict {n : Fin 16} {a : Fin 4} {p : PassRec} {rest : List PassRec} {s : State} (hs : Canon s)
    (hruns : s.weaveRuns = true) (harrays : Rising (s.core n.val).arrays) (hq : (s.arr n.val a.val).chkq = p :: rest)
    (hgood : (checksumOf s n.val a.val p).1 = false) :
    Completes (.checksumVerdict n a) s (fun t =>
      (∃ d l, t.arr n.val a.val = { s.arr n.val a.val with chkq := rest, drain := d, drained := l } ∧
        (∀ k, { smGet DrainEntry.reset d k with seqs := [] } =
          { smGet DrainEntry.reset (s.arr n.val a.val).drain k with seqs := [] }) ∧
        (∀ k, p.seq ∉ (smGet DrainEntry.reset d k).seqs)) ∧
      (∀ b, b ≠ a.val → t.arr n.val b = s.arr n.val b) ∧ Only [.cores] s t) := by
  obtain ⟨x, hx⟩ : ∃ x : ArrayState, x = { s.arr n.val a.val with chkq := rest } := ⟨_, rfl⟩
  obtain ⟨u, hu⟩ : ∃ u, u = s.setArray n.val a.val x := ⟨_, rfl⟩
  have hcanon : Canon u := by rw [hu]; exact (State_setArray_only s _ _ _ (.refl [.cores] s) (by simp)).canon hs
  have hself : u.arr n.val a.val = x := by rw [hu, arr_setArray hs.cores _ _ _ harrays]
  have hother (b : Nat) (hb : b ≠ a.val) : u.arr n.val b = s.arr n.val b := by rw [hu, arr_setArray_ne hs.cores _ _ _ harrays hb]
  have hexec : exec (.checksumVerdict n a) s = .next (settlePass n.val a.val p.seq u) := by
    refine congrArg Host.Outcome.next ?_
    obtain ⟨⟨bad, col⟩, hsum⟩ : ∃ r, r = checksumOf s n.val a.val p := ⟨_, rfl⟩
    rw [← hsum] at hgood
    obtain rfl : bad = false := hgood
    unfold checksumVerdict
    simp only [hq, hruns, ← hsum, Bool.not_true, Bool.false_eq_true, if_false, ← hx, ← hu]
  obtain ⟨⟨l, hsettled⟩, hrest, honly⟩ := settlePass_reads (n := n.val) (a := a.val) (seq := p.seq) hcanon
    (by rw [hu, core_setArray hs.cores]; exact smSet_rising _ _ harrays)
  have hread (k : Nat) : smGet DrainEntry.reset ((s.arr n.val a.val).drain.map (fun e => (e.1, e.2.settled p.seq))) k =
      (smGet DrainEntry.reset (s.arr n.val a.val).drain k).settled p.seq := smGet_map_values _ rfl _ k
  refine completes_of_next hexec ⟨⟨_, l, hsettled.trans (by rw [hself, hx]), fun k => ?_, fun k => ?_⟩,
    fun b hb => (hrest b hb).trans (hother b hb), Only.trans (by rw [hu]; exact setCore_only ..) honly⟩
  · dsimp only
    rw [hread]
    rfl
  · dsimp only
    rw [hread]
    simp [DrainEntry.settled]

/-! ### The shadow tally (R213 to R215) -/

/-- The registers of a tally verdict. -/
def tallyRegs (n : Nat) (p : PassRec) : List Nat :=
  [Reg.coreApxTallyCnt n, Reg.coreApxTallyEsc n, Reg.coreApxTallyLast n] ++ (if p.mode = 2 then [Reg.coreApxTallyMean n] else [])

/-- The mean error of a verdict in sixteenths, rounded as Config says. -/
def tallyMean (p : PassRec) : Nat :=
  16 * (tallyErrors p).sum / max 1 (tallyErrors p).length
    + (if 16 * (tallyErrors p).sum % max 1 (tallyErrors p).length ≠ 0
        ∧ Config.tallyUp (tallyErrors p).sum (tallyErrors p).length = true then 1 else 0)

theorem tallyStats_reads {n a : Nat} {p : PassRec} {s : State} (hs : Canon s) :
    (tallyStats n a p s).reg (Reg.coreApxTallyCnt n) = s.reg (Reg.coreApxTallyCnt n) + 1 ∧
    ((tallyStats n a p s).reg (Reg.coreApxTallyEsc n)).toNat =
      min (2 ^ 32 - 1) ((s.reg (Reg.coreApxTallyEsc n)).toNat + tallyEscapes p) ∧
    (p.mode = 2 → (tallyStats n a p s).fld (Reg.coreApxTallyMean n) 0 16 = tallyMean p % 2 ^ 16) ∧
    (tallyStats n a p s).core n = { s.core n with escBeat := (s.core n).escBeat + tallyEscapes p } ∧
    RegMoves (tallyRegs n p) s (tallyStats n a p s) ∧ Only [.regs, .cores] s (tallyStats n a p s) := by
  obtain ⟨u, hu⟩ : ∃ u, u = s.setReg (Reg.coreApxTallyCnt n) (s.reg (Reg.coreApxTallyCnt n) + 1) := ⟨_, rfl⟩
  obtain ⟨v, hv⟩ : ∃ v, v = u.bumpSat (Reg.coreApxTallyEsc n) 32 (tallyEscapes p) := ⟨_, rfl⟩
  obtain ⟨x, hx⟩ : ∃ x, x = v.setReg (Reg.coreApxTallyLast n)
    (BitVec.ofNat 32 (min 65535 ((tallyErrors p).foldl max 0) + a * 2 ^ 16 + p.mode.val * 2 ^ 18)) := ⟨_, rfl⟩
  obtain ⟨y, hy⟩ : ∃ y, y = if p.mode = 2 then x.setFld (Reg.coreApxTallyMean n) 0 16 (tallyMean p) else x := ⟨_, rfl⟩
  obtain ⟨t, ht⟩ : ∃ t, t = y.setCore n { y.core n with escBeat := (y.core n).escBeat + tallyEscapes p } := ⟨_, rfl⟩
  have heq : tallyStats n a p s = t := by
    rw [ht, hy, hx, hv, hu]
    rfl
  have mu : RegMoves [Reg.coreApxTallyCnt n] s u := by
    rw [hu]; exact (RegMoves.refl _ hs.regs).setReg (off := Reg.coreApxTallyCnt n) _ (by simp)
  have mv : RegMoves [Reg.coreApxTallyEsc n] u v := by
    rw [hv]; exact (RegMoves.refl _ mu.wf).bumpSat _ _ (by simp)
  have mx : RegMoves [Reg.coreApxTallyLast n] v x := by
    rw [hx]; exact (RegMoves.refl _ mv.wf).setReg (off := Reg.coreApxTallyLast n) _ (by simp)
  have my : RegMoves (if p.mode = 2 then [Reg.coreApxTallyMean n] else []) x y := by
    rw [hy]
    split
    · exact (RegMoves.refl _ mx.wf).setFld _ _ _ (by simp)
    · exact .refl _ mx.wf
  have mt : RegMoves [] y t := by rw [ht]; exact (RegMoves.refl [] my.wf).congr rfl
  have hcores : y.cores = s.cores := by
    rw [hy, hx, hv, hu]
    split <;> rfl
  have hmean : ∀ off ∈ (if p.mode = 2 then [Reg.coreApxTallyMean n] else []), off = Reg.coreApxTallyMean n := by
    split
    · simp
    · simp
  have hne {off : Nat} (h : off ≠ Reg.coreApxTallyMean n) : t.reg off = x.reg off := by
    rw [mt.only off (by simp), my.only off fun hin => h (hmean off hin)]
  rw [heq]
  refine ⟨?_, ?_, fun hmode => ?_, ?_, ?_, by rw [ht, hy, hx, hv, hu]; exact only_iff.2 (by split <;> simp)⟩
  · rw [hne (by simp [Reg.coreApxTallyCnt, Reg.coreApxTallyMean]),
      mx.only _ (by simp [Reg.coreApxTallyCnt, Reg.coreApxTallyLast]), mv.only _ (by simp [Reg.coreApxTallyCnt, Reg.coreApxTallyEsc]), hu,
      reg_setReg hs.regs]
  · rw [hne (by simp [Reg.coreApxTallyEsc, Reg.coreApxTallyMean]),
      mx.only _ (by simp [Reg.coreApxTallyEsc, Reg.coreApxTallyLast]), hv, toNat_reg_bumpSat mu.wf,
      mu.only _ (by simp [Reg.coreApxTallyEsc, Reg.coreApxTallyCnt])]
  · rw [fld_eq_bits, mt.only _ (by simp), hy, if_pos hmode, State.setFld, reg_setReg mx.wf, bits_putBits _ _ _ _ (by decide)]
  · rw [ht, core_setCore (by rw [hcores]; exact hs.cores), core_congr hcores]
  · refine (mu.mono (by simp [tallyRegs])).trans ((mv.mono (by simp [tallyRegs])).trans ((mx.mono (by simp [tallyRegs])).trans
      ((my.mono ?_).trans (mt.mono (by simp)))))
    exact List.subset_append_right _ _

theorem completes_tallyVerdict {n : Fin 16} {a : Fin 4} {p : PassRec} {rest : List PassRec} {s : State} (hs : Canon s)
    (harrays : Rising (s.core n.val).arrays) (hq : (s.arr n.val a.val).tallyq = p :: rest)
    (hesc : (s.core n.val).escBeat + tallyEscapes p ≤ s.fld (Reg.coreApxEbound n.val) 0 8)
    (hbound : p.mode = 2 → 256 * (tallyErrors p).sum ≤
      s.fld (Reg.coreApxEbound n.val) 8 8 * 2 ^ p.k.toNat * (tallyErrors p).length) :
    Completes (.tallyVerdict n a) s (fun t =>
      (t.arr n.val a.val).tallyq = rest ∧ (t.core n.val).escBeat = (s.core n.val).escBeat + tallyEscapes p ∧
      t.reg (Reg.coreApxTallyCnt n.val) = s.reg (Reg.coreApxTallyCnt n.val) + 1 ∧
      (t.reg (Reg.coreApxTallyEsc n.val)).toNat =
        min (2 ^ 32 - 1) ((s.reg (Reg.coreApxTallyEsc n.val)).toNat + tallyEscapes p) ∧
      (p.mode = 2 → (tallyErrors p).length ≠ 0 →
        (t.fld (Reg.coreApxTallyMean n.val) 0 16 = 16 * (tallyErrors p).sum / (tallyErrors p).length % 2 ^ 16 ∨
          (16 * (tallyErrors p).sum % (tallyErrors p).length ≠ 0 ∧
            t.fld (Reg.coreApxTallyMean n.val) 0 16 =
              (16 * (tallyErrors p).sum / (tallyErrors p).length + 1) % 2 ^ 16))) ∧
      Only [.regs, .cores] s t ∧
      RegsOnly ([Reg.coreApxTallyCnt n.val, Reg.coreApxTallyEsc n.val, Reg.coreApxTallyLast n.val] ++
        (if p.mode = 2 then [Reg.coreApxTallyMean n.val] else [])) s t) := by
  obtain ⟨x, hx⟩ : ∃ x : ArrayState, x = { s.arr n.val a.val with tallyq := rest } := ⟨_, rfl⟩
  obtain ⟨u, hu⟩ : ∃ u, u = s.setArray n.val a.val x := ⟨_, rfl⟩
  have hcanon : Canon u := by rw [hu]; exact (State_setArray_only s _ _ _ (.refl [.cores] s) (by simp)).canon hs
  have hself : u.arr n.val a.val = x := by rw [hu, arr_setArray hs.cores _ _ _ harrays]
  have hregs : u.regs = s.regs := by rw [hu]; rfl
  have hucore : (u.core n.val).escBeat = (s.core n.val).escBeat := by rw [hu, core_setArray hs.cores]
  obtain ⟨t, ht⟩ : ∃ t, t = tallyStats n.val a.val p u := ⟨_, rfl⟩
  obtain ⟨hcnt, htotal, hmean, hcore, hmoves, honly⟩ := tallyStats_reads (n := n.val) (a := a.val) (p := p) hcanon
  rw [← ht] at hcnt htotal hmean hcore hmoves honly
  have hebound (lo len : Nat) : t.fld (Reg.coreApxEbound n.val) lo len = s.fld (Reg.coreApxEbound n.val) lo len := by
    rw [State.fld, hmoves.only _ (by
      simp only [tallyRegs, List.mem_append]
      split <;> simp [Reg.coreApxEbound, Reg.coreApxTallyCnt, Reg.coreApxTallyEsc, Reg.coreApxTallyLast, Reg.coreApxTallyMean]),
      reg_eq_of_regs_eq hregs, State.fld]
  have hescBeat : (t.core n.val).escBeat = (s.core n.val).escBeat + tallyEscapes p := by rw [hcore, hucore]
  have hwithin : boundExceeded t n.val p = false := by
    unfold boundExceeded
    dsimp only
    rw [hebound, hebound, hescBeat, decide_eq_false (Nat.not_lt.2 hesc), Bool.false_or, Bool.and_eq_false_iff]
    by_cases hmode : p.mode = 2
    · exact .inr (decide_eq_false (Nat.not_lt.2 (hbound hmode)))
    · exact .inl (decide_eq_false hmode)
  have hexec : exec (.tallyVerdict n a) s = .next t := by
    refine congrArg Host.Outcome.next ?_
    unfold tallyVerdict
    simp only [hq, ← hx, ← hu, ← ht, hwithin, Bool.false_eq_true, if_false]
  have harr : t.arr n.val a.val = x := by rw [State.arr, hcore, ← hself]; rfl
  refine completes_of_next hexec ⟨by rw [harr, hx], hescBeat, ?_, ?_, fun hmode hlen => ?_, ?_, fun off hoff => ?_⟩
  · rw [hcnt, reg_eq_of_regs_eq hregs]
  · rw [htotal, reg_eq_of_regs_eq hregs]
  · have hmax : max 1 (tallyErrors p).length = (tallyErrors p).length := by omega
    rw [hmean hmode, tallyMean, hmax]
    by_cases hup : 16 * (tallyErrors p).sum % (tallyErrors p).length ≠ 0
        ∧ Config.tallyUp (tallyErrors p).sum (tallyErrors p).length = true
    · rw [if_pos hup]
      exact .inr ⟨hup.1, rfl⟩
    · rw [if_neg hup]
      exact .inl rfl
  · exact Only.trans (by rw [hu]; exact (setCore_only ..).mono (by simp)) honly
  · rw [hmoves.only off hoff, reg_eq_of_regs_eq hregs]

end Sys2Proof.Machine
end

section
/-!
PROOFS. Passes.lean: a pass is judged, issued, and waits for its operands (R177, R178, R204).
-/

namespace Sys2Proof.Machine

/-! ### The verdict of a pass -/

namespace CoresAlike

variable {s t : State} (h : CoresAlike s t)
include h

theorem presented (n a : Nat) : t.presented n a = s.presented n a := by
  rw [h.eq]
  rfl

theorem passVerdict (n : Nat) (w : BitVec 64) (cycle : Nat) : passVerdict t n w cycle = Machine.passVerdict s n w cycle := by
  unfold Machine.passVerdict State.tooWide
  simp only [h.arr, h.core, h.presented]

theorem stepReady (n g base : Nat) (w : BitVec 64) : t.stepReady n g base w = s.stepReady n g base w := by
  unfold State.stepReady
  simp only [h.arr]

end CoresAlike

/-! ### The arrays that take part -/

/-- Arrays `l` of a core take part in a pass that runs exact: each counts it, and their queues stay. -/
structure IssuedOn (n : Nat) (l : List Nat) (s t : State) : Prop where
  canon : Canon t
  seq   : ∀ a ∈ l, t.reg (Reg.coreArraySeq n a) = s.reg (Reg.coreArraySeq n a) + 1
  other : ∀ a, a ∉ l → t.reg (Reg.coreArraySeq n a) = s.reg (Reg.coreArraySeq n a)
  exact : t.reg (Reg.coreApxNExact n) = s.reg (Reg.coreApxNExact n) + BitVec.ofNat 32 l.length
  runs  : (t.core n).runs = (s.core n).runs
  land  : (t.core n).landings = (s.core n).landings
  rowq  : ∀ b, (t.arr n b).rowq = (s.arr n b).rowq
  colq  : ∀ b, (t.arr n b).colq = (s.arr n b).colq
  only  : Only [.regs, .cores] s t

/-- A pass that asks for no other mode is exact: its count and SEQ. -/
theorem issueOn_exact {n a : Nat} {w : BitVec 64} (hw : pApx w = 0) (s : State) : ∃ x : ArrayState, x.issued = true ∧
    x.rowq = (s.arr n a).rowq ∧ x.colq = (s.arr n a).colq ∧
    (issueOn n w a s).1 = ((s.setReg (Reg.coreArraySeq n a) (s.reg (Reg.coreArraySeq n a) + 1)).setReg (Reg.coreApxNExact n)
      ((s.setReg (Reg.coreArraySeq n a) (s.reg (Reg.coreArraySeq n a) + 1)).reg (Reg.coreApxNExact n) + 1)).setArray n a x := by
  have hmode : s.passMode n a w = 0 := by
    unfold State.passMode
    rw [if_pos hw]
  unfold issueOn
  extract_lets mode seq u counter v x sn cand sampled tally y
  have hv : v = u.setReg (Reg.coreApxNExact n) (u.reg (Reg.coreApxNExact n) + 1) := by
    have hcounter : counter = Reg.coreApxNExact n := if_pos hmode
    rw [← hcounter]
  refine ⟨y, rfl, rfl, rfl, ?_⟩
  show v.setArray n a y = (u.setReg (Reg.coreApxNExact n) (u.reg (Reg.coreApxNExact n) + 1)).setArray n a y
  rw [← hv]

/-- One more array takes part. -/
theorem IssuedOn.issueOn {n a : Nat} {l : List Nat} {w : BitVec 64} {s t : State} (hw : pApx w = 0) (h : IssuedOn n l s t) (ha : a ∉ l) :
    IssuedOn n (l ++ [a]) s (issueOn n w a t).1 := by
  obtain ⟨x, hissued, hrowq, hcolq, heq⟩ := issueOn_exact (n := n) (a := a) hw t
  obtain ⟨u, hu⟩ : ∃ u, u = t.setReg (Reg.coreArraySeq n a) (t.reg (Reg.coreArraySeq n a) + 1) := ⟨_, rfl⟩
  obtain ⟨v, hv⟩ : ∃ v, v = u.setReg (Reg.coreApxNExact n) (u.reg (Reg.coreApxNExact n) + 1) := ⟨_, rfl⟩
  obtain ⟨z, hz⟩ : ∃ z, z = v.setArray n a x := ⟨_, rfl⟩
  have hstep : (Machine.issueOn n w a t).1 = z := by rw [heq, hz, hv, hu]
  have hmoves : Moves [.regs, .cores] t z := by
    rw [hz, hv, hu]
    exact State_setArray_only _ _ _ _ (State_setReg_only _ _ _ (State_setReg_only _ _ _ (.refl _ t) (by simp)) (by simp)) (by simp)
  have mu : RegMoves [Reg.coreArraySeq n a] t u := by
    rw [hu]; exact (RegMoves.refl _ h.canon.regs).setReg (off := Reg.coreArraySeq n a) _ (by simp)
  have mv : RegMoves [Reg.coreApxNExact n] u v := by
    rw [hv]; exact (RegMoves.refl _ mu.wf).setReg (off := Reg.coreApxNExact n) _ (by simp)
  have hzreg (off : Nat) : z.reg off = v.reg off := by rw [hz]; rfl
  have hvcores : v.cores = t.cores := by rw [hv, hu]; rfl
  have hzcore : z.core n = { t.core n with arrays := smSet ArrayState.reset (t.core n).arrays a x } := by
    rw [hz, core_setArray (by rw [hvcores]; exact h.canon.cores), core_congr hvcores]
  have hne : x ≠ ArrayState.reset := fun hreset => by
    rw [hreset] at hissued
    exact absurd hissued (by decide)
  have hself : z.arr n a = x := by rw [State.arr, hzcore, CoreState.array, smGet_smSet_value hne]
  have hother (b : Nat) (hb : b ≠ a) : z.arr n b = t.arr n b := by
    rw [State.arr, hzcore, CoreState.array, smGet_smSet_ne_value hne _ hb]
    rfl
  have hseqne (b : Nat) : Reg.coreArraySeq n b ≠ Reg.coreApxNExact n := by
    simp only [Reg.coreArraySeq, Reg.coreApxNExact]
    omega
  have hinj {b : Nat} (hb : b ≠ a) : Reg.coreArraySeq n b ≠ Reg.coreArraySeq n a := by
    simp only [Reg.coreArraySeq]
    omega
  rw [hstep]
  refine ⟨hmoves.canon h.canon, fun b hb => ?_, fun b hb => ?_, ?_, by rw [hzcore]; exact h.runs, by rw [hzcore]; exact h.land,
    fun b => ?_, fun b => ?_, h.only.trans hmoves.only⟩
  · rw [hzreg, mv.only _ (by simpa using hseqne b)]
    by_cases hba : b = a
    · subst hba
      rw [hu, reg_setReg h.canon.regs, h.other b ha]
    · rw [mu.only _ (by simpa using hinj hba), h.seq b (by simpa [hba] using hb)]
  · obtain ⟨hbl, hba⟩ : b ∉ l ∧ b ≠ a := by simpa using hb
    rw [hzreg, mv.only _ (by simpa using hseqne b), mu.only _ (by simpa using hinj hba), h.other b hbl]
  · rw [hzreg, hv, reg_setReg mu.wf, mu.only _ (by simpa using (hseqne a).symm), h.exact, List.length_append, List.length_singleton,
      BitVec.ofNat_add, BitVec.add_assoc]
    rfl
  · by_cases hba : b = a
    · rw [hba, hself, hrowq, h.rowq]
    · rw [hother b hba, h.rowq]
  · by_cases hba : b = a
    · rw [hba, hself, hcolq, h.colq]
    · rw [hother b hba, h.colq]

/-- The issue of a pass on its arrays. -/
def issueAll (n : Nat) (w : BitVec 64) (l : List Nat) (p : State × List (Nat × Word × Fin 3 × BitVec 4 × Option Nat)) :
    State × List (Nat × Word × Fin 3 × BitVec 4 × Option Nat) :=
  l.foldl (fun p a => ((issueOn n w a p.1).1, p.2 ++ [(issueOn n w a p.1).2])) p

theorem issueAll_exact {n : Nat} {w : BitVec 64} (hw : pApx w = 0) {s : State} : ∀ (l m : List Nat)
    (p : State × List (Nat × Word × Fin 3 × BitVec 4 × Option Nat)), (m ++ l).Nodup → IssuedOn n m s p.1 →
    IssuedOn n (m ++ l) s (issueAll n w l p).1 := by
  intro l
  induction l with
  | nil => exact fun m p _ h => by rw [List.append_nil]; exact h
  | cons a l ih =>
    intro m p hnodup h
    have ha : a ∉ m := fun hin => (List.nodup_append.1 hnodup).2.2 a hin a (by simp) rfl
    have hsplit : m ++ a :: l = (m ++ [a]) ++ l := by simp
    rw [hsplit] at hnodup ⊢
    exact ih (m ++ [a]) _ hnodup (h.issueOn hw ha)

/-! ### A pass that waits for its operands (R177) -/

/-- Only bubbles have been counted. -/
structure Bubbled (n : Nat) (s t : State) : Prop where
  wf   : smWf resetVal t.regs = true
  reg  : ∀ off, (∀ a, off ≠ Reg.coreArrayBubbles n a) → t.reg off = s.reg off
  only : Only [.regs] s t

namespace Bubbled

variable {n : Nat} {s t u : State}

theorem refl (h : smWf resetVal s.regs = true) : Bubbled n s s := ⟨h, fun _ _ => rfl, .refl _ s⟩

theorem trans (h : Bubbled n s t) (k : Bubbled n t u) : Bubbled n s u :=
  ⟨k.wf, fun off hoff => (k.reg off hoff).trans (h.reg off hoff), h.only.trans k.only⟩

theorem cores (h : Bubbled n s t) : t.cores = s.cores := h.only.2 .cores (by decide)

/-- Each array of a unit counts its bubble. -/
theorem count (l : List Nat) : ∀ {s : State}, smWf resetVal s.regs = true →
    Bubbled n s (l.foldl (fun s a => s.bumpSat (Reg.coreArrayBubbles n a) 32 1) s) := by
  induction l with
  | nil => exact fun h => .refl h
  | cons a l ih =>
    intro s h
    have hone : RegMoves [Reg.coreArrayBubbles n a] s (s.bumpSat (Reg.coreArrayBubbles n a) 32 1) :=
      (RegMoves.refl _ h).bumpSat _ _ (by simp)
    have hfirst : Bubbled n s (s.bumpSat (Reg.coreArrayBubbles n a) 32 1) :=
      ⟨hone.wf, fun off hoff => hone.only off (by simpa using hoff a),
        (State_bumpSat_only s _ _ _ (.refl [.regs] s) (by simp)).only⟩
    exact hfirst.trans (ih hone.wf)

end Bubbled

theorem stepReady_congr {s t : State} (h : t.cores = s.cores) (n g base : Nat) (w : BitVec 64) :
    t.stepReady n g base w = s.stepReady n g base w := by
  unfold State.stepReady
  simp only [arr_congr (core_congr h n)]

/-- A run whose first step is due, and whose operands are missing, waits one c-cycle. -/
theorem runTo_waits {n : Nat} {r : PassRun} {s : State} (hstep : r.step = 0)
    (hmissing : s.stepReady n (pGang r.word) r.base r.word = false) :
    runTo 1 n r.due r s = ((unitArrays (pGang r.word) r.base).foldl (fun s a => s.bumpSat (Reg.coreArrayBubbles n a) 32 1) s,
      some { r with due := r.due + 1 }) := by
  have hdepth : ¬ pDepth r.word ≤ r.step := by
    unfold pDepth
    omega
  have hcycle : passCycle n r s = ((unitArrays (pGang r.word) r.base).foldl (fun s a => s.bumpSat (Reg.coreArrayBubbles n a) 32 1) s,
      { r with due := r.due + 1 }) := by
    unfold passCycle
    dsimp only
    rw [if_neg hdepth, hmissing, if_pos (by decide)]
  have hmore : ¬ r.step = passSteps { r with due := r.due + 1 } := by
    rw [hstep]
    unfold passSteps pDepth
    dsimp only
    omega
  unfold runTo
  dsimp only
  rw [if_neg (Nat.lt_irrefl _), hcycle]
  dsimp only
  rw [if_neg hmore]
  rfl

/-- Runs whose operands are missing all wait. -/
theorem stepsTo_wait {n c : Nat} : ∀ (l : List PassRun) (p : State × List PassRun), smWf resetVal p.1.regs = true →
    (∀ r ∈ l, r.due = c ∧ r.step = 0 ∧ p.1.stepReady n (pGang r.word) r.base r.word = false) →
    Bubbled n p.1 (l.foldl (fun (p : State × List PassRun) r =>
      ((runTo (c + 1 - r.due) n c r p.1).1, p.2 ++ (runTo (c + 1 - r.due) n c r p.1).2.toList)) p).1 ∧
    (l.foldl (fun (p : State × List PassRun) r =>
      ((runTo (c + 1 - r.due) n c r p.1).1, p.2 ++ (runTo (c + 1 - r.due) n c r p.1).2.toList)) p).2 =
      p.2 ++ l.map (fun r => { r with due := c + 1 }) := by
  intro l
  induction l with
  | nil => exact fun p h _ => ⟨.refl h, by simp⟩
  | cons r l ih =>
    intro p hwf hall
    obtain ⟨hdue, hstep, hmissing⟩ := hall r (by simp)
    obtain ⟨u, hu⟩ : ∃ u, u = (unitArrays (pGang r.word) r.base).foldl (fun s a => s.bumpSat (Reg.coreArrayBubbles n a) 32 1) p.1 :=
      ⟨_, rfl⟩
    have hfirst : Bubbled n p.1 u := by rw [hu]; exact Bubbled.count _ hwf
    have hrun : runTo (c + 1 - r.due) n c r p.1 = (u, some { r with due := c + 1 }) := by
      have hfuel : c + 1 - r.due = 1 := by omega
      rw [hfuel, ← hdue, runTo_waits hstep hmissing, hu]
    obtain ⟨hrest, hleft⟩ := ih (u, p.2 ++ [{ r with due := c + 1 }]) hfirst.wf fun q hq => by
      obtain ⟨hq1, hq2, hq3⟩ := hall q (List.mem_cons_of_mem r hq)
      exact ⟨hq1, hq2, (stepReady_congr hfirst.cores ..).trans hq3⟩
    rw [List.foldl_cons, hrun]
    exact ⟨hfirst.trans hrest, hleft.trans (by simp)⟩

/-- The runs of an issued pass that finds its operands missing wait until the next c-cycle. -/
theorem coreTo_waits {n c : Nat} {s : State} (hs : Canon s) (hland : (s.core n).landings = [])
    (hall : ∀ r ∈ (s.core n).runs, r.due = c ∧ r.step = 0 ∧ s.stepReady n (pGang r.word) r.base r.word = false) :
    ((coreTo n c s).core n).runs = (s.core n).runs.map (fun r => { r with due := c + 1 }) ∧
    ((coreTo n c s).core n).landings = [] ∧
    (∀ off, (∀ a, off ≠ Reg.coreArrayBubbles n a) → (coreTo n c s).reg off = s.reg off) ∧
    Only [.regs, .cores] s (coreTo n c s) := by
  obtain ⟨hbubbled, hleft⟩ := stepsTo_wait (s.core n).runs (s, []) hs.regs hall
  obtain ⟨p, hp⟩ : ∃ p, p = (s.core n).runs.foldl (fun (p : State × List PassRun) r =>
    ((runTo (c + 1 - r.due) n c r p.1).1, p.2 ++ (runTo (c + 1 - r.due) n c r p.1).2.toList)) (s, []) := ⟨_, rfl⟩
  rw [← hp] at hbubbled hleft
  obtain ⟨u, hu⟩ : ∃ u, u = p.1.setCore n { p.1.core n with runs := p.2 } := ⟨_, rfl⟩
  have hsteps : stepsTo n c s = u := by
    rw [hu, hp]
    rfl
  have hmoves : Moves [.regs, .cores] s u := by
    rw [← hsteps]
    exact stepsTo_only n c s (.refl _ s) (by simp)
  have hcore : u.core n = { s.core n with runs := p.2 } := by
    rw [hu, core_setCore (by rw [hbubbled.cores]; exact hs.cores), core_congr hbubbled.cores]
  have hidle := landUpTo_idle (n := n) (hmoves.canon hs) (by rw [hcore]; exact hland) c
  have hto : coreTo n c s = landUpTo n c u := by rw [coreTo, hsteps]
  rw [hto]
  refine ⟨by rw [hidle.core, hcore, hleft, List.nil_append], by rw [hidle.core, hcore]; exact hland, fun off hoff => ?_,
    hmoves.only.trans (hidle.only.mono (by simp))⟩
  rw [hidle.reg, hu]
  exact hbubbled.reg off hoff

/-! ### PASS -/

theorem gangArrays_nodup (g sel : Nat) : (gangArrays g sel).Nodup := by
  unfold gangArrays
  split
  · simp
  · split
    · simp
    · decide

theorem completes_pass {n : Fin 16} {w : BitVec 64} {cycle : Nat} {errs : List PassError} {s : State} (hs : Canon s)
    (hactive : s.weaveActive = true) (hruns : (s.core n.val).runs = []) (hland : (s.core n.val).landings = [])
    (hverdict : passVerdict s n.val w cycle = 0) (hexact : pApx w = 0)
    (hmissing : (gangUnits (pGang w) (pSel w)).all (fun b => !s.stepReady n.val (pGang w) b w) = true) :
    Completes (.pass n w cycle errs []) s (fun t =>
      (t.core n.val).runs.map (fun r => (r.word, r.base, r.due, r.step)) =
        (gangUnits (pGang w) (pSel w)).map (fun b => (w, b, cycle + 1, 0)) ∧ (t.core n.val).landings = [] ∧
      (∀ a ∈ gangArrays (pGang w) (pSel w), t.reg (Reg.coreArraySeq n.val a) = s.reg (Reg.coreArraySeq n.val a) + 1) ∧
      t.reg (Reg.coreApxNExact n.val) =
        s.reg (Reg.coreApxNExact n.val) + BitVec.ofNat 32 (gangArrays (pGang w) (pSel w)).length ∧
      Only [.regs, .cores] s t) := by
  have hidle := coreTo_idle hs hruns hland cycle
  obtain ⟨u, hu⟩ : ∃ u, u = coreTo n.val cycle s := ⟨_, rfl⟩
  rw [← hu] at hidle
  obtain ⟨p, hp⟩ : ∃ p, p = issueAll n.val w (gangArrays (pGang w) (pSel w)) (u, []) := ⟨_, rfl⟩
  have hissued : IssuedOn n.val (gangArrays (pGang w) (pSel w)) u p.1 := by
    rw [hp]
    refine issueAll_exact hexact (gangArrays (pGang w) (pSel w)) [] (u, []) (gangArrays_nodup ..) ?_
    exact ⟨hidle.canon, by simp, fun _ _ => rfl, (BitVec.add_zero _).symm, rfl, rfl, fun _ => rfl, fun _ => rfl, .refl _ u⟩
  obtain ⟨runs, hrunsEq⟩ : ∃ runs, runs = ((gangUnits (pGang w) (pSel w)).map (fun b => (b, w))).map (fun b =>
    (⟨b.2, b.1, cycle, 0, errs, p.2, pChk w || p.1.chkForced n.val, [], [], false⟩ : PassRun)) := ⟨_, rfl⟩
  obtain ⟨v, hv⟩ : ∃ v, v = p.1.setCore n.val { p.1.core n.val with runs := (p.1.core n.val).runs ++ runs } := ⟨_, rfl⟩
  have hvcanon : Canon v := by rw [hv]; exact (State_setCore_only _ _ _ (.refl [.cores] p.1) (by simp)).canon hissued.canon
  have hvcore : v.core n.val = { p.1.core n.val with runs := runs } := by
    rw [hv, core_setCore hissued.canon.cores, hissued.runs, hidle.core, hruns, List.nil_append]
  have hready (g b : Nat) : v.stepReady n.val g b w = s.stepReady n.val g b w := by
    have harr (b : Nat) : v.arr n.val b = p.1.arr n.val b := by rw [State.arr, hvcore]; rfl
    unfold State.stepReady
    simp only [harr, hissued.rowq, hissued.colq, hidle.arr]
  obtain ⟨hleft, hnone, hregs, honly⟩ := coreTo_waits (n := n.val) (c := cycle) hvcanon
    (by rw [hvcore]; exact hissued.land.trans (by rw [hidle.core]; exact hland)) fun r hr => by
      rw [hvcore] at hr
      dsimp only at hr
      rw [hrunsEq, List.map_map] at hr
      obtain ⟨b, hb, rfl⟩ := List.mem_map.1 hr
      refine ⟨rfl, rfl, ?_⟩
      have hunit := List.all_eq_true.1 hmissing b hb
      exact (hready (pGang w) b).trans (by simpa using hunit)
  have hexec : exec (.pass n w cycle errs []) s = .next (coreTo n.val cycle v) := by
    refine congrArg Host.Outcome.next ?_
    have hissue : passIssue n.val w cycle errs [] u = coreTo n.val cycle v := by
      rw [hv, hrunsEq, hp]
      rfl
    unfold passInstr
    dsimp only
    rw [hactive, if_neg (by decide), ← hu, hidle.passVerdict, hverdict, if_neg (by decide), hissue]
  have hvreg (off : Nat) : v.reg off = p.1.reg off := by rw [hv]; rfl
  refine completes_of_next hexec ⟨?_, hnone, fun a ha => ?_, ?_, ?_⟩
  · rw [hleft, hvcore]
    dsimp only
    rw [hrunsEq]
    simp only [List.map_map, Function.comp_def]
  · rw [hregs _ fun b => by simp only [Reg.coreArraySeq, Reg.coreArrayBubbles]; omega, hvreg, hissued.seq a ha, hidle.reg]
  · rw [hregs _ fun b => by simp only [Reg.coreApxNExact, Reg.coreArrayBubbles]; omega, hvreg, hissued.exact, hidle.reg]
  · exact (hidle.only.mono (by simp)).trans (hissued.only.trans (Only.trans (by rw [hv]; exact (setCore_only ..).mono (by simp)) honly))

/-- Settles O23: feeds fill their queues and tiles, a pass is issued and waits for its operands, drains and the spindle path
move their rows, and the verdicts take the oldest pass. -/
theorem arrayCommandsComplete : Obligations.ArrayCommandsComplete := by
  unfold Obligations.ArrayCommandsComplete
  refine ⟨?_, ?_, ?_, ?_, ?_, ?_, ?_, ?_, ?_, ?_, ?_, ?_⟩
  · intro n w cycle errs s hs hactive hruns hland hverdict hexact hmissing
    exact completes_pass hs hactive hruns hland hverdict hexact hmissing
  · intro n a bc col off cycle s hs hactive hslot hruns hland harrays hempty hclean hjudge hpart
    exact completes_feedRowq hs hactive hslot hruns hland harrays hclean hjudge hpart hempty
  · intro n a bc col off cycle s hs hactive hslot hruns hland harrays hempty hclean hjudge hpart
    exact completes_feedColq hs hactive hslot hruns hland harrays hclean hjudge hpart hempty
  · intro n a bc k bf col off cycle s hs hactive hslot hruns hland harrays hint hready hclean hjudge hpart
    exact completes_feedLoad hs hactive hslot hruns hland harrays hclean hjudge hpart hint hready
  · intro n i s hs hactive hslot hruns hland harrays hdrain hvals hjudge hpart hverdict
    exact completes_drain hs hactive hslot hruns hland harrays hdrain hvals hjudge hpart hverdict
  · intro n p off cycle s hs hactive hslot hpart hwf hjudge hfields
    exact completes_qload hactive hslot hpart hwf hs hjudge hfields
  · intro n off cycle s hs hactive hslot hpart hjudge
    exact completes_xload hactive hs hslot hpart hjudge
  · intro n i s hs hactive hformat hidx hups hslot hpart hjudge hwf
    exact completes_sdot hs hactive hformat hidx hups hslot hpart hjudge hwf
  · intro n p off cycle s hs hactive hslot hpart hjudge
    exact completes_sout hactive hs hslot hpart hjudge
  · intro n k s hs hactive hk
    exact completes_apxset hs hactive hk
  · intro n a p rest s hs hruns harrays hq hgood
    exact completes_checksumVerdict hs hruns harrays hq hgood
  · intro n a p rest s hs harrays hq hesc hbound
    exact completes_tallyVerdict hs harrays hq hesc hbound

end Sys2Proof.Machine
end
